-- ==== Sys2Proof/Word.lean ====
section
/-! DEFINITION. The word types of the model and the plain table type. -/

namespace Sys2Proof

/-- One byte. -/
abbrev Byte := BitVec 8

/-- A 16-bit word: BF16 and FP16 values, tokens, epochs. -/
abbrev W16 := BitVec 16

/-- A 32-bit word: FP32 values (FP32 bit patterns), ring indices (R91), memory words (R84). -/
abbrev W32 := BitVec 32

/-- A 64-bit word: keys, cookies, sequence words. -/
abbrev W64 := BitVec 64

/-- A finite table from numbers to values: rising keys, no repeats. -/
abbrev Tab (α : Type) := List (Nat × α)

/-- The Ouvlen and command statuses (R382). -/
inductive Status where
  | ok | busy | eAuth | ePriv | eArg | eRange | eState | eNospace | eTimeout | eFault | eConflict
  deriving DecidableEq, Repr

end Sys2Proof
end

