-- ==== Sys2Proof/Syntax.lean ====
section
/-! DEFINITION. The commands the block takes: one constructor of `Instr` for each row of the
spec's table of operations and events, with the operands the row carries. -/

namespace Sys2Proof

/-- The carrier of an Isain command: an `MBOX_REQ` of a session (R86) or a `COMMAND` ring (R100). -/
inductive Via where
  | mbox (sid : Nat)
  | ring (n : Nat)
  deriving DecidableEq, Repr

/-- The command header as it reaches Isain (R380). `flag` is header bit 8, the lowest bit of
`cflags`. `lenBad` and `resvBad` say that step 1 of R383 finds a length or a reserved bit wrong; `argBad`
that a field of the command which its row's operands do not carry holds a value that no table lists (R7): an
operation that is not one of the command's; `flagsHi` header bits 15:9; `fullBad` that the record of its change would
not fit the settings store (R372). [DESIGN CHOICE: notes/assumptions/104.md] -/
structure CmdHdr where
  via : Via
  part : Nat
  token : Nat
  flag : Bool
  timeoutUs : Nat
  seq : Nat
  lenBad : Bool
  resvBad : Bool
  argBad : Bool := false
  fullBad : Bool := false
  flagsHi : Nat := 0
  deriving DecidableEq, Repr

/-- A setting record (R386): identifier, scope index, value bytes as a number. -/
structure SetRec where
  id : Nat
  scope : Nat
  len : Nat
  value : Nat
  resvBad : Bool
  deriving DecidableEq, Repr

/-- The settings commands that have a read form (R387). -/
inductive SetCmd where
  | power | partition | cluster | port | ptp | parse | classifier | flowTable | egress | policer
  | memory | fabric
  deriving DecidableEq, Repr

/-- The body of `RING_CREATE` (R392). -/
structure RingSpec where
  ring : Nat
  rtype : Nat
  owner : Nat
  esize : Nat
  pinned : Bool
  fullPolicy : Nat
  log2Entries : Nat
  cqRing : Nat
  inflightMax : Nat
  enabled : Bool
  baseAddr : Nat
  fullTimeout : Nat
  deriving DecidableEq, Repr

/-- The body of `RING_CONFIG` (R392): a field is written only with its mask bit set. -/
structure RingMask where
  ring : Nat
  enabled : Option Bool
  pinned : Option Bool
  fullPolicy : Option Nat
  inflightMax : Option Nat
  fullTimeout : Option Nat
  deriving DecidableEq, Repr

/-- The body of `MACSEC_SA_INSTALL` (R393). -/
structure SaSpec where
  ifc : Nat
  transmit : Bool
  sc : Nat
  an : Nat
  xpn : Bool
  ssci : W32
  sci : W64
  nextPn : Nat
  salt : BitVec 96
  sak : BitVec 256
  deriving DecidableEq, Repr

/-- A compiled pattern of a pattern set (R127): its identifier, group, the bytes allowed at each
position, the case-blind flag and the range of end offsets. -/
structure Pattern where
  id : Nat
  group : Nat
  body : List (List Byte)
  caseBlind : Bool
  endRange : Option (Nat × Nat)
  deriving DecidableEq, Repr

/-- A rule row's action (R140). -/
structure RuleAction where
  valid : Bool
  flowMode : Nat
  macLearn : Bool
  pmEn : Bool
  deepEn : Bool
  scanEn : Bool
  annotate : Bool
  fwdAction : Nat
  pmModel : Nat
  deepModel : Nat
  deepPart : Nat
  scanSet : Nat
  policer : Nat
  egressArg : Nat
  deriving DecidableEq, Repr

/-- A rule row (R140): the key, its mask (R139) and the action. -/
structure RuleRow where
  key : BitVec 256
  mask : BitVec 256
  action : RuleAction
  resvBad : Bool
  deriving DecidableEq, Repr

/-- The flow key (R148). -/
structure FlowKey where
  srcIp : BitVec 128
  dstIp : BitVec 128
  srcPort : W16
  dstPort : W16
  ipProto : Byte
  vidOuter : Nat
  tunnelId : W32
  inIf : Nat
  deriving DecidableEq, Repr

/-- A spread table entry (R133). -/
structure SpreadEntry where
  tkind : Nat
  target : Nat
  deriving DecidableEq, Repr

/-- The body of `SPREAD_CONFIG` (R395). -/
structure SpreadSpec where
  ctx : Nat
  sel : BitVec 9
  sym : Bool
  wkey : Bool
  start : Nat
  key : List Byte
  entries : List SpreadEntry
  deriving DecidableEq, Repr

/-- The settings of a baseline (R270); FP32 thresholds, `zLo` absent when off. -/
structure BaselineSpec where
  source : Option Nat
  index : Option Nat
  winNs : Option Nat
  zHi : Option W32
  zLo : Option (Option W32)
  deriving DecidableEq, Repr

/-- The settings of `FTABLE_CREATE` (R273); absent settings take their default where there is one. -/
structure TableSpec where
  ftMode : Option Nat
  valFmt : Option Nat
  nVal : Option Nat
  entLines : Option Nat
  hashSeed : Option W64
  shardSeed : Option W64
  fallback : Option Nat
  localBudget : Option Nat
  remoteBudget : Option Nat
  remoteGrace : Option Nat
  remoteInflightMax : Option Nat
  deriving DecidableEq, Repr

/-- A launch descriptor (R198). -/
structure LaunchDesc where
  kernel : Nat
  firstCore : Nat
  nCores : Nat
  layerId : Nat
  opId : Nat
  slot : Nat
  slotGen : Nat
  slotV : Bool
  argAddr : Nat
  argLen : Nat
  deadline : Nat
  resvBad : Bool
  deriving DecidableEq, Repr

/-- A counter named by block code, index and scope word (R458, R459). -/
structure CounterId where
  id : Nat
  scope : Nat
  deriving DecidableEq, Repr

/-- The Ouvlen header of a received frame (R72), with the outcome of the two checks that need the
frame's bytes: `lenOk`, that `payload_len` agrees with the UDP length, and `tagOk`, that the KMAC256
tag verifies under the key R75 and R78 name. `overrun` says the frame lies beyond the rate of R79.
[DESIGN CHOICE: notes/assumptions/14.md] -/
structure OuvHdr where
  ifc : Nat
  version : Nat
  ftype : Nat
  ackReq : Bool
  lenOk : Bool
  resvBad : Bool
  overrun : Bool
  sid : Nat
  seq : Nat
  target : Nat
  tagOk : Bool
  payloadLen : Nat := 0
  host : BitVec 128 := 0
  deriving DecidableEq, Repr

/-- What a `HELLO` part holds (R75). Part 1 holds ciphertext bytes only: the second half of `ct`. -/
structure HelloPart where
  part : Nat
  bootNonce : BitVec 256
  hostNonce : BitVec 256
  ct : List Byte := []
  deriving DecidableEq, Repr

/-- What a parse program's instruction takes beside a register: a register or a constant (R116). -/
inductive ChiveVal where
  | reg (r : Nat)
  | const (v : W32)
  deriving DecidableEq, Repr

/-- The functions of the `ALU` class (R116); the compares give 1 or 0. -/
inductive AluFn where
  | add | sub | and | or | xor | shl | shr | eq | less
  deriving DecidableEq, Repr

/-- An instruction of a parse program by its class (R116); registers, tables and instructions by
number. `EXTRACT` takes bytes most significant first; a `BRANCH` jumps where its register is not 0.
[DESIGN CHOICE: notes/assumptions/46.md] -/
inductive ChiveOp where
  | extract (dst off len : Nat)
  | alu (fn : AluFn) (dst a : Nat) (b : ChiveVal)
  | branch (r target : Nat)
  | lookup (dst key table : Nat)
  | layer (ltype : Nat) (adv : ChiveVal)
  | declareExt (len : ChiveVal)
  | store (bitOff width src : Nat)
  | flagBits (mask : W16)
  | accept
  | reject
  deriving DecidableEq, Repr

/-- A lookup table of a parse program (R116): by direct index or exact match, its bytes, and its rows;
a register that no row matches gives 0. [DESIGN CHOICE: notes/assumptions/46.md] -/
structure ChiveTable where
  exact : Bool
  bytes : Nat
  rows : List (W32 × W32)
  deriving DecidableEq, Repr

/-- A parse program: its instructions and tables (R116). -/
structure ChiveProg where
  code : List ChiveOp := []
  tables : List ChiveTable := []
  deriving DecidableEq, Repr

/-- The formats of the vector unit (R186). -/
inductive VFmt where
  | fp32 | bf16 | fp16 | int32 | int16 | e4m3 | e5m2 | int8
  deriving DecidableEq, Repr

/-- The special functions (R188). -/
inductive SpecialFn where
  | sqrt | recip | rsqrt | exp | log | tanh | logistic
  deriving DecidableEq, Repr

/-- The operations of the vector unit (R186). -/
inductive VOp where
  | add | sub | mul | fma | compareLt | compareLe | compareEq | min | max
  | special (f : SpecialFn)
  | mulLow | logicAnd | logicOr | logicXor | shl | shr
  | convert (dst : VFmt)
  deriving DecidableEq, Repr

/-- The atomic operations of the cluster store (R192). -/
inductive AtomicOp where
  | add | min | max | swap
  | cas (expect : Nat)
  | fadd
  deriving DecidableEq, Repr

/-- A kernel context's own access to its address space (R183): a load into one of its registers, or a store. -/
inductive KAccess where
  | load (dst addr n : Nat)
  | store (addr n : Nat) (value : W64)
  deriving DecidableEq, Repr

/-- A fabric frame's header (R342) with its sender's IP address and the outcome of its tag check and length check.
[DESIGN CHOICE: notes/assumptions/14.md] -/
structure FabHdr where
  ifc : Nat
  fversion : Nat
  fftype : Nat
  fkey : Nat
  fwatch : Bool
  lenOk : Bool
  tagOk : Bool
  overrun : Bool
  fsys : Nat
  src : Nat
  dst : Nat
  bootCount : Nat
  fseq : Nat
  ip : Nat
  deriving DecidableEq, Repr

/-- A lookup message (R355). -/
structure LookupMsg where
  key : W64
  table : Nat
  gen : Nat
  part : Nat
  slot : Nat
  slotGen : Nat
  token : Nat
  vfirst : Nat
  nvals : Nat
  tag : Nat
  deriving DecidableEq, Repr

/-- A lookup reply message (R355, R356): values as raw bits in the table's format. -/
structure ReplyMsg where
  req : LookupMsg
  status : Nat
  present : Nat
  values : List Nat
  deriving DecidableEq, Repr

/-- A put message (R358). -/
structure PutMsg where
  key : W64
  table : Nat
  part : Nat
  vfirst : Nat
  op : Nat
  values : List W32
  deriving DecidableEq, Repr

/-- A join request (R351). -/
structure JoinMsg where
  serial : Nat
  addr : Nat
  isStatic : Bool
  ips : List Nat
  port : Nat
  deriving DecidableEq, Repr

/-- A member-table change carried in a `VIEW` frame (R353): `row` marks a row of the whole table, and `serial` names the
device of an assignment or a release. [DESIGN CHOICE: notes/assumptions/156.md] -/
structure ViewChange where
  view : Nat
  addr : Nat
  ip : Nat
  port : Nat
  removed : Bool
  lost : Bool
  bootCount : Nat
  serial : Nat := 0
  row : Bool := false
  deriving DecidableEq, Repr

/-- A received PTP message, as far as an ordinary clock uses it (R68): its IEEE 1588 message type (0
`Sync`, 8 `Follow_Up`, 9 `Delay_Resp`, 11 `Announce`), sequence number, two-step flag, in ns the timestamp it
carries and its `correctionField`, the port identity of its sender and, of a `Delay_Resp`, of the port it answers,
and the data set an `Announce` ranks its sender by. -/
structure PtpMsg where
  ifc : Nat
  transport : Nat
  domain : Nat
  kind : Nat
  seq : Nat
  twoStep : Bool
  stamp : Nat
  correction : Int
  source : Nat := 0
  dest : Nat := 0
  rank : Nat := 0
  deriving DecidableEq, Repr

/-- A BFD control packet (RFC 5880 fields that R70 acts on), with its source address. -/
structure BfdPkt where
  ifc : Nat
  sess : Nat
  peer : BitVec 128 := 0
  authBit : Bool
  poll : Bool := false
  final : Bool := false
  state : Nat
  yourDisc : Nat
  myDisc : Nat
  mult : Nat
  txUs : Nat
  rxUs : Nat
  deriving DecidableEq, Repr

/-- What protects a received frame (R66): nothing, a tag of a channel and association with its packet
number that verifies, or one that does not. [DESIGN CHOICE: notes/assumptions/14.md] -/
inductive MacsecIn where
  | none
  | ok (sc an pn : Nat)
  | bad
  deriving DecidableEq, Repr

/-- The frames that the pre-decoder can mark local (R113). -/
inductive LocalKind where
  | arpNdEcho | ouvlen | fabric | bfd | ptp | eapol
  deriving DecidableEq, Repr

/-- The memory classes that the scrubbers and spares name (R330, R435, R459). -/
inductive SramKind where
  | localSram | instr | clusterStore | reduceBuf | dillBuf | chiveGroup | packetBuf | baySram | tableMem
  deriving DecidableEq, Repr

/-- The outcome of a check of a 40-bit code word (R325), as the decoder sees it. -/
inductive WordCheck where
  | clean | corrected | uncorrectable | poisoned
  deriving DecidableEq, Repr

/-- What the reads of a classification meet (R161): a valid row whose key or mask word has gone bad
and matches wrongly, the action word of the winning row uncorrectable, the level of the source and
of the destination address's trie whose slot is uncorrectable, and which of the eight candidate
entries of the source MAC address is. -/
structure ClassReads where
  wrong : Option Nat
  rule : Bool
  src : Option Nat
  dst : Option Nat
  mac : Option Nat
  deriving DecidableEq, Repr

/-- Where the data words of a flit are written: nowhere in a memory, or from an address of device memory, of a core's
local SRAM or of a cluster's store on. -/
inductive FlitDest where
  | none | device (addr : Nat) | sram (core addr : Nat) | store (cluster addr : Nat)
  deriving DecidableEq, Repr

/-- A flit as it is received (R332): whether a header word of it is uncorrectable, where its data words go, and how
many they are. -/
structure Flit where
  headerBad : Bool := false
  dest : FlitDest := .none
  words : Nat := 0
  deriving DecidableEq, Repr

/-- What a start meets that the manual leaves to the parts outside: the recovery strap at the edge
(R35), whether the image in each slot passes the ROM's checks (R410), the fresh boot nonce and boot
key record parts (R74), the last step of R367 the start reaches, whether a section digest fails
after step 4 (R368), the physical cores that fail their self-test (R431, R434), the directory copies that are not valid
(R365), whether the header of the store's half in force is not (R371), the channels that fail training, by region
(R333), and the lanes of die-to-die links that do (R435). [DESIGN CHOICE: notes/assumptions/16.md] -/
structure BootIn where
  recovery : Bool
  okA : Bool
  okB : Bool
  nonce : BitVec 256
  ek : List Byte
  sig : List Byte
  last : Nat
  digestBad : Bool
  coresBad : List Nat := []
  dirBad : List Nat := []
  headBad : Bool := false
  trainBad : List (Nat × Nat) := []
  lanesBad : List (Nat × Nat) := []
  deriving DecidableEq, Repr

/-- The commands. Every constructor's first operand `t` is the device tick at which it happens. -/
inductive Instr where
  -- Isain commands: device, partitions, clusters (R389, R390)
  | deviceReset (t : Nat) (h : CmdHdr)
  | deviceResetTest (t : Nat) (h : CmdHdr)
  | deviceShutdown (t : Nat) (h : CmdHdr)
  | powerConfig (t : Nat) (h : CmdHdr) (recs : List SetRec)
  | settingsReadForm (t : Nat) (h : CmdHdr) (cmd : SetCmd) (recs : List SetRec)
  | bypassForce (t : Nat) (h : CmdHdr)
  | bypassReleaseForce (t : Nat) (h : CmdHdr)
  | bypassRearm (t : Nat) (h : CmdHdr)
  | partitionReinit (t : Nat) (h : CmdHdr) (part : Nat)
  | partitionEnable (t : Nat) (h : CmdHdr) (part : Nat)
  | partitionDisable (t : Nat) (h : CmdHdr) (part : Nat)
  | partitionConfig (t : Nat) (h : CmdHdr) (recs : List SetRec)
  | partitionQuery (t : Nat) (h : CmdHdr) (part : Nat)
  | clusterAssign (t : Nat) (h : CmdHdr) (target graceUs : Nat) (clusters : List Nat)
  | clusterConfig (t : Nat) (h : CmdHdr) (recs : List SetRec)
  | coreMapRead (t : Nat) (h : CmdHdr) (start max : Nat)
  -- rings (R392)
  | ringCreate (t : Nat) (h : CmdHdr) (spec : RingSpec)
  | ringConfig (t : Nat) (h : CmdHdr) (m : RingMask)
  | ringAttach (t : Nat) (h : CmdHdr) (ring sid : Nat)
  | ringDetach (t : Nat) (h : CmdHdr) (ring : Nat)
  | ringDestroy (t : Nat) (h : CmdHdr) (ring : Nat)
  | ringQuery (t : Nat) (h : CmdHdr) (ring : Nat)
  | ringRepush (t : Nat) (h : CmdHdr) (ring : Nat) (start : W32) (count : Nat)
  | barrier (t : Nat) (h : CmdHdr) (rings : List Nat) (pairs : List (Nat × Nat))
  | slotQuery (t : Nat) (h : CmdHdr) (slot : Nat)
  -- ports, windows, time (R393)
  | portConfig (t : Nat) (h : CmdHdr) (recs : List SetRec)
  | portDrain (t : Nat) (h : CmdHdr) (port : Nat)
  | portResume (t : Nat) (h : CmdHdr) (port : Nat)
  | portStatus (t : Nat) (h : CmdHdr) (port : Nat)
  | portTxFrame (t : Nat) (h : CmdHdr) (ifc : Nat) (bytes : List Byte)
  | macsecSaInstall (t : Nat) (h : CmdHdr) (sa : SaSpec)
  | macsecSaRemove (t : Nat) (h : CmdHdr) (ifc : Nat) (transmit : Bool) (sc an : Nat)
  | windowOpen (t : Nat) (h : CmdHdr) (part win rights base pages : Nat)
  | windowClose (t : Nat) (h : CmdHdr) (part win : Nat)
  | bfdSessionSet (t : Nat) (h : CmdHdr) (ifc sess txUs rxUs mult : Nat) (peer : BitVec 128)
  | bfdSessionRemove (t : Nat) (h : CmdHdr) (ifc sess : Nat)
  | timeRead (t : Nat) (h : CmdHdr)
  | ptpConfig (t : Nat) (h : CmdHdr) (recs : List SetRec)
  -- packet path (R395)
  | parseLoad (t : Nat) (h : CmdHdr) (pslot addr len : Nat) (prog : ChiveProg)
  | parseCommit (t : Nat) (h : CmdHdr) (slots : List Nat)
  | parseConfig (t : Nat) (h : CmdHdr) (recs : List SetRec)
  | spreadConfig (t : Nat) (h : CmdHdr) (spec : SpreadSpec)
  | patternLoad (t : Nat) (h : CmdHdr) (setId addr len : Nat) (fromL2 : Bool) (pats : List Pattern)
  | classConfig (t : Nat) (h : CmdHdr) (recs : List SetRec)
  | ruleWrite (t : Nat) (h : CmdHdr) (pipe : Nat) (rows : List (Nat × RuleRow)) (clears : List Nat)
  | ruleRead (t : Nat) (h : CmdHdr) (pipe start max : Nat)
  | prefixAdd (t : Nat) (h : CmdHdr) (v6 : Bool) (len cls : Nat) (pfx : BitVec 128)
  | prefixDel (t : Nat) (h : CmdHdr) (v6 : Bool) (len : Nat) (pfx : BitVec 128)
  | prefixRead (t : Nat) (h : CmdHdr) (v6 : Bool) (level node start max : Nat)
  | macStaticAdd (t : Nat) (h : CmdHdr) (mif vid : Nat) (mac : BitVec 48)
  | macStaticRemove (t : Nat) (h : CmdHdr) (vid : Nat) (mac : BitVec 48)
  | macRead (t : Nat) (h : CmdHdr) (start max : Nat)
  | macFlush (t : Nat) (h : CmdHdr) (mif vid : Nat)
  | flowDelete (t : Nat) (h : CmdHdr) (pipe : Nat) (key : FlowKey) (raced : Bool)
  | flowRead (t : Nat) (h : CmdHdr) (pipe : Nat) (key : FlowKey)
  | flowTableConfig (t : Nat) (h : CmdHdr) (recs : List SetRec)
  | egressConfig (t : Nat) (h : CmdHdr) (recs : List SetRec)
  | policerConfig (t : Nat) (h : CmdHdr) (recs : List SetRec)
  | gateListSet (t : Nat) (h : CmdHdr) (ifc base cycle : Nat) (entries : List (Byte × Nat))
  | gateListRemove (t : Nat) (h : CmdHdr) (ifc : Nat)
  | queueStats (t : Nat) (h : CmdHdr) (ifc : Nat)
  | queueStatsClear (t : Nat) (h : CmdHdr) (ifc : Nat)
  | baselineCreate (t : Nat) (h : CmdHdr) (bl : Nat) (spec : BaselineSpec)
  | baselineChange (t : Nat) (h : CmdHdr) (bl : Nat) (spec : BaselineSpec)
  | baselineDelete (t : Nat) (h : CmdHdr) (bl : Nat)
  | baselineRead (t : Nat) (h : CmdHdr) (bl : Nat)
  -- feature store, models, kernels (R396)
  | ftableCreate (t : Nat) (h : CmdHdr) (table : Nat) (spec : TableSpec)
  | ftableDestroy (t : Nat) (h : CmdHdr) (table : Nat)
  | ftableQuery (t : Nat) (h : CmdHdr) (table : Nat)
  | generationStage (t : Nat) (h : CmdHdr) (table g log2Buckets base n : Nat)
  | generationSeal (t : Nat) (h : CmdHdr) (table g : Nat)
  | generationCommit (t : Nat) (h : CmdHdr) (pairs : List (Nat × Nat))
  | generationCommitBind (t : Nat) (h : CmdHdr) (pairs : List (Nat × Nat))
  | generationDrop (t : Nat) (h : CmdHdr) (table g : Nat)
  | modelStage (t : Nat) (h : CmdHdr) (domain handle cAddr cLen : Nat) (bindings : List (List Nat))
  | modelRemove (t : Nat) (h : CmdHdr) (domain handle : Nat)
  | modelAbort (t : Nat) (h : CmdHdr) (domain : Nat)
  | modelCommit (t : Nat) (h : CmdHdr) (domain : Nat)
  | modelCommitWait (t : Nat) (h : CmdHdr) (domain : Nat)
  | modelQuery (t : Nat) (h : CmdHdr) (domain start max : Nat)
  | kernelLoad (t : Nat) (h : CmdHdr) (handle addr len : Nat)
  | kernelUnload (t : Nat) (h : CmdHdr) (handle : Nat)
  | kernelLaunch (t : Nat) (h : CmdHdr) (d : LaunchDesc)
  -- memory and fabric (R397)
  | memConfig (t : Nat) (h : CmdHdr) (recs : List SetRec)
  | memRetire (t : Nat) (h : CmdHdr) (addr : Nat)
  | fabricConfig (t : Nat) (h : CmdHdr) (recs : List SetRec)
  | fabricLeave (t : Nat) (h : CmdHdr)
  | fabricRelease (t : Nat) (h : CmdHdr) (serial : Nat)
  | fabricWatchAdd (t : Nat) (h : CmdHdr) (addr : Nat)
  | fabricWatchRemove (t : Nat) (h : CmdHdr) (addr : Nat)
  | fabricStatus (t : Nat) (h : CmdHdr) (start max : Nat)
  -- observability (R398)
  | counterRead (t : Nat) (h : CmdHdr) (ids : List CounterId)
  | counterReadClear (t : Nat) (h : CmdHdr) (ids : List CounterId)
  | rosemaryRead (t : Nat) (h : CmdHdr) (start max : Nat)
  | rosemaryFreeze (t : Nat) (h : CmdHdr)
  | rosemaryUnfreeze (t : Nat) (h : CmdHdr)
  | rosemaryClear (t : Nat) (h : CmdHdr) (upto : Nat)
  | traceConfig (t : Nat) (h : CmdHdr) (cluster ring mode post : Nat) (trig : W64)
  | traceMarkBegin (t : Nat) (h : CmdHdr) (cluster mark : Nat)
  | traceMarkEnd (t : Nat) (h : CmdHdr) (cluster mark : Nat)
  | waitforRead (t : Nat) (h : CmdHdr) (start max : Nat)
  | quiesce (t : Nat) (h : CmdHdr)
  | quiesceRelease (t : Nat) (h : CmdHdr)
  | globalStop (t : Nat) (h : CmdHdr)
  | globalResume (t : Nat) (h : CmdHdr)
  -- update, security, boot (R399, R401)
  | updateOpen (t : Nat) (h : CmdHdr) (len : Nat)
  | updateData (t : Nat) (h : CmdHdr) (offset : Nat) (data : List Byte)
  | updateFinish (t : Nat) (h : CmdHdr) (sigOk : Bool)
  | updateActivate (t : Nat) (h : CmdHdr)
  | updateConfirm (t : Nat) (h : CmdHdr)
  | updateRollback (t : Nat) (h : CmdHdr)
  | updateAbort (t : Nat) (h : CmdHdr)
  | updateStatus (t : Nat) (h : CmdHdr)
  | attest (t : Nat) (h : CmdHdr) (nonce : List Byte) (repAddr : Nat) (sig : List Byte)
  | certRead (t : Nat) (h : CmdHdr) (start max : Nat)
  | sessionKeySet (t : Nat) (h : CmdHdr) (part : Nat) (kemCt : List Byte) (wrapped : BitVec 256)
  | rightsSet (t : Nat) (h : CmdHdr) (part : Nat) (rights : W16)
  | debugUnlock (t : Nat) (h : CmdHdr) (tokAddr tokLen : Nat) (sigOk : Bool)
  | bootStatus (t : Nat) (h : CmdHdr)
  | settingsSync (t : Nat) (h : CmdHdr)
  | logRead (t : Nat) (h : CmdHdr) (start max : Nat)
  | commandTimeout (t : Nat) (via : Via) (seq : Nat)
  -- Ouvlen frames and timers (R72 to R86)
  | hello (t : Nat) (f : OuvHdr) (p : HelloPart)
  | helloPartExpiry (t : Nat) (ifc seq : Nat)
  | keyFetch (t : Nat) (f : OuvHdr)
  | ringWrite (t : Nat) (f : OuvHdr) (start : W32) (entries : List (List W64))
  | doorbellProduce (t : Nat) (f : OuvHdr) (idx : W32)
  | doorbellRelease (t : Nat) (f : OuvHdr) (idx : W32)
  | mboxReq (t : Nat) (f : OuvHdr) (h : CmdHdr) (opcode : Nat)
  | winWrite (t : Nat) (f : OuvHdr) (offset : Nat) (data : List Byte)
  | winRead (t : Nat) (f : OuvHdr) (offset len : Nat)
  | flowTableLockSet (t : Nat) (f : OuvHdr) (pipe : Nat)
  | flowTableLockClear (t : Nat) (f : OuvHdr) (pipe : Nat)
  | hostClose (t : Nat) (f : OuvHdr) (status : Nat)
  | sessionIdleTimeout (t : Nat) (sid : Nat)
  | ackSend (t : Nat) (sid : Nat)
  | creditAck (t : Nat) (sid ring : Nat)
  | ringPush (t : Nat) (ring : Nat)
  | contextFetch (t : Nat) (ring : Nat) (check : WordCheck)
  | requestAdmit (t : Nat) (ring : Nat)
  | slotWaitExpiry (t : Nat) (ring : Nat)
  | fenceEntry (t : Nat) (ring : Nat)
  | fenceComplete (t : Nat) (ring : Nat)
  | nopEntry (t : Nat) (ring : Nat)
  | commandEntry (t : Nat) (ring : Nat)
  | ringFullStallExpiry (t : Nat) (ring : Nat)
  -- line frames (R55 to R64, R113 to R135)
  | frameReceive (t : Nat) (ifc : Nat) (bytes : List Byte) (fcsOk : Bool) (sec : MacsecIn)
  | pfcReceive (t : Nat) (ifc : Nat) (quanta : List (Nat × Nat))
  | arpNdEcho (t : Nat) (ifc : Nat) (request : List Byte)
  | chiveParse (t : Nat) (frame group : Nat) (fault : Option Nat)
  | chiveGroupRewrite (t : Nat) (group : Nat)
  | classify (t : Nat) (frame : Nat) (r : ClassReads)
  | flowMissComplete (t : Nat) (frame : Nat)
  | reverseLookupDone (t : Nat) (slot : Nat)
  | packetModelWalk (t : Nat) (frame core : Nat) (check : WordCheck)
  | pmWaitExpiry (t : Nat) (frame : Nat)
  | patternScanStart (t : Nat) (engine : Nat)
  | patternScanEnd (t : Nat) (engine : Nat) (fault : Bool)
  | egressDecision (t : Nat) (frame : Nat) (macBad : Option Nat)
  | egHoldExpiry (t : Nat) (frame : Nat)
  | transmitSelect (t : Nat) (ifc : Nat)
  | gateEntryAdvance (t : Nat) (ifc : Nat)
  | gateListStart (t : Nat) (ifc : Nat)
  -- links and bypass (R47, R48, R61, R62)
  | laneFail (t : Nat) (port : Nat) (lane : Nat)
  | fallbackTimeout (t : Nat) (port : Nat)
  | linkUp (t : Nat) (ifc : Nat)
  | linkDown (t : Nat) (ifc : Nat)
  | bypassLinkTimeout (t : Nat)
  | bypassRetryExpiry (t : Nat)
  | bypassHoldExpiry (t : Nat)
  | drainComplete (t : Nat) (port : Nat)
  | drainTimeout (t : Nat) (port : Nat)
  -- time and BFD (R38, R68, R70)
  | ptpMessageReceive (t : Nat) (m : PtpMsg)
  | ppsInEdge (t : Nat) (highNs : Nat)
  | ppsOutPulse (t : Nat)
  | bfdReceive (t : Nat) (p : BfdPkt)
  | bfdTxTimer (t : Nat) (ifc sess : Nat)
  | bfdDetectTimeout (t : Nat) (ifc sess : Nat)
  -- requests on the clusters
  | slotRunning (t : Nat) (slot : Nat)
  | lookupJoinHold (t : Nat) (home : Nat)
  | localLookupDone (t : Nat) (fetch : Nat) (check : WordCheck)
  | feLockRetry (t : Nat) (fetch : Nat)
  | fetchEndTick (t : Nat) (fetch : Nat)
  | walkComplete (t : Nat) (core walk : Nat) (check : WordCheck)
  | shardRecopyDone (t : Nat) (core domain handle : Nat) (check : WordCheck)
  | deadlineCutoff (t : Nat) (slot : Nat)
  | reduceGroupOpen (t : Nat) (core ctx op len expected closeTick : Nat) (dest : Nat × Nat)
  | reduceContribution (t : Nat) (cluster group : Nat) (data : Option (List W32))
  | reduceCloseTick (t : Nat) (cluster group : Nat)
  -- kernels (R181 to R201)
  | kernelStart (t : Nat) (core : Nat)
  | kernelImageLoadDone (t : Nat) (core kernel : Nat) (check : WordCheck)
  | kernelEnd (t : Nat) (core ctx status : Nat)
  | kernelMaxRunExpiry (t : Nat) (core ctx : Nat)
  | vectorInstruction (t : Nat) (core ctx : Nat) (fmt : VFmt) (op : VOp) (sat : Bool) (dst : Nat) (a b c : List W32)
  | clusterStoreAtomic (t : Nat) (core ctx dst addr : Nat) (wide : Bool) (op : AtomicOp) (arg : Nat)
  | clusterFence (t : Nat) (core ctx : Nat) (acc : List KAccess)
  | kernelMarkInsn (t : Nat) (core ctx : Nat) (begin : Bool) (mark : Nat)
  | dmaPost (t : Nat) (core ctx addr : Nat)
  | dmaComplete (t : Nat) (core ctx : Nat)
  | matrixJobIssue (t : Nat) (core ctx array addr : Nat)
  | matrixJobEnd (t : Nat) (core array : Nat) (accFault : Bool)
  | reassignGraceExpiry (t : Nat) (cluster : Nat)
  | clusterResetDone (t : Nat) (cluster : Nat)
  -- flow state and baselines
  | rsUpdateDone (t : Nat) (pipe recIdx : Nat) (jobFault : Bool)
  | rsUpdateTimeout (t : Nat) (pipe recIdx : Nat)
  | baselineWindowClose (t : Nat) (bl : Nat)
  -- generations, epochs, ordering
  | generationRetire (t : Nat) (table g : Nat)
  | generationDropDone (t : Nat) (table g : Nat)
  | epochRetire (t : Nat) (domain : Nat)
  | modelCommitFlip (t : Nat) (domain : Nat)
  | barrierComplete (t : Nat) (part idx : Nat)
  | quiesceDone (t : Nat)
  -- fabric frames (R343)
  | heartbeat (t : Nat) (f : FabHdr)
  | join (t : Nat) (f : FabHdr) (m : JoinMsg)
  | joinReply (t : Nat) (f : FabHdr) (status addr : Nat) (coord : Nat × Nat)
  | view (t : Nat) (f : FabHdr) (changes : List ViewChange)
  | elect (t : Nat) (f : FabHdr) (serial prio term highView : Nat)
  | lookup (t : Nat) (f : FabHdr) (msgs : List LookupMsg)
  | lookupReply (t : Nat) (f : FabHdr) (msgs : List ReplyMsg)
  | put (t : Nat) (f : FabHdr) (msgs : List PutMsg)
  | putAck (t : Nat) (f : FabHdr) (acked : Nat) (statuses : List Nat)
  | fabricPost (t : Nat) (core ctx ring : Nat) (entry : List W64)
  | heartbeatSend (t : Nat)
  | electSend (t : Nat)
  | joinRetry (t : Nat)
  | peerLossTimeout (t : Nat) (peer : Nat)
  | lostPeerProbe (t : Nat) (peer : Nat)
  | lookupRto (t : Nat) (tag : Nat)
  | putRto (t : Nat) (fseq : Nat)
  | channelSuspectExpiry (t : Nat) (peer channel : Nat)
  -- pins, power, boot
  | pwrgdRise (t : Nat)
  | pwrgdFall (t : Nat)
  | coldRstNFall (t : Nat) (lowNs : Nat)
  | coldRstNRise (t : Nat) (b : BootIn)
  | warmRstNFall (t : Nat) (lowNs : Nat)
  | warmRstNRise (t : Nat) (b : BootIn)
  | startWatchdogExpiry (t : Nat) (b : BootIn)
  | sdRefclkLoss (t : Nat)
  | sdRefclkReturn (t : Nat)
  | sysRefclkLoss (t : Nat)
  | freezeNFall (t : Nat)
  | freezeNRise (t : Nat)
  | jtagInstruction (t : Nat) (boundary : Bool) (scope : Nat)
  | smbPwrCapWrite (t : Nat) (value : Nat)
  | smbAlertStatusClear (t : Nat) (ones : Byte)
  | smbWriteRefused (t : Nat) (offset value : Nat)
  | clusterThermalStep (t : Nat) (cluster : Nat) (tempC : Int)
  | xDieHot (t : Nat) (tempC : Int)
  | thermtrip (t : Nat)
  | voltageDroop (t : Nat) (cluster : Nat)
  | powerSample (t : Nat) (watts : Nat) (tjMax : Int)
  | ceilingUpdate (t : Nat)
  | timeBeacon (t : Nat) (island elapsed : Nat)
  -- aging, scrubbing, memory
  | flowAgingPass (t : Nat) (pipe entry : Nat) (raced : Bool)
  | macAgingPass (t : Nat) (entry : Nat) (raced : Bool)
  | macPinRelease (t : Nat) (entry : Nat)
  | ruleScrubPass (t : Nat) (pipe : Nat) (bad : List Nat)
  | tableEntryRewrite (t : Nat) (table idx : Nat)
  | patrolScrub (t : Nat) (line : Nat) (check : WordCheck)
  | sramScrub (t : Nat) (kind : SramKind) (unit row : Nat) (check : WordCheck)
  | mr4Poll (t : Nat) (region channel rate : Nat)
  | oscillatorTrack (t : Nat) (region channel : Nat)
  | pageRetire (t : Nat) (addr : Nat)
  | linkFlitReceive (t : Nat) (link lane : Nat) (check : WordCheck) (flit : Flit) (attempt : Nat)
  -- recovery
  | dieSilentTimeout (t : Nat) (die : Nat)
  | devResetRunClear (t : Nat)
  | isainHeartbeatMiss (t : Nat) (core : Nat)
  | isainRestartDone (t : Nat) (undo : List (Via × Nat))
  | hungSlotScan (t : Nat)
  | reinitRevoke (t : Nat) (part : Nat)
  | orphanSlotFree (t : Nat) (slot : Nat)
  | spareTest (t : Nat) (core : Nat) (passed : Bool)
  | coreRetire (t : Nat) (core : Nat) (spareFails : List Nat)
  | settingsAppend (t : Nat) (len : Nat)
  | updateLockExpiry (t : Nat)
  -- observability
  | rosemaryRecord (t : Nat) (kind unit : Nat) (data : List W64)
  | rosemaryLogCopy (t : Nat)
  | dillDrain (t : Nat) (cluster : Nat)
  | pfcPauseExpiry (t : Nat) (ifc prio : Nat)
  | flowLearnComplete (t : Nat) (pipe recIdx : Nat)
  | deviceResetApply (t : Nat) (b : BootIn)
  | wallTimeHoldover (t : Nat)
  deriving DecidableEq, Repr

end Sys2Proof
end

