-- ==== Sys2Proof/Decode.lean ====
section
/-! DEFINITION. Reading a command from the bits of its row of the table. No row of the table of this
block gives bits to its command: a command comes as frames, ring entries, pins and events, whose
layouts the meanings carry. -/

namespace Sys2Proof

/-- The command a word spells by the table's bits; the table gives no row any bits.
[DESIGN CHOICE: notes/assumptions/3.md] -/
def decodeTableWord (_nbits _w : Nat) : Option Instr := none

end Sys2Proof
end

