-- ==== Sys2Proof/Config.lean ====
section
/-! DEFINITION. What the manual leaves open or hides: uninterpreted constants with no body, so that
no statement can rest on their values. -/

namespace Sys2Proof.Config

/-- The fixed hash functions of the flow table (R149), by number: 0 and 1 give the buckets, 2 the
signature. The argument is the 352-bit key. [DESIGN CHOICE: notes/assumptions/105.md] -/
opaque flowHash : Nat → Nat → Nat

/-- The two fixed hash functions of the MAC table (R154), by number, on the key.
[DESIGN CHOICE: notes/assumptions/105.md] -/
opaque macHash : Nat → Nat → Nat

/-- A value the manual leaves free, the n-th one asked for.
[DESIGN CHOICE: notes/assumptions/11.md] -/
opaque free : Nat → Nat

/-- A free choice among what the manual leaves unordered, the n-th one asked for.
[DESIGN CHOICE: notes/assumptions/11.md] -/
opaque freeBool : Nat → Bool

/-- How far, in units in the last place, a special function's result lies from the nearest value
(R188): function number and argument. [DESIGN CHOICE: notes/assumptions/49.md] -/
opaque ulpError : Nat → W32 → Nat

/-- A result of a vector operation that the manual does not state: operation number and operands
(R186). [DESIGN CHOICE: notes/assumptions/48.md] -/
opaque vecOpen : Nat → W32 → W32 → W32

/-- The patterns a compare instruction writes for a relation that holds and one that does not
(R186). [DESIGN CHOICE: notes/assumptions/48.md] -/
opaque cmpWord : Bool → W32

/-- Whether a quiet NaN in an ordered compare sets `invalid` (R187).
[DESIGN CHOICE: notes/assumptions/48.md] -/
opaque cmpSignals : Bool

/-- Whether tininess is found before rounding (R187). [DESIGN CHOICE: notes/assumptions/48.md] -/
opaque tinyBefore : Bool

/-- Whether the integer minimum and maximum of the cluster store are signed (R192).
[DESIGN CHOICE: notes/assumptions/71.md] -/
opaque atomicSigned : Bool

/-- The packet number at which MACsec warns (R66). [DESIGN CHOICE: notes/assumptions/38.md] -/
opaque pnWarn : Bool → Nat

/-- The shared secret that ML-KEM-1024 decapsulation gives for a ciphertext, under the key pair whose
encapsulation key is the first argument (R75). [DESIGN CHOICE: notes/assumptions/14.md] -/
opaque kemShared : List (BitVec 8) → List (BitVec 8) → BitVec 256

/-- The bytes of the certificate chain, by place, that manufacture writes and the manual does not give (R421).
[DESIGN CHOICE: notes/assumptions/107.md] -/
opaque certByte : Nat → BitVec 8

/-- The clock in MHz to which stretched cycles hold a cluster during a droop (R29, R43).
[DESIGN CHOICE: notes/assumptions/122.md] -/
opaque droopMhz : Nat

/-- The sizes of the kernel images in a `KERNELS` section, in order, as the toolkit lays them out
(R197, R299). [DESIGN CHOICE: notes/assumptions/23.md] -/
opaque kernelSizes : List Byte → List Nat

/-- The kind and severity of the Rosemary record written when a commit leaves `rs_model` without a
cell section (R263). [DESIGN CHOICE: notes/assumptions/114.md] -/
opaque cellEvent : Nat × Nat

/-- The order in which the 32 data bits take their columns among the 7-bit values of weight 3 (R324).
[DESIGN CHOICE: notes/assumptions/108.md] -/
opaque hsiaoOrder : Nat → Nat

/-- The bank in which a controller places a row: region, channel and row (R323: the mapping is not visible).
[DESIGN CHOICE: notes/assumptions/18.md] -/
opaque bankOf : Nat → Nat → Nat → Nat

end Sys2Proof.Config
end

