-- ==== Sys2Proof/Machine/CheckByte.lean ====
section
/-! DEFINITION. Where a word of a region lies in its channel's rows (R323), and the check byte of every memory word
and link word (R324, R325). -/

namespace Sys2Proof.Machine

/-! ### Places (R323) -/

/-- Where a word lies in its region: its channel, the row in the channel's row sequence, the word within that row's
data area, and the row byte of its check byte. -/
structure WordPlace where
  channel : Nat
  row : Nat
  word : Nat
  checkAt : Nat
  deriving DecidableEq, Repr

/-- The place of the word at an offset of a region. -/
def placeOf (o : Nat) : WordPlace :=
  let b := o / 512
  let j := b / 4
  let word := (j % 3 * 512 + o % 512) / 4
  { channel := b % 4, row := j / 3, word := word, checkAt := 1536 + word }

/-- The rows of a region that the bytes of a page lie in, as channel and row, in rising order of the page's blocks. -/
def pageRows (o : Nat) : List (Nat × Nat) :=
  ((List.range 8).map fun i => ((placeOf (o + 512 * i)).channel, (placeOf (o + 512 * i)).row)).eraseDups

/-! ### The check byte (R324, R325) -/

/-- The 7-bit values of weight 3. -/
def weight3 : List (BitVec 7) :=
  [7, 11, 13, 14, 19, 21, 22, 25, 26, 28, 35, 37, 38, 41, 42, 44, 49, 50, 52, 56, 67, 69, 70, 73, 74, 76, 81, 82, 84,
   88, 97, 98, 100, 104, 112]

/-- `n` items of a list, each taken out of it at a place that the `i`-th number of an order names. -/
def drawCols (order : Nat → Nat) : Nat → Nat → List (BitVec 7) → List (BitVec 7)
  | 0, _, _ => []
  | n + 1, i, l =>
    match l[order i % l.length]? with
    | none => []
    | some c => c :: drawCols order n (i + 1) (l.erase c)

/-- The columns of data bits 0 to 31: distinct values of weight 3; which one each bit has is open, and the same in
every memory and link. [DESIGN CHOICE: notes/assumptions/108.md] -/
def dataCols : List (BitVec 7) := drawCols Config.hsiaoOrder 32 0 weight3

/-- The check bits of data: the columns of its set bits, added. -/
def checkBits (d : W32) : BitVec 7 :=
  dataCols.zipIdx.foldl (fun c e => if d.getLsbD e.2 then c ^^^ e.1 else c) 0

/-- The check byte of a clean word, and of a poisoned one. -/
def checkByte (d : W32) (poison : Bool) : Byte :=
  if poison then (1 : BitVec 1) ++ ~~~ checkBits d else (0 : BitVec 1) ++ checkBits d

/-- What a read of data beside a stored check byte finds, and the data it gives. -/
def readChecked (d : W32) (c : Byte) : WordCheck × W32 :=
  let s := c.extractLsb' 0 7 ^^^ checkBits d
  if c.getLsbD 7 then (if s = 0x7F then .poisoned else .uncorrectable, d)
  else if s = 0 then (.clean, d)
  else match dataCols.idxOf? s with
    | some i => (.corrected, d ^^^ (1 <<< i))
    | none => (if s ∈ [1, 2, 4, 8, 16, 32, 64] then .corrected else .uncorrectable, d)

end Sys2Proof.Machine
end

