-- ==== Sys2Proof/Machine/State.lean ====
section
/-! DEFINITION. The state of the K4 as plain data, one record per chapter of the manual, the
outcomes a command can stop with, and the state right after reset. Default field values are the
reset values; INVENTORY.md lists each with its rule. -/

namespace Sys2Proof.Machine

/-- No command of this block stops with a fault: every bad access has a status or a counter of the
spec's own (R7, R73, R84, R200, R331, R382). -/
inductive Fault
  deriving DecidableEq, Repr

/-- The ways a command is refused by the model. -/
inductive Refusal where
  /-- Raised by `exec` for a row of the table that has no meaning yet. Safe: the run stops. -/
  | notModelled (mnemonic : String)
  deriving DecidableEq, Repr

/-- A byte-addressed memory: rising addresses, no zero entries; an unlisted byte reads 0 (R327).
[DEDUCED: notes/assumptions/13.md] -/
abbrev Mem := List Host.Cell

/-- The fault state of a 32-bit memory word (R324, R325): one flipped bit, an uncorrectable word,
or a poisoned word. A word not listed is clean. [DESIGN CHOICE: notes/assumptions/108.md] -/
inductive WordFault where
  | flipped | broken | poison
  deriving DecidableEq, Repr

/-! ### What the K4 has sent -/

/-- Everything the K4 puts on its wires or answers, in order, newest last.
[DESIGN CHOICE: notes/assumptions/109.md] -/
inductive Sent where
  /-- The answer to a command of a `COMMAND` ring (R101, R380): ring, sequence, status, `detail`,
  `done_tick`, body fields. Its `CMD_DONE` entry carries what fits of it. -/
  | resp (via : Via) (seq : Nat) (status : Status) (detail : Nat) (tick : Nat) (body : List Nat)
  /-- An Ouvlen frame (R72, R73, R78): session, interface, type, `seq`, target, status, payload words,
  credit, and the 16 bytes of its tag as a number, byte 0 highest; 0 where the frame is untagged. An
  `MBOX_RESP` (type 0xA) carries the words of its response. -/
  | ouv (sid ifc ftype seq target : Nat) (status : Status) (words : List Nat)
      (credit : Option (Nat × W32)) (tag : Nat)
  /-- A line frame leaving an interface from a queue (8: the control queue), protected where MACsec is on (R65); with
  `fcsOk` clear its FCS is inverted (R331). `stamp` is the wall time at which a PTP event message was
  sent (R67); none for any other frame, and before wall time is disciplined. -/
  | line (ifc queue : Nat) (bytes : List Byte) (fcsOk : Bool) (stamp : Option Int)
  /-- A PFC frame for a priority (R64). -/
  | pfc (ifc prio : Nat) (pause : Bool)
  /-- A fabric frame (R342, R343, R346): its interface and UDP source port, the IP address and port it goes to;
  from its header `src_addr`, `dst_addr`, `fkey`, `fftype`, `fwatch`, `boot_count`, `fseq`, `n_msg` and `payload_len`;
  its messages as words; and the 16 bytes of its tag as a number, byte 0 highest. -/
  | fab (ifc sport ip port src dst fkey fftype : Nat) (fwatch : Bool) (boot fseq nMsg len : Nat)
      (words : List Nat) (tag : Nat)
  /-- A BFD control packet (R70): interface, session, state, Poll and Final bits, own and peer's
  discriminator, multiplier, desired and required intervals in us. -/
  | bfd (ifc sess state : Nat) (poll final : Bool) (myDisc yourDisc mult txUs rxUs : Nat)
  /-- A PTP `Delay_Req` (R68): interface, sequence number, and the wall time at which it was sent. -/
  | ptp (ifc seq : Nat) (stamp : Option Int)
  /-- A frame held by its fields that leaves protected (R65): channel identifier, association and packet number. -/
  | secured (sci an pn : Nat) (frame : Sent)
  deriving DecidableEq, Repr

/-! ### Package, power, clocks and reset (02) -/

/-- `dev_state` (R50). -/
inductive DevState where
  | rom | boot | running | recovery | stopped
  deriving DecidableEq, Repr

/-- What holds every island still until the board acts (R32, R37, R41, R442). -/
inductive Halt where
  | none | powerLost | thermal | clockLost | cycleNeeded
  deriving DecidableEq, Repr

/-- The inline bypass control (R47, R48). -/
structure Bypass where
  reqHigh : Bool := false
  forced : Bool := false
  linkDue : Option Nat := none
  failRun : Nat := 0
  retryDue : Option Nat := none
  holdDue : Option Nat := none
  linkTimeout : Nat := 2000000000
  retry : Nat := 10000000000
  hold : Nat := 100000000
  deriving DecidableEq, Repr

/-- Pins, resets, power and the SMBus registers. `dieMv` is what each core rail is set to, `railFrom` where it
stood at its last change and when (R29). [DESIGN CHOICE: notes/assumptions/5.md;
DESIGN CHOICE: notes/assumptions/6.md] [DESIGN CHOICE: notes/assumptions/119.md] -/
structure Package where
  pwrgd : Bool := true
  coldLow : Bool := true
  warmLow : Bool := false
  halt : Halt := .none
  tripArmed : Bool := true
  thermtrip : Bool := false
  sdClock : Bool := true
  sysClock : Bool := true
  ppsOut : Option Nat := none
  ppsIn : Option Nat := none
  devState : DevState := .rom
  tjMax : Int := 0
  pkgPower : Nat := 0
  capBmc : Nat := 90
  clkMin : Nat := 0
  alert : Byte := 0
  lastReset : Nat := 1
  bootCold : Bool := true
  capP0 : Nat := 900
  floorMhz : Nat := 2600
  powerSamples : List Nat := []
  dieMv : Tab Nat := [(0, 750), (1, 750), (2, 750), (3, 750)]
  railFrom : Tab (Nat × Nat) := []
  xMv : Nat := 750
  bypass : Bypass := {}
  jtagScopes : Nat := 0
  lastJtag : Option Nat := none
  deriving DecidableEq, Repr

/-! ### Ports (03) -/

/-- A MACsec secure association (R65). `nextPn` is the next packet number to send; of a receive
association it is one above the highest received. `warned` says that `pn_warn` has been told. -/
structure Sa where
  xpn : Bool
  ssci : W32
  sci : W64
  nextPn : Nat
  salt : BitVec 96
  sak : BitVec 256
  warned : Bool := false
  deriving DecidableEq, Repr

/-- A BFD session (R70). `remoteMinRx` is the peer's required receive interval in us, `polling` says
that a poll sequence runs, and until it ends `txHeld` and `rxHeld` are the intervals that stay in force. -/
structure Bfd where
  txUs : Nat
  rxUs : Nat
  mult : Nat
  peer : BitVec 128
  state : Nat := 1
  remoteDisc : Nat := 0
  remoteState : Nat := 1
  detectDue : Option Nat := none
  txDue : Nat := 0
  remoteMinRx : Nat := 1
  polling : Bool := false
  txHeld : Option Nat := none
  rxHeld : Option Nat := none
  deriving DecidableEq, Repr

/-- One interface: the four line interfaces as `in_if` 0 to 3, 4 the service port (R56 to R70).
[DESIGN CHOICE: notes/assumptions/6.md] -/
structure Ifc where
  role : Nat := 0
  pair : Option Nat := none
  maxFrame : Nat := 9216
  addrs : Tab (BitVec 128) := []
  tpidExtra : Nat := 0x9100
  defaultPrio : Nat := 0
  dscpMap : Tab Nat := []
  pfcEnable : Byte := 0
  pfcXoff : Tab Nat := []
  pfcXon : Tab Nat := []
  pfcHeadroom : Tab Nat := []
  macsecMode : Nat := 0
  confOffset : Nat := 0
  replayWindow : Nat := 0
  link : Bool := false
  pausedUntil : Tab Nat := []
  xoffSent : Byte := 0
  txSas : Tab Sa := []
  txEver : Bool := false
  rxSas : Tab Sa := []
  ptpTc : Bool := false
  bfd : Tab Bfd := []
  deriving DecidableEq, Repr

/-- The drain state of a port (R60, R61): `start` is when it began, `hs` the commands that wait. -/
inductive Drain where
  | inService | draining (start : Nat) (hs : List CmdHdr) | drained
  deriving DecidableEq, Repr

/-- A line port (R54, R61, R62). `heldEnd` is when a frame it had admitted last reached a queue or was
dropped, which ends step 3 of a drain. [DESIGN CHOICE: notes/assumptions/6.md] -/
structure Port where
  mode : Nat := 0
  drain : Drain := .drained
  laneFallback : Bool := false
  laneBerLimit : W32 := 0x3951B717
  fallbackTimeout : Nat := 5000000000
  drainTimeout : Nat := 100000000
  lanesFailed : Byte := 0
  fallenBack : Bool := false
  fallbackDue : Option Nat := none
  downUntilConfig : Bool := false
  heldEnd : Nat := 0
  deriving DecidableEq, Repr

/-- A `Sync` received (R67, R68): its sequence number, the tick and the wall time of its receipt,
whether its `Follow_Up` is awaited, and its correction. -/
structure SyncHeld where
  seq : Nat
  tick : Nat
  wall : Option Int
  waits : Bool
  correction : Int
  deriving DecidableEq, Repr

/-- A time transmitter heard (IEEE 1588): the data set of its last `Announce`, its tick, and whether two came close
enough together to let it be chosen. -/
structure PtpMaster where
  rank : Nat
  tick : Nat
  known : Bool
  deriving DecidableEq, Repr

/-- The wall clock and its discipline (R67, R68, R393). `pathDelay` is the mean path delay measured,
`msDelay` the last difference of receipt and sending of a `Sync`; `delaySeq` numbers the `Delay_Req`
messages, and `delaySent` is the last one sent with its wall time; `masters` holds the time transmitters heard, by port identity. -/
structure WallClock where
  offset : Int := 0
  state : Nat := 0
  lastOffset : Int := 0
  steps : Nat := 0
  lastPtp : Nat := 0
  ptpPort : Nat := 0
  ptpTransport : Nat := 0
  ptpDomain : Nat := 0
  ptpStepLimit : Nat := 10000
  sync : Option SyncHeld := none
  msDelay : Int := 0
  pathDelay : Int := 0
  delaySeq : Nat := 0
  delaySent : Option (Nat × Int) := none
  masters : Tab PtpMaster := []
  deriving DecidableEq, Repr

/-- An Ouvlen session (R75 to R82, R86). `cache` holds the last 256 responses by command sequence, as
status and words. -/
structure Session where
  part : Nat
  ifc : Nat
  port : Nat
  host : BitVec 128 := 0
  kH2d : BitVec 256 := 0
  kD2h : BitVec 256 := 0
  txSeq : Nat := 1
  highSeq : Nat := 0
  seen : List Nat := []
  lastRx : Nat := 0
  rxFrames : Nat := 0
  txFrames : Nat := 0
  inflight : List (Nat × Nat) := []
  cache : List (Nat × Status × List Nat) := []
  acks : List Nat := []
  refusals : List (Nat × Status) := []
  credits : List Nat := []
  deriving DecidableEq, Repr

/-- A memory window (R84). -/
structure Window where
  rights : Nat
  base : Nat
  pages : Nat
  deriving DecidableEq, Repr

/-- A lone `HELLO` part held (R76): where it came in, its sequence and part number, when, what it
holds, and whether its tag verifies. -/
structure HelloHeld where
  ifc : Nat
  host : BitVec 128 := 0
  seq : Nat
  target : Nat
  tick : Nat
  content : HelloPart
  tagOk : Bool
  deriving DecidableEq, Repr

/-- The Ouvlen engine (R59, R74 to R86). -/
structure Ouvlen where
  port : Nat := 38412
  idleTimeout : Nat := 60000000000
  bootNonce : BitVec 256 := 0
  sessions : Tab Session := []
  nextSid : Nat := 1
  parts : List HelloHeld := []
  windows : Tab Window := []
  psk : Tab (BitVec 256) := []
  kemSeen : List Nat := []
  helloShut : Bool := false
  keyRecord : List Byte := []
  deriving DecidableEq, Repr

/-! ### Rings and slots (04) -/

/-- A ring context (R88) and what the K4 holds beside it for its ring. `headTick` is when the entry
at the head came to the head, `slotWait` the entry that waits for a slot (R107), `fabNext` the next
entry of a `FABRIC` ring to be taken (R357), `written` the ticks at which entries not released yet were
written (R102), and `cmd` the words of the command that Isain has read and not answered (R100). -/
structure Ring where
  rtype : Nat := 0
  owner : Nat := 0
  esize : Nat := 0
  enabled : Bool := false
  pinned : Bool := false
  fullPolicy : Nat := 0
  log2Entries : Nat := 6
  ownerToken : Nat := 1
  baseAddr : Nat := 0
  cqRing : Nat := 0
  prodIdx : W32 := 0
  consIdx : W32 := 0
  limitIdx : W32 := 0
  pushIdx : W32 := 0
  pushSession : Nat := 0
  inflightMax : Nat := 4096
  inflight : Nat := 0
  fullTimeout : Nat := 1000
  fencePending : Nat := 0
  dropCount : Nat := 0
  lastTick : Nat := 0
  faulted : Bool := false
  lossFirst : W32 := 0
  lossCount : Nat := 0
  stalled : List (Nat × List (List W64)) := []
  written : List (W32 × Nat) := []
  opened : List W32 := []
  fences : List (W32 × W64 × Bool) := []
  avail : List (W32 × Nat) := []
  pendingDone : List (W32 × W64 × Status) := []
  prot : List W32 := []
  headTick : Nat := 0
  slotWait : Option W32 := none
  fabNext : W32 := 0
  cmd : List W64 := []
  deriving DecidableEq, Repr

/-- What waits for a ring context to be fetched (R90). -/
inductive CtxOp where
  | write (f : OuvHdr) (start : W32) (entries : List (List W64))
  | produce (f : OuvHdr) (idx : W32)
  | release (f : OuvHdr) (idx : W32)
  | item (entries : List (List W64))
  deriving DecidableEq, Repr

/-- The context cache (R90): cached rings, least recently used first, fetches in progress, and what
waits for them, oldest first. -/
structure CtxCache where
  cached : List Nat := []
  fetching : List Nat := []
  waiting : List (Nat × CtxOp) := []
  deriving DecidableEq, Repr

/-- A barrier (R110). -/
structure Barrier where
  h : CmdHdr
  points : List (Nat × W32)
  pairs : List (Nat × Nat)
  hold : Bool
  due : Nat
  deriving DecidableEq, Repr

/-- The states of a request slot (R106). -/
inductive SlotState where
  | free | admitted | running | posting | orphan
  deriving DecidableEq, Repr

/-- Where a slot's request came from (R106). -/
inductive SlotSrc where
  | ring (ring : Nat) (idx : W32)
  | frame (id : Nat)
  deriving DecidableEq, Repr

/-- An item's feature vector with its presence (listed values) and pending bitmaps (R233); `bad` lists
the features whose word was found uncorrectable (R234). -/
structure Item where
  vals : Tab W32 := []
  pending : List Nat := []
  bad : List Nat := []
  deriving DecidableEq, Repr

/-- A verdict record (R317). -/
structure Verdict where
  admitTick : Nat := 0
  latNs : Nat := 0
  score : W32 := 0
  model : Nat := 0
  epoch : Nat := 0
  arg : Nat := 0
  tag : Nat := 0
  best : Nat := 0
  items : Nat := 0
  missing : Nat := 0
  fallback : Nat := 0
  stages : Nat := 0
  part : Nat := 0
  rung : Nat := 0
  action : Nat := 0
  annotate : Bool := false
  deep : Bool := false
  scoresOut : Bool := false
  reason : Nat := 0
  out : Nat := 0
  deriving DecidableEq, Repr

/-- A match block (R130). -/
structure MatchBlock where
  records : List (Nat × Nat) := []
  groupMap : List Nat := []
  scanTick : Nat := 0
  nMatches : Nat := 0
  status : Nat := 1
  setId : Nat := 0
  scanLen : Nat := 0
  deriving DecidableEq, Repr

/-- A request slot (R106) with the request it holds. `stageFail` says that stage 0 is void through a fault or an abort,
`stepFail` that a step failed (R316). -/
structure Slot where
  state : SlotState := .free
  part : Nat := 0
  token : Nat := 0
  gen : Nat := 0
  model : Nat := 0
  epoch : Nat := 0
  tgens : Tab Nat := []
  deadline : Nat := 0
  admitAt : Nat := 0
  src : SlotSrc := .ring 0 0
  cookie : W64 := 0
  lead : Nat := 0
  binding : List Nat := []
  nItems : Nat := 1
  keys : Tab W64 := []
  blobAddr : Nat := 0
  blobLen : Nat := 0
  inl : Tab W32 := []
  items : List Item := []
  matched : MatchBlock := {}
  stageSums : Tab (List W32 × Nat × Nat) := []
  missing : Nat := 0
  fallback : Nat := 0
  encoders : List Nat := []
  revPending : Bool := false
  step : Nat := 0
  stepsCut : Bool := false
  stepFail : Bool := false
  stageFail : Bool := false
  stepLeft : Nat := 0
  hungSince : Option Nat := none
  hangCounted : Bool := false
  orphanClusters : List Nat := []
  deriving DecidableEq, Repr

/-- Rings, barriers and slots. -/
structure Rings where
  ctx : Tab Ring := []
  cache : CtxCache := {}
  barriers : List (Nat × Nat × Barrier) := []
  slots : Tab Slot := []
  deriving DecidableEq, Repr

/-! ### Partitions -/

/-- A partition (R112, R184, R390, R391, R426). `rateTokens` counts in 10^-9 of a remote fetch
(R293). -/
structure Partition where
  enabled : Bool := false
  revoking : Bool := false
  token : Nat := 1
  slotMin : Nat := 0
  slotMax : Nat := 65536
  remoteRateMax : Nat := 50000000
  maxSessions : Nat := 64
  kernelMaxRun : Nat := 10000000
  memRanges : Tab (Nat × Nat × Nat) := []
  rights : W16 := 0
  reinit : Option (Nat × List CmdHdr) := none
  hangs : List Nat := []
  rateTokens : Nat := 50000000000000
  rateTick : Nat := 0
  deriving DecidableEq, Repr

/-! ### Parsing and scanning (05) -/

/-- The decision a frame carries to egress (R163). -/
inductive Decision where
  | dflt (action : Nat) (malformed : Bool)
  | rule
  | verdict (v : Verdict)
  | unclassified
  | drop
  | flood
  deriving DecidableEq, Repr

/-- Where a frame is. -/
inductive FrameStage where
  | parseQueue
  | parsed
  | flowMiss
  | learnWait
  | pmWait (since : Nat)
  | scanQueue
  | scanning (engine : Nat)
  | deep
  | egress
  | queued (ifc queue : Nat) (since : Nat)
  deriving DecidableEq, Repr

/-- The settings under which a frame goes on though they change after it: the role and `tpid_extra` of
its interface and every interface's `max_frame` as at its receipt (R60), `copy_ring` and
`mac_flood_ring` as at its classification (R138), `eg_hold_max` as at its deep-path admission and
`max_sojourn` as at its queue (R174). -/
structure RxSet where
  role : Nat := 0
  roles : List Nat := [0, 0, 0, 0]
  macsec : List Nat := [0, 0, 0, 0]
  tpid : Nat := 0x9100
  maxFrames : List Nat := [9216, 9216, 9216, 9216]
  copyRing : Option Nat := none
  floodRing : Option Nat := none
  holdMax : Nat := 1000000
  sojourn : Nat := 0
  deriving DecidableEq, Repr

/-- A frame in the packet buffer (R55, R67, R114): its bytes without the FCS, where it came in, its
stamps and priority; then what each stage has found: the parse record, the winning row with its
action, the packet-path cluster chosen for its packet model, that model's verdict, the decision, the slot and the
flow features. -/
structure Frame where
  bytes : List Byte
  set : RxSet := {}
  ifc : Nat
  cloneOf : Option Nat := none
  rxTick : Nat
  rxWall : Int := 0
  prio : Nat
  stage : FrameStage := .parseQueue
  record : BitVec 2048 := 0
  rule : Option Nat := none
  act : Option RuleAction := none
  pmCluster : Option Nat := none
  pmVerdict : Option Verdict := none
  decision : Option Decision := none
  slot : Option Nat := none
  flowFeats : Tab W32 := []
  flowRec : Option Nat := none
  poison : Bool := false
  heldSince : Nat := 0
  macFault : Option Nat := none
  deriving DecidableEq, Repr

/-- A loaded parse program (R116, R118): its bytes, what the toolkit's encoding makes of them, and the
slot's load count. -/
structure ParseSlot where
  image : List Byte := []
  prog : ChiveProg := {}
  loads : Nat := 0
  deriving DecidableEq, Repr

/-- A version of a pattern set (R127, R128). -/
structure PatternVer where
  fromL2 : Bool
  pats : List Pattern
  since : Nat
  deriving DecidableEq, Repr

/-- A pattern set (R127): its owner and its committed versions, newest first. -/
structure PatternSet where
  owner : Nat
  vers : List PatternVer := []
  deriving DecidableEq, Repr

/-- A spread context (R131 to R134). [DESIGN CHOICE: notes/assumptions/47.md] -/
structure Spread where
  key : List Byte := []
  sel : BitVec 9 := 0
  sym : Bool := false
  table : Tab SpreadEntry := []
  deriving DecidableEq, Repr

/-- Parsing, scanning and spreading. -/
structure Parser where
  frames : Tab Frame := []
  nextFrame : Nat := 1
  rrNext : Tab Nat := []
  pqThresh : Tab Nat := []
  cycleMax : Nat := 1024
  slots : Tab ParseSlot := []
  ifcSlot : Tab Nat := []
  offline : List Nat := []
  groupsOut : List Nat := []
  sets : Tab PatternSet := []
  engines : Tab Nat := []
  spread : Tab Spread := []
  deriving DecidableEq, Repr

/-! ### Classification (06) -/

/-- The classifier's settings of an interface (R138). -/
structure ClsIfc where
  defaultAction : Nat := 0
  malformedAction : Nat := 1
  copyRing : Option Nat := none
  learnRate : Nat := 200
  learnExcess : Nat := 1
  macLimit : Nat := 16384
  learnTick : Nat := 0
  learnCount : Nat := 0
  learned : Nat := 0
  deriving DecidableEq, Repr

/-- A recurrent update in flight or waiting (R265): its dispatch, its cluster, the cell it runs
under, its inputs, and whether its record has been deleted since (R268). -/
structure RsUpdate where
  tick : Nat
  cluster : Nat
  handle : Nat
  epoch : Nat
  inputs : List W32
  stale : Bool := false
  deriving DecidableEq, Repr

/-- A flow learn in flight (R151): its key, the index entry it will write, and its start. -/
structure Learn where
  key : FlowKey
  entry : Nat
  tick : Nat
  deriving DecidableEq, Repr

/-- A pipeline (R135): settings, rule rows with hits, the rows that are disabled or unusable (R161,
R435), its recurrent dispatcher, whether `flow_base` has been given (R148), and the addresses of the index entries in its flow cache, oldest first (R135,
R149, R150). -/
structure Pipeline where
  flowRecords : Nat := 1048576
  flowAge : Nat := 60000000000
  flowSym : Bool := false
  flowBase : Nat := 0
  flowSet : Bool := false
  warmPkts : Nat := 4
  rsModel : Nat := 0
  rules : Tab RuleRow := []
  hits : Tab Nat := []
  hitBytes : Tab Nat := []
  offRows : List Nat := []
  deadRows : List Nat := []
  learning : Tab Learn := []
  missQueue : List Nat := []
  rsFlight : Tab RsUpdate := []
  rsWait : Tab RsUpdate := []
  cached : List Nat := []
  deriving DecidableEq, Repr

/-- A MAC table entry (R154). `prev` is the interface held before the window's first move. -/
structure MacEntry where
  mac : BitVec 48
  vid : Nat
  mif : Nat
  pinIf : Nat := 0
  isStatic : Bool := false
  pinned : Bool := false
  moves : Nat := 0
  moveWin : Nat := 0
  lastSeen : Nat := 0
  hit : Bool := false
  prev : Nat := 0
  deriving DecidableEq, Repr

/-- A prefix of a trie's shadow (R146, R147). -/
structure Prefix where
  len : Nat
  bits : BitVec 128
  cls : Nat
  deriving DecidableEq, Repr

/-- The classifier. `nodes` are the tries' nodes in use, by family, level and path, with their
numbers (R145); `badMacs`, `badTrie` the quarantined entries and slots (R161); `poolLost` the nodes
a pool has lost for good (R435). `macs` is the MAC table as the learn engine has written it, and `macOld` what a
pipeline's copy may still hold of an entry, until a tick (R154). `busy` lists the update engines at work: table,
until when, and for whom (R142, R147, R159). `freed` are the nodes freed of late, with the tick (R147).
[DESIGN CHOICE: notes/assumptions/58.md; DESIGN CHOICE: notes/assumptions/59.md] -/
structure Classifier where
  ifcs : Tab ClsIfc := []
  pipes : Tab Pipeline := []
  floodRing : Option Nat := none
  macAge : Nat := 300000000000
  macMoveMax : Nat := 4
  macMoveWindow : Nat := 1000000000
  macPinHold : Nat := 60000000000
  macs : Tab MacEntry := []
  trie4 : List Prefix := []
  trie6 : List Prefix := []
  nodes : List ((Nat × Nat × Nat) × Nat) := []
  badTrie : List Nat := []
  badMacs : List Nat := []
  poolLost : Tab Nat := []
  macOld : List ((Nat × Nat) × (Nat × Option MacEntry)) := []
  busy : List (Nat × Nat × Via) := []
  freed : List ((Nat × Nat) × Nat) := []
  deriving DecidableEq, Repr

/-! ### Egress (07) -/

/-- A queue's settings and marks (R174, R175, R176). Queue 8 is the control queue, 9 the interface
shaper. -/
structure Queue where
  weight : Nat := 16
  qLimit : Nat := 8388608
  egThresh : Option Nat := none
  ecnThresh : Nat := 0
  maxSojourn : Nat := 0
  shapeRate : Nat := 0
  shapeBurst : Nat := 65536
  tokens : Int := 0
  tokenTick : Nat := 0
  deficit : Nat := 0
  frames : List Nat := []
  hwmBytes : Nat := 0
  hwmSojourn : Nat := 0
  txFrames : Nat := 0
  txBytes : Nat := 0
  ctl : List (Nat × Nat × Sent) := []
  deriving DecidableEq, Repr

/-- A policer (R169, R170); token counts in bits times 10^9 fractions are kept in bytes × 8000. -/
structure Policer where
  cir : Nat
  pir : Nat
  cbs : Nat
  pbs : Nat
  yellowAction : Nat
  redAction : Nat
  yellowDscp : Nat
  redDscp : Nat
  grant : Option Nat
  cTokens : Nat
  pTokens : Nat
  tick : Nat
  reds : Nat := 0
  deriving DecidableEq, Repr

/-- A gate control list (R177). -/
structure GateList where
  base : Nat
  cycle : Nat
  entries : List (Byte × Nat)
  start : Nat
  deriving DecidableEq, Repr

/-- The gates of an interface (R177 to R179). -/
structure Gates where
  running : Option GateList := none
  pending : Option GateList := none
  stopAt : Option Nat := none
  index : Nat := 0
  entryEnd : Nat := 0
  cycleStart : Nat := 0
  states : Byte := 0xFF
  deriving DecidableEq, Repr

/-- Egress. -/
structure Egress where
  queues : Tab Queue := []
  strictCount : Tab Nat := []
  rrQueue : Tab Nat := []
  policers : Tab Policer := []
  gates : Tab Gates := []
  holdMax : Nat := 1000000
  deriving DecidableEq, Repr

/-! ### Compute (08, 09, 10) -/

/-- The sticky flags of a context (R187). -/
structure FFlags where
  invalid : Bool := false
  divZero : Bool := false
  overflow : Bool := false
  underflow : Bool := false
  inexact : Bool := false
  deriving DecidableEq, Repr

/-- A kernel context (R181): its launch with the owner token it carries (R198) and its image, its flags, 64-bit
and vector registers, its DMA queue with the tick of each post, and the post that waits for a place (R189). `work` is
the domain and epoch that a step or encoder works for (R312); `stamp` the epoch and table generations that the launch
was admitted under (R297). [DESIGN CHOICE: notes/assumptions/66.md] -/
structure Ctx where
  desc : LaunchDesc
  part : Nat
  token : Nat := 0
  asker : Option CmdHdr
  image : Option (Nat × Nat)
  start : Nat
  flags : FFlags := {}
  regs : Tab W64 := []
  vregs : Tab (List W32) := []
  dmaQ : List (BitVec 256 × Nat) := []
  dmaWait : Option (BitVec 256) := none
  fabWait : Option (Nat × Nat × List W64) := none
  work : Option (Nat × Nat) := none
  stamp : Nat × Tab Nat := (0, [])
  deriving DecidableEq, Repr

/-- A launch waiting on a core for its image or a free context (R182, R198). `barred` says that its cluster was
already leaving its owner when it was sent, so that it does not start (R204); `work` is the domain and epoch of a
step's or encoder's launch (R312); `stamp` is the epoch and the table generations it was admitted under (R297). -/
structure Launch where
  desc : LaunchDesc
  part : Nat
  token : Nat
  asker : Option CmdHdr
  barred : Bool := false
  work : Option (Nat × Nat) := none
  stamp : Nat × Tab Nat := (0, [])
  deriving DecidableEq, Repr

/-- A matrix job descriptor as the array holds it (R211), with its issuing context and tick. `ended` holds the status
and flags of a job that ended before those ahead of it, whose completion word waits for theirs (R220). -/
structure MxJob where
  ctx : Nat
  desc : BitVec 512
  issued : Nat
  ended : Option (Nat × Nat) := none
  deriving DecidableEq, Repr

/-- Accumulators kept in an array (R221). -/
structure KeptAcc where
  ctx : Nat
  form : Nat
  mLen : Nat
  nLen : Nat
  isInt : Bool
  acc : List W32
  deriving DecidableEq, Repr

/-- A matrix array (R206, R207, R219, R221): its jobs, the accumulators it keeps, the contexts that an issue
to its full queue holds with the tick since, when its last job ended, and the 8-byte entries in its feeder
queues: row feeders 0 to 31, then column feeders 0 to 3 as 32 to 35.
[DESIGN CHOICE: notes/assumptions/129.md] -/
structure MxArray where
  jobs : List MxJob := []
  kept : Option KeptAcc := none
  held : Tab Nat := []
  lastEnd : Nat := 0
  feeders : Tab (List W64) := []
  deriving DecidableEq, Repr

/-- A walk in a walk slot (R240, R242). -/
structure Walk where
  slot : Nat
  slotGen : Nat
  item : Nat
  tree : Nat
  node : Nat
  parked : Option Nat := none
  deriving DecidableEq, Repr

/-- A core's share of a request (R240, R243 to R247). `ctx` is the context that runs the request's ensemble on
the core; `issued` says that the stage's first walk has been issued, at `startTick`.
[DESIGN CHOICE: notes/assumptions/130.md] -/
structure Share where
  slot : Nat
  slotGen : Nat
  domain : Nat
  model : Nat
  epoch : Nat
  pclust : Nat
  cluster : Nat
  pcore : Nat
  ctx : Nat := 0
  stage : Nat := 0
  started : Bool := false
  issued : Bool := false
  startTick : Nat := 0
  todo : List (Nat × Nat) := []
  sums : List W32 := []
  walks : Nat := 0
  faulted : Bool := false
  stopped : Bool := false
  deriving DecidableEq, Repr

/-- A physical core (R181 to R191, R206, R240). `badShards` are the copies of a domain's model under an epoch that are
bad, `deadShards` those of them whose container cannot be read, and `shardNodes` the nodes of copies made again (R253,
R331). `reloads` counts the times since the start that the core has received `CORELOAD` again (R369).
[DESIGN CHOICE: notes/assumptions/73.md] -/
structure Core where
  sram : Mem := []
  poison : List Nat := []
  ctxs : Tab Ctx := []
  waiting : List Launch := []
  resident : List (Nat × Nat × Nat) := []
  loading : Option (Nat × Nat) := none
  arrays : Tab MxArray := []
  walks : Tab Walk := []
  shares : List Share := []
  stageCost : List ((Nat × Nat × Nat × Nat) × W32) := []
  badShards : List (Nat × Nat × Nat) := []
  deadShards : List (Nat × Nat × Nat) := []
  shardNodes : List ((Nat × Nat × Nat) × List (BitVec 128)) := []
  retiring : Bool := false
  accFaults : Tab (List Nat) := []
  cycles : Nat := 0
  reloads : Nat := 0
  deriving DecidableEq, Repr

/-- Where a reduce group's result goes (R193, R244). -/
inductive GroupDest where
  | store (addr : Nat)
  | group (cluster idx : Nat)
  | slot (slot slotGen stage : Nat)
  deriving DecidableEq, Repr

/-- An open reduce group (R193, R194). `op`: 0 sum, 1 maximum, 2 minimum; `opener` is the core and context of a kernel
that opened it. -/
structure Group where
  op : Nat
  len : Nat
  expected : Nat
  closeTick : Nat
  dest : GroupDest
  arrived : Nat := 0
  summed : Nat := 0
  voids : Nat := 0
  acc : List W32 := []
  slot : Option (Nat × Nat × Nat) := none
  opener : Option (Nat × Nat) := none
  deriving DecidableEq, Repr

/-- A Dill record (R462). -/
structure TraceRec where
  seq : Nat
  kind : Nat
  arg : Nat
  slotGen : Nat
  status : Nat
  unit : Nat
  dur : Nat
  core : Nat
  ctx : Nat
  layer : Nat
  op : Nat
  slot : Nat
  tick : Nat
  trig : Bool := false
  prot : Bool := false
  deriving DecidableEq, Repr

/-- A Dill unit (R461 to R468). `marks` are the host's range markers on their way to the cluster, with the
tick at which each arrives, earliest first. -/
structure Dill where
  mode : Nat := 0
  ring : Nat := 0
  post : Nat := 0
  trig : W64 := 0
  fired : Bool := false
  postLeft : Nat := 0
  frozen : Bool := false
  buf : List TraceRec := []
  seq : Nat := 1
  dropped : Nat := 0
  marks : List (Nat × TraceRec) := []
  deriving DecidableEq, Repr

/-- A cluster leaving its owner (R204), or being reset by revocation (R112). -/
structure Leaving where
  target : Nat
  graceEnd : Nat
  h : Option CmdHdr
  resetting : Bool := false
  revoke : Bool := false
  deriving DecidableEq, Repr

/-- A cluster (R9, R192 to R196, R202 to R204). `lastStamp` is the last stamp its island has taken (R20). [DESIGN CHOICE: notes/assumptions/6.md] -/
structure Cluster where
  owner : Nat := 0x7F
  store : Mem := []
  poison : List Nat := []
  groups : Tab Group := []
  opens : List (Nat × Group) := []
  clkCap : Nat := 3300
  ceiling : Nat := 3300
  thermal : Nat := 3300
  tempC : Int := 25
  droop : Bool := false
  leaving : Option Leaving := none
  dill : Dill := {}
  lastStamp : Nat := 0
  deriving DecidableEq, Repr

/-- A remap table entry (R16). `home` is the physical core the fuses gave a logical number (R13):
its cluster is the one the number belongs to. [DEDUCED: notes/assumptions/9.md] -/
structure MapEntry where
  state : Nat := 0
  link : Nat := 0
  count : Nat := 0
  phys : Nat := 0
  home : Nat := 0
  deriving DecidableEq, Repr

/-- A kernel held under a handle of a partition, or of a model's `KERNELS` section (R197). -/
structure Kernel where
  part : Nat
  addr : Nat
  len : Nat
  deriving DecidableEq, Repr

/-- A `KERNEL_LAUNCH` in progress: statuses come back core by core (R199, R200). -/
structure LaunchRun where
  left : Nat
  counts : Tab Nat := []
  deriving DecidableEq, Repr

/-- The compute dies. `held` are the `KERNEL_LAUNCH` commands that name a retiring core and wait for the end of its
retirement (R432). -/
structure Compute where
  map : Tab MapEntry := []
  activeLogical : Nat := 0
  clusters : Tab Cluster := []
  cores : Tab Core := []
  kernels : List ((Nat × Nat) × Kernel) := []
  runs : List (CmdHdr × LaunchRun) := []
  held : List (CmdHdr × LaunchDesc) := []
  deriving DecidableEq, Repr

/-! ### Feature store (12) and models (13) -/

/-- The states of a generation (R285). -/
inductive GenState where
  | free | loading | sealed | current | retiring
  deriving DecidableEq, Repr

/-- A generation of a table (R274, R285, R286). -/
structure Generation where
  g : Nat
  state : GenState
  base : Nat
  log2Buckets : Nat
  n : Nat
  commitTick : Nat := 0
  dropping : Bool := false
  deriving DecidableEq, Repr

/-- A feature table (R273). -/
structure FTable where
  owner : Nat
  ftMode : Nat
  valFmt : Nat
  nVal : Nat
  entLines : Nat
  hashSeed : W64
  shardSeed : W64
  fallback : Option Nat
  localBudget : Nat
  remoteBudget : Nat
  remoteGrace : Nat
  remoteInflightMax : Nat
  gens : List Generation := []
  deriving DecidableEq, Repr

/-- A feature fetch in flight (R282 to R284, R290 to R292, R354). `g` is the stamped generation,
`vmap` the features that its values map to, `vspan` the first value and the number of values that its declaration maps
from the table, `ask` the message it went out with, `cut` the request's cut-off, and `joins` the fetch whose
reply it takes. A locked entry is at `lockAddr`, the `lockPos`-th place of the lookup. -/
structure Fetch where
  slot : Nat
  slotGen : Nat
  token : Nat
  cluster : Nat
  table : Nat
  g : Nat
  key : W64
  item : Option Nat
  vmap : List (Nat × Nat)
  vspan : Nat × Nat := (0, 1)
  ask : Option LookupMsg := none
  issue : Nat
  endTick : Nat
  cut : Nat
  remote : Bool := false
  home : Nat := 0
  sent : Bool := false
  sentTick : Nat := 0
  channel : Nat := 0
  resent : Bool := false
  fellBack : Bool := false
  fbTable : Nat := 0
  fbGen : Nat := 0
  lockReads : Nat := 0
  lockDue : Nat := 0
  lockAddr : Nat := 0
  lockPos : Nat := 0
  joins : Option Nat := none
  parked : Bool := false
  deriving DecidableEq, Repr

/-- What a home still serves: a lookup whose entry is locked, or the puts left of a `PUT` frame with
the statuses so far (R281, R356, R359). -/
inductive ServeWork where
  | lookup (m : LookupMsg)
  | puts (fseq : Nat) (done : List Nat) (left : List PutMsg)
  deriving DecidableEq, Repr

/-- Served work that waits for an entry's lock, for the peer at an address. -/
structure Serve where
  peer : Nat
  work : ServeWork
  table : Nat
  g : Nat
  lockReads : Nat := 1
  lockDue : Nat := 0
  lockAddr : Nat := 0
  lockPos : Nat := 0
  deriving DecidableEq, Repr

/-- The parameters of a model (R300). -/
structure Params where
  rsCompat : List Nat := []
  defaultBudget : Nat := 0
  maxBudget : Nat := 0
  tail : Nat := 0
  scoreOff : Nat := 0
  defScore : W32 := 0
  defArg : Nat := 0
  defTag : Nat := 0
  nFeat : Nat := 1
  nItemsMax : Nat := 1
  nOut : Nat := 1
  link : Nat := 0
  mapOut : Nat := 0
  defAction : Nat := 0
  defAnnotate : Bool := false
  scoresOut : Bool := false
  deriving DecidableEq, Repr

/-- An input record (R301). -/
structure InputRec where
  kind : Nat
  featBase : Nat
  count : Nat
  perItem : Bool
  argA : Nat
  argB : Nat
  argC : Nat
  deriving DecidableEq, Repr

/-- A mapping band (R304). -/
structure Band where
  lo : W32
  arg : Nat
  tag : Nat
  action : Nat
  annotate : Bool
  deriving DecidableEq, Repr

/-- A tree (R238). -/
structure Tree where
  root : Nat
  out : Nat
  depth : Nat
  deriving DecidableEq, Repr

/-- A stage (R239). -/
structure Stage where
  first : Nat
  count : Nat
  corr : List (W32 × W32)
  est : W32
  deriving DecidableEq, Repr

/-- A tree's place (R305). -/
structure Place where
  pclust : Nat
  pcore : Nat
  pstore : Nat
  deriving DecidableEq, Repr

/-- A step of a deep-path model (R306). -/
structure Step where
  kernel : Nat
  phase : Nat
  pcFirst : Nat
  pcCount : Nat
  layerId : Nat
  opId : Nat
  est : Nat
  featBase : Nat
  featCount : Nat
  argOff : Nat
  argLen : Nat
  deriving DecidableEq, Repr

/-- A cell section (R264, R307). -/
structure Cell where
  kind : Nat
  nIn : Nat
  use : Nat
  inputs : List (W16 × Nat × Nat × Nat)
  weights : List (List (List W16))
  bias : List (List W32)
  deriving DecidableEq, Repr

/-- A binding of a deep-path model: its clusters and the numbering fixed at staging (R308). -/
structure Binding where
  clusters : List Nat
  cores : List (List Nat)
  deriving DecidableEq, Repr

/-- A staged or live model (R298 to R309). `nodes` are the nodes as copied for the cores, and `nodesAt` is where
they stand in the container, where trees left in device memory are read (R241). -/
structure Model where
  handle : Nat
  packet : Bool
  cAddr : Nat
  cLen : Nat
  params : Params
  inputs : List InputRec
  bands : List Band
  nodes : List (BitVec 128)
  nodesAt : Nat := 0
  trees : List Tree
  stages : List Stage
  leaves : List W32
  bits : List Byte
  nPclust : Nat
  places : List Place
  kernelAddrs : List (Nat × Nat)
  argBase : Nat
  steps : List Step
  cells : List Cell
  bindings : List Binding
  damaged : Bool := false
  deriving DecidableEq, Repr

/-- A domain's staging set (R310). -/
structure Staging where
  models : List Model := []
  removed : List Nat := []
  patterns : List (Nat × PatternVer) := []
  gens : List (Nat × Nat) := []
  rsModel : List (Nat × Nat) := []
  deriving DecidableEq, Repr

/-- A `MODEL_COMMIT` with `wait` that is held (R311). -/
structure CommitWait where
  h : CmdHdr
  due : Nat
  deriving DecidableEq, Repr

/-- A model domain (R295 to R297, R312), with the tick of its last commit. -/
structure Domain where
  epoch : Nat := 1
  models : List Model := []
  retiring : Option (Nat × List Model) := none
  staging : Staging := {}
  waiting : Option CommitWait := none
  pmCalls : List (Nat × Nat) := []
  flipTick : Nat := 0
  deriving DecidableEq, Repr

/-- A baseline's settings (R270). -/
structure Baseline where
  source : Nat := 0
  index : Nat := 0
  winNs : Nat := 1000000000
  zHi : W32 := 0x40800000
  zLo : Option W32 := none
  deriving DecidableEq, Repr

/-- The feature store and the models. -/
structure Models where
  tables : Tab FTable := []
  fetches : Tab Fetch := []
  nextTag : Nat := 1
  domains : Tab Domain := []
  baselines : Tab (Baseline × Nat) := []
  serving : Tab Serve := []
  acted : List ((Nat × Nat × Nat) × Nat) := []
  late : Tab Nat := []
  deriving DecidableEq, Repr

/-- A baseline's running state (R271). -/
structure BaseState where
  winStart : Nat := 0
  countStart : Nat := 0
  w : Nat := 0
  mean : W32 := 0
  var : W32 := 0
  z : W32 := 0
  state : Nat := 0
  deriving DecidableEq, Repr

/-! ### Memory (14) -/

/-- A region's controller (R329, R333 to R338). -/
structure Region where
  retired : List (Nat × Nat) := []
  poolLeft : Nat := 122880
  emptyTold : Bool := false
  corrections : List (Nat × Nat) := []
  due : List Nat := []
  ueTold : List (Nat × Nat) := []
  refresh : Tab Nat := []
  oscTick : Tab Nat := []
  patrolNext : Nat := 0
  isolated : Bool := false
  deriving DecidableEq, Repr

/-- A link (R332). `buffer` holds the last 64 flits of its sender, which it can replay. -/
structure Link where
  lanesOut : List Nat := []
  replays : Tab (List Nat) := []
  up : Bool := true
  buffer : List Flit := []
  deriving DecidableEq, Repr

/-- Device memory and its keepers. `repaired` are the rows that post-package repair has replaced for good, by region,
channel and row (R337). [DEDUCED: notes/assumptions/13.md; DESIGN CHOICE: notes/assumptions/18.md] -/
structure Memory where
  bytes : Mem := []
  faults : Tab WordFault := []
  regions : Tab Region := []
  links : Tab Link := []
  scrubPeriod : Nat := 43200
  sramSpares : List ((Nat × Nat) × Nat) := []
  sramMarks : List ((Nat × Nat × Nat) × Nat) := []
  emptyTold : List (Nat × Nat) := []
  repaired : List (Nat × Nat × Nat) := []
  deriving DecidableEq, Repr

/-! ### Fabric (15) -/

/-- The state a device holds of a member (R348). -/
inductive PeerState where
  | unknown | live | lost
  deriving DecidableEq, Repr

/-- A peer (R344, R347 to R349). -/
structure Peer where
  state : PeerState := .unknown
  bootCount : Nat := 0
  highSeq : Nat := 0
  seen : List Nat := []
  lastRx : Nat := 0
  lastWork : Option Nat := none
  fwatchRx : Option Nat := none
  lastTx : Option Nat := none
  nextChannel : Nat := 0
  suspect : Tab Nat := []
  lastProbe : Nat := 0
  watchSince : Option Nat := none
  putCache : List (Nat × List Nat) := []
  deriving DecidableEq, Repr

/-- A member of the view (R353). -/
structure Member where
  ip : Nat
  port : Nat
  lost : Bool := false
  bootCount : Nat := 0
  deriving DecidableEq, Repr

/-- A candidate as last heard (R350). -/
structure Candidate where
  serial : Nat
  prio : Nat
  term : Nat
  highView : Nat
  lastRx : Nat
  ip : Nat
  addr : Nat
  deriving DecidableEq, Repr

/-- An address granted, whose `OK` waits until a majority of the candidates have written it (R352): the request, the
address, the start it came from, and the IP addresses of the candidates that have written it. -/
structure JoinWait where
  msg : JoinMsg
  addr : Nat
  boot : Nat
  acks : List Nat
  deriving DecidableEq, Repr

/-- A put in flight (R357 to R359): its ring position and its message. -/
structure PutRun where
  ring : Nat
  idx : W32
  home : Nat
  msg : PutMsg
  cookie : W64
  report : Bool
  sentTick : Nat
  resends : Nat := 0
  channel : Nat
  deriving DecidableEq, Repr

/-- The fabric engine (R340 to R359). `coord` is the coordinator's address as last heard, `asked` that the
whole member table has been asked for, `whole` the view number of the one being taken, `acksDue` the assignments that
a candidate confirms once its store holds them, `joined` that this start's `JOIN` has been answered. -/
structure Fabric where
  sysId : Nat := 0
  keys : Tab (BitVec 256) := []
  keyTx : Nat := 0
  port : Nat := 38413
  sportBase : Nat := 49152
  paths : Nat := 8
  ifcs : Tab Nat := []
  mtu : Nat := 1500
  rto : Nat := 15000
  seeds : Tab (Nat × Nat) := []
  eligible : Bool := false
  prio : Nat := 128
  staticAddr : Nat := 0
  addr : Nat := 0
  left : Bool := false
  bootCount : Nat := 0
  fseq : Nat := 1
  peers : Tab Peer := []
  watch : List Nat := []
  members : Tab Member := []
  viewNo : Nat := 0
  assigned : List (Nat × Nat) := []
  released : Tab Nat := []
  candidates : List Candidate := []
  term : Nat := 0
  coordinator : Bool := false
  coord : Nat := 0
  asked : Bool := false
  whole : Option Nat := none
  joinWaits : List JoinWait := []
  acksDue : List (Nat × ViewChange) := []
  joined : Bool := false
  joinSince : Option Nat := none
  puts : Tab PutRun := []
  deriving DecidableEq, Repr

/-! ### Flash, boot, security (16, 18) -/

/-- A directory record (R364). States: 0 `EMPTY`, 1 `VALID`, 2 `TRIAL`, 3 `BAD`.
[DESIGN CHOICE: notes/assumptions/10.md] -/
structure Directory where
  seq : Nat := 1
  verA : Nat := 1
  verB : Nat := 0
  stateA : Nat := 1
  stateB : Nat := 0
  active : Nat := 0
  trial : Nat := 0
  tries : Nat := 0
  failRun : Nat := 0
  nextMode : Nat := 0
  deriving DecidableEq, Repr

/-- The staging record (R408). `state`: 15 empty, 7 activated, 3 copied, 0 discarded. -/
structure StgRec where
  digest : List Byte := []
  version : Nat := 0
  len : Nat := 0
  bootCount : Nat := 0
  state : Nat := 15
  target : Nat := 1
  deriving DecidableEq, Repr

/-- What a settings record holds (R374), one constructor per settings group. The bytes of a
group's data are the firmware image's (R375); the record holds the value itself.
[DESIGN CHOICE: notes/assumptions/19.md] -/
inductive StVal where
  | remap (m : Tab MapEntry) (active : Nat)
  | pages (retired : Tab (List (Nat × Nat)))
  | bootCount (n : Nat)
  | rows (spent : List ((Nat × Nat) × Nat))
  | fabric (f : Fabric)
  | partition (p : Nat) (v : Partition)
  | clusters (v : Tab (Nat × Nat))
  | ports (i : Tab Ifc) (p : Tab Port)
  | device (linkTimeout retry hold ouvPort ouvIdle capP0 floorMhz scrub : Nat)
  | ptp (w : WallClock)
  | parser (p : Parser)
  | cls (c : Classifier)
  | egress (e : Egress)
  | tables (t : Tab FTable)
  | rings (r : Tab Ring)
  | keys (k : Tab (BitVec 256))
  | sealedKeys (seq : Nat) (k : Tab (BitVec 256 × BitVec 128))
  deriving DecidableEq, Repr

/-- A settings record (R371): its sequence number, format, data length and value; `removal` is
`st_kind` 1, `bad` says that its digest fails, and `conv` that a start has converted it from an older format. [DESIGN CHOICE: notes/assumptions/19.md] -/
structure StRec where
  seq : Nat
  fmt : Nat
  len : Nat
  value : StVal
  removal : Bool := false
  bad : Bool := false
  conv : Bool := false
  deriving DecidableEq, Repr

/-- A boot record (R377). -/
structure BootRec where
  bootCount : Nat
  version : Nat
  msRun : Nat
  result : Nat
  slot : Nat
  mode : Nat
  reset : Nat
  settingsBad : Nat
  deriving DecidableEq, Repr

/-- A Rosemary record (R447). -/
structure RmRec where
  seq : Nat
  kind : Nat
  level : Nat
  unit : Nat
  part : Nat
  sev : Nat
  kept : Bool
  wallOk : Bool
  wall : Int
  tick : Nat
  data : List Nat
  copied : Bool := false
  deriving DecidableEq, Repr

/-- The update lock (R405). -/
structure UpdLock where
  sid : Nat
  last : Nat
  deriving DecidableEq, Repr

/-- Flash, boot, update and fuses. `dir` is the directory copy in force, `dirAt` where it stands, `dirOld` the other copy
where it is valid (R365); `factoryA` says that slot A still holds the image it was made with; `loaded` gives the slot
from which each section of the running image was loaded (R362, R369); `other` is the other half of the store, with its
`h_seq`, where it is not erased (R371, R373); `trialFrom` is the number of the last record before the trial began, and
`reverted` how many groups have lost changes to a rollback, until it is told (R375). [DESIGN CHOICE: notes/assumptions/10.md;
DESIGN CHOICE: notes/assumptions/107.md] -/
structure Bay where
  dir : Directory := {}
  dirOld : Option Directory := none
  dirAt : Nat := 0
  factoryA : Bool := true
  loaded : Tab Nat := []
  slotA : Mem := []
  slotB : Mem := []
  staged : Mem := []
  stagedLen : Nat := 0
  written : List (Nat × Nat) := []
  finished : Bool := false
  stg : StgRec := {}
  lock : Option UpdLock := none
  runSlot : Nat := 3
  runMode : Nat := 0
  step14 : Bool := false
  step15 : Bool := false
  watchdogDue : Option Nat := none
  runningSince : Option Nat := none
  settingsBad : Nat := 0
  store : List StRec := []
  stSeq : Nat := 0
  half : Nat := 0
  hSeq : Nat := 1
  other : Option (Nat × List StRec) := none
  trialFrom : Option Nat := none
  reverted : Nat := 0
  unsaved : List StVal := []
  syncs : List (CmdHdr × Nat) := []
  log : List (BootRec ⊕ RmRec) := []
  isainUp : Bool := true
  mute : List (Via × Nat) := []
  lastRestart : Option Nat := none
  devResetRun : Nat := 0
  resetDue : Option Nat := none
  shutdown : Bool := false
  deriving DecidableEq, Repr

/-- The fuses (R2, R12, R419), fixed at manufacture. [DESIGN CHOICE: notes/assumptions/8.md] -/
structure Fuses where
  grade4000 : Bool := true
  rootHash : List Byte := List.replicate 32 0
  svn : Nat := 0
  serial : Nat := 1
  idSecret : BitVec 512 := 0
  idPublic : BitVec 512 := 0
  devWrap : BitVec 256 := 0
  macBase : Nat := 0x020000000000
  coreXMv : Nat := 750
  fusedOff : List Nat := (List.range 32).map (fun k => 128 * k)
  spares : List Nat := (List.range 64).map (fun k => 64 * k + 17)
  deriving DecidableEq, Repr

/-! ### Observability (20) -/

/-- An edge of the wait-for graph (R470). -/
structure Edge where
  waiter : Nat
  holder : Nat
  since : Nat
  wkind : Nat
  hkind : Nat
  part : Nat
  cycle : Bool
  deriving DecidableEq, Repr

/-- Rosemary, counters, the graph, stops and quiesce. `quiescing` lists the waiting commands of R476, oldest
first, each with its time limit and whether it is `DEVICE_SHUTDOWN`; `quiesceAt` the producer indices
of the host-produced rings when the wait began. -/
structure Observe where
  rm : List RmRec := []
  rmSeq : Nat := 1
  frozen : Bool := false
  lost : Nat := 0
  lostFirst : Nat := 0
  suppress : List ((Nat × Nat) × (Nat × Nat)) := []
  counters : List ((Nat × Nat) × Nat) := []
  graph : List Edge := []
  graphTick : Option Nat := none
  graphCut : Bool := false
  ownStop : Bool := false
  freezeLow : Bool := false
  islandsStopped : Bool := false
  stopTick : Nat := 0
  quiescing : List (CmdHdr × Nat × Bool) := []
  quiesceAt : List (Nat × W32) := []
  quiesced : Bool := false
  deriving DecidableEq, Repr

/-! ### The machine -/

/-- The whole K4, and the queue of commands that wait, first in, first out. `islandTick` holds each locked
island's copy of the tick as its last beacon left it, with the master's tick at that beacon (R19).
[DESIGN CHOICE: notes/assumptions/6.md; DESIGN CHOICE: notes/assumptions/115.md] -/
structure State where
  pending : List Instr := []
  tick : Nat := 0
  islandTick : Tab (Nat × Nat) := []
  pkg : Package := {}
  ifcs : Tab Ifc := []
  ports : Tab Port := []
  wall : WallClock := {}
  ouv : Ouvlen := {}
  rings : Rings := {}
  parts : Tab Partition := []
  parser : Parser := {}
  cls : Classifier := {}
  eg : Egress := {}
  comp : Compute := {}
  models : Models := {}
  bases : Tab BaseState := []
  mem : Memory := {}
  fab : Fabric := {}
  bay : Bay := {}
  fuses : Fuses := {}
  obs : Observe := {}
  freeCount : Nat := 0
  sent : List Sent := []
  deriving DecidableEq, Repr

/-- The machine right after a cold reset has taken effect: `COLD_RST_N` is low, every volatile
register holds its reset value, and the boot of R367 begins at the pin's rising edge.
[DESIGN CHOICE: notes/assumptions/5.md] -/
def State.reset : State := {}

end Sys2Proof.Machine
end

