-- ==== Sys2Proof/Machine/Counters.lean ====
section
/-! DEFINITION. The counters by the identifiers of R458 and the scope kinds of R459. -/

namespace Sys2Proof.Machine

/-- The scope kinds of R459. -/
inductive ScopeKind where
  | ifc | pipe | queue | region | cluster | core | part | ring | table | baseline | policer | model
  | link | sram | peer | dev
  deriving DecidableEq, Repr

/-- `bfd_auth_drop` (R458). -/
def Ctr.bfdAuthDrop : Nat := 0x0100

/-- `ouv_bad_hdr` (R458). -/
def Ctr.ouvBadHdr : Nat := 0x0101

/-- `ouv_hello_drop` (R458). -/
def Ctr.ouvHelloDrop : Nat := 0x0102

/-- `ouv_no_session` (R458). -/
def Ctr.ouvNoSession : Nat := 0x0103

/-- `ouv_overrun` (R458). -/
def Ctr.ouvOverrun : Nat := 0x0104

/-- `ouv_replay` (R458). -/
def Ctr.ouvReplay : Nat := 0x0105

/-- `ouv_tag_fail` (R458). -/
def Ctr.ouvTagFail : Nat := 0x0106

/-- `rx_drained` (R458). -/
def Ctr.rxDrained : Nat := 0x0107

/-- `rx_fcs` (R458). -/
def Ctr.rxFcs : Nat := 0x0108

/-- `rx_macsec_fail` (R458). -/
def Ctr.rxMacsecFail : Nat := 0x0109

/-- `rx_macsec_unprot` (R458). -/
def Ctr.rxMacsecUnprot : Nat := 0x010A

/-- `rx_not_local` (R458). -/
def Ctr.rxNotLocal : Nat := 0x010B

/-- `rx_oversize` (R458). -/
def Ctr.rxOversize : Nat := 0x010C

/-- `rx_pause` (R458). -/
def Ctr.rxPause : Nat := 0x010D

/-- `rx_runt` (R458). -/
def Ctr.rxRunt : Nat := 0x010E

/-- `tx_drain_drop` (R458). -/
def Ctr.txDrainDrop : Nat := 0x010F

/-- `tx_macsec_nosa` (R458). -/
def Ctr.txMacsecNosa : Nat := 0x0110

/-- `db_stale` (R458). -/
def Ctr.dbStale : Nat := 0x0200

/-- `slot_exhausted_pkt` (R458). -/
def Ctr.slotExhaustedPkt : Nat := 0x0201

/-- `slot_exhausted_req` (R458). -/
def Ctr.slotExhaustedReq : Nat := 0x0202

/-- `stale_completion` (R458). -/
def Ctr.staleCompletion : Nat := 0x0203

/-- `match_overflow` (R458). -/
def Ctr.matchOverflow : Nat := 0x0300

/-- `parse_fault` (R458). -/
def Ctr.parseFault : Nat := 0x0301

/-- `rx_malformed` (R458). -/
def Ctr.rxMalformed : Nat := 0x0302

/-- `rx_parse_drop` (R458). -/
def Ctr.rxParseDrop : Nat := 0x0303

/-- `rx_parse_incomplete` (R458). -/
def Ctr.rxParseIncomplete : Nat := 0x0304

/-- `rx_trailer` (R458). -/
def Ctr.rxTrailer : Nat := 0x0305

/-- `scan_fault` (R458). -/
def Ctr.scanFault : Nat := 0x0306

/-- `scan_overload` (R458). -/
def Ctr.scanOverload : Nat := 0x0307

/-- `spread_fallback` (R458). -/
def Ctr.spreadFallback : Nat := 0x0308

/-- `spread_to_ring` (R458). -/
def Ctr.spreadToRing : Nat := 0x0309

/-- `age_race_kept` (R458). -/
def Ctr.ageRaceKept : Nat := 0x0400

/-- `cls_incomplete` (R458). -/
def Ctr.clsIncomplete : Nat := 0x0401

/-- `cls_malformed` (R458). -/
def Ctr.clsMalformed : Nat := 0x0402

/-- `cls_miss` (R458). -/
def Ctr.clsMiss : Nat := 0x0403

/-- `cls_no_model` (R458). -/
def Ctr.clsNoModel : Nat := 0x0404

/-- `flow_aged` (R458). -/
def Ctr.flowAged : Nat := 0x0405

/-- `flow_fault` (R458). -/
def Ctr.flowFault : Nat := 0x0406

/-- `flow_learn` (R458). -/
def Ctr.flowLearn : Nat := 0x0407

/-- `flow_learn_excess` (R458). -/
def Ctr.flowLearnExcess : Nat := 0x0408

/-- `flow_learn_fail` (R458). -/
def Ctr.flowLearnFail : Nat := 0x0409

/-- `flow_learn_locked` (R458). -/
def Ctr.flowLearnLocked : Nat := 0x040A

/-- `flow_learn_merge` (R458). -/
def Ctr.flowLearnMerge : Nat := 0x040B

/-- `flow_miss_overrun` (R458). -/
def Ctr.flowMissOverrun : Nat := 0x040C

/-- `lpm_fault` (R458). -/
def Ctr.lpmFault : Nat := 0x040D

/-- `mac_aged` (R458). -/
def Ctr.macAged : Nat := 0x040E

/-- `mac_fault` (R458). -/
def Ctr.macFault : Nat := 0x040F

/-- `mac_flood_nocopy` (R458). -/
def Ctr.macFloodNocopy : Nat := 0x0410

/-- `mac_learn` (R458). -/
def Ctr.macLearn : Nat := 0x0411

/-- `mac_learn_fail` (R458). -/
def Ctr.macLearnFail : Nat := 0x0412

/-- `mac_learn_pinned` (R458). -/
def Ctr.macLearnPinned : Nat := 0x0413

/-- `mac_limit_hit` (R458). -/
def Ctr.macLimitHit : Nat := 0x0414

/-- `mac_move` (R458). -/
def Ctr.macMove : Nat := 0x0415

/-- `mac_same_if` (R458). -/
def Ctr.macSameIf : Nat := 0x0416

/-- `rule_fault` (R458). -/
def Ctr.ruleFault : Nat := 0x0417

/-- `eg_no_verdict` (R458). -/
def Ctr.egNoVerdict : Nat := 0x0500

/-- `eg_verdict_priv` (R458). -/
def Ctr.egVerdictPriv : Nat := 0x0501

/-- `tx_annot_replace` (R458). -/
def Ctr.txAnnotReplace : Nat := 0x0502

/-- `tx_annot_skip` (R458). -/
def Ctr.txAnnotSkip : Nat := 0x0503

/-- `tx_buf_drop` (R458). -/
def Ctr.txBufDrop : Nat := 0x0504

/-- `tx_ctl_drop` (R458). -/
def Ctr.txCtlDrop : Nat := 0x0505

/-- `tx_ecn_mark` (R458). -/
def Ctr.txEcnMark : Nat := 0x0506

/-- `tx_gate_oversize` (R458). -/
def Ctr.txGateOversize : Nat := 0x0507

/-- `tx_link_down` (R458). -/
def Ctr.txLinkDown : Nat := 0x0508

/-- `tx_mtu_drop` (R458). -/
def Ctr.txMtuDrop : Nat := 0x0509

/-- `tx_pol_red` (R458). -/
def Ctr.txPolRed : Nat := 0x050A

/-- `tx_pol_yellow` (R458). -/
def Ctr.txPolYellow : Nat := 0x050B

/-- `tx_q_drop` (R458). -/
def Ctr.txQDrop : Nat := 0x050C

/-- `tx_sojourn_drop` (R458). -/
def Ctr.txSojournDrop : Nat := 0x050D

/-- `tx_verdict_drop` (R458). -/
def Ctr.txVerdictDrop : Nat := 0x050E

/-- `frq_full` (R458). -/
def Ctr.frqFull : Nat := 0x0600

/-- `reassign_abort` (R458). -/
def Ctr.reassignAbort : Nat := 0x0601

/-- `reduce_late` (R458). -/
def Ctr.reduceLate : Nat := 0x0602

/-- `mx_feed_stall` (R458). -/
def Ctr.mxFeedStall : Nat := 0x0700

/-- `pm_slot_full` (R458). -/
def Ctr.pmSlotFull : Nat := 0x0800

/-- `sage_default` (R458). -/
def Ctr.sageDefault : Nat := 0x0801

/-- `sage_feat_fault` (R458). -/
def Ctr.sageFeatFault : Nat := 0x0802

/-- `sage_idle` (R458). -/
def Ctr.sageIdle : Nat := 0x0803

/-- `sage_nonfinite` (R458). -/
def Ctr.sageNonfinite : Nat := 0x0804

/-- `sage_park` (R458). -/
def Ctr.sagePark : Nat := 0x0805

/-- `sage_trunc` (R458). -/
def Ctr.sageTrunc : Nat := 0x0806

/-- `sage_visits` (R458). -/
def Ctr.sageVisits : Nat := 0x0807

/-- `sage_walk_fault` (R458). -/
def Ctr.sageWalkFault : Nat := 0x0808

/-- `bl_alarm` (R458). -/
def Ctr.blAlarm : Nat := 0x0900

/-- `enc_bad` (R458). -/
def Ctr.encBad : Nat := 0x0901

/-- `enc_late` (R458). -/
def Ctr.encLate : Nat := 0x0902

/-- `rev_lookup` (R458). -/
def Ctr.revLookup : Nat := 0x0903

/-- `rev_miss` (R458). -/
def Ctr.revMiss : Nat := 0x0904

/-- `rs_fault` (R458). -/
def Ctr.rsFault : Nat := 0x0905

/-- `rs_job_fault` (R458). -/
def Ctr.rsJobFault : Nat := 0x0906

/-- `rs_overrun` (R458). -/
def Ctr.rsOverrun : Nat := 0x0907

/-- `rs_skip` (R458). -/
def Ctr.rsSkip : Nat := 0x0908

/-- `rs_stale` (R458). -/
def Ctr.rsStale : Nat := 0x0909

/-- `fs_absent` (R458). -/
def Ctr.fsAbsent : Nat := 0x0A00

/-- `fs_bad_entry` (R458). -/
def Ctr.fsBadEntry : Nat := 0x0A01

/-- `fs_fallback` (R458). -/
def Ctr.fsFallback : Nat := 0x0A02

/-- `fs_fault` (R458). -/
def Ctr.fsFault : Nat := 0x0A03

/-- `fs_hit` (R458). -/
def Ctr.fsHit : Nat := 0x0A04

/-- `fs_joined` (R458). -/
def Ctr.fsJoined : Nat := 0x0A05

/-- `fs_late` (R458). -/
def Ctr.fsLate : Nat := 0x0A06

/-- `fs_locked` (R458). -/
def Ctr.fsLocked : Nat := 0x0A07

/-- `fs_no_gen` (R458). -/
def Ctr.fsNoGen : Nat := 0x0A08

/-- `fs_remote_lost` (R458). -/
def Ctr.fsRemoteLost : Nat := 0x0A09

/-- `fs_remote_refused` (R458). -/
def Ctr.fsRemoteRefused : Nat := 0x0A0A

/-- `fs_remote_shed` (R458). -/
def Ctr.fsRemoteShed : Nat := 0x0A0B

/-- `fs_remote_timeout` (R458). -/
def Ctr.fsRemoteTimeout : Nat := 0x0A0C

/-- `fs_serve_busy` (R458). -/
def Ctr.fsServeBusy : Nat := 0x0A0D

/-- `fs_serve_gen` (R458). -/
def Ctr.fsServeGen : Nat := 0x0A0E

/-- `fs_timeout` (R458). -/
def Ctr.fsTimeout : Nat := 0x0A0F

/-- `dl_clamped` (R458). -/
def Ctr.dlClamped : Nat := 0x0B00

/-- `dl_miss` (R458). -/
def Ctr.dlMiss : Nat := 0x0B01

/-- `verdicts` (R458). -/
def Ctr.verdicts : Nat := 0x0B02

/-- `blob_fault` (R458). -/
def Ctr.blobFault : Nat := 0x0C00

/-- `link_ce` (R458). -/
def Ctr.linkCe : Nat := 0x0C01

/-- `link_lane_out` (R458). -/
def Ctr.linkLaneOut : Nat := 0x0C02

/-- `link_replay` (R458). -/
def Ctr.linkReplay : Nat := 0x0C03

/-- `link_ue` (R458). -/
def Ctr.linkUe : Nat := 0x0C04

/-- `mem_ce` (R458). -/
def Ctr.memCe : Nat := 0x0C05

/-- `mem_poison_read` (R458). -/
def Ctr.memPoisonRead : Nat := 0x0C06

/-- `mem_retired` (R458). -/
def Ctr.memRetired : Nat := 0x0C07

/-- `mem_spare_empty` (R458). -/
def Ctr.memSpareEmpty : Nat := 0x0C08

/-- `mem_ue` (R458). -/
def Ctr.memUe : Nat := 0x0C09

/-- `pb_fault_drop` (R458). -/
def Ctr.pbFaultDrop : Nat := 0x0C0A

/-- `ppr_done` (R458). -/
def Ctr.pprDone : Nat := 0x0C0B

/-- `sram_ce` (R458). -/
def Ctr.sramCe : Nat := 0x0C0C

/-- `sram_ue` (R458). -/
def Ctr.sramUe : Nat := 0x0C0D

/-- `tx_fcs_stomp` (R458). -/
def Ctr.txFcsStomp : Nat := 0x0C0E

/-- `fab_bad_hdr` (R458). -/
def Ctr.fabBadHdr : Nat := 0x0D00

/-- `fab_coord_lost` (R458). -/
def Ctr.fabCoordLost : Nat := 0x0D01

/-- `fab_no_table` (R458). -/
def Ctr.fabNoTable : Nat := 0x0D02

/-- `fab_not_home` (R458). -/
def Ctr.fabNotHome : Nat := 0x0D03

/-- `fab_overrun` (R458). -/
def Ctr.fabOverrun : Nat := 0x0D04

/-- `fab_path_suspect` (R458). -/
def Ctr.fabPathSuspect : Nat := 0x0D05

/-- `fab_peer_lost` (R458). -/
def Ctr.fabPeerLost : Nat := 0x0D06

/-- `fab_peer_up` (R458). -/
def Ctr.fabPeerUp : Nat := 0x0D07

/-- `fab_put_bad` (R458). -/
def Ctr.fabPutBad : Nat := 0x0D08

/-- `fab_put_fail` (R458). -/
def Ctr.fabPutFail : Nat := 0x0D09

/-- `fab_replay` (R458). -/
def Ctr.fabReplay : Nat := 0x0D0A

/-- `fab_tag_fail` (R458). -/
def Ctr.fabTagFail : Nat := 0x0D0B

/-- `fab_watch_full` (R458). -/
def Ctr.fabWatchFull : Nat := 0x0D0C

/-- `settings_bad` (R458). -/
def Ctr.settingsBad : Nat := 0x0E00

/-- `core_lost` (R458). -/
def Ctr.coreLost : Nat := 0x0F00

/-- `core_retired` (R458). -/
def Ctr.coreRetired : Nat := 0x0F01

/-- `dev_reset_isain` (R458). -/
def Ctr.devResetIsain : Nat := 0x0F02

/-- `isain_restart` (R458). -/
def Ctr.isainRestart : Nat := 0x0F03

/-- `part_reinit` (R458). -/
def Ctr.partReinit : Nat := 0x0F04

/-- `slot_hang` (R458). -/
def Ctr.slotHang : Nat := 0x0F05

/-- `spare_test_fail` (R458). -/
def Ctr.spareTestFail : Nat := 0x0F06

/-- `sram_row_spared` (R458). -/
def Ctr.sramRowSpared : Nat := 0x0F07

/-- `sram_spare_empty` (R458). -/
def Ctr.sramSpareEmpty : Nat := 0x0F08

/-- `tbl_entry_spared` (R458). -/
def Ctr.tblEntrySpared : Nat := 0x0F09

/-- `dill_drop` (R458). -/
def Ctr.dillDrop : Nat := 0x1000

/-- `dill_mark_denied` (R458). -/
def Ctr.dillMarkDenied : Nat := 0x1001

/-- `ev_no_ring` (R458). -/
def Ctr.evNoRing : Nat := 0x1002

/-- `rm_lost` (R458). -/
def Ctr.rmLost : Nat := 0x1003

/-- `rm_overwritten` (R458). -/
def Ctr.rmOverwritten : Nat := 0x1004

/-- `rm_suppressed` (R458). -/
def Ctr.rmSuppressed : Nat := 0x1005

/-- `rx_quiesced` (R458). -/
def Ctr.rxQuiesced : Nat := 0x1006

/-- `rx_stopped` (R458). -/
def Ctr.rxStopped : Nat := 0x1007

/-- `bypass_link_fail` (R458). -/
def Ctr.bypassLinkFail : Nat := 0x1200

/-- `cmd_resv_refused` (R458). -/
def Ctr.cmdResvRefused : Nat := 0x1300

/-- The scope kinds of a block's counters, by index (R459). -/
def Ctr.kindsOf (block : Nat) : List ScopeKind :=
  match block with
  | 0x01 => [.ifc, .dev, .dev, .dev, .dev, .dev, .dev, .ifc, .ifc, .ifc, .ifc, .ifc, .ifc, .ifc,
      .ifc, .ifc, .ifc]
  | 0x02 => [.dev, .part, .part, .dev]
  | 0x03 => [.dev, .dev, .queue, .queue, .queue, .ifc, .dev, .dev, .dev, .dev]
  | 0x04 => [.pipe, .ifc, .ifc, .ifc, .ifc, .pipe, .pipe, .pipe, .ifc, .ifc, .ifc, .pipe, .pipe,
      .dev, .dev, .pipe, .ifc, .ifc, .ifc, .ifc, .ifc, .ifc, .ifc, .pipe]
  | 0x05 => [.ifc, .ifc, .ifc, .ifc, .queue, .ifc, .queue, .queue, .ifc, .queue, .policer,
      .policer, .queue, .queue, .ifc]
  | 0x06 => [.cluster, .cluster, .cluster]
  | 0x07 => [.core]
  | 0x08 => [.dev, .model, .core, .core, .model, .core, .model, .core, .core]
  | 0x09 => [.baseline, .model, .model, .pipe, .pipe, .pipe, .core, .pipe, .pipe, .pipe]
  | 0x0A => [.table, .table, .table, .table, .table, .cluster, .cluster, .table, .table, .table,
      .table, .table, .table, .table, .table, .table]
  | 0x0B => [.model, .model, .model]
  | 0x0C => [.part, .link, .link, .link, .link, .region, .region, .region, .region, .region,
      .ifc, .region, .sram, .sram, .ifc]
  | 0x0D => [.dev, .dev, .table, .table, .dev, .peer, .dev, .dev, .ring, .ring, .dev, .dev, .dev]
  | 0x0E => [.dev]
  | 0x0F => [.region, .region, .dev, .dev, .part, .part, .region, .sram, .sram, .sram]
  | 0x10 => [.cluster, .cluster, .part, .dev, .dev, .dev, .ifc, .ifc]
  | 0x12 => [.dev]
  | 0x13 => [.part]
  | _ => []

/-- The scope kind of a counter; none when the identifier names no counter (R458).
[DESIGN CHOICE: notes/assumptions/73.md] -/
def Ctr.kind (id : Nat) : Option ScopeKind := (Ctr.kindsOf (id / 256))[id % 256]?

end Sys2Proof.Machine
end

