-- ==== Sys2Proof/Machine/Ops.lean ====
section
/-! DEFINITION. The named operations every meaning is built from: tables, packed words, device
memory with its inline code, time, counters and Rosemary records. -/

namespace Sys2Proof.Machine

/-! ### Tables -/

/-- The value under a key. -/
def tget {α : Type} : Tab α → Nat → Option α
  | [], _ => none
  | (k', v) :: r, k => if k' = k then some v else tget r k

/-- The table with a key set; keys stay rising. -/
def tset {α : Type} : Tab α → Nat → α → Tab α
  | [], k, v => [(k, v)]
  | (k', v') :: r, k, v =>
    if k < k' then (k, v) :: (k', v') :: r
    else if k = k' then (k, v) :: r
    else (k', v') :: tset r k v

/-- The table without a key. -/
def tdel {α : Type} (t : Tab α) (k : Nat) : Tab α := t.filter (fun e => e.1 != k)

/-- The value under a key, or the given one. -/
def tgetD {α : Type} (t : Tab α) (k : Nat) (d : α) : α := (tget t k).getD d

/-- The table with a held value changed. -/
def tmod {α : Type} (t : Tab α) (k : Nat) (f : α → α) : Tab α :=
  match tget t k with
  | some v => tset t k (f v)
  | none => t

/-- The table with a value changed, from the given one where none is held. -/
def tup {α : Type} (t : Tab α) (k : Nat) (d : α) (f : α → α) : Tab α := tset t k (f (tgetD t k d))

/-- The value under a key of any kind. -/
def aget {κ α : Type} [DecidableEq κ] : List (κ × α) → κ → Option α
  | [], _ => none
  | (k', v) :: r, k => if k' = k then some v else aget r k

/-- The list with a key of any kind set, in its place or at the end. -/
def aset {κ α : Type} [DecidableEq κ] : List (κ × α) → κ → α → List (κ × α)
  | [], k, v => [(k, v)]
  | (k', v') :: r, k, v => if k' = k then (k, v) :: r else (k', v') :: aset r k v

/-- The list without a key of any kind. -/
def adel {κ α : Type} [DecidableEq κ] (t : List (κ × α)) (k : κ) : List (κ × α) :=
  t.filter (fun e => decide (e.1 ≠ k))

/-- The last `n` items. -/
def lastN {α : Type} (n : Nat) (l : List α) : List α := l.drop (l.length - n)

/-- The position of the first item that holds. -/
def idxOf? {α : Type} (p : α → Bool) : List α → Option Nat
  | [] => none
  | x :: r => if p x then some 0 else (idxOf? p r).map (· + 1)

/-! ### Packed words -/

/-- The whole 64-bit words of a field of `w` bits, and the bits left over in its last word. -/
def wideWords (w v : Nat) : List Nat :=
  (List.range (w / 64)).map (fun i => v / 2 ^ (w - 64 * (i + 1)) % 2 ^ 64)

/-- Fields packed into 64-bit words from bit 63 downward (R381): `cur` holds the open word and
`free` its free bits. -/
def packGo : List (Nat × Nat) → Nat → Nat → List Nat
  | [], cur, free => if free = 64 then [] else [cur]
  | (w, v) :: r, cur, free =>
    if 64 ≤ w then
      let rest := w % 64
      let head := (if free = 64 then [] else [cur]) ++ wideWords w v
      if rest = 0 then head ++ packGo r 0 64
      else head ++ packGo r (v % 2 ^ rest * 2 ^ (64 - rest)) (64 - rest)
    else if w ≤ free then
      let cur' := cur + v % 2 ^ w * 2 ^ (free - w)
      if free = w then cur' :: packGo r 0 64 else packGo r cur' (free - w)
    else
      cur :: packGo r (v % 2 ^ w * 2 ^ (64 - w)) (64 - w)

/-- A body or data packed under R381, given as (width, value) in row order. -/
def pack (fs : List (Nat × Nat)) : List Nat := packGo fs 0 64

/-- The bits `hi` down to `lo` of a number. -/
def bitsOf (v hi lo : Nat) : Nat := v / 2 ^ lo % 2 ^ (hi + 1 - lo)

/-- The low `n` bits of an integer, two's complement. -/
def low (n : Nat) (i : Int) : Nat := (i % (2 ^ n : Int)).toNat

/-- A Boolean as a bit. -/
def bit (b : Bool) : Nat := if b then 1 else 0

/-- The number held by bytes, least significant byte first. -/
def leNat : List Byte → Nat
  | [] => 0
  | b :: r => b.toNat + 256 * leNat r

/-- The number held by bytes, most significant byte first. -/
def beNat (bs : List Byte) : Nat := leNat bs.reverse

/-- `n` bytes of a number, least significant byte first. -/
def leBytes : Nat → Nat → List Byte
  | 0, _ => []
  | n + 1, v => BitVec.ofNat 8 v :: leBytes n (v / 256)

/-- `n` bytes of a number, most significant byte first. -/
def beBytes (n v : Nat) : List Byte := (leBytes n v).reverse

/-- The bytes of 64-bit words, each little-endian (R5). -/
def wordsBytes (ws : List W64) : List Byte := ws.flatMap (fun w => leBytes 8 w.toNat)

/-- The 64-bit little-endian words of a byte list, eight bytes at a time. -/
def bytesWords (n : Nat) (bs : List Byte) : List W64 :=
  (List.range n).map (fun i => BitVec.ofNat 64 (leNat ((bs.drop (8 * i)).take 8)))

/-! ### Byte memories -/

/-- A byte of a memory; an unlisted byte is 0 (R327). [DEDUCED: notes/assumptions/13.md] -/
def memGet : Mem → Nat → Byte
  | [], _ => 0
  | (a', b) :: r, a => if a' = a then b else if a < a' then 0 else memGet r a

/-- The memory with one byte written, in its canonical form. -/
def memSet : Mem → Nat → Byte → Mem
  | [], a, b => if b = 0 then [] else [(a, b)]
  | (a', b') :: r, a, b =>
    if a < a' then (if b = 0 then (a', b') :: r else (a, b) :: (a', b') :: r)
    else if a = a' then (if b = 0 then r else (a, b) :: r)
    else (a', b') :: memSet r a b

/-- The memory with bytes written from an address up. -/
def memPut : Mem → Nat → List Byte → Mem
  | m, _, [] => m
  | m, a, b :: r => memPut (memSet m a b) (a + 1) r

/-- `n` bytes from an address up. -/
def memBytes (m : Mem) (a n : Nat) : List Byte := (List.range n).map (fun i => memGet m (a + i))

/-- The canonical form: rising addresses, no zero byte, from a bound up. -/
def memWfFrom : Nat → Mem → Bool
  | _, [] => true
  | lo, (a, b) :: r => decide (lo ≤ a) && (b != 0) && memWfFrom (a + 1) r

/-- The canonical form of a memory. -/
def Memory.wf (m : Memory) : Bool := memWfFrom 0 m.bytes

/-! ### State pieces -/

def State.updPkg (f : Package → Package) (s : State) : State := { s with pkg := f s.pkg }
def State.updIfcs (f : Tab Ifc → Tab Ifc) (s : State) : State := { s with ifcs := f s.ifcs }
def State.updPorts (f : Tab Port → Tab Port) (s : State) : State := { s with ports := f s.ports }
def State.updWall (f : WallClock → WallClock) (s : State) : State := { s with wall := f s.wall }
def State.updOuv (f : Ouvlen → Ouvlen) (s : State) : State := { s with ouv := f s.ouv }
def State.updRings (f : Rings → Rings) (s : State) : State := { s with rings := f s.rings }
def State.updParts (f : Tab Partition → Tab Partition) (s : State) : State :=
  { s with parts := f s.parts }
def State.updParser (f : Parser → Parser) (s : State) : State := { s with parser := f s.parser }
def State.updCls (f : Classifier → Classifier) (s : State) : State := { s with cls := f s.cls }
def State.updEg (f : Egress → Egress) (s : State) : State := { s with eg := f s.eg }
def State.updComp (f : Compute → Compute) (s : State) : State := { s with comp := f s.comp }
def State.updModels (f : Models → Models) (s : State) : State := { s with models := f s.models }
def State.updBases (f : Tab BaseState → Tab BaseState) (s : State) : State :=
  { s with bases := f s.bases }
def State.updMem (f : Memory → Memory) (s : State) : State := { s with mem := f s.mem }
def State.updFab (f : Fabric → Fabric) (s : State) : State := { s with fab := f s.fab }
def State.updBay (f : Bay → Bay) (s : State) : State := { s with bay := f s.bay }
def State.updFuses (f : Fuses → Fuses) (s : State) : State := { s with fuses := f s.fuses }
def State.updObs (f : Observe → Observe) (s : State) : State := { s with obs := f s.obs }

/-- Time reaches a tick; it never steps backwards (R8, R19).
[DESIGN CHOICE: notes/assumptions/4.md] -/
def State.at (s : State) (t : Nat) : State := { s with tick := max s.tick t }

/-- What the K4 sends, appended. [DESIGN CHOICE: notes/assumptions/109.md] -/
def State.out (x : Sent) (s : State) : State := { s with sent := s.sent ++ [x] }

/-- A fresh free value, with the state that has used it. [DESIGN CHOICE: notes/assumptions/11.md] -/
def State.fresh (s : State) : Nat × State :=
  (Config.free s.freeCount, { s with freeCount := s.freeCount + 1 })

/-- A number below `m` from a free value. [DESIGN CHOICE: notes/assumptions/11.md] -/
def freeBelow (m v : Nat) : Nat := v % m

/-! ### Counters (R457) -/

/-- A counter's value. -/
def State.counter (id scope : Nat) (s : State) : Nat := (aget s.obs.counters (id, scope)).getD 0

/-- A counter raised by `n`, saturating at 2^64 − 1. -/
def State.countN (id scope n : Nat) (s : State) : State :=
  s.updObs fun o => { o with
    counters := aset o.counters (id, scope)
      (min ((aget o.counters (id, scope)).getD 0 + n) (2 ^ 64 - 1)) }

/-- A counter raised by 1. -/
def State.count (id scope : Nat) (s : State) : State := s.countN id scope 1

/-- A counter with a device scope raised by 1. -/
def State.tally (id : Nat) (s : State) : State := s.count id 0

/-! ### Wall time (R67, R68) -/

/-- Wall time at a tick; none before wall time is first disciplined. -/
def State.wallAt (tick : Nat) (s : State) : Option Int :=
  if s.wall.state = 0 then none else some (tick + s.wall.offset)

/-- Wall time as a 64-bit word, 0 when never disciplined. -/
def State.wallWord (tick : Nat) (s : State) : Nat :=
  match s.wallAt tick with
  | some w => low 64 w
  | none => 0

/-! ### Rosemary (R446 to R451) -/

/-- The records Rosemary holds (R446). -/
def rmCapacity : Nat := 16384

/-- The kinds that are kept (R453). -/
def rmKept (kind sev : Nat) : Bool :=
  kind == 0x0003 || kind == 0x0005 || kind == 0x0001 || kind == 0x0050 || decide (2 ≤ sev)

/-- Drops the oldest record that may be overwritten (R451); none when every record waits for the
log region. -/
def rmEvict : List RmRec → Option (List RmRec)
  | [] => none
  | r :: rest => if r.kept && !r.copied then (rmEvict rest).map (r :: ·) else some rest

/-- Stores a record, by R446 and R451, whatever its source. -/
def Observe.store (o : Observe) (r : RmRec) : Observe × Option Nat :=
  let r := { r with seq := o.rmSeq }
  let o := { o with rmSeq := o.rmSeq + 1 }
  if o.rm.length < rmCapacity then ({ o with rm := o.rm ++ [r] }, none)
  else if o.frozen then
    ({ o with lost := o.lost + 1, lostFirst := if o.lost = 0 then r.seq else o.lostFirst },
      some Ctr.rmLost)
  else
    match rmEvict o.rm with
    | some rest => ({ o with rm := rest ++ [r] }, some Ctr.rmOverwritten)
    | none =>
      ({ o with lost := o.lost + 1, lostFirst := if o.lost = 0 then r.seq else o.lostFirst },
        some Ctr.rmLost)

/-- A cluster. -/
def State.cluster (c : Nat) (s : State) : Cluster := tgetD s.comp.clusters c {}

/-- An island's copy of the tick so many ns after its last beacon (R19): the first lock loads the master's
tick; a copy that runs ahead holds; one that is behind gains up to 2 ns for each 1 ns. -/
def slew (copy : Option Nat) (elapsed master : Nat) : Nat :=
  match copy with
  | none => master
  | some c => if master < c then c else min master (c + 2 * elapsed)

/-- An island's own copy of the tick now; none until it has locked to the beacon (R19). Island c is cluster
c, and the others follow in the order of R474. [DESIGN CHOICE: notes/assumptions/123.md] -/
def State.islandNow (i : Nat) (s : State) : Option Nat :=
  (tget s.islandTick i).map fun e => slew (some e.1) (s.tick - e.2) s.tick

/-- The island in which the source of a record sees its event, by level and unit (R447, R474); none where the
source lies with the time master on the X die's Bay. [DEDUCED: notes/assumptions/123.md] -/
def rmIsland (level unit : Nat) : Option Nat :=
  match level with
  | 0 => some (unit / 16)
  | 1 => some unit
  | 2 => some (262 + unit)
  | 3 => if unit < 4 then some (258 + unit) else none
  | _ => none

/-- The stamp of a source: its island's copy of the tick, no lower than the island's last stamp (R20); 0 before
the island has locked, since it stamps nothing then (R19). [DEDUCED: notes/assumptions/123.md] -/
def State.rmStamp (level unit : Nat) (s : State) : Nat :=
  match rmIsland level unit with
  | none => s.tick
  | some i => match s.islandNow i with
    | none => 0
    | some k => if i < 256 then max (s.cluster i).lastStamp k else k

/-- Writes a record whose source is not limited. -/
def State.recordRaw (kind level unit part sev : Nat) (data : List Nat) (s : State) : State :=
  let k := s.rmStamp level unit
  let w := s.wallAt k
  let r : RmRec := { seq := 0, kind := kind, level := level, unit := unit, part := part, sev := sev,
                     kept := rmKept kind sev, wallOk := w.isSome, wall := w.getD 0, tick := k,
                     data := data }
  let p := s.obs.store r
  let s' := s.updObs fun _ => p.1
  match p.2 with
  | some c => s'.tally c
  | none => s'

/-- At most 1,000 records a second of one kind from one unit (R446). -/
def suppressed (o : Observe) (kind unit tick : Nat) : Bool :=
  match aget o.suppress (kind, unit) with
  | some (start, n) => decide (tick < start + 1000000000) && decide (1000 ≤ n)
  | none => false

/-- The source's count of R446, with one more record. -/
def suppressNext (o : Observe) (kind unit tick : Nat) : Nat × Nat :=
  match aget o.suppress (kind, unit) with
  | some (start, n) => if tick < start + 1000000000 then (start, n + 1) else (tick, 1)
  | none => (tick, 1)

/-- A unit that reports, apart from the units of other levels (R446). -/
def sourceOf (level unit : Nat) : Nat := level * 65536 + unit

/-- Reports an event to Rosemary (R446): level of R8, unit, partition (0xFF none), severity and
data fields packed under R381. -/
def State.record (kind level unit part sev : Nat) (data : List (Nat × Nat)) (s : State) : State :=
  if suppressed s.obs kind (sourceOf level unit) s.tick then s.tally Ctr.rmSuppressed
  else
    (s.updObs fun o =>
      { o with suppress := aset o.suppress (kind, sourceOf level unit)
                 (suppressNext o kind (sourceOf level unit) s.tick) }).recordRaw
      kind level unit part sev (pack data)

/-- The number the next record takes. -/
def State.rmNext (s : State) : Nat :=
  s.obs.rmSeq

/-! ### Device memory (R322 to R327) -/

/-- The size of a region's address range. -/
def regionSize : Nat := 0x600000000

/-- The region of an address. -/
def regionOf (a : Nat) : Nat := a / regionSize

/-- A range lies wholly within the memory for software (R322): one range may cross regions only
where both ends are software memory, which never happens, since Isain's area lies between.
[DEDUCED: notes/assumptions/34.md] -/
def inSoftware (a n : Nat) : Bool :=
  decide (a % regionSize + n ≤ 0x5E0000000) && decide (a < 0x6000000000)

/-- A range of addresses lies below 0x60_0000_0000 (R322). -/
def inDevice (a n : Nat) : Bool := decide (a + n ≤ 0x6000000000)

/-- The page of a word meets a trigger (R335), unless it is retired already. -/
def Region.mark (r : Region) (page : Nat) : Region :=
  if r.due.contains page || r.retired.any (fun e => e.1 == page) then r
  else { r with due := r.due ++ [page] }

/-- A day in ns, the span of R335 and R435. -/
def day : Nat := 86400000000000

/-- A word corrected and written back: the triggers of R335 for a word corrected again, and for 16
words of a page, within 24 h. -/
def Region.corrected (r : Region) (w tick : Nat) : Region :=
  let recent := r.corrections.filter (fun e => decide (tick < e.2 + day))
  let again := recent.any (fun e => e.1 == w)
  let others := (recent.filter (fun e => e.1 / 4096 == w / 4096 && e.1 != w)).length
  let r' := { r with corrections := recent.filter (fun e => e.1 != w) ++ [(w, tick)] }
  if again || decide (15 ≤ others) then r'.mark (w / 4096 * 4096) else r'

/-- The record of an uncorrectable read, at most one per page and millisecond (R331). Access: 0
read, 1 scrub, 2 partial write. The channel and the row follow R323. -/
def State.recordUe (w access : Nat) (s : State) : State :=
  let g := regionOf w
  let r := tgetD s.mem.regions g {}
  let page := w / 4096 * 4096
  if r.ueTold.any (fun e => e.1 == page && decide (s.tick < e.2 + 1000000)) then s
  else
    let x := placeOf (w % regionSize)
    let s' := s.updMem fun m => { m with
      regions := tset m.regions g
        { r with ueTold := r.ueTold.filter (fun e => e.1 != page) ++ [(page, s.tick)] } }
    s'.record 0x0010 2 g 0xFF 2 [(48, w), (8, x.channel), (32, x.row), (8, access)]

/-- One word with a listed fault is read (R325). [DESIGN CHOICE: notes/assumptions/108.md] -/
def State.readFault (w access : Nat) (f : WordFault) (s : State) : State :=
  let g := regionOf w
  match f with
  | .flipped =>
    (s.updMem fun m => { m with
      faults := tdel m.faults w
      regions := tset m.regions g ((tgetD m.regions g {}).corrected w s.tick) }).count Ctr.memCe g
  | .broken =>
    ((s.updMem fun m => { m with
      regions := tset m.regions g ((tgetD m.regions g {}).mark (w / 4096 * 4096)) }).count
        Ctr.memUe g).recordUe w access
  | .poison => s.count Ctr.memPoisonRead g

/-- The listed faults among the words a range of bytes touches. -/
def Memory.faultsIn (m : Memory) (a n : Nat) : Tab WordFault :=
  m.faults.filter (fun e => decide (a / 4 * 4 ≤ e.1) && decide (e.1 < a + n))

/-- A fault that no read can correct. -/
def WordFault.isBad : WordFault → Bool
  | .flipped => false
  | .broken => true
  | .poison => true

/-- Every word of a range can be read. [DESIGN CHOICE: notes/assumptions/108.md] -/
def Memory.readable (m : Memory) (a n : Nat) : Bool := !(m.faultsIn a n).any (fun e => e.2.isBad)

/-- The effect of reading a range, on counters, corrections and records (R325, R329, R331). -/
def State.touch (a n access : Nat) (s : State) : State :=
  (s.mem.faultsIn a n).foldl (fun s e => s.readFault e.1 access e.2) s

/-- The number of words that ranges of bytes touch. -/
def rangeWords (l : List (Nat × Nat)) : Nat := (l.map fun r => (r.1 + r.2 + 3) / 4 - r.1 / 4).sum

/-- The address of a word of those that ranges of bytes touch, by its place among them. -/
def rangeWord : List (Nat × Nat) → Nat → Option Nat
  | [], _ => none
  | r :: rest, i =>
    let n := (r.1 + r.2 + 3) / 4 - r.1 / 4
    if i < n then some (4 * (r.1 / 4 + i)) else rangeWord rest (i - n)

/-- A check found a word that could not be corrected. -/
def checkBad : WordCheck → Bool
  | .clean => false
  | .corrected => false
  | .uncorrectable => true
  | .poisoned => true

/-- What a word has that a check of R325 answers so. -/
def checkFault : WordCheck → Option WordFault
  | .clean => none
  | .corrected => some .flipped
  | .uncorrectable => some .broken
  | .poisoned => some .poison

/-- A word gets a fault; one that has another keeps it, unless a flipped or a poisoned word breaks (R325). -/
def Memory.hurt (m : Memory) (w : Nat) (f : WordFault) : Memory :=
  match tget m.faults w, f with
  | none, _ => { m with faults := tset m.faults w f }
  | some _, .broken => { m with faults := tset m.faults w f }
  | some _, _ => m

/-- What a check of the words of ranges finds has come about: where none of them is listed so, one of them is from
now on, and which one is open (R325). [DESIGN CHOICE: notes/assumptions/116.md] -/
def State.strike (l : List (Nat × Nat)) (check : WordCheck) (s : State) : State :=
  match checkFault check with
  | none => s
  | some f =>
    if l.any fun r => (s.mem.faultsIn r.1 r.2).any fun e => e.2 == f then s
    else match rangeWord l (freeBelow (rangeWords l) s.fresh.1) with
      | none => s
      | some w => s.fresh.2.updMem fun m => m.hurt w f

/-- Isain's areas (R322). -/
def isainAreas : List (Nat × Nat) := (List.range 16).map fun g => (g * regionSize + 0x5FE000000, 0x2000000)

/-- A word of Isain's areas is read, and `check` is what it gives; which one is open.
[DESIGN CHOICE: notes/assumptions/116.md] -/
def State.isainWord (check : WordCheck) (s : State) : State :=
  match checkFault check, rangeWord isainAreas (freeBelow (rangeWords isainAreas) s.fresh.1) with
  | some f, some w => (s.fresh.2.updMem fun m => m.hurt w f).touch w 4 0
  | _, _ => s

/-- The bytes of a range of device memory. -/
def State.bytesAt (a n : Nat) (s : State) : List Byte := memBytes s.mem.bytes a n

/-- The little-endian number of `n` bytes of device memory. -/
def State.leAt (a n : Nat) (s : State) : Nat := leNat (s.bytesAt a n)

/-- The words a write covers in part only: at most the first and the last (R326). -/
def partWords (a n : Nat) : List Nat :=
  ((if a % 4 = 0 then [] else [a / 4 * 4]) ++
    (if (a + n) % 4 = 0 then [] else [(a + n) / 4 * 4])).eraseDups

/-- A part-word write merges into a word that is read first (R326). -/
def State.mergeRead (w : Nat) (s : State) : State :=
  match tget s.mem.faults w with
  | none => s
  | some f =>
    let s' := s.readFault w 2 f
    if f.isBad then s'.updMem fun m => { m with faults := tset m.faults w .poison } else s'

/-- Bytes written to device memory: whole words get fresh check bytes, part words merge (R326). -/
def State.poke (a : Nat) (bs : List Byte) (s : State) : State :=
  let n := bs.length
  let s' := (partWords a n).foldl (fun s w => s.mergeRead w) s
  s'.updMem fun m => { m with
    bytes := memPut m.bytes a bs
    faults := m.faults.filter
      (fun e => !(decide (a ≤ e.1) && decide (e.1 + 4 ≤ a + n))) }

/-- A 64-bit little-endian word written. -/
def State.poke64 (a v : Nat) (s : State) : State := s.poke a (leBytes 8 v)

/-- A 32-bit little-endian word written. -/
def State.poke32 (a v : Nat) (s : State) : State := s.poke a (leBytes 4 v)

/-! ### Regions and links -/

/-- A region's controller. -/
def State.region (g : Nat) (s : State) : Region := tgetD s.mem.regions g {}

/-- A region's controller changed. -/
def State.modRegion (g : Nat) (f : Region → Region) (s : State) : State :=
  s.updMem fun m => { m with regions := tup m.regions g {} f }

/-- The lanes of a die-to-die link; 0 for the router and cluster links. -/
def linkLanes (l : Nat) : Nat := if l < 4 then 32 else if l < 8 then 16 else 0

/-- A link. -/
def State.link (l : Nat) (s : State) : Link := tgetD s.mem.links l {}

/-- A link changed. -/
def State.modLink (l : Nat) (f : Link → Link) (s : State) : State :=
  s.updMem fun m => { m with links := tup m.links l {} f }

/-! ### Where the device stands -/

/-- The package runs: powered, out of reset and not held still. -/
def State.alive (s : State) : Bool :=
  s.pkg.pwrgd && !s.pkg.coldLow && !s.pkg.warmLow && s.pkg.halt == .none

/-- The running state has been reached (step 15 of R367). -/
def State.running (s : State) : Bool := s.alive && s.bay.step15

/-- The data path moves: running, and no global stop holds its islands (R473). -/
def State.moving (s : State) : Bool := s.running && !s.obs.islandsStopped

/-- Isain answers: its cores are released (step 6) or the ROM serves in its place (R417), and it is
not being restarted (R23). -/
def State.isainUp (s : State) : Bool :=
  s.alive && s.bay.isainUp && (s.pkg.devState == .boot || s.pkg.devState == .running ||
    s.pkg.devState == .recovery)

/-- Admission is stopped: the device quiesces, is quiesced, or has shut down (R476, R389). -/
def State.closed (s : State) : Bool :=
  s.obs.quiesced || !s.obs.quiescing.isEmpty || s.bay.shutdown

/-- A line interface's port: 0 or 1. -/
def portOf (ifc : Nat) : Nat := ifc / 2

end Sys2Proof.Machine
end

