-- ==== Sys2Proof/Machine/Aes.lean ====
section
/-! DEFINITION. The cipher suites of MACsec that R65 names, GCM-AES-256 and GCM-AES-XPN-256, and the protected form of
a frame (IEEE 802.1AE). [PRESUMED: notes/assumptions/151.md] -/

namespace Sys2Proof.Machine

/-- The product of two bytes in the field of AES (FIPS 197). -/
def aesMul (a b : Nat) : Nat :=
  ((List.range 8).foldl (fun (p : Nat × Nat) i =>
    (if b.testBit i then p.1 ^^^ p.2 else p.1,
     if p.2.testBit 7 then (p.2 * 2) % 256 ^^^ 0x1B else p.2 * 2)) (0, a)).1

/-- The inverse of a byte: its power 254. -/
def aesInv (a : Nat) : Nat :=
  ((List.range 7).foldl (fun (p : Nat × Nat) _ =>
    let sq := aesMul p.2 p.2
    (aesMul p.1 sq, sq)) (1, a)).1

/-- The S-box. -/
def aesSub (a : Nat) : Nat :=
  let x := aesInv a
  let rot (k : Nat) : Nat := (x * 2 ^ k) % 256 + x / 2 ^ (8 - k)
  x ^^^ rot 1 ^^^ rot 2 ^^^ rot 3 ^^^ rot 4 ^^^ 0x63

/-- The bytes of a list xored one by one. -/
def xorBytes (a b : List Nat) : List Nat := (a.zip b).map fun e => e.1 ^^^ e.2

/-- The next word of the key schedule behind those so far, each of four bytes. -/
def aesNextWord (ws : List (List Nat)) : List Nat :=
  let n := ws.length
  let last := (ws[n - 1]?).getD []
  let t := if n % 8 = 0 then
      xorBytes ((last.drop 1 ++ last.take 1).map aesSub) [2 ^ (n / 8 - 1), 0, 0, 0]
    else if n % 8 = 4 then last.map aesSub else last
  xorBytes ((ws[n - 8]?).getD []) t

/-- The 15 round keys of a 256-bit key. -/
def aesKeys (key : Nat) : List (List Nat) :=
  let bs := (List.range 32).map fun i => key / 2 ^ (8 * (31 - i)) % 256
  let ws := (List.range 52).foldl (fun ws _ => ws ++ [aesNextWord ws])
    ((List.range 8).map fun i => (bs.drop (4 * i)).take 4)
  (List.range 15).map fun i => ((ws.drop (4 * i)).take 4).flatten

/-- The rows shifted, by bytes in column order. -/
def aesShift (b : List Nat) : List Nat :=
  (List.range 16).map fun i => (b[(5 * i) % 16]?).getD 0

/-- The columns mixed. -/
def aesMix (b : List Nat) : List Nat :=
  (List.range 16).map fun i =>
    let at' (k : Nat) : Nat := (b[i / 4 * 4 + (i + k) % 4]?).getD 0
    aesMul (at' 0) 2 ^^^ aesMul (at' 1) 3 ^^^ at' 2 ^^^ at' 3

/-- One block under the round keys. -/
def aesBlock (keys : List (List Nat)) (block : Nat) : Nat :=
  let b := xorBytes ((List.range 16).map fun i => block / 2 ^ (8 * (15 - i)) % 256) (keys.headD [])
  let b := ((keys.drop 1).take 13).foldl (fun b k => xorBytes (aesMix (aesShift (b.map aesSub))) k) b
  (xorBytes (aesShift (b.map aesSub)) ((keys[14]?).getD [])).foldl (fun n x => n * 256 + x) 0

/-- The product of two blocks in the field of GCM (SP 800-38D). -/
def ghashMul (x h : Nat) : Nat :=
  ((List.range 128).foldl (fun (p : Nat × Nat) i =>
    (if x.testBit (127 - i) then p.1 ^^^ p.2 else p.1,
     if p.2.testBit 0 then p.2 / 2 ^^^ 0xE1 * 2 ^ 120 else p.2 / 2)) (0, h)).1

/-- Bytes as 128-bit blocks, the last padded with zeros. -/
def gcmBlocks (bs : List Byte) : List Nat :=
  (List.range ((bs.length + 15) / 16)).map fun i =>
    let b := (bs.drop (16 * i)).take 16
    beNat (b ++ List.replicate (16 - b.length) 0)

/-- GCM's authenticated encryption with a 96-bit IV: the cipher bytes, then the 16 bytes of the tag. -/
def gcmSeal (key iv : Nat) (aad plain : List Byte) : List Byte :=
  let keys := aesKeys key
  let h := aesBlock keys 0
  let ct := ((List.range ((plain.length + 15) / 16)).flatMap fun i =>
    let p := (plain.drop (16 * i)).take 16
    (p.zip (beBytes 16 (aesBlock keys (iv * 2 ^ 32 + i + 2)))).map fun e => e.1 ^^^ e.2)
  let g := (gcmBlocks aad ++ gcmBlocks ct ++ [8 * aad.length * 2 ^ 64 + 8 * ct.length]).foldl
    (fun y b => ghashMul (y ^^^ b) h) 0
  ct ++ beBytes 16 (g ^^^ aesBlock keys (iv * 2 ^ 32 + 1))

/-- A frame protected by an association (R65): the SecTAG with its channel and packet number behind the addresses,
then the bytes left clear, the rest encrypted, and the check value. -/
def macsecProtect (x : Sa) (an confOffset : Nat) (bs : List Byte) : List Byte :=
  let body := bs.drop 12
  let sl := if body.length < 48 then body.length else 0
  let tag := beBytes 2 0x88E5 ++ beBytes 1 (0x2C + an % 4) ++ beBytes 1 sl ++ beBytes 4 (x.nextPn % 2 ^ 32) ++
    beBytes 8 x.sci.toNat
  let clear := body.take confOffset
  let iv := if x.xpn then (x.ssci.toNat * 2 ^ 64 + x.nextPn % 2 ^ 64) ^^^ x.salt.toNat
    else x.sci.toNat * 2 ^ 32 + x.nextPn % 2 ^ 32
  bs.take 12 ++ tag ++ clear ++
    gcmSeal x.sak.toNat iv (bs.take 12 ++ tag ++ clear) (body.drop confOffset)

end Sys2Proof.Machine
end

