-- ==== Sys2Proof/Machine/Keccak.lean ====
section
/-! DEFINITION. SHAKE256 of FIPS 202, which the manual names for the digests of containers, images
and reports (R298, R408, R422), and KMAC256 of NIST SP 800-185, which keys and tags use (R75, R78). -/

namespace Sys2Proof.Machine

/-- The lanes of a Keccak state: lane (x, y) at x + 5y. -/
abbrev Lanes := List W64

/-- A lane. -/
def lane (a : Lanes) (x y : Nat) : W64 := (a[x % 5 + 5 * (y % 5)]?).getD 0

/-- A state from its lanes. -/
def mkLanes (f : Nat → Nat → W64) : Lanes := (List.range 25).map fun i => f (i % 5) (i / 5)

/-- The rotation of each lane. -/
def keccakRot : List Nat :=
  [0, 1, 62, 28, 27, 36, 44, 6, 55, 20, 3, 10, 43, 25, 39, 41, 45, 15, 21, 8, 18, 2, 61, 56, 14]

/-- The round constants. -/
def keccakRc : List W64 :=
  [0x1, 0x8082, 0x800000000000808a, 0x8000000080008000, 0x808b, 0x80000001, 0x8000000080008081,
   0x8000000000008009, 0x8a, 0x88, 0x80008009, 0x8000000a] ++
  [0x8000808b, 0x800000000000008b, 0x8000000000008089, 0x8000000000008003, 0x8000000000008002,
   0x8000000000000080, 0x800a, 0x800000008000000a, 0x8000000080008081, 0x8000000000008080,
   0x80000001, 0x8000000080008008]

/-- One round of Keccak-f[1600]: theta, rho and pi, chi, iota. -/
def keccakRound (a : Lanes) (rc : W64) : Lanes :=
  let cs := (List.range 5).map fun x =>
    lane a x 0 ^^^ lane a x 1 ^^^ lane a x 2 ^^^ lane a x 3 ^^^ lane a x 4
  let col (x : Nat) : W64 := (cs[x % 5]?).getD 0
  let a := mkLanes fun x y => lane a x y ^^^ col (x + 4) ^^^ (col (x + 1)).rotateLeft 1
  let b := mkLanes fun x y =>
    (lane a (x + 3 * y) x).rotateLeft ((keccakRot[(x + 3 * y) % 5 + 5 * x]?).getD 0)
  let a := mkLanes fun x y => lane b x y ^^^ (~~~(lane b (x + 1) y) &&& lane b (x + 2) y)
  match a with
  | [] => []
  | h :: r => (h ^^^ rc) :: r

/-- The Keccak-f[1600] permutation. -/
def keccakF (a : Lanes) : Lanes := keccakRc.foldl keccakRound a

/-- A block of 136 bytes as lanes, the rest zero. -/
def blockLanes (bs : List Byte) : Lanes := bytesWords 17 bs ++ List.replicate 8 0

/-- A message with the padding of Keccak to whole blocks of 136 bytes; `d` holds the domain bits and
the first padding bit. -/
def spongePad (d : Byte) (m : List Byte) : List Byte :=
  let k := 136 - m.length % 136
  m ++ (if k = 1 then [d ||| 0x80] else d :: (List.replicate (k - 2) 0 ++ [0x80]))

/-- Blocks absorbed one after the other. -/
def absorb : Nat → Lanes → List Byte → Lanes
  | 0, a, _ => a
  | n + 1, a, m =>
    absorb n (keccakF ((a.zip (blockLanes (m.take 136))).map fun p => p.1 ^^^ p.2)) (m.drop 136)

/-- The sponge with at most 136 bytes of output. -/
def sponge (d : Byte) (out : Nat) (m : List Byte) : List Byte :=
  let p := spongePad d m
  (wordsBytes (absorb (p.length / 136) (List.replicate 25 0) p)).take out

/-- SHAKE256 with at most 136 bytes of output. [DESIGN CHOICE: notes/assumptions/14.md] -/
def shake256 (out : Nat) (m : List Byte) : List Byte := sponge 0x1F out m

/-- The bytes a length takes in the encodings of SP 800-185; every length here lies below 2^32. -/
def encBytes (x : Nat) : Nat :=
  if x < 256 then 1 else if x < 65536 then 2 else if x < 16777216 then 3 else 4

/-- `left_encode`. -/
def leftEncode (x : Nat) : List Byte := BitVec.ofNat 8 (encBytes x) :: beBytes (encBytes x) x

/-- `right_encode`. -/
def rightEncode (x : Nat) : List Byte := beBytes (encBytes x) x ++ [BitVec.ofNat 8 (encBytes x)]

/-- `encode_string`. -/
def encodeString (s : List Byte) : List Byte := leftEncode (8 * s.length) ++ s

/-- `bytepad` to the rate of 136 bytes. -/
def bytePad (x : List Byte) : List Byte :=
  let y := leftEncode 136 ++ x
  y ++ List.replicate ((136 - y.length % 136) % 136) 0

/-- The bytes of a customisation string. -/
def asciiBytes (s : String) : List Byte := s.toList.map fun c => BitVec.ofNat 8 c.toNat

/-- KMAC256 of a key, a message and a customisation string, `out` bytes long (at most 136). -/
def kmac256 (key m : List Byte) (out : Nat) (custom : String) : List Byte :=
  sponge 0x04 out (bytePad (encodeString (asciiBytes "KMAC") ++ encodeString (asciiBytes custom)) ++
    bytePad (encodeString key) ++ m ++ rightEncode (8 * out))

end Sys2Proof.Machine
end

