-- ==== Sys2Proof/Machine/RingOps.lean ====
section
/-! DEFINITION. Rings: indices, entries, the context cache, the writing of items under the full
policies, completions, request slots and events on rings (R87 to R107, R454, R455). -/

namespace Sys2Proof.Machine

/-! ### Contexts and indices -/

/-- A ring's context (R88). -/
def State.ring (n : Nat) (s : State) : Ring := tgetD s.rings.ctx n {}

/-- A ring's context replaced. -/
def State.setRing (n : Nat) (r : Ring) (s : State) : State :=
  s.updRings fun x => { x with ctx := tset x.ctx n r }

/-- A ring's context changed. -/
def State.modRing (n : Nat) (f : Ring → Ring) (s : State) : State := s.setRing n (f (s.ring n))

/-- A ring has been created (R87). -/
def State.ringMade (n : Nat) (s : State) : Bool := (s.ring n).rtype != 0

/-- `REQUEST_IN` and `COMMAND` rings are host-produced (R89). -/
def hostProduced (rtype : Nat) : Bool := rtype == 1 || rtype == 3

/-- Ring size in entries (R88). -/
def Ring.size (r : Ring) : Nat := 2 ^ r.log2Entries

/-- Entry size in bytes (R88). -/
def Ring.entryBytes (r : Ring) : Nat := if r.esize = 1 then 128 else 64

/-- The memory a ring takes, in bytes. -/
def Ring.bytes (r : Ring) : Nat := r.size * r.entryBytes

/-- The address of an entry (R91). -/
def Ring.addr (r : Ring) (i : W32) : Nat := r.baseAddr + i.toNat % r.size * r.entryBytes

/-- The signed difference of two ring indices (R91). -/
def idxDiff (a b : W32) : Int := (a - b).toInt

/-- One index is above another (R91). -/
def idxAbove (a b : W32) : Bool := decide (0 < idxDiff a b)

/-- Entries between two indices, as a count. -/
def idxCount (hi lo : W32) : Nat := (hi - lo).toNat

/-- Free entries of a ring (R91). -/
def Ring.room (r : Ring) : Nat := r.size - idxCount r.prodIdx r.consIdx

/-- The credit limit of a host-produced ring (R92). -/
def Ring.credit (r : Ring) : W32 := r.consIdx + BitVec.ofNat 32 r.size

/-! ### The context cache (R90) -/

/-- A ring's context is in the cache. -/
def State.cached (n : Nat) (s : State) : Bool := s.rings.cache.cached.contains n

/-- The cache without its least recently used unpinned context when it is full. -/
def evict (pinned : Nat → Bool) (c : List Nat) : List Nat :=
  if c.length < 512 then c
  else match c.find? (fun n => !pinned n) with
    | some n => c.erase n
    | none => c

/-- A context used, or brought in: most recently used. -/
def State.useCtx (n : Nat) (s : State) : State :=
  let c := s.rings.cache.cached.erase n
  let c' := if s.cached n then c else evict (fun k => (s.ring k).pinned) c
  s.updRings fun x => { x with cache := { x.cache with cached := c' ++ [n] } }

/-- A miss: the fetch starts, unless it runs, and the operation waits (R90). -/
def State.missCtx (n : Nat) (op : Option CtxOp) (s : State) : State :=
  s.updRings fun x => { x with cache := { x.cache with
    fetching := if x.cache.fetching.contains n then x.cache.fetching else x.cache.fetching ++ [n]
    waiting := x.cache.waiting ++ (op.toList.map fun o => (n, o)) } }

/-! ### Entries (R96) -/

/-- The header word of an entry (R96); `idx_check` is set when the entry is written. -/
def entryHead (kind flags count data : Nat) : W64 :=
  BitVec.ofNat 64 (kind * 2 ^ 56 + flags % 256 * 2 ^ 48 + count * 2 ^ 24 + data % 65536)

/-- A header word with its `idx_check`. -/
def headAt (w : W64) (i : W32) : W64 :=
  BitVec.ofNat 64 (bitsOf w.toNat 63 48 * 2 ^ 48 + i.toNat % 65536 * 2 ^ 32 + bitsOf w.toNat 31 0)

/-- An entry padded to its ring's size. -/
def padEntry (words : Nat) (e : List W64) : List W64 := e ++ List.replicate (words - e.length) 0

/-- An entry as it is stored at an index. -/
def entryAt (words : Nat) (e : List W64) (i : W32) : List W64 :=
  match padEntry words e with
  | [] => []
  | h :: r => headAt h i :: r

/-- The words of the entry that stands at an index. -/
def State.entryWords (n : Nat) (i : W32) (s : State) : List W64 :=
  let r := s.ring n
  bytesWords (r.entryBytes / 8) (s.bytesAt (r.addr i) r.entryBytes)

/-- The entry's bytes can all be read. -/
def State.entryReadable (n : Nat) (i : W32) (s : State) : Bool :=
  s.mem.readable ((s.ring n).addr i) (s.ring n).entryBytes

def headKind (w : W64) : Nat := bitsOf w.toNat 63 56
def headFlags (w : W64) : Nat := bitsOf w.toNat 55 48
def headIdx (w : W64) : Nat := bitsOf w.toNat 47 32
def headCount (w : W64) : Nat := bitsOf w.toNat 31 24
def headResv (w : W64) : Nat := bitsOf w.toNat 23 16
def headData (w : W64) : Nat := bitsOf w.toNat 15 0

/-- The word of an entry, 0 past its end. -/
def wordOf (e : List W64) (i : Nat) : W64 := (e[i]?).getD 0

/-- An item: its entries in order, each a list of words with the header word first. -/
abbrev RingItem := List (List W64)

/-! ### Slots (R105, R106) -/

/-- A request slot. -/
def State.slot (k : Nat) (s : State) : Slot := tgetD s.rings.slots k {}

/-- A slot replaced. -/
def State.setSlot (k : Nat) (x : Slot) (s : State) : State :=
  s.updRings fun r => { r with slots := tset r.slots k x }

/-- A slot changed. -/
def State.modSlot (k : Nat) (f : Slot → Slot) (s : State) : State := s.setSlot k (f (s.slot k))

/-- A slot freed: its generation rises by 1, and everything else of it is gone (R106). -/
def State.freeSlot (k : Nat) (s : State) : State :=
  s.setSlot k { gen := ((s.slot k).gen + 1) % 65536 }

/-- Slots a partition holds. -/
def State.slotsOf (part : Nat) (s : State) : Nat :=
  (s.rings.slots.filter (fun e => e.2.state != .free && e.2.part == part)).length

/-- A message matches a slot: number, generation, token, and the slot is in use (R106). -/
def State.slotMatch (k gen token : Nat) (s : State) : Bool :=
  let x := s.slot k
  (x.state == .admitted || x.state == .running || x.state == .posting) && x.gen == gen &&
    x.token == token

/-! ### Completions (R108, R109) -/

/-- The slots whose request stands at a ring and index. -/
def State.slotsAt (n : Nat) (i : W32) (s : State) : List Nat :=
  (s.rings.slots.filter (fun e => e.2.state != .free && e.2.state != .orphan &&
    e.2.src == .ring n i)).map (·.1)

/-- An entry of a host-produced ring has completed: it no longer holds its ring's fences, its
request's slot is freed, and `inflight` falls. -/
def State.completeEntry (n : Nat) (i : W32) (s : State) : State :=
  let held := s.slotsAt n i
  let s' := held.foldl (fun s k => s.freeSlot k) s
  s'.modRing n fun r => { r with
    opened := r.opened.filter (· != i)
    inflight := r.inflight - held.length }

/-- What follows when an item has been written to a ring or dropped: a `VERDICT` or `CMD_DONE` completes the
entry it names (R104, R109). An entry that a kernel posts to a `FABRIC` ring completes none (R358). -/
def State.itemDone (n : Nat) (item : RingItem) (s : State) : State :=
  match item with
  | [] => s
  | e :: _ =>
    let k := headKind (wordOf e 0)
    if (k = 0x10 ∨ k = 0x12) ∧ (s.ring n).rtype ≠ 7 then
      let w := (wordOf e 2).toNat
      s.completeEntry (bitsOf w 47 36) (BitVec.ofNat 32 w)
    else s

/-! ### Writing items to K4-produced rings (R104) -/

/-- An item dropped: counted, reported later by `LOSS` except on a `FABRIC` ring (R357), and its
completion stands. -/
def State.dropItem (n : Nat) (item : RingItem) (s : State) : State :=
  (s.modRing n fun r => { r with
    dropCount := min (r.dropCount + item.length) (2 ^ 32 - 1)
    lossFirst := if r.lossCount = 0 then r.prodIdx else r.lossFirst
    lossCount := if r.rtype = 7 then 0 else r.lossCount + item.length }).itemDone n item

/-- One entry written at the producer index. -/
def State.putEntry (n : Nat) (e : List W64) (s : State) : State :=
  let r := s.ring n
  let ws := entryAt (r.entryBytes / 8) e r.prodIdx
  let prot := headKind (wordOf e 0) == 0x14 && (headFlags (wordOf e 0) / 2) % 2 == 1
  (s.poke (r.addr r.prodIdx) (wordsBytes ws)).modRing n fun r => { r with
    prodIdx := r.prodIdx + 1
    lastTick := s.tick
    prot := if prot then r.prot ++ [r.prodIdx] else r.prot
    written := r.written.filter (fun e => !idxAbove r.consIdx e.1) ++ [(r.prodIdx, s.tick)] }

/-- The `LOSS` entry of a ring (R101). -/
def lossItem (r : Ring) : RingItem :=
  [[entryHead 0x16 0 1 0, BitVec.ofNat 64 (r.lossFirst.toNat * 2 ^ 32 + r.lossCount)]]

/-- The `LOSS` entry that is due is written when there is space, ahead of the next entry (R104). -/
def State.putLoss (n : Nat) (s : State) : State :=
  let r := s.ring n
  if r.lossCount ≠ 0 ∧ r.enabled ∧ !r.faulted ∧ 0 < r.room then
    ((lossItem r).foldl (fun s e => s.putEntry n e) s).modRing n fun r => { r with lossCount := 0 }
  else s

/-- The entries of an item written. -/
def State.putItem (n : Nat) (item : RingItem) (s : State) : State :=
  item.foldl (fun s e => s.putEntry n e) s

/-- The entries an item takes, with the `LOSS` entry that is due. -/
def Ring.need (r : Ring) (item : RingItem) : Nat :=
  item.length + (if r.lossCount = 0 then 0 else 1)

/-- The item fits now, with no `LOSS` entry due before it (R104). -/
def Ring.fits (r : Ring) (item : RingItem) : Bool :=
  r.enabled && !r.faulted && decide (r.need item ≤ r.room)

/-- `OVERWRITE`: the oldest items are passed over until there is room, at most `fuel` of them; the
protected window is never passed over (R104, R465). -/
def State.overwrite (n need : Nat) : Nat → State → State
  | 0, s => s
  | fuel + 1, s =>
    let r := s.ring n
    if need ≤ r.room ∨ r.prot.contains r.consIdx then s
    else
      let c := max 1 (headCount (wordOf (s.entryWords n r.consIdx) 0))
      let cons := r.consIdx + BitVec.ofNat 32 c
      let r' := { r with
        consIdx := cons
        limitIdx := cons
        pushIdx := if idxAbove cons r.pushIdx then cons else r.pushIdx }
      State.overwrite n need fuel (s.setRing n r')

/-- An item for a K4-produced ring, by the ring's state and full policy, behind the `LOSS` entry that is
due (R104).
[DESIGN CHOICE: notes/assumptions/144.md] -/
def State.itemNow (n : Nat) (item : RingItem) (s : State) : State :=
  let s := s.putLoss n
  let r := s.ring n
  if r.rtype = 0 ∨ r.faulted then s.itemDone n item
  else if !r.enabled ∨ r.size < item.length then s.dropItem n item
  else if r.fullPolicy = 0 then
    if r.stalled.isEmpty && r.fits item then (s.putItem n item).itemDone n item
    else s.modRing n fun r => { r with stalled := r.stalled ++ [(s.tick, item)] }
  else if r.fits item then (s.putItem n item).itemDone n item
  else if r.fullPolicy = 2 then
    let s' := (s.overwrite n (r.need item) (r.need item)).putLoss n
    if (s'.ring n).fits item then (s'.putItem n item).itemDone n item else s'.dropItem n item
  else s.dropItem n item

/-- An item for a K4-produced ring; it waits for the ring's context where the cache misses (R90). -/
def State.ringItem (n : Nat) (item : RingItem) (s : State) : State :=
  if !s.ringMade n then s.itemDone n item
  else if s.cached n then (s.useCtx n).itemNow n item
  else s.missCtx n (some (.item item))

/-- One stalled item tried again, after those before it. -/
def drainOne (n : Nat) (p : State × List (Nat × RingItem)) (e : Nat × RingItem) :
    State × List (Nat × RingItem) :=
  if p.2.isEmpty && (p.1.ring n).fits e.2 then ((p.1.putItem n e.2).itemDone n e.2, p.2)
  else (p.1, p.2 ++ [e])

/-- Space has appeared: the `LOSS` entry that is due is written, then stalled items, in order, while they
fit (R104). -/
def State.drainStalled (n : Nat) (s : State) : State :=
  let s := s.putLoss n
  let q := (s.ring n).stalled
  let p := q.foldl (drainOne n) (s.modRing n fun r => { r with stalled := [] }, [])
  p.1.modRing n fun r => { r with stalled := p.2 ++ r.stalled }

/-- The stalled items of a ring that is being disabled are dropped (R104). -/
def State.dropStalled (n : Nat) (s : State) : State :=
  let q := (s.ring n).stalled
  q.foldl (fun s e => s.dropItem n e.2) (s.modRing n fun r => { r with stalled := [] })

/-- A partition's rings of a type. -/
def State.ringsOf (part rtype : Nat) (s : State) : List Nat :=
  (s.rings.ctx.filter (fun e => e.2.rtype == rtype && e.2.owner == part)).map (·.1)

/-! ### Credits (R92) -/

/-- The sessions of a partition learn of a changed credit limit later (R83). -/
def State.tellCredit (n : Nat) (s : State) : State :=
  let owner := (s.ring n).owner
  s.updOuv fun o => { o with sessions := o.sessions.map fun e =>
    if e.2.part = owner ∧ !e.2.credits.contains n then
      (e.1, { e.2 with credits := e.2.credits ++ [n] })
    else e }

/-- Entries of a host-produced ring consumed: `cons_idx` and the credit limit move (R92). -/
def State.consume (n k : Nat) (s : State) : State :=
  (s.modRing n fun r => { r with
    consIdx := r.consIdx + BitVec.ofNat 32 k
    limitIdx := r.consIdx + BitVec.ofNat 32 k + BitVec.ofNat 32 r.size
    headTick := s.tick
    slotWait := none
    avail := r.avail.filter fun e => idxAbove e.1 (r.consIdx + BitVec.ofNat 32 k) }).tellCredit n

/-! ### Events on rings (R454, R455) -/

/-- A partition's event ring: its lowest-numbered enabled `EVENT` ring. -/
def State.eventRing (part : Nat) (s : State) : Option Nat :=
  (s.rings.ctx.find? (fun e => e.2.rtype == 4 && e.2.owner == part && e.2.enabled)).map (·.1)

/-- The entries of an event (R454). -/
def eventItem (code tick wall rm : Nat) (data : List Nat) : RingItem :=
  let w (n : Nat) : W64 := BitVec.ofNat 64 n
  let n := if data.length ≤ 4 then 1 else 2
  let first := [entryHead 0x13 0 n code, w tick, w wall, w rm] ++ (data.take 4).map w
  if data.length ≤ 4 then [first] else [first, entryHead 0x13 0 0 0 :: (data.drop 4).map w]

/-- An event for a partition: code, data fields, and the number of the matching Rosemary record or
0 (R454). -/
def State.event (part code : Nat) (data : List (Nat × Nat)) (rm : Nat) (s : State) : State :=
  match s.eventRing part with
  | some n => s.ringItem n (eventItem code s.tick (s.wallWord s.tick) rm (pack data))
  | none => s.count Ctr.evNoRing part

/-- A Rosemary record and the event that matches it. -/
def State.recordEvent (kind level unit rpart sev : Nat) (rdata : List (Nat × Nat))
    (part code : Nat) (data : List (Nat × Nat)) (s : State) : State :=
  let rm := s.rmNext
  let s' := s.record kind level unit rpart sev rdata
  s'.event part code data (if s'.rmNext = rm then 0 else rm)

/-- A ring whose context cannot be read: disabled, faulted, its owner told (R331). -/
def State.faultRing (n : Nat) (s : State) : State :=
  let owner := (s.ring n).owner
  ((s.dropStalled n).modRing n fun r => { r with enabled := false, faulted := true }).event owner
    0x0008 [(12, n)] 0

/-! ### The context as `RING_QUERY` gives it (R88) -/

/-- The 64-byte context as eight words, bits 63:0 first, as R379 gives for a header. -/
def ringContextWords (n : Nat) (r : Ring) : List Nat :=
  pack [(12, n), (4, r.rtype), (6, r.owner), (1, r.esize), (1, bit r.enabled), (1, bit r.pinned),
        (2, r.fullPolicy), (5, r.log2Entries), (16, r.ownerToken), (16, 0),
        (48, r.baseAddr), (12, r.cqRing), (4, 0),
        (32, r.prodIdx.toNat), (32, r.consIdx.toNat), (32, r.limitIdx.toNat),
        (32, r.pushIdx.toNat), (32, r.pushSession),
        (16, r.inflightMax), (16, r.inflight), (16, r.fullTimeout), (16, r.fencePending),
        (32, r.dropCount), (64, r.lastTick), (64, 0)] |>.reverse

end Sys2Proof.Machine
end

