-- ==== Sys2Proof/Machine/StoreOps.lean ====
section
/-! DEFINITION. What the settings store holds: the records of a group, the one in use, and the room left
(R371 to R375). -/

namespace Sys2Proof.Machine

/-- A slot's bytes. -/
def Bay.slotMem (b : Bay) (k : Nat) : Mem := if k = 0 then b.slotA else b.slotB

/-- The format an image declares for a settings group; 0 where it declares none (R409). -/
def imageFmt (m : Mem) (group : Nat) : Nat :=
  let n := min 256 (leNat (memBytes m 432 2))
  (((List.range n).find? fun i => leNat (memBytes m (440 + 4 * i) 2) == group).map
    fun i => leNat (memBytes m (442 + 4 * i) 2)).getD 0

/-- The group of a settings record. -/
def StVal.group : StVal → Nat
  | .remap .. => 1 | .pages .. => 2 | .bootCount .. => 3 | .rows .. => 4 | .fabric .. => 5
  | .partition .. => 6 | .clusters .. => 7 | .ports .. => 8 | .device .. => 9 | .ptp .. => 10
  | .parser .. => 11 | .cls .. => 12 | .egress .. => 13 | .tables .. => 14 | .rings .. => 15
  | .keys .. => 16 | .sealedKeys .. => 16

/-- The scope of a settings record: a partition, or the device. -/
def StVal.scope : StVal → Nat
  | .partition p _ => p
  | _ => 0xFFFF

/-- The record used for a group in a scope, of those that a format allows: the newest good record
in the image's format, else the newest good one of an older format (R371, R375, R376). -/
def usedRecord (store : List StRec) (fmt group scope : Nat) : Option StRec :=
  let mine := store.filter fun r => r.value.group == group && r.value.scope == scope && !r.bad
  match (mine.filter fun r => r.fmt == fmt).getLast? with
  | some r => some r
  | none => (mine.filter fun r => decide (r.fmt < fmt)).getLast?

/-- The groups and scopes the store holds, in group order. -/
def storeKeys (store : List StRec) : List (Nat × Nat) :=
  ((List.range 17).flatMap fun g =>
    (store.filter fun r => r.value.group == g).map fun r => (g, r.value.scope)).eraseDups

/-- The bytes of a record with `len` bytes of data (R371). -/
def recSize (len : Nat) : Nat := 32 + (len + 31) / 32 * 32

/-- The bytes a half of the store holds (R371). [DESIGN CHOICE: notes/assumptions/19.md] -/
def storeUsed (l : List StRec) : Nat := 65536 + (l.map fun r => recSize r.len).sum

/-- The records that a compaction keeps (R373, R375): of each group and scope the one in use, or while a slot
is `TRIAL` the newest of every format, and of those that stood before the trial began, after record `since`.
[DEDUCED: notes/assumptions/157.md] -/
def keptRecords (trial : Bool) (since : Option Nat) (m : Mem) (l : List StRec) : List StRec :=
  let keys := storeKeys l
  let used := if trial || since.isSome then
      keys.flatMap fun k =>
        let mine := l.filter fun r => r.value.group == k.1 && r.value.scope == k.2 && !r.bad
        (mine.map (·.fmt)).eraseDups.flatMap fun f =>
          let same := mine.filter fun r => r.fmt == f
          let old := match since with
            | some n => (same.filter fun r => decide (r.seq ≤ n)).getLast?.toList
            | none => []
          same.getLast?.toList ++ old
    else keys.filterMap fun k => usedRecord l (imageFmt m k.1) k.1 k.2
  l.filter fun r => used.any fun u => u.seq == r.seq

/-- A slot holds an image on trial. -/
def Bay.onTrial (b : Bay) : Bool := b.dir.stateA == 2 || b.dir.stateB == 2

/-- The records that a compaction of the store leaves (R373). -/
def Bay.keepsNow (b : Bay) : List StRec := keptRecords b.onTrial b.trialFrom (b.slotMem b.runSlot) b.store

/-- A compaction (R373): the other half, erased, takes the records and is in force; the old one is still to be
erased. -/
def Bay.compact (b : Bay) : Bay :=
  { b with store := b.keepsNow, half := 1 - b.half, hSeq := b.hSeq + 1, other := some (b.hSeq, b.store) }

/-- Room for a record of `len` bytes of data: the half that a compaction has left is erased, and a half that is 75% full,
or too full for the record, is compacted (R373). [DEDUCED: notes/assumptions/157.md] -/
def Bay.makeRoom (len : Nat) (b : Bay) : Bay :=
  let b := { b with other := none }
  if 12582912 ≤ storeUsed b.store ∨ 16777216 < storeUsed b.store + recSize len then b.compact else b

/-- A record of `len` bytes of data fits the half in force once there is room (R372). -/
def Bay.fits (len : Nat) (b : Bay) : Bool :=
  decide (storeUsed (b.makeRoom len).store + recSize len ≤ 16777216)

/-- No further record fits the half, however short, beside those that wait, even after a compaction (R372). -/
def Bay.full (b : Bay) : Bool := decide (16777216 < storeUsed b.keepsNow + (b.unsaved.length + 1) * 32)

/-- With `n` more records than the store has, each as long as a record may be, a half could be too small
even after a compaction (R371, R372). -/
def Bay.cramped (b : Bay) (n : Nat) : Bool := decide (16777216 < storeUsed b.keepsNow + n * 4194336)

end Sys2Proof.Machine
end

