-- ==== Sys2Proof/Machine/IsainOps.lean ====
section
/-! DEFINITION. The control queues, sessions, the answers of Isain, and the checks every command passes
(R72 to R86, R171, R379 to R388). -/

namespace Sys2Proof.Machine

/-! ### The K4's own frames (R64, R171) -/

/-- An interface. -/
def State.ifc (i : Nat) (s : State) : Ifc := tgetD s.ifcs i {}

/-- The key of an egress queue: 0 to 7 by priority, 8 the control queue, 9 the interface shaper.
[DESIGN CHOICE: notes/assumptions/37.md] -/
def qKey (ifc q : Nat) : Nat := ifc * 16 + q

/-- The bytes of a control queue's frames, with their FCS. -/
def ctlBytes (l : List (Nat × Nat × Sent)) : Nat := (l.map fun e => e.2.1).sum

/-- The thresholds and the headroom of a priority; before they are set the widest span of R394 and the least
headroom of R64. [DESIGN CHOICE: notes/assumptions/6.md] -/
def Ifc.xoff (i : Ifc) (p : Nat) : Nat := tgetD i.pfcXoff p 16777216
def Ifc.xon (i : Ifc) (p : Nat) : Nat := tgetD i.pfcXon p 8192
def Ifc.room (i : Ifc) (p : Nat) : Nat := tgetD i.pfcHeadroom p 16384

/-- The headroom of all enabled priorities on all interfaces (R64). -/
def State.headroom (s : State) : Nat :=
  ((List.range 4).flatMap fun i => (List.range 8).map fun p =>
    if (s.ifc i).pfcEnable.getLsbD p then (s.ifc i).room p else 0).sum

/-- The packet buffer in use: the frames in it and those of the control queues. -/
def State.bufferUse (s : State) : Nat :=
  (s.parser.frames.map fun e => e.2.bytes.length + 4).sum +
    (s.eg.queues.map fun e => ctlBytes e.2.ctl).sum

/-- The shared buffer: 96 MiB less the headroom (R171). -/
def State.sharedBuffer (s : State) : Nat := 100663296 - s.headroom

/-- A frame of the K4's own, `len` bytes with its FCS: it waits in the control queue of its line
interface, which is refused only when the buffer is full (R171). The service port has no queue (R71).
[DEDUCED: notes/assumptions/128.md] -/
def State.emit (ifc len : Nat) (x : Sent) (s : State) : State :=
  if 4 ≤ ifc then s.out x
  else if s.sharedBuffer < s.bufferUse + len then s.count Ctr.txCtlDrop ifc
  else s.updEg fun e => { e with
    queues := tup e.queues (qKey ifc 8) {} fun q =>
      let l := q.ctl ++ [(s.tick, len, x)]
      { q with ctl := l, hwmBytes := max q.hwmBytes (ctlBytes l) } }

/-- The bytes of a line frame that carries `n` bytes over UDP to an address in IPv6 or IPv4-mapped
form, with its FCS; the K4 sends its own frames untagged. [DEDUCED: notes/assumptions/128.md] -/
def udpLen (host : BitVec 128) (n : Nat) : Nat :=
  max 64 (14 + (if host.toNat / 2 ^ 32 = 0xFFFF then 20 else 40) + 8 + n + 4)

/-! ### Sessions -/

/-- A session. -/
def State.session (sid : Nat) (s : State) : Option Session := tget s.ouv.sessions sid

/-- A session changed. -/
def State.modSession (sid : Nat) (f : Session → Session) (s : State) : State :=
  s.updOuv fun o => { o with sessions := tmod o.sessions sid f }

/-- A frame of the K4 counts in its session (R77, R78). -/
def Session.sent (x : Session) : Session :=
  { x with txSeq := x.txSeq + 1, txFrames := x.txFrames + 1 }

/-- The credit limit a frame to the host carries (R83). -/
def State.creditFor (x : Session) (s : State) : Option (Nat × W32) :=
  match x.credits with
  | [] => none
  | n :: _ => some (n, (s.ring n).credit)

/-- A status as its 16-bit value (R382). -/
def statusCode : Status → Nat
  | .ok => 0 | .busy => 1 | .eAuth => 2 | .ePriv => 3 | .eArg => 4 | .eRange => 5 | .eState => 6
  | .eNospace => 7 | .eTimeout => 8 | .eFault => 9 | .eConflict => 10

/-- The header of an Ouvlen frame from the K4, most significant byte first (R5, R72). -/
def ouvHeader (ftype len sid seq target : Nat) (credit : Option (Nat × W32)) : List Byte :=
  let c : Nat := match credit with
    | some (n, l) => n * 2 ^ 36 + 2 ^ 32 + l.toNat
    | none => 0
  beBytes 24 (2 ^ 188 + ftype * 2 ^ 184 + len * 2 ^ 160 + sid * 2 ^ 128 + seq * 2 ^ 64 +
    target * 2 ^ 48 + c)

/-- The payload of an Ouvlen frame from the K4 (R5, R73, R96, R379): its 64-bit words most significant
byte first; a status with 48 reserved bits; in `WIN_DATA` the offset, the status and 32-bit words of
data in the order of their bytes. -/
def ouvPayload (ftype : Nat) (status : Status) (words : List Nat) : List Byte :=
  let st := beBytes 8 (statusCode status * 2 ^ 48)
  match ftype, words with
  | 0x3, _ => st
  | 0xF, _ => st
  | 0xD, o :: ds => beBytes 8 o ++ st ++ ds.flatMap (beBytes 4)
  | _, ws => ws.flatMap (beBytes 8)

/-- The tag of an Ouvlen frame from the K4 under a key (R75, R76, R78); an untagged frame carries
zeros. -/
def ouvTag (key : Option (BitVec 256)) (header payload : List Byte) : Nat :=
  match key with
  | some k => beNat (kmac256 (beBytes 32 k.toNat) (header ++ payload) 16 "OUVLEN FRAME")
  | none => 0

/-- An Ouvlen frame put on its way (R72, R73, R78). -/
def State.putOuv (key : Option (BitVec 256)) (ifc : Nat) (host : BitVec 128)
    (sid ftype seq target : Nat) (status : Status) (words : List Nat) (credit : Option (Nat × W32))
    (s : State) : State :=
  let payload := ouvPayload ftype status words
  s.emit ifc (udpLen host (40 + payload.length))
    (.ouv sid ifc ftype seq target status words credit
      (ouvTag key (ouvHeader ftype payload.length sid seq target credit) payload))

/-- An Ouvlen frame of a session: it takes the next `seq` and carries one due credit limit. -/
def State.sendFrame (sid ftype target : Nat) (status : Status) (words : List Nat) (s : State) :
    State :=
  match s.session sid with
  | none => s
  | some x =>
    (s.modSession sid fun x => { x.sent with credits := x.credits.drop 1 }).putOuv (some x.kD2h)
      x.ifc x.host sid ftype x.txSeq target status words (s.creditFor x)

/-- The update lock falls free with its session (R400). -/
def State.dropLock (sid : Nat) (s : State) : State :=
  s.updBay fun b => { b with lock := match b.lock with
    | some l => if l.sid = sid then none else some l
    | none => none }

/-- A session ends: no ring pushes to it any more (R102), and its update lock is released. -/
def State.endSession (sid : Nat) (s : State) : State :=
  ((s.updOuv fun o => { o with sessions := tdel o.sessions sid }).updRings fun x => { x with
    ctx := x.ctx.map fun e =>
      if e.2.pushSession = sid then (e.1, { e.2 with pushSession := 0 }) else e }).dropLock sid

/-- The K4 closes a session with a status (R77). -/
def State.closeSession (sid : Nat) (st : Status) (s : State) : State :=
  (s.sendFrame sid 0xF 0 st []).endSession sid

/-- Either direction has carried 2^48 frames (R77). -/
def Session.worn (x : Session) : Bool :=
  decide (2 ^ 48 ≤ x.rxFrames) || decide (2 ^ 48 ≤ x.txFrames)

/-- A session that has carried 2^48 frames in either direction closes (R77). -/
def State.closeWorn (sid : Nat) (s : State) : State :=
  match s.session sid with
  | some x => if x.worn then s.closeSession sid .eNospace else s
  | none => s

/-- A frame of a session sent; the last that the session may carry closes it (R77, R78). -/
def State.sendOuv (sid ftype target : Nat) (status : Status) (words : List Nat) (s : State) :
    State := (s.sendFrame sid ftype target status words).closeWorn sid

/-- The sessions of a partition. -/
def State.sessionsOf (part : Nat) (s : State) : List Nat :=
  (s.ouv.sessions.filter (fun e => e.2.part == part)).map (·.1)

/-! ### Answers (R380, R101) -/

/-- The first five words of a response header (R380): opcode, partition, token, `cflags` and sequence are the
request's; `rd` is its read-form bit. -/
def respHead (h : CmdHdr) (op rd : Nat) (st : Status) (detail bodyWords tick : Nat) : List Nat :=
  [op * 2 ^ 48 + h.part * 2 ^ 42 + h.token * 2 ^ 16 + h.flagsHi % 2 ^ 7 * 2 ^ 9 +
    bit h.flag * 2 ^ 8 + rd, h.seq, 0,
   statusCode st * 2 ^ 48 + detail * 2 ^ 32 + bodyWords * 8, tick]

/-- The `CMD_DONE` entry of a command (R101). A response has at least 64 bytes, so it is always
cut, and `eflags` bit 0 is set. -/
def cmdDoneItem (n : Nat) (idx : W32) (h : CmdHdr) (op rd : Nat) (st : Status)
    (detail bodyWords tick : Nat) : RingItem :=
  [[entryHead 0x12 1 1 0, BitVec.ofNat 64 h.seq,
    BitVec.ofNat 64 (statusCode st * 2 ^ 48 + n * 2 ^ 36 + idx.toNat)] ++
    (respHead h op rd st detail bodyWords tick).map (BitVec.ofNat 64)]

/-- A response as words: its header of eight words and its body (R379, R380). -/
def respWords (h : CmdHdr) (op rd : Nat) (st : Status) (detail tick : Nat) (body : List Nat) :
    List Nat := respHead h op rd st detail body.length tick ++ [0, 0, 0] ++ body

/-- A response to a mailbox command: kept for repeats, no longer in flight (R82, R86). It leaves as an
`MBOX_RESP` of the session (R73). -/
def State.respond (sid seq : Nat) (st : Status) (words : List Nat) (s : State) : State :=
  (s.modSession sid fun x => { x with
    inflight := x.inflight.filter (fun e => e.1 != seq)
    cache := lastN 256 (x.cache ++ [(seq, st, words)]) }).sendOuv sid 0xA 0 st words

/-- What names a command in flight: its carrier, and its sequence number or the index of its ring
entry. -/
def State.flight (h : CmdHdr) (s : State) : Via × Nat :=
  match h.via with
  | .mbox _ => (h.via, h.seq)
  | .ring n => (h.via, ((s.ring n).opened.headD 0).toNat)

/-- The commands in flight on every carrier (R86, R100). -/
def State.flights (s : State) : List (Via × Nat) :=
  (s.ouv.sessions.flatMap fun e => e.2.inflight.map fun c => (.mbox e.1, c.1)) ++
    ((s.rings.ctx.filter fun e => e.2.rtype == 3).flatMap fun e =>
      (e.2.opened.take 1).map fun i => (.ring e.1, i.toNat))

/-- A command ends with no answer (R23): it is in flight no more, and a ring's entry is complete.
[DEDUCED: notes/assumptions/94.md] -/
def State.hush (h : CmdHdr) (s : State) : State :=
  let s := s.updBay fun b => { b with mute := b.mute.filter (fun k => decide (k ≠ s.flight h)) }
  match h.via with
  | .mbox sid => s.modSession sid fun x => { x with
      inflight := x.inflight.filter (fun e => e.1 != h.seq) }
  | .ring n => match (s.ring n).opened with
    | i :: _ => s.completeEntry n i
    | [] => s

/-- Isain's answer by the command's carrier. A session that has closed gets none (R403). A command that
Isain had taken when it stopped answering gets none either, nor does one that ends meanwhile (R23,
R111). -/
def State.answerRd (h : CmdHdr) (op rd : Nat) (st : Status) (detail : Nat) (body : List Nat)
    (s : State) : State :=
  if !s.isainUp || s.bay.mute.contains (s.flight h) then s.hush h
  else match h.via with
  | .mbox sid => s.respond sid h.seq st (respWords h op rd st detail s.tick body)
  | .ring n =>
    let r := s.ring n
    match r.opened with
    | [] => s
    | i :: _ =>
      (s.out (.resp h.via h.seq st detail s.tick body)).ringItem r.cqRing
        (cmdDoneItem n i h op rd st detail body.length s.tick)

/-- Isain's answer to a command without the read form. -/
def State.answer (h : CmdHdr) (op : Nat) (st : Status) (detail : Nat) (body : List Nat)
    (s : State) : State := s.answerRd h op 0 st detail body

/-! ### The checks of R383 -/

/-- A partition. -/
def State.part (p : Nat) (s : State) : Partition := tgetD s.parts p {}

/-- A partition changed. -/
def State.modPart (p : Nat) (f : Partition → Partition) (s : State) : State :=
  s.updParts fun t => tup t p {} f

/-- A request header sets a reserved bit, or one of the fields that only a response fills (R380). -/
def headResvBad (ws : List W64) : Bool :=
  let w := (wordOf ws 0).toNat
  bitsOf w 41 32 != 0 || bitsOf w 7 1 != 0 || ((ws.take 8).drop 3).any (fun v => v != 0)

/-- A request header's `body_len` cannot be right: no multiple of 8, above what its carrier takes, or beyond
the words read (R379, R380). -/
def headLenBad (most : Nat) (ws : List W64) : Bool :=
  let n := (wordOf ws 2).toNat / 2 ^ 32
  n % 8 != 0 || decide (most < n) || decide (8 * ws.length < 64 + n)

/-- A header and opcode are those of a command's words (R380): each of its fields, and what its words break. -/
def headerSays (h : CmdHdr) (op : Nat) (ws : List W64) : Bool :=
  let w := (wordOf ws 0).toNat
  bitsOf w 63 48 == op && bitsOf w 47 42 == h.part && bitsOf w 31 16 == h.token &&
    bitsOf w 15 9 == h.flagsHi && w.testBit 8 == h.flag && (wordOf ws 1).toNat == h.seq &&
    (wordOf ws 2).toNat % 2 ^ 32 == h.timeoutUs && (h.resvBad || !headResvBad ws) &&
    (h.lenBad || !headLenBad 896 ws)

/-- The partition behind a carrier, where Isain holds the command: its session with the command's
sequence and opcode in flight (R86), or its ring with that command read (R100). -/
def State.carrierPart (h : CmdHdr) (op : Nat) (s : State) : Option Nat :=
  match h.via with
  | .mbox sid =>
    match s.session sid with
    | some x => if x.inflight.any (fun e => e.1 == h.seq && e.2 == op) then some x.part else none
    | none => none
  | .ring n =>
    let r := s.ring n
    if r.rtype = 3 ∧ r.opened ≠ [] ∧ headerSays h op r.cmd then some r.owner else none

/-- The interface a command came in on; none from a ring. -/
def State.carrierIfc (h : CmdHdr) (s : State) : Option Nat :=
  match h.via with
  | .mbox sid => (s.session sid).map (·.ifc)
  | .ring _ => none

/-- The session of a command, 0 from a ring. -/
def viaSid : Via → Nat
  | .mbox sid => sid
  | .ring _ => 0

/-- The commands the ROM executes in recovery mode (R417). -/
def romCommands : List Nat :=
  [0x1101, 0x0F01, 0x0F02, 0x0F03, 0x0F04, 0x0F07, 0x0F08, 0x1002, 0x1103, 0x0101]

/-- The device's state allows the command (step 4 of R383, and R417). -/
def State.stateAllows (op : Nat) (stop : Bool) (s : State) : Bool :=
  if s.pkg.devState = .recovery then romCommands.contains op
  else (s.bay.step14 || op == 0x1101) &&
    (stop || !(s.obs.islandsStopped || s.bay.shutdown))

/-- The first of steps 1 to 4 of R383 that a command fails. `resv`: a reserved bit of its body is
set. -/
def State.preCheck (h : CmdHdr) (op : Nat) (stop resv : Bool) (owner : Nat) (s : State) :
    Option Status :=
  if h.lenBad || h.resvBad || resv then some .eArg
  else if h.part ≠ owner then some .ePriv
  else if !(s.part h.part).enabled || (s.part h.part).token ≠ h.token then some .eState
  else if !s.stateAllows op stop then some .eState
  else none

/-- What a command's own checks and effect come to. -/
inductive Reply where
  /-- Refused with a status and a detail: no effect (R7). -/
  | refuse (st : Status) (detail : Nat)
  /-- Answered with a status and a body, the effect taken. -/
  | done (st : Status) (body : List Nat) (s : State)
  /-- Taken, and answered later. -/
  | wait (s : State)
  deriving DecidableEq, Repr

/-- No item is named by a response (R380). -/
def noDetail : Nat := 0xFFFF

/-- What a command row is: its opcode, "Stop" mark, read form, whether a reserved bit of its body
is set and in which record, and whether steps 5 and 6 of R383 are among its own checks, since they ask item by
item; such a row tests its unlisted values itself, after them. -/
structure CmdForm where
  op : Nat
  stop : Bool := false
  rd : Nat := 0
  resv : Option Nat := none
  late : Bool := false
  deriving DecidableEq, Repr

/-- The commands that define `cflags` bit 8 (R380), by opcode. -/
def flagOps : List Nat := [0x0101, 0x0204, 0x0307, 0x0804, 0x0A06, 0x0B04, 0x0E01, 0x0E08]

/-- A command carries a value that no table lists (R7), or a flag that it does not define (R380). -/
def unlisted (h : CmdHdr) (op : Nat) : Bool :=
  h.argBad || h.flagsHi != 0 || (h.flag && !flagOps.contains op)

/-- A command's effect is refused for want of room in the store (R372): it changes a kept setting, and no record
fits any more, or a half could be too small and the image's bytes of the change do not fit.
[DESIGN CHOICE: notes/assumptions/104.md] -/
def State.noRoom (h : CmdHdr) (s s' : State) : Bool :=
  decide (s.bay.unsaved.length < s'.bay.unsaved.length) &&
    (s.bay.full || (h.fullBad && s.bay.cramped s'.bay.unsaved.length))

/-- A command after its carrier is found: the checks of R383 in order, then its own. `ex` says that
every object it names exists, `right` that its issuer holds the row's right. -/
def State.runCmd (c : CmdForm) (h : CmdHdr) (owner : Nat) (ex right : State → Bool)
    (own : State → Reply) (s : State) : State :=
  match s.preCheck h c.op c.stop c.resv.isSome owner with
  | some st =>
    let s' := if (h.resvBad || c.resv.isSome) && st == .eArg then
      s.count Ctr.cmdResvRefused h.part else s
    s'.answerRd h c.op c.rd st (if h.lenBad || h.resvBad then noDetail else c.resv.getD noDetail) []
  | none =>
    if !ex s then s.answerRd h c.op c.rd .eState noDetail []
    else if !right s then s.answerRd h c.op c.rd .ePriv noDetail []
    else if !c.late && unlisted h c.op then s.answerRd h c.op c.rd .eArg noDetail []
    else match own s with
      | .refuse st d => s.answerRd h c.op c.rd st d []
      | .done st body s' =>
        if s.noRoom h s' then s.answerRd h c.op c.rd .eNospace noDetail []
        else s'.answerRd h c.op c.rd st noDetail body
      | .wait s' => if s.noRoom h s' then s.answerRd h c.op c.rd .eNospace noDetail [] else s'

/-- A command Isain runs. While Isain does not answer, or where its carrier holds no such command,
nothing happens (R23). [DEDUCED: notes/assumptions/15.md] -/
def State.isain (t : Nat) (c : CmdForm) (h : CmdHdr) (ex right : State → Bool)
    (own : State → Reply) (s : State) : Host.Outcome State Fault Refusal :=
  let s := s.at t
  match s.isainUp, s.carrierPart h c.op with
  | true, some owner => .next (s.runCmd c h owner ex right own)
  | _, _ => .next s

/-- The right `P0` (R388). -/
def isP0 (h : CmdHdr) : State → Bool := fun _ => h.part == 0

/-- The right `Any` (R388). -/
def anyPart : State → Bool := fun _ => true

/-- No object named. -/
def noObj : State → Bool := fun _ => true

/-- The right `Own` on an object of a partition (R388). -/
def owns (h : CmdHdr) (owner : Nat) : Bool := h.part == 0 || h.part == owner

/-- A plain answer `OK`. -/
def okReply (s : State) : Reply := .done .ok [] s

/-- A refusal that names no item. -/
def no (st : Status) : Reply := .refuse st noDetail

/-- The first of a list of checks that fails, else the effect. -/
def checks : List (Bool × Status) → Reply → Reply
  | [], r => r
  | (bad, st) :: rest, r => if bad then no st else checks rest r

/-- An answer given after reads: a refusal leaves what they did to memory's counts (R325, R331). -/
def Reply.after (s : State) : Reply → Reply
  | .refuse st _ => .done st [] s
  | .done st body u => .done st body u
  | .wait u => .wait u

/-- The first of a list of checks that fails, with the item it refuses (R380), else the effect.
[DEDUCED: notes/assumptions/120.md] -/
def checksAt : List (Option Nat × Status) → Reply → Reply
  | [], r => r
  | (some i, st) :: _, _ => .refuse st i
  | (none, _) :: rest, r => checksAt rest r

/-- A check of the command as a whole: it names no item. [DEDUCED: notes/assumptions/120.md] -/
def onWhole (bad : Bool) : Option Nat := if bad then some noDetail else none

/-- Step 7 of R383 begins: a value that no table lists, after the checks of steps 5 and 6 item by item. -/
def unlistedAt (h : CmdHdr) (op : Nat) : Option Nat × Status := (onWhole (unlisted h op), .eArg)

/-- The position of the first item that fails, in a list numbered from `base` on.
[DEDUCED: notes/assumptions/120.md] -/
def itemBad {α : Type} (base : Nat) (bad : α → Bool) (l : List α) : Option Nat :=
  (idxOf? bad l).map (base + ·)

/-- A named command waits no longer than this (R385). -/
def timeoutOf (h : CmdHdr) : Nat := if h.timeoutUs = 0 then 1000000000 else h.timeoutUs * 1000

/-- `timeout_us` lies outside the range of R385; 0 stands for 1 s. -/
def timeoutBad (h : CmdHdr) : Bool :=
  h.timeoutUs != 0 && (decide (h.timeoutUs < 1000) || decide (10000000 < h.timeoutUs))

/-- A change of a kept setting is queued for the settings store (R372). In test and safe mode only
the groups that every start keeps are written (R370). -/
def StVal.always : StVal → Bool
  | .remap _ _ => true
  | .pages _ => true
  | .bootCount _ => true
  | .rows _ => true
  | _ => false

/-- A kept value queued for the store. [DESIGN CHOICE: notes/assumptions/104.md] -/
def State.keep (v : StVal) (s : State) : State :=
  if s.bay.runMode = 0 || v.always then s.updBay fun b => { b with unsaved := b.unsaved ++ [v] }
  else s

/-! ### Settings commands (R386) -/

/-- The first record of a settings command that its check refuses, with its position. -/
def firstBad (chk : SetRec → Option Status) : Nat → List SetRec → Option (Status × Nat)
  | _, [] => none
  | i, r :: rest =>
    match chk r with
    | some st => some (st, i)
    | none => firstBad chk (i + 1) rest

/-- The position of the first record with a reserved bit set. -/
def resvRec (recs : List SetRec) : Option Nat := idxOf? (fun r => r.resvBad) recs

/-- The check of a record that carries a value: `sr_len` lies in its range, then the setting's own (R7, R386). -/
def lenChk (chk : SetRec → Option Status) (r : SetRec) : Option Status :=
  if r.len = 0 ∨ 256 < r.len then some .eRange else chk r

/-- The record from which on the records so far do not stand together: the length of the longest
beginning that does. [DEDUCED: notes/assumptions/120.md] -/
def brokenFrom (stands : List SetRec → Bool) (recs : List SetRec) : Nat :=
  ((List.range recs.length).reverse.find? fun n => stands (recs.take n)).getD noDetail

/-- A settings command: every record is checked, then all apply as one change, and the whole,
against what stood before, is checked before it stands (R386).
[DEDUCED: notes/assumptions/120.md] -/
def settings (chk : SetRec → Option Status) (apply : State → SetRec → State)
    (whole : State → State → Option Status) (kept : State → State) (recs : List SetRec) (s : State) :
    Reply :=
  match firstBad (lenChk chk) 0 recs with
  | some (st, i) => .refuse st i
  | none =>
    let s' := recs.foldl apply s
    match whole s s' with
    | some st => .refuse st (brokenFrom (fun l => (whole s (l.foldl apply s)).isNone) recs)
    | none => okReply (kept s')

/-- A setting's value lies in a range (R7). -/
def inRange (r : SetRec) (lo hi : Nat) : Option Status :=
  if r.value < lo ∨ hi < r.value then some .eRange
  else none

/-- A setting's value is one of a table (R7). -/
def oneOf (r : SetRec) (n : Nat) : Option Status :=
  if r.value < n then none else some .eArg

/-- A scope index lies below a bound. -/
def scopeIn (r : SetRec) (n : Nat) (k : Option Status) : Option Status :=
  if n ≤ r.scope then some .eRange else k

/-! ### Events of the block -/

/-- A timer, pin or internal event: time reaches `t`, then the event acts where its guard holds, and
changes nothing else where it does not (notes/assumptions/2.md). -/
def State.happen (t : Nat) (guard : State → Bool) (eff : State → State) (s : State) :
    Host.Outcome State Fault Refusal :=
  .next (if guard (s.at t) then eff (s.at t) else s.at t)

end Sys2Proof.Machine
end

