-- ==== Sys2Proof/Machine/StopOps.lean ====
section
/-! DEFINITION. The bypass control, Dill units and the global stop (R47, R48, R461 to R475). -/

namespace Sys2Proof.Machine

/-! ### Interfaces and the bypass (R47, R48) -/

/-- An interface changed. -/
def State.modIfc (i : Nat) (f : Ifc → Ifc) (s : State) : State := s.updIfcs fun t => tup t i {} f

/-- A line port. -/
def State.port (p : Nat) (s : State) : Port := tgetD s.ports p {}

/-- A line port changed. -/
def State.modPort (p : Nat) (f : Port → Port) (s : State) : State := s.updPorts fun t => tup t p {} f

/-- The line interfaces a port mode has (R54). -/
def ifcsOfMode (port mode : Nat) : List Nat :=
  if mode = 2 then [2 * port, 2 * port + 1] else [2 * port]

/-- The interfaces of a port in its mode. -/
def State.portIfcs (p : Nat) (s : State) : List Nat := ifcsOfMode p (s.port p).mode

/-- The line interfaces that exist in the ports' modes. -/
def State.lineIfcs (s : State) : List Nat := s.portIfcs 0 ++ s.portIfcs 1

/-- The configured inline pairs, as `NET` interface and partner (R58). -/
def State.pairs (s : State) : List (Nat × Nat) :=
  s.lineIfcs.filterMap fun i =>
    match (s.ifc i).role, (s.ifc i).pair with
    | 1, some j => some (i, j)
    | _, _ => none

/-- The member interfaces of the configured pairs. -/
def State.members (s : State) : List Nat := s.pairs.flatMap fun p => [p.1, p.2]

/-- A port is in service. -/
def State.inService (p : Nat) (s : State) : Bool := (s.port p).drain == .inService

/-- Every condition of R47 holds, so that the pin may go high. With no inline pair configured there
is nothing to arm. [DEDUCED: notes/assumptions/31.md] -/
def State.canArm (s : State) : Bool :=
  s.moving && s.pkg.sdClock && !s.pairs.isEmpty && !s.pkg.bypass.forced &&
    s.members.all (fun i => s.inService (portOf i)) &&
    !s.closed && s.bay.resetDue.isNone && !s.pkg.bypass.reqHigh &&
    s.pkg.bypass.retryDue.isNone && s.pkg.bypass.holdDue.isNone &&
    decide (s.pkg.bypass.failRun < 3)

/-- Every member link is up. -/
def State.memberLinksUp (s : State) : Bool := s.members.all (fun i => (s.ifc i).link)

def State.modBypass (f : Bypass → Bypass) (s : State) : State :=
  s.updPkg fun p => { p with bypass := f p.bypass }

/-- The power envelope in W: the least of 900, partition 0's cap and the board's cap (R42). -/
def Package.envelope (p : Package) : Nat := min 900 (min p.capP0 (p.capBmc * 10))

/-- An alert bit set (R50). -/
def State.alert (b : Nat) (s : State) : State :=
  s.updPkg fun p => { p with alert := p.alert ||| BitVec.ofNat 8 (2 ^ b) }

/-- The pin goes high where it may (R47). [DEDUCED: notes/assumptions/31.md] -/
def State.tryArm (s : State) : State :=
  if s.canArm then
    s.modBypass fun b => { b with
      reqHigh := true
      failRun := if s.memberLinksUp then 0 else b.failRun
      linkDue := if s.memberLinksUp then none else some (s.tick + b.linkTimeout) }
  else s

/-- The pin goes low (R48); alert bit 3 says so while pairs are configured. -/
def State.bypassLow (s : State) : State :=
  let s' := s.modBypass fun b => { b with reqHigh := false, linkDue := none }
  if s'.pairs.isEmpty then s' else s'.alert 3

/-- Alert bit 3 while the pin is low with pairs configured (R50). -/
def State.lowAlert (s : State) : State :=
  if !s.pairs.isEmpty && !s.pkg.bypass.reqHigh then s.alert 3 else s

/-- The line ports in electrical idle. -/
def State.portsIdle (s : State) : State :=
  s.updIfcs fun t => t.map fun e => if e.1 < 4 then (e.1, { e.2 with link := false }) else e

/-- A port-state event: the Rosemary record and the event to partition 0 (R450, R455). -/
def State.portState (ifc sub : Nat) (s : State) : State :=
  s.recordEvent 0x0040 4 0 0xFF 1 [(8, ifc), (8, sub)] 0 0x0002 [(8, ifc), (8, sub)]

/-- A port record without an event. -/
def State.portRecord (ifc sub : Nat) (s : State) : State :=
  s.record 0x0040 4 0 0xFF 1 [(8, ifc), (8, sub)]

/-! ### Clusters -/

/-- A cluster changed. -/
def State.modCluster (c : Nat) (f : Cluster → Cluster) (s : State) : State :=
  s.updComp fun x => { x with clusters := tup x.clusters c {} f }

/-- The number of clusters (R8). -/
def nClusters : Nat := 256

/-! ### Dill (R461 to R468) -/

/-- The fields of the trigger word (R465). -/
def trigMask (w : W64) : Nat := bitsOf w.toNat 63 48
def trigKind (w : W64) : Nat := bitsOf w.toNat 47 44
def trigStop (w : W64) : Bool := bitsOf w.toNat 43 43 == 1
def trigOp (w : W64) : Nat := bitsOf w.toNat 39 24
def trigLayer (w : W64) : Nat := bitsOf w.toNat 23 8
def trigStatus (w : W64) : Nat := bitsOf w.toNat 7 0

/-- A record matches the unit's trigger (R465). -/
def Dill.fires (d : Dill) (r : TraceRec) : Bool :=
  !d.fired && trigKind d.trig != 0 && r.kind == trigKind d.trig &&
    (trigOp d.trig == 0 ||
      trigOp d.trig == (if r.kind = 8 ∨ r.kind = 9 then r.arg % 65536 else r.op)) &&
    (trigLayer d.trig == 0 || trigLayer d.trig == r.layer) && decide (trigStatus d.trig ≤ r.status)

/-- The number of records a Dill buffer holds (R461). -/
def dillSize : Nat := 1024

/-- The buffer without its oldest unprotected record; none when every record is protected. -/
def dillDisplace : List TraceRec → Option (List TraceRec)
  | [] => none
  | r :: rest => if r.prot then (dillDisplace rest).map (r :: ·) else some rest

/-- A record placed in the buffer (R466, R467), with the number of records dropped. -/
def Dill.place (d : Dill) (r : TraceRec) : Dill × Nat :=
  if d.mode = 1 ∧ !d.fired then
    ({ d with buf := lastN (dillSize - 2 - d.post) (d.buf ++ [r]) }, 0)
  else if d.buf.length < dillSize then ({ d with buf := d.buf ++ [r] }, 0)
  else if r.prot then
    match dillDisplace d.buf with
    | some b => ({ d with buf := b ++ [r], dropped := d.dropped + 1 }, 1)
    | none => ({ d with dropped := d.dropped + 1 }, 1)
  else ({ d with dropped := d.dropped + 1 }, 1)

/-- The 64 newest held records take `tr_prot` (R465). -/
def protectLast (b : List TraceRec) : List TraceRec :=
  b.take (b.length - 64) ++ (b.drop (b.length - 64)).map fun r => { r with prot := true }

/-- After the trigger, a record takes one place of the protected window; a capture unit freezes
when the window is full (R466). -/
def Dill.post1 (d : Dill) : Dill :=
  { d with postLeft := d.postLeft - 1, frozen := d.mode == 1 && d.postLeft == 1 }

/-- A record written into a unit: the unit, the records dropped, and whether the trigger fired with
`trig_stop`. [DEDUCED: notes/assumptions/100.md] -/
def Dill.write (d : Dill) (r : TraceRec) : Dill × Nat × Bool :=
  if d.mode = 0 ∨ d.frozen ∨ !(trigMask d.trig).testBit r.kind then (d, 0, false)
  else
    let r := { r with seq := d.seq }
    let d := { d with seq := d.seq + 1 }
    if d.fires r then
      let d := { d with fired := true, buf := protectLast d.buf, postLeft := d.post }
      let p := d.place { r with trig := true, prot := true }
      let t : TraceRec := { r with seq := d.seq, kind := 10, arg := r.seq, status := 0, prot := true }
      let d := { p.1 with seq := d.seq + 1 }
      let q := d.place t
      ({ q.1 with frozen := q.1.mode == 1 && q.1.post == 0 }, p.2 + q.2, trigStop d.trig)
    else if d.fired && decide (0 < d.postLeft) then
      let p := d.place { r with prot := true }
      (p.1.post1, p.2, false)
    else
      let p := d.place r
      (p.1, p.2, false)

/-- A record written into a cluster's unit under a stamp, which lies no lower than the island's last (R20),
without the stop its trigger may ask for. -/
def State.dillStamp (c stamp : Nat) (r : TraceRec) (s : State) : State × Bool :=
  let k := max (s.cluster c).lastStamp stamp
  let w := (s.cluster c).dill.write { r with tick := k }
  let s' := s.modCluster c fun x => { x with dill := w.1, lastStamp := k }
  (if w.2.1 = 0 then s' else s'.countN Ctr.dillDrop c w.2.1, w.2.2)

/-- The host's markers that have reached a cluster by a tick, written by arrival (R468). -/
def State.dillArrive (c upto : Nat) (s : State) : State × Bool :=
  let here := (s.cluster c).dill.marks.takeWhile fun m => decide (m.1 ≤ upto)
  let s := s.modCluster c fun x => { x with dill := { x.dill with
    marks := x.dill.marks.drop here.length } }
  here.foldl (fun p m => let w := p.1.dillStamp c m.1 m.2; (w.1, p.2 || w.2)) (s, false)

/-- A record written into a cluster's unit, stamped so many ns from now, behind the markers that arrive
before it. An island that has not locked stamps nothing (R19). -/
def State.dillPut (c late : Nat) (r : TraceRec) (s : State) : State × Bool :=
  match s.islandNow c with
  | none => (s, false)
  | some now =>
    let p := s.dillArrive c (now + late)
    let w := p.1.dillStamp c (now + late) r
    (w.1, p.2 || w.2)

/-- A plain record of the cluster units. -/
def traceRec (kind arg : Nat) : TraceRec :=
  { seq := 0, kind := kind, arg := arg, slotGen := 0, status := 0, unit := 0, dur := 0,
    core := 0xFFF, ctx := 0, layer := 0, op := 0, slot := 0, tick := 0 }

/-! ### The global stop (R472 to R475) -/

/-- The islands that a stop stops (R474). -/
def islandCount : Nat := 280

/-- The offsets of the islands' stops from the first, at most 400 ns each: open values, less the least
of them (R472). [DESIGN CHOICE: notes/assumptions/42.md] -/
def State.stopOffsets (s : State) : List Nat :=
  let raw := (List.range islandCount).map fun i => freeBelow 401 (Config.free (s.freeCount + i))
  raw.map fun x => x - raw.foldl min 400

/-- The tick at which the first island stops: within 1 µs of the cause, at an open instant (R472).
[DESIGN CHOICE: notes/assumptions/42.md] -/
def State.stopFirst (s : State) : Nat := s.tick + freeBelow 1001 (Config.free (s.freeCount + islandCount))

/-- The greatest of a list of numbers. -/
def maxOf (l : List Nat) : Nat := l.foldl max 0

/-- The least of a list of numbers, 0 of none. -/
def minOf : List Nat → Nat
  | [] => 0
  | x :: r => r.foldl min x

/-- A stop of every island of R473: bypass low, `STOP` records, no data-path work until resume.
Cause: 0 command, 1 `FREEZE_N`, 2 Dill trigger. [DESIGN CHOICE: notes/assumptions/42.md] -/
def State.stopIslands (cause : Nat) (s : State) : State :=
  let offsets := s.stopOffsets
  let first := s.stopFirst
  let late (c : Nat) : Nat := first - s.tick + (offsets[c]?).getD 0
  let s := ({ s with freeCount := s.freeCount + (islandCount + 1) }).bypassLow
  let s := s.updObs fun o => { o with islandsStopped := true, stopTick := first }
  let s := (s.comp.clusters.map (·.1)).foldl
    (fun s c => (s.dillPut c (late c) (traceRec 12 (s.tick + late c))).1) s
  s.record 0x0003 4 0 0xFF 1 [(64, first), (64, first + maxOf offsets), (8, cause)]

/-- A stop of the K4's own: it pulls `FREEZE_N` low (R472). -/
def State.ownStop (cause : Nat) (s : State) : State :=
  let s := s.updObs fun o => { o with ownStop := true }
  if s.obs.islandsStopped then s else s.stopIslands cause

/-- A stop that a trigger asks for (R465, R472). -/
def State.trigStop (p : State × Bool) : State := if p.2 && p.1.running then p.1.ownStop 2 else p.1

/-- A record written into a cluster's unit now, with the stop its trigger may ask for. -/
def State.trace (c : Nat) (r : TraceRec) (s : State) : State := State.trigStop (s.dillPut c 0 r)

/-- A marker placed among those on their way, by its arrival. -/
def markPut (m : Nat × TraceRec) : List (Nat × TraceRec) → List (Nat × TraceRec)
  | [] => [m]
  | x :: r => if x.1 ≤ m.1 then x :: markPut m r else m :: x :: r

/-- A host's range marker sent to a cluster, where it arrives so many ns from now (R468).
[DESIGN CHOICE: notes/assumptions/43.md] -/
def State.sendMark (c late : Nat) (r : TraceRec) (s : State) : State :=
  s.modCluster c fun x => { x with dill := { x.dill with
    marks := markPut (s.tick + late, r) x.dill.marks } }

/-- The markers that have arrived at a locked cluster, with the stop a trigger may ask for. -/
def State.takeMarks (c : Nat) (s : State) : State :=
  match s.islandNow c with
  | none => s
  | some now => State.trigStop (s.dillArrive c now)

/-- The islands resume when no stop of the K4's own remains and `FREEZE_N` reads high (R475);
bypass then re-arms. -/
def State.tryResume (s : State) : State :=
  if s.obs.islandsStopped && !s.obs.ownStop && !s.obs.freezeLow then
    let last := s.tick + freeBelow 401 (Config.free s.freeCount)
    let s := { s with freeCount := s.freeCount + 1 }
    let s := s.updObs fun o => { o with islandsStopped := false }
    (s.record 0x0004 4 0 0xFF 0 [(64, s.tick), (64, last)]).tryArm
  else s

end Sys2Proof.Machine
end

