-- ==== Sys2Proof/Machine/CoreOps.lean ====
section
/-! DEFINITION. Logical and physical cores, the memories of a cluster, the ranges of a partition and
the Dill records of units (R8 to R16, R183 to R192, R308, R463). -/

namespace Sys2Proof.Machine

/-! ### Logical cores (R13 to R16) -/

/-- A remap entry that places a logical core: state 1 or 2. -/
def MapEntry.serves (e : MapEntry) : Bool := e.state == 1 || e.state == 2

/-- The physical core behind a logical number; none where it is lost or no logical core.
[DEDUCED: notes/assumptions/118.md] -/
def State.physOf (l : Nat) (s : State) : Option Nat :=
  match tget s.comp.map l with
  | some e => if e.serves then some e.phys else none
  | none => none

/-- The logical number a physical core serves, with its entry. -/
def State.logicalEntry (p : Nat) (s : State) : Option (Nat × MapEntry) :=
  s.comp.map.find? fun e => e.2.serves && e.2.phys == p

/-- The logical number a physical core serves. -/
def State.logicalOf (p : Nat) (s : State) : Option Nat := (s.logicalEntry p).map (·.1)

/-- The scope of a core's counters: its logical number (R459). -/
def State.coreScope (p : Nat) (s : State) : Nat := (s.logicalOf p).getD 0

/-- The cluster whose store, reduce unit and queue a physical core uses (R14). -/
def State.coreCluster (p : Nat) (s : State) : Nat :=
  ((s.logicalEntry p).map fun e => e.2.home / 16).getD (p / 16)

/-- The logical cores of a cluster, in ascending number: those that are not lost (R308). -/
def State.logicalIn (c : Nat) (s : State) : List Nat :=
  (s.comp.map.filter fun e => e.2.serves && e.2.home / 16 == c).map (·.1)

/-- The physical cores behind a cluster's logical cores. -/
def State.coresIn (c : Nat) (s : State) : List Nat :=
  (s.comp.map.filter fun e => e.2.serves && e.2.home / 16 == c).map (·.2.phys)

/-- The physical core that serves as core `k` of a cluster. -/
def State.coreAt (c k : Nat) (s : State) : Nat :=
  ((s.comp.map.find? fun e => e.2.serves && e.2.home == c * 16 + k).map (·.2.phys)).getD (c * 16 + k)

/-- A physical core. -/
def State.core (p : Nat) (s : State) : Core := tgetD s.comp.cores p {}

/-- A physical core changed. -/
def State.modCore (p : Nat) (f : Core → Core) (s : State) : State :=
  s.updComp fun x => { x with cores := tup x.cores p {} f }

/-- A context of a core. -/
def State.ctx (p k : Nat) (s : State) : Option Ctx := tget (s.core p).ctxs k

/-- A context changed. -/
def State.modCtx (p k : Nat) (f : Ctx → Ctx) (s : State) : State :=
  s.modCore p fun c => { c with ctxs := tmod c.ctxs k f }

/-- The owner of the cluster a core works for. -/
def State.coreOwner (p : Nat) (s : State) : Nat := (s.cluster (s.coreCluster p)).owner

/-! ### Memory ranges (R184) -/

/-- How far the ranges with a right cover memory from an address up. Right: 1 read, 2 write. -/
def coverEnd (rs : List (Nat × Nat × Nat)) (right : Nat) : Nat → Nat → Nat
  | 0, a => a
  | k + 1, a =>
    match rs.find? fun r => decide (right ≤ r.2.2) && decide (r.1 ≤ a) &&
        decide (a < r.1 + r.2.1 * 4096) with
    | some r => coverEnd rs right k (r.1 + r.2.1 * 4096)
    | none => a

/-- A partition's ranges cover `n` bytes from an address. -/
def Partition.covers (p : Partition) (right a n : Nat) : Bool :=
  n == 0 || decide (a + n ≤ coverEnd (p.memRanges.map (·.2)) right 16 a)

/-- The partition whose ranges an owner uses: partition 0 for the packet path.
[DEDUCED: notes/assumptions/72.md] -/
def rangeOwner (owner : Nat) : Nat := if owner = 0x40 then 0 else owner

/-- An owner may access `n` bytes of device memory (R184). -/
def State.mayAccess (owner right a n : Nat) (s : State) : Bool :=
  (s.part (rangeOwner owner)).covers right a n

/-! ### The memories of a core and its cluster (R183, R185, R192) -/

/-- Sizes of the local SRAM and the cluster store. -/
def sramBytes : Nat := 0x30000
def storeBytes : Nat := 0x200000

/-- The region of a physical core. -/
def coreRegion (p : Nat) : Nat := p / 256

/-- A memory that kernels and the DMA engine reach: local SRAM of a physical core, the store of a
cluster, or device memory. -/
inductive Space where
  | sram (core : Nat)
  | store (cluster : Nat)
  | device
  deriving DecidableEq, Repr

/-- The bytes of a space. -/
def State.spaceBytes (x : Space) (a n : Nat) (s : State) : List Byte :=
  match x with
  | .sram p => memBytes (s.core p).sram a n
  | .store c => memBytes (s.cluster c).store a n
  | .device => s.bytesAt a n

/-- Words of a list that a range touches. -/
def wordsIn (l : List Nat) (a n : Nat) : Bool :=
  l.any fun w => decide (a / 4 * 4 ≤ w) && decide (w < a + n)

/-- A range holds no uncorrectable word. -/
def State.spaceGood (x : Space) (a n : Nat) (s : State) : Bool :=
  match x with
  | .sram p => !wordsIn (s.core p).poison a n
  | .store c => !wordsIn (s.cluster c).poison a n
  | .device => s.mem.readable a n

/-- The poisoned words left after a range is written: a word written whole is clean again (R201). -/
def cleanWords (l : List Nat) (a n : Nat) : List Nat :=
  l.filter fun w => !(decide (a ≤ w) && decide (w + 4 ≤ a + n))

/-- Bytes written to a space. -/
def State.spacePut (x : Space) (a : Nat) (bs : List Byte) (s : State) : State :=
  match x with
  | .sram p => s.modCore p fun c => { c with
      sram := memPut c.sram a bs, poison := cleanWords c.poison a bs.length }
  | .store k => s.modCluster k fun c => { c with
      store := memPut c.store a bs, poison := cleanWords c.poison a bs.length }
  | .device => s.poke a bs

/-- A word of a space poisoned (R191). -/
def State.spacePoison (x : Space) (w : Nat) (s : State) : State :=
  match x with
  | .sram p => s.modCore p fun c => { c with poison := cleanWords c.poison w 4 ++ [w] }
  | .store k => s.modCluster k fun c => { c with poison := cleanWords c.poison w 4 ++ [w] }
  | .device => s.updMem fun m => { m with faults := tset m.faults w .poison }

/-! ### Records of units (R463) -/

/-- A record of a unit of a core. -/
def coreRec (core ctx unit kind status arg dur : Nat) (d : LaunchDesc) : TraceRec :=
  { seq := 0, kind := kind, arg := arg, slotGen := if d.slotV then d.slotGen else 0,
    status := status, unit := unit, dur := min dur (2 ^ 32 - 1), core := core, ctx := ctx,
    layer := d.layerId, op := d.opId, slot := if d.slotV then d.slot else 0, tick := 0 }

/-- The launch a slot's own work stands for: no layer and no operator. -/
def slotDesc (slot gen : Nat) : LaunchDesc :=
  { kernel := 0, firstCore := 0, nCores := 0, layerId := 0, opId := 0, slot := slot, slotGen := gen,
    slotV := true, argAddr := 0, argLen := 0, deadline := 0, resvBad := false }

/-- A record of a cluster unit that works for a slot. -/
def unitRec (unit kind status arg : Nat) (slot gen : Nat) : TraceRec :=
  { coreRec 0xFFF 0 unit kind status arg 0 (slotDesc slot gen) with core := 0xFFF }

/-! ### Lists of a response (R387) -/

/-- A page of a list from a start index: `rd_next`, `rd_count`, the row's own fields, then at most
`cap` items. -/
def listPage (start count cap : Nat) (own : List (Nat × Nat))
    (items : List (Nat × List (Nat × Nat))) : List Nat :=
  let rest := items.filter fun e => decide (start ≤ e.1)
  let n := min count cap
  let next := ((rest.drop n).head?.map (·.1)).getD 0xFFFFFFFF
  pack ([(32, next), (16, (rest.take n).length)] ++ own) ++ pack ((rest.take n).flatMap (·.2))

/-- Items numbered from 0. -/
def numbered {α : Type} (l : List α) : List (Nat × α) := l.zipIdx.map fun e => (e.2, e.1)

end Sys2Proof.Machine
end

