-- ==== Sys2Proof/Machine/Operands.lean ====
section
/-! DEFINITION. The number formats of the vector unit and the matrix arrays: what a bit pattern
stands for, and the rounding of an exact value into a format (R187, R208, R209, R218). -/

namespace Sys2Proof.Machine

/-- What a floating-point pattern stands for: `fin neg m e` is ± m × 2^e exactly. -/
inductive FVal where
  | nan
  | inf (neg : Bool)
  | fin (neg : Bool) (m : Nat) (e : Int)
  deriving DecidableEq, Repr

/-- Which patterns of a format are special (R209): as IEEE 754; a NaN alone, in the last pattern;
none. -/
inductive Specials where
  | ieee | nanOnly | none
  deriving DecidableEq, Repr

/-- A binary format: mantissa bits, exponent bits, bias and specials. -/
structure FFmt where
  mb : Nat
  eb : Nat
  bias : Nat
  sp : Specials
  deriving DecidableEq, Repr

def FFmt.fp32 : FFmt := ⟨23, 8, 127, .ieee⟩
def FFmt.bf16 : FFmt := ⟨7, 8, 127, .ieee⟩
def FFmt.fp16 : FFmt := ⟨10, 5, 15, .ieee⟩
def FFmt.e4m3 : FFmt := ⟨3, 4, 7, .nanOnly⟩
def FFmt.e5m2 : FFmt := ⟨2, 5, 15, .ieee⟩
def FFmt.e2m1 : FFmt := ⟨1, 2, 1, .none⟩

/-- The exponent of a format's least subnormal. -/
def FFmt.emin (f : FFmt) : Int := 1 - (f.bias : Int) - f.mb

/-- The exponent field of all ones. -/
def FFmt.top (f : FFmt) : Nat := 2 ^ f.eb - 1

/-- The sign bit of a pattern. -/
def FFmt.sign (f : FFmt) (v : Nat) : Bool := v.testBit (f.mb + f.eb)

/-- What a pattern stands for (R209). -/
def FFmt.decode (f : FFmt) (v : Nat) : FVal :=
  let neg := f.sign v
  let ex := v / 2 ^ f.mb % 2 ^ f.eb
  let m := v % 2 ^ f.mb
  if f.sp = .ieee ∧ ex = f.top then (if m = 0 then .inf neg else .nan)
  else if f.sp = .nanOnly ∧ ex = f.top ∧ m = 2 ^ f.mb - 1 then .nan
  else if ex = 0 then .fin neg m f.emin
  else .fin neg (2 ^ f.mb + m) (f.emin + (ex - 1 : Nat))

/-- The whole exponent of a positive rational: 2^k ≤ n/d < 2^(k + 1). -/
def ratLog (n d : Nat) : Int :=
  let k : Int := (Nat.log2 n : Int) - Nat.log2 d
  if d * 2 ^ k.toNat ≤ n * 2 ^ (-k).toNat then k else k - 1

/-- A quotient rounded to nearest, ties to even, with whether it was inexact. -/
def divEven (n d : Nat) : Nat × Bool :=
  let q := n / d
  let r := n % d
  (if d < 2 * r ∨ (2 * r = d ∧ q % 2 = 1) then q + 1 else q, r != 0)

/-- The pattern nearest to n/d × 2^e, ties to even, before any limit on the exponent, with whether
it was inexact. -/
def FFmt.near (f : FFmt) (n d : Nat) (e : Int) : Nat × Bool :=
  if n = 0 then (0, false)
  else
    let q : Int := max (ratLog n d + e - f.mb) f.emin
    let s := e - q
    let r := divEven (n * 2 ^ s.toNat) (d * 2 ^ (-s).toNat)
    ((q - f.emin).toNat * 2 ^ f.mb + r.1, r.2)

/-- The largest finite pattern of a format. -/
def FFmt.maxFin (f : FFmt) : Nat :=
  match f.sp with
  | .ieee => f.top * 2 ^ f.mb - 1
  | .nanOnly => f.top * 2 ^ f.mb + 2 ^ f.mb - 2
  | .none => f.top * 2 ^ f.mb + 2 ^ f.mb - 1

/-- A pattern with its sign. -/
def FFmt.signed (f : FFmt) (neg : Bool) (v : Nat) : Nat := v + bit neg * 2 ^ (f.mb + f.eb)

/-- The canonical quiet NaN (R187, R218). -/
def FFmt.qnan (f : FFmt) : Nat :=
  if f.sp = .nanOnly then f.top * 2 ^ f.mb + 2 ^ f.mb - 1 else f.top * 2 ^ f.mb + 2 ^ (f.mb - 1)

/-- The pattern of infinity. -/
def FFmt.infinity (f : FFmt) (neg : Bool) : Nat := f.signed neg (f.top * 2 ^ f.mb)

/-- A pattern is a NaN whose quiet bit is clear. -/
def FFmt.signalling (f : FFmt) (v : Nat) : Bool :=
  f.sp == .ieee && f.decode v == .nan && !v.testBit (f.mb - 1)

/-- A finite value as a whole number of units of 2^e, e at or below its own exponent. -/
def scaled (neg : Bool) (m : Nat) (e unit : Int) : Int :=
  let v : Int := (m * 2 ^ (e - unit).toNat : Nat)
  if neg then -v else v

/-- Two's complement of `n` bits as an integer. -/
def asInt (n v : Nat) : Int :=
  if 2 ^ (n - 1) ≤ v % 2 ^ n then (v % 2 ^ n : Nat) - (2 ^ n : Int) else (v % 2 ^ n : Nat)

/-- An integer kept to `n` bits: saturated, with whether it was, or wrapped. -/
def fitInt (n : Nat) (sat : Bool) (i : Int) : Int × Bool :=
  let hi : Int := 2 ^ (n - 1) - 1
  let lo : Int := -2 ^ (n - 1)
  if sat then (if hi < i then (hi, true) else if i < lo then (lo, true) else (i, false))
  else (asInt n (low n i), false)

/-- A finite value rounded to a whole number, ties to even. -/
def roundInt (neg : Bool) (m : Nat) (e : Int) : Int × Bool :=
  let r := divEven (m * 2 ^ e.toNat) (2 ^ (-e).toNat)
  (if neg then -(r.1 : Int) else r.1, r.2)

end Sys2Proof.Machine
end

