-- ==== Sys2Proof/Machine/Flags.lean ====
section
/-! DEFINITION. Floating-point arithmetic with its sticky flags, the conversions between the formats
and the special functions (R186 to R188, R218). -/

namespace Sys2Proof.Machine

/-- Flags of two steps joined. -/
def FFlags.join (a b : FFlags) : FFlags :=
  { invalid := a.invalid || b.invalid, divZero := a.divZero || b.divZero,
    overflow := a.overflow || b.overflow, underflow := a.underflow || b.underflow,
    inexact := a.inexact || b.inexact }

/-- ± n/d × 2^e rounded into an IEEE format, with overflow, underflow and inexact (R187). -/
def FFmt.round (f : FFmt) (neg : Bool) (n d : Nat) (e : Int) : Nat × FFlags :=
  let r := f.near n d e
  if f.maxFin < r.1 then (f.infinity neg, { overflow := true, inexact := true })
  else
    let tinyPre := n != 0 && decide (ratLog n d + e < f.emin + f.mb)
    let tiny := if Config.tinyBefore then tinyPre else decide (r.1 < 2 ^ f.mb)
    (f.signed neg r.1, { inexact := r.2, underflow := r.2 && tiny })

/-- A NaN result, `invalid` where it says so. -/
def FFmt.nanOut (f : FFmt) (invalid : Bool) : Nat × FFlags := (f.qnan, { invalid := invalid })

/-- An exact sum in units of 2^e rounded; a zero sum is +0 unless both terms are −0. -/
def FFmt.ofSum (f : FFmt) (bothNeg : Bool) (i : Int) (e : Int) : Nat × FFlags :=
  if i = 0 then (f.signed bothNeg 0, {}) else f.round (decide (i < 0)) i.natAbs 1 e

/-- The sum of two values. -/
def FFmt.addV (f : FFmt) : FVal → FVal → Nat × FFlags
  | .nan, _ => f.nanOut false
  | _, .nan => f.nanOut false
  | .inf a, .inf b => if a = b then (f.infinity a, {}) else f.nanOut true
  | .inf a, .fin .. => (f.infinity a, {})
  | .fin .., .inf b => (f.infinity b, {})
  | .fin s m e, .fin s' m' e' =>
    let u := min e e'
    f.ofSum (s && s') (scaled s m e u + scaled s' m' e' u) u

/-- The exact product of two values, with whether it is infinity times zero. -/
def mulV : FVal → FVal → FVal × Bool
  | .nan, _ => (.nan, false)
  | _, .nan => (.nan, false)
  | .inf a, .inf b => (.inf (a != b), false)
  | .inf a, .fin s m _ => if m = 0 then (.nan, true) else (.inf (a != s), false)
  | .fin s m _, .inf b => if m = 0 then (.nan, true) else (.inf (s != b), false)
  | .fin s m e, .fin s' m' e' => (.fin (s != s') (m * m') (e + e'), false)

/-- A value rounded into a format. -/
def FFmt.ofV (f : FFmt) : FVal → Nat × FFlags
  | .nan => f.nanOut false
  | .inf s => (f.infinity s, {})
  | .fin s m e => if m = 0 then (f.signed s 0, {}) else f.round s m 1 e

/-- `invalid` for a signalling NaN operand. -/
def snan (l : List W32) : FFlags := { invalid := l.any fun x => FFmt.fp32.signalling x.toNat }

/-- What an FP32 pattern stands for. -/
def fv (x : W32) : FVal := FFmt.fp32.decode x.toNat

/-- A result pattern as an FP32 word. -/
def outW (r : Nat × FFlags) : W32 × FFlags := (BitVec.ofNat 32 r.1, r.2)

/-- A sign flipped, but not of a NaN. -/
def FVal.flip : FVal → FVal
  | .nan => .nan
  | .inf s => .inf (!s)
  | .fin s m e => .fin (!s) m e

def faddF (a b : W32) : W32 × FFlags :=
  let r := outW (FFmt.fp32.addV (fv a) (fv b))
  (r.1, r.2.join (snan [a, b]))

def fsubF (a b : W32) : W32 × FFlags :=
  let r := outW (FFmt.fp32.addV (fv a) (fv b).flip)
  (r.1, r.2.join (snan [a, b]))

def fmulF (a b : W32) : W32 × FFlags :=
  let p := mulV (fv a) (fv b)
  let r := outW (FFmt.fp32.ofV p.1)
  (r.1, (r.2.join { invalid := p.2 }).join (snan [a, b]))

/-- A fused multiply-add: a × b + c rounded once (R187). -/
def ffmaF (a b c : W32) : W32 × FFlags :=
  let p := mulV (fv a) (fv b)
  let r := outW (FFmt.fp32.addV p.1 (fv c))
  (r.1, (r.2.join { invalid := p.2 }).join (snan [a, b, c]))

/-- The quotient of two values. -/
def FFmt.divV (f : FFmt) : FVal → FVal → Nat × FFlags
  | .nan, _ => f.nanOut false
  | _, .nan => f.nanOut false
  | .inf _, .inf _ => f.nanOut true
  | .inf a, .fin s _ _ => (f.infinity (a != s), {})
  | .fin s _ _, .inf b => (f.signed (s != b) 0, {})
  | .fin s m e, .fin s' m' e' =>
    if m' = 0 then
      (if m = 0 then f.nanOut true else (f.infinity (s != s'), { divZero := true }))
    else if m = 0 then (f.signed (s != s') 0, {})
    else f.round (s != s') m m' (e - e')

def fdivF (a b : W32) : W32 × FFlags :=
  let r := outW (FFmt.fp32.divV (fv a) (fv b))
  (r.1, r.2.join (snan [a, b]))

/-- The whole square root, by bits from the top. -/
def isqrt (v : Nat) : Nat :=
  ((List.range (Nat.log2 v / 2 + 1)).reverse).foldl
    (fun r i => if (r + 2 ^ i) ^ 2 ≤ v then r + 2 ^ i else r) 0

/-- The square root of n/d × 2^e as 80 bits and a sticky bit: half-units of the result's exponent. -/
def rootBits (n d : Nat) (e : Int) : Nat × Int :=
  let odd := e % 2
  let k : Nat := 160
  let x := n * 2 ^ (2 * k) * 2 ^ odd.toNat
  let q := x / d
  let r := isqrt q
  (2 * r + bit (r * r * d != x), (e - odd) / 2 - k - 1)

def fsqrtF (a : W32) : W32 × FFlags :=
  match fv a with
  | .nan => (0x7FC00000, snan [a])
  | .inf s => if s then (0x7FC00000, { invalid := true }) else (0x7F800000, {})
  | .fin s m e =>
    if m = 0 then (a, {})
    else if s then (0x7FC00000, { invalid := true })
    else
      let r := rootBits m 1 e
      outW (FFmt.fp32.round false r.1 1 r.2)

def fadd (a b : W32) : W32 := (faddF a b).1
def fsub (a b : W32) : W32 := (fsubF a b).1
def fmul (a b : W32) : W32 := (fmulF a b).1
def fdiv (a b : W32) : W32 := (fdivF a b).1
def fsqrt (a : W32) : W32 := (fsqrtF a).1

/-- How two FP32 values stand: none with a NaN. −0 and +0 are equal. -/
def fcmp (a b : W32) : Option Ordering :=
  match fv a, fv b with
  | .nan, _ => none
  | _, .nan => none
  | .inf s, .inf s' => some (if s = s' then .eq else if s then .lt else .gt)
  | .inf s, .fin .. => some (if s then .lt else .gt)
  | .fin .., .inf s => some (if s then .gt else .lt)
  | .fin s m e, .fin s' m' e' =>
    let u := min e e'
    some (compare (scaled s m e u) (scaled s' m' e' u))

def flt (a b : W32) : Bool := fcmp a b == some .lt
def fle (a b : W32) : Bool := fcmp a b == some .lt || fcmp a b == some .eq
def fisNan (a : W32) : Bool := fv a == .nan

/-- A finite FP32 value. -/
def ffinite (a : W32) : Bool :=
  match fv a with
  | .fin .. => true
  | _ => false

/-- A natural number as FP32, to nearest, ties to even. -/
def fnat (n : Nat) : W32 := BitVec.ofNat 32 (FFmt.fp32.round false n 1 0).1

/-- An integer as FP32. -/
def fint (i : Int) : W32 := (outW (FFmt.fp32.ofSum false i 0)).1

/-- Minimum and maximum (R187): the number where one operand is NaN. Which zero comes out of a −0 and
a +0 is open. -/
def fpick (op : Nat) (want : Ordering) (a b : W32) : W32 :=
  match fcmp a b with
  | some o => if o = want then a else if o = .eq then (if a = b then a else
      if Config.vecOpen op a b = 0 then a else b) else b
  | none => if fisNan a then (if fisNan b then 0x7FC00000 else b) else a

/-! ### Conversions (R186, R218) -/

/-- The floating-point format of a vector format. -/
def vFloat : VFmt → Option FFmt
  | .fp32 => some .fp32
  | .bf16 => some .bf16
  | .fp16 => some .fp16
  | .e4m3 => some .e4m3
  | .e5m2 => some .e5m2
  | _ => none

/-- The width of an integer format. -/
def vInt : VFmt → Option Nat
  | .int32 => some 32
  | .int16 => some 16
  | .int8 => some 8
  | _ => none

/-- A value into an FP8 format, saturating (R218), with whether it saturated. -/
def FFmt.toFp8 (f : FFmt) : FVal → Nat × Bool
  | .nan => (f.qnan, false)
  | .inf s => if f.sp = .ieee then (f.infinity s, false) else (f.signed s f.maxFin, true)
  | .fin s m e =>
    let r := f.near m 1 e
    if f.maxFin < r.1 then (f.signed s f.maxFin, true) else (f.signed s r.1, false)

/-- A value into a format. An FP8 result that saturates sets overflow and inexact (R187, R218).
[DESIGN CHOICE: notes/assumptions/48.md] -/
def FFmt.conv (f : FFmt) (v : FVal) : Nat × FFlags :=
  if f.mb ≤ 3 then
    let r := f.toFp8 v
    (r.1, if r.2 then { overflow := true, inexact := true } else (f.ofV v).2)
  else f.ofV v

/-- A value into an integer format: INT8 saturates and NaN gives 0; elsewhere a value that does not
fit is open. [DESIGN CHOICE: notes/assumptions/48.md] -/
def toIntFmt (n op : Nat) (a : W32) (v : FVal) : W32 × FFlags :=
  let out (i : Int) : W32 :=
    BitVec.ofNat 32 (if n = 8 then low 8 i else (Config.vecOpen op a 0).toNat % 2 ^ n)
  match v with
  | .nan => (out 0, { invalid := true })
  | .inf s => (out (if s then -128 else 127), { invalid := true })
  | .fin s m e =>
    let r := roundInt s m e
    let k := fitInt n true r.1
    if k.2 then (out k.1, { invalid := true })
    else (BitVec.ofNat 32 (low n k.1), { inexact := r.2 })

/-- A lane converted from one format to another (R186). -/
def convertLane (src dst : VFmt) (sat : Bool) (a : W32) : W32 × FFlags :=
  match vFloat src, vInt src, vFloat dst, vInt dst with
  | some f, _, some g, _ =>
    let r := outW (g.conv (f.decode a.toNat))
    (r.1, r.2.join { invalid := f.signalling a.toNat })
  | some f, _, _, some n => toIntFmt n 100 a (f.decode a.toNat)
  | _, some k, some g, _ =>
    let i := asInt k a.toNat
    outW (g.conv (.fin (decide (i < 0)) i.natAbs 0))
  | _, some k, _, some n =>
    (BitVec.ofNat 32 (low n (fitInt n (sat || n == 8) (asInt k a.toNat)).1), {})
  | _, _, _, _ => (a, {})

/-! ### Special functions (R188) -/

/-- Fixed-point numbers of the special functions hold this many fraction bits. -/
def fxBits : Nat := 256

/-- ln 2 in fixed point. -/
def fxLn2 : Nat :=
  80260960185991308862233904206310070533990667611589946606122867505419956976171

/-- e^r in fixed point for 0 ≤ r < ln 2, by its Taylor sum. -/
def fxExp (r : Nat) : Nat :=
  ((List.range 64).foldl (fun (p : Nat × Nat) i =>
    (p.1 + p.2, p.2 * r / 2 ^ fxBits / (i + 1))) (0, 2 ^ fxBits)).1

/-- e^x for a fixed-point x, as a fixed-point number in [1, 2) and a power of two. -/
def fxExpInt (x : Int) : Nat × Int :=
  let k := x / (fxLn2 : Int)
  (fxExp (x % (fxLn2 : Int)).toNat, k)

/-- ln y in fixed point for a fixed-point y in [1, 2): twice the inverse hyperbolic tangent. -/
def fxLog (y : Nat) : Nat :=
  let z := (y - 2 ^ fxBits) * 2 ^ fxBits / (y + 2 ^ fxBits)
  let z2 := z * z / 2 ^ fxBits
  2 * ((List.range 96).foldl (fun (p : Nat × Nat) i =>
    (p.1 + p.2 / (2 * i + 1), p.2 * z2 / 2 ^ fxBits)) (0, z)).1

/-- A finite value as fixed point. -/
def toFx (neg : Bool) (m : Nat) (e : Int) : Int :=
  let v : Nat := if 0 ≤ e + fxBits then m * 2 ^ (e + fxBits).toNat else m / 2 ^ (-(e + fxBits)).toNat
  if neg then -(v : Int) else v

/-- A result within 2 units in the last place of the nearest value: which one is open (R188). One that overflows to
infinity is infinity.
[DESIGN CHOICE: notes/assumptions/49.md] -/
def within2 (fn : Nat) (a : W32) (r : Nat × FFlags) : W32 × FFlags :=
  let sign := r.1 / 2 ^ 31 * 2 ^ 31
  let mag := r.1 % 2 ^ 31
  let p := mag + Config.ulpError fn a % 5
  (BitVec.ofNat 32 (sign + if mag = 0x7F800000 then mag else min 0x7F800000 (p - 2)), r.2)

/-- e^x of a finite value as a positive rational n × 2^e; outside ±200 the result saturates
likewise. -/
def expRat (neg : Bool) (m : Nat) (e : Int) : Nat × Int :=
  let x := toFx neg m e
  let lim : Int := 200 * 2 ^ fxBits
  let r := fxExpInt (max (-lim) (min lim x))
  (r.1, r.2 - fxBits)

/-- The number of a special function. -/
def specialCode : SpecialFn → Nat
  | .sqrt => 0 | .recip => 1 | .rsqrt => 2 | .exp => 3 | .log => 4 | .tanh => 5 | .logistic => 6

/-- A special function of a non-zero finite value, nearest or within R188's bound. -/
def specialFin (f : SpecialFn) (a : W32) (s : Bool) (m : Nat) (e : Int) : W32 × FFlags :=
  let near (neg : Bool) (n d : Nat) (k : Int) : W32 × FFlags :=
    within2 (specialCode f) a (FFmt.fp32.round neg n d k)
  match f with
  | .sqrt => fsqrtF a
  | .recip => near s 1 m (-e)
  | .rsqrt =>
    if s then (0x7FC00000, { invalid := true })
    else
      let r := rootBits 1 m (-e)
      near false r.1 1 r.2
  | .exp =>
    let r := expRat s m e
    near false r.1 1 r.2
  | .log =>
    if s then (0x7FC00000, { invalid := true })
    else
      let k := Nat.log2 m
      let l : Int := fxLog (m * 2 ^ (fxBits - k)) + (e + k) * fxLn2
      near (decide (l < 0)) l.natAbs 1 (-fxBits)
  | .tanh =>
    let r := expRat true (2 * m) e
    let t := r.1 * 2 ^ 300 / 2 ^ (fxBits + 300 - (r.2 + fxBits + 300).toNat)
    near s (2 ^ 300 - t) (2 ^ 300 + t) 0
  | .logistic =>
    let r := expRat true m e
    let t := r.1 * 2 ^ 600 / 2 ^ (fxBits + 600 - (r.2 + fxBits + 600).toNat)
    if s then near false t (2 ^ 600 + t) 0 else near false (2 ^ 600) (2 ^ 600 + t) 0

/-- A special function (R188): the IEEE 754 result at infinities, zeros and NaN.
[DESIGN CHOICE: notes/assumptions/49.md] -/
def specialF (f : SpecialFn) (a : W32) : W32 × FFlags :=
  match fv a with
  | .nan => (0x7FC00000, snan [a])
  | .inf s =>
    match f with
    | .recip => (BitVec.ofNat 32 (bit s * 2 ^ 31), {})
    | .sqrt | .rsqrt | .log =>
      if s then (0x7FC00000, { invalid := true })
      else (if f = .rsqrt then 0 else 0x7F800000, {})
    | .exp => (if s then 0 else 0x7F800000, {})
    | .tanh => (if s then 0xBF800000 else 0x3F800000, {})
    | .logistic => (if s then 0 else 0x3F800000, {})
  | .fin s m e =>
    if m = 0 then
      match f with
      | .sqrt | .tanh => (a, {})
      | .recip | .rsqrt => (BitVec.ofNat 32 (0x7F800000 + bit s * 2 ^ 31), { divZero := true })
      | .exp => (0x3F800000, {})
      | .log => (0xFF800000, { divZero := true })
      | .logistic => (0x3F000000, {})
    else specialFin f a s m e

end Sys2Proof.Machine
end

