-- ==== Sys2Proof/Machine/ClockOps.lean ====
section
/-! DEFINITION. The clocks of the clusters and the rails that carry them (R9, R29, R40, R43, R44, R50, R202,
R433). -/

namespace Sys2Proof.Machine

/-- A cluster owned by a partition, or by the packet path (R16). -/
def Cluster.ofPartition (c : Cluster) : Bool := decide (c.owner < 0x40)
def Cluster.ofPacketPath (c : Cluster) : Bool := c.owner == 0x40

/-- The limits of a cluster that are set and not measured, in MHz: the least of its ceiling, its thermal
limit and its `clk_cap` (R43, R202). -/
def Cluster.limit (c : Cluster) : Nat := min c.ceiling (min c.thermal c.clkCap)

/-- The clusters whose logical numbers a spare in this cluster's clock island serves (R433). -/
def State.guests (c : Nat) (s : State) : List Nat :=
  (s.comp.map.filter fun e => e.2.serves && e.2.phys / 16 == c && e.2.home / 16 != c).map (·.2.home / 16)

/-- A cluster's clock runs: it has an owner, or it holds a consumed spare (R202, R433). -/
def State.clocked (c : Nat) (s : State) : Bool := (s.cluster c).owner != 0x7F || !(s.guests c).isEmpty

/-- The least of a cluster's own limits and of the `clk_cap` of every owner whose core its island hosts
(R9, R433). -/
def State.clockLimit (c : Nat) (s : State) : Nat :=
  (s.guests c).foldl (fun f l => min f (s.cluster l).clkCap) (s.cluster c).limit

/-- The clock a cluster is set to, in MHz: its limits and its droop response (R43, R202); 0 while it is gated.
[DESIGN CHOICE: notes/assumptions/122.md] -/
def State.clockSet (c : Nat) (s : State) : Nat :=
  if s.clocked c then
    (if (s.cluster c).droop then min (s.clockLimit c) Config.droopMhz else s.clockLimit c)
  else 0

/-- The lowest clock that a running cluster is set to, in units of 50 MHz (R50); 0 where none runs.
[DESIGN CHOICE: notes/assumptions/125.md] -/
def State.clkMin (s : State) : Nat :=
  match (List.range nClusters).filter fun c => s.clocked c with
  | [] => 0
  | c :: r => r.foldl (fun f k => min f (s.clockSet k)) (s.clockSet c) / 50

/-- The voltage a clock needs, in mV (R44): 550 + 300 × (f − 1,000) ÷ 2,300, rounded up.
[DESIGN CHOICE: notes/assumptions/125.md] -/
def needMv (f : Nat) : Nat := 550 + (300 * (f - 1000) + 2299) / 2300

/-- A die's rail: the highest need of its running clusters plus 20 mV, rounded up to a step of 5 mV, within
the regulators' range, so that the headroom is lost where the need is 850 mV (R29).
[DESIGN CHOICE: notes/assumptions/125.md] -/
def State.dieMv (die : Nat) (s : State) : Nat :=
  let on := (List.range 64).filter fun k => s.clocked (64 * die + k)
  let need := maxOf (550 :: on.map fun k => needMv (s.clockLimit (64 * die + k)))
  min 850 ((need + 20 + 4) / 5 * 5)

/-- A die's rail now: from where it stood at the last change it slews at 10 mV/µs to where it is set (R29).
[DESIGN CHOICE: notes/assumptions/125.md] -/
def State.railNow (die : Nat) (s : State) : Nat :=
  let goal := tgetD s.pkg.dieMv die 750
  match tget s.pkg.railFrom die with
  | none => goal
  | some (v, k) =>
    let step := (s.tick - k) / 100
    if v ≤ goal then min goal (v + step) else max goal (v - step)

/-- The highest clock that a rail carries, in MHz (R44); the least is 1.0 GHz. -/
def railMax (mv : Nat) : Nat :=
  maxOf (1000 :: ((List.range 47).map fun k => 1000 + 50 * k).filter fun f => decide (needMv f ≤ mv))

/-- A cluster's clock in MHz. On a rise the voltage moves first and the clock follows it; on a fall the clock
moves first (R43). -/
def State.clock (c : Nat) (s : State) : Nat := min (s.clockSet c) (railMax (s.railNow (c / 64)))

/-- The rails are set for the clocks (R29, R43). [DESIGN CHOICE: notes/assumptions/125.md] -/
def State.setRails (s : State) : State :=
  s.updPkg fun p => { p with
    dieMv := (List.range 4).map (fun d => (d, s.dieMv d))
    railFrom := (List.range 4).map (fun d => (d, (s.railNow d, s.tick)))
    clkMin := s.clkMin }

/-- The kept value of the clusters. -/
def State.clustersVal (s : State) : StVal :=
  .clusters (s.comp.clusters.map fun e => (e.1, (e.2.owner, e.2.clkCap)))

end Sys2Proof.Machine
end

