-- ==== Sys2Proof/Machine/ImageOps.lean ====
section
/-! DEFINITION. The fields of a firmware image: its manifest, its sections and their digests (R366, R409 to R411). -/

namespace Sys2Proof.Machine

/-- `m_svn` of the image in a slot (R409). -/
def imageSvn (m : Mem) : Nat := leNat (memBytes m 16 4)

/-- The manifest digest of an image (R409). -/
def manifestDigest (m : Mem) : List Byte := shake256 32 (memBytes m 0 31264)

/-- A field of an image, least significant byte first. -/
def imgNat (m : Mem) (a n : Nat) : Nat := leNat (memBytes m a n)

/-- The largest size of a section, by type less 1 (R366). -/
def sectMax : List Nat := [6291456, 196608, 1048576, 16384, 2097152, 1048576, 1048576]

/-- The sections of an image: type, offset, length, and where its entry stands. -/
def imgSections (m : Mem) : List (Nat × Nat × Nat × Nat) :=
  (List.range 7).map fun i =>
    let a := 96 + 48 * i
    (imgNat m a 2, imgNat m (a + 4) 4, imgNat m (a + 8) 4, a)

/-- One section is placed as R410 asks. -/
def sectGood (m : Mem) (e : Nat × Nat × Nat × Nat) : Bool :=
  decide (1 ≤ e.1) && decide (e.1 ≤ 7) && decide (e.2.2.1 ≤ (sectMax[e.1 - 1]?).getD 0) && e.2.1 % 64 == 0 &&
    decide (32768 ≤ e.2.1) && decide (e.2.1 + e.2.2.1 ≤ imgNat m 20 4) &&
    imgNat m (e.2.2.2 + 2) 2 == 0 && imgNat m (e.2.2.2 + 12) 4 == 0

/-- The settings groups that an image declares. -/
def imgGroups (m : Mem) : List Nat := (List.range (imgNat m 432 2)).map fun i => imgNat m (440 + 4 * i) 2

/-- The sections of an image, apart from one another. -/
def sectionsApart : List (Nat × Nat × Nat × Nat) → Bool
  | [] => true
  | a :: r => (r.all fun b => decide (a.2.1 + a.2.2.1 ≤ b.2.1) || decide (b.2.1 + b.2.2.1 ≤ a.2.1)) &&
      sectionsApart r

/-- The fields of R409 are in range (R410). -/
def manifestGood (m : Mem) : Bool :=
  let sects := imgSections m
  let n := imgNat m 432 2
  imgNat m 0 4 == 0x4B34494D && imgNat m 4 2 == 1 && imgNat m 6 2 == 7 && decide (imgNat m 16 4 ≤ 64) &&
    imgNat m 88 8 == 0 && imgNat m 434 6 == 0 && imgNat m 1464 8 == 0 && decide (n ≤ 256) &&
    imgNat m (440 + 4 * n) (4 * (256 - n)) == 0 &&
    decide (imgGroups m).Nodup && decide (sects.map (·.1)).Nodup && sects.all (sectGood m) &&
    sectionsApart sects

/-- The digest of one section matches. -/
def sectionMatches (m : Mem) (e : Nat × Nat × Nat × Nat) : Bool :=
  shake256 32 (memBytes m e.2.1 e.2.2.1) == memBytes m (e.2.2.2 + 16) 32

/-- Every section's digest matches. -/
def sectionsMatch (m : Mem) : Bool :=
  (imgSections m).all (sectionMatches m)

/-- The digest of the section of a type matches. -/
def typeMatches (m : Mem) (ty : Nat) : Bool := ((imgSections m).filter fun e => e.1 == ty).all (sectionMatches m)

end Sys2Proof.Machine
end

