-- ==== Sys2Proof/Machine/Boot.lean ====
section
/-! DEFINITION. Resets and the start sequence: what a reset keeps, the choice of the slot, the
copy of a staged image, the settings taken from the store, and the rows that begin a start
(R34, R35, R365 to R377, R413, R441, R442). -/

namespace Sys2Proof.Machine

/-! ### What a reset keeps -/

/-- What the flash and the security core keep of Bay through a reset (R374, R404, R442). -/
def Bay.keep (b : Bay) : Bay :=
  { dir := b.dir, dirOld := b.dirOld, dirAt := b.dirAt, factoryA := b.factoryA, other := b.other,
    trialFrom := b.trialFrom, slotA := b.slotA, slotB := b.slotB, staged := b.staged, stg := b.stg,
    store := b.store, stSeq := b.stSeq, half := b.half, hSeq := b.hSeq, log := b.log,
    devResetRun := b.devResetRun }

/-- The state after any reset: everything volatile is at its reset value; flash, fuses, the input
pins and what has been sent stay (R34).
[DESIGN CHOICE: notes/assumptions/139.md] -/
def State.lose (s : State) : State :=
  { pending := s.pending, fuses := s.fuses, bay := s.bay.keep, freeCount := s.freeCount,
    sent := s.sent,
    pkg := { pwrgd := s.pkg.pwrgd, coldLow := s.pkg.coldLow, warmLow := s.pkg.warmLow,
             halt := s.pkg.halt, tripArmed := s.pkg.tripArmed, thermtrip := s.pkg.thermtrip,
             sdClock := s.pkg.sdClock, sysClock := s.pkg.sysClock, bootCold := s.pkg.bootCold,
             lastReset := s.pkg.lastReset }
    mem := { repaired := s.mem.repaired }, obs := { freezeLow := s.obs.freezeLow } }

/-- A cold reset taken (R34): `dev_reset_run` is cleared (R442), and a loss of the system reference
is forgiven (R37). -/
def State.coldReset (s : State) : State :=
  let s := s.lose
  (s.updPkg fun p => { p with bootCold := true
                              halt := if p.halt = .clockLost then .none else p.halt }).updBay
    fun b => { b with devResetRun := 0 }

/-- A warm reset taken (R34). An interrupted cold start inside its first 2 ms is cold again (R35). -/
def State.warmReset (s : State) : State :=
  let cold := s.pkg.coldLow ||
    (s.pkg.bootCold && s.pkg.devState == .rom && decide (s.tick < 2000000))
  s.lose.updPkg fun p => { p with bootCold := cold }

/-! ### The directory and the log -/

/-- The directory written (R365): the other copy, with `dir_seq` one higher, is in force. -/
def State.writeDir (f : Directory → Directory) (s : State) : State :=
  s.updBay fun b => { b with
    dir := { f b.dir with seq := b.dir.seq + 1 }, dirOld := some b.dir, dirAt := 1 - b.dirAt }

/-- The directory that the ROM uses (R365): the valid copy with the higher `dir_seq`; none where neither is valid. -/
def State.readDir (b : BootIn) (s : State) : Option State :=
  if !b.dirBad.contains s.bay.dirAt then some s
  else match s.bay.dirOld with
    | none => none
    | some d =>
      if b.dirBad.contains (1 - s.bay.dirAt) then none
      else some (s.updBay fun x => { x with dir := d, dirOld := none, dirAt := 1 - x.dirAt })

/-- A slot's version and state. -/
def Bay.slotVersion (b : Bay) (k : Nat) : Nat := if k = 0 then b.dir.verA else b.dir.verB
def Bay.slotState (b : Bay) (k : Nat) : Nat := if k = 0 then b.dir.stateA else b.dir.stateB

/-- A slot's state set in a directory. -/
def Directory.setState (d : Directory) (k st : Nat) : Directory :=
  if k = 0 then { d with stateA := st } else { d with stateB := st }

/-- `boot_count` as the store holds it. -/
def State.storedBootCount (s : State) : Nat :=
  s.bay.store.foldl (fun n r => match r.value with
    | .bootCount k => if r.bad then n else k
    | _ => n) 0

/-- The mask over a stored session key: record number and partition under `dev_wrap` (R425).
[DEDUCED: notes/assumptions/107.md] -/
def State.keyMask (seq p : Nat) (s : State) : BitVec 256 :=
  BitVec.ofNat 256 (beNat (kmac256 (beBytes 32 s.fuses.devWrap.toNat) (beBytes 4 seq ++ beBytes 1 p) 32
    "K4 PSK STORE"))

/-- The tag that follows a stored session key (R425). -/
def State.keyTag (p : Nat) (v : BitVec 256) (s : State) : BitVec 128 :=
  BitVec.ofNat 128 (beNat (kmac256 (beBytes 32 s.fuses.devWrap.toNat) (beBytes 1 p ++ beBytes 32 v.toNat) 16
    "K4 PSK TAG"))

/-- A value as the record of a number holds it: session keys are masked and tagged (R425). -/
def State.sealVal (seq : Nat) (v : StVal) (s : State) : StVal :=
  match v with
  | .keys k => .sealedKeys seq (k.map fun e =>
      let x := e.2 ^^^ s.keyMask seq e.1
      (e.1, x, s.keyTag e.1 x))
  | v => v

/-- The value a record holds: a session key whose tag fails is ignored (R425). -/
def State.openVal (v : StVal) (s : State) : StVal :=
  match v with
  | .sealedKeys seq k => .keys ((k.filter fun e => e.2.2 == s.keyTag e.1 e.2.1).map fun e =>
      (e.1, e.2.1 ^^^ s.keyMask seq e.1))
  | v => v

/-- A record appended to the settings store (R371), of a value or of its group's removal, of a change or of what a
start has converted; a half without room is compacted first (R373). -/
def State.appendAs (removal conv : Bool) (v : StVal) (fmt len : Nat) (s : State) : State :=
  s.updBay fun b => { b.makeRoom len with
    stSeq := b.stSeq + 1
    store := (b.makeRoom len).store ++ [{ seq := b.stSeq + 1, fmt := fmt, len := len
                                          value := s.sealVal (b.stSeq + 1) v, removal := removal, conv := conv }] }

/-- A value appended to the settings store (R371). -/
def State.appendStore (v : StVal) (fmt len : Nat) (s : State) : State := s.appendAs false false v fmt len

/-- The bytes of a log record (R377, R453). -/
def logBytes : BootRec ⊕ RmRec → Nat
  | .inl _ => 32
  | .inr _ => 64

/-- The oldest records without at least a sector's bytes. -/
def dropSector : Nat → List (BootRec ⊕ RmRec) → List (BootRec ⊕ RmRec)
  | _, [] => []
  | left, r :: rest => if left = 0 then r :: rest else dropSector (left - logBytes r) rest

/-- Records added to the log region, a ring of 256 sectors of 64 KiB; a full one loses its oldest sectors (R377). -/
def Bay.logPut (b : Bay) (l : List (BootRec ⊕ RmRec)) : Bay :=
  let all := b.log ++ l
  { b with log := dropSector (65536 * (((all.map logBytes).sum - 16777216 + 65535) / 65536)) all }

/-- The boot record of this start (R377). A start that ends before Isain raises `boot_count` gives it as the store
holds it. [DEDUCED: notes/assumptions/137.md] -/
def State.bootLog (msRun result slot : Nat) (s : State) : State :=
  s.updBay fun b => b.logPut [.inl
    { bootCount := if s.fab.bootCount = 0 then s.storedBootCount else s.fab.bootCount,
      version := if slot = 3 then 0 else b.slotVersion slot,
      msRun := msRun, result := result, slot := slot, mode := b.runMode,
      reset := s.pkg.lastReset, settingsBad := b.settingsBad }]

/-! ### The image in a slot -/

/-- The image in a slot passes the checks of step 4 of R367 (R366, R410, R416): the manifest, the root key, its
signature, which is what the start finds, the anti-rollback check and the digest of `ISAIN`. The bytes of the image of
manufacture are not held: what the start finds stands for all of them.
[DESIGN CHOICE: notes/assumptions/10.md] -/
def State.slotPasses (b : BootIn) (k : Nat) (s : State) : Bool :=
  let m := s.bay.slotMem k
  (if k = 0 then b.okA else b.okB) && decide (s.fuses.svn ≤ imageSvn m) &&
    ((k == 0 && s.bay.factoryA) ||
      (manifestGood m && shake256 32 (memBytes m 24 64) == s.fuses.rootHash && typeMatches m 1))

/-- A section's digest fails when Isain loads it from a slot (R368). [DESIGN CHOICE: notes/assumptions/10.md] -/
def State.loadBad (b : BootIn) (k : Nat) (s : State) : Bool :=
  b.digestBad || !((k == 0 && s.bay.factoryA) || sectionsMatch (s.bay.slotMem k))

/-! ### The copy of a staged image (R413) -/

/-- The target slot already holds the staged image on trial (R413). -/
def State.copied (s : State) : Bool :=
  let k := s.bay.stg.target
  s.bay.slotState k == 2 && s.bay.slotVersion k == s.bay.stg.version &&
    manifestDigest (s.bay.slotMem k) == s.bay.stg.digest

/-- The time that the copy at a start takes, in ns: 3.5 s for each MiB of image (R378, R413). -/
def State.copyNs (s : State) : Nat :=
  if s.bay.stg.state ≠ 7 ∨ s.copied then 0 else 3500000000 * s.bay.stg.len / 1048576

/-- The copy of an `ACTIVATED` image into its target slot at step 3. `ok` says that the slot reads back as it was
written; its digests are checked on it. -/
def State.copyStaged (ok : Bool) (s : State) : State :=
  if s.bay.stg.state ≠ 7 then s
  else
    let k := s.bay.stg.target
    if s.copied then s.updBay fun b => { b with stg := { b.stg with state := 3 } }
    else
      let s := s.writeDir fun d => d.setState k 0
      let s := s.updBay fun b =>
        if k = 0 then { b with slotA := b.staged, factoryA := false } else { b with slotB := b.staged }
      if ok && manifestDigest (s.bay.slotMem k) == s.bay.stg.digest && sectionsMatch (s.bay.slotMem k) then
        (s.writeDir fun d =>
          let d := d.setState k 2
          let d := if k = 0 then { d with verA := s.bay.stg.version }
                   else { d with verB := s.bay.stg.version }
          { d with trial := k + 1, tries := 0 }).updBay
          fun b => { b with
            stg := { b.stg with state := 3 }
            trialFrom := match b.trialFrom with
              | some n => some n
              | none => some b.stSeq }
      else
        ((s.writeDir fun d => d.setState k 3).updBay
          fun b => { b with stg := { b.stg with state := 0 } }).bootLog 0xFFFFFFFF 2 k

/-! ### The choice of the slot (R368) -/

/-- Steps 1 to 3 of R368: the directory after them, and the slot chosen. -/
def State.chooseSlot (s : State) : State × Nat :=
  let d := s.bay.dir
  if d.trial ≠ 0 ∧ d.tries < 3 then
    (s.writeDir fun d => { d with tries := d.tries + 1 }, d.trial - 1)
  else if d.trial ≠ 0 then
    (s.writeDir fun d => { d.setState (d.trial - 1) 3 with trial := 0 }, d.active)
  else (s, d.active)

/-- The slot that starts: the chosen one where it passes, else the other where it is `VALID` and
passes. -/
def State.startSlot (b : BootIn) (k : Nat) (s : State) : Option Nat :=
  if s.slotPasses b k then some k
  else if s.bay.slotState (1 - k) = 1 ∧ s.slotPasses b (1 - k) then some (1 - k)
  else none

/-! ### The settings store at a start (R370 to R376) -/

/-- The settings of an interface, without its running state. -/
def Ifc.settings (i : Ifc) : Ifc :=
  { i with
    link := false, pausedUntil := [], xoffSent := 0, txSas := [], rxSas := []
    bfd := i.bfd.map fun e => (e.1, { txUs := e.2.txUs, rxUs := e.2.rxUs, mult := e.2.mult,
                                      peer := e.2.peer }) }

/-- The settings of a port. A port starts in service in its kept mode.
[DEDUCED: notes/assumptions/17.md] -/
def Port.settings (p : Port) : Port :=
  { mode := p.mode, drain := .inService, laneFallback := p.laneFallback,
    laneBerLimit := p.laneBerLimit, fallbackTimeout := p.fallbackTimeout,
    drainTimeout := p.drainTimeout }

/-- The settings of a partition; its token starts at 1. -/
def Partition.settings (p : Partition) : Partition :=
  { enabled := p.enabled, slotMin := p.slotMin, slotMax := p.slotMax,
    remoteRateMax := p.remoteRateMax, maxSessions := p.maxSessions,
    kernelMaxRun := p.kernelMaxRun, memRanges := p.memRanges, rights := p.rights }

/-- A ring recreated with every index at 0 (R374). -/
def Ring.settings (r : Ring) : Ring :=
  { rtype := r.rtype, owner := r.owner, esize := r.esize, enabled := r.enabled, pinned := r.pinned,
    fullPolicy := r.fullPolicy, log2Entries := r.log2Entries, baseAddr := r.baseAddr,
    cqRing := r.cqRing, inflightMax := r.inflightMax, fullTimeout := r.fullTimeout,
    limitIdx := if hostProduced r.rtype then BitVec.ofNat 32 r.size else 0 }

/-- The settings of a pipeline with its rule rows. -/
def Pipeline.settings (p : Pipeline) : Pipeline :=
  { flowRecords := p.flowRecords, flowAge := p.flowAge, flowSym := p.flowSym,
    flowBase := p.flowBase, flowSet := p.flowSet, warmPkts := p.warmPkts, rsModel := p.rsModel, rules := p.rules,
    deadRows := p.deadRows }

/-- The settings of the classifier with its static MAC entries. -/
def Classifier.settings (c : Classifier) : Classifier :=
  { c with
    ifcs := c.ifcs.map fun e => (e.1, { e.2 with learnTick := 0, learnCount := 0 })
    pipes := c.pipes.map fun e => (e.1, e.2.settings)
    macs := c.macs.filter fun e => e.2.isStatic
    trie4 := [], trie6 := [], nodes := [], badTrie := [], badMacs := [], macOld := [], busy := []
    freed := [] }

/-- The settings of egress. A kept gate list is set again as a pending one (R374, R179). -/
def Egress.settings (e : Egress) : Egress :=
  { queues := e.queues.map fun q => (q.1,
      { weight := q.2.weight, qLimit := q.2.qLimit, egThresh := q.2.egThresh,
        ecnThresh := q.2.ecnThresh, maxSojourn := q.2.maxSojourn, shapeRate := q.2.shapeRate,
        shapeBurst := q.2.shapeBurst }),
    policers := e.policers.map fun p => (p.1,
      { p.2 with cTokens := p.2.cbs * 8000, pTokens := p.2.pbs * 8000, tick := 0 }),
    gates := e.gates.map fun g => (g.1,
      { pending := match g.2.pending with
          | some l => some l
          | none => g.2.running }),
    strictCount := e.strictCount, holdMax := e.holdMax }

/-- A feature table's definition, without its generations. -/
def FTable.settings (t : FTable) : FTable := { t with gens := [] }

/-- The settings of parsing and spreading. -/
def Parser.settings (p : Parser) : Parser :=
  { pqThresh := p.pqThresh, cycleMax := p.cycleMax, slots := p.slots, ifcSlot := p.ifcSlot,
    spread := p.spread }

/-- The settings of the fabric and the kept address. -/
def Fabric.settings (f : Fabric) : Fabric :=
  { sysId := f.sysId, keys := f.keys, keyTx := f.keyTx, port := f.port, sportBase := f.sportBase,
    paths := f.paths, ifcs := f.ifcs, mtu := f.mtu, rto := f.rto, seeds := f.seeds,
    eligible := f.eligible, prio := f.prio, staticAddr := f.staticAddr, addr := f.addr,
    left := f.left, assigned := f.assigned, watch := [] }

/-- One kept value applied. -/
def State.applySetting (v : StVal) (s : State) : State :=
  match v with
  | .remap m active => s.updComp fun c => { c with map := m, activeLogical := active }
  | .pages retired => s.updMem fun m => { m with
      regions := retired.foldl (fun t e => tset t e.1
        { retired := e.2, poolLeft := 122880 - e.2.length }) m.regions }
  | .bootCount n => s.updFab fun f => { f with bootCount := n }
  | .rows spent => s.updMem fun m => { m with sramSpares := spent }
  | .fabric f => s.updFab fun g => { f.settings with bootCount := g.bootCount }
  | .partition p v => s.updParts fun t => tset t p v.settings
  | .clusters v => s.updComp fun c => { c with
      clusters := v.foldl (fun t e => tup t e.1 {} fun x =>
        { x with owner := e.2.1, clkCap := e.2.2 }) c.clusters }
  | .ports i p => { s with ifcs := i.map fun e => (e.1, e.2.settings)
                           ports := p.map fun e => (e.1, e.2.settings) }
  | .device lt re ho po idle cap fl sc =>
    let s := ((s.updPkg fun p => { p with
        capP0 := cap, floorMhz := fl
        bypass := { p.bypass with linkTimeout := lt, retry := re, hold := ho } }).updOuv
      fun o => { o with port := po, idleTimeout := idle }).updMem
      fun m => { m with scrubPeriod := sc }
    if s.pkg.envelope < 900 then s.alert 1 else s
  | .ptp w => s.updWall fun x => { x with
      ptpPort := w.ptpPort, ptpTransport := w.ptpTransport, ptpDomain := w.ptpDomain
      ptpStepLimit := w.ptpStepLimit }
  | .parser p => s.updParser fun _ => p.settings
  | .cls c => s.updCls fun _ => c.settings
  | .egress e => s.updEg fun _ => e.settings
  | .tables t => s.updModels fun m => { m with tables := t.map fun e => (e.1, e.2.settings) }
  | .rings r => s.updRings fun x => { x with ctx := r.map fun e => (e.1, e.2.settings) }
  | .keys k => s.updOuv fun o => { o with psk := k }
  | .sealedKeys _ _ => s

/-- A group's record is a removal (R371). -/
def StRec.applies (r : StRec) : Bool := !r.removal

/-- Whether a group applies in the start's mode (R370). -/
def groupApplies (mode group : Nat) : Bool := mode == 0 || decide (1 ≤ group ∧ group ≤ 4)

/-- One group of the store taken at a start, with the record that a newer, unknown format or a bad
record writes (R375, R376). A value converted from an older format is appended in the image's. -/
def State.takeGroup (mode : Nat) (m : Mem) (e : Nat × Nat) (s : State) : State :=
  if !groupApplies mode e.1 then s
  else
    let fmt := imageFmt m e.1
    let all := s.bay.store.filter fun r => r.value.group == e.1 && r.value.scope == e.2
    let newer := all.any fun r => decide (fmt < r.fmt) && !r.bad
    match usedRecord s.bay.store fmt e.1 e.2 with
    | some r =>
      let v := s.openVal r.value
      let s := if r.applies then s.applySetting v else s
      if r.fmt < fmt ∧ s.bay.fits r.len then s.appendAs r.removal true v fmt r.len else s
    | none => if newer then s.record 0x0051 4 0 0xFF 1 [(8, 1), (16, e.1)] else s

/-- A rollback taken back (R375): once no slot is on trial and the image on trial has not been confirmed, the changes
made since the trial began are lost where the image that starts would use them, and the groups that lost some are
counted. Those that every start keeps stay. [DEDUCED: notes/assumptions/157.md] -/
def State.revertTrial (s : State) : State :=
  match s.bay.trialFrom with
  | none => s
  | some n =>
    if s.bay.dir.trial ≠ 0 ∨ s.bay.runMode ≠ 0 then s
    else
      let m := s.bay.slotMem s.bay.runSlot
      let since := s.bay.store.filter fun r => decide (n < r.seq) && !r.value.always
      s.updBay fun b => { b with
        trialFrom := none
        reverted := (((since.filter fun r => !r.conv).map fun r => r.value.group).eraseDups).length
        store := b.store.filter fun r => !(decide (n < r.seq) && !r.value.always &&
          decide (r.fmt ≤ imageFmt m r.value.group)) }

/-- The bad records of the store counted and written (R376). -/
def State.badRecords (s : State) : State :=
  (s.bay.store.filter fun r => r.bad).foldl
    (fun s r => ((s.tally Ctr.settingsBad).updBay fun b =>
      { b with settingsBad := b.settingsBad + 1 }).record 0x0051 4 0 0xFF 1
        [(8, 0), (16, r.value.group)]) s

/-! ### Memory and cores at a start -/

/-- The retired pages as the store keeps them (R337). -/
def State.pagesVal (s : State) : StVal := .pages (s.mem.regions.map fun e => (e.1, e.2.retired))

/-- The rows of a region that repair is applied to at a start: of the rows of retired pages that have not been repaired,
in order of retirement, the first in each bank (R337). -/
def rowsToRepair (g : Nat) (r : Region) (done : List (Nat × Nat × Nat)) : List (Nat × Nat) :=
  let bank (x : Nat × Nat) : Nat × Nat := (x.1, Config.bankOf g x.1 x.2)
  ((r.retired.flatMap fun p => pageRows (p.1 % regionSize)).eraseDups.filter fun x => !done.contains (g, x)).foldl
    (fun l x => if l.any fun y => bank y == bank x then l else l ++ [x]) []

/-- The pages of a region whose every row has been repaired are back in service (R337). -/
def State.releasePages (g : Nat) (s : State) : State :=
  let whole (p : Nat × Nat) : Bool := (pageRows (p.1 % regionSize)).all fun x => s.mem.repaired.contains (g, x)
  s.modRegion g fun r =>
    let left := r.retired.filter fun p => !whole p
    { r with retired := left, poolLeft := r.poolLeft + (r.retired.length - left.length) }

/-- One row repaired, where the repair succeeds, which is open (R337). [DESIGN CHOICE: notes/assumptions/18.md] -/
def State.repairRow (g : Nat) (x : Nat × Nat) (s : State) : State :=
  let ok := Config.freeBool s.freeCount
  let s := { s with freeCount := s.freeCount + 1 }
  if ok then
    ((s.updMem fun m => { m with repaired := m.repaired ++ [(g, x)] }).releasePages g).count Ctr.pprDone g |>.record
      0x0011 2 g 0xFF 1 [(8, 3), (48, g * regionSize + (x.2 * 3 * 4 + x.1) * 512)]
  else s

/-- Post-package repair of the rows that hold retired pages (R337). -/
def State.repairPages (s : State) : State :=
  s.mem.regions.foldl (fun s e => (rowsToRepair e.1 e.2 s.mem.repaired).foldl (fun s x => s.repairRow e.1 x) s) s

/-- The remap table from the fuses (R13): the enabled cores that are no spares in ascending order,
then the spares. [DESIGN CHOICE: notes/assumptions/8.md; DEDUCED: notes/assumptions/9.md] -/
def fuseMap (f : Fuses) : Tab MapEntry × Nat :=
  let active := if f.grade4000 then 4000 else 3600
  let work := ((List.range 4096).filter fun p =>
    !f.fusedOff.contains p && !f.spares.contains p).take active
  let spares := f.spares.filter fun p => !f.fusedOff.contains p
  (((work.zipIdx.map fun e => (e.2, ({ state := 1, phys := e.1, home := e.1 } : MapEntry))) ++
    (spares.zipIdx.map fun e => (active + e.2, ({ state := 4, phys := e.1 } : MapEntry)))), active)

/-- The remap table built at a start: from the fuses where no copy is kept (R13, R16).
[DEDUCED: notes/assumptions/9.md] -/
def State.buildMap (s : State) : State :=
  if s.comp.map.isEmpty then
    s.updComp fun c => { c with map := (fuseMap s.fuses).1, activeLogical := (fuseMap s.fuses).2 }
  else s

/-! ### The start (R367) -/

/-- The device tick at which a step of the start is typically over (R367): cold, and warm, which
skips fuse sensing and reuses training (R34, R378). [DESIGN CHOICE: notes/assumptions/16.md] -/
def stepTick (cold : Bool) (step : Nat) : Nat :=
  let c := ([0, 0, 1000000, 5000000, 145000000, 20000000, 150000000, 155000000, 750000000,
    750000000, 800000000, 1100000000, 1150000000, 1500000000, 3000000000, 3000000000][step]?).getD
      3000000000
  if cold ∨ step < 8 then c else c - 515000000

/-- The first `n` bytes of a list, with zeros after its end. -/
def fixLen (n : Nat) (l : List Byte) : List Byte := (l ++ List.replicate (n - l.length) 0).take n

/-- The boot key record of a start (R74). -/
def bootRecord (b : BootIn) (serial : Nat) : List Byte :=
  beBytes 2 1 ++ List.replicate 6 0 ++ fixLen 1568 b.ek ++ beBytes 32 b.nonce.toNat ++
    beBytes 16 serial ++ fixLen 49856 b.sig

/-- Recovery mode entered (R368, R370): only the ROM runs. `result` is `b_result`. -/
def State.romRecovery (result : Nat) (b : BootIn) (s : State) : State :=
  let s := s.updOuv fun o => { o with
    bootNonce := b.nonce, keyRecord := bootRecord b s.fuses.serial }
  let s := s.updPkg fun p => { p with devState := .recovery }
  let s := s.updBay fun b => { b with runSlot := 3, runMode := 3 }
  let s := s.updParts fun t => tup t 0 {} fun p => { p with enabled := true }
  let s := match (s.bay.store.filter fun r => r.value.group == 16 && !r.bad && r.applies).getLast? with
    | some r => s.applySetting (s.openVal r.value)
    | none => s
  (s.modIfc 4 fun i => { i with link := true }).bootLog 0xFFFFFFFF result 3

/-- A start of a `VALID` slot that fails raises `fail_run`; one of the trial slot counts in `tries`
only (R368). -/
def State.startFailed (s : State) : State :=
  if s.bay.dir.trial = s.bay.runSlot + 1 then s
  else s.writeDir fun d => { d with failRun := min 7 (d.failRun + 1) }

/-! ### The self-tests of a start (R431, R434) -/

/-- The `CORE` record (R450): 0 retired, 1 lost, 2 spare failed test. -/
def State.coreRecord (unit logical old new sub : Nat) (s : State) : State :=
  s.record 0x0020 0 unit 0xFF 1 [(12, logical), (12, old), (12, new), (8, sub)]

/-- The remap table's kept value. -/
def State.remapVal (s : State) : StVal := .remap s.comp.map s.comp.activeLogical

/-- A remap entry changed. -/
def State.modMap (i : Nat) (f : MapEntry → MapEntry) (s : State) : State :=
  s.updComp fun c => { c with map := tmod c.map i f }

/-- The index positions that hold a core in a state. -/
def State.positions (state : Nat) (s : State) : List (Nat × MapEntry) :=
  s.comp.map.filter fun e => e.2.state == state

/-- An idle spare that fails its test takes state 6 (R434). -/
def State.spareFailed (i core : Nat) (s : State) : State :=
  let s := (s.modMap i fun e => { e with state := 6 }).count Ctr.spareTestFail (coreRegion core)
  let s := s.coreRecord core i core 0 2
  s.keep s.remapVal

/-- A core that fails its self-test at a start: an idle spare is never brought in, and a core that serves
is to be retired (R431, R434). -/
def State.selfTestFailed (core : Nat) (s : State) : State :=
  match (s.positions 4).find? fun e => e.2.phys == core with
  | some (i, _) => s.spareFailed i core
  | none => if (s.logicalEntry core).isSome then s.modCore core fun c => { c with retiring := true } else s

/-! ### The steps of a start (R367) -/

/-- A device reset is due: bypass low; it is applied within 1 ms (R441). -/
def State.orderReset (after : Nat) (s : State) : State :=
  s.bypassLow.updBay fun b => { b with
    resetDue := some (match b.resetDue with
      | some d => min d (s.tick + after)
      | none => s.tick + after) }

/-- Some groups of the store taken, in group order. -/
def State.takeGroups (want : Nat → Bool) (s : State) : State :=
  ((storeKeys s.bay.store).filter fun e => want e.1).foldl
    (fun s e => s.takeGroup s.bay.runMode (s.bay.slotMem s.bay.runSlot) e) s

/-- Sections loaded from the slot that starts (R366, R369). -/
def State.loadSections (types : List Nat) (s : State) : State :=
  s.updBay fun b => { b with loaded := types.foldl (fun t ty => tset t ty b.runSlot) b.loaded }

/-- The step of a start in which an island locks to the beacon: the X die's at step 6, the memory controllers at step
8, the clusters and the fabrics of the C dies at step 11. [DESIGN CHOICE: notes/assumptions/123.md] -/
def lockStep (i : Nat) : Nat := if i < 256 then 11 else if i < 258 then 6 else if i < 262 then 11 else if i < 278 then 8 else 6

/-- The islands that have locked to the beacon by a step hold the master's tick (R19). -/
def State.lockIslands (n : Nat) (s : State) : State :=
  let ids := (List.range islandCount).filter fun i => decide (lockStep i ≤ n)
  { s with islandTick := ids.map fun i => (i, (s.tick, s.tick)) }

/-- Step 6: Isain's cores run. -/
def State.startIsain (s : State) : State :=
  let s := ((s.updPkg fun p => { p with devState := .boot }).loadSections [1, 2]).lockIslands 6
  let s := s.updParts fun t => tup t 0 {} fun p => { p with enabled := true }
  s.updBay fun x => { x with watchdogDue := some (s.tick + 20000000000) }

/-- Step 8: memory is trained, and rows are repaired. A channel that fails isolates its region (R333).
[DESIGN CHOICE: notes/assumptions/158.md] -/
def State.trainMemory (bad : List (Nat × Nat)) (s : State) : State :=
  let s := (s.loadSections [3]).lockIslands 8
  let s := bad.foldl (fun s e => s.modRegion e.1 fun r => { r with isolated := true }) s
  let before := s.pagesVal
  let s := s.repairPages
  if s.pagesVal = before then s else s.keep s.pagesVal

/-- Lanes of a die-to-die link that fail training are left out, under the limit of R332 (R435). -/
def State.leaveLanes (bad : List (Nat × Nat)) (s : State) : State :=
  bad.foldl (fun s e =>
    let s := if (s.link e.1).lanesOut.contains e.2 ∨ linkLanes e.1 ≤ e.2 then s
      else s.modLink e.1 fun x => { x with lanesOut := x.lanesOut ++ [e.2] }
    if linkLanes e.1 < 4 * (s.link e.1).lanesOut.length then s.orderReset 1000000 else s) s

/-- Step 11: the remap table, the C dies and their cores. -/
def State.startDies (b : BootIn) (s : State) : State :=
  let s := ((s.loadSections [4]).lockIslands 11).buildMap
  (b.coresBad.foldl (fun s p => s.selfTestFailed p) s).leaveLanes b.lanesBad

/-- Step 13: the line ports train in their kept modes. -/
def State.startPorts (s : State) : State :=
  ((s.loadSections [5]).takeGroups (· == 8)).updPorts fun t => (List.range 2).foldl
    (fun t p => tup t p {} fun x => { x with drain := .inService }) t

/-- Step 14: the settings are applied. -/
def State.startSettings (s : State) : State :=
  let mode := s.bay.runMode
  let s := s.takeGroups fun g => decide (g ≠ 1 ∧ g ≠ 2 ∧ g ≠ 8)
  let s := s.updFab fun f => { f with bootCount := f.bootCount + 1 }
  let s := s.updBay fun b => { b with unsaved := b.unsaved ++ [.bootCount s.fab.bootCount] }
  let s := s.lowAlert.setRails
  let s := if mode = 2 then s.record 0x0051 4 0 0xFF 1 [(8, 2), (16, 0)] else s
  let lost := s.bay.reverted
  let s := s.updBay fun b => { b with step14 := true, reverted := 0 }
  if lost = 0 then s
  else s.recordEvent 0x0051 4 0 0xFF 1 [(8, 3), (16, lost)] 0 0x0022 [(16, lost)]

/-- Step 15: the fast path runs (R367, R368). Every island has locked to the beacon by then (R19).
[DEDUCED: notes/assumptions/17.md; DESIGN CHOICE: notes/assumptions/123.md] -/
def State.startDone (s : State) : State :=
  let s := s.lockIslands 15
  let onTrial := s.bay.dir.trial == s.bay.runSlot + 1
  let s := if s.bay.dir.failRun = 0 ∧ !onTrial then s
    else s.writeDir fun d => { d with failRun := 0, tries := if onTrial then 0 else d.tries }
  let s := s.updPkg fun p => { p with devState := .running }
  let s := s.updBay fun b => { b with
    step14 := true, step15 := true, watchdogDue := none, runningSince := some s.tick }
  let s := (s.bootLog (s.tick / 1000000) 0 s.bay.runSlot).tryArm
  if s.obs.freezeLow then s.stopIslands 1 else s

/-- What one step of a start does, from step 6 on; steps 9 and 12, zeroing, change nothing that is held, since memory
reads as 0 from the reset on (R327). -/
def State.startStep (b : BootIn) (n : Nat) (s : State) : State :=
  match n with
  | 6 => s.startIsain
  | 7 => s.takeGroups fun g => g == 1 || g == 2
  | 8 => s.trainMemory b.trainBad
  | 10 => ((s.loadSections [6, 7]).revertTrial).badRecords
  | 11 => s.startDies b
  | 13 => s.startPorts
  | 14 => s.startSettings
  | 15 => s.startDone
  | _ => s

/-- A section that Isain loads fails its digest: the security core writes the boot record and resets the device (R368). -/
def State.loadFailed (k : Nat) (s : State) : State :=
  let s := s.startFailed
  (s.updBay fun x => { x with resetDue := some s.tick }).bootLog 0xFFFFFFFF 2 k

/-- Step 5: the service port's link, and what the ROM serves on it (R74). -/
def State.startLink (b : BootIn) (s : State) : State :=
  (s.updOuv fun o => { o with bootNonce := b.nonce, keyRecord := bootRecord b s.fuses.serial }).modIfc 4
    fun i => { i with link := true }

/-- The start after step 4 has passed, up to the last step it reaches; `late` is how far a copy has put it behind
(R378). A failed section digest, found at step 8 at the latest, and a start that does not reach step 15 wait for the
security core's reset (R368). [DESIGN CHOICE: notes/assumptions/16.md] -/
def State.startRun (cold : Bool) (late : Nat) (b : BootIn) (k : Nat) (s : State) : State :=
  let s := (s.updBay fun x => { x with runSlot := k }).startLink b
  if b.last < 6 then { s with tick := late + stepTick cold b.last }
  else
    let bad := s.loadBad b k
    let top := if bad then min b.last 7 else b.last
    let s := (List.range 16).foldl (fun s n =>
      if 6 ≤ n ∧ n ≤ top then ({ s with tick := late + stepTick cold n }).startStep b n else s) s
    if bad ∧ 8 ≤ b.last then ({ s with tick := late + stepTick cold 8 }).loadFailed k else s

/-- The half of the store in force at a start (R371): where its header is not valid, the other one, and an empty store
where that is erased. -/
def State.readStore (b : BootIn) (s : State) : State :=
  if !b.headBad then s
  else s.updBay fun x => match x.other with
    | some (h, l) => { x with half := 1 - x.half, hSeq := h, store := l, other := none }
    | none => { x with store := [] }

/-- A start from step 3 on, its directory read: the mode, the copy of a staged image, the slot and the steps that
follow (R367, R368, R370, R413). -/
def State.startFrom (cold : Bool) (b : BootIn) (s : State) : State :=
  let mode := if 3 ≤ s.bay.dir.failRun then 2 else s.bay.dir.nextMode
  let s := s.updBay fun x => { x with runMode := mode }
  let s := if s.bay.dir.nextMode = 0 then s else s.writeDir fun d => { d with nextMode := 0 }
  let late := s.copyNs
  let s := s.copyStaged (if s.bay.stg.target = 0 then b.okA else b.okB)
  let p := s.chooseSlot
  if b.last = 3 then { p.1 with tick := late + stepTick cold 3 }
  else if b.last = 5 then { p.1.startLink b with tick := late + stepTick cold 5 }
  else match p.1.startSlot b p.2 with
    | some k => p.1.startRun cold late b k
    | none => (({ p.1 with tick := late + stepTick cold 4 }).alert 4).romRecovery 3 b

/-- A start from its beginning, up to the last step it reaches (R365, R367).
[DESIGN CHOICE: notes/assumptions/16.md] -/
def State.start (b : BootIn) (s : State) : State :=
  let cold := s.pkg.bootCold
  let s := { s with tick := 0 }
  let s := s.updPkg fun p => { p with
    devState := .rom, halt := .none, sysClock := true, xMv := s.fuses.coreXMv }
  if b.last < 3 then { s with tick := stepTick cold b.last }
  else
    let s := s.readStore b
    if b.recovery then ({ s with tick := stepTick cold 5 }).romRecovery 4 b
    else match s.readDir b with
      | none => (({ s with tick := stepTick cold 5 }).alert 4).romRecovery 3 b
      | some s => s.startFrom cold b

/-! ### The device reset (R441, R442) -/

/-- The records that wait for the log region are written (R441, R453). -/
def State.copyLog (s : State) : State :=
  let due := s.obs.rm.filter fun r => r.kept && !r.copied
  (s.updBay fun b => b.logPut (due.map .inr)).updObs fun o => { o with
    rm := o.rm.map fun r => if r.kept then { r with copied := true } else r }

/-- A device reset applied: with the count at 3 the device stops for a power cycle instead
(R442). -/
def State.deviceReset (b : BootIn) (s : State) : State :=
  let s := s.bypassLow
  if 3 ≤ s.bay.devResetRun then
    let s := (s.record 0x0050 4 0 0xFF 3 [(8, 4), (8, 0), (32, s.bay.devResetRun)]).copyLog
    let s := s.portsIdle.alert 4
    (s.updPkg fun p => { p with halt := .cycleNeeded, devState := .stopped }).updBay
      fun x => { x with step15 := false, resetDue := none }
  else
    let n := s.bay.devResetRun + 1
    let s := ((s.tally Ctr.devResetIsain).record 0x0050 4 0 0xFF 2
      [(8, 3), (8, 0), (32, n)]).copyLog.lose
    ((s.updPkg fun p => { p with lastReset := 4, bootCold := false }).updBay
      fun x => { x with devResetRun := n }).start b

/-! ### The rows -/

/-- `PWRGD_RISE` (R30): the thermal trip is armed; a rise alone restarts nothing (R32). -/
def execPwrgdRise (t : Nat) (s : State) : Host.Outcome State Fault Refusal :=
  s.happen t (fun _ => true) fun s => s.updPkg fun p => { p with pwrgd := true, tripArmed := true }

/-- `PWRGD_FALL` (R32): ports idle, bypass low, every island stops, all state is lost. -/
def execPwrgdFall (t : Nat) (s : State) : Host.Outcome State Fault Refusal :=
  s.happen t (fun _ => true) fun s =>
    (s.lose.updPkg fun p => { p with
      pwrgd := false, tripArmed := false, thermtrip := false, halt := .powerLost
      lastReset := 1, bootCold := true }).updBay fun b => { b with devResetRun := 0 }

/-- `COLD_RST_N_FALL` (R34): a cold reset takes effect. A pulse shorter than 2 µs is ignored (R35); the pin
is high again after it. [DESIGN CHOICE: notes/assumptions/124.md] -/
def execColdRstNFall (t lowNs : Nat) (s : State) : Host.Outcome State Fault Refusal :=
  s.happen t (fun s => !s.pkg.coldLow && decide (2000 ≤ lowNs)) fun s =>
    s.coldReset.updPkg fun p => { p with
      coldLow := true, lastReset := if p.halt = .powerLost ∨ !p.pwrgd then 1 else 3 }

/-- `COLD_RST_N_RISE` (R367): the start begins, unless power, the other reset or a halt that only
the board ends holds the device. Seen low and then high with `PWRGD` high, it ends the hold of a power
loss (R32), whichever reset input is the last to rise. -/
def execColdRstNRise (t : Nat) (b : BootIn) (s : State) : Host.Outcome State Fault Refusal :=
  s.happen t (fun s => s.pkg.coldLow) fun s =>
    let s := s.updPkg fun p => { p with
      coldLow := false
      halt := if p.pwrgd && p.halt == .powerLost then .none else p.halt }
    if s.pkg.pwrgd && !s.pkg.warmLow && s.pkg.halt == .none then s.start b else s

/-- `WARM_RST_N_FALL` (R34): a warm reset takes effect. A pulse shorter than 2 µs is ignored (R35).
[DESIGN CHOICE: notes/assumptions/124.md] -/
def execWarmRstNFall (t lowNs : Nat) (s : State) : Host.Outcome State Fault Refusal :=
  s.happen t (fun s => !s.pkg.warmLow && decide (2000 ≤ lowNs)) fun s =>
    s.warmReset.updPkg fun p => { p with
      warmLow := true, lastReset := if p.coldLow then p.lastReset else 2 }

/-- `WARM_RST_N_RISE` (R367): a warm start begins; a cold one where R35 says so. -/
def execWarmRstNRise (t : Nat) (b : BootIn) (s : State) : Host.Outcome State Fault Refusal :=
  s.happen t (fun s => s.pkg.warmLow) fun s =>
    let s := s.updPkg fun p => { p with warmLow := false }
    if s.pkg.pwrgd && !s.pkg.coldLow && s.pkg.halt == .none then s.start b else s

/-- `START_WATCHDOG_EXPIRY` (R368): the start has not reached step 15 within 20 s of step 6; the
security core writes the boot record and resets the device. -/
def execStartWatchdogExpiry (t : Nat) (b : BootIn) (s : State) :
    Host.Outcome State Fault Refusal :=
  s.happen t
    (fun s => s.alive && match s.bay.watchdogDue with
      | some d => decide (d ≤ s.tick)
      | none => false)
    fun s => (s.startFailed.bootLog 0xFFFFFFFF 1 s.bay.runSlot).deviceReset b

/-- `DEVICE_RESET_APPLY` (R389, R441): a device reset that is due is applied. -/
def execDeviceResetApply (t : Nat) (b : BootIn) (s : State) : Host.Outcome State Fault Refusal :=
  s.happen t
    (fun s => s.alive && match s.bay.resetDue with
      | some d => decide (d ≤ s.tick)
      | none => false)
    fun s => s.deviceReset b

/-- `DEV_RESET_RUN_CLEAR` (R442): 10 min running clear `dev_reset_run`. -/
def execDevResetRunClear (t : Nat) (s : State) : Host.Outcome State Fault Refusal :=
  s.happen t
    (fun s => s.running && match s.bay.runningSince with
      | some d => decide (d + 600000000000 ≤ s.tick)
      | none => false)
    fun s => s.updBay fun b => { b with devResetRun := 0 }

end Sys2Proof.Machine
end

