-- ==== Sys2Proof/Machine/Power.lean ====
section
/-! DEFINITION. Power, thermal limits, clocks, pins, SMBus and JTAG (R19, R27 to R50). -/

namespace Sys2Proof.Machine

/-! ### The envelope and the governor (R42 to R44) -/

/-- A change of the envelope: recorded, and alert bit 1 while it is below 900 W (R50, R450). -/
def State.envelopeChanged (old : Nat) (s : State) : State :=
  let e := s.pkg.envelope
  let s := if e = old then s else s.record 0x0041 4 0 0xFF 1 [(8, 2), (32, e)]
  if e < 900 then s.alert 1 else s

/-- A cluster's ceiling `n` steps of 50 MHz down, to a floor. [DESIGN CHOICE: notes/assumptions/7.md] -/
def Cluster.down (n floor : Nat) (c : Cluster) : Cluster :=
  { c with ceiling := max floor (c.ceiling - 50 * n) }

/-- A cluster's ceiling one step up. [DESIGN CHOICE: notes/assumptions/7.md] -/
def Cluster.up (c : Cluster) : Cluster := { c with ceiling := min 3300 (c.ceiling + 50) }

/-- The floor-breach record and alert (R44). -/
def State.floorBreach (s : State) : State :=
  (s.record 0x0041 4 0 0xFF 1 [(8, 1), (32, s.pkg.floorMhz)]).alert 2

/-- The average of a list of numbers, rounded up; 0 for none. After a start it is taken over the samples
there are. [DESIGN CHOICE: notes/assumptions/125.md] -/
def average (l : List Nat) : Nat := if l.isEmpty then 0 else (l.sum + l.length - 1) / l.length

/-- A change made in each of the clusters of the device. -/
def State.mapClusters (f : Cluster → Cluster) (s : State) : State :=
  s.updComp fun c => { c with
    clusters := (List.range nClusters).map fun k => (k, f (tgetD c.clusters k {})) }

/-- The factor by which a busy unit's power grows with its clock, f × V(f)² (R44), times a constant. -/
def powerScale (f : Nat) : Nat := f * (550 * 2300 + 300 * (f - 1000)) ^ 2

/-- The power that does not follow the clocks: the base and the memory at full bandwidth (R44). -/
def fixedW : Nat := 375

/-- The least number of steps down from a clock that brings a power within the envelope, by R44's factor;
46 steps reach 1.0 GHz from any clock. [DESIGN CHOICE: notes/assumptions/7.md] -/
def stepsDown (power envelope f : Nat) : Nat :=
  ((List.range 46).find? fun n =>
    decide ((power - fixedW) * powerScale (max 1000 (f - 50 * n)) ≤
      (envelope - fixedW) * powerScale f)).getD 46

/-- A step up from a clock stays within the envelope even if all power grew with it.
[DESIGN CHOICE: notes/assumptions/7.md] -/
def mayRise (power envelope f : Nat) : Bool :=
  decide (power * powerScale (min 3300 (f + 50)) ≤ envelope * powerScale f)

/-- Every partition-owned cluster is at 1.0 GHz (R44). -/
def State.partitionsLow (s : State) : Bool :=
  s.comp.clusters.all fun e => !e.2.ofPartition || decide (e.2.ceiling ≤ 1000)

/-- The highest ceiling of the clusters that some owner has; 3.3 GHz with none owned. -/
def State.topCeiling (s : State) : Nat :=
  match (s.comp.clusters.filter fun e => e.2.ofPartition || e.2.ofPacketPath).map (·.2.ceiling) with
  | [] => 3300
  | l => maxOf l

/-- A packet-path cluster lies below the floor (R44). -/
def State.belowFloor (s : State) : Bool :=
  s.comp.clusters.any fun e => e.2.ofPacketPath && decide (min e.2.ceiling e.2.thermal < s.pkg.floorMhz)

/-- The governor's step (R42 to R45): over the envelope, the ceilings of partition-owned clusters
fall together and the packet path holds its floor, until every partition-owned cluster stands at
1.0 GHz. Under it, the ceilings rise by a step that fits (notes/assumptions/7.md). -/
def State.govern (s : State) : State :=
  let power := average (lastN 10 s.pkg.powerSamples)
  let env := s.pkg.envelope
  if env < power then
    let low := s.partitionsLow
    let n := stepsDown power env s.topCeiling
    let breach := low && s.comp.clusters.any fun e => e.2.ofPacketPath && decide (1000 < e.2.ceiling) &&
      decide (max 1000 (e.2.ceiling - 50 * n) < s.pkg.floorMhz)
    let s' := s.mapClusters fun c =>
      if c.ofPacketPath then c.down n (if low then 1000 else min c.ceiling s.pkg.floorMhz)
      else c.down n 1000
    if breach then s'.floorBreach else s'
  else if mayRise power env s.topCeiling then s.mapClusters Cluster.up
  else s

/-! ### Rows: power and heat -/

/-- `POWER_SAMPLE` (R43): Bay's sample every 10 µs; `pkg_power` is the 10 ms average (R50).
[DESIGN CHOICE: notes/assumptions/116.md] -/
def execPowerSample (t watts : Nat) (tjMax : Int) (s : State) : Host.Outcome State Fault Refusal :=
  s.happen t (fun s => s.alive) fun s => s.updPkg fun p => { p with
    powerSamples := lastN 1000 (p.powerSamples ++ [watts])
    pkgPower := average (lastN 1000 (p.powerSamples ++ [watts]))
    tjMax := tjMax }

/-- `CEILING_UPDATE` (R43, R44): every 100 µs the governor sets the ceilings, and the rails follow. A droop
response ends here. [DESIGN CHOICE: notes/assumptions/122.md] -/
def execCeilingUpdate (t : Nat) (s : State) : Host.Outcome State Fault Refusal :=
  s.happen t (fun s => s.running) fun s =>
    (s.govern.mapClusters fun c => { c with droop := false }).setRails

/-- `CLUSTER_THERMAL_STEP` (R40), without Bay, from the moment the device is out of reset: at 100 °C or more the clock falls by 50 MHz, below 98 °C the limit rises by
50 MHz; the limit has no lower bound (notes/assumptions/122.md). The rail follows (R29). A packet-path
cluster forced below the floor raises the breach (R44). [DESIGN CHOICE: notes/assumptions/116.md] -/
def execClusterThermalStep (t cluster : Nat) (tempC : Int) (s : State) :
    Host.Outcome State Fault Refusal :=
  s.happen t (fun s => s.alive && decide (cluster < nClusters)) fun s =>
    let s := s.modCluster cluster fun c => { c with
      tempC := tempC
      thermal :=
        if 100 ≤ tempC then s.clockLimit cluster - 50
        else if tempC < 98 then min 3300 (c.thermal + 50)
        else c.thermal }
    let s := s.setRails
    let c := s.cluster cluster
    if 100 ≤ tempC ∧ c.ofPacketPath ∧ c.thermal < s.pkg.floorMhz then s.floorBreach else s

/-- `X_DIE_HOT` (R40): an X-die sensor at 105 °C or more; `SMB_ALERT_N` is low while the alert bit
stands. -/
def execXDieHot (t : Nat) (tempC : Int) (s : State) : Host.Outcome State Fault Refusal :=
  s.happen t (fun s => s.alive && decide (105 ≤ tempC)) fun s =>
    (s.record 0x0041 3 4 0xFF 1 [(8, 0), (32, low 32 tempC)]).alert 0

/-- `THERMTRIP` (R41): the armed trip asserts `THERMTRIP_N`; islands stop, ports idle, bypass low,
the service port's link down (R46). -/
def execThermtrip (t : Nat) (s : State) : Host.Outcome State Fault Refusal :=
  s.happen t (fun s => s.pkg.pwrgd && s.pkg.tripArmed) fun s =>
    ((s.bypassLow.portsIdle.modIfc 4 fun i => { i with link := false }).updPkg fun p => { p with
      thermtrip := true, halt := .thermal, ppsOut := none })

/-- `VOLTAGE_DROOP` (R29): the cluster stretches its cycles until the next ceiling is set; only
durations change. [DESIGN CHOICE: notes/assumptions/122.md] -/
def execVoltageDroop (t cluster : Nat) (s : State) : Host.Outcome State Fault Refusal :=
  s.happen t (fun s => s.alive && decide (cluster < nClusters)) fun s =>
    (s.modCluster cluster fun c => { c with droop := true }).setRails

/-! ### Rows: reference clocks, time beacon, 1PPS -/

/-- `SD_REFCLK_LOSS` (R37): both line ports idle, bypass low, a Rosemary event for each port. The links of
a pair are down, so `bypass_hold` starts (R48). While the device is held, the loss alone is seen. -/
def execSdRefclkLoss (t : Nat) (s : State) : Host.Outcome State Fault Refusal :=
  s.happen t (fun s => s.pkg.sdClock) fun s =>
    let s' := s.updPkg fun p => { p with sdClock := false }
    if s.alive then
      let s' := s'.modBypass fun b => { b with
        holdDue := if b.reqHigh then some (s.tick + b.hold) else b.holdDue }
      (s'.bypassLow.portsIdle.portRecord 0 5).portRecord 2 5
    else s'

/-- `SD_REFCLK_RETURN` (R37): the links may train again; each comes up by its own row. Bypass is armed
where every condition of R47 holds again. -/
def execSdRefclkReturn (t : Nat) (s : State) : Host.Outcome State Fault Refusal :=
  s.happen t (fun s => !s.pkg.sdClock) fun s => (s.updPkg fun p => { p with sdClock := true }).tryArm

/-- `SYS_REFCLK_LOSS` (R37): ports idle, bypass low, and the device stops until a cold reset, also where
the loss comes while `WARM_RST_N` is held.
[DESIGN CHOICE: notes/assumptions/140.md] -/
def execSysRefclkLoss (t : Nat) (s : State) : Host.Outcome State Fault Refusal :=
  s.happen t (fun s => s.pkg.pwrgd && !s.pkg.coldLow && s.pkg.halt == .none && s.pkg.sysClock) fun s =>
    s.bypassLow.portsIdle.updPkg fun p => { p with
      sysClock := false, halt := .clockLost, ppsOut := none }

/-- `TIME_BEACON` (R19): every 1 µs an island slews its copy of the tick, by the time that has passed, of
which it may have measured more. A cluster's host markers that have arrived are written.
[DESIGN CHOICE: notes/assumptions/123.md] -/
def execTimeBeacon (t island elapsed : Nat) (s : State) : Host.Outcome State Fault Refusal :=
  s.happen t (fun s => s.alive) fun s =>
    let copy := match tget s.islandTick island with
      | none => s.tick
      | some e => slew (some e.1) (max elapsed (s.tick - e.2)) s.tick
    ({ s with islandTick := tset s.islandTick island (copy, s.tick) }).takeMarks island

/-- `PPS_IN_EDGE` (R38): the edge is stamped against wall time with 8 ns resolution, where its high
time is accepted. The stamp is cut down to a multiple of 8 ns, and 0 before wall time is disciplined.
[DESIGN CHOICE: notes/assumptions/126.md] -/
def execPpsInEdge (t highNs : Nat) (s : State) : Host.Outcome State Fault Refusal :=
  s.happen t (fun s => s.alive && decide (100 ≤ highNs) && decide (highNs ≤ 900000000)) fun s =>
    s.updPkg fun p => { p with ppsIn := some ((s.wallWord s.tick) / 8 * 8) }

/-- `PPS_OUT_PULSE` (R38): at a whole wall-time second, once wall time is disciplined, the pin
rises; it stays high for 100 ms. -/
def execPpsOutPulse (t : Nat) (s : State) : Host.Outcome State Fault Refusal :=
  s.happen t
    (fun s => s.alive && match s.wallAt s.tick with
      | some w => decide (w % 1000000000 = 0)
      | none => false)
    fun s => s.updPkg fun p => { p with ppsOut := some s.tick }

/-- The level of `PPS_OUT` (R38): high for 100 ms from its last rise. -/
def State.ppsOutHigh (s : State) : Bool :=
  match s.pkg.ppsOut with
  | some k => decide (s.tick < k + 100000000)
  | none => false

/-! ### Rows: FREEZE_N, JTAG, SMBus -/

/-- `FREEZE_N_FALL` (R472): a global stop begins. -/
def execFreezeNFall (t : Nat) (s : State) : Host.Outcome State Fault Refusal :=
  s.happen t (fun s => !s.obs.freezeLow) fun s =>
    let s := s.updObs fun o => { o with freezeLow := true }
    if s.running && !s.obs.islandsStopped then s.stopIslands 1 else s

/-- `FREEZE_N_RISE` (R475): the islands resume where no stop of the K4's own remains. -/
def execFreezeNRise (t : Nat) (s : State) : Host.Outcome State Fault Refusal :=
  s.happen t (fun s => s.obs.freezeLow) fun s =>
    (s.updObs fun o => { o with freezeLow := false }).tryResume

/-- What a JTAG instruction does (R27): 0 `BYPASS`, 1 boundary scan on the lands, 2 + scope an
access in an unlocked scope. [DEDUCED: notes/assumptions/117.md] -/
def jtagAct (p : Package) (boundary : Bool) (scope : Nat) : Nat :=
  if boundary then (if p.coldLow then 1 else 0)
  else if p.jtagScopes.testBit scope then 2 + scope else 0

/-- `JTAG_INSTRUCTION` (R27): boundary scan acts only while `COLD_RST_N` is low, any other access
only in an unlocked scope (R428); elsewhere the instruction is `BYPASS`. Nothing acts while `PWRGD` is low.
[DEDUCED: notes/assumptions/117.md; DESIGN CHOICE: notes/assumptions/126.md] -/
def execJtagInstruction (t : Nat) (boundary : Bool) (scope : Nat) (s : State) :
    Host.Outcome State Fault Refusal :=
  s.happen t (fun s => s.pkg.pwrgd) fun s =>
    s.updPkg fun p => { p with lastJtag := some (jtagAct p boundary scope) }

/-- The SMBus target answers from 5 ms after reset release (R50, R442); not after the loss of `SYS_REFCLK`.
[DESIGN CHOICE: notes/assumptions/126.md] -/
def State.smbUp (s : State) : Bool :=
  s.pkg.pwrgd && !s.pkg.coldLow && !s.pkg.warmLow && decide (5000000 ≤ s.tick) &&
    (s.pkg.halt == .none || s.pkg.halt == .cycleNeeded)

/-- `dev_state` as SMBus reads it (R50, R442, R475). -/
def State.devStateCode (s : State) : Nat :=
  if s.obs.islandsStopped then 5
  else match s.pkg.devState with
    | .rom => 1 | .boot => 2 | .running => 3 | .recovery => 4 | .stopped => 2

/-- `SMB_PWR_CAP_WRITE` (R50): a listed value changes the board's cap; any other is NAKed. -/
def execSmbPwrCapWrite (t value : Nat) (s : State) : Host.Outcome State Fault Refusal :=
  s.happen t (fun s => s.smbUp && decide (40 ≤ value) && decide (value ≤ 90)) fun s =>
    (s.updPkg fun p => { p with capBmc := value }).envelopeChanged s.pkg.envelope

/-- `SMB_ALERT_STATUS_CLEAR` (R50): ones clear their bits. -/
def execSmbAlertStatusClear (t : Nat) (ones : Byte) (s : State) :
    Host.Outcome State Fault Refusal :=
  s.happen t (fun s => s.smbUp) fun s =>
    s.updPkg fun p => { p with alert := p.alert &&& ~~~ones }

/-- `SMB_WRITE_REFUSED` (R50): a NAK, and every register unchanged. -/
def execSmbWriteRefused (t _offset _value : Nat) (s : State) : Host.Outcome State Fault Refusal :=
  s.happen t (fun s => s.smbUp) id

/-! ### Device commands (R389) -/

/-- The value of the device's kept settings. -/
def State.deviceVal (s : State) : StVal :=
  .device s.pkg.bypass.linkTimeout s.pkg.bypass.retry s.pkg.bypass.hold s.ouv.port
    s.ouv.idleTimeout s.pkg.capP0 s.pkg.floorMhz s.mem.scrubPeriod

/-- `DEVICE_RESET` (R389): answered `OK`; the reset is applied 1 ms later. -/
def execDeviceReset (t : Nat) (h : CmdHdr) (s : State) : Host.Outcome State Fault Refusal :=
  s.isain t { op := 0x0101, stop := true } h noObj (isP0 h)
    (fun s => okReply (s.orderReset 1000000))

/-- `DEVICE_RESET_TEST` (R370): the same, with `next_mode` 1. -/
def execDeviceResetTest (t : Nat) (h : CmdHdr) (s : State) : Host.Outcome State Fault Refusal :=
  s.isain t { op := 0x0101, stop := true } h noObj (isP0 h)
    (fun s => okReply ((s.writeDir fun d => { d with nextMode := 1 }).orderReset 1000000))

/-- The checks of `POWER_CONFIG`'s settings: 1 `pwr_cap`, 2 `pp_clock_floor`. -/
def powerChk (r : SetRec) : Option Status :=
  match r.id with
  | 1 => scopeIn r 1 (inRange r 400 900)
  | 2 => scopeIn r 1 (if r.value % 50 = 0 then inRange r 1000 3300 else some .eRange)
  | _ => some .eArg

/-- A new floor of the packet path (R44, R202): `clk_cap` and ceiling of its clusters rise to it, but for
the ceilings while every partition-owned cluster is at 1.0 GHz; a cluster left below a raised floor is
reported. -/
def State.setFloor (v : Nat) (s : State) : State :=
  let low := s.partitionsLow && s.comp.clusters.any fun e => e.2.ofPartition
  let s' := (s.updPkg fun p => { p with floorMhz := v }).mapClusters fun c =>
    if c.ofPacketPath then { c with
      clkCap := max c.clkCap v, ceiling := if low then c.ceiling else max c.ceiling v } else c
  let s' := s'.setRails
  if s.pkg.floorMhz < v ∧ s'.belowFloor then s'.floorBreach else s'

/-- `POWER_CONFIG`'s settings applied. -/
def powerApply (s : State) (r : SetRec) : State :=
  match r.id with
  | 1 => (s.updPkg fun p => { p with capP0 := r.value }).envelopeChanged s.pkg.envelope
  | 2 => s.setFloor r.value
  | _ => s

/-- `POWER_CONFIG` (R42, R44). A raised floor changes `clk_cap`s too, and both are kept (R202, R374). -/
def execPowerConfig (t : Nat) (h : CmdHdr) (recs : List SetRec) (s : State) :
    Host.Outcome State Fault Refusal :=
  s.isain t { op := 0x0103, resv := resvRec recs } h noObj (isP0 h)
    (settings powerChk powerApply (fun _ _ => none) (fun s => (s.keep s.deviceVal).keep s.clustersVal) recs)

/-- `BYPASS_FORCE` (R48): bypass forced, the pin low. -/
def execBypassForce (t : Nat) (h : CmdHdr) (s : State) : Host.Outcome State Fault Refusal :=
  s.isain t { op := 0x0104 } h noObj (isP0 h)
    (fun s => okReply ((s.modBypass fun b => { b with forced := true }).bypassLow))

/-- `BYPASS_RELEASE_FORCE` (R47): arming may resume. -/
def execBypassReleaseForce (t : Nat) (h : CmdHdr) (s : State) : Host.Outcome State Fault Refusal :=
  s.isain t { op := 0x0104 } h noObj (isP0 h)
    (fun s => okReply ((s.modBypass fun b => { b with forced := false }).tryArm))

/-- `BYPASS_REARM` (R47): the run of failures is cleared and arming is tried. -/
def execBypassRearm (t : Nat) (h : CmdHdr) (s : State) : Host.Outcome State Fault Refusal :=
  s.isain t { op := 0x0104 } h noObj (isP0 h)
    (fun s => okReply ((s.modBypass fun b =>
      { b with failRun := 0, retryDue := none }).tryArm))

/-! ### Rows: bypass timers and links (R47, R48, R62) -/

/-- A tick a timer waits for has come. -/
def due (d : Option Nat) (tick : Nat) : Bool :=
  match d with
  | some x => decide (x ≤ tick)
  | none => false

/-- `BYPASS_LINK_TIMEOUT` (R47): the member links are not up in time; the pin goes low, the failure
is counted, and the next try waits unless three have failed in a row. -/
def execBypassLinkTimeout (t : Nat) (s : State) : Host.Outcome State Fault Refusal :=
  s.happen t (fun s => s.alive && due s.pkg.bypass.linkDue s.tick) fun s =>
    let s := s.bypassLow.tally Ctr.bypassLinkFail
    let s := s.modBypass fun b => { b with
      failRun := b.failRun + 1
      retryDue := if b.failRun + 1 < 3 then some (s.tick + b.retry) else none }
    s.portRecord ((s.pairs.map (·.1)).headD 0) 6

/-- `BYPASS_RETRY_EXPIRY` (R47): arming is tried again. -/
def execBypassRetryExpiry (t : Nat) (s : State) : Host.Outcome State Fault Refusal :=
  s.happen t (fun s => s.alive && due s.pkg.bypass.retryDue s.tick) fun s =>
    (s.modBypass fun b => { b with retryDue := none }).tryArm

/-- `BYPASS_HOLD_EXPIRY` (R48): bypass re-arms after a link loss. -/
def execBypassHoldExpiry (t : Nat) (s : State) : Host.Outcome State Fault Refusal :=
  s.happen t (fun s => s.alive && due s.pkg.bypass.holdDue s.tick) fun s =>
    (s.modBypass fun b => { b with holdDue := none }).tryArm

end Sys2Proof.Machine
end

