-- ==== Sys2Proof/Machine/Ports.lean ====
section
/-! DEFINITION. The ports, links, MACsec, PTP, BFD and windows as commands and events set them
(R54 to R70, R84, R393, R394). -/

namespace Sys2Proof.Machine

/-! ### Pairs and speeds (R58, R60) -/

/-- An interface of `NET` or `HOST` role. -/
def Ifc.inline (i : Ifc) : Bool := i.role == 1 || i.role == 2

/-- The speed an interface is configured for: 800 Gb/s in mode `800G`, else 400 Gb/s. -/
def State.modeSpeed (i : Nat) (s : State) : Nat := if (s.port (portOf i)).mode = 0 then 800 else 400

/-- The speed an interface runs at: a fallen-back port is one 400GBASE-R interface (R62). -/
def State.speed (i : Nat) (s : State) : Nat :=
  if (s.port (portOf i)).fallenBack then 400 else s.modeSpeed i

/-- An inline interface is paired with one of the other role and equal speed that names it. -/
def State.pairedWell (i : Nat) (s : State) : Bool :=
  let a := s.ifc i
  match a.pair with
  | none => false
  | some j =>
    let b := s.ifc j
    j != i && s.lineIfcs.contains j && b.role == 3 - a.role && b.pair == some i &&
      s.modeSpeed i == s.modeSpeed j

/-- The partner of an interface in a configured pair; none outside a pair. -/
def State.partner (i : Nat) (s : State) : Option Nat :=
  if s.lineIfcs.contains i && (s.ifc i).inline && s.pairedWell i then (s.ifc i).pair else none

/-- `pfc_xon` lies below `pfc_xoff` for every priority (R394). -/
def Ifc.pfcOrder (i : Ifc) : Bool := (List.range 8).all fun p => decide (i.xon p < i.xoff p)

/-- What the ports' settings must be together (R58, R60, R64). A fallen-back port that returns to its
mode changes its mode (R62). -/
def portWhole (old new : State) : Option Status :=
  if new.lineIfcs.any (fun i => (new.ifc i).inline && !new.pairedWell i) then some .eArg
  else if (List.range 4).any (fun i => !(new.ifc i).pfcOrder) then some .eArg
  else if (List.range 2).any (fun p =>
      (decide ((old.port p).mode ≠ (new.port p).mode) ||
        ((old.port p).fallenBack && !(new.port p).fallenBack)) &&
      decide ((old.port p).drain ≠ .drained)) then
    some .eState
  else if (List.range 4).any (fun i => decide (old.partner i ≠ new.partner i) &&
      decide ((old.port (portOf i)).drain ≠ .drained)) then some .eState
  else if 25165824 < new.headroom then some .eNospace
  else none

/-- The checks of `PORT_CONFIG`'s settings (R394). [DEDUCED: notes/assumptions/121.md] -/
def portChk (r : SetRec) : Option Status :=
  match r.id with
  | 1 => scopeIn r 2 (oneOf r 3)
  | 2 => scopeIn r 4 (oneOf r 5)
  | 3 => scopeIn r 4 (if r.value = 0xFF then none else oneOf r 4)
  | 4 => scopeIn r 5 (inRange r 1518 9216)
  | 5 => scopeIn r 40 (if r.len = 16 then none else some .eArg)
  | 6 => scopeIn r 5 (inRange r 0 0xFFFF)
  | 7 => scopeIn r 5 (inRange r 0 7)
  | 8 => scopeIn r 320 (inRange r 0 7)
  | 9 => scopeIn r 4 (inRange r 0 255)
  | 10 => scopeIn r 32 (inRange r 8192 16777216)
  | 11 => scopeIn r 32 (inRange r 8192 16777216)
  | 12 => scopeIn r 32 (inRange r 16384 4194304)
  | 13 => scopeIn r 4 (oneOf r 3)
  | 14 => scopeIn r 2 (oneOf r 2)
  | 15 => scopeIn r 2 (if r.len = 4 then none else some .eArg)
  | 16 => scopeIn r 2 (inRange r 1000000000 60000000000)
  | 17 => scopeIn r 2 (inRange r 1000000 10000000000)
  | 18 => scopeIn r 1 (inRange r 100000000 10000000000)
  | 19 => scopeIn r 1 (inRange r 1000000000 600000000000)
  | 20 => scopeIn r 1 (inRange r 10000000 10000000000)
  | 21 => scopeIn r 1 (inRange r 1024 65535)
  | 22 => scopeIn r 1 (inRange r 1000000000 3600000000000)
  | _ => some .eArg

/-- A port set to a mode: its links train again, and lanes start afresh (R61). A fallen-back port set
to its own mode does the same: it returns to `800G` (R62). -/
def State.setMode (p mode : Nat) (s : State) : State :=
  if (s.port p).mode = mode ∧ !(s.port p).fallenBack then
    s.modPort p fun x => { x with downUntilConfig := false }
  else
    let s := s.modPort p fun x => { x with
      mode := mode, lanesFailed := 0, fallenBack := false, fallbackDue := none
      downUntilConfig := false }
    s.updIfcs fun t => t.map fun e =>
      if portOf e.1 = p ∧ e.1 < 4 then (e.1, { e.2 with link := false }) else e

/-- `PORT_CONFIG`'s settings applied (R394). Which of them end a port's wait for `PORT_CONFIG` (R62):
those whose scope is the port, records 1 and 14 to 17. [DESIGN CHOICE: notes/assumptions/127.md] -/
def portApply (s : State) (r : SetRec) : State :=
  let k := r.scope
  let v := r.value
  match r.id with
  | 1 => s.setMode k v
  | 2 => s.modIfc k fun i => { i with role := v, link := if v = 0 then false else i.link }
  | 3 => s.modIfc k fun i => { i with pair := if v = 0xFF then none else some v }
  | 4 => s.modIfc k fun i => { i with maxFrame := v }
  | 5 => s.modIfc (k / 8) fun i => { i with
      addrs := if v = 0 then tdel i.addrs (k % 8) else tset i.addrs (k % 8) (BitVec.ofNat 128 v) }
  | 6 => s.modIfc k fun i => { i with tpidExtra := v }
  | 7 => s.modIfc k fun i => { i with defaultPrio := v }
  | 8 => s.modIfc (k / 64) fun i => { i with dscpMap := tset i.dscpMap (k % 64) v }
  | 9 => s.modIfc k fun i => { i with pfcEnable := BitVec.ofNat 8 v }
  | 10 => s.modIfc (k / 8) fun i => { i with pfcXoff := tset i.pfcXoff (k % 8) v }
  | 11 => s.modIfc (k / 8) fun i => { i with pfcXon := tset i.pfcXon (k % 8) v }
  | 12 => s.modIfc (k / 8) fun i => { i with pfcHeadroom := tset i.pfcHeadroom (k % 8) v }
  | 13 => s.modIfc k fun i => { i with macsecMode := v }
  | 14 => s.modPort k fun p => { p with laneFallback := v == 1, downUntilConfig := false }
  | 15 => s.modPort k fun p => { p with
      laneBerLimit := BitVec.ofNat 32 v, downUntilConfig := false }
  | 16 => s.modPort k fun p => { p with fallbackTimeout := v, downUntilConfig := false }
  | 17 => s.modPort k fun p => { p with drainTimeout := v, downUntilConfig := false }
  | 18 => s.modBypass fun b => { b with linkTimeout := v }
  | 19 => s.modBypass fun b => { b with retry := v }
  | 20 => s.modBypass fun b => { b with hold := v }
  | 21 => s.updOuv fun o => { o with port := v }
  | 22 => s.updOuv fun o => { o with idleTimeout := v }
  | _ => s

/-- The kept value of the ports and interfaces. -/
def State.portsVal (s : State) : StVal := .ports s.ifcs s.ports

/-- `PORT_CONFIG` (R54 to R66, R394). Committed pairs may arm bypass (R47). -/
def execPortConfig (t : Nat) (h : CmdHdr) (recs : List SetRec) (s : State) :
    Host.Outcome State Fault Refusal :=
  s.isain t { op := 0x0401, resv := resvRec recs } h noObj (isP0 h)
    (settings portChk portApply portWhole
      (fun s => ((s.keep s.portsVal).keep s.deviceVal).tryArm.lowAlert) recs)

/-! ### Drain and resume (R61, R393) -/

/-- An interface admits no new frames: its port, or its partner's port, is draining or drained
(R61). -/
def State.shut (i : Nat) (s : State) : Bool :=
  !s.inService (portOf i) || match s.partner i with
    | some j => !s.inService (portOf j)
    | none => false

/-- `PORT_DRAIN` (R61): the drain starts; the answer comes at step 4. A drained port answers at once, and
a port that drains takes a further command into the same wait.
[DESIGN CHOICE: notes/assumptions/127.md] -/
def execPortDrain (t : Nat) (h : CmdHdr) (port : Nat) (s : State) :
    Host.Outcome State Fault Refusal :=
  s.isain t { op := 0x0402 } h noObj (isP0 h) fun s =>
    if 2 ≤ port then no .eRange
    else
      let forced := (s.portIfcs port).any fun i => (s.partner i).isSome
      let go (start : Nat) (hs : List CmdHdr) : Reply :=
        let s' := s.modPort port fun p => { p with drain := .draining start (hs ++ [h]) }
        .wait (if forced then s'.bypassLow else s')
      match (s.port port).drain with
      | .drained => okReply s
      | .draining start hs => go start hs
      | .inService => go s.tick []

/-- `PORT_RESUME` (R393): the port is in service again, and bypass re-arms. -/
def execPortResume (t : Nat) (h : CmdHdr) (port : Nat) (s : State) :
    Host.Outcome State Fault Refusal :=
  s.isain t { op := 0x0403 } h noObj (isP0 h) fun s =>
    checks [(decide (2 ≤ port), .eRange), (decide ((s.port port).drain ≠ .drained), .eState)]
      (okReply ((s.modPort port fun p => { p with drain := .inService }).tryArm))

/-- `PORT_STATUS` (R393): the state of each interface of a port; `bypass` while `BYPASS_REQ_N` is low (R26).
[DEDUCED: notes/assumptions/153.md] -/
def execPortStatus (t : Nat) (h : CmdHdr) (port : Nat) (s : State) :
    Host.Outcome State Fault Refusal :=
  s.isain t { op := 0x0404, stop := true } h noObj anyPart fun s =>
    if 2 ≤ port then no .eRange
    else
      let p := s.port port
      .done .ok (pack ((s.portIfcs port).flatMap fun i =>
        [(1, bit (s.ifc i).link), (1, bit (p.drain == .drained)), (1, bit p.fallenBack),
         (2, p.mode), (8, p.lanesFailed.toNat), (1, bit !s.pkg.bypass.reqHigh)])) s

/-- A whole frame of given bytes for an interface's control queue (R171). -/
def State.control (ifc : Nat) (bytes : List Byte) (s : State) : State :=
  s.emit ifc (bytes.length + 4) (.line ifc 8 bytes true none)

/-- A frame the service port carries (R71): ARP, neighbour discovery, ICMP echo, and datagrams of
`ouv_port`. -/
def State.serviceFrame (bs : List Byte) (s : State) : Bool :=
  let f (off n : Nat) : Nat := beNat ((bs.drop off).take n)
  match f 12 2 with
  | 0x0806 => true
  | 0x0800 => (f 23 1 == 1 && (f 34 1 == 0 || f 34 1 == 8)) ||
      (f 23 1 == 17 && (f 34 2 == s.ouv.port || f 36 2 == s.ouv.port))
  | 0x86DD => (f 20 1 == 58 && [128, 129, 133, 134, 135, 136, 137].contains (f 54 1)) ||
      (f 20 1 == 17 && (f 54 2 == s.ouv.port || f 56 2 == s.ouv.port))
  | _ => false

/-- `PORT_TX_FRAME` (R393): a host's frame for an interface's control queue. The service port carries
no other frame than R71 lists: `E_ARG`. [DEDUCED: notes/assumptions/128.md] -/
def execPortTxFrame (t : Nat) (h : CmdHdr) (ifc : Nat) (bytes : List Byte) (s : State) :
    Host.Outcome State Fault Refusal :=
  s.isain t { op := 0x0405 } h noObj (isP0 h) fun s =>
    checks [(decide (5 ≤ ifc), .eRange),
            (decide (bytes.length < 60) || decide ((s.ifc ifc).maxFrame < bytes.length + 4), .eRange),
            (ifc == 4 && !s.serviceFrame bytes, .eArg),
            (!(s.ifc ifc).link, .eState)]
      (okReply (s.control ifc bytes))

/-! ### MACsec (R65, R393) -/

/-- The key of a secure association in its table. [DESIGN CHOICE: notes/assumptions/37.md] -/
def saKey (sc an : Nat) : Nat := sc * 4 + an

/-- The channels a table of associations holds. -/
def saChannels (t : Tab Sa) : List Nat := (t.map fun e => e.1 / 4).eraseDups

/-- `MACSEC_SA_INSTALL` (R65): one transmit channel, 16 receive channels. -/
def execMacsecSaInstall (t : Nat) (h : CmdHdr) (sa : SaSpec) (s : State) :
    Host.Outcome State Fault Refusal :=
  s.isain t { op := 0x0406 } h noObj (isP0 h) fun s =>
    let i := s.ifc sa.ifc
    let held := saChannels (if sa.transmit then i.txSas else i.rxSas)
    let limit := if sa.transmit then 1 else 16
    let x : Sa := { xpn := sa.xpn, ssci := sa.ssci, sci := sa.sci, nextPn := sa.nextPn,
                    salt := sa.salt, sak := sa.sak }
    checks [(decide (4 ≤ sa.ifc) || decide (16 ≤ sa.sc) || decide (4 ≤ sa.an), .eRange),
            (!held.contains sa.sc && decide (limit ≤ held.length), .eNospace)]
      (okReply (s.modIfc sa.ifc fun i =>
        if sa.transmit then
          { i with txSas := tset i.txSas (saKey sa.sc sa.an) x, txEver := true }
        else { i with rxSas := tset i.rxSas (saKey sa.sc sa.an) x }))

/-- `MACSEC_SA_REMOVE` (R393). -/
def execMacsecSaRemove (t : Nat) (h : CmdHdr) (ifc : Nat) (transmit : Bool) (sc an : Nat)
    (s : State) : Host.Outcome State Fault Refusal :=
  s.isain t { op := 0x0407 } h noObj (isP0 h) fun s =>
    if 4 ≤ ifc ∨ 16 ≤ sc ∨ 4 ≤ an then no .eRange
    else okReply (s.modIfc ifc fun i =>
      if transmit then { i with txSas := tdel i.txSas (saKey sc an) }
      else { i with rxSas := tdel i.rxSas (saKey sc an) })

/-! ### Windows (R84, R393) -/

/-- The key of a partition's window. [DESIGN CHOICE: notes/assumptions/37.md] -/
def winKey (part win : Nat) : Nat := part * 16 + win

/-- `WINDOW_OPEN` (R84): a range of the memory for software; none opens onto what is the controllers' or
Isain's (R87, R322). [DEDUCED: notes/assumptions/34.md] -/
def execWindowOpen (t : Nat) (h : CmdHdr) (part win rights base pages : Nat) (s : State) :
    Host.Outcome State Fault Refusal :=
  s.isain t { op := 0x0408 } h noObj (isP0 h) fun s =>
    checks [(decide (64 ≤ part) || decide (16 ≤ win), .eRange),
            (decide (rights = 0) || decide (4 ≤ rights) || decide (base % 4096 ≠ 0), .eArg),
            (decide (pages = 0) || decide (16777216 < pages), .eRange),
            (!inSoftware base (pages * 4096), .eRange),
            ((tget s.ouv.windows (winKey part win)).isSome, .eState)]
      (okReply (s.updOuv fun o => { o with
        windows := tset o.windows (winKey part win)
          { rights := rights, base := base, pages := pages } }))

/-- `WINDOW_CLOSE` (R393). [DEDUCED: notes/assumptions/121.md] -/
def execWindowClose (t : Nat) (h : CmdHdr) (part win : Nat) (s : State) :
    Host.Outcome State Fault Refusal :=
  s.isain t { op := 0x0409 } h noObj (isP0 h) fun s =>
    if 64 ≤ part ∨ 16 ≤ win then no .eRange
    else okReply (s.updOuv fun o => { o with windows := tdel o.windows (winKey part win) })

/-! ### BFD (R70) -/

/-- The intervals of a session in force: one that a poll sequence has yet to agree on waits for its end (RFC 5880,
6.8.3). [PRESUMED: notes/assumptions/36.md] -/
def Bfd.txNow (b : Bfd) : Nat := b.txHeld.getD b.txUs
def Bfd.rxNow (b : Bfd) : Nat := b.rxHeld.getD b.rxUs

/-- `BFD_SESSION_SET` (R70): a session set up or changed. A change of a session that is up starts a poll
sequence (RFC 5880). [PRESUMED: notes/assumptions/36.md] -/
def execBfdSessionSet (t : Nat) (h : CmdHdr) (ifc sess txUs rxUs mult : Nat) (peer : BitVec 128)
    (s : State) : Host.Outcome State Fault Refusal :=
  s.isain t { op := 0x040A } h noObj (isP0 h) fun s =>
    let bad (us : Nat) : Bool := decide (us < 1000) || decide (1000000 < us)
    checks [(decide (4 ≤ ifc) || decide (8 ≤ sess), .eRange),
            (bad txUs || bad rxUs || decide (mult < 3) || decide (50 < mult), .eRange)]
      (let s' := s.modIfc ifc fun i => { i with
        bfd := tset i.bfd sess (match tget i.bfd sess with
          | some b => { b with
              txUs := txUs, rxUs := rxUs, mult := mult, peer := peer
              polling := b.polling || (b.state == 3 && (b.txUs != txUs || b.rxUs != rxUs))
              txHeld := if b.state = 3 ∧ b.txNow < txUs then some b.txNow else none
              rxHeld := if b.state = 3 ∧ rxUs < b.rxNow then some b.rxNow else none }
          | none => { txUs := txUs, rxUs := rxUs, mult := mult, peer := peer, txDue := s.tick }) }
       okReply (s'.keep s'.portsVal))

/-- `BFD_SESSION_REMOVE` (R70). -/
def execBfdSessionRemove (t : Nat) (h : CmdHdr) (ifc sess : Nat) (s : State) :
    Host.Outcome State Fault Refusal :=
  s.isain t { op := 0x040A } h noObj (isP0 h) fun s =>
    if 4 ≤ ifc ∨ 8 ≤ sess then no .eRange
    else
      let s' := s.modIfc ifc fun i => { i with bfd := tdel i.bfd sess }
      okReply (s'.keep s'.portsVal)

/-- A received packet's new state by the state machine of RFC 5880: 0 AdminDown, 1 Down, 2 Init,
3 Up. [PRESUMED: notes/assumptions/36.md] -/
def bfdNext (mine theirs : Nat) : Nat :=
  if mine = 0 then 0
  else if theirs = 0 then 1
  else if mine = 1 then (if theirs = 1 then 2 else if theirs = 2 then 3 else 1)
  else if mine = 2 then (if theirs = 2 ∨ theirs = 3 then 3 else 2)
  else if theirs = 1 then 1 else 3

/-- The K4's discriminator of a session. [DESIGN CHOICE: notes/assumptions/36.md] -/
def bfdDisc (ifc sess : Nat) : Nat := ifc * 8 + sess + 1

/-- A control packet RFC 5880 discards: one of no session, whose discriminator is not the session's, or
which names none and is not from the session's peer. [PRESUMED: notes/assumptions/36.md] -/
def bfdVoid (p : BfdPkt) (b : Bfd) : Bool :=
  p.mult == 0 || p.myDisc == 0 || (p.yourDisc == 0 && decide (2 ≤ p.state)) ||
    (p.poll && p.final) ||
    (if p.yourDisc = 0 then p.peer != b.peer else p.yourDisc != bfdDisc p.ifc p.sess)

/-- How long a session waits between packets, in us: its own interval, at least 1 s while it is not up,
and no less than the peer requires (RFC 5880); no jitter is taken off.
[PRESUMED: notes/assumptions/36.md] -/
def Bfd.interval (b : Bfd) : Nat :=
  max (if b.state = 3 then b.txNow else max b.txUs 1000000) b.remoteMinRx

/-- A control packet of a session (R70). -/
def Bfd.packet (ifc sess : Nat) (final : Bool) (b : Bfd) : Sent :=
  .bfd ifc sess b.state (b.polling && !final) final (bfdDisc ifc sess) b.remoteDisc b.mult
    (if b.state = 3 then b.txUs else max b.txUs 1000000) b.rxUs

/-- A control packet of a session sent (RFC 5880, R70). -/
def State.bfdSend (ifc sess : Nat) (b : Bfd) (final : Bool) (s : State) : State :=
  s.emit ifc (udpLen b.peer 24) (b.packet ifc sess final)

/-- A BFD session. -/
def State.bfd (ifc sess : Nat) (s : State) : Option Bfd := tget (s.ifc ifc).bfd sess

/-- A session after a control packet (RFC 5880): a Final ends a poll sequence. One that comes up sends faster
than the 1 s of a session that is not, which is a change and starts one.
[PRESUMED: notes/assumptions/36.md] -/
def Bfd.heard (tick : Nat) (p : BfdPkt) (b : Bfd) : Bfd :=
  let next := bfdNext b.state p.state
  let b := if p.final then { b with txHeld := none, rxHeld := none } else b
  { b with
    state := next
    remoteDisc := p.myDisc
    remoteState := p.state
    remoteMinRx := p.rxUs
    polling := (b.polling && !p.final) || (next == 3 && b.state != 3 && decide (b.txUs < 1000000))
    detectDue := some (tick + p.mult * max b.rxNow p.txUs * 1000) }

/-- `BFD_RECEIVE` (R70): a control packet updates its session, and one with the Poll bit is answered at
once; one with the A bit is dropped and counted. [PRESUMED: notes/assumptions/36.md] -/
def execBfdReceive (t : Nat) (p : BfdPkt) (s : State) : Host.Outcome State Fault Refusal :=
  s.happen t (fun s => s.moving && decide (p.ifc < 4) && (s.ifc p.ifc).role != 0) fun s =>
    if p.authBit then s.count Ctr.bfdAuthDrop p.ifc
    else match s.bfd p.ifc p.sess with
      | none => s
      | some b =>
        if bfdVoid p b then s
        else
          let b := b.heard s.tick p
          let s := s.modIfc p.ifc fun i => { i with bfd := tset i.bfd p.sess b }
          if p.poll then s.bfdSend p.ifc p.sess b true else s

/-- `BFD_TX_TIMER` (R70): the transmit interval has passed; a control packet goes. -/
def execBfdTxTimer (t ifc sess : Nat) (s : State) : Host.Outcome State Fault Refusal :=
  s.happen t
    (fun s => s.moving && !s.bay.shutdown && s.bay.resetDue.isNone && (s.ifc ifc).role != 0 &&
      match s.bfd ifc sess with
      | some b => decide (b.txDue ≤ s.tick) && b.remoteMinRx != 0
      | none => false)
    fun s => match s.bfd ifc sess with
      | some b => (s.modIfc ifc fun i => { i with
          bfd := tset i.bfd sess { b with txDue := s.tick + b.interval * 1000 } }).bfdSend ifc sess b
            false
      | none => s

/-- `BFD_DETECT_TIMEOUT` (R70): the detect time has passed with no packet. -/
def execBfdDetectTimeout (t ifc sess : Nat) (s : State) : Host.Outcome State Fault Refusal :=
  s.happen t
    (fun s => s.moving && match s.bfd ifc sess with
      | some b => due b.detectDue s.tick
      | none => false)
    fun s => s.modIfc ifc fun i => { i with
      bfd := tmod i.bfd sess fun b => { b with
        state := if b.state = 0 then 0 else 1
        detectDue := none, remoteDisc := 0 } }

/-! ### Time (R67, R68, R393) -/

/-- `TIME_READ` (R393). -/
def execTimeRead (t : Nat) (h : CmdHdr) (s : State) : Host.Outcome State Fault Refusal :=
  s.isain t { op := 0x0501, stop := true } h noObj anyPart fun s =>
    .done .ok (pack [(64, s.tick), (64, s.wallWord s.tick), (2, s.wall.state),
      (32, low 32 s.wall.lastOffset), (32, s.wall.steps)]) s

/-- The checks of `PTP_CONFIG`'s settings (R393). -/
def ptpChk (s : State) (r : SetRec) : Option Status :=
  match r.id with
  | 1 => scopeIn r 1 (inRange r 0 3)
  | 2 => scopeIn r 1 (oneOf r 3)
  | 3 => scopeIn r 1 (inRange r 0 255)
  | 4 => scopeIn r 1 (inRange r 1000 1000000000)
  | 5 => scopeIn r 4 (if (s.ifc r.scope).role = 1 then oneOf r 2 else some .eArg)
  | _ => some .eArg

/-- `PTP_CONFIG`'s settings applied. -/
def ptpApply (s : State) (r : SetRec) : State :=
  match r.id with
  | 1 => s.updWall fun w => { w with ptpPort := r.value, masters := [] }
  | 2 => s.updWall fun w => { w with ptpTransport := r.value }
  | 3 => s.updWall fun w => { w with ptpDomain := r.value, masters := [] }
  | 4 => s.updWall fun w => { w with ptpStepLimit := r.value }
  | 5 => s.modIfc r.scope fun i => { i with ptpTc := r.value == 1 }
  | _ => s

/-- `PTP_CONFIG` (R68, R69). -/
def execPtpConfig (t : Nat) (h : CmdHdr) (recs : List SetRec) (s : State) :
    Host.Outcome State Fault Refusal :=
  s.isain t { op := 0x0502, resv := resvRec recs } h noObj (isP0 h) fun s =>
    settings (ptpChk s) ptpApply (fun _ _ => none)
      (fun s => (s.keep (.ptp s.wall)).keep s.portsVal) recs s

/-- Where a gate list starts: the least whole number of cycles from its base that lies at least 10 µs
after a wall time, and that time (R179). [DEDUCED: notes/assumptions/113.md] -/
def gateStart (base cycle wall : Nat) : Nat × Nat :=
  if wall + 10000 ≤ base then (0, base)
  else
    let n := (wall + 10000 - base + cycle - 1) / cycle
    (n, base + n * cycle)

/-- A gate list pending from a wall time on, with the record of a start later than its base. -/
def State.gatePend (ifc : Nat) (l : GateList) (wall : Nat) (s : State) : State :=
  let n := gateStart l.base l.cycle wall
  let s := s.updEg fun e => { e with
    gates := tup e.gates ifc {} fun g => { g with
      pending := some { l with start := n.2 }, stopAt := none } }
  if n.1 = 0 then s
  else s.record 0x0002 4 0 0xFF 0 [(8, ifc), (64, l.base), (64, n.2)]

/-- The running list of an interface after a step of wall time: its gates keep their states until it restarts, in the
place of its last entry's end; one that was to stop at its cycle's end stops (R179, notes/assumptions/28.md). -/
def State.gateRestart (ifc : Nat) (g : Gates) (s : State) : State :=
  match g.running with
  | none => s
  | some l =>
    if g.stopAt.isSome then s.updEg fun x => { x with gates := tup x.gates ifc {} fun g => { g with
      running := none, stopAt := none, states := 0xFF, index := 0 } }
    else
      let n := gateStart l.base l.cycle (s.wallWord s.tick)
      (s.updEg fun x => { x with gates := tup x.gates ifc {} fun g => { g with
        running := some { l with start := n.2 }, index := l.entries.length, entryEnd := n.2 } }).record
          0x0002 4 0 0xFF 0 [(8, ifc), (64, l.base), (64, n.2)]

/-- Wall time has been stepped: each list, running or pending, gets its start under the new time (R179). -/
def State.gatesStep (s : State) : State :=
  s.eg.gates.foldl (fun s e =>
    let s := s.gateRestart e.1 e.2
    match e.2.pending with
    | some l => s.gatePend e.1 l (s.wallWord s.tick)
    | none => s) s

/-- Wall time stepped (R449): the `TIME_STEP` record comes before any record under the new mapping,
and partition 0 gets the event. Cause: 0 PTP step, 1 first discipline. -/
def State.stepWall (offset : Int) (cause : Nat) (s : State) : State :=
  let old := s.wallWord s.tick
  let s := s.updWall fun w => { w with
    offset := offset, state := 1, steps := if cause = 0 then w.steps + 1 else w.steps }
  let new := s.wallWord s.tick
  (s.recordEvent 0x0001 4 0 0xFF 0 [(64, old), (64, new), (8, cause)] 0 0x0001
    [(64, old), (64, new)]).gatesStep

/-- How far the servo slews toward the offset at a message: an open amount, at most 500 ppm of the
time since the last message and at most the offset itself (R68).
[DESIGN CHOICE: notes/assumptions/35.md] -/
def slewAmount (free span : Nat) (offset : Int) : Int :=
  let bound := min offset.natAbs (span * 500 / 1000000)
  let amount : Int := freeBelow (bound + 1) free
  if 0 ≤ offset then amount else -amount

/-- The servo takes a measured offset from the time transmitter (R68): it steps wall time beyond
`ptp_step_limit` and at its first discipline, and slews it within.
[DESIGN CHOICE: notes/assumptions/35.md] -/
def State.servo (offset : Int) (s : State) : State :=
  let span := s.tick - s.wall.lastPtp
  let s := s.updWall fun w => { w with lastOffset := offset, lastPtp := s.tick }
  if s.wall.state = 0 then s.stepWall (s.wall.offset - offset) 1
  else if s.wall.ptpStepLimit < offset.natAbs then s.stepWall (s.wall.offset - offset) 0
  else
    let f := s.fresh
    f.2.updWall fun w => { w with
      state := 1, offset := w.offset - slewAmount f.1 span offset }

/-- The bytes of an untagged `Delay_Req` with its FCS, by transport (R68). -/
def delayReqLen (transport : Nat) : Nat := if transport = 2 then 64 else if transport = 1 then 110 else 90

/-- A `Delay_Req` put on its way (R68, R171): it is stamped when it leaves. -/
def State.sendDelayReq (s : State) : State :=
  (s.updWall fun w => { w with delaySeq := (w.delaySeq + 1) % 65536 }).emit s.wall.ptpPort
    (delayReqLen s.wall.ptpTransport) (.ptp s.wall.ptpPort s.wall.delaySeq none)

/-- The time transmitter's time of a `Sync` is known: one step from its own timestamp, two steps from
its `Follow_Up` (R68). The servo takes the difference less the path delay, and a `Delay_Req` follows.
[DESIGN CHOICE: notes/assumptions/35.md] -/
def State.takeSync (origin : Int) (y : SyncHeld) (s : State) : State :=
  let d := (y.tick : Int) + s.wall.offset - origin - y.correction
  let old := s.wall.offset
  let s := s.servo (d - s.wall.pathDelay)
  (s.updWall fun w => { w with sync := none, msDelay := d + (w.offset - old) }).sendDelayReq

/-- The mean path delay of the delay request-response mechanism (IEEE 1588, R68): half the sum of the
two differences, each less its corrections. -/
def WallClock.meanDelay (w : WallClock) (sent t4 correction : Int) : Int :=
  (w.msDelay + (t4 - correction - sent)) / 2

/-- Two `Announce` messages of one sender within this time let it be chosen, and it stays so for the second time
after its last (IEEE 1588's default profile: an interval of 2 s, windows of four and of three).
[PRESUMED: notes/assumptions/35.md] -/
def announceWindow : Nat := 8000000000
def announceTimeout : Nat := 6000000000

/-- An `Announce` taken (IEEE 1588). [PRESUMED: notes/assumptions/35.md] -/
def WallClock.announce (tick source rank : Nat) (w : WallClock) : WallClock :=
  let known := match tget w.masters source with
    | some x => decide (tick ≤ x.tick + announceWindow)
    | none => false
  { w with masters := tset w.masters source { rank := rank, tick := tick, known := known } }

/-- The time transmitter the clock follows: the one of lowest data set, then of lowest identity, among those heard
(IEEE 1588). [PRESUMED: notes/assumptions/35.md] -/
def WallClock.master (tick : Nat) (w : WallClock) : Option Nat :=
  (w.masters.filter fun e => e.2.known && decide (tick < e.2.tick + announceTimeout)).foldl
    (fun best e => match best with
      | some b => if e.2.rank < (tget w.masters b).elim 0 (·.rank) then some e.1 else some b
      | none => some e.1) none

/-- The K4's port identity (IEEE 1588): the EUI-64 of the interface's MAC address and port number 1.
[PRESUMED: notes/assumptions/35.md] -/
def State.ptpIdentity (s : State) : Nat :=
  let m := s.fuses.macBase + s.wall.ptpPort
  (m / 2 ^ 24 * 2 ^ 40 + 0xFFFE * 2 ^ 24 + m % 2 ^ 24) * 2 ^ 16 + 1

/-- A PTP message of the time transmitter that the clock follows acts (R68). -/
def State.takePtp (m : PtpMsg) (s : State) : State :=
  match m.kind with
  | 0 =>
    let y : SyncHeld := { seq := m.seq, tick := s.tick, wall := s.wallAt s.tick
                          waits := m.twoStep, correction := m.correction }
    if m.twoStep then s.updWall fun w => { w with sync := some y } else s.takeSync m.stamp y
  | 8 => match s.wall.sync with
    | some y => if y.waits && y.seq == m.seq then s.takeSync (m.stamp + m.correction) y else s
    | none => s
  | 9 => match s.wall.delaySent with
    | some (q, t3) =>
      if q = m.seq ∧ m.dest = s.ptpIdentity then s.updWall fun w => { w with
        delaySent := none, pathDelay := w.meanDelay t3 m.stamp m.correction }
      else s
    | none => s
  | _ => s

/-- `PTP_MESSAGE_RECEIVE` (R67, R68): a message on `ptp_port` of its transport and domain; its receipt
is the tick at which it comes. An `Announce` ranks its sender; any other message acts where it is the chosen time
transmitter's. [DESIGN CHOICE: notes/assumptions/35.md] -/
def execPtpMessageReceive (t : Nat) (m : PtpMsg) (s : State) : Host.Outcome State Fault Refusal :=
  s.happen t
    (fun s => s.running && m.ifc == s.wall.ptpPort && m.transport == s.wall.ptpTransport &&
      m.domain == s.wall.ptpDomain && (s.ifc m.ifc).role != 0)
    fun s =>
      if m.kind = 11 then s.updWall fun w => w.announce s.tick m.source m.rank
      else if s.wall.master s.tick = some m.source then s.takePtp m else s

/-- `WALL_TIME_HOLDOVER` (R393): the time transmitter's messages have stopped. -/
def execWallTimeHoldover (t : Nat) (s : State) : Host.Outcome State Fault Refusal :=
  s.happen t (fun s => s.alive && s.wall.state == 1) fun s =>
    s.updWall fun w => { w with state := 2 }

/-! ### Links (R47, R48, R62) -/

/-- A line interface's link goes down: bypass goes low for a member, and `bypass_hold` starts. -/
def State.linkLost (i : Nat) (s : State) : State :=
  let member := s.members.contains i
  let s := s.modIfc i fun x => { x with link := false }
  if member && s.pkg.bypass.reqHigh then
    s.bypassLow.modBypass fun b => { b with holdDue := some (s.tick + b.hold) }
  else s

/-- The lanes of an interface in its port's mode (R54). -/
def ifcLanes (mode ifc : Nat) : Byte :=
  if mode = 0 then 0xFF else if ifc % 2 = 0 then 0x0F else 0xF0

/-- `LINK_UP` (R47): a link is up after training, with every lane it runs on. When every member link is, the failure run is
cleared; bypass may arm. -/
def execLinkUp (t ifc : Nat) (s : State) : Host.Outcome State Fault Refusal :=
  s.happen t
    (fun s => s.alive && !(s.ifc ifc).link && ((ifc == 4 && decide (5000000 ≤ s.tick)) || (s.running && s.pkg.sdClock &&
      s.lineIfcs.contains ifc && (s.ifc ifc).role != 0 &&
      !(s.port (portOf ifc)).downUntilConfig)))
    fun s =>
      let s := s.modIfc ifc fun x => { x with link := true }
      let s := if ifc < 4 then s.modPort (portOf ifc) fun p => { p with
          fallbackDue := none
          lanesFailed := if p.fallenBack then p.lanesFailed else p.lanesFailed &&& ~~~ifcLanes p.mode ifc }
        else s
      let s := s.portState ifc 0
      let s := if s.pkg.bypass.reqHigh && s.memberLinksUp then
        s.modBypass fun b => { b with linkDue := none, failRun := 0 } else s
      s.tryArm

/-- `LINK_DOWN` (R48). -/
def execLinkDown (t ifc : Nat) (s : State) : Host.Outcome State Fault Refusal :=
  s.happen t (fun s => s.alive && (s.ifc ifc).link) fun s => (s.linkLost ifc).portState ifc 1

/-- The interface a lane serves in a mode; none for an idle lane (R54). -/
def laneIfc (port mode lane : Nat) : Option Nat :=
  if mode = 0 then some (2 * port)
  else if lane < 4 then some (2 * port)
  else if mode = 2 then some (2 * port + 1) else none

/-- Every failed lane lies in one half (R62). -/
def oneHalf (lanes : Byte) : Bool := lanes &&& 0x0F == 0 || lanes &&& 0xF0 == 0

/-- `LANE_FAIL` (R62): a port falls back to its healthy half where it may, else the affected
interface goes down. -/
def execLaneFail (t port lane : Nat) (s : State) : Host.Outcome State Fault Refusal :=
  s.happen t (fun s => s.running && decide (port < 2) && decide (lane < 8)) fun s =>
    let s := s.modPort port fun p => { p with
      lanesFailed := p.lanesFailed ||| BitVec.ofNat 8 (2 ^ lane) }
    let p := s.port port
    match laneIfc port p.mode lane with
    | none => s
    | some i =>
      if p.mode = 0 ∧ p.laneFallback ∧ oneHalf p.lanesFailed then
        if p.fallenBack then s
        else
          ((s.linkLost i).modPort port fun p => { p with
            fallenBack := true, fallbackDue := some (s.tick + p.fallbackTimeout) }).portState i 2
      else ((s.linkLost i).modPort port fun p => { p with fallbackDue := none }).portState i 3

/-- `FALLBACK_TIMEOUT` (R62): the fallen-back link is not up in time; the port stays down until
`PORT_CONFIG`. -/
def execFallbackTimeout (t port : Nat) (s : State) : Host.Outcome State Fault Refusal :=
  s.happen t (fun s => s.running && due (s.port port).fallbackDue s.tick) fun s =>
    ((s.linkLost (2 * port)).modPort port fun p => { p with
      downUntilConfig := true, fallbackDue := none }).portState (2 * port) 1

/-- The link-local address the service port always holds (R71): the interface identifier is the
modified EUI-64 of its MAC address, `mac_base` + 4 (PRESUMED, notes/assumptions/12.md). -/
def linkLocal (macBase : Nat) : BitVec 128 :=
  let m := macBase + 4
  let hi := (m / 2 ^ 24) ^^^ 0x020000
  BitVec.ofNat 128 (0xFE80 * 2 ^ 112 + hi * 2 ^ 40 + 0xFFFE * 2 ^ 24 + m % 2 ^ 24)

/-- An address configured on an interface (R59, R71). [PRESUMED: notes/assumptions/12.md] -/
def State.hasAddr (i : Nat) (a : BitVec 128) (s : State) : Bool :=
  (s.ifc i).addrs.any (fun e => e.2 == a) || (i == 4 && a == linkLocal s.fuses.macBase)

end Sys2Proof.Machine
end

