-- ==== Sys2Proof/Machine/Frames.lean ====
section
/-! DEFINITION. Frames from the line: reception, pre-decoding, parse queues, Chive parses, copies
and the load spreading (R55 to R66, R113 to R134, R456). -/

namespace Sys2Proof.Machine

/-! ### Frames in the packet buffer -/

/-- A frame. -/
def State.frame (id : Nat) (s : State) : Option Frame := tget s.parser.frames id

/-- A frame changed. -/
def State.modFrame (id : Nat) (f : Frame → Frame) (s : State) : State :=
  s.updParser fun p => { p with frames := tmod p.frames id f }

/-- A frame's bytes with its FCS. -/
def Frame.len (f : Frame) : Nat := f.bytes.length + 4

/-- The packet buffer that a priority uses on an interface (R64). -/
def State.ingressUse (ifc prio : Nat) (s : State) : Nat :=
  ((s.parser.frames.filter fun e => e.2.ifc == ifc && e.2.prio == prio).map
    fun e => e.2.len).sum

/-- PFC is sent above `pfc_xoff` and released below `pfc_xon` (R64). -/
def State.pfcCheck (ifc prio : Nat) (s : State) : State :=
  let i := s.ifc ifc
  let use := s.ingressUse ifc prio
  let flip (v : Bool) : State :=
    (s.modIfc ifc fun i => { i with xoffSent := i.xoffSent ^^^ BitVec.ofNat 8 (2 ^ prio) }).out
      (.pfc ifc prio v)
  if !i.pfcEnable.getLsbD prio then s
  else if i.xoffSent.getLsbD prio then (if use < i.xon prio then flip false else s)
  else if i.xoff prio < use then flip true else s

/-- The interfaces a drain of a port acts on: its own, and their partners. -/
def State.drainIfcs (port : Nat) (s : State) : List Nat :=
  (s.portIfcs port ++ (s.portIfcs port).flatMap fun i => (s.partner i).toList).eraseDups

/-- When a port's drain began; none where it does not drain. -/
def Port.draining (p : Port) : Option Nat :=
  match p.drain with
  | .draining start _ => some start
  | _ => none

/-- A frame waits in an egress queue. -/
def FrameStage.inQueue : FrameStage → Bool
  | .queued .. => true
  | _ => false

/-- A frame that an interface had admitted has reached a queue or is gone: step 3 of a drain may end with it (R61). -/
def State.noteHeld (ifc : Nat) (s : State) : State :=
  (List.range 2).foldl (fun s p =>
    if (s.port p).draining.isSome && (s.drainIfcs p).contains ifc then
      s.modPort p fun x => { x with heldEnd := s.tick }
    else s) s

/-- A frame leaves the packet buffer. -/
def State.freeFrame (id : Nat) (s : State) : State :=
  match s.frame id with
  | some f =>
    let s := if f.stage.inQueue then s else s.noteHeld f.ifc
    (s.updParser fun p => { p with frames := tdel p.frames id }).pfcCheck f.ifc f.prio
  | none => s

/-! ### The pre-decoder (R63, R113) -/

/-- A big-endian number of `n` bytes of a frame. -/
def fieldBe (bs : List Byte) (off n : Nat) : Nat := beNat ((bs.drop off).take n)

/-- Bytes with those from an offset on replaced. -/
def putBytes (bs : List Byte) (off : Nat) (v : List Byte) : List Byte :=
  bs.take off ++ v ++ bs.drop (off + v.length)

/-- The ones' complement sum of 16-bit words. -/
def onesSum (ws : List Nat) : Nat :=
  ws.foldl (fun a w => (a + w) % 65536 + (a + w) / 65536) 0

/-- The Internet checksum of bytes, an odd last one padded with 0. -/
def inetSum (bs : List Byte) : Nat :=
  65535 - onesSum ((List.range ((bs.length + 1) / 2)).map fun i => fieldBe (bs ++ [0]) (2 * i) 2)

/-- The IPv4 header checksum of a header at an offset, written afresh. -/
def fixIpv4 (bs : List Byte) (l3 : Nat) : List Byte :=
  let n := fieldBe bs l3 1 % 16 * 4
  let z := putBytes bs (l3 + 10) [0, 0]
  putBytes bs (l3 + 10) (beBytes 2 (inetSum ((z.drop l3).take n)))

/-- The VLAN tags the MAC recognises, at most two (R63). -/
def tagCount (extra : Nat) (bs : List Byte) : Nat :=
  let isTag (off : Nat) : Bool := [0x8100, 0x88A8, extra].contains (fieldBe bs off 2)
  if !isTag 12 then 0 else if isTag 16 then 2 else 1

/-- The offset of the EtherType behind the recognised tags. -/
def etypeAt (extra : Nat) (bs : List Byte) : Nat := 12 + 4 * tagCount extra bs

/-- A frame's EtherType behind its tags. -/
def etype (extra : Nat) (bs : List Byte) : Nat := fieldBe bs (etypeAt extra bs) 2

/-- The DSCP of an untagged IP frame. [DEDUCED: notes/assumptions/45.md] -/
def frameDscp (bs : List Byte) : Option Nat :=
  match fieldBe bs 12 2 with
  | 0x0800 => some (fieldBe bs 15 1 / 4)
  | 0x86DD => some (fieldBe bs 14 2 / 16 % 256 / 4)
  | _ => none

/-- The priority the MAC gives a frame (R63). [DEDUCED: notes/assumptions/45.md] -/
def Ifc.priority (i : Ifc) (bs : List Byte) : Nat :=
  if tagCount i.tpidExtra bs ≠ 0 then fieldBe bs 14 2 / 2 ^ 13
  else match frameDscp bs with
    | some d => tgetD i.dscpMap d 0
    | none => i.defaultPrio

/-- An IPv4 address in IPv4-mapped form. -/
def mapped (v4 : Nat) : BitVec 128 := BitVec.ofNat 128 (0xFFFF * 2 ^ 32 + v4)

/-- The UDP ports of local traffic (R113). -/
def State.localPorts (s : State) : List Nat := [s.ouv.port, s.fab.port, 3784, 319, 320]

/-- The pre-decoder marks a frame local (R113): what it is. EAPOL counts with the first kind's own
constructor so that its copy can be made. [DEDUCED: notes/assumptions/44.md] -/
def State.localKind (ifc : Nat) (bs : List Byte) (s : State) : Option LocalKind :=
  let x := (s.ifc ifc).tpidExtra
  let l3 := etypeAt x bs + 2
  let port (dst : BitVec 128) (l4 : Nat) : Option LocalKind :=
    let p := fieldBe bs (l4 + 2) 2
    if !s.hasAddr ifc dst || !s.localPorts.contains p then none
    else if p = s.ouv.port then some .ouvlen
    else if p = s.fab.port then some .fabric
    else if p = 3784 then some .bfd else some .ptp
  match etype x bs with
  | 0x888E => some .eapol
  | 0x88F7 => if ifc = s.wall.ptpPort then some .ptp else none
  | 0x0806 => if s.hasAddr ifc (mapped (fieldBe bs (l3 + 24) 4)) then some .arpNdEcho else none
  | 0x0800 =>
    let dst := mapped (fieldBe bs (l3 + 16) 4)
    if fieldBe bs l3 1 ≠ 0x45 then none
    else if fieldBe bs (l3 + 9) 1 = 17 then port dst (l3 + 20)
    else if fieldBe bs (l3 + 9) 1 = 1 ∧ fieldBe bs (l3 + 20) 1 = 8 ∧ s.hasAddr ifc dst then
      some .arpNdEcho
    else none
  | 0x86DD =>
    let dst := BitVec.ofNat 128 (fieldBe bs (l3 + 24) 16)
    let nh := fieldBe bs (l3 + 6) 1
    let icmp := fieldBe bs (l3 + 40) 1
    if nh = 17 then port dst (l3 + 40)
    else if nh ≠ 58 then none
    else if icmp = 135 then
      (if s.hasAddr ifc (BitVec.ofNat 128 (fieldBe bs (l3 + 48) 16)) then some .arpNdEcho else none)
    else if (icmp = 128 ∨ (133 ≤ icmp ∧ icmp ≤ 137)) ∧ s.hasAddr ifc dst then some .arpNdEcho
    else none
  | _ => none

/-! ### ARP, neighbour discovery and echo (R56) -/

/-- The MAC address of an interface (R56): the fused block's first four for the line interfaces, the
next for the service port. -/
def State.mac (ifc : Nat) (s : State) : List Byte := beBytes 6 (s.fuses.macBase + ifc)

/-- The Ethernet header of a reply: to the request's sender, with the request's tags and EtherType.
[DEDUCED: notes/assumptions/128.md] -/
def replyHead (extra : Nat) (mac bs : List Byte) : List Byte :=
  (bs.drop 6).take 6 ++ mac ++ (bs.drop 12).take (etypeAt extra bs - 10)

/-- The reply to an ARP request: sender and target change places, with the K4's MAC address. -/
def arpReply (head mac p : List Byte) : List Byte :=
  head ++ p.take 6 ++ [0, 2] ++ mac ++ (p.drop 24).take 4 ++ (p.drop 8).take 10

/-- The reply to an ICMP echo request in an IPv4 packet without options. -/
def echoReply4 (head p : List Byte) : List Byte :=
  let n := fieldBe p 2 2
  let ip := fixIpv4 (p.take 8 ++ [64] ++ (p.drop 9).take 3 ++ (p.drop 16).take 4 ++
    (p.drop 12).take 4) 0
  let icmp := [0, 0, 0, 0] ++ (p.drop 24).take (n - 24)
  head ++ ip ++ putBytes icmp 2 (beBytes 2 (inetSum icmp))

/-- An ICMPv6 message in an IPv6 packet, with its checksum (RFC 4443). -/
def icmp6Packet (hop : Nat) (src dst msg : List Byte) : List Byte :=
  let sum := inetSum (src ++ dst ++ beBytes 4 msg.length ++ beBytes 4 58 ++ msg)
  beBytes 4 0x60000000 ++ beBytes 2 msg.length ++ [58] ++ beBytes 1 hop ++ src ++ dst ++
    putBytes msg 2 (beBytes 2 sum)

/-- The reply to an ICMPv6 echo request. -/
def echoReply6 (head p : List Byte) : List Byte :=
  head ++ icmp6Packet 64 ((p.drop 24).take 16) ((p.drop 8).take 16)
    ([129, 0, 0, 0] ++ (p.drop 44).take (fieldBe p 4 2 - 4))

/-- The neighbour advertisement that answers a solicitation (RFC 4861): solicited and override; to
the unspecified address it goes to all nodes, not as solicited. -/
def ndReply (head mac p : List Byte) : List Byte :=
  let target := (p.drop 48).take 16
  let asked := fieldBe p 8 16 ≠ 0
  let msg := [136, 0, 0, 0] ++ beBytes 4 (if asked then 0x60000000 else 0x20000000) ++ target ++
    [2, 1] ++ mac
  if asked then head ++ icmp6Packet 255 target ((p.drop 8).take 16) msg
  else [0x33, 0x33, 0, 0, 0, 1] ++ head.drop 6 ++
    icmp6Packet 255 target (beBytes 16 (0xFF02 * 2 ^ 112 + 1)) msg

/-- What Isain answers to a request for an address of an interface (R56); none to any other local
frame of the kind. [PRESUMED: notes/assumptions/12.md] -/
def replyTo (extra : Nat) (mac bs : List Byte) : Option (List Byte) :=
  let p := bs.drop (etypeAt extra bs + 2)
  let head := replyHead extra mac bs
  let r : Option (List Byte) := match etype extra bs with
    | 0x0806 => if fieldBe p 6 2 = 1 then some (arpReply head mac p) else none
    | 0x0800 => if fieldBe p 20 1 = 8 then some (echoReply4 head p) else none
    | 0x86DD =>
      if fieldBe p 40 1 = 135 then some (ndReply head mac p)
      else if fieldBe p 40 1 = 128 then some (echoReply6 head p) else none
    | _ => none
  r.map fun b => b ++ List.replicate (60 - b.length) 0

/-- `ARP_ND_ECHO` (R56, R113): a request for an address of the interface is answered in its control
queue. -/
def execArpNdEcho (t ifc : Nat) (request : List Byte) (s : State) : Host.Outcome State Fault Refusal :=
  s.happen t
    (fun s => s.alive && s.bay.isainUp &&
      (ifc == 4 || (s.moving && s.lineIfcs.contains ifc && (s.ifc ifc).role != 0)) &&
      (s.ifc ifc).link && s.localKind ifc request == some .arpNdEcho)
    fun s => match replyTo (s.ifc ifc).tpidExtra (s.mac ifc) request with
      | some b => s.control ifc b
      | none => s

/-! ### Copies (R456) -/

/-- The words of frame bytes in an entry. -/
def copyWords (n : Nat) (bs : List Byte) : List W64 := bytesWords n bs

/-- A `COPY` item of a frame: reason, and the verdict's model where one is named. -/
def copyItem (f : Frame) (reason : Nat) (v : Option Verdict) : RingItem :=
  let n := 1 + (f.bytes.length - 96 + 119) / 120
  let who : Nat := match v with
    | some v => v.part * 2 ^ 58 + v.epoch * 2 ^ 16 + v.model
    | none => 0
  let first := [entryHead 0x15 (bit f.poison) n reason, BitVec.ofNat 64 f.rxTick,
    BitVec.ofNat 64 (f.bytes.length * 2 ^ 48 + f.ifc * 2 ^ 40 + f.rule.getD 0xFFFF * 2 ^ 24),
    BitVec.ofNat 64 who] ++ copyWords 12 (f.bytes.take 96)
  first :: (List.range (n - 1)).map fun i =>
    entryHead 0x15 0 0 0 :: copyWords 15 ((f.bytes.drop (96 + 120 * i)).take 120)

/-- A frame copied to a ring. -/
def State.copyFrame (ring : Nat) (f : Frame) (reason : Nat) (v : Option Verdict) (s : State) :
    State := s.ringItem ring (copyItem f reason v)

/-! ### Reception (R55, R64 to R66, R115) -/

/-- The descriptors of the parse queues in use (R114). -/
def State.descriptors (s : State) : Nat :=
  (s.parser.frames.filter fun e => e.2.stage == .parseQueue).length

/-- `pq_thresh` of a priority (R115). -/
def Parser.thresh (p : Parser) (prio : Nat) : Nat := tgetD p.pqThresh prio (16384 + 2048 * prio)

/-- A received PFC frame's pauses (R64): each quantum is 512 bit times. -/
def State.pfcApply (ifc : Nat) (quanta : List (Nat × Nat)) (s : State) : State :=
  quanta.foldl (fun s q =>
    if (s.ifc ifc).pfcEnable.getLsbD q.1 then
      s.modIfc ifc fun i => { i with
        pausedUntil := if q.2 = 0 then tdel i.pausedUntil q.1
          else tset i.pausedUntil q.1 (s.tick + (q.2 * 512 + s.speed ifc - 1) / s.speed ifc) }
    else s) s

/-- The priorities and quanta a PFC frame carries (IEEE 802.1Qbb). -/
def pfcQuanta (bs : List Byte) : List (Nat × Nat) :=
  (List.range 8).filterMap fun p =>
    if (fieldBe bs 16 2).testBit p then some (p, fieldBe bs (18 + 2 * p) 2) else none

/-- A frame that is not local is admitted to its parse queue, or dropped, a drained port's among them (R61, R115).
[DEDUCED: notes/assumptions/152.md] -/
def State.admitFrame (ifc : Nat) (bs : List Byte) (s : State) : State :=
  let prio := (s.ifc ifc).priority bs
  if s.shut ifc then s.count Ctr.rxDrained ifc
  else if s.closed then s.count Ctr.rxQuiesced ifc
  else if s.parser.thresh prio ≤ s.descriptors then s.count Ctr.rxParseDrop (ifc * 8 + prio)
  else
    (s.updParser fun p => { p with
      nextFrame := p.nextFrame + 1
      frames := tset p.frames p.nextFrame
        { bytes := bs, ifc := ifc, rxTick := s.tick, rxWall := (s.wallAt s.tick).getD 0,
          prio := prio
          set := { role := (s.ifc ifc).role
                   roles := (List.range 4).map fun i => (s.ifc i).role
                   macsec := (List.range 4).map fun i => (s.ifc i).macsecMode, tpid := (s.ifc ifc).tpidExtra,
                   maxFrames := (List.range 4).map fun i => (s.ifc i).maxFrame } } }).pfcCheck ifc prio

/-- A receive association takes a packet number (R65, R66): one that the replay window still admits;
none for an older one. -/
def Sa.take (window pn : Nat) (x : Sa) : Option Sa :=
  if pn + window < x.nextPn then none else some { x with nextPn := max x.nextPn (pn + 1) }

/-- A frame whose MACsec check is done (R66): a protected one passes the replay test of its
association, an unprotected one is counted or dropped by `macsec_mode`. -/
def State.macsecPass (ifc : Nat) (bs : List Byte) (sec : MacsecIn) (s : State) : Option State :=
  let i := s.ifc ifc
  match sec with
  | .bad => none
  | .ok sc an pn => ((tget i.rxSas (saKey sc an)).bind fun x => x.take i.replayWindow pn).map fun x =>
    s.modIfc ifc fun i => { i with rxSas := tset i.rxSas (saKey sc an) x }
  | .none =>
    if i.macsecMode = 0 then some s
    else if i.macsecMode = 2 ∧ etype i.tpidExtra bs ≠ 0x888E then none
    else some (if i.macsecMode = 1 ∨ etype i.tpidExtra bs ≠ 0x888E then
      s.count Ctr.rxMacsecUnprot ifc else s)

/-- A frame accepted by the MAC: pause frames, local frames, then the parse queues.
[DEDUCED: notes/assumptions/44.md; DEDUCED: notes/assumptions/152.md; DESIGN CHOICE: notes/assumptions/141.md] -/
def State.takeFrame (ifc : Nat) (bs : List Byte) (s : State) : State :=
  if fieldBe bs 12 2 = 0x8808 then
    (if fieldBe bs 14 2 = 0x0101 then s.pfcApply ifc (pfcQuanta bs) else s.count Ctr.rxPause ifc)
  else match s.localKind ifc bs with
    | some .eapol =>
      match (tgetD s.cls.ifcs ifc {}).copyRing with
      | some n => s.copyFrame n { bytes := bs, ifc := ifc, rxTick := s.tick, prio := 0 } 5 none
      | none => s
    | some _ => s
    | none => s.admitFrame ifc bs

/-- `FRAME_RECEIVE` (R55, R66, R113, R115): `bytes` is the frame after MACsec, without its FCS. What
a local frame does to the engine it goes to is the row of its kind. A frame that comes while the link
trains is dropped and counted (R46), with those of a stop.
[DEDUCED: notes/assumptions/44.md] [DESIGN CHOICE: notes/assumptions/127.md] -/
def execFrameReceive (t ifc : Nat) (bytes : List Byte) (fcsOk : Bool) (sec : MacsecIn) (s : State) :
    Host.Outcome State Fault Refusal :=
  s.happen t
    (fun s => s.alive && (s.bay.step15 || (tget s.bay.loaded 5).isSome) && s.pkg.sdClock &&
      s.lineIfcs.contains ifc && (s.ifc ifc).role != 0)
    fun s =>
      if !s.bay.step15 || s.obs.islandsStopped || !(s.ifc ifc).link then s.count Ctr.rxStopped ifc
      else if bytes.length + 4 < 64 then s.count Ctr.rxRunt ifc
      else if (s.ifc ifc).maxFrame < bytes.length + 4 then s.count Ctr.rxOversize ifc
      else if !fcsOk then s.count Ctr.rxFcs ifc
      else match s.macsecPass ifc bytes sec with
        | some s => s.takeFrame ifc bytes
        | none => s.count (if sec = .none then Ctr.rxMacsecUnprot else Ctr.rxMacsecFail) ifc

/-- `PFC_RECEIVE` (R64): priorities with their pause quanta. -/
def execPfcReceive (t ifc : Nat) (quanta : List (Nat × Nat)) (s : State) :
    Host.Outcome State Fault Refusal :=
  s.happen t (fun s => s.moving && decide (ifc < 4) && (s.ifc ifc).role != 0) fun s =>
    s.pfcApply ifc quanta

/-- `PFC_PAUSE_EXPIRY` (R64): the pause time of a priority has run out. -/
def execPfcPauseExpiry (t ifc prio : Nat) (s : State) : Host.Outcome State Fault Refusal :=
  s.happen t
    (fun s => s.moving && due (tget (s.ifc ifc).pausedUntil prio) s.tick)
    fun s => s.modIfc ifc fun i => { i with pausedUntil := tdel i.pausedUntil prio }

/-! ### Chive parses (R114 to R125) -/

/-- A record with `w` bits from bit `lo` replaced. -/
def putBits (r lo w v : Nat) : Nat := r - r / 2 ^ lo % 2 ^ w * 2 ^ lo + v % 2 ^ w * 2 ^ lo

/-- A field of a parse record (R125). -/
def Frame.field (f : Frame) (hi lo : Nat) : Nat := bitsOf f.record.toNat hi lo

/-- A flag of `pflags`. -/
def Frame.pflag (f : Frame) (b : Nat) : Bool := f.record.toNat.testBit (16 + b)

/-- A parse in progress: program counter, registers, cursor, instructions and cycles run, layers (type
and offset), declared extents by layer, stored bits, program flags, trailer. -/
structure Parse where
  pc : Nat := 0
  regs : Tab W32 := []
  cursor : Nat := 0
  count : Nat := 0
  cycles : Nat := 0
  layers : List (Nat × Nat) := []
  extents : Tab Nat := []
  record : Nat := 0
  flags : Nat := 0
  trailer : Bool := false
  deriving DecidableEq, Repr

/-- How a parse goes on, or ends with an exception code. -/
inductive ParseStep where
  | go (p : Parse)
  | stop (p : Parse) (code : Nat)
  deriving DecidableEq, Repr

/-- A register of a processor (R116). -/
def Parse.reg (p : Parse) (r : Nat) : W32 := tgetD p.regs r 0

/-- A register written. -/
def Parse.setReg (p : Parse) (r : Nat) (v : W32) : Parse := { p with regs := tset p.regs r v }

/-- A register or a constant. -/
def Parse.val (p : Parse) : ChiveVal → W32
  | .reg r => p.reg r
  | .const v => v

/-- The `ALU` class (R116). [DESIGN CHOICE: notes/assumptions/46.md] -/
def aluOp (fn : AluFn) (a b : W32) : W32 :=
  match fn with
  | .add => a + b
  | .sub => a - b
  | .and => a &&& b
  | .or => a ||| b
  | .xor => a ^^^ b
  | .shl => a <<< b.toNat
  | .shr => a >>> b.toNat
  | .eq => if a = b then 1 else 0
  | .less => if a.toNat < b.toNat then 1 else 0

/-- A table's value for a register (R116); 0 where no row matches.
[DESIGN CHOICE: notes/assumptions/46.md] -/
def tableValue (x : ChiveTable) (key : W32) : W32 :=
  ((x.rows.find? fun e => e.1 == key).map (·.2)).getD 0

/-- A table of a program, by number. -/
def progTable (g : ChiveProg) (n : Nat) : ChiveTable :=
  (g.tables[n]?).getD { exact := false, bytes := 0, rows := [] }

/-- The cycles of an instruction (R116). -/
def chiveCost (g : ChiveProg) (p : Parse) : ChiveOp → Nat
  | .branch r _ => if p.reg r ≠ 0 then 2 else 1
  | .lookup _ _ n => if (progTable g n).exact then 4 else 2
  | _ => 1

/-- A position reached: past the frame is malformed, past the window parse-incomplete (R120). -/
def reach (len pos : Nat) (p : Parse) (k : ParseStep) : ParseStep :=
  if len < pos then .stop p 5 else if 512 < pos then .stop p 2 else k

/-- The bits a program may store: `ufield` down to `pay_off` (R125). -/
def storable (off width : Nat) : Bool :=
  decide (336 ≤ off) && decide (off + width ≤ 2048) && decide (width ≤ 32)

/-- A record with its reserved bits clear (R125). -/
def clearResv (r : Nat) : Nat := putBits (putBits (putBits r 512 19 0) 448 12 0) 384 8 0

/-- The flags a program sets; the others of `pflags` are the K4's own (R121 to R125).
[DESIGN CHOICE: notes/assumptions/46.md] -/
def programFlags : Nat := 0x3F00

/-- The program has marked the frame as a fragment other than the first (R123). -/
def Parse.nonFirst (p : Parse) : Bool := p.flags.testBit 12

/-- The layer types of R125 above IP: TCP, UDP, ICMP. [DESIGN CHOICE: notes/assumptions/46.md] -/
def l4Type (ltype : Nat) : Bool := ltype == 7 || ltype == 8 || ltype == 9

/-- The layers of a parse and their extents without those of L4: what a program opened before it marked the frame
as a fragment other than the first (R123). [DESIGN CHOICE: notes/assumptions/46.md] -/
def Parse.noL4 (p : Parse) : Parse :=
  let keep := (List.range p.layers.length).filter fun i => !l4Type ((p.layers[i]?).getD (0, 0)).1
  { p with
    layers := p.layers.filter fun l => !l4Type l.1
    extents := keep.zipIdx.filterMap fun e => (tget p.extents e.1).map fun x => (e.2, x) }

/-- A `LAYER` (R116, R120, R123): no 13th layer, none at an offset that a record cannot hold, and no L4
layer in a fragment other than the first. The cursor's move is checked against the frame, then
against the window. [DESIGN CHOICE: notes/assumptions/46.md] -/
def openLayer (len ltype adv : Nat) (p : Parse) : ParseStep :=
  let barred := p.nonFirst && l4Type ltype
  if 12 ≤ p.layers.length && !barred then .stop p 1
  else
    let at512 := decide (512 ≤ p.cursor)
    let q := if at512 || barred then p
      else { p with layers := p.layers ++ [(ltype, p.cursor)] }
    reach len (p.cursor + adv) q
      (if at512 then .stop q 2 else .go { q with cursor := p.cursor + adv })

/-- A `DECLARE` (R121): the extent of the current layer, checked against the enclosing extents and
the frame.
[DESIGN CHOICE: notes/assumptions/148.md] -/
def declareExtent (len n : Nat) (p : Parse) : ParseStep :=
  match p.layers.getLast? with
  | none => .go p
  | some (_, start) =>
    let me := p.layers.length - 1
    let ext := start + n
    let outer := (p.extents.filter fun e => decide (e.1 < me)).map (·.2)
    if outer.any fun e => decide (e < ext) then .stop p 4
    else if len < ext then .stop p 5
    else .go { p with
      extents := tset p.extents me ext
      trailer := p.trailer || decide (ext < outer.foldl min len) }

/-- One instruction of a program on a frame's bytes (R116, R117, R120 to R122); `limit` is
`parse_cycle_max`. [DESIGN CHOICE: notes/assumptions/46.md] -/
def chiveStep (g : ChiveProg) (bs : List Byte) (limit : Nat) (p : Parse) (op : ChiveOp) :
    ParseStep :=
  let c := p.cycles + chiveCost g p op
  let n := { p with cycles := c, pc := p.pc + 1, count := p.count + 1 }
  if limit < c then .stop p 3
  else match op with
    | .extract dst off k => reach bs.length (p.cursor + off + k) n
        (.go (n.setReg dst (BitVec.ofNat 32 (fieldBe bs (p.cursor + off) k))))
    | .alu fn dst a b => .go (n.setReg dst (aluOp fn (p.reg a) (p.val b)))
    | .branch r target => .go (if p.reg r ≠ 0 then { n with pc := target } else n)
    | .lookup dst key k => .go (n.setReg dst (tableValue (progTable g k) (p.reg key)))
    | .layer ltype adv => openLayer bs.length ltype (p.val adv).toNat n
    | .declareExt v => declareExtent bs.length (p.val v).toNat n
    | .store off w src => .go (if storable off w then
        { n with record := clearResv (putBits p.record off w (p.reg src).toNat) } else n)
    | .flagBits m =>
      let n := { n with flags := p.flags ||| (m.toNat &&& programFlags) }
      .go (if n.nonFirst then n.noL4 else n)
    | .accept => .stop n 0
    | .reject => .stop n 6

/-- A program runs on a frame. `fault` is how many instructions have run when the processor reads a word
of the group's memory that is uncorrectable (R119). An instruction takes a cycle at least, so `limit`
and one bound them. Past its last instruction a program ends as at `ACCEPT`.
[DESIGN CHOICE: notes/assumptions/46.md] -/
def chiveRun (g : ChiveProg) (bs : List Byte) (limit : Nat) (fault : Option Nat) :
    Nat → Parse → Parse × Nat
  | 0, p => (p, 3)
  | fuel + 1, p =>
    if fault = some p.count then (p, 7)
    else match g.code[p.pc]? with
      | none => (p, 0)
      | some op => match chiveStep g bs limit p op with
        | .go p => chiveRun g bs limit fault fuel p
        | .stop p code => (p, code)

/-- The record before any field is stored: offsets 0xFFFF (R125). -/
def freshRecord : Nat := 0xFFFF * 2 ^ 368 + 0xFFFF * 2 ^ 352 + 0xFFFF * 2 ^ 336

/-- The stored fields of a parse: those of L4 are absent in a fragment other than the first (R123). -/
def Parse.fields (p : Parse) : Nat :=
  if p.nonFirst then putBits (putBits (putBits p.record 544 32 0) 408 8 0) 352 16 0xFFFF else p.record

/-- Codes of parse-incomplete and of malformed records (R125). -/
def incompleteCode (c : Nat) : Bool := c == 1 || c == 2 || c == 3 || c == 7
def malformedCode (c : Nat) : Bool := c == 4 || c == 5 || c == 6

/-- The parse record of an ended parse (R121, R125). -/
def parseRecord (f : Frame) (progId : Nat) (p : Parse) (code : Nat) : BitVec 2048 :=
  let len := f.bytes.length
  let fields := p.fields
  let payOff := bitsOf fields 351 336
  let last := (p.extents.getLast?.map (·.2)).getD len
  let payLen := if payOff = 0xFFFF then 0 else last - payOff
  let flags := p.flags + (if incompleteCode code then 0x8000 else 0) +
    (if malformedCode code then 0x4000 else 0) + (if p.trailer then 0x80 else 0) +
    (if ((f.bytes[0]?).getD 0).getLsbD 0 then 0x40 else 0)
  let layers := (List.range 12).map fun i =>
    let l := (p.layers[i]?).getD (0x7F, 0)
    (l.2 % 512 * 128 + l.1 % 128) * 2 ^ (128 + 16 * i)
  BitVec.ofNat 2048 (fields + payLen * 2 ^ 320 + layers.sum + f.rxTick % 2 ^ 64 * 2 ^ 64 +
    f.len * 2 ^ 48 + f.ifc * 2 ^ 40 + f.prio * 2 ^ 37 + p.layers.length * 2 ^ 32 + flags * 2 ^ 16 +
    progId * 2 ^ 8 + code)

/-- The frames of a parse queue, oldest first. -/
def State.parseQueue (ifc prio : Nat) (s : State) : List Nat :=
  (s.parser.frames.filter fun e =>
    e.2.stage == .parseQueue && e.2.ifc == ifc && e.2.prio == prio).map (·.1)

/-- The frame a free processor takes next (R114): the highest priority, then round-robin over the
interfaces. -/
def State.nextParse (s : State) : Option Nat :=
  ((List.range 8).reverse.flatMap fun p =>
    (List.range 4).flatMap fun k =>
      (s.parseQueue ((tgetD s.parser.rrNext p 0 + k) % 4) p).take 1).head?

/-- The program an interface names: its slot and load count as `prog_id` has them; 0 with none.
[DESIGN CHOICE: notes/assumptions/20.md] -/
def Parser.progId (p : Parser) (ifc : Nat) : Nat :=
  match tget p.ifcSlot ifc with
  | some k => k * 32 + (tgetD p.slots k {}).loads % 32
  | none => 0

/-- A table-memory fault reported to Rosemary (R450). -/
def State.packetFault (sub index : Nat) (s : State) : State :=
  s.record 0x0030 4 0 0xFF 2 [(8, sub), (32, index)]

/-- The program that an interface names; an interface that names none has an empty one
(notes/assumptions/20.md). -/
def Parser.prog (p : Parser) (ifc : Nat) : ChiveProg :=
  match tget p.ifcSlot ifc with
  | some k => (tgetD p.slots k {}).prog
  | none => {}

/-- A frame parsed by a group with the program its interface names (R114 to R125); with none it reads
no word of the group's memory. -/
def State.parseFrame (id group : Nat) (f : Frame) (fault : Option Nat) (s : State) : State :=
  let fault := if (tget s.parser.ifcSlot f.ifc).isNone then none else fault
  let run := if f.poison then (({ record := freshRecord } : Parse), 7)
    else chiveRun (s.parser.prog f.ifc) f.bytes s.parser.cycleMax fault (s.parser.cycleMax + 1)
      { record := freshRecord }
  let code := run.2
  let s := s.modFrame id fun f => { f with
    stage := .parsed, record := parseRecord f (s.parser.progId f.ifc) run.1 code }
  let s := s.updParser fun p => { p with rrNext := tset p.rrNext f.prio ((f.ifc + 1) % 4) }
  let s := if run.1.trailer then s.count Ctr.rxTrailer f.ifc else s
  let s := if incompleteCode code then s.count Ctr.rxParseIncomplete (f.ifc * 8 + code)
    else if malformedCode code then s.count Ctr.rxMalformed (f.ifc * 8 + code) else s
  if code = 7 ∧ !f.poison then
    ((s.updParser fun p => { p with offline := p.offline ++ [group] }).tally
      Ctr.parseFault).packetFault 0 group
  else s

/-- `CHIVE_PARSE` (R114): a free processor of a group takes the next frame, and parses it. -/
def execChiveParse (t frame group : Nat) (fault : Option Nat) (s : State) :
    Host.Outcome State Fault Refusal :=
  s.happen t
    (fun s => s.moving && decide (group < 16) && !s.parser.offline.contains group &&
      s.nextParse == some frame)
    fun s => match s.frame frame with
      | some f => s.parseFrame frame group f fault
      | none => s

/-- `CHIVE_GROUP_REWRITE` (R119): the group returns to service. -/
def execChiveGroupRewrite (t group : Nat) (s : State) : Host.Outcome State Fault Refusal :=
  s.happen t (fun s => s.running && s.bay.isainUp && s.parser.offline.contains group &&
    !s.parser.groupsOut.contains group) fun s =>
    s.updParser fun p => { p with offline := p.offline.filter (· != group) }

/-! ### Parse commands (R115 to R118) -/

/-- The kept value of parsing and spreading. -/
def State.parserVal (s : State) : StVal := .parser s.parser.settings

/-- A program is larger than a slot takes (R116). -/
def progLarge (g : ChiveProg) : Bool :=
  decide (2048 < g.code.length) || decide (32 < g.tables.length) ||
    decide (65536 < (g.tables.map (·.bytes)).sum)

/-- A layer type that a `LAYER` may open: the table of R125 lists it. -/
def layerListed (ltype : Nat) : Bool :=
  (decide (1 ≤ ltype) && decide (ltype ≤ 0x0E)) || (decide (0x40 ≤ ltype) && decide (ltype ≤ 0x7E))

/-- A program opens a layer of a type that no table lists (R7, R125). -/
def progUnlisted (g : ChiveProg) : Bool :=
  g.code.any fun op => match op with
    | .layer ltype _ => !layerListed ltype
    | _ => false

/-- `PARSE_LOAD` (R116, R118); `prog` is what the toolkit's encoding makes of the bytes.
[DEDUCED: notes/assumptions/51.md] [DESIGN CHOICE: notes/assumptions/46.md] -/
def execParseLoad (t : Nat) (h : CmdHdr) (pslot addr len : Nat) (prog : ChiveProg) (s : State) :
    Host.Outcome State Fault Refusal :=
  s.isain t { op := 0x0601 } h noObj (isP0 h) fun s =>
    checks
      [(decide (8 ≤ pslot) || decide (81920 < len) || !inSoftware addr len, .eRange),
       (s.parser.ifcSlot.any fun e => e.2 == pslot, .eState)]
     (Reply.after (s.touch addr len 0) <| checks
      [(!s.mem.readable addr len, .eFault), (progLarge prog, .eRange), (progUnlisted prog, .eArg)]
      (let n := (tgetD s.parser.slots pslot {}).loads + 1
       let s := (s.touch addr len 0).updParser fun p => { p with
         slots := tset p.slots pslot { image := s.bytesAt addr len, prog := prog, loads := n % 32 } }
       .done .ok (pack [(5, n)]) (s.keep s.parserVal)))

/-- `PARSE_COMMIT` (R118): the slots of interfaces 0 to 3. -/
def execParseCommit (t : Nat) (h : CmdHdr) (slots : List Nat) (s : State) :
    Host.Outcome State Fault Refusal :=
  s.isain t { op := 0x0602 } h noObj (isP0 h) fun s =>
    checksAt
      [(onWhole (decide (slots.length ≠ 4)), .eArg),
       (itemBad 0 (fun k => decide (8 ≤ k)) slots, .eRange),
       (itemBad 0 (fun k => (tget s.parser.slots k).isNone) slots, .eState)]
      (let s := s.updParser fun p => { p with ifcSlot := slots.zipIdx.map fun e => (e.2, e.1) }
       okReply (s.keep s.parserVal))

/-- The checks of `PARSE_CONFIG`'s settings: 1 `pq_thresh`, 2 `parse_cycle_max`. -/
def parseChk (r : SetRec) : Option Status :=
  match r.id with
  | 1 => scopeIn r 8 (if r.value < 1024 ∨ 32768 < r.value then some .eArg else none)
  | 2 => scopeIn r 1 (inRange r 64 4096)
  | _ => some .eArg

/-- `PARSE_CONFIG`'s settings applied. -/
def parseApply (s : State) (r : SetRec) : State :=
  match r.id with
  | 1 => s.updParser fun p => { p with pqThresh := tset p.pqThresh r.scope r.value }
  | 2 => s.updParser fun p => { p with cycleMax := r.value }
  | _ => s

/-- The thresholds must not fall from priority 0 to 7 (R115). -/
def threshOrder (p : Parser) : Bool := (List.range 7).all fun i => p.thresh i ≤ p.thresh (i + 1)

/-- `PARSE_CONFIG` (R115, R117). -/
def execParseConfig (t : Nat) (h : CmdHdr) (recs : List SetRec) (s : State) :
    Host.Outcome State Fault Refusal :=
  s.isain t { op := 0x0603, resv := resvRec recs } h noObj (isP0 h)
    (settings parseChk parseApply
      (fun _ s => if threshOrder s.parser then none else some .eArg)
      (fun s => s.keep s.parserVal) recs)

/-! ### Load spreading (R131 to R134) -/

/-- The packet-path context's number. -/
def packetCtx : Nat := 0x40

/-- The owner of a cluster that a context's entries may name: its partition, or the packet path. -/
def ctxOwner (ctx : Nat) : Nat := ctx

/-- A cluster takes new work of an owner: it owns it, and the cluster is not leaving (R204). -/
def State.serves (owner c : Nat) (s : State) : Bool :=
  (s.cluster c).owner == owner && (s.cluster c).leaving.isNone && decide (c < nClusters)

/-- The clusters an owner holds for new work, ascending. -/
def State.clustersOf (owner : Nat) (s : State) : List Nat :=
  (s.comp.clusters.map (·.1)).filter fun c => s.serves owner c

/-- The largest input a selection can give, in bytes (R132). -/
def selBytes (sel : BitVec 9) : Nat :=
  ([16, 16, 2, 2, 1, 2, 4, 3, 4].zipIdx.map fun e => if sel.getLsbD e.2 then e.1 else 0).sum

/-- The status an entry is refused with (R133). [DEDUCED: notes/assumptions/121.md] -/
def State.entryBad (ctx : Nat) (e : SpreadEntry) (s : State) : Option Status :=
  if 2 ≤ e.tkind ∨ (e.tkind = 1 ∧ ctx = packetCtx) then some .eArg
  else if e.tkind = 0 then
    if nClusters ≤ e.target then some .eRange
    else if (s.cluster e.target).owner ≠ ctxOwner ctx then some .ePriv else none
  else if !s.ringMade e.target then some .eState
  else if (s.ring e.target).owner ≠ ctx then some .ePriv
  else if (s.ring e.target).rtype ≠ 6 then some .eArg else none

/-- An entry names a ring that is not made (R87, R133). [DEDUCED: notes/assumptions/121.md] -/
def State.entryMiss (e : SpreadEntry) (s : State) : Bool := e.tkind == 1 && !s.ringMade e.target

/-- The right of `SPREAD_CONFIG`: a partition's own context, and the packet path's of partition 0. -/
def ctxRight (h : CmdHdr) (ctx : Nat) : Bool :=
  if ctx = packetCtx then h.part == 0 else owns h ctx

/-- `SPREAD_CONFIG` (R131 to R134). -/
def execSpreadConfig (t : Nat) (h : CmdHdr) (spec : SpreadSpec) (s : State) :
    Host.Outcome State Fault Refusal :=
  s.isain t { op := 0x0604, late := true } h noObj anyPart fun s =>
    checksAt
      [(itemBad 0 (fun e => s.entryMiss e) spec.entries, .eState),
       (onWhole (!ctxRight h spec.ctx), .ePriv), unlistedAt h 0x0604,
       (onWhole (decide (packetCtx < spec.ctx)), .eArg),
       (onWhole (decide (512 < spec.start + spec.entries.length)), .eRange),
       (onWhole (decide (36 < selBytes spec.sel)), .eArg)]
      (match spec.entries.zipIdx.findSome? fun e => (s.entryBad spec.ctx e.1).map fun st => (st, e.2) with
       | some (st, i) => .refuse st i
       | none =>
         let s := s.updParser fun p => { p with
           spread := tup p.spread spec.ctx {} fun c => { c with
             sel := spec.sel
             sym := spec.sym
             key := if spec.wkey then spec.key else c.key
             table := spec.entries.zipIdx.foldl (fun t e => tset t (spec.start + e.2) e.1)
               c.table } }
         okReply (s.keep s.parserVal))

/-- The Toeplitz hash of R132. -/
def toeplitz (key : List Byte) (input : List Byte) : Nat :=
  let k := beNat (key ++ List.replicate (40 - key.length) 0)
  (List.range (8 * input.length)).foldl (fun h i =>
    if (beNat input).testBit (8 * input.length - 1 - i) then
      h ^^^ (k / 2 ^ (288 - i) % 2 ^ 32)
    else h) 0

/-- Two fields in ascending order. -/
def ascending (sym : Bool) (a b : Nat) : Nat × Nat := if sym && decide (b < a) then (b, a) else (a, b)

/-- The hash input of a record (R132).
[DESIGN CHOICE: notes/assumptions/147.md] -/
def Spread.input (c : Spread) (f : Frame) : List Byte :=
  let v4 := f.pflag 9
  let v6 := f.pflag 8
  let ip := v4 || v6
  let ports := f.field 367 352 != 0xFFFF && !f.pflag 13
  let w := if v4 then 4 else 16
  let as := ascending c.sym (f.field 703 576 % 2 ^ (8 * w)) (f.field 831 704 % 2 ^ (8 * w))
  let ps := ascending c.sym (f.field 575 560) (f.field 559 544)
  let vlan := (List.range (f.field 36 32)).any fun i => f.field (134 + 16 * i) (128 + 16 * i) == 2
  let fld (i : Nat) (on : Bool) (n v : Nat) : List Byte :=
    if c.sel.getLsbD i && on then beBytes n v else []
  fld 0 ip w as.1 ++ fld 1 ip w as.2 ++ fld 2 ports 2 ps.1 ++ fld 3 ports 2 ps.2 ++
    fld 4 ip 1 (f.field 423 416) ++ fld 5 vlan 2 (f.field 447 436) ++
    fld 6 (f.pflag 10) 4 (f.field 511 480) ++ fld 7 v6 3 (f.field 479 460) ++
    (if c.sel.getLsbD 8 then leBytes 4 (f.field 863 832) else [])

/-- Where a hash lands. -/
inductive Landing where
  | cluster (c : Nat)
  | ring (n : Nat)
  | nowhere
  deriving DecidableEq, Repr

/-- The cluster chosen in place of an entry that cannot serve: the hash picks among the clusters the
owner holds (R134). -/
def State.spreadElse (ctx hash : Nat) (s : State) : Landing × State :=
  let held := s.clustersOf (ctxOwner ctx)
  match held[hash % held.length]? with
  | some c => (.cluster c, s.tally Ctr.spreadFallback)
  | none => (.nowhere, s)

/-- The choice of a context for a hash (R131, R134); a ring only for a frame.
[DESIGN CHOICE: notes/assumptions/47.md] -/
def State.spread (ctx hash : Nat) (forFrame : Bool) (s : State) : Landing × State :=
  let c := tgetD s.parser.spread ctx {}
  let e := tgetD c.table (hash % 512) { tkind := 0, target := 0 }
  if e.tkind = 1 then (if forFrame then (.ring e.target, s) else s.spreadElse ctx hash)
  else if s.serves (ctxOwner ctx) e.target then (.cluster e.target, s)
  else s.spreadElse ctx hash

/-- The hash of a frame under a context. -/
def State.frameHash (ctx : Nat) (f : Frame) (s : State) : Nat :=
  let c := tgetD s.parser.spread ctx {}
  toeplitz c.key (c.input f)

/-! ### Payload scans (R126 to R130) -/

/-- A pattern matches at an end offset of the scanned bytes. -/
def patternAt (p : Pattern) (bs : List Byte) (endOff : Nat) : Bool :=
  let lower (b : Byte) : Byte := if 0x41 ≤ b.toNat ∧ b.toNat ≤ 0x5A then b + 0x20 else b
  let n := p.body.length
  decide (0 < n) && decide (n ≤ endOff) &&
    (match p.endRange with
     | some (lo, hi) => decide (lo ≤ endOff) && decide (endOff ≤ hi)
     | none => true) &&
    (((bs.drop (endOff - n)).take n).zip p.body).all fun x =>
      if p.caseBlind then (x.2.map lower).contains (lower x.1) else x.2.contains x.1

/-- Matches in ascending order of identifier. -/
def byId : List (Nat × Nat) → Nat × Nat → List (Nat × Nat)
  | [], m => [m]
  | x :: r, m => if m.1 < x.1 then m :: x :: r else x :: byId r m

/-- All matches of a set in scanned bytes: identifier, group and end offset in the frame, by end
offset and then by identifier (R130).
[DESIGN CHOICE: notes/assumptions/146.md] -/
def scanMatches (pats : List Pattern) (bs : List Byte) (base : Nat) : List (Nat × Nat × Nat) :=
  (List.range (bs.length + 1)).flatMap fun e =>
    (((pats.filter fun p => patternAt p bs e).map fun p => (p.id, p.group)).foldl byId []).map
      fun m => (m.1, m.2, base + e)

/-- The match block of a scan (R130). -/
def matchBlock (ms : List (Nat × Nat × Nat)) (setId len tick : Nat) : MatchBlock :=
  { records := (ms.take 32).map fun m => (m.1, m.2.2), groupMap := (ms.map (·.2.1)).eraseDups
    scanTick := tick, nMatches := min ms.length 65535, status := 0, setId := setId, scanLen := len }

/-- The bytes a set's version scans, and where they start in the frame (R126). -/
def scanBytes (v : PatternVer) (f : Frame) : List Byte × Nat :=
  if v.fromL2 then (f.bytes, 0)
  else ((f.bytes.drop (f.field 351 336)).take (f.field 335 320), f.field 351 336)

end Sys2Proof.Machine
end

