-- ==== Sys2Proof/Machine/FlowOps.lean ====
section
/-! DEFINITION. Model domains as the data path sees them, the flow table in device memory, flow
records and features, recurrent cells and baselines (R148 to R153, R255 to R271, R295 to R297). -/

namespace Sys2Proof.Machine

/-! ### Model domains (R295 to R297) -/

/-- The packet-path domain. -/
def packetDomain : Nat := 0x40

/-- A domain. -/
def State.domain (d : Nat) (s : State) : Domain := tgetD s.models.domains d {}

/-- A domain changed. -/
def State.modDomain (d : Nat) (f : Domain → Domain) (s : State) : State :=
  s.updModels fun m => { m with domains := tup m.domains d {} f }

/-- The models bound to an epoch of a domain. -/
def Domain.modelsAt (x : Domain) (epoch : Nat) : List Model :=
  if epoch = x.epoch then x.models
  else match x.retiring with
    | some (e, ms) => if e = epoch then ms else []
    | none => []

/-- A model of a domain under an epoch. -/
def State.modelAt (d epoch handle : Nat) (s : State) : Option Model :=
  ((s.domain d).modelsAt epoch).find? fun m => m.handle == handle

/-- A committed model of a domain. -/
def State.liveModel (d handle : Nat) (s : State) : Option Model :=
  s.modelAt d (s.domain d).epoch handle

/-- The partition that owns a domain. -/
def domainOwner (d : Nat) : Nat := if d = packetDomain then 0 else d

/-! ### The flow table's memory (R148, R149, R160; notes/assumptions/21.md) -/

/-- A pipeline. -/
def State.pipe (p : Nat) (s : State) : Pipeline := tgetD s.cls.pipes p {}

/-- A pipeline changed. -/
def State.modPipe (p : Nat) (f : Pipeline → Pipeline) (s : State) : State :=
  s.updCls fun c => { c with pipes := tup c.pipes p {} f }

/-- The bytes a flow table takes: records, the control line and the buckets.
[DESIGN CHOICE: notes/assumptions/21.md] -/
def flowBytes (records : Nat) : Nat := records * 256 + 64 + records / 2 * 64

/-- The memory of a pipeline's flow table; none before partition 0 has provided it (R148). -/
def Pipeline.tableBase (p : Pipeline) : Option Nat := if p.flowSet then some p.flowBase else none

/-- The start of the index, where `tbl_ctl` lies. [DESIGN CHOICE: notes/assumptions/21.md] -/
def Pipeline.indexBase (p : Pipeline) : Nat := p.tableBase.getD 0 + p.flowRecords * 256

/-- The address of a record. [DESIGN CHOICE: notes/assumptions/21.md] -/
def Pipeline.recAddr (p : Pipeline) (i : Nat) : Nat := p.tableBase.getD 0 + i * 256

/-- The address of an index entry by bucket and place. [DESIGN CHOICE: notes/assumptions/21.md] -/
def Pipeline.entryAddr (p : Pipeline) (bucket i : Nat) : Nat :=
  p.indexBase + 64 + bucket * 64 + i * 16

/-- The table's lock bit (R160). -/
def State.flowLocked (p : Nat) (s : State) : Bool :=
  (s.pipe p).tableBase.isSome && (memGet s.mem.bytes (s.pipe p).indexBase).getLsbD 0

/-- A flow key as 352 bits, in the order of R148. -/
def keyBits (k : FlowKey) : Nat :=
  (((((((k.srcIp.toNat * 2 ^ 128 + k.dstIp.toNat) * 2 ^ 16 + k.srcPort.toNat) * 2 ^ 16 +
    k.dstPort.toNat) * 2 ^ 8 + k.ipProto.toNat) * 2 ^ 16 + k.vidOuter % 2 ^ 16) * 2 ^ 32 +
    k.tunnelId.toNat) * 2 ^ 8) + k.inIf % 2 ^ 8

/-- A key with its addresses and its ports in ascending order (R148). -/
def keySorted (sym : Bool) (k : FlowKey) : FlowKey :=
  if !sym then k
  else { k with
    srcIp := if k.dstIp.toNat < k.srcIp.toNat then k.dstIp else k.srcIp
    dstIp := if k.dstIp.toNat < k.srcIp.toNat then k.srcIp else k.dstIp
    srcPort := if k.dstPort.toNat < k.srcPort.toNat then k.dstPort else k.srcPort
    dstPort := if k.dstPort.toNat < k.srcPort.toNat then k.srcPort else k.dstPort }

/-- The frame came from the higher address, or from the higher port between equal addresses
(R255). -/
def keyReversed (k : FlowKey) : Bool :=
  decide (k.dstIp.toNat < k.srcIp.toNat) ||
    (k.srcIp == k.dstIp && decide (k.dstPort.toNat < k.srcPort.toNat))

/-- A frame's key as it arrived. -/
def Frame.key (f : Frame) : FlowKey :=
  { srcIp := BitVec.ofNat 128 (f.field 703 576), dstIp := BitVec.ofNat 128 (f.field 831 704),
    srcPort := BitVec.ofNat 16 (f.field 575 560), dstPort := BitVec.ofNat 16 (f.field 559 544),
    ipProto := BitVec.ofNat 8 (f.field 423 416), vidOuter := f.field 447 436,
    tunnelId := BitVec.ofNat 32 (f.field 511 480), inIf := f.field 47 40 }

/-- The two candidate buckets of a key (R149). [DESIGN CHOICE: notes/assumptions/105.md] -/
def Pipeline.buckets (p : Pipeline) (k : FlowKey) : Nat × Nat :=
  (Config.flowHash 0 (keyBits k) % (p.flowRecords / 2),
   Config.flowHash 1 (keyBits k) % (p.flowRecords / 2))

/-- The signature of a key (R149). -/
def keySig (k : FlowKey) : Nat := Config.flowHash 2 (keyBits k) % 2 ^ 64

/-- The entries of a key's candidate buckets, in order. -/
def Pipeline.entries (p : Pipeline) (k : FlowKey) : List Nat :=
  let b := p.buckets k
  let of (x : Nat) : List Nat := (List.range 4).map fun i => p.entryAddr x i
  of b.1 ++ (if b.2 = b.1 then [] else of b.2)

/-- The fields of an index entry (R149). -/
def ixValid (e : Nat) : Bool := e.testBit 0
def ixHit (e : Nat) : Bool := e.testBit 2
def ixBad (e : Nat) : Bool := e.testBit 3
def ixSeen (e : Nat) : Nat := bitsOf e 31 4
def ixRec (e : Nat) : Nat := bitsOf e 63 40
def ixSig (e : Nat) : Nat := bitsOf e 127 64

/-- `last_seen` of a tick (R149). -/
def seenAt (tick : Nat) : Nat := tick / 2 ^ 20 % 2 ^ 28

/-- An index entry's word. -/
def ixWord (sig record seen : Nat) (hit : Bool) : Nat :=
  sig * 2 ^ 64 + record * 2 ^ 40 + seen * 16 + bit hit * 4 + 1

/-- An index entry as memory holds it. -/
def State.ixAt (a : Nat) (s : State) : Nat := s.leAt a 16

/-- An index entry written whole. -/
def State.ixPut (a v : Nat) (s : State) : State := s.poke a (leBytes 16 v)

/-! ### The flow record (R255 to R258) -/

/-- The statistics half of a record as a 1,024-bit number. -/
def State.recStats (p i : Nat) (s : State) : Nat := s.leAt ((s.pipe p).recAddr i) 128

/-- A statistics half written. -/
def State.recPut (p i v : Nat) (s : State) : State :=
  s.poke ((s.pipe p).recAddr i) (leBytes 128 v)

/-- The statistics half can be read. -/
def State.recReadable (p i : Nat) (s : State) : Bool :=
  s.mem.readable ((s.pipe p).recAddr i) 128

/-- The state half can be read. -/
def State.halfReadable (p i : Nat) (s : State) : Bool :=
  s.mem.readable ((s.pipe p).recAddr i + 128) 128

/-- The state half is read (R325). -/
def State.touchHalf (p i : Nat) (s : State) : State := s.touch ((s.pipe p).recAddr i + 128) 128 0

/-- The key fields of a statistics half (R255). -/
def recKeyBits (k : FlowKey) : Nat :=
  k.srcIp.toNat * 2 ^ 896 + k.dstIp.toNat * 2 ^ 768 + k.srcPort.toNat * 2 ^ 752 +
    k.dstPort.toNat * 2 ^ 736 + k.ipProto.toNat * 2 ^ 728 + k.vidOuter % 2 ^ 12 * 2 ^ 716 +
    k.tunnelId.toNat * 2 ^ 680 + k.inIf % 2 ^ 8 * 2 ^ 672

/-- A record holds a key. -/
def recHolds (r : Nat) (k : FlowKey) : Bool := r / 2 ^ 672 == recKeyBits k / 2 ^ 672

/-- A value raised by `n`, saturating at `w` bits. -/
def satAdd (w v n : Nat) : Nat := min (v + n) (2 ^ w - 1)

/-- The size bin of a frame length (R257). -/
def sizeBin (n : Nat) : Nat :=
  ([128, 256, 512, 1024, 1518, 2048, 4096].filter fun b => decide (b ≤ n)).length

/-- A field of a record raised by `n`, saturating. -/
def bump (r lo w n : Nat) : Nat := putBits r lo w (satAdd w (bitsOf r (lo + w - 1) lo) n)

/-- A field of a record set. -/
def setF (r lo w v : Nat) : Nat := putBits r lo w v

/-- FP32 constants of the moving statistics. -/
def f16th (x : W32) : W32 := fdiv x 0x41800000
def f15of16 (x : W32) : W32 := fmul 0x3F700000 x

/-- The inter-arrival part of an update (R258). -/
def iatUpdate (r iat : Nat) : Nat :=
  let x := fnat iat
  if bitsOf r 543 512 = 1 then setF (setF r 432 32 x.toNat) 400 32 0
  else
    let mean : W32 := BitVec.ofNat 32 (bitsOf r 463 432)
    let var : W32 := BitVec.ofNat 32 (bitsOf r 431 400)
    let dlt := fsub x mean
    setF (setF r 432 32 (fadd mean (f16th dlt)).toNat) 400 32
      (f15of16 (fadd var (f16th (fmul dlt dlt)))).toNat

/-- This frame's inter-arrival time against a record. -/
def iatOf (r rxTick : Nat) : Nat := rxTick - bitsOf r 607 544

/-- The per-packet update of a statistics half (R258). -/
def recUpdate (isNew : Bool) (warmPkts : Nat) (f : Frame) (r : Nat) : Nat :=
  let ttl := f.field 407 400
  let r := if isNew then
      setF (setF (setF (setF r 608 64 f.rxTick) 544 64 f.rxTick) 120 8 ttl) 112 8 ttl
    else
      let r := iatUpdate r (iatOf r f.rxTick)
      let r := setF r 544 64 (max (bitsOf r 607 544) f.rxTick)
      setF (setF r 120 8 (min (bitsOf r 127 120) ttl)) 112 8 (max (bitsOf r 119 112) ttl)
  let r := bump r 512 32 1
  let r := bump r 464 48 f.len
  let r := bump r (272 + 16 * sizeBin f.len) 16 1
  let r := setF r 128 16 (max (bitsOf r 143 128) f.len)
  let r := if f.field 423 416 = 6 then
      (List.range 8).foldl (fun r i =>
        if (f.field 415 408).testBit i then bump r (144 + 16 * i) 16 1 else r) r
    else r
  if warmPkts ≤ bitsOf r 543 512 then setF r 47 1 1 else r

/-! ### Flow features (R260, R261, R267) -/

/-- √x in FP32. -/
def fsq (x : Nat) : W32 := fsqrt (BitVec.ofNat 32 x)

/-- A statistics feature of a record after the frame's update; none where its condition fails.
`iat` is this frame's inter-arrival time. -/
def statFeature (r iat id : Nat) : Option W32 :=
  let pkts := bitsOf r 543 512
  let dur := bitsOf r 607 544 - bitsOf r 671 608
  let word (hi lo : Nat) : W32 := BitVec.ofNat 32 (bitsOf r hi lo)
  let k := fnat 1000
  let hist (b : Nat) : Nat := bitsOf r (287 + 16 * b) (272 + 16 * b)
  match id with
  | 0 => some (fnat pkts)
  | 1 => some (fnat (bitsOf r 511 464))
  | 2 => some (fdiv (fnat dur) k)
  | 3 => some (fdiv (fnat (bitsOf r 511 464)) (fnat pkts))
  | 4 => some (fnat (bitsOf r 143 128))
  | 5 => if 2 ≤ pkts then some (fdiv (word 463 432) k) else none
  | 6 => if 3 ≤ pkts then some (fdiv (fsqrt (word 431 400)) k) else none
  | 7 => if 2 ≤ pkts then some (fdiv (fnat iat) k) else none
  | 8 => if 1000000 ≤ dur then
      some (fdiv (fmul (fnat (pkts - 1)) (fnat 1000000000)) (fnat dur)) else none
  | 9 => some (fnat (bitsOf r 119 112 - bitsOf r 127 120))
  | _ =>
    if 10 ≤ id ∧ id < 18 then
      some (fdiv (fnat (hist (id - 10))) (fnat (((List.range 8).map hist).sum)))
    else if 18 ≤ id ∧ id < 26 then
      (if bitsOf r 735 728 = 6 then
        some (fdiv (fnat (bitsOf r (159 + 16 * (id - 18)) (144 + 16 * (id - 18)))) (fnat pkts))
      else none)
    else none

/-- A BF16 pattern as FP32. -/
def bfUp (v : Nat) : W32 := BitVec.ofNat 32 (v % 2 ^ 16 * 2 ^ 16)

/-- An FP32 value rounded to BF16, as FP32 (R218). -/
def bfRound (x : W32) : W32 := bfUp (FFmt.bf16.ofV (fv x)).1

/-- A recurrent state value of a record. -/
def State.rstate (p i v : Nat) (s : State) : W32 :=
  bfUp (s.leAt ((s.pipe p).recAddr i + 128 + 2 * v) 2)

/-- The flow cell of a model (R263, R307). -/
def Model.flowCell (m : Model) : Option Cell := m.cells.find? fun x => x.use == 0

/-- The cell a pipeline runs: its handle's committed packet-path model with a flow cell (R263). -/
def State.pipeCell (p : Nat) (s : State) : Option (Model × Cell) :=
  if (s.pipe p).rsModel = 0 then none
  else match s.liveModel packetDomain (s.pipe p).rsModel with
    | some m => (m.flowCell).map fun x => (m, x)
    | none => none

/-- A record's state was written under the pipeline's cell, or under an epoch that it accepts
(R267). -/
def State.sameCell (p r : Nat) (s : State) : Bool :=
  match s.pipeCell p with
  | some (m, _) => bitsOf r 79 64 == m.handle &&
      (bitsOf r 63 48 == (s.domain packetDomain).epoch || m.params.rsCompat.contains (bitsOf r 63 48))
  | none => false

/-- The `f_rs` features of a record, missing where its state half cannot be read (R267, R268). -/
def State.rsFeatures (p i r : Nat) (s : State) : Tab W32 :=
  if r.testBit 46 && s.halfReadable p i && decide ((s.pipe p).warmPkts ≤ bitsOf r 111 80) && s.sameCell p r then
    (List.range 64).map fun v => (26 + v, s.rstate p i v)
  else []

/-- The flow features of a record by identifier: none while it is not warm (R261). -/
def State.flowFeatures (p i r iat : Nat) (s : State) : Tab W32 :=
  if r.testBit 47 then
    ((List.range 26).filterMap fun id => (statFeature r iat id).map fun v => (id, v)) ++
      s.rsFeatures p i r
  else []

/-- What a lookup of a key finds (R149, R161). -/
inductive FlowHit where
  | hit (entry rec : Nat)
  | miss
  | fault (entry : Nat)
  deriving DecidableEq, Repr

/-- A lookup over index entries in order. -/
def State.flowScan (p : Nat) (k : FlowKey) (s : State) : List Nat → FlowHit
  | [] => .miss
  | a :: rest =>
    if !s.mem.readable a 16 then .fault a
    else
      let e := s.ixAt a
      if ixValid e && !ixBad e && ixSig e == keySig k then
        (if !s.recReadable p (ixRec e) then .fault a
         else if recHolds (s.recStats p (ixRec e)) k then .hit a (ixRec e)
         else s.flowScan p k rest)
      else s.flowScan p k rest

/-- A lookup of a key in a pipeline's flow table; a table with no memory misses. -/
def State.flowLook (p : Nat) (k : FlowKey) (s : State) : FlowHit :=
  if (s.pipe p).tableBase.isNone then .miss else s.flowScan p k ((s.pipe p).entries k)

/-- What a lookup's reads do to memory's counts: both buckets, and the record that is hit. -/
def State.flowTouch (p : Nat) (k : FlowKey) (s : State) : State :=
  if (s.pipe p).tableBase.isNone then s
  else
    let s' := ((s.pipe p).entries k).foldl (fun s a => s.touch a 16 0) s
    match s.flowLook p k with
    | .hit _ i => s'.touch ((s.pipe p).recAddr i) 128 0
    | .fault a => if s.mem.readable a 16 then s'.touch ((s.pipe p).recAddr (ixRec (s.ixAt a))) 128 0
        else s'
    | .miss => s'

/-! ### Recurrent updates (R263 to R268) -/

/-- The state half rewritten with +0, `rs_valid` and `rs_count` cleared, after an uncorrectable word
(R268). -/
def State.halfFault (p i : Nat) (s : State) : State :=
  let r := setF (setF (s.recStats p i) 46 1 0) 80 32 0
  (((s.recPut p i r).poke ((s.pipe p).recAddr i + 128) (List.replicate 128 0)).count Ctr.rsFault
    p).packetFault 4 i

/-- A cell's input value from a frame and its record (R263, R307): BF16, the fill value where the
source is absent. -/
def cellInput (f : Frame) (r iat : Nat) (x : W16 × Nat × Nat × Nat) : W32 :=
  let v := if x.2.1 = 0 then some (fnat (f.record.toNat / 2 ^ x.2.2.1 % 2 ^ x.2.2.2))
    else statFeature r iat x.2.2.1
  match v with
  | some w => bfRound w
  | none => bfUp x.1.toNat

/-- One output of a job in wide-and-shallow form: the bias, then the products in ascending order,
each step rounded once (R214, R264). -/
def dotRow (bias : W32) (ws : List W16) (xs : List W32) : W32 :=
  (ws.zip xs).foldl (fun acc e => (ffmaF (bfUp e.1.toNat) e.2 acc).1) bias

/-- A job's outputs. -/
def jobOut (c : Cell) (job : Nat) (xs : List W32) : List W32 :=
  ((c.weights[job]?).getD []).zipIdx.map fun e =>
    dotRow (((c.bias[job]?).getD [])[e.2]?.getD 0) e.1 xs

/-- One step of a cell (R264): the new state from the inputs and the state, 64 values. -/
def cellStep (c : Cell) (x h : List W32) : List W32 :=
  let at64 (l : List W32) (o i : Nat) : W32 := (l[o + i]?).getD 0
  let xs := x ++ h
  let a1 := jobOut c 0 xs
  let th (v : W32) : W32 := (specialF .tanh v).1
  let sg (v : W32) : W32 := (specialF .logistic v).1
  if c.kind = 0 then (List.range 64).map fun i => bfRound (th (at64 a1 0 i))
  else
    let a2 := jobOut c 1 xs
    (List.range 64).map fun i =>
      let r := sg (at64 a1 0 i)
      let z := sg (at64 a1 64 i)
      let n := th (fadd (at64 a2 0 i) (fmul r (at64 a2 64 i)))
      bfRound (fadd (fmul (fsub 0x3F800000 z) n) (fmul z (at64 h 0 i)))

/-- The cluster the packet-path context gives a frame (R131). -/
def State.packetLanding (f : Frame) (s : State) : Landing × State :=
  s.spread packetCtx (s.frameHash packetCtx f) true

/-- A recurrent update issued for a frame that has updated a record (R263, R265).
[DEDUCED: notes/assumptions/50.md] -/
def State.rsIssue (p i iat : Nat) (f : Frame) (s : State) : State :=
  match s.pipeCell p with
  | none => s
  | some (m, c) =>
    let x := s.pipe p
    if (tget x.rsWait i).isSome then s.count Ctr.rsSkip p
    else if (tget x.rsFlight i).isNone ∧ 16384 ≤ x.rsFlight.length then s.count Ctr.rsOverrun p
    else
      let l := s.packetLanding f
      match l.1 with
      | .cluster k =>
        let u : RsUpdate :=
          { tick := s.tick, cluster := k, handle := m.handle,
            epoch := (s.domain packetDomain).epoch,
            inputs := c.inputs.map (cellInput f (s.recStats p i) iat) }
        l.2.modPipe p fun x =>
          if (tget x.rsFlight i).isSome then { x with rsWait := tset x.rsWait i u }
          else { x with rsFlight := tset x.rsFlight i u }
      | _ => l.2.count Ctr.rsSkip p

/-- An update in flight ends: the one that waited is dispatched, unless the cluster chosen for it has left the packet
path or is leaving it, where it is dropped (R265, R268). [DEDUCED: notes/assumptions/155.md] -/
def State.rsNext (p i : Nat) (s : State) : State :=
  let take (w : Option RsUpdate) (s : State) : State := s.modPipe p fun x => { x with
    rsFlight := (match w with
      | some u => tset x.rsFlight i { u with tick := s.tick }
      | none => tdel x.rsFlight i)
    rsWait := tdel x.rsWait i }
  match tget (s.pipe p).rsWait i with
  | some u => if s.serves packetCtx u.cluster then take (some u) s else take none (s.count Ctr.rsSkip p)
  | none => take none s

/-- A completed update writes the state half and the `rs_` fields in one step (R265, R267).
[DEDUCED: notes/assumptions/50.md] -/
def State.rsWrite (p i : Nat) (u : RsUpdate) (s : State) : State :=
  match (s.modelAt packetDomain u.epoch u.handle).bind (·.flowCell) with
  | none => s
  | some c =>
    let r := s.recStats p i
    let same := bitsOf r 79 64 == u.handle && r.testBit 46 && (bitsOf r 63 48 == u.epoch ||
      ((s.modelAt packetDomain u.epoch u.handle).map fun m =>
        m.params.rsCompat.contains (bitsOf r 63 48)).getD false)
    let h := (List.range 64).map fun v => if same then s.rstate p i v else 0
    let h' := cellStep c u.inputs h
    let n := if same then satAdd 32 (bitsOf r 111 80) 1 else 1
    let r := setF (setF (setF (setF r 80 32 n) 64 16 u.handle) 48 16 u.epoch) 46 1 1
    (s.recPut p i r).poke ((s.pipe p).recAddr i + 128)
      (h'.flatMap fun v => leBytes 2 (v.toNat / 2 ^ 16))

/-- `RS_UPDATE_DONE` (R265, R267, R268): a result later than 20 µs after its dispatch is dropped. -/
def execRsUpdateDone (t pipe recIdx : Nat) (jobFault : Bool) (s : State) :
    Host.Outcome State Fault Refusal :=
  s.happen t (fun s => s.moving && (tget (s.pipe pipe).rsFlight recIdx).isSome) fun s =>
    match tget (s.pipe pipe).rsFlight recIdx with
    | none => s
    | some u =>
      let s :=
        if u.stale then s.count Ctr.rsStale pipe
        else if u.tick + 20000 < s.tick then s.count Ctr.rsSkip pipe
        else if jobFault then s.count Ctr.rsJobFault ((s.logicalIn u.cluster).headD 0)
        else if !s.halfReadable pipe recIdx then (s.touchHalf pipe recIdx).halfFault pipe recIdx
        else (s.touchHalf pipe recIdx).rsWrite pipe recIdx u
      s.rsNext pipe recIdx

/-- `RS_UPDATE_TIMEOUT` (R265): 20 µs after its dispatch an update is dropped. -/
def execRsUpdateTimeout (t pipe recIdx : Nat) (s : State) : Host.Outcome State Fault Refusal :=
  s.happen t
    (fun s => s.moving && match tget (s.pipe pipe).rsFlight recIdx with
      | some u => decide (u.tick + 20000 ≤ s.tick)
      | none => false)
    fun s => (s.count Ctr.rsSkip pipe).rsNext pipe recIdx

/-! ### Baselines (R270, R271) -/

/-- The count a baseline watches. `bl_index` names a row as pipe × 16,384 + row, and a model and
action as handle × 8 + action (notes/assumptions/22.md). -/
def State.sourceCount (x : Baseline) (owner : Nat) (s : State) : Nat :=
  let p := s.pipe (x.index / 16384)
  match x.source with
  | 0 => tgetD p.hits (x.index % 16384) 0
  | 1 => tgetD p.hitBytes (x.index % 16384) 0
  | 2 => (tgetD s.cls.ifcs x.index {}).learned
  | 3 => (aget s.models.acted (owner, x.index / 8, x.index % 8)).getD 0
  | _ => ((tget s.eg.policers x.index).map (·.reds)).getD 0

/-- A baseline's settings with those that a command carries put over them (R270). -/
def BaselineSpec.over (x : BaselineSpec) (b : Baseline) : Baseline :=
  { source := x.source.getD b.source, index := x.index.getD b.index, winNs := x.winNs.getD b.winNs
    zHi := x.zHi.getD b.zHi, zLo := x.zLo.getD b.zLo }

/-- A create with no `bl_source` or `bl_index`, which have no default (R270). -/
def BaselineSpec.missing (x : BaselineSpec) : Bool := x.source.isNone || x.index.isNone

/-- The record that sets a baseline's setting number `k`, when it is bad; the command as a whole where it carries no
such record. [DEDUCED: notes/assumptions/120.md] -/
def BaselineSpec.blame (x : BaselineSpec) (k : Nat) (bad : Bool) : Option Nat :=
  let l := [x.source.isSome, x.index.isSome, x.winNs.isSome, x.zHi.isSome, x.zLo.isSome]
  if !bad then none else if (l[k]?).getD false then some ((l.take k).filter id).length else onWhole true

/-- `bl_index` names nothing that the source counts (R270). -/
def Baseline.indexOut (b : Baseline) : Bool :=
  (decide (b.source ≤ 1) && decide (32768 ≤ b.index)) || (b.source == 2 && decide (4 ≤ b.index)) ||
    (b.source == 4 && (b.index == 0 || decide (4096 ≤ b.index)))

/-- The checks of a baseline's settings, which a command's records made, for their issuer (R270).
[DEDUCED: notes/assumptions/120.md] -/
def State.baselineChecks (part : Nat) (x : BaselineSpec) (b : Baseline) (s : State) : List (Option Nat × Status) :=
  let out (v lo hi : W32) : Bool := !(fle lo v && fle v hi)
  [(BaselineSpec.blame x 0 (decide (4 < b.source)), .eRange), (BaselineSpec.blame x 1 b.indexOut, .eRange),
   (BaselineSpec.blame x 2 (decide (b.winNs < 1000000) || decide (60000000000 < b.winNs)), .eRange),
   (BaselineSpec.blame x 3 (out b.zHi 0x3F000000 0x447A0000), .eRange),
   (BaselineSpec.blame x 4 (b.zLo.any fun v => out v 0xC47A0000 0xBF000000), .eRange),
   (BaselineSpec.blame x 0 (decide (b.source ≤ 2) && part != 0), .ePriv),
   (BaselineSpec.blame x 1 (b.source == 4 && part != 0 && ((tget s.eg.policers b.index).bind (·.grant)) != some part), .ePriv)]

/-- A baseline's window started afresh with `w` 0 (R271). -/
def State.startBaseline (bl owner : Nat) (x : Baseline) (s : State) : State :=
  { s with
    models := { s.models with baselines := tset s.models.baselines bl (x, owner) }
    bases := tset s.bases bl { winStart := s.tick, countStart := s.sourceCount x owner } }

/-- `BASELINE_CREATE` (R270): settings that are absent take their defaults. -/
def execBaselineCreate (t : Nat) (h : CmdHdr) (bl : Nat) (spec : BaselineSpec) (s : State) :
    Host.Outcome State Fault Refusal :=
  s.isain t { op := 0x0901 } h noObj anyPart fun s =>
    checksAt ((onWhole (BaselineSpec.missing spec), .eArg) ::
        s.baselineChecks h.part spec (BaselineSpec.over spec {}) ++
        [(onWhole (decide (4096 ≤ bl)), .eRange),
         (onWhole (decide (4096 ≤ s.models.baselines.length)), .eNospace),
         (onWhole (tget s.models.baselines bl).isSome, .eState)])
      (.done .ok (pack [(12, bl)]) (s.startBaseline bl h.part (BaselineSpec.over spec {})))

/-- The owner of a baseline; partition 0 where there is none. -/
def State.baselineOwner (bl : Nat) (s : State) : Nat :=
  ((tget s.models.baselines bl).map (·.2)).getD 0

/-- A baseline exists. -/
def State.hasBaseline (bl : Nat) (s : State) : Bool := (tget s.models.baselines bl).isSome

/-- A change of state into or out of `HIGH` or `LOW` (R271). -/
def alarmed (a b : Nat) : Bool := a != b && (decide (2 ≤ a) || decide (2 ≤ b))

/-- A change of state of a baseline is counted and told to its owner (R271). -/
def State.tellBaseline (bl owner old : Nat) (b : BaseState) (s : State) : State :=
  if alarmed old b.state then
    (s.count Ctr.blAlarm bl).event owner 0x0004 [(12, bl), (2, b.state), (32, b.z.toNat), (32, b.w)] 0
  else s

/-- A baseline's settings changed: its open window ends unfolded and a new one starts, with `w` 0, and so `WARMING`
(R271). [DEDUCED: notes/assumptions/136.md] -/
def State.changeBaseline (bl : Nat) (x : Baseline) (s : State) : State :=
  let owner := s.baselineOwner bl
  let old := tgetD s.bases bl {}
  let b := { old with w := 0, state := 0, winStart := s.tick, countStart := s.sourceCount x owner }
  ({ s with
    models := { s.models with baselines := tset s.models.baselines bl (x, owner) }
    bases := tset s.bases bl b } : State).tellBaseline bl owner old.state b

/-- The settings of a baseline. -/
def State.baseline (bl : Nat) (s : State) : Baseline := ((tget s.models.baselines bl).map (·.1)).getD {}

/-- `BASELINE_CHANGE` (R270, R271): the settings that the command carries change; the open window ends without being
folded in. -/
def execBaselineChange (t : Nat) (h : CmdHdr) (bl : Nat) (spec : BaselineSpec) (s : State) :
    Host.Outcome State Fault Refusal :=
  s.isain t { op := 0x0901 } h (fun s => s.hasBaseline bl) (fun s => owns h (s.baselineOwner bl))
    fun s => checksAt (s.baselineChecks h.part spec (BaselineSpec.over spec (s.baseline bl)))
      (.done .ok (pack [(12, bl)]) (s.changeBaseline bl (BaselineSpec.over spec (s.baseline bl))))

/-- `BASELINE_DELETE` (R270). -/
def execBaselineDelete (t : Nat) (h : CmdHdr) (bl : Nat) (s : State) :
    Host.Outcome State Fault Refusal :=
  s.isain t { op := 0x0901 } h (fun s => s.hasBaseline bl) (fun s => owns h (s.baselineOwner bl))
    fun s => .done .ok (pack [(12, bl)])
      { s with
        models := { s.models with baselines := tdel s.models.baselines bl }
        bases := tdel s.bases bl }

/-- `BASELINE_READ` (R395). -/
def execBaselineRead (t : Nat) (h : CmdHdr) (bl : Nat) (s : State) :
    Host.Outcome State Fault Refusal :=
  s.isain t { op := 0x0902 } h (fun s => s.hasBaseline bl) (fun s => owns h (s.baselineOwner bl))
    fun s =>
    let b := tgetD s.bases bl {}
    .done .ok (pack [(2, b.state), (32, b.w), (32, b.mean.toNat), (32, b.var.toNat),
      (32, b.z.toNat)]) s

/-- z of a window's count against the mean and variance before it (R271). -/
def baselineZ (x mean var : W32) : W32 :=
  if fcmp var 0 = some .eq then
    (if fcmp x mean = some .eq then 0 else if flt x mean then 0xFF800000 else 0x7F800000)
  else fdiv (fsub x mean) (fsqrt var)

/-- A baseline's state after a window (R271). -/
def baselineState (x : Baseline) (w : Nat) (z : W32) : Nat :=
  if w ≤ 16 then 0
  else if fle x.zHi z then 2
  else if (x.zLo.map fun lo => fle z lo) = some true then 3 else 1

/-- A window's count folded in (R271). -/
def BaseState.fold (b : BaseState) (x : Baseline) (n tick count : Nat) : BaseState :=
  let v := fnat n
  let z := if b.w = 0 then b.z else baselineZ v b.mean b.var
  let dlt := fsub v b.mean
  { winStart := tick, countStart := count, w := b.w + 1, z := z
    mean := if b.w = 0 then v else fadd b.mean (f16th dlt)
    var := if b.w = 0 then 0 else f15of16 (fadd b.var (f16th (fmul dlt dlt)))
    state := baselineState x (b.w + 1) z }

/-- `BASELINE_WINDOW_CLOSE` (R271). -/
def execBaselineWindowClose (t bl : Nat) (s : State) : Host.Outcome State Fault Refusal :=
  s.happen t
    (fun s => s.moving && match tget s.models.baselines bl with
      | some (x, _) => decide ((tgetD s.bases bl {}).winStart + x.winNs ≤ s.tick)
      | none => false)
    fun s => match tget s.models.baselines bl with
      | none => s
      | some (x, owner) =>
        let b := tgetD s.bases bl {}
        let count := s.sourceCount x owner
        let b' := b.fold x (count - b.countStart) s.tick count
        (s.updBases fun y => tset y bl b').tellBaseline bl owner b.state b'

end Sys2Proof.Machine
end

