-- ==== Sys2Proof/Machine/Ouvlen.lean ====
section
/-! DEFINITION. Ouvlen frames: the checks on every frame, session set-up, the session frames,
acknowledgements and credits (R72 to R86). -/

namespace Sys2Proof.Machine

/-! ### Reception (R73, R78, R79) -/

/-- An interface receives Ouvlen frames: it is not in idle, and no stop holds the line ports; a drain does not shut
them out. [DEDUCED: notes/assumptions/152.md] -/
def State.hears (i : Nat) (s : State) : Bool :=
  s.alive && (i == 4 || (decide (i < 4) && s.running && s.pkg.sdClock && (s.ifc i).role != 0)) &&
    (s.pkg.devState == .recovery || s.bay.step14 || s.pkg.devState == .boot) &&
    (s.pkg.devState != .recovery || i == 4)

/-- The frame types the ROM acts on (R417). -/
def romTypes : List Nat := [0x1, 0x4, 0x9, 0xF]

/-- A header that R73 drops: it counts in `ouv_bad_hdr` and changes no session. `want` is the type
of the row, `session` says that it is a session frame. A `payload_len` above the 8,704 of R72 is one
that disagrees, since no such frame is sent. [DEDUCED: notes/assumptions/128.md] -/
def State.badHeader (f : OuvHdr) (want : Nat) (session : Bool) (s : State) : Bool :=
  f.version != 1 || f.ftype != want || !f.lenOk || decide (8704 < f.payloadLen) || (session && f.seq == 0) ||
    (!session && f.sid != 0) || (want == 1 && decide (1 < f.target)) ||
    (want == 4 && decide (50 < f.target)) ||
    (s.pkg.devState == .recovery && !romTypes.contains want)

/-- A `seq` that the replay record accepts (R78). -/
def Session.fresh (x : Session) (seq : Nat) : Bool :=
  decide (x.highSeq < seq) || (decide (x.highSeq < seq + 1025) && !x.seen.contains seq)

/-- A `seq` accepted: the highest, and the record of the 1,024 below it. -/
def Session.accept (x : Session) (seq tick : Nat) : Session :=
  let high := max x.highSeq seq
  { x with
    highSeq := high
    seen := (x.seen ++ [seq]).filter (fun q => decide (high < q + 1025))
    lastRx := tick
    rxFrames := x.rxFrames + 1 }

/-- A session frame on its way in: what becomes of it before it acts, as a counter to raise, or the
session. -/
inductive Entry where
  | nothing
  | drop (counter : Nat)
  | session (x : Session)
  deriving DecidableEq, Repr

/-- The checks of a session frame, in order (R73, R77, R78, R79). -/
def State.enter (f : OuvHdr) (want : Nat) (s : State) : Entry :=
  if !s.hears f.ifc then .nothing
  else if s.obs.islandsStopped && decide (f.ifc < 4) then .drop Ctr.rxStopped
  else if f.overrun then .drop Ctr.ouvOverrun
  else if s.badHeader f want true then .drop Ctr.ouvBadHdr
  else match s.session f.sid with
    | none => .drop Ctr.ouvNoSession
    | some x =>
      if !f.tagOk then .drop Ctr.ouvTagFail
      else if !x.fresh f.seq then .drop Ctr.ouvReplay
      else .session x

/-- The scope of a drop's counter. -/
def dropScope (c : Nat) (f : OuvHdr) : Nat := if c = Ctr.rxStopped then f.ifc else 0

/-- The outcome of a frame's own checks and effect. -/
inductive FrameOut where
  /-- The effect is complete: the frame is acknowledged where it asks for it (R80). -/
  | done (s : State)
  /-- Refused with a status: no effect (R81). -/
  | refuse (st : Status)
  /-- Taken without an acknowledgement of its own. -/
  | silent (s : State)
  deriving DecidableEq, Repr

/-- The K4 owes an acknowledgement for a `seq` (R80). -/
def State.owe (sid seq : Nat) (s : State) : State :=
  s.modSession sid fun x => { x with acks := x.acks ++ [seq] }

/-- A refused frame's record for the next `ACK` (R81). -/
def State.refuseFrame (sid seq : Nat) (st : Status) (s : State) : State :=
  s.modSession sid fun x => { x with refusals := x.refusals ++ [(seq, st)] }

/-- How the outcome of a frame stands in its session. -/
def State.settle (f : OuvHdr) (o : FrameOut) (s : State) : State :=
  match o with
  | .done s' => if f.ackReq then s'.owe f.sid f.seq else s'
  | .refuse st => s.refuseFrame f.sid f.seq st
  | .silent s' => s'

/-- A session frame that has been accepted acts. A reserved header bit set refuses a session frame,
and is passed over in `HELLO` and `KEY_FETCH`, which carry no refusal.
[DESIGN CHOICE: notes/assumptions/127.md] -/
def State.actFrame (f : OuvHdr) (x : Session) (act : Session → State → FrameOut) (s : State) :
    State :=
  let x := x.accept f.seq s.tick
  let s := s.modSession f.sid fun _ => x
  (s.settle f (if f.resvBad then .refuse .eArg else act x s)).closeWorn f.sid

/-- A session frame received at `t`. -/
def State.onFrame (t : Nat) (f : OuvHdr) (want : Nat) (act : Session → State → FrameOut)
    (s : State) : Host.Outcome State Fault Refusal :=
  let s := s.at t
  match s.enter f want with
  | .nothing => .next s
  | .drop c => .next (s.count c (dropScope c f))
  | .session x => .next (s.actFrame f x act)

/-- The first of a list of frame checks that fails, else the effect. -/
def frameChecks : List (Bool × Status) → FrameOut → FrameOut
  | [], r => r
  | (bad, st) :: rest, r => if bad then .refuse st else frameChecks rest r

/-! ### Session set-up (R74 to R76) -/

/-- Where a set-up frame came from: its interface, its host's address, and its `seq`. -/
structure HelloFrom where
  ifc : Nat
  host : BitVec 128
  seq : Nat
  deriving DecidableEq, Repr

/-- The sender of a set-up frame. -/
def helloFrom (f : OuvHdr) : HelloFrom := { ifc := f.ifc, host := f.host, seq := f.seq }

/-- A `REFUSE`, untagged or tagged under a key (R76). -/
def State.refuseHello (w : HelloFrom) (key : Option (BitVec 256)) (st : Status) (s : State) : State :=
  s.putOuv key w.ifc w.host 0 0x3 w.seq 0 st [] none

/-- A 256-bit key that KMAC256 derives (R75). -/
def kmacKey (key m : List Byte) (custom : String) : BitVec 256 :=
  BitVec.ofNat 256 (beNat (kmac256 key m 32 custom))

/-- The key material of a session (R75): `ss` followed by `psk_p`, or by the zero key (R425). -/
def State.sessionKey (p : Nat) (ss : BitVec 256) (s : State) : List Byte :=
  beBytes 32 ss.toNat ++ beBytes 32 (tgetD s.ouv.psk p 0).toNat

/-- key_hello (R75). -/
def State.helloKey (c : HelloPart) (ss : BitVec 256) (s : State) : BitVec 256 :=
  kmacKey (s.sessionKey c.part ss)
    (beBytes 32 c.hostNonce.toNat ++ beBytes 32 c.bootNonce.toNat ++ beBytes 1 c.part) "OUVLEN HELLO"

/-- k_h2d or k_d2h, by customisation string (R75). -/
def State.frameKey (c : HelloPart) (ss : BitVec 256) (nonce : List Nat) (sid : Nat) (custom : String)
    (s : State) : BitVec 256 :=
  kmacKey (s.sessionKey c.part ss)
    (beBytes 32 c.hostNonce.toNat ++ nonce.flatMap (beBytes 8) ++ beBytes 4 sid ++ beBytes 1 c.part)
    custom

/-- The rings for which a partition's sessions carry credit limits (R83). -/
def State.creditRings (p : Nat) (s : State) : List Nat :=
  (s.rings.ctx.filter fun e => decide (e.2.owner = p) && hostProduced e.2.rtype).map (·.1)

/-- A partition has a session key, or the zero key applies on the service port (R425). -/
def State.hasKey (part ifc : Nat) (s : State) : Bool :=
  (tget s.ouv.psk part).isSome || (part == 0 && ifc == 4)

/-- The most sessions the device holds: 2,048, or 4 in ROM recovery mode (R76, R417). -/
def State.sessionLimit (s : State) : Nat := if s.pkg.devState = .recovery then 4 else 2048

/-- A fresh device nonce of 32 bytes, as four words (R75). [DESIGN CHOICE: notes/assumptions/11.md] -/
def State.deviceNonce (s : State) : List Nat :=
  (List.range 4).map fun i => freeBelow (2 ^ 64) (Config.free (s.freeCount + i))

/-- A session accepted: the next identifier, a fresh device nonce, the two keys, and `ACCEPT` with
`seq` 1, tagged under k_d2h (R75). Its frames will carry the credit limit of every ring that R83 names.
[DESIGN CHOICE: notes/assumptions/32.md] -/
def State.acceptHello (w : HelloFrom) (c : HelloPart) (ss : BitVec 256) (s : State) : State :=
  let sid := s.ouv.nextSid
  let nonce := s.deviceNonce
  let k := s.frameKey c ss nonce sid
  let x : Session :=
    { part := c.part, ifc := w.ifc, port := s.ouv.port, host := w.host, kH2d := k "OUVLEN H2D"
      kD2h := k "OUVLEN D2H", lastRx := s.tick, txSeq := 2, txFrames := 1
      credits := s.creditRings c.part }
  (({ s with freeCount := s.freeCount + 4 }).updOuv fun o => { o with
    nextSid := sid + 1, sessions := tset o.sessions sid x }).putOuv (some x.kD2h) w.ifc w.host sid 0x2
      1 0 .ok nonce none

/-- The shared secret of a ciphertext under the key pair of this start, whose `ek` the boot key record
holds (R74, R75). -/
def State.decaps (ct : List Byte) (s : State) : BitVec 256 :=
  Config.kemShared ((s.ouv.keyRecord.drop 8).take 1568) ct

/-- Both parts of a `HELLO` are held: the checks of R76 in order. `c` is part 0's content, `ct` the
whole ciphertext. -/
def State.judgeHello (w : HelloFrom) (c : HelloPart) (ct : List Byte) (tagsOk : Bool) (s : State) :
    State :=
  let p := c.part
  let ss := s.decaps ct
  if s.ouv.helloShut then s.refuseHello w none .eState
  else if s.pkg.devState = .recovery ∧ p ≠ 0 then s.refuseHello w none .eState
  else if c.bootNonce ≠ s.ouv.bootNonce then s.refuseHello w none .eState
  else if !(s.part p).enabled || !s.hasKey p w.ifc then s.refuseHello w none .eState
  else if !tagsOk then s.tally Ctr.ouvTagFail
  else if w.ifc = 4 ∧ p ≠ 0 ∧ !(s.part p).rights.getLsbD 1 then
    s.refuseHello w (some (s.helloKey c ss)) .ePriv
  else if (s.part p).maxSessions ≤ (s.sessionsOf p).length ∨
      s.sessionLimit ≤ s.ouv.sessions.length then
    s.refuseHello w (some (s.helloKey c ss)) .eNospace
  else s.acceptHello w c ss

/-- Two parts come from one sender: by interface, host address and `seq`. The manual does not say how
parts of several hosts are told apart. [DESIGN CHOICE: notes/assumptions/127.md] -/
def HelloHeld.same (x : HelloHeld) (f : OuvHdr) : Bool :=
  x.ifc == f.ifc && x.host == f.host && x.seq == f.seq

/-- The other part of a `HELLO`, where it is held. -/
def State.otherPart (f : OuvHdr) (s : State) : Option HelloHeld :=
  s.ouv.parts.find? fun x => x.same f && x.target != f.target

/-- A `HELLO` part held, dropped beyond 256 parts, or judged with its other part (R76). -/
def State.takeHello (f : OuvHdr) (p : HelloPart) (s : State) : State :=
  match s.otherPart f with
  | some x =>
    let s := s.updOuv fun o => { o with parts := o.parts.filter fun y => !y.same f }
    let q := if f.target = 0 then (p, x.content) else (x.content, p)
    s.judgeHello (helloFrom f) q.1 (q.1.ct ++ q.2.ct) (f.tagOk && x.tagOk)
  | none =>
    let others := s.ouv.parts.filter fun y => !y.same f
    if 256 ≤ others.length then s.tally Ctr.ouvHelloDrop
    else s.updOuv fun o => { o with
      parts := others ++ [{ ifc := f.ifc, host := f.host, seq := f.seq, target := f.target, tick := s.tick,
                            content := p, tagOk := f.tagOk }] }

/-- A set-up frame received at `t`: no session is named. -/
def State.onSetup (t : Nat) (f : OuvHdr) (want : Nat) (act : State → State) (s : State) :
    Host.Outcome State Fault Refusal :=
  let s := s.at t
  if !s.hears f.ifc then .next s
  else if s.obs.islandsStopped && decide (f.ifc < 4) then .next (s.count Ctr.rxStopped f.ifc)
  else if f.overrun then .next (s.tally Ctr.ouvOverrun)
  else if s.badHeader f want false then .next (s.tally Ctr.ouvBadHdr)
  else .next (act s)

/-- `HELLO` (R75, R76). -/
def execHello (t : Nat) (f : OuvHdr) (p : HelloPart) (s : State) :
    Host.Outcome State Fault Refusal :=
  s.onSetup t f 0x1 fun s => s.takeHello f p

/-- `HELLO_PART_EXPIRY` (R76): a lone part held for 100 ms goes.
[DESIGN CHOICE: notes/assumptions/142.md] -/
def execHelloPartExpiry (t ifc seq : Nat) (s : State) : Host.Outcome State Fault Refusal :=
  s.happen t (fun s => s.alive) fun s => s.updOuv fun o => { o with
    parts := o.parts.filter fun y =>
      !(y.ifc == ifc && y.seq == seq && decide (y.tick + 100000000 ≤ s.tick)) }

/-- A piece of the boot key record as 64-bit words (R74). -/
def keyPiece (record : List Byte) (piece : Nat) : List Nat :=
  let n := if piece = 50 then 280 else 1024
  (List.range (n / 8)).map fun i => beNat ((record.drop (1024 * piece + 8 * i)).take 8)

/-- `KEY_FETCH` (R74): one piece of the boot key record goes out. -/
def execKeyFetch (t : Nat) (f : OuvHdr) (s : State) : Host.Outcome State Fault Refusal :=
  s.onSetup t f 0x4 fun s =>
    s.putOuv none f.ifc f.host 0 0x5 f.seq f.target .ok (keyPiece s.ouv.keyRecord f.target) none

/-! ### Rings over Ouvlen (R83, R93, R94) -/

/-- Entries of a `RING_WRITE` at or above `cons_idx` written; lower ones are passed over (R83). -/
def State.writeEntries (n : Nat) (start : W32) (entries : List (List W64)) (s : State) : State :=
  entries.zipIdx.foldl (fun s e =>
    let i := start + BitVec.ofNat 32 e.2
    let r := s.ring n
    if idxDiff i r.consIdx < 0 then s else s.poke (r.addr i) (wordsBytes e.1)) s

/-- The most entries a frame holds: 64 of 128 bytes or 128 of 64 (R83). -/
def Ring.frameMax (r : Ring) : Nat := if r.esize = 1 then 64 else 128

/-- The checks of a `RING_WRITE` (R83, R331), and its effect. Entries of another size, and more than a
frame holds, break the frame's layout. [DEDUCED: notes/assumptions/128.md] -/
def State.ringWriteAt (n : Nat) (owner : Nat) (start : W32) (entries : List (List W64)) (s : State) :
    FrameOut :=
  let r := s.ring n
  frameChecks
    [(!s.ringMade n || r.faulted, .eState),
     (decide (r.owner ≠ owner), .ePriv),
     (!hostProduced r.rtype || decide (r.frameMax < entries.length) ||
        entries.any (fun e => decide (e.length * 8 ≠ r.entryBytes)), .eArg),
     (entries.zipIdx.any (fun e =>
        decide (0 ≤ idxDiff (start + BitVec.ofNat 32 e.2) r.credit)), .eNospace)]
    (.done (s.writeEntries n start entries))

/-- The producer doorbell of a host-produced ring (R93). -/
def State.produceAt (n owner : Nat) (p : W32) (s : State) : FrameOut :=
  let r := s.ring n
  frameChecks
    [(!s.ringMade n || r.faulted, .eState),
     (decide (r.owner ≠ owner), .ePriv),
     (!r.enabled, .eState),
     (idxAbove p r.prodIdx && idxAbove p r.credit, .eNospace)]
    (if idxAbove p r.prodIdx then
      .done (s.setRing n { r with
        prodIdx := p, lastTick := s.tick, avail := r.avail ++ [(p, s.tick)] })
     else .done (s.tally Ctr.dbStale))

/-- The release doorbell of a K4-produced ring (R94). Freed space takes stalled items (R104). -/
def State.releaseAt (n owner : Nat) (p : W32) (s : State) : FrameOut :=
  let r := s.ring n
  frameChecks
    [(!s.ringMade n || r.faulted, .eState),
     (decide (r.owner ≠ owner), .ePriv),
     (idxAbove p r.pushIdx && idxAbove p r.limitIdx, .eRange)]
    (if idxAbove p r.limitIdx then
      .done ((s.setRing n { r with
        limitIdx := p, consIdx := p, prot := r.prot.filter fun i => !idxAbove p i }).drainStalled n)
     else .done (s.tally Ctr.dbStale))

/-- A doorbell by the ring's side (R93, R94). -/
def State.doorbellAt (n owner : Nat) (p : W32) (s : State) : FrameOut :=
  if hostProduced (s.ring n).rtype then s.produceAt n owner p else s.releaseAt n owner p

/-- A frame for a ring: refused on the service port (R71); it waits where the context cache misses
(R90). -/
def State.ringFrame (f : OuvHdr) (x : Session) (op : CtxOp) (now : State → FrameOut) (s : State) :
    FrameOut :=
  if x.ifc = 4 then .refuse .ePriv
  else if !s.ringMade f.target then .refuse .eState
  else if s.cached f.target then now (s.useCtx f.target)
  else .silent (s.missCtx f.target (some op))

/-- `RING_WRITE` (R83). -/
def execRingWrite (t : Nat) (f : OuvHdr) (start : W32) (entries : List (List W64)) (s : State) :
    Host.Outcome State Fault Refusal :=
  s.onFrame t f 0x6 fun x s =>
    s.ringFrame f x (.write f start entries) (fun s => s.ringWriteAt f.target x.part start entries)

/-- `DOORBELL` with a producer index (R93). -/
def execDoorbellProduce (t : Nat) (f : OuvHdr) (idx : W32) (s : State) :
    Host.Outcome State Fault Refusal :=
  s.onFrame t f 0x7 fun x s =>
    s.ringFrame f x (.produce f idx) (fun s => s.doorbellAt f.target x.part idx)

/-- `DOORBELL` with a release index (R94). -/
def execDoorbellRelease (t : Nat) (f : OuvHdr) (idx : W32) (s : State) :
    Host.Outcome State Fault Refusal :=
  s.onFrame t f 0x7 fun x s =>
    s.ringFrame f x (.release f idx) (fun s => s.doorbellAt f.target x.part idx)

/-- An operation that waited for a context proceeds (R90). A frame whose session has closed since
acts for nobody and is dropped. -/
def State.resumeOp (n : Nat) (op : CtxOp) (s : State) : State :=
  let frame (f : OuvHdr) (now : Session → State → FrameOut) : State :=
    match s.session f.sid with
    | some x => s.settle f (now x s)
    | none => s
  match op with
  | .write f start es => frame f fun x s => s.ringWriteAt n x.part start es
  | .produce f i => frame f fun x s => s.doorbellAt n x.part i
  | .release f i => frame f fun x s => s.doorbellAt n x.part i
  | .item es => s.itemNow n es

/-- `CONTEXT_FETCH` (R90, R331): the fetch of a context completes, and what waited proceeds. An
uncorrectable context faults its ring. -/
def execContextFetch (t ring : Nat) (check : WordCheck) (s : State) :
    Host.Outcome State Fault Refusal :=
  s.happen t (fun s => s.running && s.rings.cache.fetching.contains ring) fun s =>
    let ops := (s.rings.cache.waiting.filter fun e => e.1 == ring).map (·.2)
    let s := s.updRings fun x => { x with cache := { x.cache with
      fetching := x.cache.fetching.filter (· != ring)
      waiting := x.cache.waiting.filter fun e => e.1 != ring } }
    let s := s.useCtx ring
    let s := s.isainWord check
    let s := if checkBad check then s.faultRing ring else s
    ops.foldl (fun s o => s.resumeOp ring o) s

/-- The most entries of a push, and the number that starts one at once (R102). -/
def Ring.pushBatch (r : Ring) : Nat := r.frameMax

/-- The words of an entry as a push carries it: a `LOSS` entry stands in for one that cannot be
read (R331). -/
def State.pushWords (n : Nat) (i : W32) (s : State) : List Nat :=
  let r := s.ring n
  if s.entryReadable n i then (s.entryWords n i).map (·.toNat)
  else (entryAt (r.entryBytes / 8)
    [entryHead 0x16 0 1 0, BitVec.ofNat 64 (i.toNat * 2 ^ 32 + 1)] i).map (·.toNat)

/-- A push is due: entries await, and enough of them or for long enough (R102). -/
def State.pushDue (n : Nat) (s : State) : Bool :=
  let r := s.ring n
  let await := idxCount r.prodIdx r.pushIdx
  r.pushSession != 0 && !r.faulted && decide (0 < await) && (decide (r.pushBatch ≤ await) ||
    match r.written.find? fun e => e.1 == r.pushIdx with
    | some e => decide (e.2 + 5000 ≤ s.tick)
    | none => false)

/-- Entries of a ring sent to a session, from an index up. -/
def State.pushRange (n sid : Nat) (start : W32) (count : Nat) (s : State) : State :=
  let idxs := (List.range count).map fun k => start + BitVec.ofNat 32 k
  let words := idxs.flatMap fun i => s.pushWords n i
  let r := s.ring n
  let s := idxs.foldl (fun s i => s.touch (r.addr i) r.entryBytes 0) s
  s.sendOuv sid 0x8 n .ok ((start.toNat * 2 ^ 32 + count * 2 ^ 16) :: words)

/-- `RING_PUSH` (R90, R102): awaiting entries go to the attached session in index order; a context that
is not cached is fetched first. -/
def execRingPush (t ring : Nat) (s : State) : Host.Outcome State Fault Refusal :=
  s.happen t (fun s => s.running && s.pushDue ring) fun s =>
    let r := s.ring ring
    let k := min (idxCount r.prodIdx r.pushIdx) r.pushBatch
    if s.cached ring then
      ((s.useCtx ring).pushRange ring r.pushSession r.pushIdx k).modRing ring fun r => { r with
        pushIdx := r.pushIdx + BitVec.ofNat 32 k }
    else s.missCtx ring none

/-! ### Mailboxes (R82, R86) -/

/-- Every opcode that "Command reference" gives. [DESIGN CHOICE: notes/assumptions/41.md] -/
def opcodes : List Nat :=
  [0x0101, 0x0102, 0x0103, 0x0104, 0x0105, 0x0201, 0x0202, 0x0203, 0x0204, 0x0205, 0x0206,
   0x0301, 0x0302, 0x0303, 0x0304, 0x0305, 0x0306, 0x0307, 0x0308, 0x0401, 0x0402, 0x0403,
   0x0404, 0x0405, 0x0406, 0x0407, 0x0408, 0x0409, 0x040A, 0x0501, 0x0502, 0x0601, 0x0602,
   0x0603, 0x0604, 0x0605, 0x0701, 0x0702, 0x0703, 0x0704, 0x0705, 0x0706, 0x0707, 0x0708,
   0x0709, 0x070A, 0x070B, 0x070C, 0x0801, 0x0802, 0x0803, 0x0804, 0x0901, 0x0902, 0x0A01] ++
  [0x0A02, 0x0A03, 0x0A04, 0x0A05, 0x0A06, 0x0A07, 0x0B01, 0x0B02, 0x0B03, 0x0B04, 0x0B05,
   0x0B06, 0x0B07, 0x0B08, 0x0C01, 0x0C02, 0x0D01, 0x0D02, 0x0D03, 0x0D04, 0x0D05, 0x0E01,
   0x0E02, 0x0E03, 0x0E04, 0x0E05, 0x0E06, 0x0E07, 0x0E08, 0x0E09, 0x0E0A, 0x0F01, 0x0F02,
   0x0F03, 0x0F04, 0x0F05, 0x0F06, 0x0F07, 0x0F08, 0x1001, 0x1002, 0x1003, 0x1004, 0x1005,
   0x1101, 0x1102, 0x1103]

/-- A command taken from a mailbox frame (R82, R86). [DEDUCED: notes/assumptions/15.md;
DESIGN CHOICE: notes/assumptions/32.md; DESIGN CHOICE: notes/assumptions/41.md] -/
def State.deliver (sid : Nat) (x : Session) (h : CmdHdr) (opcode : Nat) (s : State) : State :=
  match aget x.cache h.seq with
  | some r => s.sendOuv sid 0xA 0 r.1 r.2
  | none =>
    if x.inflight.any (fun e => e.1 == h.seq) then s
    else if 16 ≤ x.inflight.length then
      s.sendOuv sid 0xA 0 .busy (respWords h opcode 0 .busy noDetail s.tick [])
    else
      let s := s.modSession sid fun x => { x with inflight := x.inflight ++ [(h.seq, opcode)] }
      if opcodes.contains opcode then s else s.answer h opcode .eArg noDetail []

/-- `MBOX_REQ` (R86): Bay holds the command; a repeat gets the kept response or none of its own
(R82). While Bay does not answer, nothing happens. -/
def execMboxReq (t : Nat) (f : OuvHdr) (h : CmdHdr) (opcode : Nat) (s : State) :
    Host.Outcome State Fault Refusal :=
  s.onFrame t f 0x9 fun x s =>
    if f.target ≠ 0 then .refuse .eArg
    else if !s.isainUp then .silent s
    else .done (s.deliver f.sid x { h with via := .mbox f.sid } opcode)

/-! ### Window frames (R84, R85) -/

/-- The window a frame names, of its session's partition. -/
def State.windowOf (f : OuvHdr) (x : Session) (s : State) : Option Window :=
  if f.target < 16 then tget s.ouv.windows (winKey x.part f.target) else none

/-- The first check of R84 that an access fails. `right`: 0 read, 1 write. What is not memory for
software is not reachable through a window (R322). [DEDUCED: notes/assumptions/34.md] -/
def windowCheck (w : Option Window) (right offset len : Nat) : Option Status :=
  match w with
  | none => some .ePriv
  | some w =>
    if !w.rights.testBit right then some .ePriv
    else if offset % 4 ≠ 0 ∨ len % 4 ≠ 0 ∨ len < 4 ∨ 8192 < len then some .eArg
    else if w.pages * 4096 < offset + len then some .eRange
    else if !inSoftware (w.base + offset) len then some .eRange
    else none

/-- The address a window access starts at. -/
def windowAddr (w : Option Window) (offset : Nat) : Nat := (w.map (·.base)).getD 0 + offset

/-- Bytes as 32-bit words carried in a `WIN_DATA` frame. -/
def dataWords (bs : List Byte) : List Nat :=
  (List.range (bs.length / 4)).map fun i => beNat ((bs.drop (4 * i)).take 4)

/-- `WIN_READ` (R85): `WIN_DATA` carries the data, or the status of a refusal or of a word that
cannot be read.
[DESIGN CHOICE: notes/assumptions/143.md] -/
def execWinRead (t : Nat) (f : OuvHdr) (offset len : Nat) (s : State) :
    Host.Outcome State Fault Refusal :=
  s.onFrame t f 0xC fun x s =>
    let w := s.windowOf f x
    match windowCheck w 0 offset len with
    | some st => .done (s.sendOuv f.sid 0xD f.target st [offset])
    | none =>
      let a := windowAddr w offset
      let s' := s.touch a len 0
      if s.mem.readable a len then
        .done (s'.sendOuv f.sid 0xD f.target .ok (offset :: dataWords (s.bytesAt a len)))
      else .done (s'.sendOuv f.sid 0xD f.target .eFault [offset])

/-! ### Closing, acknowledging, credits -/

/-- `CLOSE` from the host (R77): the session ends, and no `CLOSE` answers it. -/
def execHostClose (t : Nat) (f : OuvHdr) (_status : Nat) (s : State) :
    Host.Outcome State Fault Refusal :=
  s.onFrame t f 0xF fun _ s => .silent (s.endSession f.sid)

/-- `SESSION_IDLE_TIMEOUT` (R77). -/
def execSessionIdleTimeout (t sid : Nat) (s : State) : Host.Outcome State Fault Refusal :=
  s.happen t
    (fun s => s.alive && match s.session sid with
      | some x => decide (x.lastRx + s.ouv.idleTimeout ≤ s.tick)
      | none => false)
    fun s => s.closeSession sid .eTimeout

/-- The `ACK` payload of a session (R81): base, map over the 64 numbers above it, refusal records,
and what remains for the next. -/
def ackWords (x : Session) : List Nat × List Nat × List (Nat × Status) :=
  match x.acks with
  | [] => (x.highSeq :: 0 :: ((x.refusals.take 32).flatMap fun r =>
      [r.1, statusCode r.2 * 2 ^ 48]), [], x.refusals.drop 32)
  | a :: rest =>
    let base := rest.foldl min a - 1
    let covered (q : Nat) : Bool := decide (base < q) && decide (q ≤ base + 64)
    let map := ((List.range 64).map fun i =>
      if x.acks.contains (base + 1 + i) then 2 ^ i else 0).sum
    (base :: map :: ((x.refusals.take 32).flatMap fun r => [r.1, statusCode r.2 * 2 ^ 48]),
      x.acks.filter (fun q => !covered q), x.refusals.drop 32)

/-- An `ACK` with everything due that fits. -/
def State.sendAck (sid : Nat) (s : State) : State :=
  match s.session sid with
  | none => s
  | some x =>
    let w := ackWords x
    (s.modSession sid fun x => { x with acks := w.2.1, refusals := w.2.2 }).sendOuv sid 0xE 0 .ok w.1

/-- `ACK_SEND` (R81). -/
def execAckSend (t sid : Nat) (s : State) : Host.Outcome State Fault Refusal :=
  s.happen t
    (fun s => s.alive && match s.session sid with
      | some x => !x.acks.isEmpty || !x.refusals.isEmpty
      | none => false)
    fun s => s.sendAck sid

/-- `CREDIT_ACK` (R83): a bare `ACK` carries the changed credit limit of a ring. -/
def execCreditAck (t sid ring : Nat) (s : State) : Host.Outcome State Fault Refusal :=
  s.happen t
    (fun s => s.alive && match s.session sid with
      | some x => x.credits.contains ring
      | none => false)
    fun s => (s.modSession sid fun x => { x with
      credits := ring :: x.credits.filter (· != ring) }).sendAck sid

end Sys2Proof.Machine
end

