-- ==== Sys2Proof/Machine/RingRows.lean ====
section
/-! DEFINITION. Ring commands, barriers, fences and the entries of host-produced rings
(R87 to R110, R392). -/

namespace Sys2Proof.Machine

/-! ### Ring commands (R89, R392) -/

/-- `esize` and `full_policy` allowed for a type (R89, R357). -/
def formAllowed (rtype esize policy : Nat) : Bool :=
  match rtype with
  | 1 => policy == 0
  | 2 => esize == 0 && decide (policy ≤ 1)
  | 3 => esize == 1 && policy == 0
  | 4 => esize == 0 && decide (policy ≤ 2)
  | 5 => esize == 0 && (policy == 1 || policy == 2)
  | 6 => esize == 1 && policy == 1
  | 7 => esize == 1 && decide (policy ≤ 1)
  | _ => false

/-- `cq_ring` is right for a type and owner (R88, R89). -/
def State.cqAllowed (rtype owner cq : Nat) (s : State) : Bool :=
  match rtype with
  | 1 => (s.ring cq).rtype == 2 && (s.ring cq).owner == owner
  | 3 => (s.ring cq).rtype == 4 && (s.ring cq).owner == owner
  | _ => cq == 0

/-- Two rings' memories overlap. -/
def Ring.overlaps (a b : Ring) : Bool :=
  decide (a.baseAddr < b.baseAddr + b.bytes) && decide (b.baseAddr < a.baseAddr + a.bytes)

/-- Contexts pinned now. -/
def State.pinnedCount (s : State) : Nat := (s.rings.ctx.filter (fun e => e.2.pinned)).length

/-- The context a `RING_CREATE` makes. -/
def RingSpec.ring (x : RingSpec) (token : Nat) : Ring :=
  let r : Ring :=
    { rtype := x.rtype, owner := x.owner, esize := x.esize, enabled := x.enabled,
      pinned := x.pinned, fullPolicy := x.fullPolicy, log2Entries := x.log2Entries,
      ownerToken := token, baseAddr := x.baseAddr, cqRing := x.cqRing,
      inflightMax := x.inflightMax, fullTimeout := x.fullTimeout }
  { r with limitIdx := if hostProduced r.rtype then BitVec.ofNat 32 r.size else 0 }

/-- The kept value of the rings. -/
def State.ringsVal (s : State) : StVal := .rings s.rings.ctx

/-- `RING_CREATE` (R89, R90). [DEDUCED: notes/assumptions/121.md] -/
def execRingCreate (t : Nat) (h : CmdHdr) (spec : RingSpec) (s : State) :
    Host.Outcome State Fault Refusal :=
  s.isain t { op := 0x0301 } h noObj (isP0 h) fun s =>
    let r := RingSpec.ring spec (s.part spec.owner).token
    checks
      [(decide (4096 ≤ spec.ring) || decide (64 ≤ spec.owner), .eRange),
       (!formAllowed spec.rtype spec.esize spec.fullPolicy, .eArg),
       (decide (spec.log2Entries < 6) || decide (20 < spec.log2Entries) ||
        decide (spec.inflightMax = 0) || decide (spec.fullTimeout = 0), .eRange),
       (decide (spec.baseAddr % 4096 ≠ 0), .eArg),
       (!s.cqAllowed spec.rtype spec.owner spec.cqRing, .eArg),
       (!inSoftware spec.baseAddr r.bytes, .eRange),
       (s.rings.ctx.any (fun e => e.2.rtype != 0 && e.1 != spec.ring && r.overlaps e.2),
        .eConflict),
       (s.ringMade spec.ring, .eState),
       (spec.pinned && decide (256 ≤ s.pinnedCount), .eNospace)]
      (let s' := (s.setRing spec.ring r).useCtx spec.ring
       let s' := if hostProduced r.rtype then s'.tellCredit spec.ring else s'
       okReply (s'.keep s'.ringsVal))

/-- A command of a partition that is being revoked (R112). -/
def State.revoked (h : CmdHdr) (s : State) : Bool := (s.part h.part).revoking

/-- A context with the masked fields of `RING_CONFIG` written. -/
def RingMask.apply (m : RingMask) (r : Ring) : Ring :=
  { r with
    enabled := m.enabled.getD r.enabled
    pinned := m.pinned.getD r.pinned
    fullPolicy := m.fullPolicy.getD r.fullPolicy
    inflightMax := m.inflightMax.getD r.inflightMax
    fullTimeout := m.fullTimeout.getD r.fullTimeout }

/-- `RING_CONFIG` (R89, R90, R104): the masked fields, through the cache; items stalled on a ring
that is being disabled are dropped. [DEDUCED: notes/assumptions/40.md] -/
def execRingConfig (t : Nat) (h : CmdHdr) (m : RingMask) (s : State) :
    Host.Outcome State Fault Refusal :=
  s.isain t { op := 0x0302 } h (fun s => s.ringMade m.ring)
    (fun s => owns h (s.ring m.ring).owner) fun s =>
    let r := s.ring m.ring
    checks
      [(s.revoked h, .eState),
       (!formAllowed r.rtype r.esize (m.fullPolicy.getD r.fullPolicy), .eArg),
       (m.inflightMax == some 0 || m.fullTimeout == some 0, .eRange),
       (m.pinned == some true && !r.pinned && decide (256 ≤ s.pinnedCount), .eNospace)]
      (let s1 := if m.enabled == some false then s.dropStalled m.ring else s
       let s2 := (s1.modRing m.ring (RingMask.apply m)).useCtx m.ring
       okReply (s2.keep s2.ringsVal))

/-- A type that pushes to a session (R102). -/
def pushes (rtype : Nat) : Bool := decide (2 ≤ rtype ∧ rtype ≤ 6) && rtype != 3

/-- `RING_ATTACH` (R102): `push_idx` goes back to `limit_idx`. [DEDUCED: notes/assumptions/40.md] -/
def execRingAttach (t : Nat) (h : CmdHdr) (ring sid : Nat) (s : State) :
    Host.Outcome State Fault Refusal :=
  s.isain t { op := 0x0303 } h (fun s => s.ringMade ring) (fun s => owns h (s.ring ring).owner)
    fun s =>
    let r := s.ring ring
    checks
      [(s.revoked h, .eState), (!pushes r.rtype, .eArg),
       ((s.session sid).map (·.part) != some r.owner, .ePriv)]
      (okReply ((s.setRing ring { r with pushSession := sid, pushIdx := r.limitIdx }).useCtx ring))

/-- `RING_DETACH` (R102): `RING_ATTACH` with session 0. -/
def execRingDetach (t : Nat) (h : CmdHdr) (ring : Nat) (s : State) :
    Host.Outcome State Fault Refusal :=
  s.isain t { op := 0x0303 } h (fun s => s.ringMade ring) (fun s => owns h (s.ring ring).owner)
    fun s =>
    checks [(s.revoked h, .eState), (!pushes (s.ring ring).rtype, .eArg)]
      (okReply ((s.modRing ring fun r => { r with pushSession := 0 }).useCtx ring))

/-- `RING_DESTROY` (R89). -/
def execRingDestroy (t : Nat) (h : CmdHdr) (ring : Nat) (s : State) :
    Host.Outcome State Fault Refusal :=
  s.isain t { op := 0x0304 } h (fun s => s.ringMade ring) (fun s => owns h (s.ring ring).owner)
    fun s =>
    let r := s.ring ring
    let named := s.rings.ctx.any fun e => e.1 != ring && hostProduced e.2.rtype &&
      e.2.cqRing == ring
    checks [(r.enabled || decide (r.inflight ≠ 0) || named, .eState)]
      (let s' := s.updRings fun x => { x with
        ctx := tdel x.ctx ring
        cache := { x.cache with cached := x.cache.cached.erase ring } }
       okReply (s'.keep s'.ringsVal))

/-- `RING_QUERY` (R88). -/
def execRingQuery (t : Nat) (h : CmdHdr) (ring : Nat) (s : State) :
    Host.Outcome State Fault Refusal :=
  s.isain t { op := 0x0305, stop := true } h (fun s => s.ringMade ring)
    (fun s => owns h (s.ring ring).owner)
    fun s => .done .ok (ringContextWords ring (s.ring ring)) s

/-- A range of entries pushed again, in frames of at most a batch (R103). -/
def State.repush (n sid : Nat) (start : W32) (count : Nat) (s : State) : State :=
  let b := (s.ring n).pushBatch
  (List.range ((count + b - 1) / b)).foldl (fun s k =>
    s.pushRange n sid (start + BitVec.ofNat 32 (k * b)) (min b (count - k * b))) s

/-- `RING_REPUSH` (R103). -/
def execRingRepush (t : Nat) (h : CmdHdr) (ring : Nat) (start : W32) (count : Nat) (s : State) :
    Host.Outcome State Fault Refusal :=
  s.isain t { op := 0x0306 } h (fun s => s.ringMade ring) (fun s => owns h (s.ring ring).owner)
    fun s =>
    let r := s.ring ring
    checks
      [(!pushes r.rtype, .eArg), (decide (r.pushSession = 0), .eState),
       (decide (idxDiff start r.limitIdx < 0) ||
        decide (idxDiff r.pushIdx start < count), .eRange)]
      (okReply (s.repush ring r.pushSession start count))

/-! ### Slots and barriers -/

/-- `SLOT_QUERY` (R392): another partition's slot, and a free one, reads as zeros.
[DEDUCED: notes/assumptions/33.md] -/
def execSlotQuery (t : Nat) (h : CmdHdr) (slot : Nat) (s : State) :
    Host.Outcome State Fault Refusal :=
  s.isain t { op := 0x0308, stop := true } h noObj anyPart fun s =>
    let x := s.slot slot
    let st : Nat := match x.state with
      | .free => 0 | .admitted => 1 | .running => 2 | .posting => 3 | .orphan => 4
    let src : Nat × Nat := match x.src with
      | .ring n i => (n, i.toNat)
      | .frame _ => (0xFFF, 0)
    if 65536 ≤ slot then no .eRange
    else if h.part = 0 ∨ (x.part = h.part ∧ x.state ≠ .free) then
      .done .ok (pack [(3, st), (6, x.part), (16, x.gen), (16, x.model), (16, x.epoch),
        (64, x.deadline), (12, src.1), (32, src.2)]) s
    else
      .done .ok (pack [(3, 0), (6, 0), (16, 0), (16, 0), (16, 0), (64, 0), (12, 0), (32, 0)]) s

/-- The barriers of a partition. -/
def State.barriersOf (part : Nat) (s : State) : List (Nat × Barrier) :=
  (s.rings.barriers.filter fun e => e.1 == part).map (·.2)

/-- The lowest free barrier number of a partition. [DESIGN CHOICE: notes/assumptions/112.md] -/
def State.freeBarrier (part : Nat) (s : State) : Nat :=
  ((List.range 16).find? fun k => !(s.barriersOf part).any fun b => b.1 == k).getD 0

/-- A feature table. -/
def State.table (k : Nat) (s : State) : Option FTable := tget s.models.tables k

/-- A generation of a table in a state. -/
def FTable.genIn (x : FTable) (st : GenState) : Option Generation := x.gens.find? fun g => g.state == st

/-- A table's generation. -/
def FTable.gen (x : FTable) (g : Nat) : Option Generation :=
  x.gens.find? fun y => y.g == g && y.state != .free

/-- `BARRIER` (R110): the barrier points are recorded, and the wait begins.
[DEDUCED: notes/assumptions/40.md] -/
def execBarrier (t : Nat) (h : CmdHdr) (rings : List Nat) (pairs : List (Nat × Nat)) (s : State) :
    Host.Outcome State Fault Refusal :=
  s.isain t { op := 0x0307, late := true } h noObj anyPart fun s =>
    let onPairs (bad : Nat × Nat → Bool) : Option Nat := itemBad rings.length bad pairs
    checksAt
      [(itemBad 0 (fun n => !s.ringMade n) rings, .eState),
       (onPairs (fun p => (s.table p.1).isNone), .eState),
       (itemBad 0 (fun n => (s.ring n).owner != h.part) rings, .ePriv),
       (onPairs (fun p => (s.table p.1).map (·.owner) != some h.part), .ePriv), unlistedAt h 0x0307,
       (onWhole (s.revoked h), .eState),
       (onWhole (decide (64 < rings.length) || decide (16 < pairs.length) || timeoutBad h), .eRange),
       (itemBad 0 (fun n => !hostProduced (s.ring n).rtype) rings, .eArg),
       (onPairs (fun p => ((s.table p.1).bind (·.genIn .current)).map (·.g) == some p.2), .eState),
       (onWhole (decide (16 ≤ (s.barriersOf h.part).length)), .busy)]
      (.wait (s.updRings fun x => { x with
        barriers := x.barriers ++ [(h.part, s.freeBarrier h.part,
          { h := h, points := rings.map fun n => (n, (s.ring n).prodIdx), pairs := pairs,
            hold := h.flag, due := s.tick + timeoutOf h })] }))

/-- Every entry below a barrier point has completed (R109, R110). -/
def Ring.doneBelow (r : Ring) (p : W32) : Bool :=
  !idxAbove p r.consIdx && r.opened.all (fun i => !idxAbove p i) &&
    r.fences.all (fun f => !idxAbove p f.1)

/-- A generation has retired: no slot stamped with it remains.
[DESIGN CHOICE: notes/assumptions/145.md] -/
def State.genRetired (table g : Nat) (s : State) : Bool :=
  !(s.rings.slots.any fun e => e.2.state != .free && tget e.2.tgens table == some g) &&
    match s.table table with
    | some x => (x.gen g).isNone || (x.gen g).map (·.state) == some .loading ||
        (x.gen g).map (·.state) == some .sealed
    | none => true

/-- A barrier's rings and generations are all complete. -/
def State.barrierDone (b : Barrier) (s : State) : Bool :=
  b.points.all (fun p => (s.ring p.1).doneBelow p.2) &&
    b.pairs.all (fun p => s.genRetired p.1 p.2)

/-- A barrier taken away. -/
def State.dropBarrier (part idx : Nat) (s : State) : State :=
  s.updRings fun x => { x with
    barriers := x.barriers.filter fun e => !(e.1 == part && e.2.1 == idx)
    ctx := (x.barriers.filter fun e => e.1 == part && e.2.1 == idx && e.2.2.hold).foldl
      (fun t e => e.2.2.points.foldl (fun t p => tmod t p.1 fun r => { r with headTick := s.tick }) t)
      x.ctx }

/-- A partition's barrier. -/
def State.barrier (part idx : Nat) (s : State) : Option Barrier :=
  (s.rings.barriers.find? fun e => e.1 == part && e.2.1 == idx).map (·.2.2)

/-- `BARRIER_COMPLETE` (R110): the answer lists the completion rings' producer indices. -/
def execBarrierComplete (t part idx : Nat) (s : State) : Host.Outcome State Fault Refusal :=
  s.happen t
    (fun s => s.running && s.bay.isainUp && match s.barrier part idx with
      | some b => s.barrierDone b
      | none => false)
    fun s => match s.barrier part idx with
      | some b => (s.dropBarrier part idx).answer b.h 0x0307 .ok noDetail
          (pack (b.points.map fun p => (32, (s.ring (s.ring p.1).cqRing).prodIdx.toNat)))
      | none => s

/-! ### Entries of host-produced rings (R96 to R100, R109) -/

/-- A barrier with `hold` stands at or below an index of a ring. -/
def State.heldBack (n : Nat) (i : W32) (s : State) : Bool :=
  s.rings.barriers.any fun e => e.2.2.hold &&
    e.2.2.points.any fun p => p.1 == n && !idxAbove p.2 i

/-- The ring's next entry stands, no fence or barrier holds it, and the ring's partition is neither
quiescing nor held (R109, R110, R438, R476). -/
def State.stands (n : Nat) (s : State) : Bool :=
  let r := s.ring n
  r.enabled && !r.faulted && decide (r.consIdx ≠ r.prodIdx) && r.fences.isEmpty &&
    !s.heldBack n r.consIdx && (s.part r.owner).enabled &&
    (if r.rtype = 1 then
      s.moving && (s.part r.owner).reinit.isNone && !s.closed
     else r.rtype == 3 && s.running && s.bay.isainUp && r.opened.isEmpty)

/-- The ring's next entry may be admitted: a `REQUEST_IN` ring whose `inflight` has reached
`inflight_max` admits nothing (R107). -/
def State.admits (n : Nat) (s : State) : Bool :=
  let r := s.ring n
  s.stands n && (r.rtype != 1 || decide (r.inflight < r.inflightMax))

/-- A row that reads a ring's context: it acts where the cache holds the context, and a miss starts its
fetch (R90). -/
def State.onCtx (t n : Nat) (guard : State → Bool) (eff : State → State) (s : State) :
    Host.Outcome State Fault Refusal :=
  s.happen t guard fun s => if s.cached n then eff s else s.missCtx n none

/-- A `VERDICT` entry (R101). -/
def verdictItem (n : Nat) (i : W32) (cookie : W64) (st : Status) (record : List Nat) : RingItem :=
  [[entryHead 0x10 0 1 0, cookie,
    BitVec.ofNat 64 (statusCode st * 2 ^ 48 + n * 2 ^ 36 + i.toNat)] ++
    record.map (BitVec.ofNat 64)]

/-- A `CMD_DONE` for a command that never ran: the header words as the entry holds them. -/
def refusedCmdItem (n : Nat) (i : W32) (word0 seq : W64) (st : Status) (tick : Nat) : RingItem :=
  [[entryHead 0x12 1 1 0, seq,
    BitVec.ofNat 64 (statusCode st * 2 ^ 48 + n * 2 ^ 36 + i.toNat), word0, seq, 0,
    BitVec.ofNat 64 (statusCode st * 2 ^ 48 + noDetail * 2 ^ 32), BitVec.ofNat 64 tick]]

/-- The first refusal of R97 an entry meets, whatever its kind: kind, `idx_check`, `resv`. -/
def headRefusal (rtype : Nat) (i : W32) (ws : List W64) : Option Status :=
  let w := wordOf ws 0
  let k := headKind w
  let single := k == 0x01 || k == 0x02 || k == 0x03
  if !(if rtype = 1 then single else k == 0x02 || k == 0x03 || k == 0x04) then some .eArg
  else if headIdx w ≠ i.toNat % 65536 then some .eState
  else if headResv w ≠ 0 ∨ (single ∧ headCount w ≠ 1) then some .eArg
  else if k = 0x02 ∧ (headFlags w / 2 ≠ 0 ∨ headData w ≠ 0 ∨ (ws.drop 2).any (· != 0)) then
    some .eArg
  else none

/-- An entry, or the `k` entries of a command, refused: consumed, and counted; a `REQUEST` or `COMMAND` on
a ring of its type gets a completion with the status (R97). -/
def State.refuseEntry (n : Nat) (i : W32) (ws : List W64) (k : Nat) (st : Status) (s : State) :
    State :=
  let r := s.ring n
  let s := (s.modRing n fun r => { r with
    dropCount := min (r.dropCount + k) (2 ^ 32 - 1) }).consume n k
  let kind := headKind (wordOf ws 0)
  if kind = 0x01 ∧ r.rtype = 1 then
    (s.modRing n fun r => { r with opened := r.opened ++ [i] }).ringItem r.cqRing
      (verdictItem n i (wordOf ws 1) st [])
  else if kind = 0x04 ∧ r.rtype = 3 then
    (s.modRing n fun r => { r with opened := r.opened ++ [i] }).ringItem r.cqRing
      (refusedCmdItem n i (wordOf ws 1) (wordOf ws 2) st s.tick)
  else s

/-- The cookie or command sequence that an unreadable entry's completion carries (R331). -/
def State.faultCookie (n : Nat) (i : W32) (ws : List W64) (s : State) : W64 :=
  let a := (s.ring n).addr i
  let k := headKind (wordOf ws 0)
  if !s.mem.readable a 8 then 0
  else if (k = 0x01 ∨ k = 0x02) ∧ s.mem.readable (a + 8) 8 then wordOf ws 1
  else if k = 0x04 ∧ s.mem.readable (a + 16) 8 then wordOf ws 2
  else 0

/-- An entry that cannot be read is consumed as a fence with `post` clear; its completion says
`E_FAULT` (R331). -/
def State.faultEntry (n : Nat) (i : W32) (ws : List W64) (s : State) : State :=
  let c := s.faultCookie n i ws
  (s.modRing n fun r => { r with
    fences := r.fences ++ [(i, 0, false)]
    fencePending := r.fencePending + 1
    pendingDone := r.pendingDone ++ [(i, c, .eFault)] }).consume n 1

/-- The next entry of a ring, read and checked, goes to `good` where it is of the row's kind. An
unreadable or refused entry is consumed as R331 and R97 say. -/
def State.nextEntry (n kind : Nat) (good : W32 → List W64 → State → State) (s : State) : State :=
  let r := s.ring n
  let i := r.consIdx
  let ws := s.entryWords n i
  if !s.entryReadable n i then
    ((s.useCtx n).touch (r.addr i) r.entryBytes 0).faultEntry n i ws
  else match headRefusal r.rtype i ws with
    | some st => ((s.useCtx n).touch (r.addr i) r.entryBytes 0).refuseEntry n i ws 1 st
    | none =>
      if headKind (wordOf ws 0) = kind then
        good i ws ((s.useCtx n).touch (r.addr i) r.entryBytes 0)
      else s

/-- `FENCE_ENTRY` (R109): a fence is admitted and consumed; it holds later entries back. -/
def execFenceEntry (t ring : Nat) (s : State) : Host.Outcome State Fault Refusal :=
  s.onCtx t ring (fun s => s.admits ring) fun s => s.nextEntry ring 0x02 fun i ws s =>
    (s.modRing ring fun r => { r with
      fences := r.fences ++ [(i, wordOf ws 1, (headFlags (wordOf ws 0)).testBit 0)]
      fencePending := r.fencePending + 1 }).consume ring 1

/-- `FENCE_COMPLETE` (R109): every entry before the fence has completed. With `post`, `FENCE_DONE`
goes to the completion ring; an entry that could not be read gets its `E_FAULT` completion
(R331). -/
def execFenceComplete (t ring : Nat) (s : State) : Host.Outcome State Fault Refusal :=
  s.happen t (fun s => s.running && !(s.ring ring).fences.isEmpty && (s.ring ring).opened.isEmpty)
    fun s =>
      let r := s.ring ring
      match r.fences with
      | [] => s
      | (i, cookie, post) :: rest =>
        let s := s.setRing ring { r with
          headTick := s.tick
          fences := rest
          fencePending := r.fencePending - 1
          pendingDone := r.pendingDone.filter fun e => e.1 != i }
        match r.pendingDone.find? fun e => e.1 == i with
        | some (_, c, st) =>
          (s.modRing ring fun r => { r with opened := r.opened ++ [i] }).ringItem r.cqRing
            (if r.rtype = 1 then verdictItem ring i c st []
             else refusedCmdItem ring i 0 c st s.tick)
        | none =>
          if post then
            s.ringItem r.cqRing [[entryHead 0x11 0 1 0, cookie,
              BitVec.ofNat 64 (ring * 2 ^ 36 + i.toNat)]]
          else s

/-- `NOP_ENTRY` (R97): consumed with no effect or completion. -/
def execNopEntry (t ring : Nat) (s : State) : Host.Outcome State Fault Refusal :=
  s.onCtx t ring (fun s => s.admits ring) fun s =>
    s.nextEntry ring 0x03 fun _ _ s => s.consume ring 1

/-- What is wrong with a continuation entry of a command (R96, R97). -/
def contRefusal (i : W32) (ws : List W64) : Option Status :=
  let w := wordOf ws 0
  if headKind w ≠ 0x04 then some .eArg
  else if headIdx w ≠ i.toNat % 65536 then some .eState
  else if headCount w ≠ 0 ∨ headFlags w ≠ 0 ∨ headResv w ≠ 0 ∨ headData w ≠ 0 then some .eArg
  else none

/-- The header of a command read from a ring (R380). -/
def cmdHead (n : Nat) (ws : List W64) : CmdHdr :=
  let w := (wordOf ws 0).toNat
  { via := .ring n, part := bitsOf w 47 42, token := bitsOf w 31 16, flag := w.testBit 8
    timeoutUs := (wordOf ws 2).toNat % 2 ^ 32, seq := (wordOf ws 1).toNat, lenBad := false
    resvBad := false, flagsHi := bitsOf w 15 9 }

/-- Isain has read a command of `ws` (R100): it runs as the row of its opcode; an opcode of no command
is answered at once. [DEDUCED: notes/assumptions/15.md] -/
def State.takeCmd (n : Nat) (i : W32) (ws : List W64) (s : State) : State :=
  let op := bitsOf (wordOf ws 0).toNat 63 48
  let s := s.modRing n fun r => { r with opened := r.opened ++ [i], cmd := ws }
  if opcodes.contains op then s else s.answer (cmdHead n ws) op .eArg noDetail []

/-- `COMMAND_ENTRY` (R100): Isain reads a whole command once all its entries are admissible: 120 bytes
of each, behind their header words. [DEDUCED: notes/assumptions/15.md] -/
def execCommandEntry (t ring : Nat) (s : State) : Host.Outcome State Fault Refusal :=
  s.onCtx t ring (fun s => s.admits ring && (s.ring ring).rtype == 3) fun s =>
    s.nextEntry ring 0x04 fun i ws s =>
      let r := s.ring ring
      let k := headCount (wordOf ws 0)
      let rest := (List.range (k - 1)).map fun j => i + BitVec.ofNat 32 (j + 1)
      if k = 0 ∨ 8 < k then s.refuseEntry ring i ws 1 .eArg
      else if idxCount r.prodIdx i < k then s
      else if rest.any (fun j => !s.entryReadable ring j) then
        ((rest.foldl (fun s j => s.touch (r.addr j) r.entryBytes 0) s).faultEntry ring i ws).consume ring (k - 1)
      else match rest.findSome? (fun j => contRefusal j (s.entryWords ring j)) with
        | some st => (rest.foldl (fun s j => s.touch (r.addr j) r.entryBytes 0) s).refuseEntry ring i ws k st
        | none =>
          ((rest.foldl (fun s j => s.touch (r.addr j) r.entryBytes 0) s).consume ring k).takeCmd ring i
            ((i :: rest).flatMap fun j => (s.entryWords ring j).drop 1)

/-- `RING_FULL_STALL_EXPIRY` (R104): the oldest stalled item has waited `full_timeout`; it is
dropped. -/
def execRingFullStallExpiry (t ring : Nat) (s : State) : Host.Outcome State Fault Refusal :=
  s.happen t
    (fun s => s.running && match (s.ring ring).stalled with
      | e :: _ => decide (e.1 + (s.ring ring).fullTimeout * 1000 ≤ s.tick)
      | [] => false)
    fun s => match (s.ring ring).stalled with
      | e :: rest => ((s.modRing ring fun r => { r with stalled := rest }).dropItem ring
          e.2).drainStalled ring
      | [] => s

end Sys2Proof.Machine
end

