-- ==== Sys2Proof/Machine/ModelOps.lean ====
section
/-! DEFINITION. Model containers: what their bytes hold, the checks of staging, tree walks, and the
composing and mapping of scores (R228 to R254, R298 to R308, R316 to R318). -/

namespace Sys2Proof.Machine

/-! ### The container's bytes (R298, R299) -/

/-- A section of a container: type, offset and length. -/
structure Sect where
  kind : Nat
  off : Nat
  len : Nat
  deriving DecidableEq, Repr

/-- The directory of a container. -/
def State.sects (a : Nat) (s : State) : List Sect :=
  (List.range (s.leAt (a + 7) 1)).map fun i =>
    let e := s.leAt (a + 64 + 16 * i) 16
    { kind := bitsOf e 15 0, off := bitsOf e 127 64, len := bitsOf e 63 32 }

/-- The sections of a type, in directory order. -/
def ofKind (k : Nat) (l : List Sect) : List Sect := l.filter fun x => x.kind == k

/-- The first section of a type; an empty one where there is none. -/
def sectOf (k : Nat) (l : List Sect) : Sect := ((ofKind k l).head?).getD { kind := k, off := 0, len := 0 }

/-- The records of a section, `w` bytes each. -/
def State.rows (a w : Nat) (x : Sect) (s : State) : List Nat :=
  (List.range (x.len / w)).map fun i => s.leAt (a + x.off + w * i) w

/-- Two sections share a byte. -/
def Sect.meets (x y : Sect) : Bool :=
  decide (x.off < y.off + y.len) && decide (y.off < x.off + x.len)

/-- No two sections of a list overlap. -/
def sectsApart : List Sect → Bool
  | [] => true
  | x :: r => r.all (fun y => !x.meets y) && sectsApart r

/-- The directory's reserved bits are clear. -/
def State.dirClean (a : Nat) (s : State) : Bool :=
  (List.range (s.leAt (a + 7) 1)).all fun i => bitsOf (s.leAt (a + 64 + 16 * i) 16) 31 16 == 0

/-- The header is that of a container of `len` bytes, and its digest holds (R298). -/
def State.headGood (a len : Nat) (s : State) : Bool :=
  let h := s.leAt a 64
  bitsOf h 31 0 == 0x4B344D43 && bitsOf h 47 32 == 1 && decide (bitsOf h 55 48 ≤ 1) &&
    decide (1 ≤ bitsOf h 63 56) && decide (bitsOf h 63 56 ≤ 32) && bitsOf h 127 64 == len &&
    decide (len ≤ 0x20000000) && bitsOf h 159 128 == 0 && bitsOf h 255 192 == 0 &&
    s.bytesAt (a + 32) 32 == shake256 32 (s.bytesAt (a + 64) (len - 64))

/-- How often a section type stands in a container, by its kind (R299). -/
def countGood (packet : Bool) (l : List Sect) : Bool :=
  let n (k : Nat) : Nat := (ofKind k l).length
  let ens := n 0x10 == 1
  let known := l.all fun x => [1, 2, 3, 0x10, 0x11, 0x12, 0x13, 0x14, 0x20, 0x30, 0x31, 0x40].contains
    x.kind
  let group := [0x11, 0x12].all fun k => n k == n 0x10
  known && n 1 == 1 && n 2 == 1 && n 3 == 1 && group && decide (n 0x13 ≤ 1) && decide (n 0x14 ≤ 1) &&
    (if packet then ens && n 0x20 == 0 && n 0x30 == 0 && n 0x31 == 0 && decide (n 0x40 ≤ 1)
     else decide (n 0x10 ≤ 1) && n 0x20 == n 0x10 && decide (n 0x30 ≤ 1) && decide (n 0x31 ≤ 1) &&
       decide (n 0x40 ≤ 8))

/-- Every section lies in the container, at a multiple of 64, apart from the others, and holds whole
records within the limits of R228 and this chapter. -/
def placesGood (len nOut : Nat) (l : List Sect) : Bool :=
  let whole (x : Sect) : Bool :=
    let in' (w lo hi : Nat) : Bool :=
      x.len % w == 0 && decide (lo ≤ x.len / w) && decide (x.len / w ≤ hi)
    match x.kind with
    | 0x01 => x.len == 64
    | 0x02 => in' 16 1 512
    | 0x03 => in' 16 1 8
    | 0x10 => in' 16 1 16777216
    | 0x11 => in' 8 1 4096
    | 0x12 => in' 144 1 64
    | 0x13 => in' (4 * max nOut 1) 0 65535
    | 0x14 => in' 8 0 16777216
    | 0x31 => in' 32 1 32
    | _ => true
  l.all (fun x => x.off % 64 == 0 && decide (x.off + x.len ≤ len) && whole x) && sectsApart l

/-! ### What the sections hold -/

/-- `PARAMS` (R300). -/
def parseParams (v : Nat) : Params :=
  { rsCompat := ([bitsOf v 463 448, bitsOf v 479 464, bitsOf v 495 480, bitsOf v 511 496].filter
      (· != 0))
    defaultBudget := bitsOf v 447 416, maxBudget := bitsOf v 415 384, tail := bitsOf v 383 352,
    scoreOff := bitsOf v 351 320, defScore := BitVec.ofNat 32 (bitsOf v 319 288),
    defArg := bitsOf v 287 272, defTag := bitsOf v 271 256, nFeat := bitsOf v 255 240,
    nItemsMax := bitsOf v 239 224, nOut := bitsOf v 223 216, link := bitsOf v 215 212,
    mapOut := bitsOf v 211 208, defAction := bitsOf v 207 205, defAnnotate := v.testBit 204,
    scoresOut := v.testBit 203 }

/-- An `INPUTS` record (R301). -/
def parseInput (v : Nat) : InputRec :=
  { kind := bitsOf v 127 120, featBase := bitsOf v 119 104, count := bitsOf v 103 88,
    perItem := v.testBit 80, argA := bitsOf v 79 64, argB := bitsOf v 63 32, argC := bitsOf v 31 0 }

/-- A band of `MAPPING` (R304). -/
def parseBand (v : Nat) : Band :=
  { lo := BitVec.ofNat 32 (bitsOf v 127 96), arg := bitsOf v 95 80, tag := bitsOf v 79 64,
    action := bitsOf v 63 61, annotate := v.testBit 60 }

/-- A tree table entry (R238). -/
def parseTree (v : Nat) : Tree := { root := bitsOf v 63 40, out := bitsOf v 39 36, depth := bitsOf v 35 31 }

/-- A stage table entry (R239). -/
def parseStage (v : Nat) : Stage :=
  { first := bitsOf v 127 116, count := bitsOf v 115 109, est := BitVec.ofNat 32 (bitsOf v 95 64)
    corr := (List.range 16).map fun o =>
      (BitVec.ofNat 32 (bitsOf v (191 + 64 * o) (160 + 64 * o)),
       BitVec.ofNat 32 (bitsOf v (159 + 64 * o) (128 + 64 * o))) }

/-- A tree's place (R305). -/
def parsePlace (v : Nat) : Place :=
  { pclust := bitsOf v 15 8, pcore := bitsOf v 7 4, pstore := bitsOf v 3 2 }

/-- A step (R306). -/
def parseStep (v : Nat) : Step :=
  { kernel := bitsOf v 255 240, phase := bitsOf v 239 232, pcFirst := bitsOf v 231 224,
    pcCount := bitsOf v 223 216, layerId := bitsOf v 215 200, opId := bitsOf v 199 184,
    est := bitsOf v 183 152, featBase := bitsOf v 151 136, featCount := bitsOf v 135 120,
    argOff := bitsOf v 119 88, argLen := bitsOf v 87 72 }

/-- The rows of a job's weights, k BF16 values each, padded to 8 bytes (R307). -/
def State.cellRows (a k m : Nat) (s : State) : List (List W16) :=
  let w := (2 * k + 7) / 8 * 8
  (List.range m).map fun i => (List.range k).map fun j => BitVec.ofNat 16 (s.leAt (a + w * i + 2 * j) 2)

/-- The bytes of a job with its bias. -/
def jobBytes (k m : Nat) : Nat := (2 * k + 7) / 8 * 8 * m + 4 * m

/-- The outputs of each job of a cell kind (R264). -/
def cellJobs (kind : Nat) : List Nat := if kind = 0 then [64] else [128, 128]

/-- A `CELL` section (R307). -/
def State.parseCell (a : Nat) (x : Sect) (s : State) : Cell :=
  let h := s.leAt (a + x.off) 16
  let kind := bitsOf h 127 120
  let n := bitsOf h 119 112
  let use := bitsOf h 111 104
  let ins := if use = 0 then (List.range n).map fun i => s.leAt (a + x.off + 16 + 8 * i) 8 else []
  let w := a + x.off + 16 + 8 * ins.length
  let k := n + 64
  let at' (j : Nat) : Nat := w + (((cellJobs kind).take j).map (jobBytes k)).sum
  { kind := kind, nIn := n, use := use
    inputs := ins.map fun v => (BitVec.ofNat 16 (bitsOf v 63 48), bitsOf v 47 40, bitsOf v 31 16,
      bitsOf v 15 8)
    weights := (numbered (cellJobs kind)).map fun e => s.cellRows (at' e.1) k e.2
    bias := (numbered (cellJobs kind)).map fun e => (List.range e.2).map fun i =>
      BitVec.ofNat 32 (s.leAt (at' (e.1 + 1) - 4 * e.2 + 4 * i) 4) }

/-- The bytes a `CELL` section needs. -/
def Cell.bytes (c : Cell) : Nat :=
  16 + 8 * c.inputs.length + ((cellJobs c.kind).map (jobBytes (c.nIn + 64))).sum

/-- The kernel images of a `KERNELS` section, one after the other at 64-byte boundaries, and where
the argument area starts. The images' sizes are the toolkit's (notes/assumptions/23.md). -/
def kernelPlaces : List Nat → Nat → List (Nat × Nat) × Nat
  | [], a => ([], a)
  | n :: r, a =>
    let p := kernelPlaces r (a + (n + 63) / 64 * 64)
    ((a, n) :: p.1, p.2)

/-- What a container holds, read from its bytes (R298 to R307), before any check.
[DEDUCED: notes/assumptions/52.md] -/
def State.parseModel (handle a len : Nat) (bindings : List (List Nat)) (s : State) : Model :=
  let l := s.sects a
  let ks := sectOf 0x30 l
  let kp := kernelPlaces (if (ofKind 0x30 l).isEmpty then []
    else Config.kernelSizes (s.bytesAt (a + ks.off) ks.len)) (a + ks.off)
  let pl := sectOf 0x20 l
  let trees := (s.rows a 8 (sectOf 0x11 l)).map parseTree
  let steps := (s.rows a 32 (sectOf 0x31 l)).map parseStep
  { handle := handle, packet := s.leAt (a + 6) 1 == 0, cAddr := a, cLen := len
    params := parseParams (s.leAt (a + (sectOf 1 l).off) 64)
    inputs := (s.rows a 16 (sectOf 2 l)).map parseInput
    bands := (s.rows a 16 (sectOf 3 l)).map parseBand
    nodes := (s.rows a 16 (sectOf 0x10 l)).map (BitVec.ofNat 128)
    nodesAt := a + (sectOf 0x10 l).off
    trees := trees
    stages := (s.rows a 144 (sectOf 0x12 l)).map parseStage
    leaves := (s.rows a 4 (sectOf 0x13 l)).map (BitVec.ofNat 32)
    bits := s.bytesAt (a + (sectOf 0x14 l).off) (sectOf 0x14 l).len
    nPclust := if (ofKind 0x20 l).isEmpty then maxOf (steps.map fun x => x.pcFirst + x.pcCount)
      else s.leAt (a + pl.off) 2
    places := if (ofKind 0x20 l).isEmpty then []
      else (List.range trees.length).map fun i => parsePlace (s.leAt (a + pl.off + 8 + 2 * i) 2)
    kernelAddrs := kp.1, argBase := kp.2, steps := steps
    cells := (ofKind 0x40 l).map fun x => s.parseCell a x
    bindings := bindings.map fun b => { clusters := b, cores := b.map fun c => s.logicalIn c } }

/-! ### Nodes and walks (R229 to R237, R242) -/

/-- The fields of a node (R229). -/
def ndGroup (n : BitVec 128) : Nat := bitsOf n.toNat 127 112
def ndRight (n : BitVec 128) : Nat := bitsOf n.toNat 111 88
def ndLeft (n : BitVec 128) : Nat := bitsOf n.toNat 87 64
def ndThr (n : BitVec 128) : W32 := BitVec.ofNat 32 (bitsOf n.toNat 63 32)
def ndBin (n : BitVec 128) : Bool := n.toNat.testBit 21
def ndDefault (n : BitVec 128) : Bool := n.toNat.testBit 20
def ndKind (n : BitVec 128) : Nat := bitsOf n.toNat 19 16
def ndFeat (n : BitVec 128) : Nat := bitsOf n.toNat 15 0

/-- The threshold of a numeric node (R231). -/
def ndThreshold (n : BitVec 128) : W32 := if ndBin n then fnat (ndThr n).toNat else ndThr n

/-- The category of a value; none where R236 sends it by `default_dir`. -/
def category (x : W32) : Option Nat :=
  match fv x with
  | .fin neg m e =>
    let whole := if 0 ≤ e then true else m % 2 ^ (-e).toNat == 0
    let v := if 0 ≤ e then m * 2 ^ e.toNat else m / 2 ^ (-e).toNat
    if whole && !(neg && m != 0) then some v else none
  | _ => none

/-- A bit of a byte string, bit 0 the lowest of byte 0. -/
def bitAt (bs : List Byte) (i : Nat) : Bool := ((bs[i / 8]?).getD 0).getLsbD (i % 8)

/-- A node sends a present value right (R230, R235, R236). -/
def Model.goesRight (m : Model) (n : BitVec 128) (x : W32) : Bool :=
  if fisNan x then ndDefault n
  else match ndKind n with
    | 0 => !flt x (ndThreshold n)
    | 1 => !fle x (ndThreshold n)
    | _ =>
      match category x with
      | none => ndDefault n
      | some c =>
        if 64 * (bitsOf (ndThr n).toNat 31 24 + 1) ≤ c then ndDefault n
        else !bitAt m.bits (64 * bitsOf (ndThr n).toNat 23 0 + c)

/-- Where a walk stands after a run of visits, with the visits in order: the node, and the feature read there. -/
inductive WalkEnd where
  | leaf (node : BitVec 128) (path : List (Nat × Option Nat))
  | parked (node feat : Nat) (path : List (Nat × Option Nat))
  deriving DecidableEq, Repr

/-- The visits of a run. -/
def WalkEnd.path : WalkEnd → List (Nat × Option Nat)
  | .leaf _ p => p
  | .parked _ _ p => p

/-- The features read in a run. -/
def WalkEnd.feats (w : WalkEnd) : List Nat := w.path.filterMap (·.2)

/-- The reads of a run that met an uncorrectable word of an item's vector (R234). -/
def WalkEnd.badReads (x : Item) (w : WalkEnd) : Nat := (w.feats.filter x.bad.contains).length

/-- The state of a feature as a walk reads it (R233, R234): a value, missing, or pending. -/
inductive FeatState where
  | present (v : W32) | missing | pending
  deriving DecidableEq, Repr

/-- A feature's state from its bits; one whose word is uncorrectable reads as missing. -/
def Item.featState (x : Item) (f : Nat) : FeatState :=
  if x.bad.contains f then .missing
  else match tget x.vals f with
    | some v => .present v
    | none => if x.pending.contains f then .pending else .missing

/-- A walk from a node, for an item's features, with nodes read by `nd` (R242). The fuel covers the longest path
(R232), and `p` holds the visits made. -/
def Model.walk (m : Model) (nd : Nat → BitVec 128) (x : Item) :
    Nat → Nat → List (Nat × Option Nat) → WalkEnd
  | 0, _, p => .leaf 0 p
  | k + 1, i, p =>
    let n := nd i
    if ndKind n = 3 then .leaf n (p ++ [(i, none)])
    else
      let q := p ++ [(i, some (ndFeat n))]
      match x.featState (ndFeat n) with
      | .present w => m.walk nd x k (if m.goesRight n w then ndRight n else ndLeft n) q
      | .missing => m.walk nd x k (if ndDefault n then ndRight n else ndLeft n) q
      | .pending => .parked i (ndFeat n) p

/-- A node of a copy made for the cores (R241). [DESIGN CHOICE: notes/assumptions/135.md] -/
def nodeIn (l : List (BitVec 128)) (i : Nat) : BitVec 128 := (l[i]?).getD 0

/-- A tree is left in device memory by its placement (R241, R305). -/
def Model.treeInPlace (m : Model) (tree : Nat) : Bool := ((m.places[tree]?).map (·.pstore)) == some 2

/-- How a walk of a tree reads its nodes: a copy, or the container in place (R241, R309). -/
def State.nodeOf (copy : List (BitVec 128)) (m : Model) (tree : Nat) (s : State) (i : Nat) : BitVec 128 :=
  if m.treeInPlace tree then BitVec.ofNat 128 (s.leAt (m.nodesAt + 16 * i) 16) else nodeIn copy i

/-- A tree walked from a node for an item, with the copy that the core or its cluster holds. -/
def State.walkTree (copy : List (BitVec 128)) (m : Model) (tree : Nat) (x : Item) (i : Nat) (s : State) : WalkEnd :=
  m.walk (s.nodeOf copy m tree) x (m.nodes.length + 1) i []

/-- The first visit of a run whose node cannot be read from device memory. -/
def State.brokenVisit (m : Model) (tree : Nat) (w : WalkEnd) (s : State) : Option Nat :=
  if m.treeInPlace tree then
    idxOf? (fun v : Nat × Option Nat => !s.mem.readable (m.nodesAt + 16 * v.1) 16) w.path
  else none

/-- A list with an element changed. -/
def listSet {α : Type} (l : List α) (i : Nat) (f : α → α) : List α :=
  l.zipIdx.map fun e => if e.2 = i then f e.1 else e.1

/-- A leaf added to an item's part of the sums (R237). -/
def Model.addLeaf (m : Model) (tree item : Nat) (n : BitVec 128) (sums : List W32) : List W32 :=
  let o := m.params.nOut
  if ndGroup n = 0 then
    listSet sums (item * o + ((m.trees[tree]?).map (·.out)).getD 0) fun v => fadd v (ndThr n)
  else
    (List.range o).foldl (fun sums j =>
      listSet sums (item * o + j) fun v =>
        fadd v ((m.leaves[(ndGroup n - 1) * o + j]?).getD 0)) sums

/-! ### The checks of an ensemble (R228, R232, R238, R239, R299) -/

/-- The longest path in comparisons from each node, from node `i` up. -/
def heights : List (BitVec 128) → Nat → List Nat
  | [], _ => []
  | n :: r, i =>
    let hs := heights r (i + 1)
    let at' (c : Nat) : Nat := (hs[c - i - 1]?).getD 0
    (if ndKind n = 3 then 0 else 1 + max (at' (ndLeft n)) (at' (ndRight n))) :: hs

/-- A leaf is laid out as R232 wants. -/
def leafGood (nOut vectors : Nat) (n : BitVec 128) : Bool :=
  ndFeat n == 0xFFFF && !ndDefault n && !ndBin n && ndLeft n == 0 && ndRight n == 0 &&
    (if ndGroup n = 0 then ffinite (ndThr n)
     else decide (ndGroup n ≤ vectors) && decide (1 < nOut) && ndThr n == 0)

/-- An inner node is laid out as R232 wants; `first` and `last` bound its tree. -/
def innerGood (nFeat bitsetLen i last : Nat) (n : BitVec 128) : Bool :=
  let t := (ndThr n).toNat
  decide (ndFeat n < nFeat) && ndGroup n == 0 && decide (i < ndLeft n) && decide (i < ndRight n) &&
    decide (ndLeft n < last) && decide (ndRight n < last) &&
    (if ndKind n = 2 then !ndBin n && decide ((bitsOf t 23 0 + bitsOf t 31 24 + 1) * 8 ≤ bitsetLen)
     else if ndBin n then decide (t < 2 ^ 16) else !fisNan (ndThr n))

/-- The end of the tree that holds a node: the next root, or the node count. -/
def treeEnd (roots : List Nat) (count i : Nat) : Nat := ((roots.filter fun r => decide (i < r)).head?).getD count

/-- Every node is well formed, and every node but a root is a child (R232, R299). -/
def Model.nodesGood (m : Model) : Bool :=
  let roots := m.trees.map (·.root)
  let kids := m.nodes.flatMap fun n => if ndKind n = 3 then [] else [ndLeft n, ndRight n]
  (numbered m.nodes).all fun e =>
    bitsOf e.2.toNat 31 22 == 0 && (roots.contains e.1 || kids.contains e.1) &&
      (if ndKind e.2 = 3 then leafGood m.params.nOut (m.leaves.length / max 1 m.params.nOut) e.2
       else decide (ndKind e.2 < 3) && innerGood m.params.nFeat m.bits.length e.1
         (treeEnd roots m.nodes.length e.1) e.2)

/-- A list rises strictly. -/
def rising : List Nat → Bool
  | [] => true
  | [_] => true
  | x :: y :: r => decide (x < y) && rising (y :: r)

/-- The trees stand as R299 wants, with their true depths within R228's limits. -/
def Model.treesGood (m : Model) : Bool :=
  let roots := m.trees.map (·.root)
  let hs := heights m.nodes 0
  roots.head? == some 0 && rising roots && roots.all (fun r => decide (r < m.nodes.length)) &&
    m.trees.all (fun t => t.depth == (hs[t.root]?).getD 0 && decide (t.depth ≤ 24) &&
      decide (t.out < m.params.nOut)) &&
    (!m.packet || decide ((m.trees.map fun t => t.depth + 1).sum ≤ 64))

/-- Stages follow one another over all trees, with finite corrections and positive estimates. -/
def Model.stagesGood (m : Model) : Bool :=
  let ends := m.stages.map fun x => x.first + x.count
  m.stages.map (·.first) == (0 :: ends).take m.stages.length && ends.getLast? == some m.trees.length &&
    m.stages.all (fun x => decide (1 ≤ x.count) && decide (x.count ≤ 64) && flt 0 x.est &&
      (numbered x.corr).all fun e =>
        if e.1 < m.params.nOut then ffinite e.2.1 && ffinite e.2.2 else e.2.1 == 0 && e.2.2 == 0) &&
    (!m.packet || m.stages.length == 1)

/-- The model has an ensemble. -/
def Model.ensemble (m : Model) : Bool := !m.nodes.isEmpty

/-! ### The other checks -/

/-- `PARAMS` (R300, R250), but for `max_budget_ns` against `eg_hold_max`. -/
def Model.paramsGood (m : Model) : Bool :=
  let p := m.params
  decide (1 ≤ p.nFeat) && decide (p.nFeat ≤ 4096) && decide (1 ≤ p.nItemsMax) &&
    (!m.packet || p.nItemsMax == 1) && decide (1 ≤ p.nOut) && decide (p.nOut ≤ 16) &&
    decide (p.mapOut < p.nOut) && decide (p.link ≤ 2) && (p.link != 2 || decide (2 ≤ p.nOut)) &&
    ffinite p.defScore && decide (p.defAction ≤ 5) &&
    (m.packet || (decide (1000 ≤ p.tail) && decide (p.tail ≤ 1000000) &&
      decide (p.tail + 1000 ≤ p.defaultBudget) && decide (p.defaultBudget ≤ p.maxBudget)))

/-- The flow identifiers a model may name (R260, R262). -/
def flowIdGood (packet : Bool) (id : Nat) : Bool :=
  decide (id < 90) || (!packet && decide (128 ≤ id) && decide (id < 218))

/-- An input record, but for its table (R302, R303). -/
def Model.inputGood (m : Model) (x : InputRec) : Bool :=
  let one := x.count == 1
  decide (1 ≤ x.count) && decide (x.count ≤ 4096) && decide (x.featBase + x.count ≤ m.params.nFeat) &&
    (!m.packet || x.kind == 2 || x.kind == 3 || x.kind == 6) &&
    match x.kind with
    | 0 => true
    | 1 => x.perItem || x.argB == 0
    | 2 => one && decide (1 ≤ x.argB) && decide (x.argB ≤ 32) && decide (x.argA + x.argB ≤ 2048)
    | 3 => one && flowIdGood m.packet x.argA
    | 4 => one && (decide (x.argA ≤ 255) || x.argA == 0xFFFF)
    | 5 => decide (x.argB / 2 ^ 28 ≤ 5) && (x.argB / 2 ^ 28 != 5 || decide (x.argC + 63 ≤ 2047))
    | 6 => one && decide (x.argA < 4096)
    | 7 => x.count == 64 && ((m.cells[x.argA]?).map (·.use)) == some 1
    | _ => false

/-- The features that records map, in order. -/
def Model.mapped (m : Model) : List Nat :=
  m.inputs.flatMap fun x => (List.range x.count).map fun j => x.featBase + j

/-- The tables a model reads (R273). -/
def Model.tables (m : Model) : List Nat :=
  ((m.inputs.filter fun x => x.kind == 5).map (·.argA)).eraseDups

/-- The inputs as a whole (R303). -/
def Model.inputsGood (m : Model) : Bool :=
  m.inputs.all m.inputGood && decide m.mapped.Nodup && decide (m.tables.length ≤ 16)

/-- The mapping's bands stand in order (R304). -/
def bandsGood : List Band → Bool
  | [] => true
  | [x] => decide (x.action ≤ 5) && !fisNan x.lo
  | x :: y :: r => decide (x.action ≤ 5) && ffinite y.lo && flt x.lo y.lo && bandsGood (y :: r)

/-- `MAPPING` (R304). -/
def Model.mappingGood (m : Model) : Bool :=
  (m.bands.head?.map (·.lo)) == some 0xFF800000 && bandsGood m.bands

/-- A cell section (R263, R264, R307). -/
def Model.cellGood (m : Model) (c : Cell) : Bool :=
  decide (c.kind ≤ 1) && decide (1 ≤ c.nIn) && decide (c.nIn ≤ 64) &&
    (if m.packet then c.use == 0 else c.use == 1) &&
    c.inputs.all fun x =>
      if x.2.1 = 0 then decide (1 ≤ x.2.2.2) && decide (x.2.2.2 ≤ 32) && decide (x.2.2.1 + x.2.2.2 ≤ 2048)
      else x.2.1 == 1 && decide (x.2.2.1 ≤ 25)

/-- The steps (R306): a `SCORE` step is last and alone gives the score. -/
def Model.stepsGood (m : Model) (argLen : Nat) : Bool :=
  m.steps.all (fun x => decide (x.kernel < m.kernelAddrs.length) && decide (x.phase ≤ 1) &&
    decide (1 ≤ x.pcCount) && decide (x.pcFirst + x.pcCount ≤ m.nPclust) && decide (0 < x.est) &&
    decide (x.argLen ≤ 4096) && x.argLen % 4 == 0 && decide (x.argOff + x.argLen ≤ argLen) &&
    (x.phase == 1 || decide (x.featBase + x.featCount ≤ m.params.nFeat))) &&
    (m.steps.dropLast.all fun x => x.phase == 0) &&
    (m.packet || m.ensemble != ((m.steps.getLast?.map (·.phase)) == some 1))

/-- The placement (R305). -/
def Model.placesOk (m : Model) : Bool :=
  decide (1 ≤ m.nPclust) && decide (m.nPclust ≤ 256) &&
    m.places.all fun x => decide (x.pclust < m.nPclust) && decide (x.pstore ≤ 2)

/-- Reserved bits of the records, and the length and padding of `PLACEMENT` (R300 to R307). -/
def State.resvGood (a : Nat) (m : Model) (s : State) : Bool :=
  let l := s.sects a
  let pl := sectOf 0x20 l
  let n := 8 + 2 * m.trees.length
  bitsOf (s.leAt (a + (sectOf 1 l).off) 64) 202 0 == 0 &&
    (s.rows a 16 (sectOf 2 l)).all (fun v => bitsOf v 87 81 == 0) &&
    (s.rows a 16 (sectOf 3 l)).all (fun v => bitsOf v 59 0 == 0) &&
    (s.rows a 8 (sectOf 0x11 l)).all (fun v => bitsOf v 30 0 == 0) &&
    (s.rows a 144 (sectOf 0x12 l)).all (fun v => bitsOf v 108 96 == 0 && bitsOf v 63 0 == 0) &&
    (s.rows a 32 (sectOf 0x31 l)).all (fun v => bitsOf v 71 0 == 0) &&
    (ofKind 0x40 l).all (fun x => bitsOf (s.leAt (a + x.off) 16) 103 0 == 0 &&
      ((s.parseCell a x).bytes ≤ x.len) &&
      (List.range (s.parseCell a x).inputs.length).all fun i =>
        bitsOf (s.leAt (a + x.off + 16 + 8 * i) 8) 39 32 == 0 &&
          bitsOf (s.leAt (a + x.off + 16 + 8 * i) 8) 7 0 == 0) &&
    ((ofKind 0x20 l).isEmpty || ((pl.len == n || pl.len == (n + 7) / 8 * 8) &&
      bitsOf (s.leAt (a + pl.off) 8) 63 16 == 0 &&
      (s.bytesAt (a + pl.off + n) (pl.len - n)).all (· == 0) &&
      (List.range m.trees.length).all fun i => s.leAt (a + pl.off + 8 + 2 * i) 2 % 4 == 0))

/-- The kernel images and the argument area lie in the section, each image within 64 KiB. -/
def State.kernelsGood (a : Nat) (m : Model) (s : State) : Bool :=
  let x := sectOf 0x30 (s.sects a)
  m.kernelAddrs.all (fun k => decide (k.2 ≤ 65536) && decide (k.1 + k.2 ≤ a + x.off + x.len)) &&
    decide (m.argBase ≤ a + x.off + x.len)

/-- The bytes of a model's argument area. -/
def State.argBytes (a : Nat) (m : Model) (s : State) : Nat :=
  let x := sectOf 0x30 (s.sects a)
  a + x.off + x.len - m.argBase

/-- Every check of a container that ends in `E_ARG` and needs no table (R309). -/
def State.containerGood (d a len : Nat) (m : Model) (s : State) : Bool :=
  let l := s.sects a
  s.mem.readable a len && s.headGood a len && s.dirClean a && (m.packet == (d == packetDomain)) &&
    countGood m.packet l && placesGood len m.params.nOut l && s.resvGood a m && m.paramsGood &&
    m.inputsGood && m.mappingGood && m.cells.all m.cellGood &&
    (!m.ensemble || (m.nodesGood && m.treesGood && m.stagesGood && m.leaves.all ffinite)) &&
    s.kernelsGood a m && m.stepsGood (s.argBytes a m) &&
    (m.packet || m.placesOk) &&
    (if m.packet then m.bindings.isEmpty
     else decide (1 ≤ m.bindings.length) && decide (m.bindings.length ≤ 16) &&
       m.bindings.all fun b => b.clusters.length == m.nPclust && decide b.clusters.Nodup)

/-- A fetch maps no value at or above its table's `n_val` (R303). -/
def State.fetchesGood (m : Model) (s : State) : Bool :=
  m.inputs.all fun x => x.kind != 5 ||
    decide (x.argB / 2 ^ 20 % 256 + x.count ≤ ((s.table x.argA).map (·.nVal)).getD 0)

/-! ### Shares in the cores' memories (R243, R308, R309) -/

/-- The nodes of a tree, as a count. -/
def Model.treeNodes (m : Model) (i : Nat) : Nat :=
  ((m.trees[i + 1]?).map (·.root)).getD m.nodes.length - ((m.trees[i]?).map (·.root)).getD 0

/-- The trees on a placement core, or on any core of a placement cluster. -/
def Model.treesOn (m : Model) (pclust : Nat) (pcore : Option Nat) (pstore : Nat) : List Nat :=
  ((numbered m.places).filter fun e => e.2.pclust == pclust && e.2.pstore == pstore &&
    (pcore.isNone || pcore == some e.2.pcore)).map (·.1)

/-- The bytes of trees: 16 for each node. -/
def Model.treeBytes (m : Model) (ts : List Nat) : Nat := (ts.map fun i => 16 * m.treeNodes i).sum

/-- The position of a cluster in a binding. -/
def Binding.posOf (b : Binding) (c : Nat) : Option Nat := idxOf? (· == c) b.clusters

/-- What a model keeps in a cluster's store. -/
def Model.storeUse (m : Model) (c : Nat) : Nat :=
  if m.packet then 16 * m.nodes.length
  else ((m.bindings.filterMap fun b => b.posOf c).map fun k => m.treeBytes (m.treesOn k none 1)).sum

/-- What a model keeps in the local SRAM of core `k` of a cluster, by the order of R308. -/
def Model.sramUse (m : Model) (c k : Nat) : Nat :=
  ((m.bindings.filterMap fun b => b.posOf c).map fun i => m.treeBytes (m.treesOn i (some k) 0)).sum

/-- The models that hold copies: live, retiring and staged, of every domain. -/
def State.heldModels (s : State) : List Model :=
  s.models.domains.flatMap fun e =>
    e.2.models ++ (((e.2.retiring.map (·.2)).getD []).filter fun m => !e.2.models.contains m) ++
      e.2.staging.models

/-- A binding's clusters hold the cores the placement names: all 16 that it uses by number. -/
def Model.coresFit (m : Model) (b : Binding) : Bool :=
  (numbered b.cores).all fun e =>
    (m.places.all fun x => x.pclust != e.1 || decide (x.pcore < e.2.length)) && decide (0 < e.2.length)

/-- The shares of a model fit beside those held (R309). -/
def State.sharesFit (m : Model) (s : State) : Bool :=
  let all := s.heldModels ++ [m]
  let cs := (m.bindings.flatMap (·.clusters)).eraseDups
  if m.packet then decide (((all.filter (·.packet)).map fun x => 16 * x.nodes.length).sum ≤ 0x100000)
  else
    m.bindings.all m.coresFit &&
    cs.all fun c =>
      decide (((all.filter fun x => !x.packet).map fun x => x.storeUse c).sum ≤ 0x180000) &&
      (List.range 16).all fun k =>
        decide (((all.filter fun x => !x.packet).map fun x => x.sramUse c k).sum ≤ 0x20000)

/-- The handles a domain would hold with its staging set and one more. -/
def Domain.handlesWith (x : Domain) (h : Nat) : List Nat :=
  (((x.models.map (·.handle)).filter fun k => !x.staging.removed.contains k) ++
    x.staging.models.map (·.handle) ++ [h]).eraseDups

/-! ### Scores (R245, R249 to R251, R304, R316 to R318) -/

/-- Stages completed from stage 0 (R245): the sums of a stage are there with no void. -/
def stagesDone (sums : Tab (List W32 × Nat × Nat)) : Nat → Nat → Nat
  | 0, k => k
  | fuel + 1, k =>
    match tget sums k with
    | some (_, _, 0) => stagesDone sums fuel (k + 1)
    | _ => k

/-- The sums of complete stages 0 to K − 1, added in stage order. -/
def stageTotal (sums : Tab (List W32 × Nat × Nat)) (len K : Nat) : List W32 :=
  (List.range K).foldl (fun acc k =>
    let v := ((tget sums k).map (·.1)).getD []
    if k = 0 then v else (List.range len).map fun i => fadd ((acc[i]?).getD 0) ((v[i]?).getD 0))
    (List.replicate len 0)

/-- The corrected outputs of an item (R249). -/
def correct (corr : List (W32 × W32)) (nOut item : Nat) (sums : List W32) : List W32 :=
  (List.range nOut).map fun o =>
    let c := (corr[o]?).getD (0x3F800000, 0)
    (ffmaF c.1 ((sums[item * nOut + o]?).getD 0) c.2).1

/-- The largest of FP32 values. -/
def fmaxOf : List W32 → W32
  | [] => 0
  | x :: r => r.foldl (fun a b => if flt a b then b else a) x

/-- The link (R250). -/
def linkOut (link : Nat) (z : List W32) : List W32 :=
  match link with
  | 1 => z.map fun v => (specialF .logistic v).1
  | 2 =>
    let m := fmaxOf z
    let e := z.map fun v => (specialF .exp (fsub v m)).1
    let t := e.foldl fadd 0
    e.map fun v => fdiv v t
  | _ => z

/-- The band a score takes (R304). -/
def bandOf (bands : List Band) (y : W32) : Option Band :=
  (bands.filter fun b => fle b.lo y).getLast?

/-- The item mapped (R304): the largest score at `map_out`, the lowest index on a tie. -/
def bestItem (ys : List W32) : Nat :=
  ((numbered ys).foldl (fun (p : Nat × W32) e => if flt p.2 e.2 then e else p) (0, ys.headD 0)).1

/-- The default verdict of a model (R300), rung 3 with a reason (R316). -/
def Model.defaultVerdict (m : Model) (reason : Nat) : Verdict :=
  { score := m.params.defScore, model := m.handle, arg := m.params.defArg, tag := m.params.defTag,
    rung := 3, action := m.params.defAction, annotate := m.params.defAnnotate, deep := !m.packet,
    reason := reason, out := m.params.mapOut }

/-- The scores of every item after the link, item-major; none where a z is not finite (R251). -/
def Model.scores (m : Model) (corr : List (W32 × W32)) (items : Nat) (sums : List W32) :
    Option (List W32) :=
  let z := (List.range items).map fun i => correct corr m.params.nOut i sums
  if z.all (·.all ffinite) then some (z.flatMap (linkOut m.params.link)) else none

/-- The verdict of scores, on rung 1 or 2 (R304, R317). -/
def Model.mapScores (m : Model) (rung stages items : Nat) (ys : List W32) : Verdict :=
  let at' := (List.range items).map fun i => (ys[i * m.params.nOut + m.params.mapOut]?).getD 0
  let best := bestItem at'
  let y := (at'[best]?).getD 0
  let b := (bandOf m.bands y).getD { lo := 0, arg := 0, tag := 0, action := 0, annotate := false }
  { score := y, model := m.handle, arg := b.arg, tag := b.tag, best := best, items := items,
    stages := stages, rung := rung, action := b.action, annotate := b.annotate, deep := !m.packet,
    scoresOut := !m.packet && m.params.scoresOut, reason := if rung = 2 then 1 else 0,
    out := m.params.mapOut }

/-- The stamps of a verdict: admission tick, latency, epoch and partition. -/
def Verdict.stamp (v : Verdict) (admitAt tick epoch part : Nat) : Verdict :=
  { v with admitTick := admitAt, latNs := min (tick - admitAt) (2 ^ 32 - 1), epoch := epoch, part := part }

/-- The verdict record as its five words, bits 63:0 first (R317). -/
def verdictWords (v : Verdict) : List Nat :=
  (pack [(64, v.admitTick), (32, v.latNs), (32, v.score.toNat), (16, v.model), (16, v.epoch),
    (16, v.arg), (16, v.tag), (16, v.best), (16, min v.items 65535), (16, min v.missing 65535),
    (16, min v.fallback 65535), (8, min v.stages 255), (6, v.part), (2, v.rung), (3, v.action),
    (1, bit v.annotate), (1, bit v.deep), (1, bit v.scoresOut), (2, 0), (4, v.reason), (4, v.out),
    (32, 0)]).reverse

/-- The scope of a model's counters (R459). -/
def modelScope (d handle : Nat) : Nat := d * 65536 + handle

/-- A verdict's counters (R251, R315, R319), and the actions that baselines watch (R270). -/
def State.countVerdict (d : Nat) (v : Verdict) (s : State) : State :=
  let sc := modelScope d v.model
  let s := s.count Ctr.verdicts (v.reason * 2 ^ 28 + v.rung * 2 ^ 26 + sc)
  let s := if v.rung = 2 then s.count Ctr.sageTrunc sc
    else if v.rung = 3 then s.count Ctr.sageDefault sc else s
  let s := if v.rung = 3 ∧ v.reason = 3 then s.count Ctr.sageNonfinite sc else s
  s.updModels fun m => { m with
    acted := aset m.acted (v.part, v.model, v.action)
      ((aget m.acted (v.part, v.model, v.action)).getD 0 + 1) }

end Sys2Proof.Machine
end

