-- ==== Sys2Proof/Machine/ModelRows.lean ====
section
/-! DEFINITION. Staging, commit and retirement of models, and pattern sets with their scans
(R126 to R130, R309 to R313, R395, R396). -/

namespace Sys2Proof.Machine

/-! ### Staging (R309, R310) -/

/-- A domain's number is one of 0 to 63 and 0x40. -/
def domainBad (d : Nat) : Bool := decide (packetDomain < d)

/-- The right on a domain (R396). -/
def ownsDomain (h : CmdHdr) (d : Nat) : Bool := owns h (domainOwner d)

/-- A domain holds a command that waits (R313). -/
def State.domainBusy (d : Nat) (s : State) : Bool := (s.domain d).waiting.isSome

/-- The clusters of the bindings that the domain's partition does not own. -/
def State.foreign (d : Nat) (bs : List (List Nat)) (s : State) : Bool :=
  bs.any fun b => b.any fun c => (s.cluster c).owner != d

/-- `MODEL_STAGE` (R309): with every check passed, the model stands in the staging set.
[DEDUCED: notes/assumptions/52.md] -/
def execModelStage (t : Nat) (h : CmdHdr) (domain handle cAddr cLen : Nat)
    (bindings : List (List Nat)) (s : State) : Host.Outcome State Fault Refusal :=
  s.isain t { op := 0x0B01 } h noObj (fun _ => ownsDomain h domain) fun s =>
    let m := s.parseModel handle cAddr cLen bindings
    let x := s.domain domain
    checks
      [(domainBad domain, .eArg), (s.domainBusy domain, .busy),
       (decide (cAddr % 64 ≠ 0) || decide (cLen < 64), .eArg),
       (!inDevice cAddr cLen, .eRange), (!s.mayAccess (domainOwner domain) 1 cAddr cLen, .ePriv)]
     (let u := s.touch cAddr cLen 0
      Reply.after u <| checks
      [(!s.containerGood domain cAddr cLen m, .eArg),
       (!m.packet && decide (s.eg.holdMax ≤ m.params.maxBudget), .eRange),
       (m.tables.any (fun k => (s.table k).isNone), .eState),
       (m.tables.any (fun k => (s.table k).map (·.owner) != some domain), .ePriv),
       (!s.fetchesGood m, .eArg),
       (s.foreign domain bindings, .ePriv),
       (x.staging.models.any (fun y => y.handle == handle) || x.staging.removed.contains handle, .eConflict),
       (decide (256 < (x.handlesWith handle).length) || !s.sharesFit m, .eNospace)]
      (okReply (u.modDomain domain fun x => { x with
        staging := { x.staging with models := x.staging.models ++ [m] } })))

/-- `MODEL_REMOVE` (R310, R396). -/
def execModelRemove (t : Nat) (h : CmdHdr) (domain handle : Nat) (s : State) :
    Host.Outcome State Fault Refusal :=
  s.isain t { op := 0x0B02 } h (fun s => (s.liveModel domain handle).isSome)
    (fun _ => ownsDomain h domain) fun s =>
    checks [(s.domainBusy domain, .busy)]
      (okReply (s.modDomain domain fun x => { x with
        staging := { x.staging with removed := x.staging.removed.filter (· != handle) ++ [handle] } }))

/-- `MODEL_ABORT` (R310): the staging set is discarded. -/
def execModelAbort (t : Nat) (h : CmdHdr) (domain : Nat) (s : State) :
    Host.Outcome State Fault Refusal :=
  s.isain t { op := 0x0B03 } h noObj (fun _ => ownsDomain h domain) fun s =>
    checks [(domainBad domain, .eArg), (s.domainBusy domain, .busy)]
      (okReply (s.modDomain domain fun x => { x with staging := {} }))

/-- The staging set holds nothing. -/
def Staging.isEmpty (x : Staging) : Bool :=
  x.models.isEmpty && x.removed.isEmpty && x.patterns.isEmpty && x.gens.isEmpty && x.rsModel.isEmpty

/-- An old epoch, or an old generation of a bound table, is still live (R311). -/
def State.commitWaits (d : Nat) (s : State) : Bool :=
  let x := s.domain d
  x.retiring.isSome || x.staging.gens.any fun g =>
    ((s.table g.1).bind (·.genIn .retiring)).isSome

/-- A removed handle that is not staged again is still named by a valid rule row or as `rs_model`. -/
def State.removedNamed (d : Nat) (s : State) : Bool :=
  let x := s.domain d
  x.staging.removed.any fun k =>
    !(x.staging.models.any fun m => m.handle == k) && s.cls.pipes.any fun p =>
      (d == packetDomain && (p.2.rsModel == k && k != 0)) ||
        p.2.rules.any fun r => r.2.action.valid &&
          (if d = packetDomain then r.2.action.pmEn && r.2.action.pmModel == k
           else r.2.action.deepEn && r.2.action.deepPart == d && r.2.action.deepModel == k)

/-- A bound generation is no longer sealed, or a binding names a cluster no longer owned. -/
def State.stagingStale (d : Nat) (s : State) : Bool :=
  let x := (s.domain d).staging
  x.gens.any (fun g => !((s.table g.1).bind (·.gen g.2)).any fun y => y.state == .sealed && !y.dropping) ||
    s.foreign d (x.models.flatMap fun m => m.bindings.map (·.clusters))

/-- The epoch after one (R296). -/
def epochNext (e : Nat) : Nat := if e = 65535 then 1 else e + 1

/-- A table's generation made current; the current one retires (R286, R311). -/
def FTable.commit (g tick : Nat) (x : FTable) : FTable :=
  { x with gens := x.gens.map fun y =>
      if y.g = g ∧ y.state = .sealed then { y with state := .current, commitTick := tick }
      else if y.state = .current then { y with state := .retiring, commitTick := tick }
      else y }

/-- Generations made current in one instant. -/
def State.commitGens (l : List (Nat × Nat)) (s : State) : State :=
  s.updModels fun m => { m with
    tables := l.foldl (fun ts g => tmod ts g.1 (FTable.commit g.2 s.tick)) m.tables }

/-- A set's versions as those of earlier epochs. -/
def PatternSet.older (x : PatternSet) : PatternSet :=
  { x with vers := x.vers.map fun v => { v with since := 0 } }

/-- The pattern versions of a domain's staging set bound to its new epoch; those it had are of earlier ones. -/
def Parser.commitSets (p : Parser) (d : Nat) (l : List (Nat × PatternVer)) (epoch : Nat) : Parser :=
  let sets := p.sets.map fun e => if e.2.owner = d then (e.1, e.2.older) else e
  { p with sets := l.foldl (fun ts v => tmod ts v.1 fun x =>
      { x with vers := { v.2 with since := epoch } :: x.vers }) sets }

/-- The stage costs of carried handles, copied to the new epoch (R310). -/
def carryCosts (d old new : Nat) (kept : List Nat) (l : List ((Nat × Nat × Nat × Nat) × W32)) :
    List ((Nat × Nat × Nat × Nat) × W32) :=
  l ++ ((l.filter fun e => e.1.1 == d && e.1.2.2.1 == old && kept.contains e.1.2.1).map fun e =>
    ((d, e.1.2.1, new, e.1.2.2.2), e.2))

/-- The bad copies of carried handles, bad under the new epoch too: the core copies a shard again before it walks it
(R253, R310). -/
def carryBad (d old new : Nat) (kept : List Nat) (l : List (Nat × Nat × Nat)) : List (Nat × Nat × Nat) :=
  l ++ (l.filter fun e => e.1 == d && e.2.2 == old && kept.contains e.2.1).map fun e => (d, e.2.1, new)

/-- The copies of carried handles that were made again, kept under the new epoch (R253, R310). -/
def carryNodes (d old new : Nat) (kept : List Nat) (l : List ((Nat × Nat × Nat) × List (BitVec 128))) :
    List ((Nat × Nat × Nat) × List (BitVec 128)) :=
  l ++ (l.filter fun e => e.1.1 == d && e.1.2.2 == old && kept.contains e.1.2.1).map fun e =>
    ((d, e.1.2.1, new), e.2)

/-- A commit that makes a model without a cell live under a handle that `rs_model` names writes a record (R263). -/
def State.cellWarn (staged : List Model) (epoch : Nat) (s : State) : State :=
  ((s.cls.pipes.map fun p => p.2.rsModel).filter (· != 0)).eraseDups.foldl (fun s k =>
    if staged.any fun m => m.handle == k && m.flowCell.isNone then
      s.record Config.cellEvent.1 4 0 0x40 Config.cellEvent.2 [(16, k), (16, epoch)] else s) s

/-- The kept value of the classifier. -/
def State.clsVal (s : State) : StVal := .cls s.cls.settings

/-- The flip of a domain (R310, R311): the staging set is live, the old epoch retires. -/
def State.flip (d : Nat) (s : State) : State :=
  let x := s.domain d
  let e := epochNext x.epoch
  let st := x.staging
  let kept := x.models.filter fun m =>
    !(st.removed.contains m.handle) && !(st.models.any fun y => y.handle == m.handle)
  let s := s.modDomain d fun x => { x with
    epoch := e, models := kept ++ st.models, retiring := some (x.epoch, x.models), staging := {}
    waiting := none, flipTick := s.tick }
  let s := (s.commitGens st.gens).updParser fun p => p.commitSets d st.patterns e
  let s := s.updComp fun c => { c with
    cores := c.cores.map fun k => (k.1, { k.2 with
      stageCost := carryCosts d x.epoch e (kept.map (·.handle)) k.2.stageCost
      badShards := carryBad d x.epoch e (kept.map (·.handle)) k.2.badShards
      deadShards := carryBad d x.epoch e (kept.map (·.handle)) k.2.deadShards
      shardNodes := carryNodes d x.epoch e (kept.map (·.handle)) k.2.shardNodes }) }
  let s := st.rsModel.foldl (fun s r => s.modPipe r.1 fun p => { p with rsModel := r.2 }) s
  let s := if st.rsModel.isEmpty then s else s.keep s.clsVal
  if d = packetDomain then s.cellWarn st.models e else s

/-- `MODEL_COMMIT` without `wait` (R311). -/
def execModelCommit (t : Nat) (h : CmdHdr) (domain : Nat) (s : State) :
    Host.Outcome State Fault Refusal :=
  s.isain t { op := 0x0B04 } h noObj (fun _ => ownsDomain h domain) fun s =>
    checks
      [(domainBad domain, .eArg), (s.domainBusy domain, .busy),
       ((s.domain domain).staging.isEmpty || s.commitWaits domain || s.removedNamed domain ||
        s.stagingStale domain, .eState)]
      (let s := s.flip domain
       .done .ok (pack [(16, (s.domain domain).epoch)]) s)

/-- `MODEL_COMMIT` with `wait` (R311): taken, and flipped when the old epoch has retired. -/
def execModelCommitWait (t : Nat) (h : CmdHdr) (domain : Nat) (s : State) :
    Host.Outcome State Fault Refusal :=
  s.isain t { op := 0x0B04 } h noObj (fun _ => ownsDomain h domain) fun s =>
    checks
      [(domainBad domain, .eArg), (timeoutBad h, .eRange), (s.domainBusy domain, .busy),
       ((s.domain domain).staging.isEmpty || s.removedNamed domain || s.stagingStale domain, .eState)]
      (if s.commitWaits domain then
        .wait (s.modDomain domain fun x => { x with
          waiting := some { h := h, due := s.tick + timeoutOf h } })
       else
        let s := s.flip domain
        .done .ok (pack [(16, (s.domain domain).epoch)]) s)

/-- `MODEL_COMMIT_FLIP` (R311): a held commit goes through once nothing old is live. -/
def execModelCommitFlip (t domain : Nat) (s : State) : Host.Outcome State Fault Refusal :=
  s.happen t
    (fun s => s.running && s.bay.isainUp && s.domainBusy domain && !s.commitWaits domain)
    fun s => match (s.domain domain).waiting with
      | none => s
      | some w =>
        if (s.domain domain).staging.isEmpty || s.removedNamed domain || s.stagingStale domain then
          (s.modDomain domain fun x => { x with waiting := none }).answer w.h 0x0B04 .eState noDetail []
        else
          let s := s.flip domain
          s.answer w.h 0x0B04 .ok noDetail (pack [(16, (s.domain domain).epoch)])

/-- `MODEL_QUERY` (R396). -/
def execModelQuery (t : Nat) (h : CmdHdr) (domain start max : Nat) (s : State) :
    Host.Outcome State Fault Refusal :=
  s.isain t { op := 0x0B05, stop := true } h noObj (fun _ => ownsDomain h domain) fun s =>
    let x := s.domain domain
    checks [(domainBad domain, .eArg), (s.domainBusy domain, .busy)]
      (.done .ok (listPage start max 4312
        [(16, x.epoch), (16, (x.retiring.map (·.1)).getD 0)]
        (numbered (x.models.map fun m => [(16, m.handle)]))) s)

/-! ### Retirement of an epoch (R312) -/

/-- Something still works under an epoch of a domain. -/
def State.epochHeld (d e : Nat) (s : State) : Bool :=
  s.rings.slots.any (fun x => x.2.state != .free && x.2.part == d && x.2.epoch == e) ||
    (s.domain d).pmCalls.any (fun c => c.2 == e) ||
    (s.comp.cores.any fun c => c.2.ctxs.any fun x => x.2.work == some (d, e)) ||
    (d == packetDomain && s.cls.pipes.any fun p =>
      p.2.rsFlight.any (fun u => u.2.epoch == e) || p.2.rsWait.any (fun u => u.2.epoch == e))

/-- Of a set's versions, the newest and no older one. -/
def PatternSet.newest (x : PatternSet) : PatternSet := { x with vers := x.vers.take 1 }

/-- `EPOCH_RETIRE` (R312). -/
def execEpochRetire (t domain : Nat) (s : State) : Host.Outcome State Fault Refusal :=
  s.happen t
    (fun s => s.running && match (s.domain domain).retiring with
      | some (e, _) => !s.epochHeld domain e
      | none => false)
    fun s => match (s.domain domain).retiring with
      | none => s
      | some (e, _) =>
        let s := s.modDomain domain fun x => { x with retiring := none }
        let s := s.updParser fun p => { p with
          sets := p.sets.map fun x => if x.2.owner = domain then (x.1, x.2.newest) else x }
        let s := s.updComp fun c => { c with
          cores := c.cores.map fun k => (k.1, { k.2 with
            stageCost := k.2.stageCost.filter fun y => !(y.1.1 == domain && y.1.2.2.1 == e)
            badShards := k.2.badShards.filter fun y => !(y.1 == domain && y.2.2 == e)
            deadShards := k.2.deadShards.filter fun y => !(y.1 == domain && y.2.2 == e)
            shardNodes := k.2.shardNodes.filter fun y => !(y.1.1 == domain && y.1.2.2 == e) }) }
        s.event (domainOwner domain) 0x0006 [(7, domain), (16, e)] 0

/-! ### Pattern sets (R126 to R130) -/

/-- The patterns of a set's newest committed version. -/
def State.patternsLive (k : Nat) (s : State) : Nat :=
  ((tget s.parser.sets k).bind fun x => x.vers.head?.map (·.pats.length)).getD 0

/-- The staged versions with a set's replaced by one of `n` patterns: set and size. -/
def State.patternsStaged (k n : Nat) (s : State) : List (Nat × Nat) :=
  ((s.models.domains.flatMap fun d => d.2.staging.patterns).filterMap fun e =>
    if e.1 = k then none else some (e.1, e.2.pats.length)) ++ [(k, n)]

/-- With a version of `n` patterns staged for a partition's set: the most patterns that commits can make live
together, where a domain flips all its sets at once, and the entries of pattern memory in use (R127). [DEDUCED: notes/assumptions/51.md] -/
def State.patternsWith (part k n : Nat) (s : State) : Nat × Nat :=
  let staged := s.patternsStaged k n
  let held := (s.parser.sets.map fun x => (x.2.vers.map (·.pats.length)).sum).sum
  let sets := (s.parser.sets.map fun x => (x.1, x.2.owner)).filter (fun x => x.1 != k) ++ [(k, part)]
  let live (p : Nat) : Nat := ((sets.filter fun x => x.2 == p).map fun x => s.patternsLive x.1).sum
  let after (p : Nat) : Nat := ((sets.filter fun x => x.2 == p).map fun x =>
    ((staged.find? fun e => e.1 == x.1).map (·.2)).getD (s.patternsLive x.1)).sum
  (((sets.map (·.2)).eraseDups.map fun p => max (live p) (after p)).sum, held + (staged.map (·.2)).sum)

/-- A pattern is within R127. -/
def patternGood (p : Pattern) : Bool :=
  decide (p.id < 65536) && decide (p.group < 256) && decide (1 ≤ p.body.length) &&
    decide (p.body.length ≤ 256)

/-- `PATTERN_LOAD` (R127, R128): a version staged in its owner's domain. The compiled image is read
from memory; what it holds stands in the operands. [DEDUCED: notes/assumptions/51.md] -/
def execPatternLoad (t : Nat) (h : CmdHdr) (setId addr len : Nat) (fromL2 : Bool) (pats : List Pattern)
    (s : State) : Host.Outcome State Fault Refusal :=
  s.isain t { op := 0x0605 } h noObj anyPart fun s =>
    let held := s.patternsWith h.part setId pats.length
    checks
      [(decide (256 ≤ setId) || !inSoftware addr len, .eRange),
       (!s.mayAccess h.part 1 addr len, .ePriv),
       (((tget s.parser.sets setId).map (·.owner)).getD h.part != h.part, .eConflict),
       (s.domainBusy h.part, .busy)]
     (Reply.after (s.touch addr len 0) <| checks
      [(!s.mem.readable addr len, .eFault),
       (!pats.all patternGood || !decide (pats.map (·.id)).Nodup, .eArg),
       (decide (131072 < held.2) || decide (65536 < held.1), .eNospace)]
      (let s := s.touch addr len 0
       let s := s.updParser fun p => { p with sets := tup p.sets setId { owner := h.part } id }
       okReply (s.modDomain h.part fun x => { x with staging := { x.staging with
         patterns := (x.staging.patterns.filter fun e => e.1 != setId) ++
           [(setId, { fromL2 := fromL2, pats := pats, since := 0 })] } })))

/-- The version of a set that scans for an epoch: the newest for its domain's current one, and for the one before
it the newest that the last commit did not bring (R128, R297). -/
def PatternSet.verAt (x : PatternSet) (epoch current : Nat) : Option PatternVer :=
  x.vers.find? fun v => epoch == current || v.since != current

/-- The frames of the scan queue, oldest first. -/
def State.scanQueue (s : State) : List Nat :=
  (s.parser.frames.filter fun e => e.2.stage == .scanQueue).map (·.1)

/-- `PATTERN_SCAN_START` (R129): a free engine takes the oldest waiting frame. -/
def execPatternScanStart (t engine : Nat) (s : State) : Host.Outcome State Fault Refusal :=
  s.happen t
    (fun s => s.moving && decide (engine < 32) && (tget s.parser.engines engine).isNone &&
      !s.scanQueue.isEmpty)
    fun s => match s.scanQueue with
      | [] => s
      | f :: _ =>
        (s.modFrame f fun x => { x with stage := .scanning engine }).updParser fun p =>
          { p with engines := tset p.engines engine f }

/-- The set a frame's rule names, and the match block of its scan.
[DESIGN CHOICE: notes/assumptions/149.md] [DESIGN CHOICE: notes/assumptions/150.md] -/
def State.scanFrame (f : Frame) (fault : Bool) (s : State) : MatchBlock :=
  let setId := (f.act.map (·.scanSet)).getD 0
  let k := f.slot.getD 0
  let v := (tget s.parser.sets setId).bind fun x =>
    x.verAt (s.slot k).epoch (s.domain (s.slot k).part).epoch
  let b := (v.map fun v => scanBytes v f).getD ([], 0)
  if fault ∨ f.poison then { scanTick := s.tick, status := 4, setId := setId, scanLen := b.1.length }
  else matchBlock (scanMatches ((v.map (·.pats)).getD []) b.1 b.2) setId b.1.length s.tick

/-- `PATTERN_SCAN_END` (R129, R130): the match block stands in the frame's slot, and the engine is
free. -/
def execPatternScanEnd (t engine : Nat) (fault : Bool) (s : State) :
    Host.Outcome State Fault Refusal :=
  s.happen t (fun s => s.moving && (tget s.parser.engines engine).isSome) fun s =>
    match tget s.parser.engines engine with
    | none => s
    | some id =>
      let s := s.updParser fun p => { p with engines := tdel p.engines engine }
      match s.frame id with
      | none => s
      | some f =>
        let b := s.scanFrame f fault
        let s := s.modFrame id fun x => { x with stage := .deep }
        let s := match f.slot with
          | some k => s.modSlot k fun x => { x with matched := b }
          | none => s
        let s := if 32 < b.nMatches then s.tally Ctr.matchOverflow else s
        if b.status = 4 ∧ !f.poison then (s.tally Ctr.scanFault).packetFault 1 b.setId
        else if b.status = 4 then s.tally Ctr.scanFault else s

end Sys2Proof.Machine
end

