-- ==== Sys2Proof/Machine/Features.lean ====
section
/-! DEFINITION. The feature store: tables, images and generations, the lookup of a key, and fetches
(R272 to R294). -/

namespace Sys2Proof.Machine

/-! ### Hashing (R278) -/

/-- `fs_hash` (R278). -/
def fsHash (key seed : W64) : W64 :=
  let x := key ^^^ seed
  let x := (x ^^^ (x >>> 30)) * 0xBF58476D1CE4E5B9
  let x := (x ^^^ (x >>> 27)) * 0x94D049BB133111EB
  x ^^^ (x >>> 31)

/-- The tag of a hash. -/
def hashTag (x : W64) : Nat := bitsOf x.toNat 63 48

/-- The other bucket of a bucket and a tag, of `n` buckets (R278). -/
def altBucket (n b tag : Nat) : Nat :=
  let y := b ^^^ (tag * 0x9E3779B9 % n)
  if y = b then b ^^^ 1 else y

/-- The shard index of a key. -/
def FTable.shard (x : FTable) (key : W64) : Nat := (fsHash key x.shardSeed).toNat % 4096

/-! ### Images (R274 to R277) -/

/-- The bits of a stored value. -/
def FTable.valBits (x : FTable) : Nat := if x.valFmt = 0 then 32 else 16

/-- The buckets of a generation's index. -/
def Generation.buckets (g : Generation) : Nat := 2 ^ g.log2Buckets

/-- The address of a bucket. -/
def Generation.bucket (g : Generation) (b : Nat) : Nat := g.base + 16384 + 64 * b

/-- The bytes of an entry. -/
def FTable.entBytes (x : FTable) : Nat := 64 * x.entLines

/-- The address of an entry. -/
def FTable.entAddr (x : FTable) (g : Generation) (n : Nat) : Nat :=
  g.base + 16384 + 64 * g.buckets + x.entBytes * n

/-- The bytes of an image. -/
def FTable.imageBytes (x : FTable) (g : Generation) : Nat :=
  16384 + 64 * g.buckets + x.entBytes * g.n

/-- The home address that a generation's shard map gives a key (R278). -/
def State.homeOf (x : FTable) (g : Generation) (key : W64) (s : State) : Nat :=
  s.leAt (g.base + 4096 + 2 * x.shard key) 2

/-- The key's shard map entry can be read. -/
def State.homeReadable (x : FTable) (g : Generation) (key : W64) (s : State) : Bool :=
  s.mem.readable (g.base + 4096 + 2 * x.shard key) 2

/-- The key's shard map entry is read (R325). -/
def State.touchMap (x : FTable) (g : Generation) (key : W64) (s : State) : State :=
  s.touch (g.base + 4096 + 2 * x.shard key) 2 0

/-- An entry passes the checks of R280: its generation, and every reserved bit clear. -/
def FTable.entryClean (x : FTable) (g e : Nat) : Bool :=
  bitsOf e 79 72 == g && bitsOf e 127 80 == 0 && bitsOf e 71 66 == 0 &&
    e / 2 ^ (128 + x.nVal) % 2 ^ (128 - x.nVal) == 0 && e / 2 ^ (256 + x.valBits * x.nVal) == 0

/-- An entry is that of a key. -/
def entryFor (key : W64) (e : Nat) : Bool := e.testBit 64 && e % 2 ^ 64 == key.toNat

/-- Whether an entry is locked. -/
def entryLocked (e : Nat) : Bool := e.testBit 65

/-- A stored value as FP32. -/
def FTable.toFp (x : FTable) (v : Nat) : W32 := if x.valFmt = 0 then BitVec.ofNat 32 v else bfUp v

/-- A value of an entry, as stored. -/
def FTable.rawVal (x : FTable) (e v : Nat) : Nat := e / 2 ^ (256 + x.valBits * v) % 2 ^ x.valBits

/-- The present values of an entry. -/
def FTable.present (x : FTable) (e : Nat) : List (Nat × W32) :=
  (List.range x.nVal).filterMap fun v =>
    if e.testBit (128 + v) then some (v, x.toFp (x.rawVal e v)) else none

/-! ### One lookup (R280, R281) -/

/-- How a lookup stands. -/
inductive LookEnd where
  | found (e : Nat)
  | absent
  | locked (addr pos : Nat)
  | fault
  deriving DecidableEq, Repr

/-- A lookup's end, the entries that failed a check, and the ranges it read. -/
structure Look where
  last : LookEnd
  bad : Nat
  reads : List (Nat × Nat)
  deriving DecidableEq, Repr

/-- A read added in front of what follows. -/
def Look.after (a n bad : Nat) (l : Look) : Look :=
  { l with bad := l.bad + bad, reads := (a, n) :: l.reads }

/-- An entry examined at its address; `next` is how the lookup goes on when it does not match. -/
def State.lookEntry (x : FTable) (g : Generation) (key : W64) (a pos : Nat) (next : Look)
    (s : State) : Look :=
  if !s.mem.readable a x.entBytes then { last := .fault, bad := 0, reads := [(a, x.entBytes)] }
  else
    let e := s.leAt a x.entBytes
    if !x.entryClean g.g e then next.after a x.entBytes 1
    else if !entryFor key e then next.after a x.entBytes 0
    else { last := if entryLocked e then .locked a pos else .found e, bad := 0,
           reads := [(a, x.entBytes)] }

/-- A lookup over places 0 to 13: the slots of the primary bucket, then those of the alternate one,
which is read only with `spill` set in the primary. -/
def State.lookPlaces (x : FTable) (g : Generation) (key : W64) (s : State) : List Nat → Look
  | [] => { last := .absent, bad := 0, reads := [] }
  | pos :: rest =>
    let h := fsHash key x.hashSeed
    let b1 := h.toNat % g.buckets
    let p := g.bucket b1
    let a := if pos < 7 then p else g.bucket (altBucket g.buckets b1 (hashTag h))
    if 7 ≤ pos ∧ !(memGet s.mem.bytes p).getLsbD 0 then { last := .absent, bad := 0, reads := [] }
    else if !s.mem.readable a 64 then { last := .fault, bad := 0, reads := [(a, 64)] }
    else
      let w := s.leAt (a + 8 + 8 * (pos % 7)) 8
      let next := s.lookPlaces x g key rest
      let r :=
        if !(w.testBit 47 && bitsOf w 63 48 == hashTag h) then next
        else if g.n ≤ w % 2 ^ 32 then { next with bad := next.bad + 1 }
        else s.lookEntry x g key (x.entAddr g (w % 2 ^ 32)) pos next
      if pos % 7 = 0 then r.after a 64 0 else r

/-- A whole lookup. -/
def State.lookup (x : FTable) (g : Generation) (key : W64) (s : State) : Look :=
  s.lookPlaces x g key (List.range 14)

/-- A locked entry read again; where it no longer matches, the lookup goes on behind it. -/
def State.lookAgain (x : FTable) (g : Generation) (key : W64) (addr pos : Nat) (s : State) : Look :=
  s.lookEntry x g key addr pos (s.lookPlaces x g key ((List.range 14).drop (pos + 1)))

/-- What a lookup's reads do to memory's counts, and its bad entries counted. -/
def State.looked (table : Nat) (l : Look) (s : State) : State :=
  let s := l.reads.foldl (fun s r => s.touch r.1 r.2 0) s
  if l.bad = 0 then s else s.countN Ctr.fsBadEntry table l.bad

/-- A lookup whose check finds an uncorrectable word in what it reads. -/
def Look.checked (l : Look) (check : WordCheck) : Look :=
  match check with
  | .uncorrectable => { l with last := .fault }
  | .poisoned => { l with last := .fault }
  | _ => l

/-! ### Fetches (R282 to R284, R290 to R293) -/

/-- A feature of an item written, or only no longer pending (R282). -/
def Item.settle (feat : Nat) (v : Option W32) (x : Item) : Item :=
  { x with
    vals := (match v with
      | some w => tset x.vals feat w
      | none => x.vals)
    pending := x.pending.filter (· != feat) }

/-- A feature settled in one item of a slot, or in every item. -/
def Slot.settle (item : Option Nat) (feat : Nat) (v : Option W32) (x : Slot) : Slot :=
  { x with items := x.items.zipIdx.map fun e =>
      if item = none ∨ item = some e.2 then e.1.settle feat v else e.1 }

/-- A parked walk whose feature is no longer pending goes on (R242). -/
def Walk.wake (x : Slot) (w : Walk) : Walk :=
  match w.parked with
  | some f => if ((x.items[w.item]?).getD {}).featState f = .pending then w else { w with parked := none }
  | none => w

/-- The walks of a slot that waited for features go on. -/
def State.wakeWalks (k gen : Nat) (s : State) : State :=
  let x := s.slot k
  s.updComp fun c => { c with cores := c.cores.map fun e => (e.1, { e.2 with
    walks := e.2.walks.map fun w =>
      if w.2.slot = k ∧ w.2.slotGen = gen then (w.1, w.2.wake x) else w }) }

/-- A table's generation that may still be read. -/
def State.genOf (table g : Nat) (s : State) : Option (FTable × Generation) :=
  (s.table table).bind fun x => (x.gen g).map fun y => (x, y)

/-- How a fetch ends: a row of R282, or a remote failure without a fallback (R292). -/
inductive FetchEnd where
  | found (vals : List (Nat × W32))
  | absent | noGen | timeout | locked | fault | remote
  deriving DecidableEq, Repr

/-- The counter of an ending. -/
def FetchEnd.ctr : FetchEnd → Option Nat
  | .found _ => some Ctr.fsHit
  | .absent => some Ctr.fsAbsent
  | .noGen => some Ctr.fsNoGen
  | .timeout => some Ctr.fsTimeout
  | .locked => some Ctr.fsLocked
  | .fault => some Ctr.fsFault
  | .remote => none

/-- The row of R282; a remote failure has none, and its trace status is open. -/
def FetchEnd.row (n : Nat) : FetchEnd → Nat
  | .found _ => 0 | .absent => 1 | .noGen => 2 | .timeout => 3 | .locked => 4 | .fault => 5
  | .remote => n % 6

/-- The values an ending brings. -/
def FetchEnd.vals : FetchEnd → List (Nat × W32)
  | .found v => v
  | _ => []

/-- An ending with a value. -/
def FetchEnd.hit : FetchEnd → Bool
  | .found _ => true
  | _ => false

/-- The counts of a slot for one more ended fetch (R317). -/
def Slot.tallyFetch (hit fb : Bool) (x : Slot) : Slot :=
  { x with
    missing := if hit then x.missing else x.missing + 1
    fallback := if hit && fb then x.fallback + 1 else x.fallback }

/-- A fetch's features settled in its slot, where the slot still matches (R106, R282). -/
def State.settleFetch (f : Fetch) (r : FetchEnd) (s : State) : State :=
  if s.slotMatch f.slot f.slotGen f.token then
    (s.modSlot f.slot fun x =>
      (f.vmap.foldl (fun x m => x.settle f.item m.2 (aget r.vals m.1)) x).tallyFetch r.hit
        f.fellBack).wakeWalks f.slot f.slotGen
  else s.tally Ctr.staleCompletion

/-- The trace record of an ended fetch (R463). -/
def fetchRec (f : Fetch) (status tick : Nat) : TraceRec :=
  { unitRec 6 7 status f.table f.slot f.slotGen with dur := min (tick - f.issue) (2 ^ 32 - 1) }

/-- One fetch ended: counted, recorded, and its features settled. A fallback lookup counts its hits
only (R292). [DEDUCED: notes/assumptions/54.md] -/
def State.endOne (f : Fetch) (r : FetchEnd) (s : State) : State :=
  let s :=
    if f.fellBack then (if r.hit then s.count Ctr.fsFallback f.table else s)
    else match r.ctr with
      | some c => s.count c f.table
      | none => s
  let n := Config.free s.freeCount
  let s := if r = .remote then { s with freeCount := s.freeCount + 1 } else s
  (s.settleFetch f r).trace f.cluster
    (fetchRec f (if f.fellBack && r.hit then 6 else r.row n) s.tick)

/-- A fetch changed. -/
def State.modFetch (tag : Nat) (g : Fetch → Fetch) (s : State) : State :=
  s.updModels fun m => { m with fetches := tmod m.fetches tag g }

/-- A fetch by its tag. -/
def State.fetch (tag : Nat) (s : State) : Option Fetch := tget s.models.fetches tag

/-- A fetch taken off the queue. -/
def State.dropFetch (tag : Nat) (s : State) : State :=
  s.updModels fun m => { m with fetches := tdel m.fetches tag }

/-- The fetches that take a fetch's reply. -/
def State.joiners (tag : Nat) (s : State) : Tab Fetch :=
  s.models.fetches.filter fun e => e.2.joins == some tag

/-- What a fetch asks, without what it is sent or read by. -/
def Fetch.asks (f by' : Fetch) : Fetch :=
  { by' with
    slot := f.slot, slotGen := f.slotGen, token := f.token, item := f.item, vmap := f.vmap
    issue := f.issue, endTick := f.endTick, cut := f.cut, joins := none }

/-- The fallback a fetch can read: its table and generation (R292). -/
def State.fallbackGen (f : Fetch) (s : State) : Option (Nat × Nat) :=
  match (s.table f.table).bind (·.fallback) with
  | none => none
  | some b =>
    match tget (s.slot f.slot).tgens b with
    | some g => some (b, g)
    | none => ((s.table b).bind (·.genIn .current)).map fun y => (b, y.g)

/-- A fetch that goes on as a lookup of its fallback. -/
def Fetch.fallTo (f : Fetch) (b : Nat × Nat) (endTick : Nat) (joins : Option Nat) (parked : Bool) : Fetch :=
  { f with
    remote := false, sent := false, ask := none, fellBack := true, fbTable := b.1, fbGen := b.2
    endTick := endTick, joins := joins, parked := parked }

/-- The places of a cluster's feature-request queue in use (R196). -/
def State.queued (c : Nat) (s : State) : Nat :=
  (s.models.fetches.filter fun e => e.2.cluster == c && e.2.joins.isNone && !e.2.parked).length

/-- A fetch set under a tag as one that needs a place of its own in its queue: it parks where there is none (R196). -/
def State.placeFetch (tag : Nat) (f : Fetch) (s : State) : State :=
  let s := s.dropFetch tag
  let full := decide (1024 ≤ s.queued f.cluster)
  let s := if full then s.count Ctr.frqFull f.cluster else s
  s.updModels fun m => { m with fetches := tset m.fetches tag { f with parked := full } }

/-- A fetch's `remote_budget` has passed before the request's cut-off: it fails alone, and its fallback's lookup starts,
up to the cut-off. Where others joined it, the first of them takes over the lookup under way (R283, R284, R292).
[DEDUCED: notes/assumptions/55.md] -/
def State.fallAlone (tag : Nat) (f : Fetch) (s : State) : State :=
  let s := s.count Ctr.fsRemoteTimeout f.table
  match s.fallbackGen f, if f.joins.isSome then [] else s.joiners tag with
  | none, [] => (s.dropFetch tag).endOne f .remote
  | none, (j, x) :: _ => ((s.dropFetch j).modFetch tag fun f => x.asks f).endOne f .remote
  | some b, [] =>
    if f.joins.isSome then s.placeFetch tag (f.fallTo b f.cut none false)
    else s.modFetch tag fun f => f.fallTo b f.cut none f.parked
  | some b, (j, x) :: _ => (s.modFetch tag fun f => x.asks f).placeFetch j (f.fallTo b f.cut none false)

/-- A fetch that joined another takes its ending, unless its own end tick has passed (R283, R284): a remote one then
fails by its budget. -/
def State.endJoined (remote : Bool) (r : FetchEnd) (tag : Nat) (f : Fetch) (s : State) : State :=
  if s.tick ≤ f.endTick then (s.dropFetch tag).endOne f r
  else if remote && decide (f.endTick < f.cut) then s.fallAlone tag f
  else (s.dropFetch tag).endOne f .timeout

/-- A fetch ended with those that joined it. -/
def State.endFetch (tag : Nat) (r : FetchEnd) (s : State) : State :=
  match s.fetch tag with
  | none => s
  | some f =>
    (s.joiners tag).foldl (fun s e => s.endJoined f.remote r e.1 e.2) ((s.dropFetch tag).endOne f r)

/-- A fetch that runs a lookup of this device. -/
def Fetch.local' (f : Fetch) : Bool := f.joins.isNone && !f.parked && !f.remote

/-- A fetch whose lookup here is still under way, noted as it ends: what the lookup answers is late (R283). -/
def State.noteLate (tag : Nat) (f : Fetch) (s : State) : State :=
  if f.local' && f.lockReads == 0 then
    s.updModels fun m => { m with late := tset m.late tag f.cluster }
  else s

/-- One fetch ended alone: the first of those that joined it takes over its lookup. -/
def State.endAlone (tag : Nat) (r : FetchEnd) (s : State) : State :=
  match s.fetch tag with
  | none => s
  | some f =>
    match s.joiners tag with
    | [] => ((s.dropFetch tag).noteLate tag f).endOne f r
    | (j, x) :: _ => ((s.dropFetch j).modFetch tag fun f => x.asks f).endOne f r

/-- The fetches of a slot end with the slot (R283). -/
def State.closeFetches (k gen : Nat) (s : State) : State :=
  ((s.models.fetches.filter fun e => e.2.slot == k && e.2.slotGen == gen).map (·.1)).foldl
    (fun s tag => s.endAlone tag .timeout) s

/-- The remote fetches of a table in flight (R292). -/
def State.remoteInflight (table : Nat) (s : State) : Nat :=
  (s.models.fetches.filter fun e =>
    e.2.table == table && e.2.remote && e.2.joins.isNone && !e.2.parked).length

/-- A partition's remote tokens at a tick, in 10^-9 of a fetch (R293). -/
def Partition.refill (p : Partition) (tick : Nat) : Partition :=
  { p with
    rateTokens := min (p.rateTokens + (tick - p.rateTick) * p.remoteRateMax)
      (p.remoteRateMax * 1000000)
    rateTick := tick }

/-- One remote fetch or put taken from a partition's rate; none where it is spent. -/
def State.takeRate (part : Nat) (s : State) : Option State :=
  let p := (s.part part).refill s.tick
  if p.rateTokens < 1000000000 then none
  else some (s.modPart part fun _ => { p with rateTokens := p.rateTokens - 1000000000 })

/-- An address of a live-enough member: one that traffic can be sent to (R341, R348, R353). -/
def State.reachable (addr : Nat) (s : State) : Bool :=
  !s.fab.left && decide (1 ≤ addr) && decide (addr ≤ 20480) && (tget s.fab.members addr).isSome &&
    ((tgetD s.fab.peers addr {}).state != .lost) && s.fab.ifcs.any fun i => (s.ifc i.2).link

/-- One of the fetches of a failed remote lookup: its fallback's lookup starts, one for each generation that the
fetches fall back to, or it ends (R284, R292). `done` holds the lookups begun, by generation. -/
def State.failOne (ctr : Option Nat) (e : Nat × Fetch) (done : List ((Nat × Nat) × Nat)) (s : State) :
    State × List ((Nat × Nat) × Nat) :=
  let s := match ctr with
    | some c => s.count c e.2.table
    | none => s
  match s.fallbackGen e.2 with
  | none => ((s.dropFetch e.1).endOne e.2 .remote, done)
  | some b =>
    match aget done b with
    | some k => (s.modFetch e.1 fun f => f.fallTo b f.endTick (some k) false, done)
    | none => (if e.2.joins.isSome then s.placeFetch e.1 (e.2.fallTo b e.2.endTick none false)
        else s.modFetch e.1 fun f => f.fallTo b f.endTick none f.parked, done ++ [(b, e.1)])

/-- The fetches of a failed remote lookup, one after another. -/
def State.failEach (ctr : Option Nat) : List (Nat × Fetch) → List ((Nat × Nat) × Nat) → State → State
  | [], _, s => s
  | e :: rest, done, s => State.failEach ctr rest (s.failOne ctr e done).2 (s.failOne ctr e done).1

/-- A remote fetch has failed, with those that joined it: the fallback's lookup starts under the end tick that each
already had, or the fetch ends (R292). [DEDUCED: notes/assumptions/55.md] -/
def State.failBare (tag : Nat) (ctr : Option Nat) (s : State) : State :=
  match s.fetch tag with
  | none => s
  | some f => s.failEach ctr ((tag, f) :: s.joiners tag) []

/-- A remote failure with its counter (R292). [DEDUCED: notes/assumptions/55.md] -/
def State.failRemote (tag ctr : Nat) (s : State) : State := s.failBare tag (some ctr)

/-- The table and generation a fetch reads here. -/
def Fetch.reads (f : Fetch) : Nat × Nat := if f.fellBack then (f.fbTable, f.fbGen) else (f.table, f.g)

/-- A fetch of an input record goes to another device (R290). -/
def State.isRemote (x : FTable) (g : Generation) (key : W64) (s : State) : Bool :=
  x.ftMode == 1 && s.homeReadable x g key &&
    !(s.homeOf x g key == s.fab.addr && s.fab.addr != 0)

/-- A fetch waits for another device, or for its place in the queue to ask one. -/
def State.asksAway (f : Fetch) (s : State) : Bool :=
  f.remote || (f.parked && !f.fellBack && (s.genOf f.table f.g).any fun e => s.isRemote e.1 e.2 f.key)

/-- A fetch's value comes from another device: by its own lookup, or by that of the fetch it joined. -/
def State.waitsAway (f : Fetch) (s : State) : Bool :=
  match f.joins with
  | some k => (s.fetch k).any fun e => s.asksAway e
  | none => s.asksAway f

/-- A fetch that has its place in the queue starts: a local lookup, or a message that waits to be
sent (R290, R292). [DEDUCED: notes/assumptions/55.md] -/
def State.launchFetch (tag : Nat) (s : State) : State :=
  match s.fetch tag with
  | none => s
  | some f =>
    match s.genOf f.table f.g with
    | none => s.endFetch tag .noGen
    | some (x, g) =>
      if f.fellBack ∨ x.ftMode = 0 then s
      else if !s.homeReadable x g f.key then (s.touchMap x g f.key).endFetch tag .fault
      else
        let home := s.homeOf x g f.key
        let s := s.touchMap x g f.key
        if home = s.fab.addr ∧ home ≠ 0 then s
        else
          let s := s.modFetch tag fun f => { f with remote := true, home := home }
          if !s.reachable home then s.failRemote tag Ctr.fsRemoteLost
          else if x.remoteInflightMax < s.remoteInflight f.table then
            s.failRemote tag Ctr.fsRemoteShed
          else match s.takeRate x.owner with
            | none => s.failRemote tag Ctr.fsRemoteShed
            | some s => s

/-- A fetch on the same cluster that a fetch may join (R284). -/
def State.joinable (f : Fetch) (s : State) : Option Nat :=
  (s.models.fetches.find? fun e => e.2.cluster == f.cluster && e.2.joins.isNone &&
    e.2.table == f.table && e.2.g == f.g && e.2.key == f.key).map (·.1)

/-- A fetch put into the table under the next tag. -/
def State.putFetch (f : Fetch) (s : State) : State :=
  s.updModels fun m => { m with
    fetches := tset m.fetches m.nextTag f
    nextTag := m.nextTag + 1 }

/-- A fetch issued: it joins one in flight, parks behind a full queue, or takes its place (R196, R284). -/
def State.issueFetch (f : Fetch) (s : State) : State :=
  match s.joinable f with
  | some k => (s.putFetch { f with joins := some k }).count Ctr.fsJoined f.cluster
  | none =>
    if 1024 ≤ s.queued f.cluster then
      (s.putFetch { f with parked := true }).count Ctr.frqFull f.cluster
    else s.putFetch f

/-- A fetch issued from a tag on that has a place of its own. -/
def Fetch.startsFrom (f : Fetch) (n tag : Nat) : Bool :=
  decide (n ≤ tag) && f.joins.isNone && !f.parked

/-- Parked fetches of a cluster start while its queue has room, oldest first. -/
def State.unpark (c : Nat) : Nat → State → State
  | 0, s => s
  | fuel + 1, s =>
    match s.models.fetches.find? fun e => e.2.cluster == c && e.2.parked with
    | some (tag, _) =>
      if s.queued c < 1024 then
        State.unpark c fuel ((s.modFetch tag fun f => { f with parked := false }).launchFetch tag)
      else s
    | none => s

/-- The clusters with parked fetches start them where there is room. -/
def State.unparkAll (s : State) : State :=
  ((s.models.fetches.filter fun e => e.2.parked).map (·.2.cluster)).eraseDups.foldl
    (fun s c => s.unpark c s.models.fetches.length) s

/-- What a lookup's end does to its fetch. -/
def State.fetchLook (tag : Nat) (x : FTable) (l : Look) (s : State) : State :=
  match l.last with
  | .found e => s.endFetch tag (.found (x.present e))
  | .absent => s.endFetch tag .absent
  | .fault => s.endFetch tag .fault
  | .locked a pos =>
    match s.fetch tag with
    | none => s
    | some f =>
      if f.lockReads = 4 then s.endFetch tag .locked
      else s.modFetch tag fun f => { f with
        lockReads := f.lockReads + 1, lockDue := s.tick + 200, lockAddr := a, lockPos := pos }

/-- A lookup whose fetch has ended answers late (R283). -/
def State.lateLook (tag cluster : Nat) (s : State) : State :=
  (s.updModels fun m => { m with late := tdel m.late tag }).count Ctr.fsLate cluster

/-- `LOCAL_LOOKUP_DONE` (R280 to R283): the lookup's first pass has ended. -/
def execLocalLookupDone (t fetch : Nat) (check : WordCheck) (s : State) :
    Host.Outcome State Fault Refusal :=
  s.happen t
    (fun s => s.moving && match s.fetch fetch with
      | some f => f.local' && f.lockReads == 0 && decide (s.tick ≤ f.endTick)
      | none => (tget s.models.late fetch).isSome)
    fun s => match s.fetch fetch with
      | none => match tget s.models.late fetch with
        | some c => s.lateLook fetch c
        | none => s
      | some f =>
        match s.genOf f.reads.1 f.reads.2 with
        | none => (s.endFetch fetch .noGen).unparkAll
        | some (x, g) =>
          let s := s.strike (s.lookup x g f.key).reads check
          let l := (s.lookup x g f.key).checked check
          ((s.looked f.reads.1 l).fetchLook fetch x l).unparkAll

/-- `FETCH_END_TICK` (R283): a remote fetch, one that is parked or joined another among them, whose `remote_budget` has
passed before the request's cut-off fails; any other ends without a value. -/
def execFetchEndTick (t fetch : Nat) (s : State) : Host.Outcome State Fault Refusal :=
  s.happen t
    (fun s => s.moving && match s.fetch fetch with
      | some f => decide (f.endTick ≤ s.tick)
      | none => false)
    fun s => match s.fetch fetch with
      | none => s
      | some f =>
        if s.waitsAway f && decide (f.endTick < f.cut) then (s.fallAlone fetch f).unparkAll
        else if f.joins.isSome then (s.dropFetch fetch).endOne f .timeout
        else (s.endAlone fetch .timeout).unparkAll

/-! ### Tables (R273) -/

/-- A setting that stands outside its range. -/
def outside (v : Option Nat) (lo hi : Nat) : Bool :=
  match v with
  | some n => decide (n < lo) || decide (hi < n)
  | none => false

/-- The settings that an `FTABLE_CREATE` carries, in row order: whether each stands outside its range.
[DEDUCED: notes/assumptions/120.md] -/
def TableSpec.ranges (x : TableSpec) : List Bool :=
  ([(x.ftMode.isSome, outside x.ftMode 0 1), (x.valFmt.isSome, outside x.valFmt 0 1),
    (x.nVal.isSome, outside x.nVal 1 (if x.valFmt = some 1 then 128 else 120)),
    (x.entLines.isSome, x.entLines.any fun n => !([1, 2, 4, 8].contains n)),
    (x.hashSeed.isSome, false), (x.shardSeed.isSome, false), (x.fallback.isSome, false),
    (x.localBudget.isSome, outside x.localBudget 1000 100000),
    (x.remoteBudget.isSome, outside x.remoteBudget 2000 1000000),
    (x.remoteGrace.isSome, outside x.remoteGrace 1000000 10000000000),
    (x.remoteInflightMax.isSome, outside x.remoteInflightMax 1 65535)] :
    List (Bool × Bool)).filterMap fun e => if e.1 then some e.2 else none

/-- A range of `FTABLE_CREATE` is not kept. -/
def TableSpec.outOfRange (x : TableSpec) : Bool := (TableSpec.ranges x).any id

/-- The position of `ent_lines` among the settings that an `FTABLE_CREATE` carries.
[DEDUCED: notes/assumptions/120.md] -/
def TableSpec.entLinesAt (x : TableSpec) : Nat :=
  ([x.ftMode.isSome, x.valFmt.isSome, x.nVal.isSome].filter id).length

/-- The position of `fallback` among the settings that an `FTABLE_CREATE` carries.
[DEDUCED: notes/assumptions/120.md] -/
def TableSpec.fallbackAt (x : TableSpec) : Nat :=
  ([x.ftMode.isSome, x.valFmt.isSome, x.nVal.isSome, x.entLines.isSome, x.hashSeed.isSome,
    x.shardSeed.isSome].filter id).length

/-- A setting with no default is missing. -/
def TableSpec.missing (x : TableSpec) : Bool :=
  x.nVal.isNone || x.entLines.isNone || x.hashSeed.isNone ||
    (x.ftMode == some 1 && x.shardSeed.isNone)

/-- The table that the settings make. -/
def TableSpec.table (x : TableSpec) (owner : Nat) : FTable :=
  { owner := owner, ftMode := x.ftMode.getD 0, valFmt := x.valFmt.getD 0, nVal := x.nVal.getD 1,
    entLines := x.entLines.getD 1, hashSeed := x.hashSeed.getD 0, shardSeed := x.shardSeed.getD 0,
    fallback := x.fallback, localBudget := x.localBudget.getD 5000,
    remoteBudget := x.remoteBudget.getD 20000, remoteGrace := x.remoteGrace.getD 100000000,
    remoteInflightMax := x.remoteInflightMax.getD 4096 }

/-- An entry of the table does not hold its values. -/
def FTable.tooSmall (x : FTable) : Bool :=
  decide (x.entLines < (32 + x.nVal * x.valBits / 8 + 63) / 64)

/-- A table's fallback is not `LOCAL` or differs in its values. -/
def State.backDiffers (x : FTable) (s : State) : Bool :=
  match x.fallback.bind fun k => s.table k with
  | some b => b.ftMode != 0 || b.valFmt != x.valFmt || b.nVal != x.nVal
  | none => false

/-- A table's settings contradict one another, or its fallback's. -/
def State.contradicts (x : FTable) (s : State) : Bool := FTable.tooSmall x || s.backDiffers x

/-- The kept value of the tables. -/
def State.tablesVal (s : State) : StVal :=
  .tables (s.models.tables.map fun e => (e.1, { e.2 with gens := [] }))

/-- `FTABLE_CREATE` (R273). -/
def execFtableCreate (t : Nat) (h : CmdHdr) (table : Nat) (spec : TableSpec) (s : State) :
    Host.Outcome State Fault Refusal :=
  s.isain t { op := 0x0A01, late := true } h noObj anyPart fun s =>
    let x := TableSpec.table spec h.part
    let back (bad : Bool) : Option Nat := if bad then some (TableSpec.fallbackAt spec) else none
    checksAt
      [(back (spec.fallback.any fun k => (s.table k).isNone), .eState), unlistedAt h 0x0A01,
       (onWhole (decide (65536 ≤ table)), .eRange), (idxOf? id (TableSpec.ranges spec), .eRange),
       (onWhole (TableSpec.missing spec), .eArg),
       (back (spec.fallback.any fun k => (s.table k).map (·.owner) != some h.part), .ePriv),
       (if FTable.tooSmall x then some (TableSpec.entLinesAt spec) else none, .eArg),
       (back (s.backDiffers x), .eArg),
       (onWhole (s.table table).isSome, .eConflict),
       (onWhole (decide (1024 ≤ s.models.tables.length) ||
        decide (64 ≤ (s.models.tables.filter fun e => e.2.owner == h.part).length)), .eNospace)]
      (let s := s.updModels fun m => { m with tables := tset m.tables table x }
       okReply (s.keep s.tablesVal))

/-- The owner of a table; none where there is no table. -/
def State.tableOwner (table : Nat) (s : State) : Option Nat := (s.table table).map (·.owner)

/-- A table exists. -/
def State.hasTable (table : Nat) (s : State) : Bool := (s.table table).isSome

/-- The issuer may act on a table (R388). -/
def State.ownsTable (h : CmdHdr) (table : Nat) (s : State) : Bool :=
  match s.tableOwner table with
  | some p => owns h p
  | none => false

/-- A committed model of a table's owner reads the table. -/
def State.tableRead (table : Nat) (s : State) : Bool :=
  match s.tableOwner table with
  | none => false
  | some p =>
    let d := s.domain p
    (d.models ++ (d.retiring.map (·.2)).getD []).any fun m => m.tables.contains table

/-- `FTABLE_DESTROY` (R273). -/
def execFtableDestroy (t : Nat) (h : CmdHdr) (table : Nat) (s : State) :
    Host.Outcome State Fault Refusal :=
  s.isain t { op := 0x0A02 } h (fun s => s.hasTable table) (fun s => s.ownsTable h table) fun s =>
    checks
      [((s.table table).any (fun x => !x.gens.isEmpty) || s.tableRead table ||
        s.models.tables.any (fun e => e.1 != table && e.2.fallback == some table), .eState)]
      (let s := s.updModels fun m => { m with tables := tdel m.tables table }
       okReply (s.keep s.tablesVal))

/-- The number of a generation's state (R285). -/
def genCode : GenState → Nat
  | .free => 0 | .loading => 1 | .sealed => 2 | .current => 3 | .retiring => 4

/-- `FTABLE_QUERY` (R285, R396): both generations; a free one reads as zeros. -/
def execFtableQuery (t : Nat) (h : CmdHdr) (table : Nat) (s : State) :
    Host.Outcome State Fault Refusal :=
  s.isain t { op := 0x0A03, stop := true } h (fun s => s.hasTable table)
    (fun s => s.ownsTable h table) fun s =>
    let gs := ((s.table table).map (·.gens)).getD []
    let f (i : Nat) : List (Nat × Nat) := match gs[i]? with
      | some g => [(8, g.g), (3, genCode g.state), (48, g.base), (64, g.n)]
      | none => [(8, 0), (3, 0), (48, 0), (64, 0)]
    .done .ok (pack (f 0 ++ f 1)) s

/-! ### Generations (R285 to R288) -/

/-- A table changed. -/
def State.modTable (k : Nat) (f : FTable → FTable) (s : State) : State :=
  s.updModels fun m => { m with tables := tmod m.tables k f }

/-- A table's generation changed. -/
def FTable.modGen (g : Nat) (f : Generation → Generation) (x : FTable) : FTable :=
  { x with gens := x.gens.map fun y => if y.g = g then f y else y }

/-- A table's generation becomes `FREE`. -/
def FTable.freeGen (g : Nat) (x : FTable) : FTable :=
  { x with gens := x.gens.filter fun y => y.g != g }

/-- The number a new generation may not have (R286). -/
def FTable.genBad (x : FTable) (g : Nat) : Bool :=
  match x.genIn .current with
  | some y => g != (y.g + 1) % 256
  | none => x.gens.any fun y => y.g == g

/-- An image overlaps a live one of any table. -/
def State.imageMeets (base n : Nat) (s : State) : Bool :=
  s.models.tables.any fun e => e.2.gens.any fun y =>
    decide (base < y.base + e.2.imageBytes y) && decide (y.base < base + n)

/-- A range of device memory zeroed, in whole words. -/
def State.zeroRange (a n : Nat) (s : State) : State :=
  s.updMem fun m => { m with
    bytes := m.bytes.filter fun e => !(decide (a ≤ e.1) && decide (e.1 < a + n))
    faults := m.faults.filter fun e => !(decide (a ≤ e.1) && decide (e.1 + 4 ≤ a + n)) }

/-- The header of an image as `GENERATION_STAGE` writes it (R275). -/
def imageHeader (g n : Nat) : List Byte := leBytes 64 (n % 2 ^ 64 * 2 ^ 64 + g % 256 * 2 ^ 32 + 1)

/-- `GENERATION_STAGE` (R286). -/
def execGenerationStage (t : Nat) (h : CmdHdr) (table g log2Buckets base n : Nat) (s : State) :
    Host.Outcome State Fault Refusal :=
  s.isain t { op := 0x0A04 } h (fun s => s.hasTable table) (fun s => s.ownsTable h table) fun s =>
    match s.table table with
    | none => no .eState
    | some x =>
      let y : Generation :=
        { g := g, state := .loading, base := base, log2Buckets := log2Buckets, n := n }
      checks
        [(decide (2 ≤ x.gens.length), .eState),
         (decide (256 ≤ g) || x.genBad g || decide (base % 4096 ≠ 0), .eArg),
         (decide (log2Buckets < 10) || decide (30 < log2Buckets) ||
          !s.mayAccess x.owner 1 base (x.imageBytes y) || !inSoftware base (x.imageBytes y), .eRange),
         (s.imageMeets base (x.imageBytes y), .eConflict)]
        (okReply (((s.poke base (imageHeader g n)).zeroRange (base + 16384) (64 * y.buckets)).modTable
          table fun x => { x with gens := x.gens ++ [y] }))

/-- The header of a staged image still says what `GENERATION_STAGE` wrote, with the lock clear. -/
def State.headerGood (y : Generation) (s : State) : Bool :=
  let w := s.leAt y.base 16
  !w.testBit 0 && bitsOf w 39 32 == y.g && bitsOf w 127 64 == y.n

/-- A word of the header that can be read says otherwise: the refusals of R286 come in the order of
its row. [DEDUCED: notes/assumptions/121.md] -/
def State.headerDenies (y : Generation) (s : State) : Bool :=
  let differs (i want m : Nat) : Bool := s.mem.readable (y.base + 4 * i) 4 &&
    decide (s.leAt (y.base + 4 * i) 4 % m ≠ want)
  differs 0 0 2 || differs 1 y.g 256 || differs 2 (y.n % 2 ^ 32) (2 ^ 32) ||
    differs 3 (y.n / 2 ^ 32) (2 ^ 32)

/-- `GENERATION_SEAL` (R286). -/
def execGenerationSeal (t : Nat) (h : CmdHdr) (table g : Nat) (s : State) :
    Host.Outcome State Fault Refusal :=
  s.isain t { op := 0x0A05 } h (fun s => s.hasTable table) (fun s => s.ownsTable h table) fun s =>
    match (s.table table).bind (·.gen g) with
    | none => no .eState
    | some y =>
      if y.state ≠ .loading ∨ y.dropping then no .eState
      else if !s.mem.readable y.base 64 then
        .done (if s.headerDenies y then .eState else .eFault) [] (s.touch y.base 64 0)
      else if !s.headerGood y then no .eState
      else okReply ((s.touch y.base 64 0).modTable table
        (FTable.modGen g fun y => { y with state := .sealed }))

/-- A generation named by a commit is `SEALED`. -/
def State.sealedGen (p : Nat × Nat) (s : State) : Bool :=
  match (s.table p.1).bind (·.gen p.2) with
  | some y => y.state == .sealed && !y.dropping
  | none => false

/-- The refusals of `GENERATION_COMMIT`: steps 5 and 6 of R383, then in the order of R286. -/
def State.commitChecks (h : CmdHdr) (pairs : List (Nat × Nat)) (s : State) :
    List (Option Nat × Status) :=
  [(itemBad 0 (fun p => !s.hasTable p.1) pairs, .eState),
   (itemBad 0 (fun p => h.part != 0 && s.tableOwner p.1 != some h.part) pairs, .ePriv), unlistedAt h 0x0A06,
   (onWhole (decide (pairs.length = 0) || decide (16 < pairs.length)), .eRange),
   (idxOf? (fun e => (pairs.take e.2).any fun p => p.1 == e.1.1) pairs.zipIdx, .eArg),
   (itemBad 0 (fun p => !s.sealedGen p) pairs, .eState)]

/-- `GENERATION_COMMIT` (R286): all in one instant. -/
def execGenerationCommit (t : Nat) (h : CmdHdr) (pairs : List (Nat × Nat)) (s : State) :
    Host.Outcome State Fault Refusal :=
  s.isain t { op := 0x0A06, late := true } h noObj anyPart fun s =>
    checksAt (s.commitChecks h pairs) (okReply (s.commitGens pairs))

/-- A generation bound to its owner's next commit (R286, R310). -/
def State.bindGen (p : Nat × Nat) (s : State) : State :=
  s.modDomain ((s.tableOwner p.1).getD 0) fun d => { d with
    staging := { d.staging with gens := (d.staging.gens.filter fun e => e.1 != p.1) ++ [p] } }

/-- `GENERATION_COMMIT` with `bind` (R286, R310, R313). -/
def execGenerationCommitBind (t : Nat) (h : CmdHdr) (pairs : List (Nat × Nat)) (s : State) :
    Host.Outcome State Fault Refusal :=
  s.isain t { op := 0x0A06, late := true } h noObj anyPart fun s =>
    checksAt
      (s.commitChecks h pairs ++
        [(itemBad 0 (fun p => s.domainBusy ((s.tableOwner p.1).getD 0)) pairs, .busy)])
      (okReply (pairs.foldl (fun s p => s.bindGen p) s))

/-- `GENERATION_DROP` (R286): the generation is freed once no remote lookup reads it. -/
def execGenerationDrop (t : Nat) (h : CmdHdr) (table g : Nat) (s : State) :
    Host.Outcome State Fault Refusal :=
  s.isain t { op := 0x0A07 } h (fun s => s.hasTable table) (fun s => s.ownsTable h table) fun s =>
    match (s.table table).bind (·.gen g) with
    | some y =>
      if y.state = .loading ∨ y.state = .sealed then
        okReply (s.modTable table (FTable.modGen g fun y => { y with dropping := true }))
      else no .eState
    | none => no .eState

/-- A remote lookup served here reads a generation. -/
def State.servedFrom (table g : Nat) (s : State) : Bool :=
  s.models.serving.any fun e => e.2.table == table && e.2.g == g

/-- `GENERATION_DROP_DONE` (R286). -/
def execGenerationDropDone (t table g : Nat) (s : State) : Host.Outcome State Fault Refusal :=
  s.happen t
    (fun s => s.running && match (s.table table).bind (·.gen g) with
      | some y => y.dropping && !s.servedFrom table g
      | none => false)
    fun s => s.modTable table (FTable.freeGen g)

/-- Nothing holds a retiring generation any more (R288). -/
def State.genFreeable (table : Nat) (x : FTable) (y : Generation) (s : State) : Bool :=
  y.state == .retiring &&
    !(s.rings.slots.any fun e => e.2.state != .free && tget e.2.tgens table == some y.g) &&
    (x.ftMode == 0 || decide (y.commitTick + x.remoteGrace ≤ s.tick))

/-- `GENERATION_RETIRE` (R288). -/
def execGenerationRetire (t table g : Nat) (s : State) : Host.Outcome State Fault Refusal :=
  s.happen t
    (fun s => s.running && match s.genOf table g with
      | some (x, y) => s.genFreeable table x y
      | none => false)
    fun s => match s.table table with
      | none => s
      | some x => (s.modTable table (FTable.freeGen g)).event x.owner 0x0005
          [(16, table), (8, g)] 0

end Sys2Proof.Machine
end

