-- ==== Sys2Proof/Machine/SlotOps.lean ====
section
/-! DEFINITION. Request slots at work: taking a slot, reduce groups, shares and walks, composing a
score, and posting a verdict (R105 to R107, R193 to R195, R240 to R249, R315 to R318). -/

namespace Sys2Proof.Machine

/-! ### Slots (R105 to R107) -/

/-- Slots above a partition's reserved ones. -/
def State.overMin (p : Nat) (s : State) : Nat := s.slotsOf p - (s.part p).slotMin

/-- The slots in use. -/
def State.usedSlots (s : State) : List Nat :=
  (s.rings.slots.filter fun e => e.2.state != .free).map (·.1)

/-- A free slot can serve a partition (R105, R107). -/
def State.canServe (p : Nat) (s : State) : Bool :=
  let x := s.part p
  let reserved := (s.parts.map fun e => e.2.slotMin).sum
  let above := (s.parts.map fun e => s.overMin e.1).sum
  decide (s.usedSlots.length < 65536) && decide (s.slotsOf p < x.slotMax) &&
    (decide (s.slotsOf p < x.slotMin) || decide (above < 65536 - reserved))

/-- A free slot; which one is open. [DESIGN CHOICE: notes/assumptions/112.md] -/
def State.pickSlot (s : State) : Nat × State :=
  let f := s.fresh
  let used := s.usedSlots
  let k := ((List.range (used.length + 1)).find? fun j => !used.contains ((f.1 + j) % 65536)).getD 0
  ((f.1 + k) % 65536, f.2)

/-- The model a slot works for. -/
def State.slotModel (k : Nat) (s : State) : Option Model :=
  s.modelAt (s.slot k).part (s.slot k).epoch (s.slot k).model

/-- A slot's cut-off C (R315). -/
def State.cutoff (k : Nat) (s : State) : Nat :=
  (s.slot k).deadline - ((s.slotModel k).map (·.params.tail)).getD 0

/-! ### Posting a verdict (R101, R106, R317, R318) -/

/-- The words of scores, item-major. -/
def scoreBytes (ys : List W32) : List Byte := ys.flatMap fun y => leBytes 4 y.toNat

/-- A verdict reached for a frame: egress acts on it. -/
def State.frameVerdict (id : Nat) (v : Verdict) (s : State) : State :=
  s.modFrame id fun f => { f with decision := some (.verdict v), stage := .egress }

/-- A slot's verdict posted: stamped and counted, then written to the completion ring, or handed to
egress with the frame. -/
def State.postVerdict (k : Nat) (v : Verdict) (s : State) : State :=
  let x := s.slot k
  let v := { v.stamp x.admitAt s.tick x.epoch x.part with missing := x.missing, fallback := x.fallback }
  let s := s.countVerdict x.part v
  let s := if x.deadline < s.tick then s.count Ctr.dlMiss (modelScope x.part x.model) else s
  let s := (s.closeFetches k x.gen).unparkAll.modSlot k fun x => { x with state := .posting }
  match x.src with
  | .ring n i =>
    s.ringItem (s.ring n).cqRing (verdictItem n i x.cookie .ok (verdictWords v))
  | .frame id => s.frameVerdict id v

/-- A slot takes rung 3 with a reason (R316). -/
def State.postDefault (k reason : Nat) (s : State) : State :=
  match s.slotModel k with
  | some m => s.postVerdict k (m.defaultVerdict reason)
  | none => s

/-- The shares of a slot removed from every core. -/
def State.dropShares (k gen : Nat) (s : State) : State :=
  s.updComp fun c => { c with cores := c.cores.map fun e => (e.1, { e.2 with
    shares := e.2.shares.filter fun x => !(x.slot == k && x.slotGen == gen)
    walks := e.2.walks.filter fun w => !(w.2.slot == k && w.2.slotGen == gen) }) }

/-- Scores composed into a verdict on rung 1 or 2, or rung 3 with reason 3, the stage count travelling with each
(R249 to R251, R318). A request without a blob has no place for its scores.
[DEDUCED: notes/assumptions/134.md] -/
def State.postScores (k : Nat) (m : Model) (corr : List (W32 × W32)) (rung stages : Nat)
    (sums : List W32) (s : State) : State :=
  let x := s.slot k
  match m.scores corr x.nItems sums with
  | none => s.postVerdict k { m.defaultVerdict 3 with stages := stages }
  | some ys =>
    let out := m.params.scoresOut && x.blobLen != 0
    let s := if out then s.poke (x.blobAddr + m.params.scoreOff) (scoreBytes ys) else s
    s.postVerdict k { m.mapScores rung stages x.nItems ys with scoresOut := out }

/-- Every lead group of a slot has closed: the score is composed (R245, R249). -/
def State.compose (k : Nat) (m : Model) (s : State) : State :=
  let x := s.slot k
  let n := m.stages.length
  let K := stagesDone x.stageSums n 0
  let s := s.dropShares k x.gen
  if x.stepFail then s.postDefault k 7
  else if K = 0 then s.postDefault k (if x.stageFail then 7 else 2)
  else s.postScores k m (((m.stages[K - 1]?).map (·.corr)).getD [])
    (if K = n then 1 else 2) K (stageTotal x.stageSums (x.nItems * m.params.nOut) K)

/-- A lead group's result reaches its slot. -/
def State.slotResult (k gen stage : Nat) (g : Group) (s : State) : State :=
  let x := s.slot k
  if x.state = .running ∧ x.gen = gen then
    let s := s.modSlot k fun x => { x with
      stageSums := tset x.stageSums stage (g.acc, g.summed, g.voids) }
    match s.slotModel k with
    | some m =>
      if m.ensemble && (List.range m.stages.length).all fun i =>
          (tget (s.slot k).stageSums i).isSome then s.compose k m else s
    | none => s
  else s.tally Ctr.staleCompletion

/-! ### Reduce groups (R193 to R195, R244) -/

/-- A lead group of a slot's stage: its result is the slot's. -/
def Group.isLead (g : Group) : Bool :=
  g.slot.isSome && (match g.dest with | .slot _ _ _ => true | _ => false)

/-- The groups that take a group of the unit and their part of its buffer: a lead cluster holds one
for each stage, its own share of the stage included (R244). [DEDUCED: notes/assumptions/133.md] -/
def Cluster.held (c : Cluster) : List (Nat × Group) :=
  c.groups.filter fun e => !(e.2.isLead &&
    c.groups.any fun x => !x.2.isLead && x.2.slot == e.2.slot)

/-- The bytes of a cluster's reduce buffer in use. -/
def Cluster.reduceUse (c : Cluster) : Nat := (c.held.map fun g => g.2.len * 4).sum

/-- A group fits now: 64 groups, 128 KiB, or beside the other group of its stage. -/
def Cluster.roomFor (c : Cluster) (g : Group) : Bool :=
  (g.slot.isSome && c.groups.any fun e => e.2.slot == g.slot) ||
    (decide (c.held.length < 64) && decide (c.reduceUse + g.len * 4 ≤ 131072))

/-- The lowest free group number. [DESIGN CHOICE: notes/assumptions/112.md] -/
def Cluster.freeGroup (c : Cluster) : Nat :=
  ((List.range 128).find? fun i => (tget c.groups i).isNone).getD 0

/-- A group opened, or waiting behind those before it. -/
def Cluster.open (c : Cluster) (tick : Nat) (g : Group) : Cluster :=
  if c.opens.isEmpty && c.roomFor g then { c with groups := tset c.groups c.freeGroup g }
  else { c with opens := c.opens ++ [(tick, g)] }

/-- Waiting opens go in, oldest first, while they fit. -/
def Cluster.letIn (c : Cluster) : Nat → Cluster
  | 0 => c
  | fuel + 1 =>
    match c.opens with
    | [] => c
    | (_, g) :: rest =>
      if c.roomFor g then
        Cluster.letIn { c with groups := tset c.groups c.freeGroup g, opens := rest } fuel
      else c

/-- Two values folded (R194). -/
def foldOp (op : Nat) (a b : W32) : W32 :=
  match op with
  | 1 => fpick 1 .gt a b
  | 2 => fpick 2 .lt a b
  | _ => fadd a b

/-- A contribution folded into a group; `void` holds nothing. `up` counts voids that an upstream
stage group carries (R244). -/
def Group.fold (g : Group) (data : Option (List W32)) (up : Nat) : Group :=
  match data with
  | none => { g with arrived := g.arrived + 1, voids := g.voids + 1 + up }
  | some v => { g with
      arrived := g.arrived + 1, summed := g.summed + 1, voids := g.voids + up
      acc := if g.summed = 0 then v
        else (List.range g.len).map fun i => foldOp g.op ((g.acc[i]?).getD 0) ((v[i]?).getD 0) }

/-- A group closed: what did not arrive counts as void. -/
def Group.close (g : Group) : Group :=
  { g with
    voids := g.voids + (g.expected - g.arrived)
    acc := if g.summed = 0 then List.replicate g.len 0 else g.acc }

/-- The group of a slot's stage on a cluster: the lead one, or the cluster's own. -/
def Group.isFor (key : Nat × Nat × Nat) (lead : Bool) (g : Group) : Bool :=
  g.slot == some key && (match g.dest with | .slot _ _ _ => lead | _ => !lead)

/-- Where a contribution goes: a group by number, or a stage group of a slot. -/
inductive GroupRef where
  | num (idx : Nat)
  | stage (key : Nat × Nat × Nat) (lead : Bool)
  deriving DecidableEq, Repr

/-- The group a reference names: open under a number, or still waiting. -/
def Cluster.findGroup (c : Cluster) : GroupRef → Option (Nat × Group)
  | .num i => (tget c.groups i).map fun g => (i, g)
  | .stage key lead => c.groups.find? fun e => e.2.isFor key lead

/-- A waiting group with a contribution folded in. -/
def foldWaiting (key : Nat × Nat × Nat) (lead : Bool) (data : Option (List W32)) (up : Nat)
    (l : List (Nat × Group)) : List (Nat × Group) :=
  l.map fun e => if e.2.isFor key lead then (e.1, e.2.fold data up) else e

/-- A result written to a cluster store: the vector, then `n_summed` and `n_void` as 32-bit words
(notes/assumptions/24.md). -/
def State.storeResult (c addr : Nat) (g : Group) (s : State) : State :=
  s.spacePut (.store c) addr (scoreBytes g.acc ++ leBytes 4 g.summed ++ leBytes 4 g.voids)

/-- What a group records when it closes (R463). -/
def groupRec (g : Group) : TraceRec :=
  let k := g.slot.getD (0, 0, 0)
  let r := unitRec 5 6 0 (g.summed * 65536 + g.voids) k.1 k.2.1
  if g.slot.isSome then r else { r with slot := 0, slotGen := 0 }

/-- A closed group's result sent on. A result for another group is one contribution there; groups
of a slot's stage carry their void count with it. The fuel bounds a chain of groups. -/
def State.deliverGroup : Nat → Nat → Group → State → State
  | 0, _, _, s => s
  | fuel + 1, c, g0, s =>
    let g := g0.close
    let s := s.trace c (groupRec g)
    match g.dest with
    | .store a => s.storeResult c a g
    | .slot k gen stage => s.slotResult k gen stage g
    | .group c' i =>
      let ref : GroupRef := match g.slot with
        | some key => .stage key true
        | none => .num i
      let up := if g.slot.isSome then g.voids else 0
      let x := s.cluster c'
      match x.findGroup ref with
      | some (j, h) =>
        let h' := h.fold (some g.acc) up
        if h'.expected ≤ h'.arrived then
          State.deliverGroup fuel c' h' (s.modCluster c' fun x => { x with groups := tdel x.groups j })
        else s.modCluster c' fun x => { x with groups := tset x.groups j h' }
      | none =>
        match ref with
        | .stage key lead =>
          if x.opens.any fun e => e.2.isFor key lead then
            s.modCluster c' fun x => { x with opens := foldWaiting key lead (some g.acc) up x.opens }
          else s.count Ctr.reduceLate c'
        | .num _ => s.count Ctr.reduceLate c'

/-- The longest chain of groups. -/
def chainFuel : Nat := 16385

/-- A contribution to a group of a cluster (R194). -/
def State.contribute (c : Nat) (ref : GroupRef) (data : Option (List W32)) (s : State) : State :=
  let x := s.cluster c
  match x.findGroup ref with
  | some (j, g) =>
    let g' := g.fold data 0
    if g'.expected ≤ g'.arrived then
      (s.modCluster c fun x => { x with groups := tdel x.groups j }).deliverGroup chainFuel c g'
    else s.modCluster c fun x => { x with groups := tset x.groups j g' }
  | none =>
    match ref with
    | .stage key lead =>
      if x.opens.any fun e => e.2.isFor key lead then
        s.modCluster c fun x => { x with opens := foldWaiting key lead data 0 x.opens }
      else s.count Ctr.reduceLate c
    | .num _ => s.count Ctr.reduceLate c

/-- A group closed before it is full. -/
def State.closeGroup (c i : Nat) (s : State) : State :=
  match tget (s.cluster c).groups i with
  | some g => (s.modCluster c fun x => { x with groups := tdel x.groups i }).deliverGroup chainFuel c g
  | none => s

/-! ### Shares (R240, R243 to R248, R253) -/

/-- A core's share of a slot. -/
def State.share (p k gen : Nat) (s : State) : Option Share :=
  (s.core p).shares.find? fun x => x.slot == k && x.slotGen == gen

/-- A share changed. -/
def State.modShare (p k gen : Nat) (f : Share → Share) (s : State) : State :=
  s.modCore p fun c => { c with
    shares := c.shares.map fun x => if x.slot = k ∧ x.slotGen = gen then f x else x }

/-- A share taken off its core, with its walks. -/
def State.dropShare (p k gen : Nat) (s : State) : State :=
  s.modCore p fun c => { c with
    shares := c.shares.filter fun x => !(x.slot == k && x.slotGen == gen)
    walks := c.walks.filter fun w => !(w.2.slot == k && w.2.slotGen == gen) }

/-- The trees of a stage on a placement core, ascending. -/
def Model.stageTrees (m : Model) (pclust pcore stage : Nat) : List Nat :=
  match m.stages[stage]? with
  | none => []
  | some st => (List.range st.count).filterMap fun j =>
      match m.places[st.first + j]? with
      | some x => if x.pclust = pclust ∧ x.pcore = pcore then some (st.first + j) else none
      | none => none

/-- The key of a share's stage cost. -/
def Share.costKey (x : Share) : Nat × Nat × Nat × Nat := (x.domain, x.model, x.epoch, x.stage)

/-- `stage_cost[s]` of a share on its core (R247). -/
def State.stageCost (p : Nat) (x : Share) (m : Model) (s : State) : W32 :=
  (aget (s.core p).stageCost x.costKey).getD (((m.stages[x.stage]?).map (·.est)).getD 0)

/-- A positive FP32 number of ns exceeds a span. -/
def exceeds (e : W32) (span : Int) : Bool :=
  match fv e with
  | .fin _ m x => if 0 ≤ x then decide (span < m * 2 ^ x.toNat) else decide (span * 2 ^ (-x).toNat < m)
  | .inf _ => true
  | .nan => false

/-- The stages from one up in which a share holds trees. -/
def Model.shareStages (m : Model) (x : Share) : List Nat :=
  (List.range m.stages.length).filter fun i =>
    decide (x.stage ≤ i) && !(m.stageTrees x.pclust x.pcore i).isEmpty

/-- A void contribution for each of some stages of a slot (R244). -/
def State.voidStages (c k gen : Nat) (stages : List Nat) (s : State) : State :=
  stages.foldl (fun s i => s.contribute c (.stage (k, gen, i) false) none) s

/-- A record of a share's stage: 0 complete, 1 stopped, 2 void. -/
def stageRec (p : Nat) (x : Share) (status : Nat) : TraceRec :=
  { unitRec 3 5 status (x.stage * 65536 + x.walks) x.slot x.slotGen with core := p }

/-- The Rosemary record of a job fault (R201, R450). [DEDUCED: notes/assumptions/68.md] -/
def State.jobFault (core ctx : Nat) (part status : Nat) (d : LaunchDesc) (s : State) : State :=
  s.record 0x0021 0 core part 2 [(2, ctx), (16, d.layerId), (16, d.opId), (8, status)]

/-- A stage of a slot is void through a fault or an abort: stage 0 decides the verdict's reason (R316). -/
def State.stageLost (k gen stage : Nat) (s : State) : State :=
  if stage = 0 ∧ (s.slot k).gen = gen then s.modSlot k fun y => { y with stageFail := true } else s

/-- A share stops: it voids this stage and every later one it holds trees of, and goes. Status 2 is a fault or an
abort. -/
def State.stopShare (p : Nat) (x : Share) (m : Model) (status : Nat) (s : State) : State :=
  let s := (s.dropShare p x.slot x.slotGen).trace x.cluster (stageRec p x status)
  let s := if status = 2 then s.stageLost x.slot x.slotGen x.stage else s
  s.voidStages x.cluster x.slot x.slotGen (m.shareStages x)

/-- A copy of an epoch's models on a core is bad: the core takes no walks of that epoch (R253). -/
def State.epochBad (p domain epoch : Nat) (s : State) : Bool :=
  (s.core p).badShards.any fun e => e.1 == domain && e.2.2 == epoch

/-- The epoch of a share has a bad copy on its core (R253). -/
def State.shardBad (p : Nat) (x : Share) (s : State) : Bool := s.epochBad p x.domain x.epoch

/-- A share turns to its next stage that has trees, whose walks stand ready. The fuel is the stages left. -/
def State.beginStage (p k gen : Nat) (m : Model) : Nat → State → State
  | 0, s => s.dropShare p k gen
  | fuel + 1, s =>
    match s.share p k gen with
    | none => s
    | some x =>
      let trees := m.stageTrees x.pclust x.pcore x.stage
      if m.stages.length ≤ x.stage then s.dropShare p k gen
      else if trees.isEmpty then
        State.beginStage p k gen m fuel (s.modShare p k gen fun x => { x with stage := x.stage + 1 })
      else if s.shardBad p x then s
      else
        let n := (s.slot k).nItems
        s.modShare p k gen fun x => { x with
          started := true, issued := false, walks := 0
          todo := (List.range n).flatMap fun i => trees.map fun t => (i, t)
          sums := List.replicate (n * m.params.nOut) 0 }

/-- The stage of a share would end too late by its estimate (R246). -/
def State.tooLate (p : Nat) (x : Share) (m : Model) (s : State) : Bool :=
  exceeds (fmul (s.stageCost p x m) (fnat (s.slot x.slot).nItems)) ((s.cutoff x.slot : Int) - s.tick)

/-- The share that the next free walk slot serves: the earliest deadline, then the earlier
admission (R240). -/
def State.nextShare (p : Nat) (s : State) : Option Share :=
  ((s.core p).shares.filter fun x => !x.todo.isEmpty && !s.shardBad p x).foldl
    (fun (b : Option Share) x =>
    match b with
    | none => some x
    | some y =>
      let dx := ((s.slot x.slot).deadline, (s.slot x.slot).admitAt)
      let dy := ((s.slot y.slot).deadline, (s.slot y.slot).admitAt)
      if dx.1 < dy.1 ∨ (dx.1 = dy.1 ∧ dx.2 < dy.2) then some x else b) none

/-- The next walk of a share issued into a walk slot: the stage's first sets its start (R247). -/
def State.issueWalk (p i : Nat) (x : Share) (m : Model) (s : State) : State :=
  match x.todo with
  | [] => s
  | (item, tree) :: rest =>
    let s := s.modShare p x.slot x.slotGen fun y => { y with
      todo := rest, issued := true, startTick := if y.issued then y.startTick else s.tick }
    s.modCore p fun c => { c with
      walks := tset c.walks i
        { slot := x.slot, slotGen := x.slotGen, item := item, tree := tree,
          node := ((m.trees[tree]?).map (·.root)).getD 0 } }

/-- Free walk slots of a core filled (R240); before its first walk a stage passes the check of R246, or its
share stops. -/
def State.issueWalks (p : Nat) : Nat → State → State
  | 0, s => s
  | fuel + 1, s =>
    match (List.range 256).find? (fun i => (tget (s.core p).walks i).isNone), s.nextShare p with
    | some i, some x =>
      match s.slotModel x.slot with
      | none => s
      | some m =>
        if !x.issued && s.tooLate p x m then State.issueWalks p fuel (s.stopShare p x m 1)
        else State.issueWalks p fuel (s.issueWalk p i x m)
    | _, _ => s

/-- The rounds of `issueWalks` that can be needed: a walk for each slot, and each share stopped. -/
def State.issueFuel (p : Nat) (s : State) : Nat := 256 + (s.core p).shares.length

/-- A slot's groups on a cluster are all open. -/
def State.groupsOpen (c k gen : Nat) (s : State) : Bool :=
  !((s.cluster c).opens.any fun e => (e.2.slot.map fun x => (x.1, x.2.1)) == some (k, gen))

/-- The shares of a core that may start a stage start it: their groups are open and their shard is
good. -/
def State.startShares (p : Nat) (s : State) : State :=
  ((s.core p).shares.filter fun x => !x.started && s.groupsOpen x.cluster x.slot x.slotGen).foldl
    (fun s x => match s.slotModel x.slot with
      | some m => s.beginStage p x.slot x.slotGen m (m.stages.length + 1)
      | none => s) s

/-- The open groups that have all they expect: an open that waited may have been sent it all before (R194, R244). -/
def State.fullGroups (s : State) : List (Nat × Nat) :=
  s.comp.clusters.flatMap fun e =>
    (e.2.groups.filter fun g => decide (g.2.expected ≤ g.2.arrived)).map fun g => (e.1, g.1)

/-- Everything that can move on the cores moves: waiting groups open, and close at once where they are full; shares
start, walks issue. Each round may free room for the next. -/
def State.settleCores : Nat → State → State
  | 0, s => s
  | fuel + 1, s =>
    let s := s.updComp fun c => { c with
      clusters := c.clusters.map fun e => (e.1, e.2.letIn e.2.opens.length) }
    let s := s.fullGroups.foldl (fun s g => s.closeGroup g.1 g.2) s
    let ps := (s.comp.cores.filter fun e => !e.2.shares.isEmpty).map (·.1)
    let s := ps.foldl (fun s p => (s.startShares p).issueWalks p (s.issueFuel p)) s
    if s.comp.clusters.any fun e => match e.2.opens with
        | (_, g) :: _ => e.2.roomFor g
        | [] => false then State.settleCores fuel s else s

/-- The rounds of `settleCores` that can be needed. -/
def State.settle2 (s : State) : State :=
  s.settleCores ((s.comp.clusters.map fun e => e.2.opens.length).sum + 1)

/-- `stage_cost` moved by an observation (R247). -/
def costNext (old : W32) (ns items : Nat) : W32 :=
  fadd old (fdiv (fsub (fdiv (fnat ns) (fnat items)) old) 0x41000000)

/-- A share has ended its stage: the cost is updated, the partial sums go to the stage's group, and
the next stage begins (R244, R247). -/
def State.endStage (p : Nat) (x : Share) (m : Model) (s : State) : State :=
  let n := (s.slot x.slot).nItems
  let cost := costNext (s.stageCost p x m) (s.tick - x.startTick) n
  let s := s.modCore p fun c => { c with stageCost := aset c.stageCost x.costKey cost }
  let s := s.trace x.cluster (stageRec p x 0)
  let s := s.modShare p x.slot x.slotGen fun y => { y with stage := y.stage + 1, started := false }
  s.contribute x.cluster (.stage (x.slot, x.slotGen, x.stage) false) (some x.sums)

end Sys2Proof.Machine
end

