-- ==== Sys2Proof/Machine/SpareOps.lean ====
section
/-! DEFINITION. Checks of on-die SRAM and table memories, and the spares they draw on (R330, R331,
R435). -/

namespace Sys2Proof.Machine

/-- The number of an SRAM kind in a scope word (R459). -/
def SramKind.code : SramKind → Nat
  | .localSram => 0 | .instr => 1 | .clusterStore => 2 | .reduceBuf => 3 | .dillBuf => 4
  | .chiveGroup => 5 | .packetBuf => 6 | .baySram => 7 | .tableMem => 8

/-- The scope word of an SRAM block (R459). -/
def blockWord (k : SramKind) (unit : Nat) : Nat := SramKind.code k * 2 ^ 24 + unit

/-- The 256-byte rows of a bank (R185, R192); 0 where all rows share the spares. Rows are numbered
bank by bank (notes/assumptions/25.md). -/
def bankRows : SramKind → Nat
  | .localSram => 24
  | .clusterStore => 256
  | _ => 0

/-- The spares of a bank, block or table (R435). Tables: 0 and 1 the rules of the pipelines, 2 the
IPv4 node pool, 3 the 16-bit and 7 the 8-bit IPv6 node pool, 4 the MAC table, 5 and 6 the flow caches
(notes/assumptions/25.md). -/
def sparesOf (k : SramKind) (unit : Nat) : Nat :=
  match k with
  | .localSram => 2
  | .instr => 4
  | .clusterStore => 4
  | .reduceBuf => 4
  | .dillBuf => 0
  | .chiveGroup => 16
  | .packetBuf => 256
  | .baySram => 32
  | .tableMem => if unit < 2 then 128 else if unit = 4 then 256 else if unit = 5 ∨ unit = 6 then 2048
      else 1024

/-- The key of the spares a row draws on. -/
def spareKey (k : SramKind) (unit row : Nat) : Nat × Nat :=
  (SramKind.code k, unit * 64 + row / bankRows k)

/-- The level of R8 and the unit of a block's Rosemary records. -/
def blockLevel : SramKind → Nat
  | .localSram => 0
  | .instr => 0
  | .clusterStore => 1
  | .reduceBuf => 1
  | .dillBuf => 1
  | _ => 4

/-- The `SRAM` record of a block (R450): 0 uncorrectable, 1 spare brought in, 2 spares spent. -/
def State.sramRecord (k : SramKind) (unit row sub : Nat) (s : State) : State :=
  s.record 0x0013 (blockLevel k) (if blockLevel k = 4 then 0 else unit) 0xFF (if sub = 0 then 2 else 1)
    [(32, blockWord k unit), (16, row), (8, sub)]

/-- What follows where no spare is left (R431, R435). -/
def State.sparesGone (k : SramKind) (unit row : Nat) (s : State) : State :=
  match k with
  | .localSram => if (s.logicalEntry unit).isSome then
      s.modCore unit fun c => { c with retiring := true } else s
  | .instr => if (s.logicalEntry unit).isSome then
      s.modCore unit fun c => { c with retiring := true } else s
  | .clusterStore => s.event 0 0x0012 [(32, blockWord k unit)] 0
  | .reduceBuf => s.event 0 0x0012 [(32, blockWord k unit)] 0
  | .chiveGroup => s.updParser fun p => { p with groupsOut := unit :: p.groupsOut.filter (· != unit) }
  | .tableMem =>
    if unit < 2 then s.updCls fun c => { c with
      pipes := tup c.pipes unit {} fun p => { p with deadRows := row :: p.deadRows.filter (· != row) } }
    else if unit = 2 ∨ unit = 3 ∨ unit = 7 then
      s.updCls fun c => { c with poolLost := tup c.poolLost unit 0 (· + 1) }
    else s
  | _ => s

/-- A memory's spares are told spent, once (R435). -/
def State.tellSpent (k : SramKind) (unit row : Nat) (s : State) : State :=
  if s.mem.emptyTold.contains (SramKind.code k, unit) then s
  else
    ((s.updMem fun m => { m with emptyTold := m.emptyTold ++ [(SramKind.code k, unit)] }).sramRecord k
      unit row 2).event 0 0x0013 [(32, blockWord k unit)] 0

/-- A row or entry meets its trigger: a spare is brought in, or none is left (R435). -/
def State.bringSpare (k : SramKind) (unit row : Nat) (s : State) : State :=
  let key := spareKey k unit row
  let used := (aget s.mem.sramSpares key).getD 0
  let s := s.updMem fun m => { m with
    sramMarks := adel m.sramMarks (SramKind.code k, unit, row) }
  if used < sparesOf k unit then
    let s := s.updMem fun m => { m with sramSpares := aset m.sramSpares key (used + 1) }
    let s := s.count (if k = .tableMem then Ctr.tblEntrySpared else Ctr.sramRowSpared)
      (blockWord k unit)
    (s.sramRecord k unit row 1).keep (.rows s.mem.sramSpares)
  else
    (s.count Ctr.sramSpareEmpty (blockWord k unit)).tellSpent k unit row |>.sparesGone k unit row

/-- A row was marked within the last 24 h. -/
def State.rowMarked (k : SramKind) (unit row : Nat) (s : State) : Bool :=
  match aget s.mem.sramMarks (SramKind.code k, unit, row) with
  | some t => decide (s.tick < t + day)
  | none => false

/-- A row marked now. -/
def State.markRow (k : SramKind) (unit row : Nat) (s : State) : State :=
  s.updMem fun m => { m with sramMarks := aset m.sramMarks (SramKind.code k, unit, row) s.tick }

/-- The core has spent the spare rows of its instruction memory or of a bank of its local SRAM (R431, R435).
[DEDUCED: notes/assumptions/138.md] -/
def State.rowsSpent (core : Nat) (s : State) : Bool :=
  s.mem.sramSpares.any fun e =>
    (e.1 == (SramKind.code .instr, core * 64) && decide (4 ≤ e.2)) ||
      (e.1.1 == SramKind.code .localSram && e.1.2 / 64 == core && decide (2 ≤ e.2))

/-- A counted fault of any kind on a core that serves as a spare and has spent its spare rows retires it
(R431). [DEDUCED: notes/assumptions/138.md] -/
def State.spareFault (core : Nat) (s : State) : State :=
  if ((s.logicalEntry core).any fun l => l.2.state == 2) && s.rowsSpent core then
    s.modCore core fun c => { c with retiring := true }
  else s

/-- A corrected word of a row (R325, R330, R435). Whether a second one within 24 h is the same word
again is open. [DESIGN CHOICE: notes/assumptions/64.md] -/
def State.sramCorrected (k : SramKind) (unit row : Nat) (s : State) : State :=
  let s := s.count Ctr.sramCe (blockWord k unit)
  if k = .tableMem ∨ sparesOf k unit = 0 then s
  else if !s.rowMarked k unit row then s.markRow k unit row
  else if Config.freeBool s.freeCount then
    ({ s with freeCount := s.freeCount + 1 }).bringSpare k unit row
  else ({ s with freeCount := s.freeCount + 1 }).markRow k unit row

/-- An uncorrectable word of a row that is not poisoned (R325, R331, R435): a spare at once, or for a
table's entry at its second within 24 h. -/
def State.sramUncorrectable (k : SramKind) (unit row : Nat) (s : State) : State :=
  let s := (s.count Ctr.sramUe (blockWord k unit)).sramRecord k unit row 0
  if sparesOf k unit = 0 then s
  else if k = .tableMem ∧ !s.rowMarked k unit row then s.markRow k unit row
  else s.bringSpare k unit row

/-- The region on which a poisoned word of an SRAM is counted: that of its core or cluster, or 0 on the X die.
[DESIGN CHOICE: notes/assumptions/64.md] -/
def sramRegion (k : SramKind) (unit : Nat) : Nat :=
  match k with
  | .localSram | .instr => coreRegion unit
  | .clusterStore | .reduceBuf | .dillBuf => unit / 16
  | _ => 0

/-- A check of a row by its outcome (R325). A poisoned word is counted as such and draws no spare (R331, R429).
[DESIGN CHOICE: notes/assumptions/64.md] -/
def State.sramChecked (k : SramKind) (unit row : Nat) (check : WordCheck) (s : State) : State :=
  let u := if k = .localSram ∨ k = .instr then s.spareFault unit else s
  match check with
  | .clean => s
  | .corrected => u.sramCorrected k unit row
  | .uncorrectable => u.sramUncorrectable k unit row
  | .poisoned => s.count Ctr.memPoisonRead (sramRegion k unit)

end Sys2Proof.Machine
end

