-- ==== Sys2Proof/Machine/Requests.lean ====
section
/-! DEFINITION. Requests: admission of ring entries and deep-path frames, the start of a request on
its clusters, kernel steps and encoders, walks, cut-offs, and packet-model calls (R98, R105 to R107,
R242 to R253, R262, R269, R302 to R308, R315, R316). -/

namespace Sys2Proof.Machine

/-! ### A `REQUEST` entry (R98) -/

/-- The fields of a `REQUEST` entry. -/
structure Req where
  flags : Nat
  model : Nat
  cookie : W64
  deadline : Nat
  blobAddr : Nat
  blobLen : Nat
  nItems : Nat
  keys : Tab W64
  inl : List (Nat × W32)
  formBad : Bool
  deriving DecidableEq, Repr

/-- Whether the verdict's scores are asked for: the model's own setting. The fields of an entry. -/
def parseReq (wide : Bool) (ws : List W64) : Req :=
  let w (i : Nat) : Nat := (wordOf ws i).toNat
  let flags := headFlags (wordOf ws 0)
  let inls := if wide then (List.range 7).map fun i => w (9 + i) else []
  let keyOn (i : Nat) : Bool := flags.testBit i && (wide || decide (i < 3))
  let len := w 4 % 2 ^ 32
  let addr := w 3 % 2 ^ 48
  { flags := flags, model := headData (wordOf ws 0), cookie := wordOf ws 1, deadline := w 2
    blobAddr := addr, blobLen := len, nItems := bitsOf (w 4) 47 32
    keys := ((List.range 4).filter keyOn).map fun i => (i, wordOf ws (5 + i))
    inl := (inls.filter fun v => v % 2 ^ 16 != 0xFFFF).map fun v =>
      (v % 2 ^ 16, BitVec.ofNat 32 (v / 2 ^ 32))
    formBad := bitsOf flags 6 4 != 0 || (!wide && flags.testBit 3) || bitsOf (w 4) 63 48 != 0 ||
      bitsOf (w 3) 63 48 != 0 || len % 4 != 0 || decide (2 ^ 20 < len) || addr % 4 != 0 ||
      inls.any fun v => bitsOf v 31 16 != 0 }

/-- A range lies in a window open for a partition with a right (0 read, 1 write). -/
def State.inWindow (part right a n : Nat) (s : State) : Bool :=
  (List.range 16).any fun k => match tget s.ouv.windows (winKey part k) with
    | some w => w.rights.testBit right && decide (w.base ≤ a) && decide (a + n ≤ w.base + w.pages * 4096)
    | none => false

/-- The indices that inline features may name (R302). -/
def Model.inlineDeclared (m : Model) (i : Nat) : Bool :=
  m.inputs.any fun x => x.kind == 0 && decide (x.featBase ≤ i) && decide (i < x.featBase + x.count)

/-- The items of a request: 0 counts as 1. -/
def Req.items (q : Req) : Nat := max 1 q.nItems

/-- The groups of a request would not fit (R244). -/
def Model.tooLong (m : Model) (items : Nat) : Bool :=
  m.ensemble && (decide (4096 < items * m.params.nOut) ||
    decide (131072 < m.stages.length * (items * m.params.nOut) * 4))

/-- The status a `REQUEST` is refused with (R98, R101, R244, R303). -/
def State.reqRefusal (part : Nat) (q : Req) (s : State) : Option Status :=
  if q.formBad then some .eArg
  else match s.liveModel part q.model with
    | none => some .eState
    | some m =>
      if 0 < q.blobLen ∧ !s.inWindow part 0 q.blobAddr q.blobLen then some .ePriv
      else if m.params.nItemsMax < q.items ∨ (q.inl.any fun e => !m.inlineDeclared e.1) ∨
          m.tooLong q.items then some .eArg
      else if m.params.scoresOut ∧ (q.blobLen = 0 ∨ !s.inWindow part 1 q.blobAddr q.blobLen) then
        some .ePriv
      else none

/-- The generations stamped on a request (R287). -/
def State.stampGens (m : Model) (s : State) : Tab Nat :=
  m.tables.foldl (fun t k => match (s.table k).bind (·.genIn .current) with
    | some g => tset t k g.g
    | none => t) []

/-! ### Placing a request (R131, R308) -/

/-- The hash of a `REQUEST` entry (R132). -/
def State.reqHash (part ring : Nat) (i : W32) (q : Req) (s : State) : Nat :=
  let c := tgetD s.parser.spread part {}
  toeplitz c.key (match tget q.keys 0 with
    | some k => beBytes 8 k.toNat
    | none => beBytes 2 ring ++ beBytes 4 i.toNat)

/-- A placement core that a model uses: one with trees, or of a placement cluster that a step runs on (R305,
R306). -/
def Model.usesCore (m : Model) (pclust core : Nat) : Bool :=
  m.places.any (fun x => x.pclust == pclust && x.pcore == core) ||
    m.steps.any fun x => decide (x.pcFirst ≤ pclust) && decide (pclust < x.pcFirst + x.pcCount)

/-- The logical cores of a binding that the model uses. -/
def Model.bindingCores (m : Model) (b : Binding) : List Nat :=
  (numbered b.cores).flatMap fun e =>
    ((numbered e.2).filter fun k => m.usesCore e.1 k.1).map (·.2)

/-- A binding whose clusters and cores still serve the partition (R308). -/
def State.bindingWhole (part : Nat) (m : Model) (b : Binding) (s : State) : Bool :=
  b.clusters.all (fun c => s.serves part c) && (m.bindingCores b).all fun k => (s.physOf k).isSome

/-- The binding of a request under a lead cluster (R308). -/
def State.chooseBinding (part lead : Nat) (m : Model) (s : State) : Option Binding :=
  let n := m.bindings.length
  let first := (idxOf? (fun b : Binding => b.clusters.contains lead) m.bindings).getD (lead % n)
  ((List.range n).filterMap fun j => m.bindings[(first + j) % n]?).find? fun b => s.bindingWhole part m b

/-- The deadline of a request: its value before the clamp (R315). -/
def rawDeadline (rel : Bool) (deadline admitAt dflt : Nat) : Nat :=
  if deadline = 0 then admitAt + dflt else if rel then admitAt + deadline else deadline

/-- A slot with its deadline clamped to the model's longest budget. -/
def State.clampDeadline (k d : Nat) (m : Model) (s : State) : State :=
  let x := s.slot k
  let most := x.admitAt + m.params.maxBudget
  let s := s.modSlot k fun x => { x with deadline := min d most }
  if most < d then s.count Ctr.dlClamped (modelScope x.part x.model) else s

/-- A slot stamped, with its deadline: it is placed under a lead cluster, or gets rung 3 (R315,
R316). -/
def State.placeSlot (k : Nat) (lead : Option Nat) (m : Model) (s : State) : State :=
  let x := s.slot k
  if s.cutoff k ≤ x.admitAt then s.postDefault k 2
  else match lead with
    | none => s.postDefault k 5
    | some c =>
      match s.chooseBinding x.part c m with
      | none => s.postDefault k 5
      | some b => s.modSlot k fun x => { x with lead := c, binding := b.clusters }

/-- A `REQUEST` entry admitted (R106). -/
def State.admitReq (ring : Nat) (i : W32) (q : Req) (m : Model) (s : State) : State :=
  let p := (s.ring ring).owner
  let f := s.pickSlot
  let k := f.1
  let s := f.2
  let s := (s.modRing ring fun r => { r with
    opened := r.opened ++ [i]
    inflight := r.inflight + 1 }).consume ring 1
  let s := s.setSlot k
    { state := .admitted, part := p, token := (s.part p).token, gen := (s.slot k).gen, model := q.model,
      epoch := (s.domain p).epoch, tgens := s.stampGens m, admitAt := s.tick, src := .ring ring i,
      cookie := q.cookie, nItems := q.items, keys := q.keys, blobAddr := q.blobAddr,
      blobLen := q.blobLen, inl := q.inl.foldl (fun t e => tset t e.1 e.2) [] }
  let s := s.clampDeadline k (rawDeadline (q.flags.testBit 7) q.deadline s.tick
    m.params.defaultBudget) m
  let l := s.spread p (s.reqHash p ring i q) false
  l.2.placeSlot k (match l.1 with
    | .cluster c => some c
    | _ => none) m

/-- An entry that finds no slot waits on its ring, counted once (R107). -/
def State.waitSlot (ring : Nat) (i : W32) (s : State) : State :=
  if (s.ring ring).slotWait = some i then s
  else (s.modRing ring fun r => { r with slotWait := some i }).count Ctr.slotExhaustedReq
    (s.ring ring).owner

/-- `REQUEST_ADMIT` (R98, R106, R107): the ring's next entry is checked and takes a slot. -/
def execRequestAdmit (t ring : Nat) (s : State) : Host.Outcome State Fault Refusal :=
  s.onCtx t ring (fun s => s.admits ring && (s.ring ring).rtype == 1) fun s =>
    s.nextEntry ring 0x01 fun i ws s =>
      let r := s.ring ring
      let q := parseReq (r.esize == 1) ws
      match s.reqRefusal r.owner q, s.liveModel r.owner q.model with
      | some st, _ => s.refuseEntry ring i ws 1 st
      | none, some m =>
        if s.canServe r.owner then s.admitReq ring i q m
        else s.waitSlot ring i
      | none, none => s

/-- When the entry at the head of a ring became admissible: with the doorbell that covers it (R93). -/
def Ring.since (r : Ring) : Nat :=
  ((r.avail.find? fun e => idxAbove e.1 r.consIdx).map (·.2)).getD 0

/-- The wait limit of an entry (R107). -/
def Ring.waitLimit (r : Ring) (q : Req) (m : Model) : Nat :=
  if q.deadline = 0 then r.since + m.params.defaultBudget
  else if q.flags.testBit 7 then r.since + min q.deadline m.params.maxBudget
  else q.deadline

/-- `SLOT_WAIT_EXPIRY` (R107): rung 3 with reason 4, and the entry is consumed. The entry was never
admitted, so its admission tick is open. -/
def execSlotWaitExpiry (t ring : Nat) (s : State) : Host.Outcome State Fault Refusal :=
  s.onCtx t ring (fun s => s.stands ring && (s.ring ring).slotWait == some (s.ring ring).consIdx) fun s =>
    s.nextEntry ring 0x01 fun i ws s =>
      let r := s.ring ring
      let q := parseReq (r.esize == 1) ws
      match s.liveModel r.owner q.model with
      | none => s
      | some m =>
        if s.tick < r.waitLimit q m then s
        else
          let f := s.fresh
          let s := f.2
          let v := (m.defaultVerdict 4).stamp (f.1 % 2 ^ 64) s.tick (s.domain r.owner).epoch r.owner
          let s := (s.countVerdict r.owner v).consume ring 1
          (s.modRing ring fun r => { r with opened := r.opened ++ [i] }).ringItem r.cqRing
            (verdictItem ring i q.cookie .ok (verdictWords v))

/-! ### Deep-path frames (R105 to R107, R126, R131, R134) -/

/-- A frame handed to egress with what was decided before the deep path: its packet model's verdict,
or its rule. -/
def State.noVerdict (id : Nat) (s : State) : State :=
  s.modFrame id fun f => { f with
    stage := .egress
    decision := some (match f.pmVerdict with
      | some v => .verdict v
      | none => .rule) }

/-- A frame handed to egress with no verdict: its rule's `fwd_action` acts (R134, R163). -/
def State.ruleDecides (id : Nat) (s : State) : State :=
  s.modFrame id fun f => { f with stage := .egress, decision := some .rule }

/-- A rung-3 verdict for a frame with no slot. -/
def State.slotless (id part reason : Nat) (m : Model) (s : State) : State :=
  let v := (m.defaultVerdict reason).stamp s.tick s.tick (s.domain part).epoch part
  (s.countVerdict part v).frameVerdict id v

/-- A slotted frame goes to its scan, or on at once (R126, R129, R130). -/
def State.toScan (id k : Nat) (f : Frame) (a : RuleAction) (s : State) : State :=
  let deep (st : Nat) (s : State) : State :=
    (s.modSlot k fun x => { x with matched := { x.matched with status := st } }).modFrame id
      fun f => { f with stage := .deep }
  if !a.scanEn then deep 1 s
  else if f.pflag 11 then deep 2 s
  else if 4096 ≤ s.scanQueue.length then deep 3 (s.tally Ctr.scanOverload)
  else s.modFrame id fun f => { f with stage := .scanQueue }

/-- A frame takes a slot of its deep partition, and is placed. -/
def State.admitFrameDeep (id : Nat) (f : Frame) (a : RuleAction) (m : Model) (s : State) : State :=
  let p := a.deepPart
  let c := s.pickSlot
  let k := c.1
  let s := c.2.setSlot k
    { state := .admitted, part := p, token := (c.2.part p).token, gen := (c.2.slot k).gen,
      model := a.deepModel, epoch := (c.2.domain p).epoch, tgens := c.2.stampGens m,
      deadline := c.2.tick + m.params.defaultBudget, admitAt := c.2.tick, src := .frame id }
  let s := s.modFrame id fun f => { f with slot := some k }
  let l := s.spread p (s.frameHash p f) true
  let s := l.2
  match l.1 with
  | .ring n =>
    (((s.copyFrame n f 6 none).freeSlot k).modFrame id fun f => { f with slot := none }).tally
      Ctr.spreadToRing |>.ruleDecides id
  | .nowhere => s.placeSlot k none m
  | .cluster c =>
    let s := s.placeSlot k (some c) m
    if (s.slot k).state = .admitted then s.toScan id k f a else s

/-- A frame admitted to the deep path (R105, R107, R313, R438). -/
def State.deepAdmit (id : Nat) (s : State) : State :=
  match s.frame id with
  | none => s
  | some f =>
    match f.act with
    | none => s
    | some a =>
      match s.liveModel a.deepPart a.deepModel with
      | none => (s.modFrame id fun f => { f with
          stage := .egress, decision := some .unclassified }).count Ctr.clsNoModel f.ifc
      | some m =>
        let p := s.part a.deepPart
        let s := s.modFrame id fun f => { f with
          heldSince := s.tick, set := { f.set with holdMax := s.eg.holdMax } }
        if p.reinit.isSome ∨ p.revoking then s.slotless id a.deepPart 8 m
        else if !s.canServe a.deepPart then
          (s.count Ctr.slotExhaustedPkt a.deepPart).slotless id a.deepPart 4 m
        else s.admitFrameDeep id f a m

/-- A frame after its packet model: the deep path where its rule asks for it, else egress. -/
def State.afterPacketModel (id : Nat) (s : State) : State :=
  match (s.frame id).bind (·.act) with
  | some a => if a.deepEn then s.deepAdmit id else s.noVerdict id
  | none => s.noVerdict id

/-! ### A request's inputs (R301, R302) -/

/-- What a feature is when its item's vector is built. -/
inductive FeatIn where
  | val (w : W32)
  | pending
  | missing
  deriving DecidableEq, Repr

/-- A present value, or missing. -/
def optIn : Option W32 → FeatIn
  | some w => .val w
  | none => .missing

/-- The frame behind a slot. -/
def State.slotFrame (x : Slot) (s : State) : Option Frame :=
  match x.src with
  | .frame id => s.frame id
  | .ring _ _ => none

/-- The partner of an interface in an inline pair; the interface itself otherwise. -/
def State.pairPartner (i : Nat) (s : State) : Nat :=
  ((s.pairs.findSome? fun p => if p.1 = i then some p.2 else if p.2 = i then some p.1 else none)).getD i

/-- The reverse key of a frame, and the pipeline it belongs to (R262). -/
def State.reverseKey (f : Frame) (s : State) : FlowKey × Nat :=
  let i := s.pairPartner f.ifc
  let p := portOf i
  let k := f.key
  let r := { k with
    srcIp := k.dstIp, dstIp := k.srcIp, srcPort := k.dstPort, dstPort := k.srcPort, inIf := i }
  (keySorted (s.pipe p).flowSym r, p)

/-- A model declares reverse features. -/
def Model.wantsReverse (m : Model) : Bool := m.inputs.any fun x => x.kind == 3 && decide (128 ≤ x.argA)

/-- The reverse lookup is made: not where the frame's own record covers both directions. -/
def State.reverseDue (m : Model) (f : Frame) (s : State) : Bool :=
  m.wantsReverse &&
    !((s.pipe (portOf f.ifc)).flowSym && (s.reverseKey f).2 == portOf f.ifc)

/-- A blob word of a request that can be read. -/
def State.blobWord (x : Slot) (off n : Nat) (s : State) : Option Nat :=
  if off + n ≤ x.blobLen ∧ s.mem.readable (x.blobAddr + off) n then some (s.leAt (x.blobAddr + off) n)
  else none

/-- A blob word that lies in the blob but cannot be read. -/
def State.blobBad (x : Slot) (off n : Nat) (s : State) : Bool :=
  decide (off + n ≤ x.blobLen) && !s.mem.readable (x.blobAddr + off) n

/-- The blob offset of a blob value (R302). -/
def InputRec.blobOff (r : InputRec) (item j : Nat) : Nat :=
  r.argC + (if r.perItem then item * r.argB else 0) + 4 * j

/-- The key source of a fetch, and its first value. -/
def InputRec.keySrc (r : InputRec) : Nat := r.argB / 2 ^ 28
def InputRec.firstVal (r : InputRec) : Nat := r.argB / 2 ^ 20 % 256

/-- The blob offset of a blob key: one key serves every item with `per_item` 0 (R302). -/
def InputRec.keyOff (r : InputRec) (item : Nat) : Nat :=
  r.argC + (if r.perItem then item * (r.argB % 2 ^ 20) else 0)

/-- The key of a fetch; none where its source is not valid (R282, R302). -/
def State.fetchKey (x : Slot) (r : InputRec) (item : Nat) (s : State) : Option W64 :=
  match r.keySrc with
  | 4 => (s.blobWord x (r.keyOff item) 8).map (BitVec.ofNat 64)
  | 5 => (s.slotFrame x).map fun f => BitVec.ofNat 64 (f.record.toNat / 2 ^ r.argC)
  | n => tget x.keys n

/-- What an input record gives feature `j` of an item (R302). -/
def State.featIn (m : Model) (x : Slot) (r : InputRec) (item j : Nat) (s : State) : FeatIn :=
  let f := s.slotFrame x
  match r.kind with
  | 0 => optIn (tget x.inl (r.featBase + j))
  | 1 => optIn ((s.blobWord x (r.blobOff item j) 4).map (BitVec.ofNat 32))
  | 2 => optIn (f.map fun f => fnat (f.record.toNat / 2 ^ r.argA % 2 ^ r.argB))
  | 3 =>
    if r.argA < 128 then optIn (f.bind fun f => tget f.flowFeats r.argA)
    else match f with
      | some f => if s.reverseDue m f then .pending else .missing
      | none => .missing
  | 4 =>
    if x.matched.status ≠ 0 then .missing
    else if r.argA = 0xFFFF then .val (fnat x.matched.nMatches)
    else .val (fnat (bit (x.matched.groupMap.contains r.argA)))
  | 5 => if (s.fetchKey x r item).isSome then .pending else .missing
  | 6 =>
    match tget s.bases r.argA with
    | some b => if b.state = 0 then .missing else .val b.z
    | none => .missing
  | _ => .pending

/-- One feature set in an item being built. -/
def Item.put (feat : Nat) (v : FeatIn) (x : Item) : Item :=
  match v with
  | .val w => { x with vals := tset x.vals feat w }
  | .pending => { x with pending := x.pending ++ [feat] }
  | .missing => x

/-- The features that a `FEATURE` step writes. -/
def Step.feats (x : Step) : List Nat :=
  if x.phase = 0 then (List.range x.featCount).map fun j => x.featBase + j else []

/-- The vector of an item (R233, R302). -/
def State.buildItem (m : Model) (x : Slot) (item : Nat) (s : State) : Item :=
  let v := m.inputs.foldl (fun v r =>
    (List.range r.count).foldl (fun v j => v.put (r.featBase + j) (s.featIn m x r item j)) v)
    ({} : Item)
  (m.steps.flatMap Step.feats).foldl (fun v f => v.put f .pending) v

/-- The blob words of a request that cannot be read: values and fetch keys (R331). -/
def State.blobFaults (m : Model) (x : Slot) (s : State) : Nat :=
  ((List.range x.nItems).map fun item => (m.inputs.map fun r =>
    match r.kind with
    | 1 => if r.perItem ∨ item = 0 then
        ((List.range r.count).filter fun j => s.blobBad x (r.blobOff item j) 4).length else 0
    | 5 => if r.keySrc = 4 ∧ (r.perItem ∨ item = 0) then bit (s.blobBad x (r.keyOff item) 8) else 0
    | _ => 0).sum).sum

/-- The parts of the blob that a request's features and fetch keys come from: offset and length. -/
def Model.blobParts (m : Model) (items : Nat) : List (Nat × Nat) :=
  (List.range items).flatMap fun item => m.inputs.flatMap fun r =>
    if !r.perItem && item != 0 then []
    else match r.kind with
      | 1 => (List.range r.count).map fun j => (r.blobOff item j, 4)
      | 5 => if r.keySrc = 4 then [(r.keyOff item, 8)] else []
      | _ => []

/-- A part of a blob is read, where it lies in the blob (R325). -/
def State.touchBlob (x : Slot) (off n : Nat) (s : State) : State :=
  if off + n ≤ x.blobLen then s.touch (x.blobAddr + off) n 0 else s

/-! ### Fetches of a request (R282 to R284) -/

/-- The values that a declaration maps from a table: the lowest, and the number up to the highest (R355). -/
def Model.spanOf (m : Model) (table : Nat) : Nat × Nat :=
  let vs := (m.inputs.filter fun r => r.kind == 5 && r.argA == table).flatMap fun r =>
    (List.range r.count).map (r.firstVal + ·)
  (minOf vs, maxOf vs + 1 - minOf vs)

/-- One fetch issued for a slot. -/
def State.fetchOne (k : Nat) (m : Model) (r : InputRec) (item : Option Nat) (s : State) : State :=
  let x := s.slot k
  match s.fetchKey x r (item.getD 0) with
  | none => s
  | some key =>
    let f : Fetch :=
      { slot := k, slotGen := x.gen, token := x.token, cluster := x.lead, table := r.argA,
        g := (tget x.tgens r.argA).getD 0, key := key, item := item,
        vmap := (List.range r.count).map fun j => (r.firstVal + j, r.featBase + j), vspan := m.spanOf r.argA,
        issue := s.tick, endTick := s.cutoff k, cut := s.cutoff k }
    match (tget x.tgens r.argA).bind fun g => s.genOf r.argA g with
    | none => s.endOne f .noGen
    | some (tb, g) =>
      let budget := if s.isRemote tb g key then tb.remoteBudget else tb.localBudget
      s.issueFetch { f with endTick := min (s.tick + budget) f.cut }

/-- The fetches of a slot put in the queue, in the order of the declaration, then by item. -/
def State.queueAll (k : Nat) (m : Model) (s : State) : State :=
  (m.inputs.filter fun r => r.kind == 5).foldl (fun s r =>
    (if r.perItem then (List.range (s.slot k).nItems).map some else [none]).foldl
      (fun s item => s.fetchOne k m r item) s) s

/-- The fetches of a slot: all of them join within the request before the first starts (R284). -/
def State.fetchAll (k : Nat) (m : Model) (s : State) : State :=
  let n := s.models.nextTag
  let s := s.queueAll k m
  (((s.models.fetches.filter fun e => e.2.startsFrom n e.1).map (·.1)).foldl
    (fun s tag => s.launchFetch tag) s).unparkAll

/-! ### Features written by steps and encoders -/

/-- Features settled in every item with values for each item, missing where there is none. -/
def State.settleFeats (k : Nat) (feats : List Nat) (val : Nat → Nat → Option W32) (s : State) :
    State :=
  (s.modSlot k fun x => feats.foldl (fun x f =>
    (List.range x.nItems).foldl (fun x i => x.settle (some i) f (val i f)) x) x).wakeWalks k
      (s.slot k).gen

/-- A launch for a core, behind those that wait there (R198); it will not start where the core's cluster is
leaving its owner, or has another than the launch's (R204). [DEDUCED: notes/assumptions/131.md] -/
def State.pushLaunch (p : Nat) (l : Launch) (s : State) : State :=
  let c := s.cluster (s.coreCluster p)
  s.modCore p fun x => { x with
    waiting := x.waiting ++ [{ l with barred := c.leaving.isSome || c.owner != l.part }] }

/-- The launch of a slot's step or encoder. -/
def slotLaunch (k : Nat) (x : Slot) (kernel layer op arg len deadline : Nat) : Launch :=
  { desc :=
      { slotDesc k x.gen with
        kernel := kernel, layerId := layer, opId := op, argAddr := arg, argLen := len
        deadline := deadline }
    part := x.part, token := x.token, asker := none, work := some (x.part, x.epoch)
    stamp := (x.epoch, x.tgens) }

/-- The kernel number that stands for a session encoder: past every handle. -/
def encoderBase : Nat := 0x10000

/-- A launch stands for an encoder of a slot. -/
def encodesFor (k gen : Nat) (d : LaunchDesc) : Bool :=
  d.slotV && d.slot == k && d.slotGen == gen && decide (encoderBase ≤ d.kernel)

/-- The physical cores of some placement clusters of a slot. -/
def State.stepCores (x : Slot) (st : Step) (s : State) : List Nat :=
  ((x.binding.drop st.pcFirst).take st.pcCount).flatMap fun c => s.coresIn c

/-- A model's score comes from a `SCORE` step. -/
def Model.kernelScore (m : Model) : Bool := (m.steps.getLast?.map (·.phase)) == some 1

/-- The slot's next step is launched on every core of its clusters, unless it would end too late:
then it and every later one do not run (R306). -/
def State.launchStep (k : Nat) (m : Model) (s : State) : State :=
  let x := s.slot k
  match m.steps[x.step]? with
  | none => s
  | some st =>
    let c := s.cutoff k
    if c < s.tick + st.est then
      let s := (s.settleFeats k ((m.steps.drop x.step).flatMap Step.feats) fun _ _ => none).modSlot k
        fun x => { x with stepsCut := true }
      if m.kernelScore then s.postDefault k 2 else s
    else
      let ps := s.stepCores x st
      let s := s.modSlot k fun x => { x with stepLeft := ps.length }
      ps.foldl (fun s p => s.pushLaunch p
        (slotLaunch k x st.kernel st.layerId st.opId (m.argBase + st.argOff) st.argLen c)) s

/-- Free values, one for each item and feature. [DESIGN CHOICE: notes/assumptions/53.md] -/
def State.freeFeats (n nFeat : Nat) (s : State) : (Nat → Nat → Option W32) × State :=
  let base := s.freeCount
  (fun i f => some (BitVec.ofNat 32 (Config.free (base + i * nFeat + f))),
   { s with freeCount := base + n * nFeat })

/-- The score sums of a completed `SCORE` step: those a reduce group has brought to the slot; what
the kernel leaves otherwise is open. [DESIGN CHOICE: notes/assumptions/53.md] -/
def State.scoreSums (x : Slot) (m : Model) (s : State) : List W32 × State :=
  let n := x.nItems * m.params.nOut
  match tget x.stageSums 0 with
  | some (v, _, _) => ((List.range n).map fun i => (v[i]?).getD 0, s)
  | none =>
    ((List.range n).map fun i => BitVec.ofNat 32 (Config.free (s.freeCount + i)),
     { s with freeCount := s.freeCount + n })

/-- A step has ended on every core (R306). [DESIGN CHOICE: notes/assumptions/53.md] -/
def State.stepDone (k : Nat) (m : Model) (s : State) : State :=
  let x := s.slot k
  match m.steps[x.step]? with
  | none => s
  | some st =>
    if st.phase = 1 then
      if x.stepFail then s.postDefault k 7
      else
        let r := s.scoreSums x m
        r.2.postScores k m (List.replicate 16 (0x3F800000, 0)) 1 1 r.1
    else
      let r := s.freeFeats x.nItems m.params.nFeat
      let s := r.2.settleFeats k st.feats (if x.stepFail then fun _ _ => none else r.1)
      let s := s.modSlot k fun x => { x with step := x.step + 1 }
      if x.stepFail then s.postDefault k 7 else s.launchStep k m

/-- One core has ended a slot's step; `ok` says with status `DONE`. A message that does not match the
slot is stale (R106). -/
def State.stepCoreEnd (k gen token : Nat) (ok : Bool) (s : State) : State :=
  let x := s.slot k
  if !s.slotMatch k gen token then s.tally Ctr.staleCompletion
  else if x.state ≠ .running ∨ x.stepLeft = 0 then s
  else
    let s := s.modSlot k fun x => { x with
      stepLeft := x.stepLeft - 1
      stepFail := x.stepFail || !ok }
    match s.slotModel k with
    | some m => if (s.slot k).stepLeft = 0 then s.stepDone k m else s
    | none => s

/-! ### Session encoders (R269) -/

/-- The encoder's cell. -/
def Model.encCell (m : Model) (idx : Nat) : Option Cell :=
  (m.inputs[idx]?).bind fun r => m.cells[r.argA]?

/-- The features an encoder writes. -/
def Model.encFeats (m : Model) (idx : Nat) : List Nat :=
  match m.inputs[idx]? with
  | some r => (List.range 64).map fun j => r.featBase + j
  | none => []

/-- The bytes of an encoder's count and events; none where T or the blob's length does not allow
them. -/
def State.encBytes (x : Slot) (r : InputRec) (c : Cell) (s : State) : Option Nat :=
  if x.blobLen < r.argC + 4 then none
  else
    let t := s.leAt (x.blobAddr + r.argC) 4
    if t = 0 ∨ 256 < t ∨ x.blobLen < r.argC + 4 + t * c.nIn * 2 then none
    else some (4 + t * c.nIn * 2)

/-- The state after the encoder's events. -/
def State.encode (x : Slot) (r : InputRec) (c : Cell) (s : State) : List W32 :=
  let a := x.blobAddr + r.argC
  (List.range (s.leAt a 4)).foldl (fun h j =>
    cellStep c ((List.range c.nIn).map fun i => bfUp (s.leAt (a + 4 + (j * c.nIn + i) * 2) 2)) h)
    (List.replicate 64 0)

/-- An encoder starts, or ends at once with its features missing. -/
def State.startEncoder (k : Nat) (m : Model) (idx : Nat) (s : State) : State :=
  let x := s.slot k
  match m.inputs[idx]?, m.encCell idx with
  | some r, some c =>
    let missing (s : State) : State := s.settleFeats k (m.encFeats idx) fun _ _ => none
    let s := s.touchBlob x r.argC 4
    if s.blobBad x r.argC 4 then missing (s.count Ctr.blobFault x.part)
    else match s.encBytes x r c with
      | none => missing (s.count Ctr.encBad (modelScope x.part x.model))
      | some n =>
        let s := s.touchBlob x (r.argC + 4) (n - 4)
        if s.blobBad x r.argC n then missing (s.count Ctr.blobFault x.part)
        else
          let f := s.fresh
          let ps := x.binding.flatMap fun c => f.2.coresIn c
          let s := f.2.modSlot k fun x => { x with encoders := x.encoders ++ [idx] }
          s.pushLaunch ((ps[f.1 % ps.length]?).getD 0)
            (slotLaunch k x (encoderBase + idx) 0 0 0 0 (s.cutoff k))
  | _, _ => s

/-- How an encoder ends: its values, or missing with a counter. -/
inductive EncEnd where
  | done | late | fault (core : Nat)
  deriving DecidableEq, Repr

/-- An encoder of a slot has ended. A message that does not match the slot is stale (R106). -/
def State.encoderEnd (k gen token idx : Nat) (r : EncEnd) (s : State) : State :=
  let x := s.slot k
  if !s.slotMatch k gen token then s.tally Ctr.staleCompletion
  else if x.state ≠ .running ∨ !x.encoders.contains idx then s
  else
    let s := s.modSlot k fun x => { x with encoders := x.encoders.filter (· != idx) }
    match s.slotModel k with
    | none => s
    | some m =>
      match r, m.inputs[idx]?, m.encCell idx with
      | .done, some y, some c =>
        let h := s.encode x y c
        s.settleFeats k (m.encFeats idx) fun _ f => h[f - y.featBase]?
      | .late, _, _ => (s.count Ctr.encLate (modelScope x.part x.model)).settleFeats k (m.encFeats idx)
          fun _ _ => none
      | .fault p, _, _ => (s.count Ctr.rsJobFault p).settleFeats k (m.encFeats idx) fun _ _ => none
      | _, _, _ => s

/-! ### `RUNNING` (R106, R244, R284) -/

/-- The placement cores of a placement cluster that hold trees of a stage. -/
def Model.stageCores (m : Model) (pclust stage : Nat) : List Nat :=
  (List.range 16).filter fun k => !(m.stageTrees pclust k stage).isEmpty

/-- The placement clusters that hold trees of a stage. -/
def Model.stageClusts (m : Model) (stage : Nat) : List Nat :=
  (List.range m.nPclust).filter fun c => !(m.stageCores c stage).isEmpty

/-- The groups of a slot: the lead cluster's, and those of each placement cluster (R244). -/
def State.openGroups (k : Nat) (m : Model) (s : State) : State :=
  let x := s.slot k
  let len := x.nItems * m.params.nOut
  let c := s.cutoff k
  (List.range m.stages.length).foldl (fun s st =>
    let lead : Group :=
      { op := 0, len := len, expected := (m.stageClusts st).length, closeTick := c + 500,
        dest := .slot k x.gen st, slot := some (k, x.gen, st) }
    let s := s.modCluster x.lead fun y => y.open s.tick lead
    (m.stageClusts st).foldl (fun s pc =>
      let g : Group :=
        { op := 0, len := len, expected := (m.stageCores pc st).length, closeTick := c,
          dest := .group x.lead 0, slot := some (k, x.gen, st) }
      s.modCluster ((x.binding[pc]?).getD 0) fun y => y.open s.tick g) s) s

/-- A share placed on its core; a core that is lost voids its stages (R15, R244). Which context runs the ensemble
there is open. [DESIGN CHOICE: notes/assumptions/130.md] -/
def State.placeShare (k : Nat) (m : Model) (b : Binding) (pc core : Nat) (s : State) : State :=
  let x := s.slot k
  let c := (x.binding[pc]?).getD 0
  let y : Share :=
    { slot := k, slotGen := x.gen, domain := x.part, model := x.model, epoch := x.epoch, pclust := pc,
      cluster := c, pcore := core }
  let stages := m.shareStages y
  if stages.isEmpty then s
  else match (((b.cores[pc]?).bind fun l => l[core]?).bind fun l => s.physOf l) with
    | some p =>
      let f := s.fresh
      f.2.modCore p fun z => { z with shares := z.shares ++ [{ y with ctx := freeBelow 4 f.1 }] }
    | none => (s.stageLost k x.gen y.stage).voidStages c k x.gen stages

/-- The shares of a slot placed on every core of its binding. -/
def State.placeShares (k : Nat) (m : Model) (s : State) : State :=
  match m.bindings.find? fun b => b.clusters == (s.slot k).binding with
  | none => s
  | some b => (List.range m.nPclust).foldl (fun s pc =>
      (List.range 16).foldl (fun s core => s.placeShare k m b pc core) s) s

/-- The request's clusters take new work: none is leaving its owner (R204). -/
def State.clustersTake (k : Nat) (m : Model) (s : State) : Bool :=
  let x := s.slot k
  s.serves x.part x.lead && match m.bindings.find? fun b => b.clusters == x.binding with
    | some b => b.clusters.all fun c => s.serves x.part c
    | none => true

/-- A request whose clusters no longer take new work moves to the next whole binding, its lead with it where the
lead leaves too; with no binding left it takes rung 3 (R204, R308). [DEDUCED: notes/assumptions/131.md] -/
def State.rebind (k : Nat) (m : Model) (s : State) : State :=
  let x := s.slot k
  match s.chooseBinding x.part x.lead m with
  | none => s.postDefault k 5
  | some b => s.modSlot k fun x => { x with
      binding := b.clusters
      lead := if s.serves x.part x.lead then x.lead else b.clusters.headD 0 }

/-- A request starts on its clusters. -/
def State.startOn (k : Nat) (m : Model) (s : State) : State :=
  let x := s.slot k
  let n := s.blobFaults m x
  let rev := match s.slotFrame x with
    | some f => s.reverseDue m f
    | none => false
  let items := (List.range x.nItems).map fun i => s.buildItem m x i
  let s := s.modSlot k fun x => { x with state := .running, items := items, revPending := rev }
  let s := (m.blobParts x.nItems).foldl (fun s r => s.touchBlob x r.1 r.2) s
  let s := if n = 0 then s else s.countN Ctr.blobFault x.part n
  let s := if m.ensemble then (s.openGroups k m).placeShares k m else s
  let s := s.fetchAll k m
  let s := (numbered m.inputs).foldl (fun s e => if e.2.kind = 7 then s.startEncoder k m e.1 else s) s
  (s.launchStep k m).settle2

/-- A request starts, on other clusters where those chosen at its admission no longer take new work. -/
def State.startRequest (k : Nat) (m : Model) (s : State) : State :=
  if s.clustersTake k m then s.startOn k m
  else
    let s := s.rebind k m
    if (s.slot k).state = .admitted then s.startOn k m else s

/-- `SLOT_RUNNING` (R106): an admitted request goes to its clusters. A frame's scan has ended. -/
def execSlotRunning (t slot : Nat) (s : State) : Host.Outcome State Fault Refusal :=
  s.happen t
    (fun s => s.moving && (s.slot slot).state == .admitted && (s.slotModel slot).isSome &&
      match (s.slot slot).src with
      | .frame id => ((s.frame id).map (·.stage)) == some .deep
      | .ring _ _ => true)
    fun s => match s.slotModel slot with
      | some m => s.startRequest slot m
      | none => s

/-- `REVERSE_LOOKUP_DONE` (R262). -/
def execReverseLookupDone (t slot : Nat) (s : State) : Host.Outcome State Fault Refusal :=
  s.happen t (fun s => s.moving && (s.slot slot).state == .running && (s.slot slot).revPending) fun s =>
    match s.slotFrame (s.slot slot), s.slotModel slot with
    | some f, some m =>
      let r := s.reverseKey f
      let look := s.flowLook r.2 r.1
      let s := (s.flowTouch r.2 r.1).count Ctr.revLookup r.2
      let fr := s.fresh
      let s := fr.2
      let feats := match look with
        | .hit _ i => s.flowFeatures r.2 i (s.recStats r.2 i) (fr.1 % 2 ^ 64)
        | _ => []
      let mine := m.inputs.filter fun x => x.kind == 3 && decide (128 ≤ x.argA)
      let s := match look with
        | .hit _ i =>
          let s := if (s.recStats r.2 i).testBit 47 then s else s.count Ctr.revMiss r.2
          if mine.any fun x => decide (154 ≤ x.argA) then
            (let bad := !s.halfReadable r.2 i
             let s := s.touchHalf r.2 i
             if bad then s.halfFault r.2 i else s)
          else s
        | .miss => s.count Ctr.revMiss r.2
        | .fault _ => (s.count Ctr.revMiss r.2).count Ctr.flowFault r.2
      let s := s.modSlot slot fun x => { x with revPending := false }
      mine.foldl (fun s x => s.settleFeats slot [x.featBase] fun _ _ => tget feats (x.argA - 128)) s
    | _, _ => s.modSlot slot fun x => { x with revPending := false }

/-! ### Walks (R242, R253) -/

/-- A walk taken off its slot. -/
def State.dropWalk (p i : Nat) (s : State) : State :=
  s.modCore p fun c => { c with walks := tdel c.walks i }

/-- The walks a core runs for a slot. -/
def State.walksOf (p k gen : Nat) (s : State) : Nat :=
  ((s.core p).walks.filter fun w => w.2.slot == k && w.2.slotGen == gen).length

/-- A walk has reached its leaf; the share's stage ends with its last walk. -/
def State.leafReached (p i : Nat) (w : Walk) (m : Model) (n : BitVec 128) (s : State) : State :=
  let s := s.dropWalk p i
  let s := s.modShare p w.slot w.slotGen fun x => { x with
    sums := m.addLeaf w.tree w.item n x.sums
    walks := x.walks + 1 }
  match s.share p w.slot w.slotGen with
  | some x =>
    if x.todo.isEmpty && s.walksOf p w.slot w.slotGen == 0 then s.endStage p x m else s
  | none => s

/-- A core's copy of a model found bad: counted, reported and marked (R253). -/
def State.markShard (p domain model epoch : Nat) (s : State) : State :=
  ((s.count Ctr.sageWalkFault (s.coreScope p)).record 0x0022 0 p domain 2
    [(16, model), (16, epoch)]).modCore p fun c => { c with
      badShards := c.badShards.filter (· != (domain, model, epoch)) ++ [(domain, model, epoch)] }

/-- A walk reads a node of a tree in device memory that its cluster's owner may not read: an access fault of the
context that issued it, whose share's stages are void (R184, R201). -/
def State.walkDenied (p : Nat) (w : Walk) (m : Model) (s : State) : State :=
  match s.share p w.slot w.slotGen with
  | none => s
  | some x => (s.jobFault p x.ctx x.domain 2 (slotDesc w.slot w.slotGen)).stopShare p x m 2

/-- The first visit of a run whose node the cluster's owner may not read (R184). -/
def State.deniedVisit (p : Nat) (m : Model) (tree : Nat) (w : WalkEnd) (s : State) : Option Nat :=
  if m.treeInPlace tree then
    idxOf? (fun v : Nat × Option Nat => !s.mayAccess (s.coreOwner p) 1 (m.nodesAt + 16 * v.1) 16) w.path
  else none

/-- A node's word is uncorrectable: the share's stage is void, and the shard is bad (R253). -/
def State.nodeFault (p : Nat) (w : Walk) (m : Model) (s : State) : State :=
  match s.share p w.slot w.slotGen with
  | none => s
  | some x =>
    let s := (s.markShard p x.domain x.model x.epoch).modCore p fun c => { c with
      walks := c.walks.filter fun y => !(y.2.slot == w.slot && y.2.slotGen == w.slotGen) }
    let s := s.stageLost w.slot w.slotGen x.stage
    let s := s.modShare p w.slot w.slotGen fun y => { y with
      stage := y.stage + 1, started := false, todo := [], sums := [] }
    let s := if (m.shareStages { x with stage := x.stage + 1 }).isEmpty then
        s.dropShare p w.slot w.slotGen else s
    (s.trace x.cluster (stageRec p x 2)).voidStages x.cluster w.slot w.slotGen [x.stage]

/-- The item a walk reads. -/
def State.walkItem (w : Walk) (s : State) : Item := (((s.slot w.slot).items)[w.item]?).getD {}

/-- The nodes of a model's copy on a core: those it was made again with, else those of its staging (R241, R253).
[DESIGN CHOICE: notes/assumptions/135.md] -/
def State.copyNodes (p domain epoch : Nat) (m : Model) (s : State) : List (BitVec 128) :=
  (aget (s.core p).shardNodes (domain, m.handle, epoch)).getD m.nodes

/-- Where a walk of a core gets to. -/
def State.walkRun (p : Nat) (w : Walk) (m : Model) (s : State) : WalkEnd :=
  s.walkTree (s.copyNodes p (s.slot w.slot).part (s.slot w.slot).epoch m) m w.tree (s.walkItem w) w.node

/-- The features that an uncorrectable word of a vector holds: the one of a value, or the 32 of a word of the
presence or pending bitmap. Which word it is, of those a run reads, is open (R234).
[DESIGN CHOICE: notes/assumptions/132.md] -/
def badWord (r : WalkEnd) (feats : Nat) (n : Nat) : List Nat :=
  match r.feats[n / 2 % r.feats.length]? with
  | none => []
  | some f => if n % 2 = 0 then [f] else (List.range 32).filterMap fun j =>
      if f / 32 * 32 + j < feats then some (f / 32 * 32 + j) else none

/-- An uncorrectable word of the vector that a walk reads: the features it holds read as missing for its item
from now on, and walks parked on one go on (R234). -/
def State.featFault (p : Nat) (w : Walk) (m : Model) (s : State) : State :=
  let l := badWord (s.walkRun p w m) m.params.nFeat s.fresh.1
  (s.fresh.2.modSlot w.slot fun x => { x with
    items := x.items.zipIdx.map fun e =>
      if e.2 = w.item then { e.1 with bad := e.1.bad ++ l } else e.1 }).wakeWalks w.slot w.slotGen

/-- Among the first `n` visits of a run, the reads that met an uncorrectable word of the item's vector (R234). -/
def badBefore (x : Item) (n : Nat) (w : WalkEnd) : Nat :=
  (((w.path.take n).filterMap (·.2)).filter x.bad.contains).length

/-- What a run of walks is counted as: visits, reads of uncorrectable words of a vector, and the lane cycles without
a ready walk since the run before, whose number is open. [DESIGN CHOICE: notes/assumptions/73.md] -/
def State.countRun (p visits bad : Nat) (s : State) : State :=
  let s := s.countN Ctr.sageVisits (s.coreScope p) visits
  let s := s.fresh.2.countN Ctr.sageIdle (s.coreScope p) s.fresh.1
  if bad = 0 then s else s.countN Ctr.sageFeatFault (s.coreScope p) bad

/-- The nodes that a run reads of a tree in device memory, up to the first that cannot be read. -/
def State.nodeReads (m : Model) (tree : Nat) (r : WalkEnd) (s : State) : List (Nat × Nat) :=
  let l := if m.treeInPlace tree then r.path.map fun v => (m.nodesAt + 16 * v.1, 16) else []
  match s.brokenVisit m tree r with
  | some j => l.take (j + 1)
  | none => l

/-- A word of a core's copy of a tree is read, in its cluster's store or in its local SRAM, and `check` is what it
gives (R330); its row is open. [DESIGN CHOICE: notes/assumptions/132.md] -/
def State.copyWord (p : Nat) (inStore : Bool) (check : WordCheck) (s : State) : State :=
  match check with
  | .clean => s
  | _ =>
    if inStore then s.fresh.2.sramChecked .clusterStore (s.coreCluster p) (s.fresh.1 % 8192) check
    else s.fresh.2.sramChecked .localSram p (s.fresh.1 % 768) check

/-- A node word that a walk reads gives `check`: of a tree in device memory, of the store's copy, or of the core's
(R241). -/
def State.nodeWord (p : Nat) (w : Walk) (m : Model) (check : WordCheck) (s : State) : State :=
  if m.treeInPlace w.tree then s.strike (s.nodeReads m w.tree (s.walkRun p w m)) check
  else s.copyWord p ((m.places[w.tree]?).map (·.pstore) == some 1) check

/-- A walk runs on, to its leaf, to a pending feature, or to a node that device memory cannot give. -/
def State.runWalk (p i : Nat) (w : Walk) (m : Model) (s : State) : State :=
  let r := s.walkRun p w m
  let x := s.walkItem w
  let broken := s.brokenVisit m w.tree r
  let denied := s.deniedVisit p m w.tree r
  let reads := s.nodeReads m w.tree r
  let s := (reads.take (denied.getD reads.length)).foldl (fun s x => s.touch x.1 x.2 0) s
  match denied, broken with
  | some j, b =>
    if b.all (j ≤ ·) then (s.countRun p j (badBefore x j r)).walkDenied p w m
    else (s.countRun p (b.getD 0) (badBefore x (b.getD 0) r)).nodeFault p w m
  | none, some j => (s.countRun p j (badBefore x j r)).nodeFault p w m
  | none, none =>
    let s := s.countRun p r.path.length (r.badReads x)
    match r with
    | .leaf n _ => s.leafReached p i w m n
    | .parked node feat _ => (s.count Ctr.sagePark (s.coreScope p)).modCore p
        fun c => { c with walks := tset c.walks i { w with node := node, parked := some feat } }

/-- A walk meets an uncorrectable node word; which visit reads it is open where memory does not say, and those
before it count (R253). [DESIGN CHOICE: notes/assumptions/132.md] -/
def State.walkFault (p i : Nat) (w : Walk) (m : Model) (s : State) : State :=
  let r := s.walkRun p w m
  let x := s.walkItem w
  if (s.deniedVisit p m w.tree r).isSome then s.runWalk p i w m
  else match s.brokenVisit m w.tree r with
  | some j =>
    (((s.nodeReads m w.tree r).foldl (fun s x => s.touch x.1 x.2 0) s).countRun p j
      (badBefore x j r)).nodeFault p w m
  | none =>
    let j := s.fresh.1 % r.path.length
    (s.fresh.2.countRun p j (badBefore x j r)).nodeFault p w m

/-- A word that a walk reads cannot be had, uncorrectable or poisoned: a node's, or one of the item's vector; which is
open (R234, R253, R331). [DESIGN CHOICE: notes/assumptions/132.md] -/
def State.badWalk (p i : Nat) (w : Walk) (m : Model) (check : WordCheck) (s : State) : State :=
  let s' := s.fresh.2
  if s.fresh.1 % 2 = 0 then (s'.nodeWord p w m check).walkFault p i w m
  else ((s'.copyWord p false check).featFault p w m).runWalk p i w m

/-- `WALK_COMPLETE` (R242, R253). `check` is the outcome for the words the walk reads. -/
def execWalkComplete (t core walk : Nat) (check : WordCheck) (s : State) :
    Host.Outcome State Fault Refusal :=
  s.happen t
    (fun s => s.moving && match tget (s.core core).walks walk with
      | some w => w.parked.isNone && (s.slotModel w.slot).isSome
      | none => false)
    fun s => match tget (s.core core).walks walk with
      | none => s
      | some w =>
        match s.slotModel w.slot with
        | none => s
        | some m =>
          (if checkBad check then s.badWalk core walk w m check
           else (s.nodeWord core w m check).runWalk core walk w m).settle2

/-- A core's copy of a shard is made again from the container: good, or bad until the model is staged again where the
container itself cannot be read, and the domain's owner is told (R253, R331). -/
def State.recopy (core : Nat) (e : Nat × Nat × Nat) (check : WordCheck) (s : State) : State :=
  let good (l : List (BitVec 128)) (s : State) : State := s.modCore core fun c => { c with
    badShards := c.badShards.filter (· != e), shardNodes := aset c.shardNodes e l }
  match s.modelAt e.1 e.2.2 e.2.1 with
  | none => good [] s
  | some m =>
    let bad := checkBad check || !s.mem.readable m.cAddr m.cLen
    let s := (s.strike [(m.cAddr, m.cLen)] check).touch m.cAddr m.cLen 0
    if bad then (s.modCore core fun c => { c with deadShards := c.deadShards ++ [e] }).event (domainOwner e.1) 0x0007
      [(7, e.1), (16, e.2.1), (16, e.2.2)] 0
    else good ((List.range m.nodes.length).map fun i => BitVec.ofNat 128 (s.leAt (m.nodesAt + 16 * i) 16)) s

/-- The bad copies of a model on a core that its container can still make good. -/
def Core.toCopy (domain handle : Nat) (c : Core) : List (Nat × Nat × Nat) :=
  c.badShards.filter fun e => e.1 == domain && e.2.1 == handle && !c.deadShards.contains e

/-- `SHARD_RECOPY_DONE` (R253, R331). -/
def execShardRecopyDone (t core domain handle : Nat) (check : WordCheck) (s : State) :
    Host.Outcome State Fault Refusal :=
  s.happen t
    (fun s => s.moving && !((s.core core).toCopy domain handle).isEmpty)
    fun s => (((s.core core).toCopy domain handle).foldl (fun s e => s.recopy core e check) s).settle2

/-! ### Cut-offs (R248, R269) -/

/-- The stage groups of a slot on a cluster that are not the lead's: open ones by number. -/
def Cluster.slotGroups (c : Cluster) (k gen : Nat) : List Nat :=
  (c.groups.filter fun e => (match e.2.slot with
    | some x => x.1 == k && x.2.1 == gen
    | none => false) && (match e.2.dest with
    | .slot _ _ _ => false
    | _ => true)).map (·.1)

/-- A waiting open of a slot's own stage group. -/
def waitsFor (k gen : Nat) (g : Group) : Bool :=
  (match g.slot with
   | some x => x.1 == k && x.2.1 == gen
   | none => false) && (match g.dest with
   | .slot _ _ _ => false
   | _ => true)

/-- The cluster groups of a slot close (R248). -/
def State.closeSlotGroups (k gen : Nat) (s : State) : State :=
  (s.comp.clusters.map (·.1)).foldl (fun s c =>
    let waiting := ((s.cluster c).opens.filter fun e => waitsFor k gen e.2).map (·.2)
    let s := s.modCluster c fun x => { x with opens := x.opens.filter fun e => !waitsFor k gen e.2 }
    let s := waiting.foldl (fun s g => s.deliverGroup chainFuel c g) s
    ((s.cluster c).slotGroups k gen).foldl (fun s i => s.closeGroup c i) s) s

/-- The shares of a slot on every core, each recorded as stopped; one whose copy is bad is void through a fault (R253,
R316). -/
def State.stopShares (k gen : Nat) (s : State) : State :=
  (s.comp.cores.map (·.1)).foldl (fun s p =>
    match s.share p k gen with
    | some x =>
      let s := if s.shardBad p x then s.stageLost k gen x.stage else s
      (s.dropShare p k gen).trace x.cluster (stageRec p x 1)
    | none => s) s

/-! ### Packet models (R252) -/

/-- A list in an order that is open. -/
def shuffle {α : Type} : Nat → Nat → List α → List α
  | 0, _, _ => []
  | fuel + 1, n, l =>
    let i := freeBelow l.length (Config.free n)
    match l[i]? with
    | some x => x :: shuffle fuel (n + 1) (l.eraseIdx i)
    | none => []

/-- The vector of a packet-model call. -/
def State.packetItem (m : Model) (f : Frame) (s : State) : Item :=
  m.inputs.foldl (fun v r => (List.range r.count).foldl (fun v j =>
    v.put (r.featBase + j) (match r.kind with
      | 2 => .val (fnat (f.record.toNat / 2 ^ r.argA % 2 ^ r.argB))
      | 3 => optIn (tget f.flowFeats r.argA)
      | 6 => optIn (match tget s.bases r.argA with
          | some b => if b.state = 0 then none else some b.z
          | none => none)
      | _ => .missing)) v) {}

/-- The walks of a packet model's trees, by tree, over a copy of its nodes. -/
def Model.walksAll (copy : List (BitVec 128)) (m : Model) (x : Item) : List (Nat × WalkEnd) :=
  (numbered m.trees).map fun e => (e.1, m.walk (nodeIn copy) x (m.nodes.length + 1) e.2.root [])

/-- The sums of walks that end in the order given (R237). -/
def Model.sumLeaves (m : Model) (l : List (Nat × WalkEnd)) : List W32 :=
  l.foldl (fun acc e =>
    match e.2 with
    | .leaf nd _ => m.addLeaf e.1 0 nd acc
    | .parked _ _ _ => acc) (List.replicate m.params.nOut 0)

/-- The visits of walks, in the order of the trees. -/
def runVisits (l : List (Nat × WalkEnd)) : Nat := (l.map fun e => e.2.path.length).sum

/-- A vector with a word found uncorrectable, of those that walks read (R234). -/
def Item.spoiled (x : Item) (l : List (Nat × WalkEnd)) (feats n : Nat) : Item :=
  { x with bad := badWord (.leaf 0 (l.flatMap fun e => e.2.path)) feats n }

/-- The packet-model call of a frame: its epoch. -/
def State.pmEpoch (id : Nat) (s : State) : Option Nat :=
  aget (s.domain packetDomain).pmCalls id

/-- The model of a frame's packet-model call. -/
def State.pmModel (id : Nat) (s : State) : Option Model :=
  match s.pmEpoch id, (s.frame id).bind (·.act) with
  | some e, some a => s.modelAt packetDomain e a.pmModel
  | _, _ => none

/-- A packet-model call ends with a verdict; the frame goes on. -/
def State.pmVerdict (id : Nat) (v : Verdict) (s : State) : State :=
  let since := ((s.frame id).map fun f => match f.stage with
    | .pmWait t => t
    | _ => s.tick).getD s.tick
  let v := v.stamp since s.tick ((s.pmEpoch id).getD 0) 0
  let s := (s.countVerdict packetDomain v).modDomain packetDomain fun d => { d with
    pmCalls := d.pmCalls.filter fun e => e.1 != id }
  (s.modFrame id fun f => { f with pmVerdict := some v }).afterPacketModel id

/-- A frame's packet-model call begins: the packet-path context's entry is read once and chooses the cluster; with
no packet-path cluster the call takes rung 3 (R131, R134, R252). -/
def State.pmCall (id : Nat) (f : Frame) (s : State) : State :=
  let l := s.packetLanding f
  let s := (l.2.modFrame id fun f => { f with stage := .pmWait s.tick }).modDomain packetDomain fun d =>
    { d with pmCalls := d.pmCalls ++ [(id, d.epoch)] }
  match l.1, s.pmModel id with
  | .cluster c, _ => s.modFrame id fun f => { f with pmCluster := some c }
  | _, some m => s.pmVerdict id (m.defaultVerdict 5)
  | _, none => s

/-- A core may take a frame's packet-model call: a core of the cluster chosen for it, with a walk slot free and its
copies of the epoch's models good. -/
def State.pmCore (id core : Nat) (s : State) : Bool :=
  match s.frame id, s.pmModel id with
  | some f, some _ =>
    (match f.pmCluster with
     | some c => s.logicalEntry core |>.any fun e => e.2.home / 16 == c
     | none => false) &&
      (List.range 256).any (fun i => (tget (s.core core).walks i).isNone) &&
      !s.epochBad core packetDomain ((s.pmEpoch id).getD 0)
  | _, _ => false

/-- The walks of a packet-model call on a core. -/
def State.pmWalks (id core : Nat) (m : Model) (x : Item) (s : State) : List (Nat × WalkEnd) :=
  m.walksAll (s.copyNodes core packetDomain ((s.pmEpoch id).getD 0) m) x

/-- A packet-model call walks every tree, in an order of ends that is open, and its score is composed with K = 1
(R237, R252). [DESIGN CHOICE: notes/assumptions/56.md] -/
def State.pmScore (id core : Nat) (m : Model) (x : Item) (s : State) : State :=
  let l := s.pmWalks id core m x
  let ys := m.sumLeaves (shuffle l.length s.freeCount l)
  let s := { s with freeCount := s.freeCount + l.length }
  let s := s.countRun core (runVisits l) ((l.map fun e => e.2.badReads x).sum)
  match m.scores ((m.stages.head?.map (·.corr)).getD []) 1 ys with
  | some ys => s.pmVerdict id (m.mapScores 1 1 1 ys)
  | none => s.pmVerdict id { m.defaultVerdict 3 with stages := 1 }

/-- A packet-model call whose walk meets an uncorrectable node word: the core's copy is bad, and the score has K = 0
(R252, R253). Which visit reads the word, and of which tree, is open. [DESIGN CHOICE: notes/assumptions/132.md] -/
def State.pmFault (id core : Nat) (m : Model) (x : Item) (s : State) : State :=
  let l := s.pmWalks id core m x
  let j := s.fresh.1 % runVisits l
  ((s.fresh.2.countRun core j (badBefore x j (.leaf 0 (l.flatMap fun e => e.2.path)))).markShard core packetDomain
    m.handle ((s.pmEpoch id).getD 0)).pmVerdict id (m.defaultVerdict 7)

/-- A word that the walks of a packet-model call read cannot be had: a node's, or one of the frame's vector; which is
open (R234, R252, R331). [DESIGN CHOICE: notes/assumptions/132.md] -/
def State.pmBad (id core : Nat) (m : Model) (x : Item) (check : WordCheck) (s : State) : State :=
  let s' := s.fresh.2
  if s.fresh.1 % 2 = 0 then (s'.copyWord core true check).pmFault id core m x
  else
    let u := s'.copyWord core false check
    u.fresh.2.pmScore id core m (x.spoiled (u.pmWalks id core m x) m.params.nFeat u.fresh.1)

/-- `PACKET_MODEL_WALK` (R252): the call takes a walk slot and walks every tree. `check` is the outcome for the
words its walks read, as for `WALK_COMPLETE`. -/
def execPacketModelWalk (t frame core : Nat) (check : WordCheck) (s : State) :
    Host.Outcome State Fault Refusal :=
  s.happen t
    (fun s => s.moving && s.pmCore frame core && match (s.frame frame).map (·.stage) with
      | some (FrameStage.pmWait _) => true
      | _ => false)
    fun s => match s.frame frame, s.pmModel frame with
      | some f, some m =>
        let x := s.packetItem m f
        if checkBad check then s.pmBad frame core m x check
        else (s.copyWord core true check).pmScore frame core m x
      | _, _ => s

/-- `PM_WAIT_EXPIRY` (R252): no walk slot within 1 µs. -/
def execPmWaitExpiry (t frame : Nat) (s : State) : Host.Outcome State Fault Refusal :=
  s.happen t
    (fun s => s.moving && match (s.frame frame).map (·.stage) with
      | some (FrameStage.pmWait since) => decide (since + 1000 ≤ s.tick)
      | _ => false)
    fun s => match s.pmModel frame with
      | some m => (s.tally Ctr.pmSlotFull).pmVerdict frame (m.defaultVerdict 6)
      | none => s

end Sys2Proof.Machine
end

