-- ==== Sys2Proof/Machine/Classify.lean ====
section
/-! DEFINITION. The classifier: prefix tries, rules, the flow and MAC learning of a frame, its
tables' commands, aging and faults (R135 to R162). -/

namespace Sys2Proof.Machine

/-! ### Prefix tries (R144 to R147) -/

/-- A classifier's settings of an interface. -/
def State.clsIfc (i : Nat) (s : State) : ClsIfc := tgetD s.cls.ifcs i {}

/-- The classifier's settings of an interface changed. -/
def State.modClsIfc (i : Nat) (f : ClsIfc → ClsIfc) (s : State) : State :=
  s.updCls fun c => { c with ifcs := tup c.ifcs i {} f }

/-- The bits at which each level of a family's trie ends (R144). -/
def levelEnds (v6 : Bool) : List Nat :=
  if v6 then [16, 32, 48, 56, 64, 72, 80, 88, 96, 104, 112, 120, 128] else [16, 24, 32]

/-- The bits of an address of a family. -/
def famBits (v6 : Bool) : Nat := if v6 then 128 else 32

/-- The first `n` bits of an address. -/
def headBits (v6 : Bool) (a n : Nat) : Nat := a / 2 ^ (famBits v6 - n)

/-- The prefixes of a family. -/
def Classifier.trie (c : Classifier) (v6 : Bool) : List Prefix := if v6 then c.trie6 else c.trie4

/-- The bits of a prefix in the low bits of its family's width. An IPv4 prefix stands in the low 32
bits of its field (notes/assumptions/26.md). -/
def prefixBits (v6 : Bool) (p : BitVec 128) : Nat := p.toNat % 2 ^ famBits v6

/-- A prefix covers an address. -/
def Prefix.covers (p : Prefix) (v6 : Bool) (a : Nat) : Bool :=
  headBits v6 a p.len == headBits v6 p.bits.toNat p.len

/-- The longer of two prefixes. -/
def longer (best : Option Prefix) (p : Prefix) : Option Prefix :=
  match best with
  | none => some p
  | some q => if q.len < p.len then some p else some q

/-- The longest prefix of a list that covers an address. -/
def longest (l : List Prefix) (v6 : Bool) (a : Nat) : Option Prefix :=
  (l.filter fun p => p.covers v6 a).foldl longer none

/-- A node exists at a level for the address bits above it: some prefix ends at the level or below. -/
def hasNode (l : List Prefix) (v6 : Bool) (level path : Nat) : Bool :=
  level == 1 || match (levelEnds v6)[level - 2]? with
    | some up => l.any fun p => decide (up < p.len) && headBits v6 p.bits.toNat up == path
    | none => false

/-- The levels that a lookup of an address reads. -/
def levelsRead (l : List Prefix) (v6 : Bool) (a : Nat) : List Nat :=
  ((List.range (levelEnds v6).length).map (· + 1)).filter fun lv =>
    hasNode l v6 lv (headBits v6 a ((0 :: levelEnds v6)[lv - 1]?.getD 0))

/-- A trie slot's number: the address bits down to its level, the level and the family. -/
def slotCode (v6 : Bool) (level a : Nat) : Nat :=
  (headBits v6 a ((levelEnds v6)[level - 1]?.getD 0) * 16 + level) * 2 + bit v6

/-- The number of the node a slot lies in. -/
def nodeCode (code : Nat) : Nat × Nat :=
  let level := code / 2 % 16
  let v6 := code % 2 == 1
  let ends := 0 :: levelEnds v6
  (code % 32, code / 32 / 2 ^ ((ends[level]?).getD 0 - (ends[level - 1]?).getD 0))

/-- A lookup of an address: its class, and the slot that could not be read (R145, R161). `bad` is
the level whose slot the read finds uncorrectable. -/
def Classifier.lpm (c : Classifier) (v6 : Bool) (a : Nat) (bad : Option Nat) : Nat × Option Nat :=
  let levels := levelsRead (c.trie v6) v6 a
  let hit := levels.find? fun lv => bad == some lv || c.badTrie.contains (slotCode v6 lv a)
  match hit with
  | some lv => (0, some (slotCode v6 lv a))
  | none => (((longest (c.trie v6) v6 a).map (·.cls)).getD 0, none)

/-- A trie slot found uncorrectable: counted and reported, its node rewritten later (R161). -/
def State.trieFault (code : Nat) (s : State) : State :=
  (s.updCls fun c => { c with
    badTrie := if c.badTrie.contains code then c.badTrie else c.badTrie ++ [code] }).tally
      Ctr.lpmFault |>.packetFault 3 (code % 2 ^ 32)

/-- The class of an address of a frame, with what its lookup does. -/
def State.classOf (f : Frame) (a : Nat) (bad : Option Nat) (s : State) : Nat × State :=
  if f.pflag 9 || f.pflag 8 then
    let v6 := !f.pflag 9
    let r := s.cls.lpm v6 (a % 2 ^ famBits v6) bad
    match r.2 with
    | some code => (r.1, s.trieFault code)
    | none => (r.1, s)
  else (0, s)

/-! ### Rules (R139 to R143) -/

/-- The rule key of a record and its two classes (R139). -/
def ruleKey (f : Frame) (src dst : Nat) : Nat :=
  src % 2 ^ 20 * 2 ^ 236 + dst % 2 ^ 20 * 2 ^ 216 + f.field 511 480 * 2 ^ 184 +
    f.field 895 832 * 2 ^ 120 + f.field 575 560 * 2 ^ 104 + f.field 559 544 * 2 ^ 88 +
    f.field 63 48 * 2 ^ 72 + f.field 31 16 * 2 ^ 56 + f.field 447 436 * 2 ^ 44 +
    f.field 423 416 * 2 ^ 36 + f.field 415 408 * 2 ^ 28 + f.field 407 400 * 2 ^ 20 +
    f.field 399 394 * 2 ^ 14 + f.field 39 37 * 2 ^ 11 + f.field 41 40 * 2 ^ 9

/-- A row matches a key (R141). -/
def rowMatches (r : RuleRow) (key : BitVec 256) : Bool :=
  r.action.valid && (key ^^^ r.key) &&& r.mask == 0

/-- A row takes part in matching: it is neither disabled nor unusable. -/
def Pipeline.live (p : Pipeline) (n : Nat) : Bool := !(p.offRows.contains n || p.deadRows.contains n)

/-- The winning row of a key (R141). `wrong` is a row that matches wrongly. -/
def Pipeline.winner (p : Pipeline) (key : BitVec 256) (wrong : Option Nat) : Option (Nat × RuleRow) :=
  p.rules.find? fun e => p.live e.1 && (rowMatches e.2 key || (e.2.action.valid && wrong == some e.1))

/-- A rule row found uncorrectable: disabled until Isain rewrites it (R161).
[DESIGN CHOICE: notes/assumptions/25.md] -/
def State.ruleFault (pipe row : Nat) (s : State) : State :=
  ((s.modPipe pipe fun p => { p with
    offRows := if p.offRows.contains row then p.offRows else p.offRows ++ [row] }).count Ctr.ruleFault
      pipe).packetFault 2 row |>.sramUncorrectable .tableMem pipe row

/-! ### A frame's end in the classifier -/

/-- A frame handed to egress with a decision. -/
def State.decide' (id : Nat) (d : Decision) (s : State) : State :=
  s.modFrame id fun f => { f with decision := some d, stage := .egress }

/-- Step 6 (R136, R143): the packet model, the deep path, or egress. A row naming a model that is
not committed sends its frame the unclassified way. -/
def State.ruleAct (id : Nat) (s : State) : State :=
  match (s.frame id).bind (·.act), s.frame id with
  | some a, some f =>
    if (a.pmEn && (s.liveModel packetDomain a.pmModel).isNone) ||
        (a.deepEn && (s.liveModel a.deepPart a.deepModel).isNone) then
      (s.decide' id .unclassified).count Ctr.clsNoModel f.ifc
    else if a.pmEn then
      s.pmCall id f
    else if a.deepEn then s.deepAdmit id
    else s.noVerdict id
  | _, _ => s

/-! ### The MAC table (R154 to R157) -/

/-- A MAC key as a number. -/
def macKey (mac vid : Nat) : Nat := vid % 2 ^ 12 * 2 ^ 48 + mac % 2 ^ 48

/-- The entries of a key's candidate buckets, in order: bucket × 4 + place.
[DESIGN CHOICE: notes/assumptions/105.md] -/
def macPlaces (mac vid : Nat) : List Nat :=
  let b1 := Config.macHash 0 (macKey mac vid) % 16384
  let b2 := Config.macHash 1 (macKey mac vid) % 16384
  let of (b : Nat) : List Nat := (List.range 4).map fun i => b * 4 + i
  of b1 ++ (if b2 = b1 then [] else of b2)

/-- The entry of a key; a quarantined one is none. -/
def Classifier.macFind (c : Classifier) (mac vid : Nat) : Option (Nat × MacEntry) :=
  (macPlaces mac vid).findSome? fun k =>
    match tget c.macs k with
    | some e => if e.mac.toNat = mac ∧ e.vid = vid ∧ !c.badMacs.contains k then some (k, e) else none
    | none => none

/-- A free entry in the emptier bucket of a key. -/
def Classifier.macFree (c : Classifier) (mac vid : Nat) : Option Nat :=
  let free (l : List Nat) : List Nat :=
    l.filter fun k => (tget c.macs k).isNone && !c.badMacs.contains k
  let ps := macPlaces mac vid
  let x := free (ps.take 4)
  let y := free (ps.drop 4)
  if x.length < y.length then y.head? else x.head?

/-- A MAC entry found uncorrectable (R161). -/
def State.macFaulted (pipe k : Nat) (s : State) : State :=
  ((s.updCls fun c => { c with
    badMacs := if c.badMacs.contains k then c.badMacs else c.badMacs ++ [k] }).count Ctr.macFault
      pipe).packetFault 5 k |>.sramUncorrectable .tableMem 4 k

/-- Time in units of 2^20 ns. -/
def macTime (tick : Nat) : Nat := tick / 2 ^ 20

/-- The learn engine writes a MAC entry, or deletes it, for a pipeline: its own copy changes at once, and the other
may hold the earlier content for up to 100 ns (R154). [DESIGN CHOICE: notes/assumptions/58.md] -/
def State.macWrite (pipe k : Nat) (e : Option MacEntry) (s : State) : State :=
  s.updCls fun c =>
    let old := c.macOld.filter fun x => decide (s.tick < x.2.1) && x.1 != (pipe, k)
    { c with
      macs := match e with
        | some e => tset c.macs k e
        | none => tdel c.macs k
      macOld := if (aget old (1 - pipe, k)).isSome then old
        else old ++ [((1 - pipe, k), (s.tick + 100, tget c.macs k))] }

/-- What a pipeline's lookup of a key finds in its copy: an entry changed for the other pipeline within the last
100 ns may still show its earlier content (R154). -/
def State.macLook (pipe mac vid : Nat) (s : State) : Option (Nat × MacEntry) × State :=
  let lags := s.cls.macOld.filter fun x => x.1.1 == pipe && decide (s.tick < x.2.1) &&
    (macPlaces mac vid).contains x.1.2
  if lags.isEmpty then (s.cls.macFind mac vid, s)
  else
    let f := s.fresh
    let view (c : Classifier) (x : (Nat × Nat) × (Nat × Option MacEntry)) : Classifier :=
      { c with macs := match x.2.2 with
          | some e => tset c.macs x.1.2 e
          | none => tdel c.macs x.1.2 }
    ((if f.1 % 2 = 0 then s.cls else lags.foldl view s.cls).macFind mac vid, f.2)

/-- A MAC entry changed. -/
def State.modMac (k : Nat) (f : MacEntry → MacEntry) (s : State) : State :=
  s.updCls fun c => { c with macs := tmod c.macs k f }

/-- A station move (R156). -/
def MacEntry.move (e : MacEntry) (ifc window tick : Nat) : MacEntry :=
  let now := macTime tick % 2 ^ 28
  let fresh := e.moves = 0 ∨ window < (now + 2 ^ 28 - e.moveWin) % 2 ^ 28 * 2 ^ 20
  { e with
    mif := ifc, hit := true, lastSeen := macTime tick % 2 ^ 24
    moves := if fresh then 1 else e.moves + 1
    moveWin := if fresh then now else e.moveWin
    prev := if fresh then e.mif else e.prev }

/-- An entry pinned after flapping (R156). -/
def MacEntry.pin (e : MacEntry) (tick : Nat) : MacEntry :=
  { e with pinned := true, pinIf := e.prev, mif := e.prev, moveWin := macTime tick % 2 ^ 28 }

/-- A flapping report (R156, R450, R455). -/
def State.macFlap (e : MacEntry) (s : State) : State :=
  let data := [(12, e.vid), (2, e.pinIf), (48, e.mac.toNat)]
  s.recordEvent 0x0031 4 0 0xFF 1 data 0 0x0003 data

/-- The learned entries of an interface. -/
def Classifier.learnedOn (c : Classifier) (ifc : Nat) : Nat :=
  (c.macs.filter fun e => !e.2.isStatic && e.2.mif == ifc).length

/-- How a frame goes on after its source learn. -/
inductive MacEnd where
  | go | flood | drop
  deriving DecidableEq, Repr

/-- A source learn (R156, R157). -/
def State.macLearn (ifc mac vid : Nat) (s : State) : MacEnd × State :=
  let now := macTime s.tick % 2 ^ 24
  match s.cls.macFind mac vid with
  | some (k, e) =>
    if e.isStatic then (.go, s)
    else if e.mif = ifc then
      (.go, s.macWrite (portOf ifc) k (some { e with hit := true, lastSeen := now }))
    else if e.pinned then (.go, s.count Ctr.macLearnPinned ifc)
    else
      let e' := e.move ifc s.cls.macMoveWindow s.tick
      let s := s.count Ctr.macMove ifc
      if s.cls.macMoveMax < e'.moves then
        (.go, (s.macWrite (portOf ifc) k (some (e'.pin s.tick))).macFlap (e'.pin s.tick))
      else (.go, s.macWrite (portOf ifc) k (some e'))
  | none =>
    if (s.clsIfc ifc).macLimit ≤ s.cls.learnedOn ifc then
      (if (s.clsIfc ifc).learnExcess = 0 then .drop else .flood, s.count Ctr.macLimitHit ifc)
    else match s.cls.macFree mac vid with
      | none => (.flood, s.count Ctr.macLearnFail ifc)
      | some k =>
        let e : MacEntry := { mac := BitVec.ofNat 48 mac, vid := vid, mif := ifc, lastSeen := now }
        (.go, (s.macWrite (portOf ifc) k (some e)).count Ctr.macLearn ifc)

/-- A frame's source MAC address. -/
def Frame.srcMac (f : Frame) : Nat := fieldBe f.bytes 6 6

/-- A frame's destination MAC address. -/
def Frame.dstMac (f : Frame) : Nat := fieldBe f.bytes 0 6

/-- A frame's outer VLAN identifier. -/
def Frame.vid (f : Frame) : Nat := f.field 447 436

/-- Steps 5 and 6 of R136: `last` is step 6. [DESIGN CHOICE: notes/assumptions/57.md] -/
def State.macThen (id : Nat) (last : State → State) (s : State) : State :=
  match (s.frame id).bind (·.act), s.frame id with
  | some a, some f =>
    if !a.macLearn then last s
    else match f.macFault.bind fun i => (macPlaces f.srcMac f.vid)[i]? with
      | some k => (s.macFaulted (portOf f.ifc) k).decide' id .flood
      | none =>
        let r := s.macLearn f.ifc f.srcMac f.vid
        match r.1 with
        | .go => last r.2
        | .flood => r.2.decide' id .flood
        | .drop => r.2.decide' id .drop
  | _, _ => s

/-- Steps 5 and 6 of R136, the latter as the rule says. -/
def State.macStep (id : Nat) (s : State) : State := s.macThen id fun s => s.ruleAct id

/-! ### The flow step (R148 to R153, R161) -/

/-- The number of an index entry in its pipeline's table. -/
def Pipeline.entryNo (p : Pipeline) (a : Nat) : Nat := (a - (p.indexBase + 64)) / 16

/-- A flow entry, or its record, found uncorrectable: quarantined (R161). -/
def State.flowFaulted (pipe a : Nat) (s : State) : State :=
  ((s.ixPut a (s.ixAt a / 16 * 16 + s.ixAt a % 8 + 8)).count Ctr.flowFault pipe).packetFault 4
    ((s.pipe pipe).entryNo a)

/-- The records in use: those of valid entries, of learns in flight, and of updates that have not
ended (R268). -/
def State.recsUsed (pipe : Nat) (s : State) : List Nat :=
  let p := s.pipe pipe
  let lo := p.indexBase + 64
  (s.mem.bytes.filterMap fun e =>
    if lo ≤ e.1 ∧ e.1 < lo + p.flowRecords / 2 * 64 ∧ (e.1 - lo) % 16 = 0 ∧ e.2.getLsbD 0 then
      some (ixRec (s.ixAt e.1))
    else none) ++ p.learning.map (·.1) ++ p.rsFlight.map (·.1)

/-- A free record; which one is open. None where all are used.
[DESIGN CHOICE: notes/assumptions/105.md] -/
def State.pickRec (pipe : Nat) (s : State) : Option Nat × State :=
  let n := (s.pipe pipe).flowRecords
  let used := s.recsUsed pipe
  let f := s.fresh
  (((List.range (min n (used.length + 1))).find? fun j => !used.contains ((f.1 + j) % n)).map
    fun j => (f.1 + j) % n, f.2)

/-- A free entry for a key: the first of the emptier bucket, the first bucket on a tie (R151). -/
def State.freeEntry (pipe : Nat) (k : FlowKey) (s : State) : Option Nat :=
  let p := s.pipe pipe
  let free (l : List Nat) : List Nat := l.filter fun a =>
    s.mem.readable a 16 && !ixValid (s.ixAt a) && !ixBad (s.ixAt a) &&
      !p.learning.any fun e => e.2.entry == a
  let es := p.entries k
  let x := free (es.take 4)
  let y := free (es.drop 4)
  if x.length < y.length then y.head? else x.head?

/-- One learn taken from an interface's rate: none beyond it. Rates count per µs
(notes/assumptions/27.md). -/
def State.takeLearn (ifc : Nat) (s : State) : Option State :=
  let c := s.clsIfc ifc
  let w := s.tick / 1000
  let n := if c.learnTick = w then c.learnCount else 0
  if c.learnRate ≤ n then none
  else some (s.modClsIfc ifc fun c => { c with learnTick := w, learnCount := n + 1 })

/-- A new record before its first update (R255). -/
def newRec (sym : Bool) (f : Frame) : Nat :=
  recKeyBits (keySorted sym f.key) + bit (sym && keyReversed f.key) * 2 ^ 45

/-- A model declares an `f_rs` feature. -/
def Model.readsState (m : Model) : Bool :=
  m.inputs.any fun x => x.kind == 3 && decide (x.argA < 90) && decide (26 < x.argA + x.count)

/-- A frame's rule calls a model that reads the state half (R265). -/
def State.readsState (f : Frame) (s : State) : Bool :=
  match f.act with
  | none => false
  | some a =>
    (a.pmEn && (s.liveModel packetDomain a.pmModel).any Model.readsState) ||
      (a.deepEn && (s.liveModel a.deepPart a.deepModel).any Model.readsState)

/-- A frame's record updated: features are taken and a recurrent update goes out (R258, R260,
R263). -/
def State.flowUpdate (id pipe record : Nat) (isNew : Bool) (f : Frame) (r : Nat) (s : State) : State :=
  let iat := if isNew then 0 else iatOf r f.rxTick
  let r' := recUpdate isNew (s.pipe pipe).warmPkts f r
  let s := s.recPut pipe record r'
  let bad := !s.halfReadable pipe record
  let s := if s.readsState f then s.touchHalf pipe record else s
  let s := if s.readsState f && bad then s.halfFault pipe record else s
  let feats := s.flowFeatures pipe record (s.recStats pipe record) iat
  (s.modFrame id fun f => { f with flowFeats := feats, flowRec := some record }).rsIssue pipe record
    iat f

/-- A hit (R149): the entry is refreshed, unless the table is locked (R160), and the record
updated. -/
def State.flowHit (id pipe entry record : Nat) (f : Frame) (s : State) : State :=
  let e := s.ixAt entry
  let s := if s.flowLocked pipe then s
    else s.ixPut entry (ixWord (ixSig e) (ixRec e) (seenAt s.tick) true)
  s.flowUpdate id pipe record false f (s.recStats pipe record)

/-- A learn (R151, R152), not on a locked table (R160): the record is written now, the index entry when the learn
completes. A learn that fails decides step 6; step 5 comes first (R136). -/
def State.flowLearn (id pipe : Nat) (f : Frame) (s : State) : State :=
  let k := keySorted (s.pipe pipe).flowSym f.key
  let r := s.pickRec pipe
  if s.flowLocked pipe then (s.count Ctr.flowLearnLocked f.ifc).macThen id fun s => s.decide' id .unclassified
  else
    match (if (s.pipe pipe).tableBase.isSome then s.freeEntry pipe k else none), r.1 with
    | some a, some i =>
      match r.2.takeLearn f.ifc with
      | none =>
        (r.2.count Ctr.flowLearnExcess f.ifc).macThen id fun s => s.decide' id
          (if (s.clsIfc f.ifc).learnExcess = 0 then .drop else .unclassified)
      | some s =>
        let s := s.poke ((s.pipe pipe).recAddr i + 128) (List.replicate 128 0)
        let s := s.modPipe pipe fun p => { p with
          learning := tset p.learning i { key := k, entry := a, tick := s.tick } }
        let s := (s.modClsIfc f.ifc fun c => { c with learned := c.learned + 1 }).count Ctr.flowLearn
          pipe
        (s.flowUpdate id pipe i true f (newRec (s.pipe pipe).flowSym f)).macStep id
    | _, _ => (s.count Ctr.flowLearnFail f.ifc).macThen id fun s => s.decide' id .unclassified

/-- A flow lookup that misses. [DEDUCED: notes/assumptions/57.md] -/
def State.flowMissed (id pipe : Nat) (f : Frame) (a : RuleAction) (s : State) : State :=
  if a.flowMode = 2 ∧ !f.pflag 12 then s.flowLearn id pipe f else s.macStep id

/-- An index entry enters the flow cache, which holds 262,144 (R135). -/
def Pipeline.caches (a : Nat) (p : Pipeline) : Pipeline :=
  let l := p.cached.filter (· != a) ++ [a]
  { p with cached := l.drop (l.length - 262144) }

/-- The flow step once the bucket is at hand: a learn of the same key in flight is waited for. -/
def State.flowStep (id pipe : Nat) (f : Frame) (a : RuleAction) (s : State) : State :=
  let k := keySorted (s.pipe pipe).flowSym f.key
  if (s.pipe pipe).learning.any fun e => e.2.key == k then
    s.modFrame id fun f => { f with stage := .learnWait }
  else
    let s := s.flowTouch pipe k
    match s.flowLook pipe k with
    | .hit e i => ((s.modPipe pipe (Pipeline.caches e)).flowHit id pipe e i f).macStep id
    | .fault e => (s.flowFaulted pipe e).flowMissed id pipe f a
    | .miss => s.flowMissed id pipe f a

/-- The frames of a pipeline in its miss queue. -/
def State.missQueue (pipe : Nat) (s : State) : List Nat :=
  (s.parser.frames.filter fun e => e.2.stage == .flowMiss && portOf e.2.ifc == pipe).map (·.1)

/-- The flow cache answers a frame's lookup: it holds the key's entry, and has not given its place away; which entries
give way is open (R150). [DESIGN CHOICE: notes/assumptions/106.md] -/
def State.cacheHit (pipe : Nat) (f : Frame) (s : State) : Bool × State :=
  match s.flowLook pipe (keySorted (s.pipe pipe).flowSym f.key) with
  | .hit a _ =>
    if (s.pipe pipe).cached.contains a then
      (Config.freeBool s.freeCount, { s with freeCount := s.freeCount + 1 })
    else (false, s)
  | _ => (false, s)

/-- Step 4 of R136 (R149, R150): from the flow cache, or by way of the miss queue. -/
def State.flowEnter (id pipe : Nat) (f : Frame) (a : RuleAction) (s : State) : State :=
  if a.flowMode = 0 then s.macStep id
  else if (s.pipe pipe).tableBase.isNone then s.flowMissed id pipe f a
  else if (s.cacheHit pipe f).1 then (s.cacheHit pipe f).2.flowStep id pipe f a
  else
    let s := (s.cacheHit pipe f).2
    if 8192 ≤ (s.missQueue pipe).length then (s.count Ctr.flowMissOverrun pipe).macStep id
    else s.modFrame id fun f => { f with stage := .flowMiss }

/-- Steps 2 and 3 of R136. -/
def State.ruleStep (id : Nat) (f : Frame) (r : ClassReads) (s : State) : State :=
  let pipe := portOf f.ifc
  let src := s.classOf f (f.field 703 576) r.src
  let dst := src.2.classOf f (f.field 831 704) r.dst
  let s := dst.2
  let miss (s : State) : State :=
    (s.count Ctr.clsMiss f.ifc).decide' id (.dflt (s.clsIfc f.ifc).defaultAction false)
  match (s.pipe pipe).winner (BitVec.ofNat 256 (ruleKey f src.1 dst.1)) r.wrong with
  | none => miss s
  | some (n, row) =>
    if r.rule then miss (s.ruleFault pipe n)
    else
      let s := s.modPipe pipe fun p => { p with
        hits := tup p.hits n 0 (· + 1)
        hitBytes := tup p.hitBytes n 0 (· + f.len) }
      let s := s.modFrame id fun f => { f with
        rule := some n, act := some row.action, macFault := r.mac }
      s.flowEnter id pipe { f with rule := some n, act := some row.action, macFault := r.mac } row.action

/-- The copy rings that a frame goes on with: those set when it is classified (R138). -/
def RxSet.classed (i : Nat) (s : State) (x : RxSet) : RxSet :=
  { x with copyRing := (s.clsIfc i).copyRing, floodRing := s.cls.floodRing }

/-- A parse record classified (R136). -/
def State.classify (id : Nat) (f : Frame) (r : ClassReads) (s : State) : State :=
  let s := s.modFrame id fun x => { x with set := x.set.classed f.ifc s }
  if f.pflag 14 then (s.count Ctr.clsMalformed f.ifc).decide' id
    (.dflt (s.clsIfc f.ifc).malformedAction true)
  else if f.pflag 15 then (s.count Ctr.clsIncomplete f.ifc).decide' id
    (.dflt (s.clsIfc f.ifc).defaultAction false)
  else s.ruleStep id f r

/-- `CLASSIFY` (R136). -/
def execClassify (t frame : Nat) (r : ClassReads) (s : State) : Host.Outcome State Fault Refusal :=
  s.happen t
    (fun s => s.moving && (s.frame frame).map (·.stage) == some .parsed)
    fun s => match s.frame frame with
      | some f => s.classify frame f r
      | none => s

/-- `FLOW_MISS_COMPLETE` (R150). -/
def execFlowMissComplete (t frame : Nat) (s : State) : Host.Outcome State Fault Refusal :=
  s.happen t
    (fun s => s.moving && (s.frame frame).map (·.stage) == some .flowMiss)
    fun s => match s.frame frame with
      | none => s
      | some f => match f.act with
        | some a => s.flowStep frame (portOf f.ifc) f a
        | none => s

/-- A learn in flight ends: its index entry is written, valid last. -/
def State.learnDone (pipe i : Nat) (s : State) : State :=
  match tget (s.pipe pipe).learning i with
  | none => s
  | some l =>
    (s.ixPut l.entry (ixWord (keySig l.key) i (seenAt s.tick) false)).modPipe pipe fun p =>
      { Pipeline.caches l.entry p with learning := tdel p.learning i }

/-- A frame that waited for a learn of its key. -/
def Pipeline.waitsOn (p : Pipeline) (pipe : Nat) (key : FlowKey) (f : Frame) : Bool :=
  f.stage == .learnWait && portOf f.ifc == pipe && keySorted p.flowSym f.key == key

/-- The frames that waited for a learn go on, and hit (R151). -/
def State.wakeLearn (pipe : Nat) (key : FlowKey) (s : State) : State :=
  (s.parser.frames.filter fun e => (s.pipe pipe).waitsOn pipe key e.2).foldl (fun s e =>
    match e.2.act with
    | some a => (s.count Ctr.flowLearnMerge pipe).flowStep e.1 pipe e.2 a
    | none => s) s

/-- `FLOW_LEARN_COMPLETE` (R151). -/
def execFlowLearnComplete (t pipe recIdx : Nat) (s : State) : Host.Outcome State Fault Refusal :=
  s.happen t (fun s => s.moving && (tget (s.pipe pipe).learning recIdx).isSome) fun s =>
    match tget (s.pipe pipe).learning recIdx with
    | some l => (s.learnDone pipe recIdx).wakeLearn pipe l.key
    | none => s

/-! ### The lock bit (R160) -/

/-- The window offset at which a frame reaches a pipeline's `tbl_ctl`. -/
def State.ctlOffset (f : OuvHdr) (x : Session) (pipe : Nat) (s : State) : Option Nat :=
  match s.windowOf f x, (s.pipe pipe).tableBase with
  | some w, some _ =>
    if w.base ≤ (s.pipe pipe).indexBase then some ((s.pipe pipe).indexBase - w.base) else none
  | _, _ => none

/-- Every learn in flight on a pipeline's table finishes. -/
def State.finishLearns (pipe : Nat) (s : State) : State :=
  (s.pipe pipe).learning.foldl (fun s e => (s.learnDone pipe e.1).wakeLearn pipe e.2.key) s

/-- A write sets the lock bit of a pipeline's table that was clear (R160). -/
def State.locks (pipe a : Nat) (data : List Byte) (s : State) : Bool :=
  match (s.pipe pipe).tableBase with
  | some _ =>
    let c := (s.pipe pipe).indexBase
    !s.flowLocked pipe && decide (a ≤ c) && decide (c < a + data.length) &&
      ((data[c - a]?).getD 0).getLsbD 0
  | none => false

/-- The record of an entry is freed: an update in flight for it lands nowhere (R268). -/
def State.recFreed (pipe i : Nat) (s : State) : State :=
  s.modPipe pipe fun p => { p with
    rsFlight := tmod p.rsFlight i fun u => { u with stale := true }
    rsWait := tmod p.rsWait i fun u => { u with stale := true } }

/-- The index entries of a pipeline's table that a write of `n` bytes at `a` touches. -/
def State.entriesHit (p a n : Nat) (s : State) : List Nat :=
  let base := (s.pipe p).indexBase + 64
  let first := (a - base) / 16
  (((List.range (n / 16 + 2)).map (first + ·)).filter (· < (s.pipe p).flowRecords * 2)).filterMap fun i =>
    if base + 16 * i < a + n ∧ a < base + 16 * i + 16 then some (base + 16 * i) else none

/-- Entries of a locked table that a window's write made invalid: their records' updates in flight are stale (R160,
R268). -/
def State.freeCleared (p : Nat) (old : List (Nat × Nat)) (s : State) : State :=
  if s.flowLocked p then
    old.foldl (fun s e => if ixValid e.2 && !ixValid (s.ixAt e.1) then s.recFreed p (ixRec e.2) else s) s
  else s

/-- Bytes written through a window: learns in flight on a table that the write locks finish first (R160), and entries
that it makes invalid are freed (R268). -/
def State.windowPoke (a : Nat) (data : List Byte) (s : State) : State :=
  let s := (List.range 2).foldl (fun s p => if s.locks p a data then s.finishLearns p else s) s
  let old (p : Nat) : List (Nat × Nat) :=
    if (s.pipe p).tableBase.isSome then (s.entriesHit p a data.length).map fun e => (e, s.ixAt e) else []
  (List.range 2).foldl (fun u p => u.freeCleared p (old p)) (s.poke a data)

/-- `WIN_WRITE` (R84). -/
def execWinWrite (t : Nat) (f : OuvHdr) (offset : Nat) (data : List Byte) (s : State) :
    Host.Outcome State Fault Refusal :=
  s.onFrame t f 0xB fun x s =>
    match windowCheck (s.windowOf f x) 1 offset data.length with
    | some st => .refuse st
    | none => .done (s.windowPoke (windowAddr (s.windowOf f x) offset) data)

/-- The word of `tbl_ctl` written through a window (R84). -/
def State.writeCtl (f : OuvHdr) (x : Session) (pipe v : Nat) (s : State) : FrameOut :=
  match s.ctlOffset f x pipe with
  | none => .refuse .ePriv
  | some off =>
    match windowCheck (s.windowOf f x) 1 off 4 with
    | some st => .refuse st
    | none => .done (s.windowPoke (s.pipe pipe).indexBase (leBytes 4 v))

/-- `FLOW_TABLE_LOCK_SET` (R160): learns in flight finish before the acknowledgement. -/
def execFlowTableLockSet (t : Nat) (f : OuvHdr) (pipe : Nat) (s : State) :
    Host.Outcome State Fault Refusal :=
  s.onFrame t f 0xB fun x s => s.writeCtl f x pipe 1

/-- `FLOW_TABLE_LOCK_CLEAR` (R160). -/
def execFlowTableLockClear (t : Nat) (f : OuvHdr) (pipe : Nat) (s : State) :
    Host.Outcome State Fault Refusal :=
  s.onFrame t f 0xB fun x s => s.writeCtl f x pipe 0

/-! ### Aging (R158) -/

/-- An index entry deleted with its record. -/
def State.flowDrop (pipe a : Nat) (s : State) : State :=
  let e := s.ixAt a
  (s.ixPut a (e - e % 2)).recFreed pipe (ixRec e)

/-- How long an entry has been idle, in ns. -/
def idleOf (now seen modulus : Nat) : Nat := (now + modulus - seen) % modulus * 2 ^ 20

/-- `FLOW_AGING_PASS` (R158): one compare-and-write of the scanner. `entry` counts from 0 through the
buckets; `raced` says that the entry changed since the scanner's read. -/
def execFlowAgingPass (t pipe entry : Nat) (raced : Bool) (s : State) :
    Host.Outcome State Fault Refusal :=
  s.happen t
    (fun s => s.moving && (s.pipe pipe).tableBase.isSome && !s.flowLocked pipe &&
      decide (entry < (s.pipe pipe).flowRecords * 2))
    fun s =>
      let a := (s.pipe pipe).indexBase + 64 + entry * 16
      let e := s.ixAt a
      let s := s.touch a 16 0
      if !s.mem.readable a 16 then s.flowFaulted pipe a
      else if raced then s.count Ctr.ageRaceKept pipe
      else if !ixValid e || ixBad e then s
      else if ixHit e then s.ixPut a (ixWord (ixSig e) (ixRec e) (ixSeen e) false)
      else if (s.pipe pipe).flowAge ≤ idleOf (seenAt s.tick) (ixSeen e) (2 ^ 28) then
        (s.flowDrop pipe a).count Ctr.flowAged pipe
      else s

/-- `MAC_AGING_PASS` (R158). A deletion reaches the copy of the entry's own pipeline first (R154). -/
def execMacAgingPass (t entry : Nat) (raced : Bool) (s : State) : Host.Outcome State Fault Refusal :=
  s.happen t
    (fun s => s.moving && decide (entry < 65536) && (raced || match tget s.cls.macs entry with
      | some e => !e.isStatic && !s.cls.badMacs.contains entry
      | none => false))
    fun s =>
      if raced then s.count Ctr.ageRaceKept 0
      else match tget s.cls.macs entry with
        | none => s
        | some e =>
          if e.hit then s.modMac entry fun e => { e with hit := false }
          else if s.cls.macAge ≤ idleOf (macTime s.tick % 2 ^ 24) e.lastSeen (2 ^ 24) then
            (s.macWrite (portOf e.mif) entry none).tally Ctr.macAged
          else s

/-- `MAC_PIN_RELEASE` (R156). -/
def execMacPinRelease (t entry : Nat) (s : State) : Host.Outcome State Fault Refusal :=
  s.happen t
    (fun s => s.moving && match tget s.cls.macs entry with
      | some e => e.pinned && decide (s.cls.macPinHold ≤
          idleOf (macTime s.tick % 2 ^ 28) e.moveWin (2 ^ 28))
      | none => false)
    fun s => s.modMac entry fun e => { e with pinned := false, moves := 0 }

/-! ### Faults (R161) -/

/-- `RULE_SCRUB_PASS` (R161): the rows whose words the pass finds uncorrectable. -/
def execRuleScrubPass (t pipe : Nat) (bad : List Nat) (s : State) :
    Host.Outcome State Fault Refusal :=
  s.happen t (fun s => s.running && decide (pipe < 2)) fun s =>
    bad.foldl (fun s r =>
      if r < 16384 ∧ (s.pipe pipe).live r then s.ruleFault pipe r else s) s

/-- A quarantined flow entry cleared: it is free again, with its record. -/
def State.clearFlowEntry (pipe entry : Nat) (s : State) : State :=
  let a := (s.pipe pipe).indexBase + 64 + entry * 16
  let e := s.ixAt a
  if (s.pipe pipe).tableBase.isSome && ixBad e then (s.ixPut a 0).recFreed pipe (ixRec e) else s

/-- A quarantined MAC entry cleared: a static one comes back from Isain's shadow, unless its entry
has no spare left (R435). -/
def State.clearMac (k : Nat) (s : State) : State :=
  s.updCls fun c => { c with
    badMacs := c.badMacs.filter (· != k)
    macs := match tget c.macs k with
      | some e => if e.isStatic then c.macs else tdel c.macs k
      | none => c.macs }

/-- `TABLE_ENTRY_REWRITE` (R161). Tables: 0 and 1 the rules of the pipelines, 2 and 3 the tries by
slot number, 4 the MAC table, 5 and 6 the flow tables (notes/assumptions/25.md). -/
def execTableEntryRewrite (t table idx : Nat) (s : State) : Host.Outcome State Fault Refusal :=
  s.happen t (fun s => s.running && s.isainUp && decide (table < 7)) fun s =>
    if table < 2 then s.modPipe table fun p => { p with offRows := p.offRows.filter (· != idx) }
    else if table < 4 then
      s.updCls fun c => { c with badTrie := c.badTrie.filter fun x => nodeCode x != nodeCode idx }
    else if table = 4 then (if s.cls.badMacs.contains idx then s.clearMac idx else s)
    else s.clearFlowEntry (table - 5) idx

/-! ### Settings (R138, R148, R259, R263) -/

/-- A ring that a setting or a rule may copy to: a `PACKET_COPY` ring of partition 0. -/
def State.copyRingOk (n : Nat) (s : State) : Bool :=
  (s.ring n).rtype == 6 && (s.ring n).owner == 0

/-- The check of a copy ring's number. -/
def State.copyRingChk (r : SetRec) (s : State) : Option Status :=
  if s.copyRingOk r.value then none else some .eRange

/-- A record names a ring that is not made (R87, step 5 of R383).
[DEDUCED: notes/assumptions/121.md] -/
def clsMiss (s : State) (r : SetRec) : Bool :=
  (r.id == 3 || r.id == 4) && decide (1 ≤ r.len) && decide (r.len ≤ 256) && decide (r.value < 4096) &&
    !s.ringMade r.value

/-- Seconds in ns. -/
def sec : Nat := 1000000000

/-- The check of one setting of R138, numbered from 1 in row order. -/
def clsChk (s : State) (r : SetRec) : Option Status :=
  match r.id with
  | 1 => scopeIn r 4 (oneOf r 4)
  | 2 => scopeIn r 4 (oneOf r 4)
  | 3 => scopeIn r 4 (s.copyRingChk r)
  | 4 => scopeIn r 1 (s.copyRingChk r)
  | 5 => scopeIn r 4 (inRange r 0 200)
  | 6 => scopeIn r 4 (inRange r 0 1)
  | 7 => scopeIn r 4 (inRange r 0 65535)
  | 8 => scopeIn r 2 (if r.value ≠ 2 ^ Nat.log2 r.value then some .eRange
      else inRange r (2 ^ 16) (2 ^ 24))
  | 9 => scopeIn r 2 (inRange r sec (86400 * sec))
  | 10 => scopeIn r 2 (inRange r 0 1)
  | 11 => scopeIn r 1 (inRange r (10 * sec) (3600 * sec))
  | 12 => scopeIn r 1 (inRange r 1 63)
  | 13 => scopeIn r 1 (inRange r 10000000 60000000000)
  | 14 => scopeIn r 1 (inRange r sec (3600 * sec))
  | _ => some .eArg

/-- A pipeline's flow table emptied. -/
def State.emptyFlows (pipe : Nat) (s : State) : State :=
  let p := s.pipe pipe
  let s := if p.tableBase.isSome then s.zeroRange (p.indexBase + 64) (p.flowRecords / 2 * 64) else s
  s.modPipe pipe fun p => { p with
    learning := []
    cached := []
    rsFlight := p.rsFlight.map fun e => (e.1, { e.2 with stale := true })
    rsWait := p.rsWait.map fun e => (e.1, { e.2 with stale := true }) }

/-- One setting of R138 applied. -/
def clsApply (s : State) (r : SetRec) : State :=
  let i := r.scope
  match r.id with
  | 1 => s.modClsIfc i fun c => { c with defaultAction := r.value }
  | 2 => s.modClsIfc i fun c => { c with malformedAction := r.value }
  | 3 => s.modClsIfc i fun c => { c with copyRing := some r.value }
  | 4 => s.updCls fun c => { c with floodRing := some r.value }
  | 5 => s.modClsIfc i fun c => { c with learnRate := r.value }
  | 6 => s.modClsIfc i fun c => { c with learnExcess := r.value }
  | 7 => s.modClsIfc i fun c => { c with macLimit := r.value }
  | 8 => if (s.pipe i).flowRecords = r.value then s
      else ((s.emptyFlows i).modPipe i fun p => { p with flowRecords := r.value }).emptyFlows i
  | 9 => s.modPipe i fun p => { p with flowAge := r.value }
  | 10 => if (s.pipe i).flowSym = (r.value == 1) then s
      else (s.emptyFlows i).modPipe i fun p => { p with flowSym := r.value == 1 }
  | 11 => s.updCls fun c => { c with macAge := r.value }
  | 12 => s.updCls fun c => { c with macMoveMax := r.value }
  | 13 => s.updCls fun c => { c with macMoveWindow := r.value }
  | 14 => s.updCls fun c => { c with macPinHold := r.value }
  | _ => s

/-- A pipeline's flow table lies within partition 0's memory. -/
def Pipeline.tableFits (p : Pipeline) : Bool :=
  match p.tableBase with
  | some b => inSoftware b (flowBytes p.flowRecords)
  | none => true

/-- The check of R138 over a whole change: copies need a ring, and a flow table changes only while
its port is drained. -/
def clsWhole (old new : State) : Option Status :=
  let copies (c : ClsIfc) : Bool := (decide (2 ≤ c.defaultAction) || decide (2 ≤ c.malformedAction)) &&
    c.copyRing.isNone
  let moved (i : Nat) : Bool :=
    let p := old.pipe i
    let q := new.pipe i
    (p.flowRecords != q.flowRecords || p.flowSym != q.flowSym || p.tableBase != q.tableBase) &&
      (old.port i).drain != .drained
  if (List.range 4).any fun i => copies (new.clsIfc i) then some .eState
  else if !(new.pipe 0).tableFits || !(new.pipe 1).tableFits then some .eRange
  else if moved 0 || moved 1 then some .eState
  else none

/-- `CLASS_CONFIG` (R138). -/
def execClassConfig (t : Nat) (h : CmdHdr) (recs : List SetRec) (s : State) :
    Host.Outcome State Fault Refusal :=
  s.isain t { op := 0x0701, resv := resvRec recs, late := true } h noObj anyPart fun s =>
    checksAt [(itemBad 0 (clsMiss s) recs, .eState), (onWhole (h.part != 0), .ePriv), unlistedAt h 0x0701]
      (settings (clsChk s) clsApply clsWhole (fun s => s.keep s.clsVal) recs s)

/-- A model handle of a domain names a model on the device, staged or committed. -/
def State.modelHere (d handle : Nat) (s : State) : Bool :=
  ((s.domain d).staging.models.any fun m => m.handle == handle) || (s.liveModel d handle).isSome

/-- A record names a model handle that is on no model (step 5 of R383).
[DEDUCED: notes/assumptions/121.md] -/
def flowMiss (s : State) (r : SetRec) : Bool :=
  r.id == 3 && decide (1 ≤ r.len) && decide (r.len ≤ 256) && decide (1 ≤ r.value) &&
    decide (r.value ≤ 65535) && !s.modelHere packetDomain r.value

/-- The packet-path model under a handle has a flow cell: the staged one, else the committed one. -/
def State.cellNamed (handle : Nat) (s : State) : Bool :=
  match (s.domain packetDomain).staging.models.find? fun m => m.handle == handle with
  | some m => m.flowCell.isSome
  | none => ((s.liveModel packetDomain handle).bind (·.flowCell)).isSome

/-- The settings of `FLOW_TABLE_CONFIG`: 1 `flow_base`, 2 `flow_warm_pkts`, 3 `rs_model`. -/
def flowChk (s : State) (r : SetRec) : Option Status :=
  match r.id with
  | 1 => scopeIn r 2 (if r.value % 64 ≠ 0 then some .eArg else inRange r 0 (2 ^ 48 - 1))
  | 2 => scopeIn r 2 (inRange r 0 255)
  | 3 => scopeIn r 2 (if s.domainBusy packetDomain then some .busy
      else if r.value ≠ 0 ∧ !s.cellNamed r.value then some .eState else inRange r 0 65535)
  | _ => some .eArg

/-- The settings of `FLOW_TABLE_CONFIG` applied; `rs_model` enters the staging set (R310). -/
def flowApply (s : State) (r : SetRec) : State :=
  match r.id with
  | 1 => if (s.pipe r.scope).tableBase = some r.value then s
      else ((s.emptyFlows r.scope).modPipe r.scope fun p => { p with
        flowBase := r.value, flowSet := true }).emptyFlows r.scope
  | 2 => s.modPipe r.scope fun p => { p with warmPkts := r.value }
  | 3 => s.modDomain packetDomain fun d => { d with staging := { d.staging with
      rsModel := (d.staging.rsModel.filter fun e => e.1 != r.scope) ++ [(r.scope, r.value)] } }
  | _ => s

/-- `FLOW_TABLE_CONFIG` (R148, R259, R263). -/
def execFlowTableConfig (t : Nat) (h : CmdHdr) (recs : List SetRec) (s : State) :
    Host.Outcome State Fault Refusal :=
  s.isain t { op := 0x070C, resv := resvRec recs, late := true } h noObj anyPart fun s =>
    checksAt [(itemBad 0 (flowMiss s) recs, .eState), (onWhole (h.part != 0), .ePriv), unlistedAt h 0x070C]
      (settings (flowChk s) flowApply clsWhole (fun s => s.keep s.clsVal) recs s)

/-! ### Update engines (R142, R147, R159) -/

/-- The update engine of a table works for another session or ring. Tables: 0 and 1 the rules of the pipelines, 2 and
3 the tries, 4 the MAC table, 5 and 6 the flow tables. [DESIGN CHOICE: notes/assumptions/59.md] -/
def State.engineBusy (table : Nat) (h : CmdHdr) (s : State) : Bool :=
  s.cls.busy.any fun e => e.1 == table && decide (s.tick < e.2.1) && e.2.2 != h.via

/-- A command takes the update engine of a table for a time that is open, below a bound in ns.
[DESIGN CHOICE: notes/assumptions/59.md] -/
def State.engage (table bound : Nat) (h : CmdHdr) (s : State) : State :=
  let f := s.fresh
  f.2.updCls fun c => { c with
    busy := c.busy.filter (fun e => e.1 != table) ++ [(table, s.tick + freeBelow bound f.1, h.via)] }

/-- The longest an engine works for a command other than a prefix's: Isain's answer time (R385). -/
def engineTime : Nat := 1000000000

/-- The longest a prefix change takes (R147). -/
def prefixTime : Nat := 50000

/-! ### Rule commands (R142, R143) -/

/-- A rule row names a ring that is not made or a handle that is on no model (step 5 of R383).
[DEDUCED: notes/assumptions/121.md] -/
def State.rowMiss (e : Nat × RuleRow) (s : State) : Bool :=
  let a := e.2.action
  ((a.fwdAction == 4 || a.fwdAction == 5) && !s.ringMade (a.egressArg % 4096)) ||
    (a.pmEn && !s.modelHere packetDomain a.pmModel) ||
    (a.deepEn && !s.modelHere a.deepPart a.deepModel)

/-- An action with a value or a combination that R140 or R143 does not have. -/
def RuleAction.wrong (a : RuleAction) : Bool :=
  a.flowMode == 3 || decide (6 ≤ a.fwdAction) || (a.scanEn && !a.deepEn) ||
    decide ((if a.fwdAction = 2 then 4 else if a.fwdAction = 4 ∨ a.fwdAction = 5 then 4096 else 1) ≤
      a.egressArg)

/-- The refusals of a rule row after its number's, in the order of R143. -/
def State.rowChecks (pipe : Nat) (s : State) : List ((Nat × RuleRow → Bool) × Status) :=
  [(fun e => RuleAction.wrong e.2.action ||
      ((e.2.action.fwdAction == 4 || e.2.action.fwdAction == 5) && !s.copyRingOk e.2.action.egressArg),
    .eArg),
   (fun e => (e.2.action.pmEn && (s.liveModel packetDomain e.2.action.pmModel).isNone) ||
      (e.2.action.deepEn && (!(s.part e.2.action.deepPart).enabled ||
        (s.liveModel e.2.action.deepPart e.2.action.deepModel).isNone)), .eState),
   (fun e => e.2.action.scanEn &&
      (tget s.parser.sets e.2.action.scanSet).map (·.owner) != some e.2.action.deepPart, .ePriv),
   (fun e => (s.pipe pipe).deadRows.contains e.1, .eNospace)]

/-- A set of rows written and cleared at once (R142). -/
def Pipeline.writeRows (p : Pipeline) (rows : List (Nat × RuleRow)) (clears : List Nat) : Pipeline :=
  let t := rows.foldl (fun t e => tset t e.1 e.2) p.rules
  { p with
    rules := clears.foldl (fun t n => tmod t n fun r => { r with
      action := { r.action with valid := false } }) t
    offRows := p.offRows.filter fun n => !(rows.map (·.1)).contains n }

/-- A row with a reserved bit set: the row's own, and those of its key and mask (R140). -/
def rowResv (r : RuleRow) : Bool :=
  r.resvBad || r.key.toNat % 2 ^ 9 != 0 || r.mask.toNat % 2 ^ 9 != 0

/-- `RULE_WRITE` (R142, R143). [DESIGN CHOICE: notes/assumptions/59.md] -/
def execRuleWrite (t : Nat) (h : CmdHdr) (pipe : Nat) (rows : List (Nat × RuleRow))
    (clears : List Nat) (s : State) : Host.Outcome State Fault Refusal :=
  s.isain t { op := 0x0702, resv := idxOf? (fun e : Nat × RuleRow => rowResv e.2) rows, late := true } h noObj
    anyPart fun s =>
    checksAt
      ([(itemBad 0 (fun e => s.rowMiss e) rows, .eState), (onWhole (h.part != 0), .ePriv),
        unlistedAt h 0x0702,
        (onWhole (s.engineBusy pipe h), .busy),
        (onWhole (decide (2 ≤ pipe) || rows.isEmpty || decide (32 < rows.length) ||
          decide (63 < clears.length)), .eRange),
        (itemBad 0 (fun e => decide (16384 ≤ e.1)) rows, .eRange),
        (itemBad rows.length (fun n => decide (16384 ≤ n)) clears, .eRange)] ++
       (s.rowChecks pipe).map fun c => (itemBad 0 c.1 rows, c.2))
      (let s := (s.modPipe pipe fun p => p.writeRows rows clears).engage pipe engineTime h
       okReply (s.keep s.clsVal))

/-- The action word of a row (R140). -/
def actionFields (a : RuleAction) : List (Nat × Nat) :=
  let hi := bit a.valid * 2 ^ 63 + a.flowMode * 2 ^ 61 + bit a.macLearn * 2 ^ 60 +
    bit a.pmEn * 2 ^ 59 + bit a.deepEn * 2 ^ 58 + bit a.scanEn * 2 ^ 57 + bit a.annotate * 2 ^ 56 +
    a.fwdAction * 2 ^ 53 + a.pmModel * 2 ^ 32 + a.deepModel * 2 ^ 16 + a.deepPart * 2 ^ 10 +
    a.scanSet * 2 ^ 2 + a.policer / 2 ^ 10
  [(64, hi), (64, a.policer % 2 ^ 10 * 2 ^ 54 + a.egressArg * 2 ^ 38)]

/-- A row that was never written. -/
def noAction : RuleAction :=
  { valid := false, flowMode := 0, macLearn := false, pmEn := false, deepEn := false, scanEn := false,
    annotate := false, fwdAction := 0, pmModel := 0, deepModel := 0, deepPart := 0, scanSet := 0,
    policer := 0, egressArg := 0 }

/-- A row as `RULE_READ` returns it, with its hit count. -/
def Pipeline.rowFields (p : Pipeline) (n : Nat) : List (Nat × Nat) :=
  let r := tgetD p.rules n { key := 0, mask := 0, action := noAction, resvBad := false }
  actionFields r.action ++ [(256, r.key.toNat), (256, r.mask.toNat), (64, tgetD p.hits n 0)]

/-- `RULE_READ` (R395). -/
def execRuleRead (t : Nat) (h : CmdHdr) (pipe start max : Nat) (s : State) :
    Host.Outcome State Fault Refusal :=
  s.isain t { op := 0x0703 } h noObj (isP0 h) fun s =>
    checks [(decide (2 ≤ pipe), .eRange), (s.engineBusy pipe h, .busy)]
      (.done .ok (listPage start max 98 []
        ((List.range (min 99 (16384 - start))).map fun i =>
          (start + i, (s.pipe pipe).rowFields (start + i)))) s)

/-! ### Prefix commands (R145, R146) -/

/-- The node pool of a level: its table number for spares, and its size. -/
def nodePool (v6 : Bool) (level : Nat) : Nat × Nat :=
  if !v6 then (2, 81920) else if level ≤ 3 then (3, 1024) else (7, 163840)

/-- The nodes a prefix needs: level and the address bits above it. -/
def nodesOf (v6 : Bool) (p : Prefix) : List (Nat × Nat) :=
  ((List.range (levelEnds v6).length).map (· + 1)).filterMap fun lv =>
    let up := (0 :: levelEnds v6)[lv - 1]?.getD 0
    if 1 < lv ∧ up < p.len then some (lv, headBits v6 p.bits.toNat up) else none

/-- The nodes of a pool in use. -/
def Classifier.poolUse (c : Classifier) (pool : Nat) : Nat :=
  (c.nodes.filter fun e => (nodePool (e.1.1 == 1) e.1.2.1).1 == pool).length

/-- A pool's capacity (R146, R435). -/
def Classifier.poolSize (c : Classifier) (pool : Nat × Nat) : Nat := pool.2 - tgetD c.poolLost pool.1 0

/-- A node takes a free number of its pool; which one is open, but one freed in the last 1 µs waits its time
(R147). -/
def State.takeNode (v6 : Bool) (n : Nat × Nat) (s : State) : State :=
  let key := (bit v6, n.1, n.2)
  if (aget s.cls.nodes key).isSome then s
  else
    let pool := nodePool v6 n.1
    let used := (s.cls.nodes.filter fun e => nodePool (e.1.1 == 1) e.1.2.1 == pool).map (·.2)
    let held := (s.cls.freed.filter fun e => e.1.1 == pool.1 && decide (s.tick < e.2 + 1000)).map (·.1.2)
    let f := s.fresh
    let at' (j : Nat) : Nat := (f.1 + j) % pool.2
    let l := List.range (used.length + held.length + 1)
    let j := (l.find? fun j => !used.contains (at' j) && !held.contains (at' j)).getD 0
    f.2.updCls fun c => { c with nodes := aset c.nodes key ((f.1 + j) % pool.2) }

/-- A family's prefixes replaced. -/
def Classifier.setTrie (c : Classifier) (v6 : Bool) (l : List Prefix) : Classifier :=
  if v6 then { c with trie6 := l } else { c with trie4 := l }

/-- A prefix is the one of a length and bits. -/
def Prefix.is (p : Prefix) (len bits : Nat) : Bool := p.len == len && p.bits.toNat == bits

/-- The first refusal of a prefix's own form. -/
def prefixForm (v6 : Bool) (len bits : Nat) : List (Bool × Status) :=
  [(decide (famBits v6 < len), .eRange),
   (bits % 2 ^ (famBits v6 - len) != 0, .eArg)]

/-- A pool has no room for the new nodes of a prefix. -/
def State.poolsFull (v6 : Bool) (p : Prefix) (s : State) : Bool :=
  let fresh := (nodesOf v6 p).filter fun n => (aget s.cls.nodes (bit v6, n.1, n.2)).isNone
  [(2, 81920), (3, 1024), (7, 163840)].any fun pool =>
    decide (s.cls.poolSize pool < s.cls.poolUse pool.1 +
      (fresh.filter fun n => nodePool v6 n.1 == pool).length) &&
      fresh.any fun n => nodePool v6 n.1 == pool

/-- When the nodes of a prefix can be linked: at once, or where a pool has too few but for nodes freed in the last
1 µs, when their time is over (R147). [DESIGN CHOICE: notes/assumptions/59.md] -/
def State.nodesReady (v6 : Bool) (p : Prefix) (s : State) : Nat :=
  let need := (nodesOf v6 p).filter fun n => (aget s.cls.nodes (bit v6, n.1, n.2)).isNone
  let held (k : Nat) : List Nat :=
    (s.cls.freed.filter fun e => e.1.1 == k && decide (s.tick < e.2 + 1000)).map (·.2 + 1000)
  ([(2, 81920), (3, 1024), (7, 163840)].flatMap fun pool =>
    let n := (need.filter fun n => nodePool v6 n.1 == pool).length
    if n ≠ 0 ∧ s.cls.poolSize pool < s.cls.poolUse pool.1 + (held pool.1).length + n then held pool.1
    else []).foldl max s.tick

/-- `PREFIX_ADD` (R146, R147). [DESIGN CHOICE: notes/assumptions/59.md]
[DEDUCED: notes/assumptions/121.md] -/
def execPrefixAdd (t : Nat) (h : CmdHdr) (v6 : Bool) (len cls : Nat) (pfx : BitVec 128) (s : State) :
    Host.Outcome State Fault Refusal :=
  s.isain t { op := 0x0704 } h noObj (isP0 h) fun s =>
    let bits := prefixBits v6 pfx
    let p : Prefix := { len := len, bits := BitVec.ofNat 128 bits, cls := cls }
    let l := s.cls.trie v6
    let rest := l.filter fun q => !q.is len bits
    checks
      (prefixForm v6 len bits ++
        [(decide (cls = 0) || decide (2 ^ 20 ≤ cls), .eArg),
         (decide ((if v6 then 524288 else 1048576) < rest.length + 1) || s.poolsFull v6 p, .eNospace),
        (s.engineBusy (2 + bit v6) h, .busy)])
      (okReply (((nodesOf v6 p).foldl (fun s n => s.takeNode v6 n)
        ((s.at (s.nodesReady v6 p)).updCls fun c => c.setTrie v6 (rest ++ [p]))).engage (2 + bit v6) prefixTime h))

/-- A family's nodes that no prefix needs any more are freed (R147). -/
def Classifier.freeNodes (c : Classifier) (v6 : Bool) (tick : Nat) : Classifier :=
  let gone (e : (Nat × Nat × Nat) × Nat) : Bool :=
    e.1.1 == bit v6 && !hasNode (c.trie v6) v6 e.1.2.1 e.1.2.2
  { c with
    nodes := c.nodes.filter fun e => !gone e
    freed := c.freed.filter (fun e => decide (tick < e.2 + 1000)) ++
      (c.nodes.filter gone).map fun e => (((nodePool v6 e.1.2.1).1, e.2), tick) }

/-- `PREFIX_DEL` (R146, R147): the nodes that no prefix needs any more are freed. -/
def execPrefixDel (t : Nat) (h : CmdHdr) (v6 : Bool) (len : Nat) (pfx : BitVec 128) (s : State) :
    Host.Outcome State Fault Refusal :=
  s.isain t { op := 0x0705 } h noObj (isP0 h) fun s =>
    let bits := prefixBits v6 pfx
    let l := s.cls.trie v6
    let rest := l.filter fun q => !q.is len bits
    checks
      (prefixForm v6 len bits ++ [(!l.any (fun q => q.is len bits), .eState),
        (s.engineBusy (2 + bit v6) h, .busy)])
      (okReply ((s.updCls fun c => (c.setTrie v6 rest).freeNodes v6 s.tick).engage (2 + bit v6) prefixTime h))

/-- A trie slot (R145). -/
def Classifier.slotWord (c : Classifier) (v6 : Bool) (level path i : Nat) : Nat :=
  let ends := 0 :: levelEnds v6
  let lo := (ends[level - 1]?).getD 0
  let hi := (ends[level]?).getD 0
  let a := (path * 2 ^ (hi - lo) + i) * 2 ^ (famBits v6 - hi)
  let res := longest ((c.trie v6).filter fun p => decide (lo < p.len) && decide (p.len ≤ hi)) v6 a
  let child := aget c.nodes (bit v6, level + 1, headBits v6 a hi)
  bit child.isSome * 2 ^ 63 + (match res with
    | some p => 2 ^ 62 + p.len * 2 ^ 54 + p.cls * 2 ^ 34
    | none => 0) + child.getD 0

/-- `PREFIX_READ` (R145, R395). Level 1 has the one node 0; a node not in use reads as zeros. -/
def execPrefixRead (t : Nat) (h : CmdHdr) (v6 : Bool) (level node start max : Nat) (s : State) :
    Host.Outcome State Fault Refusal :=
  s.isain t { op := 0x0706 } h noObj (isP0 h) fun s =>
    let ends := 0 :: levelEnds v6
    let size := 2 ^ ((ends[level]?).getD 0 - (ends[level - 1]?).getD 0)
    let path := if level = 1 then some 0
      else (s.cls.nodes.find? fun e => e.1.1 == bit v6 && e.1.2.1 == level && e.2 == node).map
        (·.1.2.2)
    let word (i : Nat) : Nat := match path with
      | some p => s.cls.slotWord v6 level p i
      | none => 0
    checks
      [(decide (level = 0) || decide ((levelEnds v6).length < level) ||
        decide ((if level = 1 then 1 else (nodePool v6 level).2) ≤ node), .eRange),
       (s.engineBusy (2 + bit v6) h, .busy)]
      (.done .ok (listPage start max 1079 []
        ((List.range (min 1080 (size - start))).map fun i => (start + i, [(64, word (start + i))]))) s)

/-! ### MAC commands (R154, R395) -/

/-- `MAC_STATIC` with `op` 0 (R154). -/
def execMacStaticAdd (t : Nat) (h : CmdHdr) (mif vid : Nat) (mac : BitVec 48) (s : State) :
    Host.Outcome State Fault Refusal :=
  s.isain t { op := 0x0707 } h noObj (isP0 h) fun s =>
    let e : MacEntry := { mac := mac, vid := vid, mif := mif, isStatic := true, hit := false }
    let put (k : Nat) : Reply :=
      let s := (s.updCls fun c => { c with macs := tset c.macs k e }).engage 4 engineTime h
      okReply (s.keep s.clsVal)
    if 4 ≤ mif ∨ 4096 ≤ vid then no .eRange
    else if s.engineBusy 4 h then no .busy
    else match s.cls.macFind mac.toNat vid, s.cls.macFree mac.toNat vid with
      | some (k, _), _ => put k
      | none, some k => put k
      | none, none => no .eNospace

/-- `MAC_STATIC` with `op` 1 (R154). Removing an entry that is not there is refused. -/
def execMacStaticRemove (t : Nat) (h : CmdHdr) (vid : Nat) (mac : BitVec 48) (s : State) :
    Host.Outcome State Fault Refusal :=
  s.isain t { op := 0x0707 } h noObj (isP0 h) fun s =>
    if s.engineBusy 4 h then no .busy
    else match s.cls.macs.find? fun e => e.2.isStatic && e.2.mac == mac && e.2.vid == vid with
      | some (k, _) =>
        let s := (s.updCls fun c => { c with macs := tdel c.macs k }).engage 4 engineTime h
        okReply (s.keep s.clsVal)
      | none => no .eState

/-- An entry of R154 as `MAC_READ` returns it. -/
def Classifier.macWord (c : Classifier) (k : Nat) : List (Nat × Nat) :=
  let bad := bit (c.badMacs.contains k) * 8
  match tget c.macs k with
  | none => [(64, 0), (64, bad)]
  | some e =>
    [(64, e.mac.toNat * 2 ^ 16 + e.vid % 2 ^ 12 * 2 ^ 4 + e.mif % 4 * 2 ^ 2 + e.pinIf % 4),
     (64, bit e.isStatic * 2 ^ 63 + bit e.pinned * 2 ^ 62 + e.moves % 64 * 2 ^ 56 +
      e.moveWin % 2 ^ 28 * 2 ^ 28 + e.lastSeen % 2 ^ 24 * 2 ^ 4 + bad + bit e.hit * 4 + 1)]

/-- `MAC_READ` (R154): every entry, in order. -/
def execMacRead (t : Nat) (h : CmdHdr) (start max : Nat) (s : State) :
    Host.Outcome State Fault Refusal :=
  s.isain t { op := 0x0708 } h noObj (isP0 h) fun s =>
    if s.engineBusy 4 h then no .busy
    else .done .ok (listPage start max 539 []
      ((List.range (min 540 (65536 - start))).map fun i => (start + i, s.cls.macWord (start + i)))) s

/-- `MAC_FLUSH` (R395): learned entries of an interface (7 all) and a VLAN (0x1000 all).
[DESIGN CHOICE: notes/assumptions/59.md] -/
def execMacFlush (t : Nat) (h : CmdHdr) (mif vid : Nat) (s : State) :
    Host.Outcome State Fault Refusal :=
  s.isain t { op := 0x0709 } h noObj (isP0 h) fun s =>
    let hit (e : MacEntry) : Bool :=
      !e.isStatic && (mif == 7 || e.mif == mif) && (vid == 0x1000 || e.vid == vid)
    checks [((decide (4 ≤ mif) && decide (mif ≠ 7)) || decide (0x1000 < vid), .eRange),
        (s.engineBusy 4 h, .busy)]
      (.done .ok (pack [(32, (s.cls.macs.filter fun e => hit e.2).length)])
        ((s.updCls fun c => { c with macs := c.macs.filter fun e => !hit e.2 }).engage 4 engineTime h))

/-! ### Flow commands (R159, R395) -/

/-- `FLOW_DELETE` (R159). `raced`: the entry changed between Isain's read and its write. -/
def execFlowDelete (t : Nat) (h : CmdHdr) (pipe : Nat) (key : FlowKey) (raced : Bool) (s : State) :
    Host.Outcome State Fault Refusal :=
  s.isain t { op := 0x070A } h noObj (isP0 h) fun s =>
    let k := keySorted (s.pipe pipe).flowSym key
    if 2 ≤ pipe then no .eRange
    else if s.engineBusy (5 + pipe) h then no .busy
    else match s.flowLook pipe k with
      | .hit a _ =>
        if raced then .done .eConflict [] (s.flowTouch pipe k)
        else okReply (((s.flowTouch pipe k).flowDrop pipe a).engage (5 + pipe) engineTime h)
      | .miss => .done .eState [] (s.flowTouch pipe k)
      | .fault a => .done .eState [] ((s.flowTouch pipe k).flowFaulted pipe a)

/-- `FLOW_READ` (R395): the index entry and the statistics half. -/
def execFlowRead (t : Nat) (h : CmdHdr) (pipe : Nat) (key : FlowKey) (s : State) :
    Host.Outcome State Fault Refusal :=
  s.isain t { op := 0x070B } h noObj (isP0 h) fun s =>
    let k := keySorted (s.pipe pipe).flowSym key
    if 2 ≤ pipe then no .eRange
    else if s.engineBusy (5 + pipe) h then no .busy
    else match s.flowLook pipe k with
      | .hit a i =>
        .done .ok (pack [(128, s.ixAt a), (1024, s.recStats pipe i)]) (s.flowTouch pipe k)
      | .miss => .done .eState [] (s.flowTouch pipe k)
      | .fault a => .done .eFault [] ((s.flowTouch pipe k).flowFaulted pipe a)

end Sys2Proof.Machine
end

