-- ==== Sys2Proof/Machine/Egress.lean ====
section
/-! DEFINITION. Egress: decisions, copies, the verdict header, policers, admission to the queues,
transmit selection, gates and drains (R57, R61, R66, R69, R163 to R180). -/

namespace Sys2Proof.Machine

/-! ### Headers (R167 to R169, R172) -/

/-- The traffic class byte of the IP header at an offset changed; none without an IP header. -/
def setTos (bs : List Byte) (l3 : Nat) (f : Nat → Nat) : Option (List Byte) :=
  if bs.length < l3 + 20 then none
  else if fieldBe bs l3 1 / 16 = 4 then
    some (fixIpv4 (putBytes bs (l3 + 1) (beBytes 1 (f (fieldBe bs (l3 + 1) 1)))) l3)
  else if fieldBe bs l3 1 / 16 = 6 then
    let w := fieldBe bs l3 2
    some (putBytes bs l3 (beBytes 2 (w / 4096 * 4096 + f (w / 16 % 256) % 256 * 16 + w % 16)))
  else none

/-- The IP header's offset in a frame's bytes; none where the record has none. -/
def Frame.l3 (f : Frame) : Option Nat :=
  if f.field 383 368 = 0xFFFF ∨ !(f.pflag 9 || f.pflag 8) then none else some (f.field 383 368)

/-- The DSCP rewritten; a frame with no IP header is unchanged (R169). -/
def remark (f : Frame) (dscp : Nat) : Frame :=
  match f.l3.bind fun l3 => setTos f.bytes l3 fun tos => dscp % 64 * 4 + tos % 4 with
  | some bs => { f with bytes := bs }
  | none => f

/-- The code of a rule's action in a verdict header (R167). -/
def fwdCode : Nat → Nat
  | 2 => 2
  | 3 => 6
  | 4 => 3
  | _ => 0

/-- The verdict header (R167). -/
def verdictHeader (v : Option Verdict) (fwd : Nat) : List Byte :=
  let w : Nat := match v with
    | some v => 2 ^ 108 + v.rung * 2 ^ 106 + v.action * 2 ^ 103 + bit v.deep * 2 ^ 102 +
        (if v.deep then v.part else 0) * 2 ^ 96 + v.model * 2 ^ 80 + v.epoch * 2 ^ 64 +
        v.score.toNat * 2 ^ 32 + min v.stages 255 * 2 ^ 24 + v.tag
    | none => 2 ^ 108 + fwdCode fwd * 2 ^ 103
  beBytes 16 (0x88B5 * 2 ^ 112 + w)

/-- How a header went on: inserted, over an earlier one, or left out (R168). -/
inductive Annotated where
  | added | replaced | skipped
  deriving DecidableEq, Repr

/-- A frame's bytes with a verdict header for an egress interface (R167, R168). -/
def annotate (extra maxFrame : Nat) (hdr bs : List Byte) : List Byte × Annotated :=
  let off := etypeAt extra bs
  if fieldBe bs off 2 = 0x88B5 then (putBytes bs off hdr, .replaced)
  else if maxFrame < bs.length + 16 + 4 then (bs, .skipped)
  else (bs.take off ++ hdr ++ bs.drop off, .added)

/-! ### Policers (R169, R170) -/

/-- The colours of RFC 2698. -/
inductive Colour where
  | green | yellow | red
  deriving DecidableEq, Repr

/-- A policer's buckets at a tick, in 10^-3 bits. -/
def Policer.refill (p : Policer) (tick : Nat) : Policer :=
  { p with
    cTokens := min (p.cTokens + (tick - p.tick) * p.cir) (p.cbs * 8000)
    pTokens := min (p.pTokens + (tick - p.tick) * p.pir) (p.pbs * 8000)
    tick := tick }

/-- A frame metered, colour-blind (R169). -/
def Policer.meter (p : Policer) (bytes tick : Nat) : Policer × Colour :=
  let p := p.refill tick
  let b := bytes * 8000
  if p.pTokens < b then ({ p with reds := p.reds + 1 }, .red)
  else if p.cTokens < b then ({ p with pTokens := p.pTokens - b }, .yellow)
  else ({ p with pTokens := p.pTokens - b, cTokens := p.cTokens - b }, .green)

/-- A frame through a policer: none where it is dropped. A policer that is not configured passes it. -/
def State.police (n bytes : Nat) (f : Frame) (s : State) : Option Frame × State :=
  match tget s.eg.policers n with
  | none => (some f, s)
  | some p =>
    let r := p.meter bytes s.tick
    let s := s.updEg fun e => { e with policers := tset e.policers n r.1 }
    match r.2 with
    | .green => (some f, s)
    | .yellow =>
      if p.yellowAction = 2 then (none, s.count Ctr.txPolYellow n)
      else (some (if p.yellowAction = 1 then remark f p.yellowDscp else f), s)
    | .red =>
      if p.redAction = 0 then (none, s.count Ctr.txPolRed n)
      else (some (remark f p.redDscp), s)

/-- A frame through policers in order. -/
def State.policeAll (bytes : Nat) : List Nat → Frame → State → Option Frame × State
  | [], f, s => (some f, s)
  | n :: rest, f, s =>
    match s.police n bytes f with
    | (some f, s) => State.policeAll bytes rest f s
    | (none, s) => (none, s)

/-! ### Queues and admission (R171, R172, R175) -/

/-- A queue of an interface. -/
def State.queue (ifc q : Nat) (s : State) : Queue := tgetD s.eg.queues (qKey ifc q) {}

/-- A queue changed. -/
def State.modQueue (ifc q : Nat) (f : Queue → Queue) (s : State) : State :=
  s.updEg fun e => { e with queues := tup e.queues (qKey ifc q) {} f }

/-- The bytes of frames named by number. -/
def State.framesLen (l : List Nat) (s : State) : Nat :=
  (l.map fun id => ((s.frame id).map (·.len)).getD 0).sum

/-- `eg_thresh` of a queue, in percent (R174). -/
def Queue.thresh (x : Queue) (q : Nat) : Nat := x.egThresh.getD (60 + 4 * q)

/-- The request slot of a frame freed (R166). -/
def State.releaseSlot (f : Frame) (s : State) : State :=
  match f.slot with
  | some k => s.freeSlot k
  | none => s

/-- A frame dropped in egress, with its slot. -/
def State.dropFrame (id : Nat) (s : State) : State :=
  match s.frame id with
  | some f => (s.releaseSlot f).freeFrame id
  | none => s

/-- ECN marked where the queue holds more than its threshold (R172). -/
def ecnMark (held thresh : Nat) (l3 : Option Nat) (bs : List Byte) : Option (List Byte) :=
  if thresh = 0 ∨ held ≤ thresh then none
  else
    let ecn (off : Nat) : Nat := if fieldBe bs off 1 / 16 = 6 then fieldBe bs off 2 / 16 % 4
      else fieldBe bs (off + 1) 1 % 4
    match l3 with
    | some off => if ecn off = 1 ∨ ecn off = 2 then setTos bs off fun tos => tos / 4 * 4 + 3 else none
    | none => none

/-- The `max_frame` of an interface when a frame was received (R60). -/
def RxSet.maxFrame (ifc : Nat) (x : RxSet) : Nat := (x.maxFrames[ifc]?).getD 9216

/-- The role and the `macsec_mode` of an interface when a frame was received (R60). -/
def RxSet.roleOf (ifc : Nat) (x : RxSet) : Nat := (x.roles[ifc]?).getD 0
def RxSet.modeOf (ifc : Nat) (x : RxSet) : Nat := (x.macsec[ifc]?).getD 0

/-- The frame `id` admitted to its data queue of an interface with the bytes it will be sent with, or
dropped (R171). `l3` is the IP header's offset in those bytes. -/
def State.admitQueue (ifc id : Nat) (bs : List Byte) (l3 : Option Nat) (s : State) : State :=
  match s.frame id with
  | none => s
  | some f =>
    let q := f.prio
    let x := s.queue ifc q
    let held := s.framesLen x.frames
    let len := bs.length + 4
    let key := ifc * 8 + q
    if f.set.maxFrame ifc < len then (s.count Ctr.txMtuDrop key).dropFrame id
    else if x.qLimit < held + len then (s.count Ctr.txQDrop key).dropFrame id
    else if s.sharedBuffer * x.thresh q ≤ s.bufferUse * 100 then
      (s.count Ctr.txBufDrop key).dropFrame id
    else
      let m := ecnMark (held + len) x.ecnThresh l3 bs
      let s := if m.isSome then s.count Ctr.txEcnMark key else s
      let s := (s.releaseSlot f).modFrame id fun f => { f with
        bytes := m.getD bs, slot := none, stage := .queued ifc q s.tick,
        set := { f.set with sojourn := x.maxSojourn } }
      (s.noteHeld f.ifc).modQueue ifc q fun x => { x with
        frames := x.frames ++ [id], hwmBytes := max x.hwmBytes (held + len) }

/-- A frame annotated for an egress interface and put to its queue. -/
def State.sendTo (ifc id : Nat) (f : Frame) (hdr : Option (List Byte)) (s : State) : State :=
  match hdr with
  | none => s.admitQueue ifc id f.bytes f.l3
  | some h =>
    let r := annotate f.set.tpid (f.set.maxFrame ifc) h f.bytes
    let l3 := f.l3.map fun o => if r.2 = .added then o + 16 else o
    let s := match r.2 with
      | .added => s
      | .replaced => s.count Ctr.txAnnotReplace ifc
      | .skipped => s.count Ctr.txAnnotSkip ifc
    s.admitQueue ifc id r.1 l3

/-- The interface number of a further copy of a flooded frame: it takes no ingress share.
[DEDUCED: notes/assumptions/61.md] -/
def cloneIfc : Nat := 8

/-- A frame sent out of several interfaces: further copies are frames of their own.
[DEDUCED: notes/assumptions/61.md] -/
def State.sendAll (id : Nat) (f : Frame) (hdr : Option (List Byte)) : List Nat → State → State
  | [], s => s.dropFrame id
  | [i], s => s.sendTo i id f hdr
  | i :: rest, s =>
    let n := s.parser.nextFrame
    let s := s.updParser fun p => { p with
      nextFrame := n + 1
      frames := tset p.frames n { f with ifc := cloneIfc, cloneOf := some f.ifc, slot := none } }
    State.sendAll id f hdr rest (s.sendTo i n f hdr)

/-- A frame that a decision does not send on: one of an `ENDPOINT` interface counts in `rx_not_local` (R57). -/
def State.discard (id : Nat) (f : Frame) (s : State) : State :=
  (if f.set.role = 4 then s.count Ctr.rxNotLocal f.ifc else s).dropFrame id

/-- A frame metered, then sent (R166, R167, R169), unless its interface was an `ENDPOINT` (R57): the meter counts the bytes with the header that its
first interface takes. -/
def State.ship (id : Nat) (f : Frame) (hdr : Option (List Byte)) (pols outs : List Nat) (s : State) :
    State :=
  let out := outs.headD 0
  let n := match hdr with
    | none => f.len
    | some h => (annotate f.set.tpid (f.set.maxFrame out) h f.bytes).1.length + 4
  if f.set.role = 4 then s.discard id f
  else match s.policeAll n (pols.filter (· != 0)) f with
  | (some f, s) => s.sendAll id f hdr outs
  | (none, s) => s.dropFrame id

/-! ### Decisions (R57, R137, R140, R155, R163, R164) -/

/-- A frame forwarded under its interface's role (R57). -/
def State.forward (id : Nat) (f : Frame) (hdr : Option (List Byte)) (pols : List Nat) (s : State) :
    State :=
  match f.set.role with
  | 1 => s.ship id f hdr pols (s.partner f.ifc).toList
  | 2 => s.ship id f hdr pols (s.partner f.ifc).toList
  | 3 => s.ship id f hdr pols [f.ifc]
  | _ => s.discard id f

/-- A frame sent out of a named interface (R164). -/
def State.steer (id : Nat) (f : Frame) (hdr : Option (List Byte)) (pols : List Nat) (out : Nat)
    (s : State) : State :=
  if f.set.role = 4 then s.discard id f
  else if f.set.roleOf out = 0 ∨ !(s.ifc out).link then (s.count Ctr.txLinkDown f.ifc).dropFrame id
  else s.ship id f hdr pols [out]

/-- A flood (R155). -/
def State.flood (id : Nat) (f : Frame) (hdr : Option (List Byte)) (pols : List Nat) (s : State) :
    State :=
  let outs := s.lineIfcs.filter fun i =>
    i != f.ifc && [1, 2, 3].contains (f.set.roleOf i)
  let s := match f.set.floodRing with
    | some n => s.copyFrame n f 4 none
    | none => s.count Ctr.macFloodNocopy f.ifc
  s.ship id f hdr pols outs

/-- The destination lookup of an `L2` rule (R155, R161). `macBad` is the candidate entry that the
lookup finds uncorrectable. -/
def State.l2 (id : Nat) (f : Frame) (hdr : Option (List Byte)) (pols : List Nat)
    (macBad : Option Nat) (s : State) : State :=
  if (memGet [(0, (f.bytes[0]?).getD 0)] 0).getLsbD 0 then s.flood id f hdr pols
  else match macBad.bind fun i => (macPlaces f.dstMac f.vid)[i]? with
    | some k => (s.macFaulted (portOf f.ifc) k).flood id f hdr pols
    | none =>
      let l := s.macLook (portOf f.ifc) f.dstMac f.vid
      match l.1 with
      | none => l.2.flood id f hdr pols
      | some (_, e) =>
        if e.mif = f.ifc then (l.2.count Ctr.macSameIf f.ifc).discard id f
        else l.2.steer id f hdr pols e.mif

/-- A rule's `fwd_action` (R140). -/
def State.fwdAction (id : Nat) (f : Frame) (a : RuleAction) (macBad : Option Nat) (s : State) : State :=
  let hdr := if a.annotate then some (verdictHeader none a.fwdAction) else none
  let ring := a.egressArg % 4096
  match a.fwdAction with
  | 0 => s.forward id f hdr [a.policer]
  | 2 => s.steer id f hdr [a.policer] (a.egressArg % 4)
  | 3 => s.l2 id f hdr [a.policer] macBad
  | 4 => (s.copyFrame ring f 2 none).forward id f hdr [a.policer]
  | 5 => (s.copyFrame ring f 2 none).discard id f
  | _ => s.discard id f

/-- The partition of a verdict: a packet model counts as partition 0 (R164).
[DEDUCED: notes/assumptions/60.md] -/
def Verdict.owner (v : Verdict) : Nat := if v.deep then v.part else 0

/-- A verdict may name its ring or policer: its partition owns it (R164).
[DEDUCED: notes/assumptions/60.md] -/
def State.verdictMay (v : Verdict) (s : State) : Bool :=
  match v.action with
  | 3 => (s.ring (v.arg % 4096)).rtype == 6 && (s.ring (v.arg % 4096)).owner == v.owner
  | 5 => (s.ring (v.arg % 4096)).rtype == 6 && (s.ring (v.arg % 4096)).owner == v.owner
  | 4 => match tget s.eg.policers (v.arg % 4096) with
    | some p => v.owner == 0 || p.grant == some v.owner
    | none => false
  | _ => true

/-- A verdict acts on its frame (R164). -/
def State.verdictAction (id : Nat) (f : Frame) (v : Verdict) (s : State) : State :=
  let a := f.act.getD noAction
  let hdr := if v.annotate || a.annotate then some (verdictHeader (some v) 0) else none
  if !s.verdictMay v then
    (s.count Ctr.egVerdictPriv f.ifc).forward id f
      (if v.annotate || a.annotate then some (verdictHeader (some { v with action := 0 }) 0) else none)
      [a.policer]
  else match v.action with
    | 0 => s.forward id f hdr [a.policer]
    | 1 => (s.count Ctr.txVerdictDrop f.ifc).discard id f
    | 2 => s.steer id f hdr [a.policer] (v.arg % 4)
    | 3 => (s.copyFrame (v.arg % 4096) f 3 (some v)).forward id f hdr [a.policer]
    | 4 => s.forward id f hdr [a.policer, v.arg % 4096]
    | _ => (s.copyFrame (v.arg % 4096) f 3 (some v)).discard id f

/-- A copy to the interface's copy ring. -/
def State.dfltCopy (f : Frame) (malformed : Bool) (s : State) : State :=
  match f.set.copyRing with
  | some n => s.copyFrame n f (bit malformed) none
  | none => s

/-- `default_action` or `malformed_action` (R137). -/
def State.dfltAction (id : Nat) (f : Frame) (action : Nat) (malformed : Bool) (s : State) : State :=
  match action with
  | 0 => s.forward id f none []
  | 1 => s.discard id f
  | 2 => (s.dfltCopy f malformed).discard id f
  | _ => (s.dfltCopy f malformed).forward id f none []

/-- A frame's decision carried out. -/
def State.egress (id : Nat) (f : Frame) (macBad : Option Nat) (s : State) : State :=
  let a := f.act.getD noAction
  match f.decision with
  | none => s
  | some (.dflt action malformed) => s.dfltAction id f action malformed
  | some .rule => (s.count Ctr.egNoVerdict f.ifc).fwdAction id f a macBad
  | some (.verdict v) => s.verdictAction id f v
  | some .unclassified => s.forward id f none []
  | some .drop => s.discard id f
  | some .flood =>
    s.flood id f (if a.annotate then some (verdictHeader none a.fwdAction) else none) [a.policer]

/-- `EGRESS_DECISION` (R163). -/
def execEgressDecision (t frame : Nat) (macBad : Option Nat) (s : State) :
    Host.Outcome State Fault Refusal :=
  s.happen t
    (fun s => s.moving && (s.frame frame).map (·.stage) == some .egress)
    fun s => match s.frame frame with
      | some f => s.egress frame f macBad
      | none => s

/-- A stage in which a frame is held for the deep path. -/
def FrameStage.held : FrameStage → Bool
  | .scanQueue => true
  | .scanning _ => true
  | .deep => true
  | _ => false

/-- The work of a slot that is given up goes: its fetches, shares and groups. -/
def State.abandon (k : Nat) (s : State) : State :=
  let g := (s.slot k).gen
  let s := (s.closeFetches k g).unparkAll.dropShares k g
  s.updComp fun c => { c with clusters := c.clusters.map fun e => (e.1, { e.2 with
    groups := e.2.groups.filter fun x => (x.2.slot.map fun y => (y.1, y.2.1)) != some (k, g)
    opens := e.2.opens.filter fun x => (x.2.slot.map fun y => (y.1, y.2.1)) != some (k, g) }) }

/-- `EG_HOLD_EXPIRY` (R165): the frame takes `fwd_action`, and its slot is freed. -/
def execEgHoldExpiry (t frame : Nat) (s : State) : Host.Outcome State Fault Refusal :=
  s.happen t
    (fun s => s.moving && match s.frame frame with
      | some f => f.stage.held && decide (f.heldSince + f.set.holdMax ≤ s.tick)
      | none => false)
    fun s => match s.frame frame with
      | none => s
      | some f =>
        let s := match f.slot with
          | some k => ((s.abandon k).freeSlot k).settle2
          | none => s
        s.modFrame frame fun f => { f with slot := none, decision := some .rule, stage := .egress }

/-! ### Shapers and gates (R176 to R178) -/

/-- A shaper's tokens at a tick, in 10^-3 bits. -/
def Queue.shaped (x : Queue) (tick : Nat) : Queue :=
  if x.shapeRate = 0 then { x with tokenTick := tick }
  else { x with
    tokens := min (x.tokens + (tick - x.tokenTick) * x.shapeRate) (x.shapeBurst * 8000)
    tokenTick := tick }

/-- A shaper lets a frame go. -/
def Queue.mayShape (x : Queue) (tick : Nat) : Bool := x.shapeRate == 0 || decide (0 ≤ (x.shaped tick).tokens)

/-- A shaper charged for a frame. -/
def Queue.charge (x : Queue) (len tick : Nat) : Queue :=
  let x := x.shaped tick
  if x.shapeRate = 0 then x else { x with tokens := x.tokens - (len + 20) * 8000 }

/-- The end of an entry from its cycle's start (R177). -/
def GateList.endOf (l : GateList) (i : Nat) : Nat :=
  if l.entries.length ≤ i + 1 then l.cycle
  else min l.cycle ((l.entries.take (i + 1)).map (·.2)).sum

/-- The gate states of an entry. -/
def GateList.statesOf (l : GateList) (i : Nat) : Byte := ((l.entries[i]?).map (·.1)).getD 0xFF

/-- The number of entries of a list before its cycle is cut. -/
def GateList.used (l : GateList) : Nat :=
  ((List.range l.entries.length).find? fun i => decide (l.cycle ≤ l.endOf i)).getD 0 + 1

/-- How long a gate stays open from the start of entry `i`, over at most `fuel` entries. -/
def GateList.openFor (l : GateList) (q : Nat) : Nat → Nat → Nat
  | 0, _ => 0
  | fuel + 1, i =>
    if (l.statesOf i).getLsbD q then
      let len := l.endOf i - (if i = 0 then 0 else l.endOf (i - 1))
      len + GateList.openFor l q fuel (if i + 1 < l.used then i + 1 else 0)
    else 0

/-- The gates of an interface. -/
def State.gates (ifc : Nat) (s : State) : Gates := tgetD s.eg.gates ifc {}

/-- How long a gate stays open from the start of entry `i`; none where no entry closes it. -/
def GateList.openRun (l : GateList) (q i : Nat) : Option Nat :=
  if (List.range l.used).all fun j => (l.statesOf j).getLsbD q then none else some (l.openFor q l.used i)

/-- How long an open gate stays open under the running list alone; none where that never closes it. -/
def Gates.ownRun (g : Gates) (q now : Nat) : Option Nat :=
  match g.running with
  | none => none
  | some l => (l.openRun q (if g.index + 1 < l.used then g.index + 1 else 0)).map (g.entryEnd - now + ·)

/-- When another list takes over or the running one stops, from now, and how long a gate stays open from then
(R177, R179): a list that waits for disciplined time does not start. -/
def Gates.turn (g : Gates) (q now : Nat) (disciplined : Bool) : Option (Nat × Option Nat) :=
  match g.pending, g.stopAt with
  | some l, _ => if disciplined then some (l.start - now, l.openRun q 0) else none
  | none, some e => some (e - now, none)
  | none, none => none

/-- The time until a gate closes, by its list, the next list or a stop; none where it never does (R178). -/
def State.gateLeft (ifc q : Nat) (s : State) : Option Nat :=
  let g := s.gates ifc
  let now := s.wallWord s.tick
  if !g.states.getLsbD q then some 0
  else match g.turn q now (s.wall.state != 0), g.ownRun q now with
    | none, own => own
    | some (at', more), some own => if own < at' then some own else more.map (at' + ·)
    | some (at', more), none => more.map (at' + ·)

/-- The longest run a gate of a list is ever open. -/
def GateList.longest (l : GateList) (q : Nat) : Nat :=
  maxOf ((List.range l.used).map fun i => l.openFor q l.used i)

/-- A frame's transmission, bytes plus 20, ends before so many ns have passed (R178). -/
def State.endsBefore (ifc len left : Nat) (s : State) : Bool := decide ((len + 20) * 8 < left * s.speed ifc)

/-- The head of a data queue. -/
def State.headOf (ifc q : Nat) (s : State) : Option (Nat × Frame) :=
  (s.queue ifc q).frames.head?.bind fun id => (s.frame id).map fun f => (id, f)

/-- PFC pauses a queue. -/
def State.paused (ifc q : Nat) (s : State) : Bool := (tget (s.ifc ifc).pausedUntil q).isSome

/-- A data queue is eligible (R176). -/
def State.eligible (ifc q : Nat) (s : State) : Bool :=
  match s.headOf ifc q with
  | none => false
  | some (_, f) =>
    !s.paused ifc q && (s.queue ifc q).mayShape s.tick &&
      (match s.gateLeft ifc q with
       | none => true
       | some left => s.endsBefore ifc f.len left)

/-- The head of a queue taken off it and dropped. -/
def State.dropHead (ifc q id : Nat) (s : State) : State :=
  (s.modQueue ifc q fun x => { x with frames := x.frames.filter (· != id) }).dropFrame id

/-- Since when a frame waits in its queue. -/
def Frame.since (f : Frame) : Nat :=
  match f.stage with
  | .queued _ _ since => since
  | _ => 0

/-- Frames that reach the head too late are dropped (R173), while no pause holds the queue. -/
def State.trimHead (ifc q : Nat) : Nat → State → State
  | 0, s => s
  | fuel + 1, s =>
    match s.headOf ifc q with
    | none => s
    | some (id, f) =>
      if f.set.sojourn ≠ 0 ∧ f.since + f.set.sojourn < s.tick ∧ !s.paused ifc q then
        State.trimHead ifc q fuel ((s.dropHead ifc q id).count Ctr.txSojournDrop (ifc * 8 + q))
      else s

/-- Heads that fit no open interval of their gate are dropped (R178); what reaches the head behind one may have
waited too long (R173). -/
def State.trimGate (ifc q : Nat) : Nat → State → State
  | 0, s => s
  | fuel + 1, s =>
    match s.headOf ifc q, (s.gates ifc).running with
    | some (id, f), some l =>
      if !s.paused ifc q && !((List.range l.used).all fun i => (l.statesOf i).getLsbD q) &&
          !s.endsBefore ifc f.len (l.longest q) then
        State.trimGate ifc q fuel (((s.dropHead ifc q id).count Ctr.txGateOversize (ifc * 8 + q)).trimHead
          ifc q fuel)
      else s
    | _, _ => s

/-! ### Transmission (R66, R69, R176, R331) -/

/-- A transmit association whose packet numbers are not exhausted. -/
def Sa.live (x : Sa) : Bool := decide (x.nextPn < (if x.xpn then 2 ^ 64 else 2 ^ 32))

/-- A transmit association takes its next packet number; `pn_warn` is told once. -/
def Sa.take1 (x : Sa) : Sa :=
  { x with nextPn := x.nextPn + 1, warned := x.warned || decide (Config.pnWarn x.xpn ≤ x.nextPn + 1) }

/-- What becomes of a frame on its way out under MACsec (R66): EAPOL goes unprotected. With no association ever
installed, should-secure sends unprotected and must-secure drops, of which the rule does not speak; after that no
frame leaves without one. `mode` is the frame's `macsec_mode` (R60).
[DESIGN CHOICE: notes/assumptions/38.md; DESIGN CHOICE: notes/assumptions/62.md] -/
def State.secure (mode ifc : Nat) (eapol : Bool) (s : State) : Option (State × Option (Nat × Sa)) :=
  let i := s.ifc ifc
  if mode = 0 ∨ eapol then some (s, none)
  else if !i.txEver then (if mode = 1 then some (s, none) else none)
  else match i.txSas.find? fun e => e.2.live with
    | none => none
    | some (k, x) =>
      let s := s.modIfc ifc fun i => { i with txSas := tset i.txSas k x.take1 }
      some (if x.take1.warned && !x.warned then s.event 0 0x000A [(8, ifc), (4, k / 4), (2, k % 4)] 0 else s,
        some (k % 4, x))

/-- The bytes of a frame under the association that `State.secure` found for it (R65). -/
def State.sealed (ifc : Nat) (by' : Option (Nat × Sa)) (bs : List Byte) (s : State) : List Byte :=
  match by' with
  | some (an, x) => macsecProtect x an (s.ifc ifc).confOffset bs
  | none => bs

/-- Where a PTP event message lies in a frame: its offset, and the UDP header's where it has one. -/
def ptpAt (extra : Nat) (bs : List Byte) : Option (Nat × Option Nat) :=
  let l3 := etypeAt extra bs + 2
  let udp (l4 : Nat) : Option (Nat × Option Nat) :=
    if fieldBe bs (l4 + 2) 2 = 319 then some (l4 + 8, some l4) else none
  match etype extra bs with
  | 0x88F7 => if fieldBe bs l3 1 % 16 < 4 then some (l3, none) else none
  | 0x0800 => if fieldBe bs (l3 + 9) 1 = 17 then udp (l3 + fieldBe bs l3 1 % 16 * 4) else none
  | 0x86DD => if fieldBe bs (l3 + 6) 1 = 17 then udp (l3 + 40) else none
  | _ => none

/-- A one-step transparent clock: the residence time added to `correctionField`, in 2^-16 ns, and the
UDP checksum recomputed from the words that changed (R69). -/
def addResidence (extra ns : Nat) (bs : List Byte) : List Byte :=
  match ptpAt extra bs with
  | none => bs
  | some (o, udp) =>
    let old := fieldBe bs (o + 8) 8
    let new := (old + ns * 65536) % 2 ^ 64
    let bs' := putBytes bs (o + 8) (beBytes 8 new)
    match udp with
    | none => bs'
    | some u =>
      let c := fieldBe bs (u + 6) 2
      if c = 0 then bs'
      else
        let words (v : Nat) : List Nat := (List.range 4).map fun i => v / 2 ^ (16 * i) % 65536
        let sum := 65535 - onesSum ((65535 - c) :: (words old).map (65535 - ·) ++ words new)
        putBytes bs' (u + 6) (beBytes 2 (if sum = 0 then 65535 else sum))

/-- The bytes a frame leaves with: `ptp_tc` of a pair is held by its `NET` interface, and acts both ways, also on
a further copy of a flooded frame. -/
def State.leaving (ifc : Nat) (f : Frame) (s : State) : List Byte :=
  let i := f.cloneOf.getD f.ifc
  if i < 4 && s.partner i == some ifc && ((s.ifc i).ptpTc || (s.ifc ifc).ptpTc) then
    addResidence f.set.tpid (s.tick - f.rxTick) f.bytes
  else f.bytes

/-- The wall-time stamp of a PTP event message on transmit (R67). -/
def State.eventStamp (extra : Nat) (bs : List Byte) (s : State) : Option Int :=
  if (ptpAt extra bs).isSome then s.wallAt s.tick else none

/-- A queue's and the interface's shapers charged, and the queue's counts. -/
def State.sentFrom (ifc q len wait : Nat) (s : State) : State :=
  (s.modQueue ifc q fun x => { x.charge len s.tick with
    txFrames := x.txFrames + 1, txBytes := x.txBytes + len
    hwmSojourn := max x.hwmSojourn wait }).modQueue ifc 9 fun x => x.charge len s.tick

/-- A poisoned frame is found before its first byte is sent, or during transmission (R331). -/
def State.sendData (ifc q id : Nat) (f : Frame) (s : State) : State :=
  let s := s.modQueue ifc q fun x => { x with frames := x.frames.filter (· != id) }
  let late := Config.freeBool s.freeCount
  let s := if f.poison then { s with freeCount := s.freeCount + 1 } else s
  let s :=
    if f.poison ∧ !late then s.count Ctr.pbFaultDrop ifc
    else match s.secure (f.set.modeOf ifc) ifc (etype f.set.tpid f.bytes == 0x888E) with
      | none => s.count Ctr.txMacsecNosa ifc
      | some (s, by') =>
        let s := if f.poison then s.count Ctr.txFcsStomp ifc else s
        (s.out (.line ifc q (s.sealed ifc by' (s.leaving ifc f)) (!f.poison) (s.eventStamp f.set.tpid f.bytes))).sentFrom ifc q
          f.len (s.tick - f.since)
  (s.freeFrame id).trimHead ifc q (s.queue ifc q).frames.length

/-- A frame that the list of what is sent holds by its fields, with the association that protects it. -/
def sealedSent (by' : Option (Nat × Sa)) (x : Sent) : Sent :=
  match by' with
  | some (an, a) => .secured a.sci.toNat an a.nextPn x
  | none => x

/-- A frame of the K4's own leaves: a PTP event message is stamped, and a `Delay_Req` keeps its time for the answer
(R67, R68). -/
def State.sendOwn (by' : Option (Nat × Sa)) (x : Sent) (s : State) : State :=
  match x with
  | .line i q bs ok _ => s.out (.line i q (s.sealed i by' bs) ok (s.eventStamp (s.ifc i).tpidExtra bs))
  | .ptp i q _ => (s.updWall fun w => { w with delaySent := some (q, s.tick + w.offset) }).out
      (sealedSent by' (.ptp i q (s.wallAt s.tick)))
  | x => s.out (sealedSent by' x)

/-- A frame of a control queue is an EAPOL one. -/
def State.isEapol (x : Sent) (s : State) : Bool :=
  match x with
  | .line i _ bs _ _ => etype (s.ifc i).tpidExtra bs == 0x888E
  | _ => false

/-- The first frame of a control queue sent. -/
def State.sendCtl (ifc : Nat) (s : State) : State :=
  match (s.queue ifc 8).ctl with
  | [] => s
  | (since, len, x) :: rest =>
    let s := s.modQueue ifc 8 fun x => { x with ctl := rest }
    match s.secure (s.ifc ifc).macsecMode ifc (s.isEapol x) with
    | none => s.count Ctr.txMacsecNosa ifc
    | some (s, by') => (s.sendOwn by' x).sentFrom ifc 8 len (s.tick - since)

/-- The weighted queues of an interface, in ascending order. -/
def weighted (strict : Nat) : List Nat := List.range (8 - strict)

/-- The next queue of the weighted group. -/
def nextWeighted (strict q : Nat) : Nat := if q + 1 < 8 - strict then q + 1 else 0

/-- Deficit round-robin (R176): the queue to send from, with the deficits moved on. A queue gets its
quantum when its turn comes. -/
def State.drr (ifc strict : Nat) : Nat → State → Option Nat × State
  | 0, s => (none, s)
  | fuel + 1, s =>
    let q := tgetD s.eg.rrQueue ifc 0 % max 1 (8 - strict)
    let len := ((s.headOf ifc q).map (·.2.len)).getD 0
    if s.eligible ifc q && decide (len ≤ (s.queue ifc q).deficit) then
      (some q, s.modQueue ifc q fun x => { x with
        deficit := if x.frames.length ≤ 1 then 0 else x.deficit - len })
    else
      let s := if (s.queue ifc q).frames.isEmpty then s.modQueue ifc q fun x => { x with deficit := 0 }
        else s
      let n := nextWeighted strict q
      let s := s.updEg fun e => { e with rrQueue := tset e.rrQueue ifc n }
      State.drr ifc strict fuel (if s.eligible ifc n then
        s.modQueue ifc n fun x => { x with deficit := x.deficit + 256 * x.weight } else s)

/-- The data queue that sends next: strict ones, highest first, then the weighted group. -/
def State.pickData (ifc : Nat) (s : State) : Option Nat × State :=
  let strict := min 8 (tgetD s.eg.strictCount ifc 2)
  match ((List.range strict).map (7 - ·)).find? fun q => s.eligible ifc q with
  | some q => (some q, s)
  | none =>
    if (weighted strict).any fun q => s.eligible ifc q then s.drr ifc strict 512 else (none, s)

/-- `TRANSMIT_SELECT` (R176): one frame from the first source with an eligible one. -/
def execTransmitSelect (t ifc : Nat) (s : State) : Host.Outcome State Fault Refusal :=
  s.happen t
    (fun s => s.moving && (s.ifc ifc).link && decide (ifc < 4))
    fun s =>
      let s := (List.range 8).foldl (fun s q => s.trimGate ifc q (s.queue ifc q).frames.length) s
      if !(s.queue ifc 9).mayShape s.tick then s
      else if !(s.queue ifc 8).ctl.isEmpty && (s.queue ifc 8).mayShape s.tick then s.sendCtl ifc
      else
        let p := s.pickData ifc
        match p.1 with
        | none => p.2
        | some q => match p.2.headOf ifc q with
          | some (id, f) => p.2.sendData ifc q id f
          | none => p.2

/-- `GATE_ENTRY_ADVANCE` (R177): an entry's interval ends. At its cycle's end a list that is to stop
stops, and every gate is open; one that restarts after a step of wall time does so at its start (R179). -/
def execGateEntryAdvance (t ifc : Nat) (s : State) : Host.Outcome State Fault Refusal :=
  s.happen t
    (fun s => s.moving && (s.gates ifc).running.isSome &&
      decide ((s.gates ifc).entryEnd ≤ s.wallWord s.tick))
    fun s => s.updEg fun e => { e with gates := tmod e.gates ifc fun g => match g.running with
      | none => g
      | some l =>
        if g.entryEnd = l.start ∧ g.stopAt.isNone then
          { g with index := 0, states := l.statesOf 0, cycleStart := l.start
                   entryEnd := l.start + l.endOf 0 }
        else if g.index + 1 < l.used then
          { g with index := g.index + 1, states := l.statesOf (g.index + 1)
                   entryEnd := g.cycleStart + l.endOf (g.index + 1) }
        else if g.stopAt.isSome then
          { g with running := none, stopAt := none, states := 0xFF, index := 0 }
        else
          { g with index := 0, states := l.statesOf 0, cycleStart := g.cycleStart + l.cycle
                   entryEnd := g.cycleStart + l.cycle + l.endOf 0 } }

/-- `GATE_LIST_START` (R179). -/
def execGateListStart (t ifc : Nat) (s : State) : Host.Outcome State Fault Refusal :=
  s.happen t
    (fun s => s.moving && s.wall.state != 0 && match (s.gates ifc).pending with
      | some l => decide (l.start ≤ s.wallWord s.tick)
      | none => false)
    fun s => s.updEg fun e => { e with gates := tmod e.gates ifc fun g => match g.pending with
      | none => g
      | some l =>
        { running := some l, states := l.statesOf 0, cycleStart := l.start
          entryEnd := l.start + l.endOf 0 } }

/-! ### Drains (R61) -/

/-- A port ends its drain: the waiting commands are answered, and the port's state told. -/
def State.drained (port : Nat) (s : State) : State :=
  match (s.port port).drain with
  | .draining _ hs =>
    let s := s.modPort port fun p => { p with drain := .drained }
    let s := (s.portIfcs port).foldl (fun s i => s.portState i 4) s
    hs.foldl (fun s h => s.answer h 0x0402 .ok noDetail []) s
  | _ => s

/-- A port's queues hold no data frame. -/
def State.queuesEmpty (port : Nat) (s : State) : Bool :=
  (s.portIfcs port).all fun i => (List.range 8).all fun q => (s.queue i q).frames.isEmpty

/-- A frame admitted on an interface that drains has not reached a queue. -/
def State.stillAdmitted (port : Nat) (s : State) : Bool :=
  s.parser.frames.any fun e => (s.drainIfcs port).contains e.2.ifc && !e.2.stage.inQueue

/-- `DRAIN_COMPLETE` (R61). -/
def execDrainComplete (t port : Nat) (s : State) : Host.Outcome State Fault Refusal :=
  s.happen t
    (fun s => s.running && (s.port port).draining.isSome && !s.stillAdmitted port &&
      s.queuesEmpty port)
    fun s => s.drained port

/-- A queue's remaining frames dropped at the end of a drain. [DEDUCED: notes/assumptions/63.md] -/
def State.clearQueue (ifc q : Nat) (s : State) : State :=
  (s.queue ifc q).frames.foldl (fun s id => (s.dropHead ifc q id).count Ctr.txDrainDrop ifc) s

/-- When step 3 of a port's drain ends: with the last frame it had admitted, at the latest at `eg_hold_max` (R61). -/
def State.heldUntil (port start : Nat) (s : State) : Nat :=
  if s.stillAdmitted port then start + s.eg.holdMax else max start (s.port port).heldEnd

/-- `DRAIN_TIMEOUT` (R61): `drain_timeout` after step 3 the remaining frames are dropped.
[DEDUCED: notes/assumptions/63.md] -/
def execDrainTimeout (t port : Nat) (s : State) : Host.Outcome State Fault Refusal :=
  s.happen t
    (fun s => s.running && match (s.port port).draining with
      | some start => decide (s.heldUntil port start + (s.port port).drainTimeout ≤ s.tick)
      | none => false)
    fun s =>
      let s := (s.portIfcs port).foldl (fun s i =>
        (List.range 8).foldl (fun s q => s.clearQueue i q) s) s
      s.drained port

/-! ### Commands (R170, R174, R175, R177, R179) -/

/-- The queue that a shaper setting's scope names: a data queue, from 32 up an interface, from 40 up a
control queue (notes/assumptions/29.md). -/
def shapeScope (n : Nat) : Option (Nat × Nat) :=
  if n < 32 then some (n / 8, n % 8)
  else if n < 36 then some (n - 32, 9)
  else if 40 ≤ n ∧ n < 44 then some (n - 40, 8) else none

/-- The checks of R174's settings, numbered in row order. -/
def egressChk (s : State) (r : SetRec) : Option Status :=
  match r.id with
  | 1 => scopeIn r 4 (inRange r 0 8)
  | 2 => scopeIn r 32 (inRange r 1 127)
  | 3 => scopeIn r 32 (inRange r 16384 67108864)
  | 4 => scopeIn r 32 (inRange r 10 100)
  | 5 => scopeIn r 32 (if r.value = 0 then none else inRange r 4096 67108864)
  | 6 => scopeIn r 32 (if r.value = 0 then none else inRange r 1000 100000000)
  | 7 => match shapeScope r.scope with
    | none => some .eRange
    | some (i, _) => if r.value % 10 ≠ 0 then some .eRange else inRange r 0 (s.speed i * 1000)
  | 8 => match shapeScope r.scope with
    | none => some .eRange
    | some _ => inRange r 2048 1048576
  | 9 => scopeIn r 1 (inRange r 100000 100000000)
  | _ => some .eArg

/-- A setting of R174 applied. -/
def egressApply (s : State) (r : SetRec) : State :=
  let i := r.scope / 8
  let q := r.scope % 8
  let k := (shapeScope r.scope).getD (0, 0)
  match r.id with
  | 1 => s.updEg fun e => { e with strictCount := tset e.strictCount r.scope r.value }
  | 2 => s.modQueue i q fun x => { x with weight := r.value }
  | 3 => s.modQueue i q fun x => { x with qLimit := r.value }
  | 4 => s.modQueue i q fun x => { x with egThresh := some r.value }
  | 5 => s.modQueue i q fun x => { x with ecnThresh := r.value }
  | 6 => s.modQueue i q fun x => { x with maxSojourn := r.value }
  | 7 => s.modQueue k.1 k.2 fun x => { x with
      shapeRate := r.value, tokens := x.shapeBurst * 8000, tokenTick := s.tick }
  | 8 => s.modQueue k.1 k.2 fun x => { x with shapeBurst := r.value }
  | 9 => s.updEg fun e => { e with holdMax := r.value }
  | _ => s

/-- The checks of R174 over a whole change. -/
def egressWhole (_old new : State) : Option Status :=
  if (List.range 4).any fun i => (List.range 7).any fun q =>
      decide ((new.queue i (q + 1)).thresh (q + 1) < (new.queue i q).thresh q) then some .eArg
  else if (List.range 4).any fun i => (List.range 8).any fun q =>
      decide ((new.queue i q).qLimit < (new.queue i q).ecnThresh) then some .eRange
  else none

/-- The kept value of egress. -/
def State.egressVal (s : State) : StVal := .egress s.eg.settings

/-- `EGRESS_CONFIG` (R174). -/
def execEgressConfig (t : Nat) (h : CmdHdr) (recs : List SetRec) (s : State) :
    Host.Outcome State Fault Refusal :=
  s.isain t { op := 0x0801, resv := resvRec recs } h noObj (isP0 h) fun s =>
    settings (egressChk s) egressApply egressWhole (fun s => s.keep s.egressVal) recs s

/-- The checks of a policer's settings: the table of R169, then 7 `yellow_dscp`, 8 `red_dscp`,
9 `pol_grant`. -/
def policerChk (r : SetRec) : Option Status :=
  if r.scope = 0 ∨ 4096 ≤ r.scope then some .eRange
  else match r.id with
    | 1 => inRange r 1 800000
    | 2 => inRange r 1 800000
    | 3 => inRange r 1518 16777216
    | 4 => inRange r 1518 16777216
    | 5 => inRange r 0 2
    | 6 => inRange r 0 1
    | 7 => inRange r 0 63
    | 8 => inRange r 0 63
    | 9 => if r.value = 0x7F then none else inRange r 0 63
    | _ => some .eArg

/-- A policer before its first settings. -/
def blankPolicer : Policer :=
  { cir := 0, pir := 0, cbs := 0, pbs := 0, yellowAction := 0, redAction := 0, yellowDscp := 0,
    redDscp := 0, grant := none, cTokens := 0, pTokens := 0, tick := 0 }

/-- A policer's setting applied; both buckets are refilled (R170). -/
def policerApply (s : State) (r : SetRec) : State :=
  s.updEg fun e => { e with policers := tup e.policers r.scope blankPolicer fun p =>
    let p := match r.id with
      | 1 => { p with cir := r.value }
      | 2 => { p with pir := r.value }
      | 3 => { p with cbs := r.value }
      | 4 => { p with pbs := r.value }
      | 5 => { p with yellowAction := r.value }
      | 6 => { p with redAction := r.value }
      | 7 => { p with yellowDscp := r.value }
      | 8 => { p with redDscp := r.value }
      | 9 => { p with grant := if r.value = 0x7F then none else some r.value }
      | _ => p
    { p with cTokens := p.cbs * 8000, pTokens := p.pbs * 8000, tick := s.tick } }

/-- Every policer is whole: its rates and bursts are set, and `cir` ≤ `pir` (R169). -/
def policerWhole (_old new : State) : Option Status :=
  if new.eg.policers.any fun e => decide (e.2.cir = 0) || decide (e.2.pir = 0) ||
      decide (e.2.cbs = 0) || decide (e.2.pbs = 0) || decide (e.2.pir < e.2.cir) then some .eArg
  else none

/-- `POLICER_CONFIG` (R169, R170). -/
def execPolicerConfig (t : Nat) (h : CmdHdr) (recs : List SetRec) (s : State) :
    Host.Outcome State Fault Refusal :=
  s.isain t { op := 0x0802, resv := resvRec recs } h noObj (isP0 h)
    (settings policerChk policerApply policerWhole (fun s => s.keep s.egressVal) recs)

/-- `GATE_LIST_SET` with no entries (R177). -/
def State.removeGates (ifc : Nat) (s : State) : Reply :=
  let g := s.gates ifc
  let stop := match g.running with
    | some l => if g.entryEnd = l.start then l.start else g.cycleStart + l.cycle
    | none => s.wallWord s.tick
  let s := s.updEg fun e => { e with gates := tup e.gates ifc {} fun g => { g with
    pending := none
    stopAt := if g.running.isSome then some stop else none
    states := if g.running.isSome then g.states else 0xFF } }
  .done .ok (pack [(64, stop)]) (s.keep s.egressVal)

/-- `GATE_LIST_SET` (R177, R179). -/
def execGateListSet (t : Nat) (h : CmdHdr) (ifc base cycle : Nat) (entries : List (Byte × Nat))
    (s : State) : Host.Outcome State Fault Refusal :=
  s.isain t { op := 0x0803 } h noObj (isP0 h) fun s =>
    if 4 ≤ ifc then no .eRange
    else if entries.isEmpty then s.removeGates ifc
    else if 256 < entries.length ∨ cycle < 1000 ∨ 1000000000 < cycle then no .eRange
    else checksAt
      [(itemBad 0 (fun e => decide (e.2 < 100) || decide (1000000000 < e.2)) entries, .eRange)] <|
      let l : GateList := { base := base, cycle := cycle, entries := entries, start := base }
      let s := if s.wall.state = 0 then
          s.updEg fun e => { e with gates := tup e.gates ifc {} fun g => { g with
            pending := some l, stopAt := none } }
        else s.gatePend ifc l (s.wallWord s.tick)
      let start := if s.wall.state = 0 then 0
        else (((s.gates ifc).pending).map (·.start)).getD 0
      .done .ok (pack [(64, start)]) (s.keep s.egressVal)

/-- `GATE_LIST_SET` with no entries (R177). -/
def execGateListRemove (t : Nat) (h : CmdHdr) (ifc : Nat) (s : State) :
    Host.Outcome State Fault Refusal :=
  s.isain t { op := 0x0803 } h noObj (isP0 h) fun s =>
    if 4 ≤ ifc then no .eRange else s.removeGates ifc

/-- The words of `QUEUE_STATS`: queues 0 to 7, then the control queue (notes/assumptions/29.md). -/
def State.queueWords (ifc : Nat) (s : State) : List Nat :=
  (List.range 9).flatMap fun q =>
    let x := s.queue ifc q
    [x.txFrames, x.txBytes, x.hwmBytes, x.hwmSojourn]

/-- `QUEUE_STATS` (R175). -/
def execQueueStats (t : Nat) (h : CmdHdr) (ifc : Nat) (s : State) :
    Host.Outcome State Fault Refusal :=
  s.isain t { op := 0x0804 } h noObj anyPart fun s =>
    if 4 ≤ ifc then no .eRange else .done .ok (s.queueWords ifc) s

/-- `QUEUE_STATS` with `clear` (R175): the marks are zeroed in the same instant. -/
def execQueueStatsClear (t : Nat) (h : CmdHdr) (ifc : Nat) (s : State) :
    Host.Outcome State Fault Refusal :=
  s.isain t { op := 0x0804 } h noObj (isP0 h) fun s =>
    if 4 ≤ ifc then no .eRange
    else .done .ok (s.queueWords ifc) ((List.range 9).foldl (fun s q =>
      s.modQueue ifc q fun x => { x with hwmBytes := 0, hwmSojourn := 0 }) s)

end Sys2Proof.Machine
end

