-- ==== Sys2Proof/Machine/KernelOps.lean ====
section
/-! DEFINITION. Kernel contexts on the cores: launches and their answers, DMA descriptors, the ends of
array jobs and of contexts (R181 to R201, R219 to R221, R227). -/

namespace Sys2Proof.Machine

/-! ### Launches (R182, R198 to R200) -/

/-- The image a launch runs: `some none` for a session encoder, which needs none, and nothing where no
kernel stands under the number. [DEDUCED: notes/assumptions/67.md] -/
def State.launchImage (l : Launch) (s : State) : Option (Option (Nat × Nat)) :=
  if encoderBase ≤ l.desc.kernel then some none
  else if l.desc.slotV then
    ((s.slotModel l.desc.slot).bind fun m => m.kernelAddrs[l.desc.kernel]?).map some
  else (aget s.comp.kernels (l.part, l.desc.kernel)).map fun k => some (k.addr, k.len)

/-- The worst status among those counted: the highest value of R200.
[DEDUCED: notes/assumptions/67.md] -/
def worstOf (counts : Tab Nat) : Nat := maxOf ((counts.filter fun e => e.2 != 0).map (·.1))

/-- One core's status for a `KERNEL_LAUNCH`; with the last one it is answered (R200).
[DEDUCED: notes/assumptions/67.md] -/
def State.noteRun (h : CmdHdr) (status : Nat) (s : State) : State :=
  match aget s.comp.runs h with
  | none => s
  | some r =>
    let counts := tup r.counts status 0 (· + 1)
    if r.left ≤ 1 then
      (s.updComp fun c => { c with runs := adel c.runs h }).answer h 0x0B08 .ok noDetail
        (pack ((8, worstOf counts) :: (List.range 6).map fun i => (16, tgetD counts i 0)))
    else s.updComp fun c => { c with runs := aset c.runs h { left := r.left - 1, counts := counts } }

/-- A launch has ended on a core with a status: whoever asked for it is told. `token` is the launch's owner token
(R106). -/
def State.launchEnd (core : Nat) (d : LaunchDesc) (token : Nat) (asker : Option CmdHdr) (status : Nat)
    (s : State) : State :=
  match asker with
  | some h => s.noteRun h status
  | none =>
    if !d.slotV then s
    else if encoderBase ≤ d.kernel then
      s.encoderEnd d.slot d.slotGen token (d.kernel - encoderBase)
        (if status = 0 then .done else .fault (s.coreScope core))
    else s.stepCoreEnd d.slot d.slotGen token (status == 0)

/-- A record of a unit of a core, into the unit of the cluster it works for (R433, R463). -/
def State.coreTrace (core ctx unit kind status arg since : Nat) (d : LaunchDesc) (s : State) : State :=
  s.trace (s.coreCluster core) (coreRec core ctx unit kind status arg (s.tick - since) d)

/-! ### DMA (R189 to R191) -/

/-- A field of a DMA descriptor. -/
def dmaF (d : BitVec 256) (hi lo : Nat) : Nat := bitsOf d.toNat hi lo

def dmaSrc (d : BitVec 256) : Nat := dmaF d 255 208
def dmaDst (d : BitVec 256) : Nat := dmaF d 207 160
def dmaRowLen (d : BitVec 256) : Nat := dmaF d 159 144
def dmaRows (d : BitVec 256) : Nat := dmaF d 143 128
def dmaSrcStride (d : BitVec 256) : Nat := dmaF d 127 104
def dmaDstStride (d : BitVec 256) : Nat := dmaF d 103 80
def dmaFence (d : BitVec 256) : Bool := dmaF d 67 67 == 1
def dmaNotify (d : BitVec 256) : Bool := dmaF d 66 66 == 1
def dmaDone (d : BitVec 256) : Nat := dmaF d 63 46
def dmaTag (d : BitVec 256) : Nat := dmaF d 45 30

/-- A completion word's address can be written. -/
def doneGood (a : Nat) : Bool := a % 4 == 0 && decide (a + 4 ≤ sramBytes)

/-- A descriptor breaks the table of R189. -/
def dmaBad (d : BitVec 256) : Bool :=
  dmaF d 65 64 != 0 || dmaF d 29 0 != 0 || dmaF d 79 78 == 3 || dmaF d 77 76 == 3 ||
    dmaSrc d % 4 != 0 || dmaDst d % 4 != 0 || dmaRowLen d % 4 != 0 || dmaRowLen d == 0 ||
    dmaRows d == 0 || dmaSrcStride d % 4 != 0 || dmaDstStride d % 4 != 0 || !doneGood (dmaDone d)

/-- The word addresses a descriptor moves, in order, as source and destination. -/
def dmaWords (d : BitVec 256) : List (Nat × Nat) :=
  (List.range (dmaRows d)).flatMap fun r => (List.range (dmaRowLen d / 4)).map fun w =>
    (dmaSrc d + r * dmaSrcStride d + 4 * w, dmaDst d + r * dmaDstStride d + 4 * w)

/-- A core of a cluster is served. [DEDUCED: notes/assumptions/118.md] -/
def State.coreServed (c k : Nat) (s : State) : Bool :=
  s.comp.map.any fun e => e.2.serves && e.2.home == c * 16 + k

/-- The space a field of a descriptor names, seen from a cluster. -/
def State.dmaSpace (c sp core : Nat) (s : State) : Option Space :=
  match sp with
  | 0 => if s.coreServed c core then some (.sram (s.coreAt c core)) else none
  | 1 => some (.store c)
  | 2 => some .device
  | _ => none

/-- An owner's word access lies within its space and passes the check of R184. -/
def State.wordMay (owner : Nat) (x : Space) (right a : Nat) (s : State) : Bool :=
  match x with
  | .sram _ => decide (a + 4 ≤ sramBytes)
  | .store _ => decide (a + 4 ≤ storeBytes)
  | .device => s.mayAccess owner right a 4

/-- A word of a space read: device memory is corrected, counted and recorded (R325, R331). -/
def State.spaceTouch (x : Space) (a : Nat) (s : State) : State :=
  match x with
  | .device => s.touch a 4 0
  | _ => s

/-- Words moved in order until one fails; `bad` says that a source word was uncorrectable. The
status of R189. -/
def State.dmaMove (owner : Nat) (sx dx : Space) : List (Nat × Nat) → Bool → State → State × Nat
  | [], bad, s => (s, bit bad)
  | (a, b) :: r, bad, s =>
    if !(s.wordMay owner sx 1 a && s.wordMay owner dx 2 b) then (s, 2)
    else
      let good := s.spaceGood sx a 4
      let w := s.spaceBytes sx a 4
      let s := s.spaceTouch sx a
      State.dmaMove owner sx dx r (bad || !good)
        (if good then s.spacePut dx b w else s.spacePoison dx b)

/-- A descriptor's effect on the memories, with its status (R189, R191). -/
def State.dmaRun (core : Nat) (d : BitVec 256) (s : State) : State × Nat :=
  let c := s.coreCluster core
  if dmaBad d then (s, 3)
  else
    match s.dmaSpace c (dmaF d 79 78) (dmaF d 75 72), s.dmaSpace c (dmaF d 77 76) (dmaF d 71 68) with
    | some sx, some dx => s.dmaMove (s.coreOwner core) sx dx (dmaWords d) false
    | _, _ => (s, 2)

/-- A completion word in local SRAM: `tag`, status, flags (R189, R220). -/
def State.putDone (core addr tag status flags : Nat) (s : State) : State :=
  if doneGood addr then s.spacePut (.sram core) addr (leBytes 4 (tag * 65536 + status * 256 + flags))
  else s

/-- A descriptor ends: its words moved, its completion word written, its record made. -/
def State.dmaFinish (core ctx : Nat) (x : Ctx) (d : BitVec 256) (since : Nat) (s : State) : State :=
  let r := s.dmaRun core d
  let s := if dmaNotify d then r.1.putDone core (dmaDone d) (dmaTag d) r.2 0 else r.1
  s.coreTrace core ctx 4 4 r.2 (dmaTag d) since x.desc

/-- A queue without one descriptor; the post that waits takes the place (R189). -/
def Ctx.dmaNext (i tick : Nat) (x : Ctx) : Ctx :=
  { x with
    dmaQ := x.dmaQ.eraseIdx i ++ (x.dmaWait.toList.map fun d => (d, tick))
    dmaWait := none }

/-- The descriptor at a place of a context's queue ends. -/
def State.dmaEnd (core ctx i : Nat) (s : State) : State :=
  match s.ctx core ctx with
  | none => s
  | some x =>
    match x.dmaQ[i]? with
    | none => s
    | some (d, since) => (s.dmaFinish core ctx x d since).modCtx core ctx (Ctx.dmaNext i s.tick)

/-- The descriptors that can end next: those before the first fence behind the head (R190).
[DESIGN CHOICE: notes/assumptions/69.md] -/
def dmaReady : List (BitVec 256 × Nat) → Nat
  | [] => 0
  | _ :: r => 1 + ((idxOf? (fun e => dmaFence e.1) r).getD r.length)

/-! ### Matrix jobs that end without a result (R220, R221, R227) -/

/-- A field of a matrix job descriptor (R211). -/
def mxF (d : BitVec 512) (hi lo : Nat) : Nat := bitsOf d.toNat hi lo

def mxDoneAddr (d : BitVec 512) : Nat := mxF d 403 386
def mxNotify (d : BitVec 512) : Bool := mxF d 239 239 == 1
def mxTag (d : BitVec 512) : Nat := mxF d 223 208

def mxA (d : BitVec 512) : Nat := mxF d 511 494
def mxB (d : BitVec 512) : Nat := mxF d 493 476
def mxC (d : BitVec 512) : Nat := mxF d 475 458
def mxD (d : BitVec 512) : Nat := mxF d 457 440
def mxAs (d : BitVec 512) : Nat := mxF d 439 422
def mxBs (d : BitVec 512) : Nat := mxF d 421 404
def mxAStride (d : BitVec 512) : Nat := mxF d 383 368
def mxBStride (d : BitVec 512) : Nat := mxF d 367 352
def mxCStride (d : BitVec 512) : Nat := mxF d 351 336
def mxDStride (d : BitVec 512) : Nat := mxF d 335 320
def mxAsStride (d : BitVec 512) : Nat := mxF d 319 304
def mxBsStride (d : BitVec 512) : Nat := mxF d 303 288
def mxK (d : BitVec 512) : Nat := mxF d 287 272
def mxM (d : BitVec 512) : Nat := mxF d 271 264
def mxN (d : BitVec 512) : Nat := mxF d 263 261
def mxWide (d : BitVec 512) : Bool := mxF d 260 260 == 1
def mxAFmt (d : BitVec 512) : Nat := mxF d 259 256
def mxBFmt (d : BitVec 512) : Nat := mxF d 255 252
def mxAccIn (d : BitVec 512) : Nat := mxF d 251 250
def mxKeep (d : BitVec 512) : Bool := mxF d 249 249 == 1
def mxOut (d : BitVec 512) : Nat := mxF d 248 246
def mxShift (d : BitVec 512) : Nat := mxF d 245 241
def mxSat (d : BitVec 512) : Bool := mxF d 240 240 == 1
def mxArrayBit (d : BitVec 512) : Nat := mxF d 238 238

/-- The job has INT32 accumulators. -/
def mxInt (d : BitVec 512) : Bool := mxAFmt d == 4 || mxAFmt d == 5

/-- A format carries block scales (R210). -/
def mxScaled (d : BitVec 512) : Bool := decide (6 ≤ mxAFmt d)

/-- The 4-bit formats. -/
def fmt4 (f : Nat) : Bool := f == 5 || f == 8

/-- The bytes of `n` elements of a format (R212). -/
def fmtBytes (f n : Nat) : Nat := if fmt4 f then (n + 1) / 2 else if f = 2 ∨ f = 3 then 2 * n else n

/-- The addresses of a row's or column's 8-byte entries. -/
def entryAddrs (base bytes : Nat) : List Nat := (List.range ((bytes + 7) / 8)).map (base + 8 * ·)

/-- Blocks of 32 along the reduction (R210). -/
def mxBlocks (d : BitVec 512) : Nat := (mxK d + 31) / 32

/-- The scale entries of a row or column; none for a format without scales. -/
def scaleAddrs (d : BitVec 512) (base : Nat) : List Nat :=
  if mxScaled d then entryAddrs base (mxBlocks d) else []

/-- A row's or column's entries with its block scales: a scale entry, which serves 256 elements, ahead of theirs
(R207). [DESIGN CHOICE: notes/assumptions/129.md] -/
def withScales (f : Nat) (scales elems : List Nat) : List Nat :=
  if scales.isEmpty then elems
  else let per := fmtBytes f 256 / 8
    scales.zipIdx.flatMap fun e => e.1 :: (elems.drop (e.2 * per)).take per

/-- The row feeders of a job in wide form carry four rows of A side by side, and column feeders 1 to 3 the block scales
of the rows in turn (R207, R223). [DESIGN CHOICE: notes/assumptions/129.md] -/
def wideRows (d : BitVec 512) : List (Nat × List Nat) :=
  let a := fmtBytes (mxAFmt d) (mxK d)
  ((List.range ((mxM d + 3) / 4)).map fun f =>
    (f, (List.range ((a + 7) / 8)).flatMap fun k =>
      ((List.range 4).filter fun i => decide (4 * f + i < mxM d)).map fun i =>
        mxA d + (4 * f + i) * mxAStride d + 8 * k)) ++
  if mxScaled d then (List.range 3).map fun q =>
    (33 + q, ((List.range (mxM d)).filter fun i => i % 3 == q).flatMap fun i =>
      scaleAddrs d (mxAs d + i * mxAsStride d))
  else []

/-- The entries that each feeder queue of a job takes in turn, as addresses (R207).
[DESIGN CHOICE: notes/assumptions/129.md] -/
def feederAddrs (d : BitVec 512) : List (Nat × List Nat) :=
  let rows : List (Nat × List Nat) :=
    if mxWide d then wideRows d
    else (List.range (mxM d)).map fun i =>
      (i, withScales (mxAFmt d) (scaleAddrs d (mxAs d + i * mxAsStride d))
        (entryAddrs (mxA d + i * mxAStride d) (fmtBytes (mxAFmt d) (mxK d))))
  let cols : List (Nat × List Nat) := (List.range (mxN d)).map fun j =>
    (32 + j, withScales (mxBFmt d) (scaleAddrs d (mxBs d + j * mxBsStride d))
      (entryAddrs (mxB d + j * mxBStride d) (fmtBytes (mxBFmt d) (mxK d))))
  if mxK d = 0 then [] else (rows ++ cols).map fun e => (e.1, e.2.take 64)

/-- The feeder queues of a job, filled from local SRAM (R207). -/
def feederFill (m : Mem) (d : BitVec 512) : Tab (List W64) :=
  (feederAddrs d).foldl (fun t e =>
    tset t e.1 (e.2.map fun a => BitVec.ofNat 64 (leNat (memBytes m a 8)))) []

/-- Local SRAM as a job sees it: the entries in its feeder queues stand before what has been written since. -/
def feederView (m : Mem) (d : BitVec 512) (q : Tab (List W64)) : Mem :=
  (feederAddrs d).foldl (fun m e => (e.2.zip (tgetD q e.1 [])).foldl
    (fun m w => memPut m w.1 (leBytes 8 w.2.toNat)) m) m

/-- The jobs of an array that have not ended. -/
def MxArray.live (x : MxArray) : List MxJob := x.jobs.filter fun j => j.ended.isNone

/-- The job an array runs: the oldest, or the oldest of the context that holds it (R221). -/
def MxArray.running (x : MxArray) : Option MxJob :=
  match x.kept with
  | some k => x.live.find? fun j => j.ctx == k.ctx
  | none => x.live.head?

/-- The queues of an array follow the job it runs: filled as it starts, empty with none (R207). -/
def MxArray.refill (m : Mem) (old : Option MxJob) (x : MxArray) : MxArray :=
  if x.running = old then x
  else { x with feeders := match x.running with
    | some j => feederFill m j.desc
    | none => [] }

/-- A core's array. -/
def State.mx (core a : Nat) (s : State) : MxArray := tgetD (s.core core).arrays a {}

/-- An array changed, and its feeder queues with the job it runs. -/
def State.modMx (core a : Nat) (f : MxArray → MxArray) (s : State) : State :=
  s.modCore core fun c => { c with
    arrays := tup c.arrays a {} fun x => (f x).refill c.sram x.running }

/-- A context's last post to a full `FABRIC` ring no longer waits there (R357). -/
def State.posted (x : Ctx) (s : State) : Bool :=
  match x.fabWait with
  | some (n, e) => !(s.ring n).stalled.contains (e.1, [e.2])
  | none => true

/-- A context's open still waits on the full reduce unit of its cluster (R193). -/
def State.openWaits (core ctx : Nat) (s : State) : Bool :=
  (s.cluster (s.coreCluster core)).opens.any fun e => e.2.opener == some (core, ctx)

/-- A context runs a kernel, and no full DMA queue, `FABRIC` ring or reduce unit holds it (R181, R189, R193, R357). -/
def State.ctxFree (core ctx : Nat) (s : State) : Bool :=
  (match s.ctx core ctx with
   | some x => x.dmaWait.isNone && s.posted x
   | none => false) && !s.openWaits core ctx

/-- A context can issue: nothing holds it, and no array's queue either (R181, R219). -/
def State.ctxReady (core ctx : Nat) (s : State) : Bool :=
  s.ctxFree core ctx && (List.range 2).all fun a => (tget (s.mx core a).held ctx).isNone

/-- The launch a context runs. -/
def State.ctxDesc (core ctx : Nat) (s : State) : LaunchDesc :=
  ((s.ctx core ctx).map (·.desc)).getD (slotDesc 0 0)

/-- A job's completion word (R220). -/
def State.mxWord (core : Nat) (x : MxJob) (status flags : Nat) (s : State) : State :=
  if mxNotify x.desc then s.putDone core (mxDoneAddr x.desc) (mxTag x.desc) status flags else s

/-- A job's record (R463). -/
def State.mxRecord (core a : Nat) (x : MxJob) (status flags : Nat) (s : State) : State :=
  s.coreTrace core x.ctx (1 + a) 3 status (flags * 65536 + mxTag x.desc)
    (max x.issued (s.mx core a).lastEnd) (s.ctxDesc core x.ctx)

/-- A job's end: its completion word and its record (R220, R463). -/
def State.mxTell (core a : Nat) (x : MxJob) (status flags : Nat) (s : State) : State :=
  (s.mxWord core x status flags).mxRecord core a x status flags

/-- The completion words of the ended jobs that no other job stands ahead of any more: words are written in job order
(R220). -/
def State.mxFlush (core a : Nat) (s : State) : State :=
  let done := (s.mx core a).jobs.takeWhile fun j => j.ended.isSome
  (done.foldl (fun s j => match j.ended with
    | some e => s.mxWord core j e.1 e.2
    | none => s) s).modMx core a fun x => { x with jobs := x.jobs.drop done.length }

/-- An array without a context's kept accumulators and held issues, its jobs there ended with `ABORTED`. -/
def MxArray.without (ctx : Nat) (x : MxArray) : MxArray :=
  { x with
    jobs := x.jobs.map fun j => if j.ctx == ctx && j.ended.isNone then { j with ended := some (5, 0) } else j
    kept := x.kept.filter fun k => k.ctx != ctx
    held := tdel x.held ctx }

/-- The cycles that an array has been held in a job: how many is open (R207).
[DESIGN CHOICE: notes/assumptions/129.md] -/
def State.mxHeld (core : Nat) (s : State) : State :=
  s.fresh.2.countN Ctr.mxFeedStall (s.coreScope core) s.fresh.1

/-- The jobs of a context on an array end with `ABORTED`, each with its word in job order (R220, R227).
[DEDUCED: notes/assumptions/70.md] -/
def State.abortJobs (core ctx a : Nat) (s : State) : State :=
  let x := s.mx core a
  let s := if x.running.any fun j => j.ctx == ctx then s.mxHeld core else s
  (((x.live.filter fun j => j.ctx == ctx).foldl (fun s j => s.mxRecord core a j 5 0) s).modMx
    core a (MxArray.without ctx)).mxFlush core a

/-! ### The end of a context (R200, R201) -/

/-- A context's DMA queue at its end: what was posted still moves, unless the context is aborted
(notes/assumptions/30.md). -/
def State.drainDma (core ctx status : Nat) (s : State) : State :=
  match s.ctx core ctx with
  | none => s
  | some x =>
    if status = 5 then s
    else (List.range x.dmaQ.length).foldl (fun s _ => s.dmaEnd core ctx 0)
      (s.modCtx core ctx fun x => { x with dmaWait := none })

/-- The walks that a context issued end: the shares whose ensemble it runs stop, and their stages are void (R201,
R240, R244). [DESIGN CHOICE: notes/assumptions/130.md] -/
def State.stopWalks (core ctx : Nat) (s : State) : State :=
  ((s.core core).shares.filter fun x => x.ctx == ctx).foldl (fun s x => match s.slotModel x.slot with
    | some m => s.stopShare core x m 2
    | none => s.dropShare core x.slot x.slotGen) s

/-- A void contribution to one open group, where the ended context owed it one, which is open.
[DESIGN CHOICE: notes/assumptions/68.md] -/
def State.voidMaybe (c i : Nat) (s : State) : State :=
  if s.fresh.1 % 2 = 1 then s.fresh.2.contribute c (.num i) none else s.fresh.2

/-- The void contributions of an ended context, to the groups that kernels of its owner have open (R195). -/
def State.voidOwed (core : Nat) (s : State) : State :=
  ((s.comp.clusters.filter fun e => e.2.owner == s.coreOwner core).flatMap fun e =>
    (e.2.groups.filter fun g => g.2.slot.isNone).map fun g => (e.1, g.1)).foldl
      (fun s g => s.voidMaybe g.1 g.2) s

/-- What a job that did not return leaves undone: its walks end, and its contributions are void (R195, R201). -/
def State.cutShort (core ctx : Nat) (s : State) : State := (s.stopWalks core ctx).voidOwed core

/-- An open of a context that still waits for room goes with the context. -/
def State.dropOpen (core ctx : Nat) (s : State) : State :=
  s.modCluster (s.coreCluster core) fun x => { x with
    opens := x.opens.filter fun e => e.2.opener != some (core, ctx) }

/-- A context leaves its core: its array jobs end with it and its record is written. -/
def State.leaveCore (core ctx status : Nat) (x : Ctx) (s : State) : State :=
  let s := s.drainDma core ctx status
  let s := (s.abortJobs core ctx 0).abortJobs core ctx 1
  let s := s.coreTrace core ctx 0 2 status x.desc.kernel x.start x.desc
  (s.modCore core fun c => { c with ctxs := tdel c.ctxs ctx }).dropOpen core ctx

/-- A context ends with a status of R200: its array jobs and walks end with it, a fault is recorded, and
whoever launched the kernel learns the status. [DEDUCED: notes/assumptions/30.md] -/
def State.endContext (core ctx status : Nat) (s : State) : State :=
  match s.ctx core ctx with
  | none => s
  | some x =>
    let s := s.leaveCore core ctx status x
    let s := if 1 ≤ status ∧ status ≤ 4 then s.jobFault core ctx x.part status x.desc else s
    let s := if status = 0 then s else s.cutShort core ctx
    s.launchEnd core x.desc x.token x.asker status

/-- An encoder that is late ends with its context and the jobs it issued, and nothing else does (R227, R248, R269). -/
def State.endLate (core ctx : Nat) (s : State) : State :=
  match s.ctx core ctx with
  | none => s
  | some x => (s.leaveCore core ctx 5 x).launchEnd core x.desc x.token x.asker 5

end Sys2Proof.Machine
end

