-- ==== Sys2Proof/Machine/Kernels.lean ====
section
/-! DEFINITION. The rows of kernels, the cluster store, the DMA engine and the reduce unit (R181 to
R201, R396, R468). -/

namespace Sys2Proof.Machine

/-! ### Commands (R199, R396) -/

/-- The most bytes of a kernel image. -/
def maxImage : Nat := 65536

/-- `KERNEL_LOAD` (R197). [DEDUCED: notes/assumptions/65.md] -/
def execKernelLoad (t : Nat) (h : CmdHdr) (handle addr len : Nat) (s : State) :
    Host.Outcome State Fault Refusal :=
  s.isain t { op := 0x0B06 } h noObj anyPart fun s =>
    checks
      [((aget s.comp.kernels (h.part, handle)).isSome, .eConflict),
       (decide (maxImage < len), .eArg),
       (!inSoftware addr len, .eRange),
       (!(s.part h.part).covers 1 addr len, .ePriv)]
      (okReply (s.updComp fun c => { c with
        kernels := aset c.kernels (h.part, handle) { part := h.part, addr := addr, len := len } }))

/-- A launch runs a kernel of a partition: it waits on a core or stands in a context. -/
def State.kernelRuns (part handle : Nat) (s : State) : Bool :=
  s.comp.cores.any fun e =>
    (e.2.waiting.any fun l => l.asker.isSome && l.part == part && l.desc.kernel == handle) ||
    (e.2.ctxs.any fun x => x.2.asker.isSome && x.2.part == part && x.2.desc.kernel == handle)

/-- `KERNEL_UNLOAD` (R396). -/
def execKernelUnload (t : Nat) (h : CmdHdr) (handle : Nat) (s : State) :
    Host.Outcome State Fault Refusal :=
  s.isain t { op := 0x0B07 } h (fun s => (aget s.comp.kernels (h.part, handle)).isSome) anyPart fun s =>
    checks [(s.kernelRuns h.part handle, .eState)]
      (okReply (s.updComp fun c => { c with kernels := adel c.kernels (h.part, handle) }))

/-- The logical cores a launch names. -/
def launchCores (d : LaunchDesc) : List Nat := (List.range d.nCores).map (d.firstCore + ·)

/-- The owner of a logical core: that of the cluster its number belongs to (R16). -/
def State.logicalOwner (l : Nat) (s : State) : Nat :=
  match tget s.comp.map l with
  | some e => (s.cluster (e.home / 16)).owner
  | none => 0x7F

/-- A logical core's cluster is leaving its owner (R204). -/
def State.logicalLeaves (l : Nat) (s : State) : Bool :=
  match tget s.comp.map l with
  | some e => (s.cluster (e.home / 16)).leaving.isSome
  | none => false

/-- One past the last logical number: lost ones keep theirs (R12, R15). [DEDUCED: notes/assumptions/118.md] -/
def State.logicalEnd (s : State) : Nat :=
  maxOf ((s.comp.map.filter fun e => decide (1 ≤ e.2.state) && decide (e.2.state ≤ 3)).map (·.1 + 1))

/-- A launch names a core of another owner (R388, R396). -/
def State.launchForeign (h : CmdHdr) (d : LaunchDesc) (s : State) : Bool :=
  (launchCores d).any fun l => decide (l < s.logicalEnd) && s.logicalOwner l != h.part

/-- The refusals of a launch, in order (R199). -/
def State.launchChecks (h : CmdHdr) (d : LaunchDesc) (s : State) : List (Bool × Status) :=
  [(d.nCores == 0 || decide (s.logicalEnd < d.firstCore + d.nCores), .eRange),
   ((launchCores d).any (fun l => (s.physOf l).isNone), .eState),
   (!inDevice d.argAddr d.argLen, .eRange),
   (!(s.part h.part).covers 1 d.argAddr d.argLen, .ePriv),
   (decide (4096 < d.argLen), .eRange),
   (d.slotV || d.argLen % 4 != 0, .eArg),
   (s.closed || (launchCores d).any (fun l => s.logicalLeaves l), .eState)]

/-- A launch names a core that is being retired: it waits for the retirement's end (R432). -/
def State.launchHeld (d : LaunchDesc) (s : State) : Bool :=
  (launchCores d).any fun l => (s.physOf l).any fun p => (s.core p).retiring

/-- The epoch of a partition's domain and the current generations of its tables, as an admission reads them (R287,
R297). [DEDUCED: notes/assumptions/154.md] -/
def State.stampNow (p : Nat) (s : State) : Nat × Tab Nat :=
  ((s.domain p).epoch, (s.models.tables.filter fun e => e.2.owner == p).filterMap fun e =>
    (e.2.genIn .current).map fun g => (e.1, g.g))

/-- A launch placed on its cores. -/
def State.placeLaunch (h : CmdHdr) (d : LaunchDesc) (s : State) : State :=
  let stamp := s.stampNow h.part
  (launchCores d).foldl (fun s l => s.pushLaunch ((s.physOf l).getD 0)
      { desc := d, part := h.part, token := h.token, asker := some h, stamp := stamp })
    (s.updComp fun c => { c with runs := aset c.runs h { left := d.nCores } })

/-- `KERNEL_LAUNCH` (R198, R199, R432): answered when every core has ended; one that names a retiring core is held.
[DEDUCED: notes/assumptions/65.md] -/
def execKernelLaunch (t : Nat) (h : CmdHdr) (d : LaunchDesc) (s : State) :
    Host.Outcome State Fault Refusal :=
  s.isain t { op := 0x0B08, resv := if d.resvBad then some noDetail else none } h
    (fun s => (aget s.comp.kernels (h.part, d.kernel)).isSome)
    (fun s => !s.launchForeign h d) fun s =>
    checks (s.launchChecks h d)
      (.wait (if s.launchHeld d then s.updComp fun c => { c with held := c.held ++ [(h, d)] }
        else s.placeLaunch h d))

/-- A held launch answered with a status. -/
def State.refuseHeld (e : CmdHdr × LaunchDesc) (st : Status) (s : State) : State :=
  (s.updComp fun c => { c with held := c.held.filter (· != e) }).answer e.1 0x0B08 st noDetail []

/-- A held launch at the end of a retirement: once no core it names is being retired it is checked again, and starts or
is refused, as on a core that was lost (R15, R432). [DEDUCED: notes/assumptions/154.md] -/
def State.tryHeld (e : CmdHdr × LaunchDesc) (s : State) : State :=
  if s.launchHeld e.2 then s
  else if (aget s.comp.kernels (e.1.part, e.2.kernel)).isNone then s.refuseHeld e .eState
  else if s.launchForeign e.1 e.2 then s.refuseHeld e .ePriv
  else match (s.launchChecks e.1 e.2).find? (·.1) with
    | some (_, st) => s.refuseHeld e st
    | none => (s.updComp fun c => { c with held := c.held.filter (· != e) }).placeLaunch e.1 e.2

/-! ### Starting a kernel (R182, R198) -/

/-- The arguments' place in local SRAM. -/
def argPlace : Nat := 0x2F000

/-- A launch's arguments copied word by word; an uncorrectable word arrives poisoned. -/
def State.copyArgs (core : Nat) (d : LaunchDesc) (s : State) : State :=
  (List.range (d.argLen / 4)).foldl (fun s i =>
    let a := d.argAddr + 4 * i
    let good := s.mem.readable a 4
    let w := s.bytesAt a 4
    let s := s.touch a 4 0
    if good then s.spacePut (.sram core) (argPlace + 4 * i) w
    else s.spacePoison (.sram core) (argPlace + 4 * i)) s

/-- The lowest free context of a core. [DESIGN CHOICE: notes/assumptions/112.md] -/
def Core.freeCtx (c : Core) : Option Nat := (List.range 4).find? fun k => (tget c.ctxs k).isNone

/-- An image stands in instruction memory. -/
def Core.holds (c : Core) (img : Nat × Nat) : Bool :=
  c.resident.any fun e => e.1 == img.1 && e.2.1 == img.2

/-- An image that a context runs. -/
def Core.runsImage (c : Core) (img : Nat × Nat) : Bool := c.ctxs.any fun e => e.2.image == some img

/-- The image launched the longest ago. -/
def oldestImage : List (Nat × Nat × Nat) → Option (Nat × Nat × Nat)
  | [] => none
  | e :: r =>
    match oldestImage r with
    | none => some e
    | some x => if x.2.2 < e.2.2 then some x else some e

/-- Instruction memory with room for an image: the least recently launched kernels that no context
runs go first (R182). None where the running ones leave no room. -/
def Core.makeRoom (c : Core) (need : Nat) : Nat → List (Nat × Nat × Nat) → Option (List (Nat × Nat × Nat))
  | 0, _ => none
  | fuel + 1, l =>
    if (l.map (·.2.1)).sum + need ≤ maxImage then some l
    else
      match oldestImage (l.filter fun e => !c.runsImage (e.1, e.2.1)) with
      | none => none
      | some x => Core.makeRoom c need fuel (l.erase x)

/-- The device memory that an encoder reads: its count and events in the request's blob. -/
def State.encRange (d : LaunchDesc) (s : State) : Nat × Nat :=
  let x := s.slot d.slot
  match (s.slotModel d.slot).bind fun m =>
      (m.inputs[d.kernel - encoderBase]?).bind fun r => (m.encCell (d.kernel - encoderBase)).map fun c => (r, c) with
  | some (r, c) => (x.blobAddr + r.argC, (s.encBytes x r c).getD 0)
  | none => (0, 0)

/-- The owner of a core's cluster may read what a launch reads as it starts: its arguments, and an encoder's events
(R184). -/
def State.launchMay (core : Nat) (d : LaunchDesc) (s : State) : Bool :=
  let r := if encoderBase ≤ d.kernel then s.encRange d else (d.argAddr, d.argLen)
  s.mayAccess (s.coreOwner core) 1 r.1 r.2

/-- The core's waiting launch starts in a context (R198). Arguments that its cluster's owner may not read are an
access fault of the new context (R184). -/
def State.startLaunch (core k : Nat) (l : Launch) (img : Option (Nat × Nat)) (s : State) : State :=
  let now := s.tick
  let x : Ctx :=
    { desc := l.desc, part := l.part, token := l.token, asker := l.asker, image := img, start := now
      work := l.work, stamp := l.stamp }
  let s := s.modCore core fun c => { c with
    waiting := c.waiting.drop 1
    resident := c.resident.map fun e => if img = some (e.1, e.2.1) then (e.1, e.2.1, now) else e
    ctxs := tset c.ctxs k x }
  let s := s.coreTrace core k 0 1 0 l.desc.kernel now l.desc
  if s.launchMay core l.desc then s.copyArgs core l.desc
  else s.endContext core k 2

/-- A waiting launch taken off its core. -/
def State.dropLaunch (core : Nat) (s : State) : State :=
  s.modCore core fun c => { c with waiting := c.waiting.drop 1 }

/-- A launch for a slot that has been freed or orphaned (R198). -/
def State.launchStale (l : Launch) (s : State) : Bool :=
  l.asker.isNone && l.desc.slotV && !s.slotMatch l.desc.slot l.desc.slotGen l.token

/-- A launch that has no context yet ends with `ABORTED`, and what it owed is void (R195, R204). -/
def State.abortLaunch (core : Nat) (l : Launch) (s : State) : State :=
  (s.voidOwed core).launchEnd core l.desc l.token l.asker 5

/-- The first waiting launch of a core moves as far as it can; one sent while its cluster was leaving its owner ends
with `ABORTED` (R204). [DEDUCED: notes/assumptions/131.md] -/
def State.tryLaunch (core : Nat) (l : Launch) (s : State) : State :=
  if s.launchStale l then (s.dropLaunch core).tally Ctr.staleCompletion
  else if l.barred then (s.dropLaunch core).abortLaunch core l
  else
    let c := s.core core
    match c.freeCtx, s.launchImage l with
    | none, _ => s
    | some _, none => (s.dropLaunch core).abortLaunch core l
    | some k, some none => s.startLaunch core k l none
    | some k, some (some img) =>
      if c.holds img then s.startLaunch core k l (some img)
      else if c.loading.isSome then s
      else
        match c.makeRoom img.2 (c.resident.length + 1) c.resident with
        | none => s
        | some r => s.modCore core fun c => { c with resident := r, loading := some img }

/-- `KERNEL_START` (R198): the first waiting launch starts in a free context, or its image begins to
load. -/
def execKernelStart (t core : Nat) (s : State) : Host.Outcome State Fault Refusal :=
  s.happen t (fun s => s.moving && !(s.core core).retiring) fun s =>
    match (s.core core).waiting with
    | l :: _ => (s.tryLaunch core l).settle2
    | [] => s

/-- The first waiting launch ends with a fault before it has a context. -/
def State.launchFault (core : Nat) (l : Launch) (status : Nat) (s : State) : State :=
  (((s.dropLaunch core).jobFault core 0 l.part status l.desc).voidOwed core).launchEnd core l.desc l.token l.asker
    status

/-- An image arrives in instruction memory; one that the cluster's owner may not read, or a word that faults, ends
the launch (R184, R331). -/
def State.imageLoaded (core : Nat) (img : Nat × Nat) (l : Launch) (check : WordCheck) (s : State) :
    State :=
  let bad := checkBad check || !s.mem.readable img.1 img.2
  let may := s.mayAccess (s.coreOwner core) 1 img.1 img.2
  let s := s.modCore core fun c => { c with loading := none }
  let s := if may then (s.strike [img] check).touch img.1 img.2 0 else s
  if !may then s.launchFault core l 2
  else if bad then s.launchFault core l 1
  else s.modCore core fun c => { c with resident := c.resident ++ [(img.1, img.2, s.tick)] }

/-- `KERNEL_IMAGE_LOAD_DONE` (R182, R331). -/
def execKernelImageLoadDone (t core kernel : Nat) (check : WordCheck) (s : State) :
    Host.Outcome State Fault Refusal :=
  s.happen t (fun s => s.moving) fun s =>
    match (s.core core).loading, (s.core core).waiting with
    | some img, l :: _ =>
      if l.desc.kernel = kernel then
        s.imageLoaded core img l check
      else s
    | _, _ => s

/-- `KERNEL_END` (R200, R201): a kernel returns or faults. The statuses `TIMEOUT` and `ABORTED` have
rows of their own. [DESIGN CHOICE: notes/assumptions/66.md] -/
def execKernelEnd (t core ctx status : Nat) (s : State) : Host.Outcome State Fault Refusal :=
  s.happen t (fun s => s.moving && decide (status ≤ 3) && s.ctxReady core ctx) fun s =>
    (s.endContext core ctx status).settle2

/-- The contexts of a core that run an encoder of a slot. -/
def Core.encodersOf (k gen : Nat) (c : Core) : List Nat :=
  (c.ctxs.filter fun x => encodesFor k gen x.2.desc).map (·.1)

/-- The encoders of a slot that are not done end late: their launches go, and their contexts end with all they
issued (R227, R269). -/
def State.stopEncoders (k gen : Nat) (s : State) : State :=
  let s := (s.slot k).encoders.foldl (fun s i => s.encoderEnd k gen (s.slot k).token i .late) s
  let s := s.updComp fun c => { c with cores := c.cores.map fun e => (e.1, { e.2 with
    waiting := e.2.waiting.filter fun l => !encodesFor k gen l.desc }) }
  (s.comp.cores.flatMap fun e => (e.2.encodersOf k gen).map fun i => (e.1, i)).foldl
    (fun s e => s.endLate e.1 e.2) s

/-- `DEADLINE_CUTOFF` (R248): at C the request's walks end, its clusters' groups close, and its
encoders are late. -/
def execDeadlineCutoff (t slot : Nat) (s : State) : Host.Outcome State Fault Refusal :=
  s.happen t
    (fun s => s.moving && (s.slot slot).state == .running && decide (s.cutoff slot ≤ s.tick))
    fun s =>
      let g := (s.slot slot).gen
      (((s.stopEncoders slot g).stopShares slot g).closeSlotGroups slot g).settle2

/-- `KERNEL_MAX_RUN_EXPIRY` (R200). [DEDUCED: notes/assumptions/68.md] -/
def execKernelMaxRunExpiry (t core ctx : Nat) (s : State) : Host.Outcome State Fault Refusal :=
  s.happen t (fun s => s.moving && (match s.ctx core ctx with
    | some x => decide (x.start + (s.part x.part).kernelMaxRun ≤ s.tick)
    | none => false)) fun s => (s.endContext core ctx 4).settle2

/-! ### A context's address space (R183) -/

/-- Where a context's address leads: a place of a memory, or an offset in the page of core registers. -/
inductive CtxPlace where
  | mem (x : Space) (a : Nat)
  | page (off : Nat)
  deriving DecidableEq, Repr

/-- The map of R183: `n` bytes at a context's address, none where they leave the listed ranges. -/
def State.ctxPlace (core addr n : Nat) (s : State) : Option CtxPlace :=
  if addr + n ≤ sramBytes then some (.mem (.sram core) addr)
  else if 0x100000 ≤ addr ∧ addr + n ≤ 0x300000 then
    some (.mem (.store (s.coreCluster core)) (addr - 0x100000))
  else if 0x1000000 ≤ addr ∧ addr + n ≤ 0x1001000 then some (.page (addr - 0x1000000))
  else if 2 ^ 48 ≤ addr ∧ addr + n ≤ 2 ^ 49 then some (.mem .device (addr - 2 ^ 48))
  else none

/-- A register of a context written. -/
def State.setReg (core ctx dst v : Nat) (s : State) : State :=
  s.modCtx core ctx fun x => { x with regs := tset x.regs dst (BitVec.ofNat 64 v) }

/-- Sticky flags as a word, in the order of R187. [DESIGN CHOICE: notes/assumptions/66.md] -/
def FFlags.word (f : FFlags) : Nat :=
  bit f.invalid + 2 * bit f.divZero + 4 * bit f.overflow + 8 * bit f.underflow + 16 * bit f.inexact

/-- The core-register page read: the cycle counter, the tick copy of the cluster's island, its clock in MHz and the
context's flags, at offsets 0, 8, 16 and 24; the rest of the page, and how many cycles have passed, are open.
[DESIGN CHOICE: notes/assumptions/66.md] -/
def State.pageRead (core ctx off : Nat) (s : State) : Nat × State :=
  let c := s.coreCluster core
  match off with
  | 0 =>
    let n := (s.core core).cycles + s.fresh.1
    (n, s.fresh.2.modCore core fun x => { x with cycles := n })
  | 8 => ((s.islandNow c).getD 0, s)
  | 16 => (s.clock c, s)
  | 24 => (match s.ctx core ctx with
    | some x => x.flags.word
    | none => 0, s)
  | _ => s.fresh

/-- The core-register page written: a write to the flags clears them (R187). -/
def State.pageWrite (core ctx off : Nat) (s : State) : State :=
  if off = 24 then s.modCtx core ctx fun x => { x with flags := {} } else s

/-- The bytes that an access reaches. -/
def accSize : KAccess → Nat
  | .load _ _ n => n
  | .store _ n _ => n

/-- The address of an access. -/
def accAddr : KAccess → Nat
  | .load _ a _ => a
  | .store a _ _ => a

/-- The right an access needs: 1 read, 2 write. -/
def accRight : KAccess → Nat
  | .load _ _ _ => 1
  | .store _ _ _ => 2

/-- An access is of 1, 2, 4 or 8 bytes. -/
def accFormed (x : KAccess) : Bool := [1, 2, 4, 8].contains (accSize x)

/-- One access that its checks have passed. -/
def State.doAccess (core ctx : Nat) (p : CtxPlace) (x : KAccess) (s : State) : State :=
  match p, x with
  | .mem y a, .load dst _ n => (s.spaceTouch y a).setReg core ctx dst (leNat (s.spaceBytes y a n))
  | .mem y a, .store _ n v => s.spacePut y a (leBytes n (v.toNat % 2 ^ (8 * n)))
  | .page off, .load dst _ n =>
    let r := s.pageRead core ctx off
    r.2.setReg core ctx dst (r.1 % 2 ^ (8 * n))
  | .page off, .store _ _ _ => s.pageWrite core ctx off

/-- The status that an access ends its context with: 2 outside the map or the owner's ranges, 1 where a word read
is uncorrectable (R183, R184, R201). -/
def State.accessFault (core : Nat) (x : KAccess) (s : State) : Option Nat :=
  match s.ctxPlace core (accAddr x) (accSize x) with
  | none => some 2
  | some (.page _) => none
  | some (.mem y a) =>
    if (match y with
      | .device => !s.mayAccess (s.coreOwner core) (accRight x) a (accSize x)
      | _ => false) then some 2
    else if accRight x == 1 && !s.spaceGood y a (accSize x) then some 1
    else none

/-- A context's accesses in program order, to the first that faults. -/
def State.runAccesses (core ctx : Nat) : List KAccess → State → State
  | [], s => s
  | x :: r, s =>
    match s.accessFault core x, s.ctxPlace core (accAddr x) (accSize x) with
    | some st, _ => s.endContext core ctx st
    | none, some p => State.runAccesses core ctx r (s.doAccess core ctx p x)
    | none, none => s

/-! ### The cluster store (R192) -/

/-- The result of an atomic operation on a word of `w` bits. Whether minimum and maximum are signed
is open. [DESIGN CHOICE: notes/assumptions/71.md] -/
def atomicResult (w : Nat) (op : AtomicOp) (old arg : Nat) : Nat :=
  let le : Bool := if Config.atomicSigned then decide (asInt w old ≤ asInt w arg) else decide (old ≤ arg)
  match op with
  | .add => (old + arg) % 2 ^ w
  | .min => if le then old else arg
  | .max => if le then arg else old
  | .swap => arg
  | .cas e => if old = e % 2 ^ w then arg else old
  | .fadd => (fadd (BitVec.ofNat 32 old) (BitVec.ofNat 32 arg)).toNat

/-- An atomic operation that the store has: FP32 add is 32 bits wide. -/
def atomicForm (wide : Bool) (op : AtomicOp) : Bool := !(wide && op == .fadd)

/-- An atomic operation done at its bank: the old word goes to a register of the context. -/
def State.storeAtomic (core ctx dst c a n : Nat) (op : AtomicOp) (arg : Nat) (s : State) : State :=
  let old := leNat (s.spaceBytes (.store c) a n)
  (s.spacePut (.store c) a (leBytes n (atomicResult (8 * n) op old (arg % 2 ^ (8 * n))))).setReg core ctx dst old

/-- `CLUSTER_STORE_ATOMIC` (R192): read, operation and write at the bank in one step. An address outside the store is
an access fault, an uncorrectable word an operand fault (R183, R201). [DESIGN CHOICE: notes/assumptions/71.md] -/
def execClusterStoreAtomic (t core ctx dst addr : Nat) (wide : Bool) (op : AtomicOp) (arg : Nat) (s : State) :
    Host.Outcome State Fault Refusal :=
  let n := if wide then 8 else 4
  s.happen t (fun s => s.moving && s.ctxReady core ctx && atomicForm wide op && addr % n == 0) fun s =>
    match s.ctxPlace core addr n with
    | some (.mem (.store c) a) =>
      if s.spaceGood (.store c) a n then s.storeAtomic core ctx dst c a n op arg
      else (s.endContext core ctx 1).settle2
    | _ => (s.endContext core ctx 2).settle2

/-- `CLUSTER_FENCE` (R192): the context's own loads and stores up to the fence, in program order (R183); every store
of the model is visible at once, so the fence then completes. [DESIGN CHOICE: notes/assumptions/66.md] -/
def execClusterFence (t core ctx : Nat) (acc : List KAccess) (s : State) : Host.Outcome State Fault Refusal :=
  s.happen t (fun s => s.moving && s.ctxReady core ctx && acc.all accFormed) fun s =>
    (s.runAccesses core ctx acc).settle2

/-- A cluster's owner may write range markers (R426, R468): partition 0, which holds the packet path
too, or a holder of `trace_mark`. [DEDUCED: notes/assumptions/72.md] -/
def State.mayMark (owner : Nat) (s : State) : Bool :=
  rangeOwner owner == 0 || (decide (owner < 64) && (s.part owner).rights.getLsbD 0)

/-- The kind of a range marker. -/
def markKind (begin : Bool) : Nat := if begin then 8 else 9

/-- `KERNEL_MARK_INSN` (R468). -/
def execKernelMarkInsn (t core ctx : Nat) (begin : Bool) (mark : Nat) (s : State) :
    Host.Outcome State Fault Refusal :=
  s.happen t (fun s => s.moving && s.ctxReady core ctx) fun s =>
    match s.ctx core ctx with
    | none => s
    | some x =>
      if s.mayMark (s.coreOwner core) then
        s.coreTrace core ctx 0 (markKind begin) 0 (mark % 65536) s.tick x.desc
      else s.count Ctr.dillMarkDenied (s.coreCluster core)

/-! ### The DMA engine (R189 to R191) -/

/-- A descriptor posted, or held where 64 stand in the queue. -/
def Ctx.post (d : BitVec 256) (tick : Nat) (x : Ctx) : Ctx :=
  if x.dmaQ.length < 64 then { x with dmaQ := x.dmaQ ++ [(d, tick)] } else { x with dmaWait := some d }

/-- `DMA_POST` (R189). A descriptor outside local SRAM is an access fault, an uncorrectable one an
operand fault (R183, R201). A context whose post waits issues no other.
[DESIGN CHOICE: notes/assumptions/69.md] -/
def execDmaPost (t core ctx addr : Nat) (s : State) : Host.Outcome State Fault Refusal :=
  s.happen t (fun s => s.moving && s.ctxReady core ctx) fun s =>
    if sramBytes < addr + 32 then (s.endContext core ctx 2).settle2
    else if !s.spaceGood (.sram core) addr 32 then (s.endContext core ctx 1).settle2
    else s.modCtx core ctx
      (Ctx.post (BitVec.ofNat 256 (leNat (s.spaceBytes (.sram core) addr 32))) s.tick)

/-- `DMA_COMPLETE` (R190, R191): one of the descriptors that may have started ends; which one is
open. [DESIGN CHOICE: notes/assumptions/69.md] -/
def execDmaComplete (t core ctx : Nat) (s : State) : Host.Outcome State Fault Refusal :=
  s.happen t (fun s => s.moving) fun s =>
    match s.ctx core ctx with
    | none => s
    | some x =>
      let n := dmaReady x.dmaQ
      if n ≤ 1 then s.dmaEnd core ctx 0
      else s.fresh.2.dmaEnd core ctx (freeBelow n s.fresh.1)

/-! ### The reduce unit (R193, R194) -/

/-- The destination an open names: 0 a store address, 1 a group of a cluster as cluster × 128 + number,
2 the result of a request slot. -/
def State.groupDest (dest : Nat × Nat) (s : State) : Option GroupDest :=
  match dest.1 with
  | 0 => some (.store dest.2)
  | 1 => some (.group (dest.2 / 128) (dest.2 % 128))
  | 2 => some (.slot dest.2 (s.slot dest.2).gen 0)
  | _ => none

/-- A destination that the opening cluster may name (R193).
[DESIGN CHOICE: notes/assumptions/78.md] -/
def State.destGood (c len : Nat) (d : GroupDest) (s : State) : Bool :=
  match d with
  | .store a => a % 4 == 0 && decide (a + 4 * len + 8 ≤ storeBytes)
  | .group c' _ => decide (c' < nClusters) && (s.cluster c').owner == (s.cluster c).owner
  | .slot k gen _ => (s.slot k).state == .running && (s.slot k).gen == gen &&
      (s.slot k).part == (s.cluster c).owner

/-- The fields of an open are within R193, and the cluster still takes opens (R204). -/
def State.openGood (c op len expected : Nat) (s : State) : Bool :=
  decide (c < nClusters) && (s.cluster c).leaving.isNone && decide (op < 3) && decide (1 ≤ len) &&
    decide (len ≤ 4096) && decide (1 ≤ expected) && decide (expected ≤ 256)

/-- `REDUCE_GROUP_OPEN` (R193): on the context's own cluster the group opens, or waits behind those before it. An open
that names a foreign destination is the context's access fault, and nothing opens. The context waits with its open.
[DESIGN CHOICE: notes/assumptions/78.md] -/
def execReduceGroupOpen (t core ctx op len expected closeTick : Nat) (dest : Nat × Nat) (s : State) :
    Host.Outcome State Fault Refusal :=
  s.happen t (fun s => s.moving && s.ctxReady core ctx &&
      s.openGood (s.coreCluster core) op len expected && (s.groupDest dest).isSome) fun s =>
    let c := s.coreCluster core
    match s.groupDest dest with
    | none => s
    | some d =>
      if s.destGood c len d then
        s.modCluster c fun x => x.open s.tick
          { op := op, len := len, expected := expected, closeTick := closeTick, dest := d
            opener := some (core, ctx) }
      else (s.endContext core ctx 2).settle2

/-- A contribution has its group's length. -/
def State.fitsGroup (c group : Nat) (data : Option (List W32)) (s : State) : Bool :=
  match data, tget (s.cluster c).groups group with
  | some v, some g => v.length == g.len
  | _, _ => true

/-- `REDUCE_CONTRIBUTION` (R194, R195): folded in, or late. A contribution without data is void. -/
def execReduceContribution (t cluster group : Nat) (data : Option (List W32)) (s : State) :
    Host.Outcome State Fault Refusal :=
  s.happen t (fun s => s.moving && decide (cluster < nClusters) && s.fitsGroup cluster group data)
    fun s => (s.contribute cluster (.num group) data).settle2

/-- A group that waits for room closes empty at its close tick. -/
def State.closeWaiting (c i : Nat) (s : State) : State :=
  match (s.cluster c).opens[i]? with
  | some (_, g) => (s.modCluster c fun x => { x with opens := x.opens.eraseIdx i }).deliverGroup chainFuel c g
  | none => s

/-- The group that a close tick names: below 128 an open one, above it one that waits.
[DEDUCED: notes/assumptions/133.md] -/
def State.closing (c i : Nat) (s : State) : Option Group :=
  if i < 128 then tget (s.cluster c).groups i else ((s.cluster c).opens[i - 128]?).map (·.2)

/-- `REDUCE_CLOSE_TICK` (R194). -/
def execReduceCloseTick (t cluster group : Nat) (s : State) : Host.Outcome State Fault Refusal :=
  s.happen t (fun s => s.moving && (match s.closing cluster group with
    | some g => decide (g.closeTick ≤ s.tick)
    | none => false)) fun s =>
    (if group < 128 then s.closeGroup cluster group else s.closeWaiting cluster (group - 128)).settle2

end Sys2Proof.Machine
end

