-- ==== Sys2Proof/Machine/Matrix.lean ====
section
/-! DEFINITION. The matrix arrays: job descriptors and their checks, accumulation, drain and the ends
of jobs (R206 to R227). -/

namespace Sys2Proof.Machine

/-! ### The descriptor (R208, R211) -/

/-- The pairings of R208. -/
def pairGood (a b : Nat) : Bool :=
  (decide (a ≤ 1) && decide (b ≤ 1)) || (a == b && decide (2 ≤ a) && decide (a ≤ 5)) ||
    ((a == 6 || a == 7) && (b == 6 || b == 7)) || (a == 8 && b == 8)

/-- The bytes of an output element (R217). -/
def outBytes (o : Nat) : Nat :=
  match o with
  | 0 => 4 | 1 => 2 | 2 => 2 | 3 => 1 | 4 => 1 | 5 => 4 | _ => 1

/-- An output format is allowed with the accumulator. -/
def outGood (d : BitVec 512) : Bool :=
  if mxInt d then mxOut d == 5 || mxOut d == 6 else decide (mxOut d ≤ 4)

/-- Rounded up to a multiple. -/
def roundUp (n m : Nat) : Nat := (n + m - 1) / m * m

/-- The lengths lie within the form (R211). -/
def shapeGood (d : BitVec 512) : Bool :=
  decide (1 ≤ mxM d) && decide (1 ≤ mxN d) &&
    (if mxWide d then decide (mxM d ≤ 128) && mxN d == 1 else decide (mxM d ≤ 32) && decide (mxN d ≤ 4))

/-- An operand's alignment and stride (R211, R212). -/
def rowsGood (addr stride bytes : Nat) : Bool :=
  addr % 8 == 0 && stride % 8 == 0 && decide (roundUp bytes 8 ≤ stride)

/-- An output's or accumulator's alignment and stride (R212). -/
def colsGood (wide : Bool) (addr stride bytes : Nat) : Bool :=
  addr % 4 == 0 && (if wide then stride == 0 else stride % 4 == 0 && decide (roundUp bytes 4 ≤ stride))

/-- The descriptor passes the `BAD_DESC` checks of R213 for an array.
[DEDUCED: notes/assumptions/70.md] -/
def descGood (a : Nat) (d : BitVec 512) : Bool :=
  mxF d 385 384 == 0 && mxF d 237 224 == 0 && mxF d 207 0 == 0 && mxArrayBit d == a &&
    pairGood (mxAFmt d) (mxBFmt d) && mxAccIn d != 3 && shapeGood d && outGood d &&
    (mxK d == 0 || (rowsGood (mxA d) (mxAStride d) (fmtBytes (mxAFmt d) (mxK d)) &&
      rowsGood (mxB d) (mxBStride d) (fmtBytes (mxBFmt d) (mxK d)) &&
      (!mxScaled d || (rowsGood (mxAs d) (mxAsStride d) (mxBlocks d) &&
        rowsGood (mxBs d) (mxBsStride d) (mxBlocks d))))) &&
    (mxAccIn d != 1 || colsGood (mxWide d) (mxC d) (mxCStride d) (mxN d * 4)) &&
    (mxKeep d || colsGood (mxWide d) (mxD d) (mxDStride d) (mxN d * outBytes (mxOut d))) &&
    (!mxNotify d || mxDoneAddr d % 4 == 0)

/-- Regions as address and bytes, one for each row or column. -/
def rowRegions (addr stride bytes n : Nat) : List (Nat × Nat) :=
  (List.range n).map fun i => (addr + i * stride, bytes)

/-- The operand, scale and initial-accumulator regions a job reads. -/
def readRegions (d : BitVec 512) : List (Nat × Nat) :=
  (if mxK d = 0 then []
   else
    rowRegions (mxA d) (mxAStride d) (fmtBytes (mxAFmt d) (mxK d)) (mxM d) ++
    rowRegions (mxB d) (mxBStride d) (fmtBytes (mxBFmt d) (mxK d)) (mxN d) ++
    (if mxScaled d then
      rowRegions (mxAs d) (mxAsStride d) (mxBlocks d) (mxM d) ++
      rowRegions (mxBs d) (mxBsStride d) (mxBlocks d) (mxN d) else [])) ++
  (if mxAccIn d = 1 then
    (if mxWide d then [(mxC d, 4 * mxM d)] else rowRegions (mxC d) (mxCStride d) (4 * mxN d) (mxM d))
   else [])

/-- The regions a job writes. -/
def writeRegions (d : BitVec 512) : List (Nat × Nat) :=
  (if mxKeep d then []
   else if mxWide d then [(mxD d, outBytes (mxOut d) * mxM d)]
   else rowRegions (mxD d) (mxDStride d) (outBytes (mxOut d) * mxN d) (mxM d)) ++
  (if mxNotify d then [(mxDoneAddr d, 4)] else [])

/-- Every region lies in local SRAM. -/
def regionsIn (l : List (Nat × Nat)) : Bool := l.all fun e => decide (e.1 + e.2 ≤ sramBytes)

/-- A job can continue accumulators of a shape (R221). -/
def sameShape (d e : BitVec 512) : Bool :=
  mxWide d == mxWide e && mxM d == mxM e && mxN d == mxN e && mxInt d == mxInt e

/-- Kept accumulators match a job. -/
def KeptAcc.matches (k : KeptAcc) (d : BitVec 512) : Bool :=
  k.form == bit (mxWide d) && k.mLen == mxM d && k.nLen == mxN d && k.isInt == mxInt d

/-- The accumulators a job will find: those its context's last queued job will keep, or those kept now
(R221). -/
def MxArray.continues (x : MxArray) (ctx : Nat) (d : BitVec 512) : Bool :=
  match (x.live.filter fun j => j.ctx == ctx).getLast? with
  | some j => mxKeep j.desc && sameShape j.desc d
  | none =>
    match x.kept with
    | some k => k.ctx == ctx && KeptAcc.matches k d
    | none => false

/-- The status a descriptor is refused with at issue (R213). -/
def MxArray.refuses (x : MxArray) (a ctx : Nat) (d : BitVec 512) : Option Nat :=
  if !descGood a d then some 3
  else if mxAccIn d = 2 ∧ !x.continues ctx d then some 4
  else if !regionsIn (readRegions d ++ writeRegions d) then some 2
  else none

/-- The R200 status a context ends with for an `mx_status` (R220). -/
def ctxStatus (mx : Nat) : Nat :=
  match mx with
  | 1 => 1 | 2 => 2 | 3 => 3 | 4 => 3 | _ => 5

/-- A job refused at issue: its context ends with it, and its completion word follows those of the jobs ahead (R213,
R220). -/
def State.mxFail (core a : Nat) (x : MxJob) (status flags : Nat) (s : State) : State :=
  (((s.abortJobs core x.ctx a).modMx core a fun y => { y with
    jobs := y.jobs ++ [{ x with ended := some (status, flags) }] }).mxRecord core a x status flags).endContext
      core x.ctx (ctxStatus status)

/-- A readable descriptor issued: refused, or queued. -/
def State.mxIssue (core ctx a : Nat) (d : BitVec 512) (s : State) : State :=
  let j : MxJob := { ctx := ctx, desc := d, issued := s.tick }
  match (s.mx core a).refuses a ctx d with
  | some st => s.mxFail core a j st 0
  | none => s.modMx core a fun x => { x with jobs := x.jobs ++ [j], held := tdel x.held ctx }

/-- A context held by a full queue, since its first try. -/
def MxArray.hold (ctx tick : Nat) (x : MxArray) : MxArray :=
  if (tget x.held ctx).isSome then x else { x with held := tset x.held ctx tick }

/-- Four jobs wait behind the one an array runs (R219); on an array held for a context that has no job queued, none
runs. -/
def MxArray.full (x : MxArray) : Bool := decide (4 + bit x.running.isSome ≤ x.live.length)

/-- A context can issue to an array: it is ready, or held by this array's full queue alone. -/
def State.mayIssue (core ctx array : Nat) (s : State) : Bool :=
  s.ctxFree core ctx && (tget (s.mx core (1 - array)).held ctx).isNone

/-- `MATRIX_JOB_ISSUE` (R213, R219): an issue to a full queue holds its context; it takes place once
there is room. A core whose context is held on an array issues again there.
[DEDUCED: notes/assumptions/70.md] -/
def execMatrixJobIssue (t core ctx array addr : Nat) (s : State) : Host.Outcome State Fault Refusal :=
  s.happen t (fun s => s.moving && decide (array < 2) && s.mayIssue core ctx array) fun s =>
    if (s.mx core array).full then
      s.modMx core array (MxArray.hold ctx s.tick)
    else if sramBytes < addr + 64 then (s.endContext core ctx 2).settle2
    else if addr % 64 ≠ 0 then (s.endContext core ctx 3).settle2
    else if !s.spaceGood (.sram core) addr 64 then (s.endContext core ctx 1).settle2
    else (s.mxIssue core ctx array
      (BitVec.ofNat 512 (leNat (s.spaceBytes (.sram core) addr 64)))).settle2

/-! ### Operands (R209, R210, R212) -/

/-- The raw bits of element `k` of a row or column. -/
def rawElem (m : Mem) (base f k : Nat) : Nat :=
  if fmt4 f then
    let b := (memGet m (base + k / 2)).toNat
    if k % 2 = 0 then b % 16 else b / 16
  else if f = 2 ∨ f = 3 then leNat (memBytes m (base + 2 * k) 2)
  else (memGet m (base + k)).toNat

/-- The floating-point format of a code. -/
def mxFloat (f : Nat) : FFmt :=
  match f with
  | 0 => .e4m3 | 1 => .e5m2 | 2 => .bf16 | 3 => .fp16 | 6 => .e4m3 | 7 => .e5m2 | _ => .e2m1

/-- A scale byte (R210): a power of two, or NaN. -/
def scaleExp (b : Byte) : Option Int := if b = 0xFF then none else some ((b.toNat : Int) - 127)

/-- A floating-point element with its block's scale. -/
def scaledElem (m : Mem) (d : BitVec 512) (base sbase f k : Nat) : FVal :=
  let v := (mxFloat f).decode (rawElem m base f k)
  if mxScaled d then
    match scaleExp (memGet m (sbase + k / 32)), v with
    | none, _ => .nan
    | some x, .fin s n e => .fin s n (e + x)
    | some _, v => v
  else v

/-- The integer value of an element. -/
def intElem (m : Mem) (base f k : Nat) : Int := asInt (if f = 5 then 4 else 8) (rawElem m base f k)

/-! ### Accumulation (R214 to R216) -/

/-- An array's flags (R220). -/
structure MxFlags where
  invalid : Bool := false
  overflow : Bool := false
  saturated : Bool := false
  nanIn : Bool := false
  deriving DecidableEq, Repr

def MxFlags.join (a b : MxFlags) : MxFlags :=
  { invalid := a.invalid || b.invalid, overflow := a.overflow || b.overflow,
    saturated := a.saturated || b.saturated, nanIn := a.nanIn || b.nanIn }

def MxFlags.code (f : MxFlags) : Nat :=
  bit f.invalid + 2 * bit f.overflow + 4 * bit f.saturated + 8 * bit f.nanIn

/-- A term of a step. -/
def FVal.infSign : FVal → Option Bool
  | .inf s => some s
  | _ => none

/-- A finite term: sign, size and exponent. -/
def FVal.parts : FVal → Option (Bool × Nat × Int)
  | .fin s m e => some (s, m, e)
  | _ => none

/-- The least exponent among finite terms. -/
def leastExp : List (Bool × Nat × Int) → Int
  | [] => 0
  | [x] => x.2.2
  | x :: r => min x.2.2 (leastExp r)

/-- The exact sum of terms rounded once: +0 for a zero sum unless every term is −0 (R214, R215). -/
def sumRound (ts : List (Bool × Nat × Int)) : W32 × MxFlags :=
  let u := leastExp ts
  let i : Int := (ts.map fun x => scaled x.1 x.2.1 x.2.2 u).sum
  let r := FFmt.fp32.ofSum (ts.all fun x => x.1 && x.2.1 == 0) i u
  (BitVec.ofNat 32 r.1, { overflow := r.2.overflow })

/-- One step of a floating-point accumulation: the accumulator and the step's products (R214, R215). -/
def fpStep (acc : W32) (prods : List (FVal × FVal)) : W32 × MxFlags :=
  let nanIn := prods.any fun p => p.1 == .nan || p.2 == .nan
  let ps := prods.map fun p => mulV p.1 p.2
  let bad := ps.any (·.2)
  let terms := fv acc :: ps.map (·.1)
  let infs := terms.filterMap FVal.infSign
  let meet := infs.contains true && infs.contains false
  let fl : MxFlags := { nanIn := nanIn, invalid := bad || meet }
  if nanIn || bad || meet || fisNan acc then (0x7FC00000, fl)
  else
    match infs with
    | neg :: _ => (BitVec.ofNat 32 (FFmt.fp32.infinity neg), fl)
    | [] =>
      let r := sumRound (terms.filterMap FVal.parts)
      (r.1, fl.join r.2)

/-- The steps of a reduction as lists of indices: one k, or a pair of them (R214). -/
def kSteps (f len : Nat) : List (List Nat) :=
  if fmt4 f then (List.range ((len + 1) / 2)).map fun t => [2 * t, 2 * t + 1]
  else (List.range len).map fun k => [k]

/-- A product of a floating-point step; past an odd length it is zero. -/
def fpProd (m : Mem) (d : BitVec 512) (i j k : Nat) : FVal × FVal :=
  if mxK d ≤ k then (.fin false 0 0, .fin false 0 0)
  else
    (scaledElem m d (mxA d + i * mxAStride d) (mxAs d + i * mxAsStride d) (mxAFmt d) k,
     scaledElem m d (mxB d + j * mxBStride d) (mxBs d + j * mxBsStride d) (mxBFmt d) k)

/-- A product of an integer step. -/
def intProd (m : Mem) (d : BitVec 512) (i j k : Nat) : Int :=
  if mxK d ≤ k then 0
  else intElem m (mxA d + i * mxAStride d) (mxAFmt d) k * intElem m (mxB d + j * mxBStride d) (mxBFmt d) k

/-- One integer step (R216). -/
def intStep (sat : Bool) (acc : W32) (sum : Int) : W32 × MxFlags :=
  let r := fitInt 32 sat (asInt 32 acc.toNat + sum)
  (BitVec.ofNat 32 (low 32 r.1), { saturated := r.2 })

/-- One output accumulated over the reduction, in ascending order of k. -/
def accumulate (m : Mem) (d : BitVec 512) (i j : Nat) (acc : W32) : W32 × MxFlags :=
  (kSteps (mxAFmt d) (mxK d)).foldl (fun p ks =>
    let r := if mxInt d then intStep (mxSat d) p.1 (ks.map (intProd m d i j)).sum
      else fpStep p.1 (ks.map (fpProd m d i j))
    (r.1, p.2.join r.2)) (acc, {})

/-- The outputs of a job in order: rows, then columns. -/
def mxCells (d : BitVec 512) : List (Nat × Nat) :=
  (List.range (mxM d)).flatMap fun i => (List.range (mxN d)).map fun j => (i, j)

/-- An initial accumulator (R211, R212): a NaN becomes the canonical one. -/
def mxInit (m : Mem) (d : BitVec 512) (kept : List W32) (i j : Nat) : W32 :=
  let v : W32 := match mxAccIn d with
    | 1 => BitVec.ofNat 32 (leNat (memBytes m (mxC d + i * (if mxWide d then 4 else mxCStride d) + 4 * j) 4))
    | 2 => (kept[i * mxN d + j]?).getD 0
    | _ => 0
  if !mxInt d && fisNan v then 0x7FC00000 else v

/-- Every output of a job with its flags. -/
def mxResult (m : Mem) (d : BitVec 512) (kept : List W32) : List W32 × MxFlags :=
  let rs := (mxCells d).map fun c => accumulate m d c.1 c.2 (mxInit m d kept c.1 c.2)
  (rs.map (·.1), rs.foldl (fun f r => f.join r.2) {})

/-! ### Drain (R217, R218) -/

/-- INT32 to INT8: an arithmetic shift right, rounded to nearest even, saturated. -/
def shiftInt8 (sh : Nat) (acc : W32) : Nat × MxFlags :=
  let i := asInt 32 acc.toNat
  let r := roundInt (decide (i < 0)) i.natAbs (-(sh : Int))
  let k := fitInt 8 true r.1
  (low 8 k.1, { saturated := k.2 })

/-- An accumulator converted to an output format. -/
def mxConvert (d : BitVec 512) (acc : W32) : Nat × MxFlags :=
  match mxOut d with
  | 1 => ((FFmt.bf16.ofV (fv acc)).1, {})
  | 2 => ((FFmt.fp16.ofV (fv acc)).1, {})
  | 3 =>
    let r := FFmt.e4m3.toFp8 (fv acc)
    (r.1, { saturated := r.2 })
  | 4 =>
    let r := FFmt.e5m2.toFp8 (fv acc)
    (r.1, { saturated := r.2 })
  | 6 => shiftInt8 (mxShift d) acc
  | _ => (acc.toNat, {})

/-- The runs of packed outputs that a job writes, each from an address on: a row of the tile, or the one column of
the wide form (R212, R217). -/
def outRuns {α : Type} (d : BitVec 512) (outs : List α) : List (Nat × List α) :=
  if mxWide d then [(mxD d, outs)]
  else (List.range (mxM d)).map fun i => (mxD d + i * mxDStride d, (outs.drop (i * mxN d)).take (mxN d))

/-- The outputs written to local SRAM, run by run: a word that a run fills is written whole (R217, R326). -/
def State.mxDrain (core : Nat) (d : BitVec 512) (acc : List W32) (s : State) : State × MxFlags :=
  let outs := acc.map (mxConvert d)
  ((outRuns d outs).foldl (fun s r => s.spacePut (.sram core) r.1
      (r.2.flatMap fun o => leBytes (outBytes (mxOut d)) o.1)) s,
    outs.foldl (fun f o => f.join o.2) {})

/-! ### The end of a job (R219 to R221, R226) -/

/-- An array whose job has ended. -/
def MxArray.ended (j : MxJob) (kept : Option KeptAcc) (tick : Nat) (x : MxArray) : MxArray :=
  { x with jobs := x.jobs.erase j, kept := kept, lastEnd := tick }

/-- An accumulator or feeder check failure counts against its array: the second within 24 h retires the
core, and the first one does where the core is a spare whose spare rows are spent (R430, R431). -/
def State.arrayFault (core a : Nat) (s : State) : State :=
  let old := (tgetD (s.core core).accFaults a []).filter fun t => decide (s.tick < t + day)
  (s.spareFault core).modCore core fun c => { c with
    accFaults := tset c.accFaults a (old ++ [s.tick])
    retiring := c.retiring || !old.isEmpty }

/-- A job whose operands are good: its outputs drained or kept. -/
def State.mxDone (core a : Nat) (j : MxJob) (s : State) : State :=
  let kept := ((s.mx core a).kept.map (·.acc)).getD []
  let r := mxResult (feederView (s.core core).sram j.desc (s.mx core a).feeders) j.desc kept
  if mxKeep j.desc then
    let k : KeptAcc :=
      { ctx := j.ctx, form := bit (mxWide j.desc), mLen := mxM j.desc, nLen := mxN j.desc,
        isInt := mxInt j.desc, acc := r.1 }
    ((s.mxTell core a j 0 r.2.code).modMx core a (MxArray.ended j (some k) s.tick)).mxFlush core a
  else
    let w := s.mxDrain core j.desc r.1
    ((w.1.mxTell core a j 0 (r.2.join w.2).code).modMx core a (MxArray.ended j none s.tick)).mxFlush core a

/-- A job that ends with `FAULT_ECC`. -/
def State.mxEcc (core a : Nat) (j : MxJob) (s : State) : State :=
  let s := s.mxTell core a j 1 0
  (s.modMx core a (MxArray.ended j none s.tick)).endContext core j.ctx 1

/-- `MATRIX_JOB_END` (R214 to R221, R226): the running job ends; `accFault` says that an accumulator or
a feeder entry failed its check. -/
def execMatrixJobEnd (t core array : Nat) (accFault : Bool) (s : State) :
    Host.Outcome State Fault Refusal :=
  s.happen t (fun s => s.moving && decide (array < 2)) fun s =>
    match (s.mx core array).running with
    | none => s
    | some j =>
      let s := s.mxHeld core
      if accFault then ((s.arrayFault core array).mxEcc core array j).settle2
      else if (readRegions j.desc).any fun e => !s.spaceGood (.sram core) e.1 e.2 then
        (s.mxEcc core array j).settle2
      else s.mxDone core array j

end Sys2Proof.Machine
end

