-- ==== Sys2Proof/Machine/Clusters.lean ====
section
/-! DEFINITION. Clusters that change owner: the commands, the abort of the work in flight and the reset
(R16, R202 to R204, R390). -/

namespace Sys2Proof.Machine

/-! ### Work that is aborted (R204, R227, R432) -/

/-- The contexts, waiting launches, array jobs and walks of a core. [DEDUCED: notes/assumptions/89.md] -/
def Core.work (c : Core) : Nat :=
  c.ctxs.length + c.waiting.length + (c.arrays.map fun a => a.2.live.length).sum + c.walks.length

/-- The running work of a core ends with `ABORTED`; its walks' stages are void. -/
def State.abortCore (p : Nat) (s : State) : State :=
  let s := ((s.core p).ctxs.map (·.1)).foldl (fun s k => s.endContext p k 5) s
  (s.core p).shares.foldl (fun s x => match s.slotModel x.slot with
    | some m => s.stopShare p x m 2
    | none => s.dropShare p x.slot x.slotGen) s

/-- The launches that wait on a core end with `ABORTED`, and what they owed is void (R195). -/
def State.endWaiting (p : Nat) (s : State) : State :=
  let l := (s.core p).waiting
  l.foldl (fun s x => s.abortLaunch p x) (s.modCore p fun c => { c with waiting := [], loading := none })

/-- A cluster's fetches dropped: their features are missing, and a later reply finds no fetch.
[DEDUCED: notes/assumptions/90.md] -/
def State.dropClusterFetches (c : Nat) (s : State) : State :=
  (s.models.fetches.filter fun e => e.2.cluster == c).foldl (fun s e =>
    let s := s.dropFetch e.1
    if s.slotMatch e.2.slot e.2.slotGen e.2.token then s.settleFetch e.2 .remote else s) s

/-- A cluster's recurrent updates dropped; what waited behind them is dispatched (R265).
[DEDUCED: notes/assumptions/90.md] -/
def State.dropUpdates (c : Nat) (s : State) : State :=
  (List.range 2).foldl (fun s p =>
    ((s.pipe p).rsFlight.filter fun e => e.2.cluster == c).foldl
      (fun s e => (s.count Ctr.rsSkip p).rsNext p e.1) s) s

/-- A cluster's reduce groups close with what has arrived, those that feed another group first. -/
def State.closeGroups (c : Nat) (s : State) : State :=
  let all := (s.cluster c).groups.map (·.2) ++ (s.cluster c).opens.map (·.2)
  let feeds (g : Group) : Bool := match g.dest with
    | .group _ _ => true
    | _ => false
  let s := s.modCluster c fun x => { x with groups := [], opens := [] }
  ((all.filter feeds) ++ all.filter fun g => !feeds g).foldl (fun s g => s.deliverGroup chainFuel c g) s

/-- Step 3 of R204: the work still running on a cluster ends, and its reset begins.
[DEDUCED: notes/assumptions/89.md; DEDUCED: notes/assumptions/90.md] -/
def State.abortCluster (c : Nat) (s : State) : State :=
  let ps := s.coresIn c
  let n := (ps.map fun p => (s.core p).work).sum
  let s := if n = 0 then s else s.countN Ctr.reassignAbort c n
  let s := ps.foldl (fun s p => (s.abortCore p).endWaiting p) s
  let s := ((s.dropClusterFetches c).dropUpdates c).closeGroups c
  (s.modCluster c fun x => { x with leaving := x.leaving.map fun l => { l with resetting := true } }).settle2

/-- Nothing runs or waits on a cluster. -/
def State.clusterIdle (c : Nat) (s : State) : Bool :=
  (s.coresIn c).all (fun p => (s.core p).work == 0 && (s.core p).shares.isEmpty && (s.core p).waiting.isEmpty) &&
    (s.cluster c).groups.isEmpty && (s.cluster c).opens.isEmpty &&
    !(s.models.fetches.any fun e => e.2.cluster == c) &&
    (List.range 2).all fun p => !(s.pipe p).rsFlight.any fun e => e.2.cluster == c

/-- `REASSIGN_GRACE_EXPIRY` (R204): the grace has passed, or the work has ended. -/
def execReassignGraceExpiry (t cluster : Nat) (s : State) : Host.Outcome State Fault Refusal :=
  s.happen t
    (fun s => s.moving && match (s.cluster cluster).leaving with
      | some l => !l.resetting && (decide (l.graceEnd ≤ s.tick) || s.clusterIdle cluster)
      | none => false)
    fun s => s.abortCluster cluster

/-! ### The reset (R204, R457, R461) -/

/-- The live models of every domain, with their domain and epoch. -/
def State.liveModels (s : State) : List (Nat × Model × Nat) :=
  s.models.domains.flatMap fun d =>
    (d.2.models.map fun m => (d.1, m, d.2.epoch)) ++
      (match d.2.retiring with
        | some (e, l) => l.map fun m => (d.1, m, e)
        | none => [])

/-- A physical core holds a copy of a model: it serves a logical core of one of the bindings. -/
def State.holdsModel (p : Nat) (m : Model) (s : State) : Bool :=
  match s.logicalOf p with
  | some l => m.bindings.any fun b => b.cores.any fun x => x.contains l
  | none => false

/-- The copies that the runtime must write on a core whose memories are empty: those of its bindings' models, and on
the packet path every live packet-path model's (R253, R309, R432). -/
def State.needShards (p : Nat) (s : State) : List (Nat × Nat × Nat) :=
  (s.liveModels.filter fun e => s.holdsModel p e.2.1 ||
    (e.2.1.packet && s.coreOwner p == packetDomain && (s.logicalOf p).isSome)).map fun e =>
      (e.1, e.2.1.handle, e.2.2)

/-- A core with its memories zeroed, after the launches that still wait there have ended. What is counted against the
physical core stays, and it receives `CORELOAD` again (R369). -/
def State.zeroCore (p : Nat) (s : State) : State :=
  let s := s.endWaiting p
  let bad := s.needShards p
  s.modCore p fun c => { ({} : Core) with
    badShards := bad, deadShards := c.deadShards, retiring := c.retiring, accFaults := c.accFaults, cycles := c.cycles
    reloads := c.reloads + 1 }

/-- A Dill unit after its cluster's reset: nothing held, numbers from 1. -/
def Dill.reset (d : Dill) : Dill := { d with buf := [], seq := 1, dropped := 0 }

/-- A counter of a cluster or of one of its cores. -/
def State.clusterCounter (c : Nat) (k : Nat × Nat) (s : State) : Bool :=
  (Ctr.kind k.1 == some .cluster && k.2 == c) ||
    (Ctr.kind k.1 == some .core && (s.logicalIn c).contains k.2)

/-- The memories, buffers and counters of a cluster zeroed (step 4 of R204).
[DEDUCED: notes/assumptions/90.md] -/
def State.zeroCluster (c : Nat) (s : State) : State :=
  let s := (s.coresIn c).foldl (fun s p => s.zeroCore p) s
  let s := s.modCluster c fun x => { x with
    store := [], poison := [], groups := [], opens := [], dill := x.dill.reset }
  s.updObs fun o => { o with counters := o.counters.filter fun e => !s.clusterCounter c e.1 }

/-- A cluster no longer keeps any orphan slot (R112). -/
def State.clusterStopped (c : Nat) (s : State) : State :=
  s.updRings fun r => { r with slots := r.slots.map fun e =>
    (e.1, { e.2 with orphanClusters := e.2.orphanClusters.filter (· != c) }) }

/-- No cluster still leaves on a command's behalf. -/
def State.assignDone (h : CmdHdr) (s : State) : Bool :=
  !s.comp.clusters.any fun e => (e.2.leaving.bind (·.h)) == some h

/-- Step 5 of R204: the owner changes, the clock cap returns to its default, the packet path's floor holds
(R44, R202), and the trace unit is off. A cluster too hot for the floor breaches it (R44). Its cores need the copies of
the new owner's models before they take work for them (R253, R309). -/
def State.takeOwner (c : Nat) (l : Leaving) (s : State) : State :=
  let old := (s.cluster c).owner
  let s := s.modCluster c fun x => { x with
    owner := l.target, clkCap := 3300, leaving := none, dill := { marks := x.dill.marks }
    ceiling := if l.target = 0x40 then max x.ceiling s.pkg.floorMhz else x.ceiling }
  let s := s.setRails
  let s := (s.coresIn c).foldl (fun s p =>
    let bad := s.needShards p
    s.modCore p fun x => { x with badShards := bad }) s
  let s := if l.target = 0x40 ∧ (s.cluster c).thermal < s.pkg.floorMhz then s.floorBreach else s
  let s := s.record 0x0023 1 c 0xFF 0 [(8, old), (8, l.target)]
  let s := s.keep s.clustersVal
  match l.h with
  | some h => if s.assignDone h then s.answer h 0x0204 .ok noDetail [] else s
  | none => s

/-- A partition's re-initialisation is over: revocation is done, it is reported, and the commands that
asked for it are answered (R438). The first field of `reinit` holds the number of orphaned slots by
then. [DEDUCED: notes/assumptions/92.md] -/
def State.endReinit (p : Nat) (s : State) : State :=
  match (s.part p).reinit with
  | none => s
  | some (orphans, hs) =>
    let s := s.modPart p fun x => { x with reinit := none, revoking := false }
    let s := s.count Ctr.partReinit p
    let s := s.recordEvent 0x0050 4 0 p 2 [(8, 1), (8, p), (32, orphans)] 0 0x0015
      [(6, p), (16, (s.part p).token), (32, orphans)]
    hs.foldl (fun s h => s.answer h 0x0105 .ok noDetail []) s

/-- The resets that a partition's revocation waits for are done. -/
def State.revokeDone (p : Nat) (s : State) : Bool :=
  (s.part p).revoking && !s.comp.clusters.any fun e => e.2.owner == p && match e.2.leaving with
    | some l => l.resetting
    | none => false

/-- `CLUSTER_RESET_DONE` (R204, R112): the reset of a cluster is complete. -/
def execClusterResetDone (t cluster : Nat) (s : State) : Host.Outcome State Fault Refusal :=
  s.happen t
    (fun s => s.moving && match (s.cluster cluster).leaving with
      | some l => l.resetting
      | none => false)
    fun s => match (s.cluster cluster).leaving with
      | none => s
      | some l =>
        let p := (s.cluster cluster).owner
        let s := (s.zeroCluster cluster).clusterStopped cluster
        let s := if l.revoke then s.modCluster cluster fun x => { x with leaving := none }
          else s.takeOwner cluster l
        if s.revokeDone p then s.endReinit p else s

/-! ### Commands (R202, R203, R390) -/

/-- An owner of R16. -/
def ownerValid (o : Nat) : Bool := decide (o < 64) || o == 0x40 || o == 0x7F

/-- The grace of a `CLUSTER_ASSIGN` in ns: 1 ms without the flag. -/
def graceOf (h : CmdHdr) (graceUs : Nat) : Nat := if h.flag then graceUs * 1000 else 1000000

/-- A cluster begins to leave for a new owner; one that has it already stays as it is. -/
def State.leave (h : CmdHdr) (target grace c : Nat) (s : State) : State :=
  if (s.cluster c).owner = target then s
  else s.modCluster c fun x => { x with
    leaving := some { target := target, graceEnd := s.tick + grace, h := some h } }

/-- `CLUSTER_ASSIGN` (R203, R204): answered when the last of the named clusters has its owner.
[DEDUCED: notes/assumptions/90.md] -/
def execClusterAssign (t : Nat) (h : CmdHdr) (target graceUs : Nat) (clusters : List Nat) (s : State) :
    Host.Outcome State Fault Refusal :=
  s.isain t { op := 0x0204 } h noObj (isP0 h) fun s =>
    checksAt
      [(onWhole (!ownerValid target), .eArg), (onWhole (h.flag && decide (100000 < graceUs)), .eRange),
       (onWhole (decide (target < 64) && !(s.part target).enabled), .eState),
       (itemBad 0 (fun c => (s.cluster c).leaving.isSome) clusters, .busy),
       (onWhole (decide (256 < clusters.length)), .eRange),
       (itemBad 0 (fun c => decide (256 ≤ c)) clusters, .eRange)]
      (let s := clusters.foldl (fun s c => s.leave h target (graceOf h graceUs) c) s
       if s.assignDone h then okReply s else .wait s)

/-- The check of a `CLUSTER_CONFIG` record: a step of 50 MHz from 1.0 to 3.3 GHz, and the packet path's
floor (R202). -/
def clusterChk (s : State) (r : SetRec) : Option Status :=
  match r.id with
  | 1 => scopeIn r 256 (match inRange r 1000 3300 with
      | some st => some st
      | none => if r.value % 50 ≠ 0 ∨
          ((s.cluster r.scope).ofPacketPath ∧ r.value < s.pkg.floorMhz) then some .eRange else none)
  | _ => some .eArg

/-- A record names a cluster the issuer does not own (R388). -/
def State.notMine (h : CmdHdr) (r : SetRec) (s : State) : Bool :=
  h.part != 0 && decide (r.scope < 256) && (s.cluster r.scope).owner != h.part

/-- `CLUSTER_CONFIG` (R202). -/
def execClusterConfig (t : Nat) (h : CmdHdr) (recs : List SetRec) (s : State) :
    Host.Outcome State Fault Refusal :=
  s.isain t { op := 0x0205, resv := resvRec recs, late := true } h noObj anyPart fun s =>
    checksAt [(itemBad 0 (fun r => s.notMine h r) recs, .ePriv), unlistedAt h 0x0205]
      (settings (clusterChk s)
        (fun s r => s.modCluster r.scope fun x => { x with clkCap := r.value })
        (fun _ _ => none) (fun s => (s.keep s.clustersVal).setRails) recs s)

/-- The owner that an entry of the remap table shows (R16). -/
def State.entryOwner (e : MapEntry) (s : State) : Nat :=
  if e.serves then (s.cluster (e.home / 16)).owner
  else if e.state = 5 then
    match tget s.comp.map e.link with
    | some l => (s.cluster (l.home / 16)).owner
    | none => 0x7F
  else 0x7F

/-- An entry of the remap table as a word (R16). -/
def State.entryWord (e : MapEntry) (s : State) : Nat :=
  e.state * 2 ^ 61 + s.entryOwner e * 2 ^ 54 + e.link * 2 ^ 36 + e.count * 2 ^ 32 +
    (if e.state = 0 ∨ e.state = 3 then 0 else e.phys)

/-- `CORE_MAP_READ` (R16, R390): another partition than 0 sees its own cores only. -/
def execCoreMapRead (t : Nat) (h : CmdHdr) (start max : Nat) (s : State) :
    Host.Outcome State Fault Refusal :=
  s.isain t { op := 0x0206 } h noObj anyPart fun s =>
    let all := (List.range 4096).map fun i => (i, tgetD s.comp.map i {})
    let mine := all.filter fun e => h.part == 0 || s.entryOwner e.2 == h.part
    .done .ok (listPage start max 1079 [] (mine.map fun e => (e.1, [(64, s.entryWord e.2)]))) s

end Sys2Proof.Machine
end

