-- ==== Sys2Proof/Machine/FabricOps.lean ====
section
/-! DEFINITION. The fabric engine's operations: peers and what is sent to them, the checks of a received
frame, the loss of a peer, the view, and puts at the sender (R340 to R359). -/

namespace Sys2Proof.Machine

/-! ### Sending (R342 to R347) -/

/-- The device takes part in a fabric now: its raised `boot_count` is in the store (R344). -/
def State.fabUp (s : State) : Bool :=
  s.moving && s.fab.sysId != 0 && !s.fab.left && !s.bay.shutdown && !s.bay.unsaved.any fun v => v.group == 3

/-- A `fab_if` interface is up (R345). -/
def State.fabLinks (s : State) : Bool := s.fab.ifcs.any fun i => (s.ifc i.2).link

/-- A peer. -/
def State.peer (a : Nat) (s : State) : Peer := tgetD s.fab.peers a {}

/-- A peer changed. -/
def State.modPeer (a : Nat) (f : Peer → Peer) (s : State) : State :=
  s.updFab fun x => { x with peers := tup x.peers a {} f }

/-- A member whose IP address and port are those of a candidate (R349). -/
def Fabric.seedMember (f : Fabric) (a : Nat) : Bool :=
  match tget f.members a with
  | some m => f.seeds.any fun e => e.2.1 == m.ip && e.2.2 == m.port
  | none => false

/-- One of the conditions of R349 under which the device watches a peer. -/
def State.wants (a : Nat) (s : State) : Bool :=
  let p := s.peer a
  (match p.lastWork with
    | some k => decide (s.tick < k + 10000000)
    | none => false) ||
  s.fab.seedMember a || s.fab.watch.contains a || p.state == .lost

/-- The device watches a peer now. -/
def State.watching (a : Nat) (s : State) : Bool := (s.peer a).watchSince.isSome && s.wants a

/-- The number of peers it watches. -/
def State.watched (s : State) : Nat := (s.fab.peers.filter fun e => s.watching e.1).length

/-- A condition of R349 begins: the peer is watched, or counted where 4,096 are watched already. -/
def State.startWatch (a : Nat) (s : State) : State :=
  if s.watching a then s
  else if s.watched < 4096 then s.modPeer a fun p => { p with watchSince := some s.tick }
  else (s.modPeer a fun p => { p with watchSince := none }).tally Ctr.fabWatchFull

/-- A lookup or a put goes to a peer. -/
def State.noteWork (a : Nat) (s : State) : State :=
  (s.startWatch a).modPeer a fun p => { p with lastWork := some s.tick }

/-- A channel is suspect (R347). -/
def Peer.isSuspect (p : Peer) (tick c : Nat) : Bool :=
  match tget p.suspect c with
  | some due => decide (tick < due)
  | none => false

/-- The channel of a message that would take a given one: the next that is not suspect (R347). -/
def State.channelFrom (a c : Nat) (s : State) : Nat :=
  let n := s.fab.paths
  (((List.range n).map fun i => (c + i) % n).find? fun i => !(s.peer a).isSuspect s.tick i).getD (c % n)

/-- A channel marked suspect for 10 ms. -/
def State.suspect (a c : Nat) (s : State) : State :=
  (s.modPeer a fun p => { p with suspect := tset p.suspect c (s.tick + 10000000) }).count
    Ctr.fabPathSuspect a

/-- The `fab_if` interface that a channel uses, of those that are up: which one is the K4's own affair.
[DESIGN CHOICE: notes/assumptions/79.md] -/
def State.fabIfc (channel : Nat) (s : State) : Option Nat :=
  let up := (s.fab.ifcs.map (·.2)).filter fun i => (s.ifc i).link
  up[channel % max 1 up.length]?

/-- The bytes of the changes in a `VIEW` frame. [DESIGN CHOICE: notes/assumptions/156.md] -/
def viewBytes : List Nat → List Byte
  | v :: a :: ip :: p :: fl :: boot :: serial :: rest =>
    beBytes 8 v ++ beBytes 2 a ++ beBytes 16 ip ++ beBytes 2 p ++ beBytes 1 fl ++ beBytes 4 boot ++
      (if serial = 0 then [] else beBytes 16 serial) ++ viewBytes rest
  | _ => []

/-- The message bytes of a frame (R343), most significant byte first: lookups, replies and puts in 64-bit words (R355,
R358), a `PUT_ACK` with one byte per status. [DESIGN CHOICE: notes/assumptions/156.md] -/
def fabPayload (ftype : Nat) (words : List Nat) : List Byte :=
  match ftype, words with
  | 2, serial :: addr :: fixed :: port :: ips =>
    beBytes 16 serial ++ beBytes 2 addr ++ beBytes 1 fixed ++ beBytes 2 port ++ ips.flatMap (beBytes 16)
  | 3, [st, addr, ip, port] => beBytes 1 st ++ beBytes 2 addr ++ beBytes 16 ip ++ beBytes 2 port
  | 4, ws => viewBytes ws
  | 5, [serial, prio, term, view] => beBytes 16 serial ++ beBytes 1 prio ++ beBytes 4 term ++ beBytes 8 view
  | 9, a :: st => beBytes 8 a ++ st.flatMap (beBytes 1)
  | _, ws => ws.flatMap (beBytes 8)

/-- The messages in a frame (R343, R353, R355). -/
def fabCount (ftype : Nat) (words : List Nat) : Nat :=
  match ftype with
  | 1 => 0
  | 4 => words.length / 7
  | 6 => words.length / 3
  | 9 => words.length - 1
  | _ => 1

/-- The fabric header (R342), most significant byte first. -/
def State.fabHeader (dst ftype fseq nMsg len : Nat) (fwatch : Bool) (s : State) : List Byte :=
  beBytes 32 (2 ^ 252 + ftype * 2 ^ 248 + s.fab.keyTx * 2 ^ 247 + bit fwatch * 2 ^ 246 + len * 2 ^ 224 +
    s.fab.sysId * 2 ^ 192 + s.fab.addr * 2 ^ 176 + dst * 2 ^ 160 + s.fab.bootCount * 2 ^ 128 + fseq * 2 ^ 64 +
    nMsg * 2 ^ 48)

/-- A fabric frame put on its way through the control queue of an interface (R171, R342, R345); with every `fab_if`
interface down none goes. -/
def State.putFab (ip port dst channel ftype fseq nMsg : Nat) (fwatch : Bool) (words : List Nat) (s : State) :
    State :=
  match s.fabIfc channel with
  | none => s
  | some i =>
    let body := fabPayload ftype words
    let key := beBytes 32 (tgetD s.fab.keys s.fab.keyTx 0).toNat
    let tag := kmac256 key (s.fabHeader dst ftype fseq nMsg body.length fwatch ++ body) 16 "K4 FABRIC"
    s.emit i (udpLen (BitVec.ofNat 128 ip) (48 + body.length))
      (.fab i (s.fab.sportBase + channel) ip port s.fab.addr dst s.fab.keyTx ftype fwatch s.fab.bootCount fseq nMsg
        body.length words (beNat tag))

/-- A frame of `nMsg` messages sent with a given sequence number to a member; a lost peer is sent heartbeats only
(R348). [DEDUCED: notes/assumptions/80.md] -/
def State.fabSendMsgs (fseq dst channel ftype nMsg : Nat) (words : List Nat) (s : State) : State :=
  match tget s.fab.members dst with
  | none => s
  | some m =>
    if (s.peer dst).state = .lost ∧ ftype ≠ 1 then s
    else
      let w := s.watching dst || decide ((s.peer dst).state = .lost)
      (s.modPeer dst fun p => { p with lastTx := some s.tick }).putFab m.ip m.port dst channel ftype fseq nMsg w
        words

/-- A frame of messages of one size sent with a given sequence number to a member. -/
def State.fabSendAs (fseq dst channel ftype : Nat) (words : List Nat) (s : State) : State :=
  s.fabSendMsgs fseq dst channel ftype (fabCount ftype words) words

/-- A frame sent with the next sequence number. [DEDUCED: notes/assumptions/79.md] -/
def State.fabSend (dst channel ftype : Nat) (words : List Nat) (s : State) : State :=
  (s.fabSendAs s.fab.fseq dst channel ftype words).updFab fun f => { f with fseq := f.fseq + 1 }

/-- A frame sent on the next channel in round-robin order. -/
def State.fabSendNext (dst ftype : Nat) (words : List Nat) (s : State) : State :=
  let c := s.channelFrom dst ((s.peer dst).nextChannel)
  (s.modPeer dst fun p => { p with nextChannel := (c + 1) % s.fab.paths }).fabSend dst c ftype words

/-- A frame sent to an IP address and port that may be no member's; a member there that is lost is sent none (R348). -/
def State.fabSendTo (ip port ftype : Nat) (words : List Nat) (s : State) : State :=
  let n := fabCount ftype words
  let next (s : State) : State := s.updFab fun f => { f with fseq := f.fseq + 1 }
  match s.fab.members.find? fun e => e.2.ip == ip && e.2.port == port with
  | none => next (s.putFab ip port 0 0 ftype s.fab.fseq n false words)
  | some (a, _) =>
    if (s.peer a).state = .lost then s
    else next ((s.modPeer a fun p => { p with lastTx := some s.tick }).putFab ip port a 0 ftype s.fab.fseq n
      (s.watching a) words)

/-- Replies sent in one frame on the next channel, `nMsg` of them (R343). -/
def State.fabSendReplies (dst nMsg : Nat) (words : List Nat) (s : State) : State :=
  let c := s.channelFrom dst ((s.peer dst).nextChannel)
  ((s.modPeer dst fun p => { p with nextChannel := (c + 1) % s.fab.paths }).fabSendMsgs s.fab.fseq dst c 7 nMsg
    words).updFab fun f => { f with fseq := f.fseq + 1 }

/-! ### The view (R353) -/

/-- A change of the member table as words. -/
def viewWords (c : ViewChange) : List Nat :=
  [c.view, c.addr, c.ip, c.port, bit c.removed + 2 * bit c.lost + 4 * bit (c.serial != 0) + 8 * bit c.row,
    c.bootCount, c.serial]

/-- A change applied to the members held. A removed member's peer state goes with it (R348). -/
def Fabric.apply (c : ViewChange) (f : Fabric) : Fabric :=
  if c.removed then { f with members := tdel f.members c.addr, peers := tdel f.peers c.addr }
  else if c.lost then { f with members := tmod f.members c.addr fun m => { m with lost := true } }
  else
    let m : Member := { ip := c.ip, port := c.port, bootCount := c.bootCount }
    { f with members := tset f.members c.addr m }

/-- The members held change: a candidate of `seeds` that is a member now is watched (R349). -/
def State.changeFab (g : Fabric → Fabric) (s : State) : State :=
  let u := s.updFab g
  ((u.fab.members.filter fun e => e.1 != u.fab.addr && u.fab.seedMember e.1 && !s.fab.seedMember e.1).map (·.1)).foldl
    (fun u a => u.startWatch a) u

/-- The coordinator publishes a change under the next view number. -/
def State.publish (c : ViewChange) (s : State) : State :=
  let c := { c with view := s.fab.viewNo + 1 }
  let s := s.changeFab fun f => { Fabric.apply c f with viewNo := c.view }
  ((s.fab.members.filter fun e => e.1 != s.fab.addr).map (·.1)).foldl
    (fun s a => s.fabSendNext a 4 (viewWords c)) s

/-- The loss of a member, as a change of the view. -/
def lostChange (a : Nat) : ViewChange :=
  { view := 0, addr := a, ip := 0, port := 0, removed := false, lost := true, bootCount := 0 }

/-- A loss reported to the coordinator; the coordinator publishes it. -/
def State.reportLoss (a : Nat) (s : State) : State :=
  if s.fab.coordinator then s.publish (lostChange a)
  else if s.fab.coord = 0 ∨ s.fab.coord = a then s
  else s.fabSendNext s.fab.coord 4 (viewWords (lostChange a))

/-! ### Puts at the sender (R357 to R359) -/

/-- The fields of a put entry (R358). -/
structure PutEntry where
  table : Nat
  msg : PutMsg
  nVals : Nat
  cookie : W64
  report : Bool
  bad : Bool
  deriving DecidableEq, Repr

/-- A put entry read. [DESIGN CHOICE: notes/assumptions/83.md] -/
def parsePut (part : Nat) (e : List W64) : PutEntry :=
  let h := wordOf e 0
  let c := (wordOf e 2).toNat
  let n := bitsOf c 55 51
  let table := headData h
  { table := table
    msg := { key := wordOf e 3, table := table, part := part, vfirst := bitsOf c 63 56, op := bitsOf c 50 49
             values := (List.range n).map fun i => BitVec.ofNat 32 ((wordOf e (4 + i / 2)).toNat / 2 ^ (32 * (i % 2))) }
    nVals := n
    cookie := wordOf e 1
    report := headFlags h % 2 == 1
    bad := headKind h != 0x20 || headResv h != 0 || bitsOf c 48 0 != 0 || bitsOf c 50 49 == 3 ||
      n == 0 || decide (24 < n) }

/-- An entry of a `FABRIC` ring has ended: `cons_idx` moves over the longest run of ended entries. -/
def State.endEntry (ring : Nat) (idx : W32) (s : State) : State :=
  s.modRing ring fun r =>
    let o := r.opened.filter (· != idx)
    { r with opened := o, consIdx := o.head?.getD r.fabNext, limitIdx := o.head?.getD r.fabNext }

/-- The status told of a failed put: open where it ended without one.
[DESIGN CHOICE: notes/assumptions/83.md] -/
def State.putStatus (status : Option Nat) (s : State) : Nat × State :=
  match status with
  | some k => (k, s)
  | none => (s.fresh.1 % 256, s.fresh.2)

/-- A put ended. A failed one is counted, and told where the entry asks (R359). -/
def State.endPut (fseq : Nat) (status : Option Nat) (s : State) : State :=
  match tget s.fab.puts fseq with
  | none => s
  | some p =>
    let s := (s.updFab fun f => { f with puts := tdel f.puts fseq }).endEntry p.ring p.idx
    if status = some 0 then s
    else
      let x := s.putStatus status
      let s := x.2.count Ctr.fabPutFail p.ring
      if p.report then
        s.event (s.ring p.ring).owner 0x0009
          [(12, p.ring), (16, p.msg.table), (8, x.1), (64, p.cookie.toNat)] 0
      else s

end Sys2Proof.Machine
end

