-- ==== Sys2Proof/Machine/FabricServe.lean ====
section
/-! DEFINITION. Remote lookups and puts, at the requester and at the home (R281, R290 to R293, R354 to
R359). -/

namespace Sys2Proof.Machine

/-! ### Lookups at the requester (R354, R355) -/

/-- The seed of a table's shard hash. -/
def State.seedOf (table : Nat) (s : State) : W64 := ((s.table table).map (·.shardSeed)).getD 0

/-- The channel a lookup or put would take (R346). -/
def State.keyChannel (key : W64) (table : Nat) (s : State) : Nat :=
  (fsHash key (s.seedOf table)).toNat % 64 % s.fab.paths

/-- The lookup message of a fetch (R355): the one it went out with, where it has been sent before. -/
def State.lookupMsg (tag : Nat) (f : Fetch) (s : State) : LookupMsg :=
  f.ask.getD
    { key := f.key, table := f.table, gen := f.g, part := ((s.table f.table).map (·.owner)).getD 0
      slot := f.slot, slotGen := f.slotGen, token := f.token, vfirst := f.vspan.1, nvals := f.vspan.2, tag := tag }

/-- The 24 bytes of a lookup message, as words in the order they are sent. -/
def lookupWords (m : LookupMsg) : List Nat :=
  pack [(64, m.key.toNat), (16, m.table), (8, m.gen), (6, m.part), (2, 0), (16, m.slot), (16, m.slotGen),
        (16, m.token), (8, m.vfirst), (8, m.nvals), (32, m.tag)]

/-- The messages of a size that one frame takes, within `fab_mtu` and 64: the IP, UDP and fabric headers
and the tag leave the rest. -/
def State.frameRoom (s : State) : Nat := s.fab.mtu - (40 + 8 + 32 + 16)

/-- A list cut into pieces of at most `n`. -/
def pieces {α : Type} (n : Nat) : Nat → List α → List (List α)
  | 0, _ => []
  | _, [] => []
  | k + 1, l => l.take n :: pieces n k (l.drop n)

/-- One `LOOKUP` frame sent with the lookups of some fetches on a channel. -/
def State.sendLookups (home channel : Nat) (tags : List Nat) (s : State) : State :=
  let words := tags.flatMap fun tag => match s.fetch tag with
    | some f => lookupWords (s.lookupMsg tag f)
    | none => []
  let s := tags.foldl (fun s tag => s.modFetch tag fun f => { f with
    sent := true, sentTick := s.tick, channel := channel, ask := some (s.lookupMsg tag f) }) s
  (s.noteWork home).fabSend home channel 6 words

/-- The lookups that wait to go to a home. -/
def State.heldFor (home : Nat) (s : State) : List Nat :=
  (s.models.fetches.filter fun e => e.2.remote && !e.2.sent && e.2.joins.isNone && !e.2.parked &&
    e.2.home == home).map (·.1)

/-- `LOOKUP_JOIN_HOLD` (R354): the lookups held for a home go, joined by channel. -/
def execLookupJoinHold (t home : Nat) (s : State) : Host.Outcome State Fault Refusal :=
  s.happen t (fun s => s.fabUp && !(s.heldFor home).isEmpty) fun s =>
    let chan (tag : Nat) : Nat := match s.fetch tag with
      | some f => s.channelFrom home (s.keyChannel f.key f.table)
      | none => 0
    let tags := s.heldFor home
    (List.range 64).foldl (fun s c =>
      let mine := tags.filter fun tag => chan tag == c
      (pieces (min 64 (s.frameRoom / 24)) mine.length mine).foldl
        (fun s l => s.sendLookups home c l) s) s

/-- A lookup waits for its answer. -/
def Fetch.waits (f : Fetch) : Bool := f.remote && f.sent && f.joins.isNone

/-- `LOOKUP_RTO` (R347, R354): no reply within `fab_rto`; the channel is suspect, and the lookup goes
again once. The second time it is only waited for. [DEDUCED: notes/assumptions/81.md] -/
def execLookupRto (t tag : Nat) (s : State) : Host.Outcome State Fault Refusal :=
  s.happen t
    (fun s => s.fabUp && match s.fetch tag with
      | some f => f.waits && decide (f.sentTick + s.fab.rto ≤ s.tick)
      | none => false)
    fun s => match s.fetch tag with
      | none => s
      | some f =>
        let s := s.suspect f.home f.channel
        if f.resent then s.modFetch tag fun f => { f with sentTick := f.endTick }
        else
          let c := s.channelFrom f.home (f.channel + 1)
          (s.modFetch tag fun f => { f with resent := true }).sendLookups f.home c [tag]

/-- The values of a reply that the fetch's declaration maps. -/
def FTable.replyVals (x : FTable) (m : ReplyMsg) : List (Nat × W32) :=
  m.values.zipIdx.filterMap fun e =>
    if m.present.testBit e.2 then some (m.req.vfirst + e.2, x.toFp e.1) else none

/-- One reply message (R290, R356): matched to its slot, then to its fetch. -/
def State.replyOne (home : Nat) (m : ReplyMsg) (s : State) : State :=
  if !s.slotMatch m.req.slot m.req.slotGen m.req.token then s.tally Ctr.staleCompletion
  else match s.fetch m.req.tag with
    | none => s.count Ctr.fsLate (s.slot m.req.slot).lead
    | some f =>
      if !f.waits ∨ f.home ≠ home ∨ f.ask.map (fun a => (a.slot, a.slotGen)) ≠ some (m.req.slot, m.req.slotGen) ∨
          f.endTick < s.tick then
        s.count Ctr.fsLate (s.slot m.req.slot).lead
      else match m.status, s.table f.table with
        | 0, some x => s.endFetch m.req.tag (.found (x.replyVals m))
        | 0, none => s.endFetch m.req.tag .noGen
        | 1, _ => s.endFetch m.req.tag .absent
        | 2, _ => s.failRemote m.req.tag Ctr.fsRemoteRefused
        | 3, _ => s.failRemote m.req.tag Ctr.fsRemoteRefused
        | 4, _ => (s.count Ctr.fabNoTable f.table).failBare m.req.tag none
        | 5, _ => (s.count Ctr.fabNotHome f.table).failBare m.req.tag none
        | _, _ => s.failBare m.req.tag none

/-! ### Lookups at the home (R291, R356) -/

/-- The part of a reply behind the repeated message. -/
def replyBytes (x : FTable) (m : ReplyMsg) : List Nat :=
  lookupWords m.req ++ [m.status * 2 ^ 56] ++
    (if m.status = 0 then [m.present / 2 ^ 64, m.present % 2 ^ 64] ++ pack (m.values.map fun v => (x.valBits, v))
     else [])

/-- The span of an entry that a lookup asks for. -/
def FTable.span (x : FTable) (e : Nat) (m : LookupMsg) : ReplyMsg :=
  { req := m, status := 0, present := e / 2 ^ (128 + m.vfirst) % 2 ^ m.nvals
    values := (List.range m.nvals).map fun i => x.rawVal e (m.vfirst + i) }

/-- A reply without values. -/
def bareReply (m : LookupMsg) (status : Nat) : ReplyMsg :=
  { req := m, status := status, present := 0, values := [] }

/-- The home's lookup queue (R291). -/
def serveMax : Nat := 8192

/-- Work that waits for an entry's lock is held, under a number of its own. -/
def State.hold (w : Serve) (s : State) : State :=
  s.updModels fun m => { m with serving := tset m.serving m.nextTag w, nextTag := m.nextTag + 1 }

/-- A home's table that a peer's message may use (R356). -/
def State.servedTable (table part first n : Nat) (s : State) : Option FTable :=
  match s.table table with
  | some x =>
    if x.ftMode = 1 ∧ x.owner = part ∧ first + n ≤ x.nVal then some x else none
  | none => none

/-- A lookup's end at the home: its reply, or none while the entry is locked. An entry locked at its fifth read, like a
fault, is counted at the home (R281). [DEDUCED: notes/assumptions/82.md] -/
def State.served (w : Serve) (x : FTable) (m : LookupMsg) (l : Look) (s : State) :
    State × Option ReplyMsg :=
  let s := s.looked m.table l
  match l.last with
  | .found e => (s, some (x.span e m))
  | .absent => (s, some (bareReply m 1))
  | .fault => (s.count Ctr.fsFault m.table, some (bareReply m 6))
  | .locked a pos =>
    if 5 ≤ w.lockReads then (s.count Ctr.fsLocked m.table, some (bareReply m 7))
    else (s.hold { w with lockDue := s.tick + 200, lockAddr := a, lockPos := pos }, none)

/-- A lookup message served (R356). [DEDUCED: notes/assumptions/82.md] -/
def State.serveLookup (src : Nat) (m : LookupMsg) (s : State) : State × Option ReplyMsg :=
  match s.servedTable m.table m.part m.vfirst m.nvals with
  | none => (s, some (bareReply m 4))
  | some x =>
    match x.gen m.gen with
    | none => (s.count Ctr.fsServeGen m.table, some (bareReply m 2))
    | some g =>
      if !(g.state == .sealed || g.state == .current || g.state == .retiring) then
        (s.count Ctr.fsServeGen m.table, some (bareReply m 2))
      else if serveMax ≤ s.models.serving.length then (s.count Ctr.fsServeBusy m.table, some (bareReply m 3))
      else if !s.homeReadable x g m.key then
        ((s.touchMap x g m.key).count Ctr.fsFault m.table, some (bareReply m 6))
      else if s.homeOf x g m.key ≠ s.fab.addr then (s.touchMap x g m.key, some (bareReply m 5))
      else (s.touchMap x g m.key).served { peer := src, work := .lookup m, table := m.table, g := m.gen } x m (s.lookup x g m.key)

/-- The bytes of a reply. -/
def State.replyWords (m : ReplyMsg) (s : State) : List Nat :=
  match s.table m.req.table with
  | some x => replyBytes x m
  | none => lookupWords m.req ++ [m.status * 2 ^ 56]

/-- Replies sent to a peer, as many in a frame as fit. [DEDUCED: notes/assumptions/81.md] -/
def State.sendReplies (dst : Nat) : List ReplyMsg → List Nat → Nat → State → State
  | [], acc, n, s => if acc.isEmpty then s else s.fabSendReplies dst n acc
  | m :: rest, acc, n, s =>
    let w := s.replyWords m
    if n = 64 ∨ (n ≠ 0 ∧ s.frameRoom < 8 * (acc ++ w).length) then
      State.sendReplies dst rest w 1 (s.fabSendReplies dst n acc)
    else State.sendReplies dst rest (acc ++ w) (n + 1) s

/-- One message of a frame served after those before it. -/
def State.serveNext (src : Nat) (p : State × List ReplyMsg) (m : LookupMsg) : State × List ReplyMsg :=
  let r := p.1.serveLookup src m
  (r.1, p.2 ++ r.2.toList)

/-- The messages of a frame served, and the replies sent. -/
def State.serveAll (src : Nat) (msgs : List LookupMsg) (s : State) : State :=
  let p := msgs.foldl (State.serveNext src) (s, [])
  p.1.sendReplies src p.2 [] 0

/-! ### Puts at the home (R359) -/

/-- A value as the table stores it (R218). -/
def FTable.fromFp (x : FTable) (v : W32) : Nat := if x.valFmt = 0 then v.toNat else (FFmt.bf16.conv (fv v)).1

/-- One value of an entry after a put's operation. -/
def FTable.putVal (x : FTable) (op : Nat) (e v : Nat) (a : W32) : Nat :=
  let p := 128 + v
  let q := 256 + x.valBits * v
  let set (n : Nat) : Nat :=
    let e := if e.testBit p then e else e + 2 ^ p
    e - x.rawVal e v * 2 ^ q + n * 2 ^ q
  if op = 2 then (if e.testBit p then e - 2 ^ p else e)
  else if op = 1 ∧ e.testBit p then set (x.fromFp (fadd (x.toFp (x.rawVal e v)) a))
  else set (x.fromFp a)

/-- An entry after a put. -/
def FTable.putEntry (x : FTable) (m : PutMsg) (e : Nat) : Nat :=
  m.values.zipIdx.foldl (fun e v => x.putVal m.op e (m.vfirst + v.2) v.1) e

/-- A put's lookup has ended: its status, or none while the entry is locked. -/
def State.putLook (w : Serve) (x : FTable) (m : PutMsg) (l : Look) (s : State) : State × Option Nat :=
  let s := s.looked m.table l
  match l.last, l.reads.getLast? with
  | .found e, some (a, _) => (s.poke a (leBytes x.entBytes (x.putEntry m e)), some 0)
  | .found _, none => (s, some 1)
  | .absent, _ => (s, some 1)
  | .fault, _ => (s.count Ctr.fsFault m.table, some 5)
  | .locked a pos, _ =>
    if 5 ≤ w.lockReads then (s, some 4)
    else (s.hold { w with lockDue := s.tick + 200, lockAddr := a, lockPos := pos }, none)

/-- A put applied to the home's `CURRENT` generation. A key without one has no entry.
[DESIGN CHOICE: notes/assumptions/83.md] -/
def State.applyPut (src fseq : Nat) (done : List Nat) (m : PutMsg) (rest : List PutMsg) (s : State) :
    State × Option Nat :=
  match s.servedTable m.table m.part m.vfirst m.values.length with
  | none => (s, some 2)
  | some x =>
    match x.genIn .current with
    | none => (s, some 1)
    | some g =>
      if serveMax ≤ s.models.serving.length then (s, some 6)
      else if !s.homeReadable x g m.key then
        ((s.touchMap x g m.key).count Ctr.fsFault m.table, some 5)
      else if s.homeOf x g m.key ≠ s.fab.addr then (s.touchMap x g m.key, some 3)
      else (s.touchMap x g m.key).putLook { peer := src, work := .puts fseq done (m :: rest), table := m.table, g := g.g } x m
        (s.lookup x g m.key)

/-- The puts of a frame have all ended: answered, and the statuses kept; a local put ends. -/
def State.ackPuts (src fseq : Nat) (done : List Nat) (s : State) : State :=
  if src = s.fab.addr then s.endPut fseq (some (done.head?.getD 0))
  else
    (s.modPeer src fun p => { p with putCache := lastN 1024 (p.putCache ++ [(fseq, done)]) }).fabSendNext
      src 9 (fseq :: done)

/-- The puts of a frame applied in order, as far as no lock holds them. -/
def State.applyPuts (src fseq : Nat) : List PutMsg → List Nat → State → State
  | [], done, s => s.ackPuts src fseq done
  | m :: rest, done, s =>
    let r := s.applyPut src fseq done m rest
    match r.2 with
    | some st => State.applyPuts src fseq rest (done ++ [st]) r.1
    | none => r.1

/-- A repeated `PUT` frame gets its statuses again, and nothing while it is still applied (R359). -/
def State.repeatPut (src fseq : Nat) (s : State) : State :=
  match (s.peer src).putCache.find? fun e => e.1 == fseq with
  | some e => s.fabSendNext src 9 (fseq :: e.2)
  | none => s

/-! ### Locked entries (R281) -/

/-- A held lookup read again. -/
def State.retryLookup (w : Serve) (m : LookupMsg) (s : State) : State :=
  match s.servedTable m.table m.part m.vfirst m.nvals, s.genOf w.table w.g with
  | some x, some (_, g) =>
    let r := s.served { w with lockReads := w.lockReads + 1 } x m (s.lookAgain x g m.key w.lockAddr w.lockPos)
    r.1.sendReplies w.peer r.2.toList [] 0
  | _, _ => (s.count Ctr.fsServeGen m.table).sendReplies w.peer [bareReply m 2] [] 0

/-- A held put tried again, by the whole rule: a put that meets a commit applies to the generation that
is `CURRENT` then (R359). -/
def State.retryPut (w : Serve) (fseq : Nat) (done : List Nat) (left : List PutMsg) (s : State) : State :=
  match left with
  | [] => s.ackPuts w.peer fseq done
  | m :: rest =>
    match s.servedTable m.table m.part m.vfirst m.values.length with
    | none => s.applyPuts w.peer fseq rest (done ++ [2])
    | some x =>
      match x.genIn .current with
      | none => s.applyPuts w.peer fseq rest (done ++ [1])
      | some g =>
        let r := if g.g = w.g then
            s.putLook { w with lockReads := w.lockReads + 1 } x m (s.lookAgain x g m.key w.lockAddr w.lockPos)
          else s.applyPut w.peer fseq done m rest
        match r.2 with
        | some st => r.1.applyPuts w.peer fseq rest (done ++ [st])
        | none => r.1

/-- A local fetch's locked entry read again. -/
def State.retryFetch (tag : Nat) (f : Fetch) (s : State) : State :=
  match s.genOf f.reads.1 f.reads.2 with
  | none => (s.endFetch tag .noGen).unparkAll
  | some (x, g) =>
    let l := s.lookAgain x g f.key f.lockAddr f.lockPos
    ((s.looked f.reads.1 l).fetchLook tag x l).unparkAll

/-! ### Puts at the sender (R357 to R359) -/

/-- The table of a put entry that the K4 sends (R358). -/
def State.putTable (p : PutEntry) (s : State) : Option FTable :=
  if p.bad then none else s.servedTable p.table p.msg.part p.msg.vfirst p.nVals

/-- The words of a put message. -/
def putWords (m : PutMsg) : List Nat :=
  pack [(64, m.key.toNat), (16, m.table), (6, m.part), (8, m.vfirst), (5, m.values.length), (2, m.op)] ++
    pack (m.values.map fun v => (32, v.toNat))

/-- A put taken from its ring: numbered, then applied here or sent to its home.
[DESIGN CHOICE: notes/assumptions/83.md] -/
def State.startPut (ring : Nat) (idx : W32) (p : PutEntry) (home : Nat) (s : State) : State :=
  let fseq := s.fab.fseq
  let c := s.channelFrom home (s.keyChannel p.msg.key p.table)
  let run : PutRun := { ring := ring, idx := idx, home := home, msg := p.msg, cookie := p.cookie,
                        report := p.report, sentTick := s.tick, channel := c }
  let s := s.updFab fun f => { f with puts := tset f.puts fseq run, fseq := fseq + 1 }
  let s := (s.takeRate p.msg.part).getD s
  if home = s.fab.addr ∧ home ≠ 0 then s.applyPuts home fseq [p.msg] []
  else if s.reachable home then (s.noteWork home).fabSendAs fseq home c 8 (putWords p.msg)
  else s.endPut fseq none

/-- The next entry of a `FABRIC` ring taken. -/
def State.takePut (ring : Nat) (s : State) : State :=
  let r := s.ring ring
  let idx := r.fabNext
  let p := parsePut r.owner (s.entryWords ring idx)
  let s := s.modRing ring fun r => { r with fabNext := idx + 1, opened := r.opened ++ [idx] }
  match s.putTable p with
  | none => (s.count Ctr.fabPutBad ring).endEntry ring idx
  | some x =>
    match x.genIn .current with
    | none => s.startPut ring idx p 0
    | some g =>
      (s.touchMap x g p.msg.key).startPut ring idx p
        (if s.homeReadable x g p.msg.key then s.homeOf x g p.msg.key else 0)

/-- Every entry that stands on a `FABRIC` ring taken, and those that a full ring held back.
[DEDUCED: notes/assumptions/87.md] -/
def State.takePuts (ring : Nat) : Nat → State → State
  | 0, s => s
  | fuel + 1, s =>
    let r := s.ring ring
    if r.fabNext = r.prodIdx then
      let s := s.drainStalled ring
      if (s.ring ring).fabNext = (s.ring ring).prodIdx then s else State.takePuts ring fuel s
    else State.takePuts ring fuel (s.takePut ring)

/-- The most entries one step can take from a `FABRIC` ring. -/
def Ring.putFuel (r : Ring) : Nat := 2 * (idxCount r.prodIdx r.fabNext + r.stalled.length + 1)

/-- Held work tried again; a put of this device that ends makes room in its ring (R357). -/
def State.retryServe (k : Nat) (w : Serve) (s : State) : State :=
  let s := s.updModels fun m => { m with serving := tdel m.serving k }
  match w.work with
  | .lookup m => s.retryLookup w m
  | .puts fseq done left =>
    let u := s.retryPut w fseq done left
    match if w.peer = s.fab.addr then tget s.fab.puts fseq else none with
    | some p => u.takePuts p.ring (u.ring p.ring).putFuel
    | none => u

/-- `FE_LOCK_RETRY` (R281): a locked entry is read again, for a fetch of this device or for work served
to a peer. -/
def execFeLockRetry (t fetch : Nat) (s : State) : Host.Outcome State Fault Refusal :=
  s.happen t
    (fun s => s.moving && match s.fetch fetch, tget s.models.serving fetch with
      | some f, _ => f.local' && f.lockReads != 0 && decide (f.lockDue ≤ s.tick) &&
          decide (s.tick ≤ f.endTick)
      | none, some w => decide (w.lockDue ≤ s.tick)
      | none, none => false)
    fun s => match s.fetch fetch, tget s.models.serving fetch with
      | some f, _ => s.retryFetch fetch f
      | none, some w => s.retryServe fetch w
      | none, none => s

/-- `FABRIC_POST` (R357): a kernel of the ring's owner posts an entry, and waits while the ring holds it back; what
stands on the ring is taken. [DEDUCED: notes/assumptions/87.md] -/
def execFabricPost (t core ctx ring : Nat) (entry : List W64) (s : State) :
    Host.Outcome State Fault Refusal :=
  s.happen t
    (fun s => s.moving && (s.ring ring).rtype == 7 && s.ctxReady core ctx && match s.ctx core ctx with
      | some x => x.part == (s.ring ring).owner
      | none => false)
    fun s =>
      let s := (s.useCtx ring).itemNow ring [entry]
      (s.modCtx core ctx fun x => { x with fabWait := some (ring, s.tick, entry) }).takePuts ring
        (s.ring ring).putFuel

end Sys2Proof.Machine
end

