-- ==== Sys2Proof/Machine/FabricRows.lean ====
section
/-! DEFINITION. The fabric rows: received frames, timers, the coordinator, and the fabric's commands
(R340 to R359, R397). -/

namespace Sys2Proof.Machine

/-! ### The loss of a peer (R348) -/

/-- The remote fetches to a peer. -/
def State.fetchesTo (a : Nat) (s : State) : List Nat :=
  (s.models.fetches.filter fun e => e.2.remote && e.2.home == a && e.2.joins.isNone && !e.2.parked).map
    (·.1)

/-- The puts to a peer. -/
def State.putsTo (a : Nat) (s : State) : List Nat :=
  (s.fab.puts.filter fun e => e.2.home == a && decide (a ≠ s.fab.addr)).map (·.1)

/-- What is in flight to a peer fails at once. -/
def State.failWork (a : Nat) (s : State) : State :=
  let s := (s.fetchesTo a).foldl (fun s tag => s.failRemote tag Ctr.fsRemoteLost) s
  let s := (s.putsTo a).foldl (fun s k => s.endPut k none) s
  (((s.rings.ctx.filter fun e => e.2.rtype == 7).map (·.1)).foldl
    (fun s n => s.takePuts n (s.ring n).putFuel) s).unparkAll

/-- What is served for the old start of a peer ends. -/
def State.dropServed (a : Nat) (s : State) : State :=
  s.updModels fun m => { m with serving := m.serving.filter fun e => e.2.peer != a }

/-- A `LIVE` peer becomes `LOST`. -/
def State.losePeer (a : Nat) (s : State) : State :=
  let s := s.modPeer a fun p => { p with state := .lost, lastProbe := s.tick }
  (((s.failWork a).reportLoss a).tally Ctr.fabPeerLost).record 0x0070 5 a 0xFF 1 [(8, 1), (16, a)]

/-! ### A received frame (R343 to R345) -/

/-- What becomes of a received frame: dropped, acted on, or a sequence number seen before. -/
inductive FabIn where
  | drop (s : State)
  | fresh (s : State)
  | again (s : State)
  deriving DecidableEq, Repr

/-- The record of a peer with one more accepted frame. -/
def Peer.accept (p : Peer) (f : FabHdr) (tick : Nat) (watched : Bool) : Peer :=
  let high := max p.highSeq f.fseq
  { p with
    state := .live
    bootCount := f.bootCount
    highSeq := high
    seen := (p.seen ++ [f.fseq]).filter fun q => decide (high < q + 1025)
    lastRx := tick
    fwatchRx := if f.fwatch && watched then some tick else none }

/-- A sequence number new under the window rule (R78). -/
def Peer.fresh (p : Peer) (fseq : Nat) : Bool :=
  fseq != 0 && (decide (p.highSeq < fseq) || (decide (p.highSeq < fseq + 1025) && !p.seen.contains fseq))

/-- The device heartbeats to a peer: its last frame with `fwatch` came within 10 ms (R349).
[DEDUCED: notes/assumptions/88.md] -/
def Peer.watchesUs (p : Peer) (tick : Nat) : Bool :=
  match p.fwatchRx with
  | some k => decide (tick < k + 10000000)
  | none => false

/-- The peers the device heartbeats to. [DEDUCED: notes/assumptions/88.md] -/
def State.watchers (s : State) : List Nat :=
  (s.fab.peers.filter fun e => e.2.watchesUs s.tick).map (·.1)

/-- A frame accepted from a peer. -/
def State.acceptFrom (f : FabHdr) (s : State) : State :=
  let p := s.peer f.src
  let room := p.watchesUs s.tick || decide (s.watchers.length < 4096)
  let s := if f.fwatch && !room then s.tally Ctr.fabWatchFull else s
  let s := if p.state = .lost then s.tally Ctr.fabPeerUp else s
  s.modPeer f.src fun p => p.accept f s.tick room

/-- A peer's new start: it counts as lost and live again at once, and its record is reset. -/
def State.newStart (a : Nat) (s : State) : State :=
  let s := if (s.peer a).state = .live then s.losePeer a else s
  (s.dropServed a).modPeer a fun p => { p with highSeq := 0, seen := [], putCache := [] }

/-- The checks of a received frame, in order; the frame of another type than its row's is no listed
one. A sender without an address has no record. [DEDUCED: notes/assumptions/79.md] -/
def State.fabIn (ftype : Nat) (f : FabHdr) (s : State) : FabIn :=
  if f.overrun then .drop (s.tally Ctr.fabOverrun)
  else if f.fftype ≠ ftype ∨ f.fversion ≠ 1 ∨ f.fsys ≠ s.fab.sysId ∨ !f.lenOk ∨
      (f.dst ≠ 0 ∧ f.dst ≠ s.fab.addr) then .drop (s.tally Ctr.fabBadHdr)
  else if !f.tagOk ∨ (tget s.fab.keys f.fkey).isNone then .drop (s.tally Ctr.fabTagFail)
  else if f.src = 0 then .fresh s
  else
    let p := s.peer f.src
    if p.bootCount < f.bootCount then
      let s := if p.state = .unknown then s else s.newStart f.src
      .fresh (s.acceptFrom f)
    else if f.bootCount < p.bootCount then .drop (s.tally Ctr.fabReplay)
    else if p.fresh f.fseq then .fresh (s.acceptFrom f)
    else .again s

/-- A fabric frame received: it acts where it is new, or where `redo` acts on one seen before. -/
def State.fabReceive (t ftype : Nat) (f : FabHdr) (act : State → State) (redo : Option (State → State))
    (s : State) : Host.Outcome State Fault Refusal :=
  s.happen t (fun s => s.fabUp && s.fab.ifcs.any (fun i => i.2 == f.ifc) && (s.ifc f.ifc).link) fun s =>
    match s.fabIn ftype f with
    | .drop s => s
    | .fresh s => act s
    | .again s => match redo with
      | some g => g s
      | none => s.tally Ctr.fabReplay

/-! ### Lookups and puts as frames (R356, R359) -/

/-- `LOOKUP_REPLY` (R356). -/
def execLookupReply (t : Nat) (f : FabHdr) (msgs : List ReplyMsg) (s : State) :
    Host.Outcome State Fault Refusal :=
  s.fabReceive t 7 f (fun s => (msgs.foldl (fun s m => s.replyOne f.src m) s).unparkAll) none

/-- `LOOKUP` (R344, R356). -/
def execLookup (t : Nat) (f : FabHdr) (msgs : List LookupMsg) (s : State) :
    Host.Outcome State Fault Refusal :=
  s.fabReceive t 6 f (fun s => s.serveAll f.src msgs) (some fun s => s.serveAll f.src msgs)

/-- `PUT` (R359). -/
def execPut (t : Nat) (f : FabHdr) (msgs : List PutMsg) (s : State) : Host.Outcome State Fault Refusal :=
  s.fabReceive t 8 f (fun s => s.applyPuts f.src f.fseq msgs []) (some fun s => s.repeatPut f.src f.fseq)

/-- `PUT_ACK` (R359). -/
def execPutAck (t : Nat) (f : FabHdr) (acked : Nat) (statuses : List Nat) (s : State) :
    Host.Outcome State Fault Refusal :=
  s.fabReceive t 9 f
    (fun s => match tget s.fab.puts acked with
      | some p =>
        if p.home = f.src then
          let s := s.endPut acked (some (statuses.head?.getD 0))
          s.takePuts p.ring (s.ring p.ring).putFuel
        else s
      | none => s) none

/-- `PUT_RTO` (R347, R359): no `PUT_ACK` within `fab_rto`; the frame goes again with the same `fseq` on
another channel, at most three times. -/
def execPutRto (t fseq : Nat) (s : State) : Host.Outcome State Fault Refusal :=
  s.happen t
    (fun s => s.fabUp && match tget s.fab.puts fseq with
      | some p => p.home != s.fab.addr && decide (p.sentTick + s.fab.rto ≤ s.tick)
      | none => false)
    fun s => match tget s.fab.puts fseq with
      | none => s
      | some p =>
        let s := s.suspect p.home p.channel
        if 3 ≤ p.resends then
          let s := s.endPut fseq none
          s.takePuts p.ring (s.ring p.ring).putFuel
        else
          let c := s.channelFrom p.home (p.channel + 1)
          let q := { p with resends := p.resends + 1, channel := c, sentTick := s.tick }
          ((s.updFab fun f => { f with puts := tset f.puts fseq q }).noteWork p.home).fabSendAs fseq p.home c
            8 (putWords p.msg)

/-! ### Heartbeats and loss (R348, R349) -/

/-- `HEARTBEAT` (R349): accepting it is all it does. -/
def execHeartbeat (t : Nat) (f : FabHdr) (s : State) : Host.Outcome State Fault Refusal :=
  s.fabReceive t 1 f (fun s => s) none

/-- `HEARTBEAT_SEND` (R349): a heartbeat to every peer that watches the device, except where another
frame has gone to it within 100 µs. -/
def execHeartbeatSend (t : Nat) (s : State) : Host.Outcome State Fault Refusal :=
  s.happen t (fun s => s.fabUp && s.fabLinks && s.bay.resetDue.isNone) fun s =>
    ((s.watchers.filter fun a => match (s.peer a).lastTx with
      | some k => decide (k + 100000 ≤ s.tick)
      | none => true).take 4096).foldl (fun s a => s.fabSendNext a 1 []) s

/-- `PEER_LOSS_TIMEOUT` (R345, R348): a watched `LIVE` peer silent for 300 µs is lost; with every
`fab_if` interface down, every peer is. [DEDUCED: notes/assumptions/80.md] -/
def execPeerLossTimeout (t peer : Nat) (s : State) : Host.Outcome State Fault Refusal :=
  s.happen t
    (fun s => s.fabUp && (s.peer peer).state == .live &&
      (!s.fabLinks || match (s.peer peer).watchSince with
        | some k => s.watching peer && decide (max k (s.peer peer).lastRx + 300000 ≤ s.tick)
        | none => false))
    fun s => s.losePeer peer

/-- `LOST_PEER_PROBE` (R348): every 1 ms a `LOST` peer is sent a heartbeat with `fwatch` set. -/
def execLostPeerProbe (t peer : Nat) (s : State) : Host.Outcome State Fault Refusal :=
  s.happen t
    (fun s => s.fabUp && s.fabLinks && (s.peer peer).state == .lost &&
      decide ((s.peer peer).lastProbe + 1000000 ≤ s.tick))
    fun s => (s.modPeer peer fun p => { p with lastProbe := s.tick }).fabSendNext peer 1 []

/-- `CHANNEL_SUSPECT_EXPIRY` (R347). -/
def execChannelSuspectExpiry (t peer channel : Nat) (s : State) : Host.Outcome State Fault Refusal :=
  s.happen t
    (fun s => match tget (s.peer peer).suspect channel with
      | some due => decide (due ≤ s.tick)
      | none => false)
    fun s => s.modPeer peer fun p => { p with suspect := tdel p.suspect channel }

/-! ### Election (R350) -/

/-- The IP addresses of the device's `fab_if` interfaces. -/
def State.ownIps (s : State) : List Nat := s.fab.ifcs.flatMap fun i => (s.ifc i.2).addrs.map (·.2.toNat)

/-- A candidate of the system: the device is eligible, and one of its addresses is a seed. -/
def State.candidate (s : State) : Bool :=
  s.fab.eligible && s.fab.seeds.any fun e => s.ownIps.contains e.2.1 && e.2.2 == s.fab.port

/-- One candidate ranks above another: the higher priority, then the lower serial number. -/
def ranksAbove (p q : Nat × Nat) : Bool :=
  decide (q.1 < p.1) || (p.1 == q.1 && decide (p.2 < q.2))

/-- A frame's sender is a candidate in `seeds`. -/
def State.fromSeed (f : FabHdr) (s : State) : Bool := s.fab.seeds.any fun e => e.2.1 == f.ip

/-- The other candidates that are mutually `LIVE` with the device: it holds them so, and an `ELECT`, which none sends to
a peer that it holds `LOST`, came within 300 µs (R348, R350). [DEDUCED: notes/assumptions/84.md] -/
def State.liveCandidates (s : State) : List Candidate :=
  s.fab.candidates.filter fun c => decide (s.tick < c.lastRx + 300000) && (c.addr == 0 || (s.peer c.addr).state == .live) &&
    s.fab.seeds.any fun e => e.2.1 == c.ip

/-- The device and a majority of the candidates in `seeds` are `LIVE`.
[DEDUCED: notes/assumptions/84.md] -/
def State.majority (s : State) : Bool := decide (s.fab.seeds.length < 2 * (s.liveCandidates.length + 1))

/-- No `LIVE` candidate ranks above the device. -/
def State.ranksFirst (s : State) : Bool :=
  !s.liveCandidates.any fun c => ranksAbove (c.prio, c.serial) (s.fab.prio, s.fuses.serial)

/-- The fabric's kept settings queued for the store (R352). -/
def State.keepFabric (s : State) : State := s.keep (.fabric s.fab.settings)

/-- An address that may be assigned: valid, free, and not released within 10 s (R352). -/
def State.addrFree (a : Nat) (s : State) : Bool :=
  decide (1 ≤ a) && decide (a ≤ 20480) && !s.fab.assigned.any (fun e => e.2 == a) &&
    match tget s.fab.released a with
    | some k => decide (k + 10000000000 ≤ s.tick)
    | none => true

/-- The lowest free address. -/
def State.lowestFree (s : State) : Option Nat := ((List.range 20480).map (· + 1)).find? fun a => s.addrFree a

/-- The coordinator's answer to a join, in the order of R351. -/
def State.grant (m : JoinMsg) (s : State) : Status × Nat :=
  match aget s.fab.assigned m.serial with
  | some a => (.ok, a)
  | none =>
    if s.addrFree m.addr then (.ok, m.addr)
    else if m.isStatic && s.fab.assigned.any (fun e => e.2 == m.addr) then (.eConflict, 0)
    else match s.lowestFree with
      | some a => (.ok, a)
      | none => (.eNospace, 0)

/-- The IP address that a join request names first. -/
def JoinMsg.ip (m : JoinMsg) : Nat := m.ips.head?.getD 0

/-- An assignment put in the table and on its way to the store. -/
def State.writeAssign (serial a : Nat) (s : State) : State :=
  (s.updFab fun f => { f with assigned := aset f.assigned serial a }).keepFabric

/-- A member published where it is new or has changed. -/
def State.announce (m : JoinMsg) (a boot : Nat) (s : State) : State :=
  let c : ViewChange := { view := 0, addr := a, ip := JoinMsg.ip m, port := m.port, removed := false, lost := false,
                          bootCount := boot }
  if tget s.fab.members a = some { ip := JoinMsg.ip m, port := m.port, bootCount := boot } then s else s.publish c

/-- The store holds every fabric record queued for it. -/
def State.fabWritten (s : State) : Bool := !s.bay.unsaved.any fun v => v.group == 5

/-- The IP address and port of the coordinator, 0 where none is known. -/
def State.coordIp (s : State) : Nat × Nat :=
  match tget s.fab.members s.fab.coord with
  | some m => (m.ip, m.port)
  | none => (0, 0)

/-- A join's answer sent (R351). -/
def State.tellJoin (m : JoinMsg) (st : Status) (a : Nat) (s : State) : State :=
  s.fabSendTo (JoinMsg.ip m) m.port 3 [statusCode st, a, s.coordIp.1, s.coordIp.2]

/-- A majority of the candidates in `seeds`, the device among them, have written an assignment (R352). -/
def State.confirmed (w : JoinWait) (s : State) : Bool :=
  s.fabWritten && decide (s.fab.seeds.length < 2 * (w.acks.length + 1))

/-- The granted addresses that a majority has written are published and answered (R352, R353). -/
def State.settleJoins (s : State) : State :=
  if s.fab.coordinator then
    (s.fab.joinWaits.filter fun w => s.confirmed w).foldl (fun s w =>
        ((s.announce w.msg w.addr w.boot).tellJoin w.msg .ok w.addr))
      (s.updFab fun f => { f with joinWaits := f.joinWaits.filter fun w => !s.confirmed w })
  else s

/-- The seeds but the device's own. -/
def State.otherSeeds (s : State) : List (Nat × Nat) :=
  (s.fab.seeds.map (·.2)).filter fun e => !(s.ownIps.contains e.1 && e.2 == s.fab.port)

/-- An assignment as an unnumbered change, which the candidates write and confirm.
[DESIGN CHOICE: notes/assumptions/156.md] -/
def assignChange (m : JoinMsg) (a boot : Nat) : ViewChange :=
  { view := 0, addr := a, ip := JoinMsg.ip m, port := m.port, removed := false, lost := false, bootCount := boot
    serial := m.serial }

/-- An assignment of the coordinator: written, and put to the other candidates (R352).
[DESIGN CHOICE: notes/assumptions/156.md] -/
def State.assign (m : JoinMsg) (a boot : Nat) (s : State) : State :=
  let s := (s.writeAssign m.serial a).updFab fun f => { f with
    joinWaits := f.joinWaits.filter (fun w => w.msg.serial != m.serial) ++
      [{ msg := m, addr := a, boot := boot, acks := [] }] }
  (s.otherSeeds.foldl (fun s e => s.fabSendTo e.1 e.2 4 (viewWords (assignChange m a boot))) s).settleJoins

/-- The port that frames to a sender's IP address go to: that of the seed there, else the device's own. -/
def State.portAt (ip : Nat) (s : State) : Nat :=
  ((s.fab.seeds.find? fun x => x.2.1 == ip).map (·.2.2)).getD s.fab.port

/-- A candidate's confirmations are sent once its store holds what they confirm (R352). -/
def State.sendAcks (s : State) : State :=
  if s.fabWritten then
    s.fab.acksDue.foldl (fun s e => s.fabSendTo e.1
        (s.portAt e.1) 4 (viewWords e.2))
      (s.updFab fun f => { f with acksDue := [] })
  else s

/-- What waited for the store goes on (R352). -/
def State.fabStored (s : State) : State := s.settleJoins.sendAcks

/-- The device's own join request. -/
def State.ownJoin (s : State) : JoinMsg :=
  { serial := s.fuses.serial, addr := if s.fab.staticAddr = 0 then s.fab.addr else s.fab.staticAddr
    isStatic := s.fab.staticAddr != 0, ips := s.ownIps, port := s.fab.port }

/-- The device becomes coordinator: a term above every one seen, the view above every one reported. It
then holds an address like any member. [DEDUCED: notes/assumptions/84.md] -/
def State.becomeCoord (s : State) : State :=
  let s := s.updFab fun f => { f with
    coordinator := true
    term := maxOf (f.term :: s.liveCandidates.map (·.term)) + 1
    viewNo := maxOf (f.viewNo :: s.liveCandidates.map (·.highView)) + 1 }
  let g := s.grant s.ownJoin
  if g.1 = .ok then
    let s := s.updFab fun f => { f with addr := g.2, coord := g.2, joined := true }
    (s.writeAssign s.ownJoin.serial g.2).announce s.ownJoin g.2 s.fab.bootCount
  else s

/-- The coordinator loses its majority. -/
def State.loseCoord (s : State) : State :=
  ((s.updFab fun f => { f with coordinator := false, coord := 0, joinWaits := [] }).tally Ctr.fabCoordLost).record 0x0070 5 s.fab.addr
    0xFF 1 [(8, 0), (16, s.fab.addr)]

/-- The election settles: the coordinator stays while it has its majority. -/
def State.elected (s : State) : State :=
  if s.fab.coordinator then (if s.majority then s else s.loseCoord)
  else if s.majority && s.ranksFirst then s.becomeCoord
  else s

/-- `ELECT_SEND` (R350): every 100 µs a candidate sends its rank, term and highest view to the others. -/
def execElectSend (t : Nat) (s : State) : Host.Outcome State Fault Refusal :=
  s.happen t (fun s => s.fabUp && s.candidate) fun s =>
    (s.otherSeeds.foldl (fun s e => s.fabSendTo e.1 e.2 5
      [s.fuses.serial, s.fab.prio, s.fab.term, s.fab.viewNo]) s).elected

/-- `ELECT` (R350): a candidate of `seeds` is held as last heard; a higher term ends the device's own. -/
def execElect (t : Nat) (f : FabHdr) (serial prio term highView : Nat) (s : State) :
    Host.Outcome State Fault Refusal :=
  s.fabReceive t 5 f
    (fun s =>
      if !s.candidate || !s.fromSeed f then s
      else
        let c : Candidate := { serial := serial, prio := prio, term := term, highView := highView
                               lastRx := s.tick, ip := f.ip, addr := f.src }
        let s := s.updFab fun x => { x with
          candidates := x.candidates.filter (fun c => c.serial != serial) ++ [c] }
        if s.fab.term < term then
          (s.updFab fun x => { x with term := term, coordinator := false, coord := f.src, joinWaits := [] }).elected
        else s.elected) none

/-! ### Joining (R351 to R353) -/

/-- A join request as words. -/
def joinWords (m : JoinMsg) : List Nat := [m.serial, m.addr, bit m.isStatic, m.port] ++ m.ips

/-- `JOIN_RETRY` (R351): a `JOIN` to the seeds, at once and then every 100 ms until it is answered. -/
def execJoinRetry (t : Nat) (s : State) : Host.Outcome State Fault Refusal :=
  s.happen t
    (fun s => s.fabUp && !s.fab.joined && match s.fab.joinSince with
      | some k => decide (k + 100000000 ≤ s.tick)
      | none => true)
    fun s =>
      (s.fab.seeds.foldl (fun s e => s.fabSendTo e.2.1 e.2.2 2 (joinWords s.ownJoin)) s).updFab fun f => { f with
        joinSince := some s.tick }

/-- `JOIN` (R351, R352): granted by the coordinator once a majority of the candidates have written it, refused by it at
once, and redirected by a candidate. [DEDUCED: notes/assumptions/84.md] -/
def execJoin (t : Nat) (f : FabHdr) (m : JoinMsg) (s : State) : Host.Outcome State Fault Refusal :=
  s.fabReceive t 2 f
    (fun s =>
      if s.fab.coordinator then
        let g := s.grant m
        if g.1 = .ok then s.assign m g.2 f.bootCount else s.tellJoin m g.1 g.2
      else if s.candidate then s.tellJoin m .busy 0
      else s) none

/-- The whole member table asked for, of a member by its address, else by IP address and port (R353). -/
def State.askView (dst : Nat) (ip : Nat × Nat) (s : State) : State :=
  let s := s.updFab fun f => { f with asked := true, whole := none, coord := dst }
  if (tget s.fab.members dst).isSome then s.fabSendNext dst 4 [] else s.fabSendTo ip.1 ip.2 4 []

/-- The device's `JOIN` has been answered by `src`; `coord` is the coordinator's IP address and port. -/
def State.joinAnswered (src status addr : Nat) (coord : Nat × Nat) (s : State) : State :=
  if status = 0 then
    ((s.updFab fun f => { f with joined := true, addr := addr }).keepFabric).askView src coord
  else if status = 1 then
    if coord.1 = 0 then s else s.fabSendTo coord.1 coord.2 2 (joinWords s.ownJoin)
  else if status = 10 then
    (s.updFab fun f => { f with joined := true, addr := 0 }).record 0x0060 5 0 0xFF 1
      [(8, 2), (64, s.fab.staticAddr)]
  else s.updFab fun f => { f with joined := true, addr := 0 }

/-- `JOIN_REPLY` (R351). [DEDUCED: notes/assumptions/85.md] -/
def execJoinReply (t : Nat) (f : FabHdr) (status addr : Nat) (coord : Nat × Nat) (s : State) :
    Host.Outcome State Fault Refusal :=
  s.fabReceive t 3 f (fun s => if s.fab.joined then s else s.joinAnswered f.src status addr coord) none

/-- An assignment taken away, and its address held back for 10 s (R352). -/
def State.dropAssign (a : Nat) (s : State) : State :=
  (s.updFab fun f => { f with
    assigned := f.assigned.filter fun e => e.2 != a
    released := tset f.released a s.tick }).keepFabric

/-- An assignment released by the coordinator (R352). -/
def State.releaseAddr (a : Nat) (s : State) : State :=
  (s.dropAssign a).publish { view := 0, addr := a, ip := 0, port := 0, removed := true, lost := false, bootCount := 0 }

/-- The whole member table sent to a member, in frames within `fab_mtu` (R353). -/
def State.sendTable (dst : Nat) (s : State) : State :=
  (pieces (max 1 (s.frameRoom / 33)) s.fab.members.length s.fab.members).foldl (fun s l =>
    s.fabSendNext dst 4 (l.flatMap fun e =>
      viewWords { view := s.fab.viewNo, addr := e.1, ip := e.2.ip, port := e.2.port, removed := false,
                  lost := e.2.lost, bootCount := e.2.bootCount, row := true })) s

/-- A candidate's confirmation of an assignment counted (R352). -/
def State.tookAck (ip : Nat) (c : ViewChange) (s : State) : State :=
  (s.updFab fun f => { f with joinWaits := f.joinWaits.map fun w =>
    if w.msg.serial = c.serial ∧ w.addr = c.addr ∧ !w.acks.contains ip then { w with acks := w.acks ++ [ip] }
    else w }).settleJoins

/-- What the coordinator does with a `VIEW`: the whole table where it is empty, a loss published, a release carried out,
a candidate's confirmation counted. [DEDUCED: notes/assumptions/84.md] -/
def State.viewAsked (f : FabHdr) (changes : List ViewChange) (s : State) : State :=
  match changes with
  | [] => s.sendTable f.src
  | l => l.foldl (fun s c =>
      if c.removed then
        match aget s.fab.assigned c.serial with
        | some a => s.releaseAddr a
        | none => s
      else if c.lost then
        (if (tget s.fab.members c.addr).any fun m => !m.lost then s.publish (lostChange c.addr) else s)
      else if s.fromSeed f then s.tookAck f.ip c
      else s) s

/-- One row of the whole member table put in. -/
def Fabric.applyRow (c : ViewChange) (f : Fabric) : Fabric :=
  let f := Fabric.apply { c with lost := false } f
  if c.lost then Fabric.apply c f else f

/-- Rows of the whole member table: its first frame replaces the table, and the others add to it (R353). -/
def State.viewRows (rows : List ViewChange) (s : State) : State :=
  let n := maxOf (rows.map (·.view))
  let put (f : Fabric) : Fabric := rows.foldl (fun f c => Fabric.applyRow c f) f
  if rows.isEmpty then s
  else if s.fab.asked ∨ s.fab.viewNo < n then
    s.changeFab fun f => put { f with asked := false, members := [], viewNo := max f.viewNo n, whole := some n }
  else if s.fab.whole = some n then s.changeFab put
  else s

/-- A numbered change applied; a candidate takes a released address out of its table. -/
def State.applyChange (c : ViewChange) (s : State) : State :=
  let s := s.changeFab fun f => { Fabric.apply c f with viewNo := c.view, whole := none, asked := false }
  if c.removed && s.fab.assigned.any (fun e => e.2 == c.addr) then s.dropAssign c.addr else s

/-- Numbered changes applied in view order; behind a gap the whole table is asked for (R353). -/
def State.viewInOrder (src : Nat) (ip : Nat × Nat) : List ViewChange → State → State
  | [], s => s
  | c :: rest, s =>
    if c.view ≤ s.fab.viewNo then State.viewInOrder src ip rest s
    else if c.view = s.fab.viewNo + 1 then State.viewInOrder src ip rest (s.applyChange c)
    else s.askView src ip

/-- A candidate takes assignments and views from the coordinator with the highest term it has seen (R350). -/
def State.heeds (f : FabHdr) (s : State) : Bool :=
  !s.candidate || s.fab.candidates.any fun c => c.ip == f.ip && decide (s.fab.term ≤ c.term)

/-- Assignments that the coordinator puts to a candidate: written, and confirmed once its store holds them (R352). -/
def State.takeAssigns (ip : Nat) (changes : List ViewChange) (s : State) : State :=
  if s.candidate then
    ((changes.filter fun c => c.view == 0 && c.serial != 0).foldl (fun s c =>
      (s.writeAssign c.serial c.addr).updFab fun f => { f with acksDue := f.acksDue ++ [(ip, c)] }) s).sendAcks
  else s

/-- `VIEW` (R352, R353). [DEDUCED: notes/assumptions/84.md] -/
def execView (t : Nat) (f : FabHdr) (changes : List ViewChange) (s : State) :
    Host.Outcome State Fault Refusal :=
  s.fabReceive t 4 f
    (fun s =>
      if s.fab.coordinator then s.viewAsked f changes
      else if !s.heeds f then s
      else
        let s := ((s.takeAssigns f.ip changes).updFab fun x => { x with coord := f.src }).viewRows
          (changes.filter fun c => c.row)
        s.viewInOrder f.src (f.ip, s.portAt f.ip) (changes.filter fun c => c.view != 0 && !c.row)) none

/-! ### Commands (R340, R397) -/

/-- The checks of `FABRIC_CONFIG`'s settings. Times are in ns; a `fab_if` of 0xFF removes an entry.
[DEDUCED: notes/assumptions/86.md] -/
def fabChk (s : State) (r : SetRec) : Option Status :=
  let fixed (k : Option Status) : Option Status :=
    if s.fab.addr ≠ 0 ∧ !s.fab.left then some .eState else k
  match r.id with
  | 1 => scopeIn r 1 (match inRange r 0 (2 ^ 32 - 1) with
      | some st => some st
      | none => fixed none)
  | 2 => scopeIn r 1 (if r.len = 32 then none else some .eArg)
  | 3 => scopeIn r 1 (if r.len = 32 then none else some .eArg)
  | 4 => scopeIn r 1 (inRange r 0 1)
  | 5 => scopeIn r 1 (match inRange r 1024 65535 with
      | some st => some st
      | none => fixed (if r.value = s.ouv.port then some .eArg else none))
  | 6 => scopeIn r 1 (inRange r 1024 65472)
  | 7 => scopeIn r 1 (inRange r 1 64)
  | 8 => scopeIn r 4 (if r.value = 0xFF then none else inRange r 0 3)
  | 9 => scopeIn r 1 (inRange r 1280 9000)
  | 10 => scopeIn r 1 (inRange r 2000 1000000)
  | 11 => scopeIn r 8 (if r.len = 18 then fixed none else some .eArg)
  | 12 => scopeIn r 1 (inRange r 0 1)
  | 13 => scopeIn r 1 (inRange r 0 255)
  | 14 => scopeIn r 1 (match inRange r 0 20480 with
      | some st => some st
      | none => fixed none)
  | _ => some .eArg

/-- A key set, or taken away by a zero one. -/
def setKey (t : Tab (BitVec 256)) (k v : Nat) : Tab (BitVec 256) :=
  if v = 0 then tdel t k else tset t k (BitVec.ofNat 256 v)

/-- `FABRIC_CONFIG`'s settings applied. A new `sys_id`, or a new way to join, makes the device join
again; writing `sys_id` ends a leave. [DEDUCED: notes/assumptions/85.md;
DEDUCED: notes/assumptions/86.md] -/
def fabApply (s : State) (r : SetRec) : State :=
  let v := r.value
  s.changeFab fun f => match r.id with
    | 1 => { f with sysId := v, left := false, joined := false, joinSince := none }
    | 2 => { f with keys := setKey f.keys 0 v }
    | 3 => { f with keys := setKey f.keys 1 v }
    | 4 => { f with keyTx := v }
    | 5 => { f with port := v }
    | 6 => { f with sportBase := v }
    | 7 => { f with paths := v }
    | 8 => { f with ifcs := if v = 0xFF then tdel f.ifcs r.scope else tset f.ifcs r.scope v }
    | 9 => { f with mtu := v }
    | 10 => { f with rto := v }
    | 11 => { f with
        seeds := if v = 0 then tdel f.seeds r.scope else tset f.seeds r.scope (v / 65536, v % 65536)
        joined := false, joinSince := none }
    | 12 => { f with eligible := v == 1 }
    | 13 => { f with prio := v }
    | 14 => { f with staticAddr := v, joined := false, joinSince := none }
    | _ => f

/-- `FABRIC_CONFIG` (R340). -/
def execFabricConfig (t : Nat) (h : CmdHdr) (recs : List SetRec) (s : State) :
    Host.Outcome State Fault Refusal :=
  s.isain t { op := 0x0D01, resv := resvRec recs } h noObj (isP0 h) fun s =>
    settings (fabChk s) fabApply (fun _ _ => none) State.keepFabric recs s

/-- `FABRIC_LEAVE` (R397): fabric traffic stops, and what is in flight fails; the assignment stays.
[DEDUCED: notes/assumptions/85.md] -/
def execFabricLeave (t : Nat) (h : CmdHdr) (s : State) : Host.Outcome State Fault Refusal :=
  s.isain t { op := 0x0D02 } h noObj (isP0 h) fun s =>
    let s := s.updFab fun f => { f with left := true, coordinator := false, joinWaits := [], acksDue := [] }
    let s := (s.fab.members.map (·.1)).foldl (fun s a => s.failWork a) s
    okReply ((s.updModels fun m => { m with
      serving := m.serving.filter fun e => e.2.peer == s.fab.addr }).keepFabric)

/-- `FABRIC_RELEASE` (R352): the coordinator releases; any other member asks it to. -/
def execFabricRelease (t : Nat) (h : CmdHdr) (serial : Nat) (s : State) :
    Host.Outcome State Fault Refusal :=
  s.isain t { op := 0x0D03 } h noObj (isP0 h) fun s =>
    if s.fab.coordinator && s.majority && s.fabUp then
      match aget s.fab.assigned serial with
      | some a => okReply (s.releaseAddr a)
      | none => no .eState
    else if s.fabUp && s.reachable s.fab.coord && !s.fab.coordinator then
      okReply (s.fabSendNext s.fab.coord 4
        (viewWords { view := 0, addr := 0, ip := 0, port := 0, removed := true, lost := false,
                     bootCount := 0, serial := serial }))
    else no .eState

/-- A fabric address of R341. -/
def addrValid (a : Nat) : Bool := decide (1 ≤ a) && decide (a ≤ 20480)

/-- `FABRIC_WATCH` (R349). [DEDUCED: notes/assumptions/86.md] -/
def execFabricWatchAdd (t : Nat) (h : CmdHdr) (addr : Nat) (s : State) : Host.Outcome State Fault Refusal :=
  s.isain t { op := 0x0D04 } h noObj (isP0 h) fun s =>
    if !addrValid addr then no .eRange
    else if s.fab.watch.contains addr then okReply s
    else if 4096 ≤ s.fab.watch.length then no .eNospace
    else okReply ((s.startWatch addr).updFab fun f => { f with watch := f.watch ++ [addr] })

/-- `FABRIC_WATCH` with `op` 1 (R349). -/
def execFabricWatchRemove (t : Nat) (h : CmdHdr) (addr : Nat) (s : State) :
    Host.Outcome State Fault Refusal :=
  s.isain t { op := 0x0D04 } h noObj (isP0 h) fun s =>
    if !addrValid addr then no .eRange
    else okReply (s.updFab fun f => { f with watch := f.watch.filter (· != addr) })

/-- The state of a member as `FABRIC_STATUS` gives it (R348, R353): the view's loss is shown too.
[DEDUCED: notes/assumptions/86.md] -/
def State.memberState (a : Nat) (m : Member) (s : State) : Nat :=
  if a = s.fab.addr then 1
  else match (s.peer a).state with
    | .lost => 2
    | .live => if m.lost then 2 else 1
    | .unknown => if m.lost then 2 else 0

/-- `FABRIC_STATUS` (R353, R397). -/
def execFabricStatus (t : Nat) (h : CmdHdr) (start max : Nat) (s : State) :
    Host.Outcome State Fault Refusal :=
  s.isain t { op := 0x0D05, stop := true } h noObj anyPart fun s =>
    .done .ok (listPage start max 1077 [(16, s.fab.addr), (32, s.fab.term), (64, s.fab.viewNo)]
      (s.fab.members.map fun e =>
        (e.1, [(16, e.1), (2, s.memberState e.1 e.2), (32, if e.1 = s.fab.addr then s.fab.bootCount else
          (s.peer e.1).bootCount)]))) s

end Sys2Proof.Machine
end

