-- ==== Sys2Proof/Machine/MemRows.lean ====
section
/-! DEFINITION. The rows of the memory subsystem: scrubbing, refresh, page retirement, SRAM checks and
link flits (R320 to R339, R435, R440). -/

namespace Sys2Proof.Machine

/-! ### Commands (R397) -/

/-- A record of `MEM_CONFIG`. -/
def memChk (r : SetRec) : Option Status :=
  match r.id with
  | 1 => scopeIn r 1 (inRange r 3600 172800)
  | _ => some .eArg

/-- `MEM_CONFIG` (R329). -/
def execMemConfig (t : Nat) (h : CmdHdr) (recs : List SetRec) (s : State) :
    Host.Outcome State Fault Refusal :=
  s.isain t { op := 0x0C01, resv := resvRec recs } h noObj (isP0 h) fun s =>
    settings memChk (fun s r => s.updMem fun m => { m with scrubPeriod := r.value })
      (fun _ _ => none) (fun s => s.keep s.deviceVal) recs s

/-- A page of the software area or Isain's area (R334). [DEDUCED: notes/assumptions/77.md] -/
def pageGood (a : Nat) : Bool :=
  decide (a < 0x6000000000) &&
    (decide (a % regionSize < 0x5E0000000) || decide (0x5FE000000 ≤ a % regionSize))

/-- A page has been retired. -/
def State.pageRetired (a : Nat) (s : State) : Bool :=
  (s.region (regionOf a)).retired.any fun e => e.1 == a

/-- The words of a page copied to its spare: corrected, or poisoned where they cannot be (R336). -/
def State.copyPage (a : Nat) (s : State) : State :=
  (s.touch a 4096 0).updMem fun m => { m with
    faults := m.faults.map fun e =>
      if a ≤ e.1 ∧ e.1 < a + 4096 ∧ e.2 = .broken then (e.1, .poison) else e }

/-- The lowest spare page of a region that no page is retired to (R334). -/
def Region.spare (r : Region) : Nat :=
  ((List.range (r.retired.length + 1)).find? fun i => !r.retired.any fun e => e.2 == i).getD 0

/-- A page retired to a spare page of its region (R336). Its rows are to be repaired, whether or not they have been
before. [DESIGN CHOICE: notes/assumptions/18.md] -/
def State.retirePage (a : Nat) (s : State) : State :=
  let g := regionOf a
  let s := ((s.copyPage a).modRegion g fun r => { r with
    retired := r.retired ++ [(a, r.spare)]
    poolLeft := r.poolLeft - 1
    due := r.due.filter (· != a) }).updMem fun m => { m with
    repaired := m.repaired.filter fun x => !(x.1 == g && (pageRows (a % regionSize)).contains x.2) }
  let s := (s.count Ctr.memRetired g).recordEvent 0x0011 2 g 0xFF 1 [(8, 0), (48, a)] 0 0x0010 [(48, a)]
  s.keep s.pagesVal

/-- `MEM_RETIRE` (R335, R336). [DEDUCED: notes/assumptions/77.md] -/
def execMemRetire (t : Nat) (h : CmdHdr) (addr : Nat) (s : State) : Host.Outcome State Fault Refusal :=
  s.isain t { op := 0x0C02 } h noObj (isP0 h) fun s =>
    checks
      [(addr % 4096 != 0, .eArg), (!pageGood addr, .eRange),
       (decide ((s.region (regionOf addr)).poolLeft = 0), .eNospace), (s.pageRetired addr, .eState)]
      (okReply (s.retirePage addr))

/-! ### Scrubbing, refresh, retirement -/

/-- A line of Isain's area that holds a word it cannot read (R331): Isain writes the structure again from its shadows,
or, where it holds none, calls for a device reset; which is open. [DESIGN CHOICE: notes/assumptions/116.md] -/
def State.isainHurt (line : Nat) (s : State) : State :=
  if line % regionSize < 0x5FE000000 ∨ s.mem.readable line 64 then s
  else if Config.freeBool s.freeCount then
    ({ s with freeCount := s.freeCount + 1 }).updMem fun m => { m with
      faults := m.faults.filter fun e => decide (e.1 < line) || decide (line + 64 ≤ e.1) }
  else ({ s with freeCount := s.freeCount + 1 }).orderReset 0

/-- `PATROL_SCRUB` (R329): a line read, corrected and counted; `check` is what its words give.
[DESIGN CHOICE: notes/assumptions/116.md] -/
def execPatrolScrub (t line : Nat) (check : WordCheck) (s : State) :
    Host.Outcome State Fault Refusal :=
  s.happen t (fun s => s.moving && line % 64 == 0 && decide (line < 0x6000000000)) fun s =>
    (((s.strike [(line, 64)] check).touch line 64 1).isainHurt line).modRegion (regionOf line) fun r => { r with
      patrolNext := (line % regionSize + 64) % regionSize }

/-- The pool of a region is empty (R338): counted and recorded; partition 0 is told once. -/
def State.poolEmpty (g a : Nat) (s : State) : State :=
  let told := (s.region g).emptyTold
  let s := (s.count Ctr.memSpareEmpty g).modRegion g fun r => { r with
    emptyTold := true, due := r.due.filter (· != a) }
  if told then s.record 0x0011 2 g 0xFF 1 [(8, 1), (48, a)]
  else s.recordEvent 0x0011 2 g 0xFF 1 [(8, 1), (48, a)] 0 0x0013 [(8, g)]

/-- `PAGE_RETIRE` (R335, R336, R338): a page that met a trigger. One of the pool itself is no page that retirement
moves (R334). -/
def execPageRetire (t addr : Nat) (s : State) : Host.Outcome State Fault Refusal :=
  s.happen t (fun s => s.running && (s.region (regionOf addr)).due.contains addr) fun s =>
    if !pageGood addr then
      s.modRegion (regionOf addr) fun r => { r with due := r.due.filter (· != addr) }
    else if (s.region (regionOf addr)).poolLeft = 0 then s.poolEmpty (regionOf addr) addr
    else s.retirePage addr

/-- `MR4_POLL` (R333): the refresh rate that MR4 requires; a change is recorded with the first address
of the channel. [DEDUCED: notes/assumptions/76.md] -/
def execMr4Poll (t region channel rate : Nat) (s : State) : Host.Outcome State Fault Refusal :=
  s.happen t (fun s => s.running && decide (region < 16) && decide (channel < 4)) fun s =>
    if tgetD (s.region region).refresh channel 1 = rate then s
    else (s.modRegion region fun r => { r with refresh := tset r.refresh channel rate }).record 0x0011 2
      region 0xFF 1 [(8, 2), (48, region * regionSize + channel * 512)]

/-- `OSCILLATOR_TRACK` (R333): delays adjusted; only time passes for the channel. -/
def execOscillatorTrack (t region channel : Nat) (s : State) : Host.Outcome State Fault Refusal :=
  s.happen t (fun s => s.running && decide (region < 16) && decide (channel < 4)) fun s =>
    s.modRegion region fun r => { r with oscTick := tset r.oscTick channel s.tick }

/-! ### SRAM (R330, R201, R435, R440) -/

/-- The address of a word of a row, in a memory of 32 banks with a number of rows each (R185). -/
def rowWord (rows row w : Nat) : Nat := (32 * (row % rows) + w / 2) * 256 + 8 * (row / rows) + 4 * (w % 2)

/-- A number below `m` from a free value, and the state that has used it. -/
def State.pick (m : Nat) (s : State) : Nat × State := (freeBelow m s.fresh.1, s.fresh.2)

/-- A word of a row poisoned; which one is open. [DESIGN CHOICE: notes/assumptions/74.md] -/
def State.poisonRow (x : Space) (rows row : Nat) (s : State) : State :=
  let p := s.pick 64
  p.2.spacePoison x (rowWord rows row p.1)

/-- An uncorrectable word in instruction memory: the kernel it lies in ends in every context that runs
it, and is loaded again at its next launch (R201). Which kernel is open.
[DESIGN CHOICE: notes/assumptions/74.md] -/
def State.instrFault (core : Nat) (s : State) : State :=
  let l := (s.core core).resident
  let p := s.pick l.length
  match l[p.1]? with
  | none => s
  | some e =>
    let img := (e.1, e.2.1)
    let mine := ((p.2.core core).ctxs.filter fun x => x.2.image == some img).map (·.1)
    let s := mine.foldl (fun s k => s.endContext core k 1) p.2
    (s.modCore core fun c => { c with
      resident := c.resident.filter fun e => !((e.1, e.2.1) == img) }).settle2

/-- An uncorrectable word in a reduce buffer: its group closes with every contribution void (R201, R316).
Which group is open. [DESIGN CHOICE: notes/assumptions/74.md] -/
def State.reduceFault (c : Nat) (s : State) : State :=
  let l := (s.cluster c).groups
  let p := s.pick l.length
  match l[p.1]? with
  | none => s
  | some (i, g) =>
    let s := match g.slot with
      | some (k, gen, stage) => p.2.stageLost k gen stage
      | none => p.2
    ((s.modCluster c fun x => { x with groups := tdel x.groups i }).deliverGroup chainFuel c
      { g with arrived := g.expected, summed := 0, voids := g.expected, acc := List.replicate g.len 0
      }).settle2

/-- An uncorrectable word in the packet buffer: a frame is poisoned. Which frame is open.
[DESIGN CHOICE: notes/assumptions/74.md] -/
def State.bufferFault (s : State) : State :=
  let l := s.parser.frames
  let p := s.pick l.length
  match l[p.1]? with
  | none => s
  | some (id, _) => p.2.modFrame id fun f => { f with poison := true }

/-- The security core restarts Isain (R440); a second restart within 10 s leads to a device reset.
[DESIGN CHOICE: notes/assumptions/75.md] -/
def State.restartIsain (s : State) : State :=
  let again := match s.bay.lastRestart with
    | some k => decide (s.tick < k + 10000000000)
    | none => false
  if again then s.orderReset 0
  else s.updBay fun b => { b with
    isainUp := false, lastRestart := some s.tick, mute := s.flights }

/-- What an uncorrectable word in an SRAM does to what the SRAM holds (R331).
[DESIGN CHOICE: notes/assumptions/74.md; DESIGN CHOICE: notes/assumptions/75.md] -/
def State.sramHurt (k : SramKind) (unit row : Nat) (s : State) : State :=
  match k with
  | .localSram => s.poisonRow (.sram unit) 24 row
  | .clusterStore => s.poisonRow (.store unit) 256 row
  | .instr => s.instrFault unit
  | .reduceBuf => s.reduceFault unit
  | .packetBuf => s.bufferFault
  | .chiveGroup => s.updParser fun p => { p with
      offline := if p.offline.contains unit then p.offline else p.offline ++ [unit] }
  | .baySram =>
    if s.mem.emptyTold.contains (SramKind.code .baySram, unit) || Config.freeBool s.freeCount then ({ s with freeCount := s.freeCount + 1 }).restartIsain
    else { s with freeCount := s.freeCount + 1 }
  | .dillBuf => s
  | .tableMem => s

/-- Units of an SRAM kind (R459). -/
def sramUnits : SramKind → Nat
  | .localSram => 4096
  | .instr => 4096
  | .clusterStore => 256
  | .reduceBuf => 256
  | .dillBuf => 256
  | .chiveGroup => 16
  | .packetBuf => 1
  | .baySram => 1
  | .tableMem => 8

/-- `SRAM_SCRUB` (R330, R331, R435): a row checked. A rule row that fails is disabled as a look-up would
disable it (R161). [DESIGN CHOICE: notes/assumptions/116.md] -/
def execSramScrub (t : Nat) (kind : SramKind) (unit row : Nat) (check : WordCheck) (s : State) :
    Host.Outcome State Fault Refusal :=
  s.happen t (fun s => s.running && decide (unit < sramUnits kind)) fun s =>
    if kind = .tableMem ∧ unit < 2 ∧ check = .uncorrectable then s.ruleFault unit row
    else
      let s := s.sramChecked kind unit row check
      if check = .uncorrectable then s.sramHurt kind unit row else s

/-! ### Links (R332) -/

/-- The links of R459. -/
def linkCount : Nat := 280

/-- The record of a link (R450). -/
def State.linkRecord (l lane sub : Nat) (s : State) : State :=
  s.record 0x0012 (if l < 8 then 4 else 2) 0 0xFF 1 [(16, l), (8, lane), (8, sub)]

/-- A lane removed; a link that has lost more than a quarter of its lanes leads to a device reset. -/
def State.removeLane (l lane : Nat) (s : State) : State :=
  let s := ((s.modLink l fun x => { x with lanesOut := x.lanesOut ++ [lane] }).count Ctr.linkLaneOut
    l).linkRecord l lane 0
  if linkLanes l < 4 * (s.link l).lanesOut.length then s.orderReset 1000000 else s

/-- A replay on a lane: the lane is removed with more than 16 of them within 1 ms. -/
def State.replay (l lane : Nat) (s : State) : State :=
  let s := s.count Ctr.linkReplay l
  let recent := (tgetD (s.link l).replays lane []).filter fun k => decide (s.tick < k + 1000000)
  let s := s.modLink l fun x => { x with replays := tset x.replays lane (recent ++ [s.tick]) }
  if 16 ≤ recent.length ∧ lane < linkLanes l ∧ !(s.link l).lanesOut.contains lane then
    s.removeLane l lane
  else s

/-- The flit as its sender holds it. -/
def heldFlit (f : Flit) : Flit := { f with headerBad := false }

/-- The words of memory that the data words of a flit go to. -/
def flitPlaces (f : Flit) : List (Space × Nat) :=
  match f.dest with
  | .none => []
  | .device a => (List.range f.words).map fun i => (.device, a / 4 * 4 + 4 * i)
  | .sram p a => (List.range f.words).map fun i => (.sram p, a / 4 * 4 + 4 * i)
  | .store c a => (List.range f.words).map fun i => (.store c, a / 4 * 4 + 4 * i)

/-- The region on which a flit's poisoned word is counted: its destination's, or 0 where its words go to no memory.
[DESIGN CHOICE: notes/assumptions/64.md] -/
def flitRegion (f : Flit) : Nat :=
  match f.dest with
  | .none => 0
  | .device a => regionOf a
  | .sram p _ => coreRegion p
  | .store c _ => c / 16

/-- A flit with a poisoned word (R325, R332): the word is delivered poisoned and counted; which one it is, of its data
words, is open. [DESIGN CHOICE: notes/assumptions/116.md] -/
def State.poisonedFlit (f : Flit) (s : State) : State :=
  let s := s.count Ctr.memPoisonRead (flitRegion f)
  match (flitPlaces f)[freeBelow (flitPlaces f).length s.fresh.1]? with
  | none => s
  | some e => s.fresh.2.spacePoison e.1 e.2

/-- A flit given up after three replays: its data words are delivered poisoned; a bad header takes the link down. -/
def State.giveUp (l lane : Nat) (f : Flit) (s : State) : State :=
  if f.headerBad then
    let s := (s.modLink l fun x => { x with up := false }).linkRecord l lane 1
    if l < 8 then s.orderReset 1000000 else s
  else ((flitPlaces f).foldl (fun s e => s.spacePoison e.1 e.2) s).count Ctr.linkUe l

/-- `LINK_FLIT_RECEIVE` (R332): `attempt` counts the replays behind this one; a replay takes the flit from the
sender's buffer. -/
def execLinkFlitReceive (t link lane : Nat) (check : WordCheck) (flit : Flit) (attempt : Nat)
    (s : State) : Host.Outcome State Fault Refusal :=
  s.happen t
    (fun s => s.running && decide (link < linkCount) && (s.link link).up &&
      (attempt == 0 || (s.link link).buffer.contains (heldFlit flit)))
    fun s =>
      let s := if attempt = 0 then s.modLink link fun x => { x with
        buffer := lastN 64 (x.buffer ++ [heldFlit flit]) } else s
      match check with
      | .clean => s
      | .poisoned => s.poisonedFlit flit
      | .corrected => s.count Ctr.linkCe link
      | .uncorrectable => if attempt < 3 then s.replay link lane else s.giveUp link lane flit

end Sys2Proof.Machine
end

