-- ==== Sys2Proof/Machine/Recover.lean ====
section
/-! DEFINITION. Recovery: partition re-initialisation and revocation, hung slots, orphans, spares, core
retirement, and the restart of Isain (R112, R431 to R444). -/

namespace Sys2Proof.Machine

/-! ### Re-initialisation of a partition (R112, R438, R439) -/

/-- `PARTITION_REINIT` (R389, R438): a second request joins the one that runs. -/
def execPartitionReinit (t : Nat) (h : CmdHdr) (part : Nat) (s : State) :
    Host.Outcome State Fault Refusal :=
  s.isain t { op := 0x0105 } h noObj (fun _ => owns h part) fun s =>
    checks [(part == 0 || decide (64 ≤ part), .eArg), (!(s.part part).enabled, .eState)]
      (.wait (s.modPart part fun x => { x with reinit := match x.reinit with
        | some (k, hs) => some (k, hs ++ [h])
        | none => some (s.tick, [h]) }))

/-- The next owner token: 0 is skipped. -/
def nextToken (k : Nat) : Nat := if k = 65535 then 1 else k + 1

/-- A ring revoked: disabled, under the new token; a host-produced or `FABRIC` ring loses what it had
not consumed, and any other keeps what was not released. -/
def Ring.revoke (token : Nat) (r : Ring) : Ring :=
  let r := { r with enabled := false, ownerToken := token }
  if hostProduced r.rtype then
    { r with
      dropCount := min (r.dropCount + idxCount r.prodIdx r.consIdx) (2 ^ 32 - 1)
      consIdx := r.prodIdx, limitIdx := r.prodIdx + BitVec.ofNat 32 r.size
      inflight := 0, opened := [], fences := [], fencePending := 0, avail := [], pendingDone := []
      slotWait := none, cmd := [] }
  else if r.rtype = 7 then
    { r with consIdx := r.prodIdx, limitIdx := r.prodIdx, fabNext := r.prodIdx, opened := [] }
  else r

/-- The rings of a partition revoked; stalled items are dropped with their rings' disabling (R104), and
operations that wait for their contexts are discarded. -/
def State.revokeRings (p token : Nat) (s : State) : State :=
  let mine (n : Nat) : Bool := (s.ring n).owner == p && s.ringMade n
  let late := (s.rings.cache.waiting.filter fun e => mine e.1).length
  let s := s.updFab fun f => { f with puts := f.puts.filter fun e => !mine e.2.ring }
  let s := ((s.rings.ctx.filter fun e => e.2.owner == p).map (·.1)).foldl (fun s n => s.dropStalled n) s
  let s := s.updRings fun x => { x with
    ctx := x.ctx.map fun e => if e.2.owner = p then (e.1, e.2.revoke token) else e
    cache := { x.cache with waiting := x.cache.waiting.filter fun e => !mine e.1 } }
  if late = 0 then s else s.countN Ctr.staleCompletion 0 late

/-- The slots of a partition that hold work. -/
def State.liveSlots (p : Nat) (s : State) : List Nat :=
  (s.rings.slots.filter fun e => e.2.part == p && e.2.state != .free && e.2.state != .orphan).map (·.1)

/-- A slot orphaned: its fetches and shares go with it, no verdict is written, and it is kept until its
clusters are reset. A frame held for it goes on with its rule's `fwd_action` (R163). -/
def State.orphan (clusters : List Nat) (k : Nat) (s : State) : State :=
  let x := s.slot k
  let s := s.abandon k
  let s := s.modSlot k fun y => { y with state := .orphan, orphanClusters := clusters }
  match x.src with
  | .frame id =>
    let s := s.modFrame id fun f => { f with slot := none }
    if (s.frame id).any fun f => f.stage.held then s.ruleDecides id else s
  | .ring _ _ => s

/-- The barriers of a partition end; each answers `E_STATE`. [DEDUCED: notes/assumptions/91.md] -/
def State.endBarriers (p : Nat) (s : State) : State :=
  let mine := s.rings.barriers.filter fun b => b.1 == p
  mine.foldl (fun s b => s.answer b.2.2.h 0x0307 .eState noDetail [])
    (s.updRings fun x => { x with barriers := x.barriers.filter fun b => b.1 != p })

/-- The launches of a partition that wait for a retirement end; each answers `E_STATE`.
[DEDUCED: notes/assumptions/154.md] -/
def State.endHeld (p : Nat) (s : State) : State :=
  (s.comp.held.filter fun e => e.1.part == p).foldl (fun s e => s.refuseHeld e .eState) s

/-- The clusters a partition owns. -/
def State.ownedBy (p : Nat) (s : State) : List Nat :=
  (s.comp.clusters.filter fun e => e.2.owner == p).map (·.1)

/-- A cluster of a revoked partition: its work ends at once, under its own leave where one runs. -/
def State.revokeCluster (p c : Nat) (s : State) : State :=
  match (s.cluster c).leaving with
  | some l => if l.resetting then s else s.abortCluster c
  | none => (s.modCluster c fun x => { x with
      leaving := some { target := p, graceEnd := s.tick, h := none, revoke := true } }).abortCluster c

/-- Revocation (R112, R439). [DEDUCED: notes/assumptions/91.md] -/
def State.revoke (p : Nat) (s : State) : State :=
  let token := nextToken (s.part p).token
  let s := (s.modPart p fun x => { x with token := token, revoking := true, hangs := [] }).revokeRings p token
  let ks := s.liveSlots p
  let s := s.modPart p fun x => { x with reinit := x.reinit.map fun r => (ks.length, r.2) }
  let cs := s.ownedBy p
  let s := ks.foldl (fun s k => s.orphan cs k) s
  let s := s.modDomain p fun d => { d with staging := {} }
  let s := (s.endBarriers p).endHeld p
  let s := (s.sessionsOf p).foldl (fun s sid => s.closeSession sid .eState) s
  let s := (cs.foldl (fun s c => s.revokeCluster p c) s).unparkAll
  if s.revokeDone p then s.endReinit p else s

/-- All work of a partition has ended. -/
def State.partIdle (p : Nat) (s : State) : Bool :=
  (s.liveSlots p).isEmpty && (s.ownedBy p).all fun c => s.clusterIdle c

/-- `REINIT_REVOKE` (R438): all work has ended, or 10 ms have passed. -/
def execReinitRevoke (t part : Nat) (s : State) : Host.Outcome State Fault Refusal :=
  s.happen t
    (fun s => s.running && !(s.part part).revoking && match (s.part part).reinit with
      | some (k, _) => decide (k + 10000000 ≤ s.tick) || s.partIdle part
      | none => false)
    fun s => s.revoke part

/-- `ORPHAN_SLOT_FREE` (R112). -/
def execOrphanSlotFree (t slot : Nat) (s : State) : Host.Outcome State Fault Refusal :=
  s.happen t (fun s => (s.slot slot).state == .orphan && (s.slot slot).orphanClusters.isEmpty) fun s =>
    s.freeSlot slot

/-! ### Hung slots (R437) -/

/-- A slot is hung: more than 100 ms past its deadline. Deep-path frames never hang. -/
def Slot.hung (x : Slot) (tick : Nat) : Bool :=
  (x.state == .running || x.state == .posting) && decide (x.deadline + 100000000 < tick) &&
    match x.src with
    | .ring _ _ => true
    | .frame _ => false

/-- A hung slot found for the first time: counted, recorded, and told where it is partition 0's.
[DEDUCED: notes/assumptions/92.md] -/
def State.foundHung (k : Nat) (s : State) : State :=
  let x := s.slot k
  let s := s.modSlot k fun y => { y with hangCounted := true, hungSince := some (x.deadline + 100000000) }
  let s := s.count Ctr.slotHang x.part
  let s := s.modPart x.part fun p => { p with
    hangs := (p.hangs.filter fun u => decide (s.tick < u + 1000000000)) ++ [s.tick] }
  let data := [(8, 0), (8, x.part), (32, s.counter Ctr.slotHang x.part)]
  if x.part = 0 then
    s.recordEvent 0x0050 4 0 0 2 data 0 0x0014 [(6, 0), (16, k), (16, x.gen)]
  else s.record 0x0050 4 0 x.part 2 data

/-- The hung slots of a partition. -/
def State.hungOf (p : Nat) (s : State) : List Nat :=
  (s.rings.slots.filter fun e => e.2.part == p && e.2.hung s.tick).map (·.1)

/-- A partition's hangs start its re-initialisation: 16 within 1 s, or one for 1 s. -/
def State.hangTrigger (p : Nat) (s : State) : Bool :=
  p != 0 && (s.part p).reinit.isNone &&
    (decide (16 ≤ ((s.part p).hangs.filter fun u => decide (s.tick < u + 1000000000)).length) ||
      (s.hungOf p).any fun k => decide ((s.slot k).deadline + 1100000000 ≤ s.tick))

/-- `HUNG_SLOT_SCAN` (R437). -/
def execHungSlotScan (t : Nat) (s : State) : Host.Outcome State Fault Refusal :=
  s.happen t (fun s => s.running && s.isainUp) fun s =>
    let s := ((s.rings.slots.filter fun e => e.2.hung s.tick && !e.2.hangCounted).map (·.1)).foldl
      (fun s k => s.foundHung k) s
    (List.range 64).foldl (fun s p =>
      if s.hangTrigger p then s.modPart p fun x => { x with reinit := some (s.tick, []) } else s) s

/-! ### Spares and retirement (R14 to R16, R431 to R434, R444) -/

/-- `SPARE_TEST` (R434): an idle spare that fails takes state 6. -/
def execSpareTest (t core : Nat) (passed : Bool) (s : State) : Host.Outcome State Fault Refusal :=
  s.happen t (fun s => s.running && (s.positions 4).any fun e => e.2.phys == core) fun s =>
    match (s.positions 4).find? fun e => e.2.phys == core with
    | none => s
    | some (i, _) =>
      if passed then s else s.spareFailed i core

/-- The idle spares that can take the place of a core of a cluster, in the order of R14; among those of
one cluster, the lowest index position. [DEDUCED: notes/assumptions/93.md] -/
def State.sparesFor (c : Nat) (s : State) : List (Nat × MapEntry) :=
  let idle := (s.positions 4).filter fun e => coreRegion e.2.phys == c / 16
  (idle.filter fun e => e.2.phys / 16 == c) ++ idle.filter fun e => e.2.phys / 16 != c

/-- The spares chosen before one holds: each that fails during its copy takes state 6 (R444).
[DEDUCED: notes/assumptions/93.md] -/
def State.chooseSpare (fails : List Nat) : List (Nat × MapEntry) → State → State × Option (Nat × MapEntry)
  | [], s => (s, none)
  | (i, e) :: rest, s =>
    if fails.contains e.phys then
      State.chooseSpare fails rest (s.modMap i fun x => { x with state := 6 })
    else (s, some (i, e))

/-- The position of the spare that a logical number leaves: it has served, and serves no more (R16). -/
def State.leaveSpare (e : MapEntry) (s : State) : State :=
  if e.state = 2 then s.modMap e.link fun x => { x with state := 7, link := 0 } else s

/-- What a retirement tells: the record, partition 0's ring, and the owner's.
[DEDUCED: notes/assumptions/93.md] -/
def State.tellRetired (unit l old new sub : Nat) (s : State) : State :=
  let data := [(12, l), (12, old), (12, new)]
  let rm := s.rmNext
  let s := s.coreRecord unit l old new sub
  let rm := if s.rmNext = rm then 0 else rm
  let owner := ((tget s.comp.map l).map fun e => (s.cluster (e.home / 16)).owner).getD 0x7F
  let s := s.event 0 0x0011 data rm
  if owner = 0 ∨ 64 ≤ owner then s else s.event owner 0x0011 data rm

/-- The live models whose bindings a lost logical core breaks are told to their domains' owners (R308). -/
def State.tellDamaged (l : Nat) (s : State) : State :=
  (s.liveModels.filter fun e => e.2.1.bindings.any fun b => (e.2.1.bindingCores b).contains l).foldl
    (fun s e => s.event (domainOwner e.1) 0x0007 [(7, e.1), (16, e.2.1.handle), (16, e.2.2)] 0) s

/-- A logical number without a spare is lost (R15). [DEDUCED: notes/assumptions/93.md] -/
def State.loseLogical (l old : Nat) (e : MapEntry) (s : State) : State :=
  let s := s.endWaiting old
  let s := (s.leaveSpare e).modMap l fun x => { x with
    state := 3, link := 0, phys := 0, count := min 15 (x.count + 1) }
  let s := s.updComp fun c => { c with activeLogical := c.activeLogical - 1 }
  ((s.count Ctr.coreLost (coreRegion old)).tellRetired old l old 0 1).tellDamaged l

/-- A logical number moves onto a spare: its waiting launches go with it, and the copies of the live
models are still to be made (R432); the spare receives `CORELOAD` again (R369). -/
def State.moveLogical (l old : Nat) (e : MapEntry) (i : Nat) (sp : MapEntry) (s : State) : State :=
  let c := s.core old
  let s := (s.leaveSpare e).modMap l fun x => { x with
    state := 2, link := i, phys := sp.phys, count := min 15 (x.count + 1) }
  let s := s.modMap i fun x => { x with state := 5, link := l }
  let s := s.updComp fun c => { c with cores := tdel c.cores old }
  let bad := s.needShards sp.phys
  let s := s.modCore sp.phys fun x => { ({} : Core) with
    waiting := c.waiting, badShards := bad, deadShards := c.deadShards, reloads := x.reloads + 1 }
  s.tellRetired old l old sp.phys 0

/-- A retirement (R432): the launches it has held go on once it is over. -/
def State.retireCore (old : Nat) (fails : List Nat) (s : State) : State :=
  match s.logicalEntry old with
  | none => s
  | some (l, e) =>
    let s := (s.abortCore old).count Ctr.coreRetired (coreRegion old)
    let r := s.chooseSpare fails (s.sparesFor (e.home / 16))
    let s := match r.2 with
      | some (i, sp) => r.1.moveLogical l old e i sp
      | none => r.1.loseLogical l old e
    let s := (s.keep s.remapVal).setRails
    (s.comp.held.foldl (fun s e => s.tryHeld e) s).settle2

/-- `CORE_RETIRE` (R431, R432): a core that has met a trigger. -/
def execCoreRetire (t core : Nat) (spareFails : List Nat) (s : State) :
    Host.Outcome State Fault Refusal :=
  s.happen t (fun s => s.running && (s.core core).retiring && (s.logicalEntry core).isSome) fun s =>
    s.retireCore core spareFails

/-! ### Package recovery (R440, R441) -/

/-- `DIE_SILENT_TIMEOUT` (R441). -/
def execDieSilentTimeout (t die : Nat) (s : State) : Host.Outcome State Fault Refusal :=
  s.happen t (fun s => s.running && decide (die < 4)) fun s => s.orderReset 1000000

/-- `ISAIN_HEARTBEAT_MISS` (R440): a control core of Bay has been silent for 50 ms. -/
def execIsainHeartbeatMiss (t core : Nat) (s : State) : Host.Outcome State Fault Refusal :=
  s.happen t (fun s => s.isainUp && decide (core < 4)) fun s => s.restartIsain

/-- A carrier and sequence number are a command's. -/
def isCmd (via : Via) (seq : Nat) (h : CmdHdr) : Bool := h.via == via && h.seq == seq

/-- A command undone: nothing waits for it any more, and it gets no answer.
[DEDUCED: notes/assumptions/94.md] -/
def State.undo (via : Via) (seq : Nat) (s : State) : State :=
  let me := isCmd via seq
  let s := s.updRings fun x => { x with barriers := x.barriers.filter fun b => !me b.2.2.h }
  let s := s.updModels fun m => { m with domains := m.domains.map fun d =>
    (d.1, { d.2 with waiting := d.2.waiting.filter fun w => !me w.h }) }
  let s := s.updObs fun o => { o with quiescing := o.quiescing.filter fun q => !me q.1 }
  let s := s.updBay fun b => { b with syncs := b.syncs.filter fun q => !me q.1 }
  let s := s.updComp fun c => { c with
    runs := c.runs.filter fun r => !me r.1
    held := c.held.filter fun e => !me e.1
    clusters := c.clusters.map fun e => (e.1, { e.2 with
      leaving := e.2.leaving.map fun l => { l with h := l.h.filter fun h => !me h } }) }
  let s := s.updParts fun ps => ps.map fun e =>
    (e.1, { e.2 with reinit := e.2.reinit.map fun r => (r.1, r.2.filter fun h => !me h) })
  let s := s.updPorts fun ps => ps.map fun e => (e.1, { e.2 with drain := match e.2.drain with
    | .draining k hs => .draining k (hs.filter fun h => !me h)
    | d => d })
  match via with
  | .mbox sid => s.modSession sid fun x => { x with inflight := x.inflight.filter fun e => e.1 != seq }
  | .ring n => match (s.ring n).opened with
    | i :: _ => s.completeEntry n i
    | [] => s

/-- `ISAIN_RESTART_DONE` (R440): Isain answers again, and the commands it undid are forgotten.
[DEDUCED: notes/assumptions/94.md] -/
def execIsainRestartDone (t : Nat) (undo : List (Via × Nat)) (s : State) :
    Host.Outcome State Fault Refusal :=
  s.happen t (fun s => s.alive && !s.bay.isainUp) fun s =>
    let s := undo.foldl (fun s e => s.undo e.1 e.2) (s.updBay fun b => { b with isainUp := true })
    let s := s.tally Ctr.isainRestart
    s.record 0x0050 4 0 0xFF 2 [(8, 2), (8, 0), (32, s.counter Ctr.isainRestart 0)]

end Sys2Proof.Machine
end

