-- ==== Sys2Proof/Machine/Admin.lean ====
section
/-! DEFINITION. Partitions, the read form of the settings commands, time limits of commands, quiesce,
shutdown and the global stop's commands (R385, R387, R389 to R391, R398, R472 to R476). -/

namespace Sys2Proof.Machine

/-! ### Partitions (R390, R391) -/

/-- The kept value of a partition. -/
def State.keepPart (p : Nat) (s : State) : State := s.keep (.partition p (s.part p))

/-- `PARTITION_ENABLE` (R390). [DEDUCED: notes/assumptions/95.md] -/
def execPartitionEnable (t : Nat) (h : CmdHdr) (part : Nat) (s : State) :
    Host.Outcome State Fault Refusal :=
  s.isain t { op := 0x0201 } h noObj (isP0 h) fun s =>
    checks [(part == 0 || decide (64 ≤ part), .eArg)]
      (okReply ((s.modPart part fun p => { p with enabled := true }).keepPart part))

/-- A partition owns something that keeps it enabled: clusters, rings, tables or live models.
[DEDUCED: notes/assumptions/95.md] -/
def State.holdsAnything (p : Nat) (s : State) : Bool :=
  !(s.ownedBy p).isEmpty || s.rings.ctx.any (fun e => e.2.rtype != 0 && e.2.owner == p) ||
    s.models.tables.any (fun e => e.2.owner == p) || s.liveModels.any (fun e => e.1 == p)

/-- `PARTITION_ENABLE` with `enable` 0 (R390). [DEDUCED: notes/assumptions/95.md] -/
def execPartitionDisable (t : Nat) (h : CmdHdr) (part : Nat) (s : State) :
    Host.Outcome State Fault Refusal :=
  s.isain t { op := 0x0201 } h noObj (isP0 h) fun s =>
    checks [(part == 0 || decide (64 ≤ part), .eArg), (s.holdsAnything part, .eState)]
      (okReply ((s.modPart part fun p => { p with enabled := false }).keepPart part))

/-- The partition that a `PARTITION_CONFIG` record names (R390). -/
def recPart (r : SetRec) : Nat := r.scope / 1024

/-- The base, pages and rights of a `mem_range` value (R391). -/
def rangeOf (v : Nat) : Nat × Nat × Nat := (bitsOf v 127 80, bitsOf v 63 32, bitsOf v 31 30)

/-- A `mem_range` is well formed: aligned, with a listed right, in the memory for software (R184, R391).
[DEDUCED: notes/assumptions/95.md] -/
def rangeChk (v : Nat) : Option Status :=
  let (base, pages, rw) := rangeOf v
  if rw = 3 then some .eArg
  else if base % 4096 ≠ 0 then some .eArg
  else if inSoftware base (pages * 4096) then none else some .eRange

/-- A record of `PARTITION_CONFIG` with a reserved bit set: its own, or those left over in the words of a
`mem_range` (R6, R381, R391). -/
def partResv (r : SetRec) : Bool :=
  r.resvBad || (r.id == 6 && r.len == 16 && (bitsOf r.value 79 64 != 0 || bitsOf r.value 29 0 != 0))

/-- The scope of a `PARTITION_CONFIG` setting is one that R391 gives: only `mem_range` has an index. -/
def partScope (r : SetRec) : Bool :=
  decide (recPart r < 64) && (if r.id = 6 then decide (r.scope % 1024 < 16) else r.scope % 1024 == 0)

/-- The checks of `PARTITION_CONFIG` (R293, R391). -/
def partChk (r : SetRec) : Option Status :=
  if r.id = 0 ∨ 6 < r.id then some .eArg
  else if !partScope r then some .eRange
  else match r.id with
    | 1 => inRange r 0 65536
    | 2 => inRange r 0 65536
    | 3 => inRange r 1000 1000000000
    | 4 => inRange r 1 2048
    | 5 => inRange r 10000 10000000000
    | _ => if r.len = 16 then rangeChk r.value else some .eArg

/-- A setting of R391 applied. -/
def partApply (s : State) (r : SetRec) : State :=
  let v := r.value
  s.modPart (recPart r) fun p => match r.id with
    | 1 => { p with slotMin := v }
    | 2 => { p with slotMax := v }
    | 3 => { p with remoteRateMax := v }
    | 4 => { p with maxSessions := v }
    | 5 => { p with kernelMaxRun := v }
    | 6 =>
      let l := if (rangeOf v).2.2 = 0 then tdel p.memRanges (r.scope % 16)
        else tset p.memRanges (r.scope % 16) (rangeOf v)
      { p with memRanges := l }
    | _ => p

/-- What the slot limits must be together (R105, R391). [DEDUCED: notes/assumptions/95.md] -/
def partWhole (_old new : State) : Option Status :=
  if new.parts.any fun e => decide (e.2.slotMax < e.2.slotMin) then some .eRange
  else if 65536 < (new.parts.map (·.2.slotMin)).sum then some .eNospace
  else none

/-- `PARTITION_CONFIG` (R105, R184, R293, R391). -/
def execPartitionConfig (t : Nat) (h : CmdHdr) (recs : List SetRec) (s : State) :
    Host.Outcome State Fault Refusal :=
  s.isain t { op := 0x0202, resv := idxOf? partResv recs } h noObj (isP0 h)
    (settings partChk partApply partWhole
      (fun s => (recs.map recPart).eraseDups.foldl (fun s p => s.keepPart p) s) recs)

/-- `PARTITION_QUERY` (R390). -/
def execPartitionQuery (t : Nat) (h : CmdHdr) (part : Nat) (s : State) :
    Host.Outcome State Fault Refusal :=
  s.isain t { op := 0x0203 } h noObj (fun _ => owns h part) fun s =>
    let p := s.part part
    .done .ok (pack [(1, bit p.enabled), (1, bit p.revoking), (16, p.token), (32, s.slotsOf part),
      (16, (s.ownedBy part).length),
      (16, (s.rings.ctx.filter fun e => e.2.rtype != 0 && e.2.owner == part).length),
      (16, (s.sessionsOf part).length)]) s

/-! ### The read form of the settings commands (R387) -/

/-- The opcode of a settings command. -/
def setOp : SetCmd → Nat
  | .power => 0x0103 | .partition => 0x0202 | .cluster => 0x0205 | .port => 0x0401 | .ptp => 0x0502
  | .parse => 0x0603 | .classifier => 0x0701 | .flowTable => 0x070C | .egress => 0x0801
  | .policer => 0x0802 | .memory => 0x0C01 | .fabric => 0x0D01

/-- The bound on the scope of each setting of a command, in the order of its table. -/
def setScopes : SetCmd → List Nat
  | .power => [1, 1]
  | .partition => [65536, 65536, 65536, 65536, 65536, 65536]
  | .cluster => [256]
  | .port => [2, 4, 4, 5, 40, 5, 5, 320, 4, 32, 32, 32, 4, 2, 2, 2, 2, 1, 1, 1, 1, 1]
  | .ptp => [1, 1, 1, 1, 4]
  | .parse => [8, 1]
  | .classifier => [4, 4, 4, 1, 4, 4, 4, 2, 2, 2, 1, 1, 1, 1]
  | .flowTable => [2, 2, 2]
  | .egress => [4, 32, 32, 32, 32, 32, 44, 44, 1]
  | .policer => [4096, 4096, 4096, 4096, 4096, 4096, 4096, 4096, 4096]
  | .memory => [1]
  | .fabric => [1, 1, 1, 1, 1, 1, 1, 4, 1, 1, 8, 1, 1, 1]

/-- A scope below its bound that names nothing all the same. -/
def setHole (c : SetCmd) (r : SetRec) : Bool :=
  match c with
  | .partition => !partScope r
  | .policer => r.scope == 0
  | .egress => (r.id == 7 || r.id == 8) && (shapeScope r.scope).isNone
  | _ => false

/-- The check of a record of a read: its length is 0, and its setting and scope exist.
[DEDUCED: notes/assumptions/96.md] -/
def readChk (c : SetCmd) (r : SetRec) : Option Status :=
  if r.len ≠ 0 ∨ r.id = 0 then some .eArg
  else match (setScopes c)[r.id - 1]? with
    | none => some .eArg
    | some n => if n ≤ r.scope ∨ setHole c r then some .eRange else none

/-- A setting of 8 bytes. -/
def word8 (v : Nat) : Option (Nat × Nat) := some (8, v)

/-- The settings of `PORT_CONFIG`: length in bytes and value; none for one that has never been set. -/
def State.portSetting (id k : Nat) (s : State) : Option (Nat × Nat) :=
  match id with
  | 1 => word8 (s.port k).mode
  | 2 => word8 (s.ifc k).role
  | 3 => word8 ((s.ifc k).pair.getD 0xFF)
  | 4 => word8 (s.ifc k).maxFrame
  | 5 => some (16, (tgetD (s.ifc (k / 8)).addrs (k % 8) 0).toNat)
  | 6 => word8 (s.ifc k).tpidExtra
  | 7 => word8 (s.ifc k).defaultPrio
  | 8 => word8 (tgetD (s.ifc (k / 64)).dscpMap (k % 64) 0)
  | 9 => word8 (s.ifc k).pfcEnable.toNat
  | 10 => word8 ((s.ifc (k / 8)).xoff (k % 8))
  | 11 => word8 ((s.ifc (k / 8)).xon (k % 8))
  | 12 => word8 ((s.ifc (k / 8)).room (k % 8))
  | 13 => word8 (s.ifc k).macsecMode
  | 14 => word8 (bit (s.port k).laneFallback)
  | 15 => some (4, (s.port k).laneBerLimit.toNat)
  | 16 => word8 (s.port k).fallbackTimeout
  | 17 => word8 (s.port k).drainTimeout
  | 18 => word8 s.pkg.bypass.linkTimeout
  | 19 => word8 s.pkg.bypass.retry
  | 20 => word8 s.pkg.bypass.hold
  | 21 => word8 s.ouv.port
  | 22 => word8 s.ouv.idleTimeout
  | _ => none

/-- The settings of `PARTITION_CONFIG`. -/
def State.partSetting (id k : Nat) (s : State) : Option (Nat × Nat) :=
  let p := s.part (k / 1024)
  match id with
  | 1 => word8 p.slotMin
  | 2 => word8 p.slotMax
  | 3 => word8 p.remoteRateMax
  | 4 => word8 p.maxSessions
  | 5 => word8 p.kernelMaxRun
  | 6 =>
    let r := tgetD p.memRanges (k % 1024) (0, 0, 0)
    some (16, r.1 * 2 ^ 80 + r.2.1 * 2 ^ 32 + r.2.2 * 2 ^ 30)
  | _ => none

/-- The settings of `PTP_CONFIG`. -/
def State.ptpSetting (id k : Nat) (s : State) : Option (Nat × Nat) :=
  match id with
  | 1 => word8 s.wall.ptpPort
  | 2 => word8 s.wall.ptpTransport
  | 3 => word8 s.wall.ptpDomain
  | 4 => word8 s.wall.ptpStepLimit
  | 5 => word8 (bit (s.ifc k).ptpTc)
  | _ => none

/-- The settings of `CLASS_CONFIG`. -/
def State.clsSetting (id k : Nat) (s : State) : Option (Nat × Nat) :=
  match id with
  | 1 => word8 (s.clsIfc k).defaultAction
  | 2 => word8 (s.clsIfc k).malformedAction
  | 3 => (s.clsIfc k).copyRing.bind word8
  | 4 => s.cls.floodRing.bind word8
  | 5 => word8 (s.clsIfc k).learnRate
  | 6 => word8 (s.clsIfc k).learnExcess
  | 7 => word8 (s.clsIfc k).macLimit
  | 8 => word8 (s.pipe k).flowRecords
  | 9 => word8 (s.pipe k).flowAge
  | 10 => word8 (bit (s.pipe k).flowSym)
  | 11 => word8 s.cls.macAge
  | 12 => word8 s.cls.macMoveMax
  | 13 => word8 s.cls.macMoveWindow
  | 14 => word8 s.cls.macPinHold
  | _ => none

/-- The settings of `EGRESS_CONFIG`. -/
def State.egressSetting (id k : Nat) (s : State) : Option (Nat × Nat) :=
  let x := s.queue (k / 8) (k % 8)
  let sh := (shapeScope k).getD (0, 0)
  match id with
  | 1 => word8 (tgetD s.eg.strictCount k 2)
  | 2 => word8 x.weight
  | 3 => word8 x.qLimit
  | 4 => word8 (x.thresh (k % 8))
  | 5 => word8 x.ecnThresh
  | 6 => word8 x.maxSojourn
  | 7 => word8 (s.queue sh.1 sh.2).shapeRate
  | 8 => word8 (s.queue sh.1 sh.2).shapeBurst
  | 9 => word8 s.eg.holdMax
  | _ => none

/-- The settings of a policer. -/
def Policer.setting (p : Policer) : Nat → Option (Nat × Nat)
  | 1 => word8 p.cir
  | 2 => word8 p.pir
  | 3 => word8 p.cbs
  | 4 => word8 p.pbs
  | 5 => word8 p.yellowAction
  | 6 => word8 p.redAction
  | 7 => word8 p.yellowDscp
  | 8 => word8 p.redDscp
  | 9 => word8 (p.grant.getD 0x7F)
  | _ => none

/-- The settings of `FABRIC_CONFIG`; keys read as zero (R397). -/
def Fabric.setting (f : Fabric) (id k : Nat) : Option (Nat × Nat) :=
  match id with
  | 1 => word8 f.sysId
  | 2 => some (32, 0)
  | 3 => some (32, 0)
  | 4 => word8 f.keyTx
  | 5 => word8 f.port
  | 6 => word8 f.sportBase
  | 7 => word8 f.paths
  | 8 => word8 (tgetD f.ifcs k 0xFF)
  | 9 => word8 f.mtu
  | 10 => word8 f.rto
  | 11 => some (18, (tgetD f.seeds k (0, 0)).1 * 65536 + (tgetD f.seeds k (0, 0)).2)
  | 12 => word8 (bit f.eligible)
  | 13 => word8 f.prio
  | 14 => word8 f.staticAddr
  | _ => none

/-- A setting's value as a read returns it: its length in bytes, and the value.
[DEDUCED: notes/assumptions/96.md] -/
def State.setting (c : SetCmd) (id k : Nat) (s : State) : Option (Nat × Nat) :=
  match c with
  | .power => if id = 1 then word8 s.pkg.capP0 else word8 s.pkg.floorMhz
  | .partition => s.partSetting id k
  | .cluster => word8 (s.cluster k).clkCap
  | .port => s.portSetting id k
  | .ptp => s.ptpSetting id k
  | .parse => if id = 1 then word8 (s.parser.thresh k) else word8 s.parser.cycleMax
  | .classifier => s.clsSetting id k
  | .flowTable => match id with
    | 1 => word8 (s.pipe k).flowBase
    | 2 => word8 (s.pipe k).warmPkts
    | _ => word8 (s.pipe k).rsModel
  | .egress => s.egressSetting id k
  | .policer => (tget s.eg.policers k).bind fun p => p.setting id
  | .memory => word8 s.mem.scrubPeriod
  | .fabric => s.fab.setting id k

/-- A setting record of a response. -/
def State.readRec (c : SetCmd) (r : SetRec) (s : State) : List Nat :=
  let v := s.setting c r.id r.scope
  pack [(16, r.id), (16, r.scope), (16, (v.map (·.1)).getD 0), (16, 0)] ++
    match v with
    | some (len, x) => pack [(8 * len, x)]
    | none => []

/-- The record for which the right that the read form of a settings command needs is missing. -/
def State.readRight (c : SetCmd) (h : CmdHdr) (recs : List SetRec) (s : State) : Option Nat :=
  if h.part = 0 then none else match c with
    | .power => none
    | .port => none
    | .partition => itemBad 0 (fun r => recPart r != h.part) recs
    | .cluster => itemBad 0 (fun r => s.notMine h r) recs
    | _ => some noDetail

/-- `SETTINGS_READ_FORM` (R387): nothing is written. [DEDUCED: notes/assumptions/96.md] -/
def execSettingsReadForm (t : Nat) (h : CmdHdr) (cmd : SetCmd) (recs : List SetRec) (s : State) :
    Host.Outcome State Fault Refusal :=
  s.isain t { op := setOp cmd, rd := 1, resv := resvRec recs, late := true } h noObj anyPart fun s =>
    checksAt [(s.readRight cmd h recs, .ePriv), unlistedAt h (setOp cmd)]
      (match firstBad (readChk cmd) 0 recs with
       | some (st, i) => .refuse st i
       | none =>
         let body := recs.flatMap fun r => s.readRec cmd r
         if 1080 < body.length then no .eRange else .done .ok body s)

/-! ### Quiesce and shutdown (R31, R389, R476) -/

/-- The wait of R476 begins, or is joined: admission stops, and the pin goes low (R48).
[DEDUCED: notes/assumptions/97.md] -/
def State.startQuiesce (h : CmdHdr) (shut : Bool) (s : State) : State :=
  let first := s.obs.quiescing.isEmpty
  let s := s.updObs fun o => { o with
    quiescing := o.quiescing ++ [(h, s.tick + timeoutOf h, shut)]
    quiesceAt := if first then (s.rings.ctx.filter fun e => hostProduced e.2.rtype).map
        fun e => (e.1, e.2.prodIdx) else o.quiesceAt }
  s.bypassLow

/-- `QUIESCE` (R476). -/
def execQuiesce (t : Nat) (h : CmdHdr) (s : State) : Host.Outcome State Fault Refusal :=
  s.isain t { op := 0x0E08 } h noObj (isP0 h) fun s =>
    checks [(timeoutBad h, .eRange)]
      (if s.obs.quiesced then okReply s else .wait (s.startQuiesce h false))

/-- `QUIESCE` with `release` (R385, R476). -/
def execQuiesceRelease (t : Nat) (h : CmdHdr) (s : State) : Host.Outcome State Fault Refusal :=
  s.isain t { op := 0x0E08 } h noObj (isP0 h) fun s =>
    checks [(timeoutBad h, .eRange), (!s.obs.quiesced, .eState)]
      (okReply (s.updObs fun o => { o with quiesced := false }).tryArm)

/-- The BFD sessions of an interface go to AdminDown, and say so, under MACsec where it is on (R66), before its
port goes idle (R31, R70).
[DEDUCED: notes/assumptions/97.md] -/
def State.bfdDown (ifc : Nat) (s : State) : State :=
  let s := s.modIfc ifc fun i => { i with bfd := i.bfd.map fun e => (e.1, { e.2 with state := 0 }) }
  (s.ifc ifc).bfd.foldl (fun s e => match s.secure (s.ifc ifc).macsecMode ifc false with
    | some (s, by') => s.out (sealedSent by' (e.2.packet ifc e.1 false))
    | none => s.count Ctr.txMacsecNosa ifc) s

/-- The rest of `DEVICE_SHUTDOWN` (R31, R389): BFD AdminDown, no heartbeats, the pin low, the line ports
in electrical idle. [DEDUCED: notes/assumptions/97.md] -/
def State.finishShutdown (s : State) : State :=
  let s := s.lineIfcs.foldl (fun s i => s.bfdDown i) s
  (s.updBay fun b => { b with shutdown := true }).bypassLow.portsIdle

/-- `DEVICE_SHUTDOWN` (R31, R389). [DEDUCED: notes/assumptions/97.md] -/
def execDeviceShutdown (t : Nat) (h : CmdHdr) (s : State) : Host.Outcome State Fault Refusal :=
  s.isain t { op := 0x0102 } h noObj (isP0 h) fun s =>
    checks [(timeoutBad h, .eRange)]
      (if s.obs.quiesced then okReply s.finishShutdown else .wait (s.startQuiesce h true))

/-- The commands of one carrier: its ring holds the command that waits itself. -/
def viaRing : Via → Option Nat
  | .mbox _ => none
  | .ring n => some n

/-- The host-produced rings have done what R476 waits for: every entry below their points that has been
admitted or taken has completed, and every fence. A `REQUEST_IN` entry that is not admitted stays on its
ring; the ring that a waiting command came on cannot be waited for.
[DEDUCED: notes/assumptions/97.md] -/
def State.ringsQuiet (s : State) : Bool :=
  s.obs.quiesceAt.all fun p =>
    let r := s.ring p.1
    !s.ringMade p.1 || (s.obs.quiescing.any fun q => viaRing q.1.via == some p.1) ||
      (if r.rtype = 1 then
        r.opened.all (fun i => !idxAbove p.2 i) && r.fences.all (fun f => !idxAbove p.2 f.1)
       else r.doneBelow p.2)

/-- A core has no work. -/
def Core.quiet (c : Core) : Bool :=
  c.ctxs.isEmpty && c.waiting.isEmpty && c.walks.isEmpty && c.shares.isEmpty &&
    c.arrays.all fun a => a.2.jobs.isEmpty && a.2.held.isEmpty

/-- No data-path work is in flight (step 2 of R476). -/
def State.quiet (s : State) : Bool :=
  s.ringsQuiet && s.rings.slots.all (fun e => e.2.state == .free) && s.parser.frames.isEmpty &&
    s.eg.queues.all (fun q => q.2.frames.isEmpty && q.2.ctl.isEmpty) &&
    s.comp.cores.all (fun c => c.2.quiet) &&
    s.comp.clusters.all (fun c => c.2.groups.isEmpty && c.2.opens.isEmpty) &&
    s.cls.pipes.all (fun p => p.2.rsFlight.isEmpty && p.2.rsWait.isEmpty) &&
    s.rings.ctx.all (fun e => e.2.rtype != 7 || e.2.consIdx == e.2.prodIdx)

/-- The opcode of a command that waits for R476. -/
def quiesceOp (shut : Bool) : Nat := if shut then 0x0102 else 0x0E08

/-- `QUIESCE_DONE` (R476): the waiting commands are answered. -/
def execQuiesceDone (t : Nat) (s : State) : Host.Outcome State Fault Refusal :=
  s.happen t (fun s => s.running && s.isainUp && !s.obs.quiescing.isEmpty && s.quiet) fun s =>
    let q := s.obs.quiescing
    let s := s.updObs fun o => { o with quiescing := [], quiesceAt := [], quiesced := true }
    let s := if q.any (·.2.2) then s.finishShutdown else s
    q.foldl (fun s e => s.answer e.1 (quiesceOp e.2.2) .ok noDetail []) s

/-! ### Time limits of commands (R385) -/

/-- A barrier whose time is up: the command answers, and the barrier ends (R110). -/
def State.expireBarrier (via : Via) (seq : Nat) (s : State) : Option State :=
  (s.rings.barriers.find? fun b => isCmd via seq b.2.2.h && decide (b.2.2.due ≤ s.tick)).map fun b =>
    (s.dropBarrier b.1 b.2.1).answer b.2.2.h 0x0307 .eTimeout noDetail []

/-- A commit whose time is up: the staging set stays (R311). -/
def State.expireCommit (via : Via) (seq : Nat) (s : State) : Option State :=
  (s.models.domains.find? fun d => d.2.waiting.any fun w => isCmd via seq w.h && decide (w.due ≤ s.tick)).map
    fun d =>
      let s' := s.modDomain d.1 fun x => { x with waiting := none }
      match d.2.waiting with
      | some w => s'.answer w.h 0x0B04 .eTimeout noDetail []
      | none => s'

/-- A `QUIESCE` or `DEVICE_SHUTDOWN` whose time is up: admission resumes, or the shutdown completes
all the same (R389, R476). -/
def State.expireQuiesce (via : Via) (seq : Nat) (s : State) : Option State :=
  (s.obs.quiescing.find? fun q => isCmd via seq q.1 && decide (q.2.1 ≤ s.tick)).map fun q =>
    let s := s.updObs fun o => { o with quiescing := o.quiescing.filter fun e => !isCmd via seq e.1 }
    let s := if q.2.2 then s.finishShutdown else s.tryArm
    s.answer q.1 (quiesceOp q.2.2) .eTimeout noDetail []

/-- `COMMAND_TIMEOUT` (R385). [DEDUCED: notes/assumptions/39.md] -/
def execCommandTimeout (t : Nat) (via : Via) (seq : Nat) (s : State) :
    Host.Outcome State Fault Refusal :=
  s.happen t (fun s => s.isainUp) fun s =>
    match s.expireBarrier via seq with
    | some s' => s'
    | none => match s.expireCommit via seq with
      | some s' => s'
      | none => (s.expireQuiesce via seq).getD s

/-! ### The global stop's commands (R472 to R475) -/

/-- `GLOBAL_STOP` (R472, R474): the body names the first stop tick and each island's offset. -/
def execGlobalStop (t : Nat) (h : CmdHdr) (s : State) : Host.Outcome State Fault Refusal :=
  s.isain t { op := 0x0E09, stop := true } h noObj (isP0 h) fun s =>
    checks [(s.obs.islandsStopped, .eState)]
      (.done .ok (pack ([(64, s.stopFirst), (16, islandCount)] ++ s.stopOffsets.map fun x => (16, x)))
        (s.ownStop 0))

/-- `GLOBAL_RESUME` (R475). -/
def execGlobalResume (t : Nat) (h : CmdHdr) (s : State) : Host.Outcome State Fault Refusal :=
  s.isain t { op := 0x0E0A, stop := true } h noObj (isP0 h) fun s =>
    checks [(!s.obs.islandsStopped, .eState)]
      (okReply (s.updObs fun o => { o with ownStop := false }).tryResume)

end Sys2Proof.Machine
end

