-- ==== Sys2Proof/Machine/Observe.lean ====
section
/-! DEFINITION. Counters, Rosemary's commands, Dill's commands and drain, the log region and the wait-for
graph (R377, R446 to R471). -/

namespace Sys2Proof.Machine

/-! ### Counters (R457 to R460) -/

/-- The kinds of SRAM block of a scope word, and how many of each there are (R459, R335). -/
def sramScopes : List Nat := [4096, 4096, 256, 256, 256, 16, 1, 1, 16777216]

/-- A scope word lies in the range of its kind (R459). [DEDUCED: notes/assumptions/98.md] -/
def State.scopeGood (id : Nat) (k : ScopeKind) (w : Nat) (s : State) : Bool :=
  match k with
  | .ifc => decide (w < 5)
  | .pipe => decide (w < 2)
  | .queue => decide (w < 40)
  | .region => decide (w < 16)
  | .cluster => decide (w < 256)
  | .core => decide (w < 4096) && (match tget s.comp.map w with
    | some e => 1 ≤ e.state && e.state ≤ 3
    | none => false)
  | .part => decide (w < 64)
  | .ring => decide (w < 4096)
  | .table => decide (w < 65536)
  | .baseline => decide (w < 4096)
  | .policer => decide (1 ≤ w) && decide (w < 4096)
  | .model =>
    decide (bitsOf w 22 16 ≤ 0x40) && bitsOf w 25 23 == 0 && (id == Ctr.verdicts || bitsOf w 31 26 == 0) &&
      decide (w < 2 ^ 32)
  | .link => decide (w < 280)
  | .sram => decide (bitsOf w 23 0 < (sramScopes[w / 2 ^ 24]?).getD 0)
  | .peer => addrValid w
  | .dev => w == 0

/-- The owner of the cluster behind a logical core (R460). -/
def State.logicalOwned (l p : Nat) (s : State) : Bool :=
  match tget s.comp.map l with
  | some e => (s.cluster (e.home / 16)).owner == p
  | none => false

/-- A counter is open to a partition other than 0 (R460). [DEDUCED: notes/assumptions/98.md] -/
def State.counterOpen (p : Nat) (k : ScopeKind) (w : Nat) (s : State) : Bool :=
  match k with
  | .part => w == p
  | .model => bitsOf w 22 16 == p
  | .ring => s.ringMade w && (s.ring w).owner == p
  | .table => (s.table w).map (·.owner) == some p
  | .baseline => (tget s.models.baselines w).map (·.2) == some p
  | .cluster => (s.cluster w).owner == p
  | .core => s.logicalOwned w p
  | .policer => ((tget s.eg.policers w).bind (·.grant)) == some p
  | _ => false

/-- The checks of `COUNTER_READ` (R458, R460). [DEDUCED: notes/assumptions/98.md] -/
def State.counterChk (p : Nat) (ids : List CounterId) (s : State) : List (Option Nat × Status) :=
  [(itemBad 0 (fun c => (Ctr.kind c.id).isNone) ids, .eArg),
   (itemBad 0 (fun c => p != 0 && (Ctr.kind c.id).any fun k => !s.counterOpen p k c.scope) ids, .ePriv),
   (itemBad 0 (fun c => (Ctr.kind c.id).any fun k => !s.scopeGood c.id k c.scope) ids, .eRange)]

/-- The values of named counters. -/
def State.counterWords (ids : List CounterId) (s : State) : List Nat :=
  ids.map fun c => s.counter c.id c.scope

/-- `COUNTER_READ` (R457, R460). -/
def execCounterRead (t : Nat) (h : CmdHdr) (ids : List CounterId) (s : State) :
    Host.Outcome State Fault Refusal :=
  s.isain t { op := 0x0E01, stop := true } h noObj anyPart fun s =>
    checksAt (s.counterChk h.part ids) (.done .ok (s.counterWords ids) s)

/-- A counter read and zeroed. -/
def takeCounter (p : State × List Nat) (c : CounterId) : State × List Nat :=
  (p.1.updObs fun o => { o with counters := o.counters.filter fun e => e.1 != (c.id, c.scope) },
    p.2 ++ [p.1.counter c.id c.scope])

/-- `COUNTER_READ` with `clear` (R457): each counter is read and zeroed in one step. -/
def execCounterReadClear (t : Nat) (h : CmdHdr) (ids : List CounterId) (s : State) :
    Host.Outcome State Fault Refusal :=
  s.isain t { op := 0x0E01, stop := true } h noObj anyPart fun s =>
    checksAt (s.counterChk h.part ids)
      (let p := ids.foldl takeCounter (s, [])
       .done .ok p.2 p.1)

/-! ### Rosemary (R446 to R453) -/

/-- A record as eight words, bits 63:0 first (R447). -/
def rmWords (r : RmRec) : List Nat :=
  [1, r.kind * 2 ^ 48 + r.level * 2 ^ 44 + r.unit % 65536 * 2 ^ 28 + r.part * 2 ^ 20 + r.sev * 2 ^ 18 +
      bit r.kept * 2 ^ 17 + bit r.wallOk * 2 ^ 16,
    r.data.getD 0 0, r.data.getD 1 0, r.data.getD 2 0, r.seq, r.tick, low 64 r.wall]

/-- `ROSEMARY_READ` (R452). -/
def execRosemaryRead (t : Nat) (h : CmdHdr) (start max : Nat) (s : State) :
    Host.Outcome State Fault Refusal :=
  s.isain t { op := 0x0E02, stop := true } h noObj (isP0 h) fun s =>
    .done .ok (listPage start max 134 []
      (s.obs.rm.map fun r => (r.seq, (rmWords r).map fun w => (64, w)))) s

/-- `ROSEMARY_FREEZE` (R451): what is lost from here on is counted for the `LOSS` record.
[DEDUCED: notes/assumptions/99.md] -/
def execRosemaryFreeze (t : Nat) (h : CmdHdr) (s : State) : Host.Outcome State Fault Refusal :=
  s.isain t { op := 0x0E03, stop := true } h noObj (isP0 h) fun s =>
    okReply (s.updObs fun o => if o.frozen then o else { o with frozen := true, lost := 0, lostFirst := 0 })

/-- `ROSEMARY_FREEZE` with `freeze` 0 (R451). -/
def execRosemaryUnfreeze (t : Nat) (h : CmdHdr) (s : State) : Host.Outcome State Fault Refusal :=
  s.isain t { op := 0x0E03, stop := true } h noObj (isP0 h) fun s =>
    let lost := s.obs.lost
    let first := s.obs.lostFirst
    let was := s.obs.frozen
    let s := s.updObs fun o => { o with frozen := false, lost := 0, lostFirst := 0 }
    okReply (if was && lost != 0 then s.record 0x0006 4 0 0xFF 1 [(64, lost), (64, first)] else s)

/-- `ROSEMARY_CLEAR` (R453). A kept record among those removed reaches the log region first.
[DEDUCED: notes/assumptions/99.md] -/
def execRosemaryClear (t : Nat) (h : CmdHdr) (upto : Nat) (s : State) :
    Host.Outcome State Fault Refusal :=
  s.isain t { op := 0x0E04, stop := true } h noObj (isP0 h) fun s =>
    checks [(!s.obs.frozen, .eState), (decide (s.obs.rmSeq ≤ upto), .eRange)]
      (let s := s.copyLog.updObs fun o => { o with rm := o.rm.filter fun r => decide (upto < r.seq) }
       okReply (s.record 0x0005 4 0 0xFF 1 [(64, upto), (32, viaSid h.via), (8, h.part)]))

/-- The level and severity of a kind of record, by its first data word (R447, R450). -/
def recordForm (kind w0 : Nat) : Option (Nat × Nat) :=
  match kind with
  | 0x0001 => some (4, 0)
  | 0x0002 => some (4, 0)
  | 0x0003 => some (4, 1)
  | 0x0004 => some (4, 0)
  | 0x0005 => some (4, 1)
  | 0x0006 => some (4, 1)
  | 0x0010 => some (2, 2)
  | 0x0011 => some (2, 1)
  | 0x0012 => some (4, 1)
  | 0x0013 => some (if 1 < w0 / 2 ^ 56 then (if w0 / 2 ^ 56 < 5 then 1 else 4) else 0, if bitsOf w0 15 8 = 0 then 2 else 1)
  | 0x0020 => some (0, 1)
  | 0x0021 => some (0, 2)
  | 0x0022 => some (0, 2)
  | 0x0023 => some (1, 0)
  | 0x0030 => some (4, 2)
  | 0x0031 => some (4, 1)
  | 0x0040 => some (4, 1)
  | 0x0041 => some (4, 1)
  | 0x0050 => some (4, if w0 / 2 ^ 56 = 4 then 3 else 2)
  | 0x0051 => some (4, 1)
  | 0x0060 => some (4, 1)
  | 0x0070 => some (5, 1)
  | _ => none

/-- `ROSEMARY_RECORD` (R446): a report of a listed kind is numbered and stored.
[DEDUCED: notes/assumptions/99.md] -/
def execRosemaryRecord (t kind unit : Nat) (data : List W64) (s : State) :
    Host.Outcome State Fault Refusal :=
  let form := recordForm kind ((data.headD 0).toNat)
  s.happen t (fun s => s.alive && form.isSome) fun s => match form with
    | none => s
    | some (level, sev) =>
      s.record kind level (unit % 65536) 0xFF sev ((data.take 3).map fun w => (64, w.toNat))

/-- `ROSEMARY_LOG_COPY` (R453): kept records reach the log region, in the order of their numbers. -/
def execRosemaryLogCopy (t : Nat) (s : State) : Host.Outcome State Fault Refusal :=
  s.happen t (fun s => s.alive) fun s => s.copyLog

/-! ### The log region (R377) -/

/-- A boot record as a number of 192 bits, the digest apart. -/
def bootNum (b : BootRec) : Nat :=
  b.bootCount % 2 ^ 32 * 2 ^ 160 + b.version % 2 ^ 64 * 2 ^ 96 + b.msRun % 2 ^ 32 * 2 ^ 64 + b.result * 2 ^ 56 +
    b.slot * 2 ^ 54 + b.mode * 2 ^ 51 + b.reset * 2 ^ 48 + b.settingsBad % 65536 * 2 ^ 32

/-- A boot record as four words, bits 63:0 first, with its digest. -/
def bootWords (b : BootRec) : List Nat :=
  let bs := leBytes 24 (bootNum b)
  let d := leNat (shake256 8 bs)
  ((bytesWords 3 bs).map (·.toNat)) ++ [d]

/-- A record of the log region as words. -/
def logWords : BootRec ⊕ RmRec → List Nat
  | .inl b => bootWords b
  | .inr r => rmWords r

/-- The records that a page takes: at most `max`, and at most `room` words. -/
def logTake : Nat → Nat → List (Nat × List Nat) → List (Nat × List Nat)
  | _, _, [] => []
  | max, room, e :: rest =>
    if max = 0 ∨ room < e.2.length then []
    else e :: logTake (max - 1) (room - e.2.length) rest

/-- `LOG_READ` (R377, R387): by record, oldest first. [DEDUCED: notes/assumptions/102.md] -/
def execLogRead (t : Nat) (h : CmdHdr) (start max : Nat) (s : State) :
    Host.Outcome State Fault Refusal :=
  s.isain t { op := 0x1103, stop := true } h noObj (isP0 h) fun s =>
    let rest := (numbered (s.bay.log.map logWords)).filter fun e => decide (start ≤ e.1)
    let page := logTake max 1079 rest
    let next := ((rest.drop page.length).head?.map (·.1)).getD 0xFFFFFFFF
    .done .ok (pack [(32, next), (16, page.length)] ++ page.flatMap (·.2)) s

/-! ### Dill (R462 to R468) -/

/-- A field of the trigger word outside its values (R465). -/
def trigBad (w : W64) : Bool :=
  bitsOf (trigMask w) 0 0 == 1 || bitsOf (trigMask w) 15 13 != 0 || decide (12 < trigKind w)

/-- The reserved bits 42:40 of the trigger word, refused at step 1 of R383 (R6, R465). -/
def trigResv (w : W64) : Option Nat := if bitsOf w.toNat 42 40 = 0 then none else some noDetail

/-- The partition whose ring a cluster's unit drains to (R464). -/
def State.traceOwner (c : Nat) (s : State) : Nat := rangeOwner (s.cluster c).owner

/-- `TRACE_CONFIG` (R464). [DEDUCED: notes/assumptions/100.md] -/
def execTraceConfig (t : Nat) (h : CmdHdr) (cluster ring mode post : Nat) (trig : W64) (s : State) :
    Host.Outcome State Fault Refusal :=
  s.isain t { op := 0x0E05, resv := trigResv trig } h (fun s => s.ringMade ring)
    (fun s => owns h (s.cluster cluster).owner) fun s =>
    checks
      [(decide (3 ≤ mode) || trigBad trig, .eArg),
       (decide (448 < post) || decide (256 ≤ cluster), .eRange),
       ((s.ring ring).rtype != 5 || (s.ring ring).owner != s.traceOwner cluster, .ePriv),
       (trigStop trig && h.part != 0, .ePriv)]
      (let d := (s.cluster cluster).dill
       let s := if d.buf.isEmpty then s else s.countN Ctr.dillDrop cluster d.buf.length
       okReply (s.modCluster cluster fun x => { x with
         dill := { mode := mode, ring := ring, post := post, trig := trig, seq := d.seq, marks := d.marks } }))

/-- The right `Mark` (R388, R426). -/
def mayMark (h : CmdHdr) (s : State) : Bool := h.part == 0 || (s.part h.part).rights.getLsbD 0

/-- A mark of the host in a cluster's unit (R468). -/
def hostMark (kind mark : Nat) : TraceRec := { traceRec kind mark with unit := 7 }

/-- A mark of the host reaches its cluster 2 to 20 µs after the command, at an open instant (R468). -/
def State.markCluster (c kind mark : Nat) (s : State) : State :=
  s.fresh.2.sendMark c (2000 + freeBelow 18001 s.fresh.1) (hostMark kind mark)

/-- `TRACE_MARK` with `begin` (R468). [DESIGN CHOICE: notes/assumptions/43.md] -/
def execTraceMarkBegin (t : Nat) (h : CmdHdr) (cluster mark : Nat) (s : State) :
    Host.Outcome State Fault Refusal :=
  s.isain t { op := 0x0E06 } h noObj (mayMark h) fun s =>
    checks [(decide (256 ≤ cluster), .eRange)] (okReply (s.markCluster cluster 8 mark))

/-- `TRACE_MARK` without `begin` (R468). [DESIGN CHOICE: notes/assumptions/43.md] -/
def execTraceMarkEnd (t : Nat) (h : CmdHdr) (cluster mark : Nat) (s : State) :
    Host.Outcome State Fault Refusal :=
  s.isain t { op := 0x0E06 } h noObj (mayMark h) fun s =>
    checks [(decide (256 ≤ cluster), .eRange)] (okReply (s.markCluster cluster 9 mark))

/-- A `TRACE` entry (R462). -/
def traceItem (r : TraceRec) : RingItem :=
  [[entryHead 0x14 (bit r.trig + 2 * bit r.prot) 1 r.kind] ++
    (pack [(64, r.tick), (12, r.core), (2, r.ctx), (2, 0), (16, r.layer), (16, r.op), (16, r.slot),
      (16, r.slotGen), (8, r.status), (4, r.unit), (4, 0), (32, r.dur), (64, r.arg), (64, r.seq)]).map
      (BitVec.ofNat 64)]

/-- A unit drains now: in stream mode, and in capture mode once its buffer is frozen (R466, R467). -/
def Dill.drains (d : Dill) : Bool := (d.mode == 2 || (d.mode == 1 && d.frozen)) && !d.buf.isEmpty

/-- The drops of a unit told by one `LOSS` record on its ring (R467).
[DEDUCED: notes/assumptions/100.md] -/
def State.dillLoss (c : Nat) (s : State) : State :=
  match (s.cluster c).dill.dropped, s.islandNow c with
  | 0, _ => s
  | _, none => s
  | _, some now =>
    let s := State.trigStop (s.dillArrive c now)
    let d := (s.cluster c).dill
    let k := max (s.cluster c).lastStamp now
    (s.modCluster c fun x => { x with
      lastStamp := k, dill := { x.dill with seq := d.seq + 1, dropped := 0 } }).ringItem
      d.ring (traceItem { traceRec 11 d.dropped with seq := d.seq, tick := k })

/-- The ring makes room for a protected record where its policy lets it (R104, R467). -/
def State.roomFor (n : Nat) (item : RingItem) (s : State) : State :=
  let r := s.ring n
  if r.fullPolicy = 2 then s.overwrite n (r.need item) (r.need item) else s

/-- `DILL_DRAIN` (R467): the oldest record goes to the ring; a protected one stays until the ring takes
it. [DEDUCED: notes/assumptions/100.md] -/
def execDillDrain (t cluster : Nat) (s : State) : Host.Outcome State Fault Refusal :=
  s.happen t (fun s => s.moving && (s.cluster cluster).dill.drains) fun s =>
    let s := s.dillLoss cluster
    match (s.cluster cluster).dill.buf with
    | [] => s
    | r :: rest =>
      let n := (s.cluster cluster).dill.ring
      let s' := if r.prot then s.roomFor n (traceItem r) else s
      if r.prot && !(s'.ring n).fits (traceItem r) then s
      else
        (s'.modCluster cluster fun x => { x with dill := { x.dill with buf := rest } }).ringItem n
          (traceItem r)

/-! ### The wait-for graph (R470, R471) -/

/-- An edge before its cycle is known. -/
def edge (wkind waiter hkind holder since part : Nat) : Edge :=
  { waiter := waiter, holder := holder, since := since, wkind := wkind, hkind := hkind,
    part := part % 64, cycle := false }

/-- The identifiers of nodes (R471). -/
def slotNode (k : Nat) (x : Slot) : Nat := k * 65536 + x.gen
def entryNode (n : Nat) (i : W32) : Nat := n * 2 ^ 32 + i.toNat
def genNode (table g : Nat) : Nat := table * 256 + g
def epochNode (d e : Nat) : Nat := d * 65536 + e
def cmdNode (h : CmdHdr) : Nat := viaSid h.via * 2 ^ 32 + h.seq % 2 ^ 32

/-- Fences on the entries before them. -/
def State.fenceEdges (s : State) : List Edge :=
  s.rings.ctx.flatMap fun e => e.2.fences.flatMap fun f =>
    (e.2.opened.filter fun i => idxAbove f.1 i).map fun i =>
      edge 2 (entryNode e.1 f.1) 1 (entryNode e.1 i) e.2.headTick e.2.owner

/-- The entries of a ring that a barrier point still waits for. -/
def Ring.below (r : Ring) (p : W32) : List W32 :=
  (r.opened.filter fun i => idxAbove p i) ++
    (if idxAbove p r.consIdx then
      (List.range (idxCount p r.consIdx)).map fun k => r.consIdx + BitVec.ofNat 32 k
     else [])

/-- Barriers on entries and generations. -/
def State.barrierEdges (s : State) : List Edge :=
  s.rings.barriers.flatMap fun b =>
    let me := b.1 * 256 + b.2.1
    let since := b.2.2.due - timeoutOf b.2.2.h
    (b.2.2.points.flatMap fun p => ((s.ring p.1).below p.2).map fun i =>
      edge 3 me 1 (entryNode p.1 i) since b.1) ++
    ((b.2.2.pairs.filter fun p => !s.genRetired p.1 p.2).map fun p =>
      edge 3 me 6 (genNode p.1 p.2) since b.1)

/-- Entries on the slots that keep them from one (R107). -/
def State.slotEdges (s : State) : List Edge :=
  s.rings.ctx.flatMap fun e => match e.2.slotWait with
    | none => []
    | some i =>
      let p := s.part e.2.owner
      let mine := decide (p.slotMax ≤ s.slotsOf e.2.owner)
      (s.rings.slots.filter fun x => x.2.state != .free && (!mine || x.2.part == e.2.owner)).map
        fun x => edge 1 (entryNode e.1 i) 0 (slotNode x.1 x.2) e.2.headTick e.2.owner

/-- The clusters that work for a slot. -/
def State.slotClusters (k : Nat) (x : Slot) (s : State) : List Nat :=
  (s.comp.cores.flatMap fun c =>
    ((c.2.shares.filter fun y => y.slot == k && y.slotGen == x.gen).map (·.cluster)) ++
    ((c.2.ctxs.filter fun y => y.2.desc.slotV && y.2.desc.slot == k && y.2.desc.slotGen == x.gen).map
      fun _ => s.coreCluster c.1)).eraseDups

/-- Slots on clusters and on peers' lookups. -/
def State.workEdges (s : State) : List Edge :=
  ((s.rings.slots.filter fun x => x.2.state != .free).flatMap fun x =>
    (s.slotClusters x.1 x.2).map fun c => edge 0 (slotNode x.1 x.2) 7 c x.2.admitAt x.2.part) ++
  ((s.models.fetches.filter fun f => f.2.remote && f.2.sent).map fun f =>
    edge 0 (f.2.slot * 65536 + f.2.slotGen) 8 f.2.home f.2.sentTick (s.slot f.2.slot).part)

/-- Epochs and generations on the slots that hold them. -/
def State.holdEdges (s : State) : List Edge :=
  let used := s.rings.slots.filter fun x => x.2.state != .free
  (s.models.domains.flatMap fun d => match d.2.retiring with
    | none => []
    | some (e, _) => (used.filter fun x => x.2.part == d.1 && x.2.epoch == e).map fun x =>
        edge 5 (epochNode d.1 e) 0 (slotNode x.1 x.2) d.2.flipTick d.1) ++
  (s.models.tables.flatMap fun f => (f.2.gens.filter fun g => g.state == .retiring).flatMap fun g =>
    (used.filter fun x => tget x.2.tgens f.1 == some g.g).map fun x =>
      edge 6 (genNode f.1 g.g) 0 (slotNode x.1 x.2)
        (((f.2.genIn .current).map (·.commitTick)).getD 0) f.2.owner)

/-- Commits with `wait` on the epoch that still retires. -/
def State.commitEdges (s : State) : List Edge :=
  s.models.domains.filterMap fun d => match d.2.waiting, d.2.retiring with
    | some w, some (e, _) =>
      some (edge 4 (cmdNode w.h) 5 (epochNode d.1 e) (w.due - timeoutOf w.h) w.h.part)
    | _, _ => none

/-- Contexts on arrays held for other contexts (R221). -/
def State.arrayEdges (s : State) : List Edge :=
  s.comp.cores.flatMap fun c => c.2.arrays.flatMap fun a => a.2.held.map fun x =>
    edge 9 (c.1 * 4 + x.1) 10 (c.1 * 2 + a.1) x.2 (s.coreOwner c.1)

/-- Every edge of the graph. -/
def State.edges (s : State) : List Edge :=
  s.fenceEdges ++ s.barrierEdges ++ s.slotEdges ++ s.workEdges ++ s.holdEdges ++ s.commitEdges ++
    s.arrayEdges

/-- The nodes that a set of nodes leads to in so many steps. -/
def leadsTo (es : List Edge) : Nat → List (Nat × Nat) → List (Nat × Nat)
  | 0, ns => ns
  | k + 1, ns =>
    let more := (es.filter fun e => ns.contains (e.wkind, e.waiter)).map fun e => (e.hkind, e.holder)
    leadsTo es k (ns ++ more).eraseDups

/-- The edges that lie on a cycle, marked. -/
def markCycles (es : List Edge) : List Edge :=
  es.map fun e => { e with
    cycle := (leadsTo es es.length [(e.hkind, e.holder)]).contains (e.wkind, e.waiter) }

/-- The most edges a graph holds. -/
def edgeMax : Nat := 65536

/-- A new graph. [DEDUCED: notes/assumptions/101.md] -/
def State.buildGraph (s : State) : State :=
  let all := s.edges
  s.updObs fun o => { o with
    graph := markCycles (all.take edgeMax), graphTick := some s.tick
    graphCut := decide (edgeMax < all.length) }

/-- An edge as four words, bits 63:0 first (R470). -/
def edgeWords (cut : Bool) (e : Edge) : List Nat :=
  [e.wkind * 2 ^ 60 + e.hkind * 2 ^ 56 + e.part * 2 ^ 50 + bit e.cycle * 2 ^ 49 + bit cut * 2 ^ 48,
    e.since, e.holder, e.waiter]

/-- A graph built by `WAITFOR_READ` serves later pages for 10 s.
[DEDUCED: notes/assumptions/101.md] -/
def State.graphFresh (s : State) : Bool :=
  match s.obs.graphTick with
  | some k => decide (s.tick ≤ k + 10000000000)
  | none => false

/-- `WAITFOR_READ` (R470): page 0 builds the graph. [DEDUCED: notes/assumptions/101.md] -/
def execWaitforRead (t : Nat) (h : CmdHdr) (start max : Nat) (s : State) :
    Host.Outcome State Fault Refusal :=
  s.isain t { op := 0x0E07, stop := true } h noObj (isP0 h) fun s =>
    let s := if start = 0 then s.buildGraph else s
    checks [(!s.graphFresh, .eState)]
      (.done .ok (listPage start max 269 []
        (numbered (s.obs.graph.map fun e =>
          (edgeWords s.obs.graphCut e).map fun w => (64, w)))) s)

end Sys2Proof.Machine
end

