-- ==== Sys2Proof/Machine/Update.lean ====
section
/-! DEFINITION. Firmware update, rollback, attestation, keys, debug unlock, boot status and the settings
store's appends (R364, R371 to R375, R399 to R428). -/

namespace Sys2Proof.Machine

/-! ### The update lock and staging (R400, R405, R407) -/

/-- The ROM serves in recovery mode (R417). -/
def State.inRom (s : State) : Bool := s.pkg.devState == .recovery

/-- The command's session holds the update lock. -/
def State.holdsLock (h : CmdHdr) (s : State) : Bool := s.bay.lock.any fun l => l.sid == viaSid h.via

/-- Another session holds the update lock. -/
def State.lockedOut (h : CmdHdr) (s : State) : Bool := s.bay.lock.any fun l => l.sid != viaSid h.via

/-- An update command of the lock's session renews its 60 s (R400).
[DEDUCED: notes/assumptions/103.md] -/
def State.renewLock (h : CmdHdr) (s : State) : State :=
  if s.holdsLock h then s.updBay fun b => { b with lock := some { sid := viaSid h.via, last := s.tick } }
  else s

/-- `boot_count` as it stands: in recovery mode, what the store holds (R344, R417).
[DEDUCED: notes/assumptions/110.md] -/
def State.bootCountNow (s : State) : Nat := if s.inRom then s.storedBootCount else s.fab.bootCount

/-- A log record of the ROM about a staged image that it discards: its `b_result` is open. -/
def State.discardLog (s : State) : State :=
  ({ s with freeCount := s.freeCount + 1 }).bootLog 0xFFFFFFFF (freeBelow 5 (Config.free s.freeCount)) 3

/-- The staged image is gone. -/
def Bay.unstage (b : Bay) : Bay := { b with staged := [], stagedLen := 0, written := [], finished := false }

/-- `UPDATE_OPEN` (R405, R407, R418). [DEDUCED: notes/assumptions/103.md] -/
def execUpdateOpen (t : Nat) (h : CmdHdr) (len : Nat) (s : State) : Host.Outcome State Fault Refusal :=
  s.isain t { op := 0x0F01 } h noObj (isP0 h) fun s =>
    checks
      [(s.lockedOut h, .busy), (decide (67108864 < len), .eRange),
       (s.bay.stg.state == 7 && !s.inRom, .eState)]
      (let s := if s.bay.stg.state = 7 then s.discardLog else s
       okReply (s.updBay fun b => { b.unstage with
         stagedLen := len, stg := {}, lock := some { sid := viaSid h.via, last := s.tick } }))

/-- A range of bytes added to disjoint, rising ranges, given as starts and ends. -/
def addRange : List (Nat × Nat) → Nat → Nat → List (Nat × Nat)
  | [], a, b => [(a, b)]
  | (x, y) :: r, a, b =>
    if y < a then (x, y) :: addRange r a b
    else if b < x then (a, b) :: (x, y) :: r
    else addRange r (min a x) (max b y)

/-- The bytes that ranges cover. -/
def rangesSize (l : List (Nat × Nat)) : Nat := (l.map fun e => e.2 - e.1).sum

/-- A byte already written is given another value. -/
def Bay.rewrites (b : Bay) (offset : Nat) (data : List Byte) : Bool :=
  data.zipIdx.any fun e => (b.written.any fun r => decide (r.1 ≤ offset + e.2) && decide (offset + e.2 < r.2)) &&
    memGet b.staged (offset + e.2) != e.1

/-- `UPDATE_DATA` (R405, R407). -/
def execUpdateData (t : Nat) (h : CmdHdr) (offset : Nat) (data : List Byte) (s : State) :
    Host.Outcome State Fault Refusal :=
  s.isain t { op := 0x0F02 } h noObj (isP0 h) fun s =>
    let n := data.length
    checks
      [(!s.holdsLock h, .eState),
       (offset % 8 != 0 || n % 8 != 0, .eArg), (n == 0 || decide (8192 < n), .eRange),
       (decide (s.bay.stagedLen < offset + n) || decide (0x3FF0000 < offset + n), .eRange),
       (s.bay.rewrites offset data, .eConflict)]
      (okReply ((s.updBay fun b => { b with
        staged := memPut b.staged offset data
        written := addRange b.written offset (offset + n) }).renewLock h))

/-! ### The manifest (R366, R409 to R411) -/

/-- The slots that hold an image of a version under another digest (R411). -/
def Bay.conflicts (b : Bay) (version : Nat) (digest : List Byte) : List Nat :=
  [0, 1].filter fun k => (b.slotState k == 1 || b.slotState k == 2) && b.slotVersion k == version &&
    manifestDigest (b.slotMem k) != digest

/-- A conflict told (R411): a digest's byte 0 lies in bits 63:56 of its first word (R381). [DEDUCED: notes/assumptions/103.md] -/
def State.tellConflict (version : Nat) (digest : List Byte) (k : Nat) (s : State) : State :=
  s.recordEvent 0x0060 4 0 0xFF 1 [(8, 1), (64, version)] 0 0x0020
    [(64, version), (256, beNat (manifestDigest (s.bay.slotMem k))), (256, beNat digest)]

/-- What follows a conflict (R411): the staged image goes, and a held one that is not confirmed is
`BAD`. -/
def State.conflict (version : Nat) (digest : List Byte) (k : Nat) (s : State) : State :=
  let s := s.updBay Bay.unstage
  let s := if s.bay.slotState k = 2 then s.writeDir fun d => { d.setState k 3 with trial := 0 } else s
  s.tellConflict version digest k

/-- `UPDATE_FINISH` (R405, R410, R411). `sigOk` says that `m_sig` verifies. -/
def execUpdateFinish (t : Nat) (h : CmdHdr) (sigOk : Bool) (s : State) :
    Host.Outcome State Fault Refusal :=
  s.isain t { op := 0x0F03 } h noObj (isP0 h) fun s =>
    let m := s.bay.staged
    checks
      [(!s.holdsLock h, .eState),
       (rangesSize s.bay.written != s.bay.stagedLen || s.bay.stagedLen != imgNat m 20 4, .eArg),
       (!manifestGood m, .eArg),
       (shake256 32 (memBytes m 24 64) != s.fuses.rootHash || !sigOk, .eAuth),
       (decide (imageSvn m < s.fuses.svn), .eState),
       (!sectionsMatch m, .eAuth)]
      (let version := imgNat m 8 8
       let digest := manifestDigest m
       match s.bay.conflicts version digest with
       | [] =>
         .done .ok (pack [(64, version)])
           ((s.updBay fun b => { b with finished := true }).renewLock h)
       | ks => .done .eConflict [] ((ks.foldl (fun s k => s.conflict version digest k) s).renewLock h))

/-- `UPDATE_ACTIVATE` (R405, R408, R412). -/
def execUpdateActivate (t : Nat) (h : CmdHdr) (s : State) : Host.Outcome State Fault Refusal :=
  s.isain t { op := 0x0F04 } h noObj (isP0 h) fun s =>
    checks [(!s.holdsLock h || !s.bay.finished || s.bay.dir.trial != 0, .eState)]
      (okReply (s.updBay fun b => { b with
        lock := none
        stg := { digest := manifestDigest b.staged, version := imgNat b.staged 8 8, len := b.stagedLen,
                 bootCount := s.bootCountNow, state := 7, target := 1 - b.dir.active } }))

/-- The counter raised to the running image's `m_svn`, and the slots below it (R414, R416). -/
def State.raiseSvn (s : State) : State :=
  let svn := imageSvn (s.bay.slotMem s.bay.runSlot)
  if svn ≤ s.fuses.svn then s
  else
    let s := s.updFuses fun f => { f with svn := svn }
    let bad := [0, 1].filter fun k => s.bay.slotState k != 0 && decide (imageSvn (s.bay.slotMem k) < svn)
    if bad.isEmpty then s else s.writeDir fun d => bad.foldl (fun d k => d.setState k 3) d

/-- `UPDATE_CONFIRM` (R414). -/
def execUpdateConfirm (t : Nat) (h : CmdHdr) (s : State) : Host.Outcome State Fault Refusal :=
  s.isain t { op := 0x0F05 } h noObj (isP0 h) fun s =>
    checks [(s.bay.dir.trial != s.bay.runSlot + 1, .eState)]
      (let k := s.bay.runSlot
       let s := s.writeDir fun d => { d.setState k 1 with active := k, trial := 0, tries := 0, failRun := 0 }
       let s := s.updBay fun b => { b with trialFrom := none }
       okReply (s.raiseSvn.renewLock h))

/-- `UPDATE_ROLLBACK` (R415). -/
def execUpdateRollback (t : Nat) (h : CmdHdr) (s : State) : Host.Outcome State Fault Refusal :=
  s.isain t { op := 0x0F06 } h noObj (isP0 h) fun s =>
    checks [(s.bay.dir.trial == 0, .eState)]
      (okReply ((s.writeDir fun d => { d.setState (d.trial - 1) 3 with trial := 0 }).renewLock h))

/-- `UPDATE_ABORT` (R405, R412). -/
def execUpdateAbort (t : Nat) (h : CmdHdr) (s : State) : Host.Outcome State Fault Refusal :=
  s.isain t { op := 0x0F07 } h noObj (isP0 h) fun s =>
    checks [(s.lockedOut h, .busy)]
      (okReply (s.updBay fun b => { b.unstage with
        lock := none, stg := if b.stg.state = 7 then { b.stg with state := 0 } else b.stg }))

/-- `UPDATE_STATUS` (R399): a command of the lock's session renews it (R400). [DEDUCED: notes/assumptions/103.md] -/
def execUpdateStatus (t : Nat) (h : CmdHdr) (s : State) : Host.Outcome State Fault Refusal :=
  s.isain t { op := 0x0F08, stop := true } h noObj anyPart fun s =>
    .done .ok (pack [(32, (s.bay.lock.map (·.sid)).getD 0), (32, rangesSize s.bay.written)]) (s.renewLock h)

/-- `UPDATE_LOCK_EXPIRY` (R400). -/
def execUpdateLockExpiry (t : Nat) (s : State) : Host.Outcome State Fault Refusal :=
  s.happen t
    (fun s => s.alive && match s.bay.lock with
      | some l => decide (l.last + 60000000000 ≤ s.tick)
      | none => false)
    fun s => s.updBay fun b => { b with lock := none }

/-! ### Boot status and the settings store (R364, R371 to R375, R401) -/

/-- The directory record's low 256 bits (R364). -/
def dirNum (d : Directory) : Nat :=
  d.seq % 2 ^ 32 * 2 ^ 224 + 0x4B344449 * 2 ^ 192 + d.verA * 2 ^ 128 + d.verB * 2 ^ 64 + d.stateA * 2 ^ 60 +
    d.stateB * 2 ^ 56 + d.active * 2 ^ 55 + d.trial * 2 ^ 53 + d.tries * 2 ^ 50 + d.failRun * 2 ^ 47 +
    d.nextMode * 2 ^ 45

/-- The directory record as eight words, bits 63:0 first. -/
def dirWords (d : Directory) : List Nat :=
  let bs := leBytes 32 (dirNum d)
  (bytesWords 8 (bs ++ shake256 32 bs)).map (·.toNat)

/-- `BOOT_STATUS` (R401). -/
def execBootStatus (t : Nat) (h : CmdHdr) (s : State) : Host.Outcome State Fault Refusal :=
  s.isain t { op := 0x1101, stop := true } h noObj anyPart fun s =>
    .done .ok (dirWords s.bay.dir ++ pack [(32, s.bootCountNow), (8, s.devStateCode)]) s

/-- `SETTINGS_SYNC` (R372): answered when every change before it is in flash. -/
def execSettingsSync (t : Nat) (h : CmdHdr) (s : State) : Host.Outcome State Fault Refusal :=
  s.isain t { op := 0x1102 } h noObj (isP0 h) fun s =>
    if s.bay.unsaved.isEmpty then okReply s
    else .wait (s.updBay fun b => { b with syncs := b.syncs ++ [(h, b.unsaved.length)] })

/-- `SETTINGS_APPEND` (R372, R373): the oldest change not yet in flash is appended where it fits; a store 75% full is
compacted first; each `SETTINGS_SYNC` whose changes are now all in flash is answered.
[DESIGN CHOICE: notes/assumptions/19.md; DESIGN CHOICE: notes/assumptions/104.md] -/
def execSettingsAppend (t len : Nat) (s : State) : Host.Outcome State Fault Refusal :=
  s.happen t (fun s => s.isainUp && !s.bay.unsaved.isEmpty && decide (len ≤ 4194304) && s.bay.fits len) fun s =>
    match s.bay.unsaved with
    | [] => s
    | v :: rest =>
      let s := s.appendStore v (imageFmt (s.bay.slotMem s.bay.runSlot) v.group) len
      let left := s.bay.syncs.map fun q => (q.1, q.2 - 1)
      let s := s.updBay fun b => { b with unsaved := rest, syncs := left.filter fun q => q.2 != 0 }
      ((left.filter fun q => q.2 == 0).foldl (fun s q => s.answer q.1 0x1102 .ok noDetail []) s).fabStored

/-! ### Identity, keys, rights and debug (R421 to R428) -/

/-- The length of the chain, and of one certificate (R421). -/
def chainLen : Nat := 59848
def certLen : Nat := 29920

/-- A byte of a certificate of the chain, the device's (0) or the manufacturing CA's (1) (R421).
[DESIGN CHOICE: notes/assumptions/107.md] -/
def State.certByte (k o : Nat) (s : State) : Byte :=
  let head := leBytes 2 (if k = 0 then 0x0101 else 0x0102) ++ leBytes 2 1 ++ leBytes 4 0
  let subject (k j : Nat) : Byte :=
    if k = 0 then (leBytes 16 s.fuses.serial).getD j 0 else Config.certByte (8 + certLen * k + 8 + j)
  if o < 8 then head.getD o 0
  else if o < 24 then subject k (o - 8)
  else if o < 40 ∧ k = 0 then subject 1 (o - 24)
  else if 48 ≤ o ∧ o < 112 ∧ k = 0 then (beBytes 64 s.fuses.idPublic.toNat).getD (o - 48) 0
  else if 112 ≤ o ∧ o < 128 then (leBytes 2 (2 - k)).getD (o - 112) 0
  else Config.certByte (8 + certLen * k + o)

/-- A byte of the certificate chain: its header, then the device's certificate and the CA's (R421). -/
def State.chainByte (i : Nat) (s : State) : Byte :=
  if i < 8 then (leBytes 4 0x4B344345 ++ leBytes 2 2).getD i 0
  else s.certByte ((i - 8) / certLen) ((i - 8) % certLen)

/-- `CERT_READ` (R401, R421): bytes of the chain from an offset.
[DESIGN CHOICE: notes/assumptions/107.md] -/
def execCertRead (t : Nat) (h : CmdHdr) (start max : Nat) (s : State) :
    Host.Outcome State Fault Refusal :=
  s.isain t { op := 0x1002, stop := true } h noObj anyPart fun s =>
    let bs := (List.range (min (min max 8192) (chainLen - start))).map fun i => s.chainByte (start + i)
    let next := start + bs.length
    .done .ok (pack [(32, if next < chainLen then next else 0xFFFFFFFF), (16, bs.length)] ++
      pack (bs.map fun b => (8, b.toNat))) s

/-- Exactly `n` bytes of a list, zeros where it ends. -/
def bytesN (n : Nat) (bs : List Byte) : List Byte := bs.take n ++ List.replicate (n - bs.length) 0

/-- A partition's rights; partition 0 holds every right (R426).
[DEDUCED: notes/assumptions/110.md] -/
def State.rightsOf (p : Nat) (s : State) : Nat := if p = 0 then 3 else (s.part p).rights.toNat

/-- The bytes of an attestation report before its signature (R423).
[DEDUCED: notes/assumptions/103.md] -/
def State.report (part : Nat) (nonce : List Byte) (s : State) : List Byte :=
  let run := s.bay.runSlot
  let other := 1 - run
  leBytes 2 2 ++ leBytes 2 part ++ leBytes 2 (s.rightsOf part) ++ leBytes 2 0 ++ bytesN 32 nonce ++
    leBytes 16 s.fuses.serial ++ beBytes 32 s.ouv.bootNonce.toNat ++ leBytes 8 s.tick ++
    leBytes 8 (s.wallWord s.tick) ++ leBytes 4 s.bootCountNow ++ leBytes 1 s.bay.runMode ++
    leBytes 1 run ++ leBytes 2 s.pkg.jtagScopes ++ leBytes 8 (s.bay.slotVersion run) ++
    manifestDigest (s.bay.slotMem run) ++ leBytes 4 s.fuses.svn ++ leBytes 1 (s.bay.slotState run) ++
    leBytes 3 0 ++ leBytes 8 (s.bay.slotVersion other) ++ leBytes 1 (s.bay.slotState other) ++
    leBytes 23 0 ++ bytesN 32 s.fuses.rootHash

/-- The length of an attestation report. -/
def reportLen : Nat := 50080

/-- `ATTEST` (R401, R423). `sig` is the identity key's signature. -/
def execAttest (t : Nat) (h : CmdHdr) (nonce : List Byte) (repAddr : Nat) (sig : List Byte) (s : State) :
    Host.Outcome State Fault Refusal :=
  s.isain t { op := 0x1001 } h noObj anyPart fun s =>
    checks [(!inDevice repAddr reportLen, .eRange), (!s.inWindow h.part 1 repAddr reportLen, .ePriv)]
      (.done .ok (pack [(32, reportLen)]) (s.poke repAddr (s.report h.part nonce ++ bytesN 49856 sig)))

/-- A ciphertext as the K4 remembers it (R424). [DESIGN CHOICE: notes/assumptions/107.md] -/
def kemName (ct : List Byte) : Nat := leNat (shake256 32 ct)

/-- The key that a `SESSION_KEY_SET` of a session carries: the shared secret of its ciphertext unwraps it
(R424). [DEDUCED: notes/assumptions/107.md] -/
def State.unwrapKey (sid part : Nat) (kemCt : List Byte) (wrapped : BitVec 256) (s : State) : BitVec 256 :=
  wrapped ^^^ BitVec.ofNat 256 (beNat (kmac256 (beBytes 32 (s.decaps kemCt).toNat)
    (beBytes 4 sid ++ beBytes 1 part) 32 "OUVLEN PSK WRAP"))

/-- `SESSION_KEY_SET` (R424, R425). -/
def execSessionKeySet (t : Nat) (h : CmdHdr) (part : Nat) (kemCt : List Byte)
    (wrapped : BitVec 256) (s : State) : Host.Outcome State Fault Refusal :=
  s.isain t { op := 0x1003 } h noObj (isP0 h) fun s =>
    let name := kemName kemCt
    let key := s.unwrapKey (viaSid h.via) part kemCt wrapped
    checks
      [(s.ouv.kemSeen.contains name, .eAuth), (decide (1024 ≤ s.ouv.kemSeen.length), .eNospace),
       (key == 0 || decide (64 ≤ part), .eArg)]
      (let s := s.updOuv fun o => { o with
         psk := tset o.psk part key, kemSeen := o.kemSeen ++ [name] }
       okReply (s.keep (.keys s.ouv.psk)))

/-- The reserved bits 15:2 of a rights word, refused at step 1 of R383 (R6, R426). -/
def rightsResv (rights : W16) : Option Nat := if rights.toNat < 4 then none else some noDetail

/-- `RIGHTS_SET` (R402, R426). -/
def execRightsSet (t : Nat) (h : CmdHdr) (part : Nat) (rights : W16) (s : State) :
    Host.Outcome State Fault Refusal :=
  s.isain t { op := 0x1004, resv := rightsResv rights } h noObj (isP0 h) fun s =>
    checks [(part == 0 || decide (64 ≤ part), .eArg)]
      (okReply ((s.modPart part fun p => { p with rights := rights }).keepPart part))

/-- The length of a debug token (R427). -/
def tokenLen : Nat := 29920

/-- A debug token's fields are as R427 lists them, for this device and this start.
[DEDUCED: notes/assumptions/103.md] -/
def State.tokenGood (bs : List Byte) (s : State) : Bool :=
  let f (a n : Nat) : List Byte := (bs.drop a).take n
  leNat (f 0 2) == 3 && leNat (f 2 6) == 0 && leNat (f 8 16) == s.fuses.serial &&
    f 24 32 == beBytes 32 s.ouv.bootNonce.toNat && decide (leNat (f 56 2) < 8) && leNat (f 58 6) == 0 &&
    shake256 32 (f 64 64) == s.fuses.rootHash

/-- `DEBUG_UNLOCK` (R427, R428). `sigOk` says that `tok_sig` verifies.
[DEDUCED: notes/assumptions/111.md] -/
def execDebugUnlock (t : Nat) (h : CmdHdr) (tokAddr tokLen : Nat) (sigOk : Bool) (s : State) :
    Host.Outcome State Fault Refusal :=
  s.isain t { op := 0x1005 } h noObj (isP0 h) fun s =>
    let bs := s.bytesAt tokAddr tokenLen
    checks
      [(tokLen != tokenLen, .eArg), (!inDevice tokAddr tokLen, .eRange), (!s.mayAccess 0 1 tokAddr tokenLen, .ePriv)]
     (Reply.after (s.touch tokAddr tokenLen 0) <| checks
      [(!s.mem.readable tokAddr tokenLen, .eFault), (!s.tokenGood bs || !sigOk, .eAuth)]
      (let scope := leNat ((bs.drop 56).take 2)
       let s := s.touch tokAddr tokenLen 0
       let s := (s.updPkg fun p => { p with jtagScopes := p.jtagScopes ||| scope }).updOuv
         fun o => { o with helloShut := true }
       let s := ((s.ouv.sessions.map (·.1)).filter (· != viaSid h.via)).foldl
         (fun s sid => s.closeSession sid .eState) s
       okReply (s.recordEvent 0x0060 4 0 0xFF 1 [(8, 0), (64, scope)] 0 0x0021 [(16, scope)])))

end Sys2Proof.Machine
end

