-- ==== Sys2Proof/Machine/Vector.lean ====
section
/-! DEFINITION. The vector unit (R186 to R188, R218). -/

namespace Sys2Proof.Machine

/-- Lanes of a vector instruction (R186). -/
def vLanes : VFmt → Nat
  | .fp32 => 16
  | .int32 => 16
  | _ => 32

/-- The flags of a compare with a NaN: `invalid` for a signalling NaN; whether a quiet NaN in an
ordered compare sets it is open. -/
def compareFlags (ordered : Bool) (a b : W32) : FFlags :=
  (snan [a, b]).join { invalid := ordered && Config.cmpSignals && (fisNan a || fisNan b) }

/-- A compare's pattern. -/
def compareWord (n : Nat) (holds : Bool) : W32 :=
  BitVec.ofNat 32 ((Config.cmpWord holds).toNat % 2 ^ n)

/-- An operation in FP32 (R186, R187). -/
def fpLane (op : VOp) (a b c : W32) : Option (W32 × FFlags) :=
  match op with
  | .add => some (faddF a b)
  | .mul => some (fmulF a b)
  | .fma => some (ffmaF a b c)
  | .min => some (fpick 2 .lt a b, snan [a, b])
  | .max => some (fpick 1 .gt a b, snan [a, b])
  | _ => none

/-- A compare in FP32. -/
def fpCompare (op : VOp) (a b : W32) : Option (Bool × FFlags) :=
  match op with
  | .compareLt => some (flt a b, compareFlags true a b)
  | .compareLe => some (fle a b, compareFlags true a b)
  | .compareEq => some (fcmp a b == some .eq, compareFlags false a b)
  | _ => none

/-- An operand widened to FP32, exactly. -/
def widen (f : VFmt) (a : W32) : W32 × FFlags := if f = .fp32 then (a, {}) else convertLane f .fp32 false a

/-- An FP32 result rounded to the target format. -/
def narrow (f : VFmt) (r : W32 × FFlags) : W32 × FFlags :=
  if f = .fp32 then r
  else
    let q := convertLane .fp32 f false r.1
    (q.1, r.2.join q.2)

/-- A lane of a floating-point operation: BF16 and FP16 compute in FP32 (R187). -/
def floatLane (f : VFmt) (n : Nat) (op : VOp) (a b c : W32) : Option (W32 × FFlags) :=
  let x := widen f a
  let y := widen f b
  let z := widen f c
  let fl := (x.2.join y.2).join (if op = .fma then z.2 else {})
  match op with
  | .special g => if f = .fp32 then some (specialF g a) else none
  | _ =>
    match fpCompare op x.1 y.1 with
    | some r => some (compareWord n r.1, fl.join r.2)
    | none => (fpLane op x.1 y.1 z.1).map fun r =>
        let q := narrow f r
        (q.1, fl.join q.2)

/-- A result the manual does not state, as a word of `n` bits. -/
def openLane (n op : Nat) (a b : W32) : W32 := BitVec.ofNat 32 ((Config.vecOpen op a b).toNat % 2 ^ n)

/-- A number kept to `n` bits as a lane. -/
def laneOf (n : Nat) (i : Int) : W32 := BitVec.ofNat 32 (low n i)

/-- A lane of an integer operation on `n` bits. A saturating product or left shift that does not fit, a
shift by the width or more, and a right shift of a negative number are open.
[DESIGN CHOICE: notes/assumptions/48.md] -/
def intLane (n : Nat) (op : VOp) (sat : Bool) (a b : W32) : Option W32 :=
  let x := asInt n a.toNat
  let y := asInt n b.toNat
  let k := b.toNat % 2 ^ n
  match op with
  | .add => some (laneOf n (fitInt n sat (x + y)).1)
  | .sub => some (laneOf n (fitInt n sat (x - y)).1)
  | .mulLow =>
    some (if sat && (fitInt n true (x * y)).2 then openLane n 20 a b else laneOf n (x * y))
  | .logicAnd => some (BitVec.ofNat 32 ((a &&& b).toNat % 2 ^ n))
  | .logicOr => some (BitVec.ofNat 32 ((a ||| b).toNat % 2 ^ n))
  | .logicXor => some (BitVec.ofNat 32 ((a ^^^ b).toNat % 2 ^ n))
  | .shl =>
    some (if n ≤ k ∨ (sat && (fitInt n true (x * 2 ^ k)).2) then openLane n 21 a b
      else laneOf n (x * 2 ^ k))
  | .shr =>
    some (if k = 0 then laneOf n x
      else if n ≤ k ∨ x < 0 then openLane n 22 a b
      else laneOf n (x / 2 ^ k))
  | .compareLt => some (compareWord n (decide (x < y)))
  | .compareLe => some (compareWord n (decide (x ≤ y)))
  | .compareEq => some (compareWord n (decide (x = y)))
  | _ => none

/-- A lane of a vector instruction; none where the unit has no such operation (R186). -/
def vLane (f : VFmt) (op : VOp) (sat : Bool) (a b c : W32) : Option (W32 × FFlags) :=
  match op with
  | .convert dst => some (convertLane f dst sat a)
  | _ =>
    match f with
    | .fp32 => floatLane f 32 op a b c
    | .bf16 => floatLane f 16 op a b c
    | .fp16 => floatLane f 16 op a b c
    | .int32 => (intLane 32 op sat a b).map fun r => (r, {})
    | .int16 => (intLane 16 op sat a b).map fun r => (r, {})
    | _ => none

/-- The lanes of an instruction with their flags. -/
def vRun (f : VFmt) (op : VOp) (sat : Bool) (a b z : List W32) : List (W32 × FFlags) :=
  (List.range (vLanes f)).map fun i =>
    (vLane f op sat ((a[i]?).getD 0) ((b[i]?).getD 0) ((z[i]?).getD 0)).getD (0, {})

/-- A context after a vector instruction: the result register, and the sticky flags joined. -/
def Ctx.vector (dst : Nat) (r : List (W32 × FFlags)) (x : Ctx) : Ctx :=
  { x with
    vregs := tset x.vregs dst (r.map (·.1))
    flags := r.foldl (fun f e => f.join e.2) x.flags }

/-- `VECTOR_INSTRUCTION` (R186, R187). The unit never sees an operation that a format does not have. -/
def execVectorInstruction (t core ctx : Nat) (fmt : VFmt) (op : VOp) (sat : Bool) (dst : Nat)
    (a b c : List W32) (s : State) : Host.Outcome State Fault Refusal :=
  s.happen t (fun s => s.moving && s.ctxReady core ctx && (vLane fmt op sat 0 0 0).isSome) fun s =>
    s.modCtx core ctx (Ctx.vector dst (vRun fmt op sat a b c))

end Sys2Proof.Machine
end

