-- ==== Sys2Proof/Machine/Dispatch.lean ====
section
/-! DEFINITION. One arm per command: a direct call of its meaning. -/

namespace Sys2Proof.Machine

/-- The effect of a command on everything but the queue. -/
def exec (i : Instr) (s : State) : Host.Outcome State Fault Refusal :=
  match i with
  | .deviceReset t h => Sys2Proof.Machine.execDeviceReset t h s
  | .deviceResetTest t h => Sys2Proof.Machine.execDeviceResetTest t h s
  | .deviceShutdown t h => Sys2Proof.Machine.execDeviceShutdown t h s
  | .powerConfig t h recs => Sys2Proof.Machine.execPowerConfig t h recs s
  | .settingsReadForm t h cmd recs => Sys2Proof.Machine.execSettingsReadForm t h cmd recs s
  | .bypassForce t h => Sys2Proof.Machine.execBypassForce t h s
  | .bypassReleaseForce t h => Sys2Proof.Machine.execBypassReleaseForce t h s
  | .bypassRearm t h => Sys2Proof.Machine.execBypassRearm t h s
  | .partitionReinit t h part => Sys2Proof.Machine.execPartitionReinit t h part s
  | .partitionEnable t h part => Sys2Proof.Machine.execPartitionEnable t h part s
  | .partitionDisable t h part => Sys2Proof.Machine.execPartitionDisable t h part s
  | .partitionConfig t h recs => Sys2Proof.Machine.execPartitionConfig t h recs s
  | .partitionQuery t h part => Sys2Proof.Machine.execPartitionQuery t h part s
  | .clusterAssign t h target graceUs clusters => Sys2Proof.Machine.execClusterAssign t h target graceUs clusters s
  | .clusterConfig t h recs => Sys2Proof.Machine.execClusterConfig t h recs s
  | .coreMapRead t h start max => Sys2Proof.Machine.execCoreMapRead t h start max s
  | .ringCreate t h spec => Sys2Proof.Machine.execRingCreate t h spec s
  | .ringConfig t h m => Sys2Proof.Machine.execRingConfig t h m s
  | .ringAttach t h ring sid => Sys2Proof.Machine.execRingAttach t h ring sid s
  | .ringDetach t h ring => Sys2Proof.Machine.execRingDetach t h ring s
  | .ringDestroy t h ring => Sys2Proof.Machine.execRingDestroy t h ring s
  | .ringQuery t h ring => Sys2Proof.Machine.execRingQuery t h ring s
  | .ringRepush t h ring start count => Sys2Proof.Machine.execRingRepush t h ring start count s
  | .barrier t h rings pairs => Sys2Proof.Machine.execBarrier t h rings pairs s
  | .slotQuery t h slot => Sys2Proof.Machine.execSlotQuery t h slot s
  | .portConfig t h recs => Sys2Proof.Machine.execPortConfig t h recs s
  | .portDrain t h port => Sys2Proof.Machine.execPortDrain t h port s
  | .portResume t h port => Sys2Proof.Machine.execPortResume t h port s
  | .portStatus t h port => Sys2Proof.Machine.execPortStatus t h port s
  | .portTxFrame t h ifc bytes => Sys2Proof.Machine.execPortTxFrame t h ifc bytes s
  | .macsecSaInstall t h sa => Sys2Proof.Machine.execMacsecSaInstall t h sa s
  | .macsecSaRemove t h ifc transmit sc an => Sys2Proof.Machine.execMacsecSaRemove t h ifc transmit sc an s
  | .windowOpen t h part win rights base pages => Sys2Proof.Machine.execWindowOpen t h part win rights base pages s
  | .windowClose t h part win => Sys2Proof.Machine.execWindowClose t h part win s
  | .bfdSessionSet t h ifc sess txUs rxUs mult peer => Sys2Proof.Machine.execBfdSessionSet t h ifc sess txUs rxUs mult peer s
  | .bfdSessionRemove t h ifc sess => Sys2Proof.Machine.execBfdSessionRemove t h ifc sess s
  | .timeRead t h => Sys2Proof.Machine.execTimeRead t h s
  | .ptpConfig t h recs => Sys2Proof.Machine.execPtpConfig t h recs s
  | .parseLoad t h pslot addr len prog => Sys2Proof.Machine.execParseLoad t h pslot addr len prog s
  | .parseCommit t h slots => Sys2Proof.Machine.execParseCommit t h slots s
  | .parseConfig t h recs => Sys2Proof.Machine.execParseConfig t h recs s
  | .spreadConfig t h spec => Sys2Proof.Machine.execSpreadConfig t h spec s
  | .patternLoad t h setId addr len fromL2 pats => Sys2Proof.Machine.execPatternLoad t h setId addr len fromL2 pats s
  | .classConfig t h recs => Sys2Proof.Machine.execClassConfig t h recs s
  | .ruleWrite t h pipe rows clears => Sys2Proof.Machine.execRuleWrite t h pipe rows clears s
  | .ruleRead t h pipe start max => Sys2Proof.Machine.execRuleRead t h pipe start max s
  | .prefixAdd t h v6 len cls pfx => Sys2Proof.Machine.execPrefixAdd t h v6 len cls pfx s
  | .prefixDel t h v6 len pfx => Sys2Proof.Machine.execPrefixDel t h v6 len pfx s
  | .prefixRead t h v6 level node start max => Sys2Proof.Machine.execPrefixRead t h v6 level node start max s
  | .macStaticAdd t h mif vid mac => Sys2Proof.Machine.execMacStaticAdd t h mif vid mac s
  | .macStaticRemove t h vid mac => Sys2Proof.Machine.execMacStaticRemove t h vid mac s
  | .macRead t h start max => Sys2Proof.Machine.execMacRead t h start max s
  | .macFlush t h mif vid => Sys2Proof.Machine.execMacFlush t h mif vid s
  | .flowDelete t h pipe key raced => Sys2Proof.Machine.execFlowDelete t h pipe key raced s
  | .flowRead t h pipe key => Sys2Proof.Machine.execFlowRead t h pipe key s
  | .flowTableConfig t h recs => Sys2Proof.Machine.execFlowTableConfig t h recs s
  | .egressConfig t h recs => Sys2Proof.Machine.execEgressConfig t h recs s
  | .policerConfig t h recs => Sys2Proof.Machine.execPolicerConfig t h recs s
  | .gateListSet t h ifc base cycle entries => Sys2Proof.Machine.execGateListSet t h ifc base cycle entries s
  | .gateListRemove t h ifc => Sys2Proof.Machine.execGateListRemove t h ifc s
  | .queueStats t h ifc => Sys2Proof.Machine.execQueueStats t h ifc s
  | .queueStatsClear t h ifc => Sys2Proof.Machine.execQueueStatsClear t h ifc s
  | .baselineCreate t h bl spec => Sys2Proof.Machine.execBaselineCreate t h bl spec s
  | .baselineChange t h bl spec => Sys2Proof.Machine.execBaselineChange t h bl spec s
  | .baselineDelete t h bl => Sys2Proof.Machine.execBaselineDelete t h bl s
  | .baselineRead t h bl => Sys2Proof.Machine.execBaselineRead t h bl s
  | .ftableCreate t h table spec => Sys2Proof.Machine.execFtableCreate t h table spec s
  | .ftableDestroy t h table => Sys2Proof.Machine.execFtableDestroy t h table s
  | .ftableQuery t h table => Sys2Proof.Machine.execFtableQuery t h table s
  | .generationStage t h table g log2Buckets base n => Sys2Proof.Machine.execGenerationStage t h table g log2Buckets base n s
  | .generationSeal t h table g => Sys2Proof.Machine.execGenerationSeal t h table g s
  | .generationCommit t h pairs => Sys2Proof.Machine.execGenerationCommit t h pairs s
  | .generationCommitBind t h pairs => Sys2Proof.Machine.execGenerationCommitBind t h pairs s
  | .generationDrop t h table g => Sys2Proof.Machine.execGenerationDrop t h table g s
  | .modelStage t h domain handle cAddr cLen bindings => Sys2Proof.Machine.execModelStage t h domain handle cAddr cLen bindings s
  | .modelRemove t h domain handle => Sys2Proof.Machine.execModelRemove t h domain handle s
  | .modelAbort t h domain => Sys2Proof.Machine.execModelAbort t h domain s
  | .modelCommit t h domain => Sys2Proof.Machine.execModelCommit t h domain s
  | .modelCommitWait t h domain => Sys2Proof.Machine.execModelCommitWait t h domain s
  | .modelQuery t h domain start max => Sys2Proof.Machine.execModelQuery t h domain start max s
  | .kernelLoad t h handle addr len => Sys2Proof.Machine.execKernelLoad t h handle addr len s
  | .kernelUnload t h handle => Sys2Proof.Machine.execKernelUnload t h handle s
  | .kernelLaunch t h d => Sys2Proof.Machine.execKernelLaunch t h d s
  | .memConfig t h recs => Sys2Proof.Machine.execMemConfig t h recs s
  | .memRetire t h addr => Sys2Proof.Machine.execMemRetire t h addr s
  | .fabricConfig t h recs => Sys2Proof.Machine.execFabricConfig t h recs s
  | .fabricLeave t h => Sys2Proof.Machine.execFabricLeave t h s
  | .fabricRelease t h serial => Sys2Proof.Machine.execFabricRelease t h serial s
  | .fabricWatchAdd t h addr => Sys2Proof.Machine.execFabricWatchAdd t h addr s
  | .fabricWatchRemove t h addr => Sys2Proof.Machine.execFabricWatchRemove t h addr s
  | .fabricStatus t h start max => Sys2Proof.Machine.execFabricStatus t h start max s
  | .counterRead t h ids => Sys2Proof.Machine.execCounterRead t h ids s
  | .counterReadClear t h ids => Sys2Proof.Machine.execCounterReadClear t h ids s
  | .rosemaryRead t h start max => Sys2Proof.Machine.execRosemaryRead t h start max s
  | .rosemaryFreeze t h => Sys2Proof.Machine.execRosemaryFreeze t h s
  | .rosemaryUnfreeze t h => Sys2Proof.Machine.execRosemaryUnfreeze t h s
  | .rosemaryClear t h upto => Sys2Proof.Machine.execRosemaryClear t h upto s
  | .traceConfig t h cluster ring mode post trig => Sys2Proof.Machine.execTraceConfig t h cluster ring mode post trig s
  | .traceMarkBegin t h cluster mark => Sys2Proof.Machine.execTraceMarkBegin t h cluster mark s
  | .traceMarkEnd t h cluster mark => Sys2Proof.Machine.execTraceMarkEnd t h cluster mark s
  | .waitforRead t h start max => Sys2Proof.Machine.execWaitforRead t h start max s
  | .quiesce t h => Sys2Proof.Machine.execQuiesce t h s
  | .quiesceRelease t h => Sys2Proof.Machine.execQuiesceRelease t h s
  | .globalStop t h => Sys2Proof.Machine.execGlobalStop t h s
  | .globalResume t h => Sys2Proof.Machine.execGlobalResume t h s
  | .updateOpen t h len => Sys2Proof.Machine.execUpdateOpen t h len s
  | .updateData t h offset data => Sys2Proof.Machine.execUpdateData t h offset data s
  | .updateFinish t h sigOk => Sys2Proof.Machine.execUpdateFinish t h sigOk s
  | .updateActivate t h => Sys2Proof.Machine.execUpdateActivate t h s
  | .updateConfirm t h => Sys2Proof.Machine.execUpdateConfirm t h s
  | .updateRollback t h => Sys2Proof.Machine.execUpdateRollback t h s
  | .updateAbort t h => Sys2Proof.Machine.execUpdateAbort t h s
  | .updateStatus t h => Sys2Proof.Machine.execUpdateStatus t h s
  | .attest t h nonce repAddr sig => Sys2Proof.Machine.execAttest t h nonce repAddr sig s
  | .certRead t h start max => Sys2Proof.Machine.execCertRead t h start max s
  | .sessionKeySet t h part kemCt wrapped => Sys2Proof.Machine.execSessionKeySet t h part kemCt wrapped s
  | .rightsSet t h part rights => Sys2Proof.Machine.execRightsSet t h part rights s
  | .debugUnlock t h tokAddr tokLen sigOk => Sys2Proof.Machine.execDebugUnlock t h tokAddr tokLen sigOk s
  | .bootStatus t h => Sys2Proof.Machine.execBootStatus t h s
  | .settingsSync t h => Sys2Proof.Machine.execSettingsSync t h s
  | .logRead t h start max => Sys2Proof.Machine.execLogRead t h start max s
  | .commandTimeout t via seq => Sys2Proof.Machine.execCommandTimeout t via seq s
  | .hello t f p => Sys2Proof.Machine.execHello t f p s
  | .helloPartExpiry t ifc seq => Sys2Proof.Machine.execHelloPartExpiry t ifc seq s
  | .keyFetch t f => Sys2Proof.Machine.execKeyFetch t f s
  | .ringWrite t f start entries => Sys2Proof.Machine.execRingWrite t f start entries s
  | .doorbellProduce t f idx => Sys2Proof.Machine.execDoorbellProduce t f idx s
  | .doorbellRelease t f idx => Sys2Proof.Machine.execDoorbellRelease t f idx s
  | .mboxReq t f h opcode => Sys2Proof.Machine.execMboxReq t f h opcode s
  | .winWrite t f offset data => Sys2Proof.Machine.execWinWrite t f offset data s
  | .winRead t f offset len => Sys2Proof.Machine.execWinRead t f offset len s
  | .flowTableLockSet t f pipe => Sys2Proof.Machine.execFlowTableLockSet t f pipe s
  | .flowTableLockClear t f pipe => Sys2Proof.Machine.execFlowTableLockClear t f pipe s
  | .hostClose t f status => Sys2Proof.Machine.execHostClose t f status s
  | .sessionIdleTimeout t sid => Sys2Proof.Machine.execSessionIdleTimeout t sid s
  | .ackSend t sid => Sys2Proof.Machine.execAckSend t sid s
  | .creditAck t sid ring => Sys2Proof.Machine.execCreditAck t sid ring s
  | .ringPush t ring => Sys2Proof.Machine.execRingPush t ring s
  | .contextFetch t ring check => Sys2Proof.Machine.execContextFetch t ring check s
  | .requestAdmit t ring => Sys2Proof.Machine.execRequestAdmit t ring s
  | .slotWaitExpiry t ring => Sys2Proof.Machine.execSlotWaitExpiry t ring s
  | .fenceEntry t ring => Sys2Proof.Machine.execFenceEntry t ring s
  | .fenceComplete t ring => Sys2Proof.Machine.execFenceComplete t ring s
  | .nopEntry t ring => Sys2Proof.Machine.execNopEntry t ring s
  | .commandEntry t ring => Sys2Proof.Machine.execCommandEntry t ring s
  | .ringFullStallExpiry t ring => Sys2Proof.Machine.execRingFullStallExpiry t ring s
  | .frameReceive t ifc bytes fcsOk sec => Sys2Proof.Machine.execFrameReceive t ifc bytes fcsOk sec s
  | .pfcReceive t ifc quanta => Sys2Proof.Machine.execPfcReceive t ifc quanta s
  | .arpNdEcho t ifc request => Sys2Proof.Machine.execArpNdEcho t ifc request s
  | .chiveParse t frame group fault => Sys2Proof.Machine.execChiveParse t frame group fault s
  | .chiveGroupRewrite t group => Sys2Proof.Machine.execChiveGroupRewrite t group s
  | .classify t frame r => Sys2Proof.Machine.execClassify t frame r s
  | .flowMissComplete t frame => Sys2Proof.Machine.execFlowMissComplete t frame s
  | .reverseLookupDone t slot => Sys2Proof.Machine.execReverseLookupDone t slot s
  | .packetModelWalk t frame core check => Sys2Proof.Machine.execPacketModelWalk t frame core check s
  | .pmWaitExpiry t frame => Sys2Proof.Machine.execPmWaitExpiry t frame s
  | .patternScanStart t engine => Sys2Proof.Machine.execPatternScanStart t engine s
  | .patternScanEnd t engine fault => Sys2Proof.Machine.execPatternScanEnd t engine fault s
  | .egressDecision t frame macBad => Sys2Proof.Machine.execEgressDecision t frame macBad s
  | .egHoldExpiry t frame => Sys2Proof.Machine.execEgHoldExpiry t frame s
  | .transmitSelect t ifc => Sys2Proof.Machine.execTransmitSelect t ifc s
  | .gateEntryAdvance t ifc => Sys2Proof.Machine.execGateEntryAdvance t ifc s
  | .gateListStart t ifc => Sys2Proof.Machine.execGateListStart t ifc s
  | .laneFail t port lane => Sys2Proof.Machine.execLaneFail t port lane s
  | .fallbackTimeout t port => Sys2Proof.Machine.execFallbackTimeout t port s
  | .linkUp t ifc => Sys2Proof.Machine.execLinkUp t ifc s
  | .linkDown t ifc => Sys2Proof.Machine.execLinkDown t ifc s
  | .bypassLinkTimeout t => Sys2Proof.Machine.execBypassLinkTimeout t s
  | .bypassRetryExpiry t => Sys2Proof.Machine.execBypassRetryExpiry t s
  | .bypassHoldExpiry t => Sys2Proof.Machine.execBypassHoldExpiry t s
  | .drainComplete t port => Sys2Proof.Machine.execDrainComplete t port s
  | .drainTimeout t port => Sys2Proof.Machine.execDrainTimeout t port s
  | .ptpMessageReceive t m => Sys2Proof.Machine.execPtpMessageReceive t m s
  | .ppsInEdge t highNs => Sys2Proof.Machine.execPpsInEdge t highNs s
  | .ppsOutPulse t => Sys2Proof.Machine.execPpsOutPulse t s
  | .bfdReceive t p => Sys2Proof.Machine.execBfdReceive t p s
  | .bfdTxTimer t ifc sess => Sys2Proof.Machine.execBfdTxTimer t ifc sess s
  | .bfdDetectTimeout t ifc sess => Sys2Proof.Machine.execBfdDetectTimeout t ifc sess s
  | .slotRunning t slot => Sys2Proof.Machine.execSlotRunning t slot s
  | .lookupJoinHold t home => Sys2Proof.Machine.execLookupJoinHold t home s
  | .localLookupDone t fetch check => Sys2Proof.Machine.execLocalLookupDone t fetch check s
  | .feLockRetry t fetch => Sys2Proof.Machine.execFeLockRetry t fetch s
  | .fetchEndTick t fetch => Sys2Proof.Machine.execFetchEndTick t fetch s
  | .walkComplete t core walk check => Sys2Proof.Machine.execWalkComplete t core walk check s
  | .shardRecopyDone t core domain handle check => Sys2Proof.Machine.execShardRecopyDone t core domain handle check s
  | .deadlineCutoff t slot => Sys2Proof.Machine.execDeadlineCutoff t slot s
  | .reduceGroupOpen t core ctx op len expected closeTick dest => Sys2Proof.Machine.execReduceGroupOpen t core ctx op len expected closeTick dest s
  | .reduceContribution t cluster group data => Sys2Proof.Machine.execReduceContribution t cluster group data s
  | .reduceCloseTick t cluster group => Sys2Proof.Machine.execReduceCloseTick t cluster group s
  | .kernelStart t core => Sys2Proof.Machine.execKernelStart t core s
  | .kernelImageLoadDone t core kernel check => Sys2Proof.Machine.execKernelImageLoadDone t core kernel check s
  | .kernelEnd t core ctx status => Sys2Proof.Machine.execKernelEnd t core ctx status s
  | .kernelMaxRunExpiry t core ctx => Sys2Proof.Machine.execKernelMaxRunExpiry t core ctx s
  | .vectorInstruction t core ctx fmt op sat dst a b c => Sys2Proof.Machine.execVectorInstruction t core ctx fmt op sat dst a b c s
  | .clusterStoreAtomic t core ctx dst addr wide op arg => Sys2Proof.Machine.execClusterStoreAtomic t core ctx dst addr wide op arg s
  | .clusterFence t core ctx acc => Sys2Proof.Machine.execClusterFence t core ctx acc s
  | .kernelMarkInsn t core ctx begin mark => Sys2Proof.Machine.execKernelMarkInsn t core ctx begin mark s
  | .dmaPost t core ctx addr => Sys2Proof.Machine.execDmaPost t core ctx addr s
  | .dmaComplete t core ctx => Sys2Proof.Machine.execDmaComplete t core ctx s
  | .matrixJobIssue t core ctx array addr => Sys2Proof.Machine.execMatrixJobIssue t core ctx array addr s
  | .matrixJobEnd t core array accFault => Sys2Proof.Machine.execMatrixJobEnd t core array accFault s
  | .reassignGraceExpiry t cluster => Sys2Proof.Machine.execReassignGraceExpiry t cluster s
  | .clusterResetDone t cluster => Sys2Proof.Machine.execClusterResetDone t cluster s
  | .rsUpdateDone t pipe recIdx jobFault => Sys2Proof.Machine.execRsUpdateDone t pipe recIdx jobFault s
  | .rsUpdateTimeout t pipe recIdx => Sys2Proof.Machine.execRsUpdateTimeout t pipe recIdx s
  | .baselineWindowClose t bl => Sys2Proof.Machine.execBaselineWindowClose t bl s
  | .generationRetire t table g => Sys2Proof.Machine.execGenerationRetire t table g s
  | .generationDropDone t table g => Sys2Proof.Machine.execGenerationDropDone t table g s
  | .epochRetire t domain => Sys2Proof.Machine.execEpochRetire t domain s
  | .modelCommitFlip t domain => Sys2Proof.Machine.execModelCommitFlip t domain s
  | .barrierComplete t part idx => Sys2Proof.Machine.execBarrierComplete t part idx s
  | .quiesceDone t => Sys2Proof.Machine.execQuiesceDone t s
  | .heartbeat t f => Sys2Proof.Machine.execHeartbeat t f s
  | .join t f m => Sys2Proof.Machine.execJoin t f m s
  | .joinReply t f status addr coord => Sys2Proof.Machine.execJoinReply t f status addr coord s
  | .view t f changes => Sys2Proof.Machine.execView t f changes s
  | .elect t f serial prio term highView => Sys2Proof.Machine.execElect t f serial prio term highView s
  | .lookup t f msgs => Sys2Proof.Machine.execLookup t f msgs s
  | .lookupReply t f msgs => Sys2Proof.Machine.execLookupReply t f msgs s
  | .put t f msgs => Sys2Proof.Machine.execPut t f msgs s
  | .putAck t f acked statuses => Sys2Proof.Machine.execPutAck t f acked statuses s
  | .fabricPost t core ctx ring entry => Sys2Proof.Machine.execFabricPost t core ctx ring entry s
  | .heartbeatSend t => Sys2Proof.Machine.execHeartbeatSend t s
  | .electSend t => Sys2Proof.Machine.execElectSend t s
  | .joinRetry t => Sys2Proof.Machine.execJoinRetry t s
  | .peerLossTimeout t peer => Sys2Proof.Machine.execPeerLossTimeout t peer s
  | .lostPeerProbe t peer => Sys2Proof.Machine.execLostPeerProbe t peer s
  | .lookupRto t tag => Sys2Proof.Machine.execLookupRto t tag s
  | .putRto t fseq => Sys2Proof.Machine.execPutRto t fseq s
  | .channelSuspectExpiry t peer channel => Sys2Proof.Machine.execChannelSuspectExpiry t peer channel s
  | .pwrgdRise t => Sys2Proof.Machine.execPwrgdRise t s
  | .pwrgdFall t => Sys2Proof.Machine.execPwrgdFall t s
  | .coldRstNFall t lowNs => Sys2Proof.Machine.execColdRstNFall t lowNs s
  | .coldRstNRise t b => Sys2Proof.Machine.execColdRstNRise t b s
  | .warmRstNFall t lowNs => Sys2Proof.Machine.execWarmRstNFall t lowNs s
  | .warmRstNRise t b => Sys2Proof.Machine.execWarmRstNRise t b s
  | .startWatchdogExpiry t b => Sys2Proof.Machine.execStartWatchdogExpiry t b s
  | .sdRefclkLoss t => Sys2Proof.Machine.execSdRefclkLoss t s
  | .sdRefclkReturn t => Sys2Proof.Machine.execSdRefclkReturn t s
  | .sysRefclkLoss t => Sys2Proof.Machine.execSysRefclkLoss t s
  | .freezeNFall t => Sys2Proof.Machine.execFreezeNFall t s
  | .freezeNRise t => Sys2Proof.Machine.execFreezeNRise t s
  | .jtagInstruction t boundary scope => Sys2Proof.Machine.execJtagInstruction t boundary scope s
  | .smbPwrCapWrite t value => Sys2Proof.Machine.execSmbPwrCapWrite t value s
  | .smbAlertStatusClear t ones => Sys2Proof.Machine.execSmbAlertStatusClear t ones s
  | .smbWriteRefused t offset value => Sys2Proof.Machine.execSmbWriteRefused t offset value s
  | .clusterThermalStep t cluster tempC => Sys2Proof.Machine.execClusterThermalStep t cluster tempC s
  | .xDieHot t tempC => Sys2Proof.Machine.execXDieHot t tempC s
  | .thermtrip t => Sys2Proof.Machine.execThermtrip t s
  | .voltageDroop t cluster => Sys2Proof.Machine.execVoltageDroop t cluster s
  | .powerSample t watts tjMax => Sys2Proof.Machine.execPowerSample t watts tjMax s
  | .ceilingUpdate t => Sys2Proof.Machine.execCeilingUpdate t s
  | .timeBeacon t island elapsed => Sys2Proof.Machine.execTimeBeacon t island elapsed s
  | .flowAgingPass t pipe entry raced => Sys2Proof.Machine.execFlowAgingPass t pipe entry raced s
  | .macAgingPass t entry raced => Sys2Proof.Machine.execMacAgingPass t entry raced s
  | .macPinRelease t entry => Sys2Proof.Machine.execMacPinRelease t entry s
  | .ruleScrubPass t pipe bad => Sys2Proof.Machine.execRuleScrubPass t pipe bad s
  | .tableEntryRewrite t table idx => Sys2Proof.Machine.execTableEntryRewrite t table idx s
  | .patrolScrub t line check => Sys2Proof.Machine.execPatrolScrub t line check s
  | .sramScrub t kind unit row check => Sys2Proof.Machine.execSramScrub t kind unit row check s
  | .mr4Poll t region channel rate => Sys2Proof.Machine.execMr4Poll t region channel rate s
  | .oscillatorTrack t region channel => Sys2Proof.Machine.execOscillatorTrack t region channel s
  | .pageRetire t addr => Sys2Proof.Machine.execPageRetire t addr s
  | .linkFlitReceive t link lane check flit attempt => Sys2Proof.Machine.execLinkFlitReceive t link lane check flit attempt s
  | .dieSilentTimeout t die => Sys2Proof.Machine.execDieSilentTimeout t die s
  | .devResetRunClear t => Sys2Proof.Machine.execDevResetRunClear t s
  | .isainHeartbeatMiss t core => Sys2Proof.Machine.execIsainHeartbeatMiss t core s
  | .isainRestartDone t undo => Sys2Proof.Machine.execIsainRestartDone t undo s
  | .hungSlotScan t => Sys2Proof.Machine.execHungSlotScan t s
  | .reinitRevoke t part => Sys2Proof.Machine.execReinitRevoke t part s
  | .orphanSlotFree t slot => Sys2Proof.Machine.execOrphanSlotFree t slot s
  | .spareTest t core passed => Sys2Proof.Machine.execSpareTest t core passed s
  | .coreRetire t core spareFails => Sys2Proof.Machine.execCoreRetire t core spareFails s
  | .settingsAppend t len => Sys2Proof.Machine.execSettingsAppend t len s
  | .updateLockExpiry t => Sys2Proof.Machine.execUpdateLockExpiry t s
  | .rosemaryRecord t kind unit data => Sys2Proof.Machine.execRosemaryRecord t kind unit data s
  | .rosemaryLogCopy t => Sys2Proof.Machine.execRosemaryLogCopy t s
  | .dillDrain t cluster => Sys2Proof.Machine.execDillDrain t cluster s
  | .pfcPauseExpiry t ifc prio => Sys2Proof.Machine.execPfcPauseExpiry t ifc prio s
  | .flowLearnComplete t pipe recIdx => Sys2Proof.Machine.execFlowLearnComplete t pipe recIdx s
  | .deviceResetApply t b => Sys2Proof.Machine.execDeviceResetApply t b s
  | .wallTimeHoldover t => Sys2Proof.Machine.execWallTimeHoldover t s

end Sys2Proof.Machine
end

