-- ==== Sys2Proof/Safety.lean ====
section
/-! DEFINITION. What a good state and a safe run are, in the terms the statements use. -/

namespace Sys2Proof.Machine

/-- Every counter fits in 64 bits (R457). -/
def Observe.countersFit (o : Observe) : Prop := ∀ e ∈ o.counters, e.2 ≤ 2 ^ 64 - 1

/-- Rosemary holds at most 16,384 records; their numbers rise, and none reaches the next number to be
given (R446). -/
def Observe.rosemaryGood (o : Observe) : Prop :=
  o.rm.length ≤ rmCapacity ∧ (o.rm.map (·.seq)).Pairwise (· < ·) ∧ ∀ r ∈ o.rm, r.seq < o.rmSeq

/-- A good state: device memory is in its canonical form (R327), and the observability store keeps
its bounds (R446, R457). -/
structure State.Good (s : State) : Prop where
  mem : s.mem.wf = true
  counters : s.obs.countersFit
  rosemary : s.obs.rosemaryGood

/-- The fuses are those of manufacture, but for the anti-rollback counter, which has not fallen (R416,
R419). -/
def FusedAs (f : Fuses) (s : State) : Prop :=
  s.fuses = { f with svn := s.fuses.svn } ∧ f.svn ≤ s.fuses.svn

/-- The state a step answers; none where it stops. -/
def nextOf (o : Host.Outcome State Fault Refusal) : Option State :=
  match o with
  | .next s => some s
  | .fault _ => none
  | .refused _ => none

/-- A good state that keeps a queue and fuses: what every meaning but one keeps. -/
structure Sound (q : List Instr) (f : Fuses) (s : State) : Prop where
  queue : s.pending = q
  fuses : s.fuses = f
  good : s.Good

/-- What a command that Isain runs carries: its time, its header and its form (R383, R388 to R404). The other
rows are frames, pins and events of the block. -/
def commandOf : Instr → Option (Nat × CmdHdr × CmdForm)
  | .deviceReset t h => some (t, h, { op := 0x0101, stop := true })
  | .deviceResetTest t h => some (t, h, { op := 0x0101, stop := true })
  | .deviceShutdown t h => some (t, h, { op := 0x0102 })
  | .powerConfig t h recs => some (t, h, { op := 0x0103, resv := resvRec recs })
  | .settingsReadForm t h cmd recs => some (t, h, { op := setOp cmd, rd := 1, resv := resvRec recs, late := true })
  | .bypassForce t h => some (t, h, { op := 0x0104 })
  | .bypassReleaseForce t h => some (t, h, { op := 0x0104 })
  | .bypassRearm t h => some (t, h, { op := 0x0104 })
  | .partitionReinit t h _ => some (t, h, { op := 0x0105 })
  | .partitionEnable t h _ => some (t, h, { op := 0x0201 })
  | .partitionDisable t h _ => some (t, h, { op := 0x0201 })
  | .partitionConfig t h recs => some (t, h, { op := 0x0202, resv := idxOf? partResv recs })
  | .partitionQuery t h _ => some (t, h, { op := 0x0203 })
  | .clusterAssign t h _ _ _ => some (t, h, { op := 0x0204 })
  | .clusterConfig t h recs => some (t, h, { op := 0x0205, resv := resvRec recs, late := true })
  | .coreMapRead t h _ _ => some (t, h, { op := 0x0206 })
  | .ringCreate t h _ => some (t, h, { op := 0x0301 })
  | .ringConfig t h _ => some (t, h, { op := 0x0302 })
  | .ringAttach t h _ _ => some (t, h, { op := 0x0303 })
  | .ringDetach t h _ => some (t, h, { op := 0x0303 })
  | .ringDestroy t h _ => some (t, h, { op := 0x0304 })
  | .ringQuery t h _ => some (t, h, { op := 0x0305, stop := true })
  | .ringRepush t h _ _ _ => some (t, h, { op := 0x0306 })
  | .barrier t h _ _ => some (t, h, { op := 0x0307, late := true })
  | .slotQuery t h _ => some (t, h, { op := 0x0308, stop := true })
  | .portConfig t h recs => some (t, h, { op := 0x0401, resv := resvRec recs })
  | .portDrain t h _ => some (t, h, { op := 0x0402 })
  | .portResume t h _ => some (t, h, { op := 0x0403 })
  | .portStatus t h _ => some (t, h, { op := 0x0404, stop := true })
  | .portTxFrame t h _ _ => some (t, h, { op := 0x0405 })
  | .macsecSaInstall t h _ => some (t, h, { op := 0x0406 })
  | .macsecSaRemove t h _ _ _ _ => some (t, h, { op := 0x0407 })
  | .windowOpen t h _ _ _ _ _ => some (t, h, { op := 0x0408 })
  | .windowClose t h _ _ => some (t, h, { op := 0x0409 })
  | .bfdSessionSet t h _ _ _ _ _ _ => some (t, h, { op := 0x040A })
  | .bfdSessionRemove t h _ _ => some (t, h, { op := 0x040A })
  | .timeRead t h => some (t, h, { op := 0x0501, stop := true })
  | .ptpConfig t h recs => some (t, h, { op := 0x0502, resv := resvRec recs })
  | .parseLoad t h _ _ _ _ => some (t, h, { op := 0x0601 })
  | .parseCommit t h _ => some (t, h, { op := 0x0602 })
  | .parseConfig t h recs => some (t, h, { op := 0x0603, resv := resvRec recs })
  | .spreadConfig t h _ => some (t, h, { op := 0x0604, late := true })
  | .patternLoad t h _ _ _ _ _ => some (t, h, { op := 0x0605 })
  | .classConfig t h recs => some (t, h, { op := 0x0701, resv := resvRec recs, late := true })
  | .ruleWrite t h _ rows _ =>
      some (t, h, { op := 0x0702, resv := idxOf? (fun e : Nat × RuleRow => rowResv e.2) rows, late := true })
  | .ruleRead t h _ _ _ => some (t, h, { op := 0x0703 })
  | .prefixAdd t h _ _ _ _ => some (t, h, { op := 0x0704 })
  | .prefixDel t h _ _ _ => some (t, h, { op := 0x0705 })
  | .prefixRead t h _ _ _ _ _ => some (t, h, { op := 0x0706 })
  | .macStaticAdd t h _ _ _ => some (t, h, { op := 0x0707 })
  | .macStaticRemove t h _ _ => some (t, h, { op := 0x0707 })
  | .macRead t h _ _ => some (t, h, { op := 0x0708 })
  | .macFlush t h _ _ => some (t, h, { op := 0x0709 })
  | .flowDelete t h _ _ _ => some (t, h, { op := 0x070A })
  | .flowRead t h _ _ => some (t, h, { op := 0x070B })
  | .flowTableConfig t h recs => some (t, h, { op := 0x070C, resv := resvRec recs, late := true })
  | .egressConfig t h recs => some (t, h, { op := 0x0801, resv := resvRec recs })
  | .policerConfig t h recs => some (t, h, { op := 0x0802, resv := resvRec recs })
  | .gateListSet t h _ _ _ _ => some (t, h, { op := 0x0803 })
  | .gateListRemove t h _ => some (t, h, { op := 0x0803 })
  | .queueStats t h _ => some (t, h, { op := 0x0804 })
  | .queueStatsClear t h _ => some (t, h, { op := 0x0804 })
  | .baselineCreate t h _ _ => some (t, h, { op := 0x0901 })
  | .baselineChange t h _ _ => some (t, h, { op := 0x0901 })
  | .baselineDelete t h _ => some (t, h, { op := 0x0901 })
  | .baselineRead t h _ => some (t, h, { op := 0x0902 })
  | .ftableCreate t h _ _ => some (t, h, { op := 0x0A01, late := true })
  | .ftableDestroy t h _ => some (t, h, { op := 0x0A02 })
  | .ftableQuery t h _ => some (t, h, { op := 0x0A03, stop := true })
  | .generationStage t h _ _ _ _ _ => some (t, h, { op := 0x0A04 })
  | .generationSeal t h _ _ => some (t, h, { op := 0x0A05 })
  | .generationCommit t h _ => some (t, h, { op := 0x0A06, late := true })
  | .generationCommitBind t h _ => some (t, h, { op := 0x0A06, late := true })
  | .generationDrop t h _ _ => some (t, h, { op := 0x0A07 })
  | .modelStage t h _ _ _ _ _ => some (t, h, { op := 0x0B01 })
  | .modelRemove t h _ _ => some (t, h, { op := 0x0B02 })
  | .modelAbort t h _ => some (t, h, { op := 0x0B03 })
  | .modelCommit t h _ => some (t, h, { op := 0x0B04 })
  | .modelCommitWait t h _ => some (t, h, { op := 0x0B04 })
  | .modelQuery t h _ _ _ => some (t, h, { op := 0x0B05, stop := true })
  | .kernelLoad t h _ _ _ => some (t, h, { op := 0x0B06 })
  | .kernelUnload t h _ => some (t, h, { op := 0x0B07 })
  | .kernelLaunch t h d =>
      some (t, h, { op := 0x0B08, resv := if d.resvBad then some noDetail else none })
  | .memConfig t h recs => some (t, h, { op := 0x0C01, resv := resvRec recs })
  | .memRetire t h _ => some (t, h, { op := 0x0C02 })
  | .fabricConfig t h recs => some (t, h, { op := 0x0D01, resv := resvRec recs })
  | .fabricLeave t h => some (t, h, { op := 0x0D02 })
  | .fabricRelease t h _ => some (t, h, { op := 0x0D03 })
  | .fabricWatchAdd t h _ => some (t, h, { op := 0x0D04 })
  | .fabricWatchRemove t h _ => some (t, h, { op := 0x0D04 })
  | .fabricStatus t h _ _ => some (t, h, { op := 0x0D05, stop := true })
  | .counterRead t h _ => some (t, h, { op := 0x0E01, stop := true })
  | .counterReadClear t h _ => some (t, h, { op := 0x0E01, stop := true })
  | .rosemaryRead t h _ _ => some (t, h, { op := 0x0E02, stop := true })
  | .rosemaryFreeze t h => some (t, h, { op := 0x0E03, stop := true })
  | .rosemaryUnfreeze t h => some (t, h, { op := 0x0E03, stop := true })
  | .rosemaryClear t h _ => some (t, h, { op := 0x0E04, stop := true })
  | .traceConfig t h _ _ _ _ trig => some (t, h, { op := 0x0E05, resv := trigResv trig })
  | .traceMarkBegin t h _ _ => some (t, h, { op := 0x0E06 })
  | .traceMarkEnd t h _ _ => some (t, h, { op := 0x0E06 })
  | .waitforRead t h _ _ => some (t, h, { op := 0x0E07, stop := true })
  | .quiesce t h => some (t, h, { op := 0x0E08 })
  | .quiesceRelease t h => some (t, h, { op := 0x0E08 })
  | .globalStop t h => some (t, h, { op := 0x0E09, stop := true })
  | .globalResume t h => some (t, h, { op := 0x0E0A, stop := true })
  | .updateOpen t h _ => some (t, h, { op := 0x0F01 })
  | .updateData t h _ _ => some (t, h, { op := 0x0F02 })
  | .updateFinish t h _ => some (t, h, { op := 0x0F03 })
  | .updateActivate t h => some (t, h, { op := 0x0F04 })
  | .updateConfirm t h => some (t, h, { op := 0x0F05 })
  | .updateRollback t h => some (t, h, { op := 0x0F06 })
  | .updateAbort t h => some (t, h, { op := 0x0F07 })
  | .updateStatus t h => some (t, h, { op := 0x0F08, stop := true })
  | .attest t h _ _ _ => some (t, h, { op := 0x1001 })
  | .certRead t h _ _ => some (t, h, { op := 0x1002, stop := true })
  | .sessionKeySet t h _ _ _ => some (t, h, { op := 0x1003 })
  | .rightsSet t h _ rights => some (t, h, { op := 0x1004, resv := rightsResv rights })
  | .debugUnlock t h _ _ _ => some (t, h, { op := 0x1005 })
  | .bootStatus t h => some (t, h, { op := 0x1101, stop := true })
  | .settingsSync t h => some (t, h, { op := 0x1102 })
  | .logRead t h _ _ => some (t, h, { op := 0x1103, stop := true })
  | .commandTimeout .. => none
  | .hello .. => none
  | .helloPartExpiry .. => none
  | .keyFetch .. => none
  | .ringWrite .. => none
  | .doorbellProduce .. => none
  | .doorbellRelease .. => none
  | .mboxReq .. => none
  | .winWrite .. => none
  | .winRead .. => none
  | .flowTableLockSet .. => none
  | .flowTableLockClear .. => none
  | .hostClose .. => none
  | .sessionIdleTimeout .. => none
  | .ackSend .. => none
  | .creditAck .. => none
  | .ringPush .. => none
  | .contextFetch .. => none
  | .requestAdmit .. => none
  | .slotWaitExpiry .. => none
  | .fenceEntry .. => none
  | .fenceComplete .. => none
  | .nopEntry .. => none
  | .commandEntry .. => none
  | .ringFullStallExpiry .. => none
  | .frameReceive .. => none
  | .pfcReceive .. => none
  | .arpNdEcho .. => none
  | .chiveParse .. => none
  | .chiveGroupRewrite .. => none
  | .classify .. => none
  | .flowMissComplete .. => none
  | .reverseLookupDone .. => none
  | .packetModelWalk .. => none
  | .pmWaitExpiry .. => none
  | .patternScanStart .. => none
  | .patternScanEnd .. => none
  | .egressDecision .. => none
  | .egHoldExpiry .. => none
  | .transmitSelect .. => none
  | .gateEntryAdvance .. => none
  | .gateListStart .. => none
  | .laneFail .. => none
  | .fallbackTimeout .. => none
  | .linkUp .. => none
  | .linkDown .. => none
  | .bypassLinkTimeout .. => none
  | .bypassRetryExpiry .. => none
  | .bypassHoldExpiry .. => none
  | .drainComplete .. => none
  | .drainTimeout .. => none
  | .ptpMessageReceive .. => none
  | .ppsInEdge .. => none
  | .ppsOutPulse .. => none
  | .bfdReceive .. => none
  | .bfdTxTimer .. => none
  | .bfdDetectTimeout .. => none
  | .slotRunning .. => none
  | .lookupJoinHold .. => none
  | .localLookupDone .. => none
  | .feLockRetry .. => none
  | .fetchEndTick .. => none
  | .walkComplete .. => none
  | .shardRecopyDone .. => none
  | .deadlineCutoff .. => none
  | .reduceGroupOpen .. => none
  | .reduceContribution .. => none
  | .reduceCloseTick .. => none
  | .kernelStart .. => none
  | .kernelImageLoadDone .. => none
  | .kernelEnd .. => none
  | .kernelMaxRunExpiry .. => none
  | .vectorInstruction .. => none
  | .clusterStoreAtomic .. => none
  | .clusterFence .. => none
  | .kernelMarkInsn .. => none
  | .dmaPost .. => none
  | .dmaComplete .. => none
  | .matrixJobIssue .. => none
  | .matrixJobEnd .. => none
  | .reassignGraceExpiry .. => none
  | .clusterResetDone .. => none
  | .rsUpdateDone .. => none
  | .rsUpdateTimeout .. => none
  | .baselineWindowClose .. => none
  | .generationRetire .. => none
  | .generationDropDone .. => none
  | .epochRetire .. => none
  | .modelCommitFlip .. => none
  | .barrierComplete .. => none
  | .quiesceDone .. => none
  | .heartbeat .. => none
  | .join .. => none
  | .joinReply .. => none
  | .view .. => none
  | .elect .. => none
  | .lookup .. => none
  | .lookupReply .. => none
  | .put .. => none
  | .putAck .. => none
  | .fabricPost .. => none
  | .heartbeatSend .. => none
  | .electSend .. => none
  | .joinRetry .. => none
  | .peerLossTimeout .. => none
  | .lostPeerProbe .. => none
  | .lookupRto .. => none
  | .putRto .. => none
  | .channelSuspectExpiry .. => none
  | .pwrgdRise .. => none
  | .pwrgdFall .. => none
  | .coldRstNFall .. => none
  | .coldRstNRise .. => none
  | .warmRstNFall .. => none
  | .warmRstNRise .. => none
  | .startWatchdogExpiry .. => none
  | .sdRefclkLoss .. => none
  | .sdRefclkReturn .. => none
  | .sysRefclkLoss .. => none
  | .freezeNFall .. => none
  | .freezeNRise .. => none
  | .jtagInstruction .. => none
  | .smbPwrCapWrite .. => none
  | .smbAlertStatusClear .. => none
  | .smbWriteRefused .. => none
  | .clusterThermalStep .. => none
  | .xDieHot .. => none
  | .thermtrip .. => none
  | .voltageDroop .. => none
  | .powerSample .. => none
  | .ceilingUpdate .. => none
  | .timeBeacon .. => none
  | .flowAgingPass .. => none
  | .macAgingPass .. => none
  | .macPinRelease .. => none
  | .ruleScrubPass .. => none
  | .tableEntryRewrite .. => none
  | .patrolScrub .. => none
  | .sramScrub .. => none
  | .mr4Poll .. => none
  | .oscillatorTrack .. => none
  | .pageRetire .. => none
  | .linkFlitReceive .. => none
  | .dieSilentTimeout .. => none
  | .devResetRunClear .. => none
  | .isainHeartbeatMiss .. => none
  | .isainRestartDone .. => none
  | .hungSlotScan .. => none
  | .reinitRevoke .. => none
  | .orphanSlotFree .. => none
  | .spareTest .. => none
  | .coreRetire .. => none
  | .settingsAppend .. => none
  | .updateLockExpiry .. => none
  | .rosemaryRecord .. => none
  | .rosemaryLogCopy .. => none
  | .dillDrain .. => none
  | .pfcPauseExpiry .. => none
  | .flowLearnComplete .. => none
  | .deviceResetApply .. => none
  | .wallTimeHoldover .. => none

/-! ### When a command runs -/

/-- Isain answers, and holds a command that passes steps 1 to 4 of R383: its lengths and reserved bits
are right, it carries listed values and flags only (R7, R380), it comes from the partition of its carrier,
where it is in flight (R86, R100), which is enabled and has the token it names, the device's state allows
it, and the record of its change fits the settings store (R372). -/
structure Ready (h : CmdHdr) (op : Nat) (stop : Bool) (s : State) : Prop where
  up : s.isainUp = true
  carrier : s.carrierPart h op = some h.part
  lengths : h.lenBad = false
  reserved : h.resvBad = false
  listed : unlisted h op = false
  room : h.fullBad = false
  space : s.bay.full = false
  enabled : (s.part h.part).enabled = true
  token : (s.part h.part).token = h.token
  allowed : s.stateAllows op stop = true

/-- A session frame of the row's type that passes the checks of R73 and R78 in session `x`, and has no
reserved bit set. -/
structure Accepted (t : Nat) (f : OuvHdr) (want : Nat) (x : Session) (s : State) : Prop where
  entry : (s.at t).enter f want = .session x
  reserved : f.resvBad = false

/-- The state in which an accepted session frame acts: its number is in its session's record (R78). -/
def State.heard (t : Nat) (f : OuvHdr) (x : Session) (s : State) : State :=
  (s.at t).modSession f.sid fun _ => x.accept f.seq (s.at t).tick

/-- A session frame that has acted is acknowledged where it asks for it (R80); the last that its session may
carry closes it (R77). -/
def State.ackedBy (f : OuvHdr) (s : State) : State :=
  (if f.ackReq then s.owe f.sid f.seq else s).closeWorn f.sid

end Sys2Proof.Machine
end

