-- ==== Sys2Proof/Certificates/Slice0/Obligations.lean ====
section
/-! DEFINITION. The statements for the provers: what the commands of each chapter do, the rules of the whole
machine, and the invariants that every step keeps. -/

section

open Sys2Proof Sys2Proof.Machine

/-- A step is the command at the front of the queue, run with the queue's rest; on an empty queue the block
idles (log entry 1: the model's choice). -/
def Obligations.StepRunsFront : Prop :=
  (∀ (c : Instr) (q : List Instr) (s : State), s.pending = c :: q →
    step s = exec c { s with pending := q }) ∧
  ∀ s : State, s.pending = [] → step s = .next s

/-- R34, R446, R457, R50, R87, R408: what reset leaves: the tick is 0, no counter has counted, Rosemary is
empty and numbers from 1, no ring exists, no session is open, every request slot is free, the staging record
is empty, and the device state is the ROM's. -/
def Obligations.ResetValues : Prop :=
  State.reset.pending = [] ∧ State.reset.tick = 0 ∧ (∀ id scope, State.reset.counter id scope = 0) ∧
  State.reset.obs.rm = [] ∧ State.reset.obs.rmSeq = 1 ∧ (∀ n, State.reset.ringMade n = false) ∧
  State.reset.ouv.sessions = [] ∧ (∀ k, (State.reset.slot k).state = .free) ∧
  State.reset.bay.stg.state = 0xF ∧ State.reset.bay.lock = none ∧
  State.reset.pkg.capBmc = 90 ∧ State.reset.pkg.pkgPower = 0 ∧ State.reset.pkg.clkMin = 0 ∧
  State.reset.pkg.alert = 0 ∧ State.reset.pkg.lastReset = 1 ∧ State.reset.devStateCode = 1 ∧
  State.reset.alive = false ∧ State.reset.running = false

/-- The invariant of `GoodKept` holds at reset. -/
def Obligations.ResetIsGood : Prop :=
  State.reset.Good

/-- R327, R446, R457: every step keeps memory in its canonical form, every counter within 64 bits, and
Rosemary within its 16,384 records with rising numbers below the next one to be given. -/
def Obligations.GoodKept : Prop :=
  ∀ s s' : State, s.Good → step s = .next s' → s'.Good

/-- R416, R419: no step changes a fuse of manufacture, and the anti-rollback counter never falls. -/
def Obligations.FusesKept : Prop :=
  ∀ (f : Fuses) (s s' : State), FusedAs f s → step s = .next s' → FusedAs f s'

/-- Every command of the table answers a next state, from every state, and takes nothing from the queue but
itself (the model has no stop: NOTES.md, "Stops"). -/
def Obligations.CommandsAlwaysAnswer : Prop :=
  ∀ (c : Instr) (s : State), ∃ s', exec c s = .next s' ∧ s'.pending = s.pending

/-- R7, R383, R23: the first four checks of every command Isain runs, in their order: a bad length or
reserved bit, another partition than the carrier's, a disabled partition or a stale token, and a state of
the device that does not allow it. Each is answered with its status, and nothing else happens but the count
of a reserved bit. A command that passes them with a value no table lists, or a flag it does not define, is
refused for it, or before it for an object that does not exist or a right that is missing. A command that
no carrier holds, or that finds Isain silent, does nothing. -/
def Obligations.RefusalOrder : Prop :=
  ∀ (i : Instr) (t : Nat) (h : CmdHdr) (c : CmdForm) (s : State), commandOf i = some (t, h, c) →
    (s.isainUp = false ∨ s.carrierPart h c.op = none → exec i s = .next (s.at t)) ∧
    (∀ owner, s.isainUp = true → s.carrierPart h c.op = some owner →
      (h.lenBad = true → h.resvBad = false → c.resv = none →
        exec i s = .next ((s.at t).answerRd h c.op c.rd .eArg noDetail [])) ∧
      (h.resvBad = true → exec i s =
        .next (((s.at t).count Ctr.cmdResvRefused h.part).answerRd h c.op c.rd .eArg noDetail [])) ∧
      (∀ k, h.lenBad = false → h.resvBad = false → c.resv = some k → exec i s =
        .next (((s.at t).count Ctr.cmdResvRefused h.part).answerRd h c.op c.rd .eArg k [])) ∧
      (h.lenBad = false → h.resvBad = false → c.resv = none →
        (h.part ≠ owner →
          exec i s = .next ((s.at t).answerRd h c.op c.rd .ePriv noDetail [])) ∧
        (h.part = owner →
          ((s.part h.part).enabled = false ∨ (s.part h.part).token ≠ h.token →
            exec i s = .next ((s.at t).answerRd h c.op c.rd .eState noDetail [])) ∧
          ((s.part h.part).enabled = true → (s.part h.part).token = h.token →
            s.stateAllows c.op c.stop = false →
            exec i s = .next ((s.at t).answerRd h c.op c.rd .eState noDetail [])) ∧
          ((s.part h.part).enabled = true → (s.part h.part).token = h.token →
            s.stateAllows c.op c.stop = true → unlisted h c.op = true →
            ∃ (st : Status) (detail : Nat), (st = .eState ∨ st = .ePriv ∨ st = .eArg) ∧
              exec i s = .next ((s.at t).answerRd h c.op c.rd st detail [])))))

/-- R380, R383, R23: an answer goes back on the command's carrier and touches nothing else: the session's
record and its frame's control queue, or the completion ring, device memory and what is observed. A command
that Isain had taken when it stopped answering gets no answer. -/
def Obligations.AnswersTouchOnlyCarriers : Prop :=
  ∀ (h : CmdHdr) (op rd : Nat) (st : Status) (detail : Nat) (body : List Nat) (s : State),
    (s.answerRd h op rd st detail body) = { s with
      rings := (s.answerRd h op rd st detail body).rings
      mem := (s.answerRd h op rd st detail body).mem
      obs := (s.answerRd h op rd st detail body).obs
      ouv := (s.answerRd h op rd st detail body).ouv
      eg := (s.answerRd h op rd st detail body).eg
      bay := (s.answerRd h op rd st detail body).bay
      sent := (s.answerRd h op rd st detail body).sent } ∧
    (∀ sid, h.via = .mbox sid → (s.answerRd h op rd st detail body).mem = s.mem) ∧
    (∀ n, h.via = .ring n →
      (s.answerRd h op rd st detail body).ouv = s.ouv ∧
      (s.answerRd h op rd st detail body).eg = s.eg) ∧
    (s.isainUp = false ∨ s.flight h ∈ s.bay.mute → s.answerRd h op rd st detail body = s.hush h)

/-- R30, R32, R34, R35: what the package's power and reset pins do. `PWRGD` rising arms the thermal trip and
restarts nothing; falling, it loses all state but flash and fuses and ends the run of device resets; a
reset pin going low for 2 µs takes its reset, and `last_reset` says which; a shorter low is ignored. R367,
R368, R370: a reset pin going high, with power good and nothing else holding the device, begins the start;
with the recovery strap the ROM serves alone. R367: a start of a slot that passes step 4 and whose
sections pass reaches step 15: the device is running, at the typical tick of step 15. R441, R442, R368,
R389: device resets. The third reset in a row without 10 min running stops the device for a power cycle
instead; the start watchdog ends a start that hangs; `DEVICE_RESET` is answered and falls due 1 ms later.
R37, R19, R38, R472, R475, R27: reference clocks, the time beacon, 1PPS, `FREEZE_N` and JTAG. R40 to R44,
R50, R29: power samples, ceilings, heat, droop and the SMBus registers. R42, R44, R386: `POWER_CONFIG`
with one record of each setting. R47, R48: bypass force, release and re-arm, and the bypass timers. R48,
R37: bypass going low, and the line ports in electrical idle: the pin's request is low and the four line
interfaces have no link; nothing outside the package and the interfaces changes. R473, R475: a global stop
stops the islands, and they resume only when no stop of the K4's own remains and `FREEZE_N` reads high. -/
def Obligations.PowerResetAndClocks : Prop :=
  (∀ (t : Nat) (s : State),
     exec (.pwrgdRise t) s =
       .next ((s.at t).updPkg fun p => { p with pwrgd := true, tripArmed := true }) ∧
     (∃ s' : State, exec (.pwrgdFall t) s = .next s' ∧ s'.pkg.pwrgd = false ∧ s'.pkg.tripArmed = false ∧
       s'.pkg.halt = .powerLost ∧ s'.pkg.lastReset = 1 ∧ s'.bay.devResetRun = 0 ∧ s'.mem.bytes = [] ∧
       s'.comp = {} ∧ s'.rings = {} ∧ s'.obs.rm = [] ∧ s'.bay.store = s.bay.store ∧ s'.bay.dir = s.bay.dir ∧
       s'.bay.log = s.bay.log ∧ s'.fuses = s.fuses ∧ s'.pending = s.pending ∧ s'.sent = s.sent) ∧
     (∀ lowNs, lowNs < 2000 → exec (.coldRstNFall t lowNs) s = .next (s.at t) ∧
       exec (.warmRstNFall t lowNs) s = .next (s.at t)) ∧
     (∀ lowNs, 2000 ≤ lowNs → s.pkg.coldLow = false → s.pkg.pwrgd = true → s.pkg.halt = .none →
       ∃ s' : State, exec (.coldRstNFall t lowNs) s = .next s' ∧ s'.pkg.coldLow = true ∧ s'.pkg.lastReset = 3 ∧
         s'.pkg.devState = .rom ∧ s'.bay.devResetRun = 0 ∧ s'.mem.bytes = [] ∧ s'.ouv.sessions = [] ∧
         s'.rings = {} ∧ s'.bay.store = s.bay.store ∧ s'.fuses = s.fuses ∧ s'.sent = s.sent) ∧
     (∀ lowNs, 2000 ≤ lowNs → s.pkg.warmLow = false → s.pkg.coldLow = false →
       ∃ s' : State, exec (.warmRstNFall t lowNs) s = .next s' ∧ s'.pkg.warmLow = true ∧ s'.pkg.lastReset = 2 ∧
         s'.pkg.devState = .rom ∧ s'.bay.devResetRun = s.bay.devResetRun ∧ s'.mem.bytes = [] ∧
         s'.ouv.sessions = [] ∧ s'.rings = {} ∧ s'.bay.store = s.bay.store ∧ s'.fuses = s.fuses ∧
         s'.sent = s.sent)) ∧
  (∀ (t : Nat) (b : BootIn) (s : State), s.pkg.pwrgd = true → s.pkg.halt = .powerLost →
     s.pkg.coldLow = true →
     (s.pkg.warmLow = false →
       exec (.coldRstNRise t b) s =
         .next (((s.at t).updPkg fun p => { p with coldLow := false, halt := .none }).start b)) ∧
     (s.pkg.warmLow = true →
       exec (.coldRstNRise t b) s =
         .next ((s.at t).updPkg fun p => { p with coldLow := false, halt := .none }))) ∧
  (∀ (t : Nat) (b : BootIn) (s : State), s.pkg.pwrgd = true → s.pkg.halt = .none →
     (s.pkg.coldLow = true → s.pkg.warmLow = false →
       exec (.coldRstNRise t b) s =
         .next (((s.at t).updPkg fun p => { p with coldLow := false }).start b)) ∧
     (s.pkg.warmLow = true → s.pkg.coldLow = false →
       exec (.warmRstNRise t b) s =
         .next (((s.at t).updPkg fun p => { p with warmLow := false }).start b)) ∧
     (s.pkg.coldLow = true → s.pkg.warmLow = false → b.recovery = true → 3 ≤ b.last →
       ∃ s' : State, exec (.coldRstNRise t b) s = .next s' ∧ s'.pkg.devState = .recovery ∧ s'.bay.runMode = 3 ∧
         s'.bay.runSlot = 3 ∧ s'.fuses = s.fuses)) ∧
  (∀ (b : BootIn) (k late : Nat) (cold : Bool) (s : State), b.last = 15 → s.loadBad b k = false →
     (s.startRun cold late b k).pkg.devState = .running ∧ (s.startRun cold late b k).bay.step14 = true ∧
     (s.startRun cold late b k).bay.step15 = true ∧ (s.startRun cold late b k).bay.watchdogDue = none ∧
     (s.startRun cold late b k).tick = late + if cold then 3000000000 else 2485000000) ∧
  (∀ (t : Nat) (b : BootIn) (h : CmdHdr) (s : State),
     (∀ d, s.alive = true → s.bay.resetDue = some d → d ≤ max s.tick t →
       exec (.deviceResetApply t b) s = .next ((s.at t).deviceReset b) ∧
       (3 ≤ s.bay.devResetRun →
         ∃ s' : State, exec (.deviceResetApply t b) s = .next s' ∧ s'.pkg.devState = .stopped ∧
           s'.pkg.halt = .cycleNeeded ∧ s'.bay.step15 = false ∧ s'.bay.resetDue = none)) ∧
     (∀ d, s.alive = true → s.bay.watchdogDue = some d → d ≤ max s.tick t →
       exec (.startWatchdogExpiry t b) s =
         .next ((((s.at t).startFailed).bootLog 0xFFFFFFFF 1 s.bay.runSlot).deviceReset b)) ∧
     (∀ d, s.running = true → s.bay.runningSince = some d → d + 600000000000 ≤ max s.tick t →
       exec (.devResetRunClear t) s = .next ((s.at t).updBay fun y => { y with devResetRun := 0 })) ∧
     (Ready h 0x0101 true s → h.part = 0 →
       (∃ s' : State, exec (.deviceReset t h) s = .next (s'.answer h 0x0101 .ok noDetail []) ∧
         s'.pkg.bypass.reqHigh = false ∧
         s'.bay.resetDue = some (match s.bay.resetDue with
           | some d => min d (max s.tick t + 1000000)
           | none => max s.tick t + 1000000) ∧
         s' = { s.at t with pkg := s'.pkg, bay := { s.bay with resetDue := s'.bay.resetDue } }) ∧
       (∃ s' : State, exec (.deviceResetTest t h) s = .next (s'.answer h 0x0101 .ok noDetail []) ∧
         s'.bay.dir = { s.bay.dir with nextMode := 1, seq := s.bay.dir.seq + 1 } ∧
         s'.bay.resetDue.isSome = true))) ∧
  (∀ (t : Nat) (s : State),
     (s.alive = true → s.pkg.sdClock = true →
       exec (.sdRefclkLoss t) s = .next ((((((s.at t).updPkg fun p => { p with
         sdClock := false }).modBypass fun b => { b with
           holdDue := if b.reqHigh then some (max s.tick t + b.hold) else b.holdDue }).bypassLow.portsIdle).portRecord
             0 5).portRecord 2 5)) ∧
     (s.alive = false → s.pkg.sdClock = true →
       exec (.sdRefclkLoss t) s = .next ((s.at t).updPkg fun p => { p with sdClock := false })) ∧
     (s.pkg.sdClock = false →
       exec (.sdRefclkReturn t) s =
         .next ((s.at t).updPkg fun p => { p with sdClock := true }).tryArm) ∧
     (s.pkg.pwrgd = true → s.pkg.coldLow = false → s.pkg.halt = .none → s.pkg.sysClock = true →
       exec (.sysRefclkLoss t) s = .next ((s.at t).bypassLow.portsIdle.updPkg fun p => { p with
         sysClock := false, halt := .clockLost, ppsOut := none })) ∧
     (∀ highNs, s.alive = true → 100 ≤ highNs → highNs ≤ 900000000 →
       exec (.ppsInEdge t highNs) s = .next ((s.at t).updPkg fun p => { p with
         ppsIn := some ((s.at t).wallWord (s.at t).tick / 8 * 8) })) ∧
     (∀ w, s.alive = true → (s.at t).wallAt (s.at t).tick = some w → w % 1000000000 = 0 →
       exec (.ppsOutPulse t) s = .next ((s.at t).updPkg fun p => { p with ppsOut := some (s.at t).tick })) ∧
     (∀ k, s.pkg.ppsOut = some k → (s.ppsOutHigh = true ↔ s.tick < k + 100000000)) ∧
     (s.pkg.ppsOut = none → s.ppsOutHigh = false) ∧
     (s.obs.freezeLow = false → s.running = true → s.obs.islandsStopped = false →
       exec (.freezeNFall t) s =
         .next (((s.at t).updObs fun o => { o with freezeLow := true }).stopIslands 1)) ∧
     (s.obs.freezeLow = true →
       exec (.freezeNRise t) s =
         .next ((s.at t).updObs fun o => { o with freezeLow := false }).tryResume) ∧
     (∀ boundary scope, s.pkg.pwrgd = true →
       exec (.jtagInstruction t boundary scope) s = .next ((s.at t).updPkg fun p => { p with
         lastJtag := some (if boundary then (if s.pkg.coldLow then 1 else 0)
           else if s.pkg.jtagScopes.testBit scope then 2 + scope else 0) }))) ∧
  (∀ (t : Nat) (s : State),
     (∀ watts tj, s.alive = true →
       exec (.powerSample t watts tj) s = .next ((s.at t).updPkg fun p => { p with
         powerSamples := lastN 1000 (p.powerSamples ++ [watts])
         pkgPower := average (lastN 1000 (p.powerSamples ++ [watts]))
         tjMax := tj })) ∧
     (s.running = true →
       exec (.ceilingUpdate t) s =
         .next ((((s.at t).govern).mapClusters fun c => { c with droop := false }).setRails)) ∧
     (∀ c temp, s.running = true → c < 256 →
       ∃ s' : State, exec (.clusterThermalStep t c temp) s = .next s' ∧ (s'.cluster c).tempC = temp ∧
         (s'.cluster c).thermal = (if 100 ≤ temp then s.clockLimit c - 50
           else if temp < 98 then min 3300 ((s.cluster c).thermal + 50) else (s.cluster c).thermal) ∧
         s' = { s.at t with comp := s'.comp, pkg := s'.pkg, obs := s'.obs }) ∧
     (∀ temp : Int, s.alive = true → 105 ≤ temp →
       ∃ s' : State, exec (.xDieHot t temp) s = .next s' ∧ s'.pkg = { s.pkg with alert := s.pkg.alert ||| 1 } ∧
         s' = { s.at t with pkg := s'.pkg, obs := s'.obs }) ∧
     (s.pkg.pwrgd = true → s.pkg.tripArmed = true →
       exec (.thermtrip t) s = .next (((s.at t).bypassLow.portsIdle.modIfc 4 fun i => { i with
         link := false }).updPkg fun p => { p with
         thermtrip := true, halt := .thermal, ppsOut := none })) ∧
     (∀ c, s.running = true → c < 256 →
       exec (.voltageDroop t c) s = .next ((s.at t).modCluster c fun x => { x with droop := true })) ∧
     (∀ v, s.smbUp = true → 40 ≤ v → v ≤ 90 →
       ∃ s' : State, exec (.smbPwrCapWrite t v) s = .next s' ∧ s'.pkg.capBmc = v ∧
         (s'.pkg.envelope < 900 → s'.pkg.alert = s.pkg.alert ||| 2) ∧
         s' = { s.at t with pkg := s'.pkg, obs := s'.obs }) ∧
     (∀ ones, s.smbUp = true →
       exec (.smbAlertStatusClear t ones) s =
         .next ((s.at t).updPkg fun p => { p with alert := p.alert &&& ~~~ones })) ∧
     (∀ off v, exec (.smbWriteRefused t off v) s = .next (s.at t))) ∧
  (∀ (t v : Nat) (len : Nat) (h : CmdHdr) (s : State), Ready h 0x0103 false s → h.part = 0 → 1 ≤ len →
     len ≤ 256 →
     (400 ≤ v → v ≤ 900 →
       ∃ s' : State, exec (.powerConfig t h [{ id := 1, scope := 0, len := len, value := v, resvBad := false }]) s =
           .next (s'.answer h 0x0103 .ok noDetail []) ∧
         s'.pkg.capP0 = v ∧ s'.pkg.envelope = min 900 (min v (s.pkg.capBmc * 10)) ∧
         s' = { s.at t with pkg := s'.pkg, obs := s'.obs, bay := s'.bay }) ∧
     (1000 ≤ v → v ≤ 3300 → v % 50 = 0 →
       ∃ s' : State, exec (.powerConfig t h [{ id := 2, scope := 0, len := len, value := v, resvBad := false }]) s =
           .next (s'.answer h 0x0103 .ok noDetail []) ∧
         s'.pkg.floorMhz = v ∧
         (∀ e ∈ s'.comp.clusters, e.2.ofPacketPath = true → v ≤ e.2.clkCap) ∧
         ((s.partitionsLow && s.comp.clusters.any fun e => e.2.ofPartition) = false →
           ∀ e ∈ s'.comp.clusters, e.2.ofPacketPath = true → v ≤ e.2.ceiling) ∧
         s' = { s.at t with pkg := s'.pkg, comp := s'.comp, obs := s'.obs, bay := s'.bay }) ∧
     (v < 400 ∨ 900 < v →
       exec (.powerConfig t h [{ id := 1, scope := 0, len := len, value := v, resvBad := false }]) s =
         .next ((s.at t).answer h 0x0103 .eRange 0 []))) ∧
  (∀ (t : Nat) (h : CmdHdr) (s : State),
     (Ready h 0x0104 false s → h.part = 0 →
       (∃ s' : State, exec (.bypassForce t h) s = .next (s'.answer h 0x0104 .ok noDetail []) ∧
         s'.pkg.bypass = { s.pkg.bypass with forced := true, reqHigh := false, linkDue := none } ∧
         s' = { s.at t with pkg := s'.pkg }) ∧
       (exec (.bypassReleaseForce t h) s =
         .next ((((s.at t).modBypass fun b => { b with forced := false }).tryArm).answer h 0x0104 .ok
           noDetail [])) ∧
       (exec (.bypassRearm t h) s =
         .next ((((s.at t).modBypass fun b => { b with failRun := 0, retryDue := none }).tryArm).answer h
           0x0104 .ok noDetail []))) ∧
     (∀ d, s.alive = true → s.pkg.bypass.linkDue = some d → d ≤ max s.tick t →
       ∃ s' : State, exec (.bypassLinkTimeout t) s = .next s' ∧ s'.pkg.bypass.reqHigh = false ∧
         s'.pkg.bypass.failRun = s.pkg.bypass.failRun + 1 ∧
         s'.pkg.bypass.retryDue = (if s.pkg.bypass.failRun + 1 < 3 then
           some (max s.tick t + s.pkg.bypass.retry) else none) ∧
         s' = { s.at t with pkg := s'.pkg, obs := s'.obs }) ∧
     (∀ d, s.alive = true → s.pkg.bypass.retryDue = some d → d ≤ max s.tick t →
       exec (.bypassRetryExpiry t) s =
         .next ((s.at t).modBypass fun b => { b with retryDue := none }).tryArm) ∧
     (∀ d, s.alive = true → s.pkg.bypass.holdDue = some d → d ≤ max s.tick t →
       exec (.bypassHoldExpiry t) s =
         .next ((s.at t).modBypass fun b => { b with holdDue := none }).tryArm)) ∧
  (∀ s : State,
     s.bypassLow.pkg.bypass = { s.pkg.bypass with reqHigh := false, linkDue := none } ∧
     (s.pairs ≠ [] → s.bypassLow.pkg.alert = s.pkg.alert ||| 8) ∧
     s.bypassLow = { s with pkg := s.bypassLow.pkg } ∧
     (∀ i < 4, (s.portsIdle.ifc i).link = false) ∧ s.portsIdle.ifc 4 = s.ifc 4 ∧
     s.portsIdle = { s with ifcs := s.portsIdle.ifcs }) ∧
  (∀ (cause : Nat) (s : State),
     (s.stopIslands cause).obs.islandsStopped = true ∧
     (s.stopIslands cause).pkg.bypass.reqHigh = false ∧
     (s.stopIslands cause).moving = false ∧
     ((s.obs.ownStop = true ∨ s.obs.freezeLow = true) → s.tryResume = s) ∧
     (s.obs.islandsStopped = true → s.obs.ownStop = false → s.obs.freezeLow = false →
       s.tryResume.obs.islandsStopped = false))

/-- R19: an island's copy of the tick at a beacon, where no host marker is on its way to it: the first lock
loads the master's tick; a copy ahead of the master holds; one behind gains at most 2 ns for each ns since
its last beacon, and never passes the master. Only that island's copy changes. -/
def Obligations.BeaconSlews : Prop :=
  ∀ (t island elapsed : Nat) (s : State), s.alive = true → (s.cluster island).dill.marks = [] →
    (tget s.islandTick island = none →
      ∃ s' : State, exec (.timeBeacon t island elapsed) s = .next s' ∧
        s'.islandTick = tset s.islandTick island (max s.tick t, max s.tick t) ∧
        s' = { s.at t with islandTick := s'.islandTick, comp := s'.comp } ∧
        ∀ k, s'.cluster k = s.cluster k) ∧
    (∀ c last, tget s.islandTick island = some (c, last) →
      ∃ (s' : State) (c' : Nat), exec (.timeBeacon t island elapsed) s = .next s' ∧
        s'.islandTick = tset s.islandTick island (c', max s.tick t) ∧
        s' = { s.at t with islandTick := s'.islandTick, comp := s'.comp } ∧
        (∀ k, s'.cluster k = s.cluster k) ∧
        c ≤ c' ∧ c' ≤ c + 2 * max elapsed (max s.tick t - last) ∧ (max s.tick t < c → c' = c) ∧
        (c ≤ max s.tick t → c' ≤ max s.tick t))

/-- R47: the bypass pin goes high only while every condition for it holds; otherwise an attempt to arm it
changes nothing. -/
def Obligations.BypassArmsOnlyWhenAllowed : Prop :=
  ∀ s : State, (s.canArm = false → s.tryArm = s) ∧
    (s.canArm = true → s.tryArm.pkg.bypass.reqHigh = true ∧ s.running = true ∧ s.pkg.sdClock = true ∧
      s.pkg.bypass.forced = false ∧ s.pkg.bypass.failRun < 3 ∧
      (∀ i ∈ s.members, (s.port (portOf i)).drain = .inService) ∧
      s.tryArm = { s with pkg := { s.pkg with bypass := s.tryArm.pkg.bypass } })

/-- R61, R393, R65, R171: the commands on ports and interfaces. A drain starts and its answer waits for step
4 of R61; a drained port resumes; a host's frame of a length the interface takes joins its control queue, and
on the service port, which has none, a frame of R71's kinds leaves at once (log entry 128); a secure
association is installed where its channel or a place for one is held. R393: `PORT_STATUS` and
`TIME_READ`, which any partition may send, also while the islands stop: they answer what the state holds and
change nothing else. R70: BFD sessions. A received packet moves a session as RFC 5880 says and restarts its
detect time, and one with the Poll bit is answered at once; one with the A bit is dropped and counted; the
transmit timer sends the session's state, no more often than the peer asks for; the detect timeout takes it
down. R68, R393: what PTP messages and the loss of the transmitter do to wall time. The offset comes from a
one-step `Sync`, or from a `Sync` and its `Follow_Up`, less the path delay; every one is followed by a
`Delay_Req`, and the answer to it gives the path delay. A first offset, and one that passes `ptp_step_limit`,
step wall time by exactly that offset; a smaller one slews it, toward the master, by at most 500 ppm of the
time since the last; a stopped transmitter leaves it in holdover. R47, R48, R62, R56: links and lanes. A link that trains is up, and every
member link up clears the failure run; a link lost drops bypass for a member and starts `bypass_hold`; a
failed lane makes an `800G` port with `lane_fallback` fall back to its healthy half, else takes the
interface down; ARP, ND and echo are answered for the interface's own addresses. -/
def Obligations.PortsLinksAndTime : Prop :=
  (∀ (t : Nat) (h : CmdHdr) (s : State), h.part = 0 →
     (∀ port, port < 2 → Ready h 0x0402 false s →
       ((s.port port).drain = .drained →
         exec (.portDrain t h port) s = .next ((s.at t).answer h 0x0402 .ok noDetail [])) ∧
       ((s.port port).drain = .inService →
         ∃ s' : State, exec (.portDrain t h port) s = .next s' ∧
           s'.port port = { s.port port with drain := .draining (max s.tick t) [h] } ∧
           ((∃ i ∈ s.portIfcs port, (s.partner i).isSome = true) → s'.pkg.bypass.reqHigh = false) ∧
           s' = { s.at t with ports := s'.ports, pkg := s'.pkg })) ∧
     (∀ port, port < 2 → Ready h 0x0403 false s → (s.port port).drain = .drained →
       ∃ s' : State, exec (.portResume t h port) s = .next (s'.answer h 0x0403 .ok noDetail []) ∧
         s'.port port = { s.port port with drain := .inService } ∧
         s' = { s.at t with ports := s'.ports, pkg := s'.pkg }) ∧
     (∀ port, port < 2 → Ready h 0x0403 false s → (s.port port).drain ≠ .drained →
       exec (.portResume t h port) s = .next ((s.at t).answer h 0x0403 .eState noDetail [])) ∧
     (∀ ifc bytes, Ready h 0x0405 false s → 60 ≤ bytes.length →
       bytes.length + 4 ≤ (s.ifc ifc).maxFrame →
       (ifc < 4 → (s.ifc ifc).link = true → s.bufferUse + (bytes.length + 4) ≤ s.sharedBuffer →
         ∃ s' : State, exec (.portTxFrame t h ifc bytes) s = .next (s'.answer h 0x0405 .ok noDetail []) ∧
           (tgetD s'.eg.queues (qKey ifc 8) {}).ctl =
             (tgetD s.eg.queues (qKey ifc 8) {}).ctl ++
               [(max s.tick t, bytes.length + 4, .line ifc 8 bytes true none)] ∧
           s' = { s.at t with eg := { s.eg with queues := s'.eg.queues } }) ∧
       (ifc < 4 → (s.ifc ifc).link = true → s.sharedBuffer < s.bufferUse + (bytes.length + 4) →
         exec (.portTxFrame t h ifc bytes) s =
           .next (((s.at t).count Ctr.txCtlDrop ifc).answer h 0x0405 .ok noDetail [])) ∧
       (ifc = 4 → (s.ifc ifc).link = true → s.serviceFrame bytes = true →
         exec (.portTxFrame t h ifc bytes) s =
           .next (((s.at t).out (.line 4 8 bytes true none)).answer h 0x0405 .ok noDetail [])) ∧
       (ifc = 4 → s.serviceFrame bytes = false →
         exec (.portTxFrame t h ifc bytes) s = .next ((s.at t).answer h 0x0405 .eArg noDetail [])) ∧
       (ifc < 4 → (s.ifc ifc).link = false →
         exec (.portTxFrame t h ifc bytes) s = .next ((s.at t).answer h 0x0405 .eState noDetail []))) ∧
     (∀ sa : SaSpec, Ready h 0x0406 false s → sa.ifc < 4 → sa.sc < 16 → sa.an < 4 →
       (sa.transmit = true → (∀ e ∈ (s.ifc sa.ifc).txSas, e.1 / 4 = sa.sc) →
         ∃ s' : State, exec (.macsecSaInstall t h sa) s = .next (s'.answer h 0x0406 .ok noDetail []) ∧
           tget (s'.ifc sa.ifc).txSas (saKey sa.sc sa.an) = some { xpn := sa.xpn, ssci := sa.ssci, sci := sa.sci, nextPn := sa.nextPn, salt := sa.salt, sak := sa.sak } ∧
           (s'.ifc sa.ifc).txEver = true ∧ s' = { s.at t with ifcs := s'.ifcs }) ∧
       (sa.transmit = false → (saChannels (s.ifc sa.ifc).rxSas).length < 16 →
         ∃ s' : State, exec (.macsecSaInstall t h sa) s = .next (s'.answer h 0x0406 .ok noDetail []) ∧
           tget (s'.ifc sa.ifc).rxSas (saKey sa.sc sa.an) = some { xpn := sa.xpn, ssci := sa.ssci, sci := sa.sci, nextPn := sa.nextPn, salt := sa.salt, sak := sa.sak } ∧
           (s'.ifc sa.ifc).txSas = (s.ifc sa.ifc).txSas ∧
           s' = { s.at t with ifcs := s'.ifcs })) ∧
     (∀ ifc transmit sc an, Ready h 0x0407 false s → ifc < 4 → sc < 16 → an < 4 →
       exec (.macsecSaRemove t h ifc transmit sc an) s = .next (((s.at t).modIfc ifc fun i =>
         if transmit then { i with txSas := tdel i.txSas (saKey sc an) }
         else { i with rxSas := tdel i.rxSas (saKey sc an) }).answer h 0x0407 .ok noDetail []))) ∧
  (∀ (t : Nat) (h : CmdHdr) (s : State),
     (∀ port, port < 2 → Ready h 0x0404 true s →
       exec (.portStatus t h port) s = .next ((s.at t).answer h 0x0404 .ok noDetail
         (pack ((s.portIfcs port).flatMap fun i =>
           [(1, bit (s.ifc i).link), (1, bit ((s.port port).drain == .drained)),
            (1, bit (s.port port).fallenBack), (2, (s.port port).mode),
            (8, (s.port port).lanesFailed.toNat), (1, bit s.pkg.bypass.reqHigh)])))) ∧
     (∀ port, 2 ≤ port → Ready h 0x0404 true s →
       exec (.portStatus t h port) s = .next ((s.at t).answer h 0x0404 .eRange noDetail [])) ∧
     (Ready h 0x0501 true s →
       exec (.timeRead t h) s = .next ((s.at t).answer h 0x0501 .ok noDetail
         (pack [(64, max s.tick t), (64, s.wallWord (max s.tick t)), (2, s.wall.state),
           (32, low 32 s.wall.lastOffset), (32, s.wall.steps)])))) ∧
  (∀ (t : Nat) (h : CmdHdr) (ifc sess : Nat) (s : State), ifc < 4 → sess < 8 →
     (∀ txUs rxUs mult peer, Ready h 0x040A false s → h.part = 0 → 1000 ≤ txUs → txUs ≤ 1000000 →
       1000 ≤ rxUs → rxUs ≤ 1000000 → 3 ≤ mult → mult ≤ 50 →
       ∃ s' : State, exec (.bfdSessionSet t h ifc sess txUs rxUs mult peer) s =
           .next (s'.answer h 0x040A .ok noDetail []) ∧
         s'.bfd ifc sess = some (match s.bfd ifc sess with
           | some b => { b with
               txUs := txUs, rxUs := rxUs, mult := mult, peer := peer
               polling := b.polling || (b.state == 3 && (b.txUs != txUs || b.rxUs != rxUs))
               txHeld := if b.state = 3 ∧ b.txNow < txUs then some b.txNow else none
               rxHeld := if b.state = 3 ∧ rxUs < b.rxNow then some b.rxNow else none }
           | none => { txUs := txUs, rxUs := rxUs, mult := mult, peer := peer, txDue := max s.tick t }) ∧
         s' = { s.at t with ifcs := s'.ifcs, bay := s'.bay }) ∧
     (Ready h 0x040A false s → h.part = 0 →
       ∃ s' : State, exec (.bfdSessionRemove t h ifc sess) s =
           .next (s'.answer h 0x040A .ok noDetail []) ∧
         s'.bfd ifc sess = none ∧ s' = { s.at t with ifcs := s'.ifcs, bay := s'.bay }) ∧
     (∀ p : BfdPkt, p.ifc = ifc → p.sess = sess → s.moving = true → (s.ifc ifc).role ≠ 0 →
       (p.authBit = true → exec (.bfdReceive t p) s = .next ((s.at t).count Ctr.bfdAuthDrop ifc)) ∧
       (∀ b, p.authBit = false → bfdVoid p b = true → s.bfd ifc sess = some b →
         exec (.bfdReceive t p) s = .next (s.at t)) ∧
       (∀ b, p.authBit = false → bfdVoid p b = false → s.bfd ifc sess = some b →
         ∃ (u : State) (b' : Bfd), b' = { b with
             state := bfdNext b.state p.state
             remoteDisc := p.myDisc
             remoteState := p.state
             remoteMinRx := p.rxUs
             polling := (b.polling && !p.final) ||
               (bfdNext b.state p.state == 3 && b.state != 3 && decide (b.txUs < 1000000))
             txHeld := if p.final then none else b.txHeld
             rxHeld := if p.final then none else b.rxHeld
             detectDue := some (max s.tick t +
               p.mult * max (if p.final then b.rxUs else b.rxNow) p.txUs * 1000) } ∧
           u.bfd ifc sess = some b' ∧ u = { s.at t with ifcs := u.ifcs } ∧
           exec (.bfdReceive t p) s = .next (if p.poll then u.bfdSend ifc sess b' true else u))) ∧
     (∀ b final, s.bufferUse + udpLen b.peer 24 ≤ s.sharedBuffer →
       (tgetD (s.bfdSend ifc sess b final).eg.queues (qKey ifc 8) {}).ctl =
         (tgetD s.eg.queues (qKey ifc 8) {}).ctl ++
           [(s.tick, udpLen b.peer 24, b.packet ifc sess final)]) ∧
     (∀ b, s.moving = true → s.bay.shutdown = false → s.bay.resetDue = none → (s.ifc ifc).role ≠ 0 →
       s.bfd ifc sess = some b → b.txDue ≤ max s.tick t →
       (b.remoteMinRx = 0 → exec (.bfdTxTimer t ifc sess) s = .next (s.at t)) ∧
       (b.remoteMinRx ≠ 0 → ∃ (u : State) (us : Nat), b.txUs ≤ us ∧ b.remoteMinRx ≤ us ∧
         u.bfd ifc sess = some { b with txDue := max s.tick t + us * 1000 } ∧
         u = { s.at t with ifcs := u.ifcs } ∧
         exec (.bfdTxTimer t ifc sess) s = .next (u.bfdSend ifc sess b false))) ∧
     (∀ b d, s.moving = true → s.bfd ifc sess = some b → b.detectDue = some d → d ≤ max s.tick t →
       ∃ s' : State, exec (.bfdDetectTimeout t ifc sess) s = .next s' ∧
         s'.bfd ifc sess = some { b with
           state := (if b.state = 0 then 0 else 1), detectDue := none, remoteDisc := 0 } ∧
         s' = { s.at t with ifcs := s'.ifcs })) ∧
  (∀ (t : Nat) (m : PtpMsg) (s : State),
     (s.running = true → m.ifc = s.wall.ptpPort → m.transport = s.wall.ptpTransport →
       m.domain = s.wall.ptpDomain → (s.ifc m.ifc).role ≠ 0 →
       (m.kind = 11 → exec (.ptpMessageReceive t m) s =
         .next ((s.at t).updWall fun w => w.announce (max s.tick t) m.source m.rank)) ∧
       (m.kind ≠ 11 → s.wall.master (max s.tick t) ≠ some m.source →
         exec (.ptpMessageReceive t m) s = .next (s.at t)) ∧
       (s.wall.master (max s.tick t) = some m.source →
       (∀ y : SyncHeld, m.kind = 0 → y = {
           seq := m.seq, tick := max s.tick t, wall := s.wallAt (max s.tick t)
           waits := m.twoStep, correction := m.correction } →
         exec (.ptpMessageReceive t m) s = .next (if m.twoStep
           then (s.at t).updWall fun w => { w with sync := some y }
           else (s.at t).takeSync m.stamp y)) ∧
       (∀ y, m.kind = 8 → s.wall.sync = some y → y.waits = true → y.seq = m.seq →
         exec (.ptpMessageReceive t m) s = .next ((s.at t).takeSync (m.stamp + m.correction) y)) ∧
       (∀ t3, m.kind = 9 → s.wall.delaySent = some (m.seq, t3) → m.dest = s.ptpIdentity →
         exec (.ptpMessageReceive t m) s = .next ((s.at t).updWall fun w => { w with
           delaySent := none, pathDelay := (w.msDelay + (m.stamp - m.correction - t3)) / 2 })))) ∧
     (∀ (origin d : Int) (y : SyncHeld),
       d = y.tick + s.wall.offset - origin - y.correction - s.wall.pathDelay →
       ∃ s' : State, s.takeSync origin y = s' ∧ s'.wall.state = 1 ∧ s'.wall.sync = none ∧
         s'.wall.lastOffset = d ∧ s'.wall.lastPtp = s.tick ∧
         s'.wall.delaySeq = (s.wall.delaySeq + 1) % 65536 ∧
         (s.wall.state = 0 → s'.wall.offset = s.wall.offset - d ∧ s'.wall.steps = s.wall.steps) ∧
         (s.wall.state ≠ 0 → s.wall.ptpStepLimit < d.natAbs →
           s'.wall.offset = s.wall.offset - d ∧ s'.wall.steps = s.wall.steps + 1) ∧
         (s.wall.state ≠ 0 → d.natAbs ≤ s.wall.ptpStepLimit →
           s' = { s with wall := s'.wall, eg := s'.eg, obs := s'.obs, sent := s'.sent,
                         freeCount := s'.freeCount } ∧
           (s.wall.ptpPort < 4 → s.bufferUse + delayReqLen s.wall.ptpTransport ≤ s.sharedBuffer →
             (tgetD s'.eg.queues (qKey s.wall.ptpPort 8) {}).ctl =
               (tgetD s.eg.queues (qKey s.wall.ptpPort 8) {}).ctl ++
                 [(s.tick, delayReqLen s.wall.ptpTransport, .ptp s.wall.ptpPort s.wall.delaySeq none)]) ∧
           ∃ k : Nat, k ≤ d.natAbs ∧ k ≤ (s.tick - s.wall.lastPtp) * 500 / 1000000 ∧
             s'.wall.offset = s.wall.offset - d.sign * k ∧ s'.wall.steps = s.wall.steps)) ∧
     (s.alive = true → s.wall.state = 1 →
       exec (.wallTimeHoldover t) s = .next ((s.at t).updWall fun w => { w with state := 2 }))) ∧
  (∀ (t ifc port lane : Nat) (s : State),
     (s.running = true → s.pkg.sdClock = true → ifc ∈ s.lineIfcs → ifc < 4 → (s.ifc ifc).role ≠ 0 →
       (s.ifc ifc).link = false → (s.port (portOf ifc)).downUntilConfig = false →
       ∃ s' : State, exec (.linkUp t ifc) s = .next s' ∧ (s'.ifc ifc).link = true ∧
         (s'.port (portOf ifc)).fallbackDue = none ∧
         (s.pkg.bypass.reqHigh = true → (∀ i ∈ s.members, i = ifc ∨ (s.ifc i).link = true) →
           s'.pkg.bypass.failRun = 0 ∧ s'.pkg.bypass.linkDue = none ∧ s'.pkg.bypass.reqHigh = true)) ∧
     (s.alive = true → (s.ifc 4).link = false → 5000000 ≤ max s.tick t →
       ∃ s' : State, exec (.linkUp t 4) s = .next s' ∧ (s'.ifc 4).link = true) ∧
     (s.alive = true → (s.ifc ifc).link = true →
       ∃ s' : State, exec (.linkDown t ifc) s = .next s' ∧ (s'.ifc ifc).link = false ∧
         (ifc ∈ s.members → s.pkg.bypass.reqHigh = true → s'.pkg.bypass.reqHigh = false ∧
           s'.pkg.bypass.holdDue = some (max s.tick t + s.pkg.bypass.hold)) ∧
         (ifc ∉ s.members → s'.pkg = s.pkg)) ∧
     (s.running = true → port < 2 → lane < 8 → (s.port port).mode = 0 →
       ∃ s' : State, exec (.laneFail t port lane) s = .next s' ∧
         (s'.port port).lanesFailed = (s.port port).lanesFailed ||| BitVec.ofNat 8 (2 ^ lane) ∧
         ((s.port port).laneFallback = true → (s.port port).fallenBack = false →
           oneHalf ((s.port port).lanesFailed ||| BitVec.ofNat 8 (2 ^ lane)) = true →
           (s'.port port).fallenBack = true ∧ (s'.ifc (2 * port)).link = false ∧
           (s'.port port).fallbackDue = some (max s.tick t + (s.port port).fallbackTimeout)) ∧
         ((s.port port).laneFallback = false ∨
             oneHalf ((s.port port).lanesFailed ||| BitVec.ofNat 8 (2 ^ lane)) = false →
           (s'.ifc (2 * port)).link = false ∧ (s'.port port).fallbackDue = none) ∧
         ((s.port port).laneFallback = true → (s.port port).fallenBack = true →
           oneHalf ((s.port port).lanesFailed ||| BitVec.ofNat 8 (2 ^ lane)) = true →
           s' = { s.at t with ports := s'.ports })) ∧
     (∀ d, s.running = true → (s.port port).fallbackDue = some d → d ≤ max s.tick t →
       ∃ s' : State, exec (.fallbackTimeout t port) s = .next s' ∧
         (s'.port port).downUntilConfig = true ∧ (s'.port port).fallbackDue = none ∧
         (s'.ifc (2 * port)).link = false) ∧
     (∀ request, s.alive = true → s.bay.isainUp = true → (s.ifc ifc).link = true →
       (ifc = 4 ∨ (s.moving = true ∧ ifc ∈ s.lineIfcs ∧ (s.ifc ifc).role ≠ 0)) →
       s.localKind ifc request = some .arpNdEcho →
       (∀ reply, replyTo (s.ifc ifc).tpidExtra (s.mac ifc) request = some reply →
         exec (.arpNdEcho t ifc request) s = .next ((s.at t).control ifc reply)) ∧
       (replyTo (s.ifc ifc).tpidExtra (s.mac ifc) request = none →
         exec (.arpNdEcho t ifc request) s = .next (s.at t))))

/-- R73, R78: a session frame with a bad header, an unknown session, a bad tag or a `seq` already accepted
is dropped and counted; no session changes and nothing is sent. It holds for every session frame. R74, R75,
R76: session set-up. `KEY_FETCH` sends the piece it names; a lone `HELLO` part waits, at most 256 of them
and at most 100 ms; the second part opens a session for the partition it names where the checks of R76 all
pass, and is refused with the first status of R76's table otherwise. R83, R91: an accepted `RING_WRITE` for
a ring whose context is cached. Every entry lies below the credit limit, or nothing is written and the frame
is refused with `E_NOSPACE`. R93, R94: doorbells on cached rings. A producer index above `prod_idx` and
within the credit makes the entries below it available; one that does not rise is counted stale; one beyond
the credit is refused. A release index between `limit_idx` and `push_idx` frees the entries below it. R86,
R82: an `MBOX_REQ`. A new command sequence number is held in flight; a repeat of one in flight does nothing;
a repeat of one answered gets the kept response; a seventeenth gets `BUSY`; an opcode that no table gives is
held and refused with `E_ARG`. R72, R78, R83: a frame of a session takes its next `seq`, carries one due credit
limit and the tag under `k_d2h`, and waits in its interface's control queue. R84, R85, R393: windows.
`WINDOW_OPEN` opens a free window, `WINDOW_CLOSE` closes one; an access to an open window with its right, of
whole words, within 4 to 8,192 bytes and within the window, reads or writes that memory; a refused write
changes nothing. R77, R81, R83: closing, idle time, acknowledgements and credits, where neither direction has
carried its 2^48 frames. -/
def Obligations.SessionsOfOuvlen : Prop :=
  (∀ (t : Nat) (f : OuvHdr) (want : Nat) (i : Instr) (s : State),
     ((∃ start es, (i, want) = (.ringWrite t f start es, 0x6)) ∨
       (∃ p, (i, want) = (.doorbellProduce t f p, 0x7)) ∨ (∃ p, (i, want) = (.doorbellRelease t f p, 0x7)) ∨
       (∃ h op, (i, want) = (.mboxReq t f h op, 0x9)) ∨ (∃ o d, (i, want) = (.winWrite t f o d, 0xB)) ∨
       (∃ o n, (i, want) = (.winRead t f o n, 0xC)) ∨ (∃ st, (i, want) = (.hostClose t f st, 0xF)) ∨
       (∃ p, (i, want) = (.flowTableLockSet t f p, 0xB)) ∨
       (∃ p, (i, want) = (.flowTableLockClear t f p, 0xB))) →
     s.hears f.ifc = true → (f.ifc < 4 → s.obs.islandsStopped = false) → f.overrun = false →
     (s.badHeader f want true = true → exec i s = .next ((s.at t).count Ctr.ouvBadHdr 0)) ∧
     (s.badHeader f want true = false → s.session f.sid = none →
       exec i s = .next ((s.at t).count Ctr.ouvNoSession 0)) ∧
     (∀ x, s.badHeader f want true = false → s.session f.sid = some x →
       (f.tagOk = false → exec i s = .next ((s.at t).count Ctr.ouvTagFail 0)) ∧
       (f.tagOk = true → f.seq ≤ x.highSeq → (x.highSeq < f.seq + 1025 → f.seq ∈ x.seen) →
         exec i s = .next ((s.at t).count Ctr.ouvReplay 0)))) ∧
  (∀ (t : Nat) (f : OuvHdr) (p : HelloPart) (s : State), s.hears f.ifc = true →
     (f.ifc < 4 → s.obs.islandsStopped = false) → f.overrun = false →
     (s.badHeader f 0x4 false = false →
       exec (.keyFetch t f) s = .next ((s.at t).putOuv none f.ifc f.host 0 0x5 f.seq f.target .ok
         (keyPiece s.ouv.keyRecord f.target) none)) ∧
     (s.badHeader f 0x1 false = false →
       (∀ y ∈ s.ouv.parts, ¬(y.ifc = f.ifc ∧ y.host = f.host ∧ y.seq = f.seq)) →
       (s.ouv.parts.length < 256 →
         exec (.hello t f p) s = .next ((s.at t).updOuv fun o => { o with
           parts := o.parts ++ [{ ifc := f.ifc, host := f.host, seq := f.seq, target := f.target
                                  tick := max s.tick t, content := p, tagOk := f.tagOk }] })) ∧
       (256 ≤ s.ouv.parts.length → exec (.hello t f p) s = .next ((s.at t).tally Ctr.ouvHelloDrop))) ∧
     (∀ (y : HelloHeld) (u : State) (ss : BitVec 256), s.badHeader f 0x1 false = false →
       s.otherPart f = some y → f.target = 0 →
       u = ((s.at t).updOuv fun o => { o with parts := o.parts.filter fun z => !z.same f }) →
       ss = s.decaps (p.ct ++ y.content.ct) →
       (s.ouv.helloShut = true ∨ (s.pkg.devState = .recovery ∧ p.part ≠ 0) ∨
           p.bootNonce ≠ s.ouv.bootNonce ∨ (s.part p.part).enabled = false ∨
           s.hasKey p.part f.ifc = false →
         exec (.hello t f p) s = .next (u.putOuv none f.ifc f.host 0 0x3 f.seq 0 .eState [] none)) ∧
       (s.ouv.helloShut = false → (s.pkg.devState = .recovery → p.part = 0) →
         p.bootNonce = s.ouv.bootNonce → (s.part p.part).enabled = true → s.hasKey p.part f.ifc = true →
         ((f.tagOk && y.tagOk) = false → exec (.hello t f p) s = .next (u.tally Ctr.ouvTagFail)) ∧
         ((f.tagOk && y.tagOk) = true →
           (f.ifc = 4 → p.part ≠ 0 → (s.part p.part).rights.getLsbD 1 = false →
             exec (.hello t f p) s = .next
               (u.putOuv (some (s.helloKey p ss)) f.ifc f.host 0 0x3 f.seq 0 .ePriv [] none)) ∧
           ((f.ifc = 4 → p.part = 0 ∨ (s.part p.part).rights.getLsbD 1 = true) →
             ((s.part p.part).maxSessions ≤ (s.sessionsOf p.part).length ∨
                 s.sessionLimit ≤ s.ouv.sessions.length →
               exec (.hello t f p) s = .next
                 (u.putOuv (some (s.helloKey p ss)) f.ifc f.host 0 0x3 f.seq 0 .eNospace [] none)) ∧
             ((s.sessionsOf p.part).length < (s.part p.part).maxSessions →
               s.ouv.sessions.length < s.sessionLimit →
               ∃ (w : State) (x : Session) (nonce : List Nat), nonce.length = 4 ∧
                 exec (.hello t f p) s = .next
                   (w.putOuv (some x.kD2h) f.ifc f.host s.ouv.nextSid 0x2 1 0 .ok nonce none) ∧
                 w.session s.ouv.nextSid = some x ∧ x.part = p.part ∧ x.ifc = f.ifc ∧ x.host = f.host ∧
                 x.highSeq = 0 ∧ x.seen = [] ∧ x.lastRx = max s.tick t ∧
                 x.credits = s.creditRings p.part ∧
                 x.kH2d = s.frameKey p ss nonce s.ouv.nextSid "OUVLEN H2D" ∧
                 x.kD2h = s.frameKey p ss nonce s.ouv.nextSid "OUVLEN D2H" ∧
                 w.ouv.nextSid = s.ouv.nextSid + 1 ∧
                 (∀ sid, sid ≠ s.ouv.nextSid → w.session sid = s.session sid) ∧
                 w = { s.at t with ouv := w.ouv, freeCount := s.freeCount + 4 }))))) ∧
     (∀ ifc seq, s.alive = true →
       exec (.helloPartExpiry t ifc seq) s = .next ((s.at t).updOuv fun o => { o with
         parts := o.parts.filter fun y =>
           !(y.ifc == ifc && y.seq == seq && decide (y.tick + 100000000 ≤ max s.tick t)) }))) ∧
  (∀ (t : Nat) (f : OuvHdr) (start : W32) (entries : List (List W64)) (x : Session) (s : State),
     Accepted t f 0x6 x s → x.ifc ≠ 4 → s.cached f.target = true → s.ringMade f.target = true →
     (s.ring f.target).faulted = false → (s.ring f.target).owner = x.part →
     hostProduced (s.ring f.target).rtype = true →
     (∀ e ∈ entries, e.length * 8 = (s.ring f.target).entryBytes) →
     entries.length ≤ (s.ring f.target).frameMax →
     ((∀ e ∈ entries.zipIdx, idxDiff (start + BitVec.ofNat 32 e.2) (s.ring f.target).credit < 0) →
       exec (.ringWrite t f start entries) s =
         .next ((((s.heard t f x).useCtx f.target).writeEntries f.target start entries).ackedBy f)) ∧
     ((∃ e ∈ entries.zipIdx, 0 ≤ idxDiff (start + BitVec.ofNat 32 e.2) (s.ring f.target).credit) →
       exec (.ringWrite t f start entries) s =
         .next (((s.heard t f x).refuseFrame f.sid f.seq .eNospace).closeWorn f.sid))) ∧
  (∀ (t : Nat) (f : OuvHdr) (p : W32) (x : Session) (s : State),
     Accepted t f 0x7 x s → x.ifc ≠ 4 → s.cached f.target = true → s.ringMade f.target = true →
     (s.ring f.target).faulted = false → (s.ring f.target).owner = x.part →
     (hostProduced (s.ring f.target).rtype = true → (s.ring f.target).enabled = true →
       (idxAbove p (s.ring f.target).prodIdx = true → idxAbove p (s.ring f.target).credit = false →
         exec (.doorbellProduce t f p) s =
           .next ((((s.heard t f x).useCtx f.target).setRing f.target { s.ring f.target with
             prodIdx := p, lastTick := max s.tick t
             avail := (s.ring f.target).avail ++ [(p, max s.tick t)] }).ackedBy f)) ∧
       (idxAbove p (s.ring f.target).prodIdx = false →
         exec (.doorbellProduce t f p) s =
           .next ((((s.heard t f x).useCtx f.target).tally Ctr.dbStale).ackedBy f)) ∧
       (idxAbove p (s.ring f.target).prodIdx = true → idxAbove p (s.ring f.target).credit = true →
         exec (.doorbellProduce t f p) s =
           .next (((s.heard t f x).refuseFrame f.sid f.seq .eNospace).closeWorn f.sid))) ∧
     (hostProduced (s.ring f.target).rtype = false →
       (idxAbove p (s.ring f.target).limitIdx = true → idxAbove p (s.ring f.target).pushIdx = false →
         exec (.doorbellRelease t f p) s =
           .next (((((s.heard t f x).useCtx f.target).setRing f.target { s.ring f.target with
             limitIdx := p, consIdx := p
             prot := (s.ring f.target).prot.filter fun i => !idxAbove p i }).drainStalled
               f.target).ackedBy f)) ∧
       (idxAbove p (s.ring f.target).limitIdx = false →
         exec (.doorbellRelease t f p) s =
           .next ((((s.heard t f x).useCtx f.target).tally Ctr.dbStale).ackedBy f)) ∧
       (idxAbove p (s.ring f.target).limitIdx = true → idxAbove p (s.ring f.target).pushIdx = true →
         exec (.doorbellRelease t f p) s =
           .next (((s.heard t f x).refuseFrame f.sid f.seq .eRange).closeWorn f.sid)))) ∧
  (∀ (t opcode : Nat) (f : OuvHdr) (h : CmdHdr) (x : Session) (s : State), Accepted t f 0x9 x s →
     f.target = 0 → s.isainUp = true →
     (aget x.cache h.seq = none → (∀ e ∈ x.inflight, e.1 ≠ h.seq) → x.inflight.length < 16 →
       opcode ∈ opcodes →
       exec (.mboxReq t f h opcode) s =
         .next (((s.heard t f x).modSession f.sid fun y => { y with
           inflight := y.inflight ++ [(h.seq, opcode)] }).ackedBy f)) ∧
     (aget x.cache h.seq = none → (∃ e ∈ x.inflight, e.1 = h.seq) →
       exec (.mboxReq t f h opcode) s = .next ((s.heard t f x).ackedBy f)) ∧
     (aget x.cache h.seq = none → (∀ e ∈ x.inflight, e.1 ≠ h.seq) → x.inflight.length < 16 →
       opcode ∉ opcodes →
       exec (.mboxReq t f h opcode) s =
         .next ((((s.heard t f x).modSession f.sid fun y => { y with
           inflight := y.inflight ++ [(h.seq, opcode)] }).answer { h with via := .mbox f.sid } opcode .eArg
             noDetail []).ackedBy f)) ∧
     (∀ r, aget x.cache h.seq = some r →
       exec (.mboxReq t f h opcode) s =
         .next (((s.heard t f x).sendOuv f.sid 0xA 0 r.1 r.2).ackedBy f)) ∧
     (aget x.cache h.seq = none → (∀ e ∈ x.inflight, e.1 ≠ h.seq) → 16 ≤ x.inflight.length →
       exec (.mboxReq t f h opcode) s =
         .next (((s.heard t f x).sendOuv f.sid 0xA 0 .busy
           (respWords h opcode 0 .busy noDetail (max s.tick t) [])).ackedBy f))) ∧
  (∀ (sid ftype target : Nat) (st : Status) (words : List Nat) (x : Session) (s : State) (pay : List Byte)
     (frame : Sent), s.session sid = some x → pay = ouvPayload ftype st words →
     frame = .ouv sid x.ifc ftype x.txSeq target st words (s.creditFor x)
       (ouvTag (some x.kD2h) (ouvHeader ftype pay.length sid x.txSeq target (s.creditFor x)) pay) →
     (s.sendFrame sid ftype target st words).session sid = some { x with
       txSeq := x.txSeq + 1, txFrames := x.txFrames + 1, credits := x.credits.drop 1 } ∧
     (∀ k, k ≠ sid → (s.sendFrame sid ftype target st words).session k = s.session k) ∧
     (x.ifc = 4 → (s.sendFrame sid ftype target st words).sent = s.sent ++ [frame] ∧
       (s.sendFrame sid ftype target st words).eg = s.eg) ∧
     (x.ifc < 4 → s.bufferUse + udpLen x.host (40 + pay.length) ≤ s.sharedBuffer →
       (s.sendFrame sid ftype target st words).sent = s.sent ∧
       (tgetD (s.sendFrame sid ftype target st words).eg.queues (qKey x.ifc 8) {}).ctl =
         (tgetD s.eg.queues (qKey x.ifc 8) {}).ctl ++
           [(s.tick, udpLen x.host (40 + pay.length), frame)]) ∧
     (x.ifc < 4 → s.sharedBuffer < s.bufferUse + udpLen x.host (40 + pay.length) →
       (s.sendFrame sid ftype target st words).sent = s.sent ∧
       (s.sendFrame sid ftype target st words).eg = s.eg ∧
       (s.sendFrame sid ftype target st words).counter Ctr.txCtlDrop x.ifc =
         min (s.counter Ctr.txCtlDrop x.ifc + 1) (2 ^ 64 - 1))) ∧
  (∀ (t offset : Nat) (f : OuvHdr) (x : Session) (w : Window) (h : CmdHdr) (s : State),
     (∀ part win rights base pages, Ready h 0x0408 false s → h.part = 0 → part < 64 → win < 16 →
       1 ≤ rights → rights ≤ 3 → base % 4096 = 0 → 1 ≤ pages → pages ≤ 16777216 →
       inSoftware base (pages * 4096) = true →
       tget s.ouv.windows (winKey part win) = none →
       exec (.windowOpen t h part win rights base pages) s = .next (((s.at t).updOuv fun o => { o with
         windows := tset o.windows (winKey part win) { rights := rights, base := base, pages := pages } }).answer
           h 0x0408 .ok noDetail [])) ∧
     (∀ part win, Ready h 0x0409 false s → h.part = 0 → part < 64 → win < 16 →
       exec (.windowClose t h part win) s = .next (((s.at t).updOuv fun o => { o with
         windows := tdel o.windows (winKey part win) }).answer h 0x0409 .ok noDetail [])) ∧
     (Accepted t f 0xB x s → f.target < 16 → tget s.ouv.windows (winKey x.part f.target) = some w →
       ∀ data : List Byte,
       (w.rights.testBit 1 = true → offset % 4 = 0 → data.length % 4 = 0 → 4 ≤ data.length →
         data.length ≤ 8192 → offset + data.length ≤ w.pages * 4096 →
         inSoftware (w.base + offset) data.length = true →
         exec (.winWrite t f offset data) s =
           .next (((s.heard t f x).windowPoke (w.base + offset) data).ackedBy f)) ∧
       (w.rights.testBit 1 = false →
         exec (.winWrite t f offset data) s =
           .next (((s.heard t f x).refuseFrame f.sid f.seq .ePriv).closeWorn f.sid)) ∧
       (w.rights.testBit 1 = true → offset % 4 = 0 → data.length % 4 = 0 → 4 ≤ data.length →
         data.length ≤ 8192 →
         (w.pages * 4096 < offset + data.length ∨ inSoftware (w.base + offset) data.length = false) →
         exec (.winWrite t f offset data) s =
           .next (((s.heard t f x).refuseFrame f.sid f.seq .eRange).closeWorn f.sid))) ∧
     (Accepted t f 0xC x s → f.target < 16 → tget s.ouv.windows (winKey x.part f.target) = some w →
       ∀ len : Nat,
       w.rights.testBit 0 = true → offset % 4 = 0 → len % 4 = 0 → 4 ≤ len → len ≤ 8192 →
       offset + len ≤ w.pages * 4096 → inSoftware (w.base + offset) len = true →
       (s.mem.readable (w.base + offset) len = true →
         exec (.winRead t f offset len) s =
           .next ((((s.heard t f x).touch (w.base + offset) len 0).sendOuv f.sid 0xD f.target .ok
             (offset :: dataWords (s.bytesAt (w.base + offset) len))).ackedBy f)) ∧
       (s.mem.readable (w.base + offset) len = false →
         exec (.winRead t f offset len) s =
           .next ((((s.heard t f x).touch (w.base + offset) len 0).sendOuv f.sid 0xD f.target .eFault
             [offset]).ackedBy f)))) ∧
  (∀ (t sid : Nat) (s : State) (x : Session), s.session sid = some x →
     (∀ f st, f.sid = sid → Accepted t f 0xF x s →
       ∃ s' : State, exec (.hostClose t f st) s = .next s' ∧ s'.session sid = none ∧ s'.sent = s.sent ∧
         (∀ k, k ≠ sid → s'.session k = s.session k)) ∧
     (s.alive = true → x.lastRx + s.ouv.idleTimeout ≤ max s.tick t →
       ∃ u s' : State, u = (s.at t).sendFrame sid 0xF 0 .eTimeout [] ∧
         exec (.sessionIdleTimeout t sid) s = .next s' ∧ s'.session sid = none ∧
         (∀ k, k ≠ sid → s'.session k = s.session k) ∧
         s' = { u with ouv := s'.ouv, rings := s'.rings, bay := s'.bay }) ∧
     (s.alive = true → (x.acks ≠ [] ∨ x.refusals ≠ []) → x.rxFrames < 2 ^ 48 → x.txFrames + 1 < 2 ^ 48 →
       ∃ (u s' : State) (y : Session),
         u = (s.at t).modSession sid (fun z => { z with
           acks := (ackWords x).2.1, refusals := x.refusals.drop 32 }) ∧
         exec (.ackSend t sid) s = .next s' ∧ s' = u.sendFrame sid 0xE 0 .ok (ackWords x).1 ∧
         s'.session sid = some y ∧ y.refusals = x.refusals.drop 32 ∧
         y.txSeq = x.txSeq + 1 ∧ y.credits = x.credits.drop 1 ∧ y.highSeq = x.highSeq) ∧
     (∀ ring, s.alive = true → ring ∈ x.credits → x.rxFrames < 2 ^ 48 → x.txFrames + 1 < 2 ^ 48 →
       ∃ (u s' : State) (y : Session) (words : List Nat), exec (.creditAck t sid ring) s = .next s' ∧
         s' = u.sendFrame sid 0xE 0 .ok words ∧
         (∃ z, u.session sid = some z ∧ u.creditFor z = some (ring, (s.ring ring).credit)) ∧
         u = { s.at t with ouv := u.ouv } ∧
         s'.session sid = some y ∧ y.credits = x.credits.filter (· != ring) ∧
         (x.acks = [] → x.refusals = [] → words = [x.highSeq, 0])))

/-- R78: a `seq` that has been accepted once is not accepted again, whatever other `seq`s are accepted after
it: the record keeps the highest and the 1,024 below it. -/
def Obligations.ReplayRecordHolds : Prop :=
  ∀ (x : Session) (seq : Nat) (later : List (Nat × Nat)),
    (later.foldl (fun y e => if y.fresh e.1 then y.accept e.1 e.2 else y) (x.accept seq 0)).fresh seq =
      false

/-- R83: the entries of a `RING_WRITE` change memory only within the ring: every byte outside the ring's own
range reads as before. -/
def Obligations.RingWriteFrame : Prop :=
  ∀ (n : Nat) (start : W32) (entries : List (List W64)) (s : State) (a : Nat), s.mem.wf = true →
    (∀ e ∈ entries, e.length * 8 = (s.ring n).entryBytes) →
    (a < (s.ring n).baseAddr ∨ (s.ring n).baseAddr + (s.ring n).bytes ≤ a) →
    memGet (s.writeEntries n start entries).mem.bytes a = memGet s.mem.bytes a

/-- R91: ring indices count up from 0 and wrap at 2^32; entry i lies at `base_addr` + (i mod
2^`log2_entries`) × entry size; two indices are compared by the sign of their difference; a ring is full
when its indices differ by its size. -/
def Obligations.RingIndices : Prop :=
  ∀ (n : Nat) (e : List W64) (r : Ring) (i a b : W32) (s : State),
    ({} : Ring).prodIdx = 0 ∧ ({} : Ring).consIdx = 0 ∧
    ((s.putEntry n e).ring n).prodIdx = (s.ring n).prodIdx + 1 ∧
    r.addr i = r.baseAddr + i.toNat % 2 ^ r.log2Entries * (if r.esize = 1 then 128 else 64) ∧
    (idxAbove a b = true ↔ 0 < (a - b).toInt) ∧ (idxAbove a b = true → idxAbove b a = false) ∧
    (r.log2Entries < 32 → (r.prodIdx - r.consIdx).toNat ≤ 2 ^ r.log2Entries →
      (r.room = 0 ↔ r.prodIdx - r.consIdx = BitVec.ofNat 32 (2 ^ r.log2Entries)))

/-- R89, R90, R392: a ring is created where every check passes: it has the fields the command gives, empty
indices, its owner's token, and the credit of an empty ring where the host produces into it. R88, R89, R90,
R102, R103, R392: the commands on a ring, for its owner or partition 0. R388: a partition that neither owns
a ring nor is partition 0 is refused with `E_PRIV`, and a ring that does not exist with `E_STATE`; nothing
else happens. R392: `SLOT_QUERY` gives partition 0 and the slot's owner what the slot holds, and reads as
zeros to any other partition. R110, R111: a barrier records the producer index of each of its rings, and is
answered once every entry below those points has completed and its generations have retired; with `hold`, no
entry at or above a point is admitted until then. R90, R331, R102: a context fetch completes and what waited
for it proceeds; a context that cannot be read faults its ring; awaiting entries are pushed in index order,
at most a batch in a frame, once the ring's context is cached. R96, R97, R109: fences and NOPs. A `NOP` is consumed with no completion. A fence
is consumed and holds later entries of its ring back until every entry before it has completed; with `post`
a `FENCE_DONE` goes to the completion ring. R100, R104: a whole command of a `COMMAND` ring is read, one at
a time, and one of an opcode that no table gives is refused; the oldest item stalled on a full ring is dropped after `full_timeout`. R104: an item dropped for
want of space is counted in the ring's `drop_count`, which saturates, and enters the loss that the ring's
next `LOSS` entry reports, except on a `FABRIC` ring. -/
def Obligations.RingsAndSlots : Prop :=
  (∀ (t : Nat) (h : CmdHdr) (x : RingSpec) (s : State), Ready h 0x0301 false s → h.part = 0 →
     x.ring < 4096 → x.owner < 64 → formAllowed x.rtype x.esize x.fullPolicy = true → 6 ≤ x.log2Entries →
     x.log2Entries ≤ 20 → 0 < x.inflightMax → 0 < x.fullTimeout → x.baseAddr % 4096 = 0 →
     s.cqAllowed x.rtype x.owner x.cqRing = true →
     inSoftware x.baseAddr (RingSpec.ring x 0).bytes = true →
     (∀ e ∈ s.rings.ctx, e.2.rtype ≠ 0 → e.1 ≠ x.ring → (RingSpec.ring x 0).overlaps e.2 = false) →
     s.ringMade x.ring = false → (x.pinned = true → s.pinnedCount < 256) →
     ∃ s' : State, exec (.ringCreate t h x) s = .next (s'.answer h 0x0301 .ok noDetail []) ∧
       s'.ring x.ring = {
         rtype := x.rtype, owner := x.owner, esize := x.esize, enabled := x.enabled, pinned := x.pinned
         fullPolicy := x.fullPolicy, log2Entries := x.log2Entries, ownerToken := (s.part x.owner).token
         baseAddr := x.baseAddr, cqRing := x.cqRing, inflightMax := x.inflightMax
         fullTimeout := x.fullTimeout
         limitIdx := if x.rtype = 1 ∨ x.rtype = 3 then BitVec.ofNat 32 (2 ^ x.log2Entries) else 0 } ∧
       s'.cached x.ring = true ∧ (∀ n, n ≠ x.ring → s'.ring n = s.ring n) ∧
       (hostProduced x.rtype = true → ∀ sid y, s.session sid = some y → y.part = x.owner →
         ∃ z, s'.session sid = some z ∧ x.ring ∈ z.credits) ∧
       (hostProduced x.rtype = false → s'.ouv = s.ouv) ∧
       s' = { s.at t with rings := s'.rings, ouv := s'.ouv, bay := s'.bay }) ∧
  (∀ (t ring : Nat) (h : CmdHdr) (s : State), s.ringMade ring = true →
     (h.part = 0 ∨ h.part = (s.ring ring).owner) → (s.part h.part).revoking = false →
     (∀ m : RingMask, m.ring = ring → Ready h 0x0302 false s →
       formAllowed (s.ring ring).rtype (s.ring ring).esize (m.fullPolicy.getD (s.ring ring).fullPolicy) =
         true → m.inflightMax ≠ some 0 → m.fullTimeout ≠ some 0 →
       (m.pinned = some true → (s.ring ring).pinned = false → s.pinnedCount < 256) →
       (m.enabled ≠ some false →
         ∃ s' : State, exec (.ringConfig t h m) s = .next (s'.answer h 0x0302 .ok noDetail []) ∧
           s'.ring ring = RingMask.apply m (s.ring ring) ∧ (∀ n, n ≠ ring → s'.ring n = s.ring n) ∧
           s' = { s.at t with rings := s'.rings, bay := s'.bay }) ∧
       (m.enabled = some false → (s.ring ring).stalled = [] →
         ∃ s' : State, exec (.ringConfig t h m) s = .next (s'.answer h 0x0302 .ok noDetail []) ∧
           s'.ring ring = RingMask.apply m (s.ring ring) ∧ (s'.ring ring).enabled = false ∧
           s' = { s.at t with rings := s'.rings, bay := s'.bay })) ∧
     (∀ sid x, Ready h 0x0303 false s → pushes (s.ring ring).rtype = true → s.session sid = some x →
       x.part = (s.ring ring).owner →
       exec (.ringAttach t h ring sid) s = .next ((((s.at t).setRing ring { s.ring ring with
         pushSession := sid
         pushIdx := (s.ring ring).limitIdx }).useCtx ring).answer h 0x0303 .ok noDetail [])) ∧
     (Ready h 0x0303 false s → pushes (s.ring ring).rtype = true →
       exec (.ringDetach t h ring) s = .next ((((s.at t).modRing ring fun r => { r with
         pushSession := 0 }).useCtx ring).answer h 0x0303 .ok noDetail [])) ∧
     (Ready h 0x0304 false s → (s.ring ring).enabled = false → (s.ring ring).inflight = 0 →
       (∀ e ∈ s.rings.ctx, e.1 ≠ ring → hostProduced e.2.rtype = true → e.2.cqRing ≠ ring) →
       ∃ s' : State, exec (.ringDestroy t h ring) s = .next (s'.answer h 0x0304 .ok noDetail []) ∧
         s'.ringMade ring = false ∧ (∀ n, n ≠ ring → s'.ring n = s.ring n) ∧
         s' = { s.at t with rings := s'.rings, bay := s'.bay }) ∧
     (Ready h 0x0304 false s → (s.ring ring).enabled = true →
       exec (.ringDestroy t h ring) s = .next ((s.at t).answer h 0x0304 .eState noDetail [])) ∧
     (Ready h 0x0305 true s →
       exec (.ringQuery t h ring) s =
         .next ((s.at t).answer h 0x0305 .ok noDetail (ringContextWords ring (s.ring ring)))) ∧
     (∀ (start : W32) (count : Nat), Ready h 0x0306 false s → pushes (s.ring ring).rtype = true →
       (s.ring ring).pushSession ≠ 0 → 0 ≤ idxDiff start (s.ring ring).limitIdx →
       (count : Int) ≤ idxDiff (s.ring ring).pushIdx start →
       exec (.ringRepush t h ring start count) s =
         .next (((s.at t).repush ring (s.ring ring).pushSession start count).answer h 0x0306 .ok
           noDetail []))) ∧
  (∀ (t ring : Nat) (h : CmdHdr) (m : RingMask) (sid : Nat) (start : W32) (count : Nat) (s : State),
     m.ring = ring →
     ∀ (i : Instr) (op : Nat) (stop : Bool),
       (i, op, stop) ∈ ([(.ringConfig t h m, 0x0302, false), (.ringAttach t h ring sid, 0x0303, false),
         (.ringDetach t h ring, 0x0303, false), (.ringDestroy t h ring, 0x0304, false),
         (.ringQuery t h ring, 0x0305, true), (.ringRepush t h ring start count, 0x0306, false)] :
         List (Instr × Nat × Bool)) → Ready h op stop s →
       (s.ringMade ring = false → exec i s = .next ((s.at t).answer h op .eState noDetail [])) ∧
       (s.ringMade ring = true → h.part ≠ 0 → h.part ≠ (s.ring ring).owner →
         exec i s = .next ((s.at t).answer h op .ePriv noDetail []))) ∧
  (∀ (t slot : Nat) (h : CmdHdr) (n : Nat) (i : W32) (s : State), Ready h 0x0308 true s → slot < 65536 →
     (h.part ≠ 0 → (s.slot slot).part ≠ h.part →
       exec (.slotQuery t h slot) s =
         .next ((s.at t).answer h 0x0308 .ok noDetail (List.replicate 3 0))) ∧
     (h.part = 0 ∨ (s.slot slot).part = h.part → (s.slot slot).src = .ring n i →
       (s.slot slot).state = .running →
       exec (.slotQuery t h slot) s =
         .next ((s.at t).answer h 0x0308 .ok noDetail (pack [(3, 2), (6, (s.slot slot).part),
           (16, (s.slot slot).gen), (16, (s.slot slot).model), (16, (s.slot slot).epoch),
           (64, (s.slot slot).deadline), (12, n), (32, i.toNat)])))) ∧
  (∀ (t : Nat) (h : CmdHdr) (rings : List Nat) (pairs : List (Nat × Nat)) (s : State),
     (Ready h 0x0307 false s → (s.part h.part).revoking = false →
       (∀ n ∈ rings, s.ringMade n = true ∧ (s.ring n).owner = h.part ∧
         hostProduced (s.ring n).rtype = true) →
       (∀ p ∈ pairs, ∃ x, s.table p.1 = some x ∧ x.owner = h.part ∧
         (x.genIn .current).map (·.g) ≠ some p.2) →
       rings.length ≤ 64 → pairs.length ≤ 16 → timeoutBad h = false → (s.barriersOf h.part).length < 16 →
       exec (.barrier t h rings pairs) s = .next ((s.at t).updRings fun x => { x with
         barriers := x.barriers ++ [(h.part, s.freeBarrier h.part,
           { h := h, points := rings.map fun n => (n, (s.ring n).prodIdx), pairs := pairs,
             hold := h.flag, due := max s.tick t + timeoutOf h })] })) ∧
     (∀ part idx b, s.running = true → s.bay.isainUp = true → s.barrier part idx = some b →
       s.barrierDone b = true →
       exec (.barrierComplete t part idx) s =
         .next (((s.at t).dropBarrier part idx).answer b.h 0x0307 .ok noDetail
           (pack (b.points.map fun p => (32, (s.ring (s.ring p.1).cqRing).prodIdx.toNat))))) ∧
     (∀ e ∈ s.rings.barriers, ∀ p ∈ e.2.2.points, e.2.2.hold = true →
       idxAbove p.2 (s.ring p.1).consIdx = false → s.admits p.1 = false)) ∧
  (∀ (t ring : Nat) (s : State),
     (∀ check, s.running = true → ring ∈ s.rings.cache.fetching →
       (∀ e ∈ s.rings.cache.waiting, e.1 ≠ ring) →
       ∃ s' : State, exec (.contextFetch t ring check) s = .next s' ∧ ring ∉ s'.rings.cache.fetching ∧
         ((check = .clean ∨ check = .corrected) →
           s'.cached ring = true ∧ s'.rings.ctx = s.rings.ctx) ∧
         ((check = .uncorrectable ∨ check = .poisoned) →
           (s'.ring ring).faulted = true ∧ (s'.ring ring).enabled = false)) ∧
     (∀ k, s.running = true → (s.at t).pushDue ring = true →
       k = min (idxCount (s.ring ring).prodIdx (s.ring ring).pushIdx) (s.ring ring).pushBatch →
       (s.cached ring = false → exec (.ringPush t ring) s = .next ((s.at t).missCtx ring none)) ∧
       (s.cached ring = true →
         ∃ u s' : State, exec (.ringPush t ring) s = .next s' ∧
           u = { s.at t with rings := u.rings, mem := u.mem, obs := u.obs } ∧ u.rings.ctx = s.rings.ctx ∧
           u.mem.bytes = s.mem.bytes ∧
           s' = (u.sendOuv (s.ring ring).pushSession 0x8 ring .ok
             (((s.ring ring).pushIdx.toNat * 2 ^ 32 + k * 2 ^ 16) ::
               ((List.range k).map fun j => (s.ring ring).pushIdx + BitVec.ofNat 32 j).flatMap fun i =>
                 s.pushWords ring i)).modRing ring (fun r => { r with
                   pushIdx := r.pushIdx + BitVec.ofNat 32 k }) ∧
           (s'.ring ring).pushIdx = (s.ring ring).pushIdx + BitVec.ofNat 32 k ∧
           (s'.ring ring).prodIdx = (s.ring ring).prodIdx ∧ s'.mem.bytes = s.mem.bytes))) ∧
  (∀ (t ring : Nat) (s : State),
     (s.admits ring = true → s.cached ring = true → s.entryReadable ring (s.ring ring).consIdx = true →
       headRefusal (s.ring ring).rtype (s.ring ring).consIdx (s.entryWords ring (s.ring ring).consIdx) = none →
       (headKind (wordOf (s.entryWords ring (s.ring ring).consIdx) 0) = 0x03 →
         ∃ s' : State, exec (.nopEntry t ring) s = .next s' ∧
           (s'.ring ring).consIdx = (s.ring ring).consIdx + 1 ∧
           (s'.ring ring).fences = (s.ring ring).fences ∧ (s'.ring ring).opened = (s.ring ring).opened ∧
           s'.sent = s.sent ∧ s'.mem.bytes = s.mem.bytes) ∧
       (headKind (wordOf (s.entryWords ring (s.ring ring).consIdx) 0) = 0x02 →
         ∃ s' : State, exec (.fenceEntry t ring) s = .next s' ∧
           (s'.ring ring).consIdx = (s.ring ring).consIdx + 1 ∧
           (s'.ring ring).fences = (s.ring ring).fences ++ [((s.ring ring).consIdx,
             wordOf (s.entryWords ring (s.ring ring).consIdx) 1,
             (headFlags (wordOf (s.entryWords ring (s.ring ring).consIdx) 0)).testBit 0)] ∧
           (s'.ring ring).fencePending = (s.ring ring).fencePending + 1 ∧ s'.admits ring = false ∧
           s'.sent = s.sent ∧ s'.mem.bytes = s.mem.bytes)) ∧
     (∀ i cookie post rest, s.running = true → (s.ring ring).fences = (i, cookie, post) :: rest →
       (s.ring ring).opened = [] → (∀ e ∈ (s.ring ring).pendingDone, e.1 ≠ i) →
       (post = false →
         exec (.fenceComplete t ring) s = .next ((s.at t).setRing ring { s.ring ring with
           headTick := max s.tick t, fences := rest
           fencePending := (s.ring ring).fencePending - 1 })) ∧
       (post = true →
         exec (.fenceComplete t ring) s = .next (((s.at t).setRing ring { s.ring ring with
           headTick := max s.tick t, fences := rest
           fencePending := (s.ring ring).fencePending - 1 }).ringItem (s.ring ring).cqRing
             [[entryHead 0x11 0 1 0, cookie, BitVec.ofNat 64 (ring * 2 ^ 36 + i.toNat)]])))) ∧
  (∀ (t ring : Nat) (s : State),
     (s.admits ring = true → s.cached ring = false →
       exec (.nopEntry t ring) s = .next ((s.at t).missCtx ring none) ∧
       exec (.fenceEntry t ring) s = .next ((s.at t).missCtx ring none)) ∧
     (s.admits ring = true → s.cached ring = true → (s.ring ring).rtype = 3 →
       s.entryReadable ring (s.ring ring).consIdx = true →
       headRefusal 3 (s.ring ring).consIdx (s.entryWords ring (s.ring ring).consIdx) = none →
       headKind (wordOf (s.entryWords ring (s.ring ring).consIdx) 0) = 0x04 →
       headCount (wordOf (s.entryWords ring (s.ring ring).consIdx) 0) = 1 →
       ∃ u : State,
         (u.ring ring).opened = [(s.ring ring).consIdx] ∧
         (u.ring ring).cmd = (s.entryWords ring (s.ring ring).consIdx).drop 1 ∧
         (u.ring ring).consIdx = (s.ring ring).consIdx + 1 ∧ u.admits ring = false ∧
         u.sent = s.sent ∧ u.mem.bytes = s.mem.bytes ∧
         ∀ op, op = bitsOf (wordOf (s.entryWords ring (s.ring ring).consIdx) 1).toNat 63 48 →
           (op ∈ opcodes → exec (.commandEntry t ring) s = .next u) ∧
           (op ∉ opcodes → exec (.commandEntry t ring) s = .next (u.answer
             (cmdHead ring ((s.entryWords ring (s.ring ring).consIdx).drop 1)) op .eArg noDetail []))) ∧
     (∀ e rest, s.running = true → (s.ring ring).stalled = e :: rest →
       e.1 + (s.ring ring).fullTimeout * 1000 ≤ max s.tick t →
       exec (.ringFullStallExpiry t ring) s =
         .next ((((s.at t).modRing ring fun r => { r with stalled := rest }).dropItem ring
           e.2).drainStalled ring))) ∧
  (∀ (n : Nat) (item : RingItem) (s : State),
     (∀ e, item.head? = some e → headKind (wordOf e 0) ≠ 0x10 ∧ headKind (wordOf e 0) ≠ 0x12) →
     ((s.dropItem n item).ring n).dropCount = min ((s.ring n).dropCount + item.length) (2 ^ 32 - 1) ∧
     ((s.dropItem n item).ring n).lossCount =
       (if (s.ring n).rtype = 7 then 0 else (s.ring n).lossCount + item.length) ∧
     ((s.ring n).lossCount = 0 → ((s.dropItem n item).ring n).lossFirst = (s.ring n).prodIdx) ∧
     (∀ k, k ≠ n → (s.dropItem n item).ring k = s.ring k) ∧
     s.dropItem n item = { s with rings := (s.dropItem n item).rings } ∧
     ((s.ring n).lossCount ≠ 0 → (s.ring n).enabled = true → (s.ring n).faulted = false →
       0 < (s.ring n).room →
       ((s.putLoss n).ring n).lossCount = 0 ∧
       ((s.putLoss n).ring n).prodIdx = (s.ring n).prodIdx + 1))

/-- R91, R104: an item that fits is written at the producer index, entry by entry, and the index rises by
the entries written; memory outside the ring reads as before. -/
def Obligations.ItemsWritten : Prop :=
  ∀ (n : Nat) (e : List W64) (s : State), s.mem.wf = true →
    e.length * 8 ≤ (s.ring n).entryBytes → e ≠ [] →
    ((s.putEntry n e).ring n).prodIdx = (s.ring n).prodIdx + 1 ∧
    (∀ a, (a < (s.ring n).addr (s.ring n).prodIdx ∨
        (s.ring n).addr (s.ring n).prodIdx + (s.ring n).entryBytes ≤ a) →
      memGet (s.putEntry n e).mem.bytes a = memGet s.mem.bytes a) ∧
    (∀ k, k < (s.ring n).entryBytes →
      memGet (s.putEntry n e).mem.bytes ((s.ring n).addr (s.ring n).prodIdx + k) =
        ((wordsBytes (entryAt ((s.ring n).entryBytes / 8) e (s.ring n).prodIdx))[k]?).getD 0)

/-- R46, R55, R64, R66, R113, R115: a frame from a line. It is counted and dropped when the islands stop or
its link trains, when it is shorter than 64 or longer than `max_frame` bytes with its FCS, when its FCS or its
MACsec check fails or its packet number lies below the replay window, when its port drains, while admission is stopped, and when its parse queue is at its threshold; else it
waits in its parse queue with its stamps and its priority. R64: a received pause holds an enabled priority
for its quanta of 512 bit times, a quantum of 0 ends the pause, and a pause whose time has run out is gone.
R114 to R125, R119: a parse. The free group takes the frame of the highest priority; its record is what the
program's instructions leave; a clean end counts nothing; a fault of the group's memory takes the group
offline until it is rewritten. R116, R118, R131, R133: the commands that load parse programs and set load
spreading. -/
def Obligations.FramesAndParses : Prop :=
  (∀ (t ifc : Nat) (bytes : List Byte) (fcsOk : Bool) (sec : MacsecIn) (s : State), s.running = true →
     s.pkg.sdClock = true → ifc ∈ s.lineIfcs → (s.ifc ifc).role ≠ 0 →
     (s.obs.islandsStopped = true ∨ (s.ifc ifc).link = false →
       exec (.frameReceive t ifc bytes fcsOk sec) s = .next ((s.at t).count Ctr.rxStopped ifc)) ∧
     (s.obs.islandsStopped = false → (s.ifc ifc).link = true →
       (bytes.length + 4 < 64 →
         exec (.frameReceive t ifc bytes fcsOk sec) s = .next ((s.at t).count Ctr.rxRunt ifc)) ∧
       (64 ≤ bytes.length + 4 → (s.ifc ifc).maxFrame < bytes.length + 4 →
         exec (.frameReceive t ifc bytes fcsOk sec) s = .next ((s.at t).count Ctr.rxOversize ifc)) ∧
       (64 ≤ bytes.length + 4 → bytes.length + 4 ≤ (s.ifc ifc).maxFrame →
         (fcsOk = false →
           exec (.frameReceive t ifc bytes fcsOk sec) s = .next ((s.at t).count Ctr.rxFcs ifc)) ∧
         (fcsOk = true → sec = .bad →
           exec (.frameReceive t ifc bytes fcsOk sec) s = .next ((s.at t).count Ctr.rxMacsecFail ifc)) ∧
         (∀ sc an pn x, fcsOk = true → sec = .ok sc an pn → tget (s.ifc ifc).rxSas (saKey sc an) = some x →
           (pn + (s.ifc ifc).replayWindow < x.nextPn →
             exec (.frameReceive t ifc bytes fcsOk sec) s = .next ((s.at t).count Ctr.rxMacsecFail ifc)) ∧
           (x.nextPn ≤ pn + (s.ifc ifc).replayWindow →
             (s.at t).macsecPass ifc bytes sec = some ((s.at t).modIfc ifc fun i => { i with
               rxSas := tset i.rxSas (saKey sc an) { x with nextPn := max x.nextPn (pn + 1) } }))) ∧
         (sec = .none → (s.ifc ifc).macsecMode = 0 →
           (s.at t).macsecPass ifc bytes sec = some (s.at t)) ∧
         (∀ u : State, fcsOk = true → (s.at t).macsecPass ifc bytes sec = some u →
           fieldBe bytes 12 2 ≠ 0x8808 → u.localKind ifc bytes = none →
           (u.shut ifc = true →
             exec (.frameReceive t ifc bytes fcsOk sec) s = .next (u.count Ctr.rxDrained ifc)) ∧
           (u.shut ifc = false → u.closed = true →
             exec (.frameReceive t ifc bytes fcsOk sec) s = .next (u.count Ctr.rxQuiesced ifc)) ∧
           (u.shut ifc = false → u.closed = false →
             u.parser.thresh ((u.ifc ifc).priority bytes) ≤ u.descriptors →
             exec (.frameReceive t ifc bytes fcsOk sec) s =
               .next (u.count Ctr.rxParseDrop (ifc * 8 + (u.ifc ifc).priority bytes))) ∧
           (u.shut ifc = false → u.closed = false →
             u.descriptors < u.parser.thresh ((u.ifc ifc).priority bytes) →
             exec (.frameReceive t ifc bytes fcsOk sec) s =
               .next ((u.updParser fun p => { p with
                 nextFrame := p.nextFrame + 1
                 frames := tset p.frames p.nextFrame
                   { bytes := bytes, ifc := ifc, rxTick := u.tick
                     rxWall := (u.wallAt u.tick).getD 0
                     prio := (u.ifc ifc).priority bytes
                     set := { role := (u.ifc ifc).role
                              roles := (List.range 4).map fun i => (u.ifc i).role
                              macsec := (List.range 4).map fun i => (u.ifc i).macsecMode
                              tpid := (u.ifc ifc).tpidExtra
                              maxFrames := (List.range 4).map fun i => (u.ifc i).maxFrame } } }).pfcCheck ifc
                   ((u.ifc ifc).priority bytes))))))) ∧
  (∀ (t ifc prio quanta : Nat) (s : State), s.moving = true → ifc < 4 →
     ((s.ifc ifc).role ≠ 0 → (s.ifc ifc).pfcEnable.getLsbD prio = true →
       ∃ s' : State, exec (.pfcReceive t ifc [(prio, quanta)]) s = .next s' ∧
         tget (s'.ifc ifc).pausedUntil prio = (if quanta = 0 then none
           else some (max s.tick t + (quanta * 512 + s.speed ifc - 1) / s.speed ifc)) ∧
         s' = { s.at t with ifcs := s'.ifcs }) ∧
     ((s.ifc ifc).role ≠ 0 → (s.ifc ifc).pfcEnable.getLsbD prio = false →
       exec (.pfcReceive t ifc [(prio, quanta)]) s = .next (s.at t)) ∧
     (∀ d, tget (s.ifc ifc).pausedUntil prio = some d → d ≤ max s.tick t →
       ∃ s' : State, exec (.pfcPauseExpiry t ifc prio) s = .next s' ∧
         tget (s'.ifc ifc).pausedUntil prio = none ∧
         s' = { s.at t with ifcs := s'.ifcs })) ∧
  (∀ (t id group : Nat) (fault : Option Nat) (f : Frame) (k : Nat) (s : State),
     (s.moving = true → group < 16 → group ∉ s.parser.offline → s.nextParse = some id →
       s.frame id = some f → f.poison = false → tget s.parser.ifcSlot f.ifc = some k →
       (∀ p, chiveRun (s.parser.prog f.ifc) f.bytes s.parser.cycleMax fault (s.parser.cycleMax + 1)
           { record := freshRecord } = (p, 0) → p.trailer = false →
         ∃ s' : State, exec (.chiveParse t id group fault) s = .next s' ∧
           s'.frame id = some { f with
             stage := .parsed, record := parseRecord f (s.parser.progId f.ifc) p 0 } ∧
           s'.parser.offline = s.parser.offline ∧ s'.obs = s.obs ∧
           s' = { s.at t with parser := s'.parser }) ∧
       (∀ p, chiveRun (s.parser.prog f.ifc) f.bytes s.parser.cycleMax fault (s.parser.cycleMax + 1)
           { record := freshRecord } = (p, 7) →
         ∃ s' : State, exec (.chiveParse t id group fault) s = .next s' ∧
           (s'.frame id).map (·.stage) = some .parsed ∧
           s'.parser.offline = s.parser.offline ++ [group] ∧
           s' = { s.at t with parser := s'.parser, obs := s'.obs })) ∧
     (s.running = true → s.bay.isainUp = true → group ∈ s.parser.offline → group ∉ s.parser.groupsOut →
       exec (.chiveGroupRewrite t group) s = .next ((s.at t).updParser fun p => { p with
         offline := p.offline.filter (· != group) }))) ∧
  (∀ (t : Nat) (h : CmdHdr) (s : State),
     (∀ k addr len prog, Ready h 0x0601 false s → h.part = 0 → k < 8 → len ≤ 81920 →
       inSoftware addr len = true → (∀ e ∈ s.parser.ifcSlot, e.2 ≠ k) → s.mem.readable addr len = true →
       progLarge prog = false → progUnlisted prog = false →
       ∃ s' : State, exec (.parseLoad t h k addr len prog) s =
           .next (s'.answer h 0x0601 .ok noDetail (pack [(5, (tgetD s.parser.slots k {}).loads + 1)])) ∧
         tget s'.parser.slots k = some { image := s.bytesAt addr len, prog := prog
                                         loads := ((tgetD s.parser.slots k {}).loads + 1) % 32 } ∧
         s'.parser.ifcSlot = s.parser.ifcSlot ∧ s'.mem.bytes = s.mem.bytes) ∧
     (∀ slots : List Nat, Ready h 0x0602 false s → h.part = 0 → slots.length = 4 →
       (∀ k ∈ slots, k < 8 ∧ (tget s.parser.slots k).isSome = true) →
       ∃ s' : State, exec (.parseCommit t h slots) s = .next (s'.answer h 0x0602 .ok noDetail []) ∧
         s'.parser = { s.parser with ifcSlot := slots.zipIdx.map fun e => (e.2, e.1) } ∧
         s' = { s.at t with parser := s'.parser, bay := s'.bay }) ∧
     (∀ x : SpreadSpec, Ready h 0x0604 false s →
       (if x.ctx = 0x40 then h.part = 0 else h.part = 0 ∨ h.part = x.ctx) → x.ctx ≤ 0x40 →
       x.start + x.entries.length ≤ 512 → selBytes x.sel ≤ 36 →
       (∀ e ∈ x.entries, s.entryBad x.ctx e = none) →
       ∃ s' : State, exec (.spreadConfig t h x) s = .next (s'.answer h 0x0604 .ok noDetail []) ∧
         (tgetD s'.parser.spread x.ctx {}).sel = x.sel ∧ (tgetD s'.parser.spread x.ctx {}).sym = x.sym ∧
         (tgetD s'.parser.spread x.ctx {}).key =
           (if x.wkey then x.key else (tgetD s.parser.spread x.ctx {}).key) ∧
         (∀ c, c ≠ x.ctx → tgetD s'.parser.spread c {} = tgetD s.parser.spread c {}) ∧
         s' = { s.at t with parser := { s.parser with spread := s'.parser.spread }, bay := s'.bay }))

/-- R117, R120: however a parse ends, it has recorded at most 12 layers, its cursor lies within the first
512 bytes and within the frame, and it has used at most `parse_cycle_max` cycles; it ends with code 3 only
where its next instruction would use more. -/
def Obligations.ParseBounds : Prop :=
  ∀ (g : ChiveProg) (bs : List Byte) (limit fuel : Nat) (fault : Option Nat) (r : Parse × Nat),
    chiveRun g bs limit fault fuel { record := freshRecord } = r →
    r.1.layers.length ≤ 12 ∧ r.1.cursor ≤ min bs.length 512 ∧ r.1.cycles ≤ limit ∧
    (limit < fuel → r.2 = 3 → ∃ op, g.code[r.1.pc]? = some op ∧ limit < r.1.cycles + chiveCost g r.1 op)

/-- R133, R134: whatever its table holds, a context places work only on clusters that its owner owns and
that take new work, and only a frame on a ring. -/
def Obligations.SpreadChoosesOwnClusters : Prop :=
  ∀ (ctx hash : Nat) (forFrame : Bool) (s : State),
    (∀ c, (s.spread ctx hash forFrame).1 = .cluster c →
      c < 256 ∧ (s.cluster c).owner = ctx ∧ (s.cluster c).leaving = none) ∧
    (∀ n, (s.spread ctx hash forFrame).1 = .ring n →
      forFrame = true ∧ (tgetD s.parser.spread ctx {}).table ≠ []) ∧
    ((s.spread ctx hash forFrame).1 = .nowhere →
      ∀ e ∈ s.comp.clusters, (s.cluster e.1).owner = ctx → (s.cluster e.1).leaving = none → 256 ≤ e.1) ∧
    (s.spread ctx hash forFrame).2 = { s with obs := (s.spread ctx hash forFrame).2.obs }

/-- R141: a row matches when its `valid` is set and, for every bit where its mask is 1, the key bit equals
the row's key bit; the winning row is a row in use that matches, and no row in use of a lower number
matches. -/
def Obligations.LowestRuleWins : Prop :=
  (∀ (row : RuleRow) (key : BitVec 256), rowMatches row key = true ↔
    row.action.valid = true ∧ ∀ i, row.mask.getLsbD i = true → key.getLsbD i = row.key.getLsbD i) ∧
  ∀ (p : Pipeline) (key : BitVec 256), (p.rules.map (·.1)).Pairwise (· < ·) →
    (∀ n row, p.winner key none = some (n, row) →
      (n, row) ∈ p.rules ∧ p.live n = true ∧ rowMatches row key = true ∧
      ∀ e ∈ p.rules, e.1 < n → p.live e.1 = true → rowMatches e.2 key = false) ∧
    (p.winner key none = none → ∀ e ∈ p.rules, p.live e.1 = true → rowMatches e.2 key = false)

/-- R145: a lookup whose slots can all be read gives the class of the longest prefix that covers the
address, or 0 when none does; after an uncorrectable slot it gives 0. -/
def Obligations.LongestPrefixWins : Prop :=
  ∀ (c : Classifier) (v6 : Bool) (a : Nat), c.badTrie = [] →
    ((∃ p ∈ c.trie v6, p.covers v6 a = true) →
      ∃ p ∈ c.trie v6, p.covers v6 a = true ∧ c.lpm v6 a none = (p.cls, none) ∧
        ∀ q ∈ c.trie v6, q.covers v6 a = true → q.len ≤ p.len) ∧
    ((∀ p ∈ c.trie v6, p.covers v6 a = false) → c.lpm v6 a none = (0, none)) ∧
    (∀ lv, lv ∈ levelsRead (c.trie v6) v6 a →
      (c.lpm v6 a (some lv)).1 = 0 ∧ (c.lpm v6 a (some lv)).2.isSome = true)

/-- R136, R141, R143: classification. A malformed record and an incomplete one take their interface's
actions; a record that no row matches takes the default action; a match counts in its row, and a row without
flow, MAC learning, models or scans sends the frame to egress with the rule's own action. R140, R142, R395:
rule commands, while no other sender's command holds the table's update engine. A `RULE_WRITE` writes its rows and clears rows as one change, a written row counts as live
again, and no row but those it names changes; `RULE_READ` changes nothing. R144, R145, R146, R395: prefix
commands. An added prefix replaces one of its length and bits, a deleted one is gone, every other prefix
stays, and `PREFIX_READ` changes nothing. R154, R155, R395: MAC commands. A static entry is written over the
entry of its key or into a free one; it is removed whole; a flush removes the learned entries it names and
no static one; `MAC_READ` changes nothing. R156, R158, R161: MAC aging, the release of a pin, rule scrubbing
and the rewriting of quarantined entries. -/
def Obligations.ClassifierCommands : Prop :=
  (∀ (t id : Nat) (f : Frame) (s : State), s.moving = true → s.frame id = some f → f.stage = .parsed →
     (f.pflag 14 = true → ∀ r, ∃ s' : State, exec (.classify t id r) s = .next s' ∧
       s'.frame id = some { f with
         set := RxSet.classed f.ifc s f.set
         stage := .egress, decision := some (.dflt (s.clsIfc f.ifc).malformedAction true) } ∧
       s'.counter Ctr.clsMalformed f.ifc = min (s.counter Ctr.clsMalformed f.ifc + 1) (2 ^ 64 - 1) ∧
       s' = { s.at t with parser := s'.parser, obs := s'.obs }) ∧
     (f.pflag 14 = false → f.pflag 15 = true → ∀ r, ∃ s' : State, exec (.classify t id r) s = .next s' ∧
       s'.frame id = some { f with
         set := RxSet.classed f.ifc s f.set
         stage := .egress, decision := some (.dflt (s.clsIfc f.ifc).defaultAction false) } ∧
       s'.counter Ctr.clsIncomplete f.ifc = min (s.counter Ctr.clsIncomplete f.ifc + 1) (2 ^ 64 - 1) ∧
       s' = { s.at t with parser := s'.parser, obs := s'.obs }) ∧
     (f.pflag 14 = false → f.pflag 15 = false → f.pflag 9 = false → f.pflag 8 = false →
       (∀ r, r.wrong = none → (s.pipe (portOf f.ifc)).winner (BitVec.ofNat 256 (ruleKey f 0 0)) none = none →
         ∃ s' : State, exec (.classify t id r) s = .next s' ∧
           s'.frame id = some { f with
             set := RxSet.classed f.ifc s f.set
             stage := .egress, decision := some (.dflt (s.clsIfc f.ifc).defaultAction false) } ∧
           s'.counter Ctr.clsMiss f.ifc = min (s.counter Ctr.clsMiss f.ifc + 1) (2 ^ 64 - 1) ∧
           s' = { s.at t with parser := s'.parser, obs := s'.obs }) ∧
       (∀ (r : ClassReads) (n : Nat) (row : RuleRow), r.wrong = none → r.rule = false →
         (s.pipe (portOf f.ifc)).winner (BitVec.ofNat 256 (ruleKey f 0 0)) none = some (n, row) →
         row.action.flowMode = 0 → row.action.macLearn = false → row.action.pmEn = false →
         row.action.deepEn = false → f.pmVerdict = none →
         ∃ s' : State, exec (.classify t id r) s = .next s' ∧
           s'.frame id = some { f with
             set := RxSet.classed f.ifc s f.set
             stage := .egress, decision := some .rule, rule := some n, act := some row.action
             macFault := r.mac } ∧
           tgetD (s'.pipe (portOf f.ifc)).hits n 0 = tgetD (s.pipe (portOf f.ifc)).hits n 0 + 1 ∧
           tgetD (s'.pipe (portOf f.ifc)).hitBytes n 0 =
             tgetD (s.pipe (portOf f.ifc)).hitBytes n 0 + f.len ∧
           s' = { s.at t with parser := s'.parser, cls := s'.cls }))) ∧
  (∀ (t pipe : Nat) (h : CmdHdr) (s : State), h.part = 0 → pipe < 2 →
     (∀ (rows : List (Nat × RuleRow)) (clears : List Nat), Ready h 0x0702 false s →
       (∀ e ∈ rows, e.1 < 16384 ∧ rowResv e.2 = false ∧ ∀ c ∈ s.rowChecks pipe, c.1 e = false) →
       rows ≠ [] → rows.length ≤ 32 → clears.length ≤ 63 → (∀ n ∈ clears, n < 16384) →
       ((s.at t).engineBusy pipe h = true →
         exec (.ruleWrite t h pipe rows clears) s = .next ((s.at t).answer h 0x0702 .busy noDetail [])) ∧
       ((s.at t).engineBusy pipe h = false → ∃ s' : State, exec (.ruleWrite t h pipe rows clears) s =
           .next (s'.answer h 0x0702 .ok noDetail []) ∧
         s'.pipe pipe = (s.pipe pipe).writeRows rows clears ∧
         (∀ n, (∀ e ∈ rows, e.1 ≠ n) → n ∉ clears →
           tget (s'.pipe pipe).rules n = tget (s.pipe pipe).rules n) ∧
         (∀ n r, n ∈ clears → tget (s'.pipe pipe).rules n = some r → r.action.valid = false) ∧
         (∀ e ∈ rows, e.1 ∉ (s'.pipe pipe).offRows) ∧
         s' = { s.at t with cls := { s.cls with pipes := s'.cls.pipes, busy := s'.cls.busy }, bay := s'.bay
                            freeCount := s'.freeCount })) ∧
     (∀ start max, Ready h 0x0703 false s → (s.at t).engineBusy pipe h = false →
       exec (.ruleRead t h pipe start max) s = .next ((s.at t).answer h 0x0703 .ok noDetail
         (listPage start max 98 [] ((List.range (min 99 (16384 - start))).map fun i =>
           (start + i, (s.pipe pipe).rowFields (start + i))))))) ∧
  (∀ (t len : Nat) (v6 : Bool) (pfx : BitVec 128) (h : CmdHdr) (s : State), h.part = 0 →
     (s.at t).engineBusy (2 + bit v6) h = false → len ≤ famBits v6 → prefixBits v6 pfx % 2 ^ (famBits v6 - len) = 0 →
     (∀ cls, Ready h 0x0704 false s → 1 ≤ cls → cls < 2 ^ 20 →
       ((s.cls.trie v6).filter fun q => !q.is len (prefixBits v6 pfx)).length <
         (if v6 then 524288 else 1048576) →
       s.poolsFull v6 { len := len, bits := BitVec.ofNat 128 (prefixBits v6 pfx), cls := cls } = false →
       ∃ s' : State, exec (.prefixAdd t h v6 len cls pfx) s =
           .next (s'.answer h 0x0704 .ok noDetail []) ∧
         s'.cls.trie v6 = ((s.cls.trie v6).filter fun q => !q.is len (prefixBits v6 pfx)) ++
           [{ len := len, bits := BitVec.ofNat 128 (prefixBits v6 pfx), cls := cls }] ∧
         s'.cls.trie (!v6) = s.cls.trie (!v6) ∧
         (∀ n ∈ nodesOf v6 { len := len, bits := BitVec.ofNat 128 (prefixBits v6 pfx), cls := cls },
           (aget s'.cls.nodes (bit v6, n.1, n.2)).isSome = true) ∧
         max s.tick t ≤ s'.tick ∧
         s' = { s.at t with tick := s'.tick, cls := s'.cls, freeCount := s'.freeCount }) ∧
     (Ready h 0x0705 false s →
       ((∃ q ∈ s.cls.trie v6, q.is len (prefixBits v6 pfx) = true) →
         ∃ s' : State, exec (.prefixDel t h v6 len pfx) s =
             .next (s'.answer h 0x0705 .ok noDetail []) ∧
           s'.cls.trie v6 = (s.cls.trie v6).filter (fun q => !q.is len (prefixBits v6 pfx)) ∧
           s'.cls.trie (!v6) = s.cls.trie (!v6) ∧
           s' = { s.at t with cls := s'.cls, freeCount := s'.freeCount }) ∧
       ((∀ q ∈ s.cls.trie v6, q.is len (prefixBits v6 pfx) = false) →
         exec (.prefixDel t h v6 len pfx) s = .next ((s.at t).answer h 0x0705 .eState noDetail []))) ∧
     (Ready h 0x0706 false s → ∀ start max,
       exec (.prefixRead t h v6 1 0 start max) s = .next ((s.at t).answer h 0x0706 .ok noDetail
         (listPage start max 1079 [] ((List.range (min 1080 (2 ^ 16 - start))).map fun i =>
           (start + i, [(64, s.cls.slotWord v6 1 0 (start + i))])))) ∧
       ∀ level node, 2 ≤ level → level ≤ (levelEnds v6).length → node < (nodePool v6 level).2 →
         (s.cls.nodes.all fun e => !(e.1.1 == bit v6 && e.1.2.1 == level && e.2 == node)) = true →
         exec (.prefixRead t h v6 level node start max) s = .next ((s.at t).answer h 0x0706 .ok noDetail
           (listPage start max 1079 [] ((List.range (min 1080 (2 ^ ((levelEnds v6)[level - 1]?.getD 0 -
             (levelEnds v6)[level - 2]?.getD 0) - start))).map fun i => (start + i, [(64, 0)])))))) ∧
  (∀ (t vid : Nat) (mac : BitVec 48) (h : CmdHdr) (s : State), h.part = 0 →
     (s.at t).engineBusy 4 h = false →
     (∀ mif k, Ready h 0x0707 false s → mif < 4 → vid < 4096 →
       ((∃ e, s.cls.macFind mac.toNat vid = some (k, e)) ∨
         (s.cls.macFind mac.toNat vid = none ∧ s.cls.macFree mac.toNat vid = some k)) →
       ∃ s' : State, exec (.macStaticAdd t h mif vid mac) s =
           .next (s'.answer h 0x0707 .ok noDetail []) ∧
         tget s'.cls.macs k =
           some { mac := mac, vid := vid, mif := mif, isStatic := true, hit := false } ∧
         (∀ j, j ≠ k → tget s'.cls.macs j = tget s.cls.macs j) ∧
         s' = { s.at t with cls := s'.cls, bay := s'.bay, freeCount := s'.freeCount }) ∧
     (∀ k e, Ready h 0x0707 false s →
       s.cls.macs.find? (fun e => e.2.isStatic && e.2.mac == mac && e.2.vid == vid) = some (k, e) →
       ∃ s' : State, exec (.macStaticRemove t h vid mac) s =
           .next (s'.answer h 0x0707 .ok noDetail []) ∧
         tget s'.cls.macs k = none ∧ (∀ j, j ≠ k → tget s'.cls.macs j = tget s.cls.macs j) ∧
         s' = { s.at t with cls := s'.cls, bay := s'.bay, freeCount := s'.freeCount }) ∧
     (∀ start max, Ready h 0x0708 false s →
       exec (.macRead t h start max) s = .next ((s.at t).answer h 0x0708 .ok noDetail
         (listPage start max 539 [] ((List.range (min 540 (65536 - start))).map fun i =>
           (start + i, s.cls.macWord (start + i)))))) ∧
     (∀ mif, Ready h 0x0709 false s → (mif < 4 ∨ mif = 7) → vid ≤ 0x1000 →
       ∃ (s' : State) (n : Nat), exec (.macFlush t h mif vid) s =
           .next (s'.answer h 0x0709 .ok noDetail (pack [(32, n)])) ∧
         n + s'.cls.macs.length = s.cls.macs.length ∧
         (∀ e, e ∈ s'.cls.macs ↔ e ∈ s.cls.macs ∧ (e.2.isStatic = true ∨ (mif ≠ 7 ∧ e.2.mif ≠ mif) ∨
           (vid ≠ 0x1000 ∧ e.2.vid ≠ vid))) ∧
         s' = { s.at t with cls := s'.cls, freeCount := s'.freeCount })) ∧
  (∀ (t : Nat) (s : State),
     (∀ entry e raced, s.moving = true → tget s.cls.macs entry = some e → e.isStatic = false →
       entry ∉ s.cls.badMacs → entry < 65536 →
       (raced = true → exec (.macAgingPass t entry raced) s = .next ((s.at t).count Ctr.ageRaceKept 0)) ∧
       (raced = false → e.hit = true →
         exec (.macAgingPass t entry raced) s =
           .next ((s.at t).modMac entry fun e => { e with hit := false })) ∧
       (raced = false → e.hit = false →
         s.cls.macAge ≤ idleOf (macTime (max s.tick t) % 2 ^ 24) e.lastSeen (2 ^ 24) →
         exec (.macAgingPass t entry raced) s =
           .next (((s.at t).macWrite (portOf e.mif) entry none).tally Ctr.macAged))) ∧
     (∀ entry e, s.moving = true → tget s.cls.macs entry = some e → e.pinned = true →
       s.cls.macPinHold ≤ idleOf (macTime (max s.tick t) % 2 ^ 28) e.moveWin (2 ^ 28) →
       exec (.macPinRelease t entry) s =
         .next ((s.at t).modMac entry fun e => { e with pinned := false, moves := 0 })) ∧
     (∀ pipe, s.running = true → pipe < 2 →
       (exec (.ruleScrubPass t pipe []) s = .next (s.at t)) ∧
       (∀ row, row < 16384 → (s.pipe pipe).live row = true →
         exec (.ruleScrubPass t pipe [row]) s = .next ((s.at t).ruleFault pipe row))) ∧
     (∀ idx, s.running = true → s.isainUp = true →
       (∀ pipe, pipe < 2 →
         exec (.tableEntryRewrite t pipe idx) s = .next ((s.at t).modPipe pipe fun p => { p with
           offRows := p.offRows.filter (· != idx) }) ∧
         ((s.pipe pipe).tableBase.isSome = true →
           ixBad (s.ixAt ((s.pipe pipe).indexBase + 64 + idx * 16)) = true →
           exec (.tableEntryRewrite t (pipe + 5) idx) s =
             .next (((s.at t).ixPut ((s.pipe pipe).indexBase + 64 + idx * 16) 0).recFreed pipe
               (ixRec (s.ixAt ((s.pipe pipe).indexBase + 64 + idx * 16)))))) ∧
       (exec (.tableEntryRewrite t 2 idx) s = .next ((s.at t).updCls fun c => { c with
         badTrie := c.badTrie.filter fun x => nodeCode x != nodeCode idx })) ∧
       (idx ∈ s.cls.badMacs → exec (.tableEntryRewrite t 4 idx) s = .next ((s.at t).clearMac idx))))

/-- R154, R156, R157: what a source learn does to the MAC table. A known station only refreshes its entry, a
static entry is left alone, a pinned one does not move, a station that moves takes its new interface until
its moves pass `mac_move_max` in the window, when it is pinned where it was first; a new station is learned
while its interface's limit allows it. The pipeline that learns finds the new content at once. -/
def Obligations.MacLearning : Prop :=
  ∀ (ifc mac vid : Nat) (s : State),
    (∀ k e, s.cls.macFind mac vid = some (k, e) →
      (e.isStatic = true → s.macLearn ifc mac vid = (.go, s)) ∧
      (e.isStatic = false → e.mif = ifc →
        s.macLearn ifc mac vid = (.go, s.macWrite (portOf ifc) k (some { e with
          hit := true, lastSeen := macTime s.tick % 2 ^ 24 }))) ∧
      (e.isStatic = false → e.mif ≠ ifc → e.pinned = true →
        s.macLearn ifc mac vid = (.go, s.count Ctr.macLearnPinned ifc)) ∧
      (e.isStatic = false → e.mif ≠ ifc → e.pinned = false →
        (s.macLearn ifc mac vid).1 = .go ∧
        ((e.move ifc s.cls.macMoveWindow s.tick).moves ≤ s.cls.macMoveMax →
          ∃ e', tget (s.macLearn ifc mac vid).2.cls.macs k = some e' ∧ e'.mif = ifc ∧ e'.pinned = false ∧
            e'.mac = e.mac ∧ e'.vid = e.vid) ∧
        (s.cls.macMoveMax < (e.move ifc s.cls.macMoveWindow s.tick).moves →
          ∃ e', tget (s.macLearn ifc mac vid).2.cls.macs k = some e' ∧ e'.pinned = true ∧
            e'.mif = (e.move ifc s.cls.macMoveWindow s.tick).prev))) ∧
    (s.cls.macFind mac vid = none → (s.clsIfc ifc).macLimit ≤ s.cls.learnedOn ifc →
      s.macLearn ifc mac vid = (if (s.clsIfc ifc).learnExcess = 0 then .drop else .flood,
        s.count Ctr.macLimitHit ifc)) ∧
    (s.cls.macFind mac vid = none → s.cls.learnedOn ifc < (s.clsIfc ifc).macLimit →
      s.cls.macFree mac vid = none → s.macLearn ifc mac vid = (.flood, s.count Ctr.macLearnFail ifc)) ∧
    (∀ k, s.cls.macFind mac vid = none → s.cls.learnedOn ifc < (s.clsIfc ifc).macLimit →
      s.cls.macFree mac vid = some k →
      (s.macLearn ifc mac vid).1 = .go ∧
      ∃ e, tget (s.macLearn ifc mac vid).2.cls.macs k = some e ∧ e.mac = BitVec.ofNat 48 mac ∧
        e.vid = vid ∧ e.mif = ifc ∧ e.isStatic = false ∧ e.pinned = false) ∧
    (∀ pipe k e, (∀ x ∈ s.cls.macOld, x.1.1 ≠ pipe) →
      tget (s.macWrite pipe k e).cls.macs k = e ∧
      (∀ j, j ≠ k → tget (s.macWrite pipe k e).cls.macs j = tget s.cls.macs j) ∧
      ((s.macWrite pipe k e).macLook pipe mac vid).1 = (s.macWrite pipe k e).cls.macFind mac vid)

/-- R149, R151, R160: the flow step of a frame whose bucket is at hand. A hit refreshes its entry, unless
the table is locked, and updates its record; a frame whose key is being learned waits; a miss under a rule
that does not learn goes on. R151, R158: a learn completes by writing its index entry, valid, not yet hit;
the scanner clears the hit bit of an entry it finds hit, drops one that has been idle for `flow_age`, and
leaves one that changed since it was read. R159, R395: `FLOW_READ` returns the entry and the statistics half
of a flow, `FLOW_DELETE` removes the entry of a flow; both answer `E_STATE` where there is none, and a
delete that races answers `E_CONFLICT`. R160: the lock bit. A window write with its right sets or clears
`tbl_ctl`; with no learn in flight that is all it does. R263, R265, R267, R268: recurrent updates. A
completed one writes the record's state, one whose record has gone writes nothing, and one older than 20 µs
is dropped. R270, R395: the baseline commands: a creation without a source or an index is refused with `E_ARG`,
and the other settings have their defaults. R271: a window closes: its count is folded in, a baseline
leaves its training state only after more than 16 windows, and an alarm is counted and reported exactly when
the state enters or leaves `HIGH` or `LOW`. -/
def Obligations.FlowsAndBaselines : Prop :=
  (∀ (t id : Nat) (f : Frame) (a : RuleAction) (s : State), s.moving = true → s.frame id = some f →
     f.stage = .flowMiss → f.act = some a →
     ((∃ e ∈ (s.pipe (portOf f.ifc)).learning,
         e.2.key = keySorted (s.pipe (portOf f.ifc)).flowSym f.key) →
       exec (.flowMissComplete t id) s =
         .next ((s.at t).modFrame id fun f => { f with stage := .learnWait })) ∧
     ((∀ e ∈ (s.pipe (portOf f.ifc)).learning,
         e.2.key ≠ keySorted (s.pipe (portOf f.ifc)).flowSym f.key) →
       (((s.at t).flowTouch (portOf f.ifc) (keySorted (s.pipe (portOf f.ifc)).flowSym f.key)).flowLook
           (portOf f.ifc) (keySorted (s.pipe (portOf f.ifc)).flowSym f.key) = .miss → a.flowMode = 1 →
         exec (.flowMissComplete t id) s = .next (((s.at t).flowTouch (portOf f.ifc)
           (keySorted (s.pipe (portOf f.ifc)).flowSym f.key)).macStep id)) ∧
       (∀ e i, ((s.at t).flowTouch (portOf f.ifc)
           (keySorted (s.pipe (portOf f.ifc)).flowSym f.key)).flowLook (portOf f.ifc)
           (keySorted (s.pipe (portOf f.ifc)).flowSym f.key) = .hit e i →
         exec (.flowMissComplete t id) s = .next (((((s.at t).flowTouch (portOf f.ifc)
           (keySorted (s.pipe (portOf f.ifc)).flowSym f.key)).modPipe (portOf f.ifc)
             (Pipeline.caches e)).flowHit id (portOf f.ifc) e i f).macStep id)))) ∧
  (∀ (t pipe : Nat) (s : State), s.moving = true → s.mem.wf = true →
     (∀ i l, tget (s.pipe pipe).learning i = some l →
       (∀ e ∈ s.parser.frames, e.2.stage ≠ .learnWait) →
       exec (.flowLearnComplete t pipe i) s = .next (((s.at t).ixPut l.entry
         (ixWord (keySig l.key) i (seenAt (max s.tick t)) false)).modPipe pipe fun p =>
           { Pipeline.caches l.entry p with learning := tdel p.learning i })) ∧
     (∀ entry raced, (s.pipe pipe).tableBase.isSome = true → s.flowLocked pipe = false →
       entry < (s.pipe pipe).flowRecords * 2 →
       s.mem.faultsIn ((s.pipe pipe).indexBase + 64 + entry * 16) 16 = [] →
       ixValid (s.ixAt ((s.pipe pipe).indexBase + 64 + entry * 16)) = true →
       ixBad (s.ixAt ((s.pipe pipe).indexBase + 64 + entry * 16)) = false →
       (raced = true →
         exec (.flowAgingPass t pipe entry raced) s = .next ((s.at t).count Ctr.ageRaceKept pipe)) ∧
       (raced = false → ixHit (s.ixAt ((s.pipe pipe).indexBase + 64 + entry * 16)) = true →
         ∃ s' : State, exec (.flowAgingPass t pipe entry raced) s = .next s' ∧
           (s'.ixAt ((s.pipe pipe).indexBase + 64 + entry * 16)) =
             ixWord (ixSig (s.ixAt ((s.pipe pipe).indexBase + 64 + entry * 16)))
               (ixRec (s.ixAt ((s.pipe pipe).indexBase + 64 + entry * 16)))
               (ixSeen (s.ixAt ((s.pipe pipe).indexBase + 64 + entry * 16))) false ∧
           s' = { s.at t with mem := s'.mem }) ∧
       (raced = false → ixHit (s.ixAt ((s.pipe pipe).indexBase + 64 + entry * 16)) = false →
         (s.pipe pipe).flowAge ≤ idleOf (seenAt (max s.tick t))
           (ixSeen (s.ixAt ((s.pipe pipe).indexBase + 64 + entry * 16))) (2 ^ 28) →
         ∃ s' : State, exec (.flowAgingPass t pipe entry raced) s = .next s' ∧
           ixValid (s'.ixAt ((s.pipe pipe).indexBase + 64 + entry * 16)) = false ∧
           s'.counter Ctr.flowAged pipe = min (s.counter Ctr.flowAged pipe + 1) (2 ^ 64 - 1) ∧
           s' = { s.at t with mem := s'.mem, cls := s'.cls, obs := s'.obs }))) ∧
  (∀ (t pipe : Nat) (key : FlowKey) (h : CmdHdr) (s : State), h.part = 0 → pipe < 2 →
     (s.at t).engineBusy (5 + pipe) h = false →
     (∀ a i, s.flowLook pipe (keySorted (s.pipe pipe).flowSym key) = .hit a i →
       (Ready h 0x070B false s →
         exec (.flowRead t h pipe key) s = .next (((s.at t).flowTouch pipe
           (keySorted (s.pipe pipe).flowSym key)).answer h 0x070B .ok noDetail
           (pack [(128, s.ixAt a), (1024, s.recStats pipe i)]))) ∧
       (Ready h 0x070A false s →
         (exec (.flowDelete t h pipe key false) s = .next (((((s.at t).flowTouch pipe
           (keySorted (s.pipe pipe).flowSym key)).flowDrop pipe a).engage (5 + pipe) engineTime h).answer h
             0x070A .ok noDetail [])) ∧
         (exec (.flowDelete t h pipe key true) s = .next (((s.at t).flowTouch pipe
           (keySorted (s.pipe pipe).flowSym key)).answer h 0x070A .eConflict noDetail [])))) ∧
     (s.flowLook pipe (keySorted (s.pipe pipe).flowSym key) = .miss →
       (Ready h 0x070B false s →
         exec (.flowRead t h pipe key) s = .next (((s.at t).flowTouch pipe
           (keySorted (s.pipe pipe).flowSym key)).answer h 0x070B .eState noDetail [])) ∧
       (Ready h 0x070A false s → ∀ raced,
         exec (.flowDelete t h pipe key raced) s = .next (((s.at t).flowTouch pipe
           (keySorted (s.pipe pipe).flowSym key)).answer h 0x070A .eState noDetail [])))) ∧
  (∀ (t pipe : Nat) (f : OuvHdr) (x : Session) (w : Window) (b : Nat) (s : State), Accepted t f 0xB x s →
     f.target < 16 → tget s.ouv.windows (winKey x.part f.target) = some w →
     (s.pipe pipe).tableBase = some b → w.base ≤ (s.pipe pipe).indexBase → w.rights.testBit 1 = true →
     ((s.pipe pipe).indexBase - w.base) % 4 = 0 → (s.pipe pipe).indexBase + 4 ≤ w.base + w.pages * 4096 →
     inSoftware (s.pipe pipe).indexBase 4 = true → s.mem.wf = true →
     (∀ p, p ≠ pipe → s.entriesHit p (s.pipe pipe).indexBase 4 = []) →
     (exec (.flowTableLockClear t f pipe) s =
       .next (((s.heard t f x).poke32 (s.pipe pipe).indexBase 0).ackedBy f)) ∧
     ((∀ p, (s.pipe p).learning = []) →
       exec (.flowTableLockSet t f pipe) s =
         .next (((s.heard t f x).poke32 (s.pipe pipe).indexBase 1).ackedBy f) ∧
       (((s.heard t f x).poke32 (s.pipe pipe).indexBase 1).ackedBy f).flowLocked pipe = true)) ∧
  (∀ (t pipe i : Nat) (u : RsUpdate) (s : State), s.moving = true →
     tget (s.pipe pipe).rsFlight i = some u →
     (u.stale = true →
       exec (.rsUpdateDone t pipe i false) s = .next (((s.at t).count Ctr.rsStale pipe).rsNext pipe i)) ∧
     (u.stale = false → max s.tick t ≤ u.tick + 20000 →
       exec (.rsUpdateDone t pipe i true) s =
         .next (((s.at t).count Ctr.rsJobFault ((s.logicalIn u.cluster).headD 0)).rsNext pipe i)) ∧
     (u.stale = false → max s.tick t ≤ u.tick + 20000 → s.halfReadable pipe i = true →
       exec (.rsUpdateDone t pipe i false) s = .next ((((s.at t).touchHalf pipe i).rsWrite pipe i u).rsNext pipe i)) ∧
     (u.tick + 20000 ≤ max s.tick t →
       exec (.rsUpdateTimeout t pipe i) s = .next (((s.at t).count Ctr.rsSkip pipe).rsNext pipe i)) ∧
     (tget (s.pipe pipe).rsWait i = none → tget ((s.rsNext pipe i).pipe pipe).rsFlight i = none)) ∧
  (∀ (t bl : Nat) (x : BaselineSpec) (y : Baseline) (h : CmdHdr) (s : State),
     (Ready h 0x0901 false s → BaselineSpec.missing x = false → y = BaselineSpec.over x {} →
       (∀ e ∈ s.baselineChecks h.part x y, e.1 = none) → bl < 4096 →
       tget s.models.baselines bl = none → s.models.baselines.length < 4096 →
       exec (.baselineCreate t h bl x) s =
         .next (((s.at t).startBaseline bl h.part y).answer h 0x0901 .ok noDetail (pack [(12, bl)])) ∧
       some y.source = x.source ∧ some y.index = x.index ∧ y.winNs = x.winNs.getD 1000000000 ∧
       y.zHi = x.zHi.getD 0x40800000 ∧ y.zLo = x.zLo.getD none ∧
       tget ((s.at t).startBaseline bl h.part y).bases bl = some { winStart := max s.tick t
                                                                   countStart := s.sourceCount y h.part }) ∧
     (Ready h 0x0901 false s → BaselineSpec.missing x = true →
       exec (.baselineCreate t h bl x) s = .next ((s.at t).answer h 0x0901 .eArg noDetail [])) ∧
     (s.hasBaseline bl = true → (h.part = 0 ∨ h.part = s.baselineOwner bl) →
       (Ready h 0x0901 false s → y = BaselineSpec.over x (s.baseline bl) →
         (∀ e ∈ s.baselineChecks h.part x y, e.1 = none) →
         exec (.baselineChange t h bl x) s =
           .next (((s.at t).changeBaseline bl y).answer h 0x0901 .ok noDetail (pack [(12, bl)])) ∧
         tget ((s.at t).changeBaseline bl y).models.baselines bl = some (y, s.baselineOwner bl) ∧
         tget ((s.at t).changeBaseline bl y).bases bl = some { tgetD s.bases bl {} with
           w := 0
           state := 0
           winStart := max s.tick t
           countStart := s.sourceCount y (s.baselineOwner bl) }) ∧
       (Ready h 0x0901 false s →
         ∃ s' : State, exec (.baselineDelete t h bl) s =
             .next (s'.answer h 0x0901 .ok noDetail (pack [(12, bl)])) ∧
           s'.hasBaseline bl = false ∧ (∀ k, k ≠ bl → tget s'.models.baselines k = tget s.models.baselines k) ∧
           s' = { s.at t with models := s'.models, bases := s'.bases }) ∧
       (Ready h 0x0902 false s →
         exec (.baselineRead t h bl) s = .next ((s.at t).answer h 0x0902 .ok noDetail
           (pack [(2, (tgetD s.bases bl {}).state), (32, (tgetD s.bases bl {}).w),
             (32, (tgetD s.bases bl {}).mean.toNat), (32, (tgetD s.bases bl {}).var.toNat),
             (32, (tgetD s.bases bl {}).z.toNat)]))))) ∧
  (∀ (t bl owner : Nat) (x : Baseline) (s : State), s.moving = true →
     tget s.models.baselines bl = some (x, owner) →
     (tgetD s.bases bl {}).winStart + x.winNs ≤ max s.tick t →
     ∃ s' : State, exec (.baselineWindowClose t bl) s = .next s' ∧
       (tgetD s'.bases bl {}) = (tgetD s.bases bl {}).fold x
         (s.sourceCount x owner - (tgetD s.bases bl {}).countStart) (max s.tick t) (s.sourceCount x owner) ∧
       (tgetD s'.bases bl {}).w = (tgetD s.bases bl {}).w + 1 ∧
       ((tgetD s'.bases bl {}).w ≤ 16 → (tgetD s'.bases bl {}).state = 0) ∧
       (alarmed (tgetD s.bases bl {}).state (tgetD s'.bases bl {}).state = false → s'.obs = s.obs ∧ s'.sent = s.sent) ∧
       (alarmed (tgetD s.bases bl {}).state (tgetD s'.bases bl {}).state = true →
         ∃ s1 : State, s1 = { s.at t with bases := s1.bases } ∧
           s' = (s1.count Ctr.blAlarm bl).event owner 0x0004
             [(12, bl), (2, (tgetD s'.bases bl {}).state), (32, (tgetD s'.bases bl {}).z.toNat),
               (32, (tgetD s'.bases bl {}).w)] 0))

/-- R149, R160: a hit refreshes its entry: same signature and record, `last_seen` of now, the hit bit set;
while the table is locked it changes no entry. -/
def Obligations.FlowHitRefreshes : Prop :=
  ∀ (id pipe entry record : Nat) (f : Frame) (s : State), s.mem.wf = true →
    (s.flowLocked pipe = true →
      s.flowHit id pipe entry record f = s.flowUpdate id pipe record false f (s.recStats pipe record)) ∧
    (s.flowLocked pipe = false →
      ∃ s1 : State, s1.ixAt entry = ixWord (ixSig (s.ixAt entry)) (ixRec (s.ixAt entry)) (seenAt s.tick) true ∧
        (∀ a, a < entry ∨ entry + 16 ≤ a → memGet s1.mem.bytes a = memGet s.mem.bytes a) ∧
        s.flowHit id pipe entry record f = s1.flowUpdate id pipe record false f (s1.recStats pipe record))

/-- R258, R255: every per-packet update adds one to a record's packets and the frame's bytes to its bytes,
each saturating at its width, keeps the flow's key, never lowers the largest frame length, and never moves
`last_tick` back. -/
def Obligations.FlowRecordUpdate : Prop :=
  ∀ (isNew : Bool) (warm : Nat) (f : Frame) (r : Nat), r < 2 ^ 1024 → f.rxTick < 2 ^ 64 → f.len < 2 ^ 16 →
    bitsOf (recUpdate isNew warm f r) 543 512 = min (bitsOf r 543 512 + 1) (2 ^ 32 - 1) ∧
    bitsOf (recUpdate isNew warm f r) 511 464 = min (bitsOf r 511 464 + f.len) (2 ^ 48 - 1) ∧
    recUpdate isNew warm f r / 2 ^ 672 = r / 2 ^ 672 ∧
    bitsOf (recUpdate isNew warm f r) 143 128 = max (bitsOf r 143 128) f.len ∧
    (isNew = false → bitsOf r 607 544 ≤ bitsOf (recUpdate isNew warm f r) 607 544) ∧
    (isNew = true → bitsOf (recUpdate isNew warm f r) 671 608 = f.rxTick)

/-- R259: `flow_warm_pkts` is set per pipeline from 0 to 255 and defaults to 4; a frame's update makes its
record warm once it has that many packets, from the first frame on with 0, and a record that is warm stays
warm. -/
def Obligations.FlowWarmPackets : Prop :=
  (∀ k, (State.reset.pipe k).warmPkts = 4) ∧
  (∀ (r : SetRec) (s : State), r.id = 2 → 1 ≤ r.len → r.len ≤ 256 → r.scope < 2 →
    (flowChk s r = none ↔ r.value ≤ 255) ∧
    ((flowApply s r).pipe r.scope).warmPkts = r.value ∧
    (∀ k, k ≠ r.scope → (flowApply s r).pipe k = s.pipe k)) ∧
  ∀ (isNew : Bool) (warm : Nat) (f : Frame) (r : Nat), r < 2 ^ 1024 → f.rxTick < 2 ^ 64 → f.len < 2 ^ 16 →
    ((recUpdate isNew warm f r).testBit 47 = true ↔
      r.testBit 47 = true ∨ warm ≤ bitsOf (recUpdate isNew warm f r) 543 512) ∧
    (warm = 0 → (recUpdate isNew warm f r).testBit 47 = true)

/-- R90, R98, R106, R107, R315: the entry at the head of a `REQUEST` ring. Its context is fetched where it is not
cached. A request that is refused is consumed with its status; one that finds a slot is admitted; one that finds
none waits, and gets rung 3 with reason 4 once its limit has passed. R106,
R248, R262: an admitted slot starts on its clusters; its reverse lookup settles the features of the other
direction, missing where there is no such flow; at the cut-off its encoders, shares and groups stop. R234,
R242, R253: a walk runs to its leaf or to a pending feature; a word of the item's vector that cannot be had reads as
missing first, a node's voids the share's stage, and which of the two it is, is open; a bad copy is good again once it
has been copied anew from the container, unless that cannot be read. R252: a frame that waits for a packet-model core has its trees walked
and its score composed with K = 1, or gets rung 3 with reason 3 where the score is not finite; a vector word that
cannot be corrected spoils its features first, a node word gives rung 3 with reason 7; after 1 µs without a walk
slot it gets rung 3 with reason 6, counted. R129, R130: the oldest frame of the scan queue
goes to a free engine; a scan's end puts its match block into the frame's slot and frees the engine. -/
def Obligations.RequestsAndModels : Prop :=
  (∀ (t ring : Nat) (ws : List W64) (q : Req) (m : Model) (u s : State),
     s.admits ring = true → (s.ring ring).rtype = 1 → s.cached ring = true →
     s.entryReadable ring (s.ring ring).consIdx = true →
     ws = s.entryWords ring (s.ring ring).consIdx →
     headRefusal 1 (s.ring ring).consIdx ws = none → headKind (wordOf ws 0) = 0x01 →
     u = ((s.at t).useCtx ring).touch ((s.ring ring).addr (s.ring ring).consIdx)
       (s.ring ring).entryBytes 0 →
     q = parseReq ((u.ring ring).esize == 1) ws →
     (∀ st, u.reqRefusal (u.ring ring).owner q = some st →
       exec (.requestAdmit t ring) s = .next (u.refuseEntry ring (s.ring ring).consIdx ws 1 st)) ∧
     (u.reqRefusal (u.ring ring).owner q = none → u.liveModel (u.ring ring).owner q.model = some m →
       (u.canServe (u.ring ring).owner = true →
         exec (.requestAdmit t ring) s = .next (u.admitReq ring (s.ring ring).consIdx q m)) ∧
       (u.canServe (u.ring ring).owner = false →
         exec (.requestAdmit t ring) s = .next (u.waitSlot ring (s.ring ring).consIdx))) ∧
     (u.liveModel (u.ring ring).owner q.model = some m →
       (s.ring ring).slotWait = some (s.ring ring).consIdx →
       (u.tick < (u.ring ring).waitLimit q m → exec (.slotWaitExpiry t ring) s = .next u) ∧
       ((u.ring ring).waitLimit q m ≤ u.tick →
         ∃ (v : Verdict) (a : Nat), v = (m.defaultVerdict 4).stamp a u.tick
             (u.domain (u.ring ring).owner).epoch (u.ring ring).owner ∧
           exec (.slotWaitExpiry t ring) s = .next ((((u.fresh.2.countVerdict (u.ring ring).owner
             v).consume ring 1).modRing ring fun r => { r with
               opened := r.opened ++ [(s.ring ring).consIdx] }).ringItem (u.ring ring).cqRing
             (verdictItem ring (s.ring ring).consIdx q.cookie .ok (verdictWords v)))))) ∧
  (∀ (t ring : Nat) (s : State), s.cached ring = false →
     (s.admits ring = true → (s.ring ring).rtype = 1 →
       exec (.requestAdmit t ring) s = .next ((s.at t).missCtx ring none)) ∧
     (s.stands ring = true → (s.ring ring).slotWait = some (s.ring ring).consIdx →
       exec (.slotWaitExpiry t ring) s = .next ((s.at t).missCtx ring none)) ∧
     ((s.ring ring).rtype = 1 → (s.ring ring).inflightMax ≤ (s.ring ring).inflight →
       s.admits ring = false)) ∧
  (∀ (t k : Nat) (m : Model) (s : State), s.moving = true → s.slotModel k = some m →
     ((s.slot k).state = .admitted →
       ((∃ n i, (s.slot k).src = .ring n i) ∨
         (∃ id f, (s.slot k).src = .frame id ∧ s.frame id = some f ∧ f.stage = .deep)) →
       exec (.slotRunning t k) s = .next ((s.at t).startRequest k m)) ∧
     (∀ id f, (s.slot k).state = .running → (s.slot k).revPending = true →
       (s.slot k).src = .frame id → s.frame id = some f →
       s.flowLook (s.reverseKey f).2 (s.reverseKey f).1 = .miss →
       exec (.reverseLookupDone t k) s =
         .next ((m.inputs.filter fun x => x.kind == 3 && decide (128 ≤ x.argA)).foldl
           (fun s x => s.settleFeats k [x.featBase] fun _ _ => none)
           ((((((s.at t).flowTouch (s.reverseKey f).2 (s.reverseKey f).1).count Ctr.revLookup
             (s.reverseKey f).2).fresh.2.count Ctr.revMiss (s.reverseKey f).2).modSlot k fun x =>
               { x with revPending := false })))) ∧
     (∀ id f a i p, (s.slot k).state = .running → (s.slot k).revPending = true →
       (s.slot k).src = .frame id → s.frame id = some f → p = (s.reverseKey f).2 →
       s.flowLook p (s.reverseKey f).1 = .hit a i → (s.recStats p i).testBit 47 = false →
       s.halfReadable p i = true →
       exec (.reverseLookupDone t k) s =
         .next ((m.inputs.filter fun x => x.kind == 3 && decide (128 ≤ x.argA)).foldl
           (fun s x => s.settleFeats k [x.featBase] fun _ _ => none)
           (((fun u : State => if m.inputs.any fun x => x.kind == 3 && decide (154 ≤ x.argA)
               then u.touchHalf p i else u)
             ((((s.at t).flowTouch p (s.reverseKey f).1).count Ctr.revLookup p).fresh.2.count Ctr.revMiss
               p)).modSlot k fun x => { x with revPending := false }))) ∧
     ((s.slot k).state = .running → s.cutoff k ≤ max s.tick t →
       exec (.deadlineCutoff t k) s = .next (((((s.at t).stopEncoders k (s.slot k).gen).stopShares k
         (s.slot k).gen).closeSlotGroups k (s.slot k).gen).settle2))) ∧
  (∀ (t core : Nat) (s : State), s.moving = true →
     (∀ i w m, tget (s.core core).walks i = some w → w.parked = none → s.slotModel w.slot = some m →
       exec (.walkComplete t core i .clean) s = .next ((s.at t).runWalk core i w m).settle2 ∧
       exec (.walkComplete t core i .corrected) s =
         .next (((s.at t).nodeWord core w m .corrected).runWalk core i w m).settle2 ∧
       (∀ check, check = .poisoned ∨ check = .uncorrectable →
         exec (.walkComplete t core i check) s =
             .next (((s.at t).fresh.2.nodeWord core w m check).walkFault core i w m).settle2 ∨
         exec (.walkComplete t core i check) s =
             .next ((((s.at t).fresh.2.copyWord core false check).featFault core w m).runWalk core i w
               m).settle2)) ∧
     (∀ domain handle epoch check m u, (s.core core).badShards = [(domain, handle, epoch)] →
       (s.core core).deadShards = [] → s.modelAt domain epoch handle = some m →
       u = ((s.at t).strike [(m.cAddr, m.cLen)] check).touch m.cAddr m.cLen 0 →
       ((check = .clean ∨ check = .corrected) → s.mem.readable m.cAddr m.cLen = true →
         exec (.shardRecopyDone t core domain handle check) s =
           .next (u.modCore core fun c => { c with
             badShards := []
             shardNodes := aset c.shardNodes (domain, handle, epoch) ((List.range m.nodes.length).map fun i =>
               BitVec.ofNat 128 (u.leAt (m.nodesAt + 16 * i) 16)) }).settle2) ∧
       ((check = .uncorrectable ∨ check = .poisoned) →
         exec (.shardRecopyDone t core domain handle check) s =
           .next ((u.modCore core fun c => { c with
             deadShards := c.deadShards ++ [(domain, handle, epoch)] }).event (domainOwner domain) 0x0007
               [(7, domain), (16, handle), (16, epoch)] 0).settle2)) ∧
     (∀ domain handle check, (s.core core).badShards = (s.core core).deadShards →
       exec (.shardRecopyDone t core domain handle check) s = .next (s.at t)) ∧
     (∀ x epoch k, s.epochBad core x epoch = true → s.pmEpoch k = some epoch → x = packetDomain →
       s.pmCore k core = false)) ∧
  (∀ (t id core since : Nat) (f : Frame) (m : Model) (s : State), s.moving = true →
     s.frame id = some f → f.stage = .pmWait since → s.pmModel id = some m →
     (∀ x l u, s.pmCore id core = true → x = s.packetItem m f → l = s.pmWalks id core m x →
       u = ({ s.at t with freeCount := s.freeCount + m.trees.length }).countRun core (runVisits l)
         ((l.map fun (e : Nat × WalkEnd) => e.2.badReads x).sum) →
       (∀ ys, m.scores ((m.stages.head?.map (·.corr)).getD []) 1
           (m.sumLeaves (shuffle l.length s.freeCount l)) = some ys →
         exec (.packetModelWalk t id core .clean) s = .next (u.pmVerdict id (m.mapScores 1 1 1 ys))) ∧
       (m.scores ((m.stages.head?.map (·.corr)).getD []) 1
           (m.sumLeaves (shuffle l.length s.freeCount l)) = none →
         exec (.packetModelWalk t id core .clean) s =
           .next (u.pmVerdict id { m.defaultVerdict 3 with stages := 1 })) ∧
       exec (.packetModelWalk t id core .corrected) s =
         .next (((s.at t).copyWord core true .corrected).pmScore id core m x) ∧
       (∀ check, check = .poisoned ∨ check = .uncorrectable →
         exec (.packetModelWalk t id core check) s =
             .next (((s.at t).fresh.2.copyWord core true check).pmFault id core m x) ∨
         ∃ v : State, v = (s.at t).fresh.2.copyWord core false check ∧
           exec (.packetModelWalk t id core check) s = .next (v.fresh.2.pmScore id core m
             (x.spoiled (v.pmWalks id core m x) m.params.nFeat v.fresh.1))) ∧
       (∀ v : State, ∃ j bad, v.pmFault id core m x =
         ((v.fresh.2.countRun core j bad).markShard core packetDomain m.handle
           ((v.pmEpoch id).getD 0)).pmVerdict id (m.defaultVerdict 7))) ∧
     (since + 1000 ≤ max s.tick t →
       exec (.pmWaitExpiry t id) s =
         .next (((s.at t).tally Ctr.pmSlotFull).pmVerdict id (m.defaultVerdict 6)))) ∧
  (∀ (t engine : Nat) (s : State), s.moving = true →
     (∀ id rest, engine < 32 → tget s.parser.engines engine = none → s.scanQueue = id :: rest →
       exec (.patternScanStart t engine) s =
         .next (((s.at t).modFrame id fun x => { x with stage := .scanning engine }).updParser fun p =>
           { p with engines := tset p.engines engine id })) ∧
     (∀ id f k fault, tget s.parser.engines engine = some id → s.frame id = some f → f.slot = some k →
       ∃ s' : State, exec (.patternScanEnd t engine fault) s = .next s' ∧
         tget s'.parser.engines engine = none ∧
         (s'.slot k).matched = (s.at t).scanFrame f fault ∧
         (s'.frame id).map (·.stage) = some .deep ∧
         (fault = true → (s'.slot k).matched.status = 4) ∧
         (∀ j, j ≠ k → s'.slot j = s.slot j)))

/-- R315, R316, R308: a slot's deadline is never past its model's longest budget, and a clamp is counted; a
slot whose cut-off has passed when it is placed, or that no cluster or whole binding can serve, gets rung 3
with its reason; else the first whole binding at or after the lead's serves it. -/
def Obligations.SlotPlacement : Prop :=
  ∀ (k : Nat) (m : Model) (s : State),
    (∀ d, ((s.clampDeadline k d m).slot k).deadline =
        min d ((s.slot k).admitAt + m.params.maxBudget) ∧
      (d ≤ (s.slot k).admitAt + m.params.maxBudget → (s.clampDeadline k d m).obs = s.obs) ∧
      ((s.slot k).admitAt + m.params.maxBudget < d →
        (s.clampDeadline k d m).counter Ctr.dlClamped (modelScope (s.slot k).part (s.slot k).model) =
          min (s.counter Ctr.dlClamped (modelScope (s.slot k).part (s.slot k).model) + 1)
            (2 ^ 64 - 1))) ∧
    (∀ lead, s.cutoff k ≤ (s.slot k).admitAt → s.placeSlot k lead m = s.postDefault k 2) ∧
    (∀ lead, (s.slot k).admitAt < s.cutoff k →
      (lead = none → s.placeSlot k lead m = s.postDefault k 5) ∧
      (∀ c, lead = some c → s.chooseBinding (s.slot k).part c m = none →
        s.placeSlot k lead m = s.postDefault k 5) ∧
      (∀ c b, lead = some c → s.chooseBinding (s.slot k).part c m = some b →
        b ∈ m.bindings ∧ s.bindingWhole (s.slot k).part m b = true ∧
        (s.placeSlot k lead m).slot k = { s.slot k with lead := c, binding := b.clusters } ∧
        s.placeSlot k lead m = { s with rings := (s.placeSlot k lead m).rings }))

/-- R57, R163, R164, R165, R137, R140: what egress does with a frame's decision. A default action drops, or
forwards; a frame that came in on an `ENDPOINT` interface is dropped and counted in `rx_not_local`, whatever was
decided to send it on; a verdict `DROP` drops and is counted; a verdict naming a ring or policer that is not its
partition's forwards and is counted; without a verdict the rule acts, counted in `eg_no_verdict`; a frame
held past the `eg_hold_max` it was admitted under goes to egress with its rule, its slot freed. R177, R179: gate lists. A list set
while wall time is not disciplined is pending; a pending list starts at its time with the states of its
first entry; a running list goes from entry to entry and from cycle to cycle, and anew from its start after a step
of wall time; an empty list removes the
interface's list, at the end of a running cycle. R61, R175: a drain ends when no admitted frame is left and
the queues are empty, or when `drain_timeout` has passed after its third step, with what is left dropped;
`QUEUE_STATS` answers the queues' counts, and with `clear` zeroes their marks and nothing else. -/
def Obligations.EgressWork : Prop :=
  (∀ (t id : Nat) (bad : Option Nat) (f : Frame) (s : State), s.moving = true → s.frame id = some f →
     (f.stage = .egress →
       (f.set.role ≠ 4 → s.discard id f = s.dropFrame id) ∧
       (f.set.role = 4 → s.discard id f = (s.count Ctr.rxNotLocal f.ifc).dropFrame id ∧
         ∀ hdr pols out, s.forward id f hdr pols = s.discard id f ∧
           s.steer id f hdr pols out = s.discard id f) ∧
       (f.decision = some (.dflt 1 false) →
         exec (.egressDecision t id bad) s = .next ((s.at t).discard id f)) ∧
       (f.decision = some .drop →
         exec (.egressDecision t id bad) s = .next ((s.at t).discard id f)) ∧
       (∀ a, f.decision = some .flood → f.act = some a →
         exec (.egressDecision t id bad) s = .next ((s.at t).flood id f
           (if a.annotate then some (verdictHeader none a.fwdAction) else none) [a.policer])) ∧
       (f.decision = some .unclassified →
         exec (.egressDecision t id bad) s = .next ((s.at t).forward id f none [])) ∧
       (∀ a, f.decision = some .rule → f.act = some a →
         (a.fwdAction = 1 → exec (.egressDecision t id bad) s =
           .next (((s.at t).count Ctr.egNoVerdict f.ifc).discard id f)) ∧
         (a.fwdAction = 0 → a.annotate = false → exec (.egressDecision t id bad) s =
           .next (((s.at t).count Ctr.egNoVerdict f.ifc).forward id f none [a.policer])) ∧
         (a.fwdAction = 2 → a.annotate = false → exec (.egressDecision t id bad) s =
           .next (((s.at t).count Ctr.egNoVerdict f.ifc).steer id f none [a.policer]
             (a.egressArg % 4))) ∧
         (a.fwdAction = 5 → exec (.egressDecision t id bad) s =
           .next ((((s.at t).count Ctr.egNoVerdict f.ifc).copyFrame (a.egressArg % 4096) f 2
             none).discard id f))) ∧
       (∀ v a, f.decision = some (.verdict v) → f.act = some a →
         (v.action = 1 → exec (.egressDecision t id bad) s =
           .next (((s.at t).count Ctr.txVerdictDrop f.ifc).discard id f)) ∧
         (v.action = 2 → v.annotate = false → a.annotate = false →
           exec (.egressDecision t id bad) s =
             .next ((s.at t).steer id f none [a.policer] (v.arg % 4))) ∧
         (v.action = 4 → s.verdictMay v = true → v.annotate = false → a.annotate = false →
           exec (.egressDecision t id bad) s =
             .next ((s.at t).forward id f none [a.policer, v.arg % 4096])) ∧
         (v.action = 5 → s.verdictMay v = true → exec (.egressDecision t id bad) s =
           .next (((s.at t).copyFrame (v.arg % 4096) f 3 (some v)).discard id f)) ∧
         (s.verdictMay v = false → v.annotate = false → a.annotate = false →
           exec (.egressDecision t id bad) s =
             .next (((s.at t).count Ctr.egVerdictPriv f.ifc).forward id f none [a.policer])))) ∧
     (∀ (k : Nat), f.stage = .deep → f.slot = some k → f.heldSince + f.set.holdMax ≤ max s.tick t →
       exec (.egHoldExpiry t id) s =
         .next (((((s.at t).abandon k).freeSlot k).settle2).modFrame id fun f =>
           { f with slot := none, decision := some .rule, stage := .egress }))) ∧
  (∀ (t ifc : Nat) (h : CmdHdr) (s : State), ifc < 4 →
     (∀ base cycle entries, Ready h 0x0803 false s → h.part = 0 → entries ≠ [] → entries.length ≤ 256 →
       1000 ≤ cycle → cycle ≤ 1000000000 → (∀ e ∈ entries, 100 ≤ e.2 ∧ e.2 ≤ 1000000000) →
       s.wall.state = 0 →
       ∃ s' : State, exec (.gateListSet t h ifc base cycle entries) s =
           .next (s'.answer h 0x0803 .ok noDetail (pack [(64, 0)])) ∧
         (s'.gates ifc).pending =
           some { base := base, cycle := cycle, entries := entries, start := base } ∧
         (s'.gates ifc).running = (s.gates ifc).running ∧
         (s'.gates ifc).states = (s.gates ifc).states) ∧
     (Ready h 0x0803 false s → h.part = 0 → (s.gates ifc).running = none →
       ∃ s' : State, exec (.gateListRemove t h ifc) s =
           .next (s'.answer h 0x0803 .ok noDetail (pack [(64, s.wallWord (max s.tick t))])) ∧
         (s'.gates ifc).pending = none ∧ (s'.gates ifc).running = none ∧
         (s'.gates ifc).states = 0xFF) ∧
     (∀ l e, Ready h 0x0803 false s → h.part = 0 → (s.gates ifc).running = some l →
       e = (if (s.gates ifc).entryEnd = l.start then l.start else (s.gates ifc).cycleStart + l.cycle) →
       ∃ s' : State, exec (.gateListRemove t h ifc) s =
           .next (s'.answer h 0x0803 .ok noDetail (pack [(64, e)])) ∧
         (s'.gates ifc).pending = none ∧ (s'.gates ifc).running = some l ∧
         (s'.gates ifc).stopAt = some e ∧
         (s'.gates ifc).states = (s.gates ifc).states) ∧
     (∀ l, s.moving = true → s.wall.state ≠ 0 → (s.gates ifc).pending = some l →
       l.start ≤ s.wallWord (max s.tick t) →
       ∃ s' : State, exec (.gateListStart t ifc) s = .next s' ∧
         s'.gates ifc = ({
           running := some l
           states := l.statesOf 0
           cycleStart := l.start
           entryEnd := l.start + l.endOf 0 } : Gates) ∧ s' = { s.at t with eg := s'.eg }) ∧
     (∀ l, s.moving = true → (s.gates ifc).running = some l →
       (s.gates ifc).entryEnd ≤ s.wallWord (max s.tick t) →
       ∃ s' : State, exec (.gateEntryAdvance t ifc) s = .next s' ∧ s' = { s.at t with eg := s'.eg } ∧
         ((s.gates ifc).entryEnd = l.start → (s.gates ifc).stopAt = none →
           (s'.gates ifc).index = 0 ∧ (s'.gates ifc).states = l.statesOf 0 ∧
           (s'.gates ifc).cycleStart = l.start ∧ (s'.gates ifc).running = some l) ∧
         ((s.gates ifc).entryEnd ≠ l.start → (s.gates ifc).index + 1 < l.used →
           (s'.gates ifc).index = (s.gates ifc).index + 1 ∧
           (s'.gates ifc).states = l.statesOf ((s.gates ifc).index + 1) ∧
           (s'.gates ifc).running = some l) ∧
         ((s.gates ifc).entryEnd ≠ l.start → l.used ≤ (s.gates ifc).index + 1 →
           (s.gates ifc).stopAt = none →
           (s'.gates ifc).index = 0 ∧ (s'.gates ifc).states = l.statesOf 0 ∧
           (s'.gates ifc).cycleStart = (s.gates ifc).cycleStart + l.cycle) ∧
         (l.used ≤ (s.gates ifc).index + 1 → (s.gates ifc).stopAt ≠ none →
           (s'.gates ifc).running = none ∧ (s'.gates ifc).states = 0xFF))) ∧
  (∀ (t port ifc start : Nat) (h : CmdHdr) (hs : List CmdHdr) (s : State),
     (s.running = true → (s.port port).drain = .draining start hs → s.stillAdmitted port = false →
       s.queuesEmpty port = true →
       exec (.drainComplete t port) s = .next ((s.at t).drained port)) ∧
     (s.running = true → (s.port port).drain = .draining start hs →
       s.heldUntil port start + (s.port port).drainTimeout ≤ max s.tick t → s.portIfcs port = [ifc] →
       exec (.drainTimeout t port) s = .next (((List.range 8).foldl (fun s q => s.clearQueue ifc q)
         (s.at t)).drained port)) ∧
     (ifc < 4 → Ready h 0x0804 true s →
       exec (.queueStats t h ifc) s =
         .next ((s.at t).answer h 0x0804 .ok noDetail (s.queueWords ifc)) ∧
       (h.part = 0 → ∃ s' : State, exec (.queueStatsClear t h ifc) s =
           .next (s'.answer h 0x0804 .ok noDetail (s.queueWords ifc)) ∧
         (∀ q, q < 9 → s'.queue ifc q = { s.queue ifc q with hwmBytes := 0, hwmSojourn := 0 }) ∧
         (∀ i q, i ≠ ifc → q < 10 → s'.queue i q = s.queue i q) ∧
         s' = { s.at t with eg := { s.eg with queues := s'.eg.queues } })))

/-- R169, R170: a policer is a two-rate three-colour marker, colour-blind: a frame longer than the peak
bucket is red and takes nothing, one longer than the committed bucket takes only of the peak one, any other
takes of both; the buckets never hold more than their bursts. -/
def Obligations.PolicerMeters : Prop :=
  ∀ (p : Policer) (bytes tick : Nat),
    (p.meter bytes tick).1.cTokens ≤ p.cbs * 8000 ∧ (p.meter bytes tick).1.pTokens ≤ p.pbs * 8000 ∧
    ((p.meter bytes tick).2 = .red ↔ (p.refill tick).pTokens < bytes * 8000) ∧
    ((p.meter bytes tick).2 = .green ↔ bytes * 8000 ≤ (p.refill tick).pTokens ∧
      bytes * 8000 ≤ (p.refill tick).cTokens) ∧
    ((p.meter bytes tick).2 ≠ .red →
      (p.meter bytes tick).1.pTokens + bytes * 8000 = (p.refill tick).pTokens) ∧
    ((p.meter bytes tick).2 = .green →
      (p.meter bytes tick).1.cTokens + bytes * 8000 = (p.refill tick).cTokens) ∧
    ((p.meter bytes tick).2 ≠ .green → (p.meter bytes tick).1.cTokens = (p.refill tick).cTokens)

/-- R176: at each opportunity the control queue sends first; then the highest strict queue that is eligible;
a queue whose shaper is short, that PFC pauses, or that is empty is not eligible, and where none is nothing
is sent. -/
def Obligations.TransmitOrder : Prop :=
  ∀ (t ifc : Nat) (s : State), s.moving = true → (s.ifc ifc).link = true → ifc < 4 →
    (s.gates ifc).running = none →
    (((s.at t).queue ifc 9).mayShape (max s.tick t) = false →
      exec (.transmitSelect t ifc) s = .next (s.at t)) ∧
    (((s.at t).queue ifc 9).mayShape (max s.tick t) = true →
      ((s.queue ifc 8).ctl ≠ [] → (s.queue ifc 8).mayShape (max s.tick t) = true →
        exec (.transmitSelect t ifc) s = .next ((s.at t).sendCtl ifc)) ∧
      ((s.queue ifc 8).ctl = [] →
        (∀ q id f, q < 8 → 8 ≤ q + tgetD s.eg.strictCount ifc 2 → (s.at t).eligible ifc q = true →
          (∀ r, q < r → r < 8 → (s.at t).eligible ifc r = false) → s.headOf ifc q = some (id, f) →
          exec (.transmitSelect t ifc) s = .next ((s.at t).sendData ifc q id f)) ∧
        ((∀ q, q < 8 → (s.at t).eligible ifc q = false) →
          exec (.transmitSelect t ifc) s = .next (s.at t)))) ∧
    (∀ q, (s.headOf ifc q = none → s.eligible ifc q = false) ∧
      (s.paused ifc q = true → s.eligible ifc q = false) ∧
      ((s.queue ifc q).shapeRate ≠ 0 → ((s.queue ifc q).shaped s.tick).tokens < 0 →
        s.eligible ifc q = false))

/-- R179: a new gate list starts at base + N × cycle, N being the least whole number for which that lies at
least 10 µs after the command completes. -/
def Obligations.GateListStartsLeast : Prop :=
  ∀ (base cycle wall : Nat), 0 < cycle →
    (gateStart base cycle wall).2 = base + (gateStart base cycle wall).1 * cycle ∧
    wall + 10000 ≤ base + (gateStart base cycle wall).1 * cycle ∧
    ∀ n, n < (gateStart base cycle wall).1 → base + n * cycle < wall + 10000

/-- R273, R396: a table is created with its settings, without a generation; a handle in use is refused with
`E_CONFLICT`; a table with no generation that nothing names is removed; `FTABLE_QUERY` answers both
generations, a free one as zeros. R286: staging writes the header of an image with its lock set, zeroes its
index, and touches no other byte; sealing takes a loading generation whose header still stands; dropping
marks a loading or sealed one, which is freed once no remote lookup reads it; a generation that is neither
is refused with `E_STATE`. R281 to R283: how fetches end. A lookup here ends its fetch with the entry's
values or without, and reads a locked entry again every 200 ns, up to four more times; a fetch whose end
tick has passed ends without a value, or falls back where it waits for another device and has time left, and
what its lookup answers then is late. -/
def Obligations.FeatureTables : Prop :=
  (∀ (t table : Nat) (h : CmdHdr) (x : FTable) (s : State),
     (∀ spec : TableSpec, Ready h 0x0A01 false s → table < 65536 → TableSpec.outOfRange spec = false →
       TableSpec.missing spec = false → spec.fallback = none → s.contradicts (TableSpec.table spec h.part) = false →
       (s.table table = none → s.models.tables.length < 1024 →
         (s.models.tables.filter fun e => e.2.owner == h.part).length < 64 →
         ∃ s' : State, exec (.ftableCreate t h table spec) s = .next (s'.answer h 0x0A01 .ok noDetail []) ∧
           s'.table table = some (TableSpec.table spec h.part) ∧ (TableSpec.table spec h.part).gens = [] ∧
           (∀ k, k ≠ table → s'.table k = s.table k) ∧
           s' = { s.at t with models := s'.models, bay := s'.bay }) ∧
       (s.table table = some x →
         exec (.ftableCreate t h table spec) s =
           .next ((s.at t).answer h 0x0A01 .eConflict noDetail []))) ∧
     (s.table table = some x → h.part = 0 ∨ h.part = x.owner →
       (Ready h 0x0A02 false s → x.gens = [] → s.tableRead table = false →
         (∀ e ∈ s.models.tables, e.2.fallback ≠ some table) →
         ∃ s' : State, exec (.ftableDestroy t h table) s = .next (s'.answer h 0x0A02 .ok noDetail []) ∧
           s'.table table = none ∧ (∀ k, k ≠ table → s'.table k = s.table k)) ∧
       (Ready h 0x0A02 false s → x.gens ≠ [] →
         exec (.ftableDestroy t h table) s = .next ((s.at t).answer h 0x0A02 .eState noDetail [])) ∧
       (∀ y, Ready h 0x0A03 true s → x.gens = [y] →
         exec (.ftableQuery t h table) s = .next ((s.at t).answer h 0x0A03 .ok noDetail
           (pack [(8, y.g), (3, genCode y.state), (48, y.base), (64, y.n), (8, 0), (3, 0), (48, 0),
             (64, 0)]))))) ∧
  (∀ (t table g : Nat) (h : CmdHdr) (x : FTable) (s : State), s.table table = some x →
     (h.part = 0 ∨ h.part = x.owner → s.mem.wf = true →
       (∀ lb base n y, y = ({ g := g, state := .loading, base := base, log2Buckets := lb, n := n } : Generation) →
         Ready h 0x0A04 false s → x.gens.length < 2 → g < 256 → x.genBad g = false → base % 4096 = 0 →
         10 ≤ lb → lb ≤ 30 → s.mayAccess x.owner 1 base (x.imageBytes y) = true →
         inSoftware base (x.imageBytes y) = true → s.imageMeets base (x.imageBytes y) = false →
         ∃ s' : State, exec (.generationStage t h table g lb base n) s =
             .next (s'.answer h 0x0A04 .ok noDetail []) ∧
           s'.table table = some { x with gens := x.gens ++ [y] } ∧
           (∀ i, i < 64 → memGet s'.mem.bytes (base + i) = ((imageHeader g n)[i]?).getD 0) ∧
           (∀ a, base + 16384 ≤ a → a < base + 16384 + 64 * y.buckets → memGet s'.mem.bytes a = 0) ∧
           (∀ a, (a < base ∨ base + 64 ≤ a) → (a < base + 16384 ∨ base + 16384 + 64 * y.buckets ≤ a) →
             memGet s'.mem.bytes a = memGet s.mem.bytes a)) ∧
       (∀ y, Ready h 0x0A05 false s → x.gen g = some y → y.state = .loading → y.dropping = false →
         s.mem.readable y.base 64 = true → s.headerGood y = true →
         exec (.generationSeal t h table g) s = .next ((((s.at t).touch y.base 64 0).modTable table
           (FTable.modGen g fun y => { y with state := .sealed })).answer h 0x0A05 .ok noDetail [])) ∧
       (∀ y, Ready h 0x0A07 false s → x.gen g = some y →
         (y.state = .loading ∨ y.state = .sealed →
           exec (.generationDrop t h table g) s = .next (((s.at t).modTable table
             (FTable.modGen g fun y => { y with dropping := true })).answer h 0x0A07 .ok noDetail [])) ∧
         (y.state = .current ∨ y.state = .retiring →
           exec (.generationDrop t h table g) s =
             .next ((s.at t).answer h 0x0A07 .eState noDetail [])))) ∧
     (∀ y, s.running = true → x.gen g = some y → y.dropping = true → s.servedFrom table g = false →
       exec (.generationDropDone t table g) s =
         .next ((s.at t).modTable table (FTable.freeGen g))) ∧
     (∀ y, s.running = true → x.gen g = some y → (s.at t).genFreeable table x y = true →
       exec (.generationRetire t table g) s = .next (((s.at t).modTable table (FTable.freeGen g)).event
         x.owner 0x0005 [(16, table), (8, g)] 0))) ∧
  (∀ (t tag : Nat) (f : Fetch) (x : FTable) (g : Generation) (s : State), s.moving = true →
     s.fetch tag = some f → f.joins = none →
     (f.parked = false → f.remote = false → s.genOf f.reads.1 f.reads.2 = some (x, g) →
       (f.lockReads = 0 → max s.tick t ≤ f.endTick →
         (∀ e, (s.lookup x g f.key).last = .found e → exec (.localLookupDone t tag .clean) s =
           .next ((((s.at t).looked f.reads.1 (s.lookup x g f.key)).endFetch tag
             (.found (x.present e))).unparkAll)) ∧
         ((s.lookup x g f.key).last = .absent → exec (.localLookupDone t tag .clean) s =
           .next ((((s.at t).looked f.reads.1 (s.lookup x g f.key)).endFetch tag .absent).unparkAll)) ∧
         (∀ u, u = (s.at t).strike (s.lookup x g f.key).reads .uncorrectable →
           exec (.localLookupDone t tag .uncorrectable) s =
             .next (((u.looked f.reads.1 { u.lookup x g f.key with last := .fault }).endFetch tag
               .fault).unparkAll))) ∧
       (f.lockReads ≠ 0 → f.lockDue ≤ max s.tick t → max s.tick t ≤ f.endTick →
         ∀ l, l = s.lookAgain x g f.key f.lockAddr f.lockPos →
           (∀ e, l.last = .found e → exec (.feLockRetry t tag) s =
             .next ((((s.at t).looked f.reads.1 l).endFetch tag (.found (x.present e))).unparkAll)) ∧
           (∀ a pos, l.last = .locked a pos → f.lockReads = 4 → exec (.feLockRetry t tag) s =
             .next ((((s.at t).looked f.reads.1 l).endFetch tag .locked).unparkAll)) ∧
           (∀ a pos, l.last = .locked a pos → f.lockReads < 4 → exec (.feLockRetry t tag) s =
             .next ((((s.at t).looked f.reads.1 l).modFetch tag fun f => { f with
               lockReads := f.lockReads + 1
               lockDue := max s.tick t + 200
               lockAddr := a
               lockPos := pos }).unparkAll)))) ∧
     (f.endTick ≤ max s.tick t → s.asksAway f = false ∨ f.cut ≤ f.endTick →
       exec (.fetchEndTick t tag) s = .next (((s.at t).endAlone tag .timeout).unparkAll)) ∧
     (f.endTick ≤ max s.tick t → s.asksAway f = true → f.endTick < f.cut →
       exec (.fetchEndTick t tag) s = .next (((s.at t).fallAlone tag f).unparkAll))) ∧
  (∀ (t tag c : Nat) (check : WordCheck) (s : State), s.moving = true → s.fetch tag = none →
     tget s.models.late tag = some c →
     exec (.localLookupDone t tag check) s = .next ((s.at t).lateLook tag c))

/-- R286, R310: a commit of sealed generations makes each current, and its predecessor retiring, in one
instant, and changes no other table; with `bind` each enters the staging set of its owner's domain instead,
and no table changes. -/
def Obligations.GenerationCommits : Prop :=
  ∀ (t : Nat) (h : CmdHdr) (pairs : List (Nat × Nat)) (s : State), Ready h 0x0A06 false s →
    pairs ≠ [] → pairs.length ≤ 16 → (pairs.map (·.1)).Nodup →
    (∀ p ∈ pairs, s.hasTable p.1 = true ∧ s.sealedGen p = true ∧
      (h.part = 0 ∨ s.tableOwner p.1 = some h.part)) →
    (∃ s' : State, exec (.generationCommit t h pairs) s = .next (s'.answer h 0x0A06 .ok noDetail []) ∧
      (∀ p ∈ pairs, ((s'.table p.1).bind (·.genIn .current)).map (·.g) = some p.2) ∧
      (∀ p ∈ pairs, ∀ x x' y, s.table p.1 = some x → x.genIn .current = some y → s'.table p.1 = some x' →
        { y with state := .retiring, commitTick := max s.tick t } ∈ x'.gens) ∧
      (∀ k, k ∉ pairs.map (·.1) → s'.table k = s.table k) ∧
      s' = { s.at t with models := s'.models }) ∧
    ((∀ p ∈ pairs, s.domainBusy ((s.tableOwner p.1).getD 0) = false) →
      ∃ s' : State, exec (.generationCommitBind t h pairs) s =
          .next (s'.answer h 0x0A06 .ok noDetail []) ∧
        s'.models.tables = s.models.tables ∧
        (∀ p ∈ pairs, p ∈ (s'.domain ((s.tableOwner p.1).getD 0)).staging.gens) ∧
        s' = { s.at t with models := s'.models })

/-- R280: a lookup that finds an entry has found one of the image, numbered below N, of this generation with
no reserved bit set, valid and of the key, and not locked. -/
def Obligations.LookupFindsTheKey : Prop :=
  ∀ (x : FTable) (g : Generation) (key : W64) (e : Nat) (s : State),
    (s.lookup x g key).last = .found e →
    ∃ n, n < g.n ∧ e = s.leAt (x.entAddr g n) x.entBytes ∧ s.mem.readable (x.entAddr g n) x.entBytes = true ∧
      x.entryClean g.g e = true ∧ e.testBit 64 = true ∧ e % 2 ^ 64 = key.toNat ∧ e.testBit 65 = false

/-- R309, R310, R396, R127, R128: what a staging set takes. A container that passes every check is staged
under its handle; a handle staged or removed in the set is refused with `E_CONFLICT`; a live handle is marked for removal;
an abort empties the set; a pattern version replaces the one staged for its set; while a commit waits each
answers `BUSY`; `MODEL_QUERY` changes nothing. R311, R312: a commit with nothing staged, or with an old
epoch still live, is refused with `E_STATE`; else the set is live at once. With `wait` it is held until
nothing old is live, and then goes through, unless the set has become empty or stale. An epoch that nothing works under retires, with its stage costs
and bad copies. -/
def Obligations.ModelStaging : Prop :=
  (∀ (t domain handle : Nat) (h : CmdHdr) (s : State), domain ≤ 0x40 →
     h.part = 0 ∨ h.part = domainOwner domain →
     (∀ addr len bindings m, Ready h 0x0B01 false s → m = s.parseModel handle addr len bindings →
       s.domainBusy domain = false → addr % 64 = 0 → 64 ≤ len → inDevice addr len = true →
       s.mayAccess (domainOwner domain) 1 addr len = true → s.containerGood domain addr len m = true →
       m.packet = true ∨ m.params.maxBudget < s.eg.holdMax →
       (∀ k ∈ m.tables, ∃ y, s.table k = some y ∧ y.owner = domain) → s.fetchesGood m = true →
       s.foreign domain bindings = false →
       ((s.domain domain).handlesWith handle).length ≤ 256 → s.sharesFit m = true →
       ((∀ y ∈ (s.domain domain).staging.models, y.handle ≠ handle) →
         (s.domain domain).staging.removed.contains handle = false →
         exec (.modelStage t h domain handle addr len bindings) s =
           .next ((((s.at t).touch addr len 0).modDomain domain fun x => { x with
             staging := { x.staging with models := x.staging.models ++ [m] } }).answer h 0x0B01 .ok
               noDetail [])) ∧
       ((∃ y ∈ (s.domain domain).staging.models, y.handle = handle) ∨
           (s.domain domain).staging.removed.contains handle = true →
         exec (.modelStage t h domain handle addr len bindings) s =
           .next (((s.at t).touch addr len 0).answer h 0x0B01 .eConflict noDetail []))) ∧
     (Ready h 0x0B02 false s → (s.liveModel domain handle).isSome = true → s.domainBusy domain = false →
       exec (.modelRemove t h domain handle) s = .next (((s.at t).modDomain domain fun x => { x with
         staging := { x.staging with
           removed := x.staging.removed.filter (· != handle) ++ [handle] } }).answer h 0x0B02 .ok
             noDetail [])) ∧
     (Ready h 0x0B03 false s → s.domainBusy domain = false →
       exec (.modelAbort t h domain) s = .next (((s.at t).modDomain domain fun x => { x with
         staging := {} }).answer h 0x0B03 .ok noDetail [])) ∧
     (Ready h 0x0B03 false s → s.domainBusy domain = true →
       exec (.modelAbort t h domain) s = .next ((s.at t).answer h 0x0B03 .busy noDetail [])) ∧
     (∀ start max, Ready h 0x0B05 true s → s.domainBusy domain = false →
       ∃ words, exec (.modelQuery t h domain start max) s =
         .next ((s.at t).answer h 0x0B05 .ok noDetail words)) ∧
     (∀ setId addr len fromL2 pats, Ready h 0x0605 false s → setId < 256 → inSoftware addr len = true →
       s.mayAccess h.part 1 addr len = true →
       (∀ x, tget s.parser.sets setId = some x → x.owner = h.part) → s.domainBusy h.part = false →
       s.mem.readable addr len = true → pats.all patternGood = true → (pats.map (·.id)).Nodup →
       (s.patternsWith h.part setId pats.length).2 ≤ 131072 → (s.patternsWith h.part setId pats.length).1 ≤ 65536 →
       ∃ s' : State, exec (.patternLoad t h setId addr len fromL2 pats) s =
           .next (s'.answer h 0x0605 .ok noDetail []) ∧
         (s'.domain h.part).staging.patterns =
           ((s.domain h.part).staging.patterns.filter fun e => e.1 != setId) ++
             [(setId, { fromL2 := fromL2, pats := pats, since := 0 })] ∧
         (tget s'.parser.sets setId).map (·.vers) =
           some (((tget s.parser.sets setId).map (·.vers)).getD []))) ∧
  (∀ (t domain : Nat) (h : CmdHdr) (s : State), domain ≤ 0x40 →
     (h.part = 0 ∨ h.part = domainOwner domain → Ready h 0x0B04 false s → s.domainBusy domain = false →
       ((s.domain domain).staging.isEmpty = true ∨ s.commitWaits domain = true →
         exec (.modelCommit t h domain) s = .next ((s.at t).answer h 0x0B04 .eState noDetail [])) ∧
       ((s.domain domain).staging.isEmpty = false → s.removedNamed domain = false →
         s.stagingStale domain = false →
         (s.commitWaits domain = false →
           exec (.modelCommit t h domain) s = .next (((s.at t).flip domain).answer h 0x0B04 .ok noDetail
             (pack [(16, (((s.at t).flip domain).domain domain).epoch)]))) ∧
         (s.commitWaits domain = true → timeoutBad h = false →
           exec (.modelCommitWait t h domain) s = .next ((s.at t).modDomain domain fun x => { x with
             waiting := some { h := h, due := max s.tick t + timeoutOf h } })) ∧
         (s.commitWaits domain = false → timeoutBad h = false →
           exec (.modelCommitWait t h domain) s = .next (((s.at t).flip domain).answer h 0x0B04 .ok
             noDetail (pack [(16, (((s.at t).flip domain).domain domain).epoch)]))))) ∧
     (∀ w, s.running = true → s.bay.isainUp = true → (s.domain domain).waiting = some w →
       s.commitWaits domain = false →
       (s.removedNamed domain = false → s.stagingStale domain = false →
         (s.domain domain).staging.isEmpty = false →
         exec (.modelCommitFlip t domain) s = .next (((s.at t).flip domain).answer w.h 0x0B04 .ok noDetail
           (pack [(16, (((s.at t).flip domain).domain domain).epoch)]))) ∧
       (s.stagingStale domain = true ∨ (s.domain domain).staging.isEmpty = true →
         exec (.modelCommitFlip t domain) s = .next (((s.at t).modDomain domain fun x => { x with
           waiting := none }).answer w.h 0x0B04 .eState noDetail []))) ∧
     (∀ e ms, s.running = true → (s.domain domain).retiring = some (e, ms) →
       s.epochHeld domain e = false →
       ∃ s1 : State, exec (.epochRetire t domain) s =
           .next (s1.event (domainOwner domain) 0x0006 [(7, domain), (16, e)] 0) ∧
         (s1.domain domain).retiring = none ∧
         (∀ c ∈ s1.comp.cores, (∀ y ∈ c.2.badShards, ¬ (y.1 = domain ∧ y.2.2 = e)) ∧
           ∀ y ∈ c.2.deadShards, ¬ (y.1 = domain ∧ y.2.2 = e)) ∧
         (∀ d, d ≠ domain → s1.domain d = s.domain d)))

/-- R296, R310, R311: at a flip the epoch counts up, from 65,535 to 1; a staged model is the live one of its
handle; a handle neither removed nor staged again carries over; a request of the old epoch still finds its
own model; the staging set is empty. -/
def Obligations.FlipsKeepOldEpochs : Prop :=
  ∀ (d : Nat) (s : State),
    ((s.flip d).domain d).epoch = (if (s.domain d).epoch = 65535 then 1 else (s.domain d).epoch + 1) ∧
    ((s.flip d).domain d).staging = {} ∧ ((s.flip d).domain d).waiting = none ∧
    (∀ k, (s.flip d).modelAt d (s.domain d).epoch k = s.liveModel d k) ∧
    (∀ k, (s.domain d).staging.removed.contains k = false →
      ((s.domain d).staging.models.any fun m => m.handle == k) = false →
      (s.flip d).liveModel d k = s.liveModel d k) ∧
    (∀ k, ((s.domain d).staging.models.any fun m => m.handle == k) = true →
      (s.flip d).liveModel d k = (s.domain d).staging.models.find? fun m => m.handle == k) ∧
    (∀ k, (s.domain d).staging.removed.contains k = true →
      ((s.domain d).staging.models.any fun m => m.handle == k) = false →
      (s.flip d).liveModel d k = none) ∧
    (∀ d', d' ≠ d → (s.flip d).domain d' = s.domain d')

/-- R197 to R199, R396: kernels of a partition. An image is kept under a handle that is not in use, and
forgotten while no launch runs it; a launch of cores that the partition owns and that serve waits on each of
them, and is answered when all have ended; cores of another owner are refused with `E_PRIV`, and a lost core
with `E_STATE`. R182, R198, R200, R201, R204, R468: kernels on a core. A launch for a slot that no longer
matches is dropped and counted; one sent while its cluster was leaving its owner ends with `ABORTED`; one
whose image is loaded starts in the lowest free context, or stays where none is free; a loaded image stands
for its launch; a context that no full queue holds ends with its status, and any with `TIMEOUT` past
`kernel_max_run`; a marker without the right is counted and writes nothing. R181, R183, R184, R189, R190,
R192, R201: a context's accesses and its DMA queue. An atomic operation leaves its result in the word and
the old value in its register, and changes no other byte; one outside the cluster store, or on a poisoned
word, ends the context. At a fence a context's own accesses are made in order; the first outside its ranges
or its owner's rights ends the context with `FAULT_ACCESS`. A posted descriptor enters its context's queue,
or waits behind a full one; a descriptor behind a fence does not end before those ahead of it. R193 to R195:
the reduce unit. An open within the table's limits opens a group, or waits; one that names a foreign
destination ends its context with `FAULT_ACCESS`; a contribution that does not fill its group is folded in;
one to a group that is not open is counted late; a group past its close tick closes, open or waiting. Every
closed group's counts make up what it expected. R213 to R221: matrix jobs. An issue to a full queue holds
its context; a misaligned descriptor ends it; a descriptor that passes the checks is queued; the running job
ends with its results, or with `FAULT_ECC` where an operand or the accumulator fails. -/
def Obligations.ComputeWork : Prop :=
  (∀ (t handle addr len : Nat) (h : CmdHdr) (d : LaunchDesc) (s : State),
     (Ready h 0x0B06 false s → len ≤ 65536 → inSoftware addr len = true →
       (s.part h.part).covers 1 addr len = true →
       (aget s.comp.kernels (h.part, handle) = none →
         exec (.kernelLoad t h handle addr len) s = .next (((s.at t).updComp fun c => { c with
           kernels := aset c.kernels (h.part, handle)
             { part := h.part, addr := addr, len := len } }).answer h 0x0B06 .ok noDetail [])) ∧
       ((aget s.comp.kernels (h.part, handle)).isSome = true →
         exec (.kernelLoad t h handle addr len) s =
           .next ((s.at t).answer h 0x0B06 .eConflict noDetail []))) ∧
     (Ready h 0x0B07 false s → (aget s.comp.kernels (h.part, handle)).isSome = true →
       (s.kernelRuns h.part handle = false →
         exec (.kernelUnload t h handle) s = .next (((s.at t).updComp fun c => { c with
           kernels := adel c.kernels (h.part, handle) }).answer h 0x0B07 .ok noDetail [])) ∧
       (s.kernelRuns h.part handle = true →
         exec (.kernelUnload t h handle) s = .next ((s.at t).answer h 0x0B07 .eState noDetail []))) ∧
     (Ready h 0x0B08 false s → d.resvBad = false →
       (aget s.comp.kernels (h.part, d.kernel)).isSome = true →
       d.firstCore + d.nCores ≤ s.logicalEnd →
       ((∃ l ∈ launchCores d, s.logicalOwner l ≠ h.part) →
         exec (.kernelLaunch t h d) s = .next ((s.at t).answer h 0x0B08 .ePriv noDetail [])) ∧
       ((∀ l ∈ launchCores d, s.logicalOwner l = h.part) → 1 ≤ d.nCores →
         (∃ l ∈ launchCores d, s.physOf l = none) →
         exec (.kernelLaunch t h d) s = .next ((s.at t).answer h 0x0B08 .eState noDetail [])) ∧
       ((∀ l ∈ launchCores d, s.logicalOwner l = h.part ∧ (s.physOf l).isSome = true ∧
           s.logicalLeaves l = false) → 1 ≤ d.nCores → inDevice d.argAddr d.argLen = true →
         (s.part h.part).covers 1 d.argAddr d.argLen = true → d.slotV = false → d.argLen ≤ 4096 →
         d.argLen % 4 = 0 → s.closed = false →
         (s.launchHeld d = false → exec (.kernelLaunch t h d) s = .next ((launchCores d).foldl (fun u l =>
           u.pushLaunch ((u.physOf l).getD 0)
             { desc := d, part := h.part, token := h.token, asker := some h, stamp := s.stampNow h.part })
           ((s.at t).updComp fun c => { c with runs := aset c.runs h { left := d.nCores } }))) ∧
         (s.launchHeld d = true → exec (.kernelLaunch t h d) s =
           .next ((s.at t).updComp fun c => { c with held := c.held ++ [(h, d)] }))))) ∧
  (∀ (h : CmdHdr) (d : LaunchDesc) (s : State), s.launchHeld d = false →
     (aget s.comp.kernels (h.part, d.kernel)).isSome = true → s.launchForeign h d = false →
     d.nCores ≠ 0 → d.firstCore + d.nCores ≤ s.logicalEnd → (∃ l ∈ launchCores d, s.physOf l = none) →
     s.tryHeld (h, d) = (s.updComp fun c => { c with
       held := c.held.filter (· != (h, d)) }).answer h 0x0B08 .eState noDetail []) ∧
  (∀ (t core ctx : Nat) (s : State), s.moving = true →
     (∀ l rest, (s.core core).retiring = false → (s.core core).waiting = l :: rest →
       (s.launchStale l = true →
         exec (.kernelStart t core) s =
           .next (((s.at t).dropLaunch core).tally Ctr.staleCompletion).settle2) ∧
       (s.launchStale l = false → l.barred = true →
         exec (.kernelStart t core) s =
           .next ((((s.at t).dropLaunch core).voidOwed core).launchEnd core l.desc l.token l.asker 5).settle2) ∧
       (s.launchStale l = false → l.barred = false →
         ((s.core core).freeCtx = none → exec (.kernelStart t core) s = .next (s.at t).settle2) ∧
         (∀ k img, (s.core core).freeCtx = some k → s.launchImage l = some (some img) →
           (s.core core).holds img = true →
           exec (.kernelStart t core) s = .next ((s.at t).startLaunch core k l (some img)).settle2) ∧
         (∀ k, (s.core core).freeCtx = some k → s.launchImage l = none →
           exec (.kernelStart t core) s =
             .next ((((s.at t).dropLaunch core).voidOwed core).launchEnd core l.desc l.token l.asker
               5).settle2))) ∧
     (∀ img l rest, (s.core core).loading = some img → (s.core core).waiting = l :: rest →
       s.mem.readable img.1 img.2 = true →
       exec (.kernelImageLoadDone t core l.desc.kernel .clean) s =
         .next ((s.at t).imageLoaded core img l .clean) ∧
       exec (.kernelImageLoadDone t core l.desc.kernel .uncorrectable) s =
         .next ((s.at t).imageLoaded core img l .uncorrectable)) ∧
     (∀ status, status ≤ 3 →
       (s.ctxReady core ctx = true → exec (.kernelEnd t core ctx status) s =
         .next ((s.at t).endContext core ctx status).settle2) ∧
       (s.ctxReady core ctx = false → exec (.kernelEnd t core ctx status) s = .next (s.at t))) ∧
     (∀ x, s.ctx core ctx = some x →
       (x.start + (s.part x.part).kernelMaxRun ≤ max s.tick t →
         exec (.kernelMaxRunExpiry t core ctx) s = .next ((s.at t).endContext core ctx 4).settle2) ∧
       (max s.tick t < x.start + (s.part x.part).kernelMaxRun →
         exec (.kernelMaxRunExpiry t core ctx) s = .next (s.at t)) ∧
       (∀ b m, s.ctxReady core ctx = true → (s.mayMark (s.coreOwner core) = true →
           exec (.kernelMarkInsn t core ctx b m) s = .next ((s.at t).coreTrace core ctx 0 (markKind b) 0
             (m % 65536) (max s.tick t) x.desc)) ∧
         (s.mayMark (s.coreOwner core) = false →
           exec (.kernelMarkInsn t core ctx b m) s =
             .next ((s.at t).count Ctr.dillMarkDenied (s.coreCluster core)))))) ∧
  (∀ (t core ctx : Nat) (s : State),
     (∀ dst addr wide op arg n c, s.moving = true → s.ctxReady core ctx = true →
       n = (if wide then 8 else 4) → atomicForm wide op = true → addr % n = 0 →
       0x100000 ≤ addr → addr + n ≤ 0x300000 → c = s.coreCluster core →
       s.spaceGood (.store c) (addr - 0x100000) n = true →
       memWfFrom 0 (s.cluster c).store = true →
       ∃ s' : State, exec (.clusterStoreAtomic t core ctx dst addr wide op arg) s = .next s' ∧
         leNat (s'.spaceBytes (.store c) (addr - 0x100000) n) =
           atomicResult (8 * n) op (leNat (s.spaceBytes (.store c) (addr - 0x100000) n))
             (arg % 2 ^ (8 * n)) % 2 ^ (8 * n) ∧
         (∀ a, (a < addr - 0x100000 ∨ addr - 0x100000 + n ≤ a) →
           memGet (s'.cluster c).store a = memGet (s.cluster c).store a) ∧
         (∀ k, k ≠ c → s'.cluster k = s.cluster k) ∧
         (s'.ctx core ctx).bind (fun x => tget x.regs dst) =
           some (BitVec.ofNat 64 (leNat (s.spaceBytes (.store c) (addr - 0x100000) n))) ∧
         s' = { s.at t with comp := s'.comp }) ∧
     (∀ dst addr wide op arg n, s.moving = true → s.ctxReady core ctx = true → n = (if wide then 8 else 4) →
       atomicForm wide op = true → addr % n = 0 →
       (addr < 0x100000 ∨ 0x300000 < addr + n →
         exec (.clusterStoreAtomic t core ctx dst addr wide op arg) s =
           .next ((s.at t).endContext core ctx 2).settle2) ∧
       (0x100000 ≤ addr → addr + n ≤ 0x300000 →
         s.spaceGood (.store (s.coreCluster core)) (addr - 0x100000) n = false →
         exec (.clusterStoreAtomic t core ctx dst addr wide op arg) s =
           .next ((s.at t).endContext core ctx 1).settle2)) ∧
     (s.moving = true → s.ctxReady core ctx = true →
       exec (.clusterFence t core ctx []) s = .next (s.at t).settle2 ∧
       (∀ x r, accFormed x = true → r.all accFormed = true →
         (∀ st, (s.at t).accessFault core x = some st →
           exec (.clusterFence t core ctx (x :: r)) s = .next ((s.at t).endContext core ctx st).settle2) ∧
         (∀ p, (s.at t).accessFault core x = none → s.ctxPlace core (accAddr x) (accSize x) = some p →
           exec (.clusterFence t core ctx (x :: r)) s =
             .next (State.runAccesses core ctx r ((s.at t).doAccess core ctx p x)).settle2) ∧
         (s.ctxPlace core (accAddr x) (accSize x) = none → s.accessFault core x = some 2))) ∧
     (∀ addr x, s.moving = true → s.ctx core ctx = some x → s.ctxReady core ctx = true →
       addr + 32 ≤ sramBytes →
       s.spaceGood (.sram core) addr 32 = true →
       ∃ s' : State, exec (.dmaPost t core ctx addr) s = .next s' ∧
         (x.dmaQ.length < 64 → s'.ctx core ctx = some { x with
           dmaQ := x.dmaQ ++ [(BitVec.ofNat 256 (leNat (s.spaceBytes (.sram core) addr 32)),
             max s.tick t)] }) ∧
         (64 ≤ x.dmaQ.length → s'.ctx core ctx = some { x with
           dmaWait := some (BitVec.ofNat 256 (leNat (s.spaceBytes (.sram core) addr 32))) }) ∧
         s' = { s.at t with comp := s'.comp }) ∧
     (∀ x, s.moving = true → s.ctx core ctx = some x →
       (x.dmaQ = [] → exec (.dmaComplete t core ctx) s = .next (s.at t)) ∧
       (∀ d e rest, x.dmaQ = d :: e :: rest → dmaFence e.1 = true →
         exec (.dmaComplete t core ctx) s = .next ((s.at t).dmaEnd core ctx 0)) ∧
       (∃ (s1 : State) (i : Nat), exec (.dmaComplete t core ctx) s = .next (s1.dmaEnd core ctx i) ∧
         (s1 = s.at t ∨ s1 = (s.at t).fresh.2) ∧ (x.dmaQ ≠ [] → i < dmaReady x.dmaQ) ∧
         ∀ j, 0 < j → j ≤ i → ∀ y, x.dmaQ[j]? = some y → dmaFence y.1 = false))) ∧
  (∀ (t cluster : Nat) (s : State),
     (∀ core ctx op len expected close addr, s.moving = true → s.ctxReady core ctx = true →
       s.coreCluster core = cluster → s.openGood cluster op len expected = true →
       addr % 4 = 0 → addr + 4 * len + 8 ≤ storeBytes → (s.cluster cluster).opens = [] →
       ∃ s' : State, exec (.reduceGroupOpen t core ctx op len expected close (0, addr)) s = .next s' ∧
         ((s.cluster cluster).held.length < 64 → (s.cluster cluster).reduceUse + len * 4 ≤ 131072 →
           tget (s'.cluster cluster).groups (s.cluster cluster).freeGroup =
             some { op := op, len := len, expected := expected, closeTick := close,
                    dest := .store addr, opener := some (core, ctx) }) ∧
         (64 ≤ (s.cluster cluster).held.length →
           (s'.cluster cluster).groups = (s.cluster cluster).groups ∧
           (s'.cluster cluster).opens.length = 1 ∧ s'.ctxReady core ctx = false) ∧
         s' = { s.at t with comp := s'.comp }) ∧
     (∀ core ctx op len expected close dest d, s.moving = true → s.ctxReady core ctx = true →
       s.coreCluster core = cluster → s.openGood cluster op len expected = true →
       s.groupDest dest = some d → s.destGood cluster len d = false →
       exec (.reduceGroupOpen t core ctx op len expected close dest) s =
         .next ((s.at t).endContext core ctx 2).settle2) ∧
     (∀ group data g, s.moving = true → cluster < 256 → tget (s.cluster cluster).groups group = some g →
       s.fitsGroup cluster group data = true →
       (g.arrived + 1 < g.expected → exec (.reduceContribution t cluster group data) s =
         .next ((s.at t).modCluster cluster fun x => { x with
           groups := tset x.groups group (g.fold data 0) }).settle2) ∧
       (g.expected ≤ g.arrived + 1 → exec (.reduceContribution t cluster group data) s =
         .next (((s.at t).modCluster cluster fun x => { x with
           groups := tdel x.groups group }).deliverGroup chainFuel cluster (g.fold data 0)).settle2)) ∧
     (∀ group data, s.moving = true → cluster < 256 → tget (s.cluster cluster).groups group = none →
       exec (.reduceContribution t cluster group data) s =
         .next ((s.at t).count Ctr.reduceLate cluster).settle2) ∧
     (∀ group g, s.moving = true → group < 128 → tget (s.cluster cluster).groups group = some g →
       g.closeTick ≤ max s.tick t →
       exec (.reduceCloseTick t cluster group) s =
         .next ((s.at t).closeGroup cluster group).settle2) ∧
     (∀ i e, s.moving = true → (s.cluster cluster).opens[i]? = some e → e.2.closeTick ≤ max s.tick t →
       exec (.reduceCloseTick t cluster (128 + i)) s =
         .next ((s.at t).closeWaiting cluster i).settle2) ∧
     (∀ (g : Group) (data : Option (List W32)), g.arrived = g.summed + g.voids →
       (g.fold data 0).arrived = (g.fold data 0).summed + (g.fold data 0).voids ∧
       (g.arrived ≤ g.expected → (g.close.summed + g.close.voids = g.expected)))) ∧
  (∀ (t core ctx array addr : Nat) (s : State), s.moving = true → array < 2 →
     (s.mayIssue core ctx array = true →
       ((s.mx core array).full = true →
         exec (.matrixJobIssue t core ctx array addr) s =
           .next ((s.at t).modMx core array (MxArray.hold ctx (max s.tick t)))) ∧
       ((s.mx core array).full = false → addr + 64 ≤ sramBytes →
         (addr % 64 ≠ 0 → exec (.matrixJobIssue t core ctx array addr) s =
           .next ((s.at t).endContext core ctx 3).settle2) ∧
         (∀ d, addr % 64 = 0 → s.spaceGood (.sram core) addr 64 = true →
           d = BitVec.ofNat 512 (leNat (s.spaceBytes (.sram core) addr 64)) →
           (∀ st, (s.mx core array).refuses array ctx d = some st →
             exec (.matrixJobIssue t core ctx array addr) s = .next ((s.at t).mxFail core array
               { ctx := ctx, desc := d, issued := max s.tick t } st 0).settle2) ∧
           ((s.mx core array).refuses array ctx d = none →
             exec (.matrixJobIssue t core ctx array addr) s = .next ((s.at t).modMx core array
               fun x => { x with
                 jobs := x.jobs ++ [{ ctx := ctx, desc := d, issued := max s.tick t }]
                 held := tdel x.held ctx }).settle2)))) ∧
     ((s.mx core array).running = none →
       exec (.matrixJobEnd t core array false) s = .next (s.at t)) ∧
     (∀ j, (s.mx core array).running = some j →
       ((∀ e ∈ readRegions j.desc, s.spaceGood (.sram core) e.1 e.2 = true) →
         exec (.matrixJobEnd t core array false) s =
           .next (((s.at t).mxHeld core).mxDone core array j)) ∧
       ((∃ e ∈ readRegions j.desc, s.spaceGood (.sram core) e.1 e.2 = false) →
         exec (.matrixJobEnd t core array false) s =
           .next (((s.at t).mxHeld core).mxEcc core array j).settle2) ∧
       exec (.matrixJobEnd t core array true) s =
         .next ((((s.at t).mxHeld core).arrayFault core array).mxEcc core array j).settle2))

/-- R186, R187: a vector instruction writes its result register lane by lane and joins its flags to the
sticky ones; a saturating integer sum is the exact sum held to the format's range, a wrapping one the sum
modulo the format. -/
def Obligations.VectorUnit : Prop :=
  ∀ (t core ctx dst : Nat) (fmt : VFmt) (op : VOp) (sat : Bool) (a b c : List W32) (s : State),
    (∀ x, s.moving = true → s.ctx core ctx = some x → s.ctxReady core ctx = true → (vLane fmt op sat 0 0 0).isSome = true →
      ∃ s' : State, exec (.vectorInstruction t core ctx fmt op sat dst a b c) s = .next s' ∧
        s'.ctx core ctx = some { x with
          vregs := tset x.vregs dst ((vRun fmt op sat a b c).map (·.1))
          flags := (vRun fmt op sat a b c).foldl (fun f e => f.join e.2) x.flags } ∧
        (∀ p k, (p, k) ≠ (core, ctx) → s'.ctx p k = s.ctx p k) ∧ s' = { s.at t with comp := s'.comp }) ∧
    (∀ (n : Nat) (x y r : W32), n = 16 ∨ n = 32 →
      (intLane n .add true x y = some r → asInt n r.toNat =
        max (-2 ^ (n - 1)) (min (2 ^ (n - 1) - 1) (asInt n x.toNat + asInt n y.toNat))) ∧
      (intLane n .sub true x y = some r → asInt n r.toNat =
        max (-2 ^ (n - 1)) (min (2 ^ (n - 1) - 1) (asInt n x.toNat - asInt n y.toNat))) ∧
      (intLane n .add false x y = some r → r.toNat = (x.toNat + y.toNat) % 2 ^ n))

/-- R216: an INT8 job without saturation accumulates the exact sum of its products, modulo 2^32. -/
def Obligations.IntegerAccumulation : Prop :=
  ∀ (m : Mem) (d : BitVec 512) (i j : Nat) (acc : W32), mxAFmt d = 4 → mxSat d = false →
    ((accumulate m d i j acc).1.toNat : Int) =
      ((acc.toNat : Int) + ((List.range (mxK d)).map fun k => intProd m d i j k).sum) % 2 ^ 32

/-- R335, R336, R338, R397: pages. A page retired takes the next spare page of its region, is counted, and
leaves the list of due pages; a page already retired, or a region without a spare page, is refused; a page
that met a trigger in a region without one is told as such, and a due page of the pool itself only leaves the
list. R329, R330, R332, R333: what runs in the memory subsystem by itself. The patrol reads a line, tells a bad
word of it, and goes on to the next; a refresh rate that changes is recorded; an oscillator tracked changes only
its time; a checked row that is clean changes nothing, and a poisoned word of one is counted. A flit enters the
sender's replay buffer of 64; one corrected is counted, one that fails is replayed up to three times, and then
its words are delivered poisoned and counted, or its link goes down where the header is bad; a replay of a flit
the buffer no longer holds does not happen. -/
def Obligations.MemoryUpkeepAll : Prop :=
  (∀ (t addr : Nat) (h : CmdHdr) (s : State),
     (∀ g, g = regionOf addr → s.mem.faults = [] → s.eventRing 0 = none →
       ((s.retirePage addr).region g).retired =
         (s.region g).retired ++ [(addr, (s.region g).spare)] ∧
       (∀ e ∈ (s.region g).retired, e.2 ≠ (s.region g).spare) ∧ (s.region g).spare ≤ (s.region g).retired.length ∧
       ((s.retirePage addr).region g).poolLeft = (s.region g).poolLeft - 1 ∧
       (∀ k, k ≠ g → (s.retirePage addr).region k = s.region k) ∧
       (s.retirePage addr).mem.bytes = s.mem.bytes) ∧
     (Ready h 0x0C02 false s → h.part = 0 → addr % 4096 = 0 → pageGood addr = true →
       (0 < (s.region (regionOf addr)).poolLeft → s.pageRetired addr = false →
         exec (.memRetire t h addr) s =
           .next (((s.at t).retirePage addr).answer h 0x0C02 .ok noDetail [])) ∧
       ((s.region (regionOf addr)).poolLeft = 0 →
         exec (.memRetire t h addr) s = .next ((s.at t).answer h 0x0C02 .eNospace noDetail []))) ∧
     (s.running = true → addr ∈ (s.region (regionOf addr)).due → pageGood addr = false →
       exec (.pageRetire t addr) s = .next ((s.at t).modRegion (regionOf addr) fun r => { r with
         due := r.due.filter (· != addr) })) ∧
     (s.running = true → addr ∈ (s.region (regionOf addr)).due → pageGood addr = true →
       (0 < (s.region (regionOf addr)).poolLeft →
         exec (.pageRetire t addr) s = .next ((s.at t).retirePage addr)) ∧
       ((s.region (regionOf addr)).poolLeft = 0 →
         exec (.pageRetire t addr) s = .next ((s.at t).poolEmpty (regionOf addr) addr)))) ∧
  (∀ (t region channel : Nat) (s : State),
     (∀ line, s.moving = true → line % 64 = 0 → line < 0x6000000000 →
       s.mem.faultsIn line 64 = [] →
       (∃ s' : State, exec (.patrolScrub t line .clean) s = .next s' ∧
         (s'.region (regionOf line)).patrolNext = (line % regionSize + 64) % regionSize ∧
         s' = { s.at t with mem := s'.mem } ∧ s'.mem.bytes = s.mem.bytes) ∧
       (∀ check k, checkFault check = some k →
         ∃ w, line ≤ w ∧ w < line + 64 ∧ w % 4 = 0 ∧ exec (.patrolScrub t line check) s =
           .next (((((s.at t).fresh.2.updMem fun m => m.hurt w k).readFault w 1 k).isainHurt line).modRegion
             (regionOf line) fun r => { r with patrolNext := (line % regionSize + 64) % regionSize }))) ∧
     (∀ rate, s.running = true → region < 16 → channel < 4 →
       (tgetD (s.region region).refresh channel 1 = rate →
         exec (.mr4Poll t region channel rate) s = .next (s.at t)) ∧
       (tgetD (s.region region).refresh channel 1 ≠ rate →
         exec (.mr4Poll t region channel rate) s = .next (((s.at t).modRegion region fun r => { r with
           refresh := tset r.refresh channel rate }).record 0x0011 2 region 0xFF 1
             [(8, 2), (48, region * regionSize + channel * 512)])) ∧
       exec (.oscillatorTrack t region channel) s = .next ((s.at t).modRegion region fun r => { r with
         oscTick := tset r.oscTick channel (max s.tick t) })) ∧
     (∀ kind unit row, s.running = true → unit < sramUnits kind →
       exec (.sramScrub t kind unit row .clean) s = .next (s.at t) ∧
       exec (.sramScrub t kind unit row .poisoned) s =
         .next ((s.at t).count Ctr.memPoisonRead (sramRegion kind unit)) ∧
       ∃ u : State, u = (if kind = .localSram ∨ kind = .instr then (s.at t).spareFault unit else s.at t) ∧
         exec (.sramScrub t kind unit row .corrected) s = .next (u.sramCorrected kind unit row) ∧
         (kind ≠ .tableMem → exec (.sramScrub t kind unit row .uncorrectable) s =
           .next ((u.sramUncorrectable kind unit row).sramHurt kind unit row))) ∧
     (∀ (link lane attempt : Nat) (b : Flit) (v : State), s.running = true → link < 280 →
       (s.link link).up = true →
       (attempt ≠ 0 → heldFlit b ∉ (s.link link).buffer → ∀ check,
         exec (.linkFlitReceive t link lane check b attempt) s = .next (s.at t)) ∧
       (attempt = 0 ∨ heldFlit b ∈ (s.link link).buffer →
         v = (if attempt = 0 then (s.at t).modLink link fun x => { x with
           buffer := lastN 64 (x.buffer ++ [heldFlit b]) } else s.at t) →
         exec (.linkFlitReceive t link lane .clean b attempt) s = .next v ∧
         exec (.linkFlitReceive t link lane .corrected b attempt) s = .next (v.count Ctr.linkCe link) ∧
         exec (.linkFlitReceive t link lane .poisoned b attempt) s = .next (v.poisonedFlit b) ∧
         (attempt < 3 →
           exec (.linkFlitReceive t link lane .uncorrectable b attempt) s = .next (v.replay link lane)) ∧
         (3 ≤ attempt → b.headerBad = false →
           exec (.linkFlitReceive t link lane .uncorrectable b attempt) s =
             .next (((flitPlaces b).foldl (fun u e => u.spacePoison e.1 e.2) v).count Ctr.linkUe link)) ∧
         (3 ≤ attempt → b.headerBad = true → 8 ≤ link →
           ∃ s' : State, exec (.linkFlitReceive t link lane .uncorrectable b attempt) s = .next s' ∧
             (s'.link link).up = false ∧ (∀ k, k ≠ link → s'.link k = s.link k)))))

/-- R5, R326: what is written to device memory reads back, least significant byte first, and no other byte
changes. -/
def Obligations.MemoryWrites : Prop :=
  ∀ (a : Nat) (s : State), s.mem.wf = true →
    (∀ n v, (s.poke a (leBytes n v)).leAt a n = v % 2 ^ (8 * n)) ∧
    (∀ bs b, (b < a ∨ a + bs.length ≤ b) →
      memGet (s.poke a bs).mem.bytes b = memGet s.mem.bytes b) ∧
    (∀ bs, (s.poke a bs).mem.wf = true)

/-- R343 to R345, R349 to R351, R353, R356, R359: a fabric frame. One that fails a check is dropped,
whatever its type; one accepted has its type's effect; one seen before is not acted on again, but a `PUT`
gets its statuses, and a `LOOKUP` its answer, again. R347 to R350, R354, R357: what the fabric engine does
at its times. A watched peer silent for 300 µs is lost; a lost one is probed every 1 ms; a channel stops
being suspect at its time; a lookup without a reply goes again once, and a put at most three times, each on
the next channel; a `JOIN` goes again every 100 ms. R340, R349, R352, R353, R397: the fabric's commands. A
leave stops the fabric and fails what is in flight; a release is carried out by the coordinator, and asked
of it by any other member; `FABRIC_WATCH` adds or removes a peer to be watched; `FABRIC_STATUS` changes
nothing. -/
def Obligations.FabricWork : Prop :=
  (∀ (t : Nat) (f : FabHdr) (u s : State), s.fabUp = true → (∃ i ∈ s.fab.ifcs, i.2 = f.ifc) →
     (s.ifc f.ifc).link = true →
     ∀ (ls : List LookupMsg) (rs : List ReplyMsg) (ps : List PutMsg) (acked : Nat) (sts : List Nat)
       (m : JoinMsg) (st addr : Nat) (coord : Nat × Nat) (cs : List ViewChange) (serial prio term high : Nat),
     (∀ (i : Instr) (k : Nat), (i, k) ∈ ([(.heartbeat t f, 1), (.join t f m, 2),
         (.joinReply t f st addr coord, 3), (.view t f cs, 4), (.elect t f serial prio term high, 5),
         (.lookup t f ls, 6), (.lookupReply t f rs, 7), (.put t f ps, 8), (.putAck t f acked sts, 9)] :
         List (Instr × Nat)) →
       ((s.at t).fabIn k f = .drop u → exec i s = .next u) ∧
       (k ≠ 6 → k ≠ 8 → (s.at t).fabIn k f = .again u → exec i s = .next (u.tally Ctr.fabReplay))) ∧
     ((s.at t).fabIn 1 f = .fresh u → exec (.heartbeat t f) s = .next u) ∧
     ((s.at t).fabIn 2 f = .fresh u →
       (u.fab.coordinator = false → u.candidate = false → exec (.join t f m) s = .next u) ∧
       (u.fab.coordinator = false → u.candidate = true →
         exec (.join t f m) s = .next (u.fabSendTo (JoinMsg.ip m) m.port 3
           [statusCode .busy, 0, u.coordIp.1, u.coordIp.2])) ∧
       (∀ a, u.fab.coordinator = true → u.grant m = (.ok, a) →
         exec (.join t f m) s = .next (u.assign m a f.bootCount) ∧
         aget (u.assign m a f.bootCount).fab.assigned m.serial = some a ∧
         (u.bay.runMode = 0 →
           ∃ w ∈ (u.assign m a f.bootCount).fab.joinWaits, w.msg = m ∧ w.addr = a)) ∧
       (∀ e, u.fab.coordinator = true → e ≠ .ok → u.grant m = (e, 0) →
         exec (.join t f m) s = .next (u.fabSendTo (JoinMsg.ip m) m.port 3
           [statusCode e, 0, u.coordIp.1, u.coordIp.2]))) ∧
     ((s.at t).fabIn 3 f = .fresh u →
       (u.fab.joined = true → exec (.joinReply t f st addr coord) s = .next u) ∧
       (u.fab.joined = false →
         exec (.joinReply t f st addr coord) s = .next (u.joinAnswered f.src st addr coord))) ∧
     ((s.at t).fabIn 4 f = .fresh u →
       (u.fab.coordinator = true → exec (.view t f cs) s = .next (u.viewAsked f cs)) ∧
       (u.fab.coordinator = false → u.heeds f = false → exec (.view t f cs) s = .next u) ∧
       (∀ v, u.fab.coordinator = false → u.heeds f = true →
         v = ((u.takeAssigns f.ip cs).updFab fun x => { x with coord := f.src }).viewRows
           (cs.filter fun c => c.row) →
         exec (.view t f cs) s = .next (v.viewInOrder f.src (f.ip, v.portAt f.ip)
           (cs.filter fun c => c.view != 0 && !c.row)))) ∧
     ((s.at t).fabIn 5 f = .fresh u →
       (u.candidate = false ∨ u.fromSeed f = false →
         exec (.elect t f serial prio term high) s = .next u) ∧
       (∀ v, u.candidate = true → u.fromSeed f = true → v = (u.updFab fun x => { x with
           candidates := x.candidates.filter (fun c => c.serial != serial) ++
             [{ serial := serial, prio := prio, term := term, highView := high, lastRx := u.tick,
                ip := f.ip, addr := f.src }] }) →
         (term ≤ u.fab.term → exec (.elect t f serial prio term high) s = .next v.elected) ∧
         (u.fab.term < term → exec (.elect t f serial prio term high) s =
           .next (v.updFab fun x => { x with
             term := term, coordinator := false, coord := f.src, joinWaits := [] }).elected))) ∧
     (((s.at t).fabIn 6 f = .fresh u ∨ (s.at t).fabIn 6 f = .again u) →
       exec (.lookup t f ls) s = .next (u.serveAll f.src ls)) ∧
     ((s.at t).fabIn 7 f = .fresh u → exec (.lookupReply t f rs) s =
       .next ((rs.foldl (fun s m => s.replyOne f.src m) u).unparkAll)) ∧
     ((s.at t).fabIn 8 f = .fresh u → exec (.put t f ps) s = .next (u.applyPuts f.src f.fseq ps [])) ∧
     ((s.at t).fabIn 8 f = .again u → exec (.put t f ps) s = .next (u.repeatPut f.src f.fseq)) ∧
     (∀ p v, (s.at t).fabIn 9 f = .fresh u → tget u.fab.puts acked = some p → p.home = f.src →
       v = u.endPut acked (some (sts.head?.getD 0)) →
       exec (.putAck t f acked sts) s = .next (v.takePuts p.ring (v.ring p.ring).putFuel))) ∧
  (∀ (t peer : Nat) (s : State),
     (∀ channel due, tget (s.peer peer).suspect channel = some due → due ≤ max s.tick t →
       exec (.channelSuspectExpiry t peer channel) s = .next ((s.at t).modPeer peer fun p => { p with
         suspect := tdel p.suspect channel })) ∧
     (s.fabUp = true →
       (∀ k, (s.peer peer).state = .live → (s.peer peer).watchSince = some k →
         (s.at t).watching peer = true → max k (s.peer peer).lastRx + 300000 ≤ max s.tick t →
         exec (.peerLossTimeout t peer) s = .next ((s.at t).losePeer peer)) ∧
       (∀ k, (s.peer peer).state = .live → (s.peer peer).watchSince = some k → s.fabLinks = true →
         max s.tick t < max k (s.peer peer).lastRx + 300000 →
         exec (.peerLossTimeout t peer) s = .next (s.at t)) ∧
       (s.fabLinks = true → (s.peer peer).state = .lost →
         (s.peer peer).lastProbe + 1000000 ≤ max s.tick t →
         exec (.lostPeerProbe t peer) s = .next (((s.at t).modPeer peer fun p => { p with
           lastProbe := max s.tick t }).fabSendNext peer 1 [])) ∧
       (s.fabLinks = true → s.bay.resetDue = none → (s.at t).watchers = [peer] →
         (∀ k, (s.peer peer).lastTx = some k → k + 100000 ≤ max s.tick t) →
         exec (.heartbeatSend t) s = .next ((s.at t).fabSendNext peer 1 [])) ∧
       (s.candidate = true → s.fab.members = [] →
         exec (.electSend t) s = .next ((s.otherSeeds.foldl (fun u e => u.fabSendTo e.1 e.2 5
           [u.fuses.serial, u.fab.prio, u.fab.term, u.fab.viewNo]) (s.at t)).elected)) ∧
       (s.fab.joined = false → s.fab.joinSince = none →
         exec (.joinRetry t) s = .next ((s.fab.seeds.foldl (fun u e => u.fabSendTo e.2.1 e.2.2 2
           (joinWords u.ownJoin)) (s.at t)).updFab fun f => { f with joinSince := some (max s.tick t) })) ∧
       (∀ tag f u, s.fetch tag = some f → f.waits = true → f.sentTick + s.fab.rto ≤ max s.tick t →
         u = (s.at t).suspect f.home f.channel →
         (f.resent = true → exec (.lookupRto t tag) s =
           .next (u.modFetch tag fun f => { f with sentTick := f.endTick })) ∧
         (f.resent = false → exec (.lookupRto t tag) s =
           .next ((u.modFetch tag fun f => { f with resent := true }).sendLookups f.home
             (u.channelFrom f.home (f.channel + 1)) [tag]))) ∧
       (∀ k p u, tget s.fab.puts k = some p → p.home ≠ s.fab.addr →
         p.sentTick + s.fab.rto ≤ max s.tick t → u = (s.at t).suspect p.home p.channel →
         (p.resends < 3 → ∃ q c, c = u.channelFrom p.home (p.channel + 1) ∧
           q = ({ p with resends := p.resends + 1, channel := c, sentTick := max s.tick t } : PutRun) ∧
           exec (.putRto t k) s = .next (((u.updFab fun f => { f with
             puts := tset f.puts k q }).noteWork p.home).fabSendAs k p.home c 8 (putWords p.msg))) ∧
         (3 ≤ p.resends → exec (.putRto t k) s = .next ((u.endPut k none).takePuts p.ring
           ((u.endPut k none).ring p.ring).putFuel))) ∧
       (∀ tag f, (s.at t).heldFor peer = [tag] → s.fetch tag = some f → 1280 ≤ s.fab.mtu →
         s.fab.paths ≤ 64 → 0 < s.fab.paths →
         exec (.lookupJoinHold t peer) s = .next ((s.at t).sendLookups peer
           ((s.at t).channelFrom peer (s.keyChannel f.key f.table)) [tag]))) ∧
     (∀ core ctx ring entry x, s.moving = true → (s.ring ring).rtype = 7 → s.ctx core ctx = some x →
       s.ctxReady core ctx = true → x.part = (s.ring ring).owner →
       ∃ u : State, u = ((s.at t).useCtx ring).itemNow ring [entry] ∧
         exec (.fabricPost t core ctx ring entry) s =
           .next ((u.modCtx core ctx fun x => { x with
             fabWait := some (ring, max s.tick t, entry) }).takePuts ring (u.ring ring).putFuel))) ∧
  (∀ (t addr : Nat) (h : CmdHdr) (s : State),
     (h.part = 0 →
       (∀ u, Ready h 0x0D02 false s →
         u = (s.fab.members.map (·.1)).foldl (fun s a => s.failWork a) ((s.at t).updFab fun f =>
           { f with left := true, coordinator := false, joinWaits := [], acksDue := [] }) →
         exec (.fabricLeave t h) s = .next (((u.updModels fun m => { m with
           serving := m.serving.filter fun e => e.2.peer == u.fab.addr }).keepFabric).answer h 0x0D02 .ok
             noDetail [])) ∧
       (Ready h 0x0D02 false s → s.fab.members = [] →
         ∃ s' : State, exec (.fabricLeave t h) s = .next (s'.answer h 0x0D02 .ok noDetail []) ∧
           s'.fab.left = true ∧ s'.fab.coordinator = false ∧ s'.fabUp = false ∧
           s'.fab.assigned = s.fab.assigned ∧ s'.fab.addr = s.fab.addr) ∧
       (∀ serial a, Ready h 0x0D03 false s → s.fabUp = true → s.fab.coordinator = true →
         (s.at t).majority = true → aget s.fab.assigned serial = some a →
         exec (.fabricRelease t h serial) s =
           .next (((s.at t).releaseAddr a).answer h 0x0D03 .ok noDetail [])) ∧
       (∀ serial, Ready h 0x0D03 false s → s.fabUp = true → s.fab.coordinator = true →
         (s.at t).majority = true → aget s.fab.assigned serial = none →
         exec (.fabricRelease t h serial) s =
           .next ((s.at t).answer h 0x0D03 .eState noDetail [])) ∧
       (Ready h 0x0D04 false s →
         (1 ≤ addr → addr ≤ 20480 →
           (addr ∈ s.fab.watch → exec (.fabricWatchAdd t h addr) s =
             .next ((s.at t).answer h 0x0D04 .ok noDetail [])) ∧
           (addr ∉ s.fab.watch → s.fab.watch.length < 4096 →
             ∃ s' : State, exec (.fabricWatchAdd t h addr) s =
                 .next (s'.answer h 0x0D04 .ok noDetail []) ∧
               s'.fab.watch = s.fab.watch ++ [addr]) ∧
           (addr ∉ s.fab.watch → 4096 ≤ s.fab.watch.length →
             exec (.fabricWatchAdd t h addr) s =
               .next ((s.at t).answer h 0x0D04 .eNospace noDetail [])) ∧
           (∃ s' : State, exec (.fabricWatchRemove t h addr) s =
               .next (s'.answer h 0x0D04 .ok noDetail []) ∧ addr ∉ s'.fab.watch ∧
             s' = { s.at t with fab := s'.fab })) ∧
         (20480 < addr → exec (.fabricWatchAdd t h addr) s =
           .next ((s.at t).answer h 0x0D04 .eRange noDetail [])))) ∧
     (∀ start max, Ready h 0x0D05 true s →
       ∃ words, exec (.fabricStatus t h start max) s =
         .next ((s.at t).answer h 0x0D05 .ok noDetail words)))

/-- R343, R344, R78: a frame is accepted only with its version, system, address, key and tag right, and not
from an older start of its sender; and a sequence number accepted is never new again. -/
def Obligations.FabricAcceptance : Prop :=
  ∀ (k : Nat) (f : FabHdr) (u s : State),
    (s.fabIn k f = .fresh u → f.overrun = false ∧ f.fversion = 1 ∧ f.fsys = s.fab.sysId ∧
      f.lenOk = true ∧ (f.dst = 0 ∨ f.dst = s.fab.addr) ∧ f.tagOk = true ∧
      (tget s.fab.keys f.fkey).isSome = true ∧
      (f.src ≠ 0 → (s.peer f.src).bootCount ≤ f.bootCount)) ∧
    (∀ (p : Peer) (tick : Nat) (w : Bool), f.fseq ≠ 0 →
      (p.accept f tick w).fresh f.fseq = false ∧ (p.accept f tick w).state = .live ∧
      ∀ q, p.seen.contains q = true → q ≠ 0 → q ≤ p.highSeq →
        (p.accept f tick w).fresh q = false)

/-- R346, R347: a message takes the channel it would take unless that is suspect, and a suspect one only
where all are. -/
def Obligations.SuspectChannels : Prop :=
  ∀ (a c : Nat) (s : State), 0 < s.fab.paths →
    s.channelFrom a c < s.fab.paths ∧
    ((s.peer a).isSuspect s.tick (c % s.fab.paths) = false → s.channelFrom a c = c % s.fab.paths) ∧
    ((∃ k, k < s.fab.paths ∧ (s.peer a).isSuspect s.tick k = false) →
      (s.peer a).isSuspect s.tick (s.channelFrom a c) = false)

/-- R351, R352: the coordinator answers a known serial with the address held for it; any other address it
grants is valid, held by no serial, and not released within 10 s. -/
def Obligations.GrantedAddresses : Prop :=
  ∀ (m : JoinMsg) (a : Nat) (s : State), s.grant m = (.ok, a) →
    (∀ b, aget s.fab.assigned m.serial = some b → a = b) ∧
    (aget s.fab.assigned m.serial = none →
      1 ≤ a ∧ a ≤ 20480 ∧ (∀ e ∈ s.fab.assigned, e.2 ≠ a) ∧
      (∀ k, tget s.fab.released a = some k → k + 10000000000 ≤ s.tick))

/-- R387: with `rd` set a settings command writes nothing: it answers each setting it names, or refuses the
record it names with its position. R390: partitions are enabled and disabled by partition 0; one that owns a
cluster, a ring, a table or a live model stays enabled; partition 0 itself is refused with `E_ARG`. R372: a
change whose record would not fit the store is refused with `E_NOSPACE` and not applied; which change that
is comes with the command, by the model's choice (log entry 104). R385,
R389, R398, R472, R475, R476: quiesce, shutdown and the global stop as commands. A quiesce or a shutdown
waits until nothing is in flight, and its time limit ends it; a stop names the tick at which it stops the
islands, and the own stop ends with `GLOBAL_RESUME`. -/
def Obligations.AdminCommands : Prop :=
  (∀ (t : Nat) (h : CmdHdr) (c : SetCmd) (recs : List SetRec) (s : State), h.part = 0 →
     resvRec recs = none → Ready h (setOp c) false s →
     ((∀ r ∈ recs, readChk c r = none) →
       (recs.flatMap fun r => (s.at t).readRec c r).length ≤ 1080 →
       exec (.settingsReadForm t h c recs) s = .next ((s.at t).answerRd h (setOp c) 1 .ok noDetail
         (recs.flatMap fun r => (s.at t).readRec c r))) ∧
     (∀ (k : Nat) (r : SetRec) (st : Status), recs[k]? = some r → readChk c r = some st →
       (∀ j q, j < k → recs[j]? = some q → readChk c q = none) →
       exec (.settingsReadForm t h c recs) s = .next ((s.at t).answerRd h (setOp c) 1 st k []))) ∧
  (∀ (t part : Nat) (h : CmdHdr) (s : State),
     (h.part = 0 → Ready h 0x0201 false s → 0 < part → part < 64 →
       (∃ s' : State, exec (.partitionEnable t h part) s = .next (s'.answer h 0x0201 .ok noDetail []) ∧
         (s'.part part) = { s.part part with enabled := true } ∧
         (∀ k, k ≠ part → s'.part k = s.part k) ∧
         s' = { s.at t with parts := s'.parts, bay := s'.bay }) ∧
       (s.holdsAnything part = true →
         exec (.partitionDisable t h part) s = .next ((s.at t).answer h 0x0201 .eState noDetail [])) ∧
       (s.holdsAnything part = false →
         ∃ s' : State, exec (.partitionDisable t h part) s =
             .next (s'.answer h 0x0201 .ok noDetail []) ∧
           (s'.part part) = { s.part part with enabled := false } ∧
           (∀ k, k ≠ part → s'.part k = s.part k))) ∧
     (h.part = 0 → h.fullBad = true → Ready { h with fullBad := false } 0x0201 false s → 0 < part →
       part < 64 → s.bay.runMode = 0 → s.bay.cramped (s.bay.unsaved.length + 1) = true →
       exec (.partitionEnable t h part) s = .next ((s.at t).answer h 0x0201 .eNospace noDetail [])) ∧
     (h.part = 0 → Ready h 0x0201 false s →
       exec (.partitionEnable t h 0) s = .next ((s.at t).answer h 0x0201 .eArg noDetail [])) ∧
     (h.part = 0 ∨ h.part = part → Ready h 0x0203 false s →
       exec (.partitionQuery t h part) s = .next ((s.at t).answer h 0x0203 .ok noDetail
         (pack [(1, bit (s.part part).enabled), (1, bit (s.part part).revoking),
           (16, (s.part part).token), (32, s.slotsOf part), (16, (s.ownedBy part).length),
           (16, (s.rings.ctx.filter fun e => e.2.rtype != 0 && e.2.owner == part).length),
           (16, (s.sessionsOf part).length)])))) ∧
  (∀ (t : Nat) (h : CmdHdr) (s : State),
     (h.part = 0 → timeoutBad h = false →
       (Ready h 0x0E08 false s →
         (s.obs.quiesced = true →
           exec (.quiesce t h) s = .next ((s.at t).answer h 0x0E08 .ok noDetail [])) ∧
         (s.obs.quiesced = false →
           exec (.quiesce t h) s = .next ((s.at t).startQuiesce h false) ∧
           ((s.at t).startQuiesce h false).closed = true) ∧
         (s.obs.quiesced = true → exec (.quiesceRelease t h) s = .next ((((s.at t).updObs fun o =>
           { o with quiesced := false }).tryArm).answer h 0x0E08 .ok noDetail [])) ∧
         (s.obs.quiesced = false →
           exec (.quiesceRelease t h) s = .next ((s.at t).answer h 0x0E08 .eState noDetail []))) ∧
       (Ready h 0x0102 false s →
         (s.obs.quiesced = false →
           exec (.deviceShutdown t h) s = .next ((s.at t).startQuiesce h true)) ∧
         (s.obs.quiesced = true → exec (.deviceShutdown t h) s =
           .next (((s.at t).finishShutdown).answer h 0x0102 .ok noDetail []))) ∧
       (Ready h 0x0E09 true s →
         (s.obs.islandsStopped = true →
           exec (.globalStop t h) s = .next ((s.at t).answer h 0x0E09 .eState noDetail [])) ∧
         (s.obs.islandsStopped = false →
           ∃ words first, exec (.globalStop t h) s =
               .next (((s.at t).ownStop 0).answer h 0x0E09 .ok noDetail words) ∧
             max s.tick t ≤ first ∧ first ≤ max s.tick t + 1000 ∧
             words.head? = some (first % 2 ^ 64))) ∧
       (Ready h 0x0E0A true s →
         (s.obs.islandsStopped = true → exec (.globalResume t h) s = .next ((((s.at t).updObs fun o =>
           { o with ownStop := false }).tryResume).answer h 0x0E0A .ok noDetail [])) ∧
         (s.obs.islandsStopped = false →
           exec (.globalResume t h) s = .next ((s.at t).answer h 0x0E0A .eState noDetail [])))) ∧
     (∀ h' due, s.running = true → s.isainUp = true → s.obs.quiescing = [(h', due, false)] →
       s.quiet = true →
       exec (.quiesceDone t) s = .next (((s.at t).updObs fun o => { o with
         quiescing := []
         quiesceAt := []
         quiesced := true }).answer h' 0x0E08 .ok noDetail [])) ∧
     (∀ via seq, s.isainUp = true → s.rings.barriers = [] →
       (∀ d ∈ s.models.domains, d.2.waiting = none) → s.obs.quiescing = [] →
       exec (.commandTimeout t via seq) s = .next (s.at t)) ∧
     (∀ via seq p idx b, s.isainUp = true → s.rings.barriers = [(p, idx, b)] → b.h.via = via →
       b.h.seq = seq → b.due ≤ max s.tick t →
       exec (.commandTimeout t via seq) s =
         .next (((s.at t).dropBarrier p idx).answer b.h 0x0307 .eTimeout noDetail [])))

/-- R386: the settings commands. Every record is checked before any applies; the first that fails refuses
the command with its status and its position, and nothing changes; with all of them good and the whole good,
all apply as one change, which is kept, and the command answers `OK`. Records that are good but do not stand
together are refused at the record from which on they do not (notes/assumptions/120.md), and by R383 a
record that names a ring or model that is not there refuses the command before any other check of a record.
-/
def Obligations.SettingsCommands : Prop :=
  ∀ (t : Nat) (h : CmdHdr) (recs : List SetRec) (s : State), h.part = 0 → resvRec recs = none →
    ∀ (i : Instr) (op : Nat) (chk : SetRec → Option Status) (apply : State → SetRec → State)
      (whole : State → State → Option Status) (kept : State → State) (miss : SetRec → Bool),
    (i, op, chk, apply, whole, kept, miss) ∈ ([
      (.portConfig t h recs, 0x0401, portChk, portApply, portWhole,
        fun s => ((s.keep s.portsVal).keep s.deviceVal).tryArm.lowAlert, fun _ => false),
      (.ptpConfig t h recs, 0x0502, ptpChk (s.at t), ptpApply, fun _ _ => none,
        fun s => (s.keep (.ptp s.wall)).keep s.portsVal, fun _ => false),
      (.parseConfig t h recs, 0x0603, parseChk, parseApply,
        fun _ s => if threshOrder s.parser then none else some .eArg, fun s => s.keep s.parserVal,
        fun _ => false),
      (.classConfig t h recs, 0x0701, clsChk (s.at t), clsApply, clsWhole, fun s => s.keep s.clsVal,
        clsMiss s),
      (.flowTableConfig t h recs, 0x070C, flowChk (s.at t), flowApply, clsWhole,
        fun s => s.keep s.clsVal, flowMiss s),
      (.egressConfig t h recs, 0x0801, egressChk (s.at t), egressApply, egressWhole,
        fun s => s.keep s.egressVal, fun _ => false),
      (.policerConfig t h recs, 0x0802, policerChk, policerApply, policerWhole,
        fun s => s.keep s.egressVal, fun _ => false),
      (.memConfig t h recs, 0x0C01, memChk,
        fun s r => s.updMem fun m => { m with scrubPeriod := r.value }, fun _ _ => none,
        fun s => s.keep s.deviceVal, fun _ => false),
      (.fabricConfig t h recs, 0x0D01, fabChk (s.at t), fabApply, fun _ _ => none,
        State.keepFabric, fun _ => false),
      (.partitionConfig t h recs, 0x0202, partChk, partApply, partWhole,
        fun s => (recs.map recPart).eraseDups.foldl (fun s p => s.keepPart p) s, fun _ => false),
      (.clusterConfig t h recs, 0x0205, clusterChk (s.at t),
        fun s r => s.modCluster r.scope fun x => { x with clkCap := r.value }, fun _ _ => none,
        fun s => (s.keep s.clustersVal).setRails, fun _ => false)] :
      List (Instr × Nat × (SetRec → Option Status) × (State → SetRec → State) ×
        (State → State → Option Status) × (State → State) × (SetRec → Bool))) →
    Ready h op false s →
    ((∀ r ∈ recs, chk r = none) → whole (s.at t) (recs.foldl apply (s.at t)) = none →
      exec i s = .next ((kept (recs.foldl apply (s.at t))).answer h op .ok noDetail [])) ∧
    (∀ st k, (∀ r ∈ recs, chk r = none) → whole (s.at t) (recs.foldl apply (s.at t)) = some st →
      k < recs.length → whole (s.at t) ((recs.take k).foldl apply (s.at t)) = none →
      (∀ j, k < j → whole (s.at t) ((recs.take j).foldl apply (s.at t)) ≠ none) →
      exec i s = .next ((s.at t).answer h op st k [])) ∧
    (∀ (k : Nat) (r : SetRec) (st : Status), (∀ q ∈ recs, miss q = false) → recs[k]? = some r →
      chk r = some st → (∀ j q, j < k → recs[j]? = some q → chk q = none) →
      exec i s = .next ((s.at t).answer h op st k [])) ∧
    (∀ (k : Nat) (r : SetRec), recs[k]? = some r → miss r = true →
      (∀ j q, j < k → recs[j]? = some q → miss q = false) →
      exec i s = .next ((s.at t).answer h op .eState k []))

/-- R16, R203, R204, R390: clusters change owner. A command for clusters that have the owner is answered at
once, any other waits until the last has it; work ends at the grace's end and the reset begins; when it is
done the cluster is zeroed and has its new owner. R112, R437 to R439: a partition's re-initialisation begins
with the command, or is joined; it revokes once its work has ended or 10 ms have passed; an orphan no
cluster keeps is freed; a slot hung for the first time is counted. R14 to R16, R431 to R434, R440, R441:
spares, retirement and restarts. An idle spare that passes its test stays; one that fails takes state 6; a
core that met a trigger is retired; any counted fault is one for a core that serves as a spare and has no
spare rows left (log entry 138), and so is a failed self-test at a start; a silent die, or Isain's second restart within 10 s, leads to a device
reset; Isain answers again after its restart. -/
def Obligations.RecoveryAndClusters : Prop :=
  (∀ (t : Nat) (h : CmdHdr) (s : State),
     (∀ target graceUs clusters u, h.part = 0 → Ready h 0x0204 false s → ownerValid target = true →
       (h.flag = false ∨ graceUs ≤ 100000) → (64 ≤ target ∨ (s.part target).enabled = true) →
       (∀ c ∈ clusters, (s.cluster c).leaving = none ∧ c < 256) → clusters.length ≤ 256 →
       u = clusters.foldl (fun s c => s.leave h target (graceOf h graceUs) c) (s.at t) →
       (u.assignDone h = true → exec (.clusterAssign t h target graceUs clusters) s =
         .next (u.answer h 0x0204 .ok noDetail [])) ∧
       (u.assignDone h = false → exec (.clusterAssign t h target graceUs clusters) s = .next u)) ∧
     (∀ target graceUs c, h.part = 0 → Ready h 0x0204 false s → ownerValid target = true →
       (h.flag = false ∨ graceUs ≤ 100000) → (64 ≤ target ∨ (s.part target).enabled = true) →
       (s.cluster c).leaving.isSome = true →
       exec (.clusterAssign t h target graceUs [c]) s =
         .next ((s.at t).answer h 0x0204 .busy 0 [])) ∧
     (∀ c l, s.moving = true → (s.cluster c).leaving = some l →
       (l.resetting = false → l.graceEnd ≤ max s.tick t →
         exec (.reassignGraceExpiry t c) s = .next ((s.at t).abortCluster c)) ∧
       (l.resetting = true → l.revoke = false →
         ∃ u : State, u = (((s.at t).zeroCluster c).clusterStopped c).takeOwner c l ∧
           exec (.clusterResetDone t c) s = .next (if u.revokeDone (s.cluster c).owner then
             u.endReinit (s.cluster c).owner else u))) ∧
     (∀ start max, Ready h 0x0206 false s →
       ∃ words, exec (.coreMapRead t h start max) s =
         .next ((s.at t).answer h 0x0206 .ok noDetail words))) ∧
  (∀ (t part : Nat) (h : CmdHdr) (s : State),
     (Ready h 0x0105 false s → h.part = 0 ∨ h.part = part → 0 < part → part < 64 →
       (s.part part).enabled = true →
       ((s.part part).reinit = none → exec (.partitionReinit t h part) s =
         .next ((s.at t).modPart part fun x => { x with reinit := match x.reinit with
           | some (k, hs) => some (k, hs ++ [h])
           | none => some (max s.tick t, [h]) }))) ∧
     (∀ k hs, s.running = true → (s.part part).revoking = false → (s.part part).reinit = some (k, hs) →
       (k + 10000000 ≤ max s.tick t → exec (.reinitRevoke t part) s = .next ((s.at t).revoke part)) ∧
       (max s.tick t < k + 10000000 → s.partIdle part = false →
         exec (.reinitRevoke t part) s = .next (s.at t))) ∧
     (∀ slot, (s.slot slot).state = .orphan → (s.slot slot).orphanClusters = [] →
       exec (.orphanSlotFree t slot) s = .next ((s.at t).freeSlot slot)) ∧
     (s.running = true → s.isainUp = true → (∀ e ∈ s.rings.slots, e.2.hung (max s.tick t) = false) →
       (∀ p, ((s.part p).hangs.filter fun u => decide (max s.tick t < u + 1000000000)).length < 16) →
       exec (.hungSlotScan t) s = .next (s.at t)) ∧
     (∀ slot, s.running = true → s.isainUp = true →
       s.rings.slots.map (·.1) = [slot] → (s.slot slot).hung (max s.tick t) = true →
       (s.slot slot).hangCounted = false → (s.slot slot).part = 0 →
       (∀ p, ((s.at t).foundHung slot).hangTrigger p = false) →
       exec (.hungSlotScan t) s = .next ((s.at t).foundHung slot)) ∧
     (∀ p, s.running = true → s.isainUp = true → p < 64 →
       (∀ e ∈ s.rings.slots, e.2.hung (max s.tick t) = true → e.2.hangCounted = true) →
       (s.at t).hangTrigger p = true → (∀ q, q ≠ p → (s.at t).hangTrigger q = false) →
       exec (.hungSlotScan t) s = .next ((s.at t).modPart p fun x => { x with
         reinit := some (max s.tick t, []) }))) ∧
  (∀ (t : Nat) (s : State),
     (∀ core i e, s.running = true → ((s.positions 4).find? fun e => e.2.phys == core) = some (i, e) →
       exec (.spareTest t core true) s = .next (s.at t) ∧
       ∃ u : State, u = (((s.at t).modMap i fun e => { e with state := 6 }).count Ctr.spareTestFail
           (coreRegion core)).coreRecord core i core 0 2 ∧
         exec (.spareTest t core false) s = .next (u.keep u.remapVal)) ∧
     (∀ core fails, s.running = true → (s.core core).retiring = true →
       (s.logicalEntry core).isSome = true →
       exec (.coreRetire t core fails) s = .next ((s.at t).retireCore core fails)) ∧
     (∀ core l e, s.logicalEntry core = some (l, e) → e.state = 2 → s.rowsSpent core = true →
       (s.spareFault core).core core = { s.core core with retiring := true } ∧
       ∀ a, ((s.arrayFault core a).core core).retiring = true) ∧
     (∀ core, (∀ e ∈ s.positions 4, e.2.phys ≠ core) → (s.logicalEntry core).isSome = true →
       (s.selfTestFailed core).core core = { s.core core with retiring := true }) ∧
     (∀ die, s.running = true → die < 4 →
       exec (.dieSilentTimeout t die) s = .next ((s.at t).orderReset 1000000)) ∧
     (∀ core, s.isainUp = true → core < 4 →
       (s.bay.lastRestart = none → ∃ s' : State, exec (.isainHeartbeatMiss t core) s = .next s' ∧
         s'.bay.isainUp = false ∧ s'.bay.lastRestart = some (max s.tick t) ∧
         s' = { s.at t with bay := s'.bay }) ∧
       (∀ k, s.bay.lastRestart = some k → max s.tick t < k + 10000000000 →
         exec (.isainHeartbeatMiss t core) s = .next ((s.at t).orderReset 0))) ∧
     (s.alive = true → s.bay.isainUp = false →
       ∃ u : State, u = ((s.at t).updBay fun b => { b with isainUp := true }).tally Ctr.isainRestart ∧
         exec (.isainRestartDone t []) s = .next (u.record 0x0050 4 0 0xFF 2
           [(8, 2), (8, 0), (32, u.counter Ctr.isainRestart 0)])) ∧
     (∀ l old i e sp, tget s.comp.map l = some e → tget s.comp.map i = some sp → l ≠ i →
       e.state ≠ 2 →
       tget (s.moveLogical l old e i sp).comp.map l = some { e with
         state := 2, link := i, phys := sp.phys, count := min 15 (e.count + 1) } ∧
       tget (s.moveLogical l old e i sp).comp.map i = some { sp with state := 5, link := l }))

/-- R204: a cluster's reset zeroes its store, its groups, and the memories of its cores, and leaves every
other cluster, and every core outside it, as it was. -/
def Obligations.ClusterZeroed : Prop :=
  ∀ (c : Nat) (s : State),
    ((s.zeroCluster c).cluster c).store = [] ∧ ((s.zeroCluster c).cluster c).groups = [] ∧
    ((s.zeroCluster c).cluster c).opens = [] ∧
    ((s.zeroCluster c).cluster c).owner = (s.cluster c).owner ∧
    (∀ p ∈ s.coresIn c, ((s.zeroCluster c).core p).sram = [] ∧
      ((s.zeroCluster c).core p).ctxs = [] ∧ ((s.zeroCluster c).core p).walks = [] ∧
      ((s.zeroCluster c).core p).retiring = (s.core p).retiring) ∧
    (∀ p, p ∉ s.coresIn c → (s.zeroCluster c).core p = s.core p) ∧
    (∀ k, k ≠ c → (s.zeroCluster c).cluster k = s.cluster k)

/-- R112: revocation disables every ring of the partition under a new owner token, and what a host-produced
one had not consumed counts as dropped; no ring of another partition changes. R104, R112: an item that
stalls for space in a ring of the partition is dropped with the ring's disabling, counted in `drop_count`,
and reported by a later `LOSS`. -/
def Obligations.RevokedRings : Prop :=
  ∀ (p token : Nat) (e : Nat × Ring) (s : State), e ∈ s.rings.ctx →
   ((∀ x ∈ s.rings.ctx, x.2.owner = p → (s.ring x.1).stalled = []) →
    (e.2.owner ≠ p → e ∈ (s.revokeRings p token).rings.ctx) ∧
    (e.2.owner = p → ∃ r : Ring, (e.1, r) ∈ (s.revokeRings p token).rings.ctx ∧ r.enabled = false ∧
      r.ownerToken = token ∧ r.prodIdx = e.2.prodIdx ∧ r.baseAddr = e.2.baseAddr ∧
      (hostProduced e.2.rtype = true → r.consIdx = e.2.prodIdx ∧ r.opened = [] ∧ r.inflight = 0 ∧
        r.dropCount =
          min (e.2.dropCount + idxCount e.2.prodIdx e.2.consIdx) (2 ^ 32 - 1))) ∧
    (s.revokeRings p token).rings.slots = s.rings.slots ∧
    (s.revokeRings p token).mem = s.mem) ∧
   (∀ (k : Nat) (item : RingItem), (s.rings.ctx.map (·.1)).Nodup →
    (∀ x ∈ s.rings.ctx, x.2.owner = p → x ≠ e → x.2.stalled = []) → e.2.owner = p →
    hostProduced e.2.rtype = false → e.2.rtype ≠ 7 → e.2.stalled = [(k, item)] →
    (∀ w ∈ item.head?, headKind (wordOf w 0) ≠ 0x10 ∧ headKind (wordOf w 0) ≠ 0x12) →
    ∃ r : Ring, (e.1, r) ∈ (s.revokeRings p token).rings.ctx ∧ r.enabled = false ∧
      r.ownerToken = token ∧ r.stalled = [] ∧
      r.dropCount = min (e.2.dropCount + item.length) (2 ^ 32 - 1) ∧
      r.lossCount = e.2.lossCount + item.length ∧
      (s.revokeRings p token).rings.slots = s.rings.slots)

/-- R457, R458, R460: counters read and cleared. A read answers the value of each named counter; a clear
also zeroes each, and touches no other; a command with an unknown counter, a scope out of range or a counter
not open to its issuer is refused whole, at that counter. R446, R451 to R453, R377: Rosemary's commands. A
read answers a page; a freeze holds; the end of a freeze that lost records writes a `LOSS` record first; a
clear of a frozen store removes what lies at or below `upto`, copied to the log region where kept, and
writes a `CLEAR` record; reports and log copies act at once. R464, R467, R468: a trace configuration takes
the place of the old one, whose undrained records are counted as dropped; one with a
reserved bit of its trigger set is refused and counted (R6, R465); a mark is on its way to its cluster's
unit, which it reaches 2 to 20 µs later, at an instant the spec leaves open; a drain writes the oldest record to the ring, and keeps a protected one that the ring
cannot take. R470: page 0 builds a new graph, of at most 65,536 edges; a later page reads a graph no older
than 10 s, and is refused where there is none. R457: every counter is a 64-bit count that saturates, and
counting one changes no other. -/
def Obligations.Observability : Prop :=
  (∀ (t : Nat) (h : CmdHdr) (ids : List CounterId) (s : State), Ready h 0x0E01 true s →
     ((∀ c ∈ ids, ∃ k, Ctr.kind c.id = some k ∧ s.scopeGood c.id k c.scope = true ∧
         (h.part = 0 ∨ s.counterOpen h.part k c.scope = true)) →
       exec (.counterRead t h ids) s = .next ((s.at t).answer h 0x0E01 .ok noDetail
         (ids.map fun c => s.counter c.id c.scope)) ∧
       ∃ (s' : State) (words : List Nat),
         exec (.counterReadClear t h ids) s = .next (s'.answer h 0x0E01 .ok noDetail words) ∧
         s' = { s.at t with obs := { s.obs with counters := s'.obs.counters } } ∧
         (∀ c ∈ ids, s'.counter c.id c.scope = 0) ∧
         (∀ id scope, (∀ c ∈ ids, (c.id, c.scope) ≠ (id, scope)) →
           s'.counter id scope = s.counter id scope) ∧
         ((ids.map fun c => (c.id, c.scope)).Nodup →
           words = ids.map fun c => s.counter c.id c.scope)) ∧
     (∀ (j : Nat) (c : CounterId) (st : Status), ids[j]? = some c →
       ((st = .eArg ∧ Ctr.kind c.id = none ∧
           ∀ i d, i < j → ids[i]? = some d → Ctr.kind d.id ≠ none) ∨
         ((∀ d ∈ ids, Ctr.kind d.id ≠ none) ∧ ∃ k, Ctr.kind c.id = some k ∧
           ((st = .ePriv ∧ h.part ≠ 0 ∧ s.counterOpen h.part k c.scope = false ∧
               ∀ i d k, i < j → ids[i]? = some d → Ctr.kind d.id = some k →
                 s.counterOpen h.part k d.scope = true) ∨
             (st = .eRange ∧ s.scopeGood c.id k c.scope = false ∧
               (h.part = 0 ∨ ∀ d k, d ∈ ids → Ctr.kind d.id = some k →
                 s.counterOpen h.part k d.scope = true) ∧
               ∀ i d k, i < j → ids[i]? = some d → Ctr.kind d.id = some k →
                 s.scopeGood d.id k d.scope = true)))) →
       exec (.counterRead t h ids) s = .next ((s.at t).answer h 0x0E01 st j []) ∧
       exec (.counterReadClear t h ids) s = .next ((s.at t).answer h 0x0E01 st j []))) ∧
  (∀ (t : Nat) (h : CmdHdr) (s : State),
     (h.part = 0 →
       (∀ start max, Ready h 0x0E02 true s → ∃ words,
         exec (.rosemaryRead t h start max) s = .next ((s.at t).answer h 0x0E02 .ok noDetail words)) ∧
       (∀ start max, Ready h 0x1103 true s → ∃ words,
         exec (.logRead t h start max) s = .next ((s.at t).answer h 0x1103 .ok noDetail words)) ∧
       (Ready h 0x0E03 true s →
         (s.obs.frozen = false → exec (.rosemaryFreeze t h) s = .next (({ s.at t with
           obs := { s.obs with frozen := true, lost := 0, lostFirst := 0 } }).answer
             h 0x0E03 .ok noDetail [])) ∧
         (s.obs.frozen = true →
           exec (.rosemaryFreeze t h) s = .next ((s.at t).answer h 0x0E03 .ok noDetail [])) ∧
         (∃ u : State, u = { s.at t with
             obs := { s.obs with frozen := false, lost := 0, lostFirst := 0 } } ∧
           (s.obs.frozen = true ∧ s.obs.lost ≠ 0 → exec (.rosemaryUnfreeze t h) s =
             .next ((u.record 0x0006 4 0 0xFF 1 [(64, s.obs.lost), (64, s.obs.lostFirst)]).answer
               h 0x0E03 .ok noDetail [])) ∧
           (s.obs.frozen = false ∨ s.obs.lost = 0 →
             exec (.rosemaryUnfreeze t h) s = .next (u.answer h 0x0E03 .ok noDetail [])))) ∧
       (∀ upto, Ready h 0x0E04 true s →
         (s.obs.frozen = false → exec (.rosemaryClear t h upto) s =
           .next ((s.at t).answer h 0x0E04 .eState noDetail [])) ∧
         (s.obs.frozen = true → s.obs.rmSeq ≤ upto → exec (.rosemaryClear t h upto) s =
           .next ((s.at t).answer h 0x0E04 .eRange noDetail [])) ∧
         (s.obs.frozen = true → upto < s.obs.rmSeq → ∃ u : State,
           exec (.rosemaryClear t h upto) s =
             .next ((u.record 0x0005 4 0 0xFF 1 [(64, upto), (32, viaSid h.via), (8, 0)]).answer
               h 0x0E04 .ok noDetail []) ∧
           u.obs.frozen = true ∧ (∀ r ∈ u.obs.rm, upto < r.seq) ∧
           (∀ r ∈ s.obs.rm, upto < r.seq → ∃ r' ∈ u.obs.rm, r'.seq = r.seq ∧ r'.data = r.data) ∧
           u.bay = s.bay.logPut ((s.obs.rm.filter fun r => r.kept && !r.copied).map .inr)))) ∧
     (s.alive = true →
       exec (.rosemaryLogCopy t) s = .next ((s.at t).copyLog) ∧
       (∀ r ∈ ((s.at t).copyLog).obs.rm, r.kept = true → r.copied = true) ∧
       (∀ kind unit data level sev, recordForm kind ((data.headD 0).toNat) = some (level, sev) →
         exec (.rosemaryRecord t kind unit data) s = .next ((s.at t).record kind level (unit % 65536)
           0xFF sev ((data.take 3).map fun w : W64 => (64, w.toNat)))))) ∧
  (∀ (t cluster : Nat) (h : CmdHdr) (s : State),
     (∀ ring mode post trig, Ready h 0x0E05 false s → s.ringMade ring = true →
       h.part = 0 ∨ h.part = (s.cluster cluster).owner →
       (trigResv trig ≠ none → exec (.traceConfig t h cluster ring mode post trig) s =
         .next (((s.at t).count Ctr.cmdResvRefused h.part).answer h 0x0E05 .eArg noDetail [])) ∧
       (trigResv trig = none → 3 ≤ mode ∨ trigBad trig = true →
         exec (.traceConfig t h cluster ring mode post trig) s =
           .next ((s.at t).answer h 0x0E05 .eArg noDetail [])) ∧
       (trigResv trig = none → mode < 3 → trigBad trig = false →
         (448 < post → exec (.traceConfig t h cluster ring mode post trig) s =
           .next ((s.at t).answer h 0x0E05 .eRange noDetail [])) ∧
         (post ≤ 448 → cluster < 256 →
           (s.ring ring).rtype = 5 → (s.ring ring).owner = s.traceOwner cluster →
           (trigStop trig = true → h.part ≠ 0 → exec (.traceConfig t h cluster ring mode post trig) s =
             .next ((s.at t).answer h 0x0E05 .ePriv noDetail [])) ∧
           (trigStop trig = false ∨ h.part = 0 → ∃ s' : State,
             exec (.traceConfig t h cluster ring mode post trig) s =
               .next (s'.answer h 0x0E05 .ok noDetail []) ∧
             (s'.cluster cluster).dill = ⟨mode, ring, post, trig, false, 0, false, [],
               (s.cluster cluster).dill.seq, 0, (s.cluster cluster).dill.marks⟩ ∧
             (∀ k, k ≠ cluster → s'.cluster k = s.cluster k) ∧
             ((s.cluster cluster).dill.buf = [] →
               s' = { s.at t with comp := { s.comp with clusters := s'.comp.clusters } }))))) ∧
     (∀ mark, Ready h 0x0E06 false s → h.part = 0 ∨ (s.part h.part).rights.getLsbD 0 = true →
       (cluster < 256 → ∃ late, 2000 ≤ late ∧ late ≤ 20000 ∧
         exec (.traceMarkBegin t h cluster mark) s = .next ((({ s.at t with freeCount := s.freeCount + 1 } :
           State).sendMark cluster late (hostMark 8 mark)).answer h 0x0E06 .ok noDetail []) ∧
         exec (.traceMarkEnd t h cluster mark) s = .next ((({ s.at t with freeCount := s.freeCount + 1 } :
           State).sendMark cluster late (hostMark 9 mark)).answer h 0x0E06 .ok noDetail [])) ∧
       (256 ≤ cluster →
         exec (.traceMarkBegin t h cluster mark) s =
           .next ((s.at t).answer h 0x0E06 .eRange noDetail []) ∧
         exec (.traceMarkEnd t h cluster mark) s =
           .next ((s.at t).answer h 0x0E06 .eRange noDetail []))) ∧
     (∀ r rest, s.moving = true → (s.cluster cluster).dill.drains = true →
       (s.cluster cluster).dill.buf = r :: rest → (s.cluster cluster).dill.dropped = 0 →
       (r.prot = false → exec (.dillDrain t cluster) s = .next (((s.at t).modCluster cluster fun x =>
         { x with dill := { x.dill with buf := rest } }).ringItem (s.cluster cluster).dill.ring
           (traceItem r))) ∧
       (r.prot = true → (s.ring (s.cluster cluster).dill.ring).fullPolicy ≠ 2 →
         (s.ring (s.cluster cluster).dill.ring).fits (traceItem r) = false →
         exec (.dillDrain t cluster) s = .next (s.at t)))) ∧
  (∀ (t start max : Nat) (h : CmdHdr) (s : State), h.part = 0 → Ready h 0x0E07 true s →
     (start = 0 → ∃ words, exec (.waitforRead t h start max) s =
       .next (((s.at t).buildGraph).answer h 0x0E07 .ok noDetail words)) ∧
     (start ≠ 0 → ((s.at t).graphFresh = true → ∃ words, exec (.waitforRead t h start max) s =
         .next ((s.at t).answer h 0x0E07 .ok noDetail words)) ∧
       ((s.at t).graphFresh = false → exec (.waitforRead t h start max) s =
         .next ((s.at t).answer h 0x0E07 .eState noDetail []))) ∧
     (((s.at t).buildGraph).obs.graph.length ≤ 65536 ∧ ((s.at t).buildGraph).graphFresh = true)) ∧
  (∀ (id scope n : Nat) (s : State), s.obs.countersFit →
     (s.countN id scope n).counter id scope = min (s.counter id scope + n) (2 ^ 64 - 1) ∧
     (∀ id' scope', (id', scope') ≠ (id, scope) →
       (s.countN id scope n).counter id' scope' = s.counter id' scope') ∧
     (s.countN id scope n).obs.countersFit ∧
     (∀ id' scope', State.reset.counter id' scope' = 0))

/-- R446, R451: a record takes the next number and stands last; in a full store it takes the place of the
oldest that does not wait for the log region, and while frozen, or where every record waits, it is lost. -/
def Obligations.RosemaryStores : Prop :=
  ∀ (o : Observe) (r : RmRec),
    ((o.store r).1.rmSeq = o.rmSeq + 1) ∧
    (o.rm.length < 16384 → (o.store r).1.rm = o.rm ++ [{ r with seq := o.rmSeq }] ∧
      (o.store r).2 = none) ∧
    (16384 ≤ o.rm.length → o.frozen = true →
      (o.store r).1.rm = o.rm ∧ (o.store r).1.lost = o.lost + 1 ∧
      (o.store r).2 = some Ctr.rmLost) ∧
    (∀ pre x post, 16384 ≤ o.rm.length → o.frozen = false → o.rm = pre ++ x :: post →
      (∀ e ∈ pre, e.kept = true ∧ e.copied = false) → (x.kept = false ∨ x.copied = true) →
      (o.store r).1.rm = pre ++ post ++ [{ r with seq := o.rmSeq }] ∧
      (o.store r).2 = some Ctr.rmOverwritten) ∧
    (16384 ≤ o.rm.length → o.frozen = false → (∀ e ∈ o.rm, e.kept = true ∧ e.copied = false) →
      (o.store r).1.rm = o.rm ∧ (o.store r).2 = some Ctr.rmLost)

/-- R465, R467: a record written into a Dill unit never drops or overwrites a record of the protected
window, and the buffer never holds more than its 1,024 records; one that is off, frozen or masked changes
nothing. -/
def Obligations.DillWindow : Prop :=
  ∀ (d : Dill) (r : TraceRec),
    (d.mode = 0 ∨ d.frozen = true ∨ (trigMask d.trig).testBit r.kind = false → d.write r = (d, 0, false)) ∧
    (d.fired = true → ∀ x ∈ d.buf, x.prot = true → x ∈ (d.write r).1.buf) ∧
    (d.post ≤ 448 → d.buf.length ≤ 1024 → (d.mode = 1 ∧ d.fired = false → d.buf.length ≤ 1022 - d.post) →
      (d.write r).1.buf.length ≤ 1024) ∧
    (d.seq ≤ (d.write r).1.seq ∧ (d.write r).1.seq ≤ d.seq + 2)

/-- R400, R405, R407, R412: the update lock and staging. Opening takes the lock and discards what was
staged; data lands at its offset and nowhere else; another session's lock, a bad offset or length, a range
outside `len` and a byte written twice with two values are refused; an abort discards, and 60 s without a
command free the lock. R410: `UPDATE_FINISH` takes a staged image that is whole, in range, signed under the
device's root, not below the anti-rollback counter, with every section's digest, and in no conflict with a
held image; the first check that fails gives the status, and the staged bytes and the lock stay. R412, R414,
R415: activation, confirmation and rollback, each refused with `E_STATE` outside its case. A confirmation
makes the running slot `VALID` and active, ends the trial, and raises the anti-rollback counter to the
running image's `m_svn` where that is higher; a slot below it is set `BAD`. R411: a version conflict
discards the staged image; a held image on trial is set `BAD` with its trial ended, and a confirmed one
stays as it is. R372, R373, R401: boot status, `SETTINGS_SYNC` and the store's appends. A sync waits while a
change is not in flash; each append writes the oldest change as the newest record, and answers the syncs it
completes. R373: a compaction keeps, of each group and scope, the record in use.
R425: a stored set of session keys reads back as it was stored. R401, R402, R421 to R428:
certificates, attestation, keys, rights and debug. A report lands in the window of its partition; an
unwrapped key becomes its partition's, and a ciphertext is used once; rights are the two of R426; a good
token opens its scopes, closes every other session and shuts new ones out. -/
def Obligations.UpdateAndSecurity : Prop :=
  (∀ (t : Nat) (h : CmdHdr) (s : State),
     (h.part = 0 →
       (∀ len, Ready h 0x0F01 false s →
         (s.lockedOut h = true →
           exec (.updateOpen t h len) s = .next ((s.at t).answer h 0x0F01 .busy noDetail [])) ∧
         (s.lockedOut h = false →
           (67108864 < len →
             exec (.updateOpen t h len) s = .next ((s.at t).answer h 0x0F01 .eRange noDetail [])) ∧
           (len ≤ 67108864 → s.bay.stg.state = 7 → s.inRom = false →
             exec (.updateOpen t h len) s = .next ((s.at t).answer h 0x0F01 .eState noDetail [])) ∧
           (len ≤ 67108864 → s.bay.stg.state ≠ 7 → exec (.updateOpen t h len) s =
             .next (({ s.at t with bay := { s.bay with
               staged := [], written := [], finished := false, stagedLen := len, stg := {}
               lock := some { sid := viaSid h.via, last := max s.tick t } } } : State).answer
               h 0x0F01 .ok noDetail [])))) ∧
       (∀ offset data, Ready h 0x0F02 false s →
         (s.holdsLock h = false → exec (.updateData t h offset data) s =
           .next ((s.at t).answer h 0x0F02 .eState noDetail [])) ∧
         (s.holdsLock h = true → offset % 8 = 0 → data.length % 8 = 0 →
           data.length = 0 ∨ 8192 < data.length → exec (.updateData t h offset data) s =
             .next ((s.at t).answer h 0x0F02 .eRange noDetail [])) ∧
         (s.holdsLock h = true → 0 < data.length → data.length ≤ 8192 → data.length % 8 = 0 →
           (offset % 8 ≠ 0 → exec (.updateData t h offset data) s =
             .next ((s.at t).answer h 0x0F02 .eArg noDetail [])) ∧
           (offset % 8 = 0 →
             (s.bay.stagedLen < offset + data.length ∨ 0x3FF0000 < offset + data.length →
               exec (.updateData t h offset data) s =
                 .next ((s.at t).answer h 0x0F02 .eRange noDetail [])) ∧
             (offset + data.length ≤ s.bay.stagedLen → offset + data.length ≤ 0x3FF0000 →
               (s.bay.rewrites offset data = true → exec (.updateData t h offset data) s =
                 .next ((s.at t).answer h 0x0F02 .eConflict noDetail [])) ∧
               (s.bay.rewrites offset data = false → memWfFrom 0 s.bay.staged = true →
                 ∃ s' : State, exec (.updateData t h offset data) s =
                     .next (s'.answer h 0x0F02 .ok noDetail []) ∧
                   (∀ a, a < offset ∨ offset + data.length ≤ a →
                     memGet s'.bay.staged a = memGet s.bay.staged a) ∧
                   (∀ k b, data[k]? = some b → memGet s'.bay.staged (offset + k) = b) ∧
                   s'.bay.lock = some { sid := viaSid h.via, last := max s.tick t } ∧
                   s' = { s.at t with bay := { s.bay with
                     staged := s'.bay.staged, written := s'.bay.written, lock := s'.bay.lock } }))))) ∧
       (Ready h 0x0F07 false s →
         (s.lockedOut h = true →
           exec (.updateAbort t h) s = .next ((s.at t).answer h 0x0F07 .busy noDetail [])) ∧
         (s.lockedOut h = false →
           ∃ s' : State, exec (.updateAbort t h) s = .next (s'.answer h 0x0F07 .ok noDetail []) ∧
             s'.bay.lock = none ∧ s'.bay.staged = [] ∧ s'.bay.finished = false ∧
             s'.bay.stg.state ≠ 7 ∧ s'.bay.dir = s.bay.dir ∧ s' = { s.at t with bay := s'.bay }))) ∧
     (Ready h 0x0F08 true s → ∃ words,
       (s.holdsLock h = false →
         exec (.updateStatus t h) s = .next ((s.at t).answer h 0x0F08 .ok noDetail words)) ∧
       (s.holdsLock h = true → exec (.updateStatus t h) s = .next (({ s.at t with bay := { s.bay with
         lock := some { sid := viaSid h.via, last := max s.tick t } } } : State).answer h 0x0F08 .ok
         noDetail words))) ∧
     (∀ l, s.alive = true → s.bay.lock = some l →
       (l.last + 60000000000 ≤ max s.tick t →
         exec (.updateLockExpiry t) s = .next { s.at t with bay := { s.bay with lock := none } }) ∧
       (max s.tick t < l.last + 60000000000 → exec (.updateLockExpiry t) s = .next (s.at t)))) ∧
  (∀ (t : Nat) (h : CmdHdr) (sigOk : Bool) (s : State), h.part = 0 → Ready h 0x0F03 false s →
     (s.holdsLock h = false →
       exec (.updateFinish t h sigOk) s = .next ((s.at t).answer h 0x0F03 .eState noDetail [])) ∧
     (s.holdsLock h = true →
       (rangesSize s.bay.written ≠ s.bay.stagedLen ∨ s.bay.stagedLen ≠ imgNat s.bay.staged 20 4 ∨
           manifestGood s.bay.staged = false →
         exec (.updateFinish t h sigOk) s = .next ((s.at t).answer h 0x0F03 .eArg noDetail [])) ∧
       (rangesSize s.bay.written = s.bay.stagedLen → s.bay.stagedLen = imgNat s.bay.staged 20 4 →
         manifestGood s.bay.staged = true →
         (shake256 32 (memBytes s.bay.staged 24 64) ≠ s.fuses.rootHash ∨ sigOk = false →
           exec (.updateFinish t h sigOk) s = .next ((s.at t).answer h 0x0F03 .eAuth noDetail [])) ∧
         (shake256 32 (memBytes s.bay.staged 24 64) = s.fuses.rootHash → sigOk = true →
           (imageSvn s.bay.staged < s.fuses.svn →
             exec (.updateFinish t h sigOk) s = .next ((s.at t).answer h 0x0F03 .eState noDetail [])) ∧
           (s.fuses.svn ≤ imageSvn s.bay.staged →
             (sectionsMatch s.bay.staged = false →
               exec (.updateFinish t h sigOk) s =
                 .next ((s.at t).answer h 0x0F03 .eAuth noDetail [])) ∧
             (sectionsMatch s.bay.staged = true →
               s.bay.conflicts (imgNat s.bay.staged 8 8) (manifestDigest s.bay.staged) = [] →
               exec (.updateFinish t h sigOk) s = .next (({ s.at t with bay := { s.bay with
                 finished := true, lock := some { sid := viaSid h.via, last := max s.tick t } } } :
                 State).answer h 0x0F03 .ok noDetail (pack [(64, imgNat s.bay.staged 8 8)]))) ∧
             (sectionsMatch s.bay.staged = true → ∃ ks,
               ks = s.bay.conflicts (imgNat s.bay.staged 8 8) (manifestDigest s.bay.staged) ∧
               (ks = [] ∨ exec (.updateFinish t h sigOk) s = .next (((ks.foldl (fun u k =>
                 u.conflict (imgNat s.bay.staged 8 8) (manifestDigest s.bay.staged) k) (s.at t)).renewLock
                   h).answer h 0x0F03 .eConflict noDetail [])))))))) ∧
  (∀ (t : Nat) (h : CmdHdr) (s : State), h.part = 0 →
     (Ready h 0x0F04 false s →
       (s.holdsLock h = false ∨ s.bay.finished = false ∨ s.bay.dir.trial ≠ 0 →
         exec (.updateActivate t h) s = .next ((s.at t).answer h 0x0F04 .eState noDetail [])) ∧
       (s.holdsLock h = true → s.bay.finished = true → s.bay.dir.trial = 0 →
         exec (.updateActivate t h) s = .next (({ s.at t with bay := { s.bay with
           lock := none
           stg := { digest := manifestDigest s.bay.staged, version := imgNat s.bay.staged 8 8,
                    len := s.bay.stagedLen, bootCount := s.bootCountNow, state := 7,
                    target := 1 - s.bay.dir.active } } } : State).answer
           h 0x0F04 .ok noDetail []))) ∧
     (Ready h 0x0F05 false s →
       (s.bay.dir.trial ≠ s.bay.runSlot + 1 →
         exec (.updateConfirm t h) s = .next ((s.at t).answer h 0x0F05 .eState noDetail [])) ∧
       (s.bay.dir.trial = s.bay.runSlot + 1 → s.bay.runSlot < 2 → ∃ s' : State,
         exec (.updateConfirm t h) s = .next (s'.answer h 0x0F05 .ok noDetail []) ∧
         s'.bay.slotState s.bay.runSlot = 1 ∧ s'.bay.dir.active = s.bay.runSlot ∧
         s'.bay.dir.trial = 0 ∧ s'.bay.dir.tries = 0 ∧ s'.bay.dir.failRun = 0 ∧
         s'.fuses.svn = max s.fuses.svn (imageSvn (s.bay.slotMem s.bay.runSlot)) ∧
         s'.bay.slotState (1 - s.bay.runSlot) =
           (if s.fuses.svn < imageSvn (s.bay.slotMem s.bay.runSlot) ∧
               s.bay.slotState (1 - s.bay.runSlot) ≠ 0 ∧
               imageSvn (s.bay.slotMem (1 - s.bay.runSlot)) < imageSvn (s.bay.slotMem s.bay.runSlot)
             then 3 else s.bay.slotState (1 - s.bay.runSlot)) ∧
         s' = { s.at t with
           fuses := { s.fuses with svn := s'.fuses.svn }
           bay := { s.bay with dir := s'.bay.dir, dirOld := s'.bay.dirOld, dirAt := s'.bay.dirAt
                               trialFrom := none, lock := s'.bay.lock } })) ∧
     (Ready h 0x0F06 false s →
       (s.bay.dir.trial = 0 →
         exec (.updateRollback t h) s = .next ((s.at t).answer h 0x0F06 .eState noDetail [])) ∧
       (∀ k, k < 2 → s.bay.dir.trial = k + 1 → ∃ s' : State,
         exec (.updateRollback t h) s = .next (s'.answer h 0x0F06 .ok noDetail []) ∧
         s'.bay.slotState k = 3 ∧ s'.bay.dir.trial = 0 ∧ s'.bay.dir.active = s.bay.dir.active ∧
         s'.bay.slotState (1 - k) = s.bay.slotState (1 - k) ∧
         s'.bay.dirOld = some s.bay.dir ∧ s'.bay.dirAt = 1 - s.bay.dirAt ∧
         s' = { s.at t with bay := { s.bay with dir := s'.bay.dir, dirOld := s'.bay.dirOld
                                                dirAt := s'.bay.dirAt, lock := s'.bay.lock } }))) ∧
  (∀ (version : Nat) (digest : List Byte) (k : Nat) (s : State), k < 2 →
     (s.conflict version digest k).bay.staged = [] ∧
     (s.conflict version digest k).bay.finished = false ∧
     (s.bay.slotState k = 2 → (s.conflict version digest k).bay.slotState k = 3 ∧
       (s.conflict version digest k).bay.dir.trial = 0) ∧
     (s.bay.slotState k ≠ 2 → (s.conflict version digest k).bay.dir = s.bay.dir) ∧
     (s.conflict version digest k).bay.slotState (1 - k) = s.bay.slotState (1 - k) ∧
     (s.conflict version digest k).bay.dir.active = s.bay.dir.active ∧
     (s.conflict version digest k).fuses = s.fuses) ∧
  (∀ (t : Nat) (h : CmdHdr) (s : State),
     (Ready h 0x1101 true s → ∃ words,
       exec (.bootStatus t h) s = .next ((s.at t).answer h 0x1101 .ok noDetail words)) ∧
     (h.part = 0 → Ready h 0x1102 false s →
       (s.bay.unsaved = [] →
         exec (.settingsSync t h) s = .next ((s.at t).answer h 0x1102 .ok noDetail [])) ∧
       (s.bay.unsaved ≠ [] → exec (.settingsSync t h) s = .next { s.at t with bay := { s.bay with
         syncs := s.bay.syncs ++ [(h, s.bay.unsaved.length)] } })) ∧
     (∀ v rest len, s.isainUp = true → s.bay.unsaved = v :: rest → len ≤ 4194304 →
       storeUsed s.bay.store < 12582912 → s.fab.coordinator = false → s.fab.acksDue = [] → ∃ u : State,
         u = { s.at t with bay := { s.bay with
           unsaved := rest, stSeq := s.bay.stSeq + 1, other := none
           store := s.bay.store ++ [{ seq := s.bay.stSeq + 1
                                      fmt := imageFmt (s.bay.slotMem s.bay.runSlot) v.group
                                      len := len, value := (s.at t).sealVal (s.bay.stSeq + 1) v }]
           syncs := (s.bay.syncs.map fun q => (q.1, q.2 - 1)).filter fun q => q.2 != 0 } } ∧
         ((∀ q ∈ s.bay.syncs, 2 ≤ q.2) → exec (.settingsAppend t len) s = .next u) ∧
         (∀ h', s.bay.syncs = [(h', 1)] →
           exec (.settingsAppend t len) s = .next (u.answer h' 0x1102 .ok noDetail [])))) ∧
  (∀ (b : Bay) (k : Nat × Nat) (r : StRec), (b.store.map (·.seq)).Nodup →
     (b.dir.stateA == 2 || b.dir.stateB == 2) = false → b.trialFrom = none → k ∈ storeKeys b.store →
     usedRecord b.store (imageFmt (b.slotMem b.runSlot) k.1) k.1 k.2 = some r →
     r ∈ b.compact.store ∧
     usedRecord b.compact.store (imageFmt (b.slotMem b.runSlot) k.1) k.1 k.2 = some r ∧
     (∀ x ∈ b.compact.store, x ∈ b.store) ∧ b.compact.half = 1 - b.half ∧
     b.compact.hSeq = b.hSeq + 1 ∧ b.compact.other = some (b.hSeq, b.store)) ∧
  (∀ (seq : Nat) (keys : Tab (BitVec 256)) (s : State),
     s.openVal (s.sealVal seq (.keys keys)) = .keys keys) ∧
  (∀ (t : Nat) (h : CmdHdr) (s : State),
     (∀ start max, Ready h 0x1002 true s → ∃ words,
       exec (.certRead t h start max) s = .next ((s.at t).answer h 0x1002 .ok noDetail words)) ∧
     (∀ nonce repAddr sig, Ready h 0x1001 false s →
       (inDevice repAddr 50080 = false → exec (.attest t h nonce repAddr sig) s =
         .next ((s.at t).answer h 0x1001 .eRange noDetail [])) ∧
       (inDevice repAddr 50080 = true → s.inWindow h.part 1 repAddr 50080 = true → exec (.attest t h nonce repAddr sig) s =
         .next (((s.at t).poke repAddr ((s.at t).report h.part nonce ++ bytesN 49856 sig)).answer
           h 0x1001 .ok noDetail (pack [(32, 50080)]))) ∧
       (inDevice repAddr 50080 = true → s.inWindow h.part 1 repAddr 50080 = false → exec (.attest t h nonce repAddr sig) s =
         .next ((s.at t).answer h 0x1001 .ePriv noDetail []))) ∧
     (h.part = 0 →
       (∀ part kemCt wrapped k, Ready h 0x1003 false s →
         k = s.unwrapKey (viaSid h.via) part kemCt wrapped →
         (s.ouv.kemSeen.contains (kemName kemCt) = true →
           exec (.sessionKeySet t h part kemCt wrapped) s =
             .next ((s.at t).answer h 0x1003 .eAuth noDetail [])) ∧
         (s.ouv.kemSeen.contains (kemName kemCt) = false →
           (1024 ≤ s.ouv.kemSeen.length → exec (.sessionKeySet t h part kemCt wrapped) s =
             .next ((s.at t).answer h 0x1003 .eNospace noDetail [])) ∧
           (s.ouv.kemSeen.length < 1024 → (k = 0 ∨ 64 ≤ part →
             exec (.sessionKeySet t h part kemCt wrapped) s =
               .next ((s.at t).answer h 0x1003 .eArg noDetail []))) ∧
           (s.ouv.kemSeen.length < 1024 → k ≠ 0 → part < 64 → ∃ u : State,
             u = { s.at t with ouv := { s.ouv with
               psk := tset s.ouv.psk part k, kemSeen := s.ouv.kemSeen ++ [kemName kemCt] } } ∧
             exec (.sessionKeySet t h part kemCt wrapped) s =
               .next ((u.keep (.keys u.ouv.psk)).answer h 0x1003 .ok noDetail [])))) ∧
       (∀ part rights, Ready h 0x1004 false s →
         (4 ≤ rights.toNat → exec (.rightsSet t h part rights) s =
           .next (((s.at t).count Ctr.cmdResvRefused h.part).answer h 0x1004 .eArg noDetail [])) ∧
         (part = 0 ∨ 64 ≤ part → rights.toNat < 4 → exec (.rightsSet t h part rights) s =
           .next ((s.at t).answer h 0x1004 .eArg noDetail [])) ∧
         (0 < part → part < 64 → rights.toNat < 4 → ∃ s' : State,
           exec (.rightsSet t h part rights) s = .next (s'.answer h 0x1004 .ok noDetail []) ∧
           s'.part part = { s.part part with rights := rights } ∧
           (∀ k, k ≠ part → s'.part k = s.part k) ∧
           s' = { s.at t with parts := s'.parts, bay := s'.bay })) ∧
       (∀ tokAddr sigOk, Ready h 0x1005 false s →
         (∀ n, n ≠ 29920 → exec (.debugUnlock t h tokAddr n sigOk) s =
           .next ((s.at t).answer h 0x1005 .eArg noDetail [])) ∧
         (inDevice tokAddr 29920 = false → exec (.debugUnlock t h tokAddr 29920 sigOk) s =
           .next ((s.at t).answer h 0x1005 .eRange noDetail [])) ∧
         (inDevice tokAddr 29920 = true → s.mayAccess 0 1 tokAddr 29920 = false → exec (.debugUnlock t h tokAddr 29920 sigOk) s =
           .next ((s.at t).answer h 0x1005 .ePriv noDetail [])) ∧
         (inDevice tokAddr 29920 = true → s.mayAccess 0 1 tokAddr 29920 = true →
           s.mem.readable tokAddr 29920 = true →
           (s.tokenGood (s.bytesAt tokAddr 29920) = false ∨ sigOk = false →
             exec (.debugUnlock t h tokAddr 29920 sigOk) s =
               .next ((s.at t).answer h 0x1005 .eAuth noDetail [])) ∧
           (s.tokenGood (s.bytesAt tokAddr 29920) = true → sigOk = true → ∃ s' : State,
             exec (.debugUnlock t h tokAddr 29920 sigOk) s =
               .next (s'.answer h 0x1005 .ok noDetail []) ∧
             (∀ scope, scope = leNat (((s.bytesAt tokAddr 29920).drop 56).take 2) →
               s'.pkg = { s.pkg with jtagScopes := s.pkg.jtagScopes ||| scope }) ∧
             s'.ouv.helloShut = true ∧ (∀ sid ∈ s'.ouv.sessions.map (·.1), sid = viaSid h.via) ∧
             s'.fuses = s.fuses)))))

/-- R387, R389, R390, R398, R385, R309 to R312, R396: administration and staging complete. Each of these commands,
on operands that meet its conditions, ends in a next state that holds its effect: a shutdown or a quiesce closes the
device's entrances, a release opens them; a global stop stops the islands, and a resume starts them; a partition is
enabled or disabled, and no other changes; a read form, a query and `MODEL_QUERY` change nothing of what they read;
staging, removal and abort change the staging set of their domain alone, and a flip leaves it empty under the next
epoch; a held commit whose time is up waits no more; an epoch that has retired is gone. -/
def Obligations.AdministrationAndStagingComplete : Prop :=
  (∀ (t part : Nat) (h : CmdHdr) (s : State), h.part = 0 →
     (timeoutBad h = false →
       (Ready h 0x0102 false s → ∃ u : State, exec (.deviceShutdown t h) s = .next u ∧ u.closed = true ∧
         u.fuses = s.fuses ∧ u.tick = max s.tick t) ∧
       (Ready h 0x0E08 false s →
         (∃ u : State, exec (.quiesce t h) s = .next u ∧ u.closed = true ∧ u.parts = s.parts) ∧
         (s.obs.quiesced = true → ∃ u : State, exec (.quiesceRelease t h) s = .next u ∧
           u.obs.quiesced = false ∧ u.parts = s.parts))) ∧
     (∀ (c : SetCmd) (recs : List SetRec), resvRec recs = none → Ready h (setOp c) false s →
       (∀ r ∈ recs, readChk c r = none) → (recs.flatMap fun r => (s.at t).readRec c r).length ≤ 1080 →
       ∃ u : State, exec (.settingsReadForm t h c recs) s = .next u ∧ u.parts = s.parts ∧ u.cls = s.cls ∧
         u.ifcs = s.ifcs ∧ u.parser = s.parser ∧ u.comp = s.comp ∧ u.fab = s.fab ∧ u.pkg = s.pkg ∧
         u.wall = s.wall) ∧
     (Ready h 0x0201 false s → 0 < part → part < 64 →
       (∃ u : State, exec (.partitionEnable t h part) s = .next u ∧ (u.part part).enabled = true ∧
         ∀ k, k ≠ part → u.part k = s.part k) ∧
       (s.holdsAnything part = false → ∃ u : State, exec (.partitionDisable t h part) s = .next u ∧
         (u.part part).enabled = false ∧ ∀ k, k ≠ part → u.part k = s.part k)) ∧
     (Ready h 0x0203 false s → ∃ u : State, exec (.partitionQuery t h part) s = .next u ∧
       u.parts = s.parts ∧ u.comp = s.comp) ∧
     (Ready h 0x0E09 true s → s.obs.islandsStopped = false → ∃ u : State,
       exec (.globalStop t h) s = .next u ∧ u.obs.islandsStopped = true ∧ u.obs.ownStop = true) ∧
     (Ready h 0x0E0A true s → s.obs.islandsStopped = true → ∃ u : State,
       exec (.globalResume t h) s = .next u ∧ u.obs.ownStop = false ∧
       u.obs.islandsStopped = s.obs.freezeLow)) ∧
  (∀ (t : Nat) (s : State), s.isainUp = true →
     (s.running = true → s.obs.quiescing ≠ [] → s.quiet = true → ∃ u : State,
       exec (.quiesceDone t) s = .next u ∧ u.obs.quiesced = true ∧ u.obs.quiescing = []) ∧
     (∀ d x w, s.rings.barriers = [] → s.models.domains = [(d, x)] → x.waiting = some w →
       w.due ≤ max s.tick t → ∃ u : State, exec (.commandTimeout t w.h.via w.h.seq) s = .next u ∧
       (u.domain d).waiting = none ∧ (u.domain d).staging = x.staging ∧ (u.domain d).epoch = x.epoch)) ∧
  (∀ (t domain : Nat) (h : CmdHdr) (s : State), domain ≤ 0x40 → s.domainBusy domain = false →
     h.part = 0 ∨ h.part = domainOwner domain →
     (∀ handle addr len bindings m, Ready h 0x0B01 false s → m = s.parseModel handle addr len bindings →
       addr % 64 = 0 → 64 ≤ len → inDevice addr len = true →
       s.mayAccess (domainOwner domain) 1 addr len = true → s.containerGood domain addr len m = true →
       m.packet = true ∨ m.params.maxBudget < s.eg.holdMax →
       (∀ k ∈ m.tables, ∃ y, s.table k = some y ∧ y.owner = domain) → s.fetchesGood m = true →
       s.foreign domain bindings = false → ((s.domain domain).handlesWith handle).length ≤ 256 →
       s.sharesFit m = true → (∀ y ∈ (s.domain domain).staging.models, y.handle ≠ handle) →
       (s.domain domain).staging.removed.contains handle = false →
       ∃ u : State, exec (.modelStage t h domain handle addr len bindings) s = .next u ∧
         m ∈ (u.domain domain).staging.models ∧ (u.domain domain).models = (s.domain domain).models ∧
         ∀ d, d ≠ domain → u.domain d = s.domain d) ∧
     (∀ handle, Ready h 0x0B02 false s → (s.liveModel domain handle).isSome = true →
       ∃ u : State, exec (.modelRemove t h domain handle) s = .next u ∧
         handle ∈ (u.domain domain).staging.removed ∧ (u.domain domain).models = (s.domain domain).models ∧
         ∀ d, d ≠ domain → u.domain d = s.domain d) ∧
     (Ready h 0x0B03 false s → ∃ u : State, exec (.modelAbort t h domain) s = .next u ∧
       (u.domain domain).staging = {} ∧ (u.domain domain).models = (s.domain domain).models ∧
       ∀ d, d ≠ domain → u.domain d = s.domain d) ∧
     (∀ start max, Ready h 0x0B05 true s → ∃ u : State,
       exec (.modelQuery t h domain start max) s = .next u ∧ u.models = s.models) ∧
     (Ready h 0x0B04 false s → (s.domain domain).staging.isEmpty = false →
       s.removedNamed domain = false → s.stagingStale domain = false →
       (s.commitWaits domain = false → ∃ u : State, exec (.modelCommit t h domain) s = .next u ∧
         (u.domain domain).epoch = epochNext (s.domain domain).epoch ∧ (u.domain domain).staging = {} ∧
         (u.domain domain).retiring = some ((s.domain domain).epoch, (s.domain domain).models)) ∧
       (s.commitWaits domain = true → timeoutBad h = false → ∃ u : State,
         exec (.modelCommitWait t h domain) s = .next u ∧
         (u.domain domain).waiting = some { h := h, due := max s.tick t + timeoutOf h } ∧
         (u.domain domain).staging = (s.domain domain).staging))) ∧
  (∀ (t setId addr len : Nat) (fromL2 : Bool) (pats : List Pattern) (h : CmdHdr) (s : State),
     Ready h 0x0605 false s → setId < 256 → inSoftware addr len = true → s.mayAccess h.part 1 addr len = true →
     (∀ x, tget s.parser.sets setId = some x → x.owner = h.part) → s.domainBusy h.part = false →
     s.mem.readable addr len = true → pats.all patternGood = true → (pats.map (·.id)).Nodup →
     (s.patternsWith h.part setId pats.length).2 ≤ 131072 → (s.patternsWith h.part setId pats.length).1 ≤ 65536 →
     ∃ u : State, exec (.patternLoad t h setId addr len fromL2 pats) s = .next u ∧
       (setId, ({ fromL2 := fromL2, pats := pats, since := 0 } : PatternVer)) ∈ (u.domain h.part).staging.patterns) ∧
  (∀ (t domain : Nat) (s : State), s.running = true →
     (∀ w, s.bay.isainUp = true → (s.domain domain).waiting = some w → s.commitWaits domain = false →
       s.removedNamed domain = false → s.stagingStale domain = false →
       (s.domain domain).staging.isEmpty = false → ∃ u : State,
       exec (.modelCommitFlip t domain) s = .next u ∧ (u.domain domain).waiting = none ∧
       (u.domain domain).staging = {} ∧ (u.domain domain).epoch = epochNext (s.domain domain).epoch) ∧
     (∀ e ms, (s.domain domain).retiring = some (e, ms) → s.epochHeld domain e = false → ∃ u : State,
       exec (.epochRetire t domain) s = .next u ∧ (u.domain domain).retiring = none ∧
       (u.domain domain).models = (s.domain domain).models))

/-- R323: each word of a region has one place: a channel, a row, and a word of 384 in the row's data area, whose check
byte is its own; a block of 512 bytes stays in one row, and the check bytes of 64 words share a column of 64.
R324, R325: a word read as it was written is clean, or poisoned; one flipped bit of a clean word, data or check bit,
is corrected; any two flipped data bits, a flipped data bit beside a flipped check bit, two flipped check bits, and a
flipped poison bit of either kind of word are uncorrectable, whichever columns the code has (log entry 108). -/
def Obligations.WordsAndCheckBytes : Prop :=
  (∀ o o' : Nat,
     (placeOf o).channel < 4 ∧ (placeOf o).word < 384 ∧ (placeOf o).checkAt = 1536 + (placeOf o).word ∧
     (placeOf o).checkAt / 64 = 24 + (placeOf o).word / 64 ∧
     (placeOf o = placeOf o' ↔ o / 4 = o' / 4) ∧
     (o / 512 = o' / 512 → (placeOf o).channel = (placeOf o').channel ∧ (placeOf o).row = (placeOf o').row)) ∧
  dataCols.length = 32 ∧ dataCols.Nodup ∧
  (∀ (d : W32) (p : Bool),
     readChecked d (checkByte d false) = (.clean, d) ∧ readChecked d (checkByte d true) = (.poisoned, d) ∧
     (∀ i, i < 32 → readChecked (d ^^^ (1 <<< i)) (checkByte d false) = (.corrected, d)) ∧
     (∀ i, i < 7 → readChecked d (checkByte d false ^^^ (1 <<< i)) = (.corrected, d)) ∧
     readChecked d (checkByte d p ^^^ 0x80) = (.uncorrectable, d) ∧
     (∀ i j, i < j → j < 32 →
       (readChecked (d ^^^ (1 <<< i) ^^^ (1 <<< j)) (checkByte d false)).1 = .uncorrectable) ∧
     (∀ i j, i < 32 → j < 7 →
       (readChecked (d ^^^ (1 <<< i)) (checkByte d false ^^^ (1 <<< j))).1 = .uncorrectable) ∧
     (∀ i j, i < j → j < 7 →
       (readChecked d (checkByte d false ^^^ (1 <<< i) ^^^ (1 <<< j))).1 = .uncorrectable))

end
end

