-- ==== Sys2Proof/Laws/Base.lean ====
section
/-! SUPPORT. The shared operations keep a good state: device memory's canonical form, the counters' bound,
Rosemary's numbering; and the steps of control that every meaning is built from. -/

namespace Sys2Proof.Machine

variable {q : List Instr} {f : Fuses} {s : State}

/-! ### Byte memories -/

/-- A memory in canonical form from a bound is so from a lower one. -/
theorem memWfFrom_mono {lo lo' : Nat} (hl : lo' ≤ lo) : ∀ {m : Mem}, memWfFrom lo m = true →
    memWfFrom lo' m = true
  | [], _ => rfl
  | (a, b) :: r, h => by
    simp only [memWfFrom, Bool.and_eq_true, decide_eq_true_eq] at h ⊢
    exact ⟨⟨le_trans hl h.1.1, h.1.2⟩, h.2⟩

/-- Writing a byte keeps the canonical form. -/
theorem memSet_wf : ∀ {m : Mem} {lo a : Nat} (b : Byte), memWfFrom lo m = true → lo ≤ a →
    memWfFrom lo (memSet m a b) = true
  | [], lo, a, b, _, ha => by
    unfold memSet
    split
    · rfl
    · simp_all [memWfFrom]
  | (a', b') :: r, lo, a, b, h, ha => by
    have h' := h
    simp only [memWfFrom, Bool.and_eq_true, decide_eq_true_eq] at h'
    unfold memSet
    split
    · split
      · exact h
      · rename_i hlt hb
        simp only [memWfFrom, Bool.and_eq_true, decide_eq_true_eq]
        exact ⟨⟨ha, by simpa using hb⟩, ⟨⟨hlt, h'.1.2⟩, h'.2⟩⟩
    · split
      · rename_i heq
        split
        · exact memWfFrom_mono (by omega) h'.2
        · rename_i hb
          simp only [memWfFrom, Bool.and_eq_true, decide_eq_true_eq]
          exact ⟨⟨ha, by simpa using hb⟩, by rw [heq]; exact h'.2⟩
      · rename_i h1 h2
        simp only [memWfFrom, Bool.and_eq_true, decide_eq_true_eq]
        exact ⟨h'.1, memSet_wf b h'.2 (by omega)⟩

/-- Writing bytes keeps the canonical form. -/
theorem memPut_wf {lo : Nat} : ∀ (bs : List Byte) {m : Mem} {a : Nat}, memWfFrom lo m = true → lo ≤ a →
    memWfFrom lo (memPut m a bs) = true
  | [], _, _, h, _ => h
  | b :: r, _, _, h, ha => memPut_wf r (memSet_wf b h ha) (by omega)

/-- Dropping bytes keeps the canonical form. -/
theorem memFilter_wf (p : Host.Cell → Bool) : ∀ {m : Mem} {lo : Nat}, memWfFrom lo m = true →
    memWfFrom lo (m.filter p) = true
  | [], _, _ => rfl
  | (a, b) :: r, lo, h => by
    simp only [memWfFrom, Bool.and_eq_true, decide_eq_true_eq] at h
    rw [List.filter_cons]
    split
    · simp only [memWfFrom, Bool.and_eq_true, decide_eq_true_eq]
      exact ⟨h.1, memFilter_wf p h.2⟩
    · exact memFilter_wf p (memWfFrom_mono (by omega) h.2)

/-- Below its bound a canonical memory reads 0. -/
theorem memGet_low : ∀ {m : Mem} {k y : Nat}, memWfFrom k m = true → y < k → memGet m y = 0
  | [], _, _, _, _ => rfl
  | (c, d) :: r, k, y, hm, hy => by
    simp only [memWfFrom, Bool.and_eq_true, decide_eq_true_eq] at hm
    have h1 : c ≠ y := by omega
    have h2 : y < c := by omega
    simp [memGet, h1, h2]

/-- A byte of a memory after a byte was written. -/
theorem memGet_memSet : ∀ {m : Mem} {lo : Nat} (a : Nat) (b : Byte) (x : Nat), memWfFrom lo m = true →
    memGet (memSet m a b) x = if x = a then b else memGet m x
  | [], lo, a, b, x, _ => by
    unfold memSet
    by_cases hb : b = 0#8 <;> by_cases hx : x = a
    · simp [hb, memGet]
    · simp [hb, memGet]
    · simp [hb, hx, memGet]
    · have : a ≠ x := fun e => hx e.symm
      simp [hb, hx, this, memGet]
  | (a', b') :: r, lo, a, b, x, h => by
    have h' := h
    simp only [memWfFrom, Bool.and_eq_true, decide_eq_true_eq] at h'
    have tail := memGet_memSet a b x h'.2
    by_cases hx : x = a
    · subst hx
      rw [if_pos rfl]
      rcases Nat.lt_trichotomy x a' with h1 | h1 | h1
      · have e1 : a' ≠ x := by omega
        by_cases hb : b = 0#8
        · simp [memSet, h1, hb, memGet, e1]
        · simp [memSet, h1, hb, memGet]
      · subst h1
        by_cases hb : b = 0#8
        · have := memGet_low h'.2 (Nat.lt_succ_self x)
          simp [memSet, hb, this]
        · simp [memSet, hb, memGet]
      · have e1 : a' ≠ x := by omega
        have e2 : ¬ x < a' := by omega
        have e3 : x ≠ a' := by omega
        rw [if_pos rfl] at tail
        simp [memSet, e1, e2, e3, memGet, tail]
    · rw [if_neg hx]
      rw [if_neg hx] at tail
      have e0 : a ≠ x := fun e => hx e.symm
      rcases Nat.lt_trichotomy a a' with h1 | h1 | h1
      · by_cases hb : b = 0#8
        · simp [memSet, h1, hb]
        · by_cases h2 : x < a
          · have e1 : a' ≠ x := by omega
            have e2 : x < a' := by omega
            simp [memSet, h1, hb, memGet, e0, h2, e1, e2]
          · simp [memSet, h1, hb, memGet, e0, h2]
      · subst h1
        by_cases hb : b = 0#8
        · by_cases h2 : x < a
          · have := memGet_low h'.2 (Nat.lt_succ_of_lt h2)
            simp [memSet, hb, memGet, e0, h2, this]
          · simp [memSet, hb, memGet, e0, h2]
        · simp [memSet, hb, memGet, e0]
      · have e2 : ¬ a < a' := by omega
        have e3 : a ≠ a' := by omega
        simp [memSet, e2, e3, memGet, tail]

/-- A byte of a memory after bytes were written. -/
theorem memGet_memPut {lo : Nat} : ∀ (bs : List Byte) {m : Mem} {a x : Nat}, memWfFrom lo m = true →
    lo ≤ a → memGet (memPut m a bs) x =
      if h : a ≤ x ∧ x < a + bs.length then bs[x - a]'(by omega) else memGet m x
  | [], m, a, x, _, _ => by
    have : ¬(a ≤ x ∧ x < a + ([] : List Byte).length) := by simp
    rw [dif_neg this]; rfl
  | b :: r, m, a, x, h, ha => by
    rw [memPut, memGet_memPut r (memSet_wf b h ha) (by omega), memGet_memSet a b x h]
    by_cases h1 : a + 1 ≤ x ∧ x < a + 1 + r.length
    · have h2 : a ≤ x ∧ x < a + (b :: r).length := by simp; omega
      rw [dif_pos h1, dif_pos h2]
      have : x - a = (x - (a + 1)) + 1 := by omega
      simp [this]
    · rw [dif_neg h1]
      by_cases hx : x = a
      · subst hx
        simp
      · rw [if_neg hx, dif_neg]
        simp; omega

/-! ### Counters and Rosemary -/

/-- A counter set to a value that fits keeps every counter's bound. -/
theorem aset_fits {l : List ((Nat × Nat) × Nat)} {k : Nat × Nat} {v n : Nat} (hv : v ≤ n)
    (h : ∀ e ∈ l, e.2 ≤ n) : ∀ e ∈ aset l k v, e.2 ≤ n := by
  induction l with
  | nil => simp [aset, hv]
  | cons x r ih =>
    obtain ⟨k', v'⟩ := x
    simp only [List.mem_cons, forall_eq_or_imp] at h
    unfold aset
    split
    · simp only [List.mem_cons, forall_eq_or_imp]
      exact ⟨hv, h.2⟩
    · simp only [List.mem_cons, forall_eq_or_imp]
      exact ⟨h.1, ih h.2⟩

/-- What is left of Rosemary's records after one is passed over is a part of them. -/
theorem rmEvict_sublist : ∀ {l rest : List RmRec}, rmEvict l = some rest →
    rest.Sublist l ∧ rest.length < l.length
  | [], _, h => by simp [rmEvict] at h
  | r :: l, rest, h => by
    unfold rmEvict at h
    split at h
    · rw [Option.map_eq_some_iff] at h
      obtain ⟨x, hx, rfl⟩ := h
      have := rmEvict_sublist hx
      exact ⟨this.1.cons_cons r, by simpa using this.2⟩
    · cases h
      exact ⟨List.sublist_cons_self r _, by simp⟩

/-- Part of Rosemary's records, in their order, is as good as all. -/
theorem rosemary_sublist {o o' : Observe} (h : o.rosemaryGood) (hs : (o'.rm.map (·.seq)).Sublist (o.rm.map (·.seq)))
    (hn : o.rmSeq ≤ o'.rmSeq) : o'.rosemaryGood := by
  refine ⟨?_, h.2.1.sublist hs, ?_⟩
  · have := hs.length_le
    simp only [List.length_map] at this
    exact le_trans this h.1
  · intro r hr
    have : r.seq ∈ o.rm.map (·.seq) := hs.subset (List.mem_map_of_mem (f := (·.seq)) hr)
    obtain ⟨x, hx, he⟩ := List.mem_map.1 this
    have := h.2.2 x hx
    omega

/-- A record added behind the others is numbered above them. -/
theorem rosemary_add {o : Observe} {l : List RmRec} {r : RmRec} (h : o.rosemaryGood) (hl : l.Sublist o.rm)
    (hlen : l.length < rmCapacity) (hr : r.seq = o.rmSeq) (o' : Observe) (ho : o'.rm = l ++ [r])
    (hs : o'.rmSeq = o.rmSeq + 1) : o'.rosemaryGood := by
  refine ⟨?_, ?_, ?_⟩
  · rw [ho]; simp; omega
  · rw [ho, List.map_append, List.pairwise_append]
    refine ⟨h.2.1.sublist (hl.map _), by simp, ?_⟩
    intro a ha b hb
    simp only [List.map_cons, List.map_nil, List.mem_singleton] at hb
    obtain ⟨x, hx, rfl⟩ := List.mem_map.1 ha
    have := h.2.2 x (hl.subset hx)
    omega
  · intro x hx
    rw [ho] at hx
    rw [hs]
    rcases List.mem_append.1 hx with h1 | h1
    · have := h.2.2 x (hl.subset h1); omega
    · simp only [List.mem_singleton] at h1; rw [h1]; omega

/-- Storing a record keeps Rosemary good, and touches no counter. -/
theorem store_good (o : Observe) (r : RmRec) (h : o.rosemaryGood) (hc : o.countersFit) :
    (o.store r).1.rosemaryGood ∧ (o.store r).1.countersFit := by
  unfold Observe.store
  extract_lets r' o'
  have hseq : r'.seq = o.rmSeq := rfl
  split
  · rename_i hl
    exact ⟨rosemary_add h (List.Sublist.refl _) hl hseq _ rfl rfl, hc⟩
  · split
    · exact ⟨rosemary_sublist h (List.Sublist.refl _) (Nat.le_succ _), hc⟩
    · split
      · rename_i rest he
        have hb := rmEvict_sublist he
        refine ⟨rosemary_add h hb.1 ?_ hseq _ rfl rfl, hc⟩
        have := h.1
        have h2 := hb.2
        have e : o'.rm = o.rm := rfl
        rw [e] at h2
        omega
      · exact ⟨rosemary_sublist h (List.Sublist.refl _) (Nat.le_succ _), hc⟩

/-! ### The pieces of a state -/

theorem updPkg_sound {g : Package → Package} (h : Sound q f s) : Sound q f (s.updPkg g) :=
  ⟨h.1, h.2, h.3.1, h.3.2, h.3.3⟩
theorem updIfcs_sound {g : Tab Ifc → Tab Ifc} (h : Sound q f s) : Sound q f (s.updIfcs g) :=
  ⟨h.1, h.2, h.3.1, h.3.2, h.3.3⟩
theorem updPorts_sound {g : Tab Port → Tab Port} (h : Sound q f s) : Sound q f (s.updPorts g) :=
  ⟨h.1, h.2, h.3.1, h.3.2, h.3.3⟩
theorem updWall_sound {g : WallClock → WallClock} (h : Sound q f s) : Sound q f (s.updWall g) :=
  ⟨h.1, h.2, h.3.1, h.3.2, h.3.3⟩
theorem updOuv_sound {g : Ouvlen → Ouvlen} (h : Sound q f s) : Sound q f (s.updOuv g) :=
  ⟨h.1, h.2, h.3.1, h.3.2, h.3.3⟩
theorem updRings_sound {g : Rings → Rings} (h : Sound q f s) : Sound q f (s.updRings g) :=
  ⟨h.1, h.2, h.3.1, h.3.2, h.3.3⟩
theorem updParts_sound {g : Tab Partition → Tab Partition} (h : Sound q f s) :
    Sound q f (s.updParts g) := ⟨h.1, h.2, h.3.1, h.3.2, h.3.3⟩
theorem updParser_sound {g : Parser → Parser} (h : Sound q f s) : Sound q f (s.updParser g) :=
  ⟨h.1, h.2, h.3.1, h.3.2, h.3.3⟩
theorem updCls_sound {g : Classifier → Classifier} (h : Sound q f s) : Sound q f (s.updCls g) :=
  ⟨h.1, h.2, h.3.1, h.3.2, h.3.3⟩
theorem updEg_sound {g : Egress → Egress} (h : Sound q f s) : Sound q f (s.updEg g) :=
  ⟨h.1, h.2, h.3.1, h.3.2, h.3.3⟩
theorem updComp_sound {g : Compute → Compute} (h : Sound q f s) : Sound q f (s.updComp g) :=
  ⟨h.1, h.2, h.3.1, h.3.2, h.3.3⟩
theorem updModels_sound {g : Models → Models} (h : Sound q f s) : Sound q f (s.updModels g) :=
  ⟨h.1, h.2, h.3.1, h.3.2, h.3.3⟩
theorem updBases_sound {g : Tab BaseState → Tab BaseState} (h : Sound q f s) :
    Sound q f (s.updBases g) := ⟨h.1, h.2, h.3.1, h.3.2, h.3.3⟩
theorem updFab_sound {g : Fabric → Fabric} (h : Sound q f s) : Sound q f (s.updFab g) :=
  ⟨h.1, h.2, h.3.1, h.3.2, h.3.3⟩
theorem updBay_sound {g : Bay → Bay} (h : Sound q f s) : Sound q f (s.updBay g) :=
  ⟨h.1, h.2, h.3.1, h.3.2, h.3.3⟩

/-- A change of the memory's keepers that leaves every byte as it is. -/
theorem updMem_sound {g : Memory → Memory} (h : Sound q f s) (hb : (g s.mem).bytes = s.mem.bytes) :
    Sound q f (s.updMem g) :=
  ⟨h.1, h.2, by have := h.3.1; unfold Memory.wf at this ⊢; exact hb ▸ this, h.3.2, h.3.3⟩

/-- A change of memory that keeps its canonical form. -/
theorem updMem_wf {g : Memory → Memory} (h : Sound q f s) (hb : (g s.mem).wf = true) :
    Sound q f (s.updMem g) := ⟨h.1, h.2, hb, h.3.2, h.3.3⟩

/-- A change of the observability state that touches neither counters nor records. -/
theorem updObs_sound {g : Observe → Observe} (h : Sound q f s) (hc : (g s.obs).counters = s.obs.counters)
    (hr : (g s.obs).rm = s.obs.rm) (hn : (g s.obs).rmSeq = s.obs.rmSeq) : Sound q f (s.updObs g) := by
  refine ⟨h.1, h.2, h.3.1, ?_, ?_⟩
  · have := h.3.2; unfold Observe.countersFit at this ⊢; exact hc ▸ this
  · have := h.3.3; unfold Observe.rosemaryGood at this ⊢
    show (g s.obs).rm.length ≤ _ ∧ ((g s.obs).rm.map _).Pairwise _ ∧ ∀ r ∈ (g s.obs).rm, r.seq < (g s.obs).rmSeq
    rw [hr, hn]; exact this

/-- A change of the observability state that keeps its bounds. -/
theorem updObs_good {g : Observe → Observe} (h : Sound q f s) (hc : (g s.obs).countersFit)
    (hr : (g s.obs).rosemaryGood) : Sound q f (s.updObs g) := ⟨h.1, h.2, h.3.1, hc, hr⟩

/-! ### Steps of control -/

theorem sound_ite {c : Prop} [Decidable c] {a b : State} (h1 : c → Sound q f a) (h2 : ¬c → Sound q f b) :
    Sound q f (if c then a else b) := by
  split
  · exact h1 ‹_›
  · exact h2 ‹_›

theorem sound_foldl {α : Type} {l : List α} {g : State → α → State} (h : Sound q f s)
    (hg : ∀ s x, Sound q f s → Sound q f (g s x)) : Sound q f (l.foldl g s) := by
  induction l generalizing s with
  | nil => exact h
  | cons x r ih => exact ih (hg s x h)

theorem sound_foldl_fst {α β : Type} {l : List α} {g : State × β → α → State × β} {p : State × β}
    (h : Sound q f p.1) (hg : ∀ p x, Sound q f p.1 → Sound q f (g p x).1) : Sound q f (l.foldl g p).1 := by
  induction l generalizing p with
  | nil => exact h
  | cons x r ih => exact ih (hg p x h)

theorem sound_getD {o : Option State} (ho : ∀ x, o = some x → Sound q f x) (h : Sound q f s) :
    Sound q f (o.getD s) := by
  cases o with
  | none => exact h
  | some x => exact ho x rfl

/-- What an outcome answers is sound. -/
def SoundOut (q : List Instr) (f : Fuses) (o : Host.Outcome State Fault Refusal) : Prop :=
  ∀ s', o = .next s' → Sound q f s'

theorem soundOut_next (h : Sound q f s) : SoundOut q f (.next s) := by
  intro s' e; cases e; exact h

/-- A plain field outside memory, observability, fuses and the queue. -/
theorem sound_same {s' : State} (h : Sound q f s) (h1 : s'.pending = s.pending) (h2 : s'.fuses = s.fuses)
    (h3 : s'.mem = s.mem) (h4 : s'.obs = s.obs) : Sound q f s' :=
  ⟨h1.trans h.1, h2.trans h.2, h3 ▸ h.3.1, h4 ▸ h.3.2, h4 ▸ h.3.3⟩

/-- A state whose queue, fuses, memory and observability are another's. -/
theorem sound_mk {e : State} {a1 : Nat} {a2 : Tab (Nat × Nat)} {a3 : Package} {a4 : Tab Ifc} {a5 : Tab Port}
    {a6 : WallClock} {a7 : Ouvlen} {a8 : Rings} {a9 : Tab Partition} {b1 : Parser} {b2 : Classifier}
    {b3 : Egress} {b4 : Compute} {b5 : Models} {b6 : Tab BaseState} {b7 : Fabric} {b8 : Bay} {b9 : Nat}
    {c1 : List Sent} (h : Sound q f e) :
    Sound q f ⟨e.pending, a1, a2, a3, a4, a5, a6, a7, a8, a9, b1, b2, b3, b4, b5, b6, e.mem, b7, b8, e.fuses,
      e.obs, b9, c1⟩ := ⟨h.1, h.2, h.3.1, h.3.2, h.3.3⟩

/-! ### What a command or a frame comes to -/

/-- Every state a command's reply holds is sound. -/
def ReplySound (q : List Instr) (f : Fuses) : Reply → Prop
  | .refuse _ _ => True
  | .done _ _ s => Sound q f s
  | .wait s => Sound q f s

theorem reply_refuse {st : Status} {d : Nat} : ReplySound q f (.refuse st d) := trivial
theorem reply_no {st : Status} : ReplySound q f (no st) := trivial
theorem reply_done {st : Status} {b : List Nat} (h : Sound q f s) : ReplySound q f (.done st b s) := h
theorem reply_ok (h : Sound q f s) : ReplySound q f (okReply s) := h
theorem reply_wait (h : Sound q f s) : ReplySound q f (.wait s) := h
theorem of_reply_done {r : Reply} {st : Status} {b : List Nat} (e : r = .done st b s)
    (h : ReplySound q f r) : Sound q f s := by rw [e] at h; exact h
theorem of_reply_wait {r : Reply} (e : r = .wait s) (h : ReplySound q f r) : Sound q f s := by
  rw [e] at h; exact h
theorem of_reply {r r' : Reply} (e : r = r') (h : ReplySound q f r) : ReplySound q f r' := e ▸ h

/-- Every state a frame's outcome holds is sound. -/
def FrameSound (q : List Instr) (f : Fuses) : FrameOut → Prop
  | .done s => Sound q f s
  | .refuse _ => True
  | .silent s => Sound q f s

theorem frame_done (h : Sound q f s) : FrameSound q f (.done s) := h
theorem frame_refuse {st : Status} : FrameSound q f (.refuse st) := trivial
theorem frame_silent (h : Sound q f s) : FrameSound q f (.silent s) := h
theorem of_frame {r r' : FrameOut} (e : r = r') (h : FrameSound q f r) : FrameSound q f r' := e ▸ h

/-- The state a received fabric frame leaves is sound. -/
def FabSound (q : List Instr) (f : Fuses) : FabIn → Prop
  | .drop s => Sound q f s
  | .fresh s => Sound q f s
  | .again s => Sound q f s

theorem fab_drop (h : Sound q f s) : FabSound q f (.drop s) := h
theorem fab_fresh (h : Sound q f s) : FabSound q f (.fresh s) := h
theorem fab_again (h : Sound q f s) : FabSound q f (.again s) := h

theorem of_snd {α : Type} {p : α × State} {a : α} (e : p = (a, s)) (h : Sound q f p.2) : Sound q f s := by
  rw [e] at h; exact h
theorem of_fst {α : Type} {p : State × α} {a : α} (e : p = (s, a)) (h : Sound q f p.1) : Sound q f s := by
  rw [e] at h; exact h

end Sys2Proof.Machine
end

