-- ==== Sys2Proof/Laws/State.lean ====
section
/-! SUPPORT. What each change of a piece of the state leaves in every field. -/

namespace Sys2Proof.Machine

section
variable (g : Package → Package) (s : State)
@[simp] theorem State.updPkg_pending : (s.updPkg g).pending = s.pending := rfl
@[simp] theorem State.updPkg_tick : (s.updPkg g).tick = s.tick := rfl
@[simp] theorem State.updPkg_islandTick : (s.updPkg g).islandTick = s.islandTick := rfl
@[simp] theorem State.updPkg_pkg : (s.updPkg g).pkg = g s.pkg := rfl
@[simp] theorem State.updPkg_ifcs : (s.updPkg g).ifcs = s.ifcs := rfl
@[simp] theorem State.updPkg_ports : (s.updPkg g).ports = s.ports := rfl
@[simp] theorem State.updPkg_wall : (s.updPkg g).wall = s.wall := rfl
@[simp] theorem State.updPkg_ouv : (s.updPkg g).ouv = s.ouv := rfl
@[simp] theorem State.updPkg_rings : (s.updPkg g).rings = s.rings := rfl
@[simp] theorem State.updPkg_parts : (s.updPkg g).parts = s.parts := rfl
@[simp] theorem State.updPkg_parser : (s.updPkg g).parser = s.parser := rfl
@[simp] theorem State.updPkg_cls : (s.updPkg g).cls = s.cls := rfl
@[simp] theorem State.updPkg_eg : (s.updPkg g).eg = s.eg := rfl
@[simp] theorem State.updPkg_comp : (s.updPkg g).comp = s.comp := rfl
@[simp] theorem State.updPkg_models : (s.updPkg g).models = s.models := rfl
@[simp] theorem State.updPkg_bases : (s.updPkg g).bases = s.bases := rfl
@[simp] theorem State.updPkg_mem : (s.updPkg g).mem = s.mem := rfl
@[simp] theorem State.updPkg_fab : (s.updPkg g).fab = s.fab := rfl
@[simp] theorem State.updPkg_bay : (s.updPkg g).bay = s.bay := rfl
@[simp] theorem State.updPkg_fuses : (s.updPkg g).fuses = s.fuses := rfl
@[simp] theorem State.updPkg_obs : (s.updPkg g).obs = s.obs := rfl
@[simp] theorem State.updPkg_freeCount : (s.updPkg g).freeCount = s.freeCount := rfl
@[simp] theorem State.updPkg_sent : (s.updPkg g).sent = s.sent := rfl
end

section
variable (g : Tab Ifc → Tab Ifc) (s : State)
@[simp] theorem State.updIfcs_pending : (s.updIfcs g).pending = s.pending := rfl
@[simp] theorem State.updIfcs_tick : (s.updIfcs g).tick = s.tick := rfl
@[simp] theorem State.updIfcs_islandTick : (s.updIfcs g).islandTick = s.islandTick := rfl
@[simp] theorem State.updIfcs_pkg : (s.updIfcs g).pkg = s.pkg := rfl
@[simp] theorem State.updIfcs_ifcs : (s.updIfcs g).ifcs = g s.ifcs := rfl
@[simp] theorem State.updIfcs_ports : (s.updIfcs g).ports = s.ports := rfl
@[simp] theorem State.updIfcs_wall : (s.updIfcs g).wall = s.wall := rfl
@[simp] theorem State.updIfcs_ouv : (s.updIfcs g).ouv = s.ouv := rfl
@[simp] theorem State.updIfcs_rings : (s.updIfcs g).rings = s.rings := rfl
@[simp] theorem State.updIfcs_parts : (s.updIfcs g).parts = s.parts := rfl
@[simp] theorem State.updIfcs_parser : (s.updIfcs g).parser = s.parser := rfl
@[simp] theorem State.updIfcs_cls : (s.updIfcs g).cls = s.cls := rfl
@[simp] theorem State.updIfcs_eg : (s.updIfcs g).eg = s.eg := rfl
@[simp] theorem State.updIfcs_comp : (s.updIfcs g).comp = s.comp := rfl
@[simp] theorem State.updIfcs_models : (s.updIfcs g).models = s.models := rfl
@[simp] theorem State.updIfcs_bases : (s.updIfcs g).bases = s.bases := rfl
@[simp] theorem State.updIfcs_mem : (s.updIfcs g).mem = s.mem := rfl
@[simp] theorem State.updIfcs_fab : (s.updIfcs g).fab = s.fab := rfl
@[simp] theorem State.updIfcs_bay : (s.updIfcs g).bay = s.bay := rfl
@[simp] theorem State.updIfcs_fuses : (s.updIfcs g).fuses = s.fuses := rfl
@[simp] theorem State.updIfcs_obs : (s.updIfcs g).obs = s.obs := rfl
@[simp] theorem State.updIfcs_freeCount : (s.updIfcs g).freeCount = s.freeCount := rfl
@[simp] theorem State.updIfcs_sent : (s.updIfcs g).sent = s.sent := rfl
end

section
variable (g : Tab Port → Tab Port) (s : State)
@[simp] theorem State.updPorts_pending : (s.updPorts g).pending = s.pending := rfl
@[simp] theorem State.updPorts_tick : (s.updPorts g).tick = s.tick := rfl
@[simp] theorem State.updPorts_islandTick : (s.updPorts g).islandTick = s.islandTick := rfl
@[simp] theorem State.updPorts_pkg : (s.updPorts g).pkg = s.pkg := rfl
@[simp] theorem State.updPorts_ifcs : (s.updPorts g).ifcs = s.ifcs := rfl
@[simp] theorem State.updPorts_ports : (s.updPorts g).ports = g s.ports := rfl
@[simp] theorem State.updPorts_wall : (s.updPorts g).wall = s.wall := rfl
@[simp] theorem State.updPorts_ouv : (s.updPorts g).ouv = s.ouv := rfl
@[simp] theorem State.updPorts_rings : (s.updPorts g).rings = s.rings := rfl
@[simp] theorem State.updPorts_parts : (s.updPorts g).parts = s.parts := rfl
@[simp] theorem State.updPorts_parser : (s.updPorts g).parser = s.parser := rfl
@[simp] theorem State.updPorts_cls : (s.updPorts g).cls = s.cls := rfl
@[simp] theorem State.updPorts_eg : (s.updPorts g).eg = s.eg := rfl
@[simp] theorem State.updPorts_comp : (s.updPorts g).comp = s.comp := rfl
@[simp] theorem State.updPorts_models : (s.updPorts g).models = s.models := rfl
@[simp] theorem State.updPorts_bases : (s.updPorts g).bases = s.bases := rfl
@[simp] theorem State.updPorts_mem : (s.updPorts g).mem = s.mem := rfl
@[simp] theorem State.updPorts_fab : (s.updPorts g).fab = s.fab := rfl
@[simp] theorem State.updPorts_bay : (s.updPorts g).bay = s.bay := rfl
@[simp] theorem State.updPorts_fuses : (s.updPorts g).fuses = s.fuses := rfl
@[simp] theorem State.updPorts_obs : (s.updPorts g).obs = s.obs := rfl
@[simp] theorem State.updPorts_freeCount : (s.updPorts g).freeCount = s.freeCount := rfl
@[simp] theorem State.updPorts_sent : (s.updPorts g).sent = s.sent := rfl
end

section
variable (g : WallClock → WallClock) (s : State)
@[simp] theorem State.updWall_pending : (s.updWall g).pending = s.pending := rfl
@[simp] theorem State.updWall_tick : (s.updWall g).tick = s.tick := rfl
@[simp] theorem State.updWall_islandTick : (s.updWall g).islandTick = s.islandTick := rfl
@[simp] theorem State.updWall_pkg : (s.updWall g).pkg = s.pkg := rfl
@[simp] theorem State.updWall_ifcs : (s.updWall g).ifcs = s.ifcs := rfl
@[simp] theorem State.updWall_ports : (s.updWall g).ports = s.ports := rfl
@[simp] theorem State.updWall_wall : (s.updWall g).wall = g s.wall := rfl
@[simp] theorem State.updWall_ouv : (s.updWall g).ouv = s.ouv := rfl
@[simp] theorem State.updWall_rings : (s.updWall g).rings = s.rings := rfl
@[simp] theorem State.updWall_parts : (s.updWall g).parts = s.parts := rfl
@[simp] theorem State.updWall_parser : (s.updWall g).parser = s.parser := rfl
@[simp] theorem State.updWall_cls : (s.updWall g).cls = s.cls := rfl
@[simp] theorem State.updWall_eg : (s.updWall g).eg = s.eg := rfl
@[simp] theorem State.updWall_comp : (s.updWall g).comp = s.comp := rfl
@[simp] theorem State.updWall_models : (s.updWall g).models = s.models := rfl
@[simp] theorem State.updWall_bases : (s.updWall g).bases = s.bases := rfl
@[simp] theorem State.updWall_mem : (s.updWall g).mem = s.mem := rfl
@[simp] theorem State.updWall_fab : (s.updWall g).fab = s.fab := rfl
@[simp] theorem State.updWall_bay : (s.updWall g).bay = s.bay := rfl
@[simp] theorem State.updWall_fuses : (s.updWall g).fuses = s.fuses := rfl
@[simp] theorem State.updWall_obs : (s.updWall g).obs = s.obs := rfl
@[simp] theorem State.updWall_freeCount : (s.updWall g).freeCount = s.freeCount := rfl
@[simp] theorem State.updWall_sent : (s.updWall g).sent = s.sent := rfl
end

section
variable (g : Ouvlen → Ouvlen) (s : State)
@[simp] theorem State.updOuv_pending : (s.updOuv g).pending = s.pending := rfl
@[simp] theorem State.updOuv_tick : (s.updOuv g).tick = s.tick := rfl
@[simp] theorem State.updOuv_islandTick : (s.updOuv g).islandTick = s.islandTick := rfl
@[simp] theorem State.updOuv_pkg : (s.updOuv g).pkg = s.pkg := rfl
@[simp] theorem State.updOuv_ifcs : (s.updOuv g).ifcs = s.ifcs := rfl
@[simp] theorem State.updOuv_ports : (s.updOuv g).ports = s.ports := rfl
@[simp] theorem State.updOuv_wall : (s.updOuv g).wall = s.wall := rfl
@[simp] theorem State.updOuv_ouv : (s.updOuv g).ouv = g s.ouv := rfl
@[simp] theorem State.updOuv_rings : (s.updOuv g).rings = s.rings := rfl
@[simp] theorem State.updOuv_parts : (s.updOuv g).parts = s.parts := rfl
@[simp] theorem State.updOuv_parser : (s.updOuv g).parser = s.parser := rfl
@[simp] theorem State.updOuv_cls : (s.updOuv g).cls = s.cls := rfl
@[simp] theorem State.updOuv_eg : (s.updOuv g).eg = s.eg := rfl
@[simp] theorem State.updOuv_comp : (s.updOuv g).comp = s.comp := rfl
@[simp] theorem State.updOuv_models : (s.updOuv g).models = s.models := rfl
@[simp] theorem State.updOuv_bases : (s.updOuv g).bases = s.bases := rfl
@[simp] theorem State.updOuv_mem : (s.updOuv g).mem = s.mem := rfl
@[simp] theorem State.updOuv_fab : (s.updOuv g).fab = s.fab := rfl
@[simp] theorem State.updOuv_bay : (s.updOuv g).bay = s.bay := rfl
@[simp] theorem State.updOuv_fuses : (s.updOuv g).fuses = s.fuses := rfl
@[simp] theorem State.updOuv_obs : (s.updOuv g).obs = s.obs := rfl
@[simp] theorem State.updOuv_freeCount : (s.updOuv g).freeCount = s.freeCount := rfl
@[simp] theorem State.updOuv_sent : (s.updOuv g).sent = s.sent := rfl
end

section
variable (g : Rings → Rings) (s : State)
@[simp] theorem State.updRings_pending : (s.updRings g).pending = s.pending := rfl
@[simp] theorem State.updRings_tick : (s.updRings g).tick = s.tick := rfl
@[simp] theorem State.updRings_islandTick : (s.updRings g).islandTick = s.islandTick := rfl
@[simp] theorem State.updRings_pkg : (s.updRings g).pkg = s.pkg := rfl
@[simp] theorem State.updRings_ifcs : (s.updRings g).ifcs = s.ifcs := rfl
@[simp] theorem State.updRings_ports : (s.updRings g).ports = s.ports := rfl
@[simp] theorem State.updRings_wall : (s.updRings g).wall = s.wall := rfl
@[simp] theorem State.updRings_ouv : (s.updRings g).ouv = s.ouv := rfl
@[simp] theorem State.updRings_rings : (s.updRings g).rings = g s.rings := rfl
@[simp] theorem State.updRings_parts : (s.updRings g).parts = s.parts := rfl
@[simp] theorem State.updRings_parser : (s.updRings g).parser = s.parser := rfl
@[simp] theorem State.updRings_cls : (s.updRings g).cls = s.cls := rfl
@[simp] theorem State.updRings_eg : (s.updRings g).eg = s.eg := rfl
@[simp] theorem State.updRings_comp : (s.updRings g).comp = s.comp := rfl
@[simp] theorem State.updRings_models : (s.updRings g).models = s.models := rfl
@[simp] theorem State.updRings_bases : (s.updRings g).bases = s.bases := rfl
@[simp] theorem State.updRings_mem : (s.updRings g).mem = s.mem := rfl
@[simp] theorem State.updRings_fab : (s.updRings g).fab = s.fab := rfl
@[simp] theorem State.updRings_bay : (s.updRings g).bay = s.bay := rfl
@[simp] theorem State.updRings_fuses : (s.updRings g).fuses = s.fuses := rfl
@[simp] theorem State.updRings_obs : (s.updRings g).obs = s.obs := rfl
@[simp] theorem State.updRings_freeCount : (s.updRings g).freeCount = s.freeCount := rfl
@[simp] theorem State.updRings_sent : (s.updRings g).sent = s.sent := rfl
end

section
variable (g : Tab Partition → Tab Partition) (s : State)
@[simp] theorem State.updParts_pending : (s.updParts g).pending = s.pending := rfl
@[simp] theorem State.updParts_tick : (s.updParts g).tick = s.tick := rfl
@[simp] theorem State.updParts_islandTick : (s.updParts g).islandTick = s.islandTick := rfl
@[simp] theorem State.updParts_pkg : (s.updParts g).pkg = s.pkg := rfl
@[simp] theorem State.updParts_ifcs : (s.updParts g).ifcs = s.ifcs := rfl
@[simp] theorem State.updParts_ports : (s.updParts g).ports = s.ports := rfl
@[simp] theorem State.updParts_wall : (s.updParts g).wall = s.wall := rfl
@[simp] theorem State.updParts_ouv : (s.updParts g).ouv = s.ouv := rfl
@[simp] theorem State.updParts_rings : (s.updParts g).rings = s.rings := rfl
@[simp] theorem State.updParts_parts : (s.updParts g).parts = g s.parts := rfl
@[simp] theorem State.updParts_parser : (s.updParts g).parser = s.parser := rfl
@[simp] theorem State.updParts_cls : (s.updParts g).cls = s.cls := rfl
@[simp] theorem State.updParts_eg : (s.updParts g).eg = s.eg := rfl
@[simp] theorem State.updParts_comp : (s.updParts g).comp = s.comp := rfl
@[simp] theorem State.updParts_models : (s.updParts g).models = s.models := rfl
@[simp] theorem State.updParts_bases : (s.updParts g).bases = s.bases := rfl
@[simp] theorem State.updParts_mem : (s.updParts g).mem = s.mem := rfl
@[simp] theorem State.updParts_fab : (s.updParts g).fab = s.fab := rfl
@[simp] theorem State.updParts_bay : (s.updParts g).bay = s.bay := rfl
@[simp] theorem State.updParts_fuses : (s.updParts g).fuses = s.fuses := rfl
@[simp] theorem State.updParts_obs : (s.updParts g).obs = s.obs := rfl
@[simp] theorem State.updParts_freeCount : (s.updParts g).freeCount = s.freeCount := rfl
@[simp] theorem State.updParts_sent : (s.updParts g).sent = s.sent := rfl
end

section
variable (g : Parser → Parser) (s : State)
@[simp] theorem State.updParser_pending : (s.updParser g).pending = s.pending := rfl
@[simp] theorem State.updParser_tick : (s.updParser g).tick = s.tick := rfl
@[simp] theorem State.updParser_islandTick : (s.updParser g).islandTick = s.islandTick := rfl
@[simp] theorem State.updParser_pkg : (s.updParser g).pkg = s.pkg := rfl
@[simp] theorem State.updParser_ifcs : (s.updParser g).ifcs = s.ifcs := rfl
@[simp] theorem State.updParser_ports : (s.updParser g).ports = s.ports := rfl
@[simp] theorem State.updParser_wall : (s.updParser g).wall = s.wall := rfl
@[simp] theorem State.updParser_ouv : (s.updParser g).ouv = s.ouv := rfl
@[simp] theorem State.updParser_rings : (s.updParser g).rings = s.rings := rfl
@[simp] theorem State.updParser_parts : (s.updParser g).parts = s.parts := rfl
@[simp] theorem State.updParser_parser : (s.updParser g).parser = g s.parser := rfl
@[simp] theorem State.updParser_cls : (s.updParser g).cls = s.cls := rfl
@[simp] theorem State.updParser_eg : (s.updParser g).eg = s.eg := rfl
@[simp] theorem State.updParser_comp : (s.updParser g).comp = s.comp := rfl
@[simp] theorem State.updParser_models : (s.updParser g).models = s.models := rfl
@[simp] theorem State.updParser_bases : (s.updParser g).bases = s.bases := rfl
@[simp] theorem State.updParser_mem : (s.updParser g).mem = s.mem := rfl
@[simp] theorem State.updParser_fab : (s.updParser g).fab = s.fab := rfl
@[simp] theorem State.updParser_bay : (s.updParser g).bay = s.bay := rfl
@[simp] theorem State.updParser_fuses : (s.updParser g).fuses = s.fuses := rfl
@[simp] theorem State.updParser_obs : (s.updParser g).obs = s.obs := rfl
@[simp] theorem State.updParser_freeCount : (s.updParser g).freeCount = s.freeCount := rfl
@[simp] theorem State.updParser_sent : (s.updParser g).sent = s.sent := rfl
end

section
variable (g : Classifier → Classifier) (s : State)
@[simp] theorem State.updCls_pending : (s.updCls g).pending = s.pending := rfl
@[simp] theorem State.updCls_tick : (s.updCls g).tick = s.tick := rfl
@[simp] theorem State.updCls_islandTick : (s.updCls g).islandTick = s.islandTick := rfl
@[simp] theorem State.updCls_pkg : (s.updCls g).pkg = s.pkg := rfl
@[simp] theorem State.updCls_ifcs : (s.updCls g).ifcs = s.ifcs := rfl
@[simp] theorem State.updCls_ports : (s.updCls g).ports = s.ports := rfl
@[simp] theorem State.updCls_wall : (s.updCls g).wall = s.wall := rfl
@[simp] theorem State.updCls_ouv : (s.updCls g).ouv = s.ouv := rfl
@[simp] theorem State.updCls_rings : (s.updCls g).rings = s.rings := rfl
@[simp] theorem State.updCls_parts : (s.updCls g).parts = s.parts := rfl
@[simp] theorem State.updCls_parser : (s.updCls g).parser = s.parser := rfl
@[simp] theorem State.updCls_cls : (s.updCls g).cls = g s.cls := rfl
@[simp] theorem State.updCls_eg : (s.updCls g).eg = s.eg := rfl
@[simp] theorem State.updCls_comp : (s.updCls g).comp = s.comp := rfl
@[simp] theorem State.updCls_models : (s.updCls g).models = s.models := rfl
@[simp] theorem State.updCls_bases : (s.updCls g).bases = s.bases := rfl
@[simp] theorem State.updCls_mem : (s.updCls g).mem = s.mem := rfl
@[simp] theorem State.updCls_fab : (s.updCls g).fab = s.fab := rfl
@[simp] theorem State.updCls_bay : (s.updCls g).bay = s.bay := rfl
@[simp] theorem State.updCls_fuses : (s.updCls g).fuses = s.fuses := rfl
@[simp] theorem State.updCls_obs : (s.updCls g).obs = s.obs := rfl
@[simp] theorem State.updCls_freeCount : (s.updCls g).freeCount = s.freeCount := rfl
@[simp] theorem State.updCls_sent : (s.updCls g).sent = s.sent := rfl
end

section
variable (g : Egress → Egress) (s : State)
@[simp] theorem State.updEg_pending : (s.updEg g).pending = s.pending := rfl
@[simp] theorem State.updEg_tick : (s.updEg g).tick = s.tick := rfl
@[simp] theorem State.updEg_islandTick : (s.updEg g).islandTick = s.islandTick := rfl
@[simp] theorem State.updEg_pkg : (s.updEg g).pkg = s.pkg := rfl
@[simp] theorem State.updEg_ifcs : (s.updEg g).ifcs = s.ifcs := rfl
@[simp] theorem State.updEg_ports : (s.updEg g).ports = s.ports := rfl
@[simp] theorem State.updEg_wall : (s.updEg g).wall = s.wall := rfl
@[simp] theorem State.updEg_ouv : (s.updEg g).ouv = s.ouv := rfl
@[simp] theorem State.updEg_rings : (s.updEg g).rings = s.rings := rfl
@[simp] theorem State.updEg_parts : (s.updEg g).parts = s.parts := rfl
@[simp] theorem State.updEg_parser : (s.updEg g).parser = s.parser := rfl
@[simp] theorem State.updEg_cls : (s.updEg g).cls = s.cls := rfl
@[simp] theorem State.updEg_eg : (s.updEg g).eg = g s.eg := rfl
@[simp] theorem State.updEg_comp : (s.updEg g).comp = s.comp := rfl
@[simp] theorem State.updEg_models : (s.updEg g).models = s.models := rfl
@[simp] theorem State.updEg_bases : (s.updEg g).bases = s.bases := rfl
@[simp] theorem State.updEg_mem : (s.updEg g).mem = s.mem := rfl
@[simp] theorem State.updEg_fab : (s.updEg g).fab = s.fab := rfl
@[simp] theorem State.updEg_bay : (s.updEg g).bay = s.bay := rfl
@[simp] theorem State.updEg_fuses : (s.updEg g).fuses = s.fuses := rfl
@[simp] theorem State.updEg_obs : (s.updEg g).obs = s.obs := rfl
@[simp] theorem State.updEg_freeCount : (s.updEg g).freeCount = s.freeCount := rfl
@[simp] theorem State.updEg_sent : (s.updEg g).sent = s.sent := rfl
end

section
variable (g : Compute → Compute) (s : State)
@[simp] theorem State.updComp_pending : (s.updComp g).pending = s.pending := rfl
@[simp] theorem State.updComp_tick : (s.updComp g).tick = s.tick := rfl
@[simp] theorem State.updComp_islandTick : (s.updComp g).islandTick = s.islandTick := rfl
@[simp] theorem State.updComp_pkg : (s.updComp g).pkg = s.pkg := rfl
@[simp] theorem State.updComp_ifcs : (s.updComp g).ifcs = s.ifcs := rfl
@[simp] theorem State.updComp_ports : (s.updComp g).ports = s.ports := rfl
@[simp] theorem State.updComp_wall : (s.updComp g).wall = s.wall := rfl
@[simp] theorem State.updComp_ouv : (s.updComp g).ouv = s.ouv := rfl
@[simp] theorem State.updComp_rings : (s.updComp g).rings = s.rings := rfl
@[simp] theorem State.updComp_parts : (s.updComp g).parts = s.parts := rfl
@[simp] theorem State.updComp_parser : (s.updComp g).parser = s.parser := rfl
@[simp] theorem State.updComp_cls : (s.updComp g).cls = s.cls := rfl
@[simp] theorem State.updComp_eg : (s.updComp g).eg = s.eg := rfl
@[simp] theorem State.updComp_comp : (s.updComp g).comp = g s.comp := rfl
@[simp] theorem State.updComp_models : (s.updComp g).models = s.models := rfl
@[simp] theorem State.updComp_bases : (s.updComp g).bases = s.bases := rfl
@[simp] theorem State.updComp_mem : (s.updComp g).mem = s.mem := rfl
@[simp] theorem State.updComp_fab : (s.updComp g).fab = s.fab := rfl
@[simp] theorem State.updComp_bay : (s.updComp g).bay = s.bay := rfl
@[simp] theorem State.updComp_fuses : (s.updComp g).fuses = s.fuses := rfl
@[simp] theorem State.updComp_obs : (s.updComp g).obs = s.obs := rfl
@[simp] theorem State.updComp_freeCount : (s.updComp g).freeCount = s.freeCount := rfl
@[simp] theorem State.updComp_sent : (s.updComp g).sent = s.sent := rfl
end

section
variable (g : Models → Models) (s : State)
@[simp] theorem State.updModels_pending : (s.updModels g).pending = s.pending := rfl
@[simp] theorem State.updModels_tick : (s.updModels g).tick = s.tick := rfl
@[simp] theorem State.updModels_islandTick : (s.updModels g).islandTick = s.islandTick := rfl
@[simp] theorem State.updModels_pkg : (s.updModels g).pkg = s.pkg := rfl
@[simp] theorem State.updModels_ifcs : (s.updModels g).ifcs = s.ifcs := rfl
@[simp] theorem State.updModels_ports : (s.updModels g).ports = s.ports := rfl
@[simp] theorem State.updModels_wall : (s.updModels g).wall = s.wall := rfl
@[simp] theorem State.updModels_ouv : (s.updModels g).ouv = s.ouv := rfl
@[simp] theorem State.updModels_rings : (s.updModels g).rings = s.rings := rfl
@[simp] theorem State.updModels_parts : (s.updModels g).parts = s.parts := rfl
@[simp] theorem State.updModels_parser : (s.updModels g).parser = s.parser := rfl
@[simp] theorem State.updModels_cls : (s.updModels g).cls = s.cls := rfl
@[simp] theorem State.updModels_eg : (s.updModels g).eg = s.eg := rfl
@[simp] theorem State.updModels_comp : (s.updModels g).comp = s.comp := rfl
@[simp] theorem State.updModels_models : (s.updModels g).models = g s.models := rfl
@[simp] theorem State.updModels_bases : (s.updModels g).bases = s.bases := rfl
@[simp] theorem State.updModels_mem : (s.updModels g).mem = s.mem := rfl
@[simp] theorem State.updModels_fab : (s.updModels g).fab = s.fab := rfl
@[simp] theorem State.updModels_bay : (s.updModels g).bay = s.bay := rfl
@[simp] theorem State.updModels_fuses : (s.updModels g).fuses = s.fuses := rfl
@[simp] theorem State.updModels_obs : (s.updModels g).obs = s.obs := rfl
@[simp] theorem State.updModels_freeCount : (s.updModels g).freeCount = s.freeCount := rfl
@[simp] theorem State.updModels_sent : (s.updModels g).sent = s.sent := rfl
end

section
variable (g : Tab BaseState → Tab BaseState) (s : State)
@[simp] theorem State.updBases_pending : (s.updBases g).pending = s.pending := rfl
@[simp] theorem State.updBases_tick : (s.updBases g).tick = s.tick := rfl
@[simp] theorem State.updBases_islandTick : (s.updBases g).islandTick = s.islandTick := rfl
@[simp] theorem State.updBases_pkg : (s.updBases g).pkg = s.pkg := rfl
@[simp] theorem State.updBases_ifcs : (s.updBases g).ifcs = s.ifcs := rfl
@[simp] theorem State.updBases_ports : (s.updBases g).ports = s.ports := rfl
@[simp] theorem State.updBases_wall : (s.updBases g).wall = s.wall := rfl
@[simp] theorem State.updBases_ouv : (s.updBases g).ouv = s.ouv := rfl
@[simp] theorem State.updBases_rings : (s.updBases g).rings = s.rings := rfl
@[simp] theorem State.updBases_parts : (s.updBases g).parts = s.parts := rfl
@[simp] theorem State.updBases_parser : (s.updBases g).parser = s.parser := rfl
@[simp] theorem State.updBases_cls : (s.updBases g).cls = s.cls := rfl
@[simp] theorem State.updBases_eg : (s.updBases g).eg = s.eg := rfl
@[simp] theorem State.updBases_comp : (s.updBases g).comp = s.comp := rfl
@[simp] theorem State.updBases_models : (s.updBases g).models = s.models := rfl
@[simp] theorem State.updBases_bases : (s.updBases g).bases = g s.bases := rfl
@[simp] theorem State.updBases_mem : (s.updBases g).mem = s.mem := rfl
@[simp] theorem State.updBases_fab : (s.updBases g).fab = s.fab := rfl
@[simp] theorem State.updBases_bay : (s.updBases g).bay = s.bay := rfl
@[simp] theorem State.updBases_fuses : (s.updBases g).fuses = s.fuses := rfl
@[simp] theorem State.updBases_obs : (s.updBases g).obs = s.obs := rfl
@[simp] theorem State.updBases_freeCount : (s.updBases g).freeCount = s.freeCount := rfl
@[simp] theorem State.updBases_sent : (s.updBases g).sent = s.sent := rfl
end

section
variable (g : Memory → Memory) (s : State)
@[simp] theorem State.updMem_pending : (s.updMem g).pending = s.pending := rfl
@[simp] theorem State.updMem_tick : (s.updMem g).tick = s.tick := rfl
@[simp] theorem State.updMem_islandTick : (s.updMem g).islandTick = s.islandTick := rfl
@[simp] theorem State.updMem_pkg : (s.updMem g).pkg = s.pkg := rfl
@[simp] theorem State.updMem_ifcs : (s.updMem g).ifcs = s.ifcs := rfl
@[simp] theorem State.updMem_ports : (s.updMem g).ports = s.ports := rfl
@[simp] theorem State.updMem_wall : (s.updMem g).wall = s.wall := rfl
@[simp] theorem State.updMem_ouv : (s.updMem g).ouv = s.ouv := rfl
@[simp] theorem State.updMem_rings : (s.updMem g).rings = s.rings := rfl
@[simp] theorem State.updMem_parts : (s.updMem g).parts = s.parts := rfl
@[simp] theorem State.updMem_parser : (s.updMem g).parser = s.parser := rfl
@[simp] theorem State.updMem_cls : (s.updMem g).cls = s.cls := rfl
@[simp] theorem State.updMem_eg : (s.updMem g).eg = s.eg := rfl
@[simp] theorem State.updMem_comp : (s.updMem g).comp = s.comp := rfl
@[simp] theorem State.updMem_models : (s.updMem g).models = s.models := rfl
@[simp] theorem State.updMem_bases : (s.updMem g).bases = s.bases := rfl
@[simp] theorem State.updMem_mem : (s.updMem g).mem = g s.mem := rfl
@[simp] theorem State.updMem_fab : (s.updMem g).fab = s.fab := rfl
@[simp] theorem State.updMem_bay : (s.updMem g).bay = s.bay := rfl
@[simp] theorem State.updMem_fuses : (s.updMem g).fuses = s.fuses := rfl
@[simp] theorem State.updMem_obs : (s.updMem g).obs = s.obs := rfl
@[simp] theorem State.updMem_freeCount : (s.updMem g).freeCount = s.freeCount := rfl
@[simp] theorem State.updMem_sent : (s.updMem g).sent = s.sent := rfl
end

section
variable (g : Fabric → Fabric) (s : State)
@[simp] theorem State.updFab_pending : (s.updFab g).pending = s.pending := rfl
@[simp] theorem State.updFab_tick : (s.updFab g).tick = s.tick := rfl
@[simp] theorem State.updFab_islandTick : (s.updFab g).islandTick = s.islandTick := rfl
@[simp] theorem State.updFab_pkg : (s.updFab g).pkg = s.pkg := rfl
@[simp] theorem State.updFab_ifcs : (s.updFab g).ifcs = s.ifcs := rfl
@[simp] theorem State.updFab_ports : (s.updFab g).ports = s.ports := rfl
@[simp] theorem State.updFab_wall : (s.updFab g).wall = s.wall := rfl
@[simp] theorem State.updFab_ouv : (s.updFab g).ouv = s.ouv := rfl
@[simp] theorem State.updFab_rings : (s.updFab g).rings = s.rings := rfl
@[simp] theorem State.updFab_parts : (s.updFab g).parts = s.parts := rfl
@[simp] theorem State.updFab_parser : (s.updFab g).parser = s.parser := rfl
@[simp] theorem State.updFab_cls : (s.updFab g).cls = s.cls := rfl
@[simp] theorem State.updFab_eg : (s.updFab g).eg = s.eg := rfl
@[simp] theorem State.updFab_comp : (s.updFab g).comp = s.comp := rfl
@[simp] theorem State.updFab_models : (s.updFab g).models = s.models := rfl
@[simp] theorem State.updFab_bases : (s.updFab g).bases = s.bases := rfl
@[simp] theorem State.updFab_mem : (s.updFab g).mem = s.mem := rfl
@[simp] theorem State.updFab_fab : (s.updFab g).fab = g s.fab := rfl
@[simp] theorem State.updFab_bay : (s.updFab g).bay = s.bay := rfl
@[simp] theorem State.updFab_fuses : (s.updFab g).fuses = s.fuses := rfl
@[simp] theorem State.updFab_obs : (s.updFab g).obs = s.obs := rfl
@[simp] theorem State.updFab_freeCount : (s.updFab g).freeCount = s.freeCount := rfl
@[simp] theorem State.updFab_sent : (s.updFab g).sent = s.sent := rfl
end

section
variable (g : Bay → Bay) (s : State)
@[simp] theorem State.updBay_pending : (s.updBay g).pending = s.pending := rfl
@[simp] theorem State.updBay_tick : (s.updBay g).tick = s.tick := rfl
@[simp] theorem State.updBay_islandTick : (s.updBay g).islandTick = s.islandTick := rfl
@[simp] theorem State.updBay_pkg : (s.updBay g).pkg = s.pkg := rfl
@[simp] theorem State.updBay_ifcs : (s.updBay g).ifcs = s.ifcs := rfl
@[simp] theorem State.updBay_ports : (s.updBay g).ports = s.ports := rfl
@[simp] theorem State.updBay_wall : (s.updBay g).wall = s.wall := rfl
@[simp] theorem State.updBay_ouv : (s.updBay g).ouv = s.ouv := rfl
@[simp] theorem State.updBay_rings : (s.updBay g).rings = s.rings := rfl
@[simp] theorem State.updBay_parts : (s.updBay g).parts = s.parts := rfl
@[simp] theorem State.updBay_parser : (s.updBay g).parser = s.parser := rfl
@[simp] theorem State.updBay_cls : (s.updBay g).cls = s.cls := rfl
@[simp] theorem State.updBay_eg : (s.updBay g).eg = s.eg := rfl
@[simp] theorem State.updBay_comp : (s.updBay g).comp = s.comp := rfl
@[simp] theorem State.updBay_models : (s.updBay g).models = s.models := rfl
@[simp] theorem State.updBay_bases : (s.updBay g).bases = s.bases := rfl
@[simp] theorem State.updBay_mem : (s.updBay g).mem = s.mem := rfl
@[simp] theorem State.updBay_fab : (s.updBay g).fab = s.fab := rfl
@[simp] theorem State.updBay_bay : (s.updBay g).bay = g s.bay := rfl
@[simp] theorem State.updBay_fuses : (s.updBay g).fuses = s.fuses := rfl
@[simp] theorem State.updBay_obs : (s.updBay g).obs = s.obs := rfl
@[simp] theorem State.updBay_freeCount : (s.updBay g).freeCount = s.freeCount := rfl
@[simp] theorem State.updBay_sent : (s.updBay g).sent = s.sent := rfl
end

section
variable (g : Fuses → Fuses) (s : State)
@[simp] theorem State.updFuses_pending : (s.updFuses g).pending = s.pending := rfl
@[simp] theorem State.updFuses_tick : (s.updFuses g).tick = s.tick := rfl
@[simp] theorem State.updFuses_islandTick : (s.updFuses g).islandTick = s.islandTick := rfl
@[simp] theorem State.updFuses_pkg : (s.updFuses g).pkg = s.pkg := rfl
@[simp] theorem State.updFuses_ifcs : (s.updFuses g).ifcs = s.ifcs := rfl
@[simp] theorem State.updFuses_ports : (s.updFuses g).ports = s.ports := rfl
@[simp] theorem State.updFuses_wall : (s.updFuses g).wall = s.wall := rfl
@[simp] theorem State.updFuses_ouv : (s.updFuses g).ouv = s.ouv := rfl
@[simp] theorem State.updFuses_rings : (s.updFuses g).rings = s.rings := rfl
@[simp] theorem State.updFuses_parts : (s.updFuses g).parts = s.parts := rfl
@[simp] theorem State.updFuses_parser : (s.updFuses g).parser = s.parser := rfl
@[simp] theorem State.updFuses_cls : (s.updFuses g).cls = s.cls := rfl
@[simp] theorem State.updFuses_eg : (s.updFuses g).eg = s.eg := rfl
@[simp] theorem State.updFuses_comp : (s.updFuses g).comp = s.comp := rfl
@[simp] theorem State.updFuses_models : (s.updFuses g).models = s.models := rfl
@[simp] theorem State.updFuses_bases : (s.updFuses g).bases = s.bases := rfl
@[simp] theorem State.updFuses_mem : (s.updFuses g).mem = s.mem := rfl
@[simp] theorem State.updFuses_fab : (s.updFuses g).fab = s.fab := rfl
@[simp] theorem State.updFuses_bay : (s.updFuses g).bay = s.bay := rfl
@[simp] theorem State.updFuses_fuses : (s.updFuses g).fuses = g s.fuses := rfl
@[simp] theorem State.updFuses_obs : (s.updFuses g).obs = s.obs := rfl
@[simp] theorem State.updFuses_freeCount : (s.updFuses g).freeCount = s.freeCount := rfl
@[simp] theorem State.updFuses_sent : (s.updFuses g).sent = s.sent := rfl
end

section
variable (g : Observe → Observe) (s : State)
@[simp] theorem State.updObs_pending : (s.updObs g).pending = s.pending := rfl
@[simp] theorem State.updObs_tick : (s.updObs g).tick = s.tick := rfl
@[simp] theorem State.updObs_islandTick : (s.updObs g).islandTick = s.islandTick := rfl
@[simp] theorem State.updObs_pkg : (s.updObs g).pkg = s.pkg := rfl
@[simp] theorem State.updObs_ifcs : (s.updObs g).ifcs = s.ifcs := rfl
@[simp] theorem State.updObs_ports : (s.updObs g).ports = s.ports := rfl
@[simp] theorem State.updObs_wall : (s.updObs g).wall = s.wall := rfl
@[simp] theorem State.updObs_ouv : (s.updObs g).ouv = s.ouv := rfl
@[simp] theorem State.updObs_rings : (s.updObs g).rings = s.rings := rfl
@[simp] theorem State.updObs_parts : (s.updObs g).parts = s.parts := rfl
@[simp] theorem State.updObs_parser : (s.updObs g).parser = s.parser := rfl
@[simp] theorem State.updObs_cls : (s.updObs g).cls = s.cls := rfl
@[simp] theorem State.updObs_eg : (s.updObs g).eg = s.eg := rfl
@[simp] theorem State.updObs_comp : (s.updObs g).comp = s.comp := rfl
@[simp] theorem State.updObs_models : (s.updObs g).models = s.models := rfl
@[simp] theorem State.updObs_bases : (s.updObs g).bases = s.bases := rfl
@[simp] theorem State.updObs_mem : (s.updObs g).mem = s.mem := rfl
@[simp] theorem State.updObs_fab : (s.updObs g).fab = s.fab := rfl
@[simp] theorem State.updObs_bay : (s.updObs g).bay = s.bay := rfl
@[simp] theorem State.updObs_fuses : (s.updObs g).fuses = s.fuses := rfl
@[simp] theorem State.updObs_obs : (s.updObs g).obs = g s.obs := rfl
@[simp] theorem State.updObs_freeCount : (s.updObs g).freeCount = s.freeCount := rfl
@[simp] theorem State.updObs_sent : (s.updObs g).sent = s.sent := rfl
end

section
variable (t : Nat) (x : Sent) (s : State)
@[simp] theorem State.at_pending : (s.at t).pending = s.pending := rfl
@[simp] theorem State.at_tick : (s.at t).tick = max s.tick t := rfl
@[simp] theorem State.at_islandTick : (s.at t).islandTick = s.islandTick := rfl
@[simp] theorem State.at_pkg : (s.at t).pkg = s.pkg := rfl
@[simp] theorem State.at_ifcs : (s.at t).ifcs = s.ifcs := rfl
@[simp] theorem State.at_ports : (s.at t).ports = s.ports := rfl
@[simp] theorem State.at_wall : (s.at t).wall = s.wall := rfl
@[simp] theorem State.at_ouv : (s.at t).ouv = s.ouv := rfl
@[simp] theorem State.at_rings : (s.at t).rings = s.rings := rfl
@[simp] theorem State.at_parts : (s.at t).parts = s.parts := rfl
@[simp] theorem State.at_parser : (s.at t).parser = s.parser := rfl
@[simp] theorem State.at_cls : (s.at t).cls = s.cls := rfl
@[simp] theorem State.at_eg : (s.at t).eg = s.eg := rfl
@[simp] theorem State.at_comp : (s.at t).comp = s.comp := rfl
@[simp] theorem State.at_models : (s.at t).models = s.models := rfl
@[simp] theorem State.at_bases : (s.at t).bases = s.bases := rfl
@[simp] theorem State.at_mem : (s.at t).mem = s.mem := rfl
@[simp] theorem State.at_fab : (s.at t).fab = s.fab := rfl
@[simp] theorem State.at_bay : (s.at t).bay = s.bay := rfl
@[simp] theorem State.at_fuses : (s.at t).fuses = s.fuses := rfl
@[simp] theorem State.at_obs : (s.at t).obs = s.obs := rfl
@[simp] theorem State.at_freeCount : (s.at t).freeCount = s.freeCount := rfl
@[simp] theorem State.at_sent : (s.at t).sent = s.sent := rfl
@[simp] theorem State.out_pending : (s.out x).pending = s.pending := rfl
@[simp] theorem State.out_tick : (s.out x).tick = s.tick := rfl
@[simp] theorem State.out_islandTick : (s.out x).islandTick = s.islandTick := rfl
@[simp] theorem State.out_pkg : (s.out x).pkg = s.pkg := rfl
@[simp] theorem State.out_ifcs : (s.out x).ifcs = s.ifcs := rfl
@[simp] theorem State.out_ports : (s.out x).ports = s.ports := rfl
@[simp] theorem State.out_wall : (s.out x).wall = s.wall := rfl
@[simp] theorem State.out_ouv : (s.out x).ouv = s.ouv := rfl
@[simp] theorem State.out_rings : (s.out x).rings = s.rings := rfl
@[simp] theorem State.out_parts : (s.out x).parts = s.parts := rfl
@[simp] theorem State.out_parser : (s.out x).parser = s.parser := rfl
@[simp] theorem State.out_cls : (s.out x).cls = s.cls := rfl
@[simp] theorem State.out_eg : (s.out x).eg = s.eg := rfl
@[simp] theorem State.out_comp : (s.out x).comp = s.comp := rfl
@[simp] theorem State.out_models : (s.out x).models = s.models := rfl
@[simp] theorem State.out_bases : (s.out x).bases = s.bases := rfl
@[simp] theorem State.out_mem : (s.out x).mem = s.mem := rfl
@[simp] theorem State.out_fab : (s.out x).fab = s.fab := rfl
@[simp] theorem State.out_bay : (s.out x).bay = s.bay := rfl
@[simp] theorem State.out_fuses : (s.out x).fuses = s.fuses := rfl
@[simp] theorem State.out_obs : (s.out x).obs = s.obs := rfl
@[simp] theorem State.out_freeCount : (s.out x).freeCount = s.freeCount := rfl
@[simp] theorem State.out_sent : (s.out x).sent = s.sent ++ [x] := rfl
end

section
variable (id scope n : Nat) (s : State)
@[simp] theorem State.countN_pending : (s.countN id scope n).pending = s.pending := rfl
@[simp] theorem State.count_pending : (s.count id scope).pending = s.pending := rfl
@[simp] theorem State.tally_pending : (s.tally id).pending = s.pending := rfl
@[simp] theorem State.countN_tick : (s.countN id scope n).tick = s.tick := rfl
@[simp] theorem State.count_tick : (s.count id scope).tick = s.tick := rfl
@[simp] theorem State.tally_tick : (s.tally id).tick = s.tick := rfl
@[simp] theorem State.countN_islandTick : (s.countN id scope n).islandTick = s.islandTick := rfl
@[simp] theorem State.count_islandTick : (s.count id scope).islandTick = s.islandTick := rfl
@[simp] theorem State.tally_islandTick : (s.tally id).islandTick = s.islandTick := rfl
@[simp] theorem State.countN_pkg : (s.countN id scope n).pkg = s.pkg := rfl
@[simp] theorem State.count_pkg : (s.count id scope).pkg = s.pkg := rfl
@[simp] theorem State.tally_pkg : (s.tally id).pkg = s.pkg := rfl
@[simp] theorem State.countN_ifcs : (s.countN id scope n).ifcs = s.ifcs := rfl
@[simp] theorem State.count_ifcs : (s.count id scope).ifcs = s.ifcs := rfl
@[simp] theorem State.tally_ifcs : (s.tally id).ifcs = s.ifcs := rfl
@[simp] theorem State.countN_ports : (s.countN id scope n).ports = s.ports := rfl
@[simp] theorem State.count_ports : (s.count id scope).ports = s.ports := rfl
@[simp] theorem State.tally_ports : (s.tally id).ports = s.ports := rfl
@[simp] theorem State.countN_wall : (s.countN id scope n).wall = s.wall := rfl
@[simp] theorem State.count_wall : (s.count id scope).wall = s.wall := rfl
@[simp] theorem State.tally_wall : (s.tally id).wall = s.wall := rfl
@[simp] theorem State.countN_ouv : (s.countN id scope n).ouv = s.ouv := rfl
@[simp] theorem State.count_ouv : (s.count id scope).ouv = s.ouv := rfl
@[simp] theorem State.tally_ouv : (s.tally id).ouv = s.ouv := rfl
@[simp] theorem State.countN_rings : (s.countN id scope n).rings = s.rings := rfl
@[simp] theorem State.count_rings : (s.count id scope).rings = s.rings := rfl
@[simp] theorem State.tally_rings : (s.tally id).rings = s.rings := rfl
@[simp] theorem State.countN_parts : (s.countN id scope n).parts = s.parts := rfl
@[simp] theorem State.count_parts : (s.count id scope).parts = s.parts := rfl
@[simp] theorem State.tally_parts : (s.tally id).parts = s.parts := rfl
@[simp] theorem State.countN_parser : (s.countN id scope n).parser = s.parser := rfl
@[simp] theorem State.count_parser : (s.count id scope).parser = s.parser := rfl
@[simp] theorem State.tally_parser : (s.tally id).parser = s.parser := rfl
@[simp] theorem State.countN_cls : (s.countN id scope n).cls = s.cls := rfl
@[simp] theorem State.count_cls : (s.count id scope).cls = s.cls := rfl
@[simp] theorem State.tally_cls : (s.tally id).cls = s.cls := rfl
@[simp] theorem State.countN_eg : (s.countN id scope n).eg = s.eg := rfl
@[simp] theorem State.count_eg : (s.count id scope).eg = s.eg := rfl
@[simp] theorem State.tally_eg : (s.tally id).eg = s.eg := rfl
@[simp] theorem State.countN_comp : (s.countN id scope n).comp = s.comp := rfl
@[simp] theorem State.count_comp : (s.count id scope).comp = s.comp := rfl
@[simp] theorem State.tally_comp : (s.tally id).comp = s.comp := rfl
@[simp] theorem State.countN_models : (s.countN id scope n).models = s.models := rfl
@[simp] theorem State.count_models : (s.count id scope).models = s.models := rfl
@[simp] theorem State.tally_models : (s.tally id).models = s.models := rfl
@[simp] theorem State.countN_bases : (s.countN id scope n).bases = s.bases := rfl
@[simp] theorem State.count_bases : (s.count id scope).bases = s.bases := rfl
@[simp] theorem State.tally_bases : (s.tally id).bases = s.bases := rfl
@[simp] theorem State.countN_mem : (s.countN id scope n).mem = s.mem := rfl
@[simp] theorem State.count_mem : (s.count id scope).mem = s.mem := rfl
@[simp] theorem State.tally_mem : (s.tally id).mem = s.mem := rfl
@[simp] theorem State.countN_fab : (s.countN id scope n).fab = s.fab := rfl
@[simp] theorem State.count_fab : (s.count id scope).fab = s.fab := rfl
@[simp] theorem State.tally_fab : (s.tally id).fab = s.fab := rfl
@[simp] theorem State.countN_bay : (s.countN id scope n).bay = s.bay := rfl
@[simp] theorem State.count_bay : (s.count id scope).bay = s.bay := rfl
@[simp] theorem State.tally_bay : (s.tally id).bay = s.bay := rfl
@[simp] theorem State.countN_fuses : (s.countN id scope n).fuses = s.fuses := rfl
@[simp] theorem State.count_fuses : (s.count id scope).fuses = s.fuses := rfl
@[simp] theorem State.tally_fuses : (s.tally id).fuses = s.fuses := rfl
@[simp] theorem State.countN_freeCount : (s.countN id scope n).freeCount = s.freeCount := rfl
@[simp] theorem State.count_freeCount : (s.count id scope).freeCount = s.freeCount := rfl
@[simp] theorem State.tally_freeCount : (s.tally id).freeCount = s.freeCount := rfl
@[simp] theorem State.countN_sent : (s.countN id scope n).sent = s.sent := rfl
@[simp] theorem State.count_sent : (s.count id scope).sent = s.sent := rfl
@[simp] theorem State.tally_sent : (s.tally id).sent = s.sent := rfl
end

/-- A record changes the observability state and nothing else (R446). -/
theorem State.recordRaw_eq (kind level unit part sev : Nat) (data : List Nat) (s : State) :
    s.recordRaw kind level unit part sev data =
      { s with obs := (s.recordRaw kind level unit part sev data).obs } := by
  unfold State.recordRaw
  extract_lets w r p s'
  split <;> rfl

/-- A record, limited or not, changes the observability state and nothing else (R446). -/
theorem State.record_eq (kind level unit part sev : Nat) (data : List (Nat × Nat)) (s : State) :
    s.record kind level unit part sev data =
      { s with obs := (s.record kind level unit part sev data).obs } := by
  unfold State.record
  split
  · rfl
  · rw [State.recordRaw_eq]; rfl

section
variable (kind level unit part sev : Nat) (data : List (Nat × Nat)) (s : State)
@[simp] theorem State.record_pending : (s.record kind level unit part sev data).pending = s.pending := by
  rw [State.record_eq]
@[simp] theorem State.record_tick : (s.record kind level unit part sev data).tick = s.tick := by
  rw [State.record_eq]
@[simp] theorem State.record_islandTick : (s.record kind level unit part sev data).islandTick = s.islandTick := by
  rw [State.record_eq]
@[simp] theorem State.record_pkg : (s.record kind level unit part sev data).pkg = s.pkg := by
  rw [State.record_eq]
@[simp] theorem State.record_ifcs : (s.record kind level unit part sev data).ifcs = s.ifcs := by
  rw [State.record_eq]
@[simp] theorem State.record_ports : (s.record kind level unit part sev data).ports = s.ports := by
  rw [State.record_eq]
@[simp] theorem State.record_wall : (s.record kind level unit part sev data).wall = s.wall := by
  rw [State.record_eq]
@[simp] theorem State.record_ouv : (s.record kind level unit part sev data).ouv = s.ouv := by
  rw [State.record_eq]
@[simp] theorem State.record_rings : (s.record kind level unit part sev data).rings = s.rings := by
  rw [State.record_eq]
@[simp] theorem State.record_parts : (s.record kind level unit part sev data).parts = s.parts := by
  rw [State.record_eq]
@[simp] theorem State.record_parser : (s.record kind level unit part sev data).parser = s.parser := by
  rw [State.record_eq]
@[simp] theorem State.record_cls : (s.record kind level unit part sev data).cls = s.cls := by
  rw [State.record_eq]
@[simp] theorem State.record_eg : (s.record kind level unit part sev data).eg = s.eg := by
  rw [State.record_eq]
@[simp] theorem State.record_comp : (s.record kind level unit part sev data).comp = s.comp := by
  rw [State.record_eq]
@[simp] theorem State.record_models : (s.record kind level unit part sev data).models = s.models := by
  rw [State.record_eq]
@[simp] theorem State.record_bases : (s.record kind level unit part sev data).bases = s.bases := by
  rw [State.record_eq]
@[simp] theorem State.record_mem : (s.record kind level unit part sev data).mem = s.mem := by
  rw [State.record_eq]
@[simp] theorem State.record_fab : (s.record kind level unit part sev data).fab = s.fab := by
  rw [State.record_eq]
@[simp] theorem State.record_bay : (s.record kind level unit part sev data).bay = s.bay := by
  rw [State.record_eq]
@[simp] theorem State.record_fuses : (s.record kind level unit part sev data).fuses = s.fuses := by
  rw [State.record_eq]
@[simp] theorem State.record_freeCount : (s.record kind level unit part sev data).freeCount = s.freeCount := by
  rw [State.record_eq]
@[simp] theorem State.record_sent : (s.record kind level unit part sev data).sent = s.sent := by
  rw [State.record_eq]
end

/-- A counter raised reads its old value and the rise, up to 2^64 − 1 (R457). -/
theorem State.counter_countN (id scope n : Nat) (s : State) :
    (s.countN id scope n).counter id scope = min (s.counter id scope + n) (2 ^ 64 - 1) := by
  unfold State.counter State.countN
  rw [State.updObs_obs]
  dsimp only
  have key : ∀ (l : List ((Nat × Nat) × Nat)) (v : Nat), aget (aset l (id, scope) v) (id, scope) = some v := by
    intro l v
    induction l with
    | nil => simp [aset, aget]
    | cons e r ih =>
      unfold aset
      split
      · rename_i h; simp [aget]
      · rename_i h; simp [aget, h, ih]
  rw [key]
  rfl

/-- Bytes written to device memory stand in its list of bytes; what is read on the way does not change
them (R326). -/
theorem State.readFault_bytes (w access : Nat) (f : WordFault) (s : State) :
    (s.readFault w access f).mem.bytes = s.mem.bytes := by
  cases f
  · rfl
  · unfold State.readFault State.recordUe
    dsimp only
    split
    · rfl
    · rw [State.record_mem]; rfl
  · rfl

theorem State.mergeRead_bytes (w : Nat) (s : State) : (s.mergeRead w).mem.bytes = s.mem.bytes := by
  unfold State.mergeRead
  split
  · rfl
  · extract_lets s'
    have : s'.mem.bytes = s.mem.bytes := State.readFault_bytes _ _ _ _
    split
    · exact this
    · exact this

theorem State.touch_bytes (a n access : Nat) (s : State) : (s.touch a n access).mem.bytes = s.mem.bytes := by
  unfold State.touch
  generalize s.mem.faultsIn a n = l
  induction l generalizing s with
  | nil => rfl
  | cons e r ih => exact (ih _).trans (State.readFault_bytes _ _ _ _)

theorem State.poke_bytes (a : Nat) (bs : List Byte) (s : State) :
    (s.poke a bs).mem.bytes = memPut s.mem.bytes a bs := by
  unfold State.poke
  extract_lets n s'
  have key : ∀ (l : List Nat) (s : State), (l.foldl (fun s w => s.mergeRead w) s).mem.bytes = s.mem.bytes := by
    intro l
    induction l with
    | nil => intro s; rfl
    | cons e r ih => intro s; exact (ih _).trans (State.mergeRead_bytes _ _)
  have h : s'.mem.bytes = s.mem.bytes := key _ _
  show memPut s'.mem.bytes a bs = _
  rw [h]

/-- Every byte outside those written reads as before (R326). -/
theorem State.poke_other {s : State} (h : s.mem.wf = true) (a : Nat) (bs : List Byte) (x : Nat)
    (hx : x < a ∨ a + bs.length ≤ x) : memGet (s.poke a bs).mem.bytes x = memGet s.mem.bytes x := by
  rw [State.poke_bytes, memGet_memPut bs h (Nat.zero_le _), dif_neg]
  omega

end Sys2Proof.Machine
end

