-- ==== Sys2Proof/Laws/Control.lean ====
section
/-! SUPPORT. What the shared ways of running a command answer: an event whose guard holds or not, a
command Isain runs, a session frame, a set-up frame and a fabric frame. -/

namespace Sys2Proof.Machine

variable {s : State} {t : Nat}

/-- An event whose guard holds acts. -/
theorem happen_pos {guard : State → Bool} {eff : State → State} (h : guard (s.at t) = true) :
    s.happen t guard eff = .next (eff (s.at t)) := by
  unfold State.happen
  rw [if_pos h]

/-- An event whose guard does not hold leaves everything but time. -/
theorem happen_neg {guard : State → Bool} {eff : State → State} (h : guard (s.at t) = false) :
    s.happen t guard eff = .next (s.at t) := by
  unfold State.happen
  rw [if_neg (by rw [h]; exact Bool.false_ne_true)]

/-- A command that is ready passes steps 1 to 4 of R383. -/
theorem Ready.preCheck {h : CmdHdr} {op : Nat} {stop : Bool} (r : Ready h op stop s) :
    (s.at t).preCheck h op stop false h.part = none := by
  have h1 : ((s.at t).part h.part).enabled = true := r.enabled
  have h2 : ((s.at t).part h.part).token = h.token := r.token
  have h3 : (s.at t).stateAllows op stop = true := r.allowed
  unfold State.preCheck
  simp [r.lengths, r.reserved, h1, h2, h3]

/-- A command that is ready, whose objects exist and whose right is held, comes to what its own checks
and effect say. -/
theorem isain_own {c : CmdForm} {h : CmdHdr} {ex right : State → Bool} {own : State → Reply}
    (r : Ready h c.op c.stop s) (hr : c.resv = none) (he : ex (s.at t) = true)
    (hp : right (s.at t) = true) :
    s.isain t c h ex right own = .next (match own (s.at t) with
      | .refuse st d => (s.at t).answerRd h c.op c.rd st d []
      | .done st body s' => s'.answerRd h c.op c.rd st noDetail body
      | .wait s' => s') := by
  have h1 : (s.at t).isainUp = true := r.up
  have h2 : (s.at t).carrierPart h c.op = some h.part := r.carrier
  unfold State.isain
  dsimp only
  rw [h1, h2]
  dsimp only
  unfold State.runCmd
  have hn : ∀ s', (s.at t).noRoom h s' = false := by
    intro s'
    unfold State.noRoom
    rw [r.room, show (s.at t).bay.full = false from r.space]
    simp
  rw [hr, show (none : Option Nat).isSome = false from rfl, Ready.preCheck r, he, hp, r.listed]
  cases own (s.at t) <;> simp [hn]

/-- While Isain does not answer, a command does nothing (R23). -/
theorem isain_down {c : CmdForm} {h : CmdHdr} {ex right : State → Bool} {own : State → Reply}
    (hu : s.isainUp = false) : s.isain t c h ex right own = .next (s.at t) := by
  have h1 : (s.at t).isainUp = false := hu
  unfold State.isain
  dsimp only
  rw [h1]

/-- A command that no carrier holds does nothing. -/
theorem isain_none {c : CmdForm} {h : CmdHdr} {ex right : State → Bool} {own : State → Reply}
    (hc : s.carrierPart h c.op = none) : s.isain t c h ex right own = .next (s.at t) := by
  have h1 : (s.at t).carrierPart h c.op = none := hc
  unfold State.isain
  dsimp only
  rw [h1]
  cases (s.at t).isainUp <;> rfl

/-- A command that fails one of steps 1 to 4 of R383 is answered with that status, and has no other
effect but the count of a reserved bit (R7). -/
theorem isain_pre {c : CmdForm} {h : CmdHdr} {owner : Nat} {ex right : State → Bool}
    {own : State → Reply} {st : Status} (hu : s.isainUp = true) (hc : s.carrierPart h c.op = some owner)
    (hp : (s.at t).preCheck h c.op c.stop c.resv.isSome owner = some st) :
    s.isain t c h ex right own = .next
      ((if (h.resvBad || c.resv.isSome) && st == .eArg then (s.at t).count Ctr.cmdResvRefused h.part
        else s.at t).answerRd h c.op c.rd st
          (if h.lenBad || h.resvBad then noDetail else c.resv.getD noDetail) []) := by
  have h1 : (s.at t).isainUp = true := hu
  have h2 : (s.at t).carrierPart h c.op = some owner := hc
  unfold State.isain
  dsimp only
  rw [h1, h2]
  dsimp only
  unfold State.runCmd
  rw [hp]

/-- A command that passes steps 1 to 6 of R383 and carries a value no table lists, or a flag it does not
define, is answered `E_ARG`, and has no other effect (R7, R380). -/
theorem isain_unlisted {c : CmdForm} {h : CmdHdr} {owner : Nat} {ex right : State → Bool}
    {own : State → Reply} (hw : c.late = false) (hu : s.isainUp = true)
    (hc : s.carrierPart h c.op = some owner)
    (hp : (s.at t).preCheck h c.op c.stop c.resv.isSome owner = none) (he : ex (s.at t) = true)
    (hr : right (s.at t) = true) (hl : unlisted h c.op = true) :
    s.isain t c h ex right own = .next ((s.at t).answerRd h c.op c.rd .eArg noDetail []) := by
  have h1 : (s.at t).isainUp = true := hu
  have h2 : (s.at t).carrierPart h c.op = some owner := hc
  unfold State.isain
  dsimp only
  rw [h1, h2]
  dsimp only
  unfold State.runCmd
  rw [hp, he, hr, hl, hw]
  rfl

/-- An accepted session frame comes to what its own checks and effect say. -/
theorem onFrame_own {f : OuvHdr} {want : Nat} {act : Session → State → FrameOut} {x : Session}
    (a : Accepted t f want x s) :
    s.onFrame t f want act =
      .next (((s.heard t f x).settle f (act (x.accept f.seq (s.at t).tick) (s.heard t f x))).closeWorn
        f.sid) := by
  unfold State.onFrame
  dsimp only
  rw [a.entry]
  unfold State.actFrame
  dsimp only
  rw [a.reserved]
  rfl

/-- A set-up frame that passes the checks of R73 acts. -/
theorem onSetup_own {f : OuvHdr} {want : Nat} {act : State → State} (h1 : (s.at t).hears f.ifc = true)
    (h2 : (s.obs.islandsStopped && decide (f.ifc < 4)) = false) (h3 : f.overrun = false)
    (h4 : s.badHeader f want false = false) : s.onSetup t f want act = .next (act (s.at t)) := by
  have h2' : ((s.at t).obs.islandsStopped && decide (f.ifc < 4)) = false := h2
  have h4' : (s.at t).badHeader f want false = false := h4
  unfold State.onSetup
  dsimp only
  rw [h1, h2', h3, h4']
  rfl

/-- A fabric frame that the checks find new acts. -/
theorem fabReceive_fresh {ftype : Nat} {f : FabHdr} {act : State → State}
    {redo : Option (State → State)} {s' : State}
    (hg : (s.fabUp && s.fab.ifcs.any (fun i => i.2 == f.ifc) && (s.ifc f.ifc).link) = true)
    (hf : (s.at t).fabIn ftype f = .fresh s') :
    s.fabReceive t ftype f act redo = .next (act s') := by
  unfold State.fabReceive
  rw [happen_pos hg, hf]

end Sys2Proof.Machine
end

