-- ==== Sys2Proof/Laws/Dispatch.lean ====
section
/-! SUPPORT. Which meaning each command has. -/

namespace Sys2Proof.Machine

variable (s : State)

theorem exec_deviceReset (t : Nat) (h : CmdHdr) :
    exec (.deviceReset t h) s = execDeviceReset t h s := rfl
theorem exec_deviceResetTest (t : Nat) (h : CmdHdr) :
    exec (.deviceResetTest t h) s = execDeviceResetTest t h s := rfl
theorem exec_deviceShutdown (t : Nat) (h : CmdHdr) :
    exec (.deviceShutdown t h) s = execDeviceShutdown t h s := rfl
theorem exec_powerConfig (t : Nat) (h : CmdHdr) (recs : List SetRec) :
    exec (.powerConfig t h recs) s = execPowerConfig t h recs s := rfl
theorem exec_settingsReadForm (t : Nat) (h : CmdHdr) (cmd : SetCmd) (recs : List SetRec) :
    exec (.settingsReadForm t h cmd recs) s = execSettingsReadForm t h cmd recs s := rfl
theorem exec_bypassForce (t : Nat) (h : CmdHdr) :
    exec (.bypassForce t h) s = execBypassForce t h s := rfl
theorem exec_bypassReleaseForce (t : Nat) (h : CmdHdr) :
    exec (.bypassReleaseForce t h) s = execBypassReleaseForce t h s := rfl
theorem exec_bypassRearm (t : Nat) (h : CmdHdr) :
    exec (.bypassRearm t h) s = execBypassRearm t h s := rfl
theorem exec_partitionReinit (t : Nat) (h : CmdHdr) (part : Nat) :
    exec (.partitionReinit t h part) s = execPartitionReinit t h part s := rfl
theorem exec_partitionEnable (t : Nat) (h : CmdHdr) (part : Nat) :
    exec (.partitionEnable t h part) s = execPartitionEnable t h part s := rfl
theorem exec_partitionDisable (t : Nat) (h : CmdHdr) (part : Nat) :
    exec (.partitionDisable t h part) s = execPartitionDisable t h part s := rfl
theorem exec_partitionConfig (t : Nat) (h : CmdHdr) (recs : List SetRec) :
    exec (.partitionConfig t h recs) s = execPartitionConfig t h recs s := rfl
theorem exec_partitionQuery (t : Nat) (h : CmdHdr) (part : Nat) :
    exec (.partitionQuery t h part) s = execPartitionQuery t h part s := rfl
theorem exec_clusterAssign (t : Nat) (h : CmdHdr) (target graceUs : Nat) (clusters : List Nat) :
    exec (.clusterAssign t h target graceUs clusters) s = execClusterAssign t h target graceUs clusters s := rfl
theorem exec_clusterConfig (t : Nat) (h : CmdHdr) (recs : List SetRec) :
    exec (.clusterConfig t h recs) s = execClusterConfig t h recs s := rfl
theorem exec_coreMapRead (t : Nat) (h : CmdHdr) (start max : Nat) :
    exec (.coreMapRead t h start max) s = execCoreMapRead t h start max s := rfl
theorem exec_ringCreate (t : Nat) (h : CmdHdr) (spec : RingSpec) :
    exec (.ringCreate t h spec) s = execRingCreate t h spec s := rfl
theorem exec_ringConfig (t : Nat) (h : CmdHdr) (m : RingMask) :
    exec (.ringConfig t h m) s = execRingConfig t h m s := rfl
theorem exec_ringAttach (t : Nat) (h : CmdHdr) (ring sid : Nat) :
    exec (.ringAttach t h ring sid) s = execRingAttach t h ring sid s := rfl
theorem exec_ringDetach (t : Nat) (h : CmdHdr) (ring : Nat) :
    exec (.ringDetach t h ring) s = execRingDetach t h ring s := rfl
theorem exec_ringDestroy (t : Nat) (h : CmdHdr) (ring : Nat) :
    exec (.ringDestroy t h ring) s = execRingDestroy t h ring s := rfl
theorem exec_ringQuery (t : Nat) (h : CmdHdr) (ring : Nat) :
    exec (.ringQuery t h ring) s = execRingQuery t h ring s := rfl
theorem exec_ringRepush (t : Nat) (h : CmdHdr) (ring : Nat) (start : W32) (count : Nat) :
    exec (.ringRepush t h ring start count) s = execRingRepush t h ring start count s := rfl
theorem exec_barrier (t : Nat) (h : CmdHdr) (rings : List Nat) (pairs : List (Nat × Nat)) :
    exec (.barrier t h rings pairs) s = execBarrier t h rings pairs s := rfl
theorem exec_slotQuery (t : Nat) (h : CmdHdr) (slot : Nat) :
    exec (.slotQuery t h slot) s = execSlotQuery t h slot s := rfl
theorem exec_portConfig (t : Nat) (h : CmdHdr) (recs : List SetRec) :
    exec (.portConfig t h recs) s = execPortConfig t h recs s := rfl
theorem exec_portDrain (t : Nat) (h : CmdHdr) (port : Nat) :
    exec (.portDrain t h port) s = execPortDrain t h port s := rfl
theorem exec_portResume (t : Nat) (h : CmdHdr) (port : Nat) :
    exec (.portResume t h port) s = execPortResume t h port s := rfl
theorem exec_portStatus (t : Nat) (h : CmdHdr) (port : Nat) :
    exec (.portStatus t h port) s = execPortStatus t h port s := rfl
theorem exec_portTxFrame (t : Nat) (h : CmdHdr) (ifc : Nat) (bytes : List Byte) :
    exec (.portTxFrame t h ifc bytes) s = execPortTxFrame t h ifc bytes s := rfl
theorem exec_macsecSaInstall (t : Nat) (h : CmdHdr) (sa : SaSpec) :
    exec (.macsecSaInstall t h sa) s = execMacsecSaInstall t h sa s := rfl
theorem exec_macsecSaRemove (t : Nat) (h : CmdHdr) (ifc : Nat) (transmit : Bool) (sc an : Nat) :
    exec (.macsecSaRemove t h ifc transmit sc an) s = execMacsecSaRemove t h ifc transmit sc an s := rfl
theorem exec_windowOpen (t : Nat) (h : CmdHdr) (part win rights base pages : Nat) :
    exec (.windowOpen t h part win rights base pages) s = execWindowOpen t h part win rights base pages s := rfl
theorem exec_windowClose (t : Nat) (h : CmdHdr) (part win : Nat) :
    exec (.windowClose t h part win) s = execWindowClose t h part win s := rfl
theorem exec_bfdSessionSet (t : Nat) (h : CmdHdr) (ifc sess txUs rxUs mult : Nat) (peer : BitVec 128) :
    exec (.bfdSessionSet t h ifc sess txUs rxUs mult peer) s = execBfdSessionSet t h ifc sess txUs rxUs mult peer s := rfl
theorem exec_bfdSessionRemove (t : Nat) (h : CmdHdr) (ifc sess : Nat) :
    exec (.bfdSessionRemove t h ifc sess) s = execBfdSessionRemove t h ifc sess s := rfl
theorem exec_timeRead (t : Nat) (h : CmdHdr) :
    exec (.timeRead t h) s = execTimeRead t h s := rfl
theorem exec_ptpConfig (t : Nat) (h : CmdHdr) (recs : List SetRec) :
    exec (.ptpConfig t h recs) s = execPtpConfig t h recs s := rfl
theorem exec_parseLoad (t : Nat) (h : CmdHdr) (pslot addr len : Nat) (prog : ChiveProg) :
    exec (.parseLoad t h pslot addr len prog) s = execParseLoad t h pslot addr len prog s := rfl
theorem exec_parseCommit (t : Nat) (h : CmdHdr) (slots : List Nat) :
    exec (.parseCommit t h slots) s = execParseCommit t h slots s := rfl
theorem exec_parseConfig (t : Nat) (h : CmdHdr) (recs : List SetRec) :
    exec (.parseConfig t h recs) s = execParseConfig t h recs s := rfl
theorem exec_spreadConfig (t : Nat) (h : CmdHdr) (spec : SpreadSpec) :
    exec (.spreadConfig t h spec) s = execSpreadConfig t h spec s := rfl
theorem exec_patternLoad (t : Nat) (h : CmdHdr) (setId addr len : Nat) (fromL2 : Bool) (pats : List Pattern) :
    exec (.patternLoad t h setId addr len fromL2 pats) s = execPatternLoad t h setId addr len fromL2 pats s := rfl
theorem exec_classConfig (t : Nat) (h : CmdHdr) (recs : List SetRec) :
    exec (.classConfig t h recs) s = execClassConfig t h recs s := rfl
theorem exec_ruleWrite (t : Nat) (h : CmdHdr) (pipe : Nat) (rows : List (Nat × RuleRow)) (clears : List Nat) :
    exec (.ruleWrite t h pipe rows clears) s = execRuleWrite t h pipe rows clears s := rfl
theorem exec_ruleRead (t : Nat) (h : CmdHdr) (pipe start max : Nat) :
    exec (.ruleRead t h pipe start max) s = execRuleRead t h pipe start max s := rfl
theorem exec_prefixAdd (t : Nat) (h : CmdHdr) (v6 : Bool) (len cls : Nat) (pfx : BitVec 128) :
    exec (.prefixAdd t h v6 len cls pfx) s = execPrefixAdd t h v6 len cls pfx s := rfl
theorem exec_prefixDel (t : Nat) (h : CmdHdr) (v6 : Bool) (len : Nat) (pfx : BitVec 128) :
    exec (.prefixDel t h v6 len pfx) s = execPrefixDel t h v6 len pfx s := rfl
theorem exec_prefixRead (t : Nat) (h : CmdHdr) (v6 : Bool) (level node start max : Nat) :
    exec (.prefixRead t h v6 level node start max) s = execPrefixRead t h v6 level node start max s := rfl
theorem exec_macStaticAdd (t : Nat) (h : CmdHdr) (mif vid : Nat) (mac : BitVec 48) :
    exec (.macStaticAdd t h mif vid mac) s = execMacStaticAdd t h mif vid mac s := rfl
theorem exec_macStaticRemove (t : Nat) (h : CmdHdr) (vid : Nat) (mac : BitVec 48) :
    exec (.macStaticRemove t h vid mac) s = execMacStaticRemove t h vid mac s := rfl
theorem exec_macRead (t : Nat) (h : CmdHdr) (start max : Nat) :
    exec (.macRead t h start max) s = execMacRead t h start max s := rfl
theorem exec_macFlush (t : Nat) (h : CmdHdr) (mif vid : Nat) :
    exec (.macFlush t h mif vid) s = execMacFlush t h mif vid s := rfl
theorem exec_flowDelete (t : Nat) (h : CmdHdr) (pipe : Nat) (key : FlowKey) (raced : Bool) :
    exec (.flowDelete t h pipe key raced) s = execFlowDelete t h pipe key raced s := rfl
theorem exec_flowRead (t : Nat) (h : CmdHdr) (pipe : Nat) (key : FlowKey) :
    exec (.flowRead t h pipe key) s = execFlowRead t h pipe key s := rfl
theorem exec_flowTableConfig (t : Nat) (h : CmdHdr) (recs : List SetRec) :
    exec (.flowTableConfig t h recs) s = execFlowTableConfig t h recs s := rfl
theorem exec_egressConfig (t : Nat) (h : CmdHdr) (recs : List SetRec) :
    exec (.egressConfig t h recs) s = execEgressConfig t h recs s := rfl
theorem exec_policerConfig (t : Nat) (h : CmdHdr) (recs : List SetRec) :
    exec (.policerConfig t h recs) s = execPolicerConfig t h recs s := rfl
theorem exec_gateListSet (t : Nat) (h : CmdHdr) (ifc base cycle : Nat) (entries : List (Byte × Nat)) :
    exec (.gateListSet t h ifc base cycle entries) s = execGateListSet t h ifc base cycle entries s := rfl
theorem exec_gateListRemove (t : Nat) (h : CmdHdr) (ifc : Nat) :
    exec (.gateListRemove t h ifc) s = execGateListRemove t h ifc s := rfl
theorem exec_queueStats (t : Nat) (h : CmdHdr) (ifc : Nat) :
    exec (.queueStats t h ifc) s = execQueueStats t h ifc s := rfl
theorem exec_queueStatsClear (t : Nat) (h : CmdHdr) (ifc : Nat) :
    exec (.queueStatsClear t h ifc) s = execQueueStatsClear t h ifc s := rfl
theorem exec_baselineCreate (t : Nat) (h : CmdHdr) (bl : Nat) (spec : BaselineSpec) :
    exec (.baselineCreate t h bl spec) s = execBaselineCreate t h bl spec s := rfl
theorem exec_baselineChange (t : Nat) (h : CmdHdr) (bl : Nat) (spec : BaselineSpec) :
    exec (.baselineChange t h bl spec) s = execBaselineChange t h bl spec s := rfl
theorem exec_baselineDelete (t : Nat) (h : CmdHdr) (bl : Nat) :
    exec (.baselineDelete t h bl) s = execBaselineDelete t h bl s := rfl
theorem exec_baselineRead (t : Nat) (h : CmdHdr) (bl : Nat) :
    exec (.baselineRead t h bl) s = execBaselineRead t h bl s := rfl
theorem exec_ftableCreate (t : Nat) (h : CmdHdr) (table : Nat) (spec : TableSpec) :
    exec (.ftableCreate t h table spec) s = execFtableCreate t h table spec s := rfl
theorem exec_ftableDestroy (t : Nat) (h : CmdHdr) (table : Nat) :
    exec (.ftableDestroy t h table) s = execFtableDestroy t h table s := rfl
theorem exec_ftableQuery (t : Nat) (h : CmdHdr) (table : Nat) :
    exec (.ftableQuery t h table) s = execFtableQuery t h table s := rfl
theorem exec_generationStage (t : Nat) (h : CmdHdr) (table g log2Buckets base n : Nat) :
    exec (.generationStage t h table g log2Buckets base n) s = execGenerationStage t h table g log2Buckets base n s := rfl
theorem exec_generationSeal (t : Nat) (h : CmdHdr) (table g : Nat) :
    exec (.generationSeal t h table g) s = execGenerationSeal t h table g s := rfl
theorem exec_generationCommit (t : Nat) (h : CmdHdr) (pairs : List (Nat × Nat)) :
    exec (.generationCommit t h pairs) s = execGenerationCommit t h pairs s := rfl
theorem exec_generationCommitBind (t : Nat) (h : CmdHdr) (pairs : List (Nat × Nat)) :
    exec (.generationCommitBind t h pairs) s = execGenerationCommitBind t h pairs s := rfl
theorem exec_generationDrop (t : Nat) (h : CmdHdr) (table g : Nat) :
    exec (.generationDrop t h table g) s = execGenerationDrop t h table g s := rfl
theorem exec_modelStage (t : Nat) (h : CmdHdr) (domain handle cAddr cLen : Nat) (bindings : List (List Nat)) :
    exec (.modelStage t h domain handle cAddr cLen bindings) s = execModelStage t h domain handle cAddr cLen bindings s := rfl
theorem exec_modelRemove (t : Nat) (h : CmdHdr) (domain handle : Nat) :
    exec (.modelRemove t h domain handle) s = execModelRemove t h domain handle s := rfl
theorem exec_modelAbort (t : Nat) (h : CmdHdr) (domain : Nat) :
    exec (.modelAbort t h domain) s = execModelAbort t h domain s := rfl
theorem exec_modelCommit (t : Nat) (h : CmdHdr) (domain : Nat) :
    exec (.modelCommit t h domain) s = execModelCommit t h domain s := rfl
theorem exec_modelCommitWait (t : Nat) (h : CmdHdr) (domain : Nat) :
    exec (.modelCommitWait t h domain) s = execModelCommitWait t h domain s := rfl
theorem exec_modelQuery (t : Nat) (h : CmdHdr) (domain start max : Nat) :
    exec (.modelQuery t h domain start max) s = execModelQuery t h domain start max s := rfl
theorem exec_kernelLoad (t : Nat) (h : CmdHdr) (handle addr len : Nat) :
    exec (.kernelLoad t h handle addr len) s = execKernelLoad t h handle addr len s := rfl
theorem exec_kernelUnload (t : Nat) (h : CmdHdr) (handle : Nat) :
    exec (.kernelUnload t h handle) s = execKernelUnload t h handle s := rfl
theorem exec_kernelLaunch (t : Nat) (h : CmdHdr) (d : LaunchDesc) :
    exec (.kernelLaunch t h d) s = execKernelLaunch t h d s := rfl
theorem exec_memConfig (t : Nat) (h : CmdHdr) (recs : List SetRec) :
    exec (.memConfig t h recs) s = execMemConfig t h recs s := rfl
theorem exec_memRetire (t : Nat) (h : CmdHdr) (addr : Nat) :
    exec (.memRetire t h addr) s = execMemRetire t h addr s := rfl
theorem exec_fabricConfig (t : Nat) (h : CmdHdr) (recs : List SetRec) :
    exec (.fabricConfig t h recs) s = execFabricConfig t h recs s := rfl
theorem exec_fabricLeave (t : Nat) (h : CmdHdr) :
    exec (.fabricLeave t h) s = execFabricLeave t h s := rfl
theorem exec_fabricRelease (t : Nat) (h : CmdHdr) (serial : Nat) :
    exec (.fabricRelease t h serial) s = execFabricRelease t h serial s := rfl
theorem exec_fabricWatchAdd (t : Nat) (h : CmdHdr) (addr : Nat) :
    exec (.fabricWatchAdd t h addr) s = execFabricWatchAdd t h addr s := rfl
theorem exec_fabricWatchRemove (t : Nat) (h : CmdHdr) (addr : Nat) :
    exec (.fabricWatchRemove t h addr) s = execFabricWatchRemove t h addr s := rfl
theorem exec_fabricStatus (t : Nat) (h : CmdHdr) (start max : Nat) :
    exec (.fabricStatus t h start max) s = execFabricStatus t h start max s := rfl
theorem exec_counterRead (t : Nat) (h : CmdHdr) (ids : List CounterId) :
    exec (.counterRead t h ids) s = execCounterRead t h ids s := rfl
theorem exec_counterReadClear (t : Nat) (h : CmdHdr) (ids : List CounterId) :
    exec (.counterReadClear t h ids) s = execCounterReadClear t h ids s := rfl
theorem exec_rosemaryRead (t : Nat) (h : CmdHdr) (start max : Nat) :
    exec (.rosemaryRead t h start max) s = execRosemaryRead t h start max s := rfl
theorem exec_rosemaryFreeze (t : Nat) (h : CmdHdr) :
    exec (.rosemaryFreeze t h) s = execRosemaryFreeze t h s := rfl
theorem exec_rosemaryUnfreeze (t : Nat) (h : CmdHdr) :
    exec (.rosemaryUnfreeze t h) s = execRosemaryUnfreeze t h s := rfl
theorem exec_rosemaryClear (t : Nat) (h : CmdHdr) (upto : Nat) :
    exec (.rosemaryClear t h upto) s = execRosemaryClear t h upto s := rfl
theorem exec_traceConfig (t : Nat) (h : CmdHdr) (cluster ring mode post : Nat) (trig : W64) :
    exec (.traceConfig t h cluster ring mode post trig) s = execTraceConfig t h cluster ring mode post trig s := rfl
theorem exec_traceMarkBegin (t : Nat) (h : CmdHdr) (cluster mark : Nat) :
    exec (.traceMarkBegin t h cluster mark) s = execTraceMarkBegin t h cluster mark s := rfl
theorem exec_traceMarkEnd (t : Nat) (h : CmdHdr) (cluster mark : Nat) :
    exec (.traceMarkEnd t h cluster mark) s = execTraceMarkEnd t h cluster mark s := rfl
theorem exec_waitforRead (t : Nat) (h : CmdHdr) (start max : Nat) :
    exec (.waitforRead t h start max) s = execWaitforRead t h start max s := rfl
theorem exec_quiesce (t : Nat) (h : CmdHdr) :
    exec (.quiesce t h) s = execQuiesce t h s := rfl
theorem exec_quiesceRelease (t : Nat) (h : CmdHdr) :
    exec (.quiesceRelease t h) s = execQuiesceRelease t h s := rfl
theorem exec_globalStop (t : Nat) (h : CmdHdr) :
    exec (.globalStop t h) s = execGlobalStop t h s := rfl
theorem exec_globalResume (t : Nat) (h : CmdHdr) :
    exec (.globalResume t h) s = execGlobalResume t h s := rfl
theorem exec_updateOpen (t : Nat) (h : CmdHdr) (len : Nat) :
    exec (.updateOpen t h len) s = execUpdateOpen t h len s := rfl
theorem exec_updateData (t : Nat) (h : CmdHdr) (offset : Nat) (data : List Byte) :
    exec (.updateData t h offset data) s = execUpdateData t h offset data s := rfl
theorem exec_updateFinish (t : Nat) (h : CmdHdr) (sigOk : Bool) :
    exec (.updateFinish t h sigOk) s = execUpdateFinish t h sigOk s := rfl
theorem exec_updateActivate (t : Nat) (h : CmdHdr) :
    exec (.updateActivate t h) s = execUpdateActivate t h s := rfl
theorem exec_updateConfirm (t : Nat) (h : CmdHdr) :
    exec (.updateConfirm t h) s = execUpdateConfirm t h s := rfl
theorem exec_updateRollback (t : Nat) (h : CmdHdr) :
    exec (.updateRollback t h) s = execUpdateRollback t h s := rfl
theorem exec_updateAbort (t : Nat) (h : CmdHdr) :
    exec (.updateAbort t h) s = execUpdateAbort t h s := rfl
theorem exec_updateStatus (t : Nat) (h : CmdHdr) :
    exec (.updateStatus t h) s = execUpdateStatus t h s := rfl
theorem exec_attest (t : Nat) (h : CmdHdr) (nonce : List Byte) (repAddr : Nat) (sig : List Byte) :
    exec (.attest t h nonce repAddr sig) s = execAttest t h nonce repAddr sig s := rfl
theorem exec_certRead (t : Nat) (h : CmdHdr) (start max : Nat) :
    exec (.certRead t h start max) s = execCertRead t h start max s := rfl
theorem exec_sessionKeySet (t : Nat) (h : CmdHdr) (part : Nat) (kemCt : List Byte) (wrapped : BitVec 256) :
    exec (.sessionKeySet t h part kemCt wrapped) s = execSessionKeySet t h part kemCt wrapped s := rfl
theorem exec_rightsSet (t : Nat) (h : CmdHdr) (part : Nat) (rights : W16) :
    exec (.rightsSet t h part rights) s = execRightsSet t h part rights s := rfl
theorem exec_debugUnlock (t : Nat) (h : CmdHdr) (tokAddr tokLen : Nat) (sigOk : Bool) :
    exec (.debugUnlock t h tokAddr tokLen sigOk) s = execDebugUnlock t h tokAddr tokLen sigOk s := rfl
theorem exec_bootStatus (t : Nat) (h : CmdHdr) :
    exec (.bootStatus t h) s = execBootStatus t h s := rfl
theorem exec_settingsSync (t : Nat) (h : CmdHdr) :
    exec (.settingsSync t h) s = execSettingsSync t h s := rfl
theorem exec_logRead (t : Nat) (h : CmdHdr) (start max : Nat) :
    exec (.logRead t h start max) s = execLogRead t h start max s := rfl
theorem exec_commandTimeout (t : Nat) (via : Via) (seq : Nat) :
    exec (.commandTimeout t via seq) s = execCommandTimeout t via seq s := rfl
theorem exec_hello (t : Nat) (f : OuvHdr) (p : HelloPart) :
    exec (.hello t f p) s = execHello t f p s := rfl
theorem exec_helloPartExpiry (t : Nat) (ifc seq : Nat) :
    exec (.helloPartExpiry t ifc seq) s = execHelloPartExpiry t ifc seq s := rfl
theorem exec_keyFetch (t : Nat) (f : OuvHdr) :
    exec (.keyFetch t f) s = execKeyFetch t f s := rfl
theorem exec_ringWrite (t : Nat) (f : OuvHdr) (start : W32) (entries : List (List W64)) :
    exec (.ringWrite t f start entries) s = execRingWrite t f start entries s := rfl
theorem exec_doorbellProduce (t : Nat) (f : OuvHdr) (idx : W32) :
    exec (.doorbellProduce t f idx) s = execDoorbellProduce t f idx s := rfl
theorem exec_doorbellRelease (t : Nat) (f : OuvHdr) (idx : W32) :
    exec (.doorbellRelease t f idx) s = execDoorbellRelease t f idx s := rfl
theorem exec_mboxReq (t : Nat) (f : OuvHdr) (h : CmdHdr) (opcode : Nat) :
    exec (.mboxReq t f h opcode) s = execMboxReq t f h opcode s := rfl
theorem exec_winWrite (t : Nat) (f : OuvHdr) (offset : Nat) (data : List Byte) :
    exec (.winWrite t f offset data) s = execWinWrite t f offset data s := rfl
theorem exec_winRead (t : Nat) (f : OuvHdr) (offset len : Nat) :
    exec (.winRead t f offset len) s = execWinRead t f offset len s := rfl
theorem exec_flowTableLockSet (t : Nat) (f : OuvHdr) (pipe : Nat) :
    exec (.flowTableLockSet t f pipe) s = execFlowTableLockSet t f pipe s := rfl
theorem exec_flowTableLockClear (t : Nat) (f : OuvHdr) (pipe : Nat) :
    exec (.flowTableLockClear t f pipe) s = execFlowTableLockClear t f pipe s := rfl
theorem exec_hostClose (t : Nat) (f : OuvHdr) (status : Nat) :
    exec (.hostClose t f status) s = execHostClose t f status s := rfl
theorem exec_sessionIdleTimeout (t : Nat) (sid : Nat) :
    exec (.sessionIdleTimeout t sid) s = execSessionIdleTimeout t sid s := rfl
theorem exec_ackSend (t : Nat) (sid : Nat) :
    exec (.ackSend t sid) s = execAckSend t sid s := rfl
theorem exec_creditAck (t : Nat) (sid ring : Nat) :
    exec (.creditAck t sid ring) s = execCreditAck t sid ring s := rfl
theorem exec_ringPush (t : Nat) (ring : Nat) :
    exec (.ringPush t ring) s = execRingPush t ring s := rfl
theorem exec_contextFetch (t : Nat) (ring : Nat) (check : WordCheck) :
    exec (.contextFetch t ring check) s = execContextFetch t ring check s := rfl
theorem exec_requestAdmit (t : Nat) (ring : Nat) :
    exec (.requestAdmit t ring) s = execRequestAdmit t ring s := rfl
theorem exec_slotWaitExpiry (t : Nat) (ring : Nat) :
    exec (.slotWaitExpiry t ring) s = execSlotWaitExpiry t ring s := rfl
theorem exec_fenceEntry (t : Nat) (ring : Nat) :
    exec (.fenceEntry t ring) s = execFenceEntry t ring s := rfl
theorem exec_fenceComplete (t : Nat) (ring : Nat) :
    exec (.fenceComplete t ring) s = execFenceComplete t ring s := rfl
theorem exec_nopEntry (t : Nat) (ring : Nat) :
    exec (.nopEntry t ring) s = execNopEntry t ring s := rfl
theorem exec_commandEntry (t : Nat) (ring : Nat) :
    exec (.commandEntry t ring) s = execCommandEntry t ring s := rfl
theorem exec_ringFullStallExpiry (t : Nat) (ring : Nat) :
    exec (.ringFullStallExpiry t ring) s = execRingFullStallExpiry t ring s := rfl
theorem exec_frameReceive (t : Nat) (ifc : Nat) (bytes : List Byte) (fcsOk : Bool) (sec : MacsecIn) :
    exec (.frameReceive t ifc bytes fcsOk sec) s = execFrameReceive t ifc bytes fcsOk sec s := rfl
theorem exec_pfcReceive (t : Nat) (ifc : Nat) (quanta : List (Nat × Nat)) :
    exec (.pfcReceive t ifc quanta) s = execPfcReceive t ifc quanta s := rfl
theorem exec_arpNdEcho (t : Nat) (ifc : Nat) (request : List Byte) :
    exec (.arpNdEcho t ifc request) s = execArpNdEcho t ifc request s := rfl
theorem exec_chiveParse (t : Nat) (frame group : Nat) (fault : Option Nat) :
    exec (.chiveParse t frame group fault) s = execChiveParse t frame group fault s := rfl
theorem exec_chiveGroupRewrite (t : Nat) (group : Nat) :
    exec (.chiveGroupRewrite t group) s = execChiveGroupRewrite t group s := rfl
theorem exec_classify (t : Nat) (frame : Nat) (r : ClassReads) :
    exec (.classify t frame r) s = execClassify t frame r s := rfl
theorem exec_flowMissComplete (t : Nat) (frame : Nat) :
    exec (.flowMissComplete t frame) s = execFlowMissComplete t frame s := rfl
theorem exec_reverseLookupDone (t : Nat) (slot : Nat) :
    exec (.reverseLookupDone t slot) s = execReverseLookupDone t slot s := rfl
theorem exec_packetModelWalk (t : Nat) (frame core : Nat) (check : WordCheck) :
    exec (.packetModelWalk t frame core check) s = execPacketModelWalk t frame core check s := rfl
theorem exec_pmWaitExpiry (t : Nat) (frame : Nat) :
    exec (.pmWaitExpiry t frame) s = execPmWaitExpiry t frame s := rfl
theorem exec_patternScanStart (t : Nat) (engine : Nat) :
    exec (.patternScanStart t engine) s = execPatternScanStart t engine s := rfl
theorem exec_patternScanEnd (t : Nat) (engine : Nat) (fault : Bool) :
    exec (.patternScanEnd t engine fault) s = execPatternScanEnd t engine fault s := rfl
theorem exec_egressDecision (t : Nat) (frame : Nat) (macBad : Option Nat) :
    exec (.egressDecision t frame macBad) s = execEgressDecision t frame macBad s := rfl
theorem exec_egHoldExpiry (t : Nat) (frame : Nat) :
    exec (.egHoldExpiry t frame) s = execEgHoldExpiry t frame s := rfl
theorem exec_transmitSelect (t : Nat) (ifc : Nat) :
    exec (.transmitSelect t ifc) s = execTransmitSelect t ifc s := rfl
theorem exec_gateEntryAdvance (t : Nat) (ifc : Nat) :
    exec (.gateEntryAdvance t ifc) s = execGateEntryAdvance t ifc s := rfl
theorem exec_gateListStart (t : Nat) (ifc : Nat) :
    exec (.gateListStart t ifc) s = execGateListStart t ifc s := rfl
theorem exec_laneFail (t : Nat) (port : Nat) (lane : Nat) :
    exec (.laneFail t port lane) s = execLaneFail t port lane s := rfl
theorem exec_fallbackTimeout (t : Nat) (port : Nat) :
    exec (.fallbackTimeout t port) s = execFallbackTimeout t port s := rfl
theorem exec_linkUp (t : Nat) (ifc : Nat) :
    exec (.linkUp t ifc) s = execLinkUp t ifc s := rfl
theorem exec_linkDown (t : Nat) (ifc : Nat) :
    exec (.linkDown t ifc) s = execLinkDown t ifc s := rfl
theorem exec_bypassLinkTimeout (t : Nat) :
    exec (.bypassLinkTimeout t) s = execBypassLinkTimeout t s := rfl
theorem exec_bypassRetryExpiry (t : Nat) :
    exec (.bypassRetryExpiry t) s = execBypassRetryExpiry t s := rfl
theorem exec_bypassHoldExpiry (t : Nat) :
    exec (.bypassHoldExpiry t) s = execBypassHoldExpiry t s := rfl
theorem exec_drainComplete (t : Nat) (port : Nat) :
    exec (.drainComplete t port) s = execDrainComplete t port s := rfl
theorem exec_drainTimeout (t : Nat) (port : Nat) :
    exec (.drainTimeout t port) s = execDrainTimeout t port s := rfl
theorem exec_ptpMessageReceive (t : Nat) (m : PtpMsg) :
    exec (.ptpMessageReceive t m) s = execPtpMessageReceive t m s := rfl
theorem exec_ppsInEdge (t : Nat) (highNs : Nat) :
    exec (.ppsInEdge t highNs) s = execPpsInEdge t highNs s := rfl
theorem exec_ppsOutPulse (t : Nat) :
    exec (.ppsOutPulse t) s = execPpsOutPulse t s := rfl
theorem exec_bfdReceive (t : Nat) (p : BfdPkt) :
    exec (.bfdReceive t p) s = execBfdReceive t p s := rfl
theorem exec_bfdTxTimer (t : Nat) (ifc sess : Nat) :
    exec (.bfdTxTimer t ifc sess) s = execBfdTxTimer t ifc sess s := rfl
theorem exec_bfdDetectTimeout (t : Nat) (ifc sess : Nat) :
    exec (.bfdDetectTimeout t ifc sess) s = execBfdDetectTimeout t ifc sess s := rfl
theorem exec_slotRunning (t : Nat) (slot : Nat) :
    exec (.slotRunning t slot) s = execSlotRunning t slot s := rfl
theorem exec_lookupJoinHold (t : Nat) (home : Nat) :
    exec (.lookupJoinHold t home) s = execLookupJoinHold t home s := rfl
theorem exec_localLookupDone (t : Nat) (fetch : Nat) (check : WordCheck) :
    exec (.localLookupDone t fetch check) s = execLocalLookupDone t fetch check s := rfl
theorem exec_feLockRetry (t : Nat) (fetch : Nat) :
    exec (.feLockRetry t fetch) s = execFeLockRetry t fetch s := rfl
theorem exec_fetchEndTick (t : Nat) (fetch : Nat) :
    exec (.fetchEndTick t fetch) s = execFetchEndTick t fetch s := rfl
theorem exec_walkComplete (t : Nat) (core walk : Nat) (check : WordCheck) :
    exec (.walkComplete t core walk check) s = execWalkComplete t core walk check s := rfl
theorem exec_shardRecopyDone (t : Nat) (core domain handle : Nat) (check : WordCheck) :
    exec (.shardRecopyDone t core domain handle check) s = execShardRecopyDone t core domain handle check s := rfl
theorem exec_deadlineCutoff (t : Nat) (slot : Nat) :
    exec (.deadlineCutoff t slot) s = execDeadlineCutoff t slot s := rfl
theorem exec_reduceGroupOpen (t : Nat) (core ctx op len expected closeTick : Nat) (dest : Nat × Nat) :
    exec (.reduceGroupOpen t core ctx op len expected closeTick dest) s = execReduceGroupOpen t core ctx op len expected closeTick dest s := rfl
theorem exec_reduceContribution (t : Nat) (cluster group : Nat) (data : Option (List W32)) :
    exec (.reduceContribution t cluster group data) s = execReduceContribution t cluster group data s := rfl
theorem exec_reduceCloseTick (t : Nat) (cluster group : Nat) :
    exec (.reduceCloseTick t cluster group) s = execReduceCloseTick t cluster group s := rfl
theorem exec_kernelStart (t : Nat) (core : Nat) :
    exec (.kernelStart t core) s = execKernelStart t core s := rfl
theorem exec_kernelImageLoadDone (t : Nat) (core kernel : Nat) (check : WordCheck) :
    exec (.kernelImageLoadDone t core kernel check) s = execKernelImageLoadDone t core kernel check s := rfl
theorem exec_kernelEnd (t : Nat) (core ctx status : Nat) :
    exec (.kernelEnd t core ctx status) s = execKernelEnd t core ctx status s := rfl
theorem exec_kernelMaxRunExpiry (t : Nat) (core ctx : Nat) :
    exec (.kernelMaxRunExpiry t core ctx) s = execKernelMaxRunExpiry t core ctx s := rfl
theorem exec_vectorInstruction (t : Nat) (core ctx : Nat) (fmt : VFmt) (op : VOp) (sat : Bool) (dst : Nat) (a b c : List W32) :
    exec (.vectorInstruction t core ctx fmt op sat dst a b c) s = execVectorInstruction t core ctx fmt op sat dst a b c s := rfl
theorem exec_clusterStoreAtomic (t : Nat) (core ctx dst addr : Nat) (wide : Bool) (op : AtomicOp) (arg : Nat) :
    exec (.clusterStoreAtomic t core ctx dst addr wide op arg) s = execClusterStoreAtomic t core ctx dst addr wide op arg s := rfl
theorem exec_clusterFence (t : Nat) (core ctx : Nat) (acc : List KAccess) :
    exec (.clusterFence t core ctx acc) s = execClusterFence t core ctx acc s := rfl
theorem exec_kernelMarkInsn (t : Nat) (core ctx : Nat) (begin : Bool) (mark : Nat) :
    exec (.kernelMarkInsn t core ctx begin mark) s = execKernelMarkInsn t core ctx begin mark s := rfl
theorem exec_dmaPost (t : Nat) (core ctx addr : Nat) :
    exec (.dmaPost t core ctx addr) s = execDmaPost t core ctx addr s := rfl
theorem exec_dmaComplete (t : Nat) (core ctx : Nat) :
    exec (.dmaComplete t core ctx) s = execDmaComplete t core ctx s := rfl
theorem exec_matrixJobIssue (t : Nat) (core ctx array addr : Nat) :
    exec (.matrixJobIssue t core ctx array addr) s = execMatrixJobIssue t core ctx array addr s := rfl
theorem exec_matrixJobEnd (t : Nat) (core array : Nat) (accFault : Bool) :
    exec (.matrixJobEnd t core array accFault) s = execMatrixJobEnd t core array accFault s := rfl
theorem exec_reassignGraceExpiry (t : Nat) (cluster : Nat) :
    exec (.reassignGraceExpiry t cluster) s = execReassignGraceExpiry t cluster s := rfl
theorem exec_clusterResetDone (t : Nat) (cluster : Nat) :
    exec (.clusterResetDone t cluster) s = execClusterResetDone t cluster s := rfl
theorem exec_rsUpdateDone (t : Nat) (pipe recIdx : Nat) (jobFault : Bool) :
    exec (.rsUpdateDone t pipe recIdx jobFault) s = execRsUpdateDone t pipe recIdx jobFault s := rfl
theorem exec_rsUpdateTimeout (t : Nat) (pipe recIdx : Nat) :
    exec (.rsUpdateTimeout t pipe recIdx) s = execRsUpdateTimeout t pipe recIdx s := rfl
theorem exec_baselineWindowClose (t : Nat) (bl : Nat) :
    exec (.baselineWindowClose t bl) s = execBaselineWindowClose t bl s := rfl
theorem exec_generationRetire (t : Nat) (table g : Nat) :
    exec (.generationRetire t table g) s = execGenerationRetire t table g s := rfl
theorem exec_generationDropDone (t : Nat) (table g : Nat) :
    exec (.generationDropDone t table g) s = execGenerationDropDone t table g s := rfl
theorem exec_epochRetire (t : Nat) (domain : Nat) :
    exec (.epochRetire t domain) s = execEpochRetire t domain s := rfl
theorem exec_modelCommitFlip (t : Nat) (domain : Nat) :
    exec (.modelCommitFlip t domain) s = execModelCommitFlip t domain s := rfl
theorem exec_barrierComplete (t : Nat) (part idx : Nat) :
    exec (.barrierComplete t part idx) s = execBarrierComplete t part idx s := rfl
theorem exec_quiesceDone (t : Nat) :
    exec (.quiesceDone t) s = execQuiesceDone t s := rfl
theorem exec_heartbeat (t : Nat) (f : FabHdr) :
    exec (.heartbeat t f) s = execHeartbeat t f s := rfl
theorem exec_join (t : Nat) (f : FabHdr) (m : JoinMsg) :
    exec (.join t f m) s = execJoin t f m s := rfl
theorem exec_joinReply (t : Nat) (f : FabHdr) (status addr coordIp : Nat) :
    exec (.joinReply t f status addr coordIp) s = execJoinReply t f status addr coordIp s := rfl
theorem exec_view (t : Nat) (f : FabHdr) (changes : List ViewChange) :
    exec (.view t f changes) s = execView t f changes s := rfl
theorem exec_elect (t : Nat) (f : FabHdr) (serial prio term highView : Nat) :
    exec (.elect t f serial prio term highView) s = execElect t f serial prio term highView s := rfl
theorem exec_lookup (t : Nat) (f : FabHdr) (msgs : List LookupMsg) :
    exec (.lookup t f msgs) s = execLookup t f msgs s := rfl
theorem exec_lookupReply (t : Nat) (f : FabHdr) (msgs : List ReplyMsg) :
    exec (.lookupReply t f msgs) s = execLookupReply t f msgs s := rfl
theorem exec_put (t : Nat) (f : FabHdr) (msgs : List PutMsg) :
    exec (.put t f msgs) s = execPut t f msgs s := rfl
theorem exec_putAck (t : Nat) (f : FabHdr) (acked : Nat) (statuses : List Nat) :
    exec (.putAck t f acked statuses) s = execPutAck t f acked statuses s := rfl
theorem exec_fabricPost (t : Nat) (core ctx ring : Nat) (entry : List W64) :
    exec (.fabricPost t core ctx ring entry) s = execFabricPost t core ctx ring entry s := rfl
theorem exec_heartbeatSend (t : Nat) :
    exec (.heartbeatSend t) s = execHeartbeatSend t s := rfl
theorem exec_electSend (t : Nat) :
    exec (.electSend t) s = execElectSend t s := rfl
theorem exec_joinRetry (t : Nat) :
    exec (.joinRetry t) s = execJoinRetry t s := rfl
theorem exec_peerLossTimeout (t : Nat) (peer : Nat) :
    exec (.peerLossTimeout t peer) s = execPeerLossTimeout t peer s := rfl
theorem exec_lostPeerProbe (t : Nat) (peer : Nat) :
    exec (.lostPeerProbe t peer) s = execLostPeerProbe t peer s := rfl
theorem exec_lookupRto (t : Nat) (tag : Nat) :
    exec (.lookupRto t tag) s = execLookupRto t tag s := rfl
theorem exec_putRto (t : Nat) (fseq : Nat) :
    exec (.putRto t fseq) s = execPutRto t fseq s := rfl
theorem exec_channelSuspectExpiry (t : Nat) (peer channel : Nat) :
    exec (.channelSuspectExpiry t peer channel) s = execChannelSuspectExpiry t peer channel s := rfl
theorem exec_pwrgdRise (t : Nat) :
    exec (.pwrgdRise t) s = execPwrgdRise t s := rfl
theorem exec_pwrgdFall (t : Nat) :
    exec (.pwrgdFall t) s = execPwrgdFall t s := rfl
theorem exec_coldRstNFall (t lowNs : Nat) :
    exec (.coldRstNFall t lowNs) s = execColdRstNFall t lowNs s := rfl
theorem exec_coldRstNRise (t : Nat) (b : BootIn) :
    exec (.coldRstNRise t b) s = execColdRstNRise t b s := rfl
theorem exec_warmRstNFall (t lowNs : Nat) :
    exec (.warmRstNFall t lowNs) s = execWarmRstNFall t lowNs s := rfl
theorem exec_warmRstNRise (t : Nat) (b : BootIn) :
    exec (.warmRstNRise t b) s = execWarmRstNRise t b s := rfl
theorem exec_startWatchdogExpiry (t : Nat) (b : BootIn) :
    exec (.startWatchdogExpiry t b) s = execStartWatchdogExpiry t b s := rfl
theorem exec_sdRefclkLoss (t : Nat) :
    exec (.sdRefclkLoss t) s = execSdRefclkLoss t s := rfl
theorem exec_sdRefclkReturn (t : Nat) :
    exec (.sdRefclkReturn t) s = execSdRefclkReturn t s := rfl
theorem exec_sysRefclkLoss (t : Nat) :
    exec (.sysRefclkLoss t) s = execSysRefclkLoss t s := rfl
theorem exec_freezeNFall (t : Nat) :
    exec (.freezeNFall t) s = execFreezeNFall t s := rfl
theorem exec_freezeNRise (t : Nat) :
    exec (.freezeNRise t) s = execFreezeNRise t s := rfl
theorem exec_jtagInstruction (t : Nat) (boundary : Bool) (scope : Nat) :
    exec (.jtagInstruction t boundary scope) s = execJtagInstruction t boundary scope s := rfl
theorem exec_smbPwrCapWrite (t : Nat) (value : Nat) :
    exec (.smbPwrCapWrite t value) s = execSmbPwrCapWrite t value s := rfl
theorem exec_smbAlertStatusClear (t : Nat) (ones : Byte) :
    exec (.smbAlertStatusClear t ones) s = execSmbAlertStatusClear t ones s := rfl
theorem exec_smbWriteRefused (t : Nat) (offset value : Nat) :
    exec (.smbWriteRefused t offset value) s = execSmbWriteRefused t offset value s := rfl
theorem exec_clusterThermalStep (t : Nat) (cluster : Nat) (tempC : Int) :
    exec (.clusterThermalStep t cluster tempC) s = execClusterThermalStep t cluster tempC s := rfl
theorem exec_xDieHot (t : Nat) (tempC : Int) :
    exec (.xDieHot t tempC) s = execXDieHot t tempC s := rfl
theorem exec_thermtrip (t : Nat) :
    exec (.thermtrip t) s = execThermtrip t s := rfl
theorem exec_voltageDroop (t : Nat) (cluster : Nat) :
    exec (.voltageDroop t cluster) s = execVoltageDroop t cluster s := rfl
theorem exec_powerSample (t : Nat) (watts : Nat) (tjMax : Int) :
    exec (.powerSample t watts tjMax) s = execPowerSample t watts tjMax s := rfl
theorem exec_ceilingUpdate (t : Nat) :
    exec (.ceilingUpdate t) s = execCeilingUpdate t s := rfl
theorem exec_timeBeacon (t : Nat) (island elapsed : Nat) :
    exec (.timeBeacon t island elapsed) s = execTimeBeacon t island elapsed s := rfl
theorem exec_flowAgingPass (t : Nat) (pipe entry : Nat) (raced : Bool) :
    exec (.flowAgingPass t pipe entry raced) s = execFlowAgingPass t pipe entry raced s := rfl
theorem exec_macAgingPass (t : Nat) (entry : Nat) (raced : Bool) :
    exec (.macAgingPass t entry raced) s = execMacAgingPass t entry raced s := rfl
theorem exec_macPinRelease (t : Nat) (entry : Nat) :
    exec (.macPinRelease t entry) s = execMacPinRelease t entry s := rfl
theorem exec_ruleScrubPass (t : Nat) (pipe : Nat) (bad : List Nat) :
    exec (.ruleScrubPass t pipe bad) s = execRuleScrubPass t pipe bad s := rfl
theorem exec_tableEntryRewrite (t : Nat) (table idx : Nat) :
    exec (.tableEntryRewrite t table idx) s = execTableEntryRewrite t table idx s := rfl
theorem exec_patrolScrub (t : Nat) (line : Nat) (check : WordCheck) :
    exec (.patrolScrub t line check) s = execPatrolScrub t line check s := rfl
theorem exec_sramScrub (t : Nat) (kind : SramKind) (unit row : Nat) (check : WordCheck) :
    exec (.sramScrub t kind unit row check) s = execSramScrub t kind unit row check s := rfl
theorem exec_mr4Poll (t : Nat) (region channel rate : Nat) :
    exec (.mr4Poll t region channel rate) s = execMr4Poll t region channel rate s := rfl
theorem exec_oscillatorTrack (t : Nat) (region channel : Nat) :
    exec (.oscillatorTrack t region channel) s = execOscillatorTrack t region channel s := rfl
theorem exec_pageRetire (t : Nat) (addr : Nat) :
    exec (.pageRetire t addr) s = execPageRetire t addr s := rfl
theorem exec_linkFlitReceive (t : Nat) (link lane : Nat) (check : WordCheck) (flit : Flit) (attempt : Nat) :
    exec (.linkFlitReceive t link lane check flit attempt) s = execLinkFlitReceive t link lane check flit attempt s := rfl
theorem exec_dieSilentTimeout (t : Nat) (die : Nat) :
    exec (.dieSilentTimeout t die) s = execDieSilentTimeout t die s := rfl
theorem exec_devResetRunClear (t : Nat) :
    exec (.devResetRunClear t) s = execDevResetRunClear t s := rfl
theorem exec_isainHeartbeatMiss (t : Nat) (core : Nat) :
    exec (.isainHeartbeatMiss t core) s = execIsainHeartbeatMiss t core s := rfl
theorem exec_isainRestartDone (t : Nat) (undo : List (Via × Nat)) :
    exec (.isainRestartDone t undo) s = execIsainRestartDone t undo s := rfl
theorem exec_hungSlotScan (t : Nat) :
    exec (.hungSlotScan t) s = execHungSlotScan t s := rfl
theorem exec_reinitRevoke (t : Nat) (part : Nat) :
    exec (.reinitRevoke t part) s = execReinitRevoke t part s := rfl
theorem exec_orphanSlotFree (t : Nat) (slot : Nat) :
    exec (.orphanSlotFree t slot) s = execOrphanSlotFree t slot s := rfl
theorem exec_spareTest (t : Nat) (core : Nat) (passed : Bool) :
    exec (.spareTest t core passed) s = execSpareTest t core passed s := rfl
theorem exec_coreRetire (t : Nat) (core : Nat) (spareFails : List Nat) :
    exec (.coreRetire t core spareFails) s = execCoreRetire t core spareFails s := rfl
theorem exec_settingsAppend (t : Nat) (len : Nat) :
    exec (.settingsAppend t len) s = execSettingsAppend t len s := rfl
theorem exec_updateLockExpiry (t : Nat) :
    exec (.updateLockExpiry t) s = execUpdateLockExpiry t s := rfl
theorem exec_rosemaryRecord (t : Nat) (kind unit : Nat) (data : List W64) :
    exec (.rosemaryRecord t kind unit data) s = execRosemaryRecord t kind unit data s := rfl
theorem exec_rosemaryLogCopy (t : Nat) :
    exec (.rosemaryLogCopy t) s = execRosemaryLogCopy t s := rfl
theorem exec_dillDrain (t : Nat) (cluster : Nat) :
    exec (.dillDrain t cluster) s = execDillDrain t cluster s := rfl
theorem exec_pfcPauseExpiry (t : Nat) (ifc prio : Nat) :
    exec (.pfcPauseExpiry t ifc prio) s = execPfcPauseExpiry t ifc prio s := rfl
theorem exec_flowLearnComplete (t : Nat) (pipe recIdx : Nat) :
    exec (.flowLearnComplete t pipe recIdx) s = execFlowLearnComplete t pipe recIdx s := rfl
theorem exec_deviceResetApply (t : Nat) (b : BootIn) :
    exec (.deviceResetApply t b) s = execDeviceResetApply t b s := rfl
theorem exec_wallTimeHoldover (t : Nat) :
    exec (.wallTimeHoldover t) s = execWallTimeHoldover t s := rfl

end Sys2Proof.Machine
end

