-- ==== Sys2Proof/Laws/SoundOps.lean ====
section
/-! SUPPORT. The definitions of Machine/Ops.lean keep a sound state: the queue, the fuses, memory in its
canonical form, the counters' bound and Rosemary's numbering. -/

namespace Sys2Proof.Machine

variable {q : List Instr} {f : Fuses} {s : State}

theorem State.at_sound {t : Nat} (h : Sound q f s) : Sound q f (State.at s t) := by
  unfold State.at
  repeat' first
    | (with_reducible assumption)
    | (with_reducible apply sound_mk)

theorem State.out_sound {x : Sent} (h : Sound q f s) : Sound q f (State.out x s) := by
  unfold State.out
  repeat' first
    | (with_reducible assumption)
    | (with_reducible apply sound_mk)

theorem State.fresh_sound (h : Sound q f s) : Sound q f (State.fresh s).2 := by
  unfold State.fresh
  repeat' first
    | (with_reducible assumption)
    | (dsimp +zetaDelta only)
    | (with_reducible apply sound_mk)

theorem State.countN_sound {id scope n : Nat} (h : Sound q f s) : Sound q f (s.countN id scope n) :=
  updObs_good h (aset_fits (Nat.min_le_right _ _) h.3.2) h.3.3

theorem State.count_sound {id scope : Nat} (h : Sound q f s) : Sound q f (State.count id scope s) := by
  unfold State.count
  repeat' first
    | (with_reducible assumption)
    | (with_reducible apply State.countN_sound)

theorem State.tally_sound {id : Nat} (h : Sound q f s) : Sound q f (State.tally id s) := by
  unfold State.tally
  repeat' first
    | (with_reducible assumption)
    | (with_reducible apply State.count_sound)

theorem State.recordRaw_sound {kind level unit part sev : Nat} {data : List Nat} (h : Sound q f s) :
    Sound q f (s.recordRaw kind level unit part sev data) := by
  unfold State.recordRaw
  extract_lets k w r p s'
  have hs : Sound q f s' := updObs_good h (store_good s.obs r h.3.3 h.3.2).2 (store_good s.obs r h.3.3 h.3.2).1
  split
  · exact State.tally_sound hs
  · exact hs

theorem State.record_sound {kind level : Nat} {unit part sev : Nat} {data : List (Nat × Nat)} (h : Sound q
    f s) :
    Sound q f (State.record kind level unit part sev data s) := by
  unfold State.record
  repeat' first
    | (with_reducible assumption)
    | extract_lets
    | (with_reducible refine sound_ite (fun _ => ?_) (fun _ => ?_))
    | (with_reducible apply State.tally_sound)
    | (with_reducible apply State.recordRaw_sound)
    | (refine updObs_sound ?_ rfl rfl rfl)

theorem State.recordUe_sound {w access : Nat} (h : Sound q f s) :
    Sound q f (State.recordUe w access s) := by
  unfold State.recordUe
  repeat' first
    | (with_reducible assumption)
    | extract_lets
    | (with_reducible refine sound_ite (fun _ => ?_) (fun _ => ?_))
    | (with_reducible apply State.record_sound)
    | (refine updMem_sound ?_ rfl)

theorem State.readFault_sound {w access : Nat} {f0 : WordFault} (h : Sound q f s) :
    Sound q f (State.readFault w access f0 s) := by
  unfold State.readFault
  repeat' first
    | (with_reducible assumption)
    | extract_lets
    | (with_reducible apply State.count_sound)
    | (with_reducible apply State.recordUe_sound)
    | (refine updMem_sound ?_ rfl)
    | split

theorem State.touch_sound {a n access : Nat} (h : Sound q f s) : Sound q f (State.touch a n access s) := by
  unfold State.touch
  repeat' first
    | (with_reducible assumption)
    | extract_lets
    | (with_reducible refine sound_foldl ?_ (fun _ _ _ => ?_))
    | (with_reducible apply State.readFault_sound)

theorem State.strike_sound {l : List (Nat × Nat)} {check : WordCheck} (h : Sound q f s) :
    Sound q f (State.strike l check s) := by
  unfold State.strike
  repeat' first
    | (with_reducible assumption)
    | extract_lets
    | (with_reducible refine sound_ite (fun _ => ?_) (fun _ => ?_))
    | (refine updMem_sound ?_ (by unfold Memory.hurt; split <;> rfl))
    | (with_reducible apply State.fresh_sound)
    | split

theorem State.isainWord_sound {check : WordCheck} (h : Sound q f s) :
    Sound q f (State.isainWord check s) := by
  unfold State.isainWord
  repeat' first
    | (with_reducible assumption)
    | extract_lets
    | (with_reducible apply State.touch_sound)
    | (refine updMem_sound ?_ (by unfold Memory.hurt; split <;> rfl))
    | (with_reducible apply State.fresh_sound)
    | split

theorem State.mergeRead_sound {w : Nat} (h : Sound q f s) : Sound q f (State.mergeRead w s) := by
  unfold State.mergeRead
  repeat' first
    | (with_reducible assumption)
    | extract_lets
    | (with_reducible refine sound_ite (fun _ => ?_) (fun _ => ?_))
    | (with_reducible apply State.readFault_sound)
    | (refine updMem_sound ?_ rfl)
    | split

theorem State.poke_sound {a : Nat} {bs : List Byte} (h : Sound q f s) : Sound q f (s.poke a bs) := by
  unfold State.poke
  extract_lets n s'
  have hs : Sound q f s' := sound_foldl h fun _ _ h => State.mergeRead_sound h
  refine updMem_wf hs ?_
  exact memPut_wf bs hs.3.1 (Nat.zero_le _)

theorem State.poke64_sound {a v : Nat} (h : Sound q f s) : Sound q f (State.poke64 a v s) := by
  unfold State.poke64
  repeat' first
    | (with_reducible assumption)
    | (with_reducible apply State.poke_sound)

theorem State.poke32_sound {a v : Nat} (h : Sound q f s) : Sound q f (State.poke32 a v s) := by
  unfold State.poke32
  repeat' first
    | (with_reducible assumption)
    | (with_reducible apply State.poke_sound)

theorem State.modRegion_sound {g : Nat} {f0 : Region → Region} (h : Sound q f s) :
    Sound q f (State.modRegion g f0 s) := by
  unfold State.modRegion
  repeat' first
    | (with_reducible assumption)
    | (refine updMem_sound ?_ rfl)

theorem State.modLink_sound {l : Nat} {f0 : Link → Link} (h : Sound q f s) :
    Sound q f (State.modLink l f0 s) := by
  unfold State.modLink
  repeat' first
    | (with_reducible assumption)
    | (refine updMem_sound ?_ rfl)

end Sys2Proof.Machine
end

