-- ==== Sys2Proof/Laws/SoundRingOps.lean ====
section
/-! SUPPORT. The definitions of Machine/RingOps.lean keep a sound state: the queue, the fuses, memory in its
canonical form, the counters' bound and Rosemary's numbering. -/

namespace Sys2Proof.Machine

variable {q : List Instr} {f : Fuses} {s : State}

theorem State.setRing_sound {n : Nat} {r : Ring} (h : Sound q f s) : Sound q f (State.setRing n r s) := by
  unfold State.setRing
  repeat' first
    | (with_reducible assumption)
    | (with_reducible apply updRings_sound)

theorem State.modRing_sound {n : Nat} {f0 : Ring → Ring} (h : Sound q f s) :
    Sound q f (State.modRing n f0 s) := by
  unfold State.modRing
  repeat' first
    | (with_reducible assumption)
    | (with_reducible apply State.setRing_sound)

theorem State.useCtx_sound {n : Nat} (h : Sound q f s) : Sound q f (State.useCtx n s) := by
  unfold State.useCtx
  repeat' first
    | (with_reducible assumption)
    | extract_lets
    | (with_reducible apply updRings_sound)

theorem State.missCtx_sound {n : Nat} {op : Option CtxOp} (h : Sound q f s) :
    Sound q f (State.missCtx n op s) := by
  unfold State.missCtx
  repeat' first
    | (with_reducible assumption)
    | (with_reducible apply updRings_sound)

theorem State.setSlot_sound {k : Nat} {x : Slot} (h : Sound q f s) : Sound q f (State.setSlot k x s) := by
  unfold State.setSlot
  repeat' first
    | (with_reducible assumption)
    | (with_reducible apply updRings_sound)

theorem State.modSlot_sound {k : Nat} {f0 : Slot → Slot} (h : Sound q f s) :
    Sound q f (State.modSlot k f0 s) := by
  unfold State.modSlot
  repeat' first
    | (with_reducible assumption)
    | (with_reducible apply State.setSlot_sound)

theorem State.freeSlot_sound {k : Nat} (h : Sound q f s) : Sound q f (State.freeSlot k s) := by
  unfold State.freeSlot
  repeat' first
    | (with_reducible assumption)
    | (with_reducible apply State.setSlot_sound)

theorem State.completeEntry_sound {n : Nat} {i : W32} (h : Sound q f s) :
    Sound q f (State.completeEntry n i s) := by
  unfold State.completeEntry
  repeat' first
    | (with_reducible assumption)
    | extract_lets
    | (with_reducible refine sound_foldl ?_ (fun _ _ _ => ?_))
    | (with_reducible apply State.freeSlot_sound)
    | (with_reducible apply State.modRing_sound)

theorem State.itemDone_sound {n : Nat} {item : RingItem} (h : Sound q f s) :
    Sound q f (State.itemDone n item s) := by
  unfold State.itemDone
  repeat' first
    | (with_reducible assumption)
    | extract_lets
    | (with_reducible refine sound_ite (fun _ => ?_) (fun _ => ?_))
    | (with_reducible apply State.completeEntry_sound)
    | split

theorem State.dropItem_sound {n : Nat} {item : RingItem} (h : Sound q f s) :
    Sound q f (State.dropItem n item s) := by
  unfold State.dropItem
  repeat' first
    | (with_reducible assumption)
    | extract_lets
    | (with_reducible refine sound_ite (fun _ => ?_) (fun _ => ?_))
    | (with_reducible apply State.modRing_sound)
    | (with_reducible apply State.itemDone_sound)

theorem State.putEntry_sound {n : Nat} {e : List W64} (h : Sound q f s) :
    Sound q f (State.putEntry n e s) := by
  unfold State.putEntry
  repeat' first
    | (with_reducible assumption)
    | extract_lets
    | (with_reducible refine sound_ite (fun _ => ?_) (fun _ => ?_))
    | (with_reducible apply State.poke_sound)
    | (with_reducible apply State.modRing_sound)

theorem State.putLoss_sound {n : Nat} (h : Sound q f s) : Sound q f (State.putLoss n s) := by
  unfold State.putLoss
  repeat' first
    | (with_reducible assumption)
    | extract_lets
    | (with_reducible refine sound_ite (fun _ => ?_) (fun _ => ?_))
    | (with_reducible refine sound_foldl ?_ (fun _ _ _ => ?_))
    | (with_reducible refine sound_foldl_fst ?_ (fun _ _ _ => ?_))
    | (with_reducible apply State.modRing_sound)
    | (with_reducible apply State.putEntry_sound)

theorem State.putItem_sound {n : Nat} {item : RingItem} (h : Sound q f s) :
    Sound q f (State.putItem n item s) := by
  unfold State.putItem
  repeat' first
    | (with_reducible assumption)
    | extract_lets
    | (with_reducible refine sound_foldl ?_ (fun _ _ _ => ?_))
    | (with_reducible refine sound_foldl_fst ?_ (fun _ _ _ => ?_))
    | (with_reducible apply State.putEntry_sound)

theorem State.overwrite_sound {n need x2 : Nat} (h : Sound q f s) :
    Sound q f (State.overwrite n need x2 s) := by
  induction x2 generalizing s with
  | zero =>
    rw [State.overwrite]
    repeat' first
      | (with_reducible assumption)
  | succ n ih =>
    rw [State.overwrite]
    repeat' first
      | (with_reducible assumption)
      | (with_reducible apply ih)
      | extract_lets
      | (with_reducible refine sound_ite (fun _ => ?_) (fun _ => ?_))
      | (with_reducible apply State.setRing_sound)

theorem State.itemNow_sound {n : Nat} {item : RingItem} (h : Sound q f s) :
    Sound q f (State.itemNow n item s) := by
  unfold State.itemNow
  repeat' first
    | (with_reducible assumption)
    | extract_lets
    | (with_reducible refine sound_ite (fun _ => ?_) (fun _ => ?_))
    | (with_reducible apply State.modRing_sound)
    | (with_reducible apply State.itemDone_sound)
    | (with_reducible apply State.dropItem_sound)
    | (with_reducible apply State.putLoss_sound)
    | (with_reducible apply State.putItem_sound)
    | (with_reducible apply State.overwrite_sound)

theorem State.ringItem_sound {n : Nat} {item : RingItem} (h : Sound q f s) :
    Sound q f (State.ringItem n item s) := by
  unfold State.ringItem
  repeat' first
    | (with_reducible assumption)
    | extract_lets
    | (with_reducible refine sound_ite (fun _ => ?_) (fun _ => ?_))
    | (with_reducible apply State.useCtx_sound)
    | (with_reducible apply State.missCtx_sound)
    | (with_reducible apply State.itemDone_sound)
    | (with_reducible apply State.itemNow_sound)

theorem drainOne_sound {n : Nat} {p : State × List (Nat × RingItem)} {e : Nat × RingItem} (h : Sound q f
    p.1) :
    Sound q f (drainOne n p e).1 := by
  unfold drainOne
  repeat' first
    | (with_reducible assumption)
    | extract_lets
    | (with_reducible refine sound_ite (fun _ => ?_) (fun _ => ?_))
    | (with_reducible apply State.itemDone_sound)
    | (with_reducible apply State.putItem_sound)
    | split

theorem State.drainStalled_sound {n : Nat} (h : Sound q f s) : Sound q f (State.drainStalled n s) := by
  unfold State.drainStalled
  repeat' first
    | (with_reducible assumption)
    | extract_lets
    | (with_reducible refine sound_foldl ?_ (fun _ _ _ => ?_))
    | (with_reducible refine sound_foldl_fst ?_ (fun _ _ _ => ?_))
    | (with_reducible apply State.modRing_sound)
    | (with_reducible apply State.putLoss_sound)
    | (with_reducible apply drainOne_sound)

theorem State.dropStalled_sound {n : Nat} (h : Sound q f s) : Sound q f (State.dropStalled n s) := by
  unfold State.dropStalled
  repeat' first
    | (with_reducible assumption)
    | extract_lets
    | (with_reducible refine sound_foldl ?_ (fun _ _ _ => ?_))
    | (with_reducible apply State.dropItem_sound)
    | (with_reducible apply State.modRing_sound)

theorem State.tellCredit_sound {n : Nat} (h : Sound q f s) : Sound q f (State.tellCredit n s) := by
  unfold State.tellCredit
  repeat' first
    | (with_reducible assumption)
    | extract_lets
    | (with_reducible apply updOuv_sound)

theorem State.consume_sound {n k : Nat} (h : Sound q f s) : Sound q f (State.consume n k s) := by
  unfold State.consume
  repeat' first
    | (with_reducible assumption)
    | extract_lets
    | (with_reducible apply State.tellCredit_sound)
    | (with_reducible apply State.modRing_sound)

theorem State.event_sound {part code : Nat} {data : List (Nat × Nat)} {rm : Nat} (h : Sound q f s) :
    Sound q f (State.event part code data rm s) := by
  unfold State.event
  repeat' first
    | (with_reducible assumption)
    | (with_reducible apply State.ringItem_sound)
    | (with_reducible apply State.count_sound)
    | split

theorem State.recordEvent_sound {kind level : Nat} {unit rpart sev : Nat} {rdata : List (Nat × Nat)} {part
    code : Nat} {data : List (Nat × Nat)} (h : Sound q f s) :
    Sound q f (State.recordEvent kind level unit rpart sev rdata part code data s) := by
  unfold State.recordEvent
  repeat' first
    | (with_reducible assumption)
    | extract_lets
    | (with_reducible apply State.record_sound)
    | (with_reducible apply State.event_sound)

theorem State.faultRing_sound {n : Nat} (h : Sound q f s) : Sound q f (State.faultRing n s) := by
  unfold State.faultRing
  repeat' first
    | (with_reducible assumption)
    | extract_lets
    | (with_reducible apply State.modRing_sound)
    | (with_reducible apply State.dropStalled_sound)
    | (with_reducible apply State.event_sound)

end Sys2Proof.Machine
end

