-- ==== Sys2Proof/Laws/SoundIsainOps.lean ====
section
/-! SUPPORT. The definitions of Machine/IsainOps.lean keep a sound state: the queue, the fuses, memory in its
canonical form, the counters' bound and Rosemary's numbering. -/

namespace Sys2Proof.Machine

variable {q : List Instr} {f : Fuses} {s : State}

theorem State.emit_sound {ifc len : Nat} {x : Sent} (h : Sound q f s) :
    Sound q f (State.emit ifc len x s) := by
  unfold State.emit
  repeat' first
    | (with_reducible assumption)
    | extract_lets
    | (with_reducible refine sound_ite (fun _ => ?_) (fun _ => ?_))
    | (with_reducible apply State.out_sound)
    | (with_reducible apply State.count_sound)
    | (with_reducible apply updEg_sound)

theorem State.modSession_sound {sid : Nat} {f0 : Session → Session} (h : Sound q f s) :
    Sound q f (State.modSession sid f0 s) := by
  unfold State.modSession
  repeat' first
    | (with_reducible assumption)
    | (with_reducible apply updOuv_sound)

theorem State.putOuv_sound {key : Option (BitVec 256)} {ifc : Nat} {host : BitVec 128} {sid ftype seq
    target : Nat} {status : Status} {words : List Nat} {credit : Option (Nat × W32)} (h : Sound q f s) :
    Sound q f (State.putOuv key ifc host sid ftype seq target status words credit s) := by
  unfold State.putOuv
  repeat' first
    | (with_reducible assumption)
    | extract_lets
    | (with_reducible apply State.emit_sound)

theorem State.sendFrame_sound {sid ftype target : Nat} {status : Status} {words : List Nat} (h : Sound q f
    s) :
    Sound q f (State.sendFrame sid ftype target status words s) := by
  unfold State.sendFrame
  repeat' first
    | (with_reducible assumption)
    | extract_lets
    | (with_reducible apply State.modSession_sound)
    | (with_reducible apply State.putOuv_sound)
    | split

theorem State.dropLock_sound {sid : Nat} (h : Sound q f s) : Sound q f (State.dropLock sid s) := by
  unfold State.dropLock
  repeat' first
    | (with_reducible assumption)
    | (with_reducible apply updBay_sound)

theorem State.endSession_sound {sid : Nat} (h : Sound q f s) : Sound q f (State.endSession sid s) := by
  unfold State.endSession
  repeat' first
    | (with_reducible assumption)
    | extract_lets
    | (with_reducible apply State.dropLock_sound)
    | (with_reducible apply updRings_sound)
    | (with_reducible apply updOuv_sound)

theorem State.closeSession_sound {sid : Nat} {st : Status} (h : Sound q f s) :
    Sound q f (State.closeSession sid st s) := by
  unfold State.closeSession
  repeat' first
    | (with_reducible assumption)
    | extract_lets
    | (with_reducible apply State.sendFrame_sound)
    | (with_reducible apply State.endSession_sound)

theorem State.closeWorn_sound {sid : Nat} (h : Sound q f s) : Sound q f (State.closeWorn sid s) := by
  unfold State.closeWorn
  repeat' first
    | (with_reducible assumption)
    | extract_lets
    | (with_reducible refine sound_ite (fun _ => ?_) (fun _ => ?_))
    | (with_reducible apply State.closeSession_sound)
    | split

theorem State.sendOuv_sound {sid ftype target : Nat} {status : Status} {words : List Nat} (h : Sound q f
    s) :
    Sound q f (State.sendOuv sid ftype target status words s) := by
  unfold State.sendOuv
  repeat' first
    | (with_reducible assumption)
    | extract_lets
    | (with_reducible apply State.sendFrame_sound)
    | (with_reducible apply State.closeWorn_sound)

theorem State.respond_sound {sid seq : Nat} {st : Status} {words : List Nat} (h : Sound q f s) :
    Sound q f (State.respond sid seq st words s) := by
  unfold State.respond
  repeat' first
    | (with_reducible assumption)
    | extract_lets
    | (with_reducible apply State.modSession_sound)
    | (with_reducible apply State.sendOuv_sound)

theorem State.hush_sound {h0 : CmdHdr} (h : Sound q f s) : Sound q f (State.hush h0 s) := by
  unfold State.hush
  repeat' first
    | (with_reducible assumption)
    | extract_lets
    | (with_reducible apply State.completeEntry_sound)
    | (with_reducible apply State.modSession_sound)
    | (with_reducible apply updBay_sound)
    | split

theorem State.answerRd_sound {h0 : CmdHdr} {op rd : Nat} {st : Status} {detail : Nat} {body : List Nat} (h
    : Sound q f s) :
    Sound q f (State.answerRd h0 op rd st detail body s) := by
  unfold State.answerRd
  repeat' first
    | (with_reducible assumption)
    | extract_lets
    | (with_reducible refine sound_ite (fun _ => ?_) (fun _ => ?_))
    | (with_reducible apply State.out_sound)
    | (with_reducible apply State.ringItem_sound)
    | (with_reducible apply State.respond_sound)
    | (with_reducible apply State.hush_sound)
    | split

theorem State.answer_sound {h0 : CmdHdr} {op : Nat} {st : Status} {detail : Nat} {body : List Nat} (h :
    Sound q f s) :
    Sound q f (State.answer h0 op st detail body s) := by
  unfold State.answer
  repeat' first
    | (with_reducible assumption)
    | (with_reducible apply State.answerRd_sound)

theorem State.modPart_sound {p : Nat} {f0 : Partition → Partition} (h : Sound q f s) :
    Sound q f (State.modPart p f0 s) := by
  unfold State.modPart
  repeat' first
    | (with_reducible assumption)
    | (with_reducible apply updParts_sound)

theorem State.runCmd_sound {c : CmdForm} {h0 : CmdHdr} {owner : Nat} {ex right : State → Bool}
    {own : State → Reply} (h : Sound q f s) (ho : ∀ s, Sound q f s → ReplySound q f (own s)) :
    Sound q f (s.runCmd c h0 owner ex right own) := by
  unfold State.runCmd
  repeat' first
    | (with_reducible assumption)
    | extract_lets
    | (with_reducible refine sound_ite (fun _ => ?_) (fun _ => ?_))
    | (with_reducible apply State.answerRd_sound)
    | (with_reducible apply State.count_sound)
    | (with_reducible refine of_reply_done (by assumption) (ho _ h))
    | (with_reducible refine of_reply_wait (by assumption) (ho _ h))
    | split

theorem State.isain_sound {t : Nat} {c : CmdForm} {h0 : CmdHdr} {ex right : State → Bool}
    {own : State → Reply} (h : Sound q f s) (ho : ∀ s, Sound q f s → ReplySound q f (own s)) :
    SoundOut q f (s.isain t c h0 ex right own) := by
  unfold State.isain
  extract_lets s1
  have h1 : Sound q f s1 := State.at_sound h
  split
  · exact soundOut_next (State.runCmd_sound h1 ho)
  · exact soundOut_next h1

theorem okReply_sound (h : Sound q f s) : ReplySound q f (okReply s) := by
  unfold okReply
  repeat' first
    | (with_reducible assumption)
    | extract_lets
    | (with_reducible apply reply_done)

theorem checks_sound {r : Reply} (h : ReplySound q f r) : ∀ {l : List (Bool × Status)},
    ReplySound q f (checks l r)
  | [] => h
  | (bad, st) :: rest => by
    unfold checks
    split
    · exact reply_refuse
    · exact checks_sound h

theorem Reply.after_sound {r : Reply} (h : Sound q f s) (hr : ReplySound q f r) :
    ReplySound q f (r.after s) := by
  cases r with
  | refuse st d => exact h
  | done st b u => exact hr
  | wait u => exact hr

theorem checksAt_sound {r : Reply} (h : ReplySound q f r) : ∀ {l : List (Option Nat × Status)},
    ReplySound q f (checksAt l r)
  | [] => h
  | (some _, _) :: _ => by
    unfold checksAt
    exact reply_refuse
  | (none, _) :: rest => by
    unfold checksAt
    exact checksAt_sound h

theorem State.keep_sound {v : StVal} (h : Sound q f s) : Sound q f (State.keep v s) := by
  unfold State.keep
  repeat' first
    | (with_reducible assumption)
    | extract_lets
    | (with_reducible refine sound_ite (fun _ => ?_) (fun _ => ?_))
    | (with_reducible apply updBay_sound)

theorem settings_sound {chk : SetRec → Option Status} {apply : State → SetRec → State}
    {whole : State → State → Option Status} {kept : State → State} {recs : List SetRec} (h : Sound q f s)
    (ha : ∀ s r, Sound q f s → Sound q f (apply s r)) (hk : ∀ s, Sound q f s → Sound q f (kept s)) :
    ReplySound q f (settings chk apply whole kept recs s) := by
  unfold settings
  split
  · exact reply_refuse
  · extract_lets s1
    split
    · exact reply_refuse
    · exact reply_ok (hk _ (sound_foldl h ha))

theorem State.happen_sound {t : Nat} {guard : State → Bool} {eff : State → State} (h : Sound q f s)
    (he : ∀ s, Sound q f s → Sound q f (eff s)) : SoundOut q f (s.happen t guard eff) := by
  refine soundOut_next ?_
  split
  · exact he _ (State.at_sound h)
  · exact State.at_sound h

end Sys2Proof.Machine
end

