-- ==== Sys2Proof/Laws/SoundStopOps.lean ====
section
/-! SUPPORT. The definitions of Machine/StopOps.lean keep a sound state: the queue, the fuses, memory in its
canonical form, the counters' bound and Rosemary's numbering. -/

namespace Sys2Proof.Machine

variable {q : List Instr} {f : Fuses} {s : State}

theorem State.modIfc_sound {i : Nat} {f0 : Ifc → Ifc} (h : Sound q f s) :
    Sound q f (State.modIfc i f0 s) := by
  unfold State.modIfc
  repeat' first
    | (with_reducible assumption)
    | (with_reducible apply updIfcs_sound)

theorem State.modPort_sound {p : Nat} {f0 : Port → Port} (h : Sound q f s) :
    Sound q f (State.modPort p f0 s) := by
  unfold State.modPort
  repeat' first
    | (with_reducible assumption)
    | (with_reducible apply updPorts_sound)

theorem State.modBypass_sound {f0 : Bypass → Bypass} (h : Sound q f s) :
    Sound q f (State.modBypass f0 s) := by
  unfold State.modBypass
  repeat' first
    | (with_reducible assumption)
    | (with_reducible apply updPkg_sound)

theorem State.alert_sound {b : Nat} (h : Sound q f s) : Sound q f (State.alert b s) := by
  unfold State.alert
  repeat' first
    | (with_reducible assumption)
    | (with_reducible apply updPkg_sound)

theorem State.tryArm_sound (h : Sound q f s) : Sound q f (State.tryArm s) := by
  unfold State.tryArm
  repeat' first
    | (with_reducible assumption)
    | extract_lets
    | (with_reducible refine sound_ite (fun _ => ?_) (fun _ => ?_))
    | (with_reducible apply State.modBypass_sound)

theorem State.bypassLow_sound (h : Sound q f s) : Sound q f (State.bypassLow s) := by
  unfold State.bypassLow
  repeat' first
    | (with_reducible assumption)
    | extract_lets
    | (with_reducible refine sound_ite (fun _ => ?_) (fun _ => ?_))
    | (with_reducible apply State.modBypass_sound)
    | (with_reducible apply State.alert_sound)

theorem State.lowAlert_sound (h : Sound q f s) : Sound q f (State.lowAlert s) := by
  unfold State.lowAlert
  repeat' first
    | (with_reducible assumption)
    | extract_lets
    | (with_reducible refine sound_ite (fun _ => ?_) (fun _ => ?_))
    | (with_reducible apply State.alert_sound)

theorem State.portsIdle_sound (h : Sound q f s) : Sound q f (State.portsIdle s) := by
  unfold State.portsIdle
  repeat' first
    | (with_reducible assumption)
    | (with_reducible apply updIfcs_sound)

theorem State.portState_sound {ifc sub : Nat} (h : Sound q f s) :
    Sound q f (State.portState ifc sub s) := by
  unfold State.portState
  repeat' first
    | (with_reducible assumption)
    | (with_reducible apply State.recordEvent_sound)

theorem State.portRecord_sound {ifc sub : Nat} (h : Sound q f s) :
    Sound q f (State.portRecord ifc sub s) := by
  unfold State.portRecord
  repeat' first
    | (with_reducible assumption)
    | (with_reducible apply State.record_sound)

theorem State.modCluster_sound {c : Nat} {f0 : Cluster → Cluster} (h : Sound q f s) :
    Sound q f (State.modCluster c f0 s) := by
  unfold State.modCluster
  repeat' first
    | (with_reducible assumption)
    | (with_reducible apply updComp_sound)

theorem State.dillStamp_sound {c stamp : Nat} {r : TraceRec} (h : Sound q f s) :
    Sound q f (State.dillStamp c stamp r s).1 := by
  unfold State.dillStamp
  repeat' first
    | (with_reducible assumption)
    | extract_lets
    | (with_reducible refine sound_ite (fun _ => ?_) (fun _ => ?_))
    | (with_reducible apply State.countN_sound)
    | (with_reducible apply State.modCluster_sound)

theorem State.dillArrive_sound {c upto : Nat} (h : Sound q f s) :
    Sound q f (State.dillArrive c upto s).1 := by
  unfold State.dillArrive
  repeat' first
    | (with_reducible assumption)
    | extract_lets
    | (with_reducible refine sound_foldl ?_ (fun _ _ _ => ?_))
    | (with_reducible refine sound_foldl_fst ?_ (fun _ _ _ => ?_))
    | (with_reducible apply State.modCluster_sound)
    | (with_reducible apply State.dillStamp_sound)

theorem State.dillPut_sound {c late : Nat} {r : TraceRec} (h : Sound q f s) :
    Sound q f (State.dillPut c late r s).1 := by
  unfold State.dillPut
  repeat' first
    | (with_reducible assumption)
    | extract_lets
    | (with_reducible apply State.dillStamp_sound)
    | (with_reducible apply State.dillArrive_sound)
    | split

theorem State.stopIslands_sound {cause : Nat} (h : Sound q f s) :
    Sound q f (State.stopIslands cause s) := by
  unfold State.stopIslands
  repeat' first
    | (with_reducible assumption)
    | extract_lets
    | (with_reducible refine sound_foldl ?_ (fun _ _ _ => ?_))
    | (with_reducible apply State.bypassLow_sound)
    | (with_reducible apply State.dillPut_sound)
    | (with_reducible apply State.record_sound)
    | (refine updObs_sound ?_ rfl rfl rfl)
    | (with_reducible apply sound_mk)

theorem State.ownStop_sound {cause : Nat} (h : Sound q f s) : Sound q f (State.ownStop cause s) := by
  unfold State.ownStop
  repeat' first
    | (with_reducible assumption)
    | extract_lets
    | (with_reducible refine sound_ite (fun _ => ?_) (fun _ => ?_))
    | (with_reducible apply State.stopIslands_sound)
    | (refine updObs_sound ?_ rfl rfl rfl)

theorem State.trigStop_sound {p : State × Bool} (h : Sound q f p.1) : Sound q f (State.trigStop p) := by
  unfold State.trigStop
  repeat' first
    | (with_reducible assumption)
    | extract_lets
    | (with_reducible refine sound_ite (fun _ => ?_) (fun _ => ?_))
    | (with_reducible apply State.ownStop_sound)

theorem State.trace_sound {c : Nat} {r : TraceRec} (h : Sound q f s) : Sound q f (State.trace c r s) := by
  unfold State.trace
  repeat' first
    | (with_reducible assumption)
    | extract_lets
    | (with_reducible apply State.dillPut_sound)
    | (with_reducible apply State.trigStop_sound)

theorem State.sendMark_sound {c late : Nat} {r : TraceRec} (h : Sound q f s) :
    Sound q f (State.sendMark c late r s) := by
  unfold State.sendMark
  repeat' first
    | (with_reducible assumption)
    | extract_lets
    | (with_reducible apply State.modCluster_sound)

theorem State.takeMarks_sound {c : Nat} (h : Sound q f s) : Sound q f (State.takeMarks c s) := by
  unfold State.takeMarks
  repeat' first
    | (with_reducible assumption)
    | extract_lets
    | (with_reducible apply State.dillArrive_sound)
    | (with_reducible apply State.trigStop_sound)
    | split

theorem State.tryResume_sound (h : Sound q f s) : Sound q f (State.tryResume s) := by
  unfold State.tryResume
  repeat' first
    | (with_reducible assumption)
    | extract_lets
    | (with_reducible refine sound_ite (fun _ => ?_) (fun _ => ?_))
    | (with_reducible apply State.tryArm_sound)
    | (with_reducible apply State.record_sound)
    | (refine updObs_sound ?_ rfl rfl rfl)
    | (dsimp +zetaDelta only)
    | (with_reducible apply sound_mk)

end Sys2Proof.Machine
end

