-- ==== Sys2Proof/Laws/SoundCoreOps.lean ====
section
/-! SUPPORT. The definitions of Machine/CoreOps.lean keep a sound state: the queue, the fuses, memory in its
canonical form, the counters' bound and Rosemary's numbering. -/

namespace Sys2Proof.Machine

variable {q : List Instr} {f : Fuses} {s : State}

theorem State.modCore_sound {p : Nat} {f0 : Core → Core} (h : Sound q f s) :
    Sound q f (State.modCore p f0 s) := by
  unfold State.modCore
  repeat' first
    | (with_reducible assumption)
    | (with_reducible apply updComp_sound)

theorem State.modCtx_sound {p k : Nat} {f0 : Ctx → Ctx} (h : Sound q f s) :
    Sound q f (State.modCtx p k f0 s) := by
  unfold State.modCtx
  repeat' first
    | (with_reducible assumption)
    | (with_reducible apply State.modCore_sound)

theorem State.spacePut_sound {x : Space} {a : Nat} {bs : List Byte} (h : Sound q f s) :
    Sound q f (State.spacePut x a bs s) := by
  unfold State.spacePut
  repeat' first
    | (with_reducible assumption)
    | (with_reducible apply State.modCore_sound)
    | (with_reducible apply State.modCluster_sound)
    | (with_reducible apply State.poke_sound)
    | split

theorem State.spacePoison_sound {x : Space} {w : Nat} (h : Sound q f s) :
    Sound q f (State.spacePoison x w s) := by
  unfold State.spacePoison
  repeat' first
    | (with_reducible assumption)
    | (with_reducible apply State.modCore_sound)
    | (with_reducible apply State.modCluster_sound)
    | (refine updMem_sound ?_ rfl)
    | split

end Sys2Proof.Machine
end

