-- ==== Sys2Proof/Laws/SoundSpareOps.lean ====
section
/-! SUPPORT. The definitions of Machine/SpareOps.lean keep a sound state: the queue, the fuses, memory in its
canonical form, the counters' bound and Rosemary's numbering. -/

namespace Sys2Proof.Machine

variable {q : List Instr} {f : Fuses} {s : State}

theorem State.sramRecord_sound {k : SramKind} {unit row sub : Nat} (h : Sound q f s) :
    Sound q f (State.sramRecord k unit row sub s) := by
  unfold State.sramRecord
  repeat' first
    | (with_reducible assumption)
    | (with_reducible apply State.record_sound)

theorem State.sparesGone_sound {k : SramKind} {unit row : Nat} (h : Sound q f s) :
    Sound q f (State.sparesGone k unit row s) := by
  unfold State.sparesGone
  repeat' first
    | (with_reducible assumption)
    | extract_lets
    | (with_reducible refine sound_ite (fun _ => ?_) (fun _ => ?_))
    | (with_reducible apply State.modCore_sound)
    | (with_reducible apply State.event_sound)
    | (with_reducible apply updParser_sound)
    | (with_reducible apply updCls_sound)
    | split

theorem State.tellSpent_sound {k : SramKind} {unit row : Nat} (h : Sound q f s) :
    Sound q f (State.tellSpent k unit row s) := by
  unfold State.tellSpent
  repeat' first
    | (with_reducible assumption)
    | extract_lets
    | (with_reducible refine sound_ite (fun _ => ?_) (fun _ => ?_))
    | (with_reducible apply State.event_sound)
    | (with_reducible apply State.sramRecord_sound)
    | (refine updMem_sound ?_ rfl)

theorem State.bringSpare_sound {k : SramKind} {unit row : Nat} (h : Sound q f s) :
    Sound q f (State.bringSpare k unit row s) := by
  unfold State.bringSpare
  repeat' first
    | (with_reducible assumption)
    | extract_lets
    | (with_reducible refine sound_ite (fun _ => ?_) (fun _ => ?_))
    | (with_reducible apply State.count_sound)
    | (with_reducible apply State.keep_sound)
    | (with_reducible apply State.sramRecord_sound)
    | (with_reducible apply State.sparesGone_sound)
    | (with_reducible apply State.tellSpent_sound)
    | (refine updMem_sound ?_ rfl)

theorem State.markRow_sound {k : SramKind} {unit row : Nat} (h : Sound q f s) :
    Sound q f (State.markRow k unit row s) := by
  unfold State.markRow
  repeat' first
    | (with_reducible assumption)
    | (refine updMem_sound ?_ rfl)

theorem State.spareFault_sound {core : Nat} (h : Sound q f s) : Sound q f (State.spareFault core s) := by
  unfold State.spareFault
  repeat' first
    | (with_reducible assumption)
    | (with_reducible refine sound_ite (fun _ => ?_) (fun _ => ?_))
    | (with_reducible apply State.modCore_sound)

theorem State.sramCorrected_sound {k : SramKind} {unit row : Nat} (h : Sound q f s) :
    Sound q f (State.sramCorrected k unit row s) := by
  unfold State.sramCorrected
  repeat' first
    | (with_reducible assumption)
    | extract_lets
    | (with_reducible refine sound_ite (fun _ => ?_) (fun _ => ?_))
    | (with_reducible apply State.count_sound)
    | (with_reducible apply State.markRow_sound)
    | (with_reducible apply State.bringSpare_sound)
    | (dsimp +zetaDelta only)
    | (with_reducible apply sound_mk)

theorem State.sramUncorrectable_sound {k : SramKind} {unit row : Nat} (h : Sound q f s) :
    Sound q f (State.sramUncorrectable k unit row s) := by
  unfold State.sramUncorrectable
  repeat' first
    | (with_reducible assumption)
    | extract_lets
    | (with_reducible refine sound_ite (fun _ => ?_) (fun _ => ?_))
    | (with_reducible apply State.sramRecord_sound)
    | (with_reducible apply State.count_sound)
    | (with_reducible apply State.markRow_sound)
    | (with_reducible apply State.bringSpare_sound)

theorem State.sramChecked_sound {k : SramKind} {unit row : Nat} {check : WordCheck} (h : Sound q f s) :
    Sound q f (State.sramChecked k unit row check s) := by
  unfold State.sramChecked
  repeat' first
    | (with_reducible assumption)
    | extract_lets
    | (with_reducible refine sound_ite (fun _ => ?_) (fun _ => ?_))
    | (with_reducible apply State.count_sound)
    | (with_reducible apply State.spareFault_sound)
    | (with_reducible apply State.sramCorrected_sound)
    | (with_reducible apply State.sramUncorrectable_sound)
    | split

theorem State.setRails_sound (h : Sound q f s) : Sound q f (State.setRails s) := by
  unfold State.setRails
  repeat' first
    | (with_reducible assumption)
    | (with_reducible apply updPkg_sound)

end Sys2Proof.Machine
end

