-- ==== Sys2Proof/Laws/SoundBoot.lean ====
section
/-! SUPPORT. The definitions of Machine/Boot.lean keep a sound state: the queue, the fuses, memory in its
canonical form, the counters' bound and Rosemary's numbering. -/

namespace Sys2Proof.Machine

variable {q : List Instr} {f : Fuses} {s : State}

theorem State.lose_sound (h : Sound q f s) : Sound q f s.lose where
  queue := h.1
  fuses := h.2
  good := {
    mem := rfl
    counters := by intro e he; cases he
    rosemary := ⟨Nat.zero_le _, List.Pairwise.nil, by intro r hr; cases hr⟩ }

theorem State.coldReset_sound (h : Sound q f s) : Sound q f (State.coldReset s) := by
  unfold State.coldReset
  repeat' first
    | (with_reducible assumption)
    | extract_lets
    | (with_reducible apply State.lose_sound)
    | (with_reducible apply updBay_sound)
    | (with_reducible apply updPkg_sound)

theorem State.warmReset_sound (h : Sound q f s) : Sound q f (State.warmReset s) := by
  unfold State.warmReset
  repeat' first
    | (with_reducible assumption)
    | extract_lets
    | (with_reducible apply updPkg_sound)
    | (with_reducible apply State.lose_sound)

theorem State.writeDir_sound {f0 : Directory → Directory} (h : Sound q f s) :
    Sound q f (State.writeDir f0 s) := by
  unfold State.writeDir
  repeat' first
    | (with_reducible assumption)
    | extract_lets
    | (with_reducible apply updBay_sound)

theorem State.readDir_sound {b : BootIn} (h : Sound q f s) :
    ∀ s', State.readDir b s = some s' → Sound q f s' := by
  unfold State.readDir
  repeat' first
    | (with_reducible assumption)
    | extract_lets
    | (with_reducible refine sound_ite (fun _ => ?_) (fun _ => ?_))
    | (with_reducible apply updBay_sound)
    | split
    | (dsimp +zetaDelta only)
    | (intro _ e; obtain ⟨_, _, rfl⟩ := Option.map_eq_some_iff.1 e)
    | (intro _ e; cases e)

theorem State.appendAs_sound {removal conv : Bool} {v : StVal} {fmt len : Nat} (h : Sound q f s) :
    Sound q f (State.appendAs removal conv v fmt len s) := by
  unfold State.appendAs
  repeat' first
    | (with_reducible assumption)
    | extract_lets
    | (with_reducible apply updBay_sound)

theorem State.appendStore_sound {v : StVal} {fmt len : Nat} (h : Sound q f s) :
    Sound q f (State.appendStore v fmt len s) := by
  unfold State.appendStore
  exact State.appendAs_sound h

theorem State.bootLog_sound {msRun result slot : Nat} (h : Sound q f s) :
    Sound q f (State.bootLog msRun result slot s) := by
  unfold State.bootLog
  repeat' first
    | (with_reducible assumption)
    | (with_reducible apply updBay_sound)

theorem State.copyStaged_sound {ok : Bool} (h : Sound q f s) : Sound q f (State.copyStaged ok s) := by
  unfold State.copyStaged
  repeat' first
    | (with_reducible assumption)
    | extract_lets
    | (with_reducible refine sound_ite (fun _ => ?_) (fun _ => ?_))
    | (with_reducible apply State.writeDir_sound)
    | (with_reducible apply State.bootLog_sound)
    | (with_reducible apply updBay_sound)

theorem State.chooseSlot_sound (h : Sound q f s) : Sound q f (State.chooseSlot s).1 := by
  unfold State.chooseSlot
  repeat' first
    | (with_reducible assumption)
    | extract_lets
    | (with_reducible apply State.writeDir_sound)
    | split

theorem State.applySetting_sound {v : StVal} (h : Sound q f s) : Sound q f (State.applySetting v s) := by
  unfold State.applySetting
  repeat' first
    | (with_reducible assumption)
    | extract_lets
    | (with_reducible refine sound_ite (fun _ => ?_) (fun _ => ?_))
    | (with_reducible refine sound_foldl ?_ (fun _ _ _ => ?_))
    | (with_reducible refine sound_foldl_fst ?_ (fun _ _ _ => ?_))
    | (with_reducible refine settings_sound ?_ (fun _ _ _ => ?_) (fun _ _ => ?_))
    | (with_reducible apply State.alert_sound)
    | (with_reducible apply updPkg_sound)
    | (with_reducible apply updWall_sound)
    | (with_reducible apply updOuv_sound)
    | (with_reducible apply updRings_sound)
    | (with_reducible apply updParts_sound)
    | (with_reducible apply updParser_sound)
    | (with_reducible apply updCls_sound)
    | (with_reducible apply updEg_sound)
    | (with_reducible apply updComp_sound)
    | (with_reducible apply updModels_sound)
    | (with_reducible apply updFab_sound)
    | (refine updMem_sound ?_ rfl)
    | split
    | (dsimp +zetaDelta only)
    | (with_reducible apply sound_mk)

theorem State.takeGroup_sound {mode : Nat} {m : Mem} {e : Nat × Nat} (h : Sound q f s) :
    Sound q f (State.takeGroup mode m e s) := by
  unfold State.takeGroup
  repeat' first
    | (with_reducible assumption)
    | extract_lets
    | (with_reducible refine sound_ite (fun _ => ?_) (fun _ => ?_))
    | (with_reducible apply State.record_sound)
    | (with_reducible apply State.appendAs_sound)
    | (with_reducible apply State.applySetting_sound)
    | split

theorem State.revertTrial_sound (h : Sound q f s) : Sound q f (State.revertTrial s) := by
  unfold State.revertTrial
  repeat' first
    | (with_reducible assumption)
    | extract_lets
    | (with_reducible refine sound_ite (fun _ => ?_) (fun _ => ?_))
    | (with_reducible apply updBay_sound)
    | split

theorem State.badRecords_sound (h : Sound q f s) : Sound q f (State.badRecords s) := by
  unfold State.badRecords
  repeat' first
    | (with_reducible assumption)
    | extract_lets
    | (with_reducible refine sound_foldl ?_ (fun _ _ _ => ?_))
    | (with_reducible apply State.record_sound)
    | (with_reducible apply updBay_sound)
    | (with_reducible apply State.tally_sound)

theorem State.releasePages_sound {g : Nat} (h : Sound q f s) : Sound q f (State.releasePages g s) := by
  unfold State.releasePages
  repeat' first
    | (with_reducible assumption)
    | extract_lets
    | (with_reducible apply State.modRegion_sound)

theorem State.repairRow_sound {g : Nat} {x : Nat × Nat} (h : Sound q f s) :
    Sound q f (State.repairRow g x s) := by
  unfold State.repairRow
  repeat' first
    | (with_reducible assumption)
    | extract_lets
    | (with_reducible refine sound_ite (fun _ => ?_) (fun _ => ?_))
    | (with_reducible apply State.count_sound)
    | (with_reducible apply State.record_sound)
    | (with_reducible apply State.releasePages_sound)
    | (refine updMem_sound ?_ rfl)
    | split
    | (dsimp +zetaDelta only)
    | (with_reducible apply sound_mk)

theorem State.repairPages_sound (h : Sound q f s) : Sound q f (State.repairPages s) := by
  unfold State.repairPages
  repeat' first
    | (with_reducible assumption)
    | extract_lets
    | (with_reducible refine sound_foldl ?_ (fun _ _ _ => ?_))
    | (with_reducible refine sound_foldl_fst ?_ (fun _ _ _ => ?_))
    | (with_reducible apply State.repairRow_sound)

theorem State.buildMap_sound (h : Sound q f s) : Sound q f (State.buildMap s) := by
  unfold State.buildMap
  repeat' first
    | (with_reducible assumption)
    | extract_lets
    | (with_reducible refine sound_ite (fun _ => ?_) (fun _ => ?_))
    | (with_reducible apply updComp_sound)

theorem State.romRecovery_sound {result : Nat} {b : BootIn} (h : Sound q f s) :
    Sound q f (State.romRecovery result b s) := by
  unfold State.romRecovery
  repeat' first
    | (with_reducible assumption)
    | extract_lets
    | (with_reducible apply State.modIfc_sound)
    | (with_reducible apply State.bootLog_sound)
    | (with_reducible apply State.applySetting_sound)
    | (with_reducible apply updPkg_sound)
    | (with_reducible apply updOuv_sound)
    | (with_reducible apply updParts_sound)
    | (with_reducible apply updBay_sound)
    | split
    | (dsimp +zetaDelta only)

theorem State.startFailed_sound (h : Sound q f s) : Sound q f (State.startFailed s) := by
  unfold State.startFailed
  repeat' first
    | (with_reducible assumption)
    | extract_lets
    | (with_reducible refine sound_ite (fun _ => ?_) (fun _ => ?_))
    | (with_reducible apply State.writeDir_sound)

theorem State.coreRecord_sound {unit logical : Nat} {old new sub : Nat} (h : Sound q f s) :
    Sound q f (State.coreRecord unit logical old new sub s) := by
  unfold State.coreRecord
  repeat' first
    | (with_reducible assumption)
    | (with_reducible apply State.record_sound)

theorem State.modMap_sound {i : Nat} {f0 : MapEntry → MapEntry} (h : Sound q f s) :
    Sound q f (State.modMap i f0 s) := by
  unfold State.modMap
  repeat' first
    | (with_reducible assumption)
    | (with_reducible apply updComp_sound)

theorem State.spareFailed_sound {i core : Nat} (h : Sound q f s) :
    Sound q f (State.spareFailed i core s) := by
  unfold State.spareFailed
  repeat' first
    | (with_reducible assumption)
    | extract_lets
    | (with_reducible apply State.count_sound)
    | (with_reducible apply State.modMap_sound)
    | (with_reducible apply State.coreRecord_sound)
    | (with_reducible apply State.keep_sound)

theorem State.selfTestFailed_sound {core : Nat} (h : Sound q f s) :
    Sound q f (State.selfTestFailed core s) := by
  unfold State.selfTestFailed
  repeat' first
    | (with_reducible assumption)
    | (with_reducible refine sound_ite (fun _ => ?_) (fun _ => ?_))
    | (with_reducible apply State.spareFailed_sound)
    | (with_reducible apply State.modCore_sound)
    | split

theorem State.orderReset_sound {after : Nat} (h : Sound q f s) : Sound q f (State.orderReset after s) := by
  unfold State.orderReset
  repeat' first
    | (with_reducible assumption)
    | extract_lets
    | (with_reducible apply updBay_sound)
    | (with_reducible apply State.bypassLow_sound)

theorem State.takeGroups_sound {want : Nat → Bool} (h : Sound q f s) :
    Sound q f (State.takeGroups want s) := by
  unfold State.takeGroups
  repeat' first
    | (with_reducible assumption)
    | extract_lets
    | (with_reducible refine sound_foldl ?_ (fun _ _ _ => ?_))
    | (with_reducible refine sound_foldl_fst ?_ (fun _ _ _ => ?_))
    | (with_reducible apply State.takeGroup_sound)

theorem State.loadSections_sound {types : List Nat} (h : Sound q f s) :
    Sound q f (State.loadSections types s) := by
  unfold State.loadSections
  repeat' first
    | (with_reducible assumption)
    | extract_lets
    | (with_reducible refine sound_foldl ?_ (fun _ _ _ => ?_))
    | (with_reducible refine sound_foldl_fst ?_ (fun _ _ _ => ?_))
    | (with_reducible apply updBay_sound)

theorem State.lockIslands_sound {n : Nat} (h : Sound q f s) : Sound q f (State.lockIslands n s) := by
  unfold State.lockIslands
  repeat' first
    | (with_reducible assumption)
    | extract_lets
    | split
    | (dsimp +zetaDelta only)
    | (with_reducible apply sound_mk)

theorem State.startIsain_sound (h : Sound q f s) : Sound q f (State.startIsain s) := by
  unfold State.startIsain
  repeat' first
    | (with_reducible assumption)
    | extract_lets
    | (with_reducible apply State.loadSections_sound)
    | (with_reducible apply State.lockIslands_sound)
    | (with_reducible apply updPkg_sound)
    | (with_reducible apply updParts_sound)
    | (with_reducible apply updBay_sound)

theorem State.trainMemory_sound {bad : List (Nat × Nat)} (h : Sound q f s) :
    Sound q f (State.trainMemory bad s) := by
  unfold State.trainMemory
  repeat' first
    | (with_reducible assumption)
    | extract_lets
    | (with_reducible refine sound_ite (fun _ => ?_) (fun _ => ?_))
    | (with_reducible refine sound_foldl ?_ (fun _ _ _ => ?_))
    | (with_reducible refine sound_foldl_fst ?_ (fun _ _ _ => ?_))
    | (with_reducible apply State.modRegion_sound)
    | (with_reducible apply State.keep_sound)
    | (with_reducible apply State.repairPages_sound)
    | (with_reducible apply State.loadSections_sound)
    | (with_reducible apply State.lockIslands_sound)

theorem State.leaveLanes_sound {bad : List (Nat × Nat)} (h : Sound q f s) :
    Sound q f (State.leaveLanes bad s) := by
  unfold State.leaveLanes
  repeat' first
    | (with_reducible assumption)
    | extract_lets
    | (with_reducible refine sound_ite (fun _ => ?_) (fun _ => ?_))
    | (with_reducible refine sound_foldl ?_ (fun _ _ _ => ?_))
    | (with_reducible refine sound_foldl_fst ?_ (fun _ _ _ => ?_))
    | (with_reducible apply State.modLink_sound)
    | (with_reducible apply State.orderReset_sound)

theorem State.startDies_sound {b : BootIn} (h : Sound q f s) : Sound q f (State.startDies b s) := by
  unfold State.startDies
  repeat' first
    | (with_reducible assumption)
    | extract_lets
    | (with_reducible refine sound_foldl ?_ (fun _ _ _ => ?_))
    | (with_reducible refine sound_foldl_fst ?_ (fun _ _ _ => ?_))
    | (with_reducible apply State.buildMap_sound)
    | (with_reducible apply State.selfTestFailed_sound)
    | (with_reducible apply State.loadSections_sound)
    | (with_reducible apply State.lockIslands_sound)
    | (with_reducible apply State.leaveLanes_sound)

theorem State.startPorts_sound (h : Sound q f s) : Sound q f (State.startPorts s) := by
  unfold State.startPorts
  repeat' first
    | (with_reducible assumption)
    | extract_lets
    | (with_reducible refine sound_foldl ?_ (fun _ _ _ => ?_))
    | (with_reducible refine sound_foldl_fst ?_ (fun _ _ _ => ?_))
    | (with_reducible apply State.takeGroups_sound)
    | (with_reducible apply State.loadSections_sound)
    | (with_reducible apply updPorts_sound)

theorem State.startSettings_sound (h : Sound q f s) : Sound q f (State.startSettings s) := by
  unfold State.startSettings
  repeat' first
    | (with_reducible assumption)
    | extract_lets
    | (with_reducible refine sound_ite (fun _ => ?_) (fun _ => ?_))
    | (with_reducible apply State.record_sound)
    | (with_reducible apply State.recordEvent_sound)
    | (with_reducible apply State.lowAlert_sound)
    | (with_reducible apply State.setRails_sound)
    | (with_reducible apply State.takeGroups_sound)
    | (with_reducible apply updFab_sound)
    | (with_reducible apply updBay_sound)

theorem State.startDone_sound (h : Sound q f s) : Sound q f (State.startDone s) := by
  unfold State.startDone
  repeat' first
    | (with_reducible assumption)
    | extract_lets
    | (with_reducible refine sound_ite (fun _ => ?_) (fun _ => ?_))
    | (with_reducible apply State.tryArm_sound)
    | (with_reducible apply State.stopIslands_sound)
    | (with_reducible apply State.writeDir_sound)
    | (with_reducible apply State.bootLog_sound)
    | (with_reducible apply State.lockIslands_sound)
    | (with_reducible apply updPkg_sound)
    | (with_reducible apply updBay_sound)

theorem State.startStep_sound {b : BootIn} {n : Nat} (h : Sound q f s) :
    Sound q f (State.startStep b n s) := by
  unfold State.startStep
  repeat' first
    | (with_reducible assumption)
    | extract_lets
    | (with_reducible apply State.revertTrial_sound)
    | (with_reducible apply State.badRecords_sound)
    | (with_reducible apply State.takeGroups_sound)
    | (with_reducible apply State.loadSections_sound)
    | (with_reducible apply State.startIsain_sound)
    | (with_reducible apply State.trainMemory_sound)
    | (with_reducible apply State.startDies_sound)
    | (with_reducible apply State.startPorts_sound)
    | (with_reducible apply State.startSettings_sound)
    | (with_reducible apply State.startDone_sound)
    | split

theorem State.loadFailed_sound {k : Nat} (h : Sound q f s) : Sound q f (State.loadFailed k s) := by
  unfold State.loadFailed
  repeat' first
    | (with_reducible assumption)
    | extract_lets
    | (with_reducible apply State.bootLog_sound)
    | (with_reducible apply State.startFailed_sound)
    | (with_reducible apply updBay_sound)

theorem State.startLink_sound {b : BootIn} (h : Sound q f s) : Sound q f (State.startLink b s) := by
  unfold State.startLink
  repeat' first
    | (with_reducible assumption)
    | extract_lets
    | (with_reducible apply State.modIfc_sound)
    | (with_reducible apply updOuv_sound)

theorem State.startRun_sound {cold : Bool} {late : Nat} {b : BootIn} {k : Nat} (h : Sound q f s) :
    Sound q f (State.startRun cold late b k s) := by
  unfold State.startRun
  repeat' first
    | (with_reducible assumption)
    | extract_lets
    | (with_reducible refine sound_ite (fun _ => ?_) (fun _ => ?_))
    | (with_reducible refine sound_foldl ?_ (fun _ _ _ => ?_))
    | (with_reducible refine sound_foldl_fst ?_ (fun _ _ _ => ?_))
    | (with_reducible apply State.startStep_sound)
    | (with_reducible apply State.loadFailed_sound)
    | (with_reducible apply State.startLink_sound)
    | (with_reducible apply updBay_sound)
    | (with_reducible apply State.selfTestFailed_sound)
    | (with_reducible apply State.modIfc_sound)
    | (with_reducible apply State.bootLog_sound)
    | (with_reducible apply State.startSettings_sound)
    | (with_reducible apply State.startDone_sound)
    | (with_reducible apply State.startFailed_sound)
    | (with_reducible apply updPkg_sound)
    | (with_reducible apply updOuv_sound)
    | (with_reducible apply updParts_sound)
    | split
    | (dsimp +zetaDelta only)
    | (with_reducible apply sound_mk)

theorem State.readStore_sound {b : BootIn} (h : Sound q f s) : Sound q f (State.readStore b s) := by
  unfold State.readStore
  repeat' first
    | (with_reducible assumption)
    | extract_lets
    | (with_reducible refine sound_ite (fun _ => ?_) (fun _ => ?_))
    | (with_reducible apply updBay_sound)

theorem State.startFrom_sound {cold : Bool} {b : BootIn} (h : Sound q f s) :
    Sound q f (State.startFrom cold b s) := by
  unfold State.startFrom
  extract_lets mode s1 s2 late s3 p
  have h1 : Sound q f s1 := updBay_sound h
  have h2 : Sound q f s2 := sound_ite (fun _ => h1) (fun _ => State.writeDir_sound h1)
  have hp : Sound q f p.1 := State.chooseSlot_sound (State.copyStaged_sound h2)
  split
  · exact sound_mk hp
  · split
    · exact sound_mk (State.startLink_sound hp)
    · split
      · exact State.startRun_sound hp
      · exact State.romRecovery_sound (State.alert_sound (sound_mk hp))

theorem State.start_sound {b : BootIn} (h : Sound q f s) : Sound q f (State.start b s) := by
  unfold State.start
  extract_lets cold s1 s2
  have h1 : Sound q f s1 := sound_mk h
  have h2 : Sound q f s2 := updPkg_sound h1
  split
  · exact sound_mk h2
  · have h3 := State.readStore_sound (b := b) h2
    split
    · exact State.romRecovery_sound (sound_mk h3)
    · split
      · exact State.romRecovery_sound (State.alert_sound (sound_mk h3))
      · rename_i heq
        exact State.startFrom_sound (State.readDir_sound h3 _ heq)

theorem State.copyLog_sound (h : Sound q f s) : Sound q f s.copyLog := by
  unfold State.copyLog
  extract_lets due
  have e : ∀ l : List RmRec, ((l.map fun r => if r.kept then { r with copied := true } else r).map (·.seq)).Sublist
      (l.map (·.seq)) := by
    intro l
    induction l with
    | nil => exact List.Sublist.refl _
    | cons r l ih =>
      have hr : (if r.kept then { r with copied := true } else r).seq = r.seq := by split <;> rfl
      rw [List.map_cons, List.map_cons, List.map_cons, hr]
      exact ih.cons_cons _
  exact updObs_good (updBay_sound h) h.3.2 (rosemary_sublist h.3.3 (e s.obs.rm) (Nat.le_refl _))

theorem State.deviceReset_sound {b : BootIn} (h : Sound q f s) : Sound q f (State.deviceReset b s) := by
  unfold State.deviceReset
  repeat' first
    | (with_reducible assumption)
    | extract_lets
    | (with_reducible refine sound_ite (fun _ => ?_) (fun _ => ?_))
    | (with_reducible apply State.bypassLow_sound)
    | (with_reducible apply State.copyLog_sound)
    | (with_reducible apply State.record_sound)
    | (with_reducible apply State.alert_sound)
    | (with_reducible apply State.portsIdle_sound)
    | (with_reducible apply updBay_sound)
    | (with_reducible apply updPkg_sound)
    | (with_reducible apply State.lose_sound)
    | (with_reducible apply State.tally_sound)
    | (with_reducible apply State.start_sound)

theorem execPwrgdRise_sound {t : Nat} (h : Sound q f s) : SoundOut q f (execPwrgdRise t s) := by
  unfold execPwrgdRise
  repeat' first
    | (with_reducible assumption)
    | extract_lets
    | (with_reducible refine State.happen_sound ?_ (fun _ _ => ?_))
    | (with_reducible apply updPkg_sound)

theorem execPwrgdFall_sound {t : Nat} (h : Sound q f s) : SoundOut q f (execPwrgdFall t s) := by
  unfold execPwrgdFall
  repeat' first
    | (with_reducible assumption)
    | extract_lets
    | (with_reducible refine State.happen_sound ?_ (fun _ _ => ?_))
    | (with_reducible apply updBay_sound)
    | (with_reducible apply updPkg_sound)
    | (with_reducible apply State.lose_sound)

theorem execColdRstNFall_sound {t lowNs : Nat} (h : Sound q f s) :
    SoundOut q f (execColdRstNFall t lowNs s) := by
  unfold execColdRstNFall
  repeat' first
    | (with_reducible assumption)
    | extract_lets
    | (with_reducible refine sound_ite (fun _ => ?_) (fun _ => ?_))
    | (with_reducible refine State.happen_sound ?_ (fun _ _ => ?_))
    | (with_reducible apply State.coldReset_sound)
    | (with_reducible apply updPkg_sound)

theorem execColdRstNRise_sound {t : Nat} {b : BootIn} (h : Sound q f s) :
    SoundOut q f (execColdRstNRise t b s) := by
  unfold execColdRstNRise
  repeat' first
    | (with_reducible assumption)
    | extract_lets
    | (with_reducible refine sound_ite (fun _ => ?_) (fun _ => ?_))
    | (with_reducible refine State.happen_sound ?_ (fun _ _ => ?_))
    | (with_reducible apply State.start_sound)
    | (with_reducible apply updPkg_sound)

theorem execWarmRstNFall_sound {t lowNs : Nat} (h : Sound q f s) :
    SoundOut q f (execWarmRstNFall t lowNs s) := by
  unfold execWarmRstNFall
  repeat' first
    | (with_reducible assumption)
    | extract_lets
    | (with_reducible refine sound_ite (fun _ => ?_) (fun _ => ?_))
    | (with_reducible refine State.happen_sound ?_ (fun _ _ => ?_))
    | (with_reducible apply State.warmReset_sound)
    | (with_reducible apply updPkg_sound)

theorem execWarmRstNRise_sound {t : Nat} {b : BootIn} (h : Sound q f s) :
    SoundOut q f (execWarmRstNRise t b s) := by
  unfold execWarmRstNRise
  repeat' first
    | (with_reducible assumption)
    | extract_lets
    | (with_reducible refine sound_ite (fun _ => ?_) (fun _ => ?_))
    | (with_reducible refine State.happen_sound ?_ (fun _ _ => ?_))
    | (with_reducible apply updPkg_sound)
    | (with_reducible apply State.start_sound)

theorem execStartWatchdogExpiry_sound {t : Nat} {b : BootIn} (h : Sound q f s) :
    SoundOut q f (execStartWatchdogExpiry t b s) := by
  unfold execStartWatchdogExpiry
  repeat' first
    | (with_reducible assumption)
    | extract_lets
    | (with_reducible refine State.happen_sound ?_ (fun _ _ => ?_))
    | (with_reducible apply State.deviceReset_sound)
    | (with_reducible apply State.bootLog_sound)
    | (with_reducible apply State.startFailed_sound)

theorem execDeviceResetApply_sound {t : Nat} {b : BootIn} (h : Sound q f s) :
    SoundOut q f (execDeviceResetApply t b s) := by
  unfold execDeviceResetApply
  repeat' first
    | (with_reducible assumption)
    | extract_lets
    | (with_reducible refine State.happen_sound ?_ (fun _ _ => ?_))
    | (with_reducible apply State.deviceReset_sound)

theorem execDevResetRunClear_sound {t : Nat} (h : Sound q f s) :
    SoundOut q f (execDevResetRunClear t s) := by
  unfold execDevResetRunClear
  repeat' first
    | (with_reducible assumption)
    | extract_lets
    | (with_reducible refine State.happen_sound ?_ (fun _ _ => ?_))
    | (with_reducible apply updBay_sound)

end Sys2Proof.Machine
end

