-- ==== Sys2Proof/Laws/SoundPower.lean ====
section
/-! SUPPORT. The definitions of Machine/Power.lean keep a sound state: the queue, the fuses, memory in its
canonical form, the counters' bound and Rosemary's numbering. -/

namespace Sys2Proof.Machine

variable {q : List Instr} {f : Fuses} {s : State}

theorem State.envelopeChanged_sound {old : Nat} (h : Sound q f s) :
    Sound q f (State.envelopeChanged old s) := by
  unfold State.envelopeChanged
  repeat' first
    | (with_reducible assumption)
    | extract_lets
    | (with_reducible refine sound_ite (fun _ => ?_) (fun _ => ?_))
    | (with_reducible apply State.record_sound)
    | (with_reducible apply State.alert_sound)

theorem State.floorBreach_sound (h : Sound q f s) : Sound q f (State.floorBreach s) := by
  unfold State.floorBreach
  repeat' first
    | (with_reducible assumption)
    | extract_lets
    | (with_reducible apply State.alert_sound)
    | (with_reducible apply State.record_sound)

theorem State.mapClusters_sound {f0 : Cluster → Cluster} (h : Sound q f s) :
    Sound q f (State.mapClusters f0 s) := by
  unfold State.mapClusters
  repeat' first
    | (with_reducible assumption)
    | extract_lets
    | (with_reducible apply updComp_sound)

theorem State.govern_sound (h : Sound q f s) : Sound q f (State.govern s) := by
  unfold State.govern
  repeat' first
    | (with_reducible assumption)
    | extract_lets
    | (with_reducible refine sound_ite (fun _ => ?_) (fun _ => ?_))
    | (with_reducible apply State.floorBreach_sound)
    | (with_reducible apply State.mapClusters_sound)

theorem execPowerSample_sound {t watts : Nat} {tjMax : ℤ} (h : Sound q f s) :
    SoundOut q f (execPowerSample t watts tjMax s) := by
  unfold execPowerSample
  repeat' first
    | (with_reducible assumption)
    | extract_lets
    | (with_reducible refine State.happen_sound ?_ (fun _ _ => ?_))
    | (with_reducible apply updPkg_sound)

theorem execCeilingUpdate_sound {t : Nat} (h : Sound q f s) : SoundOut q f (execCeilingUpdate t s) := by
  unfold execCeilingUpdate
  repeat' first
    | (with_reducible assumption)
    | extract_lets
    | (with_reducible refine State.happen_sound ?_ (fun _ _ => ?_))
    | (with_reducible apply State.setRails_sound)
    | (with_reducible apply State.mapClusters_sound)
    | (with_reducible apply State.govern_sound)

theorem execClusterThermalStep_sound {t cluster : Nat} {tempC : Int} (h : Sound q f s) :
    SoundOut q f (execClusterThermalStep t cluster tempC s) := by
  unfold execClusterThermalStep
  repeat' first
    | (with_reducible assumption)
    | extract_lets
    | (with_reducible refine sound_ite (fun _ => ?_) (fun _ => ?_))
    | (with_reducible refine State.happen_sound ?_ (fun _ _ => ?_))
    | (with_reducible apply State.modCluster_sound)
    | (with_reducible apply State.setRails_sound)
    | (with_reducible apply State.floorBreach_sound)

theorem execXDieHot_sound {t : Nat} {tempC : ℤ} (h : Sound q f s) :
    SoundOut q f (execXDieHot t tempC s) := by
  unfold execXDieHot
  repeat' first
    | (with_reducible assumption)
    | extract_lets
    | (with_reducible refine State.happen_sound ?_ (fun _ _ => ?_))
    | (with_reducible apply State.alert_sound)
    | (with_reducible apply State.record_sound)

theorem execThermtrip_sound {t : Nat} (h : Sound q f s) : SoundOut q f (execThermtrip t s) := by
  unfold execThermtrip
  repeat' first
    | (with_reducible assumption)
    | extract_lets
    | (with_reducible refine State.happen_sound ?_ (fun _ _ => ?_))
    | (with_reducible apply State.modIfc_sound)
    | (with_reducible apply State.bypassLow_sound)
    | (with_reducible apply State.portsIdle_sound)
    | (with_reducible apply updPkg_sound)

theorem execVoltageDroop_sound {t cluster : Nat} (h : Sound q f s) :
    SoundOut q f (execVoltageDroop t cluster s) := by
  unfold execVoltageDroop
  repeat' first
    | (with_reducible assumption)
    | extract_lets
    | (with_reducible refine State.happen_sound ?_ (fun _ _ => ?_))
    | (with_reducible apply State.setRails_sound)
    | (with_reducible apply State.modCluster_sound)

theorem execSdRefclkLoss_sound {t : Nat} (h : Sound q f s) : SoundOut q f (execSdRefclkLoss t s) := by
  unfold execSdRefclkLoss
  repeat' first
    | (with_reducible assumption)
    | extract_lets
    | (with_reducible refine sound_ite (fun _ => ?_) (fun _ => ?_))
    | (with_reducible refine State.happen_sound ?_ (fun _ _ => ?_))
    | (with_reducible apply State.modBypass_sound)
    | (with_reducible apply State.bypassLow_sound)
    | (with_reducible apply State.portsIdle_sound)
    | (with_reducible apply State.portRecord_sound)
    | (with_reducible apply updPkg_sound)

theorem execSdRefclkReturn_sound {t : Nat} (h : Sound q f s) : SoundOut q f (execSdRefclkReturn t s) := by
  unfold execSdRefclkReturn
  repeat' first
    | (with_reducible assumption)
    | extract_lets
    | (with_reducible refine State.happen_sound ?_ (fun _ _ => ?_))
    | (with_reducible apply State.tryArm_sound)
    | (with_reducible apply updPkg_sound)

theorem execSysRefclkLoss_sound {t : Nat} (h : Sound q f s) : SoundOut q f (execSysRefclkLoss t s) := by
  unfold execSysRefclkLoss
  repeat' first
    | (with_reducible assumption)
    | extract_lets
    | (with_reducible refine State.happen_sound ?_ (fun _ _ => ?_))
    | (with_reducible apply State.bypassLow_sound)
    | (with_reducible apply State.portsIdle_sound)
    | (with_reducible apply updPkg_sound)

theorem execTimeBeacon_sound {t island elapsed : Nat} (h : Sound q f s) :
    SoundOut q f (execTimeBeacon t island elapsed s) := by
  unfold execTimeBeacon
  repeat' first
    | (with_reducible assumption)
    | extract_lets
    | (with_reducible refine State.happen_sound ?_ (fun _ _ => ?_))
    | (with_reducible apply State.takeMarks_sound)
    | split
    | (dsimp +zetaDelta only)
    | (with_reducible apply sound_mk)

theorem execPpsInEdge_sound {t highNs : Nat} (h : Sound q f s) :
    SoundOut q f (execPpsInEdge t highNs s) := by
  unfold execPpsInEdge
  repeat' first
    | (with_reducible assumption)
    | extract_lets
    | (with_reducible refine State.happen_sound ?_ (fun _ _ => ?_))
    | (with_reducible apply updPkg_sound)

theorem execPpsOutPulse_sound {t : Nat} (h : Sound q f s) : SoundOut q f (execPpsOutPulse t s) := by
  unfold execPpsOutPulse
  repeat' first
    | (with_reducible assumption)
    | extract_lets
    | (with_reducible refine State.happen_sound ?_ (fun _ _ => ?_))
    | (with_reducible apply updPkg_sound)

theorem execFreezeNFall_sound {t : Nat} (h : Sound q f s) : SoundOut q f (execFreezeNFall t s) := by
  unfold execFreezeNFall
  repeat' first
    | (with_reducible assumption)
    | extract_lets
    | (with_reducible refine sound_ite (fun _ => ?_) (fun _ => ?_))
    | (with_reducible refine State.happen_sound ?_ (fun _ _ => ?_))
    | (with_reducible apply State.stopIslands_sound)
    | (refine updObs_sound ?_ rfl rfl rfl)

theorem execFreezeNRise_sound {t : Nat} (h : Sound q f s) : SoundOut q f (execFreezeNRise t s) := by
  unfold execFreezeNRise
  repeat' first
    | (with_reducible assumption)
    | extract_lets
    | (with_reducible refine State.happen_sound ?_ (fun _ _ => ?_))
    | (with_reducible apply State.tryResume_sound)
    | (refine updObs_sound ?_ rfl rfl rfl)

theorem execJtagInstruction_sound {t : Nat} {boundary : Bool} {scope : Nat} (h : Sound q f s) :
    SoundOut q f (execJtagInstruction t boundary scope s) := by
  unfold execJtagInstruction
  repeat' first
    | (with_reducible assumption)
    | extract_lets
    | (with_reducible refine State.happen_sound ?_ (fun _ _ => ?_))
    | (with_reducible apply updPkg_sound)

theorem execSmbPwrCapWrite_sound {t value : Nat} (h : Sound q f s) :
    SoundOut q f (execSmbPwrCapWrite t value s) := by
  unfold execSmbPwrCapWrite
  repeat' first
    | (with_reducible assumption)
    | extract_lets
    | (with_reducible refine State.happen_sound ?_ (fun _ _ => ?_))
    | (with_reducible apply State.envelopeChanged_sound)
    | (with_reducible apply updPkg_sound)

theorem execSmbAlertStatusClear_sound {t : Nat} {ones : Byte} (h : Sound q f s) :
    SoundOut q f (execSmbAlertStatusClear t ones s) := by
  unfold execSmbAlertStatusClear
  repeat' first
    | (with_reducible assumption)
    | extract_lets
    | (with_reducible refine State.happen_sound ?_ (fun _ _ => ?_))
    | (with_reducible apply updPkg_sound)

theorem execSmbWriteRefused_sound {t offset value : Nat} (h : Sound q f s) :
    SoundOut q f (execSmbWriteRefused t offset value s) :=
  State.happen_sound h fun _ h => h

theorem execDeviceReset_sound {t : Nat} {h0 : CmdHdr} (h : Sound q f s) :
    SoundOut q f (execDeviceReset t h0 s) := by
  unfold execDeviceReset
  repeat' first
    | (with_reducible assumption)
    | extract_lets
    | (with_reducible refine State.isain_sound ?_ (fun _ _ => ?_))
    | (with_reducible apply reply_ok)
    | (with_reducible apply State.orderReset_sound)

theorem execDeviceResetTest_sound {t : Nat} {h0 : CmdHdr} (h : Sound q f s) :
    SoundOut q f (execDeviceResetTest t h0 s) := by
  unfold execDeviceResetTest
  repeat' first
    | (with_reducible assumption)
    | extract_lets
    | (with_reducible refine State.isain_sound ?_ (fun _ _ => ?_))
    | (with_reducible apply reply_ok)
    | (with_reducible apply State.orderReset_sound)
    | (with_reducible apply State.writeDir_sound)

theorem State.setFloor_sound {v : Nat} (h : Sound q f s) : Sound q f (State.setFloor v s) := by
  unfold State.setFloor
  repeat' first
    | (with_reducible assumption)
    | extract_lets
    | (with_reducible refine sound_ite (fun _ => ?_) (fun _ => ?_))
    | (with_reducible apply State.setRails_sound)
    | (with_reducible apply State.floorBreach_sound)
    | (with_reducible apply State.mapClusters_sound)
    | (with_reducible apply updPkg_sound)

theorem powerApply_sound {r : SetRec} (h : Sound q f s) : Sound q f (powerApply s r) := by
  unfold powerApply
  repeat' first
    | (with_reducible assumption)
    | extract_lets
    | (with_reducible apply State.envelopeChanged_sound)
    | (with_reducible apply State.setFloor_sound)
    | (with_reducible apply updPkg_sound)
    | split

theorem execPowerConfig_sound {t : Nat} {h0 : CmdHdr} {recs : List SetRec} (h : Sound q f s) :
    SoundOut q f (execPowerConfig t h0 recs s) := by
  unfold execPowerConfig
  repeat' first
    | (with_reducible assumption)
    | extract_lets
    | (with_reducible refine State.isain_sound ?_ (fun _ _ => ?_))
    | (with_reducible refine settings_sound ?_ (fun _ _ _ => ?_) (fun _ _ => ?_))
    | (with_reducible apply powerApply_sound)
    | (with_reducible apply State.keep_sound)

theorem execBypassForce_sound {t : Nat} {h0 : CmdHdr} (h : Sound q f s) :
    SoundOut q f (execBypassForce t h0 s) := by
  unfold execBypassForce
  repeat' first
    | (with_reducible assumption)
    | extract_lets
    | (with_reducible refine State.isain_sound ?_ (fun _ _ => ?_))
    | (with_reducible apply reply_ok)
    | (with_reducible apply State.bypassLow_sound)
    | (with_reducible apply State.modBypass_sound)

theorem execBypassReleaseForce_sound {t : Nat} {h0 : CmdHdr} (h : Sound q f s) :
    SoundOut q f (execBypassReleaseForce t h0 s) := by
  unfold execBypassReleaseForce
  repeat' first
    | (with_reducible assumption)
    | extract_lets
    | (with_reducible refine State.isain_sound ?_ (fun _ _ => ?_))
    | (with_reducible apply reply_ok)
    | (with_reducible apply State.tryArm_sound)
    | (with_reducible apply State.modBypass_sound)

theorem execBypassRearm_sound {t : Nat} {h0 : CmdHdr} (h : Sound q f s) :
    SoundOut q f (execBypassRearm t h0 s) := by
  unfold execBypassRearm
  repeat' first
    | (with_reducible assumption)
    | extract_lets
    | (with_reducible refine State.isain_sound ?_ (fun _ _ => ?_))
    | (with_reducible apply reply_ok)
    | (with_reducible apply State.tryArm_sound)
    | (with_reducible apply State.modBypass_sound)

theorem execBypassLinkTimeout_sound {t : Nat} (h : Sound q f s) :
    SoundOut q f (execBypassLinkTimeout t s) := by
  unfold execBypassLinkTimeout
  repeat' first
    | (with_reducible assumption)
    | extract_lets
    | (with_reducible refine State.happen_sound ?_ (fun _ _ => ?_))
    | (with_reducible apply State.tally_sound)
    | (with_reducible apply State.bypassLow_sound)
    | (with_reducible apply State.modBypass_sound)
    | (with_reducible apply State.portRecord_sound)

theorem execBypassRetryExpiry_sound {t : Nat} (h : Sound q f s) :
    SoundOut q f (execBypassRetryExpiry t s) := by
  unfold execBypassRetryExpiry
  repeat' first
    | (with_reducible assumption)
    | extract_lets
    | (with_reducible refine State.happen_sound ?_ (fun _ _ => ?_))
    | (with_reducible apply State.tryArm_sound)
    | (with_reducible apply State.modBypass_sound)

theorem execBypassHoldExpiry_sound {t : Nat} (h : Sound q f s) :
    SoundOut q f (execBypassHoldExpiry t s) := by
  unfold execBypassHoldExpiry
  repeat' first
    | (with_reducible assumption)
    | extract_lets
    | (with_reducible refine State.happen_sound ?_ (fun _ _ => ?_))
    | (with_reducible apply State.tryArm_sound)
    | (with_reducible apply State.modBypass_sound)

end Sys2Proof.Machine
end

