-- ==== Sys2Proof/Laws/SoundPorts.lean ====
section
/-! SUPPORT. The definitions of Machine/Ports.lean keep a sound state: the queue, the fuses, memory in its
canonical form, the counters' bound and Rosemary's numbering. -/

namespace Sys2Proof.Machine

variable {q : List Instr} {f : Fuses} {s : State}

theorem State.setMode_sound {p mode : Nat} (h : Sound q f s) : Sound q f (State.setMode p mode s) := by
  unfold State.setMode
  repeat' first
    | (with_reducible assumption)
    | extract_lets
    | (with_reducible refine sound_ite (fun _ => ?_) (fun _ => ?_))
    | (with_reducible apply State.modPort_sound)
    | (with_reducible apply updIfcs_sound)

theorem portApply_sound {r : SetRec} (h : Sound q f s) : Sound q f (portApply s r) := by
  unfold portApply
  repeat' first
    | (with_reducible assumption)
    | extract_lets
    | (with_reducible apply State.setMode_sound)
    | (with_reducible apply State.modIfc_sound)
    | (with_reducible apply State.modPort_sound)
    | (with_reducible apply State.modBypass_sound)
    | (with_reducible apply updOuv_sound)
    | split

theorem execPortConfig_sound {t : Nat} {h0 : CmdHdr} {recs : List SetRec} (h : Sound q f s) :
    SoundOut q f (execPortConfig t h0 recs s) := by
  unfold execPortConfig
  repeat' first
    | (with_reducible assumption)
    | extract_lets
    | (with_reducible refine State.isain_sound ?_ (fun _ _ => ?_))
    | (with_reducible refine settings_sound ?_ (fun _ _ _ => ?_) (fun _ _ => ?_))
    | (with_reducible apply State.keep_sound)
    | (with_reducible apply State.tryArm_sound)
    | (with_reducible apply State.lowAlert_sound)
    | (with_reducible apply portApply_sound)

theorem execPortDrain_sound {t : Nat} {h0 : CmdHdr} {port : Nat} (h : Sound q f s) :
    SoundOut q f (execPortDrain t h0 port s) := by
  unfold execPortDrain
  repeat' first
    | (with_reducible assumption)
    | extract_lets
    | (with_reducible refine sound_ite (fun _ => ?_) (fun _ => ?_))
    | (with_reducible refine State.isain_sound ?_ (fun _ _ => ?_))
    | (with_reducible apply reply_wait)
    | (with_reducible exact reply_no)
    | (with_reducible apply reply_ok)
    | (with_reducible apply State.modPort_sound)
    | (with_reducible apply State.bypassLow_sound)
    | split

theorem execPortResume_sound {t : Nat} {h0 : CmdHdr} {port : Nat} (h : Sound q f s) :
    SoundOut q f (execPortResume t h0 port s) := by
  unfold execPortResume
  repeat' first
    | (with_reducible assumption)
    | extract_lets
    | (with_reducible refine State.isain_sound ?_ (fun _ _ => ?_))
    | (with_reducible apply checks_sound)
    | (with_reducible apply reply_ok)
    | (with_reducible apply State.tryArm_sound)
    | (with_reducible apply State.modPort_sound)

theorem execPortStatus_sound {t : Nat} {h0 : CmdHdr} {port : Nat} (h : Sound q f s) :
    SoundOut q f (execPortStatus t h0 port s) := by
  unfold execPortStatus
  repeat' first
    | (with_reducible assumption)
    | extract_lets
    | (with_reducible refine State.isain_sound ?_ (fun _ _ => ?_))
    | (with_reducible apply reply_done)
    | (with_reducible exact reply_no)
    | split

theorem State.control_sound {ifc : Nat} {bytes : List Byte} (h : Sound q f s) :
    Sound q f (State.control ifc bytes s) := by
  unfold State.control
  repeat' first
    | (with_reducible assumption)
    | extract_lets
    | (with_reducible apply State.emit_sound)

theorem execPortTxFrame_sound {t : Nat} {h0 : CmdHdr} {ifc : Nat} {bytes : List Byte} (h : Sound q f s) :
    SoundOut q f (execPortTxFrame t h0 ifc bytes s) := by
  unfold execPortTxFrame
  repeat' first
    | (with_reducible assumption)
    | extract_lets
    | (with_reducible refine State.isain_sound ?_ (fun _ _ => ?_))
    | (with_reducible apply checks_sound)
    | (with_reducible apply reply_ok)
    | (with_reducible apply okReply_sound)
    | (with_reducible apply State.control_sound)

theorem execMacsecSaInstall_sound {t : Nat} {h0 : CmdHdr} {sa : SaSpec} (h : Sound q f s) :
    SoundOut q f (execMacsecSaInstall t h0 sa s) := by
  unfold execMacsecSaInstall
  repeat' first
    | (with_reducible assumption)
    | extract_lets
    | (with_reducible refine sound_ite (fun _ => ?_) (fun _ => ?_))
    | (with_reducible refine State.isain_sound ?_ (fun _ _ => ?_))
    | (with_reducible apply checks_sound)
    | (with_reducible apply reply_ok)
    | (with_reducible apply okReply_sound)
    | (with_reducible apply State.modIfc_sound)

theorem execMacsecSaRemove_sound {t : Nat} {h0 : CmdHdr} {ifc : Nat} {transmit : Bool} {sc an : Nat} (h :
    Sound q f s) :
    SoundOut q f (execMacsecSaRemove t h0 ifc transmit sc an s) := by
  unfold execMacsecSaRemove
  repeat' first
    | (with_reducible assumption)
    | extract_lets
    | (with_reducible refine State.isain_sound ?_ (fun _ _ => ?_))
    | (with_reducible exact reply_no)
    | (with_reducible apply reply_ok)
    | (with_reducible apply State.modIfc_sound)
    | split

theorem execWindowOpen_sound {t : Nat} {h0 : CmdHdr} {part win rights base pages : Nat} (h : Sound q f s) :
    SoundOut q f (execWindowOpen t h0 part win rights base pages s) := by
  unfold execWindowOpen
  repeat' first
    | (with_reducible assumption)
    | extract_lets
    | (with_reducible refine State.isain_sound ?_ (fun _ _ => ?_))
    | (with_reducible apply checks_sound)
    | (with_reducible apply reply_ok)
    | (with_reducible apply okReply_sound)
    | (with_reducible apply updOuv_sound)

theorem execWindowClose_sound {t : Nat} {h0 : CmdHdr} {part win : Nat} (h : Sound q f s) :
    SoundOut q f (execWindowClose t h0 part win s) := by
  unfold execWindowClose
  repeat' first
    | (with_reducible assumption)
    | extract_lets
    | (with_reducible refine State.isain_sound ?_ (fun _ _ => ?_))
    | (with_reducible exact reply_no)
    | (with_reducible apply reply_ok)
    | (with_reducible apply updOuv_sound)
    | split

theorem execBfdSessionSet_sound {t : Nat} {h0 : CmdHdr} {ifc sess txUs rxUs mult : Nat} {peer : BitVec
    128} (h : Sound q f s) :
    SoundOut q f (execBfdSessionSet t h0 ifc sess txUs rxUs mult peer s) := by
  unfold execBfdSessionSet
  repeat' first
    | (with_reducible assumption)
    | extract_lets
    | (with_reducible refine State.isain_sound ?_ (fun _ _ => ?_))
    | (with_reducible apply checks_sound)
    | (with_reducible apply reply_ok)
    | (with_reducible apply okReply_sound)
    | (with_reducible apply State.keep_sound)
    | (with_reducible apply State.modIfc_sound)

theorem execBfdSessionRemove_sound {t : Nat} {h0 : CmdHdr} {ifc sess : Nat} (h : Sound q f s) :
    SoundOut q f (execBfdSessionRemove t h0 ifc sess s) := by
  unfold execBfdSessionRemove
  repeat' first
    | (with_reducible assumption)
    | extract_lets
    | (with_reducible refine State.isain_sound ?_ (fun _ _ => ?_))
    | (with_reducible exact reply_no)
    | (with_reducible apply reply_ok)
    | (with_reducible apply State.modIfc_sound)
    | (with_reducible apply State.keep_sound)
    | split

theorem State.bfdSend_sound {ifc sess : Nat} {b : Bfd} {final : Bool} (h : Sound q f s) :
    Sound q f (State.bfdSend ifc sess b final s) := by
  unfold State.bfdSend
  repeat' first
    | (with_reducible assumption)
    | extract_lets
    | (with_reducible apply State.emit_sound)

theorem execBfdReceive_sound {t : Nat} {p : BfdPkt} (h : Sound q f s) :
    SoundOut q f (execBfdReceive t p s) := by
  unfold execBfdReceive
  repeat' first
    | (with_reducible assumption)
    | extract_lets
    | (with_reducible refine sound_ite (fun _ => ?_) (fun _ => ?_))
    | (with_reducible refine State.happen_sound ?_ (fun _ _ => ?_))
    | (with_reducible apply State.count_sound)
    | (with_reducible apply State.modIfc_sound)
    | (with_reducible apply State.bfdSend_sound)
    | split

theorem execBfdTxTimer_sound {t ifc sess : Nat} (h : Sound q f s) :
    SoundOut q f (execBfdTxTimer t ifc sess s) := by
  unfold execBfdTxTimer
  repeat' first
    | (with_reducible assumption)
    | extract_lets
    | (with_reducible refine State.happen_sound ?_ (fun _ _ => ?_))
    | (with_reducible apply State.modIfc_sound)
    | (with_reducible apply State.bfdSend_sound)
    | split

theorem execBfdDetectTimeout_sound {t ifc sess : Nat} (h : Sound q f s) :
    SoundOut q f (execBfdDetectTimeout t ifc sess s) := by
  unfold execBfdDetectTimeout
  repeat' first
    | (with_reducible assumption)
    | extract_lets
    | (with_reducible refine State.happen_sound ?_ (fun _ _ => ?_))
    | (with_reducible apply State.modIfc_sound)

theorem execTimeRead_sound {t : Nat} {h0 : CmdHdr} (h : Sound q f s) :
    SoundOut q f (execTimeRead t h0 s) := by
  unfold execTimeRead
  repeat' first
    | (with_reducible assumption)
    | extract_lets
    | (with_reducible refine State.isain_sound ?_ (fun _ _ => ?_))
    | (with_reducible apply reply_done)

theorem ptpApply_sound {r : SetRec} (h : Sound q f s) : Sound q f (ptpApply s r) := by
  unfold ptpApply
  repeat' first
    | (with_reducible assumption)
    | (with_reducible apply updWall_sound)
    | (with_reducible apply State.modIfc_sound)
    | split

theorem execPtpConfig_sound {t : Nat} {h0 : CmdHdr} {recs : List SetRec} (h : Sound q f s) :
    SoundOut q f (execPtpConfig t h0 recs s) := by
  unfold execPtpConfig
  repeat' first
    | (with_reducible assumption)
    | extract_lets
    | (with_reducible refine State.isain_sound ?_ (fun _ _ => ?_))
    | (with_reducible refine settings_sound ?_ (fun _ _ _ => ?_) (fun _ _ => ?_))
    | (with_reducible apply ptpApply_sound)
    | (with_reducible apply State.keep_sound)

theorem State.gatePend_sound {ifc : Nat} {l : GateList} {wall : Nat} (h : Sound q f s) :
    Sound q f (State.gatePend ifc l wall s) := by
  unfold State.gatePend
  repeat' first
    | (with_reducible assumption)
    | extract_lets
    | (with_reducible refine sound_ite (fun _ => ?_) (fun _ => ?_))
    | (with_reducible apply updEg_sound)
    | (with_reducible apply State.record_sound)

theorem State.gateRestart_sound {ifc : Nat} {g : Gates} (h : Sound q f s) :
    Sound q f (State.gateRestart ifc g s) := by
  unfold State.gateRestart
  repeat' first
    | (with_reducible assumption)
    | extract_lets
    | (with_reducible refine sound_ite (fun _ => ?_) (fun _ => ?_))
    | (with_reducible apply State.record_sound)
    | (with_reducible apply State.start_sound)
    | (with_reducible apply updEg_sound)
    | split

theorem State.gatesStep_sound (h : Sound q f s) : Sound q f (State.gatesStep s) := by
  unfold State.gatesStep
  repeat' first
    | (with_reducible assumption)
    | extract_lets
    | (with_reducible refine sound_foldl ?_ (fun _ _ _ => ?_))
    | (with_reducible refine sound_foldl_fst ?_ (fun _ _ _ => ?_))
    | (with_reducible apply State.gatePend_sound)
    | (with_reducible apply State.gateRestart_sound)
    | split

theorem State.stepWall_sound {offset : ℤ} {cause : Nat} (h : Sound q f s) :
    Sound q f (State.stepWall offset cause s) := by
  unfold State.stepWall
  repeat' first
    | (with_reducible assumption)
    | extract_lets
    | (with_reducible apply updWall_sound)
    | (with_reducible apply State.gatesStep_sound)
    | (with_reducible apply State.recordEvent_sound)

theorem State.servo_sound {offset : Int} (h : Sound q f s) : Sound q f (State.servo offset s) := by
  unfold State.servo
  repeat' first
    | (with_reducible assumption)
    | extract_lets
    | (with_reducible refine sound_ite (fun _ => ?_) (fun _ => ?_))
    | (with_reducible apply State.fresh_sound)
    | (with_reducible apply State.stepWall_sound)
    | (with_reducible apply updWall_sound)

theorem State.sendDelayReq_sound (h : Sound q f s) : Sound q f (State.sendDelayReq s) := by
  unfold State.sendDelayReq
  repeat' first
    | (with_reducible assumption)
    | extract_lets
    | (with_reducible apply State.emit_sound)
    | (with_reducible apply updWall_sound)

theorem State.takeSync_sound {origin : Int} {y : SyncHeld} (h : Sound q f s) :
    Sound q f (State.takeSync origin y s) := by
  unfold State.takeSync
  repeat' first
    | (with_reducible assumption)
    | extract_lets
    | (with_reducible apply State.servo_sound)
    | (with_reducible apply State.sendDelayReq_sound)
    | (with_reducible apply updWall_sound)

theorem State.takePtp_sound {m : PtpMsg} (h : Sound q f s) : Sound q f (State.takePtp m s) := by
  unfold State.takePtp
  repeat' first
    | (with_reducible assumption)
    | extract_lets
    | (with_reducible refine sound_ite (fun _ => ?_) (fun _ => ?_))
    | (with_reducible apply State.takeSync_sound)
    | (with_reducible apply updWall_sound)
    | split

theorem execPtpMessageReceive_sound {t : Nat} {m : PtpMsg} (h : Sound q f s) :
    SoundOut q f (execPtpMessageReceive t m s) := by
  unfold execPtpMessageReceive
  repeat' first
    | (with_reducible assumption)
    | extract_lets
    | (with_reducible refine State.happen_sound ?_ (fun _ _ => ?_))
    | (with_reducible refine sound_ite (fun _ => ?_) (fun _ => ?_))
    | (with_reducible apply updWall_sound)
    | (with_reducible apply State.takePtp_sound)

theorem execWallTimeHoldover_sound {t : Nat} (h : Sound q f s) :
    SoundOut q f (execWallTimeHoldover t s) := by
  unfold execWallTimeHoldover
  repeat' first
    | (with_reducible assumption)
    | extract_lets
    | (with_reducible refine State.happen_sound ?_ (fun _ _ => ?_))
    | (with_reducible apply updWall_sound)

theorem State.linkLost_sound {i : Nat} (h : Sound q f s) : Sound q f (State.linkLost i s) := by
  unfold State.linkLost
  repeat' first
    | (with_reducible assumption)
    | extract_lets
    | (with_reducible refine sound_ite (fun _ => ?_) (fun _ => ?_))
    | (with_reducible apply State.modIfc_sound)
    | (with_reducible apply State.modBypass_sound)
    | (with_reducible apply State.bypassLow_sound)

theorem execLinkUp_sound {t ifc : Nat} (h : Sound q f s) : SoundOut q f (execLinkUp t ifc s) := by
  unfold execLinkUp
  repeat' first
    | (with_reducible assumption)
    | extract_lets
    | (with_reducible refine sound_ite (fun _ => ?_) (fun _ => ?_))
    | (with_reducible refine State.happen_sound ?_ (fun _ _ => ?_))
    | (with_reducible apply State.modIfc_sound)
    | (with_reducible apply State.modPort_sound)
    | (with_reducible apply State.modBypass_sound)
    | (with_reducible apply State.tryArm_sound)
    | (with_reducible apply State.portState_sound)

theorem execLinkDown_sound {t ifc : Nat} (h : Sound q f s) : SoundOut q f (execLinkDown t ifc s) := by
  unfold execLinkDown
  repeat' first
    | (with_reducible assumption)
    | extract_lets
    | (with_reducible refine State.happen_sound ?_ (fun _ _ => ?_))
    | (with_reducible apply State.portState_sound)
    | (with_reducible apply State.linkLost_sound)

theorem execLaneFail_sound {t port lane : Nat} (h : Sound q f s) :
    SoundOut q f (execLaneFail t port lane s) := by
  unfold execLaneFail
  repeat' first
    | (with_reducible assumption)
    | extract_lets
    | (with_reducible refine sound_ite (fun _ => ?_) (fun _ => ?_))
    | (with_reducible refine State.happen_sound ?_ (fun _ _ => ?_))
    | (with_reducible apply State.modPort_sound)
    | (with_reducible apply State.portState_sound)
    | (with_reducible apply State.linkLost_sound)
    | split

theorem execFallbackTimeout_sound {t port : Nat} (h : Sound q f s) :
    SoundOut q f (execFallbackTimeout t port s) := by
  unfold execFallbackTimeout
  repeat' first
    | (with_reducible assumption)
    | extract_lets
    | (with_reducible refine State.happen_sound ?_ (fun _ _ => ?_))
    | (with_reducible apply State.portState_sound)
    | (with_reducible apply State.modPort_sound)
    | (with_reducible apply State.linkLost_sound)

end Sys2Proof.Machine
end

