-- ==== Sys2Proof/Laws/SoundOuvlen.lean ====
section
/-! SUPPORT. The definitions of Machine/Ouvlen.lean keep a sound state: the queue, the fuses, memory in its
canonical form, the counters' bound and Rosemary's numbering. -/

namespace Sys2Proof.Machine

variable {q : List Instr} {f : Fuses} {s : State}

theorem State.owe_sound {sid seq : Nat} (h : Sound q f s) : Sound q f (State.owe sid seq s) := by
  unfold State.owe
  repeat' first
    | (with_reducible assumption)
    | (with_reducible apply State.modSession_sound)

theorem State.refuseFrame_sound {sid seq : Nat} {st : Status} (h : Sound q f s) :
    Sound q f (State.refuseFrame sid seq st s) := by
  unfold State.refuseFrame
  repeat' first
    | (with_reducible assumption)
    | (with_reducible apply State.modSession_sound)

theorem State.settle_sound {f0 : OuvHdr} {o : FrameOut} (h : Sound q f s) (ho : FrameSound q f o) :
    Sound q f (s.settle f0 o) := by
  unfold State.settle
  cases o with
  | done s' =>
    dsimp only
    split
    · exact State.owe_sound ho
    · exact ho
  | refuse st => exact State.refuseFrame_sound h
  | silent s' => exact ho

theorem State.actFrame_sound {f0 : OuvHdr} {x : Session} {act : Session → State → FrameOut}
    (h : Sound q f s) (ha : ∀ x s, Sound q f s → FrameSound q f (act x s)) :
    Sound q f (s.actFrame f0 x act) := by
  unfold State.actFrame
  extract_lets x1 s1
  have h1 : Sound q f s1 := State.modSession_sound h
  refine State.closeWorn_sound (State.settle_sound h1 ?_)
  split
  · exact frame_refuse
  · exact ha _ _ h1

theorem State.onFrame_sound {t : Nat} {f0 : OuvHdr} {want : Nat} {act : Session → State → FrameOut}
    (h : Sound q f s) (ha : ∀ x s, Sound q f s → FrameSound q f (act x s)) :
    SoundOut q f (s.onFrame t f0 want act) := by
  unfold State.onFrame
  extract_lets s1
  have h1 : Sound q f s1 := State.at_sound h
  split
  · exact soundOut_next h1
  · exact soundOut_next (State.count_sound h1)
  · exact soundOut_next (State.actFrame_sound h1 ha)

theorem frameChecks_sound {r : FrameOut} (h : FrameSound q f r) : ∀ {l : List (Bool × Status)},
    FrameSound q f (frameChecks l r)
  | [] => h
  | (bad, st) :: rest => by
    unfold frameChecks
    split
    · exact frame_refuse
    · exact frameChecks_sound h

theorem State.refuseHello_sound {w : HelloFrom} {key : Option (BitVec 256)} {st : Status} (h : Sound q f
    s) :
    Sound q f (State.refuseHello w key st s) := by
  unfold State.refuseHello
  repeat' first
    | (with_reducible assumption)
    | extract_lets
    | (with_reducible apply State.putOuv_sound)

theorem State.acceptHello_sound {w : HelloFrom} {c : HelloPart} {ss : BitVec 256} (h : Sound q f s) :
    Sound q f (State.acceptHello w c ss s) := by
  unfold State.acceptHello
  repeat' first
    | (with_reducible assumption)
    | extract_lets
    | (with_reducible apply State.putOuv_sound)
    | (with_reducible apply updOuv_sound)
    | split
    | (dsimp +zetaDelta only)
    | (with_reducible apply sound_mk)

theorem State.judgeHello_sound {w : HelloFrom} {c : HelloPart} {ct : List Byte} {tagsOk : Bool} (h : Sound
    q f s) :
    Sound q f (State.judgeHello w c ct tagsOk s) := by
  unfold State.judgeHello
  repeat' first
    | (with_reducible assumption)
    | extract_lets
    | (with_reducible refine sound_ite (fun _ => ?_) (fun _ => ?_))
    | (with_reducible apply State.tally_sound)
    | (with_reducible apply State.refuseHello_sound)
    | (with_reducible apply State.acceptHello_sound)

theorem State.takeHello_sound {f0 : OuvHdr} {p : HelloPart} (h : Sound q f s) :
    Sound q f (State.takeHello f0 p s) := by
  unfold State.takeHello
  repeat' first
    | (with_reducible assumption)
    | extract_lets
    | (with_reducible refine sound_ite (fun _ => ?_) (fun _ => ?_))
    | (with_reducible apply State.tally_sound)
    | (with_reducible apply State.judgeHello_sound)
    | (with_reducible apply updOuv_sound)
    | split

theorem State.onSetup_sound {t : Nat} {f0 : OuvHdr} {want : Nat} {act : State → State}
    (h : Sound q f s) (ha : ∀ s, Sound q f s → Sound q f (act s)) :
    SoundOut q f (s.onSetup t f0 want act) := by
  unfold State.onSetup
  extract_lets s1
  have h1 : Sound q f s1 := State.at_sound h
  repeat' first
    | (with_reducible assumption)
    | (with_reducible apply soundOut_next)
    | (with_reducible apply State.count_sound)
    | (with_reducible apply State.tally_sound)
    | (with_reducible apply ha)
    | split

theorem execHello_sound {t : Nat} {f0 : OuvHdr} {p : HelloPart} (h : Sound q f s) :
    SoundOut q f (execHello t f0 p s) := by
  unfold execHello
  repeat' first
    | (with_reducible assumption)
    | extract_lets
    | (with_reducible refine State.onSetup_sound ?_ (fun _ _ => ?_))
    | (with_reducible apply State.takeHello_sound)

theorem execHelloPartExpiry_sound {t ifc seq : Nat} (h : Sound q f s) :
    SoundOut q f (execHelloPartExpiry t ifc seq s) := by
  unfold execHelloPartExpiry
  repeat' first
    | (with_reducible assumption)
    | extract_lets
    | (with_reducible refine State.happen_sound ?_ (fun _ _ => ?_))
    | (with_reducible apply updOuv_sound)

theorem execKeyFetch_sound {t : Nat} {f0 : OuvHdr} (h : Sound q f s) :
    SoundOut q f (execKeyFetch t f0 s) := by
  unfold execKeyFetch
  repeat' first
    | (with_reducible assumption)
    | extract_lets
    | (with_reducible refine State.onSetup_sound ?_ (fun _ _ => ?_))
    | (with_reducible apply State.putOuv_sound)

theorem State.writeEntries_sound {n : Nat} {start : W32} {entries : List (List W64)} (h : Sound q f s) :
    Sound q f (State.writeEntries n start entries s) := by
  unfold State.writeEntries
  repeat' first
    | (with_reducible assumption)
    | extract_lets
    | (with_reducible refine sound_ite (fun _ => ?_) (fun _ => ?_))
    | (with_reducible refine sound_foldl ?_ (fun _ _ _ => ?_))
    | (with_reducible apply State.poke_sound)

theorem State.ringWriteAt_sound {n owner : Nat} {start : W32} {entries : List (List W64)} (h : Sound q f
    s) :
    FrameSound q f (State.ringWriteAt n owner start entries s) := by
  unfold State.ringWriteAt
  repeat' first
    | (with_reducible assumption)
    | extract_lets
    | (with_reducible apply frame_done)
    | (with_reducible apply frameChecks_sound)
    | (with_reducible apply State.start_sound)
    | (with_reducible apply State.writeEntries_sound)

theorem State.produceAt_sound {n owner : Nat} {p : W32} (h : Sound q f s) :
    FrameSound q f (State.produceAt n owner p s) := by
  unfold State.produceAt
  repeat' first
    | (with_reducible assumption)
    | extract_lets
    | (with_reducible apply frameChecks_sound)
    | (with_reducible apply frame_done)
    | (with_reducible apply State.setRing_sound)
    | (with_reducible apply State.tally_sound)
    | split

theorem State.releaseAt_sound {n owner : Nat} {p : W32} (h : Sound q f s) :
    FrameSound q f (State.releaseAt n owner p s) := by
  unfold State.releaseAt
  repeat' first
    | (with_reducible assumption)
    | extract_lets
    | (with_reducible apply frameChecks_sound)
    | (with_reducible apply frame_done)
    | (with_reducible apply State.drainStalled_sound)
    | (with_reducible apply State.setRing_sound)
    | (with_reducible apply State.tally_sound)
    | split

theorem State.doorbellAt_sound {n owner : Nat} {p : W32} (h : Sound q f s) :
    FrameSound q f (State.doorbellAt n owner p s) := by
  unfold State.doorbellAt
  repeat' first
    | (with_reducible assumption)
    | (with_reducible apply State.produceAt_sound)
    | (with_reducible apply State.releaseAt_sound)
    | split

theorem State.ringFrame_sound {f0 : OuvHdr} {x : Session} {op : CtxOp} {now : State → FrameOut}
    (h : Sound q f s) (hn : ∀ s, Sound q f s → FrameSound q f (now s)) :
    FrameSound q f (s.ringFrame f0 x op now) := by
  unfold State.ringFrame
  repeat' first
    | (with_reducible assumption)
    | (with_reducible exact frame_refuse)
    | (with_reducible apply frame_silent)
    | (with_reducible apply State.missCtx_sound)
    | (with_reducible apply State.useCtx_sound)
    | (with_reducible apply hn)
    | split

theorem execRingWrite_sound {t : Nat} {f0 : OuvHdr} {start : W32} {entries : List (List W64)} (h : Sound q
    f s) :
    SoundOut q f (execRingWrite t f0 start entries s) := by
  unfold execRingWrite
  repeat' first
    | (with_reducible assumption)
    | extract_lets
    | (with_reducible refine State.onFrame_sound ?_ (fun _ _ _ => ?_))
    | (with_reducible refine State.ringFrame_sound ?_ (fun _ _ => ?_))
    | (with_reducible apply State.ringWriteAt_sound)

theorem execDoorbellProduce_sound {t : Nat} {f0 : OuvHdr} {idx : W32} (h : Sound q f s) :
    SoundOut q f (execDoorbellProduce t f0 idx s) := by
  unfold execDoorbellProduce
  repeat' first
    | (with_reducible assumption)
    | extract_lets
    | (with_reducible refine State.onFrame_sound ?_ (fun _ _ _ => ?_))
    | (with_reducible refine State.ringFrame_sound ?_ (fun _ _ => ?_))
    | (with_reducible apply State.doorbellAt_sound)

theorem execDoorbellRelease_sound {t : Nat} {f0 : OuvHdr} {idx : W32} (h : Sound q f s) :
    SoundOut q f (execDoorbellRelease t f0 idx s) := by
  unfold execDoorbellRelease
  repeat' first
    | (with_reducible assumption)
    | extract_lets
    | (with_reducible refine State.onFrame_sound ?_ (fun _ _ _ => ?_))
    | (with_reducible refine State.ringFrame_sound ?_ (fun _ _ => ?_))
    | (with_reducible apply State.doorbellAt_sound)

theorem State.resumeOp_sound {n : Nat} {op : CtxOp} (h : Sound q f s) : Sound q f (s.resumeOp n op) := by
  unfold State.resumeOp
  cases op with
  | item es => exact State.itemNow_sound h
  | write f0 start es =>
    dsimp only
    split
    · exact State.settle_sound h (State.ringWriteAt_sound h)
    · exact h
  | produce f0 i =>
    dsimp only
    split
    · exact State.settle_sound h (State.doorbellAt_sound h)
    · exact h
  | release f0 i =>
    dsimp only
    split
    · exact State.settle_sound h (State.doorbellAt_sound h)
    · exact h

theorem execContextFetch_sound {t ring : Nat} {check : WordCheck} (h : Sound q f s) :
    SoundOut q f (execContextFetch t ring check s) := by
  unfold execContextFetch
  repeat' first
    | (with_reducible assumption)
    | extract_lets
    | (with_reducible refine sound_ite (fun _ => ?_) (fun _ => ?_))
    | (with_reducible refine sound_foldl ?_ (fun _ _ _ => ?_))
    | (with_reducible refine State.happen_sound ?_ (fun _ _ => ?_))
    | (with_reducible apply updRings_sound)
    | (with_reducible apply State.useCtx_sound)
    | (with_reducible apply State.isainWord_sound)
    | (with_reducible apply State.faultRing_sound)
    | (with_reducible apply State.resumeOp_sound)

theorem State.pushRange_sound {n sid : Nat} {start : W32} {count : Nat} (h : Sound q f s) :
    Sound q f (State.pushRange n sid start count s) := by
  unfold State.pushRange
  repeat' first
    | (with_reducible assumption)
    | extract_lets
    | (with_reducible refine sound_foldl ?_ (fun _ _ _ => ?_))
    | (with_reducible apply State.touch_sound)
    | (with_reducible apply State.strike_sound)
    | (with_reducible apply State.sendOuv_sound)

theorem execRingPush_sound {t ring : Nat} (h : Sound q f s) : SoundOut q f (execRingPush t ring s) := by
  unfold execRingPush
  repeat' first
    | (with_reducible assumption)
    | extract_lets
    | (with_reducible refine sound_ite (fun _ => ?_) (fun _ => ?_))
    | (with_reducible refine State.happen_sound ?_ (fun _ _ => ?_))
    | (with_reducible apply State.modRing_sound)
    | (with_reducible apply State.useCtx_sound)
    | (with_reducible apply State.missCtx_sound)
    | (with_reducible apply State.pushRange_sound)

theorem State.deliver_sound {sid : Nat} {x : Session} {h0 : CmdHdr} {opcode : Nat} (h : Sound q f s) :
    Sound q f (State.deliver sid x h0 opcode s) := by
  unfold State.deliver
  repeat' first
    | (with_reducible assumption)
    | extract_lets
    | (with_reducible refine sound_ite (fun _ => ?_) (fun _ => ?_))
    | (with_reducible apply State.modSession_sound)
    | (with_reducible apply State.sendOuv_sound)
    | (with_reducible apply State.answer_sound)
    | split

theorem execMboxReq_sound {t : Nat} {f0 : OuvHdr} {h0 : CmdHdr} {opcode : Nat} (h : Sound q f s) :
    SoundOut q f (execMboxReq t f0 h0 opcode s) := by
  unfold execMboxReq
  repeat' first
    | (with_reducible assumption)
    | extract_lets
    | (with_reducible refine State.onFrame_sound ?_ (fun _ _ _ => ?_))
    | (with_reducible apply frame_done)
    | (with_reducible exact frame_refuse)
    | (with_reducible apply frame_silent)
    | (with_reducible apply State.deliver_sound)
    | split

theorem execWinRead_sound {t : Nat} {f0 : OuvHdr} {offset len : Nat} (h : Sound q f s) :
    SoundOut q f (execWinRead t f0 offset len s) := by
  unfold execWinRead
  repeat' first
    | (with_reducible assumption)
    | extract_lets
    | (with_reducible refine State.onFrame_sound ?_ (fun _ _ _ => ?_))
    | (with_reducible apply frame_done)
    | (with_reducible apply State.sendOuv_sound)
    | (with_reducible apply State.touch_sound)
    | (with_reducible apply State.strike_sound)
    | split

theorem execHostClose_sound {t : Nat} {f0 : OuvHdr} {_status : Nat} (h : Sound q f s) :
    SoundOut q f (execHostClose t f0 _status s) := by
  unfold execHostClose
  repeat' first
    | (with_reducible assumption)
    | extract_lets
    | (with_reducible refine State.onFrame_sound ?_ (fun _ _ _ => ?_))
    | (with_reducible apply frame_silent)
    | (with_reducible apply State.endSession_sound)

theorem execSessionIdleTimeout_sound {t sid : Nat} (h : Sound q f s) :
    SoundOut q f (execSessionIdleTimeout t sid s) := by
  unfold execSessionIdleTimeout
  repeat' first
    | (with_reducible assumption)
    | extract_lets
    | (with_reducible refine State.happen_sound ?_ (fun _ _ => ?_))
    | (with_reducible apply State.closeSession_sound)

theorem State.sendAck_sound {sid : Nat} (h : Sound q f s) : Sound q f (State.sendAck sid s) := by
  unfold State.sendAck
  repeat' first
    | (with_reducible assumption)
    | extract_lets
    | (with_reducible apply State.sendOuv_sound)
    | (with_reducible apply State.modSession_sound)
    | split

theorem execAckSend_sound {t sid : Nat} (h : Sound q f s) : SoundOut q f (execAckSend t sid s) := by
  unfold execAckSend
  repeat' first
    | (with_reducible assumption)
    | extract_lets
    | (with_reducible refine State.happen_sound ?_ (fun _ _ => ?_))
    | (with_reducible apply State.sendAck_sound)

theorem execCreditAck_sound {t sid ring : Nat} (h : Sound q f s) :
    SoundOut q f (execCreditAck t sid ring s) := by
  unfold execCreditAck
  repeat' first
    | (with_reducible assumption)
    | extract_lets
    | (with_reducible refine State.happen_sound ?_ (fun _ _ => ?_))
    | (with_reducible apply State.sendAck_sound)
    | (with_reducible apply State.modSession_sound)

end Sys2Proof.Machine
end

