-- ==== Sys2Proof/Laws/SoundRingRows.lean ====
section
/-! SUPPORT. The definitions of Machine/RingRows.lean keep a sound state: the queue, the fuses, memory in its
canonical form, the counters' bound and Rosemary's numbering. -/

namespace Sys2Proof.Machine

variable {q : List Instr} {f : Fuses} {s : State}

theorem execRingCreate_sound {t : Nat} {h0 : CmdHdr} {spec : RingSpec} (h : Sound q f s) :
    SoundOut q f (execRingCreate t h0 spec s) := by
  unfold execRingCreate
  repeat' first
    | (with_reducible assumption)
    | extract_lets
    | (with_reducible refine sound_ite (fun _ => ?_) (fun _ => ?_))
    | (with_reducible refine State.isain_sound ?_ (fun _ _ => ?_))
    | (with_reducible apply checks_sound)
    | (with_reducible apply reply_ok)
    | (with_reducible apply State.setRing_sound)
    | (with_reducible apply State.useCtx_sound)
    | (with_reducible apply State.tellCredit_sound)
    | (with_reducible apply okReply_sound)
    | (with_reducible apply State.keep_sound)

theorem execRingConfig_sound {t : Nat} {h0 : CmdHdr} {m : RingMask} (h : Sound q f s) :
    SoundOut q f (execRingConfig t h0 m s) := by
  unfold execRingConfig
  repeat' first
    | (with_reducible assumption)
    | extract_lets
    | (with_reducible refine sound_ite (fun _ => ?_) (fun _ => ?_))
    | (with_reducible refine State.isain_sound ?_ (fun _ _ => ?_))
    | (with_reducible apply checks_sound)
    | (with_reducible apply reply_ok)
    | (with_reducible apply State.dropStalled_sound)
    | (with_reducible apply State.useCtx_sound)
    | (with_reducible apply State.modRing_sound)
    | (with_reducible apply State.keep_sound)

theorem execRingAttach_sound {t : Nat} {h0 : CmdHdr} {ring sid : Nat} (h : Sound q f s) :
    SoundOut q f (execRingAttach t h0 ring sid s) := by
  unfold execRingAttach
  repeat' first
    | (with_reducible assumption)
    | extract_lets
    | (with_reducible refine State.isain_sound ?_ (fun _ _ => ?_))
    | (with_reducible apply checks_sound)
    | (with_reducible apply reply_ok)
    | (with_reducible apply State.setRing_sound)
    | (with_reducible apply State.useCtx_sound)

theorem execRingDetach_sound {t : Nat} {h0 : CmdHdr} {ring : Nat} (h : Sound q f s) :
    SoundOut q f (execRingDetach t h0 ring s) := by
  unfold execRingDetach
  repeat' first
    | (with_reducible assumption)
    | extract_lets
    | (with_reducible refine State.isain_sound ?_ (fun _ _ => ?_))
    | (with_reducible apply checks_sound)
    | (with_reducible apply reply_ok)
    | (with_reducible apply State.useCtx_sound)
    | (with_reducible apply State.modRing_sound)

theorem execRingDestroy_sound {t : Nat} {h0 : CmdHdr} {ring : Nat} (h : Sound q f s) :
    SoundOut q f (execRingDestroy t h0 ring s) := by
  unfold execRingDestroy
  repeat' first
    | (with_reducible assumption)
    | extract_lets
    | (with_reducible refine State.isain_sound ?_ (fun _ _ => ?_))
    | (with_reducible apply checks_sound)
    | (with_reducible apply reply_ok)
    | (with_reducible apply updRings_sound)
    | (with_reducible apply State.keep_sound)

theorem execRingQuery_sound {t : Nat} {h0 : CmdHdr} {ring : Nat} (h : Sound q f s) :
    SoundOut q f (execRingQuery t h0 ring s) := by
  unfold execRingQuery
  repeat' first
    | (with_reducible assumption)
    | extract_lets
    | (with_reducible refine State.isain_sound ?_ (fun _ _ => ?_))
    | (with_reducible apply reply_done)

theorem State.repush_sound {n sid : Nat} {start : W32} {count : Nat} (h : Sound q f s) :
    Sound q f (State.repush n sid start count s) := by
  unfold State.repush
  repeat' first
    | (with_reducible assumption)
    | extract_lets
    | (with_reducible refine sound_foldl ?_ (fun _ _ _ => ?_))
    | (with_reducible apply State.pushRange_sound)

theorem execRingRepush_sound {t : Nat} {h0 : CmdHdr} {ring : Nat} {start : W32} {count : Nat} (h : Sound q
    f s) :
    SoundOut q f (execRingRepush t h0 ring start count s) := by
  unfold execRingRepush
  repeat' first
    | (with_reducible assumption)
    | extract_lets
    | (with_reducible refine State.isain_sound ?_ (fun _ _ => ?_))
    | (with_reducible apply checks_sound)
    | (with_reducible apply reply_ok)
    | (with_reducible apply State.repush_sound)

theorem execSlotQuery_sound {t : Nat} {h0 : CmdHdr} {slot : Nat} (h : Sound q f s) :
    SoundOut q f (execSlotQuery t h0 slot s) := by
  unfold execSlotQuery
  repeat' first
    | (with_reducible assumption)
    | extract_lets
    | (with_reducible refine State.isain_sound ?_ (fun _ _ => ?_))
    | (with_reducible apply reply_done)
    | (with_reducible exact reply_no)
    | split

theorem execBarrier_sound {t : Nat} {h0 : CmdHdr} {rings : List Nat} {pairs : List (Nat × Nat)} (h : Sound
    q f s) :
    SoundOut q f (execBarrier t h0 rings pairs s) := by
  unfold execBarrier
  repeat' first
    | (with_reducible assumption)
    | extract_lets
    | (with_reducible refine State.isain_sound ?_ (fun _ _ => ?_))
    | (with_reducible apply checksAt_sound)
    | (with_reducible apply reply_wait)
    | (with_reducible apply updRings_sound)

theorem State.dropBarrier_sound {part idx : Nat} (h : Sound q f s) :
    Sound q f (State.dropBarrier part idx s) := by
  unfold State.dropBarrier
  repeat' first
    | (with_reducible assumption)
    | (with_reducible apply updRings_sound)

theorem execBarrierComplete_sound {t part idx : Nat} (h : Sound q f s) :
    SoundOut q f (execBarrierComplete t part idx s) := by
  unfold execBarrierComplete
  repeat' first
    | (with_reducible assumption)
    | extract_lets
    | (with_reducible refine State.happen_sound ?_ (fun _ _ => ?_))
    | (with_reducible apply State.answer_sound)
    | (with_reducible apply State.dropBarrier_sound)
    | split

theorem State.onCtx_sound {t n : Nat} {guard : State → Bool} {eff : State → State} (h : Sound q f s) (heff
    : ∀ s, Sound q f s → Sound q f (eff s)) :
    SoundOut q f (State.onCtx t n guard eff s) := by
  unfold State.onCtx
  repeat' first
    | (with_reducible assumption)
    | extract_lets
    | (with_reducible refine sound_ite (fun _ => ?_) (fun _ => ?_))
    | (with_reducible apply heff)
    | (with_reducible refine State.happen_sound ?_ (fun _ _ => ?_))
    | (with_reducible apply State.missCtx_sound)

theorem State.refuseEntry_sound {n : Nat} {i : W32} {ws : List W64} {k : Nat} {st : Status} (h : Sound q f
    s) :
    Sound q f (State.refuseEntry n i ws k st s) := by
  unfold State.refuseEntry
  repeat' first
    | (with_reducible assumption)
    | extract_lets
    | (with_reducible refine sound_ite (fun _ => ?_) (fun _ => ?_))
    | (with_reducible apply State.modRing_sound)
    | (with_reducible apply State.ringItem_sound)
    | (with_reducible apply State.consume_sound)

theorem State.faultEntry_sound {n : Nat} {i : W32} {ws : List W64} (h : Sound q f s) :
    Sound q f (State.faultEntry n i ws s) := by
  unfold State.faultEntry
  repeat' first
    | (with_reducible assumption)
    | extract_lets
    | (with_reducible apply State.consume_sound)
    | (with_reducible apply State.modRing_sound)

theorem State.nextEntry_sound {n kind : Nat} {good : W32 → List W64 → State → State} (h : Sound q f s)
    (hg : ∀ i ws s, Sound q f s → Sound q f (good i ws s)) : Sound q f (s.nextEntry n kind good) := by
  unfold State.nextEntry
  repeat' first
    | (with_reducible assumption)
    | extract_lets
    | (with_reducible apply hg)
    | (with_reducible apply State.faultEntry_sound)
    | (with_reducible apply State.refuseEntry_sound)
    | (with_reducible apply State.touch_sound)
    | (with_reducible apply State.useCtx_sound)
    | split

theorem execFenceEntry_sound {t ring : Nat} (h : Sound q f s) : SoundOut q f (execFenceEntry t ring s) := by
  unfold execFenceEntry
  repeat' first
    | (with_reducible assumption)
    | extract_lets
    | (with_reducible refine State.onCtx_sound ?_ (fun _ _ => ?_))
    | (with_reducible refine State.nextEntry_sound ?_ (fun _ _ _ _ => ?_))
    | (with_reducible apply State.modRing_sound)
    | (with_reducible apply State.consume_sound)

theorem execFenceComplete_sound {t ring : Nat} (h : Sound q f s) :
    SoundOut q f (execFenceComplete t ring s) := by
  unfold execFenceComplete
  repeat' first
    | (with_reducible assumption)
    | extract_lets
    | (with_reducible refine sound_ite (fun _ => ?_) (fun _ => ?_))
    | (with_reducible refine State.happen_sound ?_ (fun _ _ => ?_))
    | (with_reducible apply State.setRing_sound)
    | (with_reducible apply State.ringItem_sound)
    | (with_reducible apply State.modRing_sound)
    | split

theorem execNopEntry_sound {t ring : Nat} (h : Sound q f s) : SoundOut q f (execNopEntry t ring s) := by
  unfold execNopEntry
  repeat' first
    | (with_reducible assumption)
    | extract_lets
    | (with_reducible refine State.onCtx_sound ?_ (fun _ _ => ?_))
    | (with_reducible refine State.nextEntry_sound ?_ (fun _ _ _ _ => ?_))
    | (with_reducible apply State.consume_sound)

theorem State.takeCmd_sound {n : Nat} {i : W32} {ws : List W64} (h : Sound q f s) :
    Sound q f (State.takeCmd n i ws s) := by
  unfold State.takeCmd
  repeat' first
    | (with_reducible assumption)
    | extract_lets
    | (with_reducible refine sound_ite (fun _ => ?_) (fun _ => ?_))
    | (with_reducible apply State.modRing_sound)
    | (with_reducible apply State.answer_sound)

theorem execCommandEntry_sound {t ring : Nat} (h : Sound q f s) :
    SoundOut q f (execCommandEntry t ring s) := by
  unfold execCommandEntry
  repeat' first
    | (with_reducible assumption)
    | extract_lets
    | (with_reducible refine sound_ite (fun _ => ?_) (fun _ => ?_))
    | (with_reducible refine sound_foldl ?_ (fun _ _ _ => ?_))
    | (with_reducible refine sound_foldl_fst ?_ (fun _ _ _ => ?_))
    | (with_reducible refine State.onCtx_sound ?_ (fun _ _ => ?_))
    | (with_reducible refine State.nextEntry_sound ?_ (fun _ _ _ _ => ?_))
    | (with_reducible apply fab_drop)
    | (with_reducible apply State.touch_sound)
    | (with_reducible apply State.consume_sound)
    | (with_reducible apply State.refuseEntry_sound)
    | (with_reducible apply State.faultEntry_sound)
    | (with_reducible apply State.takeCmd_sound)
    | split

theorem execRingFullStallExpiry_sound {t ring : Nat} (h : Sound q f s) :
    SoundOut q f (execRingFullStallExpiry t ring s) := by
  unfold execRingFullStallExpiry
  repeat' first
    | (with_reducible assumption)
    | extract_lets
    | (with_reducible refine State.happen_sound ?_ (fun _ _ => ?_))
    | (with_reducible apply State.drainStalled_sound)
    | (with_reducible apply State.dropItem_sound)
    | (with_reducible apply State.modRing_sound)
    | split

end Sys2Proof.Machine
end

