-- ==== Sys2Proof/Laws/SoundFrames.lean ====
section
/-! SUPPORT. The definitions of Machine/Frames.lean keep a sound state: the queue, the fuses, memory in its
canonical form, the counters' bound and Rosemary's numbering. -/

namespace Sys2Proof.Machine

variable {q : List Instr} {f : Fuses} {s : State}

theorem State.modFrame_sound {id : Nat} {f0 : Frame → Frame} (h : Sound q f s) :
    Sound q f (State.modFrame id f0 s) := by
  unfold State.modFrame
  repeat' first
    | (with_reducible assumption)
    | (with_reducible apply updParser_sound)

theorem State.pfcCheck_sound {ifc prio : Nat} (h : Sound q f s) :
    Sound q f (State.pfcCheck ifc prio s) := by
  unfold State.pfcCheck
  repeat' first
    | (with_reducible assumption)
    | extract_lets
    | (with_reducible refine sound_ite (fun _ => ?_) (fun _ => ?_))
    | (with_reducible apply State.out_sound)
    | (with_reducible apply State.modIfc_sound)
    | split

theorem State.noteHeld_sound {ifc : Nat} (h : Sound q f s) : Sound q f (State.noteHeld ifc s) := by
  unfold State.noteHeld
  repeat' first
    | (with_reducible assumption)
    | extract_lets
    | (with_reducible refine sound_ite (fun _ => ?_) (fun _ => ?_))
    | (with_reducible refine sound_foldl ?_ (fun _ _ _ => ?_))
    | (with_reducible refine sound_foldl_fst ?_ (fun _ _ _ => ?_))
    | (with_reducible apply State.modPort_sound)

theorem State.freeFrame_sound {id : Nat} (h : Sound q f s) : Sound q f (State.freeFrame id s) := by
  unfold State.freeFrame
  repeat' first
    | (with_reducible assumption)
    | extract_lets
    | (with_reducible refine sound_ite (fun _ => ?_) (fun _ => ?_))
    | (with_reducible apply State.pfcCheck_sound)
    | (with_reducible apply State.noteHeld_sound)
    | (with_reducible apply updParser_sound)
    | split

theorem execArpNdEcho_sound {t ifc : Nat} {request : List Byte} (h : Sound q f s) :
    SoundOut q f (execArpNdEcho t ifc request s) := by
  unfold execArpNdEcho
  repeat' first
    | (with_reducible assumption)
    | extract_lets
    | (with_reducible refine State.happen_sound ?_ (fun _ _ => ?_))
    | (with_reducible apply State.control_sound)
    | split

theorem State.copyFrame_sound {ring : Nat} {f0 : Frame} {reason : Nat} {v : Option Verdict} (h : Sound q f
    s) :
    Sound q f (State.copyFrame ring f0 reason v s) := by
  unfold State.copyFrame
  repeat' first
    | (with_reducible assumption)
    | (with_reducible apply State.ringItem_sound)

theorem State.pfcApply_sound {ifc : Nat} {quanta : List (Nat × Nat)} (h : Sound q f s) :
    Sound q f (State.pfcApply ifc quanta s) := by
  unfold State.pfcApply
  repeat' first
    | (with_reducible assumption)
    | extract_lets
    | (with_reducible refine sound_ite (fun _ => ?_) (fun _ => ?_))
    | (with_reducible refine sound_foldl ?_ (fun _ _ _ => ?_))
    | (with_reducible apply State.modIfc_sound)

theorem State.admitFrame_sound {ifc : Nat} {bs : List Byte} (h : Sound q f s) :
    Sound q f (State.admitFrame ifc bs s) := by
  unfold State.admitFrame
  repeat' first
    | (with_reducible assumption)
    | extract_lets
    | (with_reducible refine sound_ite (fun _ => ?_) (fun _ => ?_))
    | (with_reducible apply State.count_sound)
    | (with_reducible apply State.pfcCheck_sound)
    | (with_reducible apply updParser_sound)

theorem State.macsecPass_sound {ifc : Nat} {bs : List Byte} {sec : MacsecIn} (h : Sound q f s) :
    ∀ s', State.macsecPass ifc bs sec s = some s' → Sound q f s' := by
  unfold State.macsecPass
  repeat' first
    | (with_reducible assumption)
    | extract_lets
    | (with_reducible refine sound_ite (fun _ => ?_) (fun _ => ?_))
    | (with_reducible apply State.count_sound)
    | (with_reducible apply State.modIfc_sound)
    | split
    | (dsimp +zetaDelta only)
    | (intro _ e; obtain ⟨_, _, rfl⟩ := Option.map_eq_some_iff.1 e)
    | (intro _ e; cases e)

theorem State.takeFrame_sound {ifc : Nat} {bs : List Byte} (h : Sound q f s) :
    Sound q f (State.takeFrame ifc bs s) := by
  unfold State.takeFrame
  repeat' first
    | (with_reducible assumption)
    | extract_lets
    | (with_reducible refine sound_ite (fun _ => ?_) (fun _ => ?_))
    | (with_reducible apply State.pfcApply_sound)
    | (with_reducible apply State.count_sound)
    | (with_reducible apply State.copyFrame_sound)
    | (with_reducible apply State.admitFrame_sound)
    | split

theorem execFrameReceive_sound {t ifc : Nat} {bytes : List Byte} {fcsOk : Bool} {sec : MacsecIn} (h :
    Sound q f s) :
    SoundOut q f (execFrameReceive t ifc bytes fcsOk sec s) := by
  unfold execFrameReceive
  repeat' first
    | (with_reducible assumption)
    | extract_lets
    | (with_reducible refine sound_ite (fun _ => ?_) (fun _ => ?_))
    | (with_reducible refine State.happen_sound ?_ (fun _ _ => ?_))
    | (with_reducible apply State.count_sound)
    | (with_reducible refine State.macsecPass_sound ?_ _ (by assumption))
    | (with_reducible apply State.takeFrame_sound)
    | split

theorem execPfcReceive_sound {t ifc : Nat} {quanta : List (Nat × Nat)} (h : Sound q f s) :
    SoundOut q f (execPfcReceive t ifc quanta s) := by
  unfold execPfcReceive
  repeat' first
    | (with_reducible assumption)
    | extract_lets
    | (with_reducible refine State.happen_sound ?_ (fun _ _ => ?_))
    | (with_reducible apply State.pfcApply_sound)

theorem execPfcPauseExpiry_sound {t ifc prio : Nat} (h : Sound q f s) :
    SoundOut q f (execPfcPauseExpiry t ifc prio s) := by
  unfold execPfcPauseExpiry
  repeat' first
    | (with_reducible assumption)
    | extract_lets
    | (with_reducible refine State.happen_sound ?_ (fun _ _ => ?_))
    | (with_reducible apply State.modIfc_sound)

theorem State.packetFault_sound {sub index : Nat} (h : Sound q f s) :
    Sound q f (State.packetFault sub index s) := by
  unfold State.packetFault
  repeat' first
    | (with_reducible assumption)
    | (with_reducible apply State.record_sound)

theorem State.parseFrame_sound {id group : Nat} {f0 : Frame} {fault : Option Nat} (h : Sound q f s) :
    Sound q f (State.parseFrame id group f0 fault s) := by
  unfold State.parseFrame
  repeat' first
    | (with_reducible assumption)
    | extract_lets
    | (with_reducible refine sound_ite (fun _ => ?_) (fun _ => ?_))
    | (with_reducible apply State.count_sound)
    | (with_reducible apply State.tally_sound)
    | (with_reducible apply State.record_sound)
    | (with_reducible apply State.modFrame_sound)
    | (with_reducible apply State.packetFault_sound)
    | (with_reducible apply updParser_sound)

theorem execChiveParse_sound {t frame group : Nat} {fault : Option Nat} (h : Sound q f s) :
    SoundOut q f (execChiveParse t frame group fault s) := by
  unfold execChiveParse
  repeat' first
    | (with_reducible assumption)
    | extract_lets
    | (with_reducible refine State.happen_sound ?_ (fun _ _ => ?_))
    | (with_reducible apply State.parseFrame_sound)
    | split

theorem execChiveGroupRewrite_sound {t group : Nat} (h : Sound q f s) :
    SoundOut q f (execChiveGroupRewrite t group s) := by
  unfold execChiveGroupRewrite
  repeat' first
    | (with_reducible assumption)
    | extract_lets
    | (with_reducible refine State.happen_sound ?_ (fun _ _ => ?_))
    | (with_reducible apply updParser_sound)

theorem execParseLoad_sound {t : Nat} {h0 : CmdHdr} {pslot addr len : Nat} {prog : ChiveProg} (h : Sound q
    f s) :
    SoundOut q f (execParseLoad t h0 pslot addr len prog s) := by
  unfold execParseLoad
  repeat' first
    | (with_reducible assumption)
    | extract_lets
    | (with_reducible refine State.isain_sound ?_ (fun _ _ => ?_))
    | (with_reducible apply checks_sound)
    | (with_reducible refine Reply.after_sound ?_ ?_)
    | (with_reducible apply reply_done)
    | (with_reducible apply frame_done)
    | (with_reducible apply State.touch_sound)
    | (with_reducible apply State.keep_sound)
    | (with_reducible apply updParser_sound)

theorem execParseCommit_sound {t : Nat} {h0 : CmdHdr} {slots : List Nat} (h : Sound q f s) :
    SoundOut q f (execParseCommit t h0 slots s) := by
  unfold execParseCommit
  repeat' first
    | (with_reducible assumption)
    | extract_lets
    | (with_reducible refine State.isain_sound ?_ (fun _ _ => ?_))
    | (with_reducible apply checksAt_sound)
    | (with_reducible apply reply_ok)
    | (with_reducible apply updParser_sound)
    | (with_reducible apply State.keep_sound)

theorem parseApply_sound {r : SetRec} (h : Sound q f s) : Sound q f (parseApply s r) := by
  unfold parseApply
  repeat' first
    | (with_reducible assumption)
    | (with_reducible apply updParser_sound)
    | split

theorem execParseConfig_sound {t : Nat} {h0 : CmdHdr} {recs : List SetRec} (h : Sound q f s) :
    SoundOut q f (execParseConfig t h0 recs s) := by
  unfold execParseConfig
  repeat' first
    | (with_reducible assumption)
    | extract_lets
    | (with_reducible refine State.isain_sound ?_ (fun _ _ => ?_))
    | (with_reducible refine settings_sound ?_ (fun _ _ _ => ?_) (fun _ _ => ?_))
    | (with_reducible apply parseApply_sound)
    | (with_reducible apply State.keep_sound)

theorem execSpreadConfig_sound {t : Nat} {h0 : CmdHdr} {spec : SpreadSpec} (h : Sound q f s) :
    SoundOut q f (execSpreadConfig t h0 spec s) := by
  unfold execSpreadConfig
  repeat' first
    | (with_reducible assumption)
    | extract_lets
    | (with_reducible refine State.isain_sound ?_ (fun _ _ => ?_))
    | (with_reducible apply checksAt_sound)
    | (with_reducible exact reply_refuse)
    | (with_reducible apply reply_ok)
    | (with_reducible apply updParser_sound)
    | (with_reducible apply State.keep_sound)
    | split

theorem State.spreadElse_sound {ctx hash : Nat} (h : Sound q f s) :
    Sound q f (State.spreadElse ctx hash s).2 := by
  unfold State.spreadElse
  repeat' first
    | (with_reducible assumption)
    | extract_lets
    | (with_reducible apply State.tally_sound)
    | split

theorem State.spread_sound {ctx hash : Nat} {forFrame : Bool} (h : Sound q f s) :
    Sound q f (State.spread ctx hash forFrame s).2 := by
  unfold State.spread
  repeat' first
    | (with_reducible assumption)
    | extract_lets
    | (with_reducible apply State.spreadElse_sound)
    | split

end Sys2Proof.Machine
end

