-- ==== Sys2Proof/Laws/SoundFlowOps.lean ====
section
/-! SUPPORT. The definitions of Machine/FlowOps.lean keep a sound state: the queue, the fuses, memory in its
canonical form, the counters' bound and Rosemary's numbering. -/

namespace Sys2Proof.Machine

variable {q : List Instr} {f : Fuses} {s : State}

theorem State.modDomain_sound {d : Nat} {f0 : Domain → Domain} (h : Sound q f s) :
    Sound q f (State.modDomain d f0 s) := by
  unfold State.modDomain
  repeat' first
    | (with_reducible assumption)
    | (with_reducible apply updModels_sound)

theorem State.modPipe_sound {p : Nat} {f0 : Pipeline → Pipeline} (h : Sound q f s) :
    Sound q f (State.modPipe p f0 s) := by
  unfold State.modPipe
  repeat' first
    | (with_reducible assumption)
    | (with_reducible apply updCls_sound)

theorem State.ixPut_sound {a v : Nat} (h : Sound q f s) : Sound q f (State.ixPut a v s) := by
  unfold State.ixPut
  repeat' first
    | (with_reducible assumption)
    | (with_reducible apply State.poke_sound)

theorem State.recPut_sound {p i v : Nat} (h : Sound q f s) : Sound q f (State.recPut p i v s) := by
  unfold State.recPut
  repeat' first
    | (with_reducible assumption)
    | (with_reducible apply State.poke_sound)

theorem State.touchHalf_sound {p i : Nat} (h : Sound q f s) : Sound q f (State.touchHalf p i s) := by
  unfold State.touchHalf
  exact State.touch_sound h

theorem State.flowTouch_sound {p : Nat} {k : FlowKey} (h : Sound q f s) :
    Sound q f (State.flowTouch p k s) := by
  unfold State.flowTouch
  repeat' first
    | (with_reducible assumption)
    | extract_lets
    | (with_reducible refine sound_ite (fun _ => ?_) (fun _ => ?_))
    | (with_reducible refine sound_foldl ?_ (fun _ _ _ => ?_))
    | (with_reducible apply State.touch_sound)
    | split

theorem State.halfFault_sound {p i : Nat} (h : Sound q f s) : Sound q f (State.halfFault p i s) := by
  unfold State.halfFault
  repeat' first
    | (with_reducible assumption)
    | extract_lets
    | (with_reducible apply State.packetFault_sound)
    | (with_reducible apply State.count_sound)
    | (with_reducible apply State.poke_sound)
    | (with_reducible apply State.recPut_sound)

theorem State.packetLanding_sound {f0 : Frame} (h : Sound q f s) :
    Sound q f (State.packetLanding f0 s).2 := by
  unfold State.packetLanding
  repeat' first
    | (with_reducible assumption)
    | (with_reducible apply State.spread_sound)

theorem State.rsIssue_sound {p i iat : Nat} {f0 : Frame} (h : Sound q f s) :
    Sound q f (State.rsIssue p i iat f0 s) := by
  unfold State.rsIssue
  repeat' first
    | (with_reducible assumption)
    | extract_lets
    | (with_reducible refine sound_ite (fun _ => ?_) (fun _ => ?_))
    | (with_reducible apply State.count_sound)
    | (with_reducible apply State.packetLanding_sound)
    | (with_reducible apply State.modPipe_sound)
    | split

theorem State.rsNext_sound {p i : Nat} (h : Sound q f s) : Sound q f (State.rsNext p i s) := by
  unfold State.rsNext
  repeat' first
    | (with_reducible assumption)
    | extract_lets
    | (with_reducible refine sound_ite (fun _ => ?_) (fun _ => ?_))
    | (with_reducible apply State.count_sound)
    | (with_reducible apply State.modPipe_sound)
    | split

theorem State.rsWrite_sound {p i : Nat} {u : RsUpdate} (h : Sound q f s) :
    Sound q f (State.rsWrite p i u s) := by
  unfold State.rsWrite
  repeat' first
    | (with_reducible assumption)
    | extract_lets
    | (with_reducible apply State.poke_sound)
    | (with_reducible apply State.recPut_sound)
    | split

theorem execRsUpdateDone_sound {t pipe recIdx : Nat} {jobFault : Bool} (h : Sound q f s) :
    SoundOut q f (execRsUpdateDone t pipe recIdx jobFault s) := by
  unfold execRsUpdateDone
  repeat' first
    | (with_reducible assumption)
    | extract_lets
    | (with_reducible refine sound_ite (fun _ => ?_) (fun _ => ?_))
    | (with_reducible refine State.happen_sound ?_ (fun _ _ => ?_))
    | (with_reducible apply State.count_sound)
    | (with_reducible apply State.halfFault_sound)
    | (with_reducible apply State.touchHalf_sound)
    | (with_reducible apply State.rsNext_sound)
    | (with_reducible apply State.rsWrite_sound)
    | split

theorem execRsUpdateTimeout_sound {t pipe recIdx : Nat} (h : Sound q f s) :
    SoundOut q f (execRsUpdateTimeout t pipe recIdx s) := by
  unfold execRsUpdateTimeout
  repeat' first
    | (with_reducible assumption)
    | extract_lets
    | (with_reducible refine State.happen_sound ?_ (fun _ _ => ?_))
    | (with_reducible apply State.rsNext_sound)
    | (with_reducible apply State.count_sound)

theorem State.startBaseline_sound {bl owner : Nat} {x : Baseline} (h : Sound q f s) :
    Sound q f (State.startBaseline bl owner x s) := by
  unfold State.startBaseline
  repeat' first
    | (with_reducible assumption)
    | extract_lets
    | split
    | (dsimp +zetaDelta only)
    | (with_reducible apply sound_mk)

theorem execBaselineCreate_sound {t : Nat} {h0 : CmdHdr} {bl : Nat} {spec : BaselineSpec} (h : Sound q f
    s) :
    SoundOut q f (execBaselineCreate t h0 bl spec s) := by
  unfold execBaselineCreate
  repeat' first
    | (with_reducible assumption)
    | extract_lets
    | (with_reducible refine State.isain_sound ?_ (fun _ _ => ?_))
    | (with_reducible apply checksAt_sound)
    | (with_reducible apply reply_done)
    | (with_reducible apply frame_done)
    | (with_reducible apply State.startBaseline_sound)

theorem State.tellBaseline_sound {bl owner old : Nat} {b : BaseState} (h : Sound q f s) :
    Sound q f (State.tellBaseline bl owner old b s) := by
  unfold State.tellBaseline
  repeat' first
    | (with_reducible assumption)
    | (with_reducible refine sound_ite (fun _ => ?_) (fun _ => ?_))
    | (with_reducible apply State.event_sound)
    | (with_reducible apply State.count_sound)

theorem State.changeBaseline_sound {bl : Nat} {x : Baseline} (h : Sound q f s) :
    Sound q f (State.changeBaseline bl x s) := by
  unfold State.changeBaseline
  extract_lets
  exact State.tellBaseline_sound (sound_mk h)

theorem execBaselineChange_sound {t : Nat} {h0 : CmdHdr} {bl : Nat} {spec : BaselineSpec} (h : Sound q f
    s) :
    SoundOut q f (execBaselineChange t h0 bl spec s) := by
  unfold execBaselineChange
  repeat' first
    | (with_reducible assumption)
    | extract_lets
    | (with_reducible refine State.isain_sound ?_ (fun _ _ => ?_))
    | (with_reducible apply checksAt_sound)
    | (with_reducible apply reply_done)
    | (with_reducible apply frame_done)
    | (with_reducible apply State.changeBaseline_sound)

theorem execBaselineDelete_sound {t : Nat} {h0 : CmdHdr} {bl : Nat} (h : Sound q f s) :
    SoundOut q f (execBaselineDelete t h0 bl s) := by
  unfold execBaselineDelete
  repeat' first
    | (with_reducible assumption)
    | extract_lets
    | (with_reducible refine State.isain_sound ?_ (fun _ _ => ?_))
    | (with_reducible apply reply_done)
    | (dsimp +zetaDelta only)
    | (with_reducible apply sound_mk)

theorem execBaselineRead_sound {t : Nat} {h0 : CmdHdr} {bl : Nat} (h : Sound q f s) :
    SoundOut q f (execBaselineRead t h0 bl s) := by
  unfold execBaselineRead
  repeat' first
    | (with_reducible assumption)
    | extract_lets
    | (with_reducible refine State.isain_sound ?_ (fun _ _ => ?_))
    | (with_reducible apply reply_done)

theorem execBaselineWindowClose_sound {t bl : Nat} (h : Sound q f s) :
    SoundOut q f (execBaselineWindowClose t bl s) := by
  unfold execBaselineWindowClose
  repeat' first
    | (with_reducible assumption)
    | extract_lets
    | (with_reducible refine sound_ite (fun _ => ?_) (fun _ => ?_))
    | (with_reducible refine State.happen_sound ?_ (fun _ _ => ?_))
    | (with_reducible apply updBases_sound)
    | (with_reducible apply State.tellBaseline_sound)
    | split

end Sys2Proof.Machine
end

