-- ==== Sys2Proof/Laws/SoundModelOps.lean ====
section
/-! SUPPORT. The definitions of Machine/ModelOps.lean keep a sound state: the queue, the fuses, memory in its
canonical form, the counters' bound and Rosemary's numbering. -/

namespace Sys2Proof.Machine

variable {q : List Instr} {f : Fuses} {s : State}

theorem State.countVerdict_sound {d : Nat} {v : Verdict} (h : Sound q f s) :
    Sound q f (State.countVerdict d v s) := by
  unfold State.countVerdict
  repeat' first
    | (with_reducible assumption)
    | extract_lets
    | (with_reducible refine sound_ite (fun _ => ?_) (fun _ => ?_))
    | (with_reducible apply State.count_sound)
    | (with_reducible apply updModels_sound)

end Sys2Proof.Machine
end

