-- ==== Sys2Proof/Laws/SoundModelRows.lean ====
section
/-! SUPPORT. The definitions of Machine/ModelRows.lean keep a sound state: the queue, the fuses, memory in its
canonical form, the counters' bound and Rosemary's numbering. -/

namespace Sys2Proof.Machine

variable {q : List Instr} {f : Fuses} {s : State}

theorem execModelStage_sound {t : Nat} {h0 : CmdHdr} {domain handle cAddr cLen : Nat} {bindings : List
    (List Nat)} (h : Sound q f s) :
    SoundOut q f (execModelStage t h0 domain handle cAddr cLen bindings s) := by
  unfold execModelStage
  repeat' first
    | (with_reducible assumption)
    | extract_lets
    | (with_reducible refine State.isain_sound ?_ (fun _ _ => ?_))
    | (with_reducible apply checks_sound)
    | (with_reducible apply reply_ok)
    | (with_reducible apply State.touch_sound)
    | (with_reducible apply okReply_sound)
    | (with_reducible apply Reply.after_sound)
    | (with_reducible apply State.modDomain_sound)

theorem execModelRemove_sound {t : Nat} {h0 : CmdHdr} {domain handle : Nat} (h : Sound q f s) :
    SoundOut q f (execModelRemove t h0 domain handle s) := by
  unfold execModelRemove
  repeat' first
    | (with_reducible assumption)
    | extract_lets
    | (with_reducible refine State.isain_sound ?_ (fun _ _ => ?_))
    | (with_reducible apply checks_sound)
    | (with_reducible apply reply_ok)
    | (with_reducible apply State.modDomain_sound)

theorem execModelAbort_sound {t : Nat} {h0 : CmdHdr} {domain : Nat} (h : Sound q f s) :
    SoundOut q f (execModelAbort t h0 domain s) := by
  unfold execModelAbort
  repeat' first
    | (with_reducible assumption)
    | extract_lets
    | (with_reducible refine State.isain_sound ?_ (fun _ _ => ?_))
    | (with_reducible apply checks_sound)
    | (with_reducible apply reply_ok)
    | (with_reducible apply State.modDomain_sound)

theorem State.commitGens_sound {l : List (Nat × Nat)} (h : Sound q f s) :
    Sound q f (State.commitGens l s) := by
  unfold State.commitGens
  repeat' first
    | (with_reducible assumption)
    | (with_reducible apply updModels_sound)

theorem State.cellWarn_sound {staged : List Model} {epoch : Nat} (h : Sound q f s) :
    Sound q f (State.cellWarn staged epoch s) := by
  unfold State.cellWarn
  repeat' first
    | (with_reducible assumption)
    | extract_lets
    | (with_reducible refine sound_ite (fun _ => ?_) (fun _ => ?_))
    | (with_reducible refine sound_foldl ?_ (fun _ _ _ => ?_))
    | (with_reducible refine sound_foldl_fst ?_ (fun _ _ _ => ?_))
    | (with_reducible apply State.record_sound)

theorem State.flip_sound {d : Nat} (h : Sound q f s) : Sound q f (State.flip d s) := by
  unfold State.flip
  repeat' first
    | (with_reducible assumption)
    | extract_lets
    | (with_reducible refine sound_ite (fun _ => ?_) (fun _ => ?_))
    | (with_reducible refine sound_foldl ?_ (fun _ _ _ => ?_))
    | (with_reducible refine sound_foldl_fst ?_ (fun _ _ _ => ?_))
    | (with_reducible apply State.keep_sound)
    | (with_reducible apply State.modDomain_sound)
    | (with_reducible apply State.modPipe_sound)
    | (with_reducible apply State.commitGens_sound)
    | (with_reducible apply State.cellWarn_sound)
    | (with_reducible apply updParser_sound)
    | (with_reducible apply updComp_sound)

theorem execModelCommit_sound {t : Nat} {h0 : CmdHdr} {domain : Nat} (h : Sound q f s) :
    SoundOut q f (execModelCommit t h0 domain s) := by
  unfold execModelCommit
  repeat' first
    | (with_reducible assumption)
    | extract_lets
    | (with_reducible refine State.isain_sound ?_ (fun _ _ => ?_))
    | (with_reducible apply checks_sound)
    | (with_reducible apply reply_done)
    | (with_reducible apply State.flip_sound)

theorem execModelCommitWait_sound {t : Nat} {h0 : CmdHdr} {domain : Nat} (h : Sound q f s) :
    SoundOut q f (execModelCommitWait t h0 domain s) := by
  unfold execModelCommitWait
  repeat' first
    | (with_reducible assumption)
    | extract_lets
    | (with_reducible refine State.isain_sound ?_ (fun _ _ => ?_))
    | (with_reducible apply checks_sound)
    | (with_reducible apply reply_done)
    | (with_reducible apply reply_wait)
    | (with_reducible apply State.modDomain_sound)
    | (with_reducible apply State.flip_sound)
    | split

theorem execModelCommitFlip_sound {t domain : Nat} (h : Sound q f s) :
    SoundOut q f (execModelCommitFlip t domain s) := by
  unfold execModelCommitFlip
  repeat' first
    | (with_reducible assumption)
    | extract_lets
    | (with_reducible refine sound_ite (fun _ => ?_) (fun _ => ?_))
    | (with_reducible refine State.happen_sound ?_ (fun _ _ => ?_))
    | (with_reducible apply State.answer_sound)
    | (with_reducible apply State.modDomain_sound)
    | (with_reducible apply State.flip_sound)
    | split

theorem execModelQuery_sound {t : Nat} {h0 : CmdHdr} {domain start max : Nat} (h : Sound q f s) :
    SoundOut q f (execModelQuery t h0 domain start max s) := by
  unfold execModelQuery
  repeat' first
    | (with_reducible assumption)
    | extract_lets
    | (with_reducible refine State.isain_sound ?_ (fun _ _ => ?_))
    | (with_reducible apply checks_sound)
    | (with_reducible apply reply_done)

theorem execEpochRetire_sound {t domain : Nat} (h : Sound q f s) :
    SoundOut q f (execEpochRetire t domain s) := by
  unfold execEpochRetire
  repeat' first
    | (with_reducible assumption)
    | extract_lets
    | (with_reducible refine sound_ite (fun _ => ?_) (fun _ => ?_))
    | (with_reducible refine State.happen_sound ?_ (fun _ _ => ?_))
    | (with_reducible apply State.event_sound)
    | (with_reducible apply State.modDomain_sound)
    | (with_reducible apply updParser_sound)
    | (with_reducible apply updComp_sound)
    | split

theorem execPatternLoad_sound {t : Nat} {h0 : CmdHdr} {setId addr len : Nat} {fromL2 : Bool} {pats : List
    Pattern} (h : Sound q f s) :
    SoundOut q f (execPatternLoad t h0 setId addr len fromL2 pats s) := by
  unfold execPatternLoad
  repeat' first
    | (with_reducible assumption)
    | extract_lets
    | (with_reducible refine State.isain_sound ?_ (fun _ _ => ?_))
    | (with_reducible apply checks_sound)
    | (with_reducible refine Reply.after_sound ?_ ?_)
    | (with_reducible apply reply_ok)
    | (with_reducible apply State.touch_sound)
    | (with_reducible apply okReply_sound)
    | (with_reducible apply State.modDomain_sound)
    | (with_reducible apply updParser_sound)

theorem execPatternScanStart_sound {t engine : Nat} (h : Sound q f s) :
    SoundOut q f (execPatternScanStart t engine s) := by
  unfold execPatternScanStart
  repeat' first
    | (with_reducible assumption)
    | extract_lets
    | (with_reducible refine State.happen_sound ?_ (fun _ _ => ?_))
    | (with_reducible apply updParser_sound)
    | (with_reducible apply State.modFrame_sound)
    | split

theorem execPatternScanEnd_sound {t engine : Nat} {fault : Bool} (h : Sound q f s) :
    SoundOut q f (execPatternScanEnd t engine fault s) := by
  unfold execPatternScanEnd
  repeat' first
    | (with_reducible assumption)
    | extract_lets
    | (with_reducible refine sound_ite (fun _ => ?_) (fun _ => ?_))
    | (with_reducible refine State.happen_sound ?_ (fun _ _ => ?_))
    | (with_reducible apply updParser_sound)
    | (with_reducible apply State.modFrame_sound)
    | (with_reducible apply State.modSlot_sound)
    | (with_reducible apply State.tally_sound)
    | (with_reducible apply State.packetFault_sound)
    | split
    | (dsimp +zetaDelta only)

end Sys2Proof.Machine
end

