-- ==== Sys2Proof/Laws/SoundFeatures.lean ====
section
/-! SUPPORT. The definitions of Machine/Features.lean keep a sound state: the queue, the fuses, memory in its
canonical form, the counters' bound and Rosemary's numbering. -/

namespace Sys2Proof.Machine

variable {q : List Instr} {f : Fuses} {s : State}

theorem State.touchMap_sound {x : FTable} {g : Generation} {key : W64} (h : Sound q f s) :
    Sound q f (State.touchMap x g key s) := by
  unfold State.touchMap
  exact State.touch_sound h

theorem State.looked_sound {table : Nat} {l : Look} (h : Sound q f s) :
    Sound q f (State.looked table l s) := by
  unfold State.looked
  repeat' first
    | (with_reducible assumption)
    | extract_lets
    | (with_reducible refine sound_ite (fun _ => ?_) (fun _ => ?_))
    | (with_reducible refine sound_foldl ?_ (fun _ _ _ => ?_))
    | (with_reducible apply State.touch_sound)
    | (with_reducible apply State.strike_sound)
    | (with_reducible apply State.countN_sound)

theorem State.wakeWalks_sound {k gen : Nat} (h : Sound q f s) : Sound q f (State.wakeWalks k gen s) := by
  unfold State.wakeWalks
  repeat' first
    | (with_reducible assumption)
    | extract_lets
    | (with_reducible apply updComp_sound)

theorem State.settleFetch_sound {f0 : Fetch} {r : FetchEnd} (h : Sound q f s) :
    Sound q f (State.settleFetch f0 r s) := by
  unfold State.settleFetch
  repeat' first
    | (with_reducible assumption)
    | extract_lets
    | (with_reducible refine sound_ite (fun _ => ?_) (fun _ => ?_))
    | (with_reducible apply State.wakeWalks_sound)
    | (with_reducible apply State.modSlot_sound)
    | (with_reducible apply State.tally_sound)

theorem State.endOne_sound {f0 : Fetch} {r : FetchEnd} (h : Sound q f s) :
    Sound q f (State.endOne f0 r s) := by
  unfold State.endOne
  repeat' first
    | (with_reducible assumption)
    | extract_lets
    | (with_reducible refine sound_ite (fun _ => ?_) (fun _ => ?_))
    | (with_reducible apply State.count_sound)
    | (with_reducible apply State.trace_sound)
    | (with_reducible apply State.settleFetch_sound)
    | split
    | (dsimp +zetaDelta only)
    | (with_reducible apply sound_mk)

theorem State.modFetch_sound {tag : Nat} {g : Fetch → Fetch} (h : Sound q f s) :
    Sound q f (State.modFetch tag g s) := by
  unfold State.modFetch
  repeat' first
    | (with_reducible assumption)
    | (with_reducible apply updModels_sound)

theorem State.dropFetch_sound {tag : Nat} (h : Sound q f s) : Sound q f (State.dropFetch tag s) := by
  unfold State.dropFetch
  repeat' first
    | (with_reducible assumption)
    | (with_reducible apply updModels_sound)

theorem State.placeFetch_sound {tag : Nat} {f0 : Fetch} (h : Sound q f s) :
    Sound q f (State.placeFetch tag f0 s) := by
  unfold State.placeFetch
  repeat' first
    | (with_reducible assumption)
    | extract_lets
    | (with_reducible refine sound_ite (fun _ => ?_) (fun _ => ?_))
    | (with_reducible apply State.count_sound)
    | (with_reducible apply State.dropFetch_sound)
    | (with_reducible apply updModels_sound)

theorem State.fallAlone_sound {tag : Nat} {f0 : Fetch} (h : Sound q f s) :
    Sound q f (State.fallAlone tag f0 s) := by
  unfold State.fallAlone
  repeat' first
    | (with_reducible assumption)
    | extract_lets
    | (with_reducible refine sound_ite (fun _ => ?_) (fun _ => ?_))
    | (with_reducible apply State.count_sound)
    | (with_reducible apply State.endOne_sound)
    | (with_reducible apply State.modFetch_sound)
    | (with_reducible apply State.dropFetch_sound)
    | (with_reducible apply State.placeFetch_sound)
    | split

theorem State.endJoined_sound {remote : Bool} {r : FetchEnd} {tag : Nat} {f0 : Fetch} (h : Sound q f s) :
    Sound q f (State.endJoined remote r tag f0 s) := by
  unfold State.endJoined
  repeat' first
    | (with_reducible assumption)
    | extract_lets
    | (with_reducible refine sound_ite (fun _ => ?_) (fun _ => ?_))
    | (with_reducible apply State.endOne_sound)
    | (with_reducible apply State.dropFetch_sound)
    | (with_reducible apply State.fallAlone_sound)

theorem State.endFetch_sound {tag : Nat} {r : FetchEnd} (h : Sound q f s) :
    Sound q f (State.endFetch tag r s) := by
  unfold State.endFetch
  repeat' first
    | (with_reducible assumption)
    | extract_lets
    | (with_reducible refine sound_foldl ?_ (fun _ _ _ => ?_))
    | (with_reducible refine sound_foldl_fst ?_ (fun _ _ _ => ?_))
    | (with_reducible apply State.endOne_sound)
    | (with_reducible apply State.dropFetch_sound)
    | (with_reducible apply State.endJoined_sound)
    | split

theorem State.noteLate_sound {tag : Nat} {f0 : Fetch} (h : Sound q f s) :
    Sound q f (State.noteLate tag f0 s) := by
  unfold State.noteLate
  repeat' first
    | (with_reducible assumption)
    | extract_lets
    | (with_reducible refine sound_ite (fun _ => ?_) (fun _ => ?_))
    | (with_reducible apply updModels_sound)

theorem State.endAlone_sound {tag : Nat} {r : FetchEnd} (h : Sound q f s) :
    Sound q f (State.endAlone tag r s) := by
  unfold State.endAlone
  repeat' first
    | (with_reducible assumption)
    | extract_lets
    | (with_reducible apply State.endOne_sound)
    | (with_reducible apply State.modFetch_sound)
    | (with_reducible apply State.dropFetch_sound)
    | (with_reducible apply State.noteLate_sound)
    | split

theorem State.closeFetches_sound {k gen : Nat} (h : Sound q f s) :
    Sound q f (State.closeFetches k gen s) := by
  unfold State.closeFetches
  repeat' first
    | (with_reducible assumption)
    | extract_lets
    | (with_reducible refine sound_foldl ?_ (fun _ _ _ => ?_))
    | (with_reducible apply State.endAlone_sound)

theorem State.takeRate_sound {part : Nat} (h : Sound q f s) :
    ∀ s', State.takeRate part s = some s' → Sound q f s' := by
  unfold State.takeRate
  repeat' first
    | (with_reducible assumption)
    | extract_lets
    | (with_reducible apply State.modPart_sound)
    | split
    | (intro _ e; cases e)

theorem State.failOne_sound {ctr : Option Nat} {e : Nat × Fetch} {done : List ((Nat × Nat) × Nat)} (h :
    Sound q f s) :
    Sound q f (State.failOne ctr e done s).1 := by
  unfold State.failOne
  repeat' first
    | (with_reducible assumption)
    | extract_lets
    | (with_reducible refine sound_ite (fun _ => ?_) (fun _ => ?_))
    | (with_reducible apply State.count_sound)
    | (with_reducible apply State.endOne_sound)
    | (with_reducible apply State.modFetch_sound)
    | (with_reducible apply State.dropFetch_sound)
    | (with_reducible apply State.placeFetch_sound)
    | split
    | (dsimp +zetaDelta only)

theorem failEach_sound {ctr : Option Nat} {l : List (Nat × Fetch)} {done : List ((Nat × Nat) × Nat)}
    (h : Sound q f s) : Sound q f (State.failEach ctr l done s) := by
  induction l generalizing done s with
  | nil => exact h
  | cons e rest ih => exact ih (State.failOne_sound h)

theorem State.failBare_sound {tag : Nat} {ctr : Option Nat} (h : Sound q f s) :
    Sound q f (State.failBare tag ctr s) := by
  unfold State.failBare
  repeat' first
    | (with_reducible assumption)
    | extract_lets
    | (with_reducible apply failEach_sound)
    | (with_reducible apply State.modFetch_sound)
    | (with_reducible apply State.endFetch_sound)
    | split

theorem State.failRemote_sound {tag ctr : Nat} (h : Sound q f s) :
    Sound q f (State.failRemote tag ctr s) := by
  unfold State.failRemote
  repeat' first
    | (with_reducible assumption)
    | extract_lets
    | (with_reducible apply State.failBare_sound)

theorem State.launchFetch_sound {tag : Nat} (h : Sound q f s) : Sound q f (State.launchFetch tag s) := by
  unfold State.launchFetch
  repeat' first
    | (with_reducible assumption)
    | extract_lets
    | (with_reducible refine sound_ite (fun _ => ?_) (fun _ => ?_))
    | (with_reducible apply State.touchMap_sound)
    | (with_reducible apply State.modFetch_sound)
    | (with_reducible apply State.endFetch_sound)
    | (with_reducible refine State.takeRate_sound ?_ _ (by assumption))
    | (with_reducible apply State.failRemote_sound)
    | (with_reducible apply State.touch_sound)
    | (with_reducible apply State.strike_sound)
    | split

theorem State.putFetch_sound {f0 : Fetch} (h : Sound q f s) : Sound q f (State.putFetch f0 s) := by
  unfold State.putFetch
  repeat' first
    | (with_reducible assumption)
    | (with_reducible apply updModels_sound)

theorem State.issueFetch_sound {f0 : Fetch} (h : Sound q f s) : Sound q f (State.issueFetch f0 s) := by
  unfold State.issueFetch
  repeat' first
    | (with_reducible assumption)
    | extract_lets
    | (with_reducible refine sound_ite (fun _ => ?_) (fun _ => ?_))
    | (with_reducible apply State.count_sound)
    | (with_reducible apply State.putFetch_sound)
    | split

theorem State.unpark_sound {c x1 : Nat} (h : Sound q f s) : Sound q f (State.unpark c x1 s) := by
  induction x1 generalizing s with
  | zero =>
    rw [State.unpark]
    repeat' first
      | (with_reducible assumption)
  | succ n ih =>
    rw [State.unpark]
    repeat' first
      | (with_reducible assumption)
      | (with_reducible apply ih)
      | extract_lets
      | (with_reducible refine sound_ite (fun _ => ?_) (fun _ => ?_))
      | (with_reducible apply State.launchFetch_sound)
      | (with_reducible apply State.modFetch_sound)
      | split

theorem State.unparkAll_sound (h : Sound q f s) : Sound q f (State.unparkAll s) := by
  unfold State.unparkAll
  repeat' first
    | (with_reducible assumption)
    | extract_lets
    | (with_reducible refine sound_foldl ?_ (fun _ _ _ => ?_))
    | (with_reducible apply State.unpark_sound)

theorem State.fetchLook_sound {tag : Nat} {x : FTable} {l : Look} (h : Sound q f s) :
    Sound q f (State.fetchLook tag x l s) := by
  unfold State.fetchLook
  repeat' first
    | (with_reducible assumption)
    | extract_lets
    | (with_reducible refine sound_ite (fun _ => ?_) (fun _ => ?_))
    | (with_reducible apply State.endFetch_sound)
    | (with_reducible apply State.modFetch_sound)
    | split

theorem State.lateLook_sound {tag cluster : Nat} (h : Sound q f s) :
    Sound q f (State.lateLook tag cluster s) := by
  unfold State.lateLook
  repeat' first
    | (with_reducible assumption)
    | extract_lets
    | (with_reducible apply State.count_sound)
    | (with_reducible apply updModels_sound)

theorem execLocalLookupDone_sound {t fetch : Nat} {check : WordCheck} (h : Sound q f s) :
    SoundOut q f (execLocalLookupDone t fetch check s) := by
  unfold execLocalLookupDone
  repeat' first
    | (with_reducible assumption)
    | (with_reducible apply State.strike_sound)
    | extract_lets
    | (with_reducible refine State.happen_sound ?_ (fun _ _ => ?_))
    | (with_reducible apply State.looked_sound)
    | (with_reducible apply State.endFetch_sound)
    | (with_reducible apply State.unparkAll_sound)
    | (with_reducible apply State.fetchLook_sound)
    | (with_reducible apply State.lateLook_sound)
    | split

theorem execFetchEndTick_sound {t fetch : Nat} (h : Sound q f s) :
    SoundOut q f (execFetchEndTick t fetch s) := by
  unfold execFetchEndTick
  repeat' first
    | (with_reducible assumption)
    | extract_lets
    | (with_reducible refine sound_ite (fun _ => ?_) (fun _ => ?_))
    | (with_reducible refine State.happen_sound ?_ (fun _ _ => ?_))
    | (with_reducible apply State.endOne_sound)
    | (with_reducible apply State.dropFetch_sound)
    | (with_reducible apply State.fallAlone_sound)
    | (with_reducible apply State.endAlone_sound)
    | (with_reducible apply State.unparkAll_sound)
    | (with_reducible apply State.failRemote_sound)
    | split

theorem execFtableCreate_sound {t : Nat} {h0 : CmdHdr} {table : Nat} {spec : TableSpec} (h : Sound q f s)
    :
    SoundOut q f (execFtableCreate t h0 table spec s) := by
  unfold execFtableCreate
  repeat' first
    | (with_reducible assumption)
    | extract_lets
    | (with_reducible refine State.isain_sound ?_ (fun _ _ => ?_))
    | (with_reducible apply checksAt_sound)
    | (with_reducible apply reply_ok)
    | (with_reducible apply updModels_sound)
    | (with_reducible apply State.keep_sound)

theorem execFtableDestroy_sound {t : Nat} {h0 : CmdHdr} {table : Nat} (h : Sound q f s) :
    SoundOut q f (execFtableDestroy t h0 table s) := by
  unfold execFtableDestroy
  repeat' first
    | (with_reducible assumption)
    | extract_lets
    | (with_reducible refine State.isain_sound ?_ (fun _ _ => ?_))
    | (with_reducible apply checks_sound)
    | (with_reducible apply reply_ok)
    | (with_reducible apply updModels_sound)
    | (with_reducible apply State.keep_sound)

theorem execFtableQuery_sound {t : Nat} {h0 : CmdHdr} {table : Nat} (h : Sound q f s) :
    SoundOut q f (execFtableQuery t h0 table s) := by
  unfold execFtableQuery
  repeat' first
    | (with_reducible assumption)
    | extract_lets
    | (with_reducible refine State.isain_sound ?_ (fun _ _ => ?_))
    | (with_reducible apply reply_done)

theorem State.modTable_sound {k : Nat} {f0 : FTable → FTable} (h : Sound q f s) :
    Sound q f (State.modTable k f0 s) := by
  unfold State.modTable
  repeat' first
    | (with_reducible assumption)
    | (with_reducible apply updModels_sound)

theorem State.zeroRange_sound {a n : Nat} (h : Sound q f s) : Sound q f (s.zeroRange a n) := by
  unfold State.zeroRange
  refine updMem_wf h ?_
  exact memFilter_wf _ h.3.1

theorem execGenerationStage_sound {t : Nat} {h0 : CmdHdr} {table g : Nat} {log2Buckets base n : Nat} (h :
    Sound q f s) :
    SoundOut q f (execGenerationStage t h0 table g log2Buckets base n s) := by
  unfold execGenerationStage
  repeat' first
    | (with_reducible assumption)
    | extract_lets
    | (with_reducible refine State.isain_sound ?_ (fun _ _ => ?_))
    | (with_reducible apply checks_sound)
    | (with_reducible exact reply_no)
    | (with_reducible apply reply_ok)
    | (with_reducible apply State.modTable_sound)
    | (with_reducible apply State.zeroRange_sound)
    | (with_reducible apply State.poke_sound)
    | split

theorem execGenerationSeal_sound {t : Nat} {h0 : CmdHdr} {table g : Nat} (h : Sound q f s) :
    SoundOut q f (execGenerationSeal t h0 table g s) := by
  unfold execGenerationSeal
  repeat' first
    | (with_reducible assumption)
    | extract_lets
    | (with_reducible refine State.isain_sound ?_ (fun _ _ => ?_))
    | (with_reducible apply reply_done)
    | (with_reducible exact reply_no)
    | (with_reducible apply reply_ok)
    | (with_reducible apply State.touch_sound)
    | (with_reducible apply State.strike_sound)
    | (with_reducible apply State.modTable_sound)
    | split

theorem execGenerationCommit_sound {t : Nat} {h0 : CmdHdr} {pairs : List (Nat × Nat)} (h : Sound q f s) :
    SoundOut q f (execGenerationCommit t h0 pairs s) := by
  unfold execGenerationCommit
  repeat' first
    | (with_reducible assumption)
    | extract_lets
    | (with_reducible refine State.isain_sound ?_ (fun _ _ => ?_))
    | (with_reducible apply checksAt_sound)
    | (with_reducible apply reply_ok)
    | (with_reducible apply State.commitGens_sound)

theorem State.bindGen_sound {p : Nat × Nat} (h : Sound q f s) : Sound q f (State.bindGen p s) := by
  unfold State.bindGen
  repeat' first
    | (with_reducible assumption)
    | (with_reducible apply State.modDomain_sound)

theorem execGenerationCommitBind_sound {t : Nat} {h0 : CmdHdr} {pairs : List (Nat × Nat)} (h : Sound q f
    s) :
    SoundOut q f (execGenerationCommitBind t h0 pairs s) := by
  unfold execGenerationCommitBind
  repeat' first
    | (with_reducible assumption)
    | extract_lets
    | (with_reducible refine sound_foldl ?_ (fun _ _ _ => ?_))
    | (with_reducible refine State.isain_sound ?_ (fun _ _ => ?_))
    | (with_reducible apply checksAt_sound)
    | (with_reducible apply reply_ok)
    | (with_reducible apply State.bindGen_sound)

theorem execGenerationDrop_sound {t : Nat} {h0 : CmdHdr} {table g : Nat} (h : Sound q f s) :
    SoundOut q f (execGenerationDrop t h0 table g s) := by
  unfold execGenerationDrop
  repeat' first
    | (with_reducible assumption)
    | extract_lets
    | (with_reducible refine State.isain_sound ?_ (fun _ _ => ?_))
    | (with_reducible exact reply_no)
    | (with_reducible apply reply_ok)
    | (with_reducible apply State.modTable_sound)
    | split

theorem execGenerationDropDone_sound {t table g : Nat} (h : Sound q f s) :
    SoundOut q f (execGenerationDropDone t table g s) := by
  unfold execGenerationDropDone
  repeat' first
    | (with_reducible assumption)
    | extract_lets
    | (with_reducible refine State.happen_sound ?_ (fun _ _ => ?_))
    | (with_reducible apply State.modTable_sound)

theorem execGenerationRetire_sound {t table g : Nat} (h : Sound q f s) :
    SoundOut q f (execGenerationRetire t table g s) := by
  unfold execGenerationRetire
  repeat' first
    | (with_reducible assumption)
    | extract_lets
    | (with_reducible refine State.happen_sound ?_ (fun _ _ => ?_))
    | (with_reducible apply State.event_sound)
    | (with_reducible apply State.modTable_sound)
    | split

end Sys2Proof.Machine
end

