-- ==== Sys2Proof/Laws/SoundSlotOps.lean ====
section
/-! SUPPORT. The definitions of Machine/SlotOps.lean keep a sound state: the queue, the fuses, memory in its
canonical form, the counters' bound and Rosemary's numbering. -/

namespace Sys2Proof.Machine

variable {q : List Instr} {f : Fuses} {s : State}

theorem State.pickSlot_sound (h : Sound q f s) : Sound q f (State.pickSlot s).2 := by
  unfold State.pickSlot
  repeat' first
    | (with_reducible assumption)
    | extract_lets
    | (with_reducible apply State.fresh_sound)

theorem State.frameVerdict_sound {id : Nat} {v : Verdict} (h : Sound q f s) :
    Sound q f (State.frameVerdict id v s) := by
  unfold State.frameVerdict
  repeat' first
    | (with_reducible assumption)
    | (with_reducible apply State.modFrame_sound)

theorem State.postVerdict_sound {k : Nat} {v : Verdict} (h : Sound q f s) :
    Sound q f (State.postVerdict k v s) := by
  unfold State.postVerdict
  repeat' first
    | (with_reducible assumption)
    | extract_lets
    | (with_reducible refine sound_ite (fun _ => ?_) (fun _ => ?_))
    | (with_reducible apply State.count_sound)
    | (with_reducible apply State.modSlot_sound)
    | (with_reducible apply State.ringItem_sound)
    | (with_reducible apply State.countVerdict_sound)
    | (with_reducible apply State.closeFetches_sound)
    | (with_reducible apply State.unparkAll_sound)
    | (with_reducible apply State.frameVerdict_sound)
    | split

theorem State.postDefault_sound {k reason : Nat} (h : Sound q f s) :
    Sound q f (State.postDefault k reason s) := by
  unfold State.postDefault
  repeat' first
    | (with_reducible assumption)
    | (with_reducible apply State.postVerdict_sound)
    | split

theorem State.dropShares_sound {k gen : Nat} (h : Sound q f s) : Sound q f (State.dropShares k gen s) := by
  unfold State.dropShares
  repeat' first
    | (with_reducible assumption)
    | (with_reducible apply updComp_sound)

theorem State.postScores_sound {k : Nat} {m : Model} {corr : List (W32 × W32)} {rung stages : Nat} {sums :
    List W32} (h : Sound q f s) :
    Sound q f (State.postScores k m corr rung stages sums s) := by
  unfold State.postScores
  repeat' first
    | (with_reducible assumption)
    | extract_lets
    | (with_reducible refine sound_ite (fun _ => ?_) (fun _ => ?_))
    | (with_reducible apply State.out_sound)
    | (with_reducible apply State.poke_sound)
    | (with_reducible apply State.postVerdict_sound)
    | split

theorem State.compose_sound {k : Nat} {m : Model} (h : Sound q f s) : Sound q f (State.compose k m s) := by
  unfold State.compose
  repeat' first
    | (with_reducible assumption)
    | extract_lets
    | (with_reducible refine sound_ite (fun _ => ?_) (fun _ => ?_))
    | (with_reducible apply State.postDefault_sound)
    | (with_reducible apply State.dropShares_sound)
    | (with_reducible apply State.postScores_sound)

theorem State.slotResult_sound {k gen stage : Nat} {g : Group} (h : Sound q f s) :
    Sound q f (State.slotResult k gen stage g s) := by
  unfold State.slotResult
  repeat' first
    | (with_reducible assumption)
    | extract_lets
    | (with_reducible refine sound_ite (fun _ => ?_) (fun _ => ?_))
    | (with_reducible apply State.modSlot_sound)
    | (with_reducible apply State.compose_sound)
    | (with_reducible apply State.tally_sound)
    | split

theorem State.storeResult_sound {c addr : Nat} {g : Group} (h : Sound q f s) :
    Sound q f (State.storeResult c addr g s) := by
  unfold State.storeResult
  repeat' first
    | (with_reducible assumption)
    | (with_reducible apply State.spacePut_sound)

theorem State.deliverGroup_sound {x0 x1 : Nat} {x2 : Group} (h : Sound q f s) :
    Sound q f (State.deliverGroup x0 x1 x2 s) := by
  induction x0 generalizing s x1 x2 with
  | zero =>
    rw [State.deliverGroup]
    repeat' first
      | (with_reducible assumption)
  | succ n ih =>
    rw [State.deliverGroup]
    repeat' first
      | (with_reducible assumption)
      | (with_reducible apply ih)
      | extract_lets
      | (with_reducible refine sound_ite (fun _ => ?_) (fun _ => ?_))
      | (with_reducible apply State.trace_sound)
      | (with_reducible apply State.storeResult_sound)
      | (with_reducible apply State.slotResult_sound)
      | (with_reducible apply State.modCluster_sound)
      | (with_reducible apply State.count_sound)
      | split
      | (dsimp +zetaDelta only)

theorem State.contribute_sound {c : Nat} {ref : GroupRef} {data : Option (List W32)} (h : Sound q f s) :
    Sound q f (State.contribute c ref data s) := by
  unfold State.contribute
  repeat' first
    | (with_reducible assumption)
    | extract_lets
    | (with_reducible refine sound_ite (fun _ => ?_) (fun _ => ?_))
    | (with_reducible apply State.deliverGroup_sound)
    | (with_reducible apply State.modCluster_sound)
    | (with_reducible apply State.count_sound)
    | split

theorem State.closeGroup_sound {c i : Nat} (h : Sound q f s) : Sound q f (State.closeGroup c i s) := by
  unfold State.closeGroup
  repeat' first
    | (with_reducible assumption)
    | extract_lets
    | (with_reducible apply State.deliverGroup_sound)
    | (with_reducible apply State.modCluster_sound)
    | split

theorem State.modShare_sound {p k gen : Nat} {f0 : Share → Share} (h : Sound q f s) :
    Sound q f (State.modShare p k gen f0 s) := by
  unfold State.modShare
  repeat' first
    | (with_reducible assumption)
    | (with_reducible apply State.modCore_sound)

theorem State.dropShare_sound {p k gen : Nat} (h : Sound q f s) :
    Sound q f (State.dropShare p k gen s) := by
  unfold State.dropShare
  repeat' first
    | (with_reducible assumption)
    | (with_reducible apply State.modCore_sound)

theorem State.voidStages_sound {c k gen : Nat} {stages : List Nat} (h : Sound q f s) :
    Sound q f (State.voidStages c k gen stages s) := by
  unfold State.voidStages
  repeat' first
    | (with_reducible assumption)
    | extract_lets
    | (with_reducible refine sound_foldl ?_ (fun _ _ _ => ?_))
    | (with_reducible apply State.contribute_sound)

theorem State.jobFault_sound {core ctx : Nat} {part status : Nat} {d : LaunchDesc} (h : Sound q f s) :
    Sound q f (State.jobFault core ctx part status d s) := by
  unfold State.jobFault
  repeat' first
    | (with_reducible assumption)
    | (with_reducible apply State.record_sound)

theorem State.stageLost_sound {k gen stage : Nat} (h : Sound q f s) :
    Sound q f (State.stageLost k gen stage s) := by
  unfold State.stageLost
  repeat' first
    | (with_reducible assumption)
    | extract_lets
    | (with_reducible refine sound_ite (fun _ => ?_) (fun _ => ?_))
    | (with_reducible apply State.modSlot_sound)

theorem State.stopShare_sound {p : Nat} {x : Share} {m : Model} {status : Nat} (h : Sound q f s) :
    Sound q f (State.stopShare p x m status s) := by
  unfold State.stopShare
  repeat' first
    | (with_reducible assumption)
    | extract_lets
    | (with_reducible refine sound_ite (fun _ => ?_) (fun _ => ?_))
    | (with_reducible apply State.trace_sound)
    | (with_reducible apply State.dropShare_sound)
    | (with_reducible apply State.voidStages_sound)
    | (with_reducible apply State.stageLost_sound)

theorem State.beginStage_sound {p k gen : Nat} {m : Model} {x4 : Nat} (h : Sound q f s) :
    Sound q f (State.beginStage p k gen m x4 s) := by
  induction x4 generalizing s with
  | zero =>
    rw [State.beginStage]
    repeat' first
      | (with_reducible assumption)
      | extract_lets
      | (with_reducible refine sound_ite (fun _ => ?_) (fun _ => ?_))
      | (with_reducible apply State.dropShare_sound)
  | succ n ih =>
    rw [State.beginStage]
    repeat' first
      | (with_reducible assumption)
      | (with_reducible apply ih)
      | extract_lets
      | (with_reducible refine sound_ite (fun _ => ?_) (fun _ => ?_))
      | (with_reducible apply State.dropShare_sound)
      | (with_reducible apply State.modShare_sound)
      | (with_reducible apply State.stopShare_sound)
      | split

theorem State.issueWalk_sound {p i : Nat} {x : Share} {m : Model} (h : Sound q f s) :
    Sound q f (State.issueWalk p i x m s) := by
  unfold State.issueWalk
  repeat' first
    | (with_reducible assumption)
    | extract_lets
    | (with_reducible refine sound_ite (fun _ => ?_) (fun _ => ?_))
    | (with_reducible apply State.modCore_sound)
    | (with_reducible apply State.modShare_sound)
    | split

theorem State.issueWalks_sound {p x1 : Nat} (h : Sound q f s) :
    Sound q f (State.issueWalks p x1 s) := by
  induction x1 generalizing s with
  | zero => rw [State.issueWalks]; exact h
  | succ n ih =>
    rw [State.issueWalks]
    split
    · split
      · exact h
      · split
        · exact ih (State.stopShare_sound h)
        · exact ih (State.issueWalk_sound h)
    · exact h

theorem State.startShares_sound {p : Nat} (h : Sound q f s) : Sound q f (State.startShares p s) := by
  unfold State.startShares
  repeat' first
    | (with_reducible assumption)
    | extract_lets
    | (with_reducible refine sound_foldl ?_ (fun _ _ _ => ?_))
    | (with_reducible apply State.beginStage_sound)
    | split

theorem State.settleCores_sound {x0 : Nat} (h : Sound q f s) : Sound q f (State.settleCores x0 s) := by
  induction x0 generalizing s with
  | zero =>
    rw [State.settleCores]
    repeat' first
      | (with_reducible assumption)
  | succ n ih =>
    rw [State.settleCores]
    repeat' first
      | (with_reducible assumption)
      | (with_reducible apply ih)
      | extract_lets
      | (with_reducible refine sound_ite (fun _ => ?_) (fun _ => ?_))
      | (with_reducible refine sound_foldl ?_ (fun _ _ _ => ?_))
      | (with_reducible apply updComp_sound)
      | (with_reducible apply State.issueWalks_sound)
      | (with_reducible apply State.startShares_sound)
      | (with_reducible apply State.closeGroup_sound)

theorem State.settle2_sound (h : Sound q f s) : Sound q f (State.settle2 s) := by
  unfold State.settle2
  repeat' first
    | (with_reducible assumption)
    | (with_reducible apply State.settleCores_sound)

theorem State.endStage_sound {p : Nat} {x : Share} {m : Model} (h : Sound q f s) :
    Sound q f (State.endStage p x m s) := by
  unfold State.endStage
  repeat' first
    | (with_reducible assumption)
    | extract_lets
    | (with_reducible apply State.modCore_sound)
    | (with_reducible apply State.trace_sound)
    | (with_reducible apply State.modShare_sound)
    | (with_reducible apply State.contribute_sound)

end Sys2Proof.Machine
end

