-- ==== Sys2Proof/Laws/SoundRequests.lean ====
section
/-! SUPPORT. The definitions of Machine/Requests.lean keep a sound state: the queue, the fuses, memory in its
canonical form, the counters' bound and Rosemary's numbering. -/

namespace Sys2Proof.Machine

variable {q : List Instr} {f : Fuses} {s : State}

theorem State.clampDeadline_sound {k d : Nat} {m : Model} (h : Sound q f s) :
    Sound q f (State.clampDeadline k d m s) := by
  unfold State.clampDeadline
  repeat' first
    | (with_reducible assumption)
    | extract_lets
    | (with_reducible refine sound_ite (fun _ => ?_) (fun _ => ?_))
    | (with_reducible apply State.modSlot_sound)
    | (with_reducible apply State.count_sound)

theorem State.placeSlot_sound {k : Nat} {lead : Option Nat} {m : Model} (h : Sound q f s) :
    Sound q f (State.placeSlot k lead m s) := by
  unfold State.placeSlot
  repeat' first
    | (with_reducible assumption)
    | extract_lets
    | (with_reducible refine sound_ite (fun _ => ?_) (fun _ => ?_))
    | (with_reducible apply State.postDefault_sound)
    | (with_reducible apply State.modSlot_sound)
    | split

theorem State.admitReq_sound {ring : Nat} {i : W32} {q0 : Req} {m : Model} (h : Sound q f s) :
    Sound q f (State.admitReq ring i q0 m s) := by
  unfold State.admitReq
  repeat' first
    | (with_reducible assumption)
    | extract_lets
    | (with_reducible apply State.pickSlot_sound)
    | (with_reducible apply State.consume_sound)
    | (with_reducible apply State.modRing_sound)
    | (with_reducible apply State.setSlot_sound)
    | (with_reducible apply State.clampDeadline_sound)
    | (with_reducible apply State.spread_sound)
    | (with_reducible apply State.placeSlot_sound)

theorem State.waitSlot_sound {ring : Nat} {i : W32} (h : Sound q f s) :
    Sound q f (State.waitSlot ring i s) := by
  unfold State.waitSlot
  repeat' first
    | (with_reducible assumption)
    | extract_lets
    | (with_reducible refine sound_ite (fun _ => ?_) (fun _ => ?_))
    | (with_reducible apply State.count_sound)
    | (with_reducible apply State.modRing_sound)

theorem execRequestAdmit_sound {t ring : Nat} (h : Sound q f s) :
    SoundOut q f (execRequestAdmit t ring s) := by
  unfold execRequestAdmit
  repeat' first
    | (with_reducible assumption)
    | extract_lets
    | (with_reducible refine sound_ite (fun _ => ?_) (fun _ => ?_))
    | (with_reducible refine State.onCtx_sound ?_ (fun _ _ => ?_))
    | (with_reducible refine State.nextEntry_sound ?_ (fun _ _ _ _ => ?_))
    | (with_reducible apply State.refuseEntry_sound)
    | (with_reducible apply State.admitReq_sound)
    | (with_reducible apply State.waitSlot_sound)
    | split

theorem execSlotWaitExpiry_sound {t ring : Nat} (h : Sound q f s) :
    SoundOut q f (execSlotWaitExpiry t ring s) := by
  unfold execSlotWaitExpiry
  repeat' first
    | (with_reducible assumption)
    | extract_lets
    | (with_reducible refine sound_ite (fun _ => ?_) (fun _ => ?_))
    | (with_reducible refine State.onCtx_sound ?_ (fun _ _ => ?_))
    | (with_reducible refine State.nextEntry_sound ?_ (fun _ _ _ _ => ?_))
    | (with_reducible apply fab_fresh)
    | (with_reducible apply State.fresh_sound)
    | (with_reducible apply State.modRing_sound)
    | (with_reducible apply State.ringItem_sound)
    | (with_reducible apply State.consume_sound)
    | (with_reducible apply State.countVerdict_sound)
    | split

theorem State.noVerdict_sound {id : Nat} (h : Sound q f s) : Sound q f (State.noVerdict id s) := by
  unfold State.noVerdict
  repeat' first
    | (with_reducible assumption)
    | (with_reducible apply State.modFrame_sound)

theorem State.ruleDecides_sound {id : Nat} (h : Sound q f s) : Sound q f (State.ruleDecides id s) := by
  unfold State.ruleDecides
  repeat' first
    | (with_reducible assumption)
    | extract_lets
    | (with_reducible apply State.modFrame_sound)

theorem State.slotless_sound {id part reason : Nat} {m : Model} (h : Sound q f s) :
    Sound q f (State.slotless id part reason m s) := by
  unfold State.slotless
  repeat' first
    | (with_reducible assumption)
    | extract_lets
    | (with_reducible apply State.frameVerdict_sound)
    | (with_reducible apply State.countVerdict_sound)

theorem State.toScan_sound {id k : Nat} {f0 : Frame} {a : RuleAction} (h : Sound q f s) :
    Sound q f (State.toScan id k f0 a s) := by
  unfold State.toScan
  repeat' first
    | (with_reducible assumption)
    | extract_lets
    | (with_reducible refine sound_ite (fun _ => ?_) (fun _ => ?_))
    | (with_reducible apply State.modFrame_sound)
    | (with_reducible apply State.modSlot_sound)
    | (with_reducible apply State.tally_sound)

theorem State.admitFrameDeep_sound {id : Nat} {f0 : Frame} {a : RuleAction} {m : Model} (h : Sound q f s) :
    Sound q f (State.admitFrameDeep id f0 a m s) := by
  unfold State.admitFrameDeep
  repeat' first
    | (with_reducible assumption)
    | extract_lets
    | (with_reducible refine sound_ite (fun _ => ?_) (fun _ => ?_))
    | (with_reducible apply State.tally_sound)
    | (with_reducible apply State.setSlot_sound)
    | (with_reducible apply State.freeSlot_sound)
    | (with_reducible apply State.modFrame_sound)
    | (with_reducible apply State.copyFrame_sound)
    | (with_reducible apply State.spread_sound)
    | (with_reducible apply State.pickSlot_sound)
    | (with_reducible apply State.placeSlot_sound)
    | (with_reducible apply State.ruleDecides_sound)
    | (with_reducible apply State.toScan_sound)
    | split

theorem State.deepAdmit_sound {id : Nat} (h : Sound q f s) : Sound q f (State.deepAdmit id s) := by
  unfold State.deepAdmit
  repeat' first
    | (with_reducible assumption)
    | extract_lets
    | (with_reducible refine sound_ite (fun _ => ?_) (fun _ => ?_))
    | (with_reducible apply State.count_sound)
    | (with_reducible apply State.modFrame_sound)
    | (with_reducible apply State.slotless_sound)
    | (with_reducible apply State.admitFrameDeep_sound)
    | split

theorem State.afterPacketModel_sound {id : Nat} (h : Sound q f s) :
    Sound q f (State.afterPacketModel id s) := by
  unfold State.afterPacketModel
  repeat' first
    | (with_reducible assumption)
    | extract_lets
    | (with_reducible refine sound_ite (fun _ => ?_) (fun _ => ?_))
    | (with_reducible apply State.deepAdmit_sound)
    | (with_reducible apply State.noVerdict_sound)
    | split

theorem State.touchBlob_sound {x : Slot} {off n : Nat} (h : Sound q f s) :
    Sound q f (State.touchBlob x off n s) := by
  unfold State.touchBlob
  exact sound_ite (fun _ => State.touch_sound h) (fun _ => h)

theorem State.fetchOne_sound {k : Nat} {m : Model} {r : InputRec} {item : Option Nat} (h : Sound q f s) :
    Sound q f (State.fetchOne k m r item s) := by
  unfold State.fetchOne
  repeat' first
    | (with_reducible assumption)
    | extract_lets
    | (with_reducible refine sound_ite (fun _ => ?_) (fun _ => ?_))
    | (with_reducible apply State.count_sound)
    | (with_reducible apply State.endOne_sound)
    | (with_reducible apply State.issueFetch_sound)
    | split

theorem State.queueAll_sound {k : Nat} {m : Model} (h : Sound q f s) :
    Sound q f (State.queueAll k m s) := by
  unfold State.queueAll
  repeat' first
    | (with_reducible assumption)
    | extract_lets
    | (with_reducible refine sound_ite (fun _ => ?_) (fun _ => ?_))
    | (with_reducible refine sound_foldl ?_ (fun _ _ _ => ?_))
    | (with_reducible refine sound_foldl_fst ?_ (fun _ _ _ => ?_))
    | (with_reducible apply State.fetchOne_sound)

theorem State.fetchAll_sound {k : Nat} {m : Model} (h : Sound q f s) :
    Sound q f (State.fetchAll k m s) := by
  unfold State.fetchAll
  repeat' first
    | (with_reducible assumption)
    | extract_lets
    | (with_reducible refine sound_foldl ?_ (fun _ _ _ => ?_))
    | (with_reducible refine sound_foldl_fst ?_ (fun _ _ _ => ?_))
    | (with_reducible apply State.launchFetch_sound)
    | (with_reducible apply State.unparkAll_sound)
    | (with_reducible apply State.queueAll_sound)

theorem State.settleFeats_sound {k : Nat} {feats : List Nat} {val : Nat → Nat → Option W32} (h : Sound q f
    s) :
    Sound q f (State.settleFeats k feats val s) := by
  unfold State.settleFeats
  repeat' first
    | (with_reducible assumption)
    | extract_lets
    | (with_reducible apply State.wakeWalks_sound)
    | (with_reducible apply State.modSlot_sound)

theorem State.pushLaunch_sound {p : Nat} {l : Launch} (h : Sound q f s) :
    Sound q f (State.pushLaunch p l s) := by
  unfold State.pushLaunch
  repeat' first
    | (with_reducible assumption)
    | extract_lets
    | (with_reducible apply State.modCore_sound)

theorem State.launchStep_sound {k : Nat} {m : Model} (h : Sound q f s) :
    Sound q f (State.launchStep k m s) := by
  unfold State.launchStep
  repeat' first
    | (with_reducible assumption)
    | extract_lets
    | (with_reducible refine sound_ite (fun _ => ?_) (fun _ => ?_))
    | (with_reducible refine sound_foldl ?_ (fun _ _ _ => ?_))
    | (with_reducible apply State.modSlot_sound)
    | (with_reducible apply State.settleFeats_sound)
    | (with_reducible apply State.postDefault_sound)
    | (with_reducible apply State.pushLaunch_sound)
    | split

theorem State.freeFeats_sound {n nFeat : Nat} (h : Sound q f s) :
    Sound q f (State.freeFeats n nFeat s).2 := by
  unfold State.freeFeats
  repeat' first
    | (with_reducible assumption)
    | extract_lets
    | (dsimp +zetaDelta only)
    | (with_reducible apply sound_mk)

theorem State.scoreSums_sound {x : Slot} {m : Model} (h : Sound q f s) :
    Sound q f (State.scoreSums x m s).2 := by
  unfold State.scoreSums
  repeat' first
    | (with_reducible assumption)
    | extract_lets
    | split
    | (dsimp +zetaDelta only)
    | (with_reducible apply sound_mk)

theorem State.stepDone_sound {k : Nat} {m : Model} (h : Sound q f s) :
    Sound q f (State.stepDone k m s) := by
  unfold State.stepDone
  repeat' first
    | (with_reducible assumption)
    | extract_lets
    | (with_reducible refine sound_ite (fun _ => ?_) (fun _ => ?_))
    | (with_reducible apply State.modSlot_sound)
    | (with_reducible apply State.postDefault_sound)
    | (with_reducible apply State.postScores_sound)
    | (with_reducible apply State.settleFeats_sound)
    | (with_reducible apply State.launchStep_sound)
    | (with_reducible apply State.freeFeats_sound)
    | (with_reducible apply State.scoreSums_sound)
    | split

theorem State.stepCoreEnd_sound {k gen token : Nat} {ok : Bool} (h : Sound q f s) :
    Sound q f (State.stepCoreEnd k gen token ok s) := by
  unfold State.stepCoreEnd
  repeat' first
    | (with_reducible assumption)
    | extract_lets
    | (with_reducible refine sound_ite (fun _ => ?_) (fun _ => ?_))
    | (with_reducible apply State.tally_sound)
    | (with_reducible apply State.modSlot_sound)
    | (with_reducible apply State.stepDone_sound)
    | split

theorem State.startEncoder_sound {k : Nat} {m : Model} {idx : Nat} (h : Sound q f s) :
    Sound q f (State.startEncoder k m idx s) := by
  unfold State.startEncoder
  repeat' first
    | (with_reducible assumption)
    | (with_reducible apply State.touchBlob_sound)
    | extract_lets
    | (with_reducible refine sound_ite (fun _ => ?_) (fun _ => ?_))
    | (with_reducible apply State.settleFeats_sound)
    | (with_reducible apply State.count_sound)
    | (with_reducible apply State.fresh_sound)
    | (with_reducible apply State.modSlot_sound)
    | (with_reducible apply State.pushLaunch_sound)
    | split

theorem State.encoderEnd_sound {k gen token idx : Nat} {r : EncEnd} (h : Sound q f s) :
    Sound q f (State.encoderEnd k gen token idx r s) := by
  unfold State.encoderEnd
  repeat' first
    | (with_reducible assumption)
    | extract_lets
    | (with_reducible refine sound_ite (fun _ => ?_) (fun _ => ?_))
    | (with_reducible apply State.count_sound)
    | (with_reducible apply State.tally_sound)
    | (with_reducible apply State.modSlot_sound)
    | (with_reducible apply State.settleFeats_sound)
    | split

theorem State.openGroups_sound {k : Nat} {m : Model} (h : Sound q f s) :
    Sound q f (State.openGroups k m s) := by
  unfold State.openGroups
  repeat' first
    | (with_reducible assumption)
    | extract_lets
    | (with_reducible refine sound_foldl ?_ (fun _ _ _ => ?_))
    | (with_reducible apply State.modCluster_sound)

theorem State.placeShare_sound {k : Nat} {m : Model} {b : Binding} {pc core : Nat} (h : Sound q f s) :
    Sound q f (State.placeShare k m b pc core s) := by
  unfold State.placeShare
  repeat' first
    | (with_reducible assumption)
    | extract_lets
    | (with_reducible refine sound_ite (fun _ => ?_) (fun _ => ?_))
    | (with_reducible apply State.fresh_sound)
    | (with_reducible apply State.modCore_sound)
    | (with_reducible apply State.voidStages_sound)
    | (with_reducible apply State.stageLost_sound)
    | split

theorem State.placeShares_sound {k : Nat} {m : Model} (h : Sound q f s) :
    Sound q f (State.placeShares k m s) := by
  unfold State.placeShares
  repeat' first
    | (with_reducible assumption)
    | extract_lets
    | (with_reducible refine sound_foldl ?_ (fun _ _ _ => ?_))
    | (with_reducible apply State.placeShare_sound)
    | split

theorem State.rebind_sound {k : Nat} {m : Model} (h : Sound q f s) : Sound q f (State.rebind k m s) := by
  unfold State.rebind
  repeat' first
    | (with_reducible assumption)
    | extract_lets
    | (with_reducible refine sound_ite (fun _ => ?_) (fun _ => ?_))
    | (with_reducible apply State.modSlot_sound)
    | (with_reducible apply State.postDefault_sound)
    | split

theorem State.startOn_sound {k : Nat} {m : Model} (h : Sound q f s) : Sound q f (State.startOn k m s) := by
  unfold State.startOn
  repeat' first
    | (with_reducible assumption)
    | (with_reducible apply State.touchBlob_sound)
    | extract_lets
    | (with_reducible refine sound_ite (fun _ => ?_) (fun _ => ?_))
    | (with_reducible refine sound_foldl ?_ (fun _ _ _ => ?_))
    | (with_reducible refine sound_foldl_fst ?_ (fun _ _ _ => ?_))
    | (with_reducible apply State.countN_sound)
    | (with_reducible apply State.modSlot_sound)
    | (with_reducible apply State.settle2_sound)
    | (with_reducible apply State.fetchAll_sound)
    | (with_reducible apply State.launchStep_sound)
    | (with_reducible apply State.startEncoder_sound)
    | (with_reducible apply State.openGroups_sound)
    | (with_reducible apply State.placeShares_sound)

theorem State.startRequest_sound {k : Nat} {m : Model} (h : Sound q f s) :
    Sound q f (State.startRequest k m s) := by
  unfold State.startRequest
  repeat' first
    | (with_reducible assumption)
    | extract_lets
    | (with_reducible refine sound_ite (fun _ => ?_) (fun _ => ?_))
    | (with_reducible apply State.rebind_sound)
    | (with_reducible apply State.startOn_sound)

theorem execSlotRunning_sound {t slot : Nat} (h : Sound q f s) :
    SoundOut q f (execSlotRunning t slot s) := by
  unfold execSlotRunning
  repeat' first
    | (with_reducible assumption)
    | extract_lets
    | (with_reducible refine State.happen_sound ?_ (fun _ _ => ?_))
    | (with_reducible apply State.startRequest_sound)
    | split

theorem execReverseLookupDone_sound {t slot : Nat} (h : Sound q f s) :
    SoundOut q f (execReverseLookupDone t slot s) := by
  unfold execReverseLookupDone
  repeat' first
    | (with_reducible assumption)
    | extract_lets
    | (with_reducible refine sound_ite (fun _ => ?_) (fun _ => ?_))
    | (with_reducible refine sound_foldl ?_ (fun _ _ _ => ?_))
    | (with_reducible refine sound_foldl_fst ?_ (fun _ _ _ => ?_))
    | (with_reducible refine State.happen_sound ?_ (fun _ _ => ?_))
    | (with_reducible apply fab_fresh)
    | (with_reducible apply State.fresh_sound)
    | (with_reducible apply State.count_sound)
    | (with_reducible apply State.modSlot_sound)
    | (with_reducible apply State.touchHalf_sound)
    | (with_reducible apply State.flowTouch_sound)
    | (with_reducible apply State.halfFault_sound)
    | (with_reducible apply State.settleFeats_sound)
    | split
    | (dsimp +zetaDelta only)

theorem State.dropWalk_sound {p i : Nat} (h : Sound q f s) : Sound q f (State.dropWalk p i s) := by
  unfold State.dropWalk
  repeat' first
    | (with_reducible assumption)
    | (with_reducible apply State.modCore_sound)

theorem State.leafReached_sound {p i : Nat} {w : Walk} {m : Model} {n : BitVec 128} (h : Sound q f s) :
    Sound q f (State.leafReached p i w m n s) := by
  unfold State.leafReached
  repeat' first
    | (with_reducible assumption)
    | extract_lets
    | (with_reducible refine sound_ite (fun _ => ?_) (fun _ => ?_))
    | (with_reducible apply State.modShare_sound)
    | (with_reducible apply State.endStage_sound)
    | (with_reducible apply State.dropWalk_sound)
    | split

theorem State.markShard_sound {p domain model epoch : Nat} (h : Sound q f s) :
    Sound q f (State.markShard p domain model epoch s) := by
  unfold State.markShard
  repeat' first
    | (with_reducible assumption)
    | extract_lets
    | (with_reducible apply State.count_sound)
    | (with_reducible apply State.record_sound)
    | (with_reducible apply State.modCore_sound)

theorem State.walkDenied_sound {p : Nat} {w : Walk} {m : Model} (h : Sound q f s) :
    Sound q f (State.walkDenied p w m s) := by
  unfold State.walkDenied
  repeat' first
    | (with_reducible assumption)
    | extract_lets
    | (with_reducible apply State.jobFault_sound)
    | (with_reducible apply State.stopShare_sound)
    | split

theorem State.nodeFault_sound {p : Nat} {w : Walk} {m : Model} (h : Sound q f s) :
    Sound q f (State.nodeFault p w m s) := by
  unfold State.nodeFault
  repeat' first
    | (with_reducible assumption)
    | extract_lets
    | (with_reducible refine sound_ite (fun _ => ?_) (fun _ => ?_))
    | (with_reducible apply State.trace_sound)
    | (with_reducible apply State.modCore_sound)
    | (with_reducible apply State.modShare_sound)
    | (with_reducible apply State.dropShare_sound)
    | (with_reducible apply State.voidStages_sound)
    | (with_reducible apply State.stageLost_sound)
    | (with_reducible apply State.markShard_sound)
    | (with_reducible apply State.modSlot_sound)
    | split

theorem State.featFault_sound {p : Nat} {w : Walk} {m : Model} (h : Sound q f s) :
    Sound q f (State.featFault p w m s) := by
  unfold State.featFault
  repeat' first
    | (with_reducible assumption)
    | extract_lets
    | (with_reducible refine sound_ite (fun _ => ?_) (fun _ => ?_))
    | (with_reducible apply State.fresh_sound)
    | (with_reducible apply State.modSlot_sound)
    | (with_reducible apply State.wakeWalks_sound)

theorem State.countRun_sound {p visits bad : Nat} (h : Sound q f s) :
    Sound q f (State.countRun p visits bad s) := by
  unfold State.countRun
  repeat' first
    | (with_reducible assumption)
    | extract_lets
    | (with_reducible refine sound_ite (fun _ => ?_) (fun _ => ?_))
    | (with_reducible apply State.fresh_sound)
    | (with_reducible apply State.countN_sound)

theorem State.copyWord_sound {p : Nat} {inStore : Bool} {check : WordCheck} (h : Sound q f s) :
    Sound q f (State.copyWord p inStore check s) := by
  unfold State.copyWord
  repeat' first
    | (with_reducible assumption)
    | (with_reducible refine sound_ite (fun _ => ?_) (fun _ => ?_))
    | (with_reducible apply State.sramChecked_sound)
    | (with_reducible apply State.fresh_sound)
    | split

theorem State.nodeWord_sound {p : Nat} {w : Walk} {m : Model} {check : WordCheck} (h : Sound q f s) :
    Sound q f (State.nodeWord p w m check s) := by
  unfold State.nodeWord
  exact sound_ite (fun _ => State.strike_sound h) (fun _ => State.copyWord_sound h)

theorem State.runWalk_sound {p i : Nat} {w : Walk} {m : Model} (h : Sound q f s) :
    Sound q f (State.runWalk p i w m s) := by
  unfold State.runWalk
  repeat' first
    | (with_reducible assumption)
    | extract_lets
    | (with_reducible refine sound_ite (fun _ => ?_) (fun _ => ?_))
    | (with_reducible refine sound_foldl ?_ (fun _ _ _ => ?_))
    | (with_reducible refine sound_foldl_fst ?_ (fun _ _ _ => ?_))
    | (with_reducible apply State.count_sound)
    | (with_reducible apply State.touch_sound)
    | (with_reducible apply State.modCore_sound)
    | (with_reducible apply State.leafReached_sound)
    | (with_reducible apply State.walkDenied_sound)
    | (with_reducible apply State.nodeFault_sound)
    | (with_reducible apply State.countRun_sound)
    | split
    | (dsimp +zetaDelta only)

theorem State.walkFault_sound {p i : Nat} {w : Walk} {m : Model} (h : Sound q f s) :
    Sound q f (State.walkFault p i w m s) := by
  unfold State.walkFault
  repeat' first
    | (with_reducible assumption)
    | extract_lets
    | (with_reducible refine sound_ite (fun _ => ?_) (fun _ => ?_))
    | (with_reducible refine sound_foldl ?_ (fun _ _ _ => ?_))
    | (with_reducible refine sound_foldl_fst ?_ (fun _ _ _ => ?_))
    | (with_reducible apply State.fresh_sound)
    | (with_reducible apply State.touch_sound)
    | (with_reducible apply State.nodeFault_sound)
    | (with_reducible apply State.countRun_sound)
    | (with_reducible apply State.runWalk_sound)
    | split

theorem State.badWalk_sound {p i : Nat} {w : Walk} {m : Model} {check : WordCheck} (h : Sound q f s) :
    Sound q f (State.badWalk p i w m check s) := by
  unfold State.badWalk
  repeat' first
    | (with_reducible assumption)
    | extract_lets
    | (with_reducible refine sound_ite (fun _ => ?_) (fun _ => ?_))
    | (with_reducible apply State.fresh_sound)
    | (with_reducible apply State.featFault_sound)
    | (with_reducible apply State.copyWord_sound)
    | (with_reducible apply State.nodeWord_sound)
    | (with_reducible apply State.runWalk_sound)
    | (with_reducible apply State.walkFault_sound)

theorem execWalkComplete_sound {t core walk : Nat} {check : WordCheck} (h : Sound q f s) :
    SoundOut q f (execWalkComplete t core walk check s) := by
  unfold execWalkComplete
  repeat' first
    | (with_reducible assumption)
    | extract_lets
    | (with_reducible refine sound_ite (fun _ => ?_) (fun _ => ?_))
    | (with_reducible refine State.happen_sound ?_ (fun _ _ => ?_))
    | (with_reducible apply State.settle2_sound)
    | (with_reducible apply State.nodeWord_sound)
    | (with_reducible apply State.runWalk_sound)
    | (with_reducible apply State.badWalk_sound)
    | (with_reducible apply State.featFault_sound)
    | (with_reducible apply State.walkFault_sound)
    | split

theorem State.recopy_sound {core : Nat} {e : Nat × Nat × Nat} {check : WordCheck} (h : Sound q f s) :
    Sound q f (State.recopy core e check s) := by
  unfold State.recopy
  repeat' first
    | (with_reducible assumption)
    | extract_lets
    | (with_reducible refine sound_ite (fun _ => ?_) (fun _ => ?_))
    | (with_reducible apply State.touch_sound)
    | (with_reducible apply State.strike_sound)
    | (with_reducible apply State.event_sound)
    | (with_reducible apply State.modCore_sound)
    | split

theorem execShardRecopyDone_sound {t core domain handle : Nat} {check : WordCheck} (h : Sound q f s) :
    SoundOut q f (execShardRecopyDone t core domain handle check s) := by
  unfold execShardRecopyDone
  repeat' first
    | (with_reducible assumption)
    | extract_lets
    | (with_reducible refine sound_foldl ?_ (fun _ _ _ => ?_))
    | (with_reducible refine sound_foldl_fst ?_ (fun _ _ _ => ?_))
    | (with_reducible refine State.happen_sound ?_ (fun _ _ => ?_))
    | (with_reducible apply State.settle2_sound)
    | (with_reducible apply State.recopy_sound)

theorem State.closeSlotGroups_sound {k gen : Nat} (h : Sound q f s) :
    Sound q f (State.closeSlotGroups k gen s) := by
  unfold State.closeSlotGroups
  repeat' first
    | (with_reducible assumption)
    | extract_lets
    | (with_reducible refine sound_foldl ?_ (fun _ _ _ => ?_))
    | (with_reducible apply State.modCluster_sound)
    | (with_reducible apply State.deliverGroup_sound)
    | (with_reducible apply State.closeGroup_sound)

theorem State.stopShares_sound {k gen : Nat} (h : Sound q f s) : Sound q f (State.stopShares k gen s) := by
  unfold State.stopShares
  repeat' first
    | (with_reducible assumption)
    | extract_lets
    | (with_reducible refine sound_ite (fun _ => ?_) (fun _ => ?_))
    | (with_reducible refine sound_foldl ?_ (fun _ _ _ => ?_))
    | (with_reducible refine sound_foldl_fst ?_ (fun _ _ _ => ?_))
    | (with_reducible apply State.trace_sound)
    | (with_reducible apply State.dropShare_sound)
    | (with_reducible apply State.stageLost_sound)
    | split

theorem State.pmVerdict_sound {id : Nat} {v : Verdict} (h : Sound q f s) :
    Sound q f (State.pmVerdict id v s) := by
  unfold State.pmVerdict
  repeat' first
    | (with_reducible assumption)
    | extract_lets
    | (with_reducible apply State.modDomain_sound)
    | (with_reducible apply State.countVerdict_sound)
    | (with_reducible apply State.afterPacketModel_sound)
    | (with_reducible apply State.modFrame_sound)

theorem State.pmCall_sound {id : Nat} {f0 : Frame} (h : Sound q f s) :
    Sound q f (State.pmCall id f0 s) := by
  unfold State.pmCall
  repeat' first
    | (with_reducible assumption)
    | extract_lets
    | (with_reducible apply State.modFrame_sound)
    | (with_reducible apply State.modDomain_sound)
    | (with_reducible apply State.packetLanding_sound)
    | (with_reducible apply State.pmVerdict_sound)
    | split

theorem State.pmScore_sound {id core : Nat} {m : Model} {x : Item} (h : Sound q f s) :
    Sound q f (State.pmScore id core m x s) := by
  unfold State.pmScore
  repeat' first
    | (with_reducible assumption)
    | extract_lets
    | (with_reducible apply State.countRun_sound)
    | (with_reducible apply State.pmVerdict_sound)
    | split
    | (dsimp +zetaDelta only)
    | (with_reducible apply sound_mk)

theorem State.pmFault_sound {id core : Nat} {m : Model} {x : Item} (h : Sound q f s) :
    Sound q f (State.pmFault id core m x s) := by
  unfold State.pmFault
  repeat' first
    | (with_reducible assumption)
    | extract_lets
    | (with_reducible apply State.fresh_sound)
    | (with_reducible apply State.markShard_sound)
    | (with_reducible apply State.countRun_sound)
    | (with_reducible apply State.pmVerdict_sound)

theorem State.pmBad_sound {id core : Nat} {m : Model} {x : Item} {check : WordCheck} (h : Sound q f s) :
    Sound q f (State.pmBad id core m x check s) := by
  unfold State.pmBad
  repeat' first
    | (with_reducible assumption)
    | extract_lets
    | (with_reducible refine sound_ite (fun _ => ?_) (fun _ => ?_))
    | (with_reducible apply State.fresh_sound)
    | (with_reducible apply State.copyWord_sound)
    | (with_reducible apply State.pmScore_sound)
    | (with_reducible apply State.pmFault_sound)

theorem execPacketModelWalk_sound {t frame core : Nat} {check : WordCheck} (h : Sound q f s) :
    SoundOut q f (execPacketModelWalk t frame core check s) := by
  unfold execPacketModelWalk
  repeat' first
    | (with_reducible assumption)
    | extract_lets
    | (with_reducible refine sound_ite (fun _ => ?_) (fun _ => ?_))
    | (with_reducible refine State.happen_sound ?_ (fun _ _ => ?_))
    | (with_reducible apply State.copyWord_sound)
    | (with_reducible apply State.pmScore_sound)
    | (with_reducible apply State.pmBad_sound)
    | (with_reducible apply fab_fresh)
    | (with_reducible apply State.fresh_sound)
    | (with_reducible apply State.pmFault_sound)
    | split

theorem execPmWaitExpiry_sound {t frame : Nat} (h : Sound q f s) :
    SoundOut q f (execPmWaitExpiry t frame s) := by
  unfold execPmWaitExpiry
  repeat' first
    | (with_reducible assumption)
    | extract_lets
    | (with_reducible refine State.happen_sound ?_ (fun _ _ => ?_))
    | (with_reducible apply State.pmVerdict_sound)
    | (with_reducible apply State.tally_sound)
    | split

end Sys2Proof.Machine
end

