-- ==== Sys2Proof/Laws/SoundClassify.lean ====
section
/-! SUPPORT. The definitions of Machine/Classify.lean keep a sound state: the queue, the fuses, memory in its
canonical form, the counters' bound and Rosemary's numbering. -/

namespace Sys2Proof.Machine

variable {q : List Instr} {f : Fuses} {s : State}

theorem State.modClsIfc_sound {i : Nat} {f0 : ClsIfc → ClsIfc} (h : Sound q f s) :
    Sound q f (State.modClsIfc i f0 s) := by
  unfold State.modClsIfc
  repeat' first
    | (with_reducible assumption)
    | (with_reducible apply updCls_sound)

theorem State.trieFault_sound {code : Nat} (h : Sound q f s) : Sound q f (State.trieFault code s) := by
  unfold State.trieFault
  repeat' first
    | (with_reducible assumption)
    | extract_lets
    | (with_reducible apply State.packetFault_sound)
    | (with_reducible apply State.tally_sound)
    | (with_reducible apply updCls_sound)

theorem State.classOf_sound {f0 : Frame} {a : Nat} {bad : Option Nat} (h : Sound q f s) :
    Sound q f (State.classOf f0 a bad s).2 := by
  unfold State.classOf
  repeat' first
    | (with_reducible assumption)
    | extract_lets
    | (with_reducible apply State.trieFault_sound)
    | split

theorem State.ruleFault_sound {pipe row : Nat} (h : Sound q f s) :
    Sound q f (State.ruleFault pipe row s) := by
  unfold State.ruleFault
  repeat' first
    | (with_reducible assumption)
    | extract_lets
    | (with_reducible apply State.sramUncorrectable_sound)
    | (with_reducible apply State.packetFault_sound)
    | (with_reducible apply State.count_sound)
    | (with_reducible apply State.modPipe_sound)

theorem State.decide'_sound {id : Nat} {d : Decision} (h : Sound q f s) :
    Sound q f (State.decide' id d s) := by
  unfold State.decide'
  repeat' first
    | (with_reducible assumption)
    | (with_reducible apply State.modFrame_sound)

theorem State.ruleAct_sound {id : Nat} (h : Sound q f s) : Sound q f (State.ruleAct id s) := by
  unfold State.ruleAct
  repeat' first
    | (with_reducible assumption)
    | extract_lets
    | (with_reducible refine sound_ite (fun _ => ?_) (fun _ => ?_))
    | (with_reducible apply State.count_sound)
    | (with_reducible apply State.noVerdict_sound)
    | (with_reducible apply State.deepAdmit_sound)
    | (with_reducible apply State.pmCall_sound)
    | (with_reducible apply State.decide'_sound)
    | split

theorem State.macFaulted_sound {pipe k : Nat} (h : Sound q f s) :
    Sound q f (State.macFaulted pipe k s) := by
  unfold State.macFaulted
  repeat' first
    | (with_reducible assumption)
    | extract_lets
    | (with_reducible apply State.sramUncorrectable_sound)
    | (with_reducible apply State.packetFault_sound)
    | (with_reducible apply State.count_sound)
    | (with_reducible apply updCls_sound)

theorem State.macWrite_sound {pipe k : Nat} {e : Option MacEntry} (h : Sound q f s) :
    Sound q f (State.macWrite pipe k e s) := by
  unfold State.macWrite
  repeat' first
    | (with_reducible assumption)
    | extract_lets
    | (with_reducible refine sound_ite (fun _ => ?_) (fun _ => ?_))
    | (with_reducible apply updCls_sound)

theorem State.macLook_sound {pipe mac vid : Nat} (h : Sound q f s) :
    Sound q f (State.macLook pipe mac vid s).2 := by
  unfold State.macLook
  repeat' first
    | (with_reducible assumption)
    | extract_lets
    | (with_reducible refine sound_ite (fun _ => ?_) (fun _ => ?_))
    | (with_reducible refine sound_foldl ?_ (fun _ _ _ => ?_))
    | (with_reducible refine sound_foldl_fst ?_ (fun _ _ _ => ?_))
    | (with_reducible apply State.fresh_sound)
    | split

theorem State.modMac_sound {k : Nat} {f0 : MacEntry → MacEntry} (h : Sound q f s) :
    Sound q f (State.modMac k f0 s) := by
  unfold State.modMac
  repeat' first
    | (with_reducible assumption)
    | (with_reducible apply updCls_sound)

theorem State.macFlap_sound {e : MacEntry} (h : Sound q f s) : Sound q f (State.macFlap e s) := by
  unfold State.macFlap
  repeat' first
    | (with_reducible assumption)
    | extract_lets
    | (with_reducible apply State.recordEvent_sound)

theorem State.macLearn_sound {ifc mac vid : Nat} (h : Sound q f s) :
    Sound q f (State.macLearn ifc mac vid s).2 := by
  unfold State.macLearn
  repeat' first
    | (with_reducible assumption)
    | extract_lets
    | (with_reducible refine sound_ite (fun _ => ?_) (fun _ => ?_))
    | (with_reducible apply State.count_sound)
    | (with_reducible apply State.macWrite_sound)
    | (with_reducible apply State.macFlap_sound)
    | split

theorem State.macThen_sound {id : Nat} {g : State → State} (hg : ∀ s, Sound q f s → Sound q f (g s))
    (h : Sound q f s) : Sound q f (State.macThen id g s) := by
  unfold State.macThen
  repeat' first
    | (with_reducible assumption)
    | extract_lets
    | (with_reducible refine sound_ite (fun _ => ?_) (fun _ => ?_))
    | (refine hg _ ?_)
    | (with_reducible apply State.decide'_sound)
    | (with_reducible apply State.macFaulted_sound)
    | (with_reducible apply State.macLearn_sound)
    | split

theorem State.macStep_sound {id : Nat} (h : Sound q f s) : Sound q f (State.macStep id s) :=
  State.macThen_sound (fun _ => State.ruleAct_sound) h

theorem State.flowFaulted_sound {pipe a : Nat} (h : Sound q f s) :
    Sound q f (State.flowFaulted pipe a s) := by
  unfold State.flowFaulted
  repeat' first
    | (with_reducible assumption)
    | extract_lets
    | (with_reducible apply State.packetFault_sound)
    | (with_reducible apply State.count_sound)
    | (with_reducible apply State.ixPut_sound)

theorem State.pickRec_sound {pipe : Nat} (h : Sound q f s) : Sound q f (State.pickRec pipe s).2 := by
  unfold State.pickRec
  repeat' first
    | (with_reducible assumption)
    | extract_lets
    | (with_reducible apply State.fresh_sound)

theorem State.takeLearn_sound {ifc : Nat} (h : Sound q f s) :
    ∀ s', State.takeLearn ifc s = some s' → Sound q f s' := by
  unfold State.takeLearn
  repeat' first
    | (with_reducible assumption)
    | extract_lets
    | (with_reducible apply State.modClsIfc_sound)
    | split
    | (intro _ e; cases e)

theorem State.flowUpdate_sound {id pipe record : Nat} {isNew : Bool} {f0 : Frame} {r : Nat} (h : Sound q f
    s) :
    Sound q f (State.flowUpdate id pipe record isNew f0 r s) := by
  unfold State.flowUpdate
  repeat' first
    | (with_reducible assumption)
    | extract_lets
    | (with_reducible refine sound_ite (fun _ => ?_) (fun _ => ?_))
    | (with_reducible apply State.recPut_sound)
    | (with_reducible apply State.halfFault_sound)
    | (with_reducible apply State.touchHalf_sound)
    | (with_reducible apply State.rsIssue_sound)
    | (with_reducible apply State.modFrame_sound)

theorem State.flowHit_sound {id pipe : Nat} {entry record : Nat} {f0 : Frame} (h : Sound q f s) :
    Sound q f (State.flowHit id pipe entry record f0 s) := by
  unfold State.flowHit
  repeat' first
    | (with_reducible assumption)
    | extract_lets
    | (with_reducible refine sound_ite (fun _ => ?_) (fun _ => ?_))
    | (with_reducible apply State.ixPut_sound)
    | (with_reducible apply State.flowUpdate_sound)

theorem State.flowLearn_sound {id pipe : Nat} {f0 : Frame} (h : Sound q f s) :
    Sound q f (State.flowLearn id pipe f0 s) := by
  unfold State.flowLearn
  repeat' first
    | (with_reducible assumption)
    | extract_lets
    | (with_reducible refine sound_ite (fun _ => ?_) (fun _ => ?_))
    | (with_reducible apply State.count_sound)
    | (with_reducible apply State.poke_sound)
    | (with_reducible apply State.modPipe_sound)
    | (with_reducible apply State.modClsIfc_sound)
    | (with_reducible refine State.macThen_sound (fun _ h => State.decide'_sound h) ?_)
    | (with_reducible apply State.macStep_sound)
    | (with_reducible apply State.pickRec_sound)
    | (with_reducible refine State.takeLearn_sound ?_ _ (by assumption))
    | (with_reducible apply State.flowUpdate_sound)
    | split

theorem State.flowMissed_sound {id pipe : Nat} {f0 : Frame} {a : RuleAction} (h : Sound q f s) :
    Sound q f (State.flowMissed id pipe f0 a s) := by
  unfold State.flowMissed
  repeat' first
    | (with_reducible assumption)
    | extract_lets
    | (with_reducible refine sound_ite (fun _ => ?_) (fun _ => ?_))
    | (with_reducible apply State.flowLearn_sound)
    | (with_reducible apply State.macStep_sound)

theorem State.flowStep_sound {id pipe : Nat} {f0 : Frame} {a : RuleAction} (h : Sound q f s) :
    Sound q f (State.flowStep id pipe f0 a s) := by
  unfold State.flowStep
  repeat' first
    | (with_reducible assumption)
    | extract_lets
    | (with_reducible refine sound_ite (fun _ => ?_) (fun _ => ?_))
    | (with_reducible apply State.modFrame_sound)
    | (with_reducible apply State.modPipe_sound)
    | (with_reducible apply State.flowTouch_sound)
    | (with_reducible apply State.macStep_sound)
    | (with_reducible apply State.flowFaulted_sound)
    | (with_reducible apply State.flowHit_sound)
    | (with_reducible apply State.flowMissed_sound)
    | split

theorem State.cacheHit_sound {pipe : Nat} {f0 : Frame} (h : Sound q f s) :
    Sound q f (State.cacheHit pipe f0 s).2 := by
  unfold State.cacheHit
  repeat' first
    | (with_reducible assumption)
    | extract_lets
    | (with_reducible refine sound_ite (fun _ => ?_) (fun _ => ?_))
    | split
    | (dsimp +zetaDelta only)
    | (with_reducible apply sound_mk)

theorem State.flowEnter_sound {id pipe : Nat} {f0 : Frame} {a : RuleAction} (h : Sound q f s) :
    Sound q f (State.flowEnter id pipe f0 a s) := by
  unfold State.flowEnter
  repeat' first
    | (with_reducible assumption)
    | extract_lets
    | (with_reducible refine sound_ite (fun _ => ?_) (fun _ => ?_))
    | (with_reducible apply State.count_sound)
    | (with_reducible apply State.modFrame_sound)
    | (with_reducible apply State.macStep_sound)
    | (with_reducible apply State.flowMissed_sound)
    | (with_reducible apply State.flowStep_sound)
    | (with_reducible apply State.cacheHit_sound)

theorem State.ruleStep_sound {id : Nat} {f0 : Frame} {r : ClassReads} (h : Sound q f s) :
    Sound q f (State.ruleStep id f0 r s) := by
  unfold State.ruleStep
  repeat' first
    | (with_reducible assumption)
    | extract_lets
    | (with_reducible refine sound_ite (fun _ => ?_) (fun _ => ?_))
    | (with_reducible apply State.classOf_sound)
    | (with_reducible apply State.decide'_sound)
    | (with_reducible apply State.count_sound)
    | (with_reducible apply State.ruleFault_sound)
    | (with_reducible apply State.modPipe_sound)
    | (with_reducible apply State.modFrame_sound)
    | (with_reducible apply State.flowEnter_sound)
    | split

theorem State.classify_sound {id : Nat} {f0 : Frame} {r : ClassReads} (h : Sound q f s) :
    Sound q f (State.classify id f0 r s) := by
  unfold State.classify
  repeat' first
    | (with_reducible assumption)
    | extract_lets
    | (with_reducible refine sound_ite (fun _ => ?_) (fun _ => ?_))
    | (with_reducible apply State.count_sound)
    | (with_reducible apply State.modFrame_sound)
    | (with_reducible apply State.decide'_sound)
    | (with_reducible apply State.ruleStep_sound)

theorem execClassify_sound {t frame : Nat} {r : ClassReads} (h : Sound q f s) :
    SoundOut q f (execClassify t frame r s) := by
  unfold execClassify
  repeat' first
    | (with_reducible assumption)
    | extract_lets
    | (with_reducible refine State.happen_sound ?_ (fun _ _ => ?_))
    | (with_reducible apply State.classify_sound)
    | split

theorem execFlowMissComplete_sound {t frame : Nat} (h : Sound q f s) :
    SoundOut q f (execFlowMissComplete t frame s) := by
  unfold execFlowMissComplete
  repeat' first
    | (with_reducible assumption)
    | extract_lets
    | (with_reducible refine State.happen_sound ?_ (fun _ _ => ?_))
    | (with_reducible apply State.flowStep_sound)
    | split

theorem State.learnDone_sound {pipe i : Nat} (h : Sound q f s) : Sound q f (State.learnDone pipe i s) := by
  unfold State.learnDone
  repeat' first
    | (with_reducible assumption)
    | extract_lets
    | (with_reducible apply State.modPipe_sound)
    | (with_reducible apply State.ixPut_sound)
    | split

theorem State.wakeLearn_sound {pipe : Nat} {key : FlowKey} (h : Sound q f s) :
    Sound q f (State.wakeLearn pipe key s) := by
  unfold State.wakeLearn
  repeat' first
    | (with_reducible assumption)
    | extract_lets
    | (with_reducible refine sound_foldl ?_ (fun _ _ _ => ?_))
    | (with_reducible apply State.flowStep_sound)
    | (with_reducible apply State.count_sound)
    | split

theorem execFlowLearnComplete_sound {t pipe recIdx : Nat} (h : Sound q f s) :
    SoundOut q f (execFlowLearnComplete t pipe recIdx s) := by
  unfold execFlowLearnComplete
  repeat' first
    | (with_reducible assumption)
    | extract_lets
    | (with_reducible refine State.happen_sound ?_ (fun _ _ => ?_))
    | (with_reducible apply State.wakeLearn_sound)
    | (with_reducible apply State.learnDone_sound)
    | split

theorem State.finishLearns_sound {pipe : Nat} (h : Sound q f s) :
    Sound q f (State.finishLearns pipe s) := by
  unfold State.finishLearns
  repeat' first
    | (with_reducible assumption)
    | extract_lets
    | (with_reducible refine sound_foldl ?_ (fun _ _ _ => ?_))
    | (with_reducible apply State.wakeLearn_sound)
    | (with_reducible apply State.learnDone_sound)

theorem State.recFreed_sound {pipe i : Nat} (h : Sound q f s) : Sound q f (State.recFreed pipe i s) := by
  unfold State.recFreed
  repeat' first
    | (with_reducible assumption)
    | (with_reducible apply State.modPipe_sound)

theorem State.freeCleared_sound {p : Nat} {old : List (Nat × Nat)} (h : Sound q f s) :
    Sound q f (State.freeCleared p old s) := by
  unfold State.freeCleared
  repeat' first
    | (with_reducible assumption)
    | extract_lets
    | (with_reducible refine sound_ite (fun _ => ?_) (fun _ => ?_))
    | (with_reducible refine sound_foldl ?_ (fun _ _ _ => ?_))
    | (with_reducible refine sound_foldl_fst ?_ (fun _ _ _ => ?_))
    | (with_reducible apply State.recFreed_sound)

theorem State.windowPoke_sound {a : Nat} {data : List Byte} (h : Sound q f s) :
    Sound q f (State.windowPoke a data s) := by
  unfold State.windowPoke
  repeat' first
    | (with_reducible assumption)
    | extract_lets
    | (with_reducible refine sound_ite (fun _ => ?_) (fun _ => ?_))
    | (with_reducible refine sound_foldl ?_ (fun _ _ _ => ?_))
    | (with_reducible refine sound_foldl_fst ?_ (fun _ _ _ => ?_))
    | (with_reducible apply State.poke_sound)
    | (with_reducible apply State.finishLearns_sound)
    | (with_reducible apply State.freeCleared_sound)

theorem execWinWrite_sound {t : Nat} {f0 : OuvHdr} {offset : Nat} {data : List Byte} (h : Sound q f s) :
    SoundOut q f (execWinWrite t f0 offset data s) := by
  unfold execWinWrite
  repeat' first
    | (with_reducible assumption)
    | extract_lets
    | (with_reducible refine State.onFrame_sound ?_ (fun _ _ _ => ?_))
    | (with_reducible apply reply_done)
    | (with_reducible exact reply_refuse)
    | (with_reducible apply frame_done)
    | (with_reducible exact frame_refuse)
    | (with_reducible apply State.windowPoke_sound)
    | split

theorem State.writeCtl_sound {f0 : OuvHdr} {x : Session} {pipe v : Nat} (h : Sound q f s) :
    FrameSound q f (State.writeCtl f0 x pipe v s) := by
  unfold State.writeCtl
  repeat' first
    | (with_reducible assumption)
    | extract_lets
    | (with_reducible apply frame_done)
    | (with_reducible exact frame_refuse)
    | (with_reducible apply State.windowPoke_sound)
    | split

theorem execFlowTableLockSet_sound {t : Nat} {f0 : OuvHdr} {pipe : Nat} (h : Sound q f s) :
    SoundOut q f (execFlowTableLockSet t f0 pipe s) := by
  unfold execFlowTableLockSet
  repeat' first
    | (with_reducible assumption)
    | extract_lets
    | (with_reducible refine State.onFrame_sound ?_ (fun _ _ _ => ?_))
    | (with_reducible apply State.writeCtl_sound)

theorem execFlowTableLockClear_sound {t : Nat} {f0 : OuvHdr} {pipe : Nat} (h : Sound q f s) :
    SoundOut q f (execFlowTableLockClear t f0 pipe s) := by
  unfold execFlowTableLockClear
  repeat' first
    | (with_reducible assumption)
    | extract_lets
    | (with_reducible refine State.onFrame_sound ?_ (fun _ _ _ => ?_))
    | (with_reducible apply State.writeCtl_sound)

theorem State.flowDrop_sound {pipe a : Nat} (h : Sound q f s) : Sound q f (State.flowDrop pipe a s) := by
  unfold State.flowDrop
  repeat' first
    | (with_reducible assumption)
    | extract_lets
    | (with_reducible apply State.recFreed_sound)
    | (with_reducible apply State.ixPut_sound)

theorem execFlowAgingPass_sound {t pipe entry : Nat} {raced : Bool} (h : Sound q f s) :
    SoundOut q f (execFlowAgingPass t pipe entry raced s) := by
  unfold execFlowAgingPass
  repeat' first
    | (with_reducible assumption)
    | extract_lets
    | (with_reducible refine sound_ite (fun _ => ?_) (fun _ => ?_))
    | (with_reducible refine State.happen_sound ?_ (fun _ _ => ?_))
    | (with_reducible apply State.count_sound)
    | (with_reducible apply State.touch_sound)
    | (with_reducible apply State.ixPut_sound)
    | (with_reducible apply State.flowFaulted_sound)
    | (with_reducible apply State.flowDrop_sound)

theorem execMacAgingPass_sound {t entry : Nat} {raced : Bool} (h : Sound q f s) :
    SoundOut q f (execMacAgingPass t entry raced s) := by
  unfold execMacAgingPass
  repeat' first
    | (with_reducible assumption)
    | extract_lets
    | (with_reducible refine sound_ite (fun _ => ?_) (fun _ => ?_))
    | (with_reducible refine State.happen_sound ?_ (fun _ _ => ?_))
    | (with_reducible apply State.count_sound)
    | (with_reducible apply State.tally_sound)
    | (with_reducible apply State.macWrite_sound)
    | (with_reducible apply State.modMac_sound)
    | split

theorem execMacPinRelease_sound {t entry : Nat} (h : Sound q f s) :
    SoundOut q f (execMacPinRelease t entry s) := by
  unfold execMacPinRelease
  repeat' first
    | (with_reducible assumption)
    | extract_lets
    | (with_reducible refine State.happen_sound ?_ (fun _ _ => ?_))
    | (with_reducible apply State.modMac_sound)

theorem execRuleScrubPass_sound {t pipe : Nat} {bad : List Nat} (h : Sound q f s) :
    SoundOut q f (execRuleScrubPass t pipe bad s) := by
  unfold execRuleScrubPass
  repeat' first
    | (with_reducible assumption)
    | extract_lets
    | (with_reducible refine sound_ite (fun _ => ?_) (fun _ => ?_))
    | (with_reducible refine sound_foldl ?_ (fun _ _ _ => ?_))
    | (with_reducible refine State.happen_sound ?_ (fun _ _ => ?_))
    | (with_reducible apply State.ruleFault_sound)

theorem State.clearFlowEntry_sound {pipe entry : Nat} (h : Sound q f s) :
    Sound q f (State.clearFlowEntry pipe entry s) := by
  unfold State.clearFlowEntry
  repeat' first
    | (with_reducible assumption)
    | extract_lets
    | (with_reducible refine sound_ite (fun _ => ?_) (fun _ => ?_))
    | (with_reducible apply State.recFreed_sound)
    | (with_reducible apply State.ixPut_sound)

theorem State.clearMac_sound {k : Nat} (h : Sound q f s) : Sound q f (State.clearMac k s) := by
  unfold State.clearMac
  repeat' first
    | (with_reducible assumption)
    | (with_reducible apply updCls_sound)

theorem execTableEntryRewrite_sound {t table idx : Nat} (h : Sound q f s) :
    SoundOut q f (execTableEntryRewrite t table idx s) := by
  unfold execTableEntryRewrite
  repeat' first
    | (with_reducible assumption)
    | extract_lets
    | (with_reducible refine sound_ite (fun _ => ?_) (fun _ => ?_))
    | (with_reducible refine State.happen_sound ?_ (fun _ _ => ?_))
    | (with_reducible apply State.modPipe_sound)
    | (with_reducible apply updCls_sound)
    | (with_reducible apply State.clearMac_sound)
    | (with_reducible apply State.clearFlowEntry_sound)

theorem State.emptyFlows_sound {pipe : Nat} (h : Sound q f s) : Sound q f (State.emptyFlows pipe s) := by
  unfold State.emptyFlows
  repeat' first
    | (with_reducible assumption)
    | extract_lets
    | (with_reducible refine sound_ite (fun _ => ?_) (fun _ => ?_))
    | (with_reducible apply State.modPipe_sound)
    | (with_reducible apply State.zeroRange_sound)

theorem clsApply_sound {r : SetRec} (h : Sound q f s) : Sound q f (clsApply s r) := by
  unfold clsApply
  repeat' first
    | (with_reducible assumption)
    | extract_lets
    | (with_reducible refine sound_ite (fun _ => ?_) (fun _ => ?_))
    | (with_reducible apply State.modClsIfc_sound)
    | (with_reducible apply updCls_sound)
    | (with_reducible apply State.emptyFlows_sound)
    | (with_reducible apply State.modPipe_sound)
    | split

theorem execClassConfig_sound {t : Nat} {h0 : CmdHdr} {recs : List SetRec} (h : Sound q f s) :
    SoundOut q f (execClassConfig t h0 recs s) := by
  unfold execClassConfig
  repeat' first
    | (with_reducible assumption)
    | extract_lets
    | (with_reducible refine State.isain_sound ?_ (fun _ _ => ?_))
    | (with_reducible apply checksAt_sound)
    | (with_reducible refine settings_sound ?_ (fun _ _ _ => ?_) (fun _ _ => ?_))
    | (with_reducible apply clsApply_sound)
    | (with_reducible apply State.keep_sound)

theorem flowApply_sound {r : SetRec} (h : Sound q f s) : Sound q f (flowApply s r) := by
  unfold flowApply
  repeat' first
    | (with_reducible assumption)
    | extract_lets
    | (with_reducible refine sound_ite (fun _ => ?_) (fun _ => ?_))
    | (with_reducible apply State.emptyFlows_sound)
    | (with_reducible apply State.modPipe_sound)
    | (with_reducible apply State.modDomain_sound)
    | split

theorem execFlowTableConfig_sound {t : Nat} {h0 : CmdHdr} {recs : List SetRec} (h : Sound q f s) :
    SoundOut q f (execFlowTableConfig t h0 recs s) := by
  unfold execFlowTableConfig
  repeat' first
    | (with_reducible assumption)
    | extract_lets
    | (with_reducible refine State.isain_sound ?_ (fun _ _ => ?_))
    | (with_reducible apply checksAt_sound)
    | (with_reducible refine settings_sound ?_ (fun _ _ _ => ?_) (fun _ _ => ?_))
    | (with_reducible apply flowApply_sound)
    | (with_reducible apply State.keep_sound)

theorem State.engage_sound {table bound : Nat} {h0 : CmdHdr} (h : Sound q f s) :
    Sound q f (State.engage table bound h0 s) := by
  unfold State.engage
  repeat' first
    | (with_reducible assumption)
    | extract_lets
    | (with_reducible apply State.fresh_sound)
    | (with_reducible apply updCls_sound)

theorem execRuleWrite_sound {t : Nat} {h0 : CmdHdr} {pipe : Nat} {rows : List (Nat × RuleRow)} {clears :
    List Nat} (h : Sound q f s) :
    SoundOut q f (execRuleWrite t h0 pipe rows clears s) := by
  unfold execRuleWrite
  repeat' first
    | (with_reducible assumption)
    | extract_lets
    | (with_reducible refine State.isain_sound ?_ (fun _ _ => ?_))
    | (with_reducible apply checksAt_sound)
    | (with_reducible apply reply_ok)
    | (with_reducible apply okReply_sound)
    | (with_reducible apply State.keep_sound)
    | (with_reducible apply State.modPipe_sound)
    | (with_reducible apply State.engage_sound)

theorem execRuleRead_sound {t : Nat} {h0 : CmdHdr} {pipe start max : Nat} (h : Sound q f s) :
    SoundOut q f (execRuleRead t h0 pipe start max s) := by
  unfold execRuleRead
  repeat' first
    | (with_reducible assumption)
    | extract_lets
    | (with_reducible refine State.isain_sound ?_ (fun _ _ => ?_))
    | (with_reducible apply checks_sound)
    | (with_reducible apply reply_done)

theorem State.takeNode_sound {v6 : Bool} {n : Nat × Nat} (h : Sound q f s) :
    Sound q f (State.takeNode v6 n s) := by
  unfold State.takeNode
  repeat' first
    | (with_reducible assumption)
    | extract_lets
    | (with_reducible refine sound_ite (fun _ => ?_) (fun _ => ?_))
    | (with_reducible apply State.fresh_sound)
    | (with_reducible apply updCls_sound)

theorem execPrefixAdd_sound {t : Nat} {h0 : CmdHdr} {v6 : Bool} {len cls : Nat} {pfx : BitVec 128} (h :
    Sound q f s) :
    SoundOut q f (execPrefixAdd t h0 v6 len cls pfx s) := by
  unfold execPrefixAdd
  repeat' first
    | (with_reducible assumption)
    | extract_lets
    | (with_reducible refine sound_ite (fun _ => ?_) (fun _ => ?_))
    | (with_reducible refine sound_foldl ?_ (fun _ _ _ => ?_))
    | (with_reducible refine sound_foldl_fst ?_ (fun _ _ _ => ?_))
    | (with_reducible refine State.isain_sound ?_ (fun _ _ => ?_))
    | (with_reducible apply checks_sound)
    | (with_reducible apply reply_ok)
    | (with_reducible apply okReply_sound)
    | (with_reducible apply State.engage_sound)
    | (with_reducible apply State.takeNode_sound)
    | (with_reducible apply updCls_sound)
    | (with_reducible apply State.at_sound)

theorem execPrefixDel_sound {t : Nat} {h0 : CmdHdr} {v6 : Bool} {len : Nat} {pfx : BitVec 128} (h : Sound
    q f s) :
    SoundOut q f (execPrefixDel t h0 v6 len pfx s) := by
  unfold execPrefixDel
  repeat' first
    | (with_reducible assumption)
    | extract_lets
    | (with_reducible refine State.isain_sound ?_ (fun _ _ => ?_))
    | (with_reducible apply checks_sound)
    | (with_reducible apply reply_ok)
    | (with_reducible apply okReply_sound)
    | (with_reducible apply State.engage_sound)
    | (with_reducible apply updCls_sound)

theorem execPrefixRead_sound {t : Nat} {h0 : CmdHdr} {v6 : Bool} {level node start max : Nat} (h : Sound q
    f s) :
    SoundOut q f (execPrefixRead t h0 v6 level node start max s) := by
  unfold execPrefixRead
  repeat' first
    | (with_reducible assumption)
    | extract_lets
    | (with_reducible refine sound_ite (fun _ => ?_) (fun _ => ?_))
    | (with_reducible refine State.isain_sound ?_ (fun _ _ => ?_))
    | (with_reducible apply checks_sound)
    | (with_reducible apply reply_done)

theorem execMacStaticAdd_sound {t : Nat} {h0 : CmdHdr} {mif vid : Nat} {mac : BitVec 48} (h : Sound q f s) :
    SoundOut q f (execMacStaticAdd t h0 mif vid mac s) := by
  unfold execMacStaticAdd
  repeat' first
    | (with_reducible assumption)
    | extract_lets
    | (with_reducible refine sound_ite (fun _ => ?_) (fun _ => ?_))
    | (with_reducible refine State.isain_sound ?_ (fun _ _ => ?_))
    | (with_reducible apply reply_ok)
    | (with_reducible exact reply_no)
    | (with_reducible apply okReply_sound)
    | (with_reducible apply State.keep_sound)
    | (with_reducible apply State.engage_sound)
    | (with_reducible apply updCls_sound)
    | split

theorem execMacStaticRemove_sound {t : Nat} {h0 : CmdHdr} {vid : Nat} {mac : BitVec 48} (h : Sound q f s) :
    SoundOut q f (execMacStaticRemove t h0 vid mac s) := by
  unfold execMacStaticRemove
  repeat' first
    | (with_reducible assumption)
    | extract_lets
    | (with_reducible refine sound_ite (fun _ => ?_) (fun _ => ?_))
    | (with_reducible refine State.isain_sound ?_ (fun _ _ => ?_))
    | (with_reducible apply reply_ok)
    | (with_reducible exact reply_no)
    | (with_reducible apply okReply_sound)
    | (with_reducible apply State.keep_sound)
    | (with_reducible apply State.engage_sound)
    | (with_reducible apply updCls_sound)
    | split

theorem execMacRead_sound {t : Nat} {h0 : CmdHdr} {start max : Nat} (h : Sound q f s) :
    SoundOut q f (execMacRead t h0 start max s) := by
  unfold execMacRead
  repeat' first
    | (with_reducible assumption)
    | extract_lets
    | (with_reducible refine sound_ite (fun _ => ?_) (fun _ => ?_))
    | (with_reducible refine State.isain_sound ?_ (fun _ _ => ?_))
    | (with_reducible apply reply_done)
    | (with_reducible exact reply_no)
    | (with_reducible apply frame_done)
    | (with_reducible apply State.start_sound)
    | split

theorem execMacFlush_sound {t : Nat} {h0 : CmdHdr} {mif vid : Nat} (h : Sound q f s) :
    SoundOut q f (execMacFlush t h0 mif vid s) := by
  unfold execMacFlush
  repeat' first
    | (with_reducible assumption)
    | extract_lets
    | (with_reducible refine sound_ite (fun _ => ?_) (fun _ => ?_))
    | (with_reducible refine State.isain_sound ?_ (fun _ _ => ?_))
    | (with_reducible apply checks_sound)
    | (with_reducible apply reply_done)
    | (with_reducible apply frame_done)
    | (with_reducible apply State.engage_sound)
    | (with_reducible apply updCls_sound)

theorem execFlowDelete_sound {t : Nat} {h0 : CmdHdr} {pipe : Nat} {key : FlowKey} {raced : Bool} (h :
    Sound q f s) :
    SoundOut q f (execFlowDelete t h0 pipe key raced s) := by
  unfold execFlowDelete
  repeat' first
    | (with_reducible assumption)
    | extract_lets
    | (with_reducible refine sound_ite (fun _ => ?_) (fun _ => ?_))
    | (with_reducible refine State.isain_sound ?_ (fun _ _ => ?_))
    | (with_reducible apply reply_ok)
    | (with_reducible apply reply_done)
    | (with_reducible exact reply_no)
    | (with_reducible apply frame_done)
    | (with_reducible apply okReply_sound)
    | (with_reducible apply State.flowTouch_sound)
    | (with_reducible apply State.flowFaulted_sound)
    | (with_reducible apply State.flowDrop_sound)
    | (with_reducible apply State.engage_sound)
    | split

theorem execFlowRead_sound {t : Nat} {h0 : CmdHdr} {pipe : Nat} {key : FlowKey} (h : Sound q f s) :
    SoundOut q f (execFlowRead t h0 pipe key s) := by
  unfold execFlowRead
  repeat' first
    | (with_reducible assumption)
    | extract_lets
    | (with_reducible refine sound_ite (fun _ => ?_) (fun _ => ?_))
    | (with_reducible refine State.isain_sound ?_ (fun _ _ => ?_))
    | (with_reducible apply reply_done)
    | (with_reducible exact reply_no)
    | (with_reducible apply frame_done)
    | (with_reducible apply State.flowTouch_sound)
    | (with_reducible apply State.flowFaulted_sound)
    | split

end Sys2Proof.Machine
end

