-- ==== Sys2Proof/Laws/SoundEgress.lean ====
section
/-! SUPPORT. The definitions of Machine/Egress.lean keep a sound state: the queue, the fuses, memory in its
canonical form, the counters' bound and Rosemary's numbering. -/

namespace Sys2Proof.Machine

variable {q : List Instr} {f : Fuses} {s : State}

theorem State.police_sound {n bytes : Nat} {f0 : Frame} (h : Sound q f s) :
    Sound q f (State.police n bytes f0 s).2 := by
  unfold State.police
  repeat' first
    | (with_reducible assumption)
    | extract_lets
    | (with_reducible apply updEg_sound)
    | (with_reducible apply State.count_sound)
    | split

theorem State.policeAll_sound {bytes : Nat} {x1 : List Nat} {x2 : Frame} (h : Sound q f s) :
    Sound q f (State.policeAll bytes x1 x2 s).2 := by
  induction x1 generalizing s x2 with
  | nil =>
    rw [State.policeAll]
    repeat' first
      | (with_reducible assumption)
  | cons x r ih =>
    rw [State.policeAll]
    repeat' first
      | (with_reducible assumption)
      | (with_reducible apply ih)
      | extract_lets
      | (with_reducible refine of_snd (by assumption) (State.police_sound ?_))
      | split

theorem State.modQueue_sound {ifc q0 : Nat} {f0 : Queue → Queue} (h : Sound q f s) :
    Sound q f (State.modQueue ifc q0 f0 s) := by
  unfold State.modQueue
  repeat' first
    | (with_reducible assumption)
    | (with_reducible apply updEg_sound)

theorem State.releaseSlot_sound {f0 : Frame} (h : Sound q f s) : Sound q f (State.releaseSlot f0 s) := by
  unfold State.releaseSlot
  repeat' first
    | (with_reducible assumption)
    | (with_reducible apply State.freeSlot_sound)
    | split

theorem State.dropFrame_sound {id : Nat} (h : Sound q f s) : Sound q f (State.dropFrame id s) := by
  unfold State.dropFrame
  repeat' first
    | (with_reducible assumption)
    | extract_lets
    | (with_reducible apply State.freeFrame_sound)
    | (with_reducible apply State.releaseSlot_sound)
    | split

theorem State.admitQueue_sound {ifc id : Nat} {bs : List Byte} {l3 : Option Nat} (h : Sound q f s) :
    Sound q f (State.admitQueue ifc id bs l3 s) := by
  unfold State.admitQueue
  repeat' first
    | (with_reducible assumption)
    | extract_lets
    | (with_reducible refine sound_ite (fun _ => ?_) (fun _ => ?_))
    | (with_reducible apply State.count_sound)
    | (with_reducible apply State.modFrame_sound)
    | (with_reducible apply State.noteHeld_sound)
    | (with_reducible apply State.modQueue_sound)
    | (with_reducible apply State.releaseSlot_sound)
    | (with_reducible apply State.dropFrame_sound)
    | split

theorem State.sendTo_sound {ifc id : Nat} {f0 : Frame} {hdr : Option (List Byte)} (h : Sound q f s) :
    Sound q f (State.sendTo ifc id f0 hdr s) := by
  unfold State.sendTo
  repeat' first
    | (with_reducible assumption)
    | extract_lets
    | (with_reducible refine sound_ite (fun _ => ?_) (fun _ => ?_))
    | (with_reducible apply State.count_sound)
    | (with_reducible apply State.admitQueue_sound)
    | split
    | (dsimp +zetaDelta only)

theorem State.sendAll_sound {id : Nat} {f0 : Frame} {hdr : Option (List Byte)} {outs : List Nat}
    (h : Sound q f s) : Sound q f (s.sendAll id f0 hdr outs) := by
  induction outs generalizing s with
  | nil => exact State.dropFrame_sound h
  | cons i rest ih =>
    cases rest with
    | nil => exact State.sendTo_sound h
    | cons j rest => exact ih (State.sendTo_sound (updParser_sound h))

theorem State.discard_sound {id : Nat} {f0 : Frame} (h : Sound q f s) :
    Sound q f (State.discard id f0 s) := by
  unfold State.discard
  repeat' first
    | (with_reducible assumption)
    | extract_lets
    | (with_reducible refine sound_ite (fun _ => ?_) (fun _ => ?_))
    | (with_reducible apply State.count_sound)
    | (with_reducible apply State.dropFrame_sound)

theorem State.ship_sound {id : Nat} {f0 : Frame} {hdr : Option (List Byte)} {pols outs : List Nat}
    (h : Sound q f s) : Sound q f (State.ship id f0 hdr pols outs s) := by
  unfold State.ship
  extract_lets
  split
  · exact State.discard_sound h
  · split
    · rename_i e
      exact State.sendAll_sound (of_snd e (State.policeAll_sound h))
    · rename_i e
      exact State.dropFrame_sound (of_snd e (State.policeAll_sound h))

theorem State.forward_sound {id : Nat} {f0 : Frame} {hdr : Option (List Byte)} {pols : List Nat} (h :
    Sound q f s) :
    Sound q f (State.forward id f0 hdr pols s) := by
  unfold State.forward
  repeat' first
    | (with_reducible assumption)
    | extract_lets
    | (with_reducible apply State.discard_sound)
    | (with_reducible apply State.ship_sound)
    | split

theorem State.steer_sound {id : Nat} {f0 : Frame} {hdr : Option (List Byte)} {pols : List Nat} {out : Nat}
    (h : Sound q f s) :
    Sound q f (State.steer id f0 hdr pols out s) := by
  unfold State.steer
  repeat' first
    | (with_reducible assumption)
    | extract_lets
    | (with_reducible refine sound_ite (fun _ => ?_) (fun _ => ?_))
    | (with_reducible apply State.out_sound)
    | (with_reducible apply State.count_sound)
    | (with_reducible apply State.dropFrame_sound)
    | (with_reducible apply State.discard_sound)
    | (with_reducible apply State.ship_sound)

theorem State.flood_sound {id : Nat} {f0 : Frame} {hdr : Option (List Byte)} {pols : List Nat} (h : Sound
    q f s) :
    Sound q f (State.flood id f0 hdr pols s) := by
  unfold State.flood
  repeat' first
    | (with_reducible assumption)
    | extract_lets
    | (with_reducible apply State.count_sound)
    | (with_reducible apply State.copyFrame_sound)
    | (with_reducible apply State.ship_sound)
    | split
    | (dsimp +zetaDelta only)

theorem State.l2_sound {id : Nat} {f0 : Frame} {hdr : Option (List Byte)} {pols : List Nat} {macBad :
    Option Nat} (h : Sound q f s) :
    Sound q f (State.l2 id f0 hdr pols macBad s) := by
  unfold State.l2
  repeat' first
    | (with_reducible assumption)
    | extract_lets
    | (with_reducible refine sound_ite (fun _ => ?_) (fun _ => ?_))
    | (with_reducible apply State.count_sound)
    | (with_reducible apply State.macFaulted_sound)
    | (with_reducible apply State.macLook_sound)
    | (with_reducible apply State.discard_sound)
    | (with_reducible apply State.steer_sound)
    | (with_reducible apply State.flood_sound)
    | split

theorem State.fwdAction_sound {id : Nat} {f0 : Frame} {a : RuleAction} {macBad : Option Nat} (h : Sound q
    f s) :
    Sound q f (State.fwdAction id f0 a macBad s) := by
  unfold State.fwdAction
  repeat' first
    | (with_reducible assumption)
    | extract_lets
    | (with_reducible refine sound_ite (fun _ => ?_) (fun _ => ?_))
    | (with_reducible apply State.copyFrame_sound)
    | (with_reducible apply State.discard_sound)
    | (with_reducible apply State.forward_sound)
    | (with_reducible apply State.steer_sound)
    | (with_reducible apply State.l2_sound)
    | split

theorem State.verdictAction_sound {id : Nat} {f0 : Frame} {v : Verdict} (h : Sound q f s) :
    Sound q f (State.verdictAction id f0 v s) := by
  unfold State.verdictAction
  repeat' first
    | (with_reducible assumption)
    | extract_lets
    | (with_reducible refine sound_ite (fun _ => ?_) (fun _ => ?_))
    | (with_reducible apply State.count_sound)
    | (with_reducible apply State.copyFrame_sound)
    | (with_reducible apply State.discard_sound)
    | (with_reducible apply State.forward_sound)
    | (with_reducible apply State.steer_sound)
    | split

theorem State.dfltCopy_sound {f0 : Frame} {malformed : Bool} (h : Sound q f s) :
    Sound q f (State.dfltCopy f0 malformed s) := by
  unfold State.dfltCopy
  repeat' first
    | (with_reducible assumption)
    | extract_lets
    | (with_reducible apply State.copyFrame_sound)
    | split

theorem State.dfltAction_sound {id : Nat} {f0 : Frame} {action : Nat} {malformed : Bool} (h : Sound q f s) :
    Sound q f (State.dfltAction id f0 action malformed s) := by
  unfold State.dfltAction
  repeat' first
    | (with_reducible assumption)
    | extract_lets
    | (with_reducible apply State.discard_sound)
    | (with_reducible apply State.forward_sound)
    | (with_reducible apply State.dfltCopy_sound)
    | split

theorem State.egress_sound {id : Nat} {f0 : Frame} {macBad : Option Nat} (h : Sound q f s) :
    Sound q f (State.egress id f0 macBad s) := by
  unfold State.egress
  repeat' first
    | (with_reducible assumption)
    | extract_lets
    | (with_reducible refine sound_ite (fun _ => ?_) (fun _ => ?_))
    | (with_reducible apply State.count_sound)
    | (with_reducible apply State.discard_sound)
    | (with_reducible apply State.forward_sound)
    | (with_reducible apply State.flood_sound)
    | (with_reducible apply State.fwdAction_sound)
    | (with_reducible apply State.verdictAction_sound)
    | (with_reducible apply State.dfltAction_sound)
    | split

theorem execEgressDecision_sound {t frame : Nat} {macBad : Option Nat} (h : Sound q f s) :
    SoundOut q f (execEgressDecision t frame macBad s) := by
  unfold execEgressDecision
  repeat' first
    | (with_reducible assumption)
    | extract_lets
    | (with_reducible refine State.happen_sound ?_ (fun _ _ => ?_))
    | (with_reducible apply State.egress_sound)
    | split

theorem State.abandon_sound {k : Nat} (h : Sound q f s) : Sound q f (State.abandon k s) := by
  unfold State.abandon
  repeat' first
    | (with_reducible assumption)
    | extract_lets
    | (with_reducible apply State.closeFetches_sound)
    | (with_reducible apply State.unparkAll_sound)
    | (with_reducible apply State.dropShares_sound)
    | (with_reducible apply updComp_sound)

theorem execEgHoldExpiry_sound {t frame : Nat} (h : Sound q f s) :
    SoundOut q f (execEgHoldExpiry t frame s) := by
  unfold execEgHoldExpiry
  repeat' first
    | (with_reducible assumption)
    | extract_lets
    | (with_reducible refine State.happen_sound ?_ (fun _ _ => ?_))
    | (with_reducible apply State.freeSlot_sound)
    | (with_reducible apply State.modFrame_sound)
    | (with_reducible apply State.settle2_sound)
    | (with_reducible apply State.egress_sound)
    | (with_reducible apply State.abandon_sound)
    | split
    | (dsimp +zetaDelta only)

theorem State.dropHead_sound {ifc q0 id : Nat} (h : Sound q f s) :
    Sound q f (State.dropHead ifc q0 id s) := by
  unfold State.dropHead
  repeat' first
    | (with_reducible assumption)
    | extract_lets
    | (with_reducible apply State.dropFrame_sound)
    | (with_reducible apply State.modQueue_sound)

theorem State.trimHead_sound {ifc q0 x2 : Nat} (h : Sound q f s) :
    Sound q f (State.trimHead ifc q0 x2 s) := by
  induction x2 generalizing s with
  | zero =>
    rw [State.trimHead]
    repeat' first
      | (with_reducible assumption)
  | succ n ih =>
    rw [State.trimHead]
    repeat' first
      | (with_reducible assumption)
      | (with_reducible apply ih)
      | extract_lets
      | (with_reducible refine sound_ite (fun _ => ?_) (fun _ => ?_))
      | (with_reducible apply State.count_sound)
      | (with_reducible apply State.dropHead_sound)
      | split

theorem State.trimGate_sound {ifc q0 x2 : Nat} (h : Sound q f s) :
    Sound q f (State.trimGate ifc q0 x2 s) := by
  induction x2 generalizing s with
  | zero => rw [State.trimGate]; exact h
  | succ n ih =>
    rw [State.trimGate]
    split
    · split
      · exact ih (State.trimHead_sound (State.count_sound (State.dropHead_sound h)))
      · exact h
    · exact h

theorem State.secure_sound {mode ifc : Nat} {eapol : Bool} (h : Sound q f s) :
    ∀ s' b, State.secure mode ifc eapol s = some (s', b) → Sound q f s' := by
  unfold State.secure
  repeat' first
    | (with_reducible assumption)
    | extract_lets
    | (with_reducible refine sound_ite (fun _ => ?_) (fun _ => ?_))
    | (with_reducible apply State.event_sound)
    | (with_reducible apply State.modIfc_sound)
    | split
    | (dsimp +zetaDelta only)
    | (intro _ _ e; simp only [Option.some.injEq, Prod.mk.injEq, reduceCtorEq] at e; done)
    | (intro _ _ e; simp only [Option.some.injEq, Prod.mk.injEq] at e; obtain ⟨rfl, -⟩ := e)

theorem State.sentFrom_sound {ifc q0 : Nat} {len wait : Nat} (h : Sound q f s) :
    Sound q f (State.sentFrom ifc q0 len wait s) := by
  unfold State.sentFrom
  repeat' first
    | (with_reducible assumption)
    | extract_lets
    | (with_reducible apply State.modQueue_sound)

theorem State.sendData_sound {ifc q0 id : Nat} {f0 : Frame} (h : Sound q f s) :
    Sound q f (State.sendData ifc q0 id f0 s) := by
  unfold State.sendData
  repeat' first
    | (with_reducible assumption)
    | extract_lets
    | (with_reducible refine sound_ite (fun _ => ?_) (fun _ => ?_))
    | (with_reducible apply State.out_sound)
    | (with_reducible apply State.count_sound)
    | (with_reducible apply State.freeFrame_sound)
    | (with_reducible apply State.modQueue_sound)
    | (with_reducible apply State.trimHead_sound)
    | (with_reducible refine State.secure_sound ?_ _ _ (by assumption))
    | (with_reducible apply State.sentFrom_sound)
    | split
    | (dsimp +zetaDelta only)
    | (with_reducible apply sound_mk)

theorem State.sendOwn_sound {b : Option (Nat × Sa)} {x : Sent} (h : Sound q f s) :
    Sound q f (State.sendOwn b x s) := by
  unfold State.sendOwn
  repeat' first
    | (with_reducible assumption)
    | extract_lets
    | (with_reducible apply State.out_sound)
    | (with_reducible apply updWall_sound)
    | split

theorem State.sendCtl_sound {ifc : Nat} (h : Sound q f s) : Sound q f (State.sendCtl ifc s) := by
  unfold State.sendCtl
  repeat' first
    | (with_reducible assumption)
    | extract_lets
    | (with_reducible apply State.count_sound)
    | (with_reducible apply State.modQueue_sound)
    | (with_reducible refine State.secure_sound ?_ _ _ (by assumption))
    | (with_reducible apply State.sentFrom_sound)
    | (with_reducible apply State.sendOwn_sound)
    | split

theorem State.drr_sound {ifc strict x2 : Nat} (h : Sound q f s) :
    Sound q f (State.drr ifc strict x2 s).2 := by
  induction x2 generalizing s with
  | zero =>
    rw [State.drr]
    repeat' first
      | (with_reducible assumption)
  | succ n ih =>
    rw [State.drr]
    repeat' first
      | (with_reducible assumption)
      | (with_reducible apply ih)
      | extract_lets
      | (with_reducible refine sound_ite (fun _ => ?_) (fun _ => ?_))
      | (with_reducible apply State.modQueue_sound)
      | (with_reducible apply updEg_sound)
      | split

theorem State.pickData_sound {ifc : Nat} (h : Sound q f s) : Sound q f (State.pickData ifc s).2 := by
  unfold State.pickData
  repeat' first
    | (with_reducible assumption)
    | extract_lets
    | (with_reducible apply State.drr_sound)
    | split

theorem execTransmitSelect_sound {t ifc : Nat} (h : Sound q f s) :
    SoundOut q f (execTransmitSelect t ifc s) := by
  unfold execTransmitSelect
  repeat' first
    | (with_reducible assumption)
    | extract_lets
    | (with_reducible refine sound_ite (fun _ => ?_) (fun _ => ?_))
    | (with_reducible refine sound_foldl ?_ (fun _ _ _ => ?_))
    | (with_reducible refine sound_foldl_fst ?_ (fun _ _ _ => ?_))
    | (with_reducible refine State.happen_sound ?_ (fun _ _ => ?_))
    | (with_reducible apply State.trimGate_sound)
    | (with_reducible apply State.sendData_sound)
    | (with_reducible apply State.sendCtl_sound)
    | (with_reducible apply State.pickData_sound)
    | split

theorem execGateEntryAdvance_sound {t ifc : Nat} (h : Sound q f s) :
    SoundOut q f (execGateEntryAdvance t ifc s) := by
  unfold execGateEntryAdvance
  repeat' first
    | (with_reducible assumption)
    | extract_lets
    | (with_reducible refine sound_ite (fun _ => ?_) (fun _ => ?_))
    | (with_reducible refine State.happen_sound ?_ (fun _ _ => ?_))
    | (with_reducible apply State.start_sound)
    | (with_reducible apply updEg_sound)

theorem execGateListStart_sound {t ifc : Nat} (h : Sound q f s) :
    SoundOut q f (execGateListStart t ifc s) := by
  unfold execGateListStart
  repeat' first
    | (with_reducible assumption)
    | extract_lets
    | (with_reducible refine State.happen_sound ?_ (fun _ _ => ?_))
    | (with_reducible apply updEg_sound)

theorem State.drained_sound {port : Nat} (h : Sound q f s) : Sound q f (State.drained port s) := by
  unfold State.drained
  repeat' first
    | (with_reducible assumption)
    | extract_lets
    | (with_reducible refine sound_foldl ?_ (fun _ _ _ => ?_))
    | (with_reducible apply State.modPort_sound)
    | (with_reducible apply State.portState_sound)
    | (with_reducible apply State.answer_sound)
    | split

theorem execDrainComplete_sound {t port : Nat} (h : Sound q f s) :
    SoundOut q f (execDrainComplete t port s) := by
  unfold execDrainComplete
  repeat' first
    | (with_reducible assumption)
    | extract_lets
    | (with_reducible refine State.happen_sound ?_ (fun _ _ => ?_))
    | (with_reducible apply State.drained_sound)

theorem State.clearQueue_sound {ifc q0 : Nat} (h : Sound q f s) :
    Sound q f (State.clearQueue ifc q0 s) := by
  unfold State.clearQueue
  repeat' first
    | (with_reducible assumption)
    | extract_lets
    | (with_reducible refine sound_foldl ?_ (fun _ _ _ => ?_))
    | (with_reducible apply State.count_sound)
    | (with_reducible apply State.dropHead_sound)

theorem execDrainTimeout_sound {t port : Nat} (h : Sound q f s) :
    SoundOut q f (execDrainTimeout t port s) := by
  unfold execDrainTimeout
  repeat' first
    | (with_reducible assumption)
    | extract_lets
    | (with_reducible refine sound_foldl ?_ (fun _ _ _ => ?_))
    | (with_reducible refine sound_foldl_fst ?_ (fun _ _ _ => ?_))
    | (with_reducible refine State.happen_sound ?_ (fun _ _ => ?_))
    | (with_reducible apply State.start_sound)
    | (with_reducible apply State.drained_sound)
    | (with_reducible apply State.clearQueue_sound)

theorem egressApply_sound {r : SetRec} (h : Sound q f s) : Sound q f (egressApply s r) := by
  unfold egressApply
  repeat' first
    | (with_reducible assumption)
    | extract_lets
    | (with_reducible apply updEg_sound)
    | (with_reducible apply State.modQueue_sound)
    | split

theorem execEgressConfig_sound {t : Nat} {h0 : CmdHdr} {recs : List SetRec} (h : Sound q f s) :
    SoundOut q f (execEgressConfig t h0 recs s) := by
  unfold execEgressConfig
  repeat' first
    | (with_reducible assumption)
    | extract_lets
    | (with_reducible refine State.isain_sound ?_ (fun _ _ => ?_))
    | (with_reducible refine settings_sound ?_ (fun _ _ _ => ?_) (fun _ _ => ?_))
    | (with_reducible apply egressApply_sound)
    | (with_reducible apply State.keep_sound)

theorem policerApply_sound {r : SetRec} (h : Sound q f s) : Sound q f (policerApply s r) := by
  unfold policerApply
  repeat' first
    | (with_reducible assumption)
    | (with_reducible apply updEg_sound)

theorem execPolicerConfig_sound {t : Nat} {h0 : CmdHdr} {recs : List SetRec} (h : Sound q f s) :
    SoundOut q f (execPolicerConfig t h0 recs s) := by
  unfold execPolicerConfig
  repeat' first
    | (with_reducible assumption)
    | extract_lets
    | (with_reducible refine State.isain_sound ?_ (fun _ _ => ?_))
    | (with_reducible refine settings_sound ?_ (fun _ _ _ => ?_) (fun _ _ => ?_))
    | (with_reducible apply policerApply_sound)
    | (with_reducible apply State.keep_sound)

theorem State.removeGates_sound {ifc : Nat} (h : Sound q f s) :
    ReplySound q f (State.removeGates ifc s) := by
  unfold State.removeGates
  repeat' first
    | (with_reducible assumption)
    | extract_lets
    | (with_reducible refine sound_ite (fun _ => ?_) (fun _ => ?_))
    | (with_reducible apply reply_done)
    | (with_reducible apply State.keep_sound)
    | (with_reducible apply State.start_sound)
    | (with_reducible apply updEg_sound)

theorem execGateListSet_sound {t : Nat} {h0 : CmdHdr} {ifc base cycle : Nat} {entries : List (Byte × Nat)}
    (h : Sound q f s) :
    SoundOut q f (execGateListSet t h0 ifc base cycle entries s) := by
  unfold execGateListSet
  repeat' first
    | (with_reducible assumption)
    | extract_lets
    | (with_reducible refine sound_ite (fun _ => ?_) (fun _ => ?_))
    | (with_reducible refine State.isain_sound ?_ (fun _ _ => ?_))
    | (with_reducible apply checksAt_sound)
    | (with_reducible apply reply_done)
    | (with_reducible exact reply_no)
    | (with_reducible apply State.removeGates_sound)
    | (with_reducible apply updEg_sound)
    | (with_reducible apply State.gatePend_sound)
    | (with_reducible apply State.keep_sound)
    | split

theorem execGateListRemove_sound {t : Nat} {h0 : CmdHdr} {ifc : Nat} (h : Sound q f s) :
    SoundOut q f (execGateListRemove t h0 ifc s) := by
  unfold execGateListRemove
  repeat' first
    | (with_reducible assumption)
    | extract_lets
    | (with_reducible refine State.isain_sound ?_ (fun _ _ => ?_))
    | (with_reducible exact reply_no)
    | (with_reducible apply State.removeGates_sound)
    | split

theorem execQueueStats_sound {t : Nat} {h0 : CmdHdr} {ifc : Nat} (h : Sound q f s) :
    SoundOut q f (execQueueStats t h0 ifc s) := by
  unfold execQueueStats
  repeat' first
    | (with_reducible assumption)
    | extract_lets
    | (with_reducible refine State.isain_sound ?_ (fun _ _ => ?_))
    | (with_reducible apply reply_done)
    | (with_reducible exact reply_no)
    | split

theorem execQueueStatsClear_sound {t : Nat} {h0 : CmdHdr} {ifc : Nat} (h : Sound q f s) :
    SoundOut q f (execQueueStatsClear t h0 ifc s) := by
  unfold execQueueStatsClear
  repeat' first
    | (with_reducible assumption)
    | extract_lets
    | (with_reducible refine sound_foldl ?_ (fun _ _ _ => ?_))
    | (with_reducible refine State.isain_sound ?_ (fun _ _ => ?_))
    | (with_reducible apply reply_done)
    | (with_reducible exact reply_no)
    | (with_reducible apply State.modQueue_sound)
    | split

end Sys2Proof.Machine
end

