-- ==== Sys2Proof/Laws/SoundKernelOps.lean ====
section
/-! SUPPORT. The definitions of Machine/KernelOps.lean keep a sound state: the queue, the fuses, memory in its
canonical form, the counters' bound and Rosemary's numbering. -/

namespace Sys2Proof.Machine

variable {q : List Instr} {f : Fuses} {s : State}

theorem State.noteRun_sound {h0 : CmdHdr} {status : Nat} (h : Sound q f s) :
    Sound q f (State.noteRun h0 status s) := by
  unfold State.noteRun
  repeat' first
    | (with_reducible assumption)
    | extract_lets
    | (with_reducible refine sound_ite (fun _ => ?_) (fun _ => ?_))
    | (with_reducible apply State.answer_sound)
    | (with_reducible apply updComp_sound)
    | split

theorem State.launchEnd_sound {core : Nat} {d : LaunchDesc} {token : Nat} {asker : Option CmdHdr} {status
    : Nat} (h : Sound q f s) :
    Sound q f (State.launchEnd core d token asker status s) := by
  unfold State.launchEnd
  repeat' first
    | (with_reducible assumption)
    | extract_lets
    | (with_reducible refine sound_ite (fun _ => ?_) (fun _ => ?_))
    | (with_reducible apply State.stepCoreEnd_sound)
    | (with_reducible apply State.encoderEnd_sound)
    | (with_reducible apply State.noteRun_sound)
    | split

theorem State.coreTrace_sound {core ctx : Nat} {unit kind : Nat} {status arg since : Nat} {d : LaunchDesc}
    (h : Sound q f s) :
    Sound q f (State.coreTrace core ctx unit kind status arg since d s) := by
  unfold State.coreTrace
  repeat' first
    | (with_reducible assumption)
    | (with_reducible apply State.trace_sound)

theorem State.spaceTouch_sound {x : Space} {a : Nat} (h : Sound q f s) :
    Sound q f (State.spaceTouch x a s) := by
  unfold State.spaceTouch
  repeat' first
    | (with_reducible assumption)
    | (with_reducible apply State.touch_sound)
    | split

theorem State.dmaMove_sound {owner : Nat} {sx dx : Space} {x3 : List (Nat × Nat)} {x4 : Bool} (h : Sound q
    f s) :
    Sound q f (State.dmaMove owner sx dx x3 x4 s).1 := by
  induction x3 generalizing s x4 with
  | nil =>
    rw [State.dmaMove]
    repeat' first
      | (with_reducible assumption)
  | cons x r ih =>
    rw [State.dmaMove]
    repeat' first
      | (with_reducible assumption)
      | (with_reducible apply ih)
      | extract_lets
      | (with_reducible refine sound_ite (fun _ => ?_) (fun _ => ?_))
      | (with_reducible apply State.spaceTouch_sound)
      | (with_reducible apply State.spacePut_sound)
      | (with_reducible apply State.spacePoison_sound)
      | split

theorem State.dmaRun_sound {core : Nat} {d : BitVec 256} (h : Sound q f s) :
    Sound q f (State.dmaRun core d s).1 := by
  unfold State.dmaRun
  repeat' first
    | (with_reducible assumption)
    | extract_lets
    | (with_reducible apply State.dmaMove_sound)
    | split

theorem State.putDone_sound {core addr : Nat} {tag status flags : Nat} (h : Sound q f s) :
    Sound q f (State.putDone core addr tag status flags s) := by
  unfold State.putDone
  repeat' first
    | (with_reducible assumption)
    | extract_lets
    | (with_reducible refine sound_ite (fun _ => ?_) (fun _ => ?_))
    | (with_reducible apply State.spacePut_sound)

theorem State.dmaFinish_sound {core ctx : Nat} {x : Ctx} {d : BitVec 256} {since : Nat} (h : Sound q f s)
    :
    Sound q f (State.dmaFinish core ctx x d since s) := by
  unfold State.dmaFinish
  repeat' first
    | (with_reducible assumption)
    | extract_lets
    | (with_reducible refine sound_ite (fun _ => ?_) (fun _ => ?_))
    | (with_reducible apply State.dmaRun_sound)
    | (with_reducible apply State.putDone_sound)
    | (with_reducible apply State.coreTrace_sound)

theorem State.dmaEnd_sound {core ctx i : Nat} (h : Sound q f s) :
    Sound q f (State.dmaEnd core ctx i s) := by
  unfold State.dmaEnd
  repeat' first
    | (with_reducible assumption)
    | extract_lets
    | (with_reducible apply State.modCtx_sound)
    | (with_reducible apply State.dmaFinish_sound)
    | split

theorem State.modMx_sound {core a : Nat} {f0 : MxArray → MxArray} (h : Sound q f s) :
    Sound q f (State.modMx core a f0 s) := by
  unfold State.modMx
  repeat' first
    | (with_reducible assumption)
    | extract_lets
    | (with_reducible apply State.modCore_sound)

theorem State.mxWord_sound {core : Nat} {x : MxJob} {status flags : Nat} (h : Sound q f s) :
    Sound q f (State.mxWord core x status flags s) := by
  unfold State.mxWord
  repeat' first
    | (with_reducible assumption)
    | extract_lets
    | (with_reducible refine sound_ite (fun _ => ?_) (fun _ => ?_))
    | (with_reducible apply State.putDone_sound)

theorem State.mxRecord_sound {core a : Nat} {x : MxJob} {status flags : Nat} (h : Sound q f s) :
    Sound q f (State.mxRecord core a x status flags s) := by
  unfold State.mxRecord
  repeat' first
    | (with_reducible assumption)
    | extract_lets
    | (with_reducible apply State.coreTrace_sound)

theorem State.mxTell_sound {core a : Nat} {x : MxJob} {status flags : Nat} (h : Sound q f s) :
    Sound q f (State.mxTell core a x status flags s) := by
  unfold State.mxTell
  repeat' first
    | (with_reducible assumption)
    | extract_lets
    | (with_reducible apply State.mxWord_sound)
    | (with_reducible apply State.mxRecord_sound)

theorem State.mxFlush_sound {core a : Nat} (h : Sound q f s) : Sound q f (State.mxFlush core a s) := by
  unfold State.mxFlush
  repeat' first
    | (with_reducible assumption)
    | extract_lets
    | (with_reducible refine sound_foldl ?_ (fun _ _ _ => ?_))
    | (with_reducible refine sound_foldl_fst ?_ (fun _ _ _ => ?_))
    | (with_reducible apply State.modMx_sound)
    | (with_reducible apply State.mxWord_sound)
    | split

theorem State.mxHeld_sound {core : Nat} (h : Sound q f s) : Sound q f (State.mxHeld core s) := by
  unfold State.mxHeld
  repeat' first
    | (with_reducible assumption)
    | extract_lets
    | (with_reducible apply State.fresh_sound)
    | (with_reducible apply State.countN_sound)

theorem State.abortJobs_sound {core ctx a : Nat} (h : Sound q f s) :
    Sound q f (State.abortJobs core ctx a s) := by
  unfold State.abortJobs
  repeat' first
    | (with_reducible assumption)
    | extract_lets
    | (with_reducible refine sound_ite (fun _ => ?_) (fun _ => ?_))
    | (with_reducible refine sound_foldl ?_ (fun _ _ _ => ?_))
    | (with_reducible refine sound_foldl_fst ?_ (fun _ _ _ => ?_))
    | (with_reducible apply State.modMx_sound)
    | (with_reducible apply State.mxRecord_sound)
    | (with_reducible apply State.mxFlush_sound)
    | (with_reducible apply State.mxHeld_sound)

theorem State.drainDma_sound {core ctx status : Nat} (h : Sound q f s) :
    Sound q f (State.drainDma core ctx status s) := by
  unfold State.drainDma
  repeat' first
    | (with_reducible assumption)
    | extract_lets
    | (with_reducible refine sound_ite (fun _ => ?_) (fun _ => ?_))
    | (with_reducible refine sound_foldl ?_ (fun _ _ _ => ?_))
    | (with_reducible apply State.dmaEnd_sound)
    | (with_reducible apply State.modCtx_sound)
    | split

theorem State.stopWalks_sound {core ctx : Nat} (h : Sound q f s) :
    Sound q f (State.stopWalks core ctx s) := by
  unfold State.stopWalks
  repeat' first
    | (with_reducible assumption)
    | extract_lets
    | (with_reducible refine sound_foldl ?_ (fun _ _ _ => ?_))
    | (with_reducible refine sound_foldl_fst ?_ (fun _ _ _ => ?_))
    | (with_reducible apply State.dropShare_sound)
    | (with_reducible apply State.stopShare_sound)
    | split

theorem State.voidMaybe_sound {c i : Nat} (h : Sound q f s) : Sound q f (State.voidMaybe c i s) := by
  unfold State.voidMaybe
  repeat' first
    | (with_reducible assumption)
    | extract_lets
    | (with_reducible refine sound_ite (fun _ => ?_) (fun _ => ?_))
    | (with_reducible apply State.fresh_sound)
    | (with_reducible apply State.contribute_sound)

theorem State.voidOwed_sound {core : Nat} (h : Sound q f s) : Sound q f (State.voidOwed core s) := by
  unfold State.voidOwed
  repeat' first
    | (with_reducible assumption)
    | extract_lets
    | (with_reducible refine sound_foldl ?_ (fun _ _ _ => ?_))
    | (with_reducible refine sound_foldl_fst ?_ (fun _ _ _ => ?_))
    | (with_reducible apply State.voidMaybe_sound)

theorem State.cutShort_sound {core ctx : Nat} (h : Sound q f s) :
    Sound q f (State.cutShort core ctx s) := by
  unfold State.cutShort
  repeat' first
    | (with_reducible assumption)
    | extract_lets
    | (with_reducible apply State.stopWalks_sound)
    | (with_reducible apply State.voidOwed_sound)

theorem State.dropOpen_sound {core ctx : Nat} (h : Sound q f s) :
    Sound q f (State.dropOpen core ctx s) := by
  unfold State.dropOpen
  repeat' first
    | (with_reducible assumption)
    | extract_lets
    | (with_reducible apply State.modCluster_sound)

theorem State.leaveCore_sound {core ctx status : Nat} {x : Ctx} (h : Sound q f s) :
    Sound q f (State.leaveCore core ctx status x s) := by
  unfold State.leaveCore
  repeat' first
    | (with_reducible assumption)
    | extract_lets
    | (with_reducible apply State.modCore_sound)
    | (with_reducible apply State.start_sound)
    | (with_reducible apply State.coreTrace_sound)
    | (with_reducible apply State.abortJobs_sound)
    | (with_reducible apply State.drainDma_sound)
    | (with_reducible apply State.dropOpen_sound)

theorem State.endContext_sound {core ctx status : Nat} (h : Sound q f s) :
    Sound q f (State.endContext core ctx status s) := by
  unfold State.endContext
  repeat' first
    | (with_reducible assumption)
    | extract_lets
    | (with_reducible refine sound_ite (fun _ => ?_) (fun _ => ?_))
    | (with_reducible apply State.jobFault_sound)
    | (with_reducible apply State.launchEnd_sound)
    | (with_reducible apply State.cutShort_sound)
    | (with_reducible apply State.leaveCore_sound)
    | (with_reducible apply State.modCore_sound)
    | (with_reducible apply State.start_sound)
    | (with_reducible apply State.coreTrace_sound)
    | (with_reducible apply State.abortJobs_sound)
    | (with_reducible apply State.drainDma_sound)
    | split

theorem State.endLate_sound {core ctx : Nat} (h : Sound q f s) : Sound q f (State.endLate core ctx s) := by
  unfold State.endLate
  repeat' first
    | (with_reducible assumption)
    | extract_lets
    | (with_reducible apply State.launchEnd_sound)
    | (with_reducible apply State.leaveCore_sound)
    | split

end Sys2Proof.Machine
end

