-- ==== Sys2Proof/Laws/SoundKernels.lean ====
section
/-! SUPPORT. The definitions of Machine/Kernels.lean keep a sound state: the queue, the fuses, memory in its
canonical form, the counters' bound and Rosemary's numbering. -/

namespace Sys2Proof.Machine

variable {q : List Instr} {f : Fuses} {s : State}

theorem execKernelLoad_sound {t : Nat} {h0 : CmdHdr} {handle addr len : Nat} (h : Sound q f s) :
    SoundOut q f (execKernelLoad t h0 handle addr len s) := by
  unfold execKernelLoad
  repeat' first
    | (with_reducible assumption)
    | extract_lets
    | (with_reducible refine State.isain_sound ?_ (fun _ _ => ?_))
    | (with_reducible apply checks_sound)
    | (with_reducible apply reply_ok)
    | (with_reducible apply updComp_sound)

theorem execKernelUnload_sound {t : Nat} {h0 : CmdHdr} {handle : Nat} (h : Sound q f s) :
    SoundOut q f (execKernelUnload t h0 handle s) := by
  unfold execKernelUnload
  repeat' first
    | (with_reducible assumption)
    | extract_lets
    | (with_reducible refine State.isain_sound ?_ (fun _ _ => ?_))
    | (with_reducible apply checks_sound)
    | (with_reducible apply reply_ok)
    | (with_reducible apply updComp_sound)

theorem State.placeLaunch_sound {h0 : CmdHdr} {d : LaunchDesc} (h : Sound q f s) :
    Sound q f (State.placeLaunch h0 d s) := by
  unfold State.placeLaunch
  repeat' first
    | (with_reducible assumption)
    | extract_lets
    | (with_reducible refine sound_foldl ?_ (fun _ _ _ => ?_))
    | (with_reducible refine sound_foldl_fst ?_ (fun _ _ _ => ?_))
    | (with_reducible apply State.pushLaunch_sound)
    | (with_reducible apply updComp_sound)

theorem execKernelLaunch_sound {t : Nat} {h0 : CmdHdr} {d : LaunchDesc} (h : Sound q f s) :
    SoundOut q f (execKernelLaunch t h0 d s) := by
  unfold execKernelLaunch
  repeat' first
    | (with_reducible assumption)
    | extract_lets
    | (with_reducible refine sound_ite (fun _ => ?_) (fun _ => ?_))
    | (with_reducible refine State.isain_sound ?_ (fun _ _ => ?_))
    | (with_reducible apply checks_sound)
    | (with_reducible apply reply_wait)
    | (with_reducible apply State.placeLaunch_sound)
    | (with_reducible apply updComp_sound)

theorem State.refuseHeld_sound {e : CmdHdr × LaunchDesc} {st : Status} (h : Sound q f s) :
    Sound q f (State.refuseHeld e st s) := by
  unfold State.refuseHeld
  repeat' first
    | (with_reducible assumption)
    | extract_lets
    | (with_reducible apply State.answer_sound)
    | (with_reducible apply updComp_sound)

theorem State.tryHeld_sound {e : CmdHdr × LaunchDesc} (h : Sound q f s) :
    Sound q f (State.tryHeld e s) := by
  unfold State.tryHeld
  repeat' first
    | (with_reducible assumption)
    | extract_lets
    | (with_reducible refine sound_ite (fun _ => ?_) (fun _ => ?_))
    | (with_reducible apply State.placeLaunch_sound)
    | (with_reducible apply State.refuseHeld_sound)
    | (with_reducible apply updComp_sound)
    | split

theorem State.copyArgs_sound {core : Nat} {d : LaunchDesc} (h : Sound q f s) :
    Sound q f (State.copyArgs core d s) := by
  unfold State.copyArgs
  repeat' first
    | (with_reducible assumption)
    | extract_lets
    | (with_reducible refine sound_ite (fun _ => ?_) (fun _ => ?_))
    | (with_reducible refine sound_foldl ?_ (fun _ _ _ => ?_))
    | (with_reducible apply State.touch_sound)
    | (with_reducible apply State.strike_sound)
    | (with_reducible apply State.spacePut_sound)
    | (with_reducible apply State.spacePoison_sound)

theorem State.startLaunch_sound {core k : Nat} {l : Launch} {img : Option (Nat × Nat)} (h : Sound q f s) :
    Sound q f (State.startLaunch core k l img s) := by
  unfold State.startLaunch
  repeat' first
    | (with_reducible assumption)
    | extract_lets
    | (with_reducible refine sound_ite (fun _ => ?_) (fun _ => ?_))
    | (with_reducible apply State.modCore_sound)
    | (with_reducible apply State.start_sound)
    | (with_reducible apply State.coreTrace_sound)
    | (with_reducible apply State.endContext_sound)
    | (with_reducible apply State.copyArgs_sound)

theorem State.dropLaunch_sound {core : Nat} (h : Sound q f s) : Sound q f (State.dropLaunch core s) := by
  unfold State.dropLaunch
  repeat' first
    | (with_reducible assumption)
    | (with_reducible apply State.modCore_sound)

theorem State.abortLaunch_sound {core : Nat} {l : Launch} (h : Sound q f s) :
    Sound q f (State.abortLaunch core l s) := by
  unfold State.abortLaunch
  repeat' first
    | (with_reducible assumption)
    | extract_lets
    | (with_reducible apply State.launchEnd_sound)
    | (with_reducible apply State.voidOwed_sound)

theorem State.tryLaunch_sound {core : Nat} {l : Launch} (h : Sound q f s) :
    Sound q f (State.tryLaunch core l s) := by
  unfold State.tryLaunch
  repeat' first
    | (with_reducible assumption)
    | extract_lets
    | (with_reducible refine sound_ite (fun _ => ?_) (fun _ => ?_))
    | (with_reducible apply State.tally_sound)
    | (with_reducible apply State.modCore_sound)
    | (with_reducible apply State.startLaunch_sound)
    | (with_reducible apply State.dropLaunch_sound)
    | (with_reducible apply State.abortLaunch_sound)
    | (with_reducible apply State.launchEnd_sound)
    | split

theorem execKernelStart_sound {t core : Nat} (h : Sound q f s) :
    SoundOut q f (execKernelStart t core s) := by
  unfold execKernelStart
  repeat' first
    | (with_reducible assumption)
    | extract_lets
    | (with_reducible refine State.happen_sound ?_ (fun _ _ => ?_))
    | (with_reducible apply State.settle2_sound)
    | (with_reducible apply State.tryLaunch_sound)
    | split

theorem State.launchFault_sound {core : Nat} {l : Launch} {status : Nat} (h : Sound q f s) :
    Sound q f (State.launchFault core l status s) := by
  unfold State.launchFault
  repeat' first
    | (with_reducible assumption)
    | extract_lets
    | (with_reducible apply State.jobFault_sound)
    | (with_reducible apply State.launchEnd_sound)
    | (with_reducible apply State.voidOwed_sound)
    | (with_reducible apply State.dropLaunch_sound)

theorem State.imageLoaded_sound {core : Nat} {img : Nat × Nat} {l : Launch} {check : WordCheck} (h : Sound q f s) :
    Sound q f (State.imageLoaded core img l check s) := by
  unfold State.imageLoaded
  repeat' first
    | (with_reducible assumption)
    | extract_lets
    | (with_reducible refine sound_ite (fun _ => ?_) (fun _ => ?_))
    | (with_reducible apply State.touch_sound)
    | (with_reducible apply State.strike_sound)
    | (with_reducible apply State.modCore_sound)
    | (with_reducible apply State.launchFault_sound)

theorem execKernelImageLoadDone_sound {t core kernel : Nat} {check : WordCheck} (h : Sound q f s) :
    SoundOut q f (execKernelImageLoadDone t core kernel check s) := by
  unfold execKernelImageLoadDone
  repeat' first
    | (with_reducible assumption)
    | extract_lets
    | (with_reducible refine sound_ite (fun _ => ?_) (fun _ => ?_))
    | (with_reducible refine State.happen_sound ?_ (fun _ _ => ?_))
    | (with_reducible apply State.imageLoaded_sound)
    | split

theorem execKernelEnd_sound {t core ctx status : Nat} (h : Sound q f s) :
    SoundOut q f (execKernelEnd t core ctx status s) := by
  unfold execKernelEnd
  repeat' first
    | (with_reducible assumption)
    | extract_lets
    | (with_reducible refine State.happen_sound ?_ (fun _ _ => ?_))
    | (with_reducible apply State.settle2_sound)
    | (with_reducible apply State.endContext_sound)

theorem State.stopEncoders_sound {k gen : Nat} (h : Sound q f s) :
    Sound q f (State.stopEncoders k gen s) := by
  unfold State.stopEncoders
  repeat' first
    | (with_reducible assumption)
    | extract_lets
    | (with_reducible refine sound_foldl ?_ (fun _ _ _ => ?_))
    | (with_reducible refine sound_foldl_fst ?_ (fun _ _ _ => ?_))
    | (with_reducible apply State.encoderEnd_sound)
    | (with_reducible apply State.endLate_sound)
    | (with_reducible apply updComp_sound)

theorem execDeadlineCutoff_sound {t slot : Nat} (h : Sound q f s) :
    SoundOut q f (execDeadlineCutoff t slot s) := by
  unfold execDeadlineCutoff
  repeat' first
    | (with_reducible assumption)
    | extract_lets
    | (with_reducible refine State.happen_sound ?_ (fun _ _ => ?_))
    | (with_reducible apply State.settle2_sound)
    | (with_reducible apply State.closeSlotGroups_sound)
    | (with_reducible apply State.stopShares_sound)
    | (with_reducible apply State.stopEncoders_sound)

theorem execKernelMaxRunExpiry_sound {t core ctx : Nat} (h : Sound q f s) :
    SoundOut q f (execKernelMaxRunExpiry t core ctx s) := by
  unfold execKernelMaxRunExpiry
  repeat' first
    | (with_reducible assumption)
    | extract_lets
    | (with_reducible refine State.happen_sound ?_ (fun _ _ => ?_))
    | (with_reducible apply State.settle2_sound)
    | (with_reducible apply State.endContext_sound)

theorem State.setReg_sound {core ctx dst v : Nat} (h : Sound q f s) :
    Sound q f (State.setReg core ctx dst v s) := by
  unfold State.setReg
  repeat' first
    | (with_reducible assumption)
    | extract_lets
    | (with_reducible apply State.modCtx_sound)

theorem State.pageRead_sound {core ctx off : Nat} (h : Sound q f s) :
    Sound q f (State.pageRead core ctx off s).2 := by
  unfold State.pageRead
  repeat' first
    | (with_reducible assumption)
    | extract_lets
    | (with_reducible apply State.fresh_sound)
    | (with_reducible apply State.modCore_sound)
    | split

theorem State.pageWrite_sound {core ctx off : Nat} (h : Sound q f s) :
    Sound q f (State.pageWrite core ctx off s) := by
  unfold State.pageWrite
  repeat' first
    | (with_reducible assumption)
    | extract_lets
    | (with_reducible refine sound_ite (fun _ => ?_) (fun _ => ?_))
    | (with_reducible apply State.modCtx_sound)

theorem State.doAccess_sound {core ctx : Nat} {p : CtxPlace} {x : KAccess} (h : Sound q f s) :
    Sound q f (State.doAccess core ctx p x s) := by
  unfold State.doAccess
  repeat' first
    | (with_reducible assumption)
    | extract_lets
    | (with_reducible apply State.spacePut_sound)
    | (with_reducible apply State.spaceTouch_sound)
    | (with_reducible apply State.setReg_sound)
    | (with_reducible apply State.pageRead_sound)
    | (with_reducible apply State.pageWrite_sound)
    | split

theorem State.runAccesses_sound {core ctx : Nat} {x0 : List KAccess} (h : Sound q f s) :
    Sound q f (State.runAccesses core ctx x0 s) := by
  induction x0 generalizing s with
  | nil => rw [State.runAccesses]; exact h
  | cons x r ih =>
    rw [State.runAccesses]
    split
    · exact State.endContext_sound h
    · exact ih (State.doAccess_sound h)
    · exact h

theorem State.storeAtomic_sound {core ctx dst c a n : Nat} {op : AtomicOp} {arg : Nat} (h : Sound q f s) :
    Sound q f (State.storeAtomic core ctx dst c a n op arg s) := by
  unfold State.storeAtomic
  repeat' first
    | (with_reducible assumption)
    | extract_lets
    | (with_reducible apply State.spacePut_sound)
    | (with_reducible apply State.setReg_sound)

theorem execClusterStoreAtomic_sound {t core ctx dst addr : Nat} {wide : Bool} {op : AtomicOp} {arg : Nat}
    (h : Sound q f s) :
    SoundOut q f (execClusterStoreAtomic t core ctx dst addr wide op arg s) := by
  unfold execClusterStoreAtomic
  repeat' first
    | (with_reducible assumption)
    | extract_lets
    | (with_reducible refine sound_ite (fun _ => ?_) (fun _ => ?_))
    | (with_reducible refine State.happen_sound ?_ (fun _ _ => ?_))
    | (with_reducible apply State.settle2_sound)
    | (with_reducible apply State.endContext_sound)
    | (with_reducible apply State.storeAtomic_sound)
    | split

theorem execClusterFence_sound {t core ctx : Nat} {acc : List KAccess} (h : Sound q f s) :
    SoundOut q f (execClusterFence t core ctx acc s) := by
  unfold execClusterFence
  exact State.happen_sound h fun _ h => State.settle2_sound (State.runAccesses_sound h)

theorem execKernelMarkInsn_sound {t core ctx : Nat} {begin : Bool} {mark : Nat} (h : Sound q f s) :
    SoundOut q f (execKernelMarkInsn t core ctx begin mark s) := by
  unfold execKernelMarkInsn
  repeat' first
    | (with_reducible assumption)
    | extract_lets
    | (with_reducible refine sound_ite (fun _ => ?_) (fun _ => ?_))
    | (with_reducible refine State.happen_sound ?_ (fun _ _ => ?_))
    | (with_reducible apply State.count_sound)
    | (with_reducible apply State.coreTrace_sound)
    | split

theorem execDmaPost_sound {t core ctx addr : Nat} (h : Sound q f s) :
    SoundOut q f (execDmaPost t core ctx addr s) := by
  unfold execDmaPost
  repeat' first
    | (with_reducible assumption)
    | extract_lets
    | (with_reducible refine sound_ite (fun _ => ?_) (fun _ => ?_))
    | (with_reducible refine State.happen_sound ?_ (fun _ _ => ?_))
    | (with_reducible apply State.modCtx_sound)
    | (with_reducible apply State.settle2_sound)
    | (with_reducible apply State.endContext_sound)

theorem execDmaComplete_sound {t core ctx : Nat} (h : Sound q f s) :
    SoundOut q f (execDmaComplete t core ctx s) := by
  unfold execDmaComplete
  repeat' first
    | (with_reducible assumption)
    | extract_lets
    | (with_reducible refine sound_ite (fun _ => ?_) (fun _ => ?_))
    | (with_reducible refine State.happen_sound ?_ (fun _ _ => ?_))
    | (with_reducible apply State.dmaEnd_sound)
    | (with_reducible apply State.fresh_sound)
    | split

theorem execReduceGroupOpen_sound {t core ctx op len expected closeTick : Nat} {dest : Nat × Nat} (h :
    Sound q f s) :
    SoundOut q f (execReduceGroupOpen t core ctx op len expected closeTick dest s) := by
  unfold execReduceGroupOpen
  repeat' first
    | (with_reducible assumption)
    | extract_lets
    | (with_reducible refine sound_ite (fun _ => ?_) (fun _ => ?_))
    | (with_reducible refine State.happen_sound ?_ (fun _ _ => ?_))
    | (with_reducible apply State.modCluster_sound)
    | (with_reducible apply State.settle2_sound)
    | (with_reducible apply State.endContext_sound)
    | split

theorem execReduceContribution_sound {t cluster group : Nat} {data : Option (List W32)} (h : Sound q f s)
    :
    SoundOut q f (execReduceContribution t cluster group data s) := by
  unfold execReduceContribution
  repeat' first
    | (with_reducible assumption)
    | extract_lets
    | (with_reducible refine State.happen_sound ?_ (fun _ _ => ?_))
    | (with_reducible apply State.settle2_sound)
    | (with_reducible apply State.contribute_sound)

theorem State.closeWaiting_sound {c i : Nat} (h : Sound q f s) : Sound q f (State.closeWaiting c i s) := by
  unfold State.closeWaiting
  repeat' first
    | (with_reducible assumption)
    | extract_lets
    | (with_reducible apply State.deliverGroup_sound)
    | (with_reducible apply State.modCluster_sound)
    | split

theorem execReduceCloseTick_sound {t cluster group : Nat} (h : Sound q f s) :
    SoundOut q f (execReduceCloseTick t cluster group s) := by
  unfold execReduceCloseTick
  repeat' first
    | (with_reducible assumption)
    | extract_lets
    | (with_reducible refine sound_ite (fun _ => ?_) (fun _ => ?_))
    | (with_reducible refine State.happen_sound ?_ (fun _ _ => ?_))
    | (with_reducible apply State.settle2_sound)
    | (with_reducible apply State.closeGroup_sound)
    | (with_reducible apply State.closeWaiting_sound)

end Sys2Proof.Machine
end

