-- ==== Sys2Proof/Laws/SoundVector.lean ====
section
/-! SUPPORT. The definitions of Machine/Vector.lean keep a sound state: the queue, the fuses, memory in its
canonical form, the counters' bound and Rosemary's numbering. -/

namespace Sys2Proof.Machine

variable {q : List Instr} {f : Fuses} {s : State}

theorem execVectorInstruction_sound {t core ctx : Nat} {fmt : VFmt} {op : VOp} {sat : Bool} {dst : Nat} {a
    b c : List W32} (h : Sound q f s) :
    SoundOut q f (execVectorInstruction t core ctx fmt op sat dst a b c s) := by
  unfold execVectorInstruction
  repeat' first
    | (with_reducible assumption)
    | extract_lets
    | (with_reducible refine State.happen_sound ?_ (fun _ _ => ?_))
    | (with_reducible apply State.modCtx_sound)

end Sys2Proof.Machine
end

