-- ==== Sys2Proof/Laws/SoundMatrix.lean ====
section
/-! SUPPORT. The definitions of Machine/Matrix.lean keep a sound state: the queue, the fuses, memory in its
canonical form, the counters' bound and Rosemary's numbering. -/

namespace Sys2Proof.Machine

variable {q : List Instr} {f : Fuses} {s : State}

theorem State.mxFail_sound {core a : Nat} {x : MxJob} {status flags : Nat} (h : Sound q f s) :
    Sound q f (State.mxFail core a x status flags s) := by
  unfold State.mxFail
  repeat' first
    | (with_reducible assumption)
    | extract_lets
    | (with_reducible apply State.modMx_sound)
    | (with_reducible apply State.mxRecord_sound)
    | (with_reducible apply State.abortJobs_sound)
    | (with_reducible apply State.endContext_sound)

theorem State.mxIssue_sound {core ctx a : Nat} {d : BitVec 512} (h : Sound q f s) :
    Sound q f (State.mxIssue core ctx a d s) := by
  unfold State.mxIssue
  repeat' first
    | (with_reducible assumption)
    | extract_lets
    | (with_reducible apply State.mxFail_sound)
    | (with_reducible apply State.modMx_sound)
    | split

theorem execMatrixJobIssue_sound {t core ctx array addr : Nat} (h : Sound q f s) :
    SoundOut q f (execMatrixJobIssue t core ctx array addr s) := by
  unfold execMatrixJobIssue
  repeat' first
    | (with_reducible assumption)
    | extract_lets
    | (with_reducible refine sound_ite (fun _ => ?_) (fun _ => ?_))
    | (with_reducible refine State.happen_sound ?_ (fun _ _ => ?_))
    | (with_reducible apply State.settle2_sound)
    | (with_reducible apply State.modMx_sound)
    | (with_reducible apply State.endContext_sound)
    | (with_reducible apply State.mxIssue_sound)

theorem State.mxDrain_sound {core : Nat} {d : BitVec 512} {acc : List W32} (h : Sound q f s) :
    Sound q f (State.mxDrain core d acc s).1 := by
  unfold State.mxDrain
  repeat' first
    | (with_reducible assumption)
    | extract_lets
    | (with_reducible refine sound_foldl ?_ (fun _ _ _ => ?_))
    | (with_reducible refine sound_foldl_fst ?_ (fun _ _ _ => ?_))
    | (with_reducible apply State.spacePut_sound)

theorem State.arrayFault_sound {core a : Nat} (h : Sound q f s) :
    Sound q f (State.arrayFault core a s) := by
  unfold State.arrayFault
  repeat' first
    | (with_reducible assumption)
    | extract_lets
    | (with_reducible apply State.spareFault_sound)
    | (with_reducible apply State.modCore_sound)

theorem State.mxDone_sound {core a : Nat} {j : MxJob} (h : Sound q f s) :
    Sound q f (State.mxDone core a j s) := by
  unfold State.mxDone
  repeat' first
    | (with_reducible assumption)
    | extract_lets
    | (with_reducible refine sound_ite (fun _ => ?_) (fun _ => ?_))
    | (with_reducible apply State.modMx_sound)
    | (with_reducible apply State.mxTell_sound)
    | (with_reducible apply State.mxFlush_sound)
    | (with_reducible apply State.mxDrain_sound)

theorem State.mxEcc_sound {core a : Nat} {j : MxJob} (h : Sound q f s) :
    Sound q f (State.mxEcc core a j s) := by
  unfold State.mxEcc
  repeat' first
    | (with_reducible assumption)
    | extract_lets
    | (with_reducible apply State.mxTell_sound)
    | (with_reducible apply State.endContext_sound)
    | (with_reducible apply State.modMx_sound)

theorem execMatrixJobEnd_sound {t core array : Nat} {accFault : Bool} (h : Sound q f s) :
    SoundOut q f (execMatrixJobEnd t core array accFault s) := by
  unfold execMatrixJobEnd
  repeat' first
    | (with_reducible assumption)
    | extract_lets
    | (with_reducible refine sound_ite (fun _ => ?_) (fun _ => ?_))
    | (with_reducible refine State.happen_sound ?_ (fun _ _ => ?_))
    | (with_reducible apply State.settle2_sound)
    | (with_reducible apply State.arrayFault_sound)
    | (with_reducible apply State.mxHeld_sound)
    | (with_reducible apply State.mxDone_sound)
    | (with_reducible apply State.mxEcc_sound)
    | split

end Sys2Proof.Machine
end

