-- ==== Sys2Proof/Laws/SoundMemRows.lean ====
section
/-! SUPPORT. The definitions of Machine/MemRows.lean keep a sound state: the queue, the fuses, memory in its
canonical form, the counters' bound and Rosemary's numbering. -/

namespace Sys2Proof.Machine

variable {q : List Instr} {f : Fuses} {s : State}

theorem execMemConfig_sound {t : Nat} {h0 : CmdHdr} {recs : List SetRec} (h : Sound q f s) :
    SoundOut q f (execMemConfig t h0 recs s) := by
  unfold execMemConfig
  repeat' first
    | (with_reducible assumption)
    | extract_lets
    | (with_reducible refine State.isain_sound ?_ (fun _ _ => ?_))
    | (with_reducible refine settings_sound ?_ (fun _ _ _ => ?_) (fun _ _ => ?_))
    | (with_reducible apply State.keep_sound)
    | (refine updMem_sound ?_ rfl)

theorem State.copyPage_sound {a : Nat} (h : Sound q f s) : Sound q f (State.copyPage a s) := by
  unfold State.copyPage
  repeat' first
    | (with_reducible assumption)
    | extract_lets
    | (with_reducible apply State.touch_sound)
    | (with_reducible apply State.strike_sound)
    | (refine updMem_sound ?_ rfl)

theorem State.retirePage_sound {a : Nat} (h : Sound q f s) : Sound q f (State.retirePage a s) := by
  unfold State.retirePage
  repeat' first
    | (with_reducible assumption)
    | extract_lets
    | (with_reducible apply State.count_sound)
    | (with_reducible apply State.modRegion_sound)
    | (with_reducible apply State.recordEvent_sound)
    | (with_reducible apply State.keep_sound)
    | (with_reducible apply State.copyPage_sound)
    | (refine updMem_sound ?_ rfl)

theorem execMemRetire_sound {t : Nat} {h0 : CmdHdr} {addr : Nat} (h : Sound q f s) :
    SoundOut q f (execMemRetire t h0 addr s) := by
  unfold execMemRetire
  repeat' first
    | (with_reducible assumption)
    | extract_lets
    | (with_reducible refine State.isain_sound ?_ (fun _ _ => ?_))
    | (with_reducible apply checks_sound)
    | (with_reducible apply reply_ok)
    | (with_reducible apply State.retirePage_sound)

theorem State.isainHurt_sound {line : Nat} (h : Sound q f s) : Sound q f (State.isainHurt line s) := by
  unfold State.isainHurt
  repeat' first
    | (with_reducible assumption)
    | extract_lets
    | (with_reducible refine sound_ite (fun _ => ?_) (fun _ => ?_))
    | (with_reducible apply State.orderReset_sound)
    | (refine updMem_sound ?_ rfl)
    | split
    | (dsimp +zetaDelta only)
    | (with_reducible apply sound_mk)

theorem execPatrolScrub_sound {t line : Nat} {check : WordCheck} (h : Sound q f s) :
    SoundOut q f (execPatrolScrub t line check s) := by
  unfold execPatrolScrub
  repeat' first
    | (with_reducible assumption)
    | extract_lets
    | (with_reducible refine State.happen_sound ?_ (fun _ _ => ?_))
    | (with_reducible apply State.touch_sound)
    | (with_reducible apply State.strike_sound)
    | (with_reducible apply State.modRegion_sound)
    | (with_reducible apply State.isainHurt_sound)

theorem State.poolEmpty_sound {g a : Nat} (h : Sound q f s) : Sound q f (State.poolEmpty g a s) := by
  unfold State.poolEmpty
  repeat' first
    | (with_reducible assumption)
    | extract_lets
    | (with_reducible refine sound_ite (fun _ => ?_) (fun _ => ?_))
    | (with_reducible apply State.modRegion_sound)
    | (with_reducible apply State.count_sound)
    | (with_reducible apply State.record_sound)
    | (with_reducible apply State.recordEvent_sound)

theorem execPageRetire_sound {t addr : Nat} (h : Sound q f s) : SoundOut q f (execPageRetire t addr s) := by
  unfold execPageRetire
  repeat' first
    | (with_reducible assumption)
    | extract_lets
    | (with_reducible refine sound_ite (fun _ => ?_) (fun _ => ?_))
    | (with_reducible refine State.happen_sound ?_ (fun _ _ => ?_))
    | (with_reducible apply State.modRegion_sound)
    | (with_reducible apply State.retirePage_sound)
    | (with_reducible apply State.poolEmpty_sound)

theorem execMr4Poll_sound {t region : Nat} {channel rate : Nat} (h : Sound q f s) :
    SoundOut q f (execMr4Poll t region channel rate s) := by
  unfold execMr4Poll
  repeat' first
    | (with_reducible assumption)
    | extract_lets
    | (with_reducible refine sound_ite (fun _ => ?_) (fun _ => ?_))
    | (with_reducible refine State.happen_sound ?_ (fun _ _ => ?_))
    | (with_reducible apply State.record_sound)
    | (with_reducible apply State.modRegion_sound)

theorem execOscillatorTrack_sound {t region channel : Nat} (h : Sound q f s) :
    SoundOut q f (execOscillatorTrack t region channel s) := by
  unfold execOscillatorTrack
  repeat' first
    | (with_reducible assumption)
    | extract_lets
    | (with_reducible refine State.happen_sound ?_ (fun _ _ => ?_))
    | (with_reducible apply State.modRegion_sound)

theorem State.pick_sound {m : Nat} (h : Sound q f s) : Sound q f (State.pick m s).2 := by
  unfold State.pick
  repeat' first
    | (with_reducible assumption)
    | (with_reducible apply State.fresh_sound)

theorem State.poisonRow_sound {x : Space} {rows row : Nat} (h : Sound q f s) :
    Sound q f (State.poisonRow x rows row s) := by
  unfold State.poisonRow
  repeat' first
    | (with_reducible assumption)
    | extract_lets
    | (with_reducible apply State.pick_sound)
    | (with_reducible apply State.spacePoison_sound)

theorem State.instrFault_sound {core : Nat} (h : Sound q f s) : Sound q f (State.instrFault core s) := by
  unfold State.instrFault
  repeat' first
    | (with_reducible assumption)
    | extract_lets
    | (with_reducible refine sound_foldl ?_ (fun _ _ _ => ?_))
    | (with_reducible apply State.pick_sound)
    | (with_reducible apply State.endContext_sound)
    | (with_reducible apply State.settle2_sound)
    | (with_reducible apply State.modCore_sound)
    | split

theorem State.reduceFault_sound {c : Nat} (h : Sound q f s) : Sound q f (State.reduceFault c s) := by
  unfold State.reduceFault
  repeat' first
    | (with_reducible assumption)
    | extract_lets
    | (with_reducible apply State.modCluster_sound)
    | (with_reducible apply State.deliverGroup_sound)
    | (with_reducible apply State.stageLost_sound)
    | (with_reducible apply State.settle2_sound)
    | (with_reducible apply State.pick_sound)
    | split
    | (dsimp +zetaDelta only)

theorem State.bufferFault_sound (h : Sound q f s) : Sound q f (State.bufferFault s) := by
  unfold State.bufferFault
  repeat' first
    | (with_reducible assumption)
    | extract_lets
    | (with_reducible apply State.pick_sound)
    | (with_reducible apply State.modFrame_sound)
    | split

theorem State.restartIsain_sound (h : Sound q f s) : Sound q f (State.restartIsain s) := by
  unfold State.restartIsain
  repeat' first
    | (with_reducible assumption)
    | extract_lets
    | (with_reducible refine sound_ite (fun _ => ?_) (fun _ => ?_))
    | (with_reducible apply State.orderReset_sound)
    | (with_reducible apply updBay_sound)

theorem State.sramHurt_sound {k : SramKind} {unit row : Nat} (h : Sound q f s) :
    Sound q f (State.sramHurt k unit row s) := by
  unfold State.sramHurt
  repeat' first
    | (with_reducible assumption)
    | extract_lets
    | (with_reducible refine sound_ite (fun _ => ?_) (fun _ => ?_))
    | (with_reducible apply State.poisonRow_sound)
    | (with_reducible apply State.instrFault_sound)
    | (with_reducible apply State.reduceFault_sound)
    | (with_reducible apply State.bufferFault_sound)
    | (with_reducible apply updParser_sound)
    | (with_reducible apply State.restartIsain_sound)
    | split
    | (with_reducible apply sound_mk)

theorem execSramScrub_sound {t : Nat} {kind : SramKind} {unit row : Nat} {check : WordCheck} (h : Sound q
    f s) :
    SoundOut q f (execSramScrub t kind unit row check s) := by
  unfold execSramScrub
  repeat' first
    | (with_reducible assumption)
    | extract_lets
    | (with_reducible refine sound_ite (fun _ => ?_) (fun _ => ?_))
    | (with_reducible refine State.happen_sound ?_ (fun _ _ => ?_))
    | (with_reducible apply State.ruleFault_sound)
    | (with_reducible apply State.sramChecked_sound)
    | (with_reducible apply State.sramHurt_sound)

theorem State.linkRecord_sound {l lane sub : Nat} (h : Sound q f s) :
    Sound q f (State.linkRecord l lane sub s) := by
  unfold State.linkRecord
  repeat' first
    | (with_reducible assumption)
    | (with_reducible apply State.record_sound)

theorem State.removeLane_sound {l lane : Nat} (h : Sound q f s) :
    Sound q f (State.removeLane l lane s) := by
  unfold State.removeLane
  repeat' first
    | (with_reducible assumption)
    | extract_lets
    | (with_reducible refine sound_ite (fun _ => ?_) (fun _ => ?_))
    | (with_reducible apply State.linkRecord_sound)
    | (with_reducible apply State.count_sound)
    | (with_reducible apply State.modLink_sound)
    | (with_reducible apply State.orderReset_sound)

theorem State.replay_sound {l lane : Nat} (h : Sound q f s) : Sound q f (State.replay l lane s) := by
  unfold State.replay
  repeat' first
    | (with_reducible assumption)
    | extract_lets
    | (with_reducible refine sound_ite (fun _ => ?_) (fun _ => ?_))
    | (with_reducible apply State.count_sound)
    | (with_reducible apply State.modLink_sound)
    | (with_reducible apply State.removeLane_sound)

theorem State.poisonedFlit_sound {f0 : Flit} (h : Sound q f s) : Sound q f (State.poisonedFlit f0 s) := by
  unfold State.poisonedFlit
  repeat' first
    | (with_reducible assumption)
    | extract_lets
    | (with_reducible apply State.fresh_sound)
    | (with_reducible apply State.count_sound)
    | (with_reducible apply State.spacePoison_sound)
    | split

theorem State.giveUp_sound {l lane : Nat} {f0 : Flit} (h : Sound q f s) :
    Sound q f (State.giveUp l lane f0 s) := by
  unfold State.giveUp
  repeat' first
    | (with_reducible assumption)
    | extract_lets
    | (with_reducible refine sound_ite (fun _ => ?_) (fun _ => ?_))
    | (with_reducible refine sound_foldl ?_ (fun _ _ _ => ?_))
    | (with_reducible refine sound_foldl_fst ?_ (fun _ _ _ => ?_))
    | (with_reducible apply State.count_sound)
    | (with_reducible apply State.modLink_sound)
    | (with_reducible apply State.spacePoison_sound)
    | (with_reducible apply State.orderReset_sound)
    | (with_reducible apply State.linkRecord_sound)

theorem execLinkFlitReceive_sound {t link lane : Nat} {check : WordCheck} {flit : Flit} {attempt : Nat} (h
    : Sound q f s) :
    SoundOut q f (execLinkFlitReceive t link lane check flit attempt s) := by
  unfold execLinkFlitReceive
  repeat' first
    | (with_reducible assumption)
    | extract_lets
    | (with_reducible refine sound_ite (fun _ => ?_) (fun _ => ?_))
    | (with_reducible refine State.happen_sound ?_ (fun _ _ => ?_))
    | (with_reducible apply State.count_sound)
    | (with_reducible apply State.modLink_sound)
    | (with_reducible apply State.replay_sound)
    | (with_reducible apply State.poisonedFlit_sound)
    | (with_reducible apply State.giveUp_sound)
    | split

end Sys2Proof.Machine
end

