-- ==== Sys2Proof/Laws/SoundFabricOps.lean ====
section
/-! SUPPORT. The definitions of Machine/FabricOps.lean keep a sound state: the queue, the fuses, memory in its
canonical form, the counters' bound and Rosemary's numbering. -/

namespace Sys2Proof.Machine

variable {q : List Instr} {f : Fuses} {s : State}

theorem State.modPeer_sound {a : Nat} {f0 : Peer → Peer} (h : Sound q f s) :
    Sound q f (State.modPeer a f0 s) := by
  unfold State.modPeer
  repeat' first
    | (with_reducible assumption)
    | (with_reducible apply updFab_sound)

theorem State.startWatch_sound {a : Nat} (h : Sound q f s) : Sound q f (State.startWatch a s) := by
  unfold State.startWatch
  repeat' first
    | (with_reducible assumption)
    | extract_lets
    | (with_reducible refine sound_ite (fun _ => ?_) (fun _ => ?_))
    | (with_reducible apply State.modPeer_sound)
    | (with_reducible apply State.tally_sound)

theorem State.noteWork_sound {a : Nat} (h : Sound q f s) : Sound q f (State.noteWork a s) := by
  unfold State.noteWork
  repeat' first
    | (with_reducible assumption)
    | extract_lets
    | (with_reducible apply State.modPeer_sound)
    | (with_reducible apply State.startWatch_sound)

theorem State.suspect_sound {a c : Nat} (h : Sound q f s) : Sound q f (State.suspect a c s) := by
  unfold State.suspect
  repeat' first
    | (with_reducible assumption)
    | extract_lets
    | (with_reducible apply State.count_sound)
    | (with_reducible apply State.modPeer_sound)

theorem State.putFab_sound {ip port dst channel ftype fseq nMsg : Nat} {fwatch : Bool} {words : List Nat}
    (h : Sound q f s) :
    Sound q f (State.putFab ip port dst channel ftype fseq nMsg fwatch words s) := by
  unfold State.putFab
  repeat' first
    | (with_reducible assumption)
    | extract_lets
    | (with_reducible apply State.emit_sound)
    | split

theorem State.fabSendMsgs_sound {fseq dst channel ftype nMsg : Nat} {words : List Nat} (h : Sound q f s) :
    Sound q f (State.fabSendMsgs fseq dst channel ftype nMsg words s) := by
  unfold State.fabSendMsgs
  repeat' first
    | (with_reducible assumption)
    | extract_lets
    | (with_reducible refine sound_ite (fun _ => ?_) (fun _ => ?_))
    | (with_reducible apply State.modPeer_sound)
    | (with_reducible apply State.putFab_sound)
    | split

theorem State.fabSendAs_sound {fseq dst channel ftype : Nat} {words : List Nat} (h : Sound q f s) :
    Sound q f (State.fabSendAs fseq dst channel ftype words s) := by
  unfold State.fabSendAs
  repeat' first
    | (with_reducible assumption)
    | extract_lets
    | (with_reducible apply State.fabSendMsgs_sound)

theorem State.fabSend_sound {dst channel ftype : Nat} {words : List Nat} (h : Sound q f s) :
    Sound q f (State.fabSend dst channel ftype words s) := by
  unfold State.fabSend
  repeat' first
    | (with_reducible assumption)
    | extract_lets
    | (with_reducible apply updFab_sound)
    | (with_reducible apply State.fabSendAs_sound)

theorem State.fabSendNext_sound {dst ftype : Nat} {words : List Nat} (h : Sound q f s) :
    Sound q f (State.fabSendNext dst ftype words s) := by
  unfold State.fabSendNext
  repeat' first
    | (with_reducible assumption)
    | extract_lets
    | (with_reducible apply State.fabSend_sound)
    | (with_reducible apply State.modPeer_sound)

theorem State.fabSendTo_sound {ip port ftype : Nat} {words : List Nat} (h : Sound q f s) :
    Sound q f (State.fabSendTo ip port ftype words s) := by
  unfold State.fabSendTo
  repeat' first
    | (with_reducible assumption)
    | extract_lets
    | (with_reducible refine sound_ite (fun _ => ?_) (fun _ => ?_))
    | (with_reducible apply State.modPeer_sound)
    | (with_reducible apply State.putFab_sound)
    | (with_reducible apply updFab_sound)
    | split

theorem State.fabSendReplies_sound {dst nMsg : Nat} {words : List Nat} (h : Sound q f s) :
    Sound q f (State.fabSendReplies dst nMsg words s) := by
  unfold State.fabSendReplies
  repeat' first
    | (with_reducible assumption)
    | extract_lets
    | (with_reducible apply State.modPeer_sound)
    | (with_reducible apply State.fabSendMsgs_sound)
    | (with_reducible apply updFab_sound)

theorem State.changeFab_sound {g : Fabric → Fabric} (h : Sound q f s) :
    Sound q f (State.changeFab g s) := by
  unfold State.changeFab
  repeat' first
    | (with_reducible assumption)
    | extract_lets
    | (with_reducible refine sound_foldl ?_ (fun _ _ _ => ?_))
    | (with_reducible refine sound_foldl_fst ?_ (fun _ _ _ => ?_))
    | (with_reducible apply State.startWatch_sound)
    | (with_reducible apply updFab_sound)

theorem State.publish_sound {c : ViewChange} (h : Sound q f s) : Sound q f (State.publish c s) := by
  unfold State.publish
  repeat' first
    | (with_reducible assumption)
    | extract_lets
    | (with_reducible refine sound_foldl ?_ (fun _ _ _ => ?_))
    | (with_reducible refine sound_foldl_fst ?_ (fun _ _ _ => ?_))
    | (with_reducible apply State.fabSendNext_sound)
    | (with_reducible apply State.changeFab_sound)

theorem State.reportLoss_sound {a : Nat} (h : Sound q f s) : Sound q f (State.reportLoss a s) := by
  unfold State.reportLoss
  repeat' first
    | (with_reducible assumption)
    | extract_lets
    | (with_reducible refine sound_ite (fun _ => ?_) (fun _ => ?_))
    | (with_reducible apply State.publish_sound)
    | (with_reducible apply State.fabSendNext_sound)

theorem State.endEntry_sound {ring : Nat} {idx : W32} (h : Sound q f s) :
    Sound q f (State.endEntry ring idx s) := by
  unfold State.endEntry
  repeat' first
    | (with_reducible assumption)
    | (with_reducible apply State.modRing_sound)

theorem State.putStatus_sound {status : Option Nat} (h : Sound q f s) :
    Sound q f (State.putStatus status s).2 := by
  unfold State.putStatus
  repeat' first
    | (with_reducible assumption)
    | (with_reducible apply State.fresh_sound)
    | split

theorem State.endPut_sound {fseq : Nat} {status : Option Nat} (h : Sound q f s) :
    Sound q f (State.endPut fseq status s) := by
  unfold State.endPut
  repeat' first
    | (with_reducible assumption)
    | extract_lets
    | (with_reducible refine sound_ite (fun _ => ?_) (fun _ => ?_))
    | (with_reducible apply State.endEntry_sound)
    | (with_reducible apply updFab_sound)
    | (with_reducible apply State.putStatus_sound)
    | (with_reducible apply State.count_sound)
    | (with_reducible apply State.event_sound)
    | split

end Sys2Proof.Machine
end

