-- ==== Sys2Proof/Laws/SoundFabricServe.lean ====
section
/-! SUPPORT. The definitions of Machine/FabricServe.lean keep a sound state: the queue, the fuses, memory in its
canonical form, the counters' bound and Rosemary's numbering. -/

namespace Sys2Proof.Machine

variable {q : List Instr} {f : Fuses} {s : State}

theorem State.sendLookups_sound {home channel : Nat} {tags : List Nat} (h : Sound q f s) :
    Sound q f (State.sendLookups home channel tags s) := by
  unfold State.sendLookups
  repeat' first
    | (with_reducible assumption)
    | extract_lets
    | (with_reducible refine sound_foldl ?_ (fun _ _ _ => ?_))
    | (with_reducible refine sound_foldl_fst ?_ (fun _ _ _ => ?_))
    | (with_reducible apply State.modFetch_sound)
    | (with_reducible apply State.noteWork_sound)
    | (with_reducible apply State.fabSend_sound)

theorem execLookupJoinHold_sound {t home : Nat} (h : Sound q f s) :
    SoundOut q f (execLookupJoinHold t home s) := by
  unfold execLookupJoinHold
  repeat' first
    | (with_reducible assumption)
    | extract_lets
    | (with_reducible refine sound_foldl ?_ (fun _ _ _ => ?_))
    | (with_reducible refine State.happen_sound ?_ (fun _ _ => ?_))
    | (with_reducible apply State.sendLookups_sound)

theorem execLookupRto_sound {t tag : Nat} (h : Sound q f s) : SoundOut q f (execLookupRto t tag s) := by
  unfold execLookupRto
  repeat' first
    | (with_reducible assumption)
    | extract_lets
    | (with_reducible refine sound_ite (fun _ => ?_) (fun _ => ?_))
    | (with_reducible refine State.happen_sound ?_ (fun _ _ => ?_))
    | (with_reducible apply State.suspect_sound)
    | (with_reducible apply State.modFetch_sound)
    | (with_reducible apply State.sendLookups_sound)
    | split

theorem State.replyOne_sound {home : Nat} {m : ReplyMsg} (h : Sound q f s) :
    Sound q f (State.replyOne home m s) := by
  unfold State.replyOne
  repeat' first
    | (with_reducible assumption)
    | extract_lets
    | (with_reducible refine sound_ite (fun _ => ?_) (fun _ => ?_))
    | (with_reducible apply State.count_sound)
    | (with_reducible apply State.tally_sound)
    | (with_reducible apply State.endFetch_sound)
    | (with_reducible apply State.failBare_sound)
    | (with_reducible apply State.failRemote_sound)
    | split

theorem State.hold_sound {w : Serve} (h : Sound q f s) : Sound q f (State.hold w s) := by
  unfold State.hold
  repeat' first
    | (with_reducible assumption)
    | (with_reducible apply updModels_sound)

theorem State.served_sound {w : Serve} {x : FTable} {m : LookupMsg} {l : Look} (h : Sound q f s) :
    Sound q f (State.served w x m l s).1 := by
  unfold State.served
  repeat' first
    | (with_reducible assumption)
    | extract_lets
    | (with_reducible refine sound_ite (fun _ => ?_) (fun _ => ?_))
    | (with_reducible apply State.count_sound)
    | (with_reducible apply State.looked_sound)
    | (with_reducible apply State.hold_sound)
    | split

theorem State.serveLookup_sound {src : Nat} {m : LookupMsg} (h : Sound q f s) :
    Sound q f (State.serveLookup src m s).1 := by
  unfold State.serveLookup
  repeat' first
    | (with_reducible assumption)
    | (with_reducible apply State.touchMap_sound)
    | extract_lets
    | (with_reducible apply State.count_sound)
    | (with_reducible apply State.touch_sound)
    | (with_reducible apply State.served_sound)
    | split

theorem State.sendReplies_sound {dst : Nat} {x1 : List ReplyMsg} {x2 : List Nat} {x3 : Nat}
    (h : Sound q f s) : Sound q f (State.sendReplies dst x1 x2 x3 s) := by
  induction x1 generalizing s x2 x3 with
  | nil =>
    rw [State.sendReplies]
    split
    · exact h
    · exact State.fabSendReplies_sound h
  | cons x r ih =>
    rw [State.sendReplies]
    split
    · exact ih (State.fabSendReplies_sound h)
    · exact ih h

theorem State.serveNext_sound {src : Nat} {p : State × List ReplyMsg} {m : LookupMsg} (h : Sound q f p.1)
    :
    Sound q f (State.serveNext src p m).1 := by
  unfold State.serveNext
  repeat' first
    | (with_reducible assumption)
    | extract_lets
    | (with_reducible apply State.serveLookup_sound)

theorem State.serveAll_sound {src : Nat} {msgs : List LookupMsg} (h : Sound q f s) :
    Sound q f (State.serveAll src msgs s) := by
  unfold State.serveAll
  repeat' first
    | (with_reducible assumption)
    | extract_lets
    | (with_reducible refine sound_foldl_fst ?_ (fun _ _ _ => ?_))
    | (with_reducible apply State.serveNext_sound)
    | (with_reducible apply State.sendReplies_sound)

theorem State.putLook_sound {w : Serve} {x : FTable} {m : PutMsg} {l : Look} (h : Sound q f s) :
    Sound q f (State.putLook w x m l s).1 := by
  unfold State.putLook
  repeat' first
    | (with_reducible assumption)
    | extract_lets
    | (with_reducible apply State.looked_sound)
    | (with_reducible apply State.poke_sound)
    | (with_reducible apply State.count_sound)
    | (with_reducible apply State.hold_sound)
    | split

theorem State.applyPut_sound {src fseq : Nat} {done : List Nat} {m : PutMsg} {rest : List PutMsg} (h :
    Sound q f s) :
    Sound q f (State.applyPut src fseq done m rest s).1 := by
  unfold State.applyPut
  repeat' first
    | (with_reducible assumption)
    | (with_reducible apply State.touchMap_sound)
    | extract_lets
    | (with_reducible apply State.count_sound)
    | (with_reducible apply State.touch_sound)
    | (with_reducible apply State.putLook_sound)
    | split

theorem State.ackPuts_sound {src fseq : Nat} {done : List Nat} (h : Sound q f s) :
    Sound q f (State.ackPuts src fseq done s) := by
  unfold State.ackPuts
  repeat' first
    | (with_reducible assumption)
    | extract_lets
    | (with_reducible refine sound_ite (fun _ => ?_) (fun _ => ?_))
    | (with_reducible apply State.modPeer_sound)
    | (with_reducible apply State.fabSendNext_sound)
    | (with_reducible apply State.endPut_sound)

theorem State.applyPuts_sound {src fseq : Nat} {x2 : List PutMsg} {x3 : List Nat} (h : Sound q f s) :
    Sound q f (State.applyPuts src fseq x2 x3 s) := by
  induction x2 generalizing s x3 with
  | nil =>
    rw [State.applyPuts]
    repeat' first
      | (with_reducible assumption)
      | extract_lets
      | (with_reducible apply State.ackPuts_sound)
  | cons x r ih =>
    rw [State.applyPuts]
    repeat' first
      | (with_reducible assumption)
      | (with_reducible apply ih)
      | extract_lets
      | (with_reducible apply State.ackPuts_sound)
      | (with_reducible apply State.applyPut_sound)
      | split

theorem State.repeatPut_sound {src fseq : Nat} (h : Sound q f s) :
    Sound q f (State.repeatPut src fseq s) := by
  unfold State.repeatPut
  repeat' first
    | (with_reducible assumption)
    | extract_lets
    | (with_reducible apply State.fabSendNext_sound)
    | split

theorem State.retryLookup_sound {w : Serve} {m : LookupMsg} (h : Sound q f s) :
    Sound q f (State.retryLookup w m s) := by
  unfold State.retryLookup
  repeat' first
    | (with_reducible assumption)
    | extract_lets
    | (with_reducible apply State.served_sound)
    | (with_reducible apply State.sendReplies_sound)
    | (with_reducible apply State.count_sound)
    | split

theorem State.retryPut_sound {w : Serve} {fseq : Nat} {done : List Nat} {left : List PutMsg} (h : Sound q
    f s) :
    Sound q f (State.retryPut w fseq done left s) := by
  unfold State.retryPut
  repeat' first
    | (with_reducible assumption)
    | extract_lets
    | (with_reducible refine sound_ite (fun _ => ?_) (fun _ => ?_))
    | (with_reducible apply State.putLook_sound)
    | (with_reducible apply State.applyPut_sound)
    | (with_reducible apply State.ackPuts_sound)
    | (with_reducible apply State.applyPuts_sound)
    | split
    | (dsimp +zetaDelta only)

theorem State.retryFetch_sound {tag : Nat} {f0 : Fetch} (h : Sound q f s) :
    Sound q f (State.retryFetch tag f0 s) := by
  unfold State.retryFetch
  repeat' first
    | (with_reducible assumption)
    | extract_lets
    | (with_reducible apply State.unparkAll_sound)
    | (with_reducible apply State.endFetch_sound)
    | (with_reducible apply State.fetchLook_sound)
    | (with_reducible apply State.looked_sound)
    | split

theorem State.startPut_sound {ring : Nat} {idx : W32} {p : PutEntry} {home : Nat} (h : Sound q f s) :
    Sound q f (State.startPut ring idx p home s) := by
  unfold State.startPut
  repeat' first
    | (with_reducible assumption)
    | extract_lets
    | (with_reducible refine sound_ite (fun _ => ?_) (fun _ => ?_))
    | (with_reducible apply updFab_sound)
    | (with_reducible show ∀ _, _ = some _ → _; with_reducible apply State.takeRate_sound)
    | (with_reducible apply State.applyPuts_sound)
    | (with_reducible apply State.fabSendAs_sound)
    | (with_reducible apply State.noteWork_sound)
    | (with_reducible apply State.endPut_sound)
    | (with_reducible apply sound_getD)

theorem State.takePut_sound {ring : Nat} (h : Sound q f s) : Sound q f (State.takePut ring s) := by
  unfold State.takePut
  repeat' first
    | (with_reducible assumption)
    | (with_reducible apply State.touchMap_sound)
    | extract_lets
    | (with_reducible refine sound_ite (fun _ => ?_) (fun _ => ?_))
    | (with_reducible apply State.modRing_sound)
    | (with_reducible apply State.endEntry_sound)
    | (with_reducible apply State.count_sound)
    | (with_reducible apply State.startPut_sound)
    | (with_reducible apply State.touch_sound)
    | split

theorem State.takePuts_sound {ring x1 : Nat} (h : Sound q f s) : Sound q f (State.takePuts ring x1 s) := by
  induction x1 generalizing s with
  | zero =>
    rw [State.takePuts]
    repeat' first
      | (with_reducible assumption)
  | succ n ih =>
    rw [State.takePuts]
    repeat' first
      | (with_reducible assumption)
      | (with_reducible apply ih)
      | extract_lets
      | (with_reducible refine sound_ite (fun _ => ?_) (fun _ => ?_))
      | (with_reducible apply State.drainStalled_sound)
      | (with_reducible apply State.takePut_sound)

theorem State.retryServe_sound {k : Nat} {w : Serve} (h : Sound q f s) :
    Sound q f (State.retryServe k w s) := by
  unfold State.retryServe
  repeat' first
    | (with_reducible assumption)
    | extract_lets
    | (with_reducible refine sound_ite (fun _ => ?_) (fun _ => ?_))
    | (with_reducible apply State.retryLookup_sound)
    | (with_reducible apply State.retryPut_sound)
    | (with_reducible apply State.takePuts_sound)
    | (with_reducible apply updModels_sound)
    | split

theorem execFeLockRetry_sound {t fetch : Nat} (h : Sound q f s) :
    SoundOut q f (execFeLockRetry t fetch s) := by
  unfold execFeLockRetry
  repeat' first
    | (with_reducible assumption)
    | extract_lets
    | (with_reducible refine State.happen_sound ?_ (fun _ _ => ?_))
    | (with_reducible apply State.retryServe_sound)
    | (with_reducible apply State.retryFetch_sound)
    | split

theorem execFabricPost_sound {t core ctx ring : Nat} {entry : List W64} (h : Sound q f s) :
    SoundOut q f (execFabricPost t core ctx ring entry s) := by
  unfold execFabricPost
  repeat' first
    | (with_reducible assumption)
    | extract_lets
    | (with_reducible refine State.happen_sound ?_ (fun _ _ => ?_))
    | (with_reducible apply State.useCtx_sound)
    | (with_reducible apply State.itemNow_sound)
    | (with_reducible apply State.modCtx_sound)
    | (with_reducible apply State.takePuts_sound)

end Sys2Proof.Machine
end

