-- ==== Sys2Proof/Laws/SoundFabricRows.lean ====
section
/-! SUPPORT. The definitions of Machine/FabricRows.lean keep a sound state: the queue, the fuses, memory in its
canonical form, the counters' bound and Rosemary's numbering. -/

namespace Sys2Proof.Machine

variable {q : List Instr} {f : Fuses} {s : State}

theorem State.failWork_sound {a : Nat} (h : Sound q f s) : Sound q f (State.failWork a s) := by
  unfold State.failWork
  repeat' first
    | (with_reducible assumption)
    | extract_lets
    | (with_reducible refine sound_foldl ?_ (fun _ _ _ => ?_))
    | (with_reducible apply State.failRemote_sound)
    | (with_reducible apply State.endPut_sound)
    | (with_reducible apply State.unparkAll_sound)
    | (with_reducible apply State.takePuts_sound)

theorem State.dropServed_sound {a : Nat} (h : Sound q f s) : Sound q f (State.dropServed a s) := by
  unfold State.dropServed
  repeat' first
    | (with_reducible assumption)
    | (with_reducible apply updModels_sound)

theorem State.losePeer_sound {a : Nat} (h : Sound q f s) : Sound q f (State.losePeer a s) := by
  unfold State.losePeer
  repeat' first
    | (with_reducible assumption)
    | extract_lets
    | (with_reducible apply State.modPeer_sound)
    | (with_reducible apply State.record_sound)
    | (with_reducible apply State.tally_sound)
    | (with_reducible apply State.reportLoss_sound)
    | (with_reducible apply State.failWork_sound)

theorem State.acceptFrom_sound {f0 : FabHdr} (h : Sound q f s) : Sound q f (State.acceptFrom f0 s) := by
  unfold State.acceptFrom
  repeat' first
    | (with_reducible assumption)
    | extract_lets
    | (with_reducible refine sound_ite (fun _ => ?_) (fun _ => ?_))
    | (with_reducible apply State.tally_sound)
    | (with_reducible apply State.modPeer_sound)

theorem State.newStart_sound {a : Nat} (h : Sound q f s) : Sound q f (State.newStart a s) := by
  unfold State.newStart
  repeat' first
    | (with_reducible assumption)
    | extract_lets
    | (with_reducible refine sound_ite (fun _ => ?_) (fun _ => ?_))
    | (with_reducible apply State.losePeer_sound)
    | (with_reducible apply State.modPeer_sound)
    | (with_reducible apply State.dropServed_sound)

theorem State.fabIn_sound {ftype : Nat} {f0 : FabHdr} (h : Sound q f s) :
    FabSound q f (State.fabIn ftype f0 s) := by
  unfold State.fabIn
  repeat' first
    | (with_reducible assumption)
    | extract_lets
    | (with_reducible refine sound_ite (fun _ => ?_) (fun _ => ?_))
    | (with_reducible apply fab_drop)
    | (with_reducible apply fab_fresh)
    | (with_reducible apply fab_again)
    | (with_reducible apply State.tally_sound)
    | (with_reducible apply State.newStart_sound)
    | (with_reducible apply State.acceptFrom_sound)
    | split

theorem State.fabReceive_redo {t ftype : Nat} {f0 : FabHdr} {act g : State → State} (h : Sound q f s)
    (ha : ∀ s, Sound q f s → Sound q f (act s)) (hg : ∀ s, Sound q f s → Sound q f (g s)) :
    SoundOut q f (s.fabReceive t ftype f0 act (some g)) := by
  refine State.happen_sound h fun s h => ?_
  have hf := State.fabIn_sound (ftype := ftype) (f0 := f0) h
  split
  · rename_i heq; rw [heq] at hf; exact hf
  · rename_i heq; rw [heq] at hf; exact ha _ hf
  · rename_i heq; rw [heq] at hf; exact hg _ hf

theorem State.fabReceive_sound {t ftype : Nat} {f0 : FabHdr} {act : State → State} (h : Sound q f s)
    (ha : ∀ s, Sound q f s → Sound q f (act s)) :
    SoundOut q f (s.fabReceive t ftype f0 act none) := by
  refine State.happen_sound h fun s h => ?_
  have hf := State.fabIn_sound (ftype := ftype) (f0 := f0) h
  split
  · rename_i heq; rw [heq] at hf; exact hf
  · rename_i heq; rw [heq] at hf; exact ha _ hf
  · rename_i heq; rw [heq] at hf; exact State.tally_sound hf

theorem execLookupReply_sound {t : Nat} {f0 : FabHdr} {msgs : List ReplyMsg} (h : Sound q f s) :
    SoundOut q f (execLookupReply t f0 msgs s) := by
  unfold execLookupReply
  repeat' first
    | (with_reducible assumption)
    | extract_lets
    | (with_reducible refine sound_foldl ?_ (fun _ _ _ => ?_))
    | (with_reducible refine State.fabReceive_sound ?_ (fun _ _ => ?_))
    | (with_reducible apply State.unparkAll_sound)
    | (with_reducible apply State.replyOne_sound)

theorem execLookup_sound {t : Nat} {f0 : FabHdr} {msgs : List LookupMsg} (h : Sound q f s) :
    SoundOut q f (execLookup t f0 msgs s) := by
  unfold execLookup
  repeat' first
    | (with_reducible assumption)
    | extract_lets
    | (with_reducible refine State.fabReceive_redo ?_ (fun _ _ => ?_) (fun _ _ => ?_))
    | (with_reducible apply State.serveAll_sound)

theorem execPut_sound {t : Nat} {f0 : FabHdr} {msgs : List PutMsg} (h : Sound q f s) :
    SoundOut q f (execPut t f0 msgs s) := by
  unfold execPut
  repeat' first
    | (with_reducible assumption)
    | extract_lets
    | (with_reducible refine State.fabReceive_redo ?_ (fun _ _ => ?_) (fun _ _ => ?_))
    | (with_reducible apply State.applyPuts_sound)
    | (with_reducible apply State.repeatPut_sound)

theorem execPutAck_sound {t : Nat} {f0 : FabHdr} {acked : Nat} {statuses : List Nat} (h : Sound q f s) :
    SoundOut q f (execPutAck t f0 acked statuses s) := by
  unfold execPutAck
  repeat' first
    | (with_reducible assumption)
    | extract_lets
    | (with_reducible refine sound_ite (fun _ => ?_) (fun _ => ?_))
    | (with_reducible refine State.fabReceive_sound ?_ (fun _ _ => ?_))
    | (with_reducible apply State.endPut_sound)
    | (with_reducible apply State.takePuts_sound)
    | split

theorem execPutRto_sound {t fseq : Nat} (h : Sound q f s) : SoundOut q f (execPutRto t fseq s) := by
  unfold execPutRto
  repeat' first
    | (with_reducible assumption)
    | extract_lets
    | (with_reducible refine sound_ite (fun _ => ?_) (fun _ => ?_))
    | (with_reducible refine State.happen_sound ?_ (fun _ _ => ?_))
    | (with_reducible apply State.suspect_sound)
    | (with_reducible apply State.endPut_sound)
    | (with_reducible apply State.takePuts_sound)
    | (with_reducible apply State.fabSendAs_sound)
    | (with_reducible apply State.noteWork_sound)
    | (with_reducible apply updFab_sound)
    | split

theorem execHeartbeat_sound {t : Nat} {f0 : FabHdr} (h : Sound q f s) :
    SoundOut q f (execHeartbeat t f0 s) := by
  unfold execHeartbeat
  repeat' first
    | (with_reducible assumption)
    | (with_reducible refine State.fabReceive_sound ?_ (fun _ _ => ?_))

theorem execHeartbeatSend_sound {t : Nat} (h : Sound q f s) : SoundOut q f (execHeartbeatSend t s) := by
  unfold execHeartbeatSend
  repeat' first
    | (with_reducible assumption)
    | extract_lets
    | (with_reducible refine sound_foldl ?_ (fun _ _ _ => ?_))
    | (with_reducible refine State.happen_sound ?_ (fun _ _ => ?_))
    | (with_reducible apply State.fabSendNext_sound)

theorem execPeerLossTimeout_sound {t peer : Nat} (h : Sound q f s) :
    SoundOut q f (execPeerLossTimeout t peer s) := by
  unfold execPeerLossTimeout
  repeat' first
    | (with_reducible assumption)
    | extract_lets
    | (with_reducible refine State.happen_sound ?_ (fun _ _ => ?_))
    | (with_reducible apply State.losePeer_sound)

theorem execLostPeerProbe_sound {t peer : Nat} (h : Sound q f s) :
    SoundOut q f (execLostPeerProbe t peer s) := by
  unfold execLostPeerProbe
  repeat' first
    | (with_reducible assumption)
    | extract_lets
    | (with_reducible refine State.happen_sound ?_ (fun _ _ => ?_))
    | (with_reducible apply State.fabSendNext_sound)
    | (with_reducible apply State.modPeer_sound)

theorem execChannelSuspectExpiry_sound {t peer channel : Nat} (h : Sound q f s) :
    SoundOut q f (execChannelSuspectExpiry t peer channel s) := by
  unfold execChannelSuspectExpiry
  repeat' first
    | (with_reducible assumption)
    | extract_lets
    | (with_reducible refine State.happen_sound ?_ (fun _ _ => ?_))
    | (with_reducible apply State.modPeer_sound)

theorem State.keepFabric_sound (h : Sound q f s) : Sound q f (State.keepFabric s) := by
  unfold State.keepFabric
  repeat' first
    | (with_reducible assumption)
    | (with_reducible apply State.keep_sound)

theorem State.writeAssign_sound {serial a : Nat} (h : Sound q f s) :
    Sound q f (State.writeAssign serial a s) := by
  unfold State.writeAssign
  repeat' first
    | (with_reducible assumption)
    | extract_lets
    | (with_reducible apply State.keepFabric_sound)
    | (with_reducible apply updFab_sound)

theorem State.announce_sound {m : JoinMsg} {a boot : Nat} (h : Sound q f s) :
    Sound q f (State.announce m a boot s) := by
  unfold State.announce
  repeat' first
    | (with_reducible assumption)
    | extract_lets
    | (with_reducible refine sound_ite (fun _ => ?_) (fun _ => ?_))
    | (with_reducible apply State.publish_sound)

theorem State.tellJoin_sound {m : JoinMsg} {st : Status} {a : Nat} (h : Sound q f s) :
    Sound q f (State.tellJoin m st a s) := by
  unfold State.tellJoin
  repeat' first
    | (with_reducible assumption)
    | extract_lets
    | (with_reducible apply State.fabSendTo_sound)

theorem State.settleJoins_sound (h : Sound q f s) : Sound q f (State.settleJoins s) := by
  unfold State.settleJoins
  repeat' first
    | (with_reducible assumption)
    | extract_lets
    | (with_reducible refine sound_ite (fun _ => ?_) (fun _ => ?_))
    | (with_reducible refine sound_foldl ?_ (fun _ _ _ => ?_))
    | (with_reducible refine sound_foldl_fst ?_ (fun _ _ _ => ?_))
    | (with_reducible apply State.announce_sound)
    | (with_reducible apply State.tellJoin_sound)
    | (with_reducible apply updFab_sound)

theorem State.assign_sound {m : JoinMsg} {a boot : Nat} (h : Sound q f s) :
    Sound q f (State.assign m a boot s) := by
  unfold State.assign
  repeat' first
    | (with_reducible assumption)
    | extract_lets
    | (with_reducible refine sound_foldl ?_ (fun _ _ _ => ?_))
    | (with_reducible refine sound_foldl_fst ?_ (fun _ _ _ => ?_))
    | (with_reducible apply State.fabSendTo_sound)
    | (with_reducible apply State.writeAssign_sound)
    | (with_reducible apply State.settleJoins_sound)
    | (with_reducible apply updFab_sound)

theorem State.sendAcks_sound (h : Sound q f s) : Sound q f (State.sendAcks s) := by
  unfold State.sendAcks
  repeat' first
    | (with_reducible assumption)
    | extract_lets
    | (with_reducible refine sound_ite (fun _ => ?_) (fun _ => ?_))
    | (with_reducible refine sound_foldl ?_ (fun _ _ _ => ?_))
    | (with_reducible refine sound_foldl_fst ?_ (fun _ _ _ => ?_))
    | (with_reducible apply State.fabSendTo_sound)
    | (with_reducible apply updFab_sound)

theorem State.fabStored_sound (h : Sound q f s) : Sound q f (State.fabStored s) := by
  unfold State.fabStored
  repeat' first
    | (with_reducible assumption)
    | extract_lets
    | (with_reducible apply State.settleJoins_sound)
    | (with_reducible apply State.sendAcks_sound)

theorem State.becomeCoord_sound (h : Sound q f s) : Sound q f (State.becomeCoord s) := by
  unfold State.becomeCoord
  repeat' first
    | (with_reducible assumption)
    | extract_lets
    | (with_reducible refine sound_ite (fun _ => ?_) (fun _ => ?_))
    | (with_reducible apply State.writeAssign_sound)
    | (with_reducible apply State.announce_sound)
    | (with_reducible apply updFab_sound)

theorem State.loseCoord_sound (h : Sound q f s) : Sound q f (State.loseCoord s) := by
  unfold State.loseCoord
  repeat' first
    | (with_reducible assumption)
    | extract_lets
    | (with_reducible apply State.tally_sound)
    | (with_reducible apply State.record_sound)
    | (with_reducible apply updFab_sound)

theorem State.elected_sound (h : Sound q f s) : Sound q f (State.elected s) := by
  unfold State.elected
  repeat' first
    | (with_reducible assumption)
    | extract_lets
    | (with_reducible refine sound_ite (fun _ => ?_) (fun _ => ?_))
    | (with_reducible apply State.loseCoord_sound)
    | (with_reducible apply State.becomeCoord_sound)

theorem execElectSend_sound {t : Nat} (h : Sound q f s) : SoundOut q f (execElectSend t s) := by
  unfold execElectSend
  repeat' first
    | (with_reducible assumption)
    | extract_lets
    | (with_reducible refine sound_foldl ?_ (fun _ _ _ => ?_))
    | (with_reducible refine sound_foldl_fst ?_ (fun _ _ _ => ?_))
    | (with_reducible refine State.happen_sound ?_ (fun _ _ => ?_))
    | (with_reducible apply State.fabSendTo_sound)
    | (with_reducible apply State.elected_sound)

theorem execElect_sound {t : Nat} {f0 : FabHdr} {serial prio term highView : Nat} (h : Sound q f s) :
    SoundOut q f (execElect t f0 serial prio term highView s) := by
  unfold execElect
  repeat' first
    | (with_reducible assumption)
    | extract_lets
    | (with_reducible refine sound_ite (fun _ => ?_) (fun _ => ?_))
    | (with_reducible refine State.fabReceive_sound ?_ (fun _ _ => ?_))
    | (with_reducible apply State.elected_sound)
    | (with_reducible apply updFab_sound)

theorem execJoinRetry_sound {t : Nat} (h : Sound q f s) : SoundOut q f (execJoinRetry t s) := by
  unfold execJoinRetry
  repeat' first
    | (with_reducible assumption)
    | extract_lets
    | (with_reducible refine sound_foldl ?_ (fun _ _ _ => ?_))
    | (with_reducible refine sound_foldl_fst ?_ (fun _ _ _ => ?_))
    | (with_reducible refine State.happen_sound ?_ (fun _ _ => ?_))
    | (with_reducible apply State.fabSendTo_sound)
    | (with_reducible apply updFab_sound)

theorem execJoin_sound {t : Nat} {f0 : FabHdr} {m : JoinMsg} (h : Sound q f s) :
    SoundOut q f (execJoin t f0 m s) := by
  unfold execJoin
  repeat' first
    | (with_reducible assumption)
    | extract_lets
    | (with_reducible refine sound_ite (fun _ => ?_) (fun _ => ?_))
    | (with_reducible refine State.fabReceive_sound ?_ (fun _ _ => ?_))
    | (with_reducible apply State.tellJoin_sound)
    | (with_reducible apply State.assign_sound)

theorem State.askView_sound {dst : Nat} {ip : Nat × Nat} (h : Sound q f s) :
    Sound q f (State.askView dst ip s) := by
  unfold State.askView
  repeat' first
    | (with_reducible assumption)
    | extract_lets
    | (with_reducible refine sound_ite (fun _ => ?_) (fun _ => ?_))
    | (with_reducible apply State.fabSendNext_sound)
    | (with_reducible apply State.fabSendTo_sound)
    | (with_reducible apply updFab_sound)

theorem State.joinAnswered_sound {src status addr : Nat} {coord : Nat × Nat} (h : Sound q f s) :
    Sound q f (State.joinAnswered src status addr coord s) := by
  unfold State.joinAnswered
  repeat' first
    | (with_reducible assumption)
    | extract_lets
    | (with_reducible refine sound_ite (fun _ => ?_) (fun _ => ?_))
    | (with_reducible apply State.record_sound)
    | (with_reducible apply State.fabSendTo_sound)
    | (with_reducible apply State.keepFabric_sound)
    | (with_reducible apply State.askView_sound)
    | (with_reducible apply updFab_sound)

theorem execJoinReply_sound {t : Nat} {f0 : FabHdr} {status addr : Nat} {coord : Nat × Nat} (h : Sound q f
    s) :
    SoundOut q f (execJoinReply t f0 status addr coord s) := by
  unfold execJoinReply
  repeat' first
    | (with_reducible assumption)
    | extract_lets
    | (with_reducible refine sound_ite (fun _ => ?_) (fun _ => ?_))
    | (with_reducible refine State.fabReceive_sound ?_ (fun _ _ => ?_))
    | (with_reducible apply State.joinAnswered_sound)

theorem State.dropAssign_sound {a : Nat} (h : Sound q f s) : Sound q f (State.dropAssign a s) := by
  unfold State.dropAssign
  repeat' first
    | (with_reducible assumption)
    | extract_lets
    | (with_reducible apply State.keepFabric_sound)
    | (with_reducible apply updFab_sound)

theorem State.releaseAddr_sound {a : Nat} (h : Sound q f s) : Sound q f (State.releaseAddr a s) := by
  unfold State.releaseAddr
  repeat' first
    | (with_reducible assumption)
    | extract_lets
    | (with_reducible apply State.publish_sound)
    | (with_reducible apply State.dropAssign_sound)

theorem State.sendTable_sound {dst : Nat} (h : Sound q f s) : Sound q f (State.sendTable dst s) := by
  unfold State.sendTable
  repeat' first
    | (with_reducible assumption)
    | extract_lets
    | (with_reducible refine sound_foldl ?_ (fun _ _ _ => ?_))
    | (with_reducible refine sound_foldl_fst ?_ (fun _ _ _ => ?_))
    | (with_reducible apply State.fabSendNext_sound)

theorem State.tookAck_sound {ip : Nat} {c : ViewChange} (h : Sound q f s) :
    Sound q f (State.tookAck ip c s) := by
  unfold State.tookAck
  repeat' first
    | (with_reducible assumption)
    | extract_lets
    | (with_reducible refine sound_ite (fun _ => ?_) (fun _ => ?_))
    | (with_reducible apply State.settleJoins_sound)
    | (with_reducible apply updFab_sound)

theorem State.viewAsked_sound {f0 : FabHdr} {changes : List ViewChange} (h : Sound q f s) :
    Sound q f (State.viewAsked f0 changes s) := by
  unfold State.viewAsked
  repeat' first
    | (with_reducible assumption)
    | extract_lets
    | (with_reducible refine sound_ite (fun _ => ?_) (fun _ => ?_))
    | (with_reducible refine sound_foldl ?_ (fun _ _ _ => ?_))
    | (with_reducible refine sound_foldl_fst ?_ (fun _ _ _ => ?_))
    | (with_reducible apply State.publish_sound)
    | (with_reducible apply State.releaseAddr_sound)
    | (with_reducible apply State.sendTable_sound)
    | (with_reducible apply State.tookAck_sound)
    | (with_reducible apply State.fabSendNext_sound)
    | split

theorem State.viewRows_sound {rows : List ViewChange} (h : Sound q f s) :
    Sound q f (State.viewRows rows s) := by
  unfold State.viewRows
  repeat' first
    | (with_reducible assumption)
    | extract_lets
    | (with_reducible refine sound_ite (fun _ => ?_) (fun _ => ?_))
    | (with_reducible refine sound_foldl ?_ (fun _ _ _ => ?_))
    | (with_reducible refine sound_foldl_fst ?_ (fun _ _ _ => ?_))
    | (with_reducible apply State.changeFab_sound)

theorem State.applyChange_sound {c : ViewChange} (h : Sound q f s) : Sound q f (State.applyChange c s) := by
  unfold State.applyChange
  repeat' first
    | (with_reducible assumption)
    | extract_lets
    | (with_reducible refine sound_ite (fun _ => ?_) (fun _ => ?_))
    | (with_reducible apply State.changeFab_sound)
    | (with_reducible apply State.dropAssign_sound)

theorem State.viewInOrder_sound {src : Nat} {ip : Nat × Nat} {l : List ViewChange} (h : Sound q f s) :
    Sound q f (State.viewInOrder src ip l s) := by
  induction l generalizing s with
  | nil => exact h
  | cons c rest ih =>
    rw [State.viewInOrder]
    split
    · exact ih h
    · split
      · exact ih (State.applyChange_sound h)
      · exact State.askView_sound h

theorem State.takeAssigns_sound {ip : Nat} {changes : List ViewChange} (h : Sound q f s) :
    Sound q f (State.takeAssigns ip changes s) := by
  unfold State.takeAssigns
  repeat' first
    | (with_reducible assumption)
    | extract_lets
    | (with_reducible refine sound_ite (fun _ => ?_) (fun _ => ?_))
    | (with_reducible refine sound_foldl ?_ (fun _ _ _ => ?_))
    | (with_reducible refine sound_foldl_fst ?_ (fun _ _ _ => ?_))
    | (with_reducible apply State.writeAssign_sound)
    | (with_reducible apply State.sendAcks_sound)
    | (with_reducible apply updFab_sound)

theorem execView_sound {t : Nat} {f0 : FabHdr} {changes : List ViewChange} (h : Sound q f s) :
    SoundOut q f (execView t f0 changes s) := by
  unfold execView
  repeat' first
    | (with_reducible assumption)
    | extract_lets
    | (with_reducible refine sound_ite (fun _ => ?_) (fun _ => ?_))
    | (with_reducible refine State.fabReceive_sound ?_ (fun _ _ => ?_))
    | (with_reducible apply State.viewAsked_sound)
    | (with_reducible apply State.viewRows_sound)
    | (with_reducible apply State.viewInOrder_sound)
    | (with_reducible apply State.takeAssigns_sound)
    | (with_reducible apply updFab_sound)

theorem fabApply_sound {r : SetRec} (h : Sound q f s) : Sound q f (fabApply s r) := by
  unfold fabApply
  repeat' first
    | (with_reducible assumption)
    | extract_lets
    | (with_reducible refine sound_ite (fun _ => ?_) (fun _ => ?_))
    | (with_reducible apply State.changeFab_sound)

theorem execFabricConfig_sound {t : Nat} {h0 : CmdHdr} {recs : List SetRec} (h : Sound q f s) :
    SoundOut q f (execFabricConfig t h0 recs s) := by
  unfold execFabricConfig
  repeat' first
    | (with_reducible assumption)
    | extract_lets
    | (with_reducible refine State.isain_sound ?_ (fun _ _ => ?_))
    | (with_reducible refine settings_sound ?_ (fun _ _ _ => ?_) (fun _ _ => ?_))
    | (with_reducible apply fabApply_sound)
    | (with_reducible apply State.keepFabric_sound)

theorem execFabricLeave_sound {t : Nat} {h0 : CmdHdr} (h : Sound q f s) :
    SoundOut q f (execFabricLeave t h0 s) := by
  unfold execFabricLeave
  repeat' first
    | (with_reducible assumption)
    | extract_lets
    | (with_reducible refine sound_foldl ?_ (fun _ _ _ => ?_))
    | (with_reducible refine sound_foldl_fst ?_ (fun _ _ _ => ?_))
    | (with_reducible refine State.isain_sound ?_ (fun _ _ => ?_))
    | (with_reducible apply reply_ok)
    | (with_reducible apply okReply_sound)
    | (with_reducible apply State.failWork_sound)
    | (with_reducible apply State.keepFabric_sound)
    | (with_reducible apply updModels_sound)
    | (with_reducible apply updFab_sound)

theorem execFabricRelease_sound {t : Nat} {h0 : CmdHdr} {serial : Nat} (h : Sound q f s) :
    SoundOut q f (execFabricRelease t h0 serial s) := by
  unfold execFabricRelease
  repeat' first
    | (with_reducible assumption)
    | extract_lets
    | (with_reducible refine sound_ite (fun _ => ?_) (fun _ => ?_))
    | (with_reducible refine State.isain_sound ?_ (fun _ _ => ?_))
    | (with_reducible apply reply_ok)
    | (with_reducible exact reply_no)
    | (with_reducible apply okReply_sound)
    | (with_reducible apply State.fabSendNext_sound)
    | (with_reducible apply State.releaseAddr_sound)
    | split

theorem execFabricWatchAdd_sound {t : Nat} {h0 : CmdHdr} {addr : Nat} (h : Sound q f s) :
    SoundOut q f (execFabricWatchAdd t h0 addr s) := by
  unfold execFabricWatchAdd
  repeat' first
    | (with_reducible assumption)
    | extract_lets
    | (with_reducible refine State.isain_sound ?_ (fun _ _ => ?_))
    | (with_reducible exact reply_no)
    | (with_reducible apply reply_ok)
    | (with_reducible apply updFab_sound)
    | (with_reducible apply State.startWatch_sound)
    | split

theorem execFabricWatchRemove_sound {t : Nat} {h0 : CmdHdr} {addr : Nat} (h : Sound q f s) :
    SoundOut q f (execFabricWatchRemove t h0 addr s) := by
  unfold execFabricWatchRemove
  repeat' first
    | (with_reducible assumption)
    | extract_lets
    | (with_reducible refine State.isain_sound ?_ (fun _ _ => ?_))
    | (with_reducible exact reply_no)
    | (with_reducible apply reply_ok)
    | (with_reducible apply updFab_sound)
    | split

theorem execFabricStatus_sound {t : Nat} {h0 : CmdHdr} {start max : Nat} (h : Sound q f s) :
    SoundOut q f (execFabricStatus t h0 start max s) := by
  unfold execFabricStatus
  repeat' first
    | (with_reducible assumption)
    | extract_lets
    | (with_reducible refine State.isain_sound ?_ (fun _ _ => ?_))
    | (with_reducible apply reply_done)

end Sys2Proof.Machine
end

