-- ==== Sys2Proof/Laws/SoundClusters.lean ====
section
/-! SUPPORT. The definitions of Machine/Clusters.lean keep a sound state: the queue, the fuses, memory in its
canonical form, the counters' bound and Rosemary's numbering. -/

namespace Sys2Proof.Machine

variable {q : List Instr} {f : Fuses} {s : State}

theorem State.abortCore_sound {p : Nat} (h : Sound q f s) : Sound q f (State.abortCore p s) := by
  unfold State.abortCore
  repeat' first
    | (with_reducible assumption)
    | extract_lets
    | (with_reducible refine sound_foldl ?_ (fun _ _ _ => ?_))
    | (with_reducible apply State.endContext_sound)
    | (with_reducible apply State.stopShare_sound)
    | (with_reducible apply State.dropShare_sound)
    | split

theorem State.endWaiting_sound {p : Nat} (h : Sound q f s) : Sound q f (State.endWaiting p s) := by
  unfold State.endWaiting
  repeat' first
    | (with_reducible assumption)
    | extract_lets
    | (with_reducible refine sound_foldl ?_ (fun _ _ _ => ?_))
    | (with_reducible refine sound_foldl_fst ?_ (fun _ _ _ => ?_))
    | (with_reducible apply State.modCore_sound)
    | (with_reducible apply State.abortLaunch_sound)

theorem State.dropClusterFetches_sound {c : Nat} (h : Sound q f s) :
    Sound q f (State.dropClusterFetches c s) := by
  unfold State.dropClusterFetches
  repeat' first
    | (with_reducible assumption)
    | extract_lets
    | (with_reducible refine sound_ite (fun _ => ?_) (fun _ => ?_))
    | (with_reducible refine sound_foldl ?_ (fun _ _ _ => ?_))
    | (with_reducible apply State.dropFetch_sound)
    | (with_reducible apply State.settleFetch_sound)

theorem State.dropUpdates_sound {c : Nat} (h : Sound q f s) : Sound q f (State.dropUpdates c s) := by
  unfold State.dropUpdates
  repeat' first
    | (with_reducible assumption)
    | extract_lets
    | (with_reducible refine sound_foldl ?_ (fun _ _ _ => ?_))
    | (with_reducible apply State.rsNext_sound)
    | (with_reducible apply State.count_sound)

theorem State.closeGroups_sound {c : Nat} (h : Sound q f s) : Sound q f (State.closeGroups c s) := by
  unfold State.closeGroups
  repeat' first
    | (with_reducible assumption)
    | extract_lets
    | (with_reducible refine sound_foldl ?_ (fun _ _ _ => ?_))
    | (with_reducible apply State.modCluster_sound)
    | (with_reducible apply State.deliverGroup_sound)

theorem State.abortCluster_sound {c : Nat} (h : Sound q f s) : Sound q f (State.abortCluster c s) := by
  unfold State.abortCluster
  repeat' first
    | (with_reducible assumption)
    | extract_lets
    | (with_reducible refine sound_ite (fun _ => ?_) (fun _ => ?_))
    | (with_reducible refine sound_foldl ?_ (fun _ _ _ => ?_))
    | (with_reducible apply State.countN_sound)
    | (with_reducible apply State.endWaiting_sound)
    | (with_reducible apply State.abortCore_sound)
    | (with_reducible apply State.closeGroups_sound)
    | (with_reducible apply State.dropUpdates_sound)
    | (with_reducible apply State.dropClusterFetches_sound)
    | (with_reducible apply State.settle2_sound)
    | (with_reducible apply State.modCluster_sound)

theorem execReassignGraceExpiry_sound {t cluster : Nat} (h : Sound q f s) :
    SoundOut q f (execReassignGraceExpiry t cluster s) := by
  unfold execReassignGraceExpiry
  repeat' first
    | (with_reducible assumption)
    | extract_lets
    | (with_reducible refine State.happen_sound ?_ (fun _ _ => ?_))
    | (with_reducible apply State.abortCluster_sound)

theorem State.zeroCore_sound {p : Nat} (h : Sound q f s) : Sound q f (State.zeroCore p s) := by
  unfold State.zeroCore
  repeat' first
    | (with_reducible assumption)
    | extract_lets
    | (with_reducible apply State.modCore_sound)
    | (with_reducible apply State.endWaiting_sound)

theorem State.zeroCluster_sound {c : Nat} (h : Sound q f s) : Sound q f (s.zeroCluster c) := by
  unfold State.zeroCluster
  extract_lets s1 s2
  have h2 : Sound q f s2 := State.modCluster_sound (sound_foldl h fun _ _ h => State.zeroCore_sound h)
  refine updObs_good h2 ?_ h2.3.3
  exact fun e he => h2.3.2 e (List.mem_filter.1 he).1

theorem State.clusterStopped_sound {c : Nat} (h : Sound q f s) : Sound q f (State.clusterStopped c s) := by
  unfold State.clusterStopped
  repeat' first
    | (with_reducible assumption)
    | (with_reducible apply updRings_sound)

theorem State.takeOwner_sound {c : Nat} {l : Leaving} (h : Sound q f s) :
    Sound q f (State.takeOwner c l s) := by
  unfold State.takeOwner
  repeat' first
    | (with_reducible assumption)
    | extract_lets
    | (with_reducible refine sound_ite (fun _ => ?_) (fun _ => ?_))
    | (with_reducible refine sound_foldl ?_ (fun _ _ _ => ?_))
    | (with_reducible refine sound_foldl_fst ?_ (fun _ _ _ => ?_))
    | (with_reducible apply State.record_sound)
    | (with_reducible apply State.answer_sound)
    | (with_reducible apply State.keep_sound)
    | (with_reducible apply State.modCluster_sound)
    | (with_reducible apply State.modCore_sound)
    | (with_reducible apply State.setRails_sound)
    | (with_reducible apply State.floorBreach_sound)
    | split

theorem State.endReinit_sound {p : Nat} (h : Sound q f s) : Sound q f (State.endReinit p s) := by
  unfold State.endReinit
  repeat' first
    | (with_reducible assumption)
    | extract_lets
    | (with_reducible refine sound_foldl ?_ (fun _ _ _ => ?_))
    | (with_reducible apply State.modPart_sound)
    | (with_reducible apply State.count_sound)
    | (with_reducible apply State.recordEvent_sound)
    | (with_reducible apply State.answer_sound)
    | split

theorem execClusterResetDone_sound {t cluster : Nat} (h : Sound q f s) :
    SoundOut q f (execClusterResetDone t cluster s) := by
  unfold execClusterResetDone
  repeat' first
    | (with_reducible assumption)
    | extract_lets
    | (with_reducible refine sound_ite (fun _ => ?_) (fun _ => ?_))
    | (with_reducible refine State.happen_sound ?_ (fun _ _ => ?_))
    | (with_reducible apply State.clusterStopped_sound)
    | (with_reducible apply State.zeroCluster_sound)
    | (with_reducible apply State.modCluster_sound)
    | (with_reducible apply State.takeOwner_sound)
    | (with_reducible apply State.endReinit_sound)
    | split

theorem State.leave_sound {h0 : CmdHdr} {target grace c : Nat} (h : Sound q f s) :
    Sound q f (State.leave h0 target grace c s) := by
  unfold State.leave
  repeat' first
    | (with_reducible assumption)
    | extract_lets
    | (with_reducible refine sound_ite (fun _ => ?_) (fun _ => ?_))
    | (with_reducible apply State.modCluster_sound)

theorem execClusterAssign_sound {t : Nat} {h0 : CmdHdr} {target graceUs : Nat} {clusters : List Nat} (h :
    Sound q f s) :
    SoundOut q f (execClusterAssign t h0 target graceUs clusters s) := by
  unfold execClusterAssign
  repeat' first
    | (with_reducible assumption)
    | extract_lets
    | (with_reducible refine sound_foldl ?_ (fun _ _ _ => ?_))
    | (with_reducible refine State.isain_sound ?_ (fun _ _ => ?_))
    | (with_reducible apply checksAt_sound)
    | (with_reducible apply reply_wait)
    | (with_reducible apply reply_ok)
    | (with_reducible apply State.leave_sound)
    | split

theorem execClusterConfig_sound {t : Nat} {h0 : CmdHdr} {recs : List SetRec} (h : Sound q f s) :
    SoundOut q f (execClusterConfig t h0 recs s) := by
  unfold execClusterConfig
  repeat' first
    | (with_reducible assumption)
    | extract_lets
    | (with_reducible refine State.isain_sound ?_ (fun _ _ => ?_))
    | (with_reducible refine settings_sound ?_ (fun _ _ _ => ?_) (fun _ _ => ?_))
    | (with_reducible apply checksAt_sound)
    | (with_reducible apply State.keep_sound)
    | (with_reducible apply State.modCluster_sound)
    | (with_reducible apply State.setRails_sound)

theorem execCoreMapRead_sound {t : Nat} {h0 : CmdHdr} {start max : Nat} (h : Sound q f s) :
    SoundOut q f (execCoreMapRead t h0 start max s) := by
  unfold execCoreMapRead
  repeat' first
    | (with_reducible assumption)
    | extract_lets
    | (with_reducible refine State.isain_sound ?_ (fun _ _ => ?_))
    | (with_reducible apply reply_done)

end Sys2Proof.Machine
end

