-- ==== Sys2Proof/Laws/SoundRecover.lean ====
section
/-! SUPPORT. The definitions of Machine/Recover.lean keep a sound state: the queue, the fuses, memory in its
canonical form, the counters' bound and Rosemary's numbering. -/

namespace Sys2Proof.Machine

variable {q : List Instr} {f : Fuses} {s : State}

theorem execPartitionReinit_sound {t : Nat} {h0 : CmdHdr} {part : Nat} (h : Sound q f s) :
    SoundOut q f (execPartitionReinit t h0 part s) := by
  unfold execPartitionReinit
  repeat' first
    | (with_reducible assumption)
    | extract_lets
    | (with_reducible refine State.isain_sound ?_ (fun _ _ => ?_))
    | (with_reducible apply checks_sound)
    | (with_reducible apply reply_wait)
    | (with_reducible apply State.modPart_sound)

theorem State.revokeRings_sound {p token : Nat} (h : Sound q f s) :
    Sound q f (State.revokeRings p token s) := by
  unfold State.revokeRings
  repeat' first
    | (with_reducible assumption)
    | extract_lets
    | (with_reducible refine sound_ite (fun _ => ?_) (fun _ => ?_))
    | (with_reducible refine sound_foldl ?_ (fun _ _ _ => ?_))
    | (with_reducible refine sound_foldl_fst ?_ (fun _ _ _ => ?_))
    | (with_reducible apply State.countN_sound)
    | (with_reducible apply State.dropStalled_sound)
    | (with_reducible apply updRings_sound)
    | (with_reducible apply updFab_sound)

theorem State.orphan_sound {clusters : List Nat} {k : Nat} (h : Sound q f s) :
    Sound q f (State.orphan clusters k s) := by
  unfold State.orphan
  repeat' first
    | (with_reducible assumption)
    | extract_lets
    | (with_reducible refine sound_ite (fun _ => ?_) (fun _ => ?_))
    | (with_reducible apply State.modSlot_sound)
    | (with_reducible apply State.modFrame_sound)
    | (with_reducible apply State.ruleDecides_sound)
    | (with_reducible apply State.abandon_sound)
    | split

theorem State.endBarriers_sound {p : Nat} (h : Sound q f s) : Sound q f (State.endBarriers p s) := by
  unfold State.endBarriers
  repeat' first
    | (with_reducible assumption)
    | extract_lets
    | (with_reducible refine sound_foldl ?_ (fun _ _ _ => ?_))
    | (with_reducible apply State.answer_sound)
    | (with_reducible apply updRings_sound)

theorem State.endHeld_sound {p : Nat} (h : Sound q f s) : Sound q f (State.endHeld p s) := by
  unfold State.endHeld
  repeat' first
    | (with_reducible assumption)
    | extract_lets
    | (with_reducible refine sound_foldl ?_ (fun _ _ _ => ?_))
    | (with_reducible refine sound_foldl_fst ?_ (fun _ _ _ => ?_))
    | (with_reducible apply State.refuseHeld_sound)

theorem State.revokeCluster_sound {p c : Nat} (h : Sound q f s) :
    Sound q f (State.revokeCluster p c s) := by
  unfold State.revokeCluster
  repeat' first
    | (with_reducible assumption)
    | extract_lets
    | (with_reducible refine sound_ite (fun _ => ?_) (fun _ => ?_))
    | (with_reducible apply State.abortCluster_sound)
    | (with_reducible apply State.modCluster_sound)
    | split

theorem State.revoke_sound {p : Nat} (h : Sound q f s) : Sound q f (State.revoke p s) := by
  unfold State.revoke
  repeat' first
    | (with_reducible assumption)
    | extract_lets
    | (with_reducible refine sound_ite (fun _ => ?_) (fun _ => ?_))
    | (with_reducible refine sound_foldl ?_ (fun _ _ _ => ?_))
    | (with_reducible refine sound_foldl_fst ?_ (fun _ _ _ => ?_))
    | (with_reducible apply State.closeSession_sound)
    | (with_reducible apply State.modPart_sound)
    | (with_reducible apply State.modDomain_sound)
    | (with_reducible apply State.unparkAll_sound)
    | (with_reducible apply State.endReinit_sound)
    | (with_reducible apply State.revokeRings_sound)
    | (with_reducible apply State.orphan_sound)
    | (with_reducible apply State.endBarriers_sound)
    | (with_reducible apply State.endHeld_sound)
    | (with_reducible apply State.revokeCluster_sound)

theorem execReinitRevoke_sound {t part : Nat} (h : Sound q f s) :
    SoundOut q f (execReinitRevoke t part s) := by
  unfold execReinitRevoke
  repeat' first
    | (with_reducible assumption)
    | extract_lets
    | (with_reducible refine State.happen_sound ?_ (fun _ _ => ?_))
    | (with_reducible apply State.revoke_sound)

theorem execOrphanSlotFree_sound {t slot : Nat} (h : Sound q f s) :
    SoundOut q f (execOrphanSlotFree t slot s) := by
  unfold execOrphanSlotFree
  repeat' first
    | (with_reducible assumption)
    | extract_lets
    | (with_reducible refine State.happen_sound ?_ (fun _ _ => ?_))
    | (with_reducible apply State.freeSlot_sound)

theorem State.foundHung_sound {k : Nat} (h : Sound q f s) : Sound q f (State.foundHung k s) := by
  unfold State.foundHung
  repeat' first
    | (with_reducible assumption)
    | extract_lets
    | (with_reducible refine sound_ite (fun _ => ?_) (fun _ => ?_))
    | (with_reducible apply State.modSlot_sound)
    | (with_reducible apply State.count_sound)
    | (with_reducible apply State.modPart_sound)
    | (with_reducible apply State.recordEvent_sound)
    | (with_reducible apply State.record_sound)

theorem execHungSlotScan_sound {t : Nat} (h : Sound q f s) : SoundOut q f (execHungSlotScan t s) := by
  unfold execHungSlotScan
  repeat' first
    | (with_reducible assumption)
    | extract_lets
    | (with_reducible refine sound_ite (fun _ => ?_) (fun _ => ?_))
    | (with_reducible refine sound_foldl ?_ (fun _ _ _ => ?_))
    | (with_reducible refine State.happen_sound ?_ (fun _ _ => ?_))
    | (with_reducible apply State.foundHung_sound)
    | (with_reducible apply State.modPart_sound)

theorem execSpareTest_sound {t core : Nat} {passed : Bool} (h : Sound q f s) :
    SoundOut q f (execSpareTest t core passed s) := by
  unfold execSpareTest
  repeat' first
    | (with_reducible assumption)
    | extract_lets
    | (with_reducible refine sound_ite (fun _ => ?_) (fun _ => ?_))
    | (with_reducible refine State.happen_sound ?_ (fun _ _ => ?_))
    | (with_reducible apply State.spareFailed_sound)
    | split

theorem State.chooseSpare_sound {fails : List Nat} {x1 : List (Nat × MapEntry)} (h : Sound q f s) :
    Sound q f (State.chooseSpare fails x1 s).1 := by
  induction x1 generalizing s with
  | nil =>
    rw [State.chooseSpare]
    repeat' first
      | (with_reducible assumption)
  | cons x r ih =>
    rw [State.chooseSpare]
    repeat' first
      | (with_reducible assumption)
      | (with_reducible apply ih)
      | extract_lets
      | (with_reducible apply State.modMap_sound)
      | split

theorem State.leaveSpare_sound {e : MapEntry} (h : Sound q f s) : Sound q f (State.leaveSpare e s) := by
  unfold State.leaveSpare
  repeat' first
    | (with_reducible assumption)
    | extract_lets
    | (with_reducible refine sound_ite (fun _ => ?_) (fun _ => ?_))
    | (with_reducible apply State.modMap_sound)

theorem State.tellRetired_sound {unit l : Nat} {old new sub : Nat} (h : Sound q f s) :
    Sound q f (State.tellRetired unit l old new sub s) := by
  unfold State.tellRetired
  repeat' first
    | (with_reducible assumption)
    | extract_lets
    | (with_reducible refine sound_ite (fun _ => ?_) (fun _ => ?_))
    | (with_reducible apply State.coreRecord_sound)
    | (with_reducible apply State.event_sound)

theorem State.tellDamaged_sound {l : Nat} (h : Sound q f s) : Sound q f (State.tellDamaged l s) := by
  unfold State.tellDamaged
  repeat' first
    | (with_reducible assumption)
    | extract_lets
    | (with_reducible refine sound_foldl ?_ (fun _ _ _ => ?_))
    | (with_reducible refine sound_foldl_fst ?_ (fun _ _ _ => ?_))
    | (with_reducible apply State.event_sound)

theorem State.loseLogical_sound {l old : Nat} {e : MapEntry} (h : Sound q f s) :
    Sound q f (State.loseLogical l old e s) := by
  unfold State.loseLogical
  repeat' first
    | (with_reducible assumption)
    | extract_lets
    | (with_reducible apply State.count_sound)
    | (with_reducible apply State.endWaiting_sound)
    | (with_reducible apply State.modMap_sound)
    | (with_reducible apply State.leaveSpare_sound)
    | (with_reducible apply State.tellRetired_sound)
    | (with_reducible apply State.tellDamaged_sound)
    | (with_reducible apply updComp_sound)

theorem State.moveLogical_sound {l old : Nat} {e : MapEntry} {i : Nat} {sp : MapEntry} (h : Sound q f s) :
    Sound q f (State.moveLogical l old e i sp s) := by
  unfold State.moveLogical
  repeat' first
    | (with_reducible assumption)
    | extract_lets
    | (with_reducible apply State.count_sound)
    | (with_reducible apply State.modCore_sound)
    | (with_reducible apply State.modMap_sound)
    | (with_reducible apply State.leaveSpare_sound)
    | (with_reducible apply State.tellRetired_sound)
    | (with_reducible apply updComp_sound)

theorem State.retireCore_sound {old : Nat} {fails : List Nat} (h : Sound q f s) :
    Sound q f (State.retireCore old fails s) := by
  unfold State.retireCore
  repeat' first
    | (with_reducible assumption)
    | extract_lets
    | (with_reducible refine sound_foldl ?_ (fun _ _ _ => ?_))
    | (with_reducible refine sound_foldl_fst ?_ (fun _ _ _ => ?_))
    | (with_reducible apply State.count_sound)
    | (with_reducible apply State.keep_sound)
    | (with_reducible apply State.setRails_sound)
    | (with_reducible apply State.settle2_sound)
    | (with_reducible apply State.tryHeld_sound)
    | (with_reducible apply State.abortCore_sound)
    | (with_reducible apply State.chooseSpare_sound)
    | (with_reducible apply State.loseLogical_sound)
    | (with_reducible apply State.moveLogical_sound)
    | split
    | (dsimp +zetaDelta only)

theorem execCoreRetire_sound {t core : Nat} {spareFails : List Nat} (h : Sound q f s) :
    SoundOut q f (execCoreRetire t core spareFails s) := by
  unfold execCoreRetire
  repeat' first
    | (with_reducible assumption)
    | extract_lets
    | (with_reducible refine State.happen_sound ?_ (fun _ _ => ?_))
    | (with_reducible apply State.retireCore_sound)

theorem execDieSilentTimeout_sound {t die : Nat} (h : Sound q f s) :
    SoundOut q f (execDieSilentTimeout t die s) := by
  unfold execDieSilentTimeout
  repeat' first
    | (with_reducible assumption)
    | extract_lets
    | (with_reducible refine State.happen_sound ?_ (fun _ _ => ?_))
    | (with_reducible apply State.orderReset_sound)

theorem execIsainHeartbeatMiss_sound {t core : Nat} (h : Sound q f s) :
    SoundOut q f (execIsainHeartbeatMiss t core s) := by
  unfold execIsainHeartbeatMiss
  repeat' first
    | (with_reducible assumption)
    | extract_lets
    | (with_reducible refine State.happen_sound ?_ (fun _ _ => ?_))
    | (with_reducible apply State.restartIsain_sound)

theorem State.undo_sound {via : Via} {seq : Nat} (h : Sound q f s) : Sound q f (State.undo via seq s) := by
  unfold State.undo
  repeat' first
    | (with_reducible assumption)
    | extract_lets
    | (with_reducible apply State.completeEntry_sound)
    | (with_reducible apply State.modSession_sound)
    | (with_reducible apply updPorts_sound)
    | (with_reducible apply updRings_sound)
    | (with_reducible apply updParts_sound)
    | (with_reducible apply updComp_sound)
    | (with_reducible apply updModels_sound)
    | (with_reducible apply updBay_sound)
    | (refine updObs_sound ?_ rfl rfl rfl)
    | split

theorem execIsainRestartDone_sound {t : Nat} {undo : List (Via × Nat)} (h : Sound q f s) :
    SoundOut q f (execIsainRestartDone t undo s) := by
  unfold execIsainRestartDone
  repeat' first
    | (with_reducible assumption)
    | extract_lets
    | (with_reducible refine sound_foldl ?_ (fun _ _ _ => ?_))
    | (with_reducible refine State.happen_sound ?_ (fun _ _ => ?_))
    | (with_reducible apply State.undo_sound)
    | (with_reducible apply updBay_sound)
    | (with_reducible apply State.tally_sound)
    | (with_reducible apply State.record_sound)

end Sys2Proof.Machine
end

