-- ==== Sys2Proof/Laws/SoundAdmin.lean ====
section
/-! SUPPORT. The definitions of Machine/Admin.lean keep a sound state: the queue, the fuses, memory in its
canonical form, the counters' bound and Rosemary's numbering. -/

namespace Sys2Proof.Machine

variable {q : List Instr} {f : Fuses} {s : State}

theorem State.keepPart_sound {p : Nat} (h : Sound q f s) : Sound q f (State.keepPart p s) := by
  unfold State.keepPart
  repeat' first
    | (with_reducible assumption)
    | (with_reducible apply State.keep_sound)

theorem execPartitionEnable_sound {t : Nat} {h0 : CmdHdr} {part : Nat} (h : Sound q f s) :
    SoundOut q f (execPartitionEnable t h0 part s) := by
  unfold execPartitionEnable
  repeat' first
    | (with_reducible assumption)
    | extract_lets
    | (with_reducible refine State.isain_sound ?_ (fun _ _ => ?_))
    | (with_reducible apply checks_sound)
    | (with_reducible apply reply_ok)
    | (with_reducible apply State.keepPart_sound)
    | (with_reducible apply State.modPart_sound)

theorem execPartitionDisable_sound {t : Nat} {h0 : CmdHdr} {part : Nat} (h : Sound q f s) :
    SoundOut q f (execPartitionDisable t h0 part s) := by
  unfold execPartitionDisable
  repeat' first
    | (with_reducible assumption)
    | extract_lets
    | (with_reducible refine State.isain_sound ?_ (fun _ _ => ?_))
    | (with_reducible apply checks_sound)
    | (with_reducible apply reply_ok)
    | (with_reducible apply State.keepPart_sound)
    | (with_reducible apply State.modPart_sound)

theorem partApply_sound {r : SetRec} (h : Sound q f s) : Sound q f (partApply s r) := by
  unfold partApply
  repeat' first
    | (with_reducible assumption)
    | extract_lets
    | (with_reducible apply State.modPart_sound)

theorem execPartitionConfig_sound {t : Nat} {h0 : CmdHdr} {recs : List SetRec} (h : Sound q f s) :
    SoundOut q f (execPartitionConfig t h0 recs s) := by
  unfold execPartitionConfig
  repeat' first
    | (with_reducible assumption)
    | extract_lets
    | (with_reducible refine sound_foldl ?_ (fun _ _ _ => ?_))
    | (with_reducible refine State.isain_sound ?_ (fun _ _ => ?_))
    | (with_reducible refine settings_sound ?_ (fun _ _ _ => ?_) (fun _ _ => ?_))
    | (with_reducible apply partApply_sound)
    | (with_reducible apply State.keepPart_sound)

theorem execPartitionQuery_sound {t : Nat} {h0 : CmdHdr} {part : Nat} (h : Sound q f s) :
    SoundOut q f (execPartitionQuery t h0 part s) := by
  unfold execPartitionQuery
  repeat' first
    | (with_reducible assumption)
    | extract_lets
    | (with_reducible refine State.isain_sound ?_ (fun _ _ => ?_))
    | (with_reducible apply reply_done)

theorem execSettingsReadForm_sound {t : Nat} {h0 : CmdHdr} {cmd : SetCmd} {recs : List SetRec} (h : Sound
    q f s) :
    SoundOut q f (execSettingsReadForm t h0 cmd recs s) := by
  unfold execSettingsReadForm
  repeat' first
    | (with_reducible assumption)
    | extract_lets
    | (with_reducible refine State.isain_sound ?_ (fun _ _ => ?_))
    | (with_reducible apply checksAt_sound)
    | (with_reducible apply reply_done)
    | (with_reducible exact reply_refuse)
    | (with_reducible exact reply_no)
    | split

theorem State.startQuiesce_sound {h0 : CmdHdr} {shut : Bool} (h : Sound q f s) :
    Sound q f (State.startQuiesce h0 shut s) := by
  unfold State.startQuiesce
  repeat' first
    | (with_reducible assumption)
    | extract_lets
    | (with_reducible apply State.bypassLow_sound)
    | (refine updObs_sound ?_ rfl rfl rfl)

theorem execQuiesce_sound {t : Nat} {h0 : CmdHdr} (h : Sound q f s) :
    SoundOut q f (execQuiesce t h0 s) := by
  unfold execQuiesce
  repeat' first
    | (with_reducible assumption)
    | extract_lets
    | (with_reducible refine State.isain_sound ?_ (fun _ _ => ?_))
    | (with_reducible apply checks_sound)
    | (with_reducible apply reply_wait)
    | (with_reducible apply reply_ok)
    | (with_reducible apply State.startQuiesce_sound)
    | split

theorem execQuiesceRelease_sound {t : Nat} {h0 : CmdHdr} (h : Sound q f s) :
    SoundOut q f (execQuiesceRelease t h0 s) := by
  unfold execQuiesceRelease
  repeat' first
    | (with_reducible assumption)
    | extract_lets
    | (with_reducible refine State.isain_sound ?_ (fun _ _ => ?_))
    | (with_reducible apply checks_sound)
    | (with_reducible apply reply_ok)
    | (with_reducible apply State.tryArm_sound)
    | (refine updObs_sound ?_ rfl rfl rfl)

theorem State.bfdDown_sound {ifc : Nat} (h : Sound q f s) : Sound q f (State.bfdDown ifc s) := by
  unfold State.bfdDown
  repeat' first
    | (with_reducible assumption)
    | extract_lets
    | (with_reducible refine sound_foldl ?_ (fun _ _ _ => ?_))
    | (with_reducible refine sound_foldl_fst ?_ (fun _ _ _ => ?_))
    | (with_reducible apply State.out_sound)
    | (with_reducible apply State.modIfc_sound)
    | (with_reducible apply State.count_sound)
    | (with_reducible refine State.secure_sound ?_ _ _ (by assumption))
    | split

theorem State.finishShutdown_sound (h : Sound q f s) : Sound q f (State.finishShutdown s) := by
  unfold State.finishShutdown
  repeat' first
    | (with_reducible assumption)
    | extract_lets
    | (with_reducible refine sound_foldl ?_ (fun _ _ _ => ?_))
    | (with_reducible apply State.bfdDown_sound)
    | (with_reducible apply State.portsIdle_sound)
    | (with_reducible apply State.bypassLow_sound)
    | (with_reducible apply updBay_sound)

theorem execDeviceShutdown_sound {t : Nat} {h0 : CmdHdr} (h : Sound q f s) :
    SoundOut q f (execDeviceShutdown t h0 s) := by
  unfold execDeviceShutdown
  repeat' first
    | (with_reducible assumption)
    | extract_lets
    | (with_reducible refine State.isain_sound ?_ (fun _ _ => ?_))
    | (with_reducible apply checks_sound)
    | (with_reducible apply reply_wait)
    | (with_reducible apply reply_ok)
    | (with_reducible apply State.finishShutdown_sound)
    | (with_reducible apply State.startQuiesce_sound)
    | split

theorem execQuiesceDone_sound {t : Nat} (h : Sound q f s) : SoundOut q f (execQuiesceDone t s) := by
  unfold execQuiesceDone
  repeat' first
    | (with_reducible assumption)
    | extract_lets
    | (with_reducible refine sound_ite (fun _ => ?_) (fun _ => ?_))
    | (with_reducible refine sound_foldl ?_ (fun _ _ _ => ?_))
    | (with_reducible refine State.happen_sound ?_ (fun _ _ => ?_))
    | (with_reducible apply State.finishShutdown_sound)
    | (with_reducible apply State.answer_sound)
    | (refine updObs_sound ?_ rfl rfl rfl)

theorem State.expireBarrier_sound {via : Via} {seq : Nat} (h : Sound q f s) :
    ∀ s', State.expireBarrier via seq s = some s' → Sound q f s' := by
  unfold State.expireBarrier
  repeat' first
    | (with_reducible assumption)
    | extract_lets
    | (with_reducible apply State.answer_sound)
    | (with_reducible apply State.dropBarrier_sound)
    | (intro _ e; obtain ⟨_, _, rfl⟩ := Option.map_eq_some_iff.1 e)

theorem State.expireCommit_sound {via : Via} {seq : Nat} (h : Sound q f s) :
    ∀ s', State.expireCommit via seq s = some s' → Sound q f s' := by
  unfold State.expireCommit
  repeat' first
    | (with_reducible assumption)
    | extract_lets
    | (with_reducible apply State.modDomain_sound)
    | (with_reducible apply State.answer_sound)
    | split
    | (intro _ e; obtain ⟨_, _, rfl⟩ := Option.map_eq_some_iff.1 e)

theorem State.expireQuiesce_sound {via : Via} {seq : Nat} (h : Sound q f s) :
    ∀ s', State.expireQuiesce via seq s = some s' → Sound q f s' := by
  unfold State.expireQuiesce
  repeat' first
    | (with_reducible assumption)
    | extract_lets
    | (with_reducible refine sound_ite (fun _ => ?_) (fun _ => ?_))
    | (with_reducible apply State.finishShutdown_sound)
    | (with_reducible apply State.tryArm_sound)
    | (with_reducible apply State.answer_sound)
    | (refine updObs_sound ?_ rfl rfl rfl)
    | (intro _ e; obtain ⟨_, _, rfl⟩ := Option.map_eq_some_iff.1 e)

theorem execCommandTimeout_sound {t : Nat} {via : Via} {seq : Nat} (h : Sound q f s) :
    SoundOut q f (execCommandTimeout t via seq s) := by
  unfold execCommandTimeout
  repeat' first
    | (with_reducible assumption)
    | extract_lets
    | (with_reducible refine State.happen_sound ?_ (fun _ _ => ?_))
    | (with_reducible refine State.expireBarrier_sound ?_ _ (by assumption))
    | (with_reducible refine State.expireCommit_sound ?_ _ (by assumption))
    | (with_reducible show ∀ _, _ = some _ → _; with_reducible apply State.expireQuiesce_sound)
    | split
    | (with_reducible apply sound_getD)

theorem execGlobalStop_sound {t : Nat} {h0 : CmdHdr} (h : Sound q f s) :
    SoundOut q f (execGlobalStop t h0 s) := by
  unfold execGlobalStop
  repeat' first
    | (with_reducible assumption)
    | extract_lets
    | (with_reducible refine State.isain_sound ?_ (fun _ _ => ?_))
    | (with_reducible apply checks_sound)
    | (with_reducible apply reply_done)
    | (with_reducible apply State.ownStop_sound)

theorem execGlobalResume_sound {t : Nat} {h0 : CmdHdr} (h : Sound q f s) :
    SoundOut q f (execGlobalResume t h0 s) := by
  unfold execGlobalResume
  repeat' first
    | (with_reducible assumption)
    | extract_lets
    | (with_reducible refine State.isain_sound ?_ (fun _ _ => ?_))
    | (with_reducible apply checks_sound)
    | (with_reducible apply reply_ok)
    | (with_reducible apply State.tryResume_sound)
    | (refine updObs_sound ?_ rfl rfl rfl)

end Sys2Proof.Machine
end

