-- ==== Sys2Proof/Laws/SoundObserve.lean ====
section
/-! SUPPORT. The definitions of Machine/Observe.lean keep a sound state: the queue, the fuses, memory in its
canonical form, the counters' bound and Rosemary's numbering. -/

namespace Sys2Proof.Machine

variable {q : List Instr} {f : Fuses} {s : State}

theorem execCounterRead_sound {t : Nat} {h0 : CmdHdr} {ids : List CounterId} (h : Sound q f s) :
    SoundOut q f (execCounterRead t h0 ids s) := by
  unfold execCounterRead
  repeat' first
    | (with_reducible assumption)
    | extract_lets
    | (with_reducible refine State.isain_sound ?_ (fun _ _ => ?_))
    | (with_reducible apply checksAt_sound)
    | (with_reducible apply reply_done)

theorem takeCounter_sound {p : State × List Nat} {c : CounterId} (h : Sound q f p.1) :
    Sound q f (takeCounter p c).1 := by
  refine updObs_good (s := p.1) (g := fun o => { o with
    counters := o.counters.filter fun e => e.1 != (c.id, c.scope) }) h ?_ h.3.3
  exact fun e he => h.3.2 e (List.mem_filter.1 he).1

theorem execCounterReadClear_sound {t : Nat} {h0 : CmdHdr} {ids : List CounterId} (h : Sound q f s) :
    SoundOut q f (execCounterReadClear t h0 ids s) := by
  unfold execCounterReadClear
  repeat' first
    | (with_reducible assumption)
    | extract_lets
    | (with_reducible refine sound_foldl_fst ?_ (fun _ _ _ => ?_))
    | (with_reducible refine State.isain_sound ?_ (fun _ _ => ?_))
    | (with_reducible apply checksAt_sound)
    | (with_reducible apply reply_done)
    | (with_reducible exact reply_no)
    | (with_reducible apply takeCounter_sound)

theorem execRosemaryRead_sound {t : Nat} {h0 : CmdHdr} {start max : Nat} (h : Sound q f s) :
    SoundOut q f (execRosemaryRead t h0 start max s) := by
  unfold execRosemaryRead
  repeat' first
    | (with_reducible assumption)
    | extract_lets
    | (with_reducible refine State.isain_sound ?_ (fun _ _ => ?_))
    | (with_reducible apply reply_done)

theorem execRosemaryFreeze_sound {t : Nat} {h0 : CmdHdr} (h : Sound q f s) :
    SoundOut q f (execRosemaryFreeze t h0 s) := by
  unfold execRosemaryFreeze
  refine State.isain_sound h fun s h => reply_ok ?_
  by_cases hf : s.obs.frozen = true
  · exact updObs_sound h (by rw [if_pos hf]) (by rw [if_pos hf]) (by rw [if_pos hf])
  · exact updObs_sound h (by rw [if_neg hf]) (by rw [if_neg hf]) (by rw [if_neg hf])

theorem execRosemaryUnfreeze_sound {t : Nat} {h0 : CmdHdr} (h : Sound q f s) :
    SoundOut q f (execRosemaryUnfreeze t h0 s) := by
  unfold execRosemaryUnfreeze
  repeat' first
    | (with_reducible assumption)
    | extract_lets
    | (with_reducible refine sound_ite (fun _ => ?_) (fun _ => ?_))
    | (with_reducible refine State.isain_sound ?_ (fun _ _ => ?_))
    | (with_reducible apply reply_ok)
    | (with_reducible apply State.record_sound)
    | (refine updObs_sound ?_ rfl rfl rfl)

theorem execRosemaryClear_sound {t : Nat} {h0 : CmdHdr} {upto : Nat} (h : Sound q f s) :
    SoundOut q f (execRosemaryClear t h0 upto s) := by
  unfold execRosemaryClear
  refine State.isain_sound h fun s h => checks_sound ?_
  extract_lets s1
  have hc : Sound q f s.copyLog := State.copyLog_sound h
  have h1 : Sound q f s1 :=
    updObs_good hc hc.3.2 (rosemary_sublist hc.3.3 (List.filter_sublist.map _) (Nat.le_refl _))
  exact reply_ok (State.record_sound h1)

theorem execRosemaryRecord_sound {t kind unit : Nat} {data : List W64} (h : Sound q f s) :
    SoundOut q f (execRosemaryRecord t kind unit data s) := by
  unfold execRosemaryRecord
  repeat' first
    | (with_reducible assumption)
    | extract_lets
    | (with_reducible refine State.happen_sound ?_ (fun _ _ => ?_))
    | (with_reducible apply State.record_sound)
    | split
    | (dsimp +zetaDelta only)

theorem execRosemaryLogCopy_sound {t : Nat} (h : Sound q f s) : SoundOut q f (execRosemaryLogCopy t s) := by
  unfold execRosemaryLogCopy
  repeat' first
    | (with_reducible assumption)
    | extract_lets
    | (with_reducible refine State.happen_sound ?_ (fun _ _ => ?_))
    | (with_reducible apply State.copyLog_sound)

theorem execLogRead_sound {t : Nat} {h0 : CmdHdr} {start max : Nat} (h : Sound q f s) :
    SoundOut q f (execLogRead t h0 start max s) := by
  unfold execLogRead
  repeat' first
    | (with_reducible assumption)
    | extract_lets
    | (with_reducible refine State.isain_sound ?_ (fun _ _ => ?_))
    | (with_reducible apply reply_done)

theorem execTraceConfig_sound {t : Nat} {h0 : CmdHdr} {cluster ring mode post : Nat} {trig : W64} (h :
    Sound q f s) :
    SoundOut q f (execTraceConfig t h0 cluster ring mode post trig s) := by
  unfold execTraceConfig
  repeat' first
    | (with_reducible assumption)
    | extract_lets
    | (with_reducible refine sound_ite (fun _ => ?_) (fun _ => ?_))
    | (with_reducible refine State.isain_sound ?_ (fun _ _ => ?_))
    | (with_reducible apply checks_sound)
    | (with_reducible apply reply_ok)
    | (with_reducible apply State.countN_sound)
    | (with_reducible apply okReply_sound)
    | (with_reducible apply State.modCluster_sound)

theorem State.markCluster_sound {c kind mark : Nat} (h : Sound q f s) :
    Sound q f (State.markCluster c kind mark s) := by
  unfold State.markCluster
  repeat' first
    | (with_reducible assumption)
    | extract_lets
    | (with_reducible apply State.fresh_sound)
    | (with_reducible apply State.sendMark_sound)

theorem execTraceMarkBegin_sound {t : Nat} {h0 : CmdHdr} {cluster mark : Nat} (h : Sound q f s) :
    SoundOut q f (execTraceMarkBegin t h0 cluster mark s) := by
  unfold execTraceMarkBegin
  repeat' first
    | (with_reducible assumption)
    | extract_lets
    | (with_reducible refine State.isain_sound ?_ (fun _ _ => ?_))
    | (with_reducible apply checks_sound)
    | (with_reducible apply reply_ok)
    | (with_reducible apply State.markCluster_sound)

theorem execTraceMarkEnd_sound {t : Nat} {h0 : CmdHdr} {cluster mark : Nat} (h : Sound q f s) :
    SoundOut q f (execTraceMarkEnd t h0 cluster mark s) := by
  unfold execTraceMarkEnd
  repeat' first
    | (with_reducible assumption)
    | extract_lets
    | (with_reducible refine State.isain_sound ?_ (fun _ _ => ?_))
    | (with_reducible apply checks_sound)
    | (with_reducible apply reply_ok)
    | (with_reducible apply State.markCluster_sound)

theorem State.dillLoss_sound {c : Nat} (h : Sound q f s) : Sound q f (State.dillLoss c s) := by
  unfold State.dillLoss
  repeat' first
    | (with_reducible assumption)
    | extract_lets
    | (with_reducible refine sound_ite (fun _ => ?_) (fun _ => ?_))
    | (with_reducible apply State.ringItem_sound)
    | (with_reducible apply State.modCluster_sound)
    | (with_reducible apply State.trigStop_sound)
    | (with_reducible apply State.dillArrive_sound)
    | split

theorem State.roomFor_sound {n : Nat} {item : RingItem} (h : Sound q f s) :
    Sound q f (State.roomFor n item s) := by
  unfold State.roomFor
  repeat' first
    | (with_reducible assumption)
    | extract_lets
    | (with_reducible refine sound_ite (fun _ => ?_) (fun _ => ?_))
    | (with_reducible apply State.overwrite_sound)

theorem execDillDrain_sound {t cluster : Nat} (h : Sound q f s) :
    SoundOut q f (execDillDrain t cluster s) := by
  unfold execDillDrain
  repeat' first
    | (with_reducible assumption)
    | extract_lets
    | (with_reducible refine sound_ite (fun _ => ?_) (fun _ => ?_))
    | (with_reducible refine State.happen_sound ?_ (fun _ _ => ?_))
    | (with_reducible apply State.dillLoss_sound)
    | (with_reducible apply State.roomFor_sound)
    | (with_reducible apply State.ringItem_sound)
    | (with_reducible apply State.modCluster_sound)
    | split

theorem State.buildGraph_sound (h : Sound q f s) : Sound q f (State.buildGraph s) := by
  unfold State.buildGraph
  repeat' first
    | (with_reducible assumption)
    | extract_lets
    | (refine updObs_sound ?_ rfl rfl rfl)

theorem execWaitforRead_sound {t : Nat} {h0 : CmdHdr} {start max : Nat} (h : Sound q f s) :
    SoundOut q f (execWaitforRead t h0 start max s) := by
  unfold execWaitforRead
  repeat' first
    | (with_reducible assumption)
    | extract_lets
    | (with_reducible refine sound_ite (fun _ => ?_) (fun _ => ?_))
    | (with_reducible refine State.isain_sound ?_ (fun _ _ => ?_))
    | (with_reducible apply checks_sound)
    | (with_reducible apply reply_done)
    | (with_reducible apply State.buildGraph_sound)

end Sys2Proof.Machine
end

