-- ==== Sys2Proof/Laws/SoundUpdate.lean ====
section
/-! SUPPORT. The definitions of Machine/Update.lean keep a sound state: the queue, the fuses, memory in its
canonical form, the counters' bound and Rosemary's numbering. -/

namespace Sys2Proof.Machine

variable {q : List Instr} {f : Fuses} {s : State}

theorem State.renewLock_sound {h0 : CmdHdr} (h : Sound q f s) : Sound q f (State.renewLock h0 s) := by
  unfold State.renewLock
  repeat' first
    | (with_reducible assumption)
    | extract_lets
    | (with_reducible refine sound_ite (fun _ => ?_) (fun _ => ?_))
    | (with_reducible apply updBay_sound)

theorem State.discardLog_sound (h : Sound q f s) : Sound q f (State.discardLog s) := by
  unfold State.discardLog
  repeat' first
    | (with_reducible assumption)
    | extract_lets
    | (with_reducible apply State.bootLog_sound)
    | (with_reducible apply sound_mk)

theorem execUpdateOpen_sound {t : Nat} {h0 : CmdHdr} {len : Nat} (h : Sound q f s) :
    SoundOut q f (execUpdateOpen t h0 len s) := by
  unfold execUpdateOpen
  repeat' first
    | (with_reducible assumption)
    | extract_lets
    | (with_reducible refine sound_ite (fun _ => ?_) (fun _ => ?_))
    | (with_reducible refine State.isain_sound ?_ (fun _ _ => ?_))
    | (with_reducible apply checks_sound)
    | (with_reducible apply reply_ok)
    | (with_reducible apply State.discardLog_sound)
    | (with_reducible apply updBay_sound)

theorem execUpdateData_sound {t : Nat} {h0 : CmdHdr} {offset : Nat} {data : List Byte} (h : Sound q f s) :
    SoundOut q f (execUpdateData t h0 offset data s) := by
  unfold execUpdateData
  repeat' first
    | (with_reducible assumption)
    | extract_lets
    | (with_reducible refine State.isain_sound ?_ (fun _ _ => ?_))
    | (with_reducible apply checks_sound)
    | (with_reducible apply reply_ok)
    | (with_reducible apply State.renewLock_sound)
    | (with_reducible apply updBay_sound)

theorem State.tellConflict_sound {version : Nat} {digest : List Byte} {k : Nat} (h : Sound q f s) :
    Sound q f (State.tellConflict version digest k s) := by
  unfold State.tellConflict
  repeat' first
    | (with_reducible assumption)
    | extract_lets
    | (with_reducible apply State.recordEvent_sound)

theorem State.conflict_sound {version : Nat} {digest : List Byte} {k : Nat} (h : Sound q f s) :
    Sound q f (State.conflict version digest k s) := by
  unfold State.conflict
  repeat' first
    | (with_reducible assumption)
    | extract_lets
    | (with_reducible refine sound_ite (fun _ => ?_) (fun _ => ?_))
    | (with_reducible apply updBay_sound)
    | (with_reducible apply State.writeDir_sound)
    | (with_reducible apply State.tellConflict_sound)

theorem execUpdateFinish_sound {t : Nat} {h0 : CmdHdr} {sigOk : Bool} (h : Sound q f s) :
    SoundOut q f (execUpdateFinish t h0 sigOk s) := by
  unfold execUpdateFinish
  repeat' first
    | (with_reducible assumption)
    | extract_lets
    | (with_reducible refine sound_foldl ?_ (fun _ _ _ => ?_))
    | (with_reducible refine State.isain_sound ?_ (fun _ _ => ?_))
    | (with_reducible apply checks_sound)
    | (with_reducible apply reply_done)
    | (with_reducible apply State.renewLock_sound)
    | (with_reducible apply updBay_sound)
    | (with_reducible apply State.conflict_sound)
    | split

theorem execUpdateActivate_sound {t : Nat} {h0 : CmdHdr} (h : Sound q f s) :
    SoundOut q f (execUpdateActivate t h0 s) := by
  unfold execUpdateActivate
  repeat' first
    | (with_reducible assumption)
    | extract_lets
    | (with_reducible refine State.isain_sound ?_ (fun _ _ => ?_))
    | (with_reducible apply checks_sound)
    | (with_reducible apply reply_ok)
    | (with_reducible apply updBay_sound)

/-- The anti-rollback counter is the one fuse a command raises (R416). -/
theorem State.raiseSvn_sound (h : Sound q f s) :
    ∃ n, f.svn ≤ n ∧ Sound q { f with svn := n } s.raiseSvn := by
  unfold State.raiseSvn
  extract_lets svn s1 bad
  split
  · exact ⟨f.svn, Nat.le_refl _, h⟩
  · rename_i hlt
    have h1 : Sound q { f with svn := svn } s1 :=
      ⟨h.1, by show ({ s.fuses with svn := svn } : Fuses) = _; rw [h.2], ⟨h.3.1, h.3.2, h.3.3⟩⟩
    refine ⟨svn, by have := h.2; rw [this] at hlt; omega, ?_⟩
    split
    · exact h1
    · exact State.writeDir_sound h1

theorem execUpdateConfirm_sound {t : Nat} {h0 : CmdHdr} (h : Sound q f s) :
    ∀ s', execUpdateConfirm t h0 s = .next s' → ∃ n, f.svn ≤ n ∧ Sound q { f with svn := n } s' := by
  intro s' e
  have same : ∀ {x}, Sound q f x → ∃ n, f.svn ≤ n ∧ Sound q { f with svn := n } x :=
    fun hx => ⟨f.svn, Nat.le_refl _, hx⟩
  have ha := State.at_sound (t := t) h
  unfold execUpdateConfirm State.isain at e
  dsimp only at e
  split at e
  · cases e
    unfold State.runCmd
    split
    · exact same (State.answerRd_sound (by split <;> first | exact State.count_sound ha | exact ha))
    · split
      · exact same (State.answerRd_sound ha)
      · split
        · exact same (State.answerRd_sound ha)
        · split
          · exact same (State.answerRd_sound ha)
          · unfold checks
            split
            · exact same (State.answerRd_sound ha)
            · rename_i heq
              split
              · exact same (State.answerRd_sound ha)
              dsimp only at heq
              split at heq
              · cases heq
              · cases heq
                obtain ⟨n, hn, hs⟩ := State.raiseSvn_sound (updBay_sound (State.writeDir_sound ha))
                exact ⟨n, hn, State.answerRd_sound (State.renewLock_sound hs)⟩
            · rename_i heq
              dsimp only at heq
              split at heq
              · cases heq
              · cases heq
  · cases e
    exact same ha

theorem execUpdateRollback_sound {t : Nat} {h0 : CmdHdr} (h : Sound q f s) :
    SoundOut q f (execUpdateRollback t h0 s) := by
  unfold execUpdateRollback
  repeat' first
    | (with_reducible assumption)
    | extract_lets
    | (with_reducible refine State.isain_sound ?_ (fun _ _ => ?_))
    | (with_reducible apply checks_sound)
    | (with_reducible apply reply_ok)
    | (with_reducible apply State.renewLock_sound)
    | (with_reducible apply State.writeDir_sound)

theorem execUpdateAbort_sound {t : Nat} {h0 : CmdHdr} (h : Sound q f s) :
    SoundOut q f (execUpdateAbort t h0 s) := by
  unfold execUpdateAbort
  repeat' first
    | (with_reducible assumption)
    | extract_lets
    | (with_reducible refine State.isain_sound ?_ (fun _ _ => ?_))
    | (with_reducible apply checks_sound)
    | (with_reducible apply reply_ok)
    | (with_reducible apply updBay_sound)

theorem execUpdateStatus_sound {t : Nat} {h0 : CmdHdr} (h : Sound q f s) :
    SoundOut q f (execUpdateStatus t h0 s) := by
  unfold execUpdateStatus
  repeat' first
    | (with_reducible assumption)
    | extract_lets
    | (with_reducible refine State.isain_sound ?_ (fun _ _ => ?_))
    | (with_reducible apply State.renewLock_sound)
    | (with_reducible apply reply_done)

theorem execUpdateLockExpiry_sound {t : Nat} (h : Sound q f s) :
    SoundOut q f (execUpdateLockExpiry t s) := by
  unfold execUpdateLockExpiry
  repeat' first
    | (with_reducible assumption)
    | extract_lets
    | (with_reducible refine State.happen_sound ?_ (fun _ _ => ?_))
    | (with_reducible apply updBay_sound)

theorem execBootStatus_sound {t : Nat} {h0 : CmdHdr} (h : Sound q f s) :
    SoundOut q f (execBootStatus t h0 s) := by
  unfold execBootStatus
  repeat' first
    | (with_reducible assumption)
    | extract_lets
    | (with_reducible refine State.isain_sound ?_ (fun _ _ => ?_))
    | (with_reducible apply reply_done)

theorem execSettingsSync_sound {t : Nat} {h0 : CmdHdr} (h : Sound q f s) :
    SoundOut q f (execSettingsSync t h0 s) := by
  unfold execSettingsSync
  repeat' first
    | (with_reducible assumption)
    | extract_lets
    | (with_reducible refine State.isain_sound ?_ (fun _ _ => ?_))
    | (with_reducible apply reply_wait)
    | (with_reducible apply reply_ok)
    | (with_reducible apply updBay_sound)
    | split

theorem execSettingsAppend_sound {t len : Nat} (h : Sound q f s) :
    SoundOut q f (execSettingsAppend t len s) := by
  unfold execSettingsAppend
  repeat' first
    | (with_reducible assumption)
    | extract_lets
    | (with_reducible refine sound_foldl ?_ (fun _ _ _ => ?_))
    | (with_reducible refine sound_foldl_fst ?_ (fun _ _ _ => ?_))
    | (with_reducible refine State.happen_sound ?_ (fun _ _ => ?_))
    | (with_reducible apply State.answer_sound)
    | (with_reducible apply State.appendStore_sound)
    | (with_reducible apply State.fabStored_sound)
    | (with_reducible apply updBay_sound)
    | (with_reducible refine sound_ite (fun _ => ?_) (fun _ => ?_))
    | split

theorem execCertRead_sound {t : Nat} {h0 : CmdHdr} {start max : Nat} (h : Sound q f s) :
    SoundOut q f (execCertRead t h0 start max s) := by
  unfold execCertRead
  repeat' first
    | (with_reducible assumption)
    | extract_lets
    | (with_reducible refine State.isain_sound ?_ (fun _ _ => ?_))
    | (with_reducible apply reply_done)

theorem execAttest_sound {t : Nat} {h0 : CmdHdr} {nonce : List Byte} {repAddr : Nat} {sig : List Byte} (h
    : Sound q f s) :
    SoundOut q f (execAttest t h0 nonce repAddr sig s) := by
  unfold execAttest
  generalize reportLen = len
  exact State.isain_sound h fun _ h => checks_sound (reply_done (State.poke_sound h))

theorem execSessionKeySet_sound {t : Nat} {h0 : CmdHdr} {part : Nat} {kemCt : List Byte} {wrapped : BitVec
    256} (h : Sound q f s) :
    SoundOut q f (execSessionKeySet t h0 part kemCt wrapped s) := by
  unfold execSessionKeySet
  repeat' first
    | (with_reducible assumption)
    | extract_lets
    | (with_reducible refine State.isain_sound ?_ (fun _ _ => ?_))
    | (with_reducible apply checks_sound)
    | (with_reducible apply reply_ok)
    | (with_reducible apply okReply_sound)
    | (with_reducible apply State.keep_sound)
    | (with_reducible apply updOuv_sound)

theorem execRightsSet_sound {t : Nat} {h0 : CmdHdr} {part : Nat} {rights : W16} (h : Sound q f s) :
    SoundOut q f (execRightsSet t h0 part rights s) := by
  unfold execRightsSet
  repeat' first
    | (with_reducible assumption)
    | extract_lets
    | (with_reducible refine State.isain_sound ?_ (fun _ _ => ?_))
    | (with_reducible apply checks_sound)
    | (with_reducible apply reply_ok)
    | (with_reducible apply State.modPart_sound)
    | (with_reducible apply okReply_sound)
    | (with_reducible apply State.keepPart_sound)

theorem execDebugUnlock_sound {t : Nat} {h0 : CmdHdr} {tokAddr tokLen : Nat} {sigOk : Bool} (h : Sound q f
    s) :
    SoundOut q f (execDebugUnlock t h0 tokAddr tokLen sigOk s) := by
  unfold execDebugUnlock
  repeat' first
    | (with_reducible assumption)
    | extract_lets
    | (with_reducible refine sound_foldl ?_ (fun _ _ _ => ?_))
    | (with_reducible refine State.isain_sound ?_ (fun _ _ => ?_))
    | (with_reducible apply checks_sound)
    | (with_reducible refine Reply.after_sound ?_ ?_)
    | (with_reducible apply reply_ok)
    | (with_reducible apply State.touch_sound)
    | (with_reducible apply updOuv_sound)
    | (with_reducible apply updPkg_sound)
    | (with_reducible apply State.closeSession_sound)
    | (with_reducible apply State.recordEvent_sound)

end Sys2Proof.Machine
end

