-- ==== Sys2Proof/Laws/Tables.lean ====
section
/-! SUPPORT. What the table operations answer, and the reads of the state's tables after a change of one
entry. -/

namespace Sys2Proof.Machine

section tables

variable {α : Type}

@[simp] theorem tget_tset (t : Tab α) (k : Nat) (v : α) : tget (tset t k v) k = some v := by
  induction t with
  | nil => simp [tset, tget]
  | cons e r ih =>
    obtain ⟨k', v'⟩ := e
    unfold tset
    split
    · simp [tget]
    · split
      · simp [tget]
      · rename_i h
        simp [tget, Ne.symm h, ih]

/-- Another key keeps its value. -/
theorem tget_tset_ne (t : Tab α) {k j : Nat} (v : α) (h : j ≠ k) : tget (tset t k v) j = tget t j := by
  induction t with
  | nil => simp [tset, tget, Ne.symm h]
  | cons e r ih =>
    obtain ⟨k', v'⟩ := e
    unfold tset
    split
    · simp [tget, Ne.symm h]
    · split
      · rename_i h2
        subst h2
        simp [tget, Ne.symm h]
      · simp only [tget, ih]

@[simp] theorem tget_tdel (t : Tab α) (k : Nat) : tget (tdel t k) k = none := by
  induction t with
  | nil => rfl
  | cons e r ih =>
    obtain ⟨k', v'⟩ := e
    unfold tdel at ih ⊢
    by_cases h : k' = k
    · subst h; simpa using ih
    · simp [h, tget, ih]

/-- Another key keeps its value. -/
theorem tget_tdel_ne (t : Tab α) {k j : Nat} (h : j ≠ k) : tget (tdel t k) j = tget t j := by
  induction t with
  | nil => rfl
  | cons e r ih =>
    obtain ⟨k', v'⟩ := e
    unfold tdel at ih ⊢
    by_cases h2 : k' = k
    · subst h2; simp [tget, Ne.symm h, ih]
    · simp [h2, tget, ih]

@[simp] theorem tget_tup (t : Tab α) (k : Nat) (d : α) (f : α → α) :
    tget (tup t k d f) k = some (f (tgetD t k d)) := by
  simp [tup]

@[simp] theorem tgetD_tset (t : Tab α) (k : Nat) (v d : α) : tgetD (tset t k v) k d = v := by
  simp [tgetD]

@[simp] theorem tgetD_tup (t : Tab α) (k : Nat) (d : α) (f : α → α) :
    tgetD (tup t k d f) k d = f (tgetD t k d) := by
  simp [tup]

/-- Another key keeps its value. -/
theorem tgetD_tup_ne (t : Tab α) {k j : Nat} (d : α) (f : α → α) (h : j ≠ k) :
    tgetD (tup t k d f) j d = tgetD t j d := by
  simp [tup, tgetD, tget_tset_ne t _ h]

/-- A held value changed. -/
theorem tget_tmod (t : Tab α) (k : Nat) (f : α → α) : tget (tmod t k f) k = (tget t k).map f := by
  unfold tmod
  cases h : tget t k <;> simp [h]

/-- Another key keeps its value. -/
theorem tget_tmod_ne (t : Tab α) {k j : Nat} (f : α → α) (h : j ≠ k) :
    tget (tmod t k f) j = tget t j := by
  unfold tmod
  split
  · exact tget_tset_ne t _ h
  · rfl

end tables

variable (s : State)

@[simp] theorem State.port_modPort (p : Nat) (f : Port → Port) :
    (s.modPort p f).port p = f (s.port p) := tgetD_tup s.ports p {} f
@[simp] theorem State.ifc_modIfc (i : Nat) (f : Ifc → Ifc) :
    (s.modIfc i f).ifc i = f (s.ifc i) := tgetD_tup s.ifcs i {} f
@[simp] theorem State.part_modPart (p : Nat) (f : Partition → Partition) :
    (s.modPart p f).part p = f (s.part p) := tgetD_tup s.parts p {} f
@[simp] theorem State.cluster_modCluster (c : Nat) (f : Cluster → Cluster) :
    (s.modCluster c f).cluster c = f (s.cluster c) := tgetD_tup s.comp.clusters c {} f
@[simp] theorem State.core_modCore (p : Nat) (f : Core → Core) :
    (s.modCore p f).core p = f (s.core p) := tgetD_tup s.comp.cores p {} f
@[simp] theorem State.session_modSession (sid : Nat) (f : Session → Session) :
    (s.modSession sid f).session sid = (s.session sid).map f := tget_tmod s.ouv.sessions sid f
@[simp] theorem State.ring_setRing (n : Nat) (r : Ring) : (s.setRing n r).ring n = r :=
  tgetD_tset s.rings.ctx n r {}
@[simp] theorem State.ring_modRing (n : Nat) (f : Ring → Ring) :
    (s.modRing n f).ring n = f (s.ring n) := tgetD_tset s.rings.ctx n (f (s.ring n)) {}
@[simp] theorem State.slot_setSlot (k : Nat) (x : Slot) : (s.setSlot k x).slot k = x :=
  tgetD_tset s.rings.slots k x {}
@[simp] theorem State.slot_modSlot (k : Nat) (f : Slot → Slot) :
    (s.modSlot k f).slot k = f (s.slot k) := tgetD_tset s.rings.slots k (f (s.slot k)) {}
@[simp] theorem State.domain_modDomain (d : Nat) (f : Domain → Domain) :
    (s.modDomain d f).domain d = f (s.domain d) := tgetD_tup s.models.domains d {} f
@[simp] theorem State.pipe_modPipe (p : Nat) (f : Pipeline → Pipeline) :
    (s.modPipe p f).pipe p = f (s.pipe p) := tgetD_tup s.cls.pipes p {} f
@[simp] theorem State.queue_modQueue (ifc q : Nat) (f : Queue → Queue) :
    (s.modQueue ifc q f).queue ifc q = f (s.queue ifc q) := tgetD_tup s.eg.queues (qKey ifc q) {} f
@[simp] theorem State.peer_modPeer (a : Nat) (f : Peer → Peer) :
    (s.modPeer a f).peer a = f (s.peer a) := tgetD_tup s.fab.peers a {} f
@[simp] theorem State.region_modRegion (g : Nat) (f : Region → Region) :
    (s.modRegion g f).region g = f (s.region g) := tgetD_tup s.mem.regions g {} f
@[simp] theorem State.frame_modFrame (id : Nat) (f : Frame → Frame) :
    (s.modFrame id f).frame id = (s.frame id).map f := tget_tmod s.parser.frames id f

end Sys2Proof.Machine
end

