-- ==== Sys2Proof/Laws/Tick.lean ====
section
/-! SUPPORT. What does not depend on the time: each of these reads the same after time has moved on. -/

namespace Sys2Proof.Machine

@[simp] theorem State.admits_at (t : Nat) (n : Nat) (s : State) :
    State.admits n (s.at t) = State.admits n s := rfl

@[simp] theorem State.alive_at (t : Nat) (s : State) :
    State.alive (s.at t) = State.alive s := rfl

@[simp] theorem State.argBytes_at (t : Nat) (a : Nat) (m : Model) (s : State) :
    State.argBytes a m (s.at t) = State.argBytes a m s := rfl

@[simp] theorem State.arrayEdges_at (t : Nat) (s : State) :
    State.arrayEdges (s.at t) = State.arrayEdges s := rfl

@[simp] theorem State.assignDone_at (t : Nat) (h : CmdHdr) (s : State) :
    State.assignDone h (s.at t) = State.assignDone h s := rfl

@[simp] theorem State.badHeader_at (t : Nat) (f : OuvHdr) (want : Nat) (session : Bool) (s : State) :
    State.badHeader f want session (s.at t) = State.badHeader f want session s := rfl

@[simp] theorem State.barrier_at (t : Nat) (part : Nat) (idx : Nat) (s : State) :
    State.barrier part idx (s.at t) = State.barrier part idx s := rfl

@[simp] theorem State.barrierDone_at (t : Nat) (b : Barrier) (s : State) :
    State.barrierDone b (s.at t) = State.barrierDone b s := rfl

@[simp] theorem State.barrierEdges_at (t : Nat) (s : State) :
    State.barrierEdges (s.at t) = State.barrierEdges s := rfl

@[simp] theorem State.barriersOf_at (t : Nat) (part : Nat) (s : State) :
    State.barriersOf part (s.at t) = State.barriersOf part s := rfl

@[simp] theorem State.baselineChecks_at (t : Nat) (part : Nat) (spec : BaselineSpec) (x : Baseline) (s : State) :
    State.baselineChecks part spec x (s.at t) = State.baselineChecks part spec x s := rfl

@[simp] theorem State.baseline_at (t : Nat) (bl : Nat) (s : State) :
    State.baseline bl (s.at t) = State.baseline bl s := rfl

@[simp] theorem State.baselineOwner_at (t : Nat) (bl : Nat) (s : State) :
    State.baselineOwner bl (s.at t) = State.baselineOwner bl s := rfl

@[simp] theorem State.bfd_at (t : Nat) (ifc : Nat) (sess : Nat) (s : State) :
    State.bfd ifc sess (s.at t) = State.bfd ifc sess s := rfl

@[simp] theorem State.bindingWhole_at (t : Nat) (part : Nat) (m : Model) (b : Binding) (s : State) :
    State.bindingWhole part m b (s.at t) = State.bindingWhole part m b s := rfl

@[simp] theorem State.blobBad_at (t : Nat) (x : Slot) (off : Nat) (n : Nat) (s : State) :
    State.blobBad x off n (s.at t) = State.blobBad x off n s := rfl

@[simp] theorem State.blobFaults_at (t : Nat) (m : Model) (x : Slot) (s : State) :
    State.blobFaults m x (s.at t) = State.blobFaults m x s := rfl

@[simp] theorem State.blobWord_at (t : Nat) (x : Slot) (off : Nat) (n : Nat) (s : State) :
    State.blobWord x off n (s.at t) = State.blobWord x off n s := rfl

@[simp] theorem State.bootCountNow_at (t : Nat) (s : State) :
    State.bootCountNow (s.at t) = State.bootCountNow s := rfl

@[simp] theorem State.bufferUse_at (t : Nat) (s : State) :
    State.bufferUse (s.at t) = State.bufferUse s := rfl

@[simp] theorem State.buildItem_at (t : Nat) (m : Model) (x : Slot) (item : Nat) (s : State) :
    State.buildItem m x item (s.at t) = State.buildItem m x item s := rfl

@[simp] theorem State.bytesAt_at (t : Nat) (a : Nat) (n : Nat) (s : State) :
    State.bytesAt a n (s.at t) = State.bytesAt a n s := rfl

@[simp] theorem State.cached_at (t : Nat) (n : Nat) (s : State) :
    State.cached n (s.at t) = State.cached n s := rfl

@[simp] theorem State.canArm_at (t : Nat) (s : State) :
    State.canArm (s.at t) = State.canArm s := rfl

@[simp] theorem State.canServe_at (t : Nat) (p : Nat) (s : State) :
    State.canServe p (s.at t) = State.canServe p s := rfl

@[simp] theorem State.candidate_at (t : Nat) (s : State) :
    State.candidate (s.at t) = State.candidate s := rfl

@[simp] theorem State.carrierIfc_at (t : Nat) (h : CmdHdr) (s : State) :
    State.carrierIfc h (s.at t) = State.carrierIfc h s := rfl

@[simp] theorem State.carrierPart_at (t : Nat) (h : CmdHdr) (op : Nat) (s : State) :
    State.carrierPart h op (s.at t) = State.carrierPart h op s := rfl

@[simp] theorem State.cellNamed_at (t : Nat) (handle : Nat) (s : State) :
    State.cellNamed handle (s.at t) = State.cellNamed handle s := rfl

@[simp] theorem State.cellRows_at (t : Nat) (a : Nat) (k : Nat) (m : Nat) (s : State) :
    State.cellRows a k m (s.at t) = State.cellRows a k m s := rfl

@[simp] theorem State.chooseBinding_at (t : Nat) (part : Nat) (lead : Nat) (m : Model) (s : State) :
    State.chooseBinding part lead m (s.at t) = State.chooseBinding part lead m s := rfl

@[simp] theorem State.clkMin_at (t : Nat) (s : State) :
    State.clkMin (s.at t) = State.clkMin s := rfl

@[simp] theorem State.closed_at (t : Nat) (s : State) :
    State.closed (s.at t) = State.closed s := rfl

@[simp] theorem State.closing_at (t : Nat) (c : Nat) (i : Nat) (s : State) :
    State.closing c i (s.at t) = State.closing c i s := rfl

@[simp] theorem State.clsIfc_at (t : Nat) (i : Nat) (s : State) :
    State.clsIfc i (s.at t) = State.clsIfc i s := rfl

@[simp] theorem State.clsSetting_at (t : Nat) (id : Nat) (k : Nat) (s : State) :
    State.clsSetting id k (s.at t) = State.clsSetting id k s := rfl

@[simp] theorem State.clsVal_at (t : Nat) (s : State) :
    State.clsVal (s.at t) = State.clsVal s := rfl

@[simp] theorem State.cluster_at (t : Nat) (c : Nat) (s : State) :
    State.cluster c (s.at t) = State.cluster c s := rfl

@[simp] theorem State.clusterCounter_at (t : Nat) (c : Nat) (k : Nat × Nat) (s : State) :
    State.clusterCounter c k (s.at t) = State.clusterCounter c k s := rfl

@[simp] theorem State.clusterIdle_at (t : Nat) (c : Nat) (s : State) :
    State.clusterIdle c (s.at t) = State.clusterIdle c s := rfl

@[simp] theorem State.clustersOf_at (t : Nat) (owner : Nat) (s : State) :
    State.clustersOf owner (s.at t) = State.clustersOf owner s := rfl

@[simp] theorem State.clustersVal_at (t : Nat) (s : State) :
    State.clustersVal (s.at t) = State.clustersVal s := rfl

@[simp] theorem State.commitChecks_at (t : Nat) (h : CmdHdr) (pairs : List (Nat × Nat)) (s : State) :
    State.commitChecks h pairs (s.at t) = State.commitChecks h pairs s := rfl

@[simp] theorem State.commitEdges_at (t : Nat) (s : State) :
    State.commitEdges (s.at t) = State.commitEdges s := rfl

@[simp] theorem State.commitWaits_at (t : Nat) (d : Nat) (s : State) :
    State.commitWaits d (s.at t) = State.commitWaits d s := rfl

@[simp] theorem State.containerGood_at (t : Nat) (d : Nat) (a : Nat) (len : Nat) (m : Model) (s : State) :
    State.containerGood d a len m (s.at t) = State.containerGood d a len m s := rfl

@[simp] theorem State.backDiffers_at (t : Nat) (x : FTable) (s : State) :
    State.backDiffers x (s.at t) = State.backDiffers x s := rfl

@[simp] theorem State.contradicts_at (t : Nat) (x : FTable) (s : State) :
    State.contradicts x (s.at t) = State.contradicts x s := rfl

@[simp] theorem State.coordIp_at (t : Nat) (s : State) :
    State.coordIp (s.at t) = State.coordIp s := rfl

@[simp] theorem State.copyRingChk_at (t : Nat) (r : SetRec) (s : State) :
    State.copyRingChk r (s.at t) = State.copyRingChk r s := rfl

@[simp] theorem State.copyRingOk_at (t : Nat) (n : Nat) (s : State) :
    State.copyRingOk n (s.at t) = State.copyRingOk n s := rfl

@[simp] theorem State.core_at (t : Nat) (p : Nat) (s : State) :
    State.core p (s.at t) = State.core p s := rfl

@[simp] theorem State.coreAt_at (t : Nat) (c : Nat) (k : Nat) (s : State) :
    State.coreAt c k (s.at t) = State.coreAt c k s := rfl

@[simp] theorem State.coreCluster_at (t : Nat) (p : Nat) (s : State) :
    State.coreCluster p (s.at t) = State.coreCluster p s := rfl

@[simp] theorem State.coreOwner_at (t : Nat) (p : Nat) (s : State) :
    State.coreOwner p (s.at t) = State.coreOwner p s := rfl

@[simp] theorem State.coreScope_at (t : Nat) (p : Nat) (s : State) :
    State.coreScope p (s.at t) = State.coreScope p s := rfl

@[simp] theorem State.coreServed_at (t : Nat) (c : Nat) (k : Nat) (s : State) :
    State.coreServed c k (s.at t) = State.coreServed c k s := rfl

@[simp] theorem State.coresIn_at (t : Nat) (c : Nat) (s : State) :
    State.coresIn c (s.at t) = State.coresIn c s := rfl

@[simp] theorem State.counter_at (t : Nat) (id : Nat) (scope : Nat) (s : State) :
    State.counter id scope (s.at t) = State.counter id scope s := rfl

@[simp] theorem State.counterChk_at (t : Nat) (p : Nat) (ids : List CounterId) (s : State) :
    State.counterChk p ids (s.at t) = State.counterChk p ids s := rfl

@[simp] theorem State.counterOpen_at (t : Nat) (p : Nat) (k : ScopeKind) (w : Nat) (s : State) :
    State.counterOpen p k w (s.at t) = State.counterOpen p k w s := rfl

@[simp] theorem State.counterWords_at (t : Nat) (ids : List CounterId) (s : State) :
    State.counterWords ids (s.at t) = State.counterWords ids s := rfl

@[simp] theorem State.cqAllowed_at (t : Nat) (rtype : Nat) (owner : Nat) (cq : Nat) (s : State) :
    State.cqAllowed rtype owner cq (s.at t) = State.cqAllowed rtype owner cq s := rfl

@[simp] theorem State.creditFor_at (t : Nat) (x : Session) (s : State) :
    State.creditFor x (s.at t) = State.creditFor x s := rfl

@[simp] theorem State.ctlOffset_at (t : Nat) (f : OuvHdr) (x : Session) (pipe : Nat) (s : State) :
    State.ctlOffset f x pipe (s.at t) = State.ctlOffset f x pipe s := rfl

@[simp] theorem State.ctx_at (t : Nat) (p : Nat) (k : Nat) (s : State) :
    State.ctx p k (s.at t) = State.ctx p k s := rfl

@[simp] theorem State.ctxDesc_at (t : Nat) (core : Nat) (ctx : Nat) (s : State) :
    State.ctxDesc core ctx (s.at t) = State.ctxDesc core ctx s := rfl

@[simp] theorem State.cutoff_at (t : Nat) (k : Nat) (s : State) :
    State.cutoff k (s.at t) = State.cutoff k s := rfl

@[simp] theorem State.descriptors_at (t : Nat) (s : State) :
    State.descriptors (s.at t) = State.descriptors s := rfl

@[simp] theorem State.destGood_at (t : Nat) (c : Nat) (len : Nat) (d : GroupDest) (s : State) :
    State.destGood c len d (s.at t) = State.destGood c len d s := rfl

@[simp] theorem State.devStateCode_at (t : Nat) (s : State) :
    State.devStateCode (s.at t) = State.devStateCode s := rfl

@[simp] theorem State.deviceVal_at (t : Nat) (s : State) :
    State.deviceVal (s.at t) = State.deviceVal s := rfl

@[simp] theorem State.dieMv_at (t : Nat) (die : Nat) (s : State) :
    State.dieMv die (s.at t) = State.dieMv die s := rfl

@[simp] theorem State.dirClean_at (t : Nat) (a : Nat) (s : State) :
    State.dirClean a (s.at t) = State.dirClean a s := rfl

@[simp] theorem State.dmaSpace_at (t : Nat) (c : Nat) (sp : Nat) (core : Nat) (s : State) :
    State.dmaSpace c sp core (s.at t) = State.dmaSpace c sp core s := rfl

@[simp] theorem State.domain_at (t : Nat) (d : Nat) (s : State) :
    State.domain d (s.at t) = State.domain d s := rfl

@[simp] theorem State.domainBusy_at (t : Nat) (d : Nat) (s : State) :
    State.domainBusy d (s.at t) = State.domainBusy d s := rfl

@[simp] theorem State.drainIfcs_at (t : Nat) (port : Nat) (s : State) :
    State.drainIfcs port (s.at t) = State.drainIfcs port s := rfl

@[simp] theorem State.edges_at (t : Nat) (s : State) :
    State.edges (s.at t) = State.edges s := rfl

@[simp] theorem State.egressSetting_at (t : Nat) (id : Nat) (k : Nat) (s : State) :
    State.egressSetting id k (s.at t) = State.egressSetting id k s := rfl

@[simp] theorem State.egressVal_at (t : Nat) (s : State) :
    State.egressVal (s.at t) = State.egressVal s := rfl

@[simp] theorem State.encBytes_at (t : Nat) (x : Slot) (r : InputRec) (c : Cell) (s : State) :
    State.encBytes x r c (s.at t) = State.encBytes x r c s := rfl

@[simp] theorem State.encode_at (t : Nat) (x : Slot) (r : InputRec) (c : Cell) (s : State) :
    State.encode x r c (s.at t) = State.encode x r c s := rfl

@[simp] theorem State.enter_at (t : Nat) (f : OuvHdr) (want : Nat) (s : State) :
    State.enter f want (s.at t) = State.enter f want s := rfl

@[simp] theorem State.entryBad_at (t : Nat) (ctx : Nat) (e : SpreadEntry) (s : State) :
    State.entryBad ctx e (s.at t) = State.entryBad ctx e s := rfl

@[simp] theorem State.entryOwner_at (t : Nat) (e : MapEntry) (s : State) :
    State.entryOwner e (s.at t) = State.entryOwner e s := rfl

@[simp] theorem State.entryReadable_at (t : Nat) (n : Nat) (i : W32) (s : State) :
    State.entryReadable n i (s.at t) = State.entryReadable n i s := rfl

@[simp] theorem State.entryWord_at (t : Nat) (e : MapEntry) (s : State) :
    State.entryWord e (s.at t) = State.entryWord e s := rfl

@[simp] theorem State.entryWords_at (t : Nat) (n : Nat) (i : W32) (s : State) :
    State.entryWords n i (s.at t) = State.entryWords n i s := rfl

@[simp] theorem State.epochHeld_at (t : Nat) (d : Nat) (e : Nat) (s : State) :
    State.epochHeld d e (s.at t) = State.epochHeld d e s := rfl

@[simp] theorem State.eventRing_at (t : Nat) (part : Nat) (s : State) :
    State.eventRing part (s.at t) = State.eventRing part s := rfl

@[simp] theorem State.fabLinks_at (t : Nat) (s : State) :
    State.fabLinks (s.at t) = State.fabLinks s := rfl

@[simp] theorem State.fabUp_at (t : Nat) (s : State) :
    State.fabUp (s.at t) = State.fabUp s := rfl

@[simp] theorem State.fallbackGen_at (t : Nat) (f : Fetch) (s : State) :
    State.fallbackGen f (s.at t) = State.fallbackGen f s := rfl

@[simp] theorem State.faultCookie_at (t : Nat) (n : Nat) (i : W32) (ws : List W64) (s : State) :
    State.faultCookie n i ws (s.at t) = State.faultCookie n i ws s := rfl

@[simp] theorem State.featIn_at (t : Nat) (m : Model) (x : Slot) (r : InputRec) (item : Nat) (j : Nat) (s : State) :
    State.featIn m x r item j (s.at t) = State.featIn m x r item j s := rfl

@[simp] theorem State.fenceEdges_at (t : Nat) (s : State) :
    State.fenceEdges (s.at t) = State.fenceEdges s := rfl

@[simp] theorem State.fetch_at (t : Nat) (tag : Nat) (s : State) :
    State.fetch tag (s.at t) = State.fetch tag s := rfl

@[simp] theorem State.fetchKey_at (t : Nat) (x : Slot) (r : InputRec) (item : Nat) (s : State) :
    State.fetchKey x r item (s.at t) = State.fetchKey x r item s := rfl

@[simp] theorem State.fetchesGood_at (t : Nat) (m : Model) (s : State) :
    State.fetchesGood m (s.at t) = State.fetchesGood m s := rfl

@[simp] theorem State.fetchesTo_at (t : Nat) (a : Nat) (s : State) :
    State.fetchesTo a (s.at t) = State.fetchesTo a s := rfl

@[simp] theorem State.fitsGroup_at (t : Nat) (c : Nat) (group : Nat) (data : Option (List W32)) (s : State) :
    State.fitsGroup c group data (s.at t) = State.fitsGroup c group data s := rfl

@[simp] theorem State.flowFeatures_at (t : Nat) (p : Nat) (i : Nat) (r : Nat) (iat : Nat) (s : State) :
    State.flowFeatures p i r iat (s.at t) = State.flowFeatures p i r iat s := rfl

@[simp] theorem State.flowLocked_at (t : Nat) (p : Nat) (s : State) :
    State.flowLocked p (s.at t) = State.flowLocked p s := rfl

@[simp] theorem State.foreign_at (t : Nat) (d : Nat) (bs : List (List Nat)) (s : State) :
    State.foreign d bs (s.at t) = State.foreign d bs s := rfl

@[simp] theorem State.frame_at (t : Nat) (id : Nat) (s : State) :
    State.frame id (s.at t) = State.frame id s := rfl

@[simp] theorem State.frameHash_at (t : Nat) (ctx : Nat) (f : Frame) (s : State) :
    State.frameHash ctx f (s.at t) = State.frameHash ctx f s := rfl

@[simp] theorem State.frameRoom_at (t : Nat) (s : State) :
    State.frameRoom (s.at t) = State.frameRoom s := rfl

@[simp] theorem State.framesLen_at (t : Nat) (l : List Nat) (s : State) :
    State.framesLen l (s.at t) = State.framesLen l s := rfl

@[simp] theorem State.freeBarrier_at (t : Nat) (part : Nat) (s : State) :
    State.freeBarrier part (s.at t) = State.freeBarrier part s := rfl

@[simp] theorem State.freeEntry_at (t : Nat) (pipe : Nat) (k : FlowKey) (s : State) :
    State.freeEntry pipe k (s.at t) = State.freeEntry pipe k s := rfl

@[simp] theorem State.gates_at (t : Nat) (ifc : Nat) (s : State) :
    State.gates ifc (s.at t) = State.gates ifc s := rfl

@[simp] theorem State.genOf_at (t : Nat) (table : Nat) (g : Nat) (s : State) :
    State.genOf table g (s.at t) = State.genOf table g s := rfl

@[simp] theorem State.genRetired_at (t : Nat) (table : Nat) (g : Nat) (s : State) :
    State.genRetired table g (s.at t) = State.genRetired table g s := rfl

@[simp] theorem State.groupDest_at (t : Nat) (dest : Nat × Nat) (s : State) :
    State.groupDest dest (s.at t) = State.groupDest dest s := rfl

@[simp] theorem State.groupsOpen_at (t : Nat) (c : Nat) (k : Nat) (gen : Nat) (s : State) :
    State.groupsOpen c k gen (s.at t) = State.groupsOpen c k gen s := rfl

@[simp] theorem State.halfReadable_at (t : Nat) (p : Nat) (i : Nat) (s : State) :
    State.halfReadable p i (s.at t) = State.halfReadable p i s := rfl

@[simp] theorem State.hasAddr_at (t : Nat) (i : Nat) (a : BitVec 128) (s : State) :
    State.hasAddr i a (s.at t) = State.hasAddr i a s := rfl

@[simp] theorem State.hasBaseline_at (t : Nat) (bl : Nat) (s : State) :
    State.hasBaseline bl (s.at t) = State.hasBaseline bl s := rfl

@[simp] theorem State.hasKey_at (t : Nat) (part : Nat) (ifc : Nat) (s : State) :
    State.hasKey part ifc (s.at t) = State.hasKey part ifc s := rfl

@[simp] theorem State.hasTable_at (t : Nat) (table : Nat) (s : State) :
    State.hasTable table (s.at t) = State.hasTable table s := rfl

@[simp] theorem State.headGood_at (t : Nat) (a : Nat) (len : Nat) (s : State) :
    State.headGood a len (s.at t) = State.headGood a len s := rfl

@[simp] theorem State.headOf_at (t : Nat) (ifc : Nat) (q : Nat) (s : State) :
    State.headOf ifc q (s.at t) = State.headOf ifc q s := rfl

@[simp] theorem State.headerDenies_at (t : Nat) (y : Generation) (s : State) :
    State.headerDenies y (s.at t) = State.headerDenies y s := rfl

@[simp] theorem State.headerGood_at (t : Nat) (y : Generation) (s : State) :
    State.headerGood y (s.at t) = State.headerGood y s := rfl

@[simp] theorem State.headroom_at (t : Nat) (s : State) :
    State.headroom (s.at t) = State.headroom s := rfl

@[simp] theorem State.hears_at (t : Nat) (i : Nat) (s : State) :
    State.hears i (s.at t) = State.hears i s := rfl

@[simp] theorem State.heldBack_at (t : Nat) (n : Nat) (i : W32) (s : State) :
    State.heldBack n i (s.at t) = State.heldBack n i s := rfl

@[simp] theorem State.heldFor_at (t : Nat) (home : Nat) (s : State) :
    State.heldFor home (s.at t) = State.heldFor home s := rfl

@[simp] theorem State.heldModels_at (t : Nat) (s : State) :
    State.heldModels (s.at t) = State.heldModels s := rfl

@[simp] theorem State.holdEdges_at (t : Nat) (s : State) :
    State.holdEdges (s.at t) = State.holdEdges s := rfl

@[simp] theorem State.holdsAnything_at (t : Nat) (p : Nat) (s : State) :
    State.holdsAnything p (s.at t) = State.holdsAnything p s := rfl

@[simp] theorem State.holdsLock_at (t : Nat) (h : CmdHdr) (s : State) :
    State.holdsLock h (s.at t) = State.holdsLock h s := rfl

@[simp] theorem State.holdsModel_at (t : Nat) (p : Nat) (m : Model) (s : State) :
    State.holdsModel p m (s.at t) = State.holdsModel p m s := rfl

@[simp] theorem State.homeOf_at (t : Nat) (x : FTable) (g : Generation) (key : W64) (s : State) :
    State.homeOf x g key (s.at t) = State.homeOf x g key s := rfl

@[simp] theorem State.homeReadable_at (t : Nat) (x : FTable) (g : Generation) (key : W64) (s : State) :
    State.homeReadable x g key (s.at t) = State.homeReadable x g key s := rfl

@[simp] theorem State.ifc_at (t : Nat) (i : Nat) (s : State) :
    State.ifc i (s.at t) = State.ifc i s := rfl

@[simp] theorem State.imageMeets_at (t : Nat) (base : Nat) (n : Nat) (s : State) :
    State.imageMeets base n (s.at t) = State.imageMeets base n s := rfl

@[simp] theorem State.inRom_at (t : Nat) (s : State) :
    State.inRom (s.at t) = State.inRom s := rfl

@[simp] theorem State.inService_at (t : Nat) (p : Nat) (s : State) :
    State.inService p (s.at t) = State.inService p s := rfl

@[simp] theorem State.inWindow_at (t : Nat) (part : Nat) (right : Nat) (a : Nat) (n : Nat) (s : State) :
    State.inWindow part right a n (s.at t) = State.inWindow part right a n s := rfl

@[simp] theorem State.ingressUse_at (t : Nat) (ifc : Nat) (prio : Nat) (s : State) :
    State.ingressUse ifc prio (s.at t) = State.ingressUse ifc prio s := rfl

@[simp] theorem State.isRemote_at (t : Nat) (x : FTable) (g : Generation) (key : W64) (s : State) :
    State.isRemote x g key (s.at t) = State.isRemote x g key s := rfl

@[simp] theorem State.isainUp_at (t : Nat) (s : State) :
    State.isainUp (s.at t) = State.isainUp s := rfl

@[simp] theorem State.ixAt_at (t : Nat) (a : Nat) (s : State) :
    State.ixAt a (s.at t) = State.ixAt a s := rfl

@[simp] theorem State.joinable_at (t : Nat) (f : Fetch) (s : State) :
    State.joinable f (s.at t) = State.joinable f s := rfl

@[simp] theorem State.joiners_at (t : Nat) (tag : Nat) (s : State) :
    State.joiners tag (s.at t) = State.joiners tag s := rfl

@[simp] theorem State.kernelRuns_at (t : Nat) (part : Nat) (handle : Nat) (s : State) :
    State.kernelRuns part handle (s.at t) = State.kernelRuns part handle s := rfl

@[simp] theorem State.kernelsGood_at (t : Nat) (a : Nat) (m : Model) (s : State) :
    State.kernelsGood a m (s.at t) = State.kernelsGood a m s := rfl

@[simp] theorem State.keyChannel_at (t : Nat) (key : W64) (table : Nat) (s : State) :
    State.keyChannel key table (s.at t) = State.keyChannel key table s := rfl

@[simp] theorem State.launchImage_at (t : Nat) (l : Launch) (s : State) :
    State.launchImage l (s.at t) = State.launchImage l s := rfl

@[simp] theorem State.launchStale_at (t : Nat) (l : Launch) (s : State) :
    State.launchStale l (s.at t) = State.launchStale l s := rfl

@[simp] theorem State.leAt_at (t : Nat) (a : Nat) (n : Nat) (s : State) :
    State.leAt a n (s.at t) = State.leAt a n s := rfl

@[simp] theorem State.lineIfcs_at (t : Nat) (s : State) :
    State.lineIfcs (s.at t) = State.lineIfcs s := rfl

@[simp] theorem State.link_at (t : Nat) (l : Nat) (s : State) :
    State.link l (s.at t) = State.link l s := rfl

@[simp] theorem State.liveModel_at (t : Nat) (d : Nat) (handle : Nat) (s : State) :
    State.liveModel d handle (s.at t) = State.liveModel d handle s := rfl

@[simp] theorem State.liveModels_at (t : Nat) (s : State) :
    State.liveModels (s.at t) = State.liveModels s := rfl

@[simp] theorem State.liveSlots_at (t : Nat) (p : Nat) (s : State) :
    State.liveSlots p (s.at t) = State.liveSlots p s := rfl

@[simp] theorem State.localKind_at (t : Nat) (ifc : Nat) (bs : List Byte) (s : State) :
    State.localKind ifc bs (s.at t) = State.localKind ifc bs s := rfl

@[simp] theorem State.localPorts_at (t : Nat) (s : State) :
    State.localPorts (s.at t) = State.localPorts s := rfl

@[simp] theorem State.lockedOut_at (t : Nat) (h : CmdHdr) (s : State) :
    State.lockedOut h (s.at t) = State.lockedOut h s := rfl

@[simp] theorem State.logicalEntry_at (t : Nat) (p : Nat) (s : State) :
    State.logicalEntry p (s.at t) = State.logicalEntry p s := rfl

@[simp] theorem State.logicalIn_at (t : Nat) (c : Nat) (s : State) :
    State.logicalIn c (s.at t) = State.logicalIn c s := rfl

@[simp] theorem State.logicalLeaves_at (t : Nat) (l : Nat) (s : State) :
    State.logicalLeaves l (s.at t) = State.logicalLeaves l s := rfl

@[simp] theorem State.logicalOf_at (t : Nat) (p : Nat) (s : State) :
    State.logicalOf p (s.at t) = State.logicalOf p s := rfl

@[simp] theorem State.logicalOwned_at (t : Nat) (l : Nat) (p : Nat) (s : State) :
    State.logicalOwned l p (s.at t) = State.logicalOwned l p s := rfl

@[simp] theorem State.logicalOwner_at (t : Nat) (l : Nat) (s : State) :
    State.logicalOwner l (s.at t) = State.logicalOwner l s := rfl

@[simp] theorem State.lookEntry_at (t : Nat) (x : FTable) (g : Generation) (key : W64) (a : Nat) (pos : Nat) (next : Look) (s : State) :
    State.lookEntry x g key a pos next (s.at t) = State.lookEntry x g key a pos next s := rfl

@[simp] theorem State.lookupMsg_at (t : Nat) (tag : Nat) (f : Fetch) (s : State) :
    State.lookupMsg tag f (s.at t) = State.lookupMsg tag f s := rfl

@[simp] theorem State.mayAccess_at (t : Nat) (owner : Nat) (right : Nat) (a : Nat) (n : Nat) (s : State) :
    State.mayAccess owner right a n (s.at t) = State.mayAccess owner right a n s := rfl

@[simp] theorem State.mayMark_at (t : Nat) (owner : Nat) (s : State) :
    State.mayMark owner (s.at t) = State.mayMark owner s := rfl

@[simp] theorem State.memberLinksUp_at (t : Nat) (s : State) :
    State.memberLinksUp (s.at t) = State.memberLinksUp s := rfl

@[simp] theorem State.memberState_at (t : Nat) (a : Nat) (m : Member) (s : State) :
    State.memberState a m (s.at t) = State.memberState a m s := rfl

@[simp] theorem State.members_at (t : Nat) (s : State) :
    State.members (s.at t) = State.members s := rfl

@[simp] theorem State.missQueue_at (t : Nat) (pipe : Nat) (s : State) :
    State.missQueue pipe (s.at t) = State.missQueue pipe s := rfl

@[simp] theorem State.modelAt_at (t : Nat) (d : Nat) (epoch : Nat) (handle : Nat) (s : State) :
    State.modelAt d epoch handle (s.at t) = State.modelAt d epoch handle s := rfl

@[simp] theorem State.moving_at (t : Nat) (s : State) :
    State.moving (s.at t) = State.moving s := rfl

@[simp] theorem State.mx_at (t : Nat) (core : Nat) (a : Nat) (s : State) :
    State.mx core a (s.at t) = State.mx core a s := rfl

@[simp] theorem State.needShards_at (t : Nat) (p : Nat) (s : State) :
    State.needShards p (s.at t) = State.needShards p s := rfl

@[simp] theorem State.nextParse_at (t : Nat) (s : State) :
    State.nextParse (s.at t) = State.nextParse s := rfl

@[simp] theorem State.nextShare_at (t : Nat) (p : Nat) (s : State) :
    State.nextShare p (s.at t) = State.nextShare p s := rfl

@[simp] theorem State.openGood_at (t : Nat) (c : Nat) (op : Nat) (len : Nat) (expected : Nat) (s : State) :
    State.openGood c op len expected (s.at t) = State.openGood c op len expected s := rfl

@[simp] theorem State.otherPart_at (t : Nat) (f : OuvHdr) (s : State) :
    State.otherPart f (s.at t) = State.otherPart f s := rfl

@[simp] theorem State.overMin_at (t : Nat) (p : Nat) (s : State) :
    State.overMin p (s.at t) = State.overMin p s := rfl

@[simp] theorem State.ownIps_at (t : Nat) (s : State) :
    State.ownIps (s.at t) = State.ownIps s := rfl

@[simp] theorem State.ownJoin_at (t : Nat) (s : State) :
    State.ownJoin (s.at t) = State.ownJoin s := rfl

@[simp] theorem State.ownedBy_at (t : Nat) (p : Nat) (s : State) :
    State.ownedBy p (s.at t) = State.ownedBy p s := rfl

@[simp] theorem State.ownsTable_at (t : Nat) (h : CmdHdr) (table : Nat) (s : State) :
    State.ownsTable h table (s.at t) = State.ownsTable h table s := rfl

@[simp] theorem State.packetItem_at (t : Nat) (m : Model) (f : Frame) (s : State) :
    State.packetItem m f (s.at t) = State.packetItem m f s := rfl

@[simp] theorem State.pageRetired_at (t : Nat) (a : Nat) (s : State) :
    State.pageRetired a (s.at t) = State.pageRetired a s := rfl

@[simp] theorem State.pagesVal_at (t : Nat) (s : State) :
    State.pagesVal (s.at t) = State.pagesVal s := rfl

@[simp] theorem State.pairPartner_at (t : Nat) (i : Nat) (s : State) :
    State.pairPartner i (s.at t) = State.pairPartner i s := rfl

@[simp] theorem State.pairedWell_at (t : Nat) (i : Nat) (s : State) :
    State.pairedWell i (s.at t) = State.pairedWell i s := rfl

@[simp] theorem State.pairs_at (t : Nat) (s : State) :
    State.pairs (s.at t) = State.pairs s := rfl

@[simp] theorem State.parseCell_at (t : Nat) (a : Nat) (x : Sect) (s : State) :
    State.parseCell a x (s.at t) = State.parseCell a x s := rfl

@[simp] theorem State.parseModel_at (t : Nat) (handle : Nat) (a : Nat) (len : Nat) (bindings : List (List Nat)) (s : State) :
    State.parseModel handle a len bindings (s.at t) = State.parseModel handle a len bindings s := rfl

@[simp] theorem State.parseQueue_at (t : Nat) (ifc : Nat) (prio : Nat) (s : State) :
    State.parseQueue ifc prio (s.at t) = State.parseQueue ifc prio s := rfl

@[simp] theorem State.parserVal_at (t : Nat) (s : State) :
    State.parserVal (s.at t) = State.parserVal s := rfl

@[simp] theorem State.part_at (t : Nat) (p : Nat) (s : State) :
    State.part p (s.at t) = State.part p s := rfl

@[simp] theorem State.partIdle_at (t : Nat) (p : Nat) (s : State) :
    State.partIdle p (s.at t) = State.partIdle p s := rfl

@[simp] theorem State.partSetting_at (t : Nat) (id : Nat) (k : Nat) (s : State) :
    State.partSetting id k (s.at t) = State.partSetting id k s := rfl

@[simp] theorem State.partner_at (t : Nat) (i : Nat) (s : State) :
    State.partner i (s.at t) = State.partner i s := rfl

@[simp] theorem State.paused_at (t : Nat) (ifc : Nat) (q : Nat) (s : State) :
    State.paused ifc q (s.at t) = State.paused ifc q s := rfl

@[simp] theorem State.peer_at (t : Nat) (a : Nat) (s : State) :
    State.peer a (s.at t) = State.peer a s := rfl

@[simp] theorem State.physOf_at (t : Nat) (l : Nat) (s : State) :
    State.physOf l (s.at t) = State.physOf l s := rfl

@[simp] theorem State.pinnedCount_at (t : Nat) (s : State) :
    State.pinnedCount (s.at t) = State.pinnedCount s := rfl

@[simp] theorem State.pipe_at (t : Nat) (p : Nat) (s : State) :
    State.pipe p (s.at t) = State.pipe p s := rfl

@[simp] theorem State.pipeCell_at (t : Nat) (p : Nat) (s : State) :
    State.pipeCell p (s.at t) = State.pipeCell p s := rfl

@[simp] theorem State.pmEpoch_at (t : Nat) (id : Nat) (s : State) :
    State.pmEpoch id (s.at t) = State.pmEpoch id s := rfl

@[simp] theorem State.pmModel_at (t : Nat) (id : Nat) (s : State) :
    State.pmModel id (s.at t) = State.pmModel id s := rfl

@[simp] theorem State.poolsFull_at (t : Nat) (v6 : Bool) (p : Prefix) (s : State) :
    State.poolsFull v6 p (s.at t) = State.poolsFull v6 p s := rfl

@[simp] theorem State.port_at (t : Nat) (p : Nat) (s : State) :
    State.port p (s.at t) = State.port p s := rfl

@[simp] theorem State.portIfcs_at (t : Nat) (p : Nat) (s : State) :
    State.portIfcs p (s.at t) = State.portIfcs p s := rfl

@[simp] theorem State.portSetting_at (t : Nat) (id : Nat) (k : Nat) (s : State) :
    State.portSetting id k (s.at t) = State.portSetting id k s := rfl

@[simp] theorem State.portsVal_at (t : Nat) (s : State) :
    State.portsVal (s.at t) = State.portsVal s := rfl

@[simp] theorem State.positions_at (t : Nat) (state : Nat) (s : State) :
    State.positions state (s.at t) = State.positions state s := rfl

@[simp] theorem State.preCheck_at (t : Nat) (h : CmdHdr) (op : Nat) (stop : Bool) (resv : Bool) (owner : Nat) (s : State) :
    State.preCheck h op stop resv owner (s.at t) = State.preCheck h op stop resv owner s := rfl

@[simp] theorem State.ptpSetting_at (t : Nat) (id : Nat) (k : Nat) (s : State) :
    State.ptpSetting id k (s.at t) = State.ptpSetting id k s := rfl

@[simp] theorem State.pushWords_at (t : Nat) (n : Nat) (i : W32) (s : State) :
    State.pushWords n i (s.at t) = State.pushWords n i s := rfl

@[simp] theorem State.putTable_at (t : Nat) (p : PutEntry) (s : State) :
    State.putTable p (s.at t) = State.putTable p s := rfl

@[simp] theorem State.putsTo_at (t : Nat) (a : Nat) (s : State) :
    State.putsTo a (s.at t) = State.putsTo a s := rfl

@[simp] theorem State.queue_at (t : Nat) (ifc : Nat) (q : Nat) (s : State) :
    State.queue ifc q (s.at t) = State.queue ifc q s := rfl

@[simp] theorem State.queueWords_at (t : Nat) (ifc : Nat) (s : State) :
    State.queueWords ifc (s.at t) = State.queueWords ifc s := rfl

@[simp] theorem State.queued_at (t : Nat) (c : Nat) (s : State) :
    State.queued c (s.at t) = State.queued c s := rfl

@[simp] theorem State.queuesEmpty_at (t : Nat) (port : Nat) (s : State) :
    State.queuesEmpty port (s.at t) = State.queuesEmpty port s := rfl

@[simp] theorem State.quiet_at (t : Nat) (s : State) :
    State.quiet (s.at t) = State.quiet s := rfl

@[simp] theorem State.reachable_at (t : Nat) (addr : Nat) (s : State) :
    State.reachable addr (s.at t) = State.reachable addr s := rfl

@[simp] theorem State.readRec_at (t : Nat) (c : SetCmd) (r : SetRec) (s : State) :
    State.readRec c r (s.at t) = State.readRec c r s := rfl

@[simp] theorem State.readRight_at (t : Nat) (c : SetCmd) (h : CmdHdr) (recs : List SetRec) (s : State) :
    State.readRight c h recs (s.at t) = State.readRight c h recs s := rfl

@[simp] theorem State.readsState_at (t : Nat) (f : Frame) (s : State) :
    State.readsState f (s.at t) = State.readsState f s := rfl

@[simp] theorem State.recReadable_at (t : Nat) (p : Nat) (i : Nat) (s : State) :
    State.recReadable p i (s.at t) = State.recReadable p i s := rfl

@[simp] theorem State.recStats_at (t : Nat) (p : Nat) (i : Nat) (s : State) :
    State.recStats p i (s.at t) = State.recStats p i s := rfl

@[simp] theorem State.recsUsed_at (t : Nat) (pipe : Nat) (s : State) :
    State.recsUsed pipe (s.at t) = State.recsUsed pipe s := rfl

@[simp] theorem State.region_at (t : Nat) (g : Nat) (s : State) :
    State.region g (s.at t) = State.region g s := rfl

@[simp] theorem State.remapVal_at (t : Nat) (s : State) :
    State.remapVal (s.at t) = State.remapVal s := rfl

@[simp] theorem State.remoteInflight_at (t : Nat) (table : Nat) (s : State) :
    State.remoteInflight table (s.at t) = State.remoteInflight table s := rfl

@[simp] theorem State.removedNamed_at (t : Nat) (d : Nat) (s : State) :
    State.removedNamed d (s.at t) = State.removedNamed d s := rfl

@[simp] theorem State.replyWords_at (t : Nat) (m : ReplyMsg) (s : State) :
    State.replyWords m (s.at t) = State.replyWords m s := rfl

@[simp] theorem State.reqHash_at (t : Nat) (part : Nat) (ring : Nat) (i : W32) (q : Req) (s : State) :
    State.reqHash part ring i q (s.at t) = State.reqHash part ring i q s := rfl

@[simp] theorem State.reqRefusal_at (t : Nat) (part : Nat) (q : Req) (s : State) :
    State.reqRefusal part q (s.at t) = State.reqRefusal part q s := rfl

@[simp] theorem State.resvGood_at (t : Nat) (a : Nat) (m : Model) (s : State) :
    State.resvGood a m (s.at t) = State.resvGood a m s := rfl

@[simp] theorem State.reverseDue_at (t : Nat) (m : Model) (f : Frame) (s : State) :
    State.reverseDue m f (s.at t) = State.reverseDue m f s := rfl

@[simp] theorem State.reverseKey_at (t : Nat) (f : Frame) (s : State) :
    State.reverseKey f (s.at t) = State.reverseKey f s := rfl

@[simp] theorem State.revokeDone_at (t : Nat) (p : Nat) (s : State) :
    State.revokeDone p (s.at t) = State.revokeDone p s := rfl

@[simp] theorem State.revoked_at (t : Nat) (h : CmdHdr) (s : State) :
    State.revoked h (s.at t) = State.revoked h s := rfl

@[simp] theorem State.rightsOf_at (t : Nat) (p : Nat) (s : State) :
    State.rightsOf p (s.at t) = State.rightsOf p s := rfl

@[simp] theorem State.ring_at (t : Nat) (n : Nat) (s : State) :
    State.ring n (s.at t) = State.ring n s := rfl

@[simp] theorem State.ringMade_at (t : Nat) (n : Nat) (s : State) :
    State.ringMade n (s.at t) = State.ringMade n s := rfl

@[simp] theorem State.ringsOf_at (t : Nat) (part : Nat) (rtype : Nat) (s : State) :
    State.ringsOf part rtype (s.at t) = State.ringsOf part rtype s := rfl

@[simp] theorem State.ringsQuiet_at (t : Nat) (s : State) :
    State.ringsQuiet (s.at t) = State.ringsQuiet s := rfl

@[simp] theorem State.ringsVal_at (t : Nat) (s : State) :
    State.ringsVal (s.at t) = State.ringsVal s := rfl

@[simp] theorem State.rmNext_at (t : Nat) (s : State) :
    State.rmNext (s.at t) = State.rmNext s := rfl

@[simp] theorem State.rowChecks_at (t : Nat) (pipe : Nat) (s : State) :
    State.rowChecks pipe (s.at t) = State.rowChecks pipe s := rfl

@[simp] theorem State.rows_at (t : Nat) (a : Nat) (w : Nat) (x : Sect) (s : State) :
    State.rows a w x (s.at t) = State.rows a w x s := rfl

@[simp] theorem State.rsFeatures_at (t : Nat) (p : Nat) (i : Nat) (r : Nat) (s : State) :
    State.rsFeatures p i r (s.at t) = State.rsFeatures p i r s := rfl

@[simp] theorem State.rstate_at (t : Nat) (p : Nat) (i : Nat) (v : Nat) (s : State) :
    State.rstate p i v (s.at t) = State.rstate p i v s := rfl

@[simp] theorem State.running_at (t : Nat) (s : State) :
    State.running (s.at t) = State.running s := rfl

@[simp] theorem State.sameCell_at (t : Nat) (p : Nat) (r : Nat) (s : State) :
    State.sameCell p r (s.at t) = State.sameCell p r s := rfl

@[simp] theorem State.scanQueue_at (t : Nat) (s : State) :
    State.scanQueue (s.at t) = State.scanQueue s := rfl

@[simp] theorem State.scopeGood_at (t : Nat) (id : Nat) (k : ScopeKind) (w : Nat) (s : State) :
    State.scopeGood id k w (s.at t) = State.scopeGood id k w s := rfl

@[simp] theorem State.sealedGen_at (t : Nat) (p : Nat × Nat) (s : State) :
    State.sealedGen p (s.at t) = State.sealedGen p s := rfl

@[simp] theorem State.sects_at (t : Nat) (a : Nat) (s : State) :
    State.sects a (s.at t) = State.sects a s := rfl

@[simp] theorem State.seedOf_at (t : Nat) (table : Nat) (s : State) :
    State.seedOf table (s.at t) = State.seedOf table s := rfl

@[simp] theorem State.servedFrom_at (t : Nat) (table : Nat) (g : Nat) (s : State) :
    State.servedFrom table g (s.at t) = State.servedFrom table g s := rfl

@[simp] theorem State.servedTable_at (t : Nat) (table : Nat) (part : Nat) (first : Nat) (n : Nat) (s : State) :
    State.servedTable table part first n (s.at t) = State.servedTable table part first n s := rfl

@[simp] theorem State.serves_at (t : Nat) (owner : Nat) (c : Nat) (s : State) :
    State.serves owner c (s.at t) = State.serves owner c s := rfl

@[simp] theorem State.session_at (t : Nat) (sid : Nat) (s : State) :
    State.session sid (s.at t) = State.session sid s := rfl

@[simp] theorem State.sessionLimit_at (t : Nat) (s : State) :
    State.sessionLimit (s.at t) = State.sessionLimit s := rfl

@[simp] theorem State.sessionsOf_at (t : Nat) (part : Nat) (s : State) :
    State.sessionsOf part (s.at t) = State.sessionsOf part s := rfl

@[simp] theorem State.setting_at (t : Nat) (c : SetCmd) (id : Nat) (k : Nat) (s : State) :
    State.setting c id k (s.at t) = State.setting c id k s := rfl

@[simp] theorem State.shardBad_at (t : Nat) (p : Nat) (x : Share) (s : State) :
    State.shardBad p x (s.at t) = State.shardBad p x s := rfl

@[simp] theorem State.share_at (t : Nat) (p : Nat) (k : Nat) (gen : Nat) (s : State) :
    State.share p k gen (s.at t) = State.share p k gen s := rfl

@[simp] theorem State.sharedBuffer_at (t : Nat) (s : State) :
    State.sharedBuffer (s.at t) = State.sharedBuffer s := rfl

@[simp] theorem State.sharesFit_at (t : Nat) (m : Model) (s : State) :
    State.sharesFit m (s.at t) = State.sharesFit m s := rfl

@[simp] theorem State.shut_at (t : Nat) (i : Nat) (s : State) :
    State.shut i (s.at t) = State.shut i s := rfl

@[simp] theorem State.slot_at (t : Nat) (k : Nat) (s : State) :
    State.slot k (s.at t) = State.slot k s := rfl

@[simp] theorem State.slotClusters_at (t : Nat) (k : Nat) (x : Slot) (s : State) :
    State.slotClusters k x (s.at t) = State.slotClusters k x s := rfl

@[simp] theorem State.slotEdges_at (t : Nat) (s : State) :
    State.slotEdges (s.at t) = State.slotEdges s := rfl

@[simp] theorem State.slotFrame_at (t : Nat) (x : Slot) (s : State) :
    State.slotFrame x (s.at t) = State.slotFrame x s := rfl

@[simp] theorem State.slotMatch_at (t : Nat) (k : Nat) (gen : Nat) (token : Nat) (s : State) :
    State.slotMatch k gen token (s.at t) = State.slotMatch k gen token s := rfl

@[simp] theorem State.slotModel_at (t : Nat) (k : Nat) (s : State) :
    State.slotModel k (s.at t) = State.slotModel k s := rfl

@[simp] theorem State.slotPasses_at (t : Nat) (b : BootIn) (k : Nat) (s : State) :
    State.slotPasses b k (s.at t) = State.slotPasses b k s := rfl

@[simp] theorem State.loadBad_at (t : Nat) (b : BootIn) (k : Nat) (s : State) :
    State.loadBad b k (s.at t) = State.loadBad b k s := rfl

@[simp] theorem State.slotsAt_at (t : Nat) (n : Nat) (i : W32) (s : State) :
    State.slotsAt n i (s.at t) = State.slotsAt n i s := rfl

@[simp] theorem State.slotsOf_at (t : Nat) (part : Nat) (s : State) :
    State.slotsOf part (s.at t) = State.slotsOf part s := rfl

@[simp] theorem State.sourceCount_at (t : Nat) (x : Baseline) (owner : Nat) (s : State) :
    State.sourceCount x owner (s.at t) = State.sourceCount x owner s := rfl

@[simp] theorem State.spaceBytes_at (t : Nat) (x : Space) (a : Nat) (n : Nat) (s : State) :
    State.spaceBytes x a n (s.at t) = State.spaceBytes x a n s := rfl

@[simp] theorem State.spaceGood_at (t : Nat) (x : Space) (a : Nat) (n : Nat) (s : State) :
    State.spaceGood x a n (s.at t) = State.spaceGood x a n s := rfl

@[simp] theorem State.sparesFor_at (t : Nat) (c : Nat) (s : State) :
    State.sparesFor c (s.at t) = State.sparesFor c s := rfl

@[simp] theorem State.speed_at (t : Nat) (i : Nat) (s : State) :
    State.speed i (s.at t) = State.speed i s := rfl

@[simp] theorem State.stageCost_at (t : Nat) (p : Nat) (x : Share) (m : Model) (s : State) :
    State.stageCost p x m (s.at t) = State.stageCost p x m s := rfl

@[simp] theorem State.stagingStale_at (t : Nat) (d : Nat) (s : State) :
    State.stagingStale d (s.at t) = State.stagingStale d s := rfl

@[simp] theorem State.stampGens_at (t : Nat) (m : Model) (s : State) :
    State.stampGens m (s.at t) = State.stampGens m s := rfl

@[simp] theorem State.startSlot_at (t : Nat) (b : BootIn) (k : Nat) (s : State) :
    State.startSlot b k (s.at t) = State.startSlot b k s := rfl

@[simp] theorem State.stateAllows_at (t : Nat) (op : Nat) (stop : Bool) (s : State) :
    State.stateAllows op stop (s.at t) = State.stateAllows op stop s := rfl

@[simp] theorem State.stepCores_at (t : Nat) (x : Slot) (st : Step) (s : State) :
    State.stepCores x st (s.at t) = State.stepCores x st s := rfl

@[simp] theorem State.stillAdmitted_at (t : Nat) (port : Nat) (s : State) :
    State.stillAdmitted port (s.at t) = State.stillAdmitted port s := rfl

@[simp] theorem State.stopOffsets_at (t : Nat) (s : State) :
    State.stopOffsets (s.at t) = State.stopOffsets s := rfl

@[simp] theorem State.storedBootCount_at (t : Nat) (s : State) :
    State.storedBootCount (s.at t) = State.storedBootCount s := rfl

@[simp] theorem State.table_at (t : Nat) (k : Nat) (s : State) :
    State.table k (s.at t) = State.table k s := rfl

@[simp] theorem State.tableOwner_at (t : Nat) (table : Nat) (s : State) :
    State.tableOwner table (s.at t) = State.tableOwner table s := rfl

@[simp] theorem State.tableRead_at (t : Nat) (table : Nat) (s : State) :
    State.tableRead table (s.at t) = State.tableRead table s := rfl

@[simp] theorem State.tablesVal_at (t : Nat) (s : State) :
    State.tablesVal (s.at t) = State.tablesVal s := rfl

@[simp] theorem State.tokenGood_at (t : Nat) (bs : List Byte) (s : State) :
    State.tokenGood bs (s.at t) = State.tokenGood bs s := rfl

@[simp] theorem State.traceOwner_at (t : Nat) (c : Nat) (s : State) :
    State.traceOwner c (s.at t) = State.traceOwner c s := rfl

@[simp] theorem State.verdictMay_at (t : Nat) (v : Verdict) (s : State) :
    State.verdictMay v (s.at t) = State.verdictMay v s := rfl

@[simp] theorem State.walksOf_at (t : Nat) (p : Nat) (k : Nat) (gen : Nat) (s : State) :
    State.walksOf p k gen (s.at t) = State.walksOf p k gen s := rfl

@[simp] theorem State.wallAt_at (t : Nat) (tick : Nat) (s : State) :
    State.wallAt tick (s.at t) = State.wallAt tick s := rfl

@[simp] theorem State.wallWord_at (t : Nat) (tick : Nat) (s : State) :
    State.wallWord tick (s.at t) = State.wallWord tick s := rfl

@[simp] theorem State.windowOf_at (t : Nat) (f : OuvHdr) (x : Session) (s : State) :
    State.windowOf f x (s.at t) = State.windowOf f x s := rfl

@[simp] theorem State.wordMay_at (t : Nat) (owner : Nat) (x : Space) (right : Nat) (a : Nat) (s : State) :
    State.wordMay owner x right a (s.at t) = State.wordMay owner x right a s := rfl

@[simp] theorem State.workEdges_at (t : Nat) (s : State) :
    State.workEdges (s.at t) = State.workEdges s := rfl

end Sys2Proof.Machine
end

