-- ==== Sys2Proof/Laws/Told.lean ====
section
/-! SUPPORT. What telling the outside can change: a record, a count, a write to memory, a ring item, an event
and a kept setting leave every part of the state but their own as it was. -/

namespace Sys2Proof.Machine

/-- Two states differ at most in the rings, in device memory and in what is observed. -/
structure ToldOnly (s s' : State) : Prop where
  pending : s'.pending = s.pending
  tick : s'.tick = s.tick
  islandTick : s'.islandTick = s.islandTick
  pkg : s'.pkg = s.pkg
  ifcs : s'.ifcs = s.ifcs
  ports : s'.ports = s.ports
  wall : s'.wall = s.wall
  ouv : s'.ouv = s.ouv
  parts : s'.parts = s.parts
  parser : s'.parser = s.parser
  cls : s'.cls = s.cls
  eg : s'.eg = s.eg
  comp : s'.comp = s.comp
  models : s'.models = s.models
  bases : s'.bases = s.bases
  fab : s'.fab = s.fab
  bay : s'.bay = s.bay
  fuses : s'.fuses = s.fuses
  freeCount : s'.freeCount = s.freeCount
  sent : s'.sent = s.sent

theorem ToldOnly.refl (s : State) : ToldOnly s s := by constructor <;> rfl

theorem ToldOnly.trans {a b c : State} (h : ToldOnly a b) (k : ToldOnly b c) : ToldOnly a c where
  pending := k.pending.trans h.pending
  tick := k.tick.trans h.tick
  islandTick := k.islandTick.trans h.islandTick
  pkg := k.pkg.trans h.pkg
  ifcs := k.ifcs.trans h.ifcs
  ports := k.ports.trans h.ports
  wall := k.wall.trans h.wall
  ouv := k.ouv.trans h.ouv
  parts := k.parts.trans h.parts
  parser := k.parser.trans h.parser
  cls := k.cls.trans h.cls
  eg := k.eg.trans h.eg
  comp := k.comp.trans h.comp
  models := k.models.trans h.models
  bases := k.bases.trans h.bases
  fab := k.fab.trans h.fab
  bay := k.bay.trans h.bay
  fuses := k.fuses.trans h.fuses
  freeCount := k.freeCount.trans h.freeCount
  sent := k.sent.trans h.sent

variable {s : State}

theorem updRings_told (f : Rings → Rings) : ToldOnly s (s.updRings f) := by constructor <;> rfl
theorem updMem_told (f : Memory → Memory) : ToldOnly s (s.updMem f) := by constructor <;> rfl
theorem updObs_told (f : Observe → Observe) : ToldOnly s (s.updObs f) := by constructor <;> rfl
theorem count_told (id scope : Nat) : ToldOnly s (s.count id scope) := by constructor <;> rfl
theorem countN_told (id scope n : Nat) : ToldOnly s (s.countN id scope n) := by constructor <;> rfl
theorem tally_told (id : Nat) : ToldOnly s (s.tally id) := count_told _ _

/-- A fold of steps that only tell only tells. -/
theorem foldl_told {α : Type} {f : State → α → State} (h : ∀ s a, ToldOnly s (f s a)) :
    ∀ (l : List α) (s : State), ToldOnly s (l.foldl f s)
  | [], s => .refl s
  | a :: l, s => (h s a).trans (foldl_told h l (f s a))

theorem recordRaw_told (kind level unit part sev : Nat) (data : List Nat) :
    ToldOnly s (s.recordRaw kind level unit part sev data) := by
  unfold State.recordRaw
  dsimp only
  split
  · exact (updObs_told _).trans (tally_told _)
  · exact updObs_told _

theorem record_told (kind level unit part sev : Nat) (data : List (Nat × Nat)) :
    ToldOnly s (s.record kind level unit part sev data) := by
  unfold State.record
  split
  · exact tally_told _
  · exact (updObs_told _).trans (recordRaw_told _ _ _ _ _ _)

theorem recordUe_told (w access : Nat) : ToldOnly s (s.recordUe w access) := by
  unfold State.recordUe
  dsimp only
  split
  · exact .refl _
  · exact (updMem_told _).trans (record_told _ _ _ _ _ _)

theorem readFault_told (w access : Nat) (f : WordFault) : ToldOnly s (s.readFault w access f) := by
  cases f
  · exact (updMem_told _).trans (count_told _ _)
  · exact ((updMem_told _).trans (count_told _ _)).trans (recordUe_told _ _)
  · exact count_told _ _

theorem touch_told (a n access : Nat) : ToldOnly s (s.touch a n access) :=
  foldl_told (fun _ (e : Nat × WordFault) => readFault_told e.1 access e.2) _ _

theorem mergeRead_told (w : Nat) : ToldOnly s (s.mergeRead w) := by
  unfold State.mergeRead
  split
  · exact .refl _
  · dsimp only
    split
    · exact (readFault_told _ _ _).trans (updMem_told _)
    · exact readFault_told _ _ _

theorem poke_told (a : Nat) (bs : List Byte) : ToldOnly s (s.poke a bs) := by
  unfold State.poke
  dsimp only
  exact (foldl_told (fun s w => mergeRead_told (s := s) w) _ _).trans (updMem_told _)

theorem setRing_told (n : Nat) (r : Ring) : ToldOnly s (s.setRing n r) := updRings_told _
theorem modRing_told (n : Nat) (f : Ring → Ring) : ToldOnly s (s.modRing n f) := by
  unfold State.modRing
  exact setRing_told _ _
theorem setSlot_told (k : Nat) (x : Slot) : ToldOnly s (s.setSlot k x) := updRings_told _
theorem modSlot_told (k : Nat) (f : Slot → Slot) : ToldOnly s (s.modSlot k f) := by
  unfold State.modSlot
  exact setSlot_told _ _
theorem freeSlot_told (k : Nat) : ToldOnly s (s.freeSlot k) := by
  unfold State.freeSlot
  exact setSlot_told _ _
theorem useCtx_told (n : Nat) : ToldOnly s (s.useCtx n) := by
  unfold State.useCtx
  exact updRings_told _
theorem missCtx_told (n : Nat) (op : Option CtxOp) : ToldOnly s (s.missCtx n op) := updRings_told _

theorem completeEntry_told (n : Nat) (i : W32) : ToldOnly s (s.completeEntry n i) := by
  unfold State.completeEntry
  exact (foldl_told (fun _ k => freeSlot_told k) _ _).trans (modRing_told _ _)

theorem itemDone_told (n : Nat) (item : RingItem) : ToldOnly s (s.itemDone n item) := by
  unfold State.itemDone
  split
  · exact .refl _
  · dsimp only
    split
    · exact completeEntry_told _ _
    · exact .refl _

theorem dropItem_told (n : Nat) (item : RingItem) : ToldOnly s (s.dropItem n item) := by
  unfold State.dropItem
  exact (modRing_told _ _).trans (itemDone_told _ _)

theorem putEntry_told (n : Nat) (e : List W64) : ToldOnly s (s.putEntry n e) := by
  unfold State.putEntry
  exact (poke_told _ _).trans (modRing_told _ _)

theorem putItem_told (n : Nat) (item : RingItem) : ToldOnly s (s.putItem n item) := by
  unfold State.putItem
  exact foldl_told (fun _ e => putEntry_told n e) _ _

theorem putLoss_told (n : Nat) : ToldOnly s (s.putLoss n) := by
  unfold State.putLoss
  dsimp only
  split
  · exact (foldl_told (fun _ e => putEntry_told n e) _ _).trans (modRing_told _ _)
  · exact .refl _

theorem overwrite_told (n need : Nat) : ∀ (fuel : Nat) (s : State), ToldOnly s (s.overwrite n need fuel)
  | 0, s => .refl s
  | fuel + 1, s => by
    unfold State.overwrite
    dsimp only
    split
    · exact .refl _
    · exact (setRing_told _ _).trans (overwrite_told n need fuel _)

theorem itemNow_told (n : Nat) (item : RingItem) : ToldOnly s (s.itemNow n item) := by
  have put : ∀ s : State, ToldOnly s ((s.putItem n item).itemDone n item) := fun s =>
    (putItem_told n item).trans (itemDone_told n item)
  unfold State.itemNow
  refine (putLoss_told (s := s) n).trans ?_
  generalize s.putLoss n = s
  dsimp only
  split
  · exact itemDone_told _ _
  split
  · exact dropItem_told _ _
  split
  · split
    · exact put s
    · exact modRing_told _ _
  split
  · exact put s
  split
  · split
    · exact ((overwrite_told _ _ _ _).trans (putLoss_told _)).trans (put _)
    · exact ((overwrite_told _ _ _ _).trans (putLoss_told _)).trans (dropItem_told _ _)
  · exact dropItem_told _ _

/-- An item for a ring changes the rings, memory and what is observed, and nothing else. -/
theorem ringItem_told (n : Nat) (item : RingItem) : ToldOnly s (s.ringItem n item) := by
  unfold State.ringItem
  split
  · exact itemDone_told _ _
  split
  · exact (useCtx_told _).trans (itemNow_told _ _)
  · exact missCtx_told _ _

/-- So does an event. -/
theorem event_told (part code : Nat) (data : List (Nat × Nat)) (rm : Nat) :
    ToldOnly s (s.event part code data rm) := by
  unfold State.event
  split
  · exact ringItem_told _ _
  · exact count_told _ _

/-- So does a record with its event. -/
theorem recordEvent_told (kind level unit rpart sev : Nat) (rdata : List (Nat × Nat)) (part code : Nat)
    (data : List (Nat × Nat)) :
    ToldOnly s (s.recordEvent kind level unit rpart sev rdata part code data) :=
  (record_told _ _ _ _ _ _).trans (event_told _ _ _ _)

end Sys2Proof.Machine
end

