-- ==== Sys2Proof/Machine/Flash.lean ====
section
/-! DEFINITION. Where things stand in the flash, and the bytes of the settings store's headers (R363, R371). -/

namespace Sys2Proof.Machine

/-- The regions of the flash, in their order (R363). -/
inductive FlashRegion where
  | dir0 | dir1 | certs | never | slotA | slotB | staging | half0 | half1 | log
  deriving DecidableEq, Repr

/-- The regions, lowest first. -/
def flashRegions : List FlashRegion :=
  [.dir0, .dir1, .certs, .never, .slotA, .slotB, .staging, .half0, .half1, .log]

/-- Where a region begins. -/
def flashOffset : FlashRegion → Nat
  | .dir0 => 0x00000000 | .dir1 => 0x00010000 | .certs => 0x00020000 | .never => 0x00120000
  | .slotA => 0x01000000 | .slotB => 0x05000000 | .staging => 0x09000000 | .half0 => 0x0D000000
  | .half1 => 0x0E000000 | .log => 0x0F000000

/-- The bytes of a region. -/
def flashSize : FlashRegion → Nat
  | .dir0 => 0x10000 | .dir1 => 0x10000 | .certs => 0x100000 | .never => 0xEE0000
  | .slotA => 0x4000000 | .slotB => 0x4000000 | .staging => 0x4000000 | .half0 => 0x1000000
  | .half1 => 0x1000000 | .log => 0x1000000

/-- Where the directory in force stands, and the half of the settings store in force (R363, R365, R371). -/
def Bay.dirRegion (b : Bay) : FlashRegion := if b.dirAt = 0 then .dir0 else .dir1
def Bay.halfRegion (b : Bay) : FlashRegion := if b.half = 0 then .half0 else .half1

/-- The 64 bytes at the head of a half: `h_seq`, the constant, `resv`, and the digest of bytes 0 to 31 (R371). -/
def halfHeader (hSeq : Nat) : List Byte :=
  let bs := leBytes 8 hSeq ++ leBytes 4 0x4B345354 ++ leBytes 20 0
  bs ++ shake256 32 bs

/-- The 32-byte header of a settings record before its data (R371). -/
def recHeader (r : StRec) (data : List Byte) : List Byte :=
  let bs := leBytes 9 0 ++ leBytes 1 (bit r.removal) ++ leBytes 2 r.value.scope ++ leBytes 4 data.length ++
    leBytes 2 r.fmt ++ leBytes 2 r.value.group ++ leBytes 4 r.seq
  bs ++ (shake256 32 (bs ++ data)).take 8

/-- A record as it stands in a half: header and data, padded to 32 bytes (R371). -/
def recBytes (r : StRec) (data : List Byte) : List Byte :=
  recHeader r data ++ data ++ List.replicate (recSize data.length - 32 - data.length) 0

/-- Where the records of a half begin, from the half's first byte on (R371). -/
def recordPlaces : Nat → List StRec → List (Nat × StRec)
  | _, [] => []
  | a, r :: rest => (a, r) :: recordPlaces (a + recSize r.len) rest

end Sys2Proof.Machine
end

