-- ==== Sys2Proof/WellFormed.lean ====
section
/-! DEFINITION. Which commands are well formed: every operand that the spec gives a width fits in it. An
operand that names a thing inside the block (a frame, a fetch, a group, a line), a time or an integer
measured outside has no width, and is not checked. -/

namespace Sys2Proof

/-- A number fits in `w` bits. -/
def fits (w v : Nat) : Bool := decide (v < 2 ^ w)

/-- An absent number, or one that fits. -/
def fitsOpt (w : Nat) : Option Nat → Bool
  | none => true
  | some v => fits w v

/-- The carrier of a command: a session (R82) or a ring (R87). -/
def Via.wf : Via → Bool
  | .mbox sid => fits 32 sid
  | .ring n => fits 12 n

/-- The header's fields (R380). -/
def CmdHdr.wf (h : CmdHdr) : Bool :=
  h.via.wf && fits 6 h.part && fits 16 h.token && fits 32 h.timeoutUs && fits 64 h.seq &&
    fits 7 h.flagsHi

/-- A setting record's header and value (R386). -/
def SetRec.wf (r : SetRec) : Bool :=
  fits 16 r.id && fits 16 r.scope && fits 16 r.len && decide (r.value < 2 ^ (8 * r.len))

/-- `RING_CREATE` (R392). -/
def RingSpec.wf (r : RingSpec) : Bool :=
  fits 12 r.ring && fits 4 r.rtype && fits 6 r.owner && fits 1 r.esize && fits 2 r.fullPolicy &&
  fits 5 r.log2Entries && fits 12 r.cqRing && fits 16 r.inflightMax && fits 48 r.baseAddr &&
  fits 16 r.fullTimeout

/-- `RING_CONFIG` (R392). -/
def RingMask.wf (m : RingMask) : Bool :=
  fits 12 m.ring && fitsOpt 2 m.fullPolicy && fitsOpt 16 m.inflightMax && fitsOpt 16 m.fullTimeout

/-- `MACSEC_SA_INSTALL` (R393). -/
def SaSpec.wf (x : SaSpec) : Bool :=
  fits 3 x.ifc && fits 4 x.sc && fits 2 x.an && fits 64 x.nextPn

/-- A rule row's action (R140). -/
def RuleAction.wf (a : RuleAction) : Bool :=
  fits 2 a.flowMode && fits 3 a.fwdAction && fits 16 a.pmModel && fits 16 a.deepModel &&
  fits 6 a.deepPart && fits 8 a.scanSet && fits 12 a.policer && fits 16 a.egressArg

/-- The flow key (R148). -/
def FlowKey.wf (k : FlowKey) : Bool := fits 12 k.vidOuter && fits 2 k.inIf

/-- `SPREAD_CONFIG` (R395). -/
def SpreadSpec.wf (x : SpreadSpec) : Bool :=
  fits 7 x.ctx && fits 9 x.start && decide (x.key.length = 40) &&
  x.entries.all fun e => fits 4 e.tkind && fits 12 e.target

/-- The settings of `FTABLE_CREATE` (R273). -/
def TableSpec.wf (x : TableSpec) : Bool := fitsOpt 16 x.fallback

/-- A launch descriptor (R198). -/
def LaunchDesc.wf (d : LaunchDesc) : Bool :=
  fits 16 d.kernel && fits 12 d.firstCore && fits 12 d.nCores && fits 16 d.layerId && fits 16 d.opId &&
  fits 16 d.slot && fits 16 d.slotGen && fits 48 d.argAddr && fits 16 d.argLen && fits 64 d.deadline

/-- A counter's name (R398). -/
def CounterId.wf (c : CounterId) : Bool := fits 16 c.id && fits 32 c.scope

/-- The Ouvlen header (R72). -/
def OuvHdr.wf (f : OuvHdr) : Bool :=
  fits 3 f.ifc && fits 4 f.version && fits 4 f.ftype && fits 32 f.sid && fits 64 f.seq && fits 16 f.target &&
  fits 16 f.payloadLen

/-- The fabric header (R342). -/
def FabHdr.wf (f : FabHdr) : Bool :=
  fits 3 f.ifc && fits 4 f.fversion && fits 4 f.fftype && fits 1 f.fkey && fits 32 f.fsys && fits 16 f.src &&
  fits 16 f.dst && fits 32 f.bootCount && fits 64 f.fseq && fits 128 f.ip

/-- A lookup message (R355). -/
def LookupMsg.wf (m : LookupMsg) : Bool :=
  fits 16 m.table && fits 8 m.gen && fits 6 m.part && fits 16 m.slot && fits 16 m.slotGen &&
  fits 16 m.token && fits 8 m.vfirst && fits 8 m.nvals && fits 32 m.tag

/-- A reply message (R355). -/
def ReplyMsg.wf (m : ReplyMsg) : Bool :=
  m.req.wf && fits 8 m.status && fits 128 m.present && m.values.all (fits 32)

/-- A put message (R358). -/
def PutMsg.wf (m : PutMsg) : Bool :=
  fits 16 m.table && fits 6 m.part && fits 8 m.vfirst && fits 2 m.op && decide (m.values.length ≤ 24)

/-- A join request (R351). -/
def JoinMsg.wf (m : JoinMsg) : Bool := fits 128 m.serial && fits 16 m.addr && m.ips.all (fits 128) && fits 16 m.port

/-- A view change (R353). -/
def ViewChange.wf (c : ViewChange) : Bool :=
  fits 64 c.view && fits 16 c.addr && fits 128 c.ip && fits 16 c.port && fits 32 c.bootCount && fits 128 c.serial

/-- What a start meets: a step of R367, a copy of the directory, a region's channel, a link. -/
def BootIn.wf (b : BootIn) : Bool :=
  fits 4 b.last && b.dirBad.all (fits 1) && b.trainBad.all (fun e => fits 4 e.1 && fits 2 e.2) &&
    b.lanesBad.all fun e => decide (e.1 < 280)

/-- A BFD control packet. -/
def BfdPkt.wf (p : BfdPkt) : Bool :=
  fits 3 p.ifc && fits 3 p.sess && fits 2 p.state && fits 32 p.yourDisc && fits 32 p.myDisc && fits 8 p.mult &&
  fits 32 p.txUs && fits 32 p.rxUs

/-- A PTP message (R68). -/
def PtpMsg.wf (m : PtpMsg) : Bool :=
  fits 3 m.ifc && fits 2 m.transport && fits 8 m.domain && fits 4 m.kind && fits 16 m.seq &&
    fits 80 m.source && fits 80 m.dest && fits 128 m.rank

/-- A register or constant of a parse instruction (R116). -/
def ChiveVal.wf : ChiveVal → Bool
  | .reg r => fits 4 r
  | .const _ => true

/-- An operation of a parse program (R116): one of 16 registers, a record bit, a value that fits its field. -/
def ChiveOp.wf : ChiveOp → Bool
  | .extract dst off len => fits 4 dst && fits 14 off && decide (1 ≤ len) && decide (len ≤ 4)
  | .alu _ dst a b => fits 4 dst && fits 4 a && b.wf
  | .branch r target => fits 4 r && fits 11 target
  | .lookup dst key table => fits 4 dst && fits 4 key && fits 5 table
  | .layer ltype adv => fits 7 ltype && adv.wf
  | .declareExt len => len.wf
  | .store bitOff width src => fits 4 src && decide (width ≤ 32) && decide (bitOff + width ≤ 2048)
  | .flagBits _ => true
  | .accept => true
  | .reject => true

/-- A command whose operands fit the widths the spec gives them (R381 for the Isain commands). -/
def Instr.wf : Instr → Bool
  | .deviceReset _ h => h.wf
  | .deviceResetTest _ h => h.wf
  | .deviceShutdown _ h => h.wf
  | .powerConfig _ h recs => h.wf && recs.all SetRec.wf
  | .settingsReadForm _ h _ recs => h.wf && recs.all SetRec.wf
  | .bypassForce _ h => h.wf
  | .bypassReleaseForce _ h => h.wf
  | .bypassRearm _ h => h.wf
  | .partitionReinit _ h part => h.wf && fits 6 part
  | .partitionEnable _ h part => h.wf && fits 6 part
  | .partitionDisable _ h part => h.wf && fits 6 part
  | .partitionConfig _ h recs => h.wf && recs.all SetRec.wf
  | .partitionQuery _ h part => h.wf && fits 6 part
  | .clusterAssign _ h target graceUs clusters =>
    h.wf && fits 8 target && fits 32 graceUs && fits 16 clusters.length && clusters.all (fits 8)
  | .clusterConfig _ h recs => h.wf && recs.all SetRec.wf
  | .coreMapRead _ h start max => h.wf && fits 32 start && fits 16 max
  | .ringCreate _ h spec => h.wf && spec.wf
  | .ringConfig _ h m => h.wf && m.wf
  | .ringAttach _ h ring sid => h.wf && fits 12 ring && fits 32 sid
  | .ringDetach _ h ring => h.wf && fits 12 ring
  | .ringDestroy _ h ring => h.wf && fits 12 ring
  | .ringQuery _ h ring => h.wf && fits 12 ring
  | .ringRepush _ h ring _ count => h.wf && fits 12 ring && fits 32 count
  | .barrier _ h rings pairs =>
    h.wf && fits 7 rings.length && rings.all (fits 12) && fits 5 pairs.length &&
    pairs.all fun p => fits 16 p.1 && fits 8 p.2
  | .slotQuery _ h slot => h.wf && fits 16 slot
  | .portConfig _ h recs => h.wf && recs.all SetRec.wf
  | .portDrain _ h port => h.wf && fits 1 port
  | .portResume _ h port => h.wf && fits 1 port
  | .portStatus _ h port => h.wf && fits 1 port
  | .portTxFrame _ h ifc _ => h.wf && fits 3 ifc
  | .macsecSaInstall _ h sa => h.wf && sa.wf
  | .macsecSaRemove _ h ifc _ sc an => h.wf && fits 3 ifc && fits 4 sc && fits 2 an
  | .windowOpen _ h part win rights base pages =>
    h.wf && fits 6 part && fits 4 win && fits 2 rights && fits 48 base && fits 25 pages
  | .windowClose _ h part win => h.wf && fits 6 part && fits 4 win
  | .bfdSessionSet _ h ifc sess txUs rxUs mult _ =>
    h.wf && fits 3 ifc && fits 3 sess && fits 20 txUs && fits 20 rxUs && fits 6 mult
  | .bfdSessionRemove _ h ifc sess => h.wf && fits 3 ifc && fits 3 sess
  | .timeRead _ h => h.wf
  | .ptpConfig _ h recs => h.wf && recs.all SetRec.wf
  | .parseLoad _ h pslot addr len prog =>
    h.wf && fits 3 pslot && fits 48 addr && fits 32 len && prog.code.all ChiveOp.wf
  | .parseCommit _ h slots => h.wf && decide (slots.length = 4) && slots.all (fits 3)
  | .parseConfig _ h recs => h.wf && recs.all SetRec.wf
  | .spreadConfig _ h spec => h.wf && spec.wf
  | .patternLoad _ h setId addr len _ _ => h.wf && fits 8 setId && fits 48 addr && fits 32 len
  | .classConfig _ h recs => h.wf && recs.all SetRec.wf
  | .ruleWrite _ h pipe rows clears =>
    h.wf && fits 1 pipe && fits 6 rows.length && fits 6 clears.length && clears.all (fits 14) &&
    rows.all fun r => fits 14 r.1 && r.2.action.wf
  | .ruleRead _ h pipe start max => h.wf && fits 1 pipe && fits 32 start && fits 16 max
  | .prefixAdd _ h _ len cls _ => h.wf && fits 8 len && fits 20 cls
  | .prefixDel _ h _ len _ => h.wf && fits 8 len
  | .prefixRead _ h _ level node start max =>
    h.wf && fits 4 level && fits 24 node && fits 32 start && fits 16 max
  | .macStaticAdd _ h mif vid _ => h.wf && fits 2 mif && fits 12 vid
  | .macStaticRemove _ h vid _ => h.wf && fits 12 vid
  | .macRead _ h start max => h.wf && fits 32 start && fits 16 max
  | .macFlush _ h mif vid => h.wf && fits 3 mif && fits 13 vid
  | .flowDelete _ h pipe key _ => h.wf && fits 1 pipe && key.wf
  | .flowRead _ h pipe key => h.wf && fits 1 pipe && key.wf
  | .flowTableConfig _ h recs => h.wf && recs.all SetRec.wf
  | .egressConfig _ h recs => h.wf && recs.all SetRec.wf
  | .policerConfig _ h recs => h.wf && recs.all SetRec.wf
  | .gateListSet _ h ifc base cycle entries =>
    h.wf && fits 2 ifc && fits 64 base && fits 32 cycle && fits 9 entries.length &&
    decide (entries ≠ []) && entries.all fun e => fits 32 e.2
  | .gateListRemove _ h ifc => h.wf && fits 2 ifc
  | .queueStats _ h ifc => h.wf && fits 2 ifc
  | .queueStatsClear _ h ifc => h.wf && fits 2 ifc
  | .baselineCreate _ h bl _ => h.wf && fits 12 bl
  | .baselineChange _ h bl _ => h.wf && fits 12 bl
  | .baselineDelete _ h bl => h.wf && fits 12 bl
  | .baselineRead _ h bl => h.wf && fits 12 bl
  | .ftableCreate _ h table spec => h.wf && fits 16 table && spec.wf
  | .ftableDestroy _ h table => h.wf && fits 16 table
  | .ftableQuery _ h table => h.wf && fits 16 table
  | .generationStage _ h table g log2Buckets base n =>
    h.wf && fits 16 table && fits 8 g && fits 5 log2Buckets && fits 48 base && fits 64 n
  | .generationSeal _ h table g => h.wf && fits 16 table && fits 8 g
  | .generationCommit _ h pairs =>
    h.wf && fits 5 pairs.length && pairs.all fun p => fits 16 p.1 && fits 8 p.2
  | .generationCommitBind _ h pairs =>
    h.wf && fits 5 pairs.length && pairs.all fun p => fits 16 p.1 && fits 8 p.2
  | .generationDrop _ h table g => h.wf && fits 16 table && fits 8 g
  | .modelStage _ h domain handle cAddr cLen bindings =>
    h.wf && fits 7 domain && fits 16 handle && fits 48 cAddr && fits 32 cLen && fits 5 bindings.length &&
    bindings.all fun b => b.all (fits 8)
  | .modelRemove _ h domain handle => h.wf && fits 7 domain && fits 16 handle
  | .modelAbort _ h domain => h.wf && fits 7 domain
  | .modelCommit _ h domain => h.wf && fits 7 domain
  | .modelCommitWait _ h domain => h.wf && fits 7 domain
  | .modelQuery _ h domain start max => h.wf && fits 7 domain && fits 32 start && fits 16 max
  | .kernelLoad _ h handle addr len => h.wf && fits 16 handle && fits 48 addr && fits 32 len
  | .kernelUnload _ h handle => h.wf && fits 16 handle
  | .kernelLaunch _ h d => h.wf && d.wf
  | .memConfig _ h recs => h.wf && recs.all SetRec.wf
  | .memRetire _ h addr => h.wf && fits 48 addr
  | .fabricConfig _ h recs => h.wf && recs.all SetRec.wf
  | .fabricLeave _ h => h.wf
  | .fabricRelease _ h serial => h.wf && fits 128 serial
  | .fabricWatchAdd _ h addr => h.wf && fits 16 addr
  | .fabricWatchRemove _ h addr => h.wf && fits 16 addr
  | .fabricStatus _ h start max => h.wf && fits 32 start && fits 16 max
  | .counterRead _ h ids => h.wf && fits 8 ids.length && ids.all CounterId.wf
  | .counterReadClear _ h ids => h.wf && fits 8 ids.length && ids.all CounterId.wf
  | .rosemaryRead _ h start max => h.wf && fits 32 start && fits 16 max
  | .rosemaryFreeze _ h => h.wf
  | .rosemaryUnfreeze _ h => h.wf
  | .rosemaryClear _ h upto => h.wf && fits 64 upto
  | .traceConfig _ h cluster ring mode post _ =>
    h.wf && fits 8 cluster && fits 12 ring && fits 2 mode && fits 16 post
  | .traceMarkBegin _ h cluster mark => h.wf && fits 8 cluster && fits 16 mark
  | .traceMarkEnd _ h cluster mark => h.wf && fits 8 cluster && fits 16 mark
  | .waitforRead _ h start max => h.wf && fits 32 start && fits 16 max
  | .quiesce _ h => h.wf
  | .quiesceRelease _ h => h.wf
  | .globalStop _ h => h.wf
  | .globalResume _ h => h.wf
  | .updateOpen _ h len => h.wf && fits 32 len
  | .updateData _ h offset _ => h.wf && fits 32 offset
  | .updateFinish _ h _ => h.wf
  | .updateActivate _ h => h.wf
  | .updateConfirm _ h => h.wf
  | .updateRollback _ h => h.wf
  | .updateAbort _ h => h.wf
  | .updateStatus _ h => h.wf
  | .attest _ h nonce repAddr _ => h.wf && decide (nonce.length = 32) && fits 48 repAddr
  | .certRead _ h start max => h.wf && fits 32 start && fits 16 max
  | .sessionKeySet _ h part kemCt _ => h.wf && fits 6 part && decide (kemCt.length = 1568)
  | .rightsSet _ h part _ => h.wf && fits 6 part
  | .debugUnlock _ h tokAddr tokLen _ => h.wf && fits 48 tokAddr && fits 32 tokLen
  | .bootStatus _ h => h.wf
  | .settingsSync _ h => h.wf
  | .logRead _ h start max => h.wf && fits 32 start && fits 16 max
  | .commandTimeout _ via seq => via.wf && fits 64 seq
  | .hello _ f p => f.wf && fits 8 p.part && decide (p.ct.length = 784)
  | .helloPartExpiry _ ifc seq => fits 3 ifc && fits 64 seq
  | .keyFetch _ f => f.wf
  | .ringWrite _ f _ _ => f.wf
  | .doorbellProduce _ f _ => f.wf
  | .doorbellRelease _ f _ => f.wf
  | .mboxReq _ f h opcode => f.wf && h.wf && fits 16 opcode
  | .winWrite _ f offset _ => f.wf && fits 64 offset
  | .winRead _ f offset len => f.wf && fits 64 offset && fits 32 len
  | .flowTableLockSet _ f pipe => f.wf && fits 1 pipe
  | .flowTableLockClear _ f pipe => f.wf && fits 1 pipe
  | .hostClose _ f status => f.wf && fits 16 status
  | .sessionIdleTimeout _ sid => fits 32 sid
  | .ackSend _ sid => fits 32 sid
  | .creditAck _ sid ring => fits 32 sid && fits 12 ring
  | .ringPush _ ring => fits 12 ring
  | .contextFetch _ ring _ => fits 12 ring
  | .requestAdmit _ ring => fits 12 ring
  | .slotWaitExpiry _ ring => fits 12 ring
  | .fenceEntry _ ring => fits 12 ring
  | .fenceComplete _ ring => fits 12 ring
  | .nopEntry _ ring => fits 12 ring
  | .commandEntry _ ring => fits 12 ring
  | .ringFullStallExpiry _ ring => fits 12 ring
  | .frameReceive _ ifc _ _ _ => fits 3 ifc
  | .pfcReceive _ ifc quanta => fits 2 ifc && quanta.all fun e => fits 3 e.1 && fits 16 e.2
  | .arpNdEcho _ ifc _ => fits 3 ifc
  | .chiveParse _ _ group _ => fits 4 group
  | .chiveGroupRewrite _ group => fits 4 group
  | .classify _ _ _ => true
  | .flowMissComplete _ _ => true
  | .reverseLookupDone _ slot => fits 16 slot
  | .packetModelWalk _ _ core _ => fits 12 core
  | .pmWaitExpiry _ _ => true
  | .patternScanStart _ _ => true
  | .patternScanEnd _ _ _ => true
  | .egressDecision _ _ _ => true
  | .egHoldExpiry _ _ => true
  | .transmitSelect _ ifc => fits 3 ifc
  | .gateEntryAdvance _ ifc => fits 2 ifc
  | .gateListStart _ ifc => fits 2 ifc
  | .laneFail _ port lane => fits 1 port && fits 3 lane
  | .fallbackTimeout _ port => fits 1 port
  | .linkUp _ ifc => fits 3 ifc
  | .linkDown _ ifc => fits 3 ifc
  | .bypassLinkTimeout _ => true
  | .bypassRetryExpiry _ => true
  | .bypassHoldExpiry _ => true
  | .drainComplete _ port => fits 1 port
  | .drainTimeout _ port => fits 1 port
  | .ptpMessageReceive _ m => m.wf
  | .ppsInEdge _ _ => true
  | .ppsOutPulse _ => true
  | .bfdReceive _ p => p.wf
  | .bfdTxTimer _ ifc sess => fits 3 ifc && fits 3 sess
  | .bfdDetectTimeout _ ifc sess => fits 3 ifc && fits 3 sess
  | .slotRunning _ slot => fits 16 slot
  | .lookupJoinHold _ home => fits 16 home
  | .localLookupDone _ _ _ => true
  | .feLockRetry _ _ => true
  | .fetchEndTick _ _ => true
  | .walkComplete _ core _ _ => fits 12 core
  | .shardRecopyDone _ core domain handle _ => fits 12 core && fits 7 domain && fits 16 handle
  | .deadlineCutoff _ slot => fits 16 slot
  | .reduceGroupOpen _ core ctx _ _ _ _ _ => fits 12 core && fits 2 ctx
  | .reduceContribution _ cluster _ _ => fits 8 cluster
  | .reduceCloseTick _ cluster _ => fits 8 cluster
  | .kernelStart _ core => fits 12 core
  | .kernelImageLoadDone _ core kernel _ => fits 12 core && fits 16 kernel
  | .kernelEnd _ core ctx status => fits 12 core && fits 2 ctx && fits 8 status
  | .kernelMaxRunExpiry _ core ctx => fits 12 core && fits 2 ctx
  | .vectorInstruction _ core ctx _ _ _ _ _ _ _ => fits 12 core && fits 2 ctx
  | .clusterStoreAtomic _ core ctx _ addr _ _ _ => fits 12 core && fits 2 ctx && fits 64 addr
  | .clusterFence _ core ctx acc => fits 12 core && fits 2 ctx && acc.all fun x => match x with
      | .load _ addr _ => fits 64 addr
      | .store addr _ _ => fits 64 addr
  | .kernelMarkInsn _ core ctx _ mark => fits 12 core && fits 2 ctx && fits 16 mark
  | .dmaPost _ core ctx _ => fits 12 core && fits 2 ctx
  | .dmaComplete _ core ctx => fits 12 core && fits 2 ctx
  | .matrixJobIssue _ core ctx array _ => fits 12 core && fits 2 ctx && fits 1 array
  | .matrixJobEnd _ core array _ => fits 12 core && fits 1 array
  | .reassignGraceExpiry _ cluster => fits 8 cluster
  | .clusterResetDone _ cluster => fits 8 cluster
  | .rsUpdateDone _ pipe _ _ => fits 1 pipe
  | .rsUpdateTimeout _ pipe _ => fits 1 pipe
  | .baselineWindowClose _ bl => fits 12 bl
  | .generationRetire _ table g => fits 16 table && fits 8 g
  | .generationDropDone _ table g => fits 16 table && fits 8 g
  | .epochRetire _ domain => fits 7 domain
  | .modelCommitFlip _ domain => fits 7 domain
  | .barrierComplete _ part _ => fits 6 part
  | .quiesceDone _ => true
  | .heartbeat _ f => f.wf
  | .join _ f m => f.wf && m.wf
  | .joinReply _ f status addr coord =>
    f.wf && fits 16 status && fits 16 addr && fits 128 coord.1 && fits 16 coord.2
  | .view _ f changes => f.wf && changes.all ViewChange.wf
  | .elect _ f serial prio term highView =>
    f.wf && fits 128 serial && fits 8 prio && fits 32 term && fits 64 highView
  | .lookup _ f msgs => f.wf && msgs.all LookupMsg.wf
  | .lookupReply _ f msgs => f.wf && msgs.all ReplyMsg.wf
  | .put _ f msgs => f.wf && msgs.all PutMsg.wf
  | .putAck _ f acked statuses => f.wf && fits 64 acked && statuses.all (fits 8)
  | .fabricPost _ core ctx ring entry =>
    fits 12 core && fits 2 ctx && fits 12 ring && decide (entry.length = 16)
  | .heartbeatSend _ => true
  | .electSend _ => true
  | .joinRetry _ => true
  | .peerLossTimeout _ peer => fits 16 peer
  | .lostPeerProbe _ peer => fits 16 peer
  | .lookupRto _ tag => fits 32 tag
  | .putRto _ fseq => fits 64 fseq
  | .channelSuspectExpiry _ peer channel => fits 16 peer && fits 8 channel
  | .pwrgdRise _ => true
  | .pwrgdFall _ => true
  | .coldRstNFall _ _ => true
  | .coldRstNRise _ b => b.wf
  | .warmRstNFall _ _ => true
  | .warmRstNRise _ b => b.wf
  | .startWatchdogExpiry _ b => b.wf
  | .sdRefclkLoss _ => true
  | .sdRefclkReturn _ => true
  | .sysRefclkLoss _ => true
  | .freezeNFall _ => true
  | .freezeNRise _ => true
  | .jtagInstruction _ _ _ => true
  | .smbPwrCapWrite _ value => fits 16 value
  | .smbAlertStatusClear _ _ => true
  | .smbWriteRefused _ offset _ => fits 8 offset
  | .clusterThermalStep _ cluster _ => fits 8 cluster
  | .xDieHot _ _ => true
  | .thermtrip _ => true
  | .voltageDroop _ cluster => fits 8 cluster
  | .powerSample _ _ _ => true
  | .ceilingUpdate _ => true
  | .timeBeacon _ _ _ => true
  | .flowAgingPass _ pipe _ _ => fits 1 pipe
  | .macAgingPass _ entry _ => fits 16 entry
  | .macPinRelease _ entry => fits 16 entry
  | .ruleScrubPass _ pipe bad => fits 1 pipe && bad.all (fits 14)
  | .tableEntryRewrite _ _ _ => true
  | .patrolScrub _ _ _ => true
  | .sramScrub _ _ _ _ _ => true
  | .mr4Poll _ region channel _ => fits 4 region && fits 2 channel
  | .oscillatorTrack _ region channel => fits 4 region && fits 2 channel
  | .pageRetire _ addr => fits 48 addr
  | .linkFlitReceive _ _ _ _ _ _ => true
  | .dieSilentTimeout _ _ => true
  | .devResetRunClear _ => true
  | .isainHeartbeatMiss _ core => fits 2 core
  | .isainRestartDone _ undo => undo.all fun e => e.1.wf && fits 64 e.2
  | .hungSlotScan _ => true
  | .reinitRevoke _ part => fits 6 part
  | .orphanSlotFree _ slot => fits 16 slot
  | .spareTest _ core _ => fits 12 core
  | .coreRetire _ core spareFails => fits 12 core && spareFails.all (fits 12)
  | .settingsAppend _ _ => true
  | .updateLockExpiry _ => true
  | .rosemaryRecord _ kind unit _ => fits 16 kind && fits 32 unit
  | .rosemaryLogCopy _ => true
  | .dillDrain _ cluster => fits 8 cluster
  | .pfcPauseExpiry _ ifc prio => fits 2 ifc && fits 3 prio
  | .flowLearnComplete _ pipe _ => fits 1 pipe
  | .deviceResetApply _ b => b.wf
  | .wallTimeHoldover _ => true

end Sys2Proof
end

