-- ==== Sys2Proof/Tests/Slice0.lean ====
section
/-! SUPPORT. Small states, and for every statement with hypotheses a state and operands that meet them; terms
that well-formedness refuses; values the spec works out. A theorem witness_P is for the part P of a
statement of Certificates/Slice0/Obligations.lean. -/

set_option Elab.async false

namespace Tests

open Sys2Proof Sys2Proof.Machine

/-! ### Small states -/

/-- Every command in flight under number 7, so that one header serves the witnesses of every command. -/
def flying : List (Nat × Nat) := opcodes.map fun op => (7, op)

/-- A device that runs: power good, no reset, step 15 reached; partitions 0 and 3 enabled; session 1 of
partition 0 on the service port and session 2 of partition 3 on interface 0, commands in flight;
every interface linked, interface 0 a network one; both ports in service. -/
def up : State :=
  { State.reset with
    pkg := { coldLow := false, devState := .running }
    ifcs := [(0, { role := 1, link := true }), (1, { link := true }), (2, { role := 2, link := true }),
      (3, { link := true }), (4, { link := true })]
    ports := [(0, { drain := .inService }), (1, { drain := .inService })]
    ouv := {
      sessions := [(1, { part := 0, ifc := 4, port := 38412, inflight := flying }),
        (2, { part := 3, ifc := 0, port := 38412, inflight := flying })]
      nextSid := 3 }
    parts := [(0, { enabled := true, rights := 3 }), (3, { enabled := true })]
    bay := { runSlot := 0, step14 := true, step15 := true, runningSince := some 0 } }

/-- A command header of partition 0, in session 1. -/
def p0 : CmdHdr :=
  { via := .mbox 1, part := 0, token := 1, flag := false, timeoutUs := 0, seq := 7, lenBad := false
    resvBad := false }

/-- A command header of partition 3, in session 2. -/
def p3 : CmdHdr := { p0 with via := .mbox 2, part := 3 }

/-- A frame of session 2, of a type and for a target. -/
def fr (ftype target : Nat) : OuvHdr :=
  { ifc := 0, version := 1, ftype := ftype, ackReq := true, lenOk := true, resvBad := false
    overrun := false, sid := 2, seq := 5, target := target, tagOk := true }

/-- Session 2 of `up`. -/
def ses2 : Session := { part := 3, ifc := 0, port := 38412, inflight := flying }

/-- A setting record of four bytes. -/
def setRec (id scope value : Nat) : SetRec := { id := id, scope := scope, len := 4, value := value, resvBad := false }

/-- A start that takes the recovery strap or not, and gets to a step. -/
def boot (recovery : Bool) (last : Nat) : BootIn :=
  { recovery := recovery, okA := true, okB := false, nonce := 9, ek := [], sig := [], last := last
    digestBad := false }

/-- `Ready`, as one check. -/
theorem ready_of {h : CmdHdr} {op : Nat} {stop : Bool} {s : State}
    (e : (s.isainUp && s.carrierPart h op == some h.part && !h.lenBad && !h.resvBad && !unlisted h op && !h.fullBad &&
      !s.bay.full && (s.part h.part).enabled && (s.part h.part).token == h.token && s.stateAllows op stop) = true) :
    Ready h op stop s := by
  simp only [Bool.and_eq_true, Bool.not_eq_true', beq_iff_eq] at e
  obtain ⟨⟨⟨⟨⟨⟨⟨⟨⟨a, b⟩, c⟩, d⟩, f⟩, k⟩, l⟩, g⟩, i⟩, j⟩ := e
  exact ⟨a, b, c, d, f, k, l, g, i, j⟩

/-- `Ready` of a header of partition 0 in `up`, for every command. -/
theorem ready_p0 : ∀ op ∈ opcodes, Ready p0 op false up ∧ Ready p0 op true up := by
  have e : ∀ op ∈ opcodes, ∀ stop, (up.isainUp && up.carrierPart p0 op == some p0.part && !p0.lenBad &&
      !p0.resvBad && !unlisted p0 op && !p0.fullBad && !up.bay.full && (up.part p0.part).enabled && (up.part p0.part).token == p0.token &&
      up.stateAllows op stop) = true := by decide +kernel
  exact fun op h => ⟨ready_of (e op h false), ready_of (e op h true)⟩

/-- `up` with interfaces 0 and 2 an inline pair, which may bypass. -/
def paired : State :=
  { up with ifcs := [(0, { role := 1, pair := some 2, link := true }), (2, { role := 1, pair := some 0, link := true })] }

/-- `up` with interfaces 0 and 2 an inline pair as R58 has it. -/
def inlined : State :=
  { up with ifcs := [(0, { role := 1, pair := some 2, link := true }), (2, { role := 2, pair := some 0, link := true })] }

/-- A `REQUEST_IN` ring of partition 3. -/
def reqRing : Ring := { rtype := 1, owner := 3, enabled := true, baseAddr := 4096, cqRing := 12, limitIdx := 64 }

/-- A `COMPLETION` ring of partition 3. -/
def outRing : Ring := { rtype := 2, owner := 3, enabled := true, baseAddr := 8192, pushSession := 2 }

/-- `up` with rings 11 (`REQUEST_IN`) and 12 (`COMPLETION`) of partition 3, both cached. -/
def ringed (r o : Ring) : State :=
  { up with rings := { ctx := [(11, r), (12, o)], cache := { cached := [11, 12] } } }

/-- A frame's 60 bytes: a destination, a source, EtherType 0x88B5. -/
def bytes60 : List Byte := [1, 2, 3, 4, 5, 6, 7, 8, 9, 10, 11, 12, 0x88, 0xB5] ++ List.replicate 46 0

/-- Frame 1, waiting to be parsed, of interface 0. -/
def frame1 : Frame := { bytes := bytes60, ifc := 0, rxTick := 0, prio := 0 }

/-- `up` with it, and a program for interface 0. -/
def framed (f : Frame) : State :=
  { up with parser := { frames := [(1, f)], nextFrame := 2, ifcSlot := [(0, 7)], slots := [(7, {})] } }

/-- `up` with clusters 0 and 255 of the packet path and of partition 3. -/
def clustered : State := { up with comp := { clusters := [(0, { owner := 0x40 }), (255, { owner := 3 })] } }

/-- An action that forwards, with nothing else asked. -/
def plain : RuleAction :=
  { valid := true, flowMode := 0, macLearn := false, pmEn := false, deepEn := false, scanEn := false
    annotate := false, fwdAction := 0, pmModel := 0, deepModel := 0, deepPart := 0, scanSet := 0, policer := 0
    egressArg := 0 }

/-- A row that matches every key, and one that matches a key of all ones. -/
def anyRow : RuleRow := { key := 0, mask := 0, action := plain, resvBad := false }
def onesRow : RuleRow := { anyRow with key := BitVec.allOnes 256, mask := BitVec.allOnes 256 }

/-- `framed` with a rule that matches every frame. -/
def ruled (f : Frame) : State := { framed f with cls := { pipes := [(0, { rules := [(9, anyRow)] })] } }

/-- The first of the eight places of station 5 in VLAN 1. -/
def place5 : Nat := (macPlaces 5 1).headD 0

/-- `up` with station 5 in the MAC table. -/
def stationed (e : MacEntry) : State := { up with cls := { macs := [(place5, e)] } }

/-- A window of partition 3 over one page. -/
def windowed (rights : Nat) : State :=
  { up with ouv := { up.ouv with windows := [(winKey 3 15, { rights := rights, base := 4096, pages := 1 })] } }

/-- A model of one output with no tree, no input and one binding to cluster 255. -/
def model1 (packet : Bool) : Model :=
  { handle := 1, packet := packet, cAddr := 1048576, cLen := 64
    params := { defaultBudget := 1000, maxBudget := 5000, nItemsMax := 1 }
    inputs := [], bands := [], nodes := [], trees := [], stages := [], leaves := [], bits := [], nPclust := 1
    places := [], kernelAddrs := [], argBase := 0, steps := [], cells := []
    bindings := [{ clusters := [255], cores := [] }] }

/-- A feature table of partition 3. -/
def table3 (gens : List Generation) : FTable :=
  { owner := 3, ftMode := 0, valFmt := 0, nVal := 8, entLines := 1, hashSeed := 1, shardSeed := 2
    fallback := none, localBudget := 1000, remoteBudget := 10000, remoteGrace := 1000
    remoteInflightMax := 16, gens := gens }

/-- `up` with port 0 in a state of draining. -/
def draining (d : Drain) : State := { up with ports := [(0, { drain := d }), (1, { drain := .inService })] }

/-- A slot of partition 3 with model 1's request. -/
def slot3 (st : SlotState) (src : SlotSrc) : Slot :=
  { state := st, part := 3, model := 1, epoch := 1, src := src, deadline := 900 }

/-- `clustered` with it, and frame 1 at a stage, with partition 3's and the packet path's model 1 live. -/
def serving (x : Slot) (f : Frame) : State :=
  { clustered with
    rings := { clustered.rings with slots := [(0, x)] }
    parser := (framed f).parser
    models := { domains := [(3, { models := [model1 false] }), (0x40, { models := [model1 true], pmCalls := [(1, 1)] })] } }

/-- Frame 1 as it waits for a walk slot since 0, its action naming packet model 1. -/
def pmFrame : Frame := { frame1 with stage := .pmWait 0, pmCluster := some 0, act := some { plain with pmEn := true, pmModel := 1 } }

/-- `serving` it, with core 1 of the packet path's cluster 0 in the map. -/
def pmServing : State :=
  { serving (slot3 .free (.frame 1)) pmFrame with
    comp := { clustered.comp with map := [(0, { state := 1, phys := 1, home := 1 })] } }

/-- A launch of kernel 2 on logical core 0. -/
def launch1 (n : Nat) : LaunchDesc :=
  { kernel := 2, firstCore := 0, nCores := n, layerId := 0, opId := 0, slot := 0, slotGen := 0, slotV := false
    argAddr := 0, argLen := 0, deadline := 0, resvBad := false }

/-- `up` with kernel 2 of partition 3, and core 16 of cluster 1, owned by `owner`, as logical core 0. -/
def kernelled (owner : Nat) (c : Core) : State :=
  { up with
    parts := [(0, { enabled := true, rights := 3 }),
      (3, { enabled := true, rights := 1, memRanges := [(0, (4096, 256, 3))] })]
    comp := {
      kernels := [((3, 2), { part := 3, addr := 4096, len := 64 })]
      activeLogical := 1, map := [(0, { state := 1, phys := 16, home := 16 })]
      clusters := [(1, { owner := owner })], cores := [(16, c)] } }

/-- A context that runs a launch. -/
def ctx1 : Ctx := { desc := launch1 1, part := 3, asker := some p3, image := some (4096, 64), start := 0 }

/-- A completion ring that has pushed up to 8 and produced 9. -/
def pushedRing : Ring := { outRing with prodIdx := 9, pushIdx := 8 }


/-- `up` with priority 7 of interface 0 able to pause, paused until 9. -/
def pausing : State :=
  { up with ifcs := [(0, { role := 1, link := true, pfcEnable := 0x80, pausedUntil := [(7, 9)] })] }

/-- A policer with both buckets full. -/
def policer1 : Policer :=
  { cir := 1000, pir := 2000, cbs := 64, pbs := 128, yellowAction := 0, redAction := 0, yellowDscp := 0
    redDscp := 0, grant := none, cTokens := 512000, pTokens := 1024000, tick := 0 }

/-- The key of a frame whose record is empty. -/
def key0 : FlowKey :=
  { srcIp := 0, dstIp := 0, srcPort := 0, dstPort := 0, ipProto := 0, vidOuter := 0, tunnelId := 0, inIf := 0 }

/-- A baseline of partition 3. -/
def base3 : BaselineSpec := { source := some 3, index := some 3, winNs := none, zHi := some 0x40400000, zLo := none }

/-- A counter id of the device's scope, one of each partition's, and none. -/
def idDev : CounterId := { id := Ctr.fabTagFail, scope := 0 }
def idPart : CounterId := { id := Ctr.slotHang, scope := 3 }

/-! ### Witnesses: power, reset, clocks, bypass, stop -/

theorem witness_StepRunsFront : ({ up with pending := [.portStatus 5 p0 0, .timeRead 6 p0] } : State).pending =
    .portStatus 5 p0 0 :: [.timeRead 6 p0] ∧ up.pending = [] := by
  repeat' first | refine And.intro ?_ ?_ | decide +kernel

theorem witness_GoodKept : State.reset.Good ∧ FusedAs State.reset.fuses State.reset ∧
    ∃ s', step up = .next s' := by
  refine ⟨⟨by decide, by simp [Observe.countersFit, State.reset], ?_⟩, ⟨rfl, Nat.le_refl _⟩, ⟨up, rfl⟩⟩
  exact ⟨by decide, by simp [State.reset], by simp [State.reset]⟩

/-- The header of each check of R383, each failing at its own step. -/
theorem witness_RefusalOrder :
    commandOf (.portStatus 5 p0 0) = some (5, p0, { op := 0x0404, stop := true }) ∧
    State.reset.isainUp = false ∧ up.isainUp = true ∧ up.carrierPart p0 0x0404 = some 0 ∧
    up.carrierPart { p0 with seq := 8 } 0x0404 = none ∧ up.carrierPart p0 0x9999 = none ∧
    ({ p0 with lenBad := true } : CmdHdr).resvBad = false ∧
    commandOf (.powerConfig 5 p0 [{ setRec 1 0 500 with resvBad := true }]) =
      some (5, p0, { op := 0x0103, resv := some 0 }) ∧
    up.carrierPart { p0 with part := 3 } 0x0404 = some 0 ∧
    ((up.part 3).enabled = true ∧ (up.part 3).token ≠ ({ p3 with token := 2 } : CmdHdr).token) ∧
    (({ up with obs := { islandsStopped := true } } : State).stateAllows 0x0402 false = false) := by
  repeat' first | refine And.intro ?_ ?_ | decide +kernel

theorem witness_AnswersTouchOnlyCarriers : p0.via = .mbox 1 := by
  repeat' first | refine And.intro ?_ ?_ | decide +kernel

/-- `up` with the reset pins low, and with no power. -/
def held (cold : Bool) : State := { up with pkg := { up.pkg with coldLow := cold, warmLow := !cold } }

/-- A device whose power came back with `COLD_RST_N`, and `WARM_RST_N` or not, low. -/
def fallen (warm : Bool) : State :=
  { State.reset with pkg := { up.pkg with coldLow := true, warmLow := warm, halt := .powerLost } }

theorem witness_PowerAndResetPins :
    1999 < 2000 ∧ (2000 ≤ 2000 ∧ up.pkg.coldLow = false ∧ up.pkg.pwrgd = true ∧ up.pkg.halt = .none) ∧
    (up.pkg.warmLow = false ∧ up.pkg.coldLow = false) ∧
    (∀ b ∈ [true, false], (fallen b).pkg.pwrgd = true ∧ (fallen b).pkg.halt = .powerLost ∧
      (fallen b).pkg.coldLow = true ∧ (fallen b).pkg.warmLow = b) := by
  repeat' first | refine And.intro ?_ ?_ | decide +kernel

theorem witness_ResetPinsStart :
    ((held true).pkg.pwrgd = true ∧ (held true).pkg.halt = .none) ∧
    ((held true).pkg.coldLow = true ∧ (held true).pkg.warmLow = false) ∧
    ((held false).pkg.pwrgd = true ∧ (held false).pkg.halt = .none) ∧
    ((held false).pkg.warmLow = true ∧ (held false).pkg.coldLow = false) ∧
    ((held true).pkg.coldLow = true ∧ (held true).pkg.warmLow = false ∧ (boot true 3).recovery = true ∧ 3 ≤ (boot true 3).last) := by
  repeat' first | refine And.intro ?_ ?_ | decide +kernel

theorem witness_StartReachesRunning : (boot false 15).last = 15 ∧ up.loadBad (boot false 15) 0 = false := by
  repeat' first | refine And.intro ?_ ?_ | decide +kernel

/-- `up` with a device reset and the start watchdog due at 9. -/
def resetting : State :=
  { up with bay := { up.bay with resetDue := some 9, watchdogDue := some 9, devResetRun := 3 } }

theorem witness_DeviceResets :
    (resetting.alive = true ∧ resetting.bay.resetDue = some 9 ∧ 9 ≤ max resetting.tick 9 ∧
      3 ≤ resetting.bay.devResetRun) ∧
    (resetting.alive = true ∧ resetting.bay.watchdogDue = some 9 ∧ 9 ≤ max resetting.tick 9) ∧
    (up.running = true ∧ up.bay.runningSince = some 0 ∧ 0 + 600000000000 ≤ max up.tick 600000000000) ∧
    (Ready p0 0x0101 true up ∧ p0.part = 0) := by
  repeat' first | refine And.intro ?_ ?_ | decide +kernel | rfl | exact ready_of (by decide +kernel)

theorem witness_ClockAndDebugPins :
    (up.alive = true ∧ up.pkg.sdClock = true) ∧
    (({ up with pkg := { up.pkg with sdClock := false } } : State).alive = true ∧
      ({ up with pkg := { up.pkg with sdClock := false } } : State).pkg.sdClock = false) ∧
    (State.reset.alive = false ∧ State.reset.pkg.sdClock = true) ∧
    (up.pkg.pwrgd = true ∧ up.pkg.coldLow = false ∧ up.pkg.halt = .none ∧ up.pkg.sysClock = true) ∧
    (up.alive = true ∧ (100 : Nat) ≤ 100 ∧ (900000000 : Nat) ≤ 900000000) ∧
    (({ up with wall := { state := 1 } } : State).alive = true ∧
      (({ up with wall := { state := 1 } } : State).at 1000000000).wallAt
        (({ up with wall := { state := 1 } } : State).at 1000000000).tick = some 1000000000 ∧
      1000000000 % 1000000000 = 0) ∧
    (({ up with pkg := { up.pkg with ppsOut := some 0 } } : State).pkg.ppsOut = some 0 ∧ up.pkg.ppsOut = none) ∧
    (up.obs.freezeLow = false ∧ up.running = true ∧ up.obs.islandsStopped = false) ∧
    (({ up with obs := { freezeLow := true, islandsStopped := true } } : State).obs.freezeLow = true) ∧
    up.pkg.pwrgd = true := by
  repeat' first | refine And.intro ?_ ?_ | decide +kernel

theorem witness_PowerAndHeat :
    up.alive = true ∧ up.running = true ∧ (255 < 256) ∧ (up.alive = true ∧ (105 : Int) ≤ 105) ∧
    (up.pkg.pwrgd = true ∧ up.pkg.tripArmed = true) ∧ (({ up with tick := 5000000 } : State).smbUp = true ∧ 40 ≤ 40 ∧ 90 ≤ 90) := by
  repeat' first | refine And.intro ?_ ?_ | decide +kernel

theorem witness_PowerConfig :
    (Ready p0 0x0103 false up ∧ p0.part = 0 ∧ 1 ≤ 4 ∧ 4 ≤ 256) ∧ (400 ≤ 400 ∧ 900 ≤ 900) ∧
    (1000 ≤ 1000 ∧ 3300 ≤ 3300 ∧ 3300 % 50 = 0) ∧ (399 < 400 ∨ 900 < 399) := by
  repeat' first | refine And.intro ?_ ?_ | rfl | decide | exact ready_of (by decide +kernel)

/-- `up` with the three bypass timers due at 9. -/
def timing : State :=
  { up with pkg := { up.pkg with
    bypass := { reqHigh := true, linkDue := some 9, retryDue := some 9, holdDue := some 9 } } }

theorem witness_BypassControl :
    (Ready p0 0x0104 false up ∧ p0.part = 0) ∧
    (timing.alive = true ∧ timing.pkg.bypass.linkDue = some 9 ∧ 9 ≤ max timing.tick 9) ∧
    timing.pkg.bypass.retryDue = some 9 ∧ timing.pkg.bypass.holdDue = some 9 := by
  repeat' first | refine And.intro ?_ ?_ | decide +kernel | rfl | exact ready_of (by decide +kernel)

theorem witness_BypassLowAndPortsIdle : paired.pairs ≠ [] ∧ 3 < 4 := by
  repeat' first | refine And.intro ?_ ?_ | decide +kernel

theorem witness_BypassArmsOnlyWhenAllowed : up.canArm = false ∧ paired.canArm = true := by
  repeat' first | refine And.intro ?_ ?_ | decide +kernel

theorem witness_StopAndResume :
    (({ up with obs := { ownStop := true, islandsStopped := true } } : State).obs.ownStop = true) ∧
    (({ up with obs := { islandsStopped := true } } : State).obs.islandsStopped = true ∧
      ({ up with obs := { islandsStopped := true } } : State).obs.ownStop = false ∧
      ({ up with obs := { islandsStopped := true } } : State).obs.freezeLow = false) := by
  repeat' first | refine And.intro ?_ ?_ | decide +kernel

theorem witness_BeaconSlews :
    (up.alive = true ∧ (up.cluster 3).dill.marks = [] ∧ tget up.islandTick 3 = none) ∧
    tget ({ up with islandTick := [(3, 9, 5)] } : State).islandTick 3 = some (9, 5) := by
  repeat' first | refine And.intro ?_ ?_ | decide +kernel

/-! ### Witnesses: ports, links, BFD, wall time -/

/-- A secure association for transmission or reception. -/
def sa (transmit : Bool) : SaSpec :=
  { ifc := 3, transmit := transmit, sc := 15, an := 3, xpn := false, ssci := 0, sci := 1, nextPn := 1
    salt := 0, sak := 1 }

/-- `up` with a control queue that fills the shared buffer. -/
def bufferFull : State :=
  { up with eg := { queues := [(qKey 0 8, { ctl := [(0, 100663296, .ptp 0 0 none)] })] } }

/-- An ARP request for 0.0.0.5. -/
def arp60 : List Byte :=
  [1, 2, 3, 4, 5, 6, 7, 8, 9, 10, 11, 12, 8, 6, 0, 1, 8, 0, 6, 4, 0, 1, 7, 8, 9, 10, 11, 12, 0, 0, 0, 6] ++
  [0, 0, 0, 0, 0, 0, 0, 0, 0, 5] ++ List.replicate 18 0

theorem witness_PortCommands :
    p0.part = 0 ∧ 1 < 2 ∧ Ready p0 0x0402 false (draining .drained) ∧
    ((draining .drained).port 0).drain = .drained ∧
    (∃ i ∈ inlined.portIfcs 0, (inlined.partner i).isSome = true) ∧
    (Ready p0 0x0402 false up ∧ (up.port 1).drain = .inService) ∧
    (Ready p0 0x0403 false (draining .drained) ∧ ((draining .drained).port 0).drain = .drained) ∧
    (Ready p0 0x0403 false up ∧ (up.port 0).drain ≠ .drained) ∧
    (Ready p0 0x0405 false up ∧ 60 ≤ bytes60.length ∧ bytes60.length + 4 ≤ (up.ifc 3).maxFrame ∧ 3 < 4 ∧
      (up.ifc 3).link = true ∧ up.bufferUse + (bytes60.length + 4) ≤ up.sharedBuffer) ∧
    (Ready p0 0x0405 false bufferFull ∧ (bufferFull.ifc 3).link = true ∧
      bufferFull.sharedBuffer < bufferFull.bufferUse + (bytes60.length + 4)) ∧
    (bytes60.length + 4 ≤ (up.ifc 4).maxFrame ∧ (up.ifc 4).link = true ∧ up.serviceFrame arp60 = true ∧
      60 ≤ arp60.length ∧ arp60.length + 4 ≤ (up.ifc 4).maxFrame ∧ up.serviceFrame bytes60 = false) ∧
    (Ready p0 0x0405 false paired ∧ (paired.ifc 3).link = false) ∧
    (Ready p0 0x0406 false up ∧ (sa true).ifc < 4 ∧ (sa true).sc < 16 ∧ (sa true).an < 4) ∧
    ((sa true).transmit = true ∧ ∀ e ∈ (up.ifc (sa true).ifc).txSas, e.1 / 4 = (sa true).sc) ∧
    ((sa false).transmit = false ∧ (saChannels (up.ifc (sa false).ifc).rxSas).length < 16) ∧
    (Ready p0 0x0407 false up ∧ 3 < 4 ∧ 15 < 16 ∧ 3 < 4) := by
  repeat' first | refine And.intro ?_ ?_ | decide +kernel | rfl | exact ready_of (by decide +kernel)

theorem witness_StatusReads :
    (1 < 2 ∧ Ready p0 0x0404 true up) ∧ (2 ≤ 2 ∧ Ready p3 0x0404 true up) ∧ Ready p3 0x0501 true up := by
  repeat' first | refine And.intro ?_ ?_ | decide +kernel | rfl | exact ready_of (by decide +kernel)

/-- `up` with a BFD session whose two timers are due at 9. -/
def bfdUp : State :=
  { up with ifcs := [(0, { role := 1, link := true, bfd := [(7, {
      txUs := 1000, rxUs := 1000, mult := 3, peer := 1, detectDue := some 9 })] })] }

/-- A BFD packet for it. -/
def bfdPkt (auth : Bool) : BfdPkt :=
  { ifc := 0, sess := 7, peer := 1, authBit := auth, state := 1, yourDisc := 0, myDisc := 1, mult := 3, txUs := 1000
    rxUs := 1000 }

/-- The session it is for. -/
def bfd1 : Bfd := { txUs := 1000, rxUs := 1000, mult := 3, peer := 1, detectDue := some 9 }

theorem witness_BfdSessions :
    (0 < 4 ∧ 7 < 8) ∧
    (Ready p0 0x040A false up ∧ p0.part = 0 ∧ 1000 ≤ 1000 ∧ 1000000 ≤ 1000000 ∧ 3 ≤ 3 ∧ 50 ≤ 50) ∧
    ((bfdPkt true).ifc = 0 ∧ (bfdPkt true).sess = 7 ∧ bfdUp.moving = true ∧ (bfdUp.ifc 0).role ≠ 0 ∧
      (bfdPkt true).authBit = true) ∧
    ((bfdPkt false).authBit = false ∧ bfdVoid (bfdPkt false) bfd1 = false ∧ bfdUp.bfd 0 7 = some bfd1 ∧
      bfdVoid { bfdPkt false with mult := 0 } bfd1 = true) ∧
    bfdUp.bufferUse + udpLen bfd1.peer 24 ≤ bfdUp.sharedBuffer ∧
    (bfdUp.bay.shutdown = false ∧ bfdUp.bay.resetDue = none ∧ (bfdUp.ifc 0).role ≠ 0 ∧ bfd1.txDue ≤ max bfdUp.tick 9 ∧
      bfd1.remoteMinRx ≠ 0 ∧ ({ bfd1 with remoteMinRx := 0 } : Bfd).remoteMinRx = 0) ∧
    (bfd1.detectDue = some 9 ∧ 9 ≤ max bfdUp.tick 9) := by
  repeat' first | refine And.intro ?_ ?_ | decide +kernel | rfl | exact ready_of (by decide +kernel)

/-- The port identity of `up` on interface 0. -/
def ptpSelf : Nat := up.ptpIdentity

/-- A PTP message of a kind on interface 0. -/
def ptp (kind : Nat) : PtpMsg :=
  { ifc := 0, transport := 0, domain := 0, kind := kind, seq := 3, twoStep := true, stamp := 1000, correction := 0,
    source := 7, dest := if kind = 9 then ptpSelf else 0 }

/-- A `Sync` that waits for its `Follow_Up`, received at a tick. -/
def sync3 (tick : Nat) : SyncHeld := { seq := 3, tick := tick, wall := none, waits := true, correction := 0 }

/-- `up` disciplined, with it held, and a `Delay_Req` sent. -/
def ptpUp : State :=
  { up with wall := { state := 1, sync := some (sync3 0), delaySent := some (3, 500)
                      masters := [(7, { rank := 1, tick := 0, known := true })] } }

theorem witness_WallTime :
    (∀ k ∈ [0, 8, 9], ptpUp.running = true ∧ (ptp k).ifc = ptpUp.wall.ptpPort ∧
      (ptp k).transport = ptpUp.wall.ptpTransport ∧ (ptp k).domain = ptpUp.wall.ptpDomain ∧
      (ptpUp.ifc (ptp k).ifc).role ≠ 0 ∧ (ptp k).kind = k) ∧
    (ptpUp.wall.sync = some (sync3 0) ∧ (sync3 0).waits = true ∧ (sync3 0).seq = (ptp 8).seq) ∧
    ptpUp.wall.delaySent = some ((ptp 9).seq, 500) ∧ (ptp 9).dest = ptpUp.ptpIdentity ∧
    ptpUp.wall.master ptpUp.tick = some (ptp 0).source ∧ (ptp 11).kind = 11 ∧
    (ptp 8).kind ≠ 11 ∧ up.wall.master up.tick ≠ some (ptp 8).source ∧ up.wall.state = 0 ∧
    (ptpUp.wall.state ≠ 0 ∧
      ptpUp.wall.ptpStepLimit < ((sync3 10001).tick + ptpUp.wall.offset - 0 - 0 - ptpUp.wall.pathDelay : Int).natAbs ∧
      ((sync3 0).tick + ptpUp.wall.offset - 10000 - 0 - ptpUp.wall.pathDelay : Int).natAbs ≤ ptpUp.wall.ptpStepLimit) ∧
    (ptpUp.wall.ptpPort < 4 ∧ ptpUp.bufferUse + delayReqLen ptpUp.wall.ptpTransport ≤ ptpUp.sharedBuffer) ∧
    (({ up with wall := { state := 1 } } : State).alive = true ∧
      ({ up with wall := { state := 1 } } : State).wall.state = 1) := by
  repeat' first | refine And.intro ?_ ?_ | decide +kernel

/-- An inline pair of which one link is down, with the request high. -/
def pairDown : State :=
  { paired with
    ifcs := [(0, { role := 1, pair := some 2, addrs := [(0, 5)] }), (2, { role := 1, pair := some 0, link := true })]
    pkg := { up.pkg with bypass := { reqHigh := true } } }

/-- `up` with port 0 able to fall back, its timer due at 9. -/
def fallback (may : Bool) : State :=
  { up with ports := [(0, { drain := .inService, laneFallback := may, fallbackDue := some 9 }),
    (1, { drain := .inService })] }

/-- `up` with the address 0.0.0.5 on interface 0 and on the service port. -/
def addressed : State :=
  { up with ifcs := [(0, { role := 1, link := true, addrs := [(0, mapped 5)] }),
      (4, { link := true, addrs := [(0, mapped 5)] })] }

theorem witness_LinksAndLanes :
    (pairDown.running = true ∧ pairDown.pkg.sdClock = true ∧ 0 ∈ pairDown.lineIfcs ∧ 0 < 4 ∧
      (pairDown.ifc 0).role ≠ 0 ∧ (pairDown.ifc 0).link = false ∧
      (pairDown.port (portOf 0)).downUntilConfig = false ∧ pairDown.pkg.bypass.reqHigh = true ∧
      ∀ i ∈ pairDown.members, i = 0 ∨ (pairDown.ifc i).link = true) ∧
    (({ up with ifcs := [] } : State).alive = true ∧ (({ up with ifcs := [] } : State).ifc 4).link = false ∧
      5000000 ≤ max up.tick 5000000) ∧
    (pairDown.alive = true ∧ (pairDown.ifc 2).link = true ∧ 2 ∈ pairDown.members ∧
      pairDown.pkg.bypass.reqHigh = true) ∧
    ((up.ifc 4).link = true ∧ 4 ∉ up.members) ∧
    ((fallback true).running = true ∧ 0 < 2 ∧ 7 < 8 ∧ ((fallback true).port 0).mode = 0 ∧
      ((fallback true).port 0).laneFallback = true ∧ ((fallback true).port 0).fallenBack = false ∧
      oneHalf (((fallback true).port 0).lanesFailed ||| BitVec.ofNat 8 (2 ^ 7)) = true) ∧
    ((fallback false).port 0).laneFallback = false ∧
    oneHalf (((fallback true).port 0).lanesFailed ||| BitVec.ofNat 8 (2 ^ 3) ||| BitVec.ofNat 8 (2 ^ 4)) = false ∧
    (({ fallback true with ports := [(0, { laneFallback := true, fallenBack := true, lanesFailed := 1 })] } : State).port
      0).fallenBack = true ∧
    (((fallback true).port 0).fallbackDue = some 9 ∧ 9 ≤ max (fallback true).tick 9) ∧
    (addressed.bay.isainUp = true ∧ addressed.moving = true ∧ addressed.alive = true ∧
      (∀ i ∈ [0, 4], (addressed.ifc i).link = true ∧ addressed.localKind i arp60 = some .arpNdEcho ∧
        (replyTo (addressed.ifc i).tpidExtra (addressed.mac i) arp60).isSome = true ∧
        replyTo (addressed.ifc i).tpidExtra (addressed.mac i) (arp60.set 21 2) = none ∧
        addressed.localKind i (arp60.set 21 2) = some .arpNdEcho) ∧
      0 ∈ addressed.lineIfcs ∧ (addressed.ifc 0).role ≠ 0) := by
  repeat' first | refine And.intro ?_ ?_ | decide +kernel

/-! ### Witnesses: sessions -/

theorem witness_DroppedSessionFrames :
    (up.hears (fr 0x6 1).ifc = true ∧ ((fr 0x6 1).ifc < 4 → up.obs.islandsStopped = false) ∧
      (fr 0x6 1).overrun = false) ∧
    up.badHeader (fr 0x7 1) 0x6 true = true ∧
    (up.badHeader (fr 0x6 1) 0x6 true = false ∧ up.session 9 = none ∧
      up.badHeader { fr 0x6 1 with sid := 9 } 0x6 true = false) ∧
    (up.session (fr 0x6 1).sid = some ses2 ∧ ({ fr 0x6 1 with tagOk := false } : OuvHdr).tagOk = false) ∧
    ((fr 0x6 1).tagOk = true ∧ (fr 0x6 1).seq ≤ ({ ses2 with highSeq := 5, seen := [5] } : Session).highSeq ∧
      (fr 0x6 1).seq ∈ ({ ses2 with highSeq := 5, seen := [5] } : Session).seen) ∧
    ((fr 0x6 1).seq ≤ ({ ses2 with highSeq := 1030, seen := [1030] } : Session).highSeq ∧
      ¬ ({ ses2 with highSeq := 1030, seen := [1030] } : Session).highSeq < (fr 0x6 1).seq + 1025) := by
  repeat' first | refine And.intro ?_ ?_ | decide +kernel

/-- A `HELLO` part of partition 3, with the device's boot nonce or another. -/
def hello (nonce : BitVec 256) : HelloPart := { part := 3, bootNonce := nonce, hostNonce := 1 }

/-- A frame of no session. -/
def fr0 (ftype target : Nat) : OuvHdr := { fr ftype target with sid := 0 }

/-- `up` with the other part of a `HELLO` held, and partition 3's key. -/
def halfHello (tagOk : Bool) : State :=
  { up with ouv := { up.ouv with
    psk := [(3, 1)]
    parts := [{ ifc := 0, seq := 5, target := 1, tick := 0, content := hello 0, tagOk := tagOk }] } }

theorem witness_SessionSetup :
    (up.hears (fr0 0x4 50).ifc = true ∧ (fr0 0x4 50).overrun = false ∧
      up.badHeader (fr0 0x4 50) 0x4 false = false) ∧
    (up.badHeader (fr0 0x1 0) 0x1 false = false ∧ up.otherPart (fr0 0x1 0) = none ∧
      (∀ y ∈ up.ouv.parts, ¬(y.ifc = (fr0 0x1 0).ifc ∧ y.host = (fr0 0x1 0).host ∧ y.seq = (fr0 0x1 0).seq)) ∧
      up.ouv.parts.length < 256) ∧
    ((halfHello true).badHeader (fr0 0x1 0) 0x1 false = false ∧ ((halfHello true).otherPart (fr0 0x1 0)).isSome = true ∧
      (fr0 0x1 0).target = 0 ∧ (halfHello true).ouv.helloShut = false) ∧
    (hello 1).bootNonce ≠ (halfHello true).ouv.bootNonce ∧
    ((hello 0).bootNonce = (halfHello true).ouv.bootNonce ∧ ((halfHello true).part (hello 0).part).enabled = true ∧
      (halfHello true).hasKey (hello 0).part (fr0 0x1 0).ifc = true) ∧
    (((halfHello false).otherPart (fr0 0x1 0)).any fun y => !((fr0 0x1 0).tagOk && y.tagOk)) = true ∧
    ((((halfHello true).otherPart (fr0 0x1 0)).any fun y => (fr0 0x1 0).tagOk && y.tagOk) = true ∧
      ((fr0 0x1 0).ifc = 4 → (hello 0).part = 0 ∨ ((halfHello true).part (hello 0).part).rights.getLsbD 1 = true) ∧
      ((halfHello true).sessionsOf (hello 0).part).length < ((halfHello true).part (hello 0).part).maxSessions ∧
      (halfHello true).ouv.sessions.length < (halfHello true).sessionLimit) := by
  repeat' first | refine And.intro ?_ ?_ | decide +kernel

/-- A held part of another exchange. -/
def part1 : HelloHeld := { ifc := 1, seq := 1, target := 0, tick := 0, content := hello 0, tagOk := true }

theorem witness_SessionSetup_full : 256 ≤ (List.replicate 256 part1).length :=
  Nat.le_of_eq List.length_replicate.symm

theorem accepted_2 (ftype target : Nat) (r o : Ring) (h : ftype = 0x6 ∨ ftype = 0x7 ∨ ftype = 0x9 ∨ ftype = 0xB ∨
    ftype = 0xC ∨ ftype = 0xF) : Accepted 5 (fr ftype target) ftype ses2 (ringed r o) := by
  rcases h with rfl | rfl | rfl | rfl | rfl | rfl <;> exact ⟨rfl, rfl⟩

theorem witness_RingWrites :
    (ses2.ifc ≠ 4 ∧ (ringed reqRing outRing).cached (fr 0x6 11).target = true ∧
      (ringed reqRing outRing).ringMade (fr 0x6 11).target = true ∧
      ((ringed reqRing outRing).ring (fr 0x6 11).target).faulted = false ∧
      ((ringed reqRing outRing).ring (fr 0x6 11).target).owner = ses2.part ∧
      hostProduced ((ringed reqRing outRing).ring (fr 0x6 11).target).rtype = true ∧
      [List.replicate 8 (0 : W64)].length ≤ ((ringed reqRing outRing).ring (fr 0x6 11).target).frameMax ∧
      ∀ e ∈ [List.replicate 8 (0 : W64)], e.length * 8 = ((ringed reqRing outRing).ring (fr 0x6 11).target).entryBytes) ∧
    (∀ e ∈ [List.replicate 8 (0 : W64)].zipIdx,
      idxDiff (63 + BitVec.ofNat 32 e.2) ((ringed reqRing outRing).ring (fr 0x6 11).target).credit < 0) ∧
    (∃ e ∈ [List.replicate 8 (0 : W64)].zipIdx,
      0 ≤ idxDiff (64 + BitVec.ofNat 32 e.2) ((ringed reqRing outRing).ring (fr 0x6 11).target).credit) := by
  repeat' first | refine And.intro ?_ ?_ | decide +kernel

theorem witness_RingWriteFrame : (ringed reqRing outRing).mem.wf = true ∧
    (∀ e ∈ [List.replicate 8 (0 : W64)], e.length * 8 = ((ringed reqRing outRing).ring 11).entryBytes) ∧
    (4095 < ((ringed reqRing outRing).ring 11).baseAddr ∨
      ((ringed reqRing outRing).ring 11).baseAddr + ((ringed reqRing outRing).ring 11).bytes ≤ 4095) ∧
    ((ringed reqRing outRing).ring 11).baseAddr + ((ringed reqRing outRing).ring 11).bytes ≤ 8192 := by
  repeat' first | refine And.intro ?_ ?_ | decide +kernel

theorem witness_Doorbells :
    ((ses2.ifc ≠ 4 ∧ ∀ n ∈ [11, 12], (ringed reqRing pushedRing).cached n = true ∧
        (ringed reqRing pushedRing).ringMade n = true ∧ ((ringed reqRing pushedRing).ring n).faulted = false ∧
        ((ringed reqRing pushedRing).ring n).owner = ses2.part) ∧
      ((ringed reqRing pushedRing).ring (fr 0x7 11).target).enabled = true ∧
      idxAbove 64 ((ringed reqRing pushedRing).ring (fr 0x7 11).target).prodIdx = true ∧
      idxAbove 64 ((ringed reqRing pushedRing).ring (fr 0x7 11).target).credit = false) ∧
    idxAbove 0 ((ringed reqRing pushedRing).ring (fr 0x7 11).target).prodIdx = false ∧
    (idxAbove 65 ((ringed reqRing pushedRing).ring (fr 0x7 11).target).prodIdx = true ∧
      idxAbove 65 ((ringed reqRing pushedRing).ring (fr 0x7 11).target).credit = true) ∧
    (hostProduced ((ringed reqRing pushedRing).ring (fr 0x7 12).target).rtype = false ∧
      ((ringed reqRing pushedRing).ring (fr 0x7 12).target).owner = ses2.part ∧
      idxAbove 8 ((ringed reqRing pushedRing).ring (fr 0x7 12).target).limitIdx = true ∧
      idxAbove 8 ((ringed reqRing pushedRing).ring (fr 0x7 12).target).pushIdx = false) ∧
    idxAbove 0 ((ringed reqRing pushedRing).ring (fr 0x7 12).target).limitIdx = false ∧
    idxAbove 9 ((ringed reqRing pushedRing).ring (fr 0x7 12).target).pushIdx = true := by
  repeat' first | refine And.intro ?_ ?_ | decide +kernel

/-- A response kept for command 6. -/
def kept : Status × List Nat := (.ok, [0])

/-- Session 2 of a run, with command 7 in flight. -/
def ses7 : Session := { ses2 with inflight := [(7, 0x0302)] }

/-- `up` with session 2 as given. -/
def sessioned (x : Session) : State := { up with ouv := { up.ouv with sessions := [(2, x)] } }

theorem witness_Mailbox :
    (Accepted 5 (fr 0x9 0) 0x9 ses7 (sessioned ses7) ∧ (fr 0x9 0).target = 0 ∧ (sessioned ses7).isainUp = true ∧
      aget ses7.cache 8 = none ∧ (∀ e ∈ ses7.inflight, e.1 ≠ 8) ∧ ses7.inflight.length < 16 ∧ 0x0302 ∈ opcodes ∧
      0x9999 ∉ opcodes) ∧
    (aget ses7.cache p3.seq = none ∧ ∃ e ∈ ses7.inflight, e.1 = p3.seq) ∧
    aget ({ ses7 with cache := [(6, kept)] } : Session).cache 6 = some kept ∧
    16 ≤ ({ ses7 with inflight := (List.range 16).map fun n => (20 + n, 0x0302) } : Session).inflight.length := by
  repeat' first | refine And.intro ?_ ?_ | decide +kernel | exact ⟨rfl, rfl⟩

theorem witness_SessionFrames :
    up.session 2 = some ses2 ∧ (ses2.ifc < 4 ∧ ({ ses2 with ifc := 4 } : Session).ifc = 4) ∧
    up.bufferUse + udpLen ses2.host (40 + 8) ≤ up.sharedBuffer ∧
    bufferFull.sharedBuffer < bufferFull.bufferUse + udpLen ses2.host (40 + 8) := by
  repeat' first | refine And.intro ?_ ?_ | decide +kernel

theorem witness_Windows :
    (Ready p0 0x0408 false up ∧ p0.part = 0 ∧ 63 < 64 ∧ 15 < 16 ∧ 1 ≤ 1 ∧ 3 ≤ 3 ∧ 4096 % 4096 = 0 ∧ 1 ≤ 1 ∧
      16777216 ≤ 16777216 ∧ inSoftware 4096 4096 = true ∧ tget up.ouv.windows (winKey 63 15) = none) ∧
    Ready p0 0x0409 false up ∧
    (Accepted 5 (fr 0xB 15) 0xB ses2 (windowed 3) ∧ (fr 0xB 15).target < 16 ∧
      tget (windowed 3).ouv.windows (winKey ses2.part 15) = some { rights := 3, base := 4096, pages := 1 } ∧
      (3 : Nat).testBit 1 = true ∧ 4092 % 4 = 0 ∧ 4 ≤ 4 ∧ 4092 + 4 ≤ 1 * 4096 ∧
      inSoftware (4096 + 4092) 4 = true) ∧
    (inDevice (24 * 2 ^ 30 - 4096) 4096 = true ∧ inSoftware (24 * 2 ^ 30 - 4096) 4 = false) ∧
    (1 : Nat).testBit 1 = false ∧ 1 * 4096 < 4096 + 4 ∧
    (Accepted 5 (fr 0xC 15) 0xC ses2 (windowed 3) ∧ (3 : Nat).testBit 0 = true ∧
      (windowed 3).mem.readable (4096 + 4088) 8 = true ∧
      ({ (windowed 3).mem with faults := [(8184, .poison)] } : Memory).readable (4096 + 4088) 8 = false) := by
  repeat' first | refine And.intro ?_ ?_ | exact ready_of (by decide +kernel) | exact ⟨rfl, rfl⟩ | decide +kernel

/-- `up` with acknowledgements, refusals and credits owed in session 2. -/
def owing : State :=
  { up with ouv := { up.ouv with sessions := [(2, { ses2 with acks := [4], refusals := [(3, .eArg)], credits := [11] })] } }

theorem witness_SessionUpkeep :
    up.session 2 = some ses2 ∧ Accepted 5 (fr 0xF 0) 0xF ses2 up ∧
    (ses2.rxFrames < 2 ^ 48 ∧ ses2.txFrames + 1 < 2 ^ 48) ∧
    (up.alive = true ∧ ses2.lastRx + up.ouv.idleTimeout ≤ max up.tick 60000000000) ∧
    (owing.alive = true ∧ (owing.session 2).any (fun x => x.acks != [] && x.credits.contains 11) = true) := by
  refine ⟨rfl, ⟨rfl, rfl⟩, ?_⟩
  repeat' first | refine And.intro ?_ ?_ | decide +kernel

/-! ### Witnesses: rings -/

/-- A `RING_CREATE` of a `REQUEST_IN` ring of partition 3. -/
def spec13 : RingSpec :=
  { ring := 13, rtype := 1, owner := 3, esize := 0, pinned := true, fullPolicy := 0, log2Entries := 20
    cqRing := 12, inflightMax := 1, enabled := true, baseAddr := 65536, fullTimeout := 1 }

theorem witness_RingCreateMakesRing :
    Ready p0 0x0301 false (ringed reqRing outRing) ∧ p0.part = 0 ∧ spec13.ring < 4096 ∧ spec13.owner < 64 ∧
    formAllowed spec13.rtype spec13.esize spec13.fullPolicy = true ∧ 6 ≤ spec13.log2Entries ∧
    spec13.log2Entries ≤ 20 ∧ 0 < spec13.inflightMax ∧ 0 < spec13.fullTimeout ∧ spec13.baseAddr % 4096 = 0 ∧
    (ringed reqRing outRing).cqAllowed spec13.rtype spec13.owner spec13.cqRing = true ∧
    inSoftware spec13.baseAddr (RingSpec.ring spec13 0).bytes = true ∧
    (∀ e ∈ (ringed reqRing outRing).rings.ctx, e.2.rtype ≠ 0 → e.1 ≠ spec13.ring →
      (RingSpec.ring spec13 0).overlaps e.2 = false) ∧
    (ringed reqRing outRing).ringMade spec13.ring = false ∧
    (spec13.pinned = true → (ringed reqRing outRing).pinnedCount < 256) := by
  repeat' first | refine And.intro ?_ ?_ | decide +kernel | rfl | exact ready_of (by decide +kernel)

/-- A `RING_CONFIG` of ring 12. -/
def mask12 (e : Bool) : RingMask :=
  { ring := 12, enabled := some e, pinned := some true, fullPolicy := some 1, inflightMax := none
    fullTimeout := some 65535 }

theorem witness_RingCommands :
    ((ringed reqRing pushedRing).ringMade 12 = true ∧ (p3.part = 0 ∨ p3.part = ((ringed reqRing pushedRing).ring 12).owner) ∧
      ((ringed reqRing pushedRing).part p3.part).revoking = false) ∧
    ((mask12 false).ring = 12 ∧ Ready p3 0x0302 false (ringed reqRing pushedRing) ∧
      formAllowed ((ringed reqRing pushedRing).ring 12).rtype ((ringed reqRing pushedRing).ring 12).esize
        ((mask12 false).fullPolicy.getD ((ringed reqRing pushedRing).ring 12).fullPolicy) = true ∧
      (mask12 false).inflightMax ≠ some 0 ∧ (mask12 false).fullTimeout ≠ some 0 ∧
      (ringed reqRing pushedRing).pinnedCount < 256) ∧
    (mask12 true).enabled ≠ some false ∧
    ((mask12 false).enabled = some false ∧ ((ringed reqRing pushedRing).ring 12).stalled = []) ∧
    (Ready p3 0x0303 false (ringed reqRing pushedRing) ∧ pushes ((ringed reqRing pushedRing).ring 12).rtype = true ∧
      (ringed reqRing pushedRing).session 2 = some ses2 ∧ ses2.part = ((ringed reqRing pushedRing).ring 12).owner) ∧
    (Ready p3 0x0304 false (ringed { reqRing with enabled := false } outRing) ∧
      ((ringed { reqRing with enabled := false } outRing).ring 11).enabled = false ∧
      ((ringed { reqRing with enabled := false } outRing).ring 11).inflight = 0 ∧
      (∀ e ∈ (ringed { reqRing with enabled := false } outRing).rings.ctx,
        e.1 ≠ 11 → hostProduced e.2.rtype = true → e.2.cqRing ≠ 11)) ∧
    (Ready p3 0x0304 false (ringed reqRing pushedRing) ∧ ((ringed reqRing pushedRing).ring 12).enabled = true) ∧
    Ready p3 0x0305 true (ringed reqRing pushedRing) ∧
    (Ready p3 0x0306 false (ringed reqRing pushedRing) ∧ ((ringed reqRing pushedRing).ring 12).pushSession ≠ 0 ∧
      0 ≤ idxDiff 0 ((ringed reqRing pushedRing).ring 12).limitIdx ∧
      ((8 : Nat) : Int) ≤ idxDiff ((ringed reqRing pushedRing).ring 12).pushIdx 0) := by
  repeat' first | refine And.intro ?_ ?_ | decide +kernel | rfl | exact ready_of (by decide +kernel)

theorem witness_RingRights :
    (Ready p3 0x0305 true up ∧ up.ringMade 12 = false) ∧
    (Ready p3 0x0304 false (ringed reqRing { outRing with owner := 4 }) ∧
      (ringed reqRing { outRing with owner := 4 }).ringMade 12 = true ∧ p3.part ≠ 0 ∧
      p3.part ≠ ((ringed reqRing { outRing with owner := 4 }).ring 12).owner) := by
  repeat' first | refine And.intro ?_ ?_ | decide +kernel | rfl | exact ready_of (by decide +kernel)

/-- `up` with slot 65535 running a request of partition 3 from ring 11. -/
def slotted : State :=
  { up with rings := { up.rings with slots := [(65535, { state := .running, part := 3, src := .ring 11 4 })] } }

theorem witness_SlotQuery :
    (Ready p3 0x0308 true slotted ∧ 65535 < 65536 ∧ 0 < 65536) ∧
    (p3.part ≠ 0 ∧ (slotted.slot 0).part ≠ p3.part) ∧
    ((p3.part = 0 ∨ (slotted.slot 65535).part = p3.part) ∧ (slotted.slot 65535).src = .ring 11 4 ∧
      (slotted.slot 65535).state = .running) := by
  repeat' first | refine And.intro ?_ ?_ | decide +kernel | rfl | exact ready_of (by decide +kernel)

/-- A barrier over ring 11 at index 0. -/
def bar (hold : Bool) : Barrier := { h := p3, points := [(11, 0)], pairs := [], hold := hold, due := 9 }

/-- `up` with the two rings, table 5, and a barrier of partition 3. -/
def barred (hold : Bool) : State :=
  { ringed reqRing outRing with
    rings := { (ringed reqRing outRing).rings with barriers := [(3, 15, bar hold)] }
    models := { tables := [(5, table3 [])] } }

theorem witness_Barriers :
    (Ready p3 0x0307 false (barred false) ∧ ((barred false).part p3.part).revoking = false ∧
      (∀ n ∈ [11], (barred false).ringMade n = true ∧ ((barred false).ring n).owner = p3.part ∧
        hostProduced ((barred false).ring n).rtype = true) ∧
      (barred false).table 5 = some (table3 []) ∧ (table3 []).owner = p3.part ∧
      ((table3 []).genIn .current).map (·.g) ≠ some 255 ∧ timeoutBad p3 = false ∧
      ((barred false).barriersOf p3.part).length < 16) ∧
    ((barred false).running = true ∧ (barred false).bay.isainUp = true ∧
      (barred false).barrier 3 15 = some (bar false) ∧ (barred false).barrierDone (bar false) = true) ∧
    (∀ e ∈ (barred true).rings.barriers, ∀ p ∈ e.2.2.points, e.2.2.hold = true ∧
      idxAbove p.2 ((barred true).ring p.1).consIdx = false) := by
  repeat' first | refine And.intro ?_ ?_ | decide +kernel | rfl | exact ready_of (by decide +kernel)

/-- The two rings with ring 12's context being fetched. -/
def fetchingRing : State :=
  { up with rings := { ctx := [(11, reqRing), (12, outRing)], cache := { cached := [11], fetching := [12] } } }

/-- The two rings, neither cached. -/
def uncached (r o : Ring) : State := { ringed r o with rings := { ctx := [(11, r), (12, o)] } }

theorem witness_ContextsAndPushes :
    (fetchingRing.running = true ∧ 12 ∈ fetchingRing.rings.cache.fetching ∧
      ∀ e ∈ fetchingRing.rings.cache.waiting, e.1 ≠ 12) ∧
    ((ringed reqRing { pushedRing with written := [(8, 0)] }).running = true ∧
      (ringed reqRing { pushedRing with written := [(8, 0)] }).cached 12 = true ∧
      ((ringed reqRing { pushedRing with written := [(8, 0)] }).at 5000).pushDue 12 = true) ∧
    ((uncached reqRing { pushedRing with written := [(8, 0)] }).cached 12 = false ∧
      ((uncached reqRing { pushedRing with written := [(8, 0)] }).at 5000).pushDue 12 = true) := by
  repeat' first | refine And.intro ?_ ?_ | decide +kernel

/-- The two rings with an entry of a kind at the head of ring 11. -/
def atHead (kind : Byte) (r : Ring) : State :=
  { ringed { r with prodIdx := 1 } outRing with mem := { bytes := [(4099, 1), (4103, kind)] } }

theorem witness_FencesAndNops :
    ((atHead 3 reqRing).admits 11 = true ∧ (atHead 3 reqRing).cached 11 = true ∧ (atHead 3 reqRing).entryReadable 11 ((atHead 3 reqRing).ring 11).consIdx = true ∧
      headRefusal ((atHead 3 reqRing).ring 11).rtype ((atHead 3 reqRing).ring 11).consIdx
        ((atHead 3 reqRing).entryWords 11 ((atHead 3 reqRing).ring 11).consIdx) = none ∧
      headKind (wordOf ((atHead 3 reqRing).entryWords 11 ((atHead 3 reqRing).ring 11).consIdx) 0) = 0x03) ∧
    ((atHead 2 reqRing).admits 11 = true ∧ (atHead 2 reqRing).cached 11 = true ∧ (atHead 2 reqRing).entryReadable 11 ((atHead 2 reqRing).ring 11).consIdx = true ∧
      headRefusal ((atHead 2 reqRing).ring 11).rtype ((atHead 2 reqRing).ring 11).consIdx
        ((atHead 2 reqRing).entryWords 11 ((atHead 2 reqRing).ring 11).consIdx) = none ∧
      headKind (wordOf ((atHead 2 reqRing).entryWords 11 ((atHead 2 reqRing).ring 11).consIdx) 0) = 0x02) ∧
    ((ringed { reqRing with fences := [(0, 7, true)] } outRing).running = true ∧
      ((ringed { reqRing with fences := [(0, 7, true)] } outRing).ring 11).fences = (0, 7, true) :: [] ∧
      ((ringed { reqRing with fences := [(0, 7, true)] } outRing).ring 11).opened = [] ∧
      ∀ e ∈ ((ringed { reqRing with fences := [(0, 7, true)] } outRing).ring 11).pendingDone, e.1 ≠ 0) := by
  repeat' first | refine And.intro ?_ ?_ | decide +kernel

/-- A `COMMAND` ring of partition 3. -/
def cmdRing : Ring := { reqRing with rtype := 3, esize := 1 }

theorem witness_CommandRings :
    ((uncached { reqRing with prodIdx := 1 } outRing).admits 11 = true ∧
      (uncached { reqRing with prodIdx := 1 } outRing).cached 11 = false) ∧
    (bitsOf (wordOf ((atHead 4 cmdRing).entryWords 11 ((atHead 4 cmdRing).ring 11).consIdx) 1).toNat 63 48 ∉ opcodes ∧
      bitsOf (wordOf (({ atHead 4 cmdRing with mem := { bytes := [(4099, 1), (4103, 4), (4110, 1), (4111, 1)] } } :
        State).entryWords 11 0) 1).toNat 63 48 ∈ opcodes) ∧
    ((atHead 4 cmdRing).admits 11 = true ∧ (atHead 4 cmdRing).cached 11 = true ∧ ((atHead 4 cmdRing).ring 11).rtype = 3 ∧
      (atHead 4 cmdRing).entryReadable 11 ((atHead 4 cmdRing).ring 11).consIdx = true ∧
      headRefusal 3 ((atHead 4 cmdRing).ring 11).consIdx
        ((atHead 4 cmdRing).entryWords 11 ((atHead 4 cmdRing).ring 11).consIdx) = none ∧
      headKind (wordOf ((atHead 4 cmdRing).entryWords 11 ((atHead 4 cmdRing).ring 11).consIdx) 0) = 0x04 ∧
      headCount (wordOf ((atHead 4 cmdRing).entryWords 11 ((atHead 4 cmdRing).ring 11).consIdx) 0) = 1) ∧
    ((ringed reqRing { outRing with stalled := [(0, [[0]])] }).running = true ∧
      ((ringed reqRing { outRing with stalled := [(0, [[0]])] }).ring 12).stalled = (0, [[0]]) :: [] ∧
      0 + ((ringed reqRing { outRing with stalled := [(0, [[0]])] }).ring 12).fullTimeout * 1000 ≤
        max (ringed reqRing { outRing with stalled := [(0, [[0]])] }).tick 1000000) := by
  repeat' first | refine And.intro ?_ ?_ | decide +kernel

theorem witness_DroppedItems :
    (∀ e, ([[entryHead 0x11 0 1 0]] : RingItem).head? = some e →
      headKind (wordOf e 0) ≠ 0x10 ∧ headKind (wordOf e 0) ≠ 0x12) ∧
    (({ outRing with lossCount := 1 } : Ring).lossCount ≠ 0 ∧ outRing.enabled = true ∧ outRing.faulted = false ∧
      0 < outRing.room) := by
  refine ⟨fun e h => ?_, by decide⟩
  cases h
  decide

theorem witness_ItemsWritten :
    up.mem.wf = true ∧ ([1, 2] : List W64).length * 8 ≤ ((ringed reqRing outRing).ring 12).entryBytes ∧
    ([1, 2] : List W64) ≠ [] ∧ 0 < ((ringed reqRing outRing).ring 12).addr 0 := by
  repeat' first | refine And.intro ?_ ?_ | decide +kernel

theorem witness_RingIndicesFull : reqRing.log2Entries < 32 ∧
    (reqRing.prodIdx - reqRing.consIdx).toNat ≤ 2 ^ reqRing.log2Entries ∧
    ({ reqRing with prodIdx := 64 } : Ring).prodIdx - reqRing.consIdx = BitVec.ofNat 32 (2 ^ reqRing.log2Entries) := by
  repeat' first | refine And.intro ?_ ?_ | decide +kernel

/-! ### Witnesses: frames, parses, spreading -/

/-- `up` with a receive association of channel 15 on interface 0 and a replay window of 4. -/
def secured : State :=
  { up with ifcs := [(0, { role := 1, link := true, replayWindow := 4
                           rxSas := [(saKey 15 3, { xpn := false, ssci := 0, sci := 1, nextPn := 9, salt := 0, sak := 1 })] })] }

theorem witness_FrameReception :
    (up.running = true ∧ up.pkg.sdClock = true ∧ 0 ∈ up.lineIfcs ∧ (up.ifc 0).role ≠ 0 ∧ (up.ifc 0).link = true) ∧
    ((pairDown.ifc 0).role ≠ 0 ∧ (pairDown.ifc 0).link = false) ∧
    ({ up with obs := { islandsStopped := true } } : State).obs.islandsStopped = true ∧
    up.obs.islandsStopped = false ∧ (bytes60.take 59).length + 4 < 64 ∧
    ((up.ifc 0).maxFrame = 9216 ∧ ({ up with ifcs := [(0, { role := 1, link := true, maxFrame := 63 })] } :
      State).lineIfcs.contains 0 = true) ∧
    (64 ≤ bytes60.length + 4 ∧ bytes60.length + 4 ≤ (up.ifc 0).maxFrame) ∧
    ((up.ifc 0).macsecMode = 0 ∧ (up.at 9).macsecPass 0 bytes60 .none = some (up.at 9) ∧
      fieldBe bytes60 12 2 ≠ 0x8808 ∧ (up.at 9).localKind 0 bytes60 = none) ∧
    (tget (secured.ifc 0).rxSas (saKey 15 3) = some { xpn := false, ssci := 0, sci := 1, nextPn := 9, salt := 0, sak := 1 } ∧
      4 + (secured.ifc 0).replayWindow < 9 ∧ 9 ≤ 5 + (secured.ifc 0).replayWindow) ∧
    ({ up with ports := [(0, {}), (1, {})] } : State).shut 0 = true ∧
    (up.shut 0 = false ∧ ({ up with obs := { quiesced := true } } : State).closed = true) ∧
    (up.closed = false ∧ up.descriptors < up.parser.thresh ((up.ifc 0).priority bytes60)) ∧
    (({ up with parser := { pqThresh := [(0, 0)] } } : State).parser.thresh ((up.ifc 0).priority bytes60) ≤
      ({ up with parser := { pqThresh := [(0, 0)] } } : State).descriptors) := by
  repeat' first | refine And.intro ?_ ?_ | decide +kernel

theorem witness_PfcPauses :
    pausing.moving = true ∧ 0 < 4 ∧ (pausing.ifc 0).role ≠ 0 ∧ (pausing.ifc 0).pfcEnable.getLsbD 7 = true ∧
    (pausing.ifc 0).pfcEnable.getLsbD 6 = false ∧ tget (pausing.ifc 0).pausedUntil 7 = some 9 := by
  repeat' first | refine And.intro ?_ ?_ | decide +kernel

/-- A program that takes the EtherType and passes the Ethernet header. -/
def etherProg : ChiveProg := { code := [.extract 1 12 2, .layer 1 (.const 14), .accept] }

theorem witness_ChiveParses :
    ((framed frame1).moving = true ∧ 15 < 16 ∧ 15 ∉ (framed frame1).parser.offline ∧
      (framed frame1).nextParse = some 1 ∧ (framed frame1).frame 1 = some frame1 ∧ frame1.poison = false ∧
      tget (framed frame1).parser.ifcSlot frame1.ifc = some 7) ∧
    ((chiveRun ((framed frame1).parser.prog 0) bytes60 1024 none 1025 { record := freshRecord }).2 = 0 ∧
      (chiveRun ((framed frame1).parser.prog 0) bytes60 1024 none 1025 { record := freshRecord }).1.trailer = false) ∧
    (chiveRun ((framed frame1).parser.prog 0) bytes60 1024 (some 0) 1025 { record := freshRecord }).2 = 7 ∧
    ((chiveRun etherProg bytes60 1024 none 1025 { record := freshRecord }).2 = 0 ∧
      (chiveRun etherProg bytes60 1024 none 1025 { record := freshRecord }).1.reg 1 = 0x88B5) ∧
    (({ up with parser := { offline := [15] } } : State).running = true ∧
      ({ up with parser := { offline := [15] } } : State).bay.isainUp = true ∧
      15 ∈ ({ up with parser := { offline := [15] } } : State).parser.offline ∧
      15 ∉ ({ up with parser := { offline := [15] } } : State).parser.groupsOut) := by
  repeat' first | refine And.intro ?_ ?_ | decide +kernel

theorem witness_ParseBounds :
    (chiveRun etherProg bytes60 3 none 4 { record := freshRecord }).2 ≠ 3 ∧
    (2 < 3 ∧ (chiveRun etherProg bytes60 2 none 3 { record := freshRecord }).2 = 3) := by
  repeat' first | refine And.intro ?_ ?_ | decide +kernel

/-- A `SPREAD_CONFIG` of partition 3's context. -/
def spread3 (ctx cluster : Nat) : SpreadSpec :=
  { ctx := ctx, sel := 0x1FF, sym := true, wkey := true, start := 511, key := List.replicate 40 1
    entries := [{ tkind := 0, target := cluster }] }

theorem witness_ParseAndSpreadCommands :
    (Ready p0 0x0601 false up ∧ p0.part = 0 ∧ 7 < 8 ∧ 81920 ≤ 81920 ∧ inSoftware 4096 81920 = true ∧
      (∀ e ∈ up.parser.ifcSlot, e.2 ≠ 7) ∧ up.mem.readable 4096 81920 = true ∧
      progLarge etherProg = false ∧ progUnlisted etherProg = false) ∧
    (Ready p0 0x0602 false (framed frame1) ∧ [7, 7, 7, 7].length = 4 ∧
      ∀ k ∈ [7, 7, 7, 7], k < 8 ∧ (tget (framed frame1).parser.slots k).isSome = true) ∧
    (Ready p3 0x0604 false clustered ∧ (spread3 3 255).ctx ≠ 0x40 ∧ p3.part = (spread3 3 255).ctx ∧
      (spread3 3 255).start + (spread3 3 255).entries.length ≤ 512 ∧
      ∀ e ∈ (spread3 3 255).entries, clustered.entryBad 3 e = none) ∧
    selBytes 0x1D ≤ 36 := by
  repeat' first | refine And.intro ?_ ?_ | decide +kernel | rfl | exact ready_of (by decide +kernel)

theorem witness_SpreadChoosesOwnClusters :
    (clustered.spread 3 0 false).1 = .cluster 255 ∧ (up.spread 3 0 false).1 = .nowhere ∧
    (({ clustered with
      rings := { ctx := [(14, { rtype := 6, owner := 3, enabled := true })] }
      parser := { spread := [(3, { table := [(0, { tkind := 1, target := 14 })] })] } } : State).spread 3 0
        true).1 = .ring 14 := by
  repeat' first | refine And.intro ?_ ?_ | decide +kernel

/-! ### Witnesses: classification -/

theorem witness_LowestRuleWins :
    (({ rules := [(4, onesRow), (9, anyRow)] } : Pipeline).rules.map (·.1)).Pairwise (· < ·) ∧
    ({ rules := [(4, onesRow), (9, anyRow)] } : Pipeline).winner 5 none = some (9, anyRow) ∧
    ({ rules := [(4, onesRow)] } : Pipeline).winner 5 none = none := by
  repeat' first | refine And.intro ?_ ?_ | decide +kernel

theorem witness_LongestPrefixWins :
    ({ trie4 := [{ len := 0, bits := 0, cls := 1 }, { len := 32, bits := 5, cls := 2 }] } : Classifier).badTrie = [] ∧
    (∃ p ∈ ({ trie4 := [{ len := 0, bits := 0, cls := 1 }, { len := 32, bits := 5, cls := 2 }] } : Classifier).trie
      false, p.covers false 5 = true) ∧
    (∀ p ∈ ({} : Classifier).trie true, p.covers true 5 = false) ∧ 1 ∈ levelsRead [] false 5 := by
  repeat' first | refine And.intro ?_ ?_ | decide +kernel

/-- A parsed frame with the given flag of its record, or with none. -/
def parsedFrame (flag : Option Nat) : Frame :=
  { frame1 with stage := .parsed, record := match flag with | some b => BitVec.ofNat 2048 (2 ^ (16 + b)) | none => 0 }

theorem witness_Classification :
    (∀ b ∈ [14, 15], (framed (parsedFrame (some b))).moving = true ∧
      (framed (parsedFrame (some b))).frame 1 = some (parsedFrame (some b)) ∧
      (parsedFrame (some b)).stage = .parsed) ∧
    (parsedFrame (some 14)).pflag 14 = true ∧
    ((parsedFrame (some 15)).pflag 14 = false ∧ (parsedFrame (some 15)).pflag 15 = true) ∧
    ((parsedFrame none).pflag 14 = false ∧ (parsedFrame none).pflag 15 = false ∧
      (parsedFrame none).pflag 9 = false ∧ (parsedFrame none).pflag 8 = false) ∧
    ((framed (parsedFrame none)).pipe (portOf 0)).winner
      (BitVec.ofNat 256 (ruleKey (parsedFrame none) 0 0)) none = none ∧
    (((ruled (parsedFrame none)).pipe (portOf 0)).winner
      (BitVec.ofNat 256 (ruleKey (parsedFrame none) 0 0)) none = some (9, anyRow) ∧
      anyRow.action.flowMode = 0 ∧ anyRow.action.macLearn = false ∧ anyRow.action.pmEn = false ∧
      anyRow.action.deepEn = false ∧ (parsedFrame none).pmVerdict = none) ∧
    (({ wrong := none, rule := false, src := none, dst := none, mac := none } : ClassReads).wrong = none ∧
      ({ wrong := none, rule := false, src := none, dst := none, mac := none } : ClassReads).rule = false) := by
  repeat' first | refine And.intro ?_ ?_ | decide +kernel

/-- `up` with the rule engine of pipeline 1 held by a command of session 2. -/
def busyEngine : State := { up with cls := { busy := [(1, 99, .mbox 2)] } }

theorem witness_RuleCommands :
    p0.part = 0 ∧ 1 < 2 ∧ Ready p0 0x0702 false up ∧
    (∀ e ∈ [(16383, anyRow)], e.1 < 16384 ∧ rowResv e.2 = false ∧ ∀ c ∈ up.rowChecks 1, c.1 e = false) ∧
    [(16383, anyRow)] ≠ [] ∧ [(16383, anyRow)].length ≤ 32 ∧
    [0].length ≤ 63 ∧ (∀ n ∈ [0], n < 16384) ∧ (up.at 9).engineBusy 1 p0 = false ∧
    (busyEngine.at 9).engineBusy 1 p0 = true ∧ Ready p0 0x0702 false busyEngine ∧ Ready p0 0x0703 false up := by
  repeat' first | refine And.intro ?_ ?_ | decide +kernel | rfl | exact ready_of (by decide +kernel)

/-- `up` with a prefix of class 2 held. -/
def prefixed : State := { up with cls := { trie4 := [{ len := 32, bits := 5, cls := 2 }] } }

theorem witness_PrefixCommands :
    p0.part = 0 ∧ (up.at 9).engineBusy (2 + bit false) p0 = false ∧
    (prefixed.at 9).engineBusy (2 + bit false) p0 = false ∧ 32 ≤ famBits false ∧ prefixBits false 5 % 2 ^ (famBits false - 32) = 0 ∧
    (Ready p0 0x0704 false up ∧ 1 ≤ 1 ∧ 1 < 2 ^ 20 ∧
      ((up.cls.trie false).filter fun q => !q.is 32 (prefixBits false 5)).length < 1048576 ∧
      up.poolsFull false { len := 32, bits := BitVec.ofNat 128 (prefixBits false 5), cls := 1 } = false) ∧
    (Ready p0 0x0705 false prefixed ∧ ∃ q ∈ prefixed.cls.trie false, q.is 32 (prefixBits false 5) = true) ∧
    (Ready p0 0x0705 false up ∧ ∀ q ∈ up.cls.trie false, q.is 32 (prefixBits false 5) = false) ∧
    (Ready p0 0x0706 false up ∧ 2 ≤ (levelEnds false).length ∧ 0 < (nodePool false 2).2 ∧
      (up.cls.nodes.all fun e => !(e.1.1 == bit false && e.1.2.1 == 2 && e.2 == 0)) = true) := by
  repeat' first | refine And.intro ?_ ?_ | decide +kernel | rfl | exact ready_of (by decide +kernel)

theorem mac_found (e : MacEntry) (hm : e.mac = 5) (hv : e.vid = 1) :
    (stationed e).cls.macFind 5 1 = some (place5, e) := by
  simp [Classifier.macFind, stationed, place5, macPlaces, List.range_succ, tget, hm, hv]

theorem mac_absent : up.cls.macFind 5 1 = none := by
  simp [Classifier.macFind, up, State.reset, macPlaces, List.range_succ, tget]

theorem mac_room : (up.cls.macFree 5 1).isSome = true := by
  simp only [Classifier.macFree, show up.cls = ({} : Classifier) from rfl]
  simp [tget, macPlaces, List.range_succ]
  split <;> simp

theorem mac_full : ({ badMacs := macPlaces 5 1 } : Classifier).macFree 5 1 = none := by
  have hx : (macPlaces 5 1).take 4 |>.filter (fun k => (tget ({ badMacs := macPlaces 5 1 } : Classifier).macs k).isNone &&
      !(macPlaces 5 1).contains k) |> (· = []) := by
    simp only [List.filter_eq_nil_iff]
    intro k hk
    simp [List.mem_of_mem_take hk]
  have hy : (macPlaces 5 1).drop 4 |>.filter (fun k => (tget ({ badMacs := macPlaces 5 1 } : Classifier).macs k).isNone &&
      !(macPlaces 5 1).contains k) |> (· = []) := by
    simp only [List.filter_eq_nil_iff]
    intro k hk
    simp [List.mem_of_mem_drop hk]
  simp only [Classifier.macFree]
  rw [hx, hy]
  rfl

theorem witness_MacCommands :
    (p0.part = 0 ∧ (up.at 9).engineBusy 4 p0 = false ∧ Ready p0 0x0707 false up ∧ 3 < 4 ∧ 4095 < 4096) ∧
    (5 : BitVec 48).toNat = 5 ∧
    (stationed { mac := 5, vid := 1, mif := 2, isStatic := true }).cls.macs.find?
      (fun e => e.2.isStatic && e.2.mac == 5 && e.2.vid == 1) =
        some (place5, { mac := 5, vid := 1, mif := 2, isStatic := true }) ∧
    Ready p0 0x0708 false up ∧ (Ready p0 0x0709 false up ∧ (7 < 4 ∨ 7 = 7) ∧ 0x1000 ≤ 0x1000) := by
  repeat' first | refine And.intro ?_ ?_ | decide +kernel | rfl | exact ready_of (by decide +kernel)

/-- The rest is `mac_found`, `mac_absent`, `mac_room` and `mac_full`. -/
theorem witness_MacLearning :
    (∀ x ∈ up.cls.macOld, x.1.1 ≠ 0) ∧
    (({ mac := 5, vid := 1, mif := 2 } : MacEntry).move 0 up.cls.macMoveWindow up.tick).moves ≤ up.cls.macMoveMax ∧
    (({ mac := 5, vid := 1, mif := 2 } : MacEntry).move 0 up.cls.macMoveWindow up.tick).moves >
      ({ macMoveMax := 0 } : Classifier).macMoveMax ∧
    ({ up with cls := { ifcs := [(0, { macLimit := 0 })] } } : State).cls.learnedOn 0 ≥
      (({ up with cls := { ifcs := [(0, { macLimit := 0 })] } } : State).clsIfc 0).macLimit ∧
    up.cls.learnedOn 0 < (up.clsIfc 0).macLimit := by
  repeat' first | refine And.intro ?_ ?_ | decide +kernel

/-! ### Witnesses: flows, baselines -/

/-- A frame at the flow step. -/
def missFrame : Frame := { frame1 with stage := .flowMiss, act := some { plain with flowMode := 1 } }

/-- `framed` with a flow table of two records at 0 whose first index entry names record 0 with the
signature of `key0`. -/
def hitState : State :=
  { framed missFrame with
    cls := { pipes := [(0, { flowRecords := 2, flowBase := 0, flowSet := true })] }
    mem := { bytes := [(576, 1), (584, BitVec.ofNat 8 (keySig key0)), (585, BitVec.ofNat 8 (keySig key0 / 256)),
      (586, BitVec.ofNat 8 (keySig key0 / 256 / 256)), (587, BitVec.ofNat 8 (keySig key0 / 256 / 256 / 256)),
      (588, BitVec.ofNat 8 (keySig key0 / 256 / 256 / 256 / 256)),
      (589, BitVec.ofNat 8 (keySig key0 / 256 / 256 / 256 / 256 / 256)),
      (590, BitVec.ofNat 8 (keySig key0 / 256 / 256 / 256 / 256 / 256 / 256)),
      (591, BitVec.ofNat 8 (keySig key0 / 256 / 256 / 256 / 256 / 256 / 256 / 256))] } }

theorem hit_entries : (hitState.pipe 0).entries key0 = [576, 592, 608, 624] := by
  simp [Pipeline.entries, Pipeline.buckets, Pipeline.entryAddr, Pipeline.indexBase, Pipeline.tableBase, hitState, State.pipe, tgetD,
    tget, Nat.mod_one, List.range_succ]

theorem leNat_leBytes : ∀ n v, leNat (leBytes n v) = v % 2 ^ (8 * n)
  | 0, v => by simp [leBytes, leNat, Nat.mod_one]
  | n + 1, v => by
    have h : 2 ^ (8 * (n + 1)) = 256 * 2 ^ (8 * n) := by rw [Nat.mul_add, Nat.pow_add]; omega
    rw [h, Nat.mod_mul, leBytes, leNat, leNat_leBytes n]
    simp

theorem hit_word : hitState.ixAt 576 = 1 + 2 ^ 64 * keySig key0 := by
  have hk : keySig key0 < 2 ^ 64 := Nat.mod_lt _ (by decide)
  have h : hitState.ixAt 576 = leNat ([1, 0, 0, 0, 0, 0, 0, 0] ++ leBytes 8 (keySig key0)) := rfl
  have hl := leNat_leBytes 8 (keySig key0)
  rw [Nat.mod_eq_of_lt hk] at hl
  rw [h]
  simp only [leNat, List.cons_append, List.nil_append, hl]
  generalize keySig key0 = k
  simp
  omega

/-- A state with its classifier and memory. -/
theorem hit_look (s : State) (hc : s.cls = hitState.cls) (hm : s.mem = hitState.mem) :
    s.flowLook 0 key0 = .hit 576 0 := by
  have hk : keySig key0 < 2 ^ 64 := Nat.mod_lt _ (by decide)
  have he := hit_word
  generalize hg : keySig key0 = k at hk he
  have hs : ixSig (hitState.ixAt 576) = k := by
    rw [he, ixSig, bitsOf]
    omega
  have hv : ixValid (hitState.ixAt 576) = true := by
    rw [he, ixValid, Nat.testBit_eq_decide_div_mod_eq]
    simp
    omega
  have hb : ixBad (hitState.ixAt 576) = false := by
    rw [he, ixBad, Nat.testBit_eq_decide_div_mod_eq]
    simp
    omega
  have hr : ixRec (hitState.ixAt 576) = 0 := by
    rw [he, ixRec, bitsOf]
    omega
  have hp : s.pipe 0 = hitState.pipe 0 := by unfold State.pipe; rw [hc]
  have hx : s.ixAt 576 = hitState.ixAt 576 := by unfold State.ixAt State.leAt State.bytesAt; rw [hm]
  have hf : s.recReadable 0 0 = true := by unfold State.recReadable; rw [hp, hm]; rfl
  have hd : s.mem.readable 576 16 = true := by rw [hm]; rfl
  have hh : recHolds (s.recStats 0 0) key0 = true := by
    unfold State.recStats State.leAt State.bytesAt; rw [hp, hm]; decide +kernel
  unfold State.flowLook
  rw [hp, hit_entries]
  simp [State.flowScan, hx, hs, hv, hb, hr, hf, hd, hh, hg, show (hitState.pipe 0).tableBase = some 0 from rfl]

theorem witness_FlowStep_hit : hitState.flowLook 0 key0 = .hit 576 0 := hit_look hitState rfl rfl

theorem hit_touch : (hitState.at 0).flowTouch 0 key0 = hitState := by
  have h0 : hitState.at 0 = hitState := rfl
  have ht (a n k : Nat) : hitState.touch a n k = hitState := rfl
  rw [h0]
  unfold State.flowTouch
  rw [hit_entries, witness_FlowStep_hit]
  simp [ht, show (hitState.pipe 0).tableBase = some 0 from rfl]

theorem witness_FlowStep_touched : ((hitState.at 0).flowTouch 0 key0).flowLook 0 key0 = .hit 576 0 := by
  rw [hit_touch]; exact witness_FlowStep_hit

/-- The other hypotheses of a flow step: a frame at the step, no learn of its key or one, a miss. -/
theorem witness_FlowStep :
    (hitState.moving = true ∧ hitState.frame 1 = some missFrame ∧ missFrame.stage = .flowMiss ∧
      missFrame.act = some { plain with flowMode := 1 }) ∧
    (∀ e ∈ (hitState.pipe (portOf missFrame.ifc)).learning,
      e.2.key ≠ keySorted (hitState.pipe (portOf missFrame.ifc)).flowSym missFrame.key) ∧
    keySorted (hitState.pipe (portOf missFrame.ifc)).flowSym missFrame.key = key0 ∧
    (∃ e ∈ ({ learning := [(0, { key := key0, entry := 576, tick := 0 })] } : Pipeline).learning,
      e.2.key = keySorted false missFrame.key) ∧
    (((framed missFrame).at 9).flowTouch 0 key0).flowLook 0 key0 = .miss := by
  repeat' first | refine And.intro ?_ ?_ | decide +kernel

theorem witness_FlowHitRefreshes :
    up.mem.wf = true ∧ hitState.flowLocked 0 = false ∧
    ({ hitState with mem := { bytes := [(512, 1)] } } : State).flowLocked 0 = true := by
  repeat' first | refine And.intro ?_ ?_ | decide +kernel

/-- A flow table of two records whose entry 0 is valid, hit or idle. -/
def aging (hit : Bool) : State :=
  { up with
    cls := { pipes := [(0, { flowRecords := 2, flowBase := 0, flowSet := true, learning := [(1, { key := key0, entry := 592, tick := 0 })] })] }
    mem := { bytes := [(576, if hit then 5 else 1)] } }

theorem witness_FlowLearnAndAging :
    ((aging true).moving = true ∧ (aging true).mem.wf = true ∧
      tget ((aging true).pipe 0).learning 1 = some { key := key0, entry := 592, tick := 0 } ∧
      ∀ e ∈ (aging true).parser.frames, e.2.stage ≠ .learnWait) ∧
    (((aging true).pipe 0).tableBase.isSome = true ∧ (aging true).flowLocked 0 = false ∧
      0 < ((aging true).pipe 0).flowRecords * 2 ∧
      (aging true).mem.faultsIn (((aging true).pipe 0).indexBase + 64 + 0 * 16) 16 = [] ∧
      ixValid ((aging true).ixAt (((aging true).pipe 0).indexBase + 64 + 0 * 16)) = true ∧
      ixBad ((aging true).ixAt (((aging true).pipe 0).indexBase + 64 + 0 * 16)) = false ∧
      ixHit ((aging true).ixAt (((aging true).pipe 0).indexBase + 64 + 0 * 16)) = true) ∧
    ((aging false).mem.wf = true ∧ ixHit ((aging false).ixAt (((aging false).pipe 0).indexBase + 64 + 0 * 16)) = false ∧
      ixValid ((aging false).ixAt (((aging false).pipe 0).indexBase + 64 + 0 * 16)) = true ∧
      ((aging false).pipe 0).flowAge ≤ idleOf (seenAt (max (aging false).tick 60000000000000))
        (ixSeen ((aging false).ixAt (((aging false).pipe 0).indexBase + 64 + 0 * 16))) (2 ^ 28)) := by
  repeat' first | refine And.intro ?_ ?_ | decide +kernel

theorem witness_FlowCommands :
    p0.part = 0 ∧ 0 < 2 ∧ (hitState.at 9).engineBusy 5 p0 = false ∧ (up.at 9).engineBusy 6 p0 = false ∧
    Ready p0 0x070B false hitState ∧ Ready p0 0x070A false hitState ∧
    keySorted (hitState.pipe 0).flowSym key0 = key0 ∧ Ready p0 0x070B false up ∧
    up.flowLook 1 (keySorted (up.pipe 1).flowSym key0) = .miss := by
  repeat' first | refine And.intro ?_ ?_ | decide +kernel | rfl | exact ready_of (by decide +kernel)

/-- A flow table inside window 15 of partition 3. -/
def lockable : State :=
  { windowed 3 with cls := { pipes := [(0, { flowRecords := 2, flowBase := 4096, flowSet := true })] } }

theorem witness_FlowTableLock :
    Accepted 5 (fr 0xB 15) 0xB ses2 lockable ∧ (fr 0xB 15).target < 16 ∧
    tget lockable.ouv.windows (winKey ses2.part 15) = some { rights := 3, base := 4096, pages := 1 } ∧
    (lockable.pipe 0).tableBase = some 4096 ∧ 4096 ≤ (lockable.pipe 0).indexBase ∧ (3 : Nat).testBit 1 = true ∧
    ((lockable.pipe 0).indexBase - 4096) % 4 = 0 ∧ (lockable.pipe 0).indexBase + 4 ≤ 4096 + 1 * 4096 ∧
    lockable.mem.wf = true ∧ inSoftware (lockable.pipe 0).indexBase 4 = true ∧
    (∀ p, p ≠ 0 → lockable.entriesHit p (lockable.pipe 0).indexBase 4 = []) ∧
    ∀ p, (lockable.pipe p).learning = [] := by
  have other : ∀ p, p ≠ 0 → lockable.pipe p = {} := by
    intro p h
    simp [State.pipe, lockable, tgetD, tget, Ne.symm h]
  refine ⟨⟨rfl, rfl⟩, ?_⟩
  repeat' first | refine And.intro ?_ ?_ | decide +kernel
  · intro p h
    simp only [State.entriesHit, other p h]
    decide +kernel
  · intro p
    by_cases h : p = 0
    · subst h; rfl
    · rw [other p h]

theorem place5_low : place5 < 65536 := by
  simp only [place5, macPlaces, List.range_succ]
  simp
  omega

theorem place_held (e : MacEntry) : tget (stationed e).cls.macs place5 = some e := by simp [stationed, tget]

theorem witness_ClassifierUpkeep :
    ((stationed { mac := 5, vid := 1, mif := 2 }).moving = true ∧
      place5 ∉ (stationed { mac := 5, vid := 1, mif := 2 }).cls.badMacs ∧ place5 < 65536 ∧
      (stationed { mac := 5, vid := 1, mif := 2 }).cls.macAge ≤
        idleOf (macTime (max (stationed { mac := 5, vid := 1, mif := 2 }).tick 300000000000000) % 2 ^ 24) 0 (2 ^ 24)) ∧
    (up.cls.macPinHold ≤ idleOf (macTime (max up.tick 60000000000000) % 2 ^ 28) 0 (2 ^ 28)) ∧
    ((ruled frame1).running = true ∧ 0 < 2 ∧ 9 < 16384 ∧ ((ruled frame1).pipe 0).live 9 = true) ∧
    (up.running = true ∧ up.isainUp = true) ∧
    (((aging true).pipe 0).tableBase.isSome = true ∧
      ixBad (({ aging true with mem := { bytes := [(576, 9)] } } : State).ixAt (((aging true).pipe 0).indexBase + 64 + 0 * 16)) = true) ∧
    [place5] = ({ badMacs := [place5] } : Classifier).badMacs := by
  repeat' first | refine And.intro ?_ ?_ | decide +kernel | rfl | exact place5_low

/-- An update of cluster 0 in flight for record 0. -/
def rsUp (stale : Bool) : RsUpdate :=
  { tick := 0, cluster := 0, handle := 1, epoch := 1, inputs := [], stale := stale }

/-- `up` with it. -/
def updating (stale : Bool) : State := { up with cls := { pipes := [(0, { rsFlight := [(0, rsUp stale)] })] } }

theorem witness_RecurrentUpdates :
    (∀ b ∈ [true, false], (updating b).moving = true ∧ tget ((updating b).pipe 0).rsFlight 0 = some (rsUp b) ∧
      (rsUp b).stale = b) ∧
    (updating false).halfReadable 0 0 = true ∧ (rsUp false).tick + 20000 ≤ max (updating false).tick 20000 ∧
    tget ((updating true).pipe 0).rsWait 0 = none := by
  repeat' first | refine And.intro ?_ ?_ | decide +kernel

theorem witness_FlowRecordUpdate : 0 < 2 ^ 1024 ∧ frame1.rxTick < 2 ^ 64 ∧ frame1.len < 2 ^ 16 := by
  refine ⟨Nat.pos_of_ne_zero (by simp), by decide, by decide⟩

/-- `up` with baseline 4095 of partition 3. -/
def based : State := { up with models := { baselines := [(4095, (BaselineSpec.over base3 {}, 3))] } }

theorem witness_BaselineCommands :
    (Ready p3 0x0901 false up ∧ BaselineSpec.missing base3 = false ∧
      (∀ e ∈ up.baselineChecks p3.part base3 (BaselineSpec.over base3 {}), e.1 = none) ∧ 4095 < 4096 ∧
      tget up.models.baselines 4095 = none ∧ up.models.baselines.length < 4096) ∧
    BaselineSpec.missing { base3 with index := none } = true ∧
    (based.hasBaseline 4095 = true ∧ (p3.part = 0 ∨ p3.part = based.baselineOwner 4095) ∧
      Ready p3 0x0901 false based ∧
      ∀ e ∈ based.baselineChecks p3.part base3 (BaselineSpec.over base3 (based.baseline 4095)), e.1 = none) ∧ Ready p3 0x0902 false based := by
  repeat' first | refine And.intro ?_ ?_ | decide +kernel | rfl | exact ready_of (by decide +kernel)

theorem witness_BaselineWindows :
    based.moving = true ∧ tget based.models.baselines 4095 = some (BaselineSpec.over base3 {}, 3) ∧
    (tgetD based.bases 4095 {}).winStart + (BaselineSpec.over base3 {}).winNs ≤ max based.tick 1000000000 ∧
    alarmed 1 1 = false ∧ alarmed 1 2 = true := by
  repeat' first | refine And.intro ?_ ?_ | decide +kernel

/-! ### Witnesses: requests, slots, walks, packet models, scans -/

/-- Ring 11 with a `REQUEST` of model 1 (or 2, which is not live) at its head. -/
def asking (handle : Byte) (r : Ring) : State :=
  { ringed { r with prodIdx := 1 } outRing with
    mem := { bytes := [(4096, handle), (4099, 1), (4103, 1)] }
    models := { domains := [(3, { models := [model1 false] })] } }

/-- What the entry at its head holds. -/
def asked (handle : Byte) : Req := parseReq false ((asking handle reqRing).entryWords 11 0)

theorem witness_RequestAdmission :
    (∀ b ∈ [1, 2], (asking b reqRing).admits 11 = true ∧ ((asking b reqRing).ring 11).rtype = 1 ∧
      (asking b reqRing).cached 11 = true ∧ (asking b reqRing).entryReadable 11 ((asking b reqRing).ring 11).consIdx = true ∧
      headRefusal 1 ((asking b reqRing).ring 11).consIdx
        ((asking b reqRing).entryWords 11 ((asking b reqRing).ring 11).consIdx) = none ∧
      headKind (wordOf ((asking b reqRing).entryWords 11 ((asking b reqRing).ring 11).consIdx) 0) = 0x01) ∧
    (asking 2 reqRing).reqRefusal 3 (asked 2) = some .eState ∧
    ((asking 1 reqRing).reqRefusal 3 (asked 1) = none ∧
      (asking 1 reqRing).liveModel 3 (asked 1).model = some (model1 false)) ∧
    (((asking 1 { reqRing with inflightMax := 1, inflight := 1 }).ring 11).rtype = 1 ∧
      ((asking 1 { reqRing with inflightMax := 1, inflight := 1 }).ring 11).inflightMax ≤
      ((asking 1 { reqRing with inflightMax := 1, inflight := 1 }).ring 11).inflight) ∧
    ((uncached { reqRing with prodIdx := 1, slotWait := some 0 } outRing).cached 11 = false ∧
      (uncached { reqRing with prodIdx := 1, slotWait := some 0 } outRing).admits 11 = true ∧
      (uncached { reqRing with prodIdx := 1, slotWait := some 0 } outRing).stands 11 = true) ∧
    (asking 1 reqRing).canServe 3 = true ∧
    ({ asking 1 reqRing with parts := [(3, { enabled := true, slotMax := 0 })] } : State).canServe 3 = false ∧
    (((asking 1 { reqRing with slotWait := some 0 }).ring 11).slotWait =
        some ((asking 1 { reqRing with slotWait := some 0 }).ring 11).consIdx ∧
      (asking 1 reqRing).tick < ((asking 1 reqRing).ring 11).waitLimit (asked 1) (model1 false) ∧
      ((asking 1 reqRing).ring 11).waitLimit (asked 1) (model1 false) ≤ ((asking 1 reqRing).at 1000).tick) := by
  repeat' first | refine And.intro ?_ ?_ | decide +kernel

theorem witness_SlotPlacement :
    (4999 ≤ ((serving (slot3 .running (.frame 1)) frame1).slot 0).admitAt + (model1 false).params.maxBudget ∧
      ((serving (slot3 .running (.frame 1)) frame1).slot 0).admitAt + (model1 false).params.maxBudget < 5001) ∧
    ((serving { slot3 .admitted (.frame 1) with deadline := 0 } frame1).cutoff 0 ≤
      ((serving { slot3 .admitted (.frame 1) with deadline := 0 } frame1).slot 0).admitAt) ∧
    (((serving (slot3 .admitted (.frame 1)) frame1).slot 0).admitAt <
        (serving (slot3 .admitted (.frame 1)) frame1).cutoff 0 ∧
      ((serving (slot3 .admitted (.frame 1)) frame1).chooseBinding 3 255 (model1 false)).isSome = true ∧
      up.chooseBinding 3 255 (model1 false) = none) := by
  repeat' first | refine And.intro ?_ ?_ | decide +kernel

theorem witness_SlotWork :
    ((serving (slot3 .admitted (.ring 11 0)) frame1).moving = true ∧
      (serving (slot3 .admitted (.ring 11 0)) frame1).slotModel 0 = some (model1 false) ∧
      ((serving (slot3 .admitted (.ring 11 0)) frame1).slot 0).state = .admitted ∧
      ((serving (slot3 .admitted (.ring 11 0)) frame1).slot 0).src = .ring 11 0) ∧
    (((serving (slot3 .admitted (.frame 1)) { frame1 with stage := .deep }).slot 0).src = .frame 1 ∧
      (serving (slot3 .admitted (.frame 1)) { frame1 with stage := .deep }).frame 1 =
        some { frame1 with stage := .deep }) ∧
    (((serving { slot3 .running (.frame 1) with revPending := true } frame1).slot 0).state = .running ∧
      ((serving { slot3 .running (.frame 1) with revPending := true } frame1).slot 0).revPending = true ∧
      (serving { slot3 .running (.frame 1) with revPending := true } frame1).flowLook
        ((serving { slot3 .running (.frame 1) with revPending := true } frame1).reverseKey frame1).2
        ((serving { slot3 .running (.frame 1) with revPending := true } frame1).reverseKey frame1).1 = .miss) ∧
    (serving (slot3 .running (.frame 1)) frame1).cutoff 0 ≤ max (serving (slot3 .running (.frame 1)) frame1).tick 900 := by
  repeat' first | refine And.intro ?_ ?_ | decide +kernel

/-- `hitState` with a deep-path slot whose reverse lookup is to be made. -/
def reversing : State :=
  { hitState with
    comp := (serving (slot3 .running (.frame 1)) missFrame).comp
    rings := (serving { slot3 .running (.frame 1) with revPending := true } missFrame).rings
    models := (serving (slot3 .running (.frame 1)) missFrame).models }

/-- Its record is not warm. -/
theorem witness_ReverseUnwarm :
    (reversing.moving = true ∧ reversing.slotModel 0 = some (model1 false) ∧ (reversing.slot 0).state = .running ∧
      (reversing.slot 0).revPending = true ∧ (reversing.slot 0).src = .frame 1) ∧
    reversing.frame 1 = some missFrame ∧ reversing.reverseKey missFrame = (key0, 0) ∧
    reversing.flowLook 0 key0 = .hit 576 0 ∧ (reversing.recStats 0 0).testBit 47 = false ∧
    reversing.halfReadable 0 0 = true := by
  exact ⟨by decide +kernel, by decide +kernel, by decide +kernel, hit_look reversing rfl rfl, by decide +kernel,
    by decide +kernel⟩

/-- `serving` with a walk of the slot, and a bad copy of model 1, on core 20. -/
def walking : State :=
  { serving (slot3 .running (.frame 1)) frame1 with
    comp := { clustered.comp with
      cores := [(20, { walks := [(0, { slot := 0, slotGen := 0, item := 0, tree := 0, node := 0 })], badShards := [(3, 1, 1)] })] } }

/-- `pmServing` with a bad copy of its packet model on core 1. -/
def badCopies : State :=
  { pmServing with
    comp := { pmServing.comp with cores := [(1, { badShards := [(0x40, 1, 1)] })] } }

theorem witness_Walks :
    walking.moving = true ∧
    (tget (walking.core 20).walks 0 = some { slot := 0, slotGen := 0, item := 0, tree := 0, node := 0 } ∧
      ({ slot := 0, slotGen := 0, item := 0, tree := 0, node := 0 } : Walk).parked = none ∧
      walking.slotModel 0 = some (model1 false)) ∧
    ((walking.core 20).badShards = [(3, 1, 1)] ∧ (walking.core 20).deadShards = [] ∧
      walking.modelAt 3 1 1 = some (model1 false) ∧
      walking.mem.readable (model1 false).cAddr (model1 false).cLen = true) ∧
    (walking.core 21).badShards = (walking.core 21).deadShards ∧
    ((badCopies.core 1).badShards = [(0x40, 1, 1)] ∧ badCopies.epochBad 1 0x40 1 = true ∧
      badCopies.pmEpoch 1 = some 1 ∧ packetDomain = 0x40) := by
  repeat' first | refine And.intro ?_ ?_ | decide +kernel

/-- A packet model whose one stage corrects its score to an infinity. -/
def infModel : Model :=
  { model1 true with stages := [{ first := 0, count := 0, corr := [(0, 0x7F800000)], est := 0 }] }

/-- `pmServing` with it for model 1. -/
def infServing : State :=
  { pmServing with models := { domains := [(0x40, { models := [infModel], pmCalls := [(1, 1)] })] } }

theorem witness_PacketModels :
    pmServing.moving = true ∧
    pmServing.frame 1 = some pmFrame ∧ pmFrame.stage = .pmWait 0 ∧
    pmServing.pmModel 1 = some (model1 true) ∧
    pmServing.pmCore 1 1 = true ∧
    (((model1 true).scores (((model1 true).stages.head?.map (·.corr)).getD []) 1
      ((model1 true).sumLeaves (shuffle 0 0
        (pmServing.pmWalks 1 1 (model1 true) (pmServing.packetItem (model1 true) pmFrame))))).isSome = true) ∧
    (infModel.scores ((infModel.stages.head?.map (·.corr)).getD []) 1
      (infModel.sumLeaves (shuffle 0 0 (infServing.pmWalks 1 1 infModel (infServing.packetItem infModel pmFrame)))) = none ∧
      infServing.moving = true ∧ infServing.frame 1 = some pmFrame ∧ infServing.pmModel 1 = some infModel ∧
      infServing.pmCore 1 1 = true) ∧
    0 + 1000 ≤ max pmServing.tick 1000 := by
  repeat' first | refine And.intro ?_ ?_ | decide +kernel

theorem witness_PatternScans :
    ((framed { frame1 with stage := .scanQueue }).moving = true ∧ 31 < 32 ∧
      tget (framed { frame1 with stage := .scanQueue }).parser.engines 31 = none ∧
      (framed { frame1 with stage := .scanQueue }).scanQueue = 1 :: []) ∧
    (tget ({ (framed { frame1 with stage := .scanning 31, slot := some 0 }).parser with engines := [(31, 1)] } :
        Parser).engines 31 = some 1 ∧
      (framed { frame1 with stage := .scanning 31, slot := some 0 }).frame 1 =
        some { frame1 with stage := .scanning 31, slot := some 0 }) := by
  repeat' first | refine And.intro ?_ ?_ | decide +kernel

/-! ### Witnesses: egress -/

/-- Frame 1 at egress with a decision. -/
def outFrame (d : Decision) : Frame := { frame1 with stage := .egress, decision := some d, act := some plain }

theorem witness_EgressDecisions :
    (∀ d ∈ [Decision.dflt 1 false, .drop, .unclassified, .rule, .verdict {}], (framed (outFrame d)).moving = true ∧
      (framed (outFrame d)).frame 1 = some (outFrame d) ∧ (outFrame d).stage = .egress ∧
      (outFrame d).decision = some d ∧ (outFrame d).act = some plain) ∧
    (∀ k ∈ [1, 0, 2, 5], ({ plain with fwdAction := k } : RuleAction).fwdAction = k) ∧
    (plain.annotate = false ∧ (∀ k ∈ [1, 2, 4, 5], ({ action := k } : Verdict).action = k) ∧
      ({ action := 4 } : Verdict).annotate = false) ∧
    (({ framed frame1 with eg := { policers := [(0, policer1)] } } : State).verdictMay { action := 4, arg := 0 } = true) ∧
    ({ framed frame1 with rings := (ringed reqRing outRing).rings } : State).verdictMay
      { action := 5, arg := 12, part := 3 } = false ∧
    (({ frame1 with stage := .deep, slot := some 0 } : Frame).stage = .deep ∧
      ({ frame1 with stage := .deep, slot := some 0 } : Frame).slot = some 0 ∧
      frame1.heldSince + frame1.set.holdMax ≤ max (framed frame1).tick 1000000) ∧
    ((outFrame .flood).decision = some .flood ∧ (outFrame .flood).act = some plain ∧ (outFrame .flood).set.role ≠ 4 ∧
      ({ outFrame .flood with set := { role := 4 } } : Frame).set.role = 4) := by
  repeat' first | refine And.intro ?_ ?_ | decide +kernel

theorem witness_PolicerMeters :
    (policer1.meter 64 0).2 = .green ∧ (policer1.meter 65 0).2 ≠ .green ∧ (policer1.meter 128 0).2 ≠ .red ∧
    (policer1.meter 129 0).2 = .red := by
  repeat' first | refine And.intro ?_ ?_ | decide +kernel

/-- `framed` with frame 1 at the head of a data queue of interface 0. -/
def queued (q : Nat) : State :=
  { framed { frame1 with stage := .queued 0 q 0 } with eg := { queues := [(qKey 0 q, { frames := [1] })] } }

theorem witness_TransmitOrder :
    ((queued 7).moving = true ∧ ((queued 7).ifc 0).link = true ∧ 0 < 5 ∧ ((queued 7).gates 0).running = none ∧
      (((queued 7).at 9).queue 0 9).mayShape (max (queued 7).tick 9) = true) ∧
    (({ queued 7 with eg := { queues := [(qKey 0 9, { shapeRate := 1, tokens := -99999999 })] } } : State).queue 0
      9).mayShape 9 = false ∧
    (((({ queued 7 with eg := { queues := [(qKey 0 8, { ctl := [(0, 64, .line 0 8 bytes60 true none)] })] } } : State).queue 0 8).ctl ≠ []) ∧
      (({ queued 7 with eg := { queues := [(qKey 0 8, { ctl := [(0, 64, .line 0 8 bytes60 true none)] })] } } : State).queue 0 8).mayShape
        9 = true) ∧
    (((queued 7).queue 0 8).ctl = [] ∧ 7 < 8 ∧ 8 ≤ 7 + tgetD (queued 7).eg.strictCount 0 2 ∧
      ((queued 7).at 9).eligible 0 7 = true ∧ (queued 7).headOf 0 7 = some (1, { frame1 with stage := .queued 0 7 0 })) ∧
    (∀ q < 8, ((framed frame1).at 9).eligible 0 q = false) ∧ (queued 7).headOf 0 6 = none ∧ pausing.paused 0 7 = true ∧
    ((({ shapeRate := 1, tokens := -99999999 } : Queue).shapeRate ≠ 0) ∧
      (({ shapeRate := 1, tokens := -99999999 } : Queue).shaped 0).tokens < 0) := by
  repeat' first | refine And.intro ?_ ?_ | decide +kernel

/-- The example after R179: the list starts at 5,000,000,250,000 ns. By R179's own words N is 4,001 there; the
example's "4,000,001" comes of a slip of a thousand in its difference of the two times. -/
theorem test_gateStart : gateStart 4999000000000 250000 5000000126400 = (4001, 5000000250000) := by decide +kernel

/-- A gate list of two entries. -/
def gates2 : GateList := { base := 0, cycle := 1000, entries := [(0x80, 400), (0x7F, 600)], start := 1000 }

/-- `up` with wall time disciplined and the gates of interface 0 as given. -/
def gated (g : Gates) : State := { up with wall := { state := 1 }, eg := { gates := [(0, g)] } }

theorem witness_GateLists :
    3 < 4 ∧ (Ready p0 0x0803 false up ∧ p0.part = 0 ∧ [((0x80 : Byte), 100)] ≠ [] ∧ [((0x80 : Byte), 100)].length ≤ 256 ∧
      1000 ≤ 1000 ∧ 1000000000 ≤ 1000000000 ∧
      (∀ e ∈ [((0x80 : Byte), 100), (0x80, 1000000000)], 100 ≤ e.2 ∧ e.2 ≤ 1000000000) ∧ up.wall.state = 0) ∧
    (up.gates 3).running = none ∧
    (Ready p0 0x0803 false (gated { running := some gates2 }) ∧
      ((gated { running := some gates2 }).gates 0).running = some gates2) ∧
    ((gated { pending := some gates2 }).moving = true ∧ (gated { pending := some gates2 }).wall.state ≠ 0 ∧
      ((gated { pending := some gates2 }).gates 0).pending = some gates2 ∧
      gates2.start ≤ (gated { pending := some gates2 }).wallWord (max (gated { pending := some gates2 }).tick 1000)) ∧
    (((gated { running := some gates2, entryEnd := 1400 }).gates 0).entryEnd ≤
        (gated { running := some gates2, entryEnd := 1400 }).wallWord 1400 ∧
      ((gated { running := some gates2, entryEnd := 1400 }).gates 0).entryEnd ≠ gates2.start ∧
      ((gated { running := some gates2, entryEnd := 1400 }).gates 0).index + 1 < gates2.used) ∧
    (((gated { running := some gates2, entryEnd := 1000 }).gates 0).entryEnd = gates2.start ∧
      ((gated { running := some gates2, entryEnd := 1000 }).gates 0).stopAt = none) ∧
    (gates2.used ≤ ((gated { running := some gates2, index := 1 }).gates 0).index + 1 ∧
      ((gated { running := some gates2, index := 1 }).gates 0).stopAt = none ∧
      ((gated { running := some gates2, index := 1, stopAt := some 2000 }).gates 0).stopAt ≠ none) := by
  repeat' first | refine And.intro ?_ ?_ | decide +kernel | rfl | exact ready_of (by decide +kernel)

theorem witness_DrainsAndQueueStats :
    ((draining (.draining 0 [p0])).running = true ∧ ((draining (.draining 0 [p0])).port 0).drain = .draining 0 [p0] ∧
      (draining (.draining 0 [p0])).stillAdmitted 0 = false ∧ (draining (.draining 0 [p0])).queuesEmpty 0 = true) ∧
    ((draining (.draining 0 [p0])).heldUntil 0 0 + ((draining (.draining 0 [p0])).port 0).drainTimeout ≤
        max (draining (.draining 0 [p0])).tick 101000000 ∧ (draining (.draining 0 [p0])).portIfcs 0 = [0]) ∧
    (3 < 4 ∧ Ready p0 0x0804 true up ∧ p0.part = 0) := by
  repeat' first | refine And.intro ?_ ?_ | decide +kernel | rfl | exact ready_of (by decide +kernel)

/-! ### Witnesses: feature tables and fetches -/

/-- A generation of one entry. -/
def gen1 (g : Nat) (st : GenState) : Generation := { g := g, state := st, base := 1048576, log2Buckets := 10, n := 1 }

/-- `up` with table 5 of partition 3 and its generations, one image holding key 1 (locked or not). -/
def tabled (lock : Byte) (gens : List Generation) : State :=
  { up with
    parts := [(0, { enabled := true, rights := 3 }),
      (3, { enabled := true, memRanges := [(0, (1048576, 256, 3))] })]
    models := { tables := [(5, table3 gens)] }
    mem := { bytes := [(1048580, 7), (1048584, 1), (1064973, 0x80), (1130496, 1), (1130504, lock), (1130505, 7)] } }

/-- A `FTABLE_CREATE`'s settings. -/
def tspec : TableSpec :=
  { ftMode := some 0, valFmt := none, nVal := some 8, entLines := some 1, hashSeed := some 1, shardSeed := none
    fallback := none, localBudget := some 1000, remoteBudget := some 1000000, remoteGrace := none
    remoteInflightMax := some 65535 }

theorem witness_TableCommands :
    (Ready p3 0x0A01 false up ∧ 65535 < 65536 ∧ TableSpec.outOfRange tspec = false ∧ TableSpec.missing tspec = false ∧
      tspec.fallback = none ∧ up.contradicts (TableSpec.table tspec p3.part) = false ∧ up.table 65535 = none ∧
      up.models.tables.length < 1024 ∧ (up.models.tables.filter fun e => e.2.owner == p3.part).length < 64) ∧
    (Ready p3 0x0A01 false (tabled 1 []) ∧ (tabled 1 []).table 5 = some (table3 [])) ∧
    ((p3.part = 0 ∨ p3.part = (table3 []).owner) ∧ Ready p3 0x0A02 false (tabled 1 []) ∧ (table3 []).gens = [] ∧
      (tabled 1 []).tableRead 5 = false ∧ ∀ e ∈ (tabled 1 []).models.tables, e.2.fallback ≠ some 5) ∧
    (Ready p3 0x0A02 false (tabled 1 [gen1 7 .current]) ∧ (table3 [gen1 7 .current]).gens ≠ []) ∧
    (Ready p3 0x0A03 true (tabled 1 [gen1 7 .current]) ∧ (table3 [gen1 7 .current]).gens = [gen1 7 .current]) := by
  repeat' first | refine And.intro ?_ ?_ | decide +kernel | rfl | exact ready_of (by decide +kernel)

theorem witness_GenerationLifeCycle :
    ((tabled 1 []).table 5 = some (table3 []) ∧ (p3.part = 0 ∨ p3.part = (table3 []).owner) ∧
      (tabled 1 []).mem.wf = true ∧ Ready p3 0x0A04 false (tabled 1 []) ∧ (table3 []).gens.length < 2 ∧ 7 < 256 ∧
      (table3 []).genBad 7 = false ∧ 1048576 % 4096 = 0 ∧ 10 ≤ 10 ∧ 30 ≤ 30 ∧
      (tabled 1 []).mayAccess (table3 []).owner 1 1048576 ((table3 []).imageBytes (gen1 7 .loading)) = true ∧
      inSoftware 1048576 ((table3 []).imageBytes (gen1 7 .loading)) = true ∧
      (tabled 1 []).imageMeets 1048576 ((table3 []).imageBytes (gen1 7 .loading)) = false) ∧
    (Ready p3 0x0A05 false (tabled 1 [gen1 7 .loading]) ∧ (table3 [gen1 7 .loading]).gen 7 = some (gen1 7 .loading) ∧
      (gen1 7 .loading).state = .loading ∧ (gen1 7 .loading).dropping = false ∧
      (tabled 1 [gen1 7 .loading]).mem.readable 1048576 64 = true ∧
      (tabled 1 [gen1 7 .loading]).headerGood (gen1 7 .loading) = true) ∧
    (Ready p3 0x0A07 false (tabled 1 [gen1 7 .sealed]) ∧ (gen1 7 .sealed).state = .sealed ∧
      (gen1 7 .current).state = .current) ∧
    ((tabled 1 [{ gen1 7 .sealed with dropping := true }]).running = true ∧
      (table3 [{ gen1 7 .sealed with dropping := true }]).gen 7 = some { gen1 7 .sealed with dropping := true } ∧
      (tabled 1 [{ gen1 7 .sealed with dropping := true }]).servedFrom 5 7 = false) ∧
    ((table3 [gen1 7 .retiring]).gen 7 = some (gen1 7 .retiring) ∧
      ((tabled 1 [gen1 7 .retiring]).at 9).genFreeable 5 (table3 [gen1 7 .retiring]) (gen1 7 .retiring) = true) := by
  repeat' first | refine And.intro ?_ ?_ | decide +kernel | rfl | exact ready_of (by decide +kernel)

theorem witness_GenerationCommits :
    Ready p3 0x0A06 false (tabled 1 [gen1 7 .sealed]) ∧ [(5, 7)] ≠ [] ∧ [(5, 7)].length ≤ 16 ∧
    ([(5, 7)].map (·.1)).Nodup ∧
    (∀ p ∈ [(5, 7)], (tabled 1 [gen1 7 .sealed]).hasTable p.1 = true ∧ (tabled 1 [gen1 7 .sealed]).sealedGen p = true ∧
      (p3.part = 0 ∨ (tabled 1 [gen1 7 .sealed]).tableOwner p.1 = some p3.part)) ∧
    (∀ p ∈ [(5, 7)], (tabled 1 [gen1 7 .sealed]).domainBusy (((tabled 1 [gen1 7 .sealed]).tableOwner p.1).getD 0) = false) ∧
    (table3 [gen1 6 .current, gen1 7 .sealed]).genIn .current = some (gen1 6 .current) := by
  repeat' first | refine And.intro ?_ ?_ | decide +kernel | rfl | exact ready_of (by decide +kernel)

theorem witness_LookupFindsTheKey :
    ((tabled 1 [gen1 7 .current]).lookup (table3 [gen1 7 .current]) (gen1 7 .current) 1).last =
      .found (1 + 2 ^ 64 + 7 * 2 ^ 72) := by
  repeat' first | refine And.intro ?_ ?_ | decide +kernel

/-- A fetch of key 1 of table 5, locked entries read `n` times. -/
def fetch1 (key : W64) (n : Nat) : Fetch :=
  { slot := 0, slotGen := 0, token := 1, cluster := 0, table := 5, g := 7, key := key, item := none, vmap := []
    issue := 0, endTick := 1000, cut := 900, lockReads := n, lockDue := 200, lockAddr := 1130496 }

/-- `up` with a lookup of cluster 1 whose fetch has ended. -/
def lateUp : State := { up with models := { late := [(9, 1)] } }

theorem witness_FetchesEnd :
    ({ tabled 1 [gen1 7 .current] with models := { (tabled 1 [gen1 7 .current]).models with fetches := [(9, fetch1 1 0)] } } :
      State).fetch 9 = some (fetch1 1 0) ∧
    ((fetch1 1 0).joins = none ∧ (fetch1 1 0).parked = false ∧ (fetch1 1 0).remote = false ∧
      (tabled 1 [gen1 7 .current]).genOf (fetch1 1 0).reads.1 (fetch1 1 0).reads.2 =
        some (table3 [gen1 7 .current], gen1 7 .current) ∧ (fetch1 1 0).lockReads = 0) ∧
    (tabled 1 [gen1 7 .current]).moving = true ∧
    ((tabled 1 [gen1 7 .current]).lookup (table3 [gen1 7 .current]) (gen1 7 .current) (fetch1 2 0).key).last = .absent ∧
    ((fetch1 1 4).lockReads = 4 ∧ (fetch1 1 3).lockReads < 4 ∧ (fetch1 1 3).lockDue ≤ max up.tick 200 ∧
      ((tabled 1 [gen1 7 .current]).lookAgain (table3 [gen1 7 .current]) (gen1 7 .current) 1 1130496 0).last =
        .found (1 + 2 ^ 64 + 7 * 2 ^ 72) ∧
      ((tabled 3 [gen1 7 .current]).lookAgain (table3 [gen1 7 .current]) (gen1 7 .current) 1 1130496 0).last =
        .locked 1130496 0) ∧
    (0 ≤ (fetch1 1 0).endTick ∧ lateUp.moving = true ∧ lateUp.fetch 9 = none ∧ tget lateUp.models.late 9 = some 1) ∧
    ((fetch1 1 0).endTick ≤ max up.tick 1000 ∧ (fetch1 1 0).cut ≤ (fetch1 1 0).endTick ∧
      (tabled 1 [gen1 7 .current]).asksAway (fetch1 1 0) = false ∧
      up.asksAway { fetch1 1 0 with remote := true, cut := 1001 } = true ∧
      ({ fetch1 1 0 with remote := true, cut := 1001 } : Fetch).endTick <
        ({ fetch1 1 0 with remote := true, cut := 1001 } : Fetch).cut) := by
  repeat' first | refine And.intro ?_ ?_ | decide +kernel

/-! ### Witnesses: staging and commits -/

/-- A container of 704 bytes at 0x100000: a packet-path model of one input (packets of the flow), one band,
one leaf worth 1 and one stage, laid out by R298 to R305 with the digest of R298 computed outside Lean. -/
def container : Mem :=
  [(1048576, 67), (1048577, 77), (1048578, 52), (1048579, 75), (1048580, 1), (1048583, 6), (1048584, 192),
   (1048585, 2), (1048608, 56), (1048609, 69), (1048610, 128), (1048611, 210), (1048612, 36), (1048613, 221),
   (1048614, 142), (1048615, 152), (1048616, 226), (1048617, 145), (1048618, 213), (1048619, 78), (1048620,
   214), (1048621, 195), (1048622, 37), (1048623, 95), (1048624, 22), (1048625, 221), (1048626, 70), (1048627,
   18), (1048628, 162), (1048629, 216), (1048630, 193), (1048631, 223), (1048632, 27), (1048633, 86),
   (1048634, 92), (1048635, 105), (1048636, 11), (1048637, 243), (1048638, 217), (1048639, 17), (1048640, 1),
   (1048644, 64), (1048648, 192), (1048656, 2), (1048660, 16), (1048665, 1), (1048672, 3), (1048676, 16),
   (1048680, 64), (1048681, 1), (1048688, 16), (1048692, 16), (1048696, 128), (1048697, 1), (1048704, 17),
   (1048708, 8), (1048712, 192), (1048713, 1), (1048720, 18), (1048724, 144), (1048729, 2), (1048795, 1),
   (1048796, 1), (1048798, 1), (1048843, 1), (1048847, 3), (1048906, 7), (1048910, 128), (1048911, 255),
   (1048960, 255), (1048961, 255), (1048962, 3), (1048966, 128), (1048967, 63), (1049098, 128), (1049099, 63),
   (1049101, 32), (1049110, 128), (1049111, 63)]

/-- `up` with the container, readable by partition 0. -/
def contained : State :=
  { up with
    parts := [(0, { enabled := true, rights := 3, memRanges := [(0, (1048576, 1, 3))] }), (3, { enabled := true })]
    mem := { bytes := container } }

/-- The model the container holds. -/
def heldModel : Model := contained.parseModel 9 1048576 704 []

theorem test_container_good : contained.containerGood 0x40 1048576 704 heldModel = true := by decide +kernel

/-- `up` with the packet path's staging set. -/
def stagedUp (d : Domain) : State := { up with models := { domains := [(0x40, d)] } }

/-- A pattern of three bytes. -/
def pattern1 : Pattern := { id := 1, group := 0, body := [[1], [2], [3]], caseBlind := false, endRange := none }

theorem witness_Staging :
    0x40 ≤ 0x40 ∧ p0.part = 0 ∧
    (Ready p0 0x0B01 false contained ∧ heldModel = contained.parseModel 9 1048576 704 [] ∧
      contained.domainBusy 0x40 = false ∧ 1048576 % 64 = 0 ∧ 64 ≤ 704 ∧
      inDevice 1048576 704 = true ∧ contained.mayAccess (domainOwner 0x40) 1 1048576 704 = true ∧ heldModel.packet = true ∧
      (∀ k ∈ heldModel.tables, ∃ y, contained.table k = some y ∧ y.owner = 0x40) ∧
      contained.fetchesGood heldModel = true ∧ contained.foreign 0x40 [] = false ∧
      ((contained.domain 0x40).handlesWith 9).length ≤ 256 ∧ contained.sharesFit heldModel = true ∧
      (∀ y ∈ (contained.domain 0x40).staging.models, y.handle ≠ 9) ∧
      (contained.domain 0x40).staging.removed.contains 9 = false) ∧
    (∃ y ∈ ({ models := [model1 true] } : Staging).models, y.handle = 1) ∧
    (Ready p0 0x0B02 false pmServing ∧ (pmServing.liveModel 0x40 1).isSome = true ∧
      pmServing.domainBusy 0x40 = false) ∧
    Ready p0 0x0B03 false up ∧
    ({ up with models := { domains := [(0x40, { waiting := some { h := p0, due := 9 } })] } } : State).domainBusy
      0x40 = true ∧
    (Ready p0 0x0B03 false (stagedUp { waiting := some { h := p0, due := 9 } }) ∧
      (stagedUp { waiting := some { h := p0, due := 9 } }).domainBusy 0x40 = true) ∧
    (Ready p0 0x0B05 true up ∧ up.domainBusy 0x40 = false) ∧
    (Ready p0 0x0605 false contained ∧ 255 < 256 ∧ inSoftware 1048576 64 = true ∧
      contained.mayAccess p0.part 1 1048576 64 = true ∧ tget contained.parser.sets 255 = none ∧
      contained.domainBusy p0.part = false ∧ contained.mem.readable 1048576 64 = true ∧
      [pattern1].all patternGood = true ∧ ([pattern1].map (·.id)).Nodup ∧ (contained.patternsWith p0.part 255 1).2 ≤ 131072 ∧
      (contained.patternsWith p0.part 255 1).1 ≤ 65536) := by
  refine ⟨Nat.le_refl _, rfl, ⟨ready_of (by decide +kernel), rfl, ?_⟩, ?_⟩ <;>
  repeat' first | refine And.intro ?_ ?_ | exact ready_of (by decide +kernel) | decide +kernel

theorem witness_ModelCommits :
    (Ready p0 0x0B04 false (stagedUp {}) ∧ (stagedUp {}).domainBusy 0x40 = false ∧
      ((stagedUp {}).domain 0x40).staging.isEmpty = true) ∧
    ((stagedUp { staging := { removed := [1] } }).domainBusy 0x40 = false ∧
      ((stagedUp { staging := { removed := [1] } }).domain 0x40).staging.isEmpty = false ∧
      (stagedUp { staging := { removed := [1] } }).removedNamed 0x40 = false ∧
      (stagedUp { staging := { removed := [1] } }).stagingStale 0x40 = false ∧
      (stagedUp { staging := { removed := [1] } }).commitWaits 0x40 = false ∧ timeoutBad p0 = false) ∧
    ((stagedUp { staging := { removed := [1] }, retiring := some (1, []) }).commitWaits 0x40 = true) ∧
    (up.running = true ∧ up.bay.isainUp = true ∧
      ((stagedUp { waiting := some { h := p0, due := 9 } }).domain 0x40).waiting = some { h := p0, due := 9 } ∧
      (stagedUp { waiting := some { h := p0, due := 9 } }).commitWaits 0x40 = false ∧
      ((stagedUp { waiting := some { h := p0, due := 9 } }).domain 0x40).staging.isEmpty = true) ∧
    (stagedUp { staging := { gens := [(5, 7)] } }).stagingStale 0x40 = true ∧
    (((stagedUp { retiring := some (1, []), epoch := 2 }).domain 0x40).retiring = some (1, []) ∧
      (stagedUp { retiring := some (1, []), epoch := 2 }).epochHeld 0x40 1 = false) := by
  repeat' first | refine And.intro ?_ ?_ | decide +kernel | rfl | exact ready_of (by decide +kernel)

/-- The commands of administration have their conditions met in `witness_Partitions`, `witness_QuiesceAndStop` and
`witness_SettingsReads`, those of staging in `witness_Staging` and `witness_ModelCommits`; here, a held commit. -/
theorem witness_HeldCommit :
    (stagedUp { waiting := some { h := p0, due := 9 }, staging := { removed := [1] } }).isainUp = true ∧
    (stagedUp { waiting := some { h := p0, due := 9 }, staging := { removed := [1] } }).rings.barriers = [] ∧
    (stagedUp { waiting := some { h := p0, due := 9 }, staging := { removed := [1] } }).models.domains =
      [(0x40, { waiting := some { h := p0, due := 9 }, staging := { removed := [1] } })] ∧
    9 ≤ max (stagedUp { waiting := some { h := p0, due := 9 } }).tick 9 ∧
    (stagedUp { waiting := some { h := p0, due := 9 }, staging := { removed := [1] } }).removedNamed 0x40 = false ∧
    (stagedUp { waiting := some { h := p0, due := 9 }, staging := { removed := [1] } }).stagingStale 0x40 = false ∧
    ((stagedUp { waiting := some { h := p0, due := 9 }, staging := { removed := [1] } }).domain 0x40).staging.isEmpty =
      false ∧
    ({ up with obs := { quiescing := [(p0, 9, false)] } } : State).obs.quiescing ≠ [] := by
  repeat' first | refine And.intro ?_ ?_ | decide +kernel | rfl

theorem witness_FlipsKeepOldEpochs :
    ({ staging := { models := [model1 true], removed := [2] } } : Domain).staging.removed.contains 2 = true ∧
    (({ staging := { models := [model1 true], removed := [2] } } : Domain).staging.models.any fun m => m.handle == 1) =
      true ∧
    ({ staging := { models := [model1 true], removed := [2] } } : Domain).staging.removed.contains 3 = false := by
  repeat' first | refine And.intro ?_ ?_ | decide +kernel

/-! ### Witnesses: kernels, stores, DMA, reduce groups, matrix jobs -/

/-- A launch as it waits. -/
def wait1 (slotV : Bool) : Launch :=
  { desc := { launch1 1 with slotV := slotV }, part := 3, token := 1, asker := if slotV then none else some p3 }

/-- `kernelled` with logical core 0 lost. -/
def lostCore : State :=
  { kernelled 3 {} with comp := { (kernelled 3 {}).comp with map := [(0, { state := 3, phys := 16, home := 16 })] } }

theorem witness_KernelCommands :
    (Ready p3 0x0B06 false (kernelled 3 {}) ∧ 65536 ≤ 65536 ∧ inSoftware 4096 64 = true ∧
      ((kernelled 3 {}).part p3.part).covers 1 4096 64 = true ∧
      aget (kernelled 3 {}).comp.kernels (p3.part, 5) = none ∧
      (aget (kernelled 3 {}).comp.kernels (p3.part, 2)).isSome = true) ∧
    (Ready p3 0x0B07 false (kernelled 3 {}) ∧ (kernelled 3 {}).kernelRuns p3.part 2 = false ∧
      (kernelled 3 { ctxs := [(0, ctx1)] }).kernelRuns p3.part 2 = true) ∧
    (Ready p3 0x0B08 false (kernelled 3 {}) ∧ (launch1 1).resvBad = false ∧
      (launch1 1).firstCore + (launch1 1).nCores ≤ (kernelled 3 {}).logicalEnd) ∧
    (∃ l ∈ launchCores (launch1 1), (kernelled 4 {}).logicalOwner l ≠ p3.part) ∧
    (Ready p3 0x0B08 false lostCore ∧ (aget lostCore.comp.kernels (p3.part, (launch1 1).kernel)).isSome = true ∧
      (launch1 1).firstCore + (launch1 1).nCores ≤ lostCore.logicalEnd ∧
      (∀ l ∈ launchCores (launch1 1), lostCore.logicalOwner l = p3.part) ∧
      ∃ l ∈ launchCores (launch1 1), lostCore.physOf l = none) ∧
    (lostCore.launchHeld (launch1 1) = false ∧ lostCore.launchForeign p3 (launch1 1) = false ∧
      (launch1 1).nCores ≠ 0) ∧
    ((kernelled 3 {}).launchHeld (launch1 1) = false ∧
      (kernelled 3 { retiring := true }).launchHeld (launch1 1) = true ∧
      (kernelled 3 { retiring := true }).physOf 0 = some 16) ∧
    ((∀ l ∈ launchCores (launch1 1), (kernelled 3 {}).logicalOwner l = p3.part ∧
        ((kernelled 3 {}).physOf l).isSome = true ∧ (kernelled 3 {}).logicalLeaves l = false) ∧
      1 ≤ (launch1 1).nCores ∧ inDevice (launch1 1).argAddr (launch1 1).argLen = true ∧
      ((kernelled 3 {}).part p3.part).covers 1 (launch1 1).argAddr (launch1 1).argLen = true ∧
      (launch1 1).slotV = false ∧ (launch1 1).argLen ≤ 4096 ∧ (launch1 1).argLen % 4 = 0 ∧
      (kernelled 3 {}).closed = false) := by
  repeat' first | refine And.intro ?_ ?_ | decide +kernel | rfl | exact ready_of (by decide +kernel)

theorem witness_KernelRuns :
    ((kernelled 3 { waiting := [wait1 true] }).moving = true ∧
      ((kernelled 3 { waiting := [wait1 true] }).core 16).retiring = false ∧
      ((kernelled 3 { waiting := [wait1 true] }).core 16).waiting = wait1 true :: [] ∧
      (kernelled 3 { waiting := [wait1 true] }).launchStale (wait1 true) = true) ∧
    ((kernelled 3 {}).launchStale (wait1 false) = false ∧
      ((kernelled 3 { ctxs := [(0, ctx1), (1, ctx1), (2, ctx1), (3, ctx1)] }).core 16).freeCtx = none ∧
      ((kernelled 3 { resident := [(4096, 64, 0)] }).core 16).freeCtx = some 0 ∧
      (kernelled 3 { resident := [(4096, 64, 0)] }).launchImage (wait1 false) = some (some (4096, 64)) ∧
      ((kernelled 3 { resident := [(4096, 64, 0)] }).core 16).holds (4096, 64) = true ∧
      up.launchImage (wait1 false) = none ∧ (wait1 false).barred = false ∧
      ({ wait1 false with barred := true } : Launch).barred = true ∧
      (kernelled 3 {}).launchStale { wait1 false with barred := true } = false) ∧
    ((kernelled 3 { ctxs := [(0, ctx1)] }).ctxReady 16 0 = true ∧
      (kernelled 3 { ctxs := [(0, { ctx1 with dmaWait := some 0 })] }).ctxReady 16 0 = false) ∧
    (((kernelled 3 { waiting := [wait1 false], loading := some (4096, 64) }).core 16).loading = some (4096, 64) ∧
      (kernelled 3 {}).mem.readable 4096 64 = true) ∧
    ((kernelled 3 { ctxs := [(0, ctx1)] }).ctx 16 0 = some ctx1 ∧ 3 ≤ 3 ∧
      ctx1.start + ((kernelled 3 {}).part ctx1.part).kernelMaxRun ≤ max (kernelled 3 {}).tick 10000000 ∧
      max (kernelled 3 {}).tick 9999999 < ctx1.start + ((kernelled 3 {}).part ctx1.part).kernelMaxRun) ∧
    ((kernelled 3 {}).mayMark ((kernelled 3 {}).coreOwner 16) = true ∧
      (kernelled 4 {}).mayMark ((kernelled 4 {}).coreOwner 16) = false) := by
  repeat' first | refine And.intro ?_ ?_ | decide +kernel

/-- A DMA descriptor with its fence bit set. -/
def fenceDma : BitVec 256 := BitVec.ofNat 256 (2 ^ 67)

/-- `kernelled` with `ctx1` running. -/
def running1 : State := kernelled 3 { ctxs := [(0, ctx1)] }

/-- `running1` with the last word of its cluster's store poisoned. -/
def poisoned1 : State :=
  { running1 with comp := { running1.comp with clusters := [(1, { owner := 3, poison := [storeBytes - 4] })] } }

theorem witness_StoresAndDma :
    (running1.moving = true ∧ running1.ctxReady 16 0 = true ∧ 8 = (if true then 8 else 4) ∧
      atomicForm true .add = true ∧ 0x2FFFF8 % 8 = 0 ∧ 0x100000 ≤ 0x2FFFF8 ∧ 0x2FFFF8 + 8 ≤ 0x300000 ∧
      1 = running1.coreCluster 16 ∧ running1.spaceGood (.store 1) (0x2FFFF8 - 0x100000) 8 = true ∧
      memWfFrom 0 (running1.cluster 1).store = true) ∧
    (0x2FFFF8 < 0x100000 ∨ 0x300000 < 0x300000 + 8) ∧
    (poisoned1.ctxReady 16 0 = true ∧
      poisoned1.spaceGood (.store (poisoned1.coreCluster 16)) (0x2FFFF8 - 0x100000) 8 = false) ∧
    (accFormed (.store 0x40000 8 1) = true ∧ ([.load 1 0x1000000 8] : List KAccess).all accFormed = true ∧
      (running1.at 9).accessFault 16 (.store 0x40000 8 1) = some 2 ∧ running1.ctxPlace 16 0x40000 8 = none) ∧
    ((running1.at 9).accessFault 16 (.store 8 8 1) = none ∧
      running1.ctxPlace 16 (accAddr (.store 8 8 1)) (accSize (.store 8 8 1)) = some (.mem (.sram 16) 8)) ∧
    (running1.ctx 16 0 = some ctx1 ∧ sramBytes - 32 + 32 ≤ sramBytes ∧
      running1.spaceGood (.sram 16) (sramBytes - 32) 32 = true ∧ ctx1.dmaQ.length < 64 ∧ ctx1.dmaQ = []) ∧
    (64 ≤ ({ ctx1 with dmaQ := (List.range 64).map fun k => (0, k) } : Ctx).dmaQ.length ∧
      (kernelled 3 { ctxs := [(0, { ctx1 with dmaQ := (List.range 64).map fun k => (0, k) })] }).ctxReady 16 0 = true) ∧
    (({ ctx1 with dmaQ := [(0, 0), (fenceDma, 0)] } : Ctx).dmaQ = (0, 0) :: (fenceDma, 0) :: [] ∧
      dmaFence fenceDma = true) := by
  repeat' first | refine And.intro ?_ ?_ | decide +kernel

/-- A group of two contributions, one arrived or none. -/
def group2 (arrived : Nat) : Group :=
  { op := 0, len := 1, expected := 2, closeTick := 9, dest := .store 0, arrived := arrived, summed := arrived }

/-- `kernelled` with it open in cluster 1. -/
def grouped (g : Group) : State :=
  { up with comp := { clusters := [(1, { owner := 3, groups := [(63, g)] })] } }

theorem witness_ReduceUnit :
    (running1.moving = true ∧ running1.ctxReady 16 0 = true ∧ running1.coreCluster 16 = 1 ∧
      running1.openGood 1 2 4096 256 = true ∧ 0 % 4 = 0 ∧ 0 + 4 * 4096 + 8 ≤ storeBytes ∧
      (running1.cluster 1).opens = [] ∧ (running1.cluster 1).held.length < 64 ∧
      (running1.cluster 1).reduceUse + 4096 * 4 ≤ 131072) ∧
    64 ≤ ({ groups := (List.range 64).map fun k => (k, group2 0) } : Cluster).held.length ∧
    (running1.groupDest (1, 2 * 128 + 5) = some (.group 2 5) ∧ running1.destGood 1 1 (.group 2 5) = false) ∧
    ((grouped (group2 0)).moving = true ∧ 1 < 256 ∧ tget ((grouped (group2 0)).cluster 1).groups 63 = some (group2 0) ∧
      (grouped (group2 0)).fitsGroup 1 63 (some [1]) = true ∧ (group2 0).arrived + 1 < (group2 0).expected ∧
      (group2 1).expected ≤ (group2 1).arrived + 1) ∧
    tget ((grouped (group2 0)).cluster 1).groups 62 = none ∧
    (63 < 128 ∧ (group2 0).closeTick ≤ max (grouped (group2 0)).tick 9) ∧
    ((({ up with comp := { clusters := [(1, { owner := 3, opens := [(0, group2 0)] })] } } : State).cluster 1).opens[0]? =
      some (0, group2 0)) ∧
    ((group2 1).arrived = (group2 1).summed + (group2 1).voids ∧ (group2 1).arrived ≤ (group2 1).expected) := by
  repeat' first | refine And.intro ?_ ?_ | decide +kernel

theorem witness_VectorUnit :
    (running1.moving = true ∧ running1.ctx 16 0 = some ctx1 ∧ running1.ctxReady 16 0 = true ∧
      (vLane .int32 .add true 0 0 0).isSome = true) ∧
    intLane 32 .add true 0x7FFFFFFF 1 = some 0x7FFFFFFF ∧ intLane 16 .sub true 0x8000 1 = some 0x8000 ∧
    intLane 32 .add false 0xFFFFFFFF 2 = some 1 := by
  repeat' first | refine And.intro ?_ ?_ | decide +kernel

/-- A job of one product of INT8 elements with an INT32 result, for array 0, saturating or not. -/
def job1 (sat : Bool) : BitVec 512 :=
  BitVec.ofNat 512 (64 * 2 ^ 476 + 1024 * 2 ^ 440 + 8 * 2 ^ 368 + 8 * 2 ^ 352 + 4 * 2 ^ 320 + 2 ^ 272 + 2 ^ 264 +
    2 ^ 261 + 4 * 2 ^ 256 + 4 * 2 ^ 252 + 5 * 2 ^ 246 + bit sat * 2 ^ 240)

/-- A core with a job descriptor at 4096, jobs in array 0, and a poisoned word or none. -/
def jobCore (d : BitVec 512) (jobs : List MxJob) (poison : List Nat) : Core :=
  { ctxs := [(0, ctx1)], arrays := [(0, { jobs := jobs })], poison := poison
    sram := (leBytes 64 d.toNat).zipIdx.map fun e => (4096 + e.2, e.1) }

theorem witness_MatrixJobs :
    ((kernelled 3 (jobCore (job1 false) [] [])).moving = true ∧ 1 < 2 ∧
      (kernelled 3 (jobCore (job1 false) [] [])).mayIssue 16 0 0 = true) ∧
    ((kernelled 3 (jobCore 0 (List.replicate 5 { ctx := 0, desc := 0, issued := 0 }) [])).mx 16 0).full = true ∧
    (((kernelled 3 (jobCore (job1 false) [] [])).mx 16 0).full = false ∧ 4100 + 64 ≤ sramBytes ∧ 4100 % 64 ≠ 0 ∧
      4096 % 64 = 0 ∧ (kernelled 3 (jobCore (job1 false) [] [])).spaceGood (.sram 16) 4096 64 = true ∧
      job1 false =
        BitVec.ofNat 512 (leNat ((kernelled 3 (jobCore (job1 false) [] [])).spaceBytes (.sram 16) 4096 64)) ∧
      ((kernelled 3 (jobCore (job1 false) [] [])).mx 16 0).refuses 0 0 (job1 false) = none ∧
      ((kernelled 3 (jobCore 0 [] [])).mx 16 0).refuses 0 0 0 = some 3) ∧
    (((kernelled 3 (jobCore 0 [] [])).mx 16 0).running = none ∧
      ((kernelled 3 (jobCore 0 [{ ctx := 0, desc := job1 false, issued := 0 }] [])).mx 16 0).running =
        some { ctx := 0, desc := job1 false, issued := 0 } ∧
      (∀ e ∈ readRegions (job1 false),
        (kernelled 3 (jobCore 0 [{ ctx := 0, desc := job1 false, issued := 0 }] [])).spaceGood (.sram 16) e.1 e.2 = true) ∧
      ∃ e ∈ readRegions (job1 false),
        (kernelled 3 (jobCore 0 [{ ctx := 0, desc := job1 false, issued := 0 }] [64])).spaceGood (.sram 16) e.1 e.2 =
          false) := by
  repeat' first | refine And.intro ?_ ?_ | decide +kernel

theorem witness_IntegerAccumulation : mxAFmt (job1 false) = 4 ∧ mxSat (job1 false) = false := by
  repeat' first | refine And.intro ?_ ?_ | decide +kernel

/-! ### Witnesses: memory -/

/-- `up` with the page at 0x600000000 due, in region 1 with `left` spare pages. -/
def duePage (left : Nat) : State :=
  { up with mem := { regions := [(1, { due := [0x600000000], poolLeft := left })] } }

theorem witness_PagesRetire :
    (1 = regionOf 0x600000000 ∧ (duePage 1).mem.faults = [] ∧ (duePage 1).eventRing 0 = none) ∧
    (Ready p0 0x0C02 false (duePage 1) ∧ p0.part = 0 ∧ 0x600000000 % 4096 = 0 ∧ pageGood 0x600000000 = true ∧
      0 < ((duePage 1).region (regionOf 0x600000000)).poolLeft ∧ (duePage 1).pageRetired 0x600000000 = false ∧
      ((duePage 0).region (regionOf 0x600000000)).poolLeft = 0) ∧
    ((duePage 1).running = true ∧ 0x600000000 ∈ ((duePage 1).region (regionOf 0x600000000)).due ∧
      pageGood 0x600000000 = true) ∧
    (({ up with mem := { regions := [(0, { due := [0x5E0000000] })] } } : State).running = true ∧
      0x5E0000000 ∈ (({ up with mem := { regions := [(0, { due := [0x5E0000000] })] } } : State).region
        (regionOf 0x5E0000000)).due ∧ pageGood 0x5E0000000 = false) := by
  repeat' first | refine And.intro ?_ ?_ | decide +kernel | rfl | exact ready_of (by decide +kernel)

theorem witness_MemoryUpkeep :
    (up.moving = true ∧ 0x5FFFFFFFC0 % 64 = 0 ∧ 0x5FFFFFFFC0 < 0x6000000000 ∧ up.mem.faultsIn 0x5FFFFFFFC0 64 = [] ∧
      checkFault .uncorrectable = some .broken) ∧
    (up.running = true ∧ 15 < 16 ∧ 3 < 4 ∧ tgetD (up.region 15).refresh 3 1 = 1 ∧ tgetD (up.region 15).refresh 3 1 ≠ 2) ∧
    (0 < sramUnits .tableMem ∧ 4095 < sramUnits .localSram ∧ SramKind.localSram ≠ .tableMem) ∧
    (279 < 280 ∧ (up.link 279).up = true ∧ 2 < 3 ∧ 3 ≤ 3 ∧ 8 ≤ 8 ∧ heldFlit {} ∉ (up.link 279).buffer ∧
      heldFlit { headerBad := true } ∈ (({ up with mem := { links := [(8, { buffer := [{}] })] } } : State).link 8).buffer) := by
  repeat' first | refine And.intro ?_ ?_ | decide +kernel

theorem witness_MemoryWrites : up.mem.wf = true ∧ (4095 < 4096 ∨ 4096 + [(1 : Byte)].length ≤ 4095) := by
  repeat' first | refine And.intro ?_ ?_ | decide +kernel

/-! ### Witnesses: the fabric -/

/-- `up` as member 1 of system 9, with members 1 and 2, a candidate for coordinator, over interface 0; `f`
changes what the fabric engine holds. -/
def fabUp (f : Fabric → Fabric) : State :=
  { up with
    ifcs := [(0, { role := 1, link := true, addrs := [(0, 5)] })]
    fab := f { sysId := 9, keys := [(0, 1)], ifcs := [(0, 0)], addr := 1, eligible := true, seeds := [(0, (5, 38413))]
               members := [(1, { ip := 5, port := 38413 }), (2, { ip := 6, port := 38413 })]
               peers := [(2, { state := .live, watchSince := some 0, lastTx := some 0 })] } }

/-- A frame of member 2. -/
def fabFrame (k seq : Nat) : FabHdr :=
  { ifc := 0, fversion := 1, fftype := k, fkey := 0, fwatch := false, lenOk := true, tagOk := true
    overrun := false, fsys := 9, src := 2, dst := 1, bootCount := 0, fseq := seq, ip := 6 }

/-- A `JOIN` of the device with a serial. -/
def joinOf (serial addr : Nat) : JoinMsg := { serial := serial, addr := addr, isStatic := true, ips := [7], port := 38413 }

theorem witness_FabricFrames :
    ((fabUp id).fabUp = true ∧ (∃ i ∈ (fabUp id).fab.ifcs, i.2 = (fabFrame 1 1).ifc) ∧
      ((fabUp id).ifc (fabFrame 1 1).ifc).link = true) ∧
    (∀ k ∈ [1, 2, 3, 4, 5, 6, 7, 8, 9],
      ((fabUp id).at 9).fabIn k (fabFrame k 1) = .fresh (((fabUp id).at 9).acceptFrom (fabFrame k 1)) ∧
      ((fabUp id).at 9).fabIn k { fabFrame k 1 with tagOk := false } =
        .drop (((fabUp id).at 9).tally Ctr.fabTagFail) ∧
      ((fabUp fun f => { f with peers := [(2, { state := .live, highSeq := 1, seen := [1] })] }).at 9).fabIn k
        (fabFrame k 1) = .again ((fabUp fun f => { f with
          peers := [(2, { state := .live, highSeq := 1, seen := [1] })] }).at 9)) ∧
    ((fabUp id).fab.coordinator = false ∧ (fabUp id).candidate = true ∧
      (fabUp fun f => { f with eligible := false }).candidate = false) ∧
    ((fabUp fun f => { f with coordinator := true }).fab.coordinator = true ∧
      (fabUp fun f => { f with coordinator := true }).grant (joinOf 4 20480) = (.ok, 20480) ∧
      (fabUp fun f => { f with coordinator := true, assigned := [(3, 20480)] }).grant (joinOf 4 20480) =
        (.eConflict, 0)) ∧
    ((fabUp id).fab.joined = false ∧ (fabUp fun f => { f with joined := true }).fab.joined = true) ∧
    ((fabUp id).bay.runMode = 0 ∧ (fabUp id).heeds (fabFrame 4 1) = false ∧
      (fabUp fun f => { f with eligible := false }).heeds (fabFrame 4 1) = true ∧
      (fabUp id).fromSeed (fabFrame 5 1) = false ∧ (fabUp id).fromSeed { fabFrame 5 1 with ip := 5 } = true) ∧
    (0 ≤ (fabUp id).fab.term ∧ (fabUp id).fab.term < 1) := by
  repeat' first | refine And.intro ?_ ?_ | decide +kernel

/-- A put that waits for its acknowledgement from member 2. -/
def put2 (resends : Nat) : PutRun :=
  { ring := 14, idx := 0, home := 2, msg := { key := 1, table := 5, part := 3, vfirst := 0, op := 0, values := [] }
    cookie := 0, report := true, sentTick := 0, resends := resends, channel := 0 }

theorem witness_FabricFrames_putAck :
    tget (fabUp fun f => { f with puts := [(4, put2 0)] }).fab.puts 4 = some (put2 0) ∧
    (put2 0).home = (fabFrame 9 1).src := by
  repeat' first | refine And.intro ?_ ?_ | decide +kernel

theorem witness_FabricAcceptance :
    ((fabUp id).fabIn 1 (fabFrame 1 1) = .fresh ((fabUp id).acceptFrom (fabFrame 1 1)) ∧ (fabFrame 1 1).src ≠ 0) ∧
    (fabFrame 1 1).fseq ≠ 0 ∧ ({ highSeq := 1, seen := [1] } : Peer).seen.contains 1 = true := by
  repeat' first | refine And.intro ?_ ?_ | decide +kernel

theorem witness_SuspectChannels :
    0 < (fabUp id).fab.paths ∧ ((fabUp id).peer 2).isSuspect (fabUp id).tick (3 % (fabUp id).fab.paths) = false ∧
    ((fabUp fun f => { f with peers := [(2, { suspect := [(3, 99)] })] }).peer 2).isSuspect 9 3 = true := by
  repeat' first | refine And.intro ?_ ?_ | decide +kernel

theorem witness_GrantedAddresses :
    (fabUp id).grant (joinOf 4 20480) = (.ok, 20480) ∧
    (fabUp fun f => { f with assigned := [(4, 77)] }).grant (joinOf 4 20480) = (.ok, 77) := by
  repeat' first | refine And.intro ?_ ?_ | decide +kernel

/-- A remote lookup of a fetch, sent at 0, or held. -/
def remote1 (sent resent : Bool) : Fetch :=
  { slot := 0, slotGen := 0, token := 1, cluster := 0, table := 5, g := 7, key := 1, item := none, vmap := [(0, 0)]
    issue := 0, endTick := 1000, cut := 900, remote := true, home := 2, sent := sent, resent := resent }

/-- `fabUp` with it. -/
def fetchingUp (sent resent : Bool) : State :=
  { fabUp id with models := { fetches := [(3, remote1 sent resent)] } }

/-- `fabUp` with member 2 named to be watched. -/
def watchUp : State := fabUp fun f => { f with watch := [2] }

theorem witness_FabricTimers :
    (tget ((fabUp fun f => { f with peers := [(2, { suspect := [(7, 9)] })] }).peer 2).suspect 7 = some 9) ∧
    (watchUp.fabUp = true ∧ (watchUp.peer 2).state = .live ∧ (watchUp.peer 2).watchSince = some 0 ∧
      (watchUp.at 300000).watching 2 = true ∧ max 0 (watchUp.peer 2).lastRx + 300000 ≤ max watchUp.tick 300000 ∧
      watchUp.fabLinks = true ∧ watchUp.bay.resetDue = none ∧ max watchUp.tick 299999 < max 0 (watchUp.peer 2).lastRx + 300000) ∧
    (((fabUp fun f => { f with peers := [(2, { state := .lost })] }).peer 2).state = .lost ∧
      ((fabUp fun f => { f with peers := [(2, { state := .lost })] }).peer 2).lastProbe + 1000000 ≤
        max (fabUp id).tick 1000000) ∧
    (((fabUp fun f => { f with peers := [(2, { state := .live, fwatchRx := some 0, lastTx := some 0 })] }).at
        100000).watchers = [2] ∧
      ∀ k, ((fabUp fun f => { f with peers := [(2, { state := .live, fwatchRx := some 0, lastTx := some 0 })] }).peer
        2).lastTx = some k → k + 100000 ≤ max (fabUp id).tick 100000) ∧
    ((fabUp fun f => { f with members := [] }).candidate = true ∧
      (fabUp fun f => { f with members := [] }).fab.members = []) ∧
    ((fabUp id).fab.joined = false ∧ (fabUp id).fab.joinSince = none) ∧
    ((fetchingUp true false).fetch 3 = some (remote1 true false) ∧ (remote1 true false).waits = true ∧
      (remote1 true false).sentTick + (fetchingUp true false).fab.rto ≤ max (fetchingUp true false).tick 15000 ∧
      (remote1 true true).resent = true) ∧
    (tget (fabUp fun f => { f with puts := [(4, put2 2)] }).fab.puts 4 = some (put2 2) ∧
      (put2 2).home ≠ (fabUp id).fab.addr ∧ (put2 2).sentTick + (fabUp id).fab.rto ≤ max (fabUp id).tick 15000 ∧
      (put2 2).resends < 3 ∧ 3 ≤ (put2 3).resends) ∧
    (((fetchingUp false false).at 9).heldFor 2 = [3] ∧ (fetchingUp false false).fetch 3 = some (remote1 false false) ∧
      1280 ≤ (fabUp id).fab.mtu ∧ (fabUp id).fab.paths ≤ 64 ∧ 0 < (fabUp id).fab.paths) ∧
    (({ kernelled 3 { ctxs := [(0, ctx1)] } with rings := { ctx := [(14, { rtype := 7, owner := 3 })] } } : State).moving =
        true ∧
      (({ kernelled 3 { ctxs := [(0, ctx1)] } with rings := { ctx := [(14, { rtype := 7, owner := 3 })] } } :
        State).ring 14).rtype = 7 ∧ ctx1.part = 3 ∧
      ({ kernelled 3 { ctxs := [(0, ctx1)] } with rings := { ctx := [(14, { rtype := 7, owner := 3 })] } } :
        State).ctxReady 16 0 = true) := by
  repeat' first | refine And.intro ?_ ?_ | rfl | decide

theorem witness_FabricCommands :
    p0.part = 0 ∧ Ready p0 0x0D02 false (fabUp id) ∧ (fabUp fun f => { f with members := [] }).fab.members = [] ∧
    (Ready p0 0x0D03 false (fabUp fun f => { f with coordinator := true, assigned := [(4, 77)] }) ∧
      (fabUp fun f => { f with coordinator := true, assigned := [(4, 77)] }).fabUp = true ∧
      (fabUp fun f => { f with coordinator := true, assigned := [(4, 77)] }).fab.coordinator = true ∧
      ((fabUp fun f => { f with coordinator := true, assigned := [(4, 77)] }).at 9).majority = true ∧
      aget (fabUp fun f => { f with coordinator := true, assigned := [(4, 77)] }).fab.assigned 4 = some 77 ∧
      aget (fabUp fun f => { f with coordinator := true, assigned := [(4, 77)] }).fab.assigned 5 = none) ∧
    (Ready p0 0x0D04 false (fabUp id) ∧ 1 ≤ 1 ∧ 20480 ≤ 20480 ∧ 20480 < 20481 ∧
      2 ∈ (fabUp fun f => { f with watch := [2] }).fab.watch ∧ 2 ∉ (fabUp id).fab.watch ∧
      (fabUp id).fab.watch.length < 4096) ∧
    (4096 ≤ (List.range 4096).length) ∧ Ready p0 0x0D05 true (fabUp id) := by
  repeat' first | refine And.intro ?_ ?_ | decide +kernel | rfl | exact ready_of (by decide +kernel)

/-! ### Witnesses: settings, partitions, quiesce and the global stop -/

theorem witness_SettingsCommands :
    p0.part = 0 ∧ resvRec [setRec 4 4 9216] = none ∧
    (∀ op ∈ [0x0401, 0x0502, 0x0603, 0x0701, 0x070C, 0x0801, 0x0802, 0x0C01, 0x0D01, 0x0202, 0x0205],
      Ready p0 op false up) ∧
    (portChk (setRec 4 4 9216) = none ∧ portChk (setRec 4 4 9217) = some .eRange ∧
      portWhole (inlined.at 9) ([setRec 4 4 9216].foldl portApply (inlined.at 9)) = none) ∧
    (portWhole (inlined.at 9) ([setRec 1 0 1, setRec 1 1 1].foldl portApply (inlined.at 9)) = some .eState ∧ portChk (setRec 1 0 1) = none ∧ portChk (setRec 1 1 1) = none ∧
      portWhole (inlined.at 9) (inlined.at 9) = none ∧
      portWhole (inlined.at 9) ([setRec 1 0 1].foldl portApply (inlined.at 9)) ≠ none ∧
      Ready p0 0x0401 false inlined) ∧
    (clsMiss up (setRec 3 0 4095) = true ∧ clsMiss up (setRec 3 0 4096) = false ∧
      clsMiss up (setRec 1 0 4095) = false ∧ flowMiss up (setRec 3 0 65535) = true ∧
      flowMiss up (setRec 3 0 0) = false) ∧
    (clusterChk (up.at 9) (setRec 1 255 3300) = none ∧ clusterChk (up.at 9) (setRec 1 255 3301) = some .eRange ∧
      clusterChk (up.at 9) (setRec 1 256 3300) = some .eRange ∧ clusterChk (up.at 9) (setRec 2 0 0) = some .eArg) ∧
    (memChk (setRec 1 0 172800) = none ∧ memChk (setRec 1 0 172801) = some .eRange) := by
  repeat' first | refine And.intro ?_ ?_ | exact fun op h => (ready_p0 op (by revert op; decide)).1 | decide +kernel | rfl | exact ready_of (by decide +kernel)

theorem witness_SettingsReads :
    resvRec [{ setRec 4 4 0 with len := 0 }] = none ∧ Ready p0 (setOp .port) false up ∧
    readChk .port { setRec 4 4 0 with len := 0 } = none ∧ readChk .port { setRec 4 5 0 with len := 0 } = some .eRange ∧
    readChk .port (setRec 4 4 0) = some .eArg ∧
    ([{ setRec 4 4 0 with len := 0 }].flatMap fun r => (up.at 9).readRec .port r).length ≤ 1080 := by
  repeat' first | refine And.intro ?_ ?_ | decide +kernel | rfl | exact ready_of (by decide +kernel)

/-- `up` with four changes not yet in the settings store. -/
def crammed : State := { up with bay := { up.bay with unsaved := List.replicate 4 (.keys []) } }

theorem witness_Partitions :
    p0.part = 0 ∧ Ready p0 0x0201 false up ∧ 0 < 63 ∧ 63 < 64 ∧ up.holdsAnything 63 = false ∧
    Ready p0 0x0201 false (ringed { reqRing with owner := 63 } outRing) ∧
    (ringed { reqRing with owner := 63 } outRing).holdsAnything 63 = true ∧ Ready p0 0x0203 false up ∧
    p3.part = 3 ∧ Ready p3 0x0203 false up ∧
    (({ p0 with fullBad := true } : CmdHdr).fullBad = true ∧
      Ready { ({ p0 with fullBad := true } : CmdHdr) with fullBad := false } 0x0201 false crammed ∧
      crammed.bay.runMode = 0 ∧ crammed.bay.cramped (crammed.bay.unsaved.length + 1) = true) := by
  repeat' first | refine And.intro ?_ ?_ | decide +kernel | rfl | exact ready_of (by decide +kernel)

/-- `up` quiesced, or with a quiesce that waits. -/
def quieted (done : Bool) : State :=
  { up with obs := if done then { quiesced := true } else { quiescing := [(p0, 9, false)] } }

/-- `up` with its islands stopped by its own stop. -/
def stopped : State := { up with obs := { islandsStopped := true, ownStop := true } }

/-- A barrier of command 7 of session 1, due at 100. -/
def barrier1 : Barrier := { h := p0, points := [], pairs := [], hold := true, due := 100 }

theorem witness_QuiesceAndStop :
    (timeoutBad p0 = false ∧ timeoutBad { p0 with timeoutUs := 10000000 } = false) ∧
    (Ready p0 0x0E08 false (quieted true) ∧ (quieted true).obs.quiesced = true ∧ Ready p0 0x0E08 false up ∧
      up.obs.quiesced = false) ∧
    (Ready p0 0x0102 false up ∧ Ready p0 0x0102 false (quieted true)) ∧
    (Ready p0 0x0E09 true up ∧ up.obs.islandsStopped = false ∧ Ready p0 0x0E09 true stopped ∧
      stopped.obs.islandsStopped = true) ∧
    (Ready p0 0x0E0A true stopped ∧ Ready p0 0x0E0A true up) ∧
    ((quieted false).running = true ∧ (quieted false).isainUp = true ∧
      (quieted false).obs.quiescing = [(p0, 9, false)] ∧ (quieted false).quiet = true) ∧
    (up.rings.barriers = [] ∧ (∀ d ∈ up.models.domains, d.2.waiting = none) ∧ up.obs.quiescing = []) ∧
    (({ up with rings := { barriers := [(0, 0, barrier1)] } } : State).rings.barriers = [(0, 0, barrier1)] ∧
      barrier1.h.via = .mbox 1 ∧ barrier1.h.seq = 7 ∧ barrier1.due ≤ max up.tick 100) := by
  repeat' first | refine And.intro ?_ ?_ | decide +kernel | rfl | exact ready_of (by decide +kernel)

/-! ### Witnesses: clusters, re-initialisation, spares -/

/-- `clustered` with cluster 255 leaving for partition 0x40. -/
def leaving1 (resetting : Bool) : State :=
  { clustered with
    comp := { clustered.comp with
      clusters := [(255, { owner := 3, leaving := some { target := 0x40, graceEnd := 1000, h := some p0, resetting := resetting } })] } }

theorem witness_ClusterMoves :
    (p0.part = 0 ∧ Ready p0 0x0204 false clustered ∧ ownerValid 0x40 = true ∧ ownerValid 0x7F = true ∧
      ownerValid 63 = true ∧ p0.flag = false ∧ 64 ≤ 0x40 ∧ (up.part 3).enabled = true ∧
      (∀ c ∈ [0, 255], (clustered.cluster c).leaving = none ∧ c < 256) ∧ [0, 255].length ≤ 256) ∧
    (([0].foldl (fun s c => s.leave p0 0x40 (graceOf p0 0) c) (clustered.at 9)).assignDone p0 = true ∧
      ([255].foldl (fun s c => s.leave p0 0x40 (graceOf p0 0) c) (clustered.at 9)).assignDone p0 = false) ∧
    (Ready p0 0x0204 false (leaving1 false) ∧ ((leaving1 false).cluster 255).leaving.isSome = true) ∧
    ((leaving1 false).moving = true ∧ ∀ b ∈ [true, false], ((leaving1 b).cluster 255).leaving =
      some { target := 0x40, graceEnd := 1000, h := some p0, resetting := b }) ∧
    Ready p3 0x0206 false up := by
  repeat' first | refine And.intro ?_ ?_ | decide +kernel | rfl | exact ready_of (by decide +kernel)

theorem witness_Reinitialisation :
    (Ready p3 0x0105 false up ∧ p3.part = 3 ∧ 0 < 3 ∧ 3 < 64 ∧ (up.part 3).enabled = true ∧ (up.part 3).reinit = none) ∧
    (({ up with parts := [(3, { reinit := some (0, [p3]) })] } : State).running = true ∧
      (({ up with parts := [(3, { reinit := some (0, [p3]) })] } : State).part 3).revoking = false ∧
      (({ up with parts := [(3, { reinit := some (0, [p3]) })] } : State).part 3).reinit = some (0, [p3]) ∧
      0 + 10000000 ≤ max up.tick 10000000 ∧ max up.tick 9999999 < 0 + 10000000 ∧
      ({ serving (slot3 .running (.ring 11 0)) frame1 with parts := [(3, { reinit := some (0, [p3]) })] } : State).partIdle
        3 = false) ∧
    (((serving (slot3 .orphan (.ring 11 0)) frame1).slot 0).state = .orphan ∧
      ((serving (slot3 .orphan (.ring 11 0)) frame1).slot 0).orphanClusters = []) ∧
    (up.isainUp = true ∧ (∀ e ∈ up.rings.slots, e.2.hung (max up.tick 9) = false) ∧
      ∀ p, ((up.part p).hangs.filter fun u => decide (max up.tick 9 < u + 1000000000)).length < 16) := by
  refine ⟨?_, ?_, ?_, rfl, by decide, ?_⟩
  rotate_right
  · intro p
    simp only [State.part, up]
    by_cases h0 : p = 0
    · subst h0; decide
    · by_cases h3 : p = 3
      · subst h3; decide
      · simp [tgetD, tget, Ne.symm h0, Ne.symm h3]
  all_goals repeat' first | refine And.intro ?_ ?_ | decide +kernel | rfl | exact ready_of (by decide +kernel)

/-- `serving` a slot of partition 0 that hung. -/
def hung0 : State := serving { slot3 .running (.ring 11 0) with part := 0 } frame1

/-- `up` with 16 hangs of partition 3 within a second. -/
def hangs16 : State := { up with parts := [(3, { enabled := true, hangs := List.replicate 16 0 })] }

theorem found0 :
    ((hung0.at 100000901).foundHung 0).parts =
      [(0, { enabled := true, rights := 3, hangs := [100000901] }), (3, { enabled := true })] ∧
    ((hung0.at 100000901).foundHung 0).tick = 100000901 ∧
    ((hung0.at 100000901).foundHung 0).rings.slots.map (fun e => (e.1, e.2.part)) = [(0, 0)] := by
  refine ⟨?_, ?_, ?_⟩ <;> decide +kernel

theorem no_trigger (p : Nat) : ((hung0.at 100000901).foundHung 0).hangTrigger p = false := by
  obtain ⟨h1, h2, h3⟩ := found0
  generalize (hung0.at 100000901).foundHung 0 = u at h1 h2 h3
  by_cases h0 : p = 0
  · subst h0; rfl
  have hh : u.hungOf p = [] := by
    simp only [State.hungOf, List.map_eq_nil_iff, List.filter_eq_nil_iff]
    intro e he
    have := List.mem_map_of_mem (f := fun e => (e.1, e.2.part)) he
    rw [h3] at this
    simp at this
    simp [this.2, Ne.symm h0]
  by_cases h3 : p = 3
  · subst h3; simp [State.hangTrigger, hh, State.part, h1, tgetD, tget]
  · simp [State.hangTrigger, hh, State.part, h1, tgetD, tget, Ne.symm h0, Ne.symm h3]

theorem no_other (p : Nat) (h : p ≠ 3) : (hangs16.at 9).hangTrigger p = false := by
  by_cases h0 : p = 0
  · subst h0; rfl
  · simp [State.hangTrigger, State.hungOf, State.part, hangs16, State.at, up, State.reset, tgetD, tget, Ne.symm h]

theorem witness_Reinitialisation_scan :
    (hung0.running = true ∧ hung0.rings.slots.map (·.1) = [0] ∧ (hung0.slot 0).hung (max hung0.tick 100000901) = true ∧
      (hung0.slot 0).hangCounted = false ∧ (hung0.slot 0).part = 0) ∧
    (3 < 64 ∧ (∀ e ∈ hangs16.rings.slots, e.2.hung (max hangs16.tick 9) = true → e.2.hangCounted = true) ∧
      (hangs16.at 9).hangTrigger 3 = true) := by
  repeat' first | refine And.intro ?_ ?_ | decide +kernel

theorem witness_RevokedRings :
    ((11, reqRing) ∈ (ringed reqRing outRing).rings.ctx ∧ reqRing.owner ≠ 0 ∧ reqRing.owner = 3 ∧
      hostProduced reqRing.rtype = true ∧
      ∀ x ∈ (ringed reqRing outRing).rings.ctx, ((ringed reqRing outRing).ring x.1).stalled = []) ∧
    (∃ o : Ring, o = { outRing with stalled := [(0, [[0x1100000000000000]])] } ∧
      (12, o) ∈ (ringed reqRing o).rings.ctx ∧ ((ringed reqRing o).rings.ctx.map (·.1)).Nodup ∧
      (∀ x ∈ (ringed reqRing o).rings.ctx, x ≠ (12, o) → x.2.stalled = []) ∧ o.owner = 3 ∧
      hostProduced o.rtype = false ∧ o.rtype ≠ 7 ∧
      ∀ w ∈ ([[0x1100000000000000]] : RingItem).head?, headKind (wordOf w 0) ≠ 0x10 ∧ headKind (wordOf w 0) ≠ 0x12) := by
  refine ⟨by decide +kernel, _, rfl, ?_⟩
  decide +kernel

/-- `up` with spare position 511 idle, its core 8,177. -/
def spared : State :=
  { up with comp := { map := [(7, { state := 1, phys := 16, home := 16 }), (511, { state := 4, phys := 8177, home := 8177 })], cores := [(16, { retiring := true })] } }

/-- `up` with logical core 7 on the spare of position 511, whose instruction memory has no spare row left. -/
def worn : State :=
  { up with
    comp := { map := [(7, { state := 2, link := 511, phys := 8177, home := 16 }), (511, { state := 5, link := 7, phys := 8177, home := 8177 })] }
    mem := { sramSpares := [((1, 8177 * 64), 4)] } }

theorem witness_SparesAndRestarts :
    (spared.running = true ∧ ((spared.positions 4).find? fun e => e.2.phys == 8177) =
      some (511, { state := 4, phys := 8177, home := 8177 })) ∧
    ((spared.core 16).retiring = true ∧ (spared.logicalEntry 16).isSome = true ∧
      ∀ e ∈ spared.positions 4, e.2.phys ≠ 16) ∧
    (worn.logicalEntry 8177 = some (7, { state := 2, link := 511, phys := 8177, home := 16 }) ∧
      worn.rowsSpent 8177 = true) ∧
    3 < 4 ∧ (up.isainUp = true ∧ up.bay.lastRestart = none) ∧
    (({ up with bay := { up.bay with lastRestart := some 0 } } : State).bay.lastRestart = some 0 ∧
      max up.tick 9999999999 < 0 + 10000000000) ∧
    (({ up with bay := { up.bay with isainUp := false } } : State).alive = true ∧
      ({ up with bay := { up.bay with isainUp := false } } : State).bay.isainUp = false) ∧
    (tget spared.comp.map 7 = some { state := 1, phys := 16, home := 16 } ∧
      tget spared.comp.map 511 = some { state := 4, phys := 8177, home := 8177 } ∧ 7 ≠ 511 ∧ 1 ≠ 2) := by
  repeat' first | refine And.intro ?_ ?_ | decide +kernel

/-! ### Witnesses: observability -/

theorem witness_CounterReads :
    Ready p3 0x0E01 true up ∧
    (Ctr.kind idPart.id = some .part ∧ up.scopeGood idPart.id .part idPart.scope = true ∧
      up.counterOpen p3.part .part idPart.scope = true) ∧
    Ctr.kind 0xFFFF = none ∧ up.scopeGood idPart.id .part 64 = false ∧
    (p3.part ≠ 0 ∧ Ctr.kind idDev.id = some .dev ∧ up.scopeGood idDev.id .dev idDev.scope = true ∧
      up.counterOpen p3.part .dev idDev.scope = false) ∧
    ([idPart].map fun c => (c.id, c.scope)).Nodup ∧ (idPart.id, idPart.scope) ≠ (idDev.id, idDev.scope) := by
  repeat' first | refine And.intro ?_ ?_ | decide +kernel | rfl | exact ready_of (by decide +kernel)

theorem witness_CountersSaturate : up.obs.countersFit ∧ (0, 1) ≠ ((0, 0) : Nat × Nat) := by
  simp [Observe.countersFit, up, State.reset]

/-- A record that is kept, copied to the log region or not, or not kept. -/
def rec1 (kept copied : Bool) : RmRec :=
  { seq := 1, kind := 0x0050, level := 4, unit := 0, part := 0xFF, sev := 2, kept := kept, wallOk := false
    wall := 0, tick := 0, data := [], copied := copied }

/-- A full store of records that wait for the log region, but for the second, which does not. -/
def full1 (r : RmRec) : List RmRec := [rec1 true false] ++ r :: List.replicate 16382 (rec1 true false)

theorem witness_RosemaryStores :
    ({} : Observe).rm.length < 16384 ∧
    (16384 ≤ ({ rm := full1 (rec1 false false), frozen := true } : Observe).rm.length) ∧
    ((∀ e ∈ [rec1 true false], e.kept = true ∧ e.copied = false) ∧ ((rec1 false false).kept = false) ∧
      (rec1 true true).copied = true) ∧
    (∀ e ∈ full1 (rec1 true false), e.kept = true ∧ e.copied = false) ∧
    full1 (rec1 true false) = [rec1 true false] ++ rec1 true false :: List.replicate 16382 (rec1 true false) := by
  refine ⟨by decide, by simp [full1, -List.reduceReplicate], by decide, ?_, rfl⟩
  intro e he
  simp only [full1, List.mem_append, List.mem_cons, List.mem_replicate, List.not_mem_nil, or_false] at he
  obtain rfl | rfl | ⟨-, rfl⟩ := he <;> decide

/-- `up` with Rosemary frozen and a number of records lost. -/
def frozenUp (lost : Nat) : State :=
  { up with obs := { frozen := true, lost := lost, rmSeq := 3, rm := [rec1 true false, { rec1 false false with seq := 2 }] } }

theorem witness_RosemaryCommands :
    p0.part = 0 ∧ (∀ op ∈ [0x0E02, 0x1103, 0x0E03, 0x0E04], Ready p0 op true up ∧ Ready p0 op true (frozenUp 0)) ∧
    up.obs.frozen = false ∧ ((frozenUp 1).obs.frozen = true ∧ (frozenUp 1).obs.lost ≠ 0) ∧ up.obs.lost = 0 ∧
    (Ready p0 0x0E03 true (frozenUp 1) ∧ (frozenUp 0).obs.rmSeq ≤ 3 ∧ 2 < (frozenUp 0).obs.rmSeq) ∧
    up.alive = true ∧ recordForm 0x0001 0 = some (4, 0) ∧ recordForm 0x0013 (5 * 2 ^ 56) ≠ none := by
  refine ⟨rfl, ?_, ?_⟩
  · intro op h
    simp only [List.mem_cons, List.not_mem_nil, or_false] at h
    obtain rfl | rfl | rfl | rfl := h <;> exact ⟨ready_of (by decide +kernel), ready_of (by decide +kernel)⟩
  repeat' first | refine And.intro ?_ ?_ | decide | rfl | exact ready_of (by decide +kernel)

/-- A trace record, of the protected window or not. -/
def tr1 (prot : Bool) : TraceRec :=
  { seq := 1, kind := 8, arg := 0, slotGen := 0, status := 0, unit := 0, dur := 0, core := 0, ctx := 0, layer := 0
    op := 0, slot := 0, tick := 0, prot := prot }

/-- `clustered` with `TRACE` ring 13 of partition 3, and cluster 255's unit as given. -/
def tracing (d : Dill) : State :=
  { clustered with
    rings := { ctx := [(13, { rtype := 5, owner := 3 })] }
    comp := { clusters := [(255, { owner := 3, dill := d })] } }

/-- A unit that drains one record. -/
def drain1 (prot : Bool) : Dill := { mode := 2, ring := 13, buf := [tr1 prot] }

theorem witness_TraceCommands :
    (Ready p3 0x0E05 false (tracing {}) ∧ (tracing {}).ringMade 13 = true ∧
      p3.part = ((tracing {}).cluster 255).owner ∧ Ready p0 0x0E05 false (tracing {}) ∧
      trigResv (2 ^ 40) ≠ none ∧ trigResv (2 ^ 48) = none ∧ trigResv 0 = none ∧ trigResv (2 ^ 43) = none ∧
      trigBad (2 ^ 48) = true ∧ trigBad 0 = false ∧ trigBad (2 ^ 43) = false ∧ trigStop (2 ^ 43) = true ∧
      trigStop 0 = false ∧ 255 < 256 ∧ ((tracing {}).ring 13).rtype = 5 ∧
      ((tracing {}).ring 13).owner = (tracing {}).traceOwner 255 ∧ ((tracing {}).cluster 255).dill.buf = []) ∧
    (Ready p3 0x0E06 false { up with parts := [(3, { enabled := true, rights := 1 })] } ∧
      (({ up with parts := [(3, { enabled := true, rights := 1 })] } : State).part p3.part).rights.getLsbD 0 = true) ∧
    (∀ b ∈ [true, false], (tracing (drain1 b)).moving = true ∧ ((tracing (drain1 b)).cluster 255).dill.drains = true ∧
      ((tracing (drain1 b)).cluster 255).dill.buf = [tr1 b] ∧ ((tracing (drain1 b)).cluster 255).dill.dropped = 0 ∧
      (tr1 b).prot = b ∧ ((tracing (drain1 b)).ring ((tracing (drain1 b)).cluster 255).dill.ring).fullPolicy ≠ 2 ∧
      ((tracing (drain1 b)).ring ((tracing (drain1 b)).cluster 255).dill.ring).fits (traceItem (tr1 b)) = false) := by
  repeat' first | refine And.intro ?_ ?_ | decide +kernel | rfl | exact ready_of (by decide +kernel)

theorem witness_DillWindow :
    ({} : Dill).mode = 0 ∧ ({ mode := 1, frozen := true } : Dill).frozen = true ∧
    (trigMask ({ mode := 2 } : Dill).trig).testBit (tr1 true).kind = false ∧
    (({ mode := 1, fired := true, post := 448, trig := 0x0100000000000000, buf := [tr1 true] } : Dill).fired = true ∧
      tr1 true ∈ [tr1 true] ∧ (tr1 true).prot = true) ∧
    (448 ≤ 448 ∧ [tr1 false].length ≤ 1024 ∧ [tr1 false].length ≤ 1022 - 448) := by
  repeat' first | refine And.intro ?_ ?_ | decide +kernel

/-- `up` with a graph built at 0. -/
def graphed : State := { up with obs := { graphTick := some 0 } }

theorem witness_WaitForGraph :
    p0.part = 0 ∧ Ready p0 0x0E07 true up ∧ Ready p0 0x0E07 true graphed ∧ (1 : Nat) ≠ 0 ∧
    (graphed.at 10000000000).graphFresh = true ∧ (graphed.at 10000000001).graphFresh = false := by
  repeat' first | refine And.intro ?_ ?_ | decide +kernel | rfl | exact ready_of (by decide +kernel)

/-! ### Witnesses: update, settings store, identity -/

/-- An image of version 9: `m_svn` 1, seven empty sections at 32,768, each with its digest; the bytes that are
not zero. -/
def image9 : Mem :=
  [(0, 77), (1, 73), (2, 52), (3, 75), (4, 1), (6, 7), (8, 9), (16, 1), (21, 128)] ++
  [(96, 1), (101, 128), (112, 70), (113, 185), (114, 221), (115, 43), (116, 11), (117, 168), (118, 141),
   (119, 19), (120, 35), (121, 59), (122, 63), (123, 235), (124, 116), (125, 62), (126, 235), (127, 36),
   (128, 63), (129, 205), (130, 82), (131, 234), (132, 98), (133, 184), (134, 27), (135, 130), (136, 181),
   (137, 12), (138, 39), (139, 100), (140, 110), (141, 213), (142, 118), (143, 47)] ++
  [(144, 2), (149, 128), (160, 70), (161, 185), (162, 221), (163, 43), (164, 11), (165, 168), (166, 141),
   (167, 19), (168, 35), (169, 59), (170, 63), (171, 235), (172, 116), (173, 62), (174, 235), (175, 36),
   (176, 63), (177, 205), (178, 82), (179, 234), (180, 98), (181, 184), (182, 27), (183, 130), (184, 181),
   (185, 12), (186, 39), (187, 100), (188, 110), (189, 213), (190, 118), (191, 47)] ++
  [(192, 3), (197, 128), (208, 70), (209, 185), (210, 221), (211, 43), (212, 11), (213, 168), (214, 141),
   (215, 19), (216, 35), (217, 59), (218, 63), (219, 235), (220, 116), (221, 62), (222, 235), (223, 36),
   (224, 63), (225, 205), (226, 82), (227, 234), (228, 98), (229, 184), (230, 27), (231, 130), (232, 181),
   (233, 12), (234, 39), (235, 100), (236, 110), (237, 213), (238, 118), (239, 47)] ++
  [(240, 4), (245, 128), (256, 70), (257, 185), (258, 221), (259, 43), (260, 11), (261, 168), (262, 141),
   (263, 19), (264, 35), (265, 59), (266, 63), (267, 235), (268, 116), (269, 62), (270, 235), (271, 36),
   (272, 63), (273, 205), (274, 82), (275, 234), (276, 98), (277, 184), (278, 27), (279, 130), (280, 181),
   (281, 12), (282, 39), (283, 100), (284, 110), (285, 213), (286, 118), (287, 47)] ++
  [(288, 5), (293, 128), (304, 70), (305, 185), (306, 221), (307, 43), (308, 11), (309, 168), (310, 141),
   (311, 19), (312, 35), (313, 59), (314, 63), (315, 235), (316, 116), (317, 62), (318, 235), (319, 36),
   (320, 63), (321, 205), (322, 82), (323, 234), (324, 98), (325, 184), (326, 27), (327, 130), (328, 181),
   (329, 12), (330, 39), (331, 100), (332, 110), (333, 213), (334, 118), (335, 47)] ++
  [(336, 6), (341, 128), (352, 70), (353, 185), (354, 221), (355, 43), (356, 11), (357, 168), (358, 141),
   (359, 19), (360, 35), (361, 59), (362, 63), (363, 235), (364, 116), (365, 62), (366, 235), (367, 36),
   (368, 63), (369, 205), (370, 82), (371, 234), (372, 98), (373, 184), (374, 27), (375, 130), (376, 181),
   (377, 12), (378, 39), (379, 100), (380, 110), (381, 213), (382, 118), (383, 47)] ++
  [(384, 7), (389, 128), (400, 70), (401, 185), (402, 221), (403, 43), (404, 11), (405, 168), (406, 141),
   (407, 19), (408, 35), (409, 59), (410, 63), (411, 235), (412, 116), (413, 62), (414, 235), (415, 36),
   (416, 63), (417, 205), (418, 82), (419, 234), (420, 98), (421, 184), (422, 27), (423, 130), (424, 181),
   (425, 12), (426, 39), (427, 100), (428, 110), (429, 213), (430, 118), (431, 47)]

/-- The digest of an empty section. -/
def emptyDigest : List Byte :=
  [0x46, 0xB9, 0xDD, 0x2B, 0x0B, 0xA8, 0x8D, 0x13, 0x23, 0x3B, 0x3F, 0xEB, 0x74, 0x3E, 0xEB, 0x24, 0x3F,
   0xCD, 0x52, 0xEA, 0x62, 0xB8, 0x1B, 0x82, 0xB5, 0x0C, 0x27, 0x64, 0x6E, 0xD5, 0x76, 0x2F]

/-- `up` with an image staged under the lock of session 1. -/
def bayUp (b : Bay) : State :=
  { up with
    bay := { b with
      runSlot := 0, step14 := true, step15 := true, lock := some { sid := 1, last := 0 }, stagedLen := 32768
      written := [(0, 32768)], staged := image9 }
    fuses := { rootHash := shake256 32 (memBytes image9 24 64) } }

theorem witness_UpdateStaging :
    p0.part = 0 ∧ Ready p0 0x0F01 false up ∧ up.lockedOut p0 = false ∧ 67108864 ≤ 67108864 ∧ up.bay.stg.state ≠ 7 ∧
    (Ready p0 0x0F01 false { up with bay := { up.bay with lock := some { sid := 2, last := 0 } } } ∧
      ({ up with bay := { up.bay with lock := some { sid := 2, last := 0 } } } : State).lockedOut p0 = true) ∧
    (({ up with bay := { up.bay with stg := { state := 7 } } } : State).bay.stg.state = 7 ∧
      ({ up with bay := { up.bay with stg := { state := 7 } } } : State).inRom = false ∧
      Ready p0 0x0F01 false { up with bay := { up.bay with stg := { state := 7 } } }) ∧
    (Ready p0 0x0F02 false up ∧ up.holdsLock p0 = false ∧ Ready p0 0x0F02 false (bayUp {}) ∧
      (bayUp {}).holdsLock p0 = true ∧ 32760 % 8 = 0 ∧ 32760 + 8 ≤ (bayUp {}).bay.stagedLen ∧
      (0 = 0 ∨ 8192 < 0) ∧ (8200 % 8 = 0 ∧ (8200 = 0 ∨ 8192 < 8200)) ∧
      32768 + 8 > (bayUp {}).bay.stagedLen ∧ (bayUp {}).bay.rewrites 32760 (List.replicate 8 0) = false ∧
      (bayUp {}).bay.rewrites 32760 (List.replicate 8 1) = true ∧ memWfFrom 0 (bayUp {}).bay.staged = true) ∧
    (Ready p0 0x0F07 false (bayUp {}) ∧ (bayUp {}).lockedOut p0 = false) ∧ Ready p0 0x0F08 true up ∧
    ((bayUp {}).alive = true ∧ (bayUp {}).bay.lock = some { sid := 1, last := 0 } ∧
      0 + 60000000000 ≤ max (bayUp {}).tick 60000000000 ∧ max (bayUp {}).tick 59999999999 < 0 + 60000000000) := by
  repeat' first | refine And.intro ?_ ?_ | decide +kernel | rfl | exact ready_of (by decide +kernel)

theorem memGet_zero : ∀ (m : Mem) (a : Nat), (∀ c ∈ m, c.1 < a) → memGet m a = 0
  | [], _, _ => rfl
  | c :: r, a, h => by
    have h1 := h c (by simp)
    have h2 := memGet_zero r a fun x hx => h x (by simp [hx])
    simp [memGet, show c.1 ≠ a by omega, h2]

theorem leNat_zeros : ∀ l : List Byte, (∀ b ∈ l, b = 0) → leNat l = 0
  | [], _ => rfl
  | b :: r, h => by simp [leNat, leNat_zeros r fun x hx => h x (by simp [hx]), h b (by simp)]

theorem staged_end : imgNat image9 440 1024 = 0 := by
  have hc : ∀ c ∈ image9, c.1 < 432 := by decide +kernel
  refine leNat_zeros _ ?_
  intro b hb
  simp only [memBytes, List.mem_map, List.mem_range] at hb
  obtain ⟨i, -, rfl⟩ := hb
  exact memGet_zero _ _ fun c h => by have := hc c h; omega

theorem staged_fields :
    imgNat image9 0 4 = 0x4B34494D ∧ imgNat image9 4 2 = 1 ∧ imgNat image9 6 2 = 7 ∧ imgNat image9 16 4 = 1 ∧
    imgNat image9 88 8 = 0 ∧ imgNat image9 434 6 = 0 ∧ imgNat image9 1464 8 = 0 ∧ imgNat image9 432 2 = 0 ∧
    imgNat image9 20 4 = 32768 := by decide +kernel

theorem staged_sections : imgSections image9 =
    (List.range 7).map fun i => (i + 1, 32768, 0, 96 + 48 * i) := by decide +kernel

theorem staged_good : manifestGood image9 = true := by
  have h : ∀ i < 7, imgNat image9 (96 + 48 * i + 2) 2 = 0 ∧ imgNat image9 (96 + 48 * i + 12) 4 = 0 := by decide +kernel
  obtain ⟨h1, h2, h3, h4, h5, h6, h7, h8, h9⟩ := staged_fields
  have hs : ((List.range 7).map fun i => (i + 1, 32768, 0, 96 + 48 * i)).all (sectGood image9) = true := by
    rw [List.all_map, List.all_eq_true]
    intro i hi
    obtain ⟨ha, hb⟩ := h i (List.mem_range.1 hi)
    simp only [Function.comp_apply, sectGood, ha, hb, h9]
    have := List.mem_range.1 hi
    simpa using this
  simp only [manifestGood, imgGroups, h1, h2, h3, h4, h5, h6, h7, h8, staged_sections, staged_end, hs, Nat.mul_zero,
    Nat.add_zero, Nat.sub_zero, show 4 * 256 = 1024 from rfl]
  decide +kernel

/-- SHAKE256 of no bytes (FIPS 202): 46B9DD2B…. -/
theorem test_shake_empty : shake256 32 [] = emptyDigest := by decide +kernel

theorem staged_digests : ∀ i < 7, memBytes image9 (96 + 48 * i + 16) 32 = emptyDigest := by decide +kernel

theorem staged_matches : sectionsMatch image9 = true := by
  rw [sectionsMatch, staged_sections, List.all_map, List.all_eq_true]
  intro i hi
  simp only [Function.comp_apply, sectionMatches, show memBytes image9 32768 0 = [] from rfl, test_shake_empty,
    staged_digests i (List.mem_range.1 hi), beq_self_eq_true]

theorem staged_is : (bayUp {}).bay.staged = image9 := by decide +kernel

theorem staged_len : imgNat image9 20 4 = 32768 ∧ imgNat image9 8 8 = 9 ∧ imageSvn image9 = 1 ∧
    (imgSections ([] : Mem)).length = 7 := by decide +kernel

theorem witness_UpdateFinishChecks :
    (p0.part = 0 ∧ Ready p0 0x0F03 false (bayUp {}) ∧ (bayUp {}).holdsLock p0 = true ∧ up.holdsLock p0 = false ∧
      Ready p0 0x0F03 false up) ∧
    (rangesSize (bayUp {}).bay.written = 32768 ∧ (bayUp {}).bay.stagedLen = 32768 ∧
      rangesSize ({ written := [(0, 8)] } : Bay).written ≠ 32768) ∧
    (1 < ({ svn := 2 } : Fuses).svn ∧ (bayUp {}).fuses.svn ≤ 1) ∧
    (bayUp {}).bay.conflicts 9 [] = [] := by
  repeat' first | refine And.intro ?_ ?_ | decide +kernel | rfl | exact ready_of (by decide +kernel)

theorem staged_signed : (bayUp {}).fuses.rootHash = shake256 32 (memBytes image9 24 64) := by simp only [bayUp]

theorem witness_ConflictRefusesBoth :
    1 < 2 ∧ ({ dir := { stateB := 2 } } : Bay).slotState 1 = 2 ∧ up.bay.slotState 0 ≠ 2 := by decide

/-- `bayUp` finished, or with slot B on trial and running. -/
def trialB : State := { bayUp { dir := { stateB := 2, verB := 9, trial := 2 }, slotB := image9 } with
  bay := { (bayUp { dir := { stateB := 2, verB := 9, trial := 2 }, slotB := image9 }).bay with runSlot := 1 } }

theorem witness_ActivateConfirmRollback :
    (Ready p0 0x0F04 false (bayUp { finished := true }) ∧ (bayUp { finished := true }).holdsLock p0 = true ∧
      (bayUp { finished := true }).bay.finished = true ∧ (bayUp { finished := true }).bay.dir.trial = 0 ∧
      up.holdsLock p0 = false) ∧
    (Ready p0 0x0F05 false up ∧ up.bay.dir.trial ≠ up.bay.runSlot + 1 ∧ Ready p0 0x0F05 false trialB ∧
      trialB.bay.dir.trial = trialB.bay.runSlot + 1 ∧ trialB.bay.runSlot < 2) ∧
    (Ready p0 0x0F06 false up ∧ up.bay.dir.trial = 0 ∧ Ready p0 0x0F06 false trialB ∧ 1 < 2 ∧
      trialB.bay.dir.trial = 1 + 1) := by
  repeat' first | refine And.intro ?_ ?_ | decide +kernel | rfl | exact ready_of (by decide +kernel)

/-- A value of the boot count, not yet in flash. -/
def unsavedUp (syncs : List (CmdHdr × Nat)) : State :=
  { up with bay := { up.bay with unsaved := [.bootCount 5], syncs := syncs } }

theorem witness_SettingsStore :
    Ready p3 0x1101 true up ∧ p0.part = 0 ∧ Ready p0 0x1102 false up ∧ up.bay.unsaved = [] ∧
    Ready p0 0x1102 false (unsavedUp []) ∧ (unsavedUp []).bay.unsaved ≠ [] ∧
    ((unsavedUp []).isainUp = true ∧ (unsavedUp []).bay.unsaved = .bootCount 5 :: [] ∧
      storeUsed (unsavedUp []).bay.store < 12582912 ∧ (unsavedUp []).fab.coordinator = false ∧
      (unsavedUp []).fab.acksDue = []) ∧
    (∀ q ∈ (unsavedUp [(p0, 2)]).bay.syncs, 2 ≤ q.2) ∧ (unsavedUp [(p0, 1)]).bay.syncs = [(p0, 1)] := by
  repeat' first | refine And.intro ?_ ?_ | decide +kernel | rfl | exact ready_of (by decide +kernel)

/-- Two records of the boot count. -/
def two : List StRec :=
  [{ seq := 1, fmt := 0, len := 4, value := .bootCount 1 }, { seq := 2, fmt := 0, len := 4, value := .bootCount 2 }]

theorem witness_CompactionKeepsUsed :
    (({ store := two } : Bay).store.map (·.seq)).Nodup ∧
    ((({ store := two } : Bay).dir.stateA == 2 || ({ store := two } : Bay).dir.stateB == 2) = false) ∧
    ({ store := two } : Bay).trialFrom = none ∧
    ((StVal.bootCount 2).group, (StVal.bootCount 2).scope) ∈ storeKeys two ∧
    usedRecord two 0 (StVal.bootCount 2).group (StVal.bootCount 2).scope =
      some { seq := 2, fmt := 0, len := 4, value := .bootCount 2 } ∧
    imageFmt [] (StVal.bootCount 2).group = 0 := by
  repeat' first | refine And.intro ?_ ?_ | decide +kernel

/-- `up` with 13 pages of partition 3 open to its session, and with a debug token of this start at 8,192: its
signer's hash is the root hash. -/
def debugUp : State :=
  { up with
    parts := [(0, { enabled := true, rights := 3, memRanges := [(0, (0, 256, 3))] }), (3, { enabled := true })]
    ouv := { up.ouv with windows := [(winKey 3 15, { rights := 2, base := 4096, pages := 13 })] }
    mem := { bytes := [(8192, 3), (8200, 1)] }
    fuses := { rootHash := shake256 32 (List.replicate 64 0) } }

theorem witness_IdentityKeysDebug :
    (Ready p3 0x1002 true up ∧ Ready p3 0x1001 false debugUp ∧ inDevice 4096 50080 = true ∧
      inDevice 7265 50080 = true ∧ inDevice (2 ^ 47) 50080 = false ∧ debugUp.inWindow p3.part 1 4096 50080 = true ∧
      debugUp.inWindow p3.part 1 (4096 + 3169) 50080 = false) ∧
    (p0.part = 0 ∧ Ready p0 0x1003 false up ∧ up.ouv.kemSeen = [] ∧
      1024 ≤ (List.replicate 1024 0).length ∧ up.ouv.kemSeen.length < 1024 ∧ 63 < 64) ∧
    (Ready p0 0x1004 false up ∧ 0 < 63 ∧ (3 : W16).toNat < 4 ∧ 4 ≤ (4 : W16).toNat) ∧
    (Ready p0 0x1005 false debugUp ∧ inDevice (2 ^ 47) 29920 = false ∧ inDevice 8192 29920 = true ∧
      inDevice 1048576 29920 = true ∧ debugUp.mayAccess 0 1 8192 29920 = true ∧
      debugUp.mayAccess 0 1 1048576 29920 = false ∧ debugUp.mem.readable 8192 29920 = true) := by
  repeat' first | refine And.intro ?_ ?_ | decide +kernel | rfl | exact ready_of (by decide +kernel)

/-- Whatever the shared secret is, some wrapped key unwraps to a key, and some to zero. -/
theorem witness_unwrapped (ct : List Byte) :
    (∃ w, up.unwrapKey 1 63 ct w ≠ 0) ∧ ∃ w, up.unwrapKey 1 63 ct w = 0 := by
  simp only [State.unwrapKey]
  generalize BitVec.ofNat 256 _ = x
  exact ⟨⟨x ^^^ 1, by rw [BitVec.xor_assoc, BitVec.xor_comm, BitVec.xor_assoc, BitVec.xor_self]; decide⟩,
    x, BitVec.xor_self⟩

theorem witness_token : debugUp.tokenGood (debugUp.bytesAt 8192 128) = true := by
  have h : let bs := debugUp.bytesAt 8192 128
      (leNat (bs.take 2) == 3 && leNat ((bs.drop 2).take 6) == 0 && leNat ((bs.drop 8).take 16) == debugUp.fuses.serial &&
        (bs.drop 24).take 32 == beBytes 32 debugUp.ouv.bootNonce.toNat && decide (leNat ((bs.drop 56).take 2) < 8) &&
        leNat ((bs.drop 58).take 6) == 0) = true ∧ (bs.drop 64).take 64 = List.replicate 64 0 := by decide +kernel
  have hr : debugUp.fuses.rootHash = shake256 32 (List.replicate 64 0) := by simp only [debugUp]
  generalize debugUp.bytesAt 8192 128 = bs at h
  simp only [State.tokenGood, List.drop_zero, h.1, h.2, hr, beq_self_eq_true, Bool.and_true]

theorem witness_token_bad : up.tokenGood (List.replicate 128 0) = false := by decide +kernel

/-! ### Witnesses: ring indices, warm packets -/

/-- An index past the wrap is above one before it; a ring of two entries with two in it is full. -/
theorem witness_RingIndices :
    idxAbove 0 0xFFFFFFFF = true ∧ idxAbove 0xFFFFFFFF 0 = false ∧
    ({ log2Entries := 1, prodIdx := 1, consIdx := 0xFFFFFFFF } : Ring).log2Entries < 32 ∧
    ((1 : W32) - 0xFFFFFFFF).toNat ≤ 2 ^ 1 ∧
    ({ log2Entries := 1, prodIdx := 1, consIdx := 0xFFFFFFFF } : Ring).room = 0 := by
  repeat' first | refine And.intro ?_ ?_ | decide +kernel

theorem witness_FlowWarmPackets :
    (setRec 2 1 255).id = 2 ∧ 1 ≤ (setRec 2 1 255).len ∧ (setRec 2 1 255).len ≤ 256 ∧ (setRec 2 1 255).scope < 2 ∧
    flowChk up (setRec 2 1 255) = none ∧ flowChk up (setRec 2 1 256) ≠ none ∧ (0 : Nat) < 2 ^ 1024 ∧
    frame1.rxTick < 2 ^ 64 ∧ frame1.len < 2 ^ 16 := by
  refine ⟨rfl, by decide, by decide, by decide, by decide +kernel, by decide +kernel, ?_, by decide, by decide⟩
  exact Nat.pos_of_ne_zero (by simp)

/-! ### Well-formedness: an ill-formed term for each check, which the check refuses -/

def wFab : FabHdr :=
  { ifc := 0, fversion := 0, fftype := 0, fkey := 0, fwatch := false, lenOk := true, tagOk := true, overrun := false
    fsys := 0, src := 0, dst := 0, bootCount := 0, fseq := 0, ip := 0 }

def wTab : TableSpec :=
  { ftMode := none, valFmt := none, nVal := none, entLines := none, hashSeed := none, shardSeed := none
    fallback := none, localBudget := none, remoteBudget := none, remoteGrace := none, remoteInflightMax := none }

def wRing : RingSpec :=
  { ring := 0, rtype := 0, owner := 0, esize := 0, pinned := false, fullPolicy := 0, log2Entries := 0, cqRing := 0
    inflightMax := 0, enabled := false, baseAddr := 0, fullTimeout := 0 }

def wMask : RingMask :=
  { ring := 0, enabled := none, pinned := none, fullPolicy := none, inflightMax := none, fullTimeout := none }

def wSa : SaSpec :=
  { ifc := 0, transmit := false, sc := 0, an := 0, xpn := false, ssci := 0, sci := 0, nextPn := 0, salt := 0, sak := 0 }

def wSpread : SpreadSpec :=
  { ctx := 0, sel := 0, sym := false, wkey := false, start := 0, key := List.replicate 40 0, entries := [] }

def wLook : LookupMsg :=
  { key := 0, table := 0, gen := 0, part := 0, slot := 0, slotGen := 0, token := 0, vfirst := 0, nvals := 0, tag := 0 }

def wReply : ReplyMsg := { req := wLook, status := 0, present := 0, values := [] }

def wPut : PutMsg := { key := 0, table := 0, part := 0, vfirst := 0, op := 0, values := [] }

def wJoin : JoinMsg := { serial := 0, addr := 0, isStatic := false, ips := [0], port := 0 }

def wView : ViewChange := { view := 0, addr := 0, ip := 0, port := 0, removed := false, lost := false, bootCount := 0 }

def wBfd : BfdPkt :=
  { ifc := 0, sess := 0, authBit := false, state := 0, yourDisc := 0, myDisc := 0, mult := 0, txUs := 0, rxUs := 0 }

def wPtp : PtpMsg := { ifc := 0, transport := 0, domain := 0, kind := 0, seq := 0, twoStep := false, stamp := 0, correction := 0 }

def wHello : HelloPart := { part := 0, bootNonce := 0, hostNonce := 0, ct := List.replicate 784 0 }

/-- The operands above are well formed. -/
theorem wf_holds :
    p0.wf && (setRec 1 0 0).wf && wRing.wf && wMask.wf && wSa.wf && plain.wf && key0.wf && wSpread.wf && wTab.wf &&
      (launch1 1).wf && idDev.wf && (fr 0 0).wf && wFab.wf && wLook.wf && wReply.wf && wPut.wf && wJoin.wf && wView.wf &&
      wBfd.wf && wPtp.wf = true := by decide

/-- Each field of each operand, one past its width. -/
theorem ill_operands :
    (∀ x ∈ ([{ p0 with via := .mbox (2 ^ 32) }, { p0 with via := .ring 4096 }, { p0 with part := 64 }, { p0 with token
      := 65536 }, { p0 with timeoutUs := 2 ^ 32 }, { p0 with seq := 2 ^ 64 }] : List CmdHdr), x.wf = false) ∧
    (∀ x ∈ ([{ setRec 1 0 0 with id := 65536 }, { setRec 1 0 0 with scope := 65536 }, { setRec 1 0 0 with len := 65536
      }, { setRec 1 0 0 with value := 2 ^ 32 }] : List SetRec), x.wf = false) ∧
    (∀ x ∈ ([{ wRing with ring := 4096 }, { wRing with rtype := 16 }, { wRing with owner := 64 }, { wRing with esize :=
      2 }, { wRing with fullPolicy := 4 }, { wRing with log2Entries := 32 }, { wRing with cqRing := 4096 }, {
      wRing with inflightMax := 65536 }, { wRing with baseAddr := 2 ^ 48 }, { wRing with fullTimeout := 65536 }] : List RingSpec), x.wf = false) ∧
    (∀ x ∈ ([{ wMask with ring := 4096 }, { wMask with fullPolicy := some 4 }, { wMask with inflightMax := some 65536
      }, { wMask with fullTimeout := some 65536 }] : List RingMask), x.wf = false) ∧
    (∀ x ∈ ([{ wSa with ifc := 8 }, { wSa with sc := 16 }, { wSa with an := 4 }, { wSa with nextPn := 2 ^ 64 }] : List SaSpec), x.wf = false) ∧
    (∀ x ∈ ([{ plain with flowMode := 4 }, { plain with fwdAction := 8 }, { plain with pmModel := 65536 }, { plain with
      deepModel := 65536 }, { plain with deepPart := 64 }, { plain with scanSet := 256 }, { plain with policer
      := 4096 }, { plain with egressArg := 65536 }] : List RuleAction), x.wf = false) ∧
    (∀ x ∈ ([{ key0 with vidOuter := 4096 }, { key0 with inIf := 4 }] : List FlowKey), x.wf = false) ∧
    (∀ x ∈ ([{ wSpread with ctx := 128 }, { wSpread with start := 512 }, { wSpread with key := [] }, { wSpread with
      entries := [{ tkind := 16, target := 0 }] }, { wSpread with entries := [{ tkind := 0, target := 4096 }] }] : List SpreadSpec), x.wf = false) ∧
    (∀ x ∈ ([{ wTab with fallback := some 65536 }] : List TableSpec), x.wf = false) ∧
    (∀ x ∈ ([{ launch1 1 with kernel := 65536 }, { launch1 1 with layerId := 65536 }, { launch1 1 with opId := 65536 },
      { launch1 1 with slot := 65536 }, { launch1 1 with slotGen := 65536 }, { launch1 1 with argLen := 65536 },
      { launch1 1 with firstCore := 4096 }, { launch1 1 with nCores := 4096 }, { launch1 1 with argAddr := 2 ^
      48 }, { launch1 1 with deadline := 2 ^ 64 }] : List LaunchDesc), x.wf = false) ∧
    (∀ x ∈ ([{ idDev with id := 65536 }, { idDev with scope := 2 ^ 32 }] : List CounterId), x.wf = false) ∧
    (∀ x ∈ ([{ fr 0 0 with ifc := 8 }, { fr 0 0 with version := 16 }, { fr 0 0 with ftype := 16 }, { fr 0 0 with sid :=
      2 ^ 32 }, { fr 0 0 with seq := 2 ^ 64 }, { fr 0 0 with target := 65536 }] : List OuvHdr), x.wf = false) ∧
    (∀ x ∈ ([{ wFab with ifc := 8 }, { wFab with fversion := 16 }, { wFab with fftype := 16 }, { wFab with fkey := 2 },
      { wFab with fsys := 2 ^ 32 }, { wFab with src := 65536 }, { wFab with dst := 65536 }, { wFab with
      bootCount := 2 ^ 32 }, { wFab with fseq := 2 ^ 64 }, { wFab with ip := 2 ^ 128 }] : List FabHdr), x.wf = false) ∧
    (∀ x ∈ ([{ wLook with table := 65536 }, { wLook with gen := 256 }, { wLook with part := 64 }, { wLook with slot :=
      65536 }, { wLook with slotGen := 65536 }, { wLook with token := 65536 }, { wLook with vfirst := 256 }, {
      wLook with nvals := 256 }, { wLook with tag := 2 ^ 32 }] : List LookupMsg), x.wf = false) ∧
    (∀ x ∈ ([{ wReply with req := { wLook with gen := 256 } }, { wReply with status := 256 }, { wReply with present :=
      2 ^ 128 }, { wReply with values := [2 ^ 32] }] : List ReplyMsg), x.wf = false) ∧
    (∀ x ∈ ([{ wPut with table := 65536 }, { wPut with part := 64 }, { wPut with vfirst := 256 }, { wPut with op := 4
      }, { wPut with values := List.replicate 25 0 }] : List PutMsg), x.wf = false) ∧
    (∀ x ∈ ([{ wJoin with serial := 2 ^ 128 }, { wJoin with addr := 65536 }, { wJoin with ips := [0, 2 ^ 128] }, { wJoin with
      port := 65536 }] : List JoinMsg), x.wf = false) ∧
    (∀ x ∈ ([{ wView with view := 2 ^ 64 }, { wView with addr := 65536 }, { wView with ip := 2 ^ 128 }, { wView with
      port := 65536 }, { wView with bootCount := 2 ^ 32 }, { wView with serial := 2 ^ 128 }] : List ViewChange), x.wf = false) ∧
    (∀ x ∈ ([{ wBfd with ifc := 8 }, { wBfd with sess := 8 }, { wBfd with state := 4 }, { wBfd with yourDisc := 2 ^ 32
      }, { wBfd with myDisc := 2 ^ 32 }, { wBfd with mult := 256 }, { wBfd with txUs := 2 ^ 32 }, { wBfd with
      rxUs := 2 ^ 32 }] : List BfdPkt), x.wf = false) ∧
    (∀ x ∈ ([{ wPtp with ifc := 8 }, { wPtp with transport := 4 }, { wPtp with domain := 256 }, { wPtp with kind := 16 }, {
      wPtp with seq := 65536 }] : List PtpMsg), x.wf = false) ∧
    (∀ x ∈ ([.extract 16 0 1, .extract 0 (2 ^ 14) 1, .extract 0 0 0, .extract 0 0 5, .alu .add 16 0 (.reg 0), .alu .add 0 16
      (.reg 0), .alu .add 0 0 (.reg 16), .branch 16 0, .branch 0 2048, .lookup 16 0 0, .lookup 0 16 0, .lookup 0
      0 32, .layer 128 (.const 0), .layer 0 (.reg 16), .declareExt (.reg 16), .store 0 1 16, .store 0 33 0,
      .store 2048 1 0] : List ChiveOp), x.wf = false) := by decide

theorem ill_formed_0 : ∀ i ∈ ([
      .partitionReinit 0 p0 64, .partitionEnable 0 p0 64, .partitionDisable 0 p0 64, .partitionQuery 0 p0 64,
      .clusterAssign 0 p0 256 0 [], .clusterAssign 0 p0 0 (2 ^ 32) [], .coreMapRead 0 p0 (2 ^ 32) 0,
      .coreMapRead 0 p0 0 65536, .ringAttach 0 p0 4096 0, .ringAttach 0 p0 0 (2 ^ 32), .ringDetach 0 p0 4096,
      .ringDestroy 0 p0 4096, .ringQuery 0 p0 4096, .ringRepush 0 p0 4096 0 0, .ringRepush 0 p0 0 0 (2 ^ 32),
      .slotQuery 0 p0 65536, .portDrain 0 p0 2, .portResume 0 p0 2, .portStatus 0 p0 2, .portTxFrame 0 p0 8 [],
      .macsecSaRemove 0 p0 8 false 0 0, .macsecSaRemove 0 p0 0 false 16 0, .macsecSaRemove 0 p0 0 false 0 4,
      .windowOpen 0 p0 64 0 0 0 0, .windowOpen 0 p0 0 16 0 0 0, .windowOpen 0 p0 0 0 4 0 0, .windowOpen 0 p0 0 0
      0 (2 ^ 48) 0, .windowOpen 0 p0 0 0 0 0 (2 ^ 25), .windowClose 0 p0 64 0, .windowClose 0 p0 0 16,
      .bfdSessionSet 0 p0 8 0 0 0 0 0, .bfdSessionSet 0 p0 0 8 0 0 0 0, .bfdSessionSet 0 p0 0 0 (2 ^ 20) 0 0 0,
      .bfdSessionSet 0 p0 0 0 0 (2 ^ 20) 0 0, .bfdSessionSet 0 p0 0 0 0 0 64 0, .bfdSessionRemove 0 p0 8 0,
      .bfdSessionRemove 0 p0 0 8, .parseLoad 0 p0 8 0 0 {}, .parseLoad 0 p0 0 (2 ^ 48) 0 {}, .parseLoad 0 p0 0 0
      (2 ^ 32) {}, .parseLoad 0 p0 0 0 0 { code := [.branch 16 0] }, .patternLoad 0 p0 256 0 0 false [], .patternLoad 0 p0 0 (2 ^ 48) 0 false [], .patternLoad 0 p0 0 0 (2
      ^ 32) false [], .ruleWrite 0 p0 2 [] [], .ruleRead 0 p0 2 0 0, .ruleRead 0 p0 0 (2 ^ 32) 0, .ruleRead 0 p0
      0 0 65536, .prefixAdd 0 p0 false 256 0 0, .prefixAdd 0 p0 false 0 (2 ^ 20) 0, .prefixDel 0 p0 false 256 0,
      .prefixRead 0 p0 false 16 0 0 0, .prefixRead 0 p0 false 0 (2 ^ 24) 0 0, .prefixRead 0 p0 false 0 0 (2 ^
      32) 0, .prefixRead 0 p0 false 0 0 0 65536, .macStaticAdd 0 p0 4 0 0, .macStaticAdd 0 p0 0 4096 0,
      .macStaticRemove 0 p0 4096 0, .macRead 0 p0 (2 ^ 32) 0, .macRead 0 p0 0 65536, .macFlush 0 p0 8 0] : List Instr), i.wf = false := by decide +kernel

theorem ill_formed_1 : ∀ i ∈ ([
      .macFlush 0 p0 0 8192, .flowDelete 0 p0 2 key0 false, .flowRead 0 p0 2 key0, .gateListSet 0 p0 4 0 0 [],
      .gateListSet 0 p0 0 (2 ^ 64) 0 [], .gateListSet 0 p0 0 0 (2 ^ 32) [], .gateListRemove 0 p0 4, .queueStats
      0 p0 4, .queueStatsClear 0 p0 4, .baselineCreate 0 p0 4096 base3, .baselineChange 0 p0 4096 base3,
      .baselineDelete 0 p0 4096, .baselineRead 0 p0 4096, .ftableCreate 0 p0 65536 wTab, .ftableDestroy 0 p0
      65536, .ftableQuery 0 p0 65536, .generationStage 0 p0 65536 0 0 0 0, .generationStage 0 p0 0 256 0 0 0,
      .generationStage 0 p0 0 0 32 0 0, .generationStage 0 p0 0 0 0 (2 ^ 48) 0, .generationStage 0 p0 0 0 0 0 (2
      ^ 64), .generationSeal 0 p0 65536 0, .generationSeal 0 p0 0 256, .generationDrop 0 p0 65536 0,
      .generationDrop 0 p0 0 256, .modelStage 0 p0 128 0 0 0 [], .modelStage 0 p0 0 65536 0 0 [], .modelStage 0
      p0 0 0 (2 ^ 48) 0 [], .modelStage 0 p0 0 0 0 (2 ^ 32) [], .modelRemove 0 p0 128 0, .modelRemove 0 p0 0
      65536, .modelAbort 0 p0 128, .modelCommit 0 p0 128, .modelCommitWait 0 p0 128, .modelQuery 0 p0 128 0 0,
      .modelQuery 0 p0 0 (2 ^ 32) 0, .modelQuery 0 p0 0 0 65536, .kernelLoad 0 p0 65536 0 0, .kernelLoad 0 p0 0
      (2 ^ 48) 0, .kernelLoad 0 p0 0 0 (2 ^ 32), .kernelUnload 0 p0 65536, .memRetire 0 p0 (2 ^ 48),
      .fabricRelease 0 p0 (2 ^ 128), .fabricWatchAdd 0 p0 65536, .fabricWatchRemove 0 p0 65536, .fabricStatus 0
      p0 (2 ^ 32) 0, .fabricStatus 0 p0 0 65536, .rosemaryRead 0 p0 (2 ^ 32) 0, .rosemaryRead 0 p0 0 65536,
      .rosemaryClear 0 p0 (2 ^ 64), .traceConfig 0 p0 256 0 0 0 0, .traceConfig 0 p0 0 4096 0 0 0, .traceConfig
      0 p0 0 0 4 0 0, .traceConfig 0 p0 0 0 0 65536 0, .traceMarkBegin 0 p0 256 0, .traceMarkBegin 0 p0 0 65536,
      .traceMarkEnd 0 p0 256 0, .traceMarkEnd 0 p0 0 65536, .waitforRead 0 p0 (2 ^ 32) 0, .waitforRead 0 p0 0
      65536] : List Instr), i.wf = false := by decide +kernel

theorem ill_formed_2 : ∀ i ∈ ([
      .updateOpen 0 p0 (2 ^ 32), .updateData 0 p0 (2 ^ 32) [], .attest 0 p0 [] (2 ^ 48) [], .certRead 0 p0 (2 ^
      32) 0, .certRead 0 p0 0 65536, .sessionKeySet 0 p0 64 (List.replicate 1568 0) 0, .rightsSet 0 p0 64 0, .debugUnlock 0 p0 (2
      ^ 48) 0 false, .debugUnlock 0 p0 0 (2 ^ 32) false, .logRead 0 p0 (2 ^ 32) 0, .logRead 0 p0 0 65536,
      .commandTimeout 0 (.ring 0) (2 ^ 64), .helloPartExpiry 0 8 0, .helloPartExpiry 0 0 (2 ^ 64), .mboxReq 0
      (fr 0 0) p0 65536, .winWrite 0 (fr 0 0) (2 ^ 64) [], .winRead 0 (fr 0 0) (2 ^ 64) 0, .winRead 0 (fr 0 0) 0
      (2 ^ 32), .flowTableLockSet 0 (fr 0 0) 2, .flowTableLockClear 0 (fr 0 0) 2, .hostClose 0 (fr 0 0) 65536,
      .sessionIdleTimeout 0 (2 ^ 32), .ackSend 0 (2 ^ 32), .creditAck 0 (2 ^ 32) 0, .creditAck 0 0 4096,
      .ringPush 0 4096, .contextFetch 0 4096 .clean, .requestAdmit 0 4096, .slotWaitExpiry 0 4096, .fenceEntry 0
      4096, .fenceComplete 0 4096, .nopEntry 0 4096, .commandEntry 0 4096, .ringFullStallExpiry 0 4096,
      .frameReceive 0 8 [] false .none, .pfcReceive 0 4 [], .arpNdEcho 0 8 [], .chiveParse 0 0 16 none,
      .chiveGroupRewrite 0 16, .reverseLookupDone 0 65536, .packetModelWalk 0 0 4096 .clean, .transmitSelect 0 8,
      .gateEntryAdvance 0 4, .gateListStart 0 4, .laneFail 0 2 0, .laneFail 0 0 8, .fallbackTimeout 0 2, .linkUp
      0 8, .linkDown 0 8, .drainComplete 0 2, .drainTimeout 0 2, .bfdTxTimer 0 8 0, .bfdTxTimer 0 0 8,
      .bfdDetectTimeout 0 8 0, .bfdDetectTimeout 0 0 8, .slotRunning 0 65536, .lookupJoinHold 0 65536,
      .walkComplete 0 4096 0 .clean, .shardRecopyDone 0 4096 0 0 .clean, .shardRecopyDone 0 0 128 0 .clean] : List Instr), i.wf = false := by decide +kernel

theorem ill_formed_3 : ∀ i ∈ ([
      .shardRecopyDone 0 0 0 65536 .clean, .deadlineCutoff 0 65536, .reduceGroupOpen 0 4096 0 0 0 0 0 (0, 0),
      .reduceGroupOpen 0 0 4 0 0 0 0 (0, 0),
      .reduceContribution 0 256 0 none, .reduceCloseTick 0 256 0, .kernelStart 0 4096, .kernelImageLoadDone 0
      4096 0 .clean, .kernelImageLoadDone 0 0 65536 .clean, .kernelEnd 0 4096 0 0, .kernelEnd 0 0 4 0,
      .kernelEnd 0 0 0 256, .kernelMaxRunExpiry 0 4096 0, .kernelMaxRunExpiry 0 0 4, .vectorInstruction 0 4096 0
      .fp32 .add false 0 [] [] [], .vectorInstruction 0 0 4 .fp32 .add false 0 [] [] [], .clusterStoreAtomic 0
      4096 0 0 0 false .add 0, .clusterStoreAtomic 0 0 4 0 0 false .add 0, .clusterStoreAtomic 0 0 0 0 (2 ^ 64) false .add
      0, .clusterFence 0 4096 0 [], .clusterFence 0 0 4 [], .clusterFence 0 0 0 [.load 0 (2 ^ 64) 8], .clusterFence 0 0 0
      [.store (2 ^ 64) 8 0], .kernelMarkInsn 0 4096 0 false 0,
      .kernelMarkInsn 0 0 4 false 0, .kernelMarkInsn 0 0 0 false 65536, .dmaPost 0 4096 0 0, .dmaPost 0 0 4 0,
      .dmaComplete 0 4096 0, .dmaComplete 0 0 4, .matrixJobIssue 0 4096 0 0 0, .matrixJobIssue 0 0 4 0 0,
      .matrixJobIssue 0 0 0 2 0, .matrixJobEnd 0 4096 0 false, .matrixJobEnd 0 0 2 false, .reassignGraceExpiry 0
      256, .clusterResetDone 0 256, .rsUpdateDone 0 2 0 false, .rsUpdateTimeout 0 2 0, .baselineWindowClose 0
      4096, .generationRetire 0 65536 0, .generationRetire 0 0 256, .generationDropDone 0 65536 0,
      .generationDropDone 0 0 256, .epochRetire 0 128, .modelCommitFlip 0 128, .barrierComplete 0 64 0,
      .joinReply 0 wFab 65536 0 (0, 0), .joinReply 0 wFab 0 65536 (0, 0), .joinReply 0 wFab 0 0 (2 ^ 128, 0),
      .joinReply 0 wFab 0 0 (0, 65536), .elect 0 wFab
      (2 ^ 128) 0 0 0, .elect 0 wFab 0 256 0 0, .elect 0 wFab 0 0 (2 ^ 32) 0, .elect 0 wFab 0 0 0 (2 ^ 64),
      .putAck 0 wFab (2 ^ 64) [], .fabricPost 0 4096 0 0 [], .fabricPost 0 0 4 0 [], .fabricPost 0 0 0 4096 [],
      .peerLossTimeout 0 65536, .lostPeerProbe 0 65536, .lookupRto 0 (2 ^ 32), .putRto 0 (2 ^ 64),
      .channelSuspectExpiry 0 65536 0, .channelSuspectExpiry 0 0 256, .smbPwrCapWrite 0 65536] : List Instr), i.wf = false := by decide +kernel

theorem ill_formed_4 : ∀ i ∈ ([
      .smbWriteRefused 0 256 0, .clusterThermalStep 0 256 0, .voltageDroop 0 256, .flowAgingPass 0 2 0 false,
      .macAgingPass 0 65536 false, .macPinRelease 0 65536, .ruleScrubPass 0 2 [], .mr4Poll 0 16 0 0, .mr4Poll 0 0
      4 0, .oscillatorTrack 0 16 0, .oscillatorTrack 0 0 4, .pageRetire 0 (2 ^ 48), .isainHeartbeatMiss 0 4,
      .reinitRevoke 0 64, .orphanSlotFree 0 65536, .spareTest 0 4096 false, .coreRetire 0 4096 [],
      .rosemaryRecord 0 65536 0 [], .rosemaryRecord 0 0 (2 ^ 32) [], .dillDrain 0 256, .pfcPauseExpiry 0 4 0,
      .pfcPauseExpiry 0 0 8, .flowLearnComplete 0 2 0, .clusterAssign 0 p0 0 0 [256], .barrier 0 p0 [4096] [],
      .barrier 0 p0 [] [(65536, 0)], .barrier 0 p0 (List.replicate 128 0) [], .barrier 0 p0 [] (List.replicate
      32 (0, 0)), .parseCommit 0 p0 [0, 0, 0], .parseCommit 0 p0 [0, 0, 0, 8], .ruleWrite 0 p0 0 (List.replicate
      64 (0, anyRow)) [], .ruleWrite 0 p0 0 [] (List.replicate 64 0), .ruleWrite 0 p0 0 [] [16384], .ruleWrite 0
      p0 0 [(16384, anyRow)] [], .gateListSet 0 p0 0 0 0 [], .gateListSet 0 p0 0 0 0 [(0, 2 ^ 32)],
      .generationCommit 0 p0 [(65536, 0)], .generationCommit 0 p0 (List.replicate 32 (0, 0)),
      .generationCommitBind 0 p0 [(0, 256)], .modelStage 0 p0 0 0 0 0 (List.replicate 32 []), .modelStage 0 p0 0
      0 0 0 [[256]], .counterRead 0 p0 (List.replicate 256 idDev), .counterReadClear 0 p0 [{ idDev with id :=
      65536 }], .attest 0 p0 [] 0 [], .sessionKeySet 0 p0 0 [] 0, .hello 0 (fr 0 0) { wHello with part := 256 },
      .hello 0 (fr 0 0) { wHello with ct := [] }, .pfcReceive 0 0 [(8, 0)], .pfcReceive 0 0
      [(0, 65536)], .fabricPost 0 0 0 0 [], .coldRstNRise 0 (boot false 16), .warmRstNRise 0 (boot false 16),
      .startWatchdogExpiry 0 (boot false 16), .deviceResetApply 0 (boot false 16), .deviceResetApply 0 { boot false 1 with dirBad := [2] },
      .deviceResetApply 0 { boot false 1 with trainBad := [(16, 0)] }, .deviceResetApply 0 { boot false 1 with trainBad := [(0, 4)] },
      .deviceResetApply 0 { boot false 1 with lanesBad := [(280, 0)] }, .ruleScrubPass 0 0 [16384],
      .putAck 0 wFab 0 [256], .isainRestartDone 0 [(.mbox (2 ^ 32), 0)], .coreRetire 0 0 [4096], .portConfig 0
      p0 [{ setRec 1 0 0 with id := 65536 }], .timeRead 0 { p0 with part := 64 }] : List Instr), i.wf = false := by decide +kernel

/-! ### Values the spec works out -/

/-- A tree node from its fields, as R229 lays them out. -/
def node (kind feat dir thr left right : Nat) : BitVec 128 :=
  BitVec.ofNat 128 (feat + 2 ^ 16 * kind + 2 ^ 20 * dir + 2 ^ 32 * thr + 2 ^ 64 * left + 2 ^ 88 * right)

/-- The nodes of the worked evaluation of chapter 10. -/
def worked : Model :=
  { model1 true with
    nodes := [node 0 0 0 0x40600000 1 2, node 3 0xFFFF 0 0xBE99999A 0 0, node 3 0xFFFF 0 0x3ECCCCCD 0 0,
      node 1 1 1 0x40000000 4 5, node 3 0xFFFF 0 0x3DCCCCCD 0 0, node 0 3 0 0x41200000 6 7,
      node 3 0xFFFF 0 0x3E800000 0 0, node 3 0xFFFF 0 0xBD4CCCCD 0 0, node 1 2 0 0x3F000000 9 12,
      node 1 3 1 0x40E00000 10 11, node 3 0xFFFF 0 0xBE19999A 0 0, node 3 0xFFFF 0 0x3EB33333 0 0,
      node 3 0xFFFF 0 0x3D4CCCCD 0 0] }

/-- The item of the worked evaluation: f0 = 3.5, f1 a NaN (or −0), f2 missing, f3 = 7.0. -/
def workedItem (f1 : W32) : Item := { vals := [(0, 0x40600000), (1, f1), (3, 0x40E00000)], pending := [] }

/-- Node 9 as the worked evaluation gives its bits. -/
theorem test_node9 : worked.nodes[9]? = some 0x000000000B00000A40E0000000110003#128 := by decide +kernel

/-- The paths of the worked evaluation: 8 visits, leaves 0.40, 0.25 and −0.15; with f1 = −0 tree 1 gives 0.10. -/
theorem test_worked_walks :
    worked.walk (nodeIn worked.nodes) (workedItem 0x7FC00000) 14 0 [] =
      .leaf (node 3 0xFFFF 0 0x3ECCCCCD 0 0) [(0, some 0), (2, none)] ∧
    worked.walk (nodeIn worked.nodes) (workedItem 0x7FC00000) 14 3 [] =
      .leaf (node 3 0xFFFF 0 0x3E800000 0 0) [(3, some 1), (5, some 3), (6, none)] ∧
    worked.walk (nodeIn worked.nodes) (workedItem 0x7FC00000) 14 8 [] =
      .leaf (node 3 0xFFFF 0 0xBE19999A 0 0) [(8, some 2), (9, some 3), (10, none)] ∧
    worked.walk (nodeIn worked.nodes) (workedItem 0x80000000) 14 3 [] =
      .leaf (node 3 0xFFFF 0 0x3DCCCCCD 0 0) [(3, some 1), (4, none)] := by decide +kernel

/-- z = 1.0 × 0.50 − 1.2, rounded to FP32. -/
theorem test_worked_z : correct [(0x3F800000, 0xBF99999A)] 1 0 [0x3F000000] = [0xBF333334] := by decide +kernel

/-- The identifiers the text before R459 gives. -/
theorem test_counter_ids : Ctr.bypassLinkFail = 0x1200 ∧ Ctr.fsHit = 0x0A04 := by decide

/-- The chain's header, and the first bytes of the device's certificate (R421). -/
theorem test_cert_chain : (List.range 12).map (fun i => State.reset.chainByte i) =
    [0x45, 0x43, 0x34, 0x4B, 2, 0, 0, 0, 1, 1, 1, 0] := by decide

/-- The worked example under R323: 0x3A_1234_5680 lies in channel 3, row 2,845,912, word 288, check byte 1,824. -/
theorem test_word_place :
    placeOf (0x3A12345680 % regionSize) = { channel := 3, row := 2845912, word := 288, checkAt := 1824 } := by decide +kernel

/-- The 40-byte key of the published check of the 32-bit Toeplitz hash that R132 names. -/
def rssKey : List Byte :=
  [0x6d, 0x5a, 0x56, 0xda, 0x25, 0x5b, 0x0e, 0xc2, 0x41, 0x67, 0x25, 0x3d, 0x43, 0xa3, 0x8f, 0xb0, 0xd0, 0xca, 0x2b,
   0xcb, 0xae, 0x7b, 0x30, 0xb4, 0x77, 0xcb, 0x2d, 0xa3, 0x80, 0x30, 0xf2, 0x0c, 0x6a, 0x42, 0xb7, 0x3b, 0xbe, 0xac,
   0x01, 0xfa]

/-- Its first vector: 66.9.149.187:2794 to 161.142.100.80:1766. -/
theorem test_toeplitz :
    toeplitz rssKey [66, 9, 149, 187, 161, 142, 100, 80, 0x0A, 0xEA, 0x06, 0xE6] = 0x51CCC178 := by decide +kernel

end Tests
end

namespace Sys2Proof.Machine

/-! ### The checks of R383, one equation for each step

What `State.preCheck` answers where a command fails steps 1 to 4 of R383, step by step, and where it passes
them all; and what `State.isain` then does. -/

section PreCheck

variable {s : State} {h : CmdHdr} {op owner : Nat} {stop resv : Bool}

/-- Step 1 of R383. -/
theorem preCheck_malformed (hbad : (h.lenBad || h.resvBad || resv) = true) :
    s.preCheck h op stop resv owner = some .eArg :=
  if_pos hbad

/-- Past step 1 of R383, what is left are steps 2 to 4. -/
theorem preCheck_wellFormed (hl : h.lenBad = false) (hv : h.resvBad = false) :
    s.preCheck h op stop false owner =
      if h.part ≠ owner then some .ePriv
      else if !(s.part h.part).enabled || (s.part h.part).token ≠ h.token then some .eState
      else if !s.stateAllows op stop then some .eState
      else none := by
  simp [State.preCheck, hl, hv]

/-- Step 2 of R383. -/
theorem preCheck_foreign (hl : h.lenBad = false) (hv : h.resvBad = false) (hp : h.part ≠ owner) :
    s.preCheck h op stop false owner = some .ePriv := by
  rw [preCheck_wellFormed hl hv, if_pos hp]

/-- Step 3 of R383. -/
theorem preCheck_stale (hl : h.lenBad = false) (hv : h.resvBad = false) (hp : h.part = owner)
    (ht : (s.part h.part).enabled = false ∨ (s.part h.part).token ≠ h.token) :
    s.preCheck h op stop false owner = some .eState := by
  rw [preCheck_wellFormed hl hv, if_neg (not_not_intro hp), if_pos (by simpa using ht)]

/-- Past step 3 of R383, what is left is step 4. -/
theorem preCheck_current (hl : h.lenBad = false) (hv : h.resvBad = false) (hp : h.part = owner)
    (he : (s.part h.part).enabled = true) (ht : (s.part h.part).token = h.token) :
    s.preCheck h op stop false owner = if s.stateAllows op stop then none else some .eState := by
  rw [preCheck_wellFormed hl hv, if_neg (not_not_intro hp), if_neg (by simp [he, ht])]
  cases s.stateAllows op stop <;> rfl

end PreCheck

/-! ### Values that no table lists (R7), and flags that a command does not define (R380) -/

/-- The statuses with which steps 5, 6 and 7 of R383 refuse an unlisted value: for it, or before it for an
object that does not exist or a right that is missing. -/
def EarlyStatus (st : Status) : Prop := st = .eState ∨ st = .ePriv ∨ st = .eArg

/-- A command's own checks come to a refusal with one of the statuses of steps 5 to 7 of R383. -/
def Reply.RefusedEarly (r : Reply) : Prop := ∃ st detail, EarlyStatus st ∧ r = .refuse st detail

section Unlisted

variable {h : CmdHdr} {op : Nat} {r : Reply}

/-- A check whose status is one of steps 5 to 7 of R383 may stand before the one that refuses. -/
theorem checksAt_cons_refusedEarly {item : Option Nat} {st : Status} {rest : List (Option Nat × Status)}
    (hst : EarlyStatus st) (hrest : (checksAt rest r).RefusedEarly) :
    (checksAt ((item, st) :: rest) r).RefusedEarly := by
  cases item with
  | none => exact hrest
  | some i => exact ⟨st, i, hst, rfl⟩

/-- The check of step 7 of R383 refuses an unlisted value, whatever stands after it. -/
theorem checksAt_unlistedAt_refusedEarly {rest : List (Option Nat × Status)} (hu : unlisted h op = true) :
    (checksAt (unlistedAt h op :: rest) r).RefusedEarly := by
  rw [show unlistedAt h op = (some noDetail, .eArg) by simp [unlistedAt, onWhole, hu]]
  exact ⟨.eArg, noDetail, .inr (.inr rfl), rfl⟩

/-- A list of checks runs its second part where its first part passes. -/
theorem checksAt_append (l l' : List (Option Nat × Status)) :
    checksAt (l ++ l') r = checksAt l (checksAt l' r) := by
  induction l with
  | nil => rfl
  | cons e l ih =>
    obtain ⟨_ | i, st⟩ := e
    · exact ih
    · rfl

/-- The checks of `GENERATION_COMMIT` refuse an unlisted value after those of steps 5 and 6 (R286). -/
theorem commitChecks_refusedEarly (s : State) (pairs : List (Nat × Nat))
    (hu : unlisted h 0x0A06 = true) : (checksAt (s.commitChecks h pairs) r).RefusedEarly :=
  checksAt_cons_refusedEarly (.inl rfl) (checksAt_cons_refusedEarly (.inr (.inl rfl))
    (checksAt_unlistedAt_refusedEarly hu))

end Unlisted

/-! ### Every command of the table is one that Isain runs -/

/-- A row tests its unlisted values itself (`CmdForm.late`) only where its own checks refuse them. -/
def LateRefuses (h : CmdHdr) (c : CmdForm) (own : State → Reply) : Prop :=
  c.late = true → unlisted h c.op = true → ∀ s, (own s).RefusedEarly

/-- An instruction is a command that Isain runs with this time, header and form. -/
def RunByIsain (i : Instr) (t : Nat) (h : CmdHdr) (c : CmdForm) : Prop :=
  ∃ (ex right : State → Bool) (own : State → Reply),
    (∀ s, exec i s = s.isain t c h ex right own) ∧ LateRefuses h c own

section Rows

variable {i : Instr} {t : Nat} {h : CmdHdr} {c : CmdForm} {ex right : State → Bool} {own : State → Reply}

/-- A row whose unlisted values `State.runCmd` tests. -/
theorem runByIsain_of_notLate (he : ∀ s, exec i s = s.isain t c h ex right own)
    (hc : c.late = false) : RunByIsain i t h c :=
  ⟨ex, right, own, he, fun hl => absurd (hc.symm.trans hl) Bool.false_ne_true⟩

/-- A row that tests its unlisted values itself. -/
theorem runByIsain_of_late (he : ∀ s, exec i s = s.isain t c h ex right own)
    (hr : unlisted h c.op = true → ∀ s, (own s).RefusedEarly) : RunByIsain i t h c :=
  ⟨ex, right, own, he, fun _ => hr⟩

/-- `commandOf` names the rows that Isain runs, each with its form. The rows named first ask steps 5 and 6 of
R383 item by item, and step 7 after them. -/
theorem runByIsain_of_commandOf (hi : commandOf i = some (t, h, c)) : RunByIsain i t h c := by
  cases i
  case settingsReadForm | clusterConfig =>
    cases hi
    exact runByIsain_of_late (fun _ => rfl) fun hu _ =>
      checksAt_cons_refusedEarly (.inr (.inl rfl)) (checksAt_unlistedAt_refusedEarly hu)
  case barrier =>
    cases hi
    exact runByIsain_of_late (fun _ => rfl) fun hu _ =>
      checksAt_cons_refusedEarly (.inl rfl) (checksAt_cons_refusedEarly (.inl rfl)
        (checksAt_cons_refusedEarly (.inr (.inl rfl)) (checksAt_cons_refusedEarly (.inr (.inl rfl))
          (checksAt_unlistedAt_refusedEarly hu))))
  case spreadConfig | classConfig | flowTableConfig =>
    cases hi
    exact runByIsain_of_late (fun _ => rfl) fun hu _ =>
      checksAt_cons_refusedEarly (.inl rfl) (checksAt_cons_refusedEarly (.inr (.inl rfl))
        (checksAt_unlistedAt_refusedEarly hu))
  case ruleWrite =>
    cases hi
    exact runByIsain_of_late (fun _ => rfl) fun hu _ => by
      rw [checksAt_append]
      exact checksAt_cons_refusedEarly (.inl rfl) (checksAt_cons_refusedEarly (.inr (.inl rfl))
        (checksAt_unlistedAt_refusedEarly hu))
  case ftableCreate =>
    cases hi
    exact runByIsain_of_late (fun _ => rfl) fun hu _ =>
      checksAt_cons_refusedEarly (.inl rfl) (checksAt_unlistedAt_refusedEarly hu)
  case generationCommit =>
    cases hi
    exact runByIsain_of_late (fun _ => rfl) fun hu s => commitChecks_refusedEarly s _ hu
  case generationCommitBind =>
    cases hi
    exact runByIsain_of_late (fun _ => rfl) fun hu s => by
      rw [checksAt_append]
      exact commitChecks_refusedEarly s _ hu
  all_goals cases hi
  all_goals exact runByIsain_of_notLate (fun _ => rfl) rfl

end Rows

/-! ### What Isain answers -/

section Isain

variable {s : State} {t owner : Nat} {h : CmdHdr} {c : CmdForm} {ex right : State → Bool}
  {own : State → Reply}

/-- A command without a wrong length or reserved bit that fails one of steps 2 to 4 of R383 is answered, and
nothing else happens (R7). -/
theorem isain_refused (hu : s.isainUp = true) (hc : s.carrierPart h c.op = some owner)
    (hv : h.resvBad = false) (hr : c.resv = none) {st : Status}
    (hp : s.preCheck h c.op c.stop false owner = some st) :
    s.isain t c h ex right own = .next ((s.at t).answerRd h c.op c.rd st noDetail []) := by
  have hp' : (s.at t).preCheck h c.op c.stop c.resv.isSome owner = some st := by
    rw [hr]; exact hp
  rw [isain_pre hu hc hp']
  simp [hv, hr]

/-- A reserved bit of the header or of a record is answered `E_ARG` and counted (R7). -/
theorem isain_reserved (hu : s.isainUp = true) (hc : s.carrierPart h c.op = some owner)
    (hv : (h.resvBad || c.resv.isSome) = true) :
    s.isain t c h ex right own = .next
      (((s.at t).count Ctr.cmdResvRefused h.part).answerRd h c.op c.rd .eArg
        (if h.lenBad || h.resvBad then noDetail else c.resv.getD noDetail) []) := by
  have hp : (s.at t).preCheck h c.op c.stop c.resv.isSome owner = some .eArg :=
    preCheck_malformed (by rw [Bool.or_assoc, hv, Bool.or_true])
  rw [isain_pre hu hc hp, hv]
  rfl

/-- A command that passes steps 1 to 4 of R383 with an unlisted value is refused by one of steps 5 to 7: its
objects, its right, or the value itself. -/
theorem runCmd_unlisted (hp : s.preCheck h c.op c.stop c.resv.isSome owner = none)
    (hl : unlisted h c.op = true) (hown : LateRefuses h c own) :
    ∃ st detail, EarlyStatus st ∧
      s.runCmd c h owner ex right own = s.answerRd h c.op c.rd st detail [] := by
  unfold State.runCmd
  rw [hp]
  dsimp only
  split
  next => exact ⟨.eState, noDetail, .inl rfl, rfl⟩
  split
  next => exact ⟨.ePriv, noDetail, .inr (.inl rfl), rfl⟩
  split
  next => exact ⟨.eArg, noDetail, .inr (.inr rfl), rfl⟩
  next hlate =>
    obtain ⟨st, detail, hst, hrefuse⟩ := hown (by simpa [hl] using hlate) hl s
    rw [hrefuse]
    exact ⟨st, detail, hst, rfl⟩

/-- The same, where a carrier holds the command. -/
theorem isain_unlisted_refusedEarly (hu : s.isainUp = true) (hc : s.carrierPart h c.op = some owner)
    (hp : s.preCheck h c.op c.stop c.resv.isSome owner = none) (hl : unlisted h c.op = true)
    (hown : LateRefuses h c own) :
    ∃ st detail, EarlyStatus st ∧
      s.isain t c h ex right own = .next ((s.at t).answerRd h c.op c.rd st detail []) := by
  have hu' : (s.at t).isainUp = true := hu
  have hc' : (s.at t).carrierPart h c.op = some owner := hc
  have hp' : (s.at t).preCheck h c.op c.stop c.resv.isSome owner = none := hp
  obtain ⟨st, detail, hst, hrun⟩ := runCmd_unlisted (ex := ex) (right := right) hp' hl hown
  refine ⟨st, detail, hst, ?_⟩
  unfold State.isain
  dsimp only
  rw [hu', hc']
  exact congrArg _ hrun

end Isain

/-- Settles O7: every command is one that Isain runs, and `State.isain` answers the first check of R383 that
fails. -/
theorem refusalOrder : Obligations.RefusalOrder := by
  unfold Obligations.RefusalOrder
  intro i t h c s hi
  obtain ⟨ex, right, own, hexec, hown⟩ := runByIsain_of_commandOf hi
  rw [hexec s]
  refine ⟨fun hno => hno.elim isain_down isain_none, fun owner hu hc => ⟨?_, ?_, ?_, ?_⟩⟩
  · intro hl hv hr
    exact isain_refused hu hc hv hr (preCheck_malformed (by simp [hl]))
  · intro hv
    rw [isain_reserved hu hc (by simp [hv])]
    simp [hv]
  · intro k hl hv hr
    rw [isain_reserved hu hc (by simp [hr])]
    simp [hl, hv, hr]
  · intro hl hv hr
    refine ⟨fun hp => isain_refused hu hc hv hr (preCheck_foreign hl hv hp), fun hp => ⟨?_, ?_, ?_⟩⟩
    · exact fun ht => isain_refused hu hc hv hr (preCheck_stale hl hv hp ht)
    · intro he ht ha
      exact isain_refused hu hc hv hr (by rw [preCheck_current hl hv hp he ht, ha]; rfl)
    · intro he ht ha hul
      have hpass : s.preCheck h c.op c.stop c.resv.isSome owner = none := by
        rw [hr]
        exact (preCheck_current hl hv hp he ht).trans (if_pos ha)
      exact isain_unlisted_refusedEarly hu hc hpass hul hown

end Sys2Proof.Machine

namespace Sys2Proof.Machine

/-! ### The beacon (R19) -/

section Beacon

variable {s : State} {c island elapsed t : Nat}

/-- A copy of the tick ahead of the master holds (R19). -/
theorem slew_ahead {copy master : Nat} (h : master < copy) : slew (some copy) elapsed master = copy :=
  if_pos h

/-- A copy behind the master gains at most 2 ns for each ns, and does not pass it (R19). -/
theorem slew_behind {copy master : Nat} (h : copy ≤ master) :
    slew (some copy) elapsed master = min master (copy + 2 * elapsed) :=
  if_neg (Nat.not_lt.2 h)

/-- A copy of the tick never decreases, and gains at most 2 ns for each ns (R19). -/
theorem slew_bounds (copy master : Nat) :
    copy ≤ slew (some copy) elapsed master ∧ slew (some copy) elapsed master ≤ copy + 2 * elapsed := by
  rcases Nat.lt_or_ge master copy with h | h
  · rw [slew_ahead h]; omega
  · rw [slew_behind h]; omega

/-- What an island's copy of the tick becomes at a beacon, from what it held (R19). -/
def beaconCopy (held : Option (Nat × Nat)) (elapsed tick : Nat) : Nat :=
  match held with
  | none => tick
  | some e => slew (some e.1) (max elapsed (tick - e.2)) tick

/-- An update that leaves a cluster as it is leaves every cluster so. -/
theorem State.cluster_modCluster_id (k : Nat) : (s.modCluster c fun x => x).cluster k = s.cluster k := by
  rcases eq_or_ne k c with rfl | hk
  · exact s.cluster_modCluster k _
  · exact tgetD_tup_ne s.comp.clusters {} (fun x => x) hk

/-- With no marker on its way, none arrives. -/
theorem State.dillArrive_noMarks (hm : (s.cluster c).dill.marks = []) (upto : Nat) :
    s.dillArrive c upto = (s.modCluster c fun x => x, false) := by
  simp [State.dillArrive, hm]

/-- With no marker on its way, a cluster that takes its markers stays as it is, and so does everything else. -/
theorem State.takeMarks_noMarks (hm : (s.cluster c).dill.marks = []) :
    s.takeMarks c = { s with comp := (s.takeMarks c).comp } ∧
      ∀ k, (s.takeMarks c).cluster k = s.cluster k := by
  unfold State.takeMarks
  cases s.islandNow c with
  | none => exact ⟨rfl, fun _ => rfl⟩
  | some now =>
    dsimp only
    rw [State.dillArrive_noMarks hm]
    exact ⟨rfl, fun k => State.cluster_modCluster_id k⟩

/-- The state in which a beacon has set its island's copy of the tick (R19). -/
def State.slewIsland (island elapsed : Nat) (s : State) : State :=
  { s with
    islandTick := tset s.islandTick island
      (beaconCopy (tget s.islandTick island) elapsed s.tick, s.tick) }

/-- A beacon sets its island's copy, then the markers that have arrived are taken (R19). -/
theorem exec_timeBeacon_alive (ha : s.alive = true) : exec (.timeBeacon t island elapsed) s =
    .next (((s.at t).slewIsland island elapsed).takeMarks island) := by
  rw [exec_timeBeacon]
  exact happen_pos ha

/-- A beacon sets its island's copy of the tick, and changes nothing else that can be read where no marker is
on its way (R19). -/
theorem exec_timeBeacon_noMarks (ha : s.alive = true) (hm : (s.cluster island).dill.marks = []) :
    ∃ s' : State, exec (.timeBeacon t island elapsed) s = .next s' ∧
      s'.islandTick = tset s.islandTick island
        (beaconCopy (tget s.islandTick island) elapsed (max s.tick t), max s.tick t) ∧
      s' = { s.at t with islandTick := s'.islandTick, comp := s'.comp } ∧
      ∀ k, s'.cluster k = s.cluster k := by
  obtain ⟨hframe, hclusters⟩ :=
    State.takeMarks_noMarks (s := (s.at t).slewIsland island elapsed) (c := island) hm
  refine ⟨_, exec_timeBeacon_alive ha, ?_, ?_, hclusters⟩
  · rw [hframe]; rfl
  · rw [hframe]; rfl

end Beacon

/-- Settles O10: a beacon leaves `beaconCopy` of what its island held, which is `slew` of a held copy. -/
theorem beaconSlews : Obligations.BeaconSlews := by
  unfold Obligations.BeaconSlews
  intro t island elapsed s ha hm
  obtain ⟨s', hexec, htick, hframe, hclusters⟩ := exec_timeBeacon_noMarks (t := t) (elapsed := elapsed) ha hm
  refine ⟨fun hnone => ?_, fun c last hsome => ?_⟩
  · rw [hnone] at htick
    exact ⟨s', hexec, htick, hframe, hclusters⟩
  · rw [hsome] at htick
    obtain ⟨hle, hgain⟩ := slew_bounds (elapsed := max elapsed (max s.tick t - last)) c (max s.tick t)
    refine ⟨s', _, hexec, htick, hframe, hclusters, hle, hgain, slew_ahead, fun h => ?_⟩
    exact (slew_behind h).trans_le (Nat.min_le_left _ _)

end Sys2Proof.Machine

namespace Sys2Proof.Machine

/-! ### A command that is ready, by what its own checks and effect come to -/

section ReadyCommand

variable {s : State} {t : Nat} {c : CmdForm} {h : CmdHdr} {ex right : State → Bool} {own : State → Reply}

/-- Done: answered from the state its effect leaves. -/
theorem isain_done {u : State} {st : Status} {body : List Nat} (r : Ready h c.op c.stop s)
    (hr : c.resv = none) (he : ex (s.at t) = true) (hp : right (s.at t) = true)
    (ho : own (s.at t) = .done st body u) :
    s.isain t c h ex right own = .next (u.answerRd h c.op c.rd st noDetail body) := by
  rw [isain_own r hr he hp, ho]

/-- Waiting: answered later. -/
theorem isain_wait {u : State} (r : Ready h c.op c.stop s) (hr : c.resv = none)
    (he : ex (s.at t) = true) (hp : right (s.at t) = true) (ho : own (s.at t) = .wait u) :
    s.isain t c h ex right own = .next u := by
  rw [isain_own r hr he hp, ho]

/-- Refused by a check of its own: answered with the item it names, without effect. -/
theorem isain_refuse {st : Status} {detail : Nat} (r : Ready h c.op c.stop s) (hr : c.resv = none)
    (he : ex (s.at t) = true) (hp : right (s.at t) = true) (ho : own (s.at t) = .refuse st detail) :
    s.isain t c h ex right own = .next ((s.at t).answerRd h c.op c.rd st detail []) := by
  rw [isain_own r hr he hp, ho]

end ReadyCommand

/-! ### Checks that pass -/

/-- A list of checks that all pass comes to the effect. -/
theorem checksAt_pass {r : Reply} : ∀ {l : List (Option Nat × Status)}, (∀ e ∈ l, e.1 = none) →
    checksAt l r = r
  | [], _ => rfl
  | (none, _) :: l, hl => checksAt_pass (l := l) fun e he => hl e (List.mem_cons_of_mem _ he)
  | (some _, _) :: _, hl => nomatch hl _ (.head _)

/-- No position fails where every item is good. -/
theorem itemBad_eq_none {α : Type} {base : Nat} {bad : α → Bool} :
    ∀ {l : List α}, (∀ x ∈ l, bad x = false) → itemBad base bad l = none
  | [], _ => rfl
  | x :: l, hl => by
    have hrest := Option.map_eq_none_iff.1 (itemBad_eq_none (base := base) fun y hy => hl y (.tail _ hy))
    simp [itemBad, idxOf?, hl x (.head _), hrest]

/-- The first position fails where the first item is bad. -/
theorem itemBad_head {α : Type} {base : Nat} {bad : α → Bool} {x : α} {l : List α} (hx : bad x = true) :
    itemBad base bad (x :: l) = some base := by
  simp [itemBad, idxOf?, hx]

/-! ### Clusters that change owner (R16, R203, R204, R390) -/

section Clusters

variable {s : State} {t target graceUs c : Nat} {h : CmdHdr}

/-- The first checks of a `CLUSTER_ASSIGN` pass: its target, its grace, and the partition it names. -/
structure AssignGood (h : CmdHdr) (target graceUs : Nat) (s : State) : Prop where
  issuer : h.part = 0
  ready : Ready h 0x0204 false s
  owner : ownerValid target = true
  grace : h.flag = false ∨ graceUs ≤ 100000
  enabled : 64 ≤ target ∨ (s.part target).enabled = true

/-- A grace that R390 allows passes its check. -/
theorem AssignGood.grace_pass (g : AssignGood h target graceUs s) :
    (h.flag && decide (100000 < graceUs)) = false := by
  rcases g.grace with hf | hle
  · simp [hf]
  · simp [Nat.not_lt.2 hle]

/-- A target that is no partition, or an enabled one, passes its check. -/
theorem AssignGood.enabled_pass (g : AssignGood h target graceUs s) :
    (decide (target < 64) && !(s.part target).enabled) = false := by
  rcases g.enabled with hle | hen
  · simp [Nat.not_lt.2 hle]
  · simp [hen]

/-- What the clusters of a `CLUSTER_ASSIGN` come to where every check passes: each leaves for the target. -/
theorem AssignGood.own_pass {clusters : List Nat} (g : AssignGood h target graceUs s)
    (hc : ∀ c ∈ clusters, (s.cluster c).leaving = none ∧ c < 256) (hn : clusters.length ≤ 256)
    (r : Reply) :
    checksAt
      [(onWhole (!ownerValid target), .eArg), (onWhole (h.flag && decide (100000 < graceUs)), .eRange),
       (onWhole (decide (target < 64) && !(s.part target).enabled), .eState),
       (itemBad 0 (fun c => (s.cluster c).leaving.isSome) clusters, .busy),
       (onWhole (decide (256 < clusters.length)), .eRange),
       (itemBad 0 (fun c => decide (256 ≤ c)) clusters, .eRange)] r = r := by
  apply checksAt_pass
  have hstay : itemBad 0 (fun c => (s.cluster c).leaving.isSome) clusters = none :=
    itemBad_eq_none fun c hmem => by simp [(hc c hmem).1]
  have hrange : itemBad 0 (fun c => decide (256 ≤ c)) clusters = none :=
    itemBad_eq_none fun c hmem => by simp [(hc c hmem).2]
  simp [onWhole, g.owner, g.grace_pass, g.enabled_pass, hstay, hrange, hn]

/-- A `CLUSTER_ASSIGN` that passes its checks is answered at once where no cluster leaves on its behalf, and
else waits (R203). -/
theorem exec_clusterAssign_pass {clusters : List Nat} {u : State} (g : AssignGood h target graceUs s)
    (hc : ∀ c ∈ clusters, (s.cluster c).leaving = none ∧ c < 256) (hn : clusters.length ≤ 256)
    (hu : u = clusters.foldl (fun s c => s.leave h target (graceOf h graceUs) c) (s.at t)) :
    (u.assignDone h = true → exec (.clusterAssign t h target graceUs clusters) s =
      .next (u.answer h 0x0204 .ok noDetail [])) ∧
    (u.assignDone h = false → exec (.clusterAssign t h target graceUs clusters) s = .next u) := by
  subst hu
  have hp0 : isP0 h (s.at t) = true := by simp [isP0, g.issuer]
  refine ⟨fun hdone => isain_done g.ready rfl rfl hp0 ?_, fun hdone => isain_wait g.ready rfl rfl hp0 ?_⟩
  · exact (g.own_pass hc hn _).trans (if_pos hdone)
  · exact (g.own_pass hc hn _).trans (if_neg (Bool.eq_false_iff.1 hdone))

/-- A `CLUSTER_ASSIGN` of a cluster that leaves already is refused (R390). -/
theorem exec_clusterAssign_busy (g : AssignGood h target graceUs s)
    (hc : (s.cluster c).leaving.isSome = true) :
    exec (.clusterAssign t h target graceUs [c]) s = .next ((s.at t).answer h 0x0204 .busy 0 []) := by
  have hp0 : isP0 h (s.at t) = true := by simp [isP0, g.issuer]
  refine isain_refuse g.ready rfl rfl hp0 ?_
  have hbad : itemBad 0 (fun c => (s.cluster c).leaving.isSome) [c] = some 0 := itemBad_head hc
  simp [onWhole, g.owner, g.grace_pass, g.enabled_pass, hbad, checksAt]

/-- At the grace's end a cluster's work ends and its reset begins (step 3 of R204). -/
theorem exec_reassignGraceExpiry_due {l : Leaving} (hm : s.moving = true)
    (hl : (s.cluster c).leaving = some l) (hr : l.resetting = false) (hg : l.graceEnd ≤ max s.tick t) :
    exec (.reassignGraceExpiry t c) s = .next ((s.at t).abortCluster c) := by
  rw [exec_reassignGraceExpiry]
  exact happen_pos (by simp [hm, hl, hr, hg])

/-- A cluster whose reset is done for a new owner is zeroed and has it (steps 4 and 5 of R204). -/
theorem exec_clusterResetDone_assigned {l : Leaving} {u : State} (hm : s.moving = true)
    (hl : (s.cluster c).leaving = some l) (hr : l.resetting = true) (hv : l.revoke = false)
    (hu : u = (((s.at t).zeroCluster c).clusterStopped c).takeOwner c l) :
    exec (.clusterResetDone t c) s = .next (if u.revokeDone (s.cluster c).owner then
      u.endReinit (s.cluster c).owner else u) := by
  subst hu
  rw [exec_clusterResetDone]
  refine (happen_pos (by simp [hm, hl, hr])).trans ?_
  simp [hl, hv]

/-- `CORE_MAP_READ` is answered, and changes nothing (R16). -/
theorem exec_coreMapRead_answered {start max : Nat} (r : Ready h 0x0206 false s) :
    ∃ words, exec (.coreMapRead t h start max) s = .next ((s.at t).answer h 0x0206 .ok noDetail words) :=
  ⟨_, isain_done r rfl rfl rfl rfl⟩

end Clusters

/-! ### Re-initialisation and hung slots (R112, R437 to R439) -/

section Reinit

variable {s : State} {t p part : Nat} {h : CmdHdr}

/-- A `PARTITION_REINIT` of an enabled partition begins its re-initialisation, or joins it (R438). -/
theorem exec_partitionReinit_pass (r : Ready h 0x0105 false s) (ho : h.part = 0 ∨ h.part = part)
    (h0 : 0 < part) (h64 : part < 64) (he : (s.part part).enabled = true) :
    exec (.partitionReinit t h part) s =
      .next ((s.at t).modPart part fun x => { x with reinit := match x.reinit with
        | some (k, hs) => some (k, hs ++ [h])
        | none => some (max s.tick t, [h]) }) := by
  refine isain_wait r rfl rfl (by simpa [owns] using ho) ?_
  have harg : (part == 0 || decide (64 ≤ part)) = false := by
    simp [Nat.pos_iff_ne_zero.1 h0, h64]
  simp only [checks, harg, State.part_at, he]
  rfl

/-- A re-initialisation revokes once 10 ms have passed (R438). -/
theorem exec_reinitRevoke_due {k : Nat} {hs : List CmdHdr} (hr : s.running = true)
    (hv : (s.part part).revoking = false) (hi : (s.part part).reinit = some (k, hs))
    (hk : k + 10000000 ≤ max s.tick t) :
    exec (.reinitRevoke t part) s = .next ((s.at t).revoke part) := by
  rw [exec_reinitRevoke]
  exact happen_pos (by simp [hr, hv, hi, hk])

/-- Before, it waits for the partition's work (R438). -/
theorem exec_reinitRevoke_waits {k : Nat} {hs : List CmdHdr} (hi : (s.part part).reinit = some (k, hs))
    (hk : max s.tick t < k + 10000000) (hw : s.partIdle part = false) :
    exec (.reinitRevoke t part) s = .next (s.at t) := by
  rw [exec_reinitRevoke]
  exact happen_neg (by simp [hi, hw, Nat.not_le.2 hk])

/-- An orphan that no cluster keeps is freed (R112). -/
theorem exec_orphanSlotFree_free {slot : Nat} (ho : (s.slot slot).state = .orphan)
    (hc : (s.slot slot).orphanClusters = []) :
    exec (.orphanSlotFree t slot) s = .next ((s.at t).freeSlot slot) := by
  rw [exec_orphanSlotFree]
  exact happen_pos (by simp [ho, hc])

/-- The re-initialisation of a partition begins, without a command, where its hangs start it (R437). -/
def State.startHung (s : State) (p : Nat) : State :=
  if s.hangTrigger p then s.modPart p fun x => { x with reinit := some (s.tick, []) } else s

/-- The slots that hang and have not been counted. -/
def State.newlyHung (s : State) : List Nat :=
  (s.rings.slots.filter fun e => e.2.hung s.tick && !e.2.hangCounted).map (·.1)

/-- A scan counts the slots that newly hang, then starts the re-initialisations that are due (R437). -/
theorem exec_hungSlotScan_running (hr : s.running = true) (hi : s.isainUp = true) :
    exec (.hungSlotScan t) s = .next ((List.range 64).foldl State.startHung
      ((s.at t).newlyHung.foldl (fun s k => s.foundHung k) (s.at t))) := by
  rw [exec_hungSlotScan]
  exact happen_pos (by simp [hr, hi])

/-- Another partition keeps its value. -/
theorem State.part_modPart_ne {q : Nat} (f : Partition → Partition) (hq : q ≠ p) :
    (s.modPart p f).part q = s.part q :=
  tgetD_tup_ne s.parts {} f hq

/-- A partition under re-initialisation starts none (R437). -/
theorem State.hangTrigger_of_reinit (hp : (s.part p).reinit.isSome = true) : s.hangTrigger p = false := by
  simp [State.hangTrigger, Option.isNone_eq_false_iff.2 hp]

/-- A change of one partition starts no other's re-initialisation. -/
theorem State.hangTrigger_modPart_ne {q : Nat} (f : Partition → Partition) (hq : q ≠ p) :
    (s.modPart p f).hangTrigger q = s.hangTrigger q := by
  unfold State.hangTrigger
  rw [State.part_modPart_ne f hq]
  rfl

/-- With no hung slot and fewer than 16 hangs in a second, no re-initialisation starts (R437). -/
theorem State.hangTrigger_of_few (hs : ∀ e ∈ s.rings.slots, e.2.hung s.tick = false)
    (hp : ((s.part p).hangs.filter fun u => decide (s.tick < u + 1000000000)).length < 16) :
    s.hangTrigger p = false := by
  have hnone : s.hungOf p = [] := by
    simp only [State.hungOf, List.map_eq_nil_iff, List.filter_eq_nil_iff]
    intro e he
    simp [hs e he]
  simp [State.hangTrigger, hnone, Nat.not_le.2 hp]

/-- Where no partition's hangs start one, no re-initialisation begins. -/
theorem foldl_startHung_none (hs : ∀ p, s.hangTrigger p = false) (l : List Nat) :
    l.foldl State.startHung s = s := by
  induction l with
  | nil => rfl
  | cons p l ih => simpa [State.startHung, hs p] using ih

/-- Where one partition's hangs start one, its re-initialisation begins, and no other's. -/
theorem foldl_startHung_one (hp : s.hangTrigger p = true) (ho : ∀ q, q ≠ p → s.hangTrigger q = false) :
    ∀ {l : List Nat}, p ∈ l →
      l.foldl State.startHung s = s.modPart p fun x => { x with reinit := some (s.tick, []) }
  | q :: l, hmem => by
    rw [List.foldl_cons]
    rcases eq_or_ne q p with rfl | hq
    · rw [State.startHung, if_pos hp]
      refine foldl_startHung_none (fun r => ?_) l
      rcases eq_or_ne r q with rfl | hr
      · exact State.hangTrigger_of_reinit (by simp)
      · rw [State.hangTrigger_modPart_ne _ hr, ho r hr]
    · rw [State.startHung, if_neg (by simp [ho q hq])]
      exact foldl_startHung_one hp ho ((List.mem_cons.1 hmem).resolve_left hq.symm)

/-- A scan that finds no hung slot and few hangs changes nothing (R437). -/
theorem exec_hungSlotScan_quiet (hr : s.running = true) (hi : s.isainUp = true)
    (hs : ∀ e ∈ s.rings.slots, e.2.hung (max s.tick t) = false)
    (hp : ∀ p, ((s.part p).hangs.filter fun u =>
      decide (max s.tick t < u + 1000000000)).length < 16) :
    exec (.hungSlotScan t) s = .next (s.at t) := by
  have hnew : (s.at t).newlyHung = [] := by
    simp only [State.newlyHung, List.map_eq_nil_iff, List.filter_eq_nil_iff]
    intro e he
    simp [hs e he]
  rw [exec_hungSlotScan_running hr hi, hnew, List.foldl_nil,
    foldl_startHung_none fun p => State.hangTrigger_of_few hs (hp p)]

/-- A scan counts the one slot that is held and newly hangs (R437). -/
theorem exec_hungSlotScan_found {slot : Nat} (hr : s.running = true) (hi : s.isainUp = true)
    (hone : s.rings.slots.map (·.1) = [slot]) (hh : (s.slot slot).hung (max s.tick t) = true)
    (hc : (s.slot slot).hangCounted = false)
    (hp : ∀ p, ((s.at t).foundHung slot).hangTrigger p = false) :
    exec (.hungSlotScan t) s = .next ((s.at t).foundHung slot) := by
  obtain ⟨⟨k, x⟩, hslots, rfl⟩ := List.map_eq_singleton_iff.1 hone
  have hx : s.slot k = x := by simp [State.slot, hslots, tgetD, tget]
  rw [hx] at hh hc
  have hnew : (s.at t).newlyHung = [k] := by simp [State.newlyHung, hslots, hh, hc]
  rw [exec_hungSlotScan_running hr hi, hnew, List.foldl_cons, List.foldl_nil, foldl_startHung_none hp]

/-- A scan that finds no slot that newly hangs starts the one re-initialisation that is due (R437). -/
theorem exec_hungSlotScan_starts (hr : s.running = true) (hi : s.isainUp = true) (h64 : p < 64)
    (hs : ∀ e ∈ s.rings.slots, e.2.hung (max s.tick t) = true → e.2.hangCounted = true)
    (hp : (s.at t).hangTrigger p = true) (ho : ∀ q, q ≠ p → (s.at t).hangTrigger q = false) :
    exec (.hungSlotScan t) s = .next ((s.at t).modPart p fun x => { x with
      reinit := some (max s.tick t, []) }) := by
  have hnew : (s.at t).newlyHung = [] := by
    simp only [State.newlyHung, List.map_eq_nil_iff, List.filter_eq_nil_iff]
    intro e he
    simpa using hs e he
  rw [exec_hungSlotScan_running hr hi, hnew, List.foldl_nil,
    foldl_startHung_one hp ho (List.mem_range.2 h64)]
  rfl

end Reinit

/-! ### Spares, retirement and restarts (R14 to R16, R431 to R434, R440, R441) -/

section Spares

variable {s : State} {t core l i : Nat} {e sp : MapEntry}

/-- The test of an idle spare: one that passes stays, one that fails is marked (R434). -/
theorem exec_spareTest_idle {passed : Bool} (hr : s.running = true)
    (hf : ((s.positions 4).find? fun e => e.2.phys == core) = some (i, e)) :
    exec (.spareTest t core passed) s =
      .next (if passed then s.at t else (s.at t).spareFailed i core) := by
  have hany : ((s.positions 4).any fun e => e.2.phys == core) = true :=
    List.any_eq_true.2 ⟨(i, e), List.mem_of_find?_eq_some hf, by simpa using List.find?_some hf⟩
  rw [exec_spareTest]
  refine (happen_pos (by simp [hr, hany])).trans ?_
  simp [hf]

/-- A core that met a trigger and serves is retired (R431, R432). -/
theorem exec_coreRetire_retiring {fails : List Nat} (hr : s.running = true)
    (hc : (s.core core).retiring = true) (hl : (s.logicalEntry core).isSome = true) :
    exec (.coreRetire t core fails) s = .next ((s.at t).retireCore core fails) := by
  rw [exec_coreRetire]
  exact happen_pos (by simp [hr, hc, hl])

/-- A counted fault retires a core that serves as a spare and has spent its spare rows (R431, log entry
138). -/
theorem State.spareFault_spent (hl : s.logicalEntry core = some (l, e)) (he : e.state = 2)
    (hs : s.rowsSpent core = true) :
    (s.spareFault core).core core = { s.core core with retiring := true } := by
  rw [State.spareFault, if_pos (by simp [hl, he, hs])]
  exact s.core_modCore core _

/-- So does a fault of one of its arrays (R430, R431). -/
theorem State.arrayFault_spent (hl : s.logicalEntry core = some (l, e)) (he : e.state = 2)
    (hs : s.rowsSpent core = true) (a : Nat) :
    ((s.arrayFault core a).core core).retiring = true := by
  simp [State.arrayFault, State.spareFault_spent hl he hs]

/-- A core that serves and fails its self-test at a start is to be retired (R431). -/
theorem State.selfTestFailed_serving (hi : ∀ e ∈ s.positions 4, e.2.phys ≠ core)
    (hl : (s.logicalEntry core).isSome = true) :
    (s.selfTestFailed core).core core = { s.core core with retiring := true } := by
  have hnone : ((s.positions 4).find? fun e => e.2.phys == core) = none :=
    List.find?_eq_none.2 fun e he => by simp [hi e he]
  rw [State.selfTestFailed, hnone]
  simp [hl]

/-- A silent die leads to a device reset within 1 ms (R441). -/
theorem exec_dieSilentTimeout_running {die : Nat} (hr : s.running = true) (hd : die < 4) :
    exec (.dieSilentTimeout t die) s = .next ((s.at t).orderReset 1000000) := by
  rw [exec_dieSilentTimeout]
  exact happen_pos (by simp [hr, hd])

/-- A control core that falls silent has Isain restarted (R440). -/
theorem exec_isainHeartbeatMiss_up (hu : s.isainUp = true) (hc : core < 4) :
    exec (.isainHeartbeatMiss t core) s = .next (s.at t).restartIsain := by
  rw [exec_isainHeartbeatMiss]
  exact happen_pos (by simpa [hc] using hu)

/-- A first restart takes Isain down, and is remembered (R440). -/
theorem State.restartIsain_first (hn : s.bay.lastRestart = none) :
    s.restartIsain = s.updBay fun b => { b with
      isainUp := false, lastRestart := some s.tick, mute := s.flights } := by
  simp [State.restartIsain, hn]

/-- A second restart within 10 s leads to a device reset (R440). -/
theorem State.restartIsain_again {k : Nat} (hk : s.bay.lastRestart = some k)
    (ht : s.tick < k + 10000000000) : s.restartIsain = s.orderReset 0 := by
  simp [State.restartIsain, hk, ht]

/-- Isain answers again once its restart is done (R440). -/
theorem exec_isainRestartDone_down (ha : s.alive = true) (hu : s.bay.isainUp = false) {u : State}
    (h : u = ((s.at t).updBay fun b => { b with isainUp := true }).tally Ctr.isainRestart) :
    exec (.isainRestartDone t []) s = .next (u.record 0x0050 4 0 0xFF 2
      [(8, 2), (8, 0), (32, u.counter Ctr.isainRestart 0)]) := by
  subst h
  rw [exec_isainRestartDone]
  exact happen_pos (by simp [ha, hu])

/-- A `CORE` record tells, and changes nothing else (R450). -/
theorem coreRecord_told (unit logical old new sub : Nat) :
    ToldOnly s (s.coreRecord unit logical old new sub) :=
  record_told _ _ _ _ _ _

/-- What a retirement tells changes no core and no cluster. -/
theorem tellRetired_told (unit l old new sub : Nat) :
    ToldOnly s (s.tellRetired unit l old new sub) := by
  unfold State.tellRetired
  dsimp only
  split
  · exact (coreRecord_told _ _ _ _ _).trans (event_told _ _ _ _)
  · exact ((coreRecord_told _ _ _ _ _).trans (event_told _ _ _ _)).trans (event_told _ _ _ _)

/-- The remap table after a logical number of a home core moves onto a spare (R14, R432). -/
theorem State.moveLogical_map (old : Nat) (he : e.state ≠ 2) :
    (s.moveLogical l old e i sp).comp.map =
      tmod (tmod s.comp.map l fun x => { x with
          state := 2, link := i, phys := sp.phys, count := min 15 (x.count + 1) })
        i fun x => { x with state := 5, link := l } := by
  unfold State.moveLogical
  rw [(tellRetired_told _ _ _ _ _).comp, State.leaveSpare, if_neg he]
  rfl

end Spares

/-- Settles O52, clause by clause: clusters, re-initialisation and hung slots, spares and restarts. -/
theorem recoveryAndClusters : Obligations.RecoveryAndClusters := by
  unfold Obligations.RecoveryAndClusters
  refine ⟨fun t h s => ?clusters, fun t part h s => ?reinit, fun t s => ?spares⟩
  case clusters =>
    refine ⟨?_, ?_, fun c l hm hl => ⟨?_, ?_⟩, ?_⟩
    · intro target graceUs clusters u hp0 hready howner hgrace henabled hc hn hu
      exact exec_clusterAssign_pass ⟨hp0, hready, howner, hgrace, henabled⟩ hc hn hu
    · intro target graceUs c hp0 hready howner hgrace henabled hc
      exact exec_clusterAssign_busy ⟨hp0, hready, howner, hgrace, henabled⟩ hc
    · exact exec_reassignGraceExpiry_due hm hl
    · exact fun hr hv => ⟨_, rfl, exec_clusterResetDone_assigned hm hl hr hv rfl⟩
    · exact fun start max hready => exec_coreMapRead_answered hready
  case reinit =>
    refine ⟨?_, fun k hs hr hv hi => ⟨?_, ?_⟩, ?_, ?_, ?_, ?_⟩
    · intro hready ho h0 h64 he _
      exact exec_partitionReinit_pass hready ho h0 h64 he
    · exact exec_reinitRevoke_due hr hv hi
    · exact exec_reinitRevoke_waits hi
    · exact fun slot => exec_orphanSlotFree_free
    · exact exec_hungSlotScan_quiet
    · intro slot hr hi hone hh hc _ hp
      exact exec_hungSlotScan_found hr hi hone hh hc hp
    · exact fun p => exec_hungSlotScan_starts
  case spares =>
    refine ⟨fun core i e hr hf => ⟨?_, _, rfl, ?_⟩, ?_, fun core l e hl he hs => ⟨?_, ?_⟩, ?_, ?_,
      fun core hu hc => ⟨fun hn => ?_, fun k hk ht => ?_⟩, fun ha hu => ?_,
      fun l old i e sp hl hi hli he => ?_⟩
    · exact exec_spareTest_idle hr hf
    · exact exec_spareTest_idle hr hf
    · exact fun core fails => exec_coreRetire_retiring
    · exact State.spareFault_spent hl he hs
    · exact State.arrayFault_spent hl he hs
    · exact fun core => State.selfTestFailed_serving
    · exact fun die => exec_dieSilentTimeout_running
    · refine ⟨_, exec_isainHeartbeatMiss_up hu hc, ?_⟩
      rw [State.restartIsain_first (s := s.at t) hn]
      exact ⟨rfl, rfl, rfl⟩
    · rw [exec_isainHeartbeatMiss_up hu hc, State.restartIsain_again (s := s.at t) hk ht]
    · exact ⟨_, rfl, exec_isainRestartDone_down ha hu rfl⟩
    · rw [State.moveLogical_map old he, tget_tmod, tget_tmod_ne _ _ hli, tget_tmod, hl,
        tget_tmod_ne _ _ hli.symm, hi]
      exact ⟨rfl, rfl⟩

end Sys2Proof.Machine

namespace Sys2Proof.Machine

/-! ### What reset leaves in the tables: nothing, so that each read gives the empty entry -/

@[simp] theorem State.counter_reset (id scope : Nat) : State.reset.counter id scope = 0 := rfl

@[simp] theorem State.ring_reset (n : Nat) : State.reset.ring n = {} := rfl

@[simp] theorem State.slot_reset (k : Nat) : State.reset.slot k = {} := rfl

theorem State.ringMade_reset (n : Nat) : State.reset.ringMade n = false := by
  rw [State.ringMade, State.ring_reset]
  rfl

/-- The model starts with the cold reset input held low, so the package does not run yet. -/
theorem State.alive_reset : State.reset.alive = false := rfl

theorem State.running_of_not_alive {s : State} (h : s.alive = false) : s.running = false := by
  rw [State.running, h, Bool.false_and]

/-- Settles O2: the tables read empty at reset, nothing runs, and each register holds its first value. -/
theorem resetValues : Obligations.ResetValues := by
  unfold Obligations.ResetValues
  have slots (k : Nat) : (State.reset.slot k).state = .free := by rw [State.slot_reset]
  have stopped : State.reset.running = false := State.running_of_not_alive State.alive_reset
  exact ⟨rfl, rfl, State.counter_reset, rfl, rfl, State.ringMade_reset, rfl, slots,
    rfl, rfl, rfl, rfl, rfl, rfl, rfl, rfl, State.alive_reset, stopped⟩

/-! ### Arming the bypass request (R47) -/

section Bypass

variable {s : State}

theorem State.running_of_moving (h : s.moving = true) : s.running = true :=
  (Bool.and_eq_true_iff.mp h).1

theorem State.inService_iff {p : Nat} : s.inService p = true ↔ (s.port p).drain = .inService := by
  rw [State.inService, beq_iff_eq]

/-- The conditions of R47 that `State.canArm` tests, one by one. -/
theorem State.canArm_iff :
    s.canArm = true ↔
      s.moving = true ∧ s.pkg.sdClock = true ∧ s.pairs ≠ [] ∧ s.pkg.bypass.forced = false ∧
      (∀ i ∈ s.members, (s.port (portOf i)).drain = .inService) ∧
      s.closed = false ∧ s.bay.resetDue = none ∧ s.pkg.bypass.reqHigh = false ∧
      s.pkg.bypass.retryDue = none ∧ s.pkg.bypass.holdDue = none ∧ s.pkg.bypass.failRun < 3 := by
  simp [State.canArm, State.inService_iff, and_assoc]

theorem State.tryArm_of_not_canArm (h : s.canArm = false) : s.tryArm = s := by
  rw [State.tryArm, h]
  rfl

/-- Where the pin may go high it does, and a member link that is down starts `bypass_link_timeout`. -/
theorem State.tryArm_of_canArm (h : s.canArm = true) :
    s.tryArm = s.modBypass fun b => { b with
      reqHigh := true
      failRun := if s.memberLinksUp then 0 else b.failRun
      linkDue := if s.memberLinksUp then none else some (s.tick + b.linkTimeout) } := by
  rw [State.tryArm, if_pos h]

/-- A change of the bypass registers is a change of nothing else. -/
theorem State.modBypass_frame (f : Bypass → Bypass) :
    s.modBypass f = { s with pkg := { s.pkg with bypass := (s.modBypass f).pkg.bypass } } := rfl

end Bypass

/-- Settles O11: an attempt to arm is refused whole, or changes the bypass registers alone under every
condition of `State.canArm_iff`. -/
theorem bypassArmsOnlyWhenAllowed : Obligations.BypassArmsOnlyWhenAllowed := by
  unfold Obligations.BypassArmsOnlyWhenAllowed
  refine fun s => ⟨State.tryArm_of_not_canArm, fun hcan => ?_⟩
  obtain ⟨hmoving, hclock, -, hforced, hports, -, -, -, -, -, hfails⟩ := State.canArm_iff.mp hcan
  rw [State.tryArm_of_canArm hcan]
  exact ⟨rfl, State.running_of_moving hmoving, hclock, hforced, hfails, hports,
    State.modBypass_frame _⟩

end Sys2Proof.Machine

namespace Sys2Proof.Machine

/-! ### The replay record of a session (R78) -/

section Replay

variable {x : Session} {seq : Nat}

/-- The replay record holds a `seq`: it lies below the 1,024 that are kept, or it is one of them (R78). -/
def Session.Holds (x : Session) (seq : Nat) : Prop :=
  seq ≤ x.highSeq ∧ (x.highSeq < seq + 1025 → seq ∈ x.seen)

/-- What the record holds is what it no longer accepts. -/
theorem Session.fresh_eq_false_iff : x.fresh seq = false ↔ x.Holds seq := by
  simp [Session.fresh, Session.Holds]

/-- An accepted `seq` is held. -/
theorem Session.holds_accept (x : Session) (seq tick : Nat) : (x.accept seq tick).Holds seq := by
  refine ⟨Nat.le_max_right _ _, fun hwin => List.mem_filter.2 ⟨?_, decide_eq_true hwin⟩⟩
  exact List.mem_append_right _ (List.mem_singleton_self seq)

/-- A held `seq` stays held when another is accepted. -/
theorem Session.Holds.accept (h : x.Holds seq) (other tick : Nat) : (x.accept other tick).Holds seq := by
  obtain ⟨hle, hmem⟩ := h
  refine ⟨hle.trans (Nat.le_max_left _ _), fun hwin => List.mem_filter.2 ⟨?_, decide_eq_true hwin⟩⟩
  exact List.mem_append_left _ (hmem ((Nat.le_max_left _ _).trans_lt hwin))

/-- A held `seq` stays held over every later frame, accepted or not. -/
theorem Session.Holds.foldl_accept (h : x.Holds seq) (later : List (Nat × Nat)) :
    (later.foldl (fun y e => if y.fresh e.1 then y.accept e.1 e.2 else y) x).Holds seq := by
  induction later generalizing x with
  | nil => exact h
  | cons e later ih =>
    rw [List.foldl_cons]
    refine ih ?_
    split
    · exact h.accept e.1 e.2
    · exact h

end Replay

/-- Settles O14: an accepted `seq` is held, and what is held stays so. -/
theorem replayRecordHolds : Obligations.ReplayRecordHolds := by
  unfold Obligations.ReplayRecordHolds
  intro x seq later
  exact Session.fresh_eq_false_iff.2 ((x.holds_accept seq 0).foldl_accept later)

/-! ### What the entries of a `RING_WRITE` touch (R83, R91) -/

section RingWrites

variable {s : State} {n : Nat}

theorem length_leBytes (n v : Nat) : (leBytes n v).length = n := by
  induction n generalizing v with
  | zero => rfl
  | succ n ih => simp [leBytes, ih]

theorem length_wordsBytes (ws : List W64) : (wordsBytes ws).length = ws.length * 8 := by
  simp [wordsBytes, length_leBytes]

/-- An entry lies within its ring (R91). -/
theorem Ring.addr_in_ring (r : Ring) (i : W32) :
    r.baseAddr ≤ r.addr i ∧ r.addr i + r.entryBytes ≤ r.baseAddr + r.bytes := by
  have hslot : i.toNat % r.size + 1 ≤ r.size := Nat.mod_lt _ (Nat.two_pow_pos _)
  have hend := Nat.mul_le_mul_right r.entryBytes hslot
  rw [Nat.succ_mul] at hend
  simp only [Ring.addr, Ring.bytes]
  omega

/-- Reading a word with a fault changes memory's keepers and what is observed. -/
theorem State.readFault_rings (w access : Nat) (f : WordFault) (s : State) :
    (s.readFault w access f).rings = s.rings := by
  cases f
  case flipped | poison => rfl
  case broken =>
    simp only [State.readFault, State.recordUe]
    split
    · rfl
    · rw [State.record_rings]
      rfl

/-- So does the read that a part-word write begins with. -/
theorem State.mergeRead_rings (w : Nat) (s : State) : (s.mergeRead w).rings = s.rings := by
  simp only [State.mergeRead]
  split
  · rfl
  · split <;> exact State.readFault_rings _ _ _ _

/-- Bytes written to device memory change no ring's context. -/
@[simp] theorem State.poke_rings (a : Nat) (bs : List Byte) (s : State) : (s.poke a bs).rings = s.rings := by
  simp only [State.poke, State.updMem_rings]
  generalize partWords a bs.length = l
  induction l generalizing s with
  | nil => rfl
  | cons w l ih => exact (ih _).trans (State.mergeRead_rings w s)

/-- Bytes written keep memory's canonical form (R327). -/
theorem State.poke_wf (h : s.mem.wf = true) (a : Nat) (bs : List Byte) : (s.poke a bs).mem.wf = true := by
  rw [Memory.wf, State.poke_bytes]
  exact memPut_wf bs h (Nat.zero_le a)

/-- One entry of a `RING_WRITE`: passed over below `cons_idx`, else written (R83). -/
def State.writeEntry (n : Nat) (start : W32) (s : State) (e : List W64 × Nat) : State :=
  if idxDiff (start + BitVec.ofNat 32 e.2) (s.ring n).consIdx < 0 then s
  else s.poke ((s.ring n).addr (start + BitVec.ofNat 32 e.2)) (wordsBytes e.1)

theorem State.writeEntries_eq_foldl (n : Nat) (start : W32) (entries : List (List W64)) (s : State) :
    s.writeEntries n start entries = entries.zipIdx.foldl (State.writeEntry n start) s := rfl

theorem State.writeEntry_ring (start : W32) (e : List W64 × Nat) :
    (s.writeEntry n start e).ring n = s.ring n := by
  unfold State.writeEntry
  split
  · rfl
  · rw [State.ring, State.poke_rings, State.ring]

theorem State.writeEntry_wf (h : s.mem.wf = true) (start : W32) (e : List W64 × Nat) :
    (s.writeEntry n start e).mem.wf = true := by
  unfold State.writeEntry
  split
  · exact h
  · exact State.poke_wf h _ _

/-- An entry of the ring's size changes no byte outside the ring. -/
theorem State.writeEntry_outside {a : Nat} {e : List W64 × Nat} (h : s.mem.wf = true) (start : W32)
    (hlen : e.1.length * 8 = (s.ring n).entryBytes)
    (ha : a < (s.ring n).baseAddr ∨ (s.ring n).baseAddr + (s.ring n).bytes ≤ a) :
    memGet (s.writeEntry n start e).mem.bytes a = memGet s.mem.bytes a := by
  unfold State.writeEntry
  split
  · rfl
  · have hin := (s.ring n).addr_in_ring (start + BitVec.ofNat 32 e.2)
    refine State.poke_other h _ _ _ ?_
    rw [length_wordsBytes, hlen]
    omega

/-- Entries of the ring's size change no byte outside the ring: each leaves the ring's place and memory's form
to the next. -/
theorem State.foldl_writeEntry_outside {a : Nat} (start : W32) (l : List (List W64 × Nat)) (h : s.mem.wf = true)
    (hlen : ∀ e ∈ l, e.1.length * 8 = (s.ring n).entryBytes)
    (ha : a < (s.ring n).baseAddr ∨ (s.ring n).baseAddr + (s.ring n).bytes ≤ a) :
    memGet (l.foldl (State.writeEntry n start) s).mem.bytes a = memGet s.mem.bytes a := by
  induction l generalizing s with
  | nil => rfl
  | cons e l ih =>
    have hring := s.writeEntry_ring (n := n) start e
    rw [List.foldl_cons, ih (State.writeEntry_wf h start e)]
    · exact State.writeEntry_outside h start (hlen e (.head _)) ha
    · rw [hring]
      exact fun e he => hlen e (.tail _ he)
    · rwa [hring]

end RingWrites

/-- Settles O15: entry by entry, each within the ring. -/
theorem ringWriteFrame : Obligations.RingWriteFrame := by
  unfold Obligations.RingWriteFrame
  intro n start entries s a hwf hlen ha
  rw [State.writeEntries_eq_foldl]
  refine State.foldl_writeEntry_outside start _ hwf (fun e he => hlen e.1 ?_) ha
  exact List.fst_mem_of_mem_zipIdx he

end Sys2Proof.Machine

namespace Sys2Proof.Machine

/-! ### A session frame on its way in (R73, R77 to R81) -/

section SessionFrames

variable {s u : State} {t want : Nat} {f : OuvHdr} {x : Session} {st : Status}
  {act : Session → State → FrameOut}

/-- A frame reaches the checks of R73: its interface hears it, no stop holds the line ports, and no frame before
it was overrun. -/
structure Arrives (f : OuvHdr) (s : State) : Prop where
  hears : s.hears f.ifc = true
  moves : f.ifc < 4 → s.obs.islandsStopped = false
  fits : f.overrun = false

/-- No stop holds the frame's interface. -/
theorem Arrives.not_stopped (a : Arrives f s) : (s.obs.islandsStopped && decide (f.ifc < 4)) = false := by
  by_cases hline : f.ifc < 4
  · simp [a.moves hline]
  · simp [hline]

theorem Arrives.enter_badHeader (a : Arrives f s) (hb : s.badHeader f want true = true) :
    s.enter f want = .drop Ctr.ouvBadHdr := by
  simp [State.enter, a.hears, a.not_stopped, a.fits, hb]

theorem Arrives.enter_noSession (a : Arrives f s) (hb : s.badHeader f want true = false)
    (hx : s.session f.sid = none) : s.enter f want = .drop Ctr.ouvNoSession := by
  simp [State.enter, a.hears, a.not_stopped, a.fits, hb, hx]

theorem Arrives.enter_tagFail (a : Arrives f s) (hb : s.badHeader f want true = false)
    (hx : s.session f.sid = some x) (htag : f.tagOk = false) : s.enter f want = .drop Ctr.ouvTagFail := by
  simp [State.enter, a.hears, a.not_stopped, a.fits, hb, hx, htag]

theorem Arrives.enter_replay (a : Arrives f s) (hb : s.badHeader f want true = false)
    (hx : s.session f.sid = some x) (htag : f.tagOk = true) (hold : x.Holds f.seq) :
    s.enter f want = .drop Ctr.ouvReplay := by
  simp [State.enter, a.hears, a.not_stopped, a.fits, hb, hx, htag, Session.fresh_eq_false_iff.2 hold]

/-- A dropped frame is counted, and changes nothing else. -/
theorem onFrame_drop {c : Nat} (he : s.enter f want = .drop c) (hc : c ≠ Ctr.rxStopped) :
    s.onFrame t f want act = .next ((s.at t).count c 0) := by
  have he' : (s.at t).enter f want = .drop c := he
  simp [State.onFrame, he', dropScope, hc]

/-- The session of an accepted frame. -/
theorem Accepted.session_eq (a : Accepted t f want x s) : s.session f.sid = some x := by
  have he := a.entry
  unfold State.enter at he
  repeat' split at he
  all_goals cases he
  assumption

/-- An accepted frame whose effect is complete. -/
theorem onFrame_done (a : Accepted t f want x s)
    (h : act (x.accept f.seq (s.at t).tick) (s.heard t f x) = .done u) :
    s.onFrame t f want act = .next (u.ackedBy f) := by
  rw [onFrame_own a, h]
  rfl

/-- An accepted frame that is refused. -/
theorem onFrame_refuse (a : Accepted t f want x s)
    (h : act (x.accept f.seq (s.at t).tick) (s.heard t f x) = .refuse st) :
    s.onFrame t f want act = .next (((s.heard t f x).refuseFrame f.sid f.seq st).closeWorn f.sid) := by
  rw [onFrame_own a, h]
  rfl

/-- An accepted frame without an acknowledgement of its own. -/
theorem onFrame_silent (a : Accepted t f want x s)
    (h : act (x.accept f.seq (s.at t).tick) (s.heard t f x) = .silent u) :
    s.onFrame t f want act = .next (u.closeWorn f.sid) := by
  rw [onFrame_own a, h]
  rfl

/-- A list of checks that all pass comes to the effect. -/
theorem frameChecks_pass {r : FrameOut} : ∀ {l : List (Bool × Status)}, (∀ e ∈ l, e.1 = false) →
    frameChecks l r = r
  | [], _ => rfl
  | (true, _) :: _, hl => nomatch hl _ (.head _)
  | (false, _) :: l, hl => frameChecks_pass (l := l) fun e he => hl e (.tail _ he)

end SessionFrames

/-! ### Set-up frames (R74 to R76) -/

section Setup

variable {s : State} {t want : Nat} {f : OuvHdr} {p c : HelloPart} {y : HelloHeld} {w : HelloFrom} {ct : List Byte}

/-- A set-up frame with a good header acts. -/
theorem Arrives.onSetup {act : State → State} (a : Arrives f s) (hb : s.badHeader f want false = false) :
    s.onSetup t f want act = .next (act (s.at t)) :=
  onSetup_own a.hears a.not_stopped a.fits hb

theorem HelloHeld.same_eq_false (h : ¬(y.ifc = f.ifc ∧ y.host = f.host ∧ y.seq = f.seq)) : y.same f = false := by
  simpa [HelloHeld.same, and_assoc] using h

/-- No part of the sender is held. -/
def State.NoPart (f : OuvHdr) (s : State) : Prop :=
  ∀ y ∈ s.ouv.parts, ¬(y.ifc = f.ifc ∧ y.host = f.host ∧ y.seq = f.seq)

theorem State.NoPart.otherPart (h : s.NoPart f) : s.otherPart f = none :=
  List.find?_eq_none.2 fun y hy => by simp [HelloHeld.same_eq_false (h y hy)]

theorem State.NoPart.filter_parts (h : s.NoPart f) : (s.ouv.parts.filter fun y => !y.same f) = s.ouv.parts :=
  List.filter_eq_self.2 fun y hy => by simp [HelloHeld.same_eq_false (h y hy)]

/-- A lone part waits where fewer than 256 do (R76). -/
theorem State.takeHello_waits (h : s.NoPart f) (hroom : s.ouv.parts.length < 256) :
    s.takeHello f p = s.updOuv fun o => { o with
      parts := o.parts ++ [{ ifc := f.ifc, host := f.host, seq := f.seq, target := f.target
                             tick := s.tick, content := p, tagOk := f.tagOk }] } := by
  unfold State.takeHello
  rw [h.otherPart]
  dsimp only
  rw [h.filter_parts, if_neg (Nat.not_le.2 hroom)]
  rfl

/-- A lone part beyond 256 is dropped (R76). -/
theorem State.takeHello_drops (h : s.NoPart f) (hfull : 256 ≤ s.ouv.parts.length) :
    s.takeHello f p = s.tally Ctr.ouvHelloDrop := by
  unfold State.takeHello
  rw [h.otherPart]
  dsimp only
  rw [h.filter_parts, if_pos hfull]

/-- A sender's parts are let go of. -/
def State.forgetParts (f : OuvHdr) (s : State) : State :=
  s.updOuv fun o => { o with parts := o.parts.filter fun z => !z.same f }

/-- Part 0, where part 1 is held, brings the judgement of R76. -/
theorem State.takeHello_judged (hy : s.otherPart f = some y) (h0 : f.target = 0) :
    s.takeHello f p = (s.forgetParts f).judgeHello (helloFrom f) p (p.ct ++ y.content.ct) (f.tagOk && y.tagOk) := by
  unfold State.takeHello
  rw [hy]
  dsimp only
  rw [if_pos h0]
  rfl

/-- A `HELLO` passes the checks of R76 that need no key: the device opens sessions, also for this partition, which
is enabled and has a key, and the parts were made in this start. -/
structure HelloNamed (w : HelloFrom) (c : HelloPart) (s : State) : Prop where
  opens : s.ouv.helloShut = false
  mode : s.pkg.devState = .recovery → c.part = 0
  start : c.bootNonce = s.ouv.bootNonce
  enabled : (s.part c.part).enabled = true
  key : s.hasKey c.part w.ifc = true

/-- A `HELLO` that fails one of them is refused untagged (R76). -/
theorem State.judgeHello_unnamed {ok : Bool}
    (h : s.ouv.helloShut = true ∨ (s.pkg.devState = .recovery ∧ c.part ≠ 0) ∨ c.bootNonce ≠ s.ouv.bootNonce ∨
      (s.part c.part).enabled = false ∨ s.hasKey c.part w.ifc = false) :
    s.judgeHello w c ct ok = s.refuseHello w none .eState := by
  unfold State.judgeHello
  dsimp only
  split
  · rfl
  split
  · rfl
  split
  · rfl
  split
  · rfl
  next hshut hmode hnonce hkey =>
    have hnamed : ¬((s.part c.part).enabled = false ∨ s.hasKey c.part w.ifc = false) := by simpa using hkey
    exact h.elim (absurd · hshut) fun h => h.elim (absurd · hmode) fun h => h.elim (absurd · hnonce) hnamed.elim

/-- One that passes them comes to the checks of its tags, its rights and the room (R76). -/
theorem HelloNamed.judgeHello {ok : Bool} (g : HelloNamed w c s) :
    s.judgeHello w c ct ok =
      if !ok then s.tally Ctr.ouvTagFail
      else if w.ifc = 4 ∧ c.part ≠ 0 ∧ !(s.part c.part).rights.getLsbD 1 then
        s.refuseHello w (some (s.helloKey c (s.decaps ct))) .ePriv
      else if (s.part c.part).maxSessions ≤ (s.sessionsOf c.part).length ∨
          s.sessionLimit ≤ s.ouv.sessions.length then
        s.refuseHello w (some (s.helloKey c (s.decaps ct))) .eNospace
      else s.acceptHello w c (s.decaps ct) := by
  have hmode : ¬(s.pkg.devState = .recovery ∧ c.part ≠ 0) := fun h => h.2 (g.mode h.1)
  unfold State.judgeHello
  dsimp only
  rw [g.opens, if_neg Bool.false_ne_true, if_neg hmode, if_neg (not_not_intro g.start), g.enabled, g.key]
  rfl

/-- The right that a partition's session on the service port needs is held (R76). -/
theorem rights_pass (h : w.ifc = 4 → c.part = 0 ∨ (s.part c.part).rights.getLsbD 1 = true) :
    ¬(w.ifc = 4 ∧ c.part ≠ 0 ∧ (!(s.part c.part).rights.getLsbD 1) = true) := by
  rintro ⟨h4, h0, hright⟩
  rcases h h4 with h | h
  · exact h0 h
  · rw [h] at hright
    cases hright

/-- With a tag that does not verify it is dropped and counted (R76). -/
theorem HelloNamed.judgeHello_tagFail {ok : Bool} (g : HelloNamed w c s) (hok : ok = false) :
    s.judgeHello w c ct ok = s.tally Ctr.ouvTagFail := by
  rw [g.judgeHello, hok]
  rfl

/-- Without the right that the service port needs it is refused (R76). -/
theorem HelloNamed.judgeHello_ePriv {ok : Bool} (g : HelloNamed w c s) (hok : ok = true) (h4 : w.ifc = 4)
    (hp : c.part ≠ 0) (hr : (s.part c.part).rights.getLsbD 1 = false) :
    s.judgeHello w c ct ok = s.refuseHello w (some (s.helloKey c (s.decaps ct))) .ePriv := by
  rw [g.judgeHello, hok, Bool.not_true, if_neg Bool.false_ne_true, if_pos ⟨h4, hp, by rw [hr]; rfl⟩]

/-- Where its partition or the device holds all the sessions it may, it is refused (R76). -/
theorem HelloNamed.judgeHello_eNospace {ok : Bool} (g : HelloNamed w c s) (hok : ok = true)
    (hr : w.ifc = 4 → c.part = 0 ∨ (s.part c.part).rights.getLsbD 1 = true)
    (hfull : (s.part c.part).maxSessions ≤ (s.sessionsOf c.part).length ∨
      s.sessionLimit ≤ s.ouv.sessions.length) :
    s.judgeHello w c ct ok = s.refuseHello w (some (s.helloKey c (s.decaps ct))) .eNospace := by
  rw [g.judgeHello, hok, Bool.not_true, if_neg Bool.false_ne_true, if_neg (rights_pass hr), if_pos hfull]

/-- Else its session opens (R75, R76). -/
theorem HelloNamed.judgeHello_accepts {ok : Bool} (g : HelloNamed w c s) (hok : ok = true)
    (hr : w.ifc = 4 → c.part = 0 ∨ (s.part c.part).rights.getLsbD 1 = true)
    (hpart : (s.sessionsOf c.part).length < (s.part c.part).maxSessions)
    (hdev : s.ouv.sessions.length < s.sessionLimit) :
    s.judgeHello w c ct ok = s.acceptHello w c (s.decaps ct) := by
  rw [g.judgeHello, hok, Bool.not_true, if_neg Bool.false_ne_true, if_neg (rights_pass hr),
    if_neg (not_or.2 ⟨Nat.not_le.2 hpart, Nat.not_le.2 hdev⟩)]

theorem Arrives.exec_keyFetch (a : Arrives f s) (hb : s.badHeader f 0x4 false = false) :
    exec (.keyFetch t f) s = .next ((s.at t).putOuv none f.ifc f.host 0 0x5 f.seq f.target .ok
      (keyPiece s.ouv.keyRecord f.target) none) := by
  rw [Machine.exec_keyFetch]
  exact a.onSetup hb

theorem Arrives.exec_hello_waits (a : Arrives f s) (hb : s.badHeader f 0x1 false = false) (hn : s.NoPart f)
    (hroom : s.ouv.parts.length < 256) :
    exec (.hello t f p) s = .next ((s.at t).updOuv fun o => { o with
      parts := o.parts ++ [{ ifc := f.ifc, host := f.host, seq := f.seq, target := f.target
                             tick := max s.tick t, content := p, tagOk := f.tagOk }] }) := by
  rw [exec_hello]
  exact (a.onSetup hb).trans (congrArg _ (State.takeHello_waits (s := s.at t) hn hroom))

theorem Arrives.exec_hello_drops (a : Arrives f s) (hb : s.badHeader f 0x1 false = false) (hn : s.NoPart f)
    (hfull : 256 ≤ s.ouv.parts.length) :
    exec (.hello t f p) s = .next ((s.at t).tally Ctr.ouvHelloDrop) := by
  rw [exec_hello]
  exact (a.onSetup hb).trans (congrArg _ (State.takeHello_drops (s := s.at t) hn hfull))

/-- Part 0 of a `HELLO` whose part 1 is held is judged, and both are let go of (R76). -/
theorem Arrives.exec_hello_judged {u : State} (a : Arrives f s) (hb : s.badHeader f 0x1 false = false)
    (hy : s.otherPart f = some y) (h0 : f.target = 0)
    (hu : ((s.at t).forgetParts f).judgeHello (helloFrom f) p (p.ct ++ y.content.ct) (f.tagOk && y.tagOk) = u) :
    exec (.hello t f p) s = .next u := by
  rw [exec_hello, ← hu]
  exact (a.onSetup hb).trans (congrArg _ (State.takeHello_judged (s := s.at t) hy h0))

/-- The session that an accepted `HELLO` opens (R75). -/
def State.helloSession (w : HelloFrom) (c : HelloPart) (ss : BitVec 256) (s : State) : Session :=
  { part := c.part, ifc := w.ifc, port := s.ouv.port, host := w.host
    kH2d := s.frameKey c ss s.deviceNonce s.ouv.nextSid "OUVLEN H2D"
    kD2h := s.frameKey c ss s.deviceNonce s.ouv.nextSid "OUVLEN D2H", lastRx := s.tick, txSeq := 2, txFrames := 1
    credits := s.creditRings c.part }

/-- The state in which it is open, before `ACCEPT` goes out. -/
def State.openHello (w : HelloFrom) (c : HelloPart) (ss : BitVec 256) (s : State) : State :=
  ({ s with freeCount := s.freeCount + 4 }).updOuv fun o => { o with
    nextSid := s.ouv.nextSid + 1, sessions := tset o.sessions s.ouv.nextSid (s.helloSession w c ss) }

theorem State.acceptHello_eq (w : HelloFrom) (c : HelloPart) (ss : BitVec 256) (s : State) :
    s.acceptHello w c ss = (s.openHello w c ss).putOuv (some (s.helloSession w c ss).kD2h) w.ifc w.host
      s.ouv.nextSid 0x2 1 0 .ok s.deviceNonce none := rfl

theorem State.session_openHello (w : HelloFrom) (c : HelloPart) (ss : BitVec 256) (s : State) :
    (s.openHello w c ss).session s.ouv.nextSid = some (s.helloSession w c ss) :=
  tget_tset s.ouv.sessions s.ouv.nextSid _

theorem State.session_openHello_ne (w : HelloFrom) (c : HelloPart) (ss : BitVec 256) (s : State) {sid : Nat}
    (h : sid ≠ s.ouv.nextSid) : (s.openHello w c ss).session sid = s.session sid :=
  tget_tset_ne s.ouv.sessions _ h

end Setup

/-! ### Frames for rings (R83, R93, R94) -/

section RingFrames

variable {s : State} {t n owner : Nat} {f : OuvHdr} {x : Session} {idx : W32} {entries : List (List W64)}

/-- A frame for a cached ring acts at once, but on the service port (R71, R90). -/
theorem State.ringFrame_cached {op : CtxOp} {now : State → FrameOut} (hx : x.ifc ≠ 4)
    (hm : s.ringMade f.target = true) (hc : s.cached f.target = true) :
    s.ringFrame f x op now = now (s.useCtx f.target) := by
  simp [State.ringFrame, hx, hm, hc]

/-- A ring that a session's partition may use: it is made, has no fault, and belongs to it. -/
structure RingOpen (n owner : Nat) (s : State) : Prop where
  made : s.ringMade n = true
  sound : (s.ring n).faulted = false
  owned : (s.ring n).owner = owner

/-- The entries of a `RING_WRITE` have their frame's layout: no more than fit, each of the ring's size (R83). -/
structure WriteForm (r : Ring) (entries : List (List W64)) : Prop where
  side : hostProduced r.rtype = true
  size : ∀ e ∈ entries, e.length * 8 = r.entryBytes
  few : entries.length ≤ r.frameMax

theorem WriteForm.pass {r : Ring} (w : WriteForm r entries) :
    (!hostProduced r.rtype || decide (r.frameMax < entries.length) ||
      entries.any fun e => decide (e.length * 8 ≠ r.entryBytes)) = false := by
  simpa [w.side, w.few] using w.size

/-- Entries below the credit limit are written (R83). -/
theorem State.ringWriteAt_done (o : RingOpen n owner s) (w : WriteForm (s.ring n) entries) {start : W32}
    (hc : ∀ e ∈ entries.zipIdx, idxDiff (start + BitVec.ofNat 32 e.2) (s.ring n).credit < 0) :
    s.ringWriteAt n owner start entries = .done (s.writeEntries n start entries) := by
  have hcredit : (entries.zipIdx.any fun e =>
      decide (0 ≤ idxDiff (start + BitVec.ofNat 32 e.2) (s.ring n).credit)) = false :=
    List.any_eq_false.2 fun e he => by simpa using hc e he
  refine frameChecks_pass ?_
  simp only [w.pass, hcredit]
  simp [o.made, o.sound, o.owned]

/-- With one at or beyond it nothing is written (R83). -/
theorem State.ringWriteAt_refuse (o : RingOpen n owner s) (w : WriteForm (s.ring n) entries) {start : W32}
    (hc : ∃ e ∈ entries.zipIdx, 0 ≤ idxDiff (start + BitVec.ofNat 32 e.2) (s.ring n).credit) :
    s.ringWriteAt n owner start entries = .refuse .eNospace := by
  have hcredit : (entries.zipIdx.any fun e =>
      decide (0 ≤ idxDiff (start + BitVec.ofNat 32 e.2) (s.ring n).credit)) = true :=
    List.any_eq_true.2 (hc.imp fun e he => he.imp_right decide_eq_true)
  unfold State.ringWriteAt
  simp only [w.pass, hcredit]
  simp [frameChecks, o.made, o.sound, o.owned]

/-- A producer index above the last, within the credit, makes entries available (R93). -/
theorem State.produceAt_done (o : RingOpen n owner s) (he : (s.ring n).enabled = true)
    (hp : idxAbove idx (s.ring n).prodIdx = true) (hc : idxAbove idx (s.ring n).credit = false) :
    s.produceAt n owner idx = .done (s.setRing n { s.ring n with
      prodIdx := idx, lastTick := s.tick, avail := (s.ring n).avail ++ [(idx, s.tick)] }) := by
  unfold State.produceAt
  simp [frameChecks, o.made, o.sound, o.owned, he, hp, hc]

/-- One that does not rise is stale (R93). -/
theorem State.produceAt_stale (o : RingOpen n owner s) (he : (s.ring n).enabled = true)
    (hp : idxAbove idx (s.ring n).prodIdx = false) :
    s.produceAt n owner idx = .done (s.tally Ctr.dbStale) := by
  unfold State.produceAt
  simp [frameChecks, o.made, o.sound, o.owned, he, hp]

/-- One beyond the credit is refused (R93). -/
theorem State.produceAt_refuse (o : RingOpen n owner s) (he : (s.ring n).enabled = true)
    (hp : idxAbove idx (s.ring n).prodIdx = true) (hc : idxAbove idx (s.ring n).credit = true) :
    s.produceAt n owner idx = .refuse .eNospace := by
  unfold State.produceAt
  simp [frameChecks, o.made, o.sound, o.owned, he, hp, hc]

/-- A release index between `limit_idx` and `push_idx` frees the entries below it (R94). -/
theorem State.releaseAt_done (o : RingOpen n owner s) (hl : idxAbove idx (s.ring n).limitIdx = true)
    (hp : idxAbove idx (s.ring n).pushIdx = false) :
    s.releaseAt n owner idx = .done ((s.setRing n { s.ring n with
      limitIdx := idx, consIdx := idx
      prot := (s.ring n).prot.filter fun i => !idxAbove idx i }).drainStalled n) := by
  unfold State.releaseAt
  simp [frameChecks, o.made, o.sound, o.owned, hl, hp]

/-- One that does not rise is stale (R94). -/
theorem State.releaseAt_stale (o : RingOpen n owner s) (hl : idxAbove idx (s.ring n).limitIdx = false) :
    s.releaseAt n owner idx = .done (s.tally Ctr.dbStale) := by
  unfold State.releaseAt
  simp [frameChecks, o.made, o.sound, o.owned, hl]

/-- One beyond `push_idx` is refused (R94). -/
theorem State.releaseAt_refuse (o : RingOpen n owner s) (hl : idxAbove idx (s.ring n).limitIdx = true)
    (hp : idxAbove idx (s.ring n).pushIdx = true) :
    s.releaseAt n owner idx = .refuse .eRange := by
  unfold State.releaseAt
  simp [frameChecks, o.made, o.sound, o.owned, hl, hp]

theorem State.doorbellAt_host (hs : hostProduced (s.ring n).rtype = true) :
    s.doorbellAt n owner idx = s.produceAt n owner idx := if_pos hs

theorem State.doorbellAt_device (hs : hostProduced (s.ring n).rtype = false) :
    s.doorbellAt n owner idx = s.releaseAt n owner idx := if_neg (Bool.eq_false_iff.1 hs)

/-- A session's ring is open to it as the frame that names it acts. -/
theorem RingOpen.heard (o : RingOpen f.target x.part s) :
    RingOpen f.target x.part ((s.heard t f x).useCtx f.target) :=
  ⟨o.made, o.sound, o.owned⟩

/-- An accepted frame finds its ring: it came not on the service port, and the ring's context is cached. -/
structure RingHeard (t want : Nat) (f : OuvHdr) (x : Session) (s : State) : Prop where
  accepted : Accepted t f want x s
  line : x.ifc ≠ 4
  cached : s.cached f.target = true
  ring : RingOpen f.target x.part s

/-- What such a frame comes to stands in what its ring's rule answers. -/
theorem RingHeard.ringFrame {want : Nat} {op : CtxOp} {now : State → FrameOut} (r : RingHeard t want f x s) :
    (s.heard t f x).ringFrame f (x.accept f.seq (s.at t).tick) op now =
      now ((s.heard t f x).useCtx f.target) :=
  State.ringFrame_cached (x := x.accept f.seq (s.at t).tick) r.line r.ring.made r.cached

theorem RingHeard.exec_ringWrite_done {start : W32} {u : State} (r : RingHeard t 0x6 f x s)
    (h : ((s.heard t f x).useCtx f.target).ringWriteAt f.target x.part start entries = .done u) :
    exec (.ringWrite t f start entries) s = .next (u.ackedBy f) := by
  rw [exec_ringWrite]
  exact onFrame_done r.accepted (r.ringFrame.trans h)

theorem RingHeard.exec_ringWrite_refuse {start : W32} {st : Status} (r : RingHeard t 0x6 f x s)
    (h : ((s.heard t f x).useCtx f.target).ringWriteAt f.target x.part start entries = .refuse st) :
    exec (.ringWrite t f start entries) s =
      .next (((s.heard t f x).refuseFrame f.sid f.seq st).closeWorn f.sid) := by
  rw [exec_ringWrite]
  exact onFrame_refuse r.accepted (r.ringFrame.trans h)

/-- Both doorbells come to the rule of their ring's side. -/
theorem RingHeard.exec_doorbell_done {u : State} (r : RingHeard t 0x7 f x s)
    (h : ((s.heard t f x).useCtx f.target).doorbellAt f.target x.part idx = .done u) :
    exec (.doorbellProduce t f idx) s = .next (u.ackedBy f) ∧
      exec (.doorbellRelease t f idx) s = .next (u.ackedBy f) := by
  rw [exec_doorbellProduce, exec_doorbellRelease]
  exact ⟨onFrame_done r.accepted (r.ringFrame.trans h), onFrame_done r.accepted (r.ringFrame.trans h)⟩

theorem RingHeard.exec_doorbell_refuse {st : Status} (r : RingHeard t 0x7 f x s)
    (h : ((s.heard t f x).useCtx f.target).doorbellAt f.target x.part idx = .refuse st) :
    exec (.doorbellProduce t f idx) s =
        .next (((s.heard t f x).refuseFrame f.sid f.seq st).closeWorn f.sid) ∧
      exec (.doorbellRelease t f idx) s =
        .next (((s.heard t f x).refuseFrame f.sid f.seq st).closeWorn f.sid) := by
  rw [exec_doorbellProduce, exec_doorbellRelease]
  exact ⟨onFrame_refuse r.accepted (r.ringFrame.trans h), onFrame_refuse r.accepted (r.ringFrame.trans h)⟩

end RingFrames

/-! ### Mailbox frames (R82, R86) -/

section Mailbox

variable {s : State} {t sid opcode : Nat} {f : OuvHdr} {x : Session} {h : CmdHdr}

/-- A mailbox frame that Isain takes delivers its command. -/
theorem exec_mboxReq_delivers {u : State} (a : Accepted t f 0x9 x s) (h0 : f.target = 0) (hu : s.isainUp = true)
    (hd : (s.heard t f x).deliver f.sid (x.accept f.seq (s.at t).tick) { h with via := .mbox f.sid } opcode = u) :
    exec (.mboxReq t f h opcode) s = .next (u.ackedBy f) := by
  have hup : (s.heard t f x).isainUp = true := hu
  rw [exec_mboxReq, ← hd]
  exact onFrame_done a (by simp [h0, hup])

/-- No command of the session is in flight under the number. -/
theorem inflight_none (hn : ∀ e ∈ x.inflight, e.1 ≠ h.seq) :
    (x.inflight.any fun e => e.1 == h.seq) = false :=
  List.any_eq_false.2 fun e he => by simpa using hn e he

theorem inflight_some (hs : ∃ e ∈ x.inflight, e.1 = h.seq) :
    (x.inflight.any fun e => e.1 == h.seq) = true :=
  List.any_eq_true.2 (hs.imp fun _ he => he.imp_right beq_iff_eq.2)

/-- A command taken is held in flight (R86). -/
def State.takeCommand (sid seq opcode : Nat) (s : State) : State :=
  s.modSession sid fun y => { y with inflight := y.inflight ++ [(seq, opcode)] }

/-- A new number below 16 in flight is held; whether its opcode is one comes after (R86). -/
theorem State.deliver_held (hc : aget x.cache h.seq = none) (hn : ∀ e ∈ x.inflight, e.1 ≠ h.seq)
    (hl : x.inflight.length < 16) :
    s.deliver sid x h opcode = if opcode ∈ opcodes then s.takeCommand sid h.seq opcode
      else (s.takeCommand sid h.seq opcode).answer h opcode .eArg noDetail [] := by
  unfold State.deliver
  rw [hc]
  dsimp only
  rw [inflight_none hn, if_neg Bool.false_ne_true, if_neg (Nat.not_le.2 hl)]
  simp only [List.contains_iff_mem]
  rfl

/-- A command with a new number is held in flight (R86). -/
theorem State.deliver_new (hc : aget x.cache h.seq = none) (hn : ∀ e ∈ x.inflight, e.1 ≠ h.seq)
    (hl : x.inflight.length < 16) (hop : opcode ∈ opcodes) :
    s.deliver sid x h opcode = s.takeCommand sid h.seq opcode := by
  rw [State.deliver_held hc hn hl, if_pos hop]

/-- One that no table gives is refused then (R86). -/
theorem State.deliver_unknown (hc : aget x.cache h.seq = none) (hn : ∀ e ∈ x.inflight, e.1 ≠ h.seq)
    (hl : x.inflight.length < 16) (hop : opcode ∉ opcodes) :
    s.deliver sid x h opcode = (s.takeCommand sid h.seq opcode).answer h opcode .eArg noDetail [] := by
  rw [State.deliver_held hc hn hl, if_neg hop]

/-- A repeat of a command in flight does nothing (R82). -/
theorem State.deliver_repeat (hc : aget x.cache h.seq = none) (hs : ∃ e ∈ x.inflight, e.1 = h.seq) :
    s.deliver sid x h opcode = s := by
  unfold State.deliver
  rw [hc]
  dsimp only
  rw [if_pos (inflight_some hs)]

/-- A repeat of one answered gets the kept response (R82). -/
theorem State.deliver_kept {r : Status × List Nat} (hc : aget x.cache h.seq = some r) :
    s.deliver sid x h opcode = s.sendOuv sid 0xA 0 r.1 r.2 := by
  unfold State.deliver
  rw [hc]

/-- A seventeenth command gets `BUSY` (R86). -/
theorem State.deliver_busy (hc : aget x.cache h.seq = none) (hn : ∀ e ∈ x.inflight, e.1 ≠ h.seq)
    (hl : 16 ≤ x.inflight.length) :
    s.deliver sid x h opcode =
      s.sendOuv sid 0xA 0 .busy (respWords h opcode 0 .busy noDetail s.tick []) := by
  unfold State.deliver
  rw [hc]
  dsimp only
  rw [inflight_none hn, if_neg Bool.false_ne_true, if_pos hl]

end Mailbox

/-! ### Frames that the K4 sends (R72, R78, R83, R171) -/

section Sending

variable {s : State} {sid ifc len : Nat} {x : Session} {e : Sent}

/-- The service port has no queue (R71). -/
theorem State.emit_service (h : 4 ≤ ifc) : s.emit ifc len e = s.out e := if_pos h

/-- On a line interface a frame waits in the control queue, where the buffer has room (R171). -/
theorem State.emit_queued (h : ifc < 4) (hb : s.bufferUse + len ≤ s.sharedBuffer) :
    (s.emit ifc len e).sent = s.sent ∧ (tgetD (s.emit ifc len e).eg.queues (qKey ifc 8) {}).ctl =
      (tgetD s.eg.queues (qKey ifc 8) {}).ctl ++ [(s.tick, len, e)] := by
  rw [State.emit, if_neg (Nat.not_le.2 h), if_neg (Nat.not_lt.2 hb)]
  simp

/-- With the buffer full it is counted and lost (R171). -/
theorem State.emit_dropped (h : ifc < 4) (hb : s.sharedBuffer < s.bufferUse + len) :
    s.emit ifc len e = s.count Ctr.txCtlDrop ifc := by
  rw [State.emit, if_neg (Nat.not_le.2 h), if_pos hb]

/-- No frame put on its way changes a session. -/
@[simp] theorem State.emit_ouv (ifc len : Nat) (e : Sent) (s : State) : (s.emit ifc len e).ouv = s.ouv := by
  unfold State.emit
  split
  · rfl
  · split <;> rfl

@[simp] theorem State.putOuv_ouv (key : Option (BitVec 256)) (ifc : Nat) (host : BitVec 128)
    (sid ftype seq target : Nat) (st : Status) (words : List Nat) (credit : Option (Nat × W32)) (s : State) :
    (s.putOuv key ifc host sid ftype seq target st words credit).ouv = s.ouv :=
  State.emit_ouv _ _ _ _

/-- Another session keeps its value. -/
theorem State.session_modSession_ne {k : Nat} (g : Session → Session) (h : k ≠ sid) :
    (s.modSession sid g).session k = s.session k :=
  tget_tmod_ne s.ouv.sessions g h

/-- A session's frame takes its number, and one credit limit that is due (R78, R83). -/
theorem State.sendFrame_eq {ftype target : Nat} {st : Status} {words : List Nat} (hx : s.session sid = some x) :
    s.sendFrame sid ftype target st words =
      (s.modSession sid fun y => { y.sent with credits := y.credits.drop 1 }).putOuv (some x.kD2h) x.ifc x.host
        sid ftype x.txSeq target st words (s.creditFor x) := by
  unfold State.sendFrame
  rw [hx]

theorem State.session_sendFrame {ftype target : Nat} {st : Status} {words : List Nat}
    (hx : s.session sid = some x) :
    (s.sendFrame sid ftype target st words).session sid = some { x with
      txSeq := x.txSeq + 1, txFrames := x.txFrames + 1, credits := x.credits.drop 1 } := by
  rw [State.sendFrame_eq hx, State.session, State.putOuv_ouv]
  exact (s.session_modSession sid _).trans (by rw [hx]; rfl)

theorem State.session_sendFrame_ne {ftype target k : Nat} {st : Status} {words : List Nat} (hk : k ≠ sid) :
    (s.sendFrame sid ftype target st words).session k = s.session k := by
  cases hx : s.session sid with
  | none => simp [State.sendFrame, hx]
  | some x =>
    rw [State.sendFrame_eq hx, State.session, State.putOuv_ouv]
    exact State.session_modSession_ne _ hk

/-- A session that either direction has not worn out stays open (R77). -/
theorem State.closeWorn_of_not_worn (hx : s.session sid = some x) (hw : x.worn = false) : s.closeWorn sid = s := by
  simp [State.closeWorn, hx, hw]

theorem State.closeWorn_of_none (hx : s.session sid = none) : s.closeWorn sid = s := by
  simp [State.closeWorn, hx]

theorem Session.worn_eq_false (hr : x.rxFrames < 2 ^ 48) (ht : x.txFrames < 2 ^ 48) : x.worn = false :=
  Bool.or_eq_false_iff.2 ⟨decide_eq_false (Nat.not_le.2 hr), decide_eq_false (Nat.not_le.2 ht)⟩

end Sending

/-! ### Windows (R84, R85) -/

section Windows

variable {s : State} {t offset len right : Nat} {f : OuvHdr} {x : Session} {w : Window}

/-- An access has whole words and a length that a window serves (R84). -/
structure AccessForm (offset len : Nat) : Prop where
  start : offset % 4 = 0
  whole : len % 4 = 0
  least : 4 ≤ len
  most : len ≤ 8192

theorem AccessForm.pass (a : AccessForm offset len) : ¬(offset % 4 ≠ 0 ∨ len % 4 ≠ 0 ∨ len < 4 ∨ 8192 < len) := by
  obtain ⟨h1, h2, h3, h4⟩ := a
  omega

theorem windowCheck_pass (hr : w.rights.testBit right = true) (a : AccessForm offset len)
    (hl : offset + len ≤ w.pages * 4096) (hs : inSoftware (w.base + offset) len = true) :
    windowCheck (some w) right offset len = none := by
  simp only [windowCheck, hr, hs, if_neg a.pass, if_neg (Nat.not_lt.2 hl)]
  rfl

theorem windowCheck_ePriv (hr : w.rights.testBit right = false) :
    windowCheck (some w) right offset len = some .ePriv := by
  simp [windowCheck, hr]

theorem windowCheck_eRange (hr : w.rights.testBit right = true) (a : AccessForm offset len)
    (ho : w.pages * 4096 < offset + len ∨ inSoftware (w.base + offset) len = false) :
    windowCheck (some w) right offset len = some .eRange := by
  simp only [windowCheck, hr, if_neg a.pass]
  rcases ho with ho | ho
  · simp [ho]
  · simp [ho]

/-- What a `WINDOW_OPEN` of a free window comes to where its values are in range (R84). -/
theorem windowOpen_checks {part win rights base pages : Nat} {r : Reply} (hp : part < 64) (hw : win < 16)
    (hr1 : 1 ≤ rights) (hr3 : rights ≤ 3) (hb : base % 4096 = 0) (hp1 : 1 ≤ pages) (hpm : pages ≤ 16777216)
    (hs : inSoftware base (pages * 4096) = true) (hfree : tget s.ouv.windows (winKey part win) = none) :
    checks [(decide (64 ≤ part) || decide (16 ≤ win), .eRange),
      (decide (rights = 0) || decide (4 ≤ rights) || decide (base % 4096 ≠ 0), .eArg),
      (decide (pages = 0) || decide (16777216 < pages), .eRange), (!inSoftware base (pages * 4096), .eRange),
      ((tget s.ouv.windows (winKey part win)).isSome, .eState)] r = r := by
  have hr0 : rights ≠ 0 := Nat.pos_iff_ne_zero.1 hr1
  have hp0 : pages ≠ 0 := Nat.pos_iff_ne_zero.1 hp1
  simp [checks, Nat.not_le.2 hp, Nat.not_le.2 hw, hr0, Nat.not_le.2 (Nat.lt_succ_of_le hr3), hb, hp0,
    Nat.not_lt.2 hpm, hs, hfree]

/-- The window that an accepted frame names. -/
theorem State.windowOf_heard (h16 : f.target < 16) (hw : tget s.ouv.windows (winKey x.part f.target) = some w) :
    (s.heard t f x).windowOf f (x.accept f.seq (s.at t).tick) = some w :=
  (if_pos h16).trans hw

theorem exec_winWrite_done {data : List Byte} (a : Accepted t f 0xB x s) (h16 : f.target < 16)
    (hw : tget s.ouv.windows (winKey x.part f.target) = some w)
    (hc : windowCheck (some w) 1 offset data.length = none) :
    exec (.winWrite t f offset data) s =
      .next (((s.heard t f x).windowPoke (w.base + offset) data).ackedBy f) := by
  rw [exec_winWrite]
  refine onFrame_done a ?_
  simp only [State.windowOf_heard h16 hw, hc]
  rfl

theorem exec_winWrite_refuse {data : List Byte} {st : Status} (a : Accepted t f 0xB x s) (h16 : f.target < 16)
    (hw : tget s.ouv.windows (winKey x.part f.target) = some w)
    (hc : windowCheck (some w) 1 offset data.length = some st) :
    exec (.winWrite t f offset data) s =
      .next (((s.heard t f x).refuseFrame f.sid f.seq st).closeWorn f.sid) := by
  rw [exec_winWrite]
  refine onFrame_refuse a ?_
  simp only [State.windowOf_heard h16 hw, hc]

theorem exec_winRead_done (a : Accepted t f 0xC x s) (h16 : f.target < 16)
    (hw : tget s.ouv.windows (winKey x.part f.target) = some w)
    (hc : windowCheck (some w) 0 offset len = none) :
    exec (.winRead t f offset len) s = .next ((if s.mem.readable (w.base + offset) len then
        ((s.heard t f x).touch (w.base + offset) len 0).sendOuv f.sid 0xD f.target .ok
          (offset :: dataWords (s.bytesAt (w.base + offset) len))
      else ((s.heard t f x).touch (w.base + offset) len 0).sendOuv f.sid 0xD f.target .eFault
          [offset]).ackedBy f) := by
  rw [exec_winRead]
  refine onFrame_done a ?_
  simp only [State.windowOf_heard h16 hw, hc]
  exact (apply_ite FrameOut.done _ _ _).symm

end Windows

/-! ### The end of a session, its acknowledgements and credits (R77, R81, R83) -/

section Upkeep

variable {s : State} {t sid : Nat} {x : Session}

@[simp] theorem State.session_endSession : (s.endSession sid).session sid = none :=
  tget_tdel s.ouv.sessions sid

theorem State.session_endSession_ne {k : Nat} (hk : k ≠ sid) : (s.endSession sid).session k = s.session k :=
  tget_tdel_ne s.ouv.sessions hk

/-- A session's end changes the sessions, its rings' pushes and the update lock. -/
theorem State.endSession_frame : s.endSession sid =
    { s with ouv := (s.endSession sid).ouv, rings := (s.endSession sid).rings, bay := (s.endSession sid).bay } := rfl

/-- A host's `CLOSE` ends its session, and is not answered (R77). -/
theorem exec_hostClose_ends {f : OuvHdr} {st : Nat} (a : Accepted t f 0xF x s) :
    exec (.hostClose t f st) s = .next ((s.heard t f x).endSession f.sid) := by
  rw [exec_hostClose]
  refine (onFrame_silent a rfl).trans ?_
  rw [State.closeWorn_of_none State.session_endSession]

/-- A session idle for too long is closed (R77). -/
theorem exec_sessionIdleTimeout_due (hx : s.session sid = some x) (ha : s.alive = true)
    (hd : x.lastRx + s.ouv.idleTimeout ≤ max s.tick t) :
    exec (.sessionIdleTimeout t sid) s =
      .next (((s.at t).sendFrame sid 0xF 0 .eTimeout []).endSession sid) := by
  rw [exec_sessionIdleTimeout]
  exact happen_pos (by simpa [ha, hx] using hd)

/-- An `ACK` carries the first 32 refusals. -/
theorem ackWords_refusals (x : Session) : (ackWords x).2.2 = x.refusals.drop 32 := by
  unfold ackWords
  split <;> rfl

/-- With nothing owed, an `ACK` has the highest `seq` and an empty map. -/
theorem ackWords_bare (ha : x.acks = []) (hr : x.refusals = []) : (ackWords x).1 = [x.highSeq, 0] := by
  simp [ackWords, ha, hr]

/-- A session's acknowledgements and refusals taken off it, for the `ACK` that carries them. -/
def State.takeAcks (sid : Nat) (x : Session) (s : State) : State :=
  s.modSession sid fun z => { z with acks := (ackWords x).2.1, refusals := x.refusals.drop 32 }

theorem State.session_takeAcks (hx : s.session sid = some x) : (s.takeAcks sid x).session sid =
    some { x with acks := (ackWords x).2.1, refusals := x.refusals.drop 32 } :=
  (s.session_modSession sid _).trans (by rw [hx]; rfl)

/-- An `ACK` of a session that has frames left goes out, and leaves it open (R77, R81). -/
theorem State.sendAck_eq (hx : s.session sid = some x) (hr : x.rxFrames < 2 ^ 48) (ht : x.txFrames + 1 < 2 ^ 48) :
    s.sendAck sid = (s.takeAcks sid x).sendFrame sid 0xE 0 .ok (ackWords x).1 := by
  have hsend : s.sendAck sid = (s.takeAcks sid x).sendOuv sid 0xE 0 .ok (ackWords x).1 := by
    unfold State.sendAck
    rw [hx]
    dsimp only
    rw [ackWords_refusals]
    rfl
  rw [hsend, State.sendOuv]
  exact State.closeWorn_of_not_worn (State.session_sendFrame (State.session_takeAcks hx))
    (Session.worn_eq_false hr ht)

/-- A session that owes acknowledgements or refusals sends them (R81). -/
theorem exec_ackSend_owing (hx : s.session sid = some x) (ha : s.alive = true)
    (ho : x.acks ≠ [] ∨ x.refusals ≠ []) (hr : x.rxFrames < 2 ^ 48) (ht : x.txFrames + 1 < 2 ^ 48) :
    exec (.ackSend t sid) s =
      .next (((s.at t).takeAcks sid x).sendFrame sid 0xE 0 .ok (ackWords x).1) := by
  rw [exec_ackSend, ← State.sendAck_eq (s := s.at t) hx hr ht]
  exact happen_pos (by simpa [ha, hx, -not_and, ← not_and_or] using ho)

/-- A session with a ring's credit limit first among those due. -/
def Session.creditFirst (ring : Nat) (x : Session) : Session :=
  { x with credits := ring :: x.credits.filter (· != ring) }

theorem State.session_creditFirst (hx : s.session sid = some x) (ring : Nat) :
    (s.modSession sid (Session.creditFirst ring)).session sid = some (x.creditFirst ring) :=
  (s.session_modSession sid _).trans (by rw [hx]; rfl)

/-- A credit limit that is due goes out in an `ACK` (R83). -/
theorem exec_creditAck_due {ring : Nat} (hx : s.session sid = some x) (ha : s.alive = true)
    (hc : ring ∈ x.credits) (hr : x.rxFrames < 2 ^ 48) (ht : x.txFrames + 1 < 2 ^ 48) :
    exec (.creditAck t sid ring) s =
      .next ((((s.at t).modSession sid (Session.creditFirst ring)).takeAcks sid (x.creditFirst ring)).sendFrame
        sid 0xE 0 .ok (ackWords (x.creditFirst ring)).1) := by
  rw [exec_creditAck, ← State.sendAck_eq (State.session_creditFirst (s := s.at t) hx ring) hr ht]
  exact happen_pos (by simpa [ha, hx] using hc)

end Upkeep

/-- Settles O13, clause by clause: dropped frames, session set-up, ring writes, doorbells, the mailbox, frames to
the host, windows, and a session's upkeep. -/
theorem sessionsOfOuvlen : Obligations.SessionsOfOuvlen := by
  unfold Obligations.SessionsOfOuvlen
  refine ⟨fun t f want i s hi hh hm ho => ?drops, fun t f p s hh hm ho => ?setup,
    fun t f start entries x s ha hx hc hr hf hown hside hsize hfew => ?writes,
    fun t f p x s ha hx hc hr hf hown => ?doorbells, fun t opcode f h x s ha h0 hu => ?mailbox,
    fun sid ftype target st words x s pay frame hx hpay hframe => ?frames, fun t offset f x w h s => ?windows,
    fun t sid s x hx => ?upkeep⟩
  case drops =>
    have a : Arrives f (s.at t) := ⟨hh, hm, ho⟩
    obtain ⟨act, hexec⟩ : ∃ act, exec i s = s.onFrame t f want act := by
      rcases hi with ⟨_, _, h⟩ | ⟨_, h⟩ | ⟨_, h⟩ | ⟨_, _, h⟩ | ⟨_, _, h⟩ | ⟨_, _, h⟩ | ⟨_, h⟩ | ⟨_, h⟩ | ⟨_, h⟩
      all_goals cases h
      exacts [⟨_, exec_ringWrite s t f _ _⟩, ⟨_, exec_doorbellProduce s t f _⟩, ⟨_, exec_doorbellRelease s t f _⟩,
        ⟨_, exec_mboxReq s t f _ _⟩, ⟨_, exec_winWrite s t f _ _⟩, ⟨_, exec_winRead s t f _ _⟩,
        ⟨_, exec_hostClose s t f _⟩, ⟨_, exec_flowTableLockSet s t f _⟩, ⟨_, exec_flowTableLockClear s t f _⟩]
    rw [hexec]
    refine ⟨fun hb => ?_, fun hb hx => ?_, fun x hb hx => ⟨fun htag => ?_, fun htag hle hmem => ?_⟩⟩
    · exact onFrame_drop (a.enter_badHeader hb) (by decide)
    · exact onFrame_drop (a.enter_noSession hb hx) (by decide)
    · exact onFrame_drop (a.enter_tagFail hb hx htag) (by decide)
    · exact onFrame_drop (a.enter_replay hb hx htag ⟨hle, hmem⟩) (by decide)
  case setup =>
    have a : Arrives f s := ⟨hh, hm, ho⟩
    refine ⟨a.exec_keyFetch, fun hb hn => ⟨a.exec_hello_waits hb hn, a.exec_hello_drops hb hn⟩,
      fun y u ss hb hy h0 hu hss => ?_, fun ifc seq halive => ?_⟩
    · have judged {v : State} := a.exec_hello_judged (t := t) (p := p) (u := v) hb hy h0
      subst hu hss
      refine ⟨fun hbad => judged (State.judgeHello_unnamed hbad), fun hopen hmode hnonce hen hkey => ?_⟩
      have g : HelloNamed (helloFrom f) p ((s.at t).forgetParts f) := ⟨hopen, hmode, hnonce, hen, hkey⟩
      refine ⟨fun htags => judged (g.judgeHello_tagFail htags), fun htags => ⟨fun h4 hp hright => ?_,
        fun hright => ⟨fun hfull => ?_, fun hpart hdev => ?_⟩⟩⟩
      · exact judged (g.judgeHello_ePriv htags h4 hp hright)
      · exact judged (g.judgeHello_eNospace htags hright hfull)
      · have accepts := judged (g.judgeHello_accepts htags hright hpart hdev)
        rw [State.acceptHello_eq] at accepts
        exact ⟨((s.at t).forgetParts f).openHello (helloFrom f) p (s.decaps (p.ct ++ y.content.ct)),
          ((s.at t).forgetParts f).helloSession (helloFrom f) p (s.decaps (p.ct ++ y.content.ct)), s.deviceNonce,
          rfl, accepts, State.session_openHello _ _ _ _, rfl, rfl, rfl, rfl, rfl, rfl, rfl, rfl, rfl, rfl,
          fun sid hsid => State.session_openHello_ne _ _ _ _ hsid, rfl⟩
    · rw [exec_helloPartExpiry]
      exact happen_pos halive
  case writes =>
    have r : RingHeard t 0x6 f x s := ⟨ha, hx, hc, hr, hf, hown⟩
    have form : WriteForm (((s.heard t f x).useCtx f.target).ring f.target) entries := ⟨hside, hsize, hfew⟩
    refine ⟨fun hbelow => ?_, fun hbeyond => ?_⟩
    · exact r.exec_ringWrite_done (State.ringWriteAt_done r.ring.heard form hbelow)
    · exact r.exec_ringWrite_refuse (State.ringWriteAt_refuse r.ring.heard form hbeyond)
  case doorbells =>
    have r : RingHeard t 0x7 f x s := ⟨ha, hx, hc, hr, hf, hown⟩
    refine ⟨fun hside hen => ?_, fun hside => ?_⟩
    · have host := State.doorbellAt_host (s := (s.heard t f x).useCtx f.target) (owner := x.part) (idx := p) hside
      refine ⟨fun hp hcr => ?_, fun hp => ?_, fun hp hcr => ?_⟩
      · exact (r.exec_doorbell_done (host.trans (State.produceAt_done r.ring.heard hen hp hcr))).1
      · exact (r.exec_doorbell_done (host.trans (State.produceAt_stale r.ring.heard hen hp))).1
      · exact (r.exec_doorbell_refuse (host.trans (State.produceAt_refuse r.ring.heard hen hp hcr))).1
    · have device := State.doorbellAt_device (s := (s.heard t f x).useCtx f.target) (owner := x.part) (idx := p) hside
      refine ⟨fun hl hp => ?_, fun hl => ?_, fun hl hp => ?_⟩
      · exact (r.exec_doorbell_done (device.trans (State.releaseAt_done r.ring.heard hl hp))).2
      · exact (r.exec_doorbell_done (device.trans (State.releaseAt_stale r.ring.heard hl))).2
      · exact (r.exec_doorbell_refuse (device.trans (State.releaseAt_refuse r.ring.heard hl hp))).2
  case mailbox =>
    have delivers {v : State} := exec_mboxReq_delivers (opcode := opcode) (h := h) (u := v) ha h0 hu
    refine ⟨fun hc hn hl hop => ?_, fun hc hs => ?_, fun hc hn hl hop => ?_, fun r hc => ?_, fun hc hn hl => ?_⟩
    · exact delivers (State.deliver_new hc hn hl hop)
    · exact delivers (State.deliver_repeat hc hs)
    · exact delivers (State.deliver_unknown hc hn hl hop)
    · exact delivers (State.deliver_kept hc)
    · exact delivers (State.deliver_busy hc hn hl)
  case frames =>
    subst hpay hframe
    refine ⟨State.session_sendFrame hx, fun k => State.session_sendFrame_ne, ?_⟩
    rw [State.sendFrame_eq hx, State.putOuv]
    refine ⟨fun h4 => ?_, fun hline hroom => ?_, fun hline hfull => ?_⟩
    · rw [State.emit_service h4.ge]
      exact ⟨rfl, rfl⟩
    · exact State.emit_queued hline hroom
    · rw [State.emit_dropped hline]
      · exact ⟨rfl, rfl, State.counter_countN _ _ _ _⟩
      · exact hfull
  case windows =>
    refine ⟨fun part win rights base pages r h0 hp hw hr1 hr3 hb hp1 hpm hsoft hfree => ?_,
      fun part win r h0 hp hw => ?_, fun ha h16 hw data => ⟨fun hr ho hd h4 hmax hl hs => ?_, fun hr => ?_,
      fun hr ho hd h4 hmax hout => ?_⟩, fun ha h16 hw len hr ho hd h4 hmax hl hs => ?_⟩
    · rw [exec_windowOpen]
      exact isain_done r rfl rfl (by simp [isP0, h0]) (windowOpen_checks hp hw hr1 hr3 hb hp1 hpm hsoft hfree)
    · rw [exec_windowClose]
      exact isain_done r rfl rfl (by simp [isP0, h0]) (if_neg (by omega))
    · exact exec_winWrite_done ha h16 hw (windowCheck_pass hr ⟨ho, hd, h4, hmax⟩ hl hs)
    · exact exec_winWrite_refuse ha h16 hw (windowCheck_ePriv hr)
    · exact exec_winWrite_refuse ha h16 hw (windowCheck_eRange hr ⟨ho, hd, h4, hmax⟩ hout)
    · rw [exec_winRead_done ha h16 hw (windowCheck_pass hr ⟨ho, hd, h4, hmax⟩ hl hs)]
      exact ⟨fun hread => by rw [if_pos hread], fun hread => by rw [if_neg (Bool.eq_false_iff.1 hread)]⟩
  case upkeep =>
    refine ⟨fun f st hf ha => ?_, fun halive hdue => ?_, fun halive howes hrx htx => ?_,
      fun ring halive hc hrx htx => ?_⟩
    · subst hf
      refine ⟨_, exec_hostClose_ends ha, State.session_endSession, rfl, fun k hk => ?_⟩
      exact (State.session_endSession_ne hk).trans (State.session_modSession_ne _ hk)
    · refine ⟨_, _, rfl, exec_sessionIdleTimeout_due hx halive hdue, State.session_endSession, fun k hk => ?_,
        State.endSession_frame⟩
      exact (State.session_endSession_ne hk).trans (State.session_sendFrame_ne hk)
    · refine ⟨_, _, _, rfl, exec_ackSend_owing hx halive howes hrx htx, rfl,
        State.session_sendFrame (State.session_takeAcks (s := s.at t) hx), rfl, rfl, rfl, rfl⟩
    · have htake := State.session_takeAcks (State.session_creditFirst (s := s.at t) hx ring)
      exact ⟨_, _, _, _, exec_creditAck_due hx halive hc hrx htx, rfl, ⟨_, htake, rfl⟩, rfl,
        State.session_sendFrame htake, rfl, fun hacks hrefs => ackWords_bare hacks hrefs⟩

end Sys2Proof.Machine

namespace Sys2Proof.Machine

/-! ### Frames from a line (R46, R55, R64 to R66, R113, R115) -/

section Reception

variable {s u : State} {t ifc : Nat} {bytes : List Byte} {fcsOk : Bool} {sec : MacsecIn}

/-- A line interface takes frames: the device runs on its SerDes clock, and the interface has a role. -/
structure Receives (ifc : Nat) (s : State) : Prop where
  running : s.running = true
  clock : s.pkg.sdClock = true
  line : ifc ∈ s.lineIfcs
  role : (s.ifc ifc).role ≠ 0

/-- No stop holds the islands, and the interface's link does not train. -/
structure LinkUp (ifc : Nat) (s : State) : Prop where
  moves : s.obs.islandsStopped = false
  link : (s.ifc ifc).link = true

/-- A frame's length with its FCS lies between 64 and `max_frame`. -/
structure Sized (ifc : Nat) (bytes : List Byte) (s : State) : Prop where
  least : 64 ≤ bytes.length + 4
  most : bytes.length + 4 ≤ (s.ifc ifc).maxFrame

theorem Receives.step15 (r : Receives ifc s) : s.bay.step15 = true := (Bool.and_eq_true_iff.1 r.running).2

/-- The event of a frame on such an interface comes to the MAC's checks. -/
theorem Receives.guard (r : Receives ifc s) : ((s.at t).alive && ((s.at t).bay.step15 ||
    (tget (s.at t).bay.loaded 5).isSome) && (s.at t).pkg.sdClock && (s.at t).lineIfcs.contains ifc &&
    ((s.at t).ifc ifc).role != 0) = true := by
  have halive : s.alive = true := (Bool.and_eq_true_iff.1 r.running).1
  simp [halive, r.step15, r.clock, r.line, r.role]

/-- A frame that comes in a stop, or while the link trains, is dropped and counted (R46). -/
theorem Receives.exec_stopped (r : Receives ifc s) (h : s.obs.islandsStopped = true ∨ (s.ifc ifc).link = false) :
    exec (.frameReceive t ifc bytes fcsOk sec) s = .next ((s.at t).count Ctr.rxStopped ifc) := by
  rw [exec_frameReceive]
  refine (happen_pos r.guard).trans (congrArg _ (if_pos ?_))
  rcases h with h | h <;> simp [h]

/-- With its link up, what stops no frame passes the MAC's first check. -/
theorem LinkUp.pass (r : Receives ifc s) (l : LinkUp ifc s) :
    ¬((!(s.at t).bay.step15 || (s.at t).obs.islandsStopped || !((s.at t).ifc ifc).link) = true) := by
  simp [r.step15, l.moves, l.link]

/-- What the MAC makes of a frame on a link that is up: its length, its FCS and its protection are checked (R55,
R66). -/
def State.macReceive (ifc : Nat) (bytes : List Byte) (fcsOk : Bool) (sec : MacsecIn) (s : State) : State :=
  if bytes.length + 4 < 64 then s.count Ctr.rxRunt ifc
  else if (s.ifc ifc).maxFrame < bytes.length + 4 then s.count Ctr.rxOversize ifc
  else if !fcsOk then s.count Ctr.rxFcs ifc
  else match s.macsecPass ifc bytes sec with
    | some u => u.takeFrame ifc bytes
    | none => s.count (if sec = .none then Ctr.rxMacsecUnprot else Ctr.rxMacsecFail) ifc

theorem Receives.exec_linkUp (r : Receives ifc s) (l : LinkUp ifc s) :
    exec (.frameReceive t ifc bytes fcsOk sec) s = .next ((s.at t).macReceive ifc bytes fcsOk sec) := by
  rw [exec_frameReceive]
  exact (happen_pos r.guard).trans (congrArg _ (if_neg (l.pass r)))

theorem State.macReceive_runt (h : bytes.length + 4 < 64) :
    s.macReceive ifc bytes fcsOk sec = s.count Ctr.rxRunt ifc :=
  if_pos h

theorem State.macReceive_oversize (hmin : 64 ≤ bytes.length + 4) (h : (s.ifc ifc).maxFrame < bytes.length + 4) :
    s.macReceive ifc bytes fcsOk sec = s.count Ctr.rxOversize ifc := by
  rw [State.macReceive, if_neg (Nat.not_lt.2 hmin), if_pos h]

theorem Sized.macReceive_badFcs (z : Sized ifc bytes s) :
    s.macReceive ifc bytes false sec = s.count Ctr.rxFcs ifc := by
  rw [State.macReceive, if_neg (Nat.not_lt.2 z.least), if_neg (Nat.not_lt.2 z.most)]
  rfl

/-- A protected frame that its association does not pass is counted as failed (R66). -/
theorem Sized.macReceive_macsecFail (z : Sized ifc bytes s) (hsec : sec ≠ .none)
    (hp : s.macsecPass ifc bytes sec = none) :
    s.macReceive ifc bytes true sec = s.count Ctr.rxMacsecFail ifc := by
  rw [State.macReceive, if_neg (Nat.not_lt.2 z.least), if_neg (Nat.not_lt.2 z.most), hp, if_neg hsec]
  rfl

/-- A frame that passes every check of the MAC is taken. -/
theorem Sized.macReceive_taken (z : Sized ifc bytes s) (hp : s.macsecPass ifc bytes sec = some u) :
    s.macReceive ifc bytes true sec = u.takeFrame ifc bytes := by
  rw [State.macReceive, if_neg (Nat.not_lt.2 z.least), if_neg (Nat.not_lt.2 z.most), hp]
  rfl

/-- A packet number below the replay window passes no association (R66). -/
theorem State.macsecPass_old {sc an pn : Nat} {x : Sa} (hx : tget (s.ifc ifc).rxSas (saKey sc an) = some x)
    (h : pn + (s.ifc ifc).replayWindow < x.nextPn) : s.macsecPass ifc bytes (.ok sc an pn) = none := by
  simp [State.macsecPass, hx, Sa.take, h]

/-- One that the window admits does, and moves it (R66). -/
theorem State.macsecPass_new {sc an pn : Nat} {x : Sa} (hx : tget (s.ifc ifc).rxSas (saKey sc an) = some x)
    (h : x.nextPn ≤ pn + (s.ifc ifc).replayWindow) :
    s.macsecPass ifc bytes (.ok sc an pn) = some (s.modIfc ifc fun i => { i with
      rxSas := tset i.rxSas (saKey sc an) { x with nextPn := max x.nextPn (pn + 1) } }) := by
  simp [State.macsecPass, hx, Sa.take, Nat.not_lt.2 h]

/-- An interface without MACsec passes an unprotected frame (R66). -/
theorem State.macsecPass_plain (h : (s.ifc ifc).macsecMode = 0) : s.macsecPass ifc bytes .none = some s :=
  if_pos h

/-- A frame that is neither a pause nor local goes to its parse queue (R113). -/
theorem State.takeFrame_admits (hp : fieldBe bytes 12 2 ≠ 0x8808) (hl : s.localKind ifc bytes = none) :
    s.takeFrame ifc bytes = s.admitFrame ifc bytes := by
  rw [State.takeFrame, if_neg hp, hl]

theorem State.admitFrame_shut (h : s.shut ifc = true) : s.admitFrame ifc bytes = s.count Ctr.rxDrained ifc :=
  if_pos h

theorem State.admitFrame_closed (h : s.shut ifc = false) (hc : s.closed = true) :
    s.admitFrame ifc bytes = s.count Ctr.rxQuiesced ifc := by
  simp only [State.admitFrame, h, hc, if_pos, Bool.false_eq_true, if_false]

theorem State.admitFrame_full (h : s.shut ifc = false) (hc : s.closed = false)
    (hf : s.parser.thresh ((s.ifc ifc).priority bytes) ≤ s.descriptors) :
    s.admitFrame ifc bytes = s.count Ctr.rxParseDrop (ifc * 8 + (s.ifc ifc).priority bytes) := by
  simp only [State.admitFrame, h, hc, if_pos hf, Bool.false_eq_true, if_false]

theorem State.admitFrame_waits (h : s.shut ifc = false) (hc : s.closed = false)
    (hf : s.descriptors < s.parser.thresh ((s.ifc ifc).priority bytes)) :
    s.admitFrame ifc bytes = (s.updParser fun p => { p with
      nextFrame := p.nextFrame + 1
      frames := tset p.frames p.nextFrame
        { bytes := bytes, ifc := ifc, rxTick := s.tick, rxWall := (s.wallAt s.tick).getD 0
          prio := (s.ifc ifc).priority bytes
          set := { role := (s.ifc ifc).role
                   roles := (List.range 4).map fun i => (s.ifc i).role
                   macsec := (List.range 4).map fun i => (s.ifc i).macsecMode
                   tpid := (s.ifc ifc).tpidExtra
                   maxFrames := (List.range 4).map fun i => (s.ifc i).maxFrame } } }).pfcCheck ifc
      ((s.ifc ifc).priority bytes) := by
  simp only [State.admitFrame, h, hc, if_neg (Nat.not_le.2 hf), Bool.false_eq_true, if_false]

end Reception

/-! ### Pauses (R64) -/

section Pauses

variable {s : State} {t ifc prio quanta : Nat}

/-- A change of an interface is a change of the interfaces alone. -/
theorem State.modIfc_frame (g : Ifc → Ifc) : s.modIfc ifc g = { s with ifcs := (s.modIfc ifc g).ifcs } := rfl

/-- The pause times of an interface after one priority's quantum (R64). -/
def Ifc.pause (prio quanta until' : Nat) (i : Ifc) : Ifc :=
  { i with pausedUntil := if quanta = 0 then tdel i.pausedUntil prio else tset i.pausedUntil prio until' }

theorem Ifc.tget_pause (until' : Nat) (i : Ifc) : tget (i.pause prio quanta until').pausedUntil prio =
    if quanta = 0 then none else some until' := by
  unfold Ifc.pause
  split
  · exact tget_tdel _ _
  · exact tget_tset _ _ _

/-- A received PFC frame sets its pauses (R64). -/
theorem exec_pfcReceive_taken {q : List (Nat × Nat)} (hm : s.moving = true) (hi : ifc < 4)
    (hr : (s.ifc ifc).role ≠ 0) : exec (.pfcReceive t ifc q) s = .next ((s.at t).pfcApply ifc q) := by
  rw [exec_pfcReceive]
  exact happen_pos (by simp [hm, hi, hr])

/-- A quantum is 512 bit times at the interface's speed (R64). -/
theorem State.pfcApply_enabled (he : (s.ifc ifc).pfcEnable.getLsbD prio = true) :
    s.pfcApply ifc [(prio, quanta)] = s.modIfc ifc (Ifc.pause prio quanta
      (s.tick + (quanta * 512 + s.speed ifc - 1) / s.speed ifc)) :=
  if_pos he

theorem State.pfcApply_disabled (he : (s.ifc ifc).pfcEnable.getLsbD prio = false) :
    s.pfcApply ifc [(prio, quanta)] = s :=
  if_neg (Bool.eq_false_iff.1 he)

/-- A pause whose time has run out is let go of (R64). -/
theorem exec_pfcPauseExpiry_due {d : Nat} (hm : s.moving = true)
    (hp : tget (s.ifc ifc).pausedUntil prio = some d) (hd : d ≤ max s.tick t) :
    exec (.pfcPauseExpiry t ifc prio) s =
      .next ((s.at t).modIfc ifc fun i => { i with pausedUntil := tdel i.pausedUntil prio }) := by
  rw [exec_pfcPauseExpiry]
  exact happen_pos (by simpa [hm, hp, due] using hd)

end Pauses

/-! ### Parses (R114 to R125) -/

section Parses

variable {s : State} {t id group k : Nat} {fault : Option Nat} {f : Frame} {p : Parse}

/-- A group takes the next frame: it is in service, and the frame's interface names a program (R114). -/
structure ParseTurn (id group k : Nat) (f : Frame) (s : State) : Prop where
  moves : s.moving = true
  known : group < 16
  serves : group ∉ s.parser.offline
  next : s.nextParse = some id
  frame : s.frame id = some f
  sound : f.poison = false
  slot : tget s.parser.ifcSlot f.ifc = some k

theorem ParseTurn.exec_chiveParse (g : ParseTurn id group k f s) :
    exec (.chiveParse t id group fault) s = .next ((s.at t).parseFrame id group f fault) := by
  have hoff : (s.at t).parser.offline.contains group = false := by simpa using g.serves
  have hframe : (s.at t).frame id = some f := g.frame
  rw [Machine.exec_chiveParse]
  refine (happen_pos ?_).trans (congrArg _ ?_)
  · simp only [hoff, State.moving_at, g.moves, State.nextParse_at, g.next, g.known]
    simp
  · rw [hframe]

/-- A frame parsed, and the round-robin moved on, before anything is counted. -/
def State.parsed (id : Nat) (f : Frame) (p : Parse) (code : Nat) (s : State) : State :=
  (s.modFrame id fun f => { f with
    stage := .parsed, record := parseRecord f (s.parser.progId f.ifc) p code }).updParser fun x => { x with
      rrNext := tset x.rrNext f.prio ((f.ifc + 1) % 4) }

theorem State.frame_parsed (code : Nat) (hf : s.frame id = some f) :
    (s.parsed id f p code).frame id = some { f with
      stage := .parsed, record := parseRecord f (s.parser.progId f.ifc) p code } :=
  (s.frame_modFrame id _).trans (by rw [hf]; rfl)

/-- The run of the program that a frame's interface names. -/
def State.runProgram (f : Frame) (fault : Option Nat) (s : State) : Parse × Nat :=
  chiveRun (s.parser.prog f.ifc) f.bytes s.parser.cycleMax fault (s.parser.cycleMax + 1)
    { record := freshRecord }

/-- A clean end counts nothing (R114, R125). -/
theorem ParseTurn.parseFrame_clean (g : ParseTurn id group k f s) (hr : s.runProgram f fault = (p, 0))
    (ht : p.trailer = false) : s.parseFrame id group f fault = s.parsed id f p 0 := by
  unfold State.runProgram at hr
  unfold State.parseFrame
  simp only [g.slot, g.sound, Option.isNone_some, Bool.false_eq_true, if_false, hr, ht]
  rfl

/-- The counts of a parse that a fault of the group's memory ends (R119, R121). -/
def State.countFault (f : Frame) (p : Parse) (s : State) : State :=
  (if p.trailer then s.count Ctr.rxTrailer f.ifc else s).count Ctr.rxParseIncomplete (f.ifc * 8 + 7)

theorem State.countFault_frame : s.countFault f p = { s with obs := (s.countFault f p).obs } := by
  unfold State.countFault
  split <;> rfl

/-- A parse that a fault of the group's memory ends: the frame is parsed, and the group goes offline (R119). -/
def State.parseFaulted (id group : Nat) (f : Frame) (p : Parse) (s : State) : State :=
  (((s.parsed id f p 7).countFault f p).updParser fun x => { x with
    offline := x.offline ++ [group] }).tally Ctr.parseFault

theorem State.parseFaulted_parser : (s.parseFaulted id group f p).parser =
    { (s.parsed id f p 7).parser with offline := s.parser.offline ++ [group] } := by
  rw [State.parseFaulted, State.countFault_frame]
  rfl

theorem State.parseFaulted_frame : s.parseFaulted id group f p =
    { s with parser := (s.parseFaulted id group f p).parser, obs := (s.parseFaulted id group f p).obs } := by
  rw [State.parseFaulted, State.countFault_frame]
  rfl

/-- It is also told (R119). -/
theorem ParseTurn.parseFrame_fault (g : ParseTurn id group k f s) (hr : s.runProgram f fault = (p, 7)) :
    s.parseFrame id group f fault = (s.parseFaulted id group f p).packetFault 0 group := by
  unfold State.runProgram at hr
  unfold State.parseFrame
  simp only [g.slot, g.sound, Option.isNone_some, Bool.false_eq_true, if_false, hr]
  rfl

theorem State.packetFault_parser (sub index : Nat) : (s.packetFault sub index).parser = s.parser :=
  State.record_parser _ _ _ _ _ _ s

/-- What tells of a state that differs from another in its parser and what is observed differs from it in these. -/
theorem State.packetFault_frame {u : State} (sub index : Nat) (h : u = { s with parser := u.parser, obs := u.obs }) :
    u.packetFault sub index =
      { s with parser := (u.packetFault sub index).parser, obs := (u.packetFault sub index).obs } := by
  rw [State.packetFault_parser]
  calc u.packetFault sub index = { u with obs := (u.packetFault sub index).obs } := State.record_eq _ _ _ _ _ _ u
    _ = { s with parser := u.parser, obs := (u.packetFault sub index).obs } :=
      congrArg (fun v : State => { v with obs := (u.packetFault sub index).obs }) h

/-- The frame is parsed, and the group has gone offline. -/
theorem State.parseFaulted_leaves (hf : s.frame id = some f) :
    (((s.parseFaulted id group f p).packetFault 0 group).frame id).map (·.stage) = some .parsed ∧
      ((s.parseFaulted id group f p).packetFault 0 group).parser.offline = s.parser.offline ++ [group] := by
  have hframe := congrArg (Option.map Frame.stage) (State.frame_parsed (p := p) 7 hf)
  rw [State.frame, State.packetFault_parser, State.parseFaulted_parser]
  exact ⟨hframe, rfl⟩

/-- A group whose memory is rewritten returns to service (R119). -/
theorem exec_chiveGroupRewrite_offline (hr : s.running = true) (hi : s.bay.isainUp = true)
    (ho : group ∈ s.parser.offline) (hg : group ∉ s.parser.groupsOut) :
    exec (.chiveGroupRewrite t group) s = .next ((s.at t).updParser fun p => { p with
      offline := p.offline.filter (· != group) }) := by
  have hi' : (s.at t).bay.isainUp = true := hi
  have ho' : (s.at t).parser.offline.contains group = true := by simpa using ho
  have hg' : (s.at t).parser.groupsOut.contains group = false := by simpa using hg
  rw [exec_chiveGroupRewrite]
  refine happen_pos ?_
  rw [State.running_at, hr, hi', ho', hg']
  rfl

end Parses

/-! ### Parse and spread commands (R116, R118, R131, R133) -/

section ParseCommands

variable {s : State} {t : Nat} {h : CmdHdr}

/-- A kept value changes what waits for the settings store, and nothing else (R372). -/
theorem State.keep_eq (v : StVal) (s : State) : s.keep v = { s with bay := (s.keep v).bay } := by
  unfold State.keep
  split <;> rfl

theorem isP0_of (h0 : h.part = 0) : isP0 h s = true := by simp [isP0, h0]

/-- What a `PARSE_LOAD` that passes its checks leaves (R116, R118). -/
def State.loadParse (k addr len : Nat) (prog : ChiveProg) (s : State) : State :=
  ((s.touch addr len 0).updParser fun p => { p with
    slots := tset p.slots k
      { image := s.bytesAt addr len, prog := prog, loads := ((tgetD s.parser.slots k {}).loads + 1) % 32 } })

theorem exec_parseLoad_pass {k addr len : Nat} {prog : ChiveProg} (r : Ready h 0x0601 false s) (h0 : h.part = 0)
    (hk : k < 8) (hl : len ≤ 81920) (ha : inSoftware addr len = true) (hu : ∀ e ∈ s.parser.ifcSlot, e.2 ≠ k)
    (hm : s.mem.readable addr len = true) (hp : progLarge prog = false) (hq : progUnlisted prog = false) :
    exec (.parseLoad t h k addr len prog) s =
      .next ((((s.at t).loadParse k addr len prog).keep ((s.at t).loadParse k addr len prog).parserVal).answer
        h 0x0601 .ok noDetail (pack [(5, (tgetD s.parser.slots k {}).loads + 1)])) := by
  have hunused : ((s.at t).parser.ifcSlot.any fun e => e.2 == k) = false :=
    List.any_eq_false.2 fun e he => by simpa using hu e he
  have hread : (s.at t).mem.readable addr len = true := hm
  rw [exec_parseLoad]
  refine isain_done r rfl rfl (isP0_of h0) ?_
  simp only [checks, Reply.after, hunused, hread, hp, hq, ha, Nat.not_le.2 hk, Nat.not_lt.2 hl]
  rfl

theorem State.loadParse_slot (k addr len : Nat) (prog : ChiveProg) (s : State) :
    tget (s.loadParse k addr len prog).parser.slots k = some
      { image := s.bytesAt addr len, prog := prog, loads := ((tgetD s.parser.slots k {}).loads + 1) % 32 } :=
  tget_tset _ _ _

theorem State.loadParse_ifcSlot (k addr len : Nat) (prog : ChiveProg) (s : State) :
    (s.loadParse k addr len prog).parser.ifcSlot = s.parser.ifcSlot := by
  have hparser := (touch_told (s := s) addr len 0).parser
  rw [State.loadParse, State.updParser_parser, hparser]

theorem State.loadParse_bytes (k addr len : Nat) (prog : ChiveProg) (s : State) :
    (s.loadParse k addr len prog).mem.bytes = s.mem.bytes :=
  State.touch_bytes addr len 0 s

theorem exec_parseCommit_pass {slots : List Nat} {u : State} (r : Ready h 0x0602 false s) (h0 : h.part = 0)
    (hn : slots.length = 4) (hs : ∀ k ∈ slots, k < 8 ∧ (tget s.parser.slots k).isSome = true)
    (hu : u = (s.at t).updParser fun p => { p with ifcSlot := slots.zipIdx.map fun e => (e.2, e.1) }) :
    exec (.parseCommit t h slots) s = .next ((u.keep u.parserVal).answer h 0x0602 .ok noDetail []) := by
  subst hu
  have hrange : itemBad 0 (fun k => decide (8 ≤ k)) slots = none :=
    itemBad_eq_none fun k hk => by simp [(hs k hk).1]
  have hloaded : itemBad 0 (fun k => (tget s.parser.slots k).isNone) slots = none :=
    itemBad_eq_none fun k hk => Option.isNone_eq_false_iff.2 (hs k hk).2
  rw [exec_parseCommit]
  refine isain_done r rfl rfl (isP0_of h0) (checksAt_pass ?_)
  simp [onWhole, hn, hrange, hloaded]

/-- A spread context as a `SPREAD_CONFIG` leaves it (R131 to R133). -/
def Spread.configured (x : SpreadSpec) (c : Spread) : Spread :=
  { c with
    sel := x.sel
    sym := x.sym
    key := if x.wkey then x.key else c.key
    table := x.entries.zipIdx.foldl (fun t e => tset t (x.start + e.2) e.1) c.table }

/-- An entry that no check refuses names a ring that is made, if it names one (R133). -/
theorem State.entryMiss_of_entryBad {ctx : Nat} {e : SpreadEntry} (h : s.entryBad ctx e = none) :
    s.entryMiss e = false := by
  by_cases hring : e.tkind = 1
  · by_cases hmade : s.ringMade e.target = true
    · simp [State.entryMiss, hmade]
    · have hbad : s.entryBad ctx e ≠ none := by
        unfold State.entryBad
        split
        · exact Option.some_ne_none _
        · simp [hring, hmade]
      exact absurd h hbad
  · simp [State.entryMiss, hring]

/-- The context's right is held (R131). -/
theorem ctxRight_pass {ctx : Nat} (hr : if ctx = 0x40 then h.part = 0 else h.part = 0 ∨ h.part = ctx) :
    ctxRight h ctx = true := by
  unfold ctxRight packetCtx
  split at hr
  case isTrue hc => simp [hc, hr]
  case isFalse hc => simpa [hc, owns] using hr

theorem exec_spreadConfig_pass {x : SpreadSpec} {u : State} (r : Ready h 0x0604 false s)
    (hr : if x.ctx = 0x40 then h.part = 0 else h.part = 0 ∨ h.part = x.ctx) (hc : x.ctx ≤ 0x40)
    (hn : x.start + x.entries.length ≤ 512) (hs : selBytes x.sel ≤ 36)
    (he : ∀ e ∈ x.entries, s.entryBad x.ctx e = none)
    (hu : u = (s.at t).updParser fun p => { p with spread := tup p.spread x.ctx {} (Spread.configured x) }) :
    exec (.spreadConfig t h x) s = .next ((u.keep u.parserVal).answer h 0x0604 .ok noDetail []) := by
  subst hu
  have hmiss : itemBad 0 (fun e => (s.at t).entryMiss e) x.entries = none :=
    itemBad_eq_none fun e hmem => State.entryMiss_of_entryBad (he e hmem)
  have hgood : (x.entries.zipIdx.findSome? fun e =>
      ((s.at t).entryBad x.ctx e.1).map fun st => (st, e.2)) = none :=
    List.findSome?_eq_none_iff.2 fun e hmem => by simp [he e.1 (List.fst_mem_of_mem_zipIdx hmem)]
  have hctx : ¬packetCtx < x.ctx := Nat.not_lt.2 hc
  rw [exec_spreadConfig]
  refine isain_done r rfl rfl rfl ((checksAt_pass ?_).trans ?_)
  · simp [onWhole, unlistedAt, r.listed, hmiss, ctxRight_pass hr, hctx, hn, hs]
  · rw [hgood]
    rfl

end ParseCommands

/-- Settles O19, part by part: frames from a line, pauses, parses, and the parse and spread commands. -/
theorem framesAndParses : Obligations.FramesAndParses := by
  unfold Obligations.FramesAndParses
  refine ⟨fun t ifc bytes fcsOk sec s hrun hclock hline hrole => ?reception, fun t ifc prio quanta s hm hi => ?pauses,
    fun t id group fault f k s => ?parses, fun t h s => ?commands⟩
  case reception =>
    have r : Receives ifc s := ⟨hrun, hclock, hline, hrole⟩
    refine ⟨r.exec_stopped, fun hmoves hlink => ?_⟩
    have l : LinkUp ifc s := ⟨hmoves, hlink⟩
    rw [r.exec_linkUp l]
    refine ⟨fun hrunt => congrArg _ (State.macReceive_runt hrunt),
      fun hmin hmax => congrArg _ (State.macReceive_oversize hmin hmax), fun hmin hmax => ?_⟩
    have z : Sized ifc bytes (s.at t) := ⟨hmin, hmax⟩
    refine ⟨fun hfcs => ?_, fun hfcs hsec => ?_, fun sc an pn x hfcs hsec hx => ⟨fun hold => ?_, fun hnew => ?_⟩,
      fun hsec hmode => ?_, fun u hfcs hpass hpause hlocal => ?_⟩
    · rw [hfcs, z.macReceive_badFcs]
    · rw [hfcs, hsec, z.macReceive_macsecFail (by decide) rfl]
    · rw [hfcs, hsec, z.macReceive_macsecFail (by simp) (State.macsecPass_old hx hold)]
    · rw [hsec]
      exact State.macsecPass_new (s := s.at t) hx hnew
    · rw [hsec]
      exact State.macsecPass_plain (s := s.at t) hmode
    · rw [hfcs, z.macReceive_taken hpass, State.takeFrame_admits hpause hlocal]
      exact ⟨fun hshut => congrArg _ (State.admitFrame_shut hshut),
        fun hshut hclosed => congrArg _ (State.admitFrame_closed hshut hclosed),
        fun hshut hclosed hfull => congrArg _ (State.admitFrame_full hshut hclosed hfull),
        fun hshut hclosed hroom => congrArg _ (State.admitFrame_waits hshut hclosed hroom)⟩
  case pauses =>
    refine ⟨fun hrole hen => ?_, fun hrole hen => ?_, fun d hp hd => ?_⟩
    · refine ⟨_, (exec_pfcReceive_taken hm hi hrole).trans
        (congrArg _ (State.pfcApply_enabled (s := s.at t) hen)), ?_, State.modIfc_frame _⟩
      rw [State.ifc_modIfc]
      exact Ifc.tget_pause _ _
    · exact (exec_pfcReceive_taken hm hi hrole).trans (congrArg _ (State.pfcApply_disabled (s := s.at t) hen))
    · refine ⟨_, exec_pfcPauseExpiry_due hm hp hd, ?_, State.modIfc_frame _⟩
      rw [State.ifc_modIfc]
      exact tget_tdel _ _
  case parses =>
    refine ⟨fun hm hg ho hn hf hp hk => ?_, exec_chiveGroupRewrite_offline⟩
    have g : ParseTurn id group k f (s.at t) := ⟨hm, hg, ho, hn, hf, hp, hk⟩
    have hexec : exec (.chiveParse t id group fault) s = .next ((s.at t).parseFrame id group f fault) :=
      ParseTurn.exec_chiveParse ⟨hm, hg, ho, hn, hf, hp, hk⟩
    refine ⟨fun p hrun ht => ?_, fun p hrun => ?_⟩
    · rw [g.parseFrame_clean hrun ht] at hexec
      exact ⟨_, hexec, State.frame_parsed 0 g.frame, rfl, rfl, rfl⟩
    · rw [g.parseFrame_fault hrun] at hexec
      obtain ⟨hstage, hoffline⟩ := State.parseFaulted_leaves (p := p) (group := group) g.frame
      exact ⟨_, hexec, hstage, hoffline, State.packetFault_frame 0 group State.parseFaulted_frame⟩
  case commands =>
    refine ⟨fun k addr len prog r h0 hk hl ha hu hm hp hq => ?_, fun slots r h0 hn hs => ?_,
      fun x r hr hc hn hs he => ?_⟩
    · refine ⟨_, exec_parseLoad_pass r h0 hk hl ha hu hm hp hq, ?_⟩
      rw [State.keep_eq]
      exact ⟨State.loadParse_slot k addr len prog (s.at t), State.loadParse_ifcSlot k addr len prog (s.at t),
        State.loadParse_bytes k addr len prog (s.at t)⟩
    · refine ⟨_, exec_parseCommit_pass r h0 hn hs rfl, ?_⟩
      rw [State.keep_eq]
      exact ⟨rfl, rfl⟩
    · refine ⟨_, exec_spreadConfig_pass r hr hc hn hs he rfl, ?_⟩
      rw [State.keep_eq]
      have hset := tgetD_tup s.parser.spread x.ctx {} (Spread.configured x)
      exact ⟨congrArg Spread.sel hset, congrArg Spread.sym hset, congrArg Spread.key hset,
        fun c hne => tgetD_tup_ne s.parser.spread {} (Spread.configured x) hne, rfl⟩

end Sys2Proof.Machine

namespace Sys2Proof.Machine

/-! ### `QUEUE_STATS` in a global stop (R175, R383, R473) -/

section QueueStatsStopped

variable {s : State} {t ifc op detail : Nat} {h : CmdHdr} {st : Status} {body : List Nat}

/-- A global stop lets only the commands marked "Stop" pass, outside ROM recovery mode (step 4 of R383). -/
theorem State.stateAllows_stopped (hs : s.obs.islandsStopped = true) (hd : s.pkg.devState ≠ .recovery) :
    s.stateAllows op false = false := by
  simp [State.stateAllows, hs, hd]

/-- `QUEUE_STATS` is not marked "Stop": a global stop refuses it, whatever else of it is right (R383). -/
theorem exec_queueStats_stopped (r : Ready h 0x0804 true s) (hs : s.obs.islandsStopped = true)
    (hd : s.pkg.devState ≠ .recovery) :
    exec (.queueStats t h ifc) s = .next ((s.at t).answer h 0x0804 .eState noDetail []) := by
  rw [exec_queueStats]
  refine isain_refused r.up r.carrier r.reserved rfl ?_
  rw [preCheck_current r.lengths r.reserved rfl r.enabled r.token, State.stateAllows_stopped hs hd]
  rfl

/-- The response to a ring's command goes out with its status (R101). -/
theorem State.sent_answer_ring {n : Nat} {i : W32} {rest : List W32} (hu : s.isainUp = true)
    (hm : s.bay.mute = []) (hv : h.via = .ring n) (ho : (s.ring n).opened = i :: rest) :
    (s.answer h op st detail body).sent = s.sent ++ [.resp h.via h.seq st detail s.tick body] := by
  have hmute : (!s.isainUp || s.bay.mute.contains (s.flight h)) = false := by simp [hu, hm]
  unfold State.answer State.answerRd
  rw [hmute, if_neg Bool.false_ne_true, hv]
  dsimp only
  rw [ho]
  exact (ringItem_told _ _).sent

/-- A device in a global stop, with a `QUEUE_STATS` of partition 0 read from its `COMMAND` ring 1. -/
def stoppedDevice : State :=
  { State.reset with
    pkg := { coldLow := false, devState := .running }
    parts := [(0, { enabled := true })]
    rings := { ctx := [(1, { rtype := 3, opened := [0], cmd := [0x0804000000010000, 7, 0, 0, 0, 0, 0, 0] })] }
    bay := { runSlot := 0, step14 := true, step15 := true }
    obs := { islandsStopped := true } }

/-- The header of that command. -/
def stoppedQuery : CmdHdr :=
  { via := .ring 1, part := 0, token := 1, flag := false, timeoutUs := 0, seq := 7, lenBad := false, resvBad := false }

theorem ready_stoppedQuery : Ready stoppedQuery 0x0804 true stoppedDevice where
  up := rfl
  carrier := by decide
  lengths := rfl
  reserved := rfl
  listed := by decide
  room := rfl
  space := rfl
  enabled := rfl
  token := rfl
  allowed := by decide

/-- What is sent in answer to it shows the answer's status. -/
theorem sent_answer_stoppedQuery :
    ((stoppedDevice.at 0).answer stoppedQuery op st detail body).sent = [.resp (.ring 1) 7 st detail 0 body] :=
  State.sent_answer_ring (s := stoppedDevice.at 0) rfl rfl rfl rfl

end QueueStatsStopped

/-- Refutes O32: its clauses of `QUEUE_STATS` ask only for a command that is ready as one marked "Stop" is, which
this one is not (R383, command reference): in a global stop `stoppedDevice` answers it `E_STATE` and not `OK`. -/
theorem not_egressWork : ¬ Obligations.EgressWork := by
  unfold Obligations.EgressWork
  intro hall
  obtain ⟨-, -, hdrains⟩ := hall
  obtain ⟨-, -, hstats⟩ := hdrains 0 0 0 0 stoppedQuery [] stoppedDevice
  obtain ⟨hok, -⟩ := hstats (by decide) ready_stoppedQuery
  rw [exec_queueStats_stopped ready_stoppedQuery rfl (by decide)] at hok
  injection hok with heq
  have hsent := congrArg State.sent heq
  rw [sent_answer_stoppedQuery, sent_answer_stoppedQuery] at hsent
  simp at hsent

end Sys2Proof.Machine

namespace Sys2Proof.Machine

/-! ### Ring indices and the entries of an item (R91, R104) -/

section RingEntries

variable {s : State} {n : Nat} {e : List W64}

/-- Bytes written to device memory change no ring. -/
@[simp] theorem State.ring_poke (a : Nat) (bs : List Byte) (n : Nat) (s : State) :
    (s.poke a bs).ring n = s.ring n := by
  simp [State.ring]

/-- Bytes written to device memory are read back (R326). -/
theorem State.memGet_poke_add (h : s.mem.wf = true) (a : Nat) (bs : List Byte) {k : Nat} (hk : k < bs.length) :
    memGet (s.poke a bs).mem.bytes (a + k) = (bs[k]?).getD 0 := by
  rw [State.poke_bytes, memGet_memPut bs h (Nat.zero_le a), dif_pos (by omega)]
  simp [hk]

/-- An entry written raises the producer index by 1, modulo 2^32 (R91). -/
theorem State.prodIdx_putEntry (n : Nat) (e : List W64) (s : State) :
    ((s.putEntry n e).ring n).prodIdx = (s.ring n).prodIdx + 1 := by
  simp [State.putEntry]

/-- A change of a ring's context changes no memory. -/
@[simp] theorem State.mem_modRing (n : Nat) (f : Ring → Ring) (s : State) : (s.modRing n f).mem = s.mem := rfl

/-- An entry is written as its ring's size and index give it, at the address of the producer index (R91). -/
theorem State.mem_putEntry (n : Nat) (e : List W64) (s : State) :
    (s.putEntry n e).mem = (s.poke ((s.ring n).addr (s.ring n).prodIdx)
      (wordsBytes (entryAt ((s.ring n).entryBytes / 8) e (s.ring n).prodIdx))).mem := by
  unfold State.putEntry
  exact State.mem_modRing _ _ _

/-- An entry that is not longer takes a whole place of its ring. -/
theorem length_entryAt {words : Nat} {i : W32} (h : e.length ≤ words) : (entryAt words e i).length = words := by
  have hpad : (padEntry words e).length = words := by simp [padEntry, h]
  rw [entryAt]
  split
  next hnil => rw [← hpad, hnil]
  next head rest hcons => rw [← hpad, hcons, List.length_cons, List.length_cons]

/-- The bytes of an entry fill its place. -/
theorem Ring.length_entry_bytes (r : Ring) {i : W32} (h : e.length * 8 ≤ r.entryBytes) :
    (wordsBytes (entryAt (r.entryBytes / 8) e i)).length = r.entryBytes := by
  have hsize : r.entryBytes = 128 ∨ r.entryBytes = 64 := by unfold Ring.entryBytes; split <;> simp
  rw [length_wordsBytes, length_entryAt (by omega)]
  omega

/-- Of two indices that differ, at most one is above the other (R91). -/
theorem idxAbove_asymm {a b : W32} (h : idxAbove a b = true) : idxAbove b a = false := by
  simp only [idxAbove, idxDiff, BitVec.toInt_eq_toNat_cond, BitVec.toNat_sub] at h ⊢
  simp only [decide_eq_true_eq, decide_eq_false_iff_not] at h ⊢
  have ha := a.isLt
  have hb := b.isLt
  omega

/-- A ring has no room left exactly where its indices differ by its size (R91). -/
theorem Ring.room_eq_zero_iff {r : Ring} (hlog : r.log2Entries < 32)
    (hheld : (r.prodIdx - r.consIdx).toNat ≤ 2 ^ r.log2Entries) :
    r.room = 0 ↔ r.prodIdx - r.consIdx = BitVec.ofNat 32 (2 ^ r.log2Entries) := by
  have hsize : 2 ^ r.log2Entries < 2 ^ 32 := Nat.pow_lt_pow_right (by decide) hlog
  rw [← BitVec.toNat_inj, BitVec.toNat_ofNat, Nat.mod_eq_of_lt hsize]
  simp only [Ring.room, Ring.size, idxCount]
  omega

end RingEntries

/-- Settles O16: the index, address and room of a ring as its lemmas give them. -/
theorem ringIndices : Obligations.RingIndices := by
  unfold Obligations.RingIndices
  intro n e r i a b s
  refine ⟨rfl, rfl, State.prodIdx_putEntry n e s, rfl, ?_, idxAbove_asymm, Ring.room_eq_zero_iff⟩
  simp [idxAbove, idxDiff]

/-- Settles O18: an entry fills its place at the producer index, and what lies outside it reads as before. -/
theorem itemsWritten : Obligations.ItemsWritten := by
  unfold Obligations.ItemsWritten
  intro n e s hwf hfits _
  have hlen := (s.ring n).length_entry_bytes (i := (s.ring n).prodIdx) hfits
  refine ⟨State.prodIdx_putEntry n e s, fun a ha => ?_, fun k hk => ?_⟩
  · rw [State.mem_putEntry]
    exact State.poke_other hwf _ _ _ (by rwa [hlen])
  · rw [State.mem_putEntry]
    exact State.memGet_poke_add hwf _ _ (by rwa [hlen])

end Sys2Proof.Machine

namespace Sys2Proof.Machine

/-! ### Entries of a table -/

section TableEntries

variable {α : Type} {t : Tab α} {k : Nat} {v : α} {e : Nat × α}

/-- The value under a key is an entry of the table. -/
theorem mem_of_tget : ∀ {t : Tab α}, tget t k = some v → (k, v) ∈ t
  | (j, w) :: t, h => by
    rw [tget] at h
    split at h
    next hj =>
      cases h
      exact hj ▸ .head _
    next => exact .tail _ (mem_of_tget h)

/-- The value set under a key is an entry. -/
theorem mem_tset_self (t : Tab α) (k : Nat) (v : α) : (k, v) ∈ tset t k v := mem_of_tget (tget_tset t k v)

/-- Setting a key keeps every entry of another key. -/
theorem mem_tset_of_ne : ∀ {t : Tab α}, e ∈ t → e.1 ≠ k → e ∈ tset t k v
  | (j, w) :: t, he, hk => by
    rw [tset]
    split
    · exact .tail _ he
    · split
      next hj =>
        refine .tail _ ((List.mem_cons.1 he).resolve_left ?_)
        rintro rfl
        exact hk hj.symm
      next => exact (List.mem_cons.1 he).elim (· ▸ .head _) fun h => .tail _ (mem_tset_of_ne h hk)

/-- Setting a key to the value it has keeps every entry. -/
theorem mem_tset_of_tget : ∀ {t : Tab α}, tget t k = some v → e ∈ t → e ∈ tset t k v
  | (j, w) :: t, hv, he => by
    rw [tget] at hv
    rw [tset]
    split
    · exact .tail _ he
    · split
      next hj =>
        rw [if_pos hj.symm] at hv
        cases hv
        exact hj ▸ he
      next hj =>
        rw [if_neg (Ne.symm hj)] at hv
        exact (List.mem_cons.1 he).elim (· ▸ .head _) fun h => .tail _ (mem_tset_of_tget hv h)

/-- The last value set under a key stands. -/
theorem tset_tset (w : α) : ∀ t : Tab α, tset (tset t k v) k w = tset t k w
  | [] => by simp [tset]
  | (j, x) :: t => by
    rcases lt_trichotomy k j with h | rfl | h
    · simp [tset, h]
    · simp [tset]
    · simp [tset, h.not_gt, h.ne', tset_tset w t]

/-- With no key twice, each entry is what its key finds. -/
theorem tget_of_mem : ∀ {t : Tab α}, (t.map (·.1)).Nodup → e ∈ t → tget t e.1 = some e.2
  | (j, w) :: t, hd, he => by
    rw [List.map_cons, List.nodup_cons] at hd
    rcases List.mem_cons.1 he with rfl | he
    · simp [tget]
    · have hj : j ≠ e.1 := fun hj => hd.1 (List.mem_map.2 ⟨e, he, hj.symm⟩)
      rw [tget, if_neg hj, tget_of_mem hd.2 he]

/-- An entry's key finds a value. -/
theorem tget_isSome_of_mem : ∀ {t : Tab α}, e ∈ t → (tget t e.1).isSome = true
  | (j, w) :: t, he => by
    rw [tget]
    split
    next => rfl
    next hj =>
      refine tget_isSome_of_mem ((List.mem_cons.1 he).resolve_left ?_)
      rintro rfl
      exact hj rfl

/-- Every value changed: a key finds its value changed. -/
theorem tget_map_snd (f : α → α) : ∀ (t : Tab α) (k : Nat),
    tget (t.map fun e => (e.1, f e.2)) k = (tget t k).map f
  | [], _ => rfl
  | (j, w) :: t, k => by
    simp only [List.map_cons, tget]
    split
    · rfl
    · exact tget_map_snd f t k

end TableEntries

/-! ### What an operation on a ring leaves to the other rings -/

section OtherRings

variable {s : State} {n k : Nat}

theorem State.ring_of_tget {r : Ring} (h : tget s.rings.ctx n = some r) : s.ring n = r := by
  rw [State.ring, tgetD, h]
  rfl

theorem State.ring_setRing_ne (r : Ring) (h : k ≠ n) : (s.setRing n r).ring k = s.ring k := by
  simp [State.ring, State.setRing, tgetD, tget_tset_ne s.rings.ctx r h]

theorem State.ring_modRing_ne (f : Ring → Ring) (h : k ≠ n) : (s.modRing n f).ring k = s.ring k :=
  State.ring_setRing_ne _ h

/-- Two changes of a ring's context are one. -/
theorem State.modRing_modRing (f g : Ring → Ring) : (s.modRing n f).modRing n g = s.modRing n fun r => g (f r) := by
  rw [State.modRing, State.ring_modRing]
  exact congrArg (fun x => { s with rings := { s.rings with ctx := x } }) (tset_tset _ s.rings.ctx)

end OtherRings

/-! ### Items dropped (R104, R357) -/

section DroppedItems

variable {s : State} {n : Nat} {item : RingItem}

/-- An item that completes no entry: it is neither a `VERDICT` nor a `CMD_DONE` (R101, R104). -/
def CompletesNone (item : RingItem) : Prop :=
  ∀ e, item.head? = some e → headKind (wordOf e 0) ≠ 0x10 ∧ headKind (wordOf e 0) ≠ 0x12

/-- Once such an item has been written or dropped, nothing follows (R104). -/
theorem CompletesNone.itemDone (h : CompletesNone item) (n : Nat) (s : State) : s.itemDone n item = s := by
  cases item with
  | nil => rfl
  | cons e rest =>
    obtain ⟨hverdict, hdone⟩ := h e rfl
    simp [State.itemDone, hverdict, hdone]

/-- A ring that has dropped an item of `k` entries (R104). -/
def Ring.lose (k : Nat) (r : Ring) : Ring :=
  { r with
    dropCount := min (r.dropCount + k) (2 ^ 32 - 1)
    lossFirst := if r.lossCount = 0 then r.prodIdx else r.lossFirst
    lossCount := if r.rtype = 7 then 0 else r.lossCount + k }

/-- An item that completes no entry is counted when it is dropped, and nothing else follows (R104). -/
theorem CompletesNone.dropItem (h : CompletesNone item) (n : Nat) (s : State) :
    s.dropItem n item = s.modRing n (Ring.lose item.length) :=
  h.itemDone n _

end DroppedItems

/-! ### Stalled items of rings that are revoked (R104, R112) -/

section RevokedRings

variable {s u v : State} {n p token : Nat} {l : List Nat}

/-- A ring's stalled items are dropped, oldest first. -/
theorem State.dropStalled_eq (n : Nat) (s : State) : s.dropStalled n = (s.ring n).stalled.foldl
    (fun s e => s.dropItem n e.2) (s.modRing n fun r => { r with stalled := [] }) := rfl

/-- A ring without stalled items drops none. -/
theorem State.dropStalled_of_none (h : (s.ring n).stalled = []) : s.dropStalled n = s.modRing n id := by
  rw [State.dropStalled_eq, h, List.foldl_nil, State.modRing, ← h]
  rfl

/-- A state whose table of contexts has been written to, with every ring as it was. -/
structure RingsKept (s u : State) : Prop where
  frame : u = { s with rings := { s.rings with ctx := u.rings.ctx } }
  find : ∀ n, tget u.rings.ctx n = tget s.rings.ctx n
  entries : ∀ e ∈ s.rings.ctx, e ∈ u.rings.ctx

theorem RingsKept.refl (s : State) : RingsKept s s := ⟨rfl, fun _ => rfl, fun _ h => h⟩

theorem RingsKept.trans (h : RingsKept s u) (k : RingsKept u v) : RingsKept s v where
  frame := by rw [k.frame, h.frame]
  find n := (k.find n).trans (h.find n)
  entries e he := k.entries e (h.entries e he)

theorem RingsKept.slots (h : RingsKept s u) : u.rings.slots = s.rings.slots := by rw [h.frame]

/-- A ring of the table without a stalled item. -/
def State.Unstalled (n : Nat) (s : State) : Prop := ∃ r, tget s.rings.ctx n = some r ∧ r.stalled = []

/-- Where nothing stalls, nothing is dropped. -/
theorem State.Unstalled.dropStalled (h : s.Unstalled n) : RingsKept s (s.dropStalled n) := by
  obtain ⟨r, hr, hnone⟩ := h
  have hring := State.ring_of_tget hr
  rw [State.dropStalled_of_none (hring ▸ hnone), State.modRing, hring, id]
  refine ⟨rfl, fun k => ?_, fun e he => mem_tset_of_tget hr he⟩
  rcases eq_or_ne k n with rfl | hk
  · exact (tget_tset _ _ _).trans hr.symm
  · exact tget_tset_ne _ _ hk

/-- Nor in several rings. -/
theorem foldl_dropStalled_unstalled (h : ∀ n ∈ l, s.Unstalled n) :
    RingsKept s (l.foldl (fun s n => s.dropStalled n) s) := by
  induction l generalizing s with
  | nil => exact .refl s
  | cons n l ih =>
    have hn := (h n (.head _)).dropStalled
    refine hn.trans (ih fun k hk => ?_)
    obtain ⟨r, hr, hnone⟩ := h k (.tail _ hk)
    exact ⟨r, (hn.find k).trans hr, hnone⟩

/-- A ring that has dropped the item that stalled, of `k` entries. -/
def Ring.loseStalled (k : Nat) (r : Ring) : Ring := { r.lose k with stalled := [] }

/-- The one stalled item of a ring is dropped with it. -/
theorem State.dropStalled_one {k : Nat} {item : RingItem} (h : (s.ring n).stalled = [(k, item)])
    (hc : CompletesNone item) :
    s.dropStalled n = s.modRing n (Ring.loseStalled item.length) := by
  rw [State.dropStalled_eq, h, List.foldl_cons, List.foldl_nil, hc.dropItem, State.modRing_modRing]
  rfl

/-- The rings of a partition, as revocation goes through them. -/
def State.ringsOwned (p : Nat) (s : State) : List Nat := (s.rings.ctx.filter fun e => e.2.owner == p).map (·.1)

/-- A ring's entry in the table after revocation. -/
def revokeEntry (p token : Nat) (e : Nat × Ring) : Nat × Ring :=
  if e.2.owner = p then (e.1, e.2.revoke token) else e

/-- Revocation drops what stalls in the partition's rings, then takes each of them from it (R112). -/
theorem State.revokeRings_eq (p token : Nat) (s : State) : ∃ (g : Fabric → Fabric) (u : State),
    u = (s.ringsOwned p).foldl (fun s n => s.dropStalled n) (s.updFab g) ∧
    (s.revokeRings p token).rings.ctx = u.rings.ctx.map (revokeEntry p token) ∧
    (s.revokeRings p token).rings.slots = u.rings.slots ∧ (s.revokeRings p token).mem = u.mem := by
  refine ⟨fun f => { f with puts := f.puts.filter fun e =>
    !((s.ring e.2.ring).owner == p && s.ringMade e.2.ring) }, _, rfl, ?_⟩
  unfold State.revokeRings
  extract_lets mine late s1 s2 s3
  split <;> exact ⟨rfl, rfl, rfl⟩

/-- A host-produced ring loses what it had not consumed, and no ring its place (R112). -/
theorem Ring.revoke_frame (token : Nat) (r : Ring) : (r.revoke token).enabled = false ∧
    (r.revoke token).ownerToken = token ∧ (r.revoke token).prodIdx = r.prodIdx ∧
    (r.revoke token).baseAddr = r.baseAddr ∧
    (hostProduced r.rtype = true → (r.revoke token).consIdx = r.prodIdx ∧ (r.revoke token).opened = [] ∧
      (r.revoke token).inflight = 0 ∧
      (r.revoke token).dropCount = min (r.dropCount + idxCount r.prodIdx r.consIdx) (2 ^ 32 - 1)) := by
  unfold Ring.revoke
  dsimp only
  split
  next => exact ⟨rfl, rfl, rfl, rfl, fun _ => ⟨rfl, rfl, rfl, rfl⟩⟩
  next hno => split <;> exact ⟨rfl, rfl, rfl, rfl, fun h => absurd h hno⟩

/-- A ring that the K4 produces for a host is disabled under the new token, and keeps the rest (R112). -/
theorem Ring.revoke_device {r : Ring} (hh : hostProduced r.rtype = false) (h7 : r.rtype ≠ 7) (token : Nat) :
    r.revoke token = { r with enabled := false, ownerToken := token } := by
  simp [Ring.revoke, hh, h7]

/-- Where nothing stalls, revocation keeps each entry of the table, the partition's ones revoked. -/
theorem State.revokeRings_unstalled (h : ∀ n ∈ s.ringsOwned p, s.Unstalled n) (token : Nat) :
    (∀ e ∈ s.rings.ctx, revokeEntry p token e ∈ (s.revokeRings p token).rings.ctx) ∧
    (s.revokeRings p token).rings.slots = s.rings.slots ∧ (s.revokeRings p token).mem = s.mem := by
  obtain ⟨g, u, hu, hctx, hslots, hmem⟩ := s.revokeRings_eq p token
  have hkept : RingsKept (s.updFab g) u := hu ▸ foldl_dropStalled_unstalled h
  rw [hctx, hslots, hmem, hkept.frame]
  exact ⟨fun e he => List.mem_map_of_mem (hkept.entries e he), rfl, rfl⟩

/-- Where an item stalls in one of the partition's rings, that ring is revoked once it has dropped the item. -/
theorem State.revokeRings_stalled {e : Nat × Ring} {k : Nat} {item : RingItem} (hd : (s.rings.ctx.map (·.1)).Nodup)
    (he : e ∈ s.rings.ctx) (hp : e.2.owner = p) (hs : e.2.stalled = [(k, item)]) (hc : CompletesNone item)
    (hrest : ∀ n ∈ s.ringsOwned p, n ≠ e.1 → s.Unstalled n) (token : Nat) :
    (e.1, (e.2.loseStalled item.length).revoke token) ∈
      (s.revokeRings p token).rings.ctx ∧
    (s.revokeRings p token).rings.slots = s.rings.slots := by
  obtain ⟨g, u, hu, hctx, hslots, -⟩ := s.revokeRings_eq p token
  have hmem : e.1 ∈ s.ringsOwned p := List.mem_map_of_mem (List.mem_filter.2 ⟨he, by simpa using hp⟩)
  obtain ⟨before, after, hsplit⟩ := List.append_of_mem hmem
  have hnodup : (before ++ e.1 :: after).Nodup := hsplit ▸ hd.sublist (List.filter_sublist.map _)
  rw [List.nodup_middle, List.nodup_cons, List.mem_append, not_or] at hnodup
  obtain ⟨⟨hbefore, hafter⟩, -⟩ := hnodup
  rw [hsplit] at hrest hu
  rw [List.foldl_append, List.foldl_cons] at hu
  have h1 : RingsKept (s.updFab g) (before.foldl (fun s n => s.dropStalled n) (s.updFab g)) :=
    foldl_dropStalled_unstalled fun n hn =>
      hrest n (List.mem_append_left _ hn) fun hne => hbefore (hne ▸ hn)
  generalize before.foldl (fun s n => s.dropStalled n) (s.updFab g) = s1 at h1 hu
  have hring : s1.ring e.1 = e.2 := State.ring_of_tget ((h1.find e.1).trans (tget_of_mem hd he))
  rw [State.dropStalled_one (hring ▸ hs) hc, State.modRing, hring] at hu
  have h2 : RingsKept (s1.setRing e.1 (e.2.loseStalled item.length)) u := by
    rw [hu]
    refine foldl_dropStalled_unstalled fun n hn => ?_
    have hne : n ≠ e.1 := fun hne => hafter (hne ▸ hn)
    obtain ⟨r, hr, hnone⟩ := hrest n (List.mem_append_right _ (.tail _ hn)) hne
    exact ⟨r, (tget_tset_ne _ _ hne).trans ((h1.find n).trans hr), hnone⟩
  constructor
  · rw [hctx]
    have hin := List.mem_map_of_mem (f := revokeEntry p token) (h2.entries _ (mem_tset_self s1.rings.ctx _ _))
    rwa [revokeEntry, if_pos (by exact hp)] at hin
  · rw [hslots, h2.slots]
    exact h1.slots

end RevokedRings

/-- Settles O54: revocation keeps every entry of the table, each of the partition's own revoked, after the drop of
what stalls in it. -/
theorem revokedRings : Obligations.RevokedRings := by
  unfold Obligations.RevokedRings
  intro p token e s he
  have hfound : ∀ n ∈ s.ringsOwned p, ∃ x ∈ s.rings.ctx, x.1 = n ∧ x.2.owner = p := by
    intro n hn
    obtain ⟨x, hx, rfl⟩ := List.mem_map.1 hn
    obtain ⟨hx, hown⟩ := List.mem_filter.1 hx
    exact ⟨x, hx, rfl, by simpa using hown⟩
  constructor
  · intro hnone
    have hquiet : ∀ n ∈ s.ringsOwned p, s.Unstalled n := by
      intro n hn
      obtain ⟨x, hx, rfl, hown⟩ := hfound n hn
      obtain ⟨r, hr⟩ := Option.isSome_iff_exists.1 (tget_isSome_of_mem hx)
      exact ⟨r, hr, State.ring_of_tget hr ▸ hnone x hx hown⟩
    obtain ⟨hentries, hslots, hmem⟩ := State.revokeRings_unstalled hquiet token
    have hin := hentries e he
    refine ⟨fun hp => ?_, fun hp => ?_, hslots, hmem⟩
    · rwa [revokeEntry, if_neg hp] at hin
    · rw [revokeEntry, if_pos hp] at hin
      exact ⟨_, hin, e.2.revoke_frame token⟩
  · intro k item hd hothers hp hhost h7 hs hc
    have hquiet : ∀ n ∈ s.ringsOwned p, n ≠ e.1 → s.Unstalled n := by
      intro n hn hne
      obtain ⟨x, hx, rfl, hown⟩ := hfound n hn
      exact ⟨x.2, tget_of_mem hd hx, hothers x hx hown fun h => hne (h ▸ rfl)⟩
    obtain ⟨hin, hslots⟩ := State.revokeRings_stalled hd he hp hs hc hquiet token
    refine ⟨_, hin, ?_⟩
    rw [Ring.revoke_device (r := e.2.loseStalled item.length) hhost h7]
    exact ⟨rfl, rfl, rfl, rfl, if_neg h7, hslots⟩

end Sys2Proof.Machine

namespace Sys2Proof.Machine

/-! ### Commands whose objects are missing or another's (R383, R388) -/

section Refused

variable {s : State} {t : Nat} {c : CmdForm} {h : CmdHdr} {ex right : State → Bool} {own : State → Reply}

/-- A list of checks that all pass comes to the effect. -/
theorem checks_pass {r : Reply} : ∀ {l : List (Bool × Status)}, (∀ e ∈ l, e.1 = false) → checks l r = r
  | [], _ => rfl
  | (false, _) :: l, hl => checks_pass (l := l) fun e he => hl e (.tail _ he)
  | (true, _) :: _, hl => nomatch hl _ (.head _)

/-- A command that is ready and names an object that does not exist (step 5 of R383). -/
theorem isain_missing (r : Ready h c.op c.stop s) (hr : c.resv = none) (he : ex (s.at t) = false) :
    s.isain t c h ex right own = .next ((s.at t).answerRd h c.op c.rd .eState noDetail []) := by
  have hup : (s.at t).isainUp = true := r.up
  have hcarrier : (s.at t).carrierPart h c.op = some h.part := r.carrier
  unfold State.isain
  dsimp only
  rw [hup, hcarrier]
  dsimp only
  rw [State.runCmd, hr, show (none : Option Nat).isSome = false from rfl, Ready.preCheck r, he]
  rfl

/-- A command that is ready and whose issuer does not hold its right (step 6 of R383). -/
theorem isain_noRight (r : Ready h c.op c.stop s) (hr : c.resv = none) (he : ex (s.at t) = true)
    (hp : right (s.at t) = false) :
    s.isain t c h ex right own = .next ((s.at t).answerRd h c.op c.rd .ePriv noDetail []) := by
  have hup : (s.at t).isainUp = true := r.up
  have hcarrier : (s.at t).carrierPart h c.op = some h.part := r.carrier
  unfold State.isain
  dsimp only
  rw [hup, hcarrier]
  dsimp only
  rw [State.runCmd, hr, show (none : Option Nat).isSome = false from rfl, Ready.preCheck r, he, hp]
  rfl

end Refused

/-! ### The context cache, credits and kept settings: what they leave to the rings (R90, R92, R372) -/

section RingLayer

variable {s : State} {n k : Nat}

@[simp] theorem State.ring_useCtx (n k : Nat) (s : State) : (s.useCtx n).ring k = s.ring k := rfl

/-- A context in use is in the cache (R90). -/
@[simp] theorem State.cached_useCtx (n : Nat) (s : State) : (s.useCtx n).cached n = true := by
  simp [State.cached, State.useCtx]

@[simp] theorem State.rings_keep (v : StVal) (s : State) : (s.keep v).rings = s.rings := by rw [State.keep_eq]

@[simp] theorem State.ouv_keep (v : StVal) (s : State) : (s.keep v).ouv = s.ouv := by rw [State.keep_eq]

@[simp] theorem State.ring_keep (v : StVal) (n : Nat) (s : State) : (s.keep v).ring n = s.ring n := by
  rw [State.ring, State.rings_keep, State.ring]

@[simp] theorem State.ring_tellCredit (n k : Nat) (s : State) : (s.tellCredit n).ring k = s.ring k := rfl

/-- Every session of a ring's owner learns of the ring's credit limit (R83, R92). -/
theorem State.session_tellCredit {sid : Nat} {y : Session} (hy : s.session sid = some y)
    (ho : y.part = (s.ring n).owner) : ∃ z, (s.tellCredit n).session sid = some z ∧ n ∈ z.credits := by
  have hfound : ∀ l : Tab Session, tget l sid = some y → ∃ z, tget (l.map fun e =>
      if e.2.part = (s.ring n).owner ∧ !e.2.credits.contains n then
        (e.1, { e.2 with credits := e.2.credits ++ [n] }) else e) sid = some z ∧ n ∈ z.credits := by
    intro l hl
    induction l with
    | nil => cases hl
    | cons e l ih =>
      rw [tget] at hl
      split at hl
      next hsid =>
        cases hl
        by_cases hin : n ∈ e.2.credits
        · exact ⟨e.2, by simp [tget, hin, hsid], hin⟩
        · exact ⟨{ e.2 with credits := e.2.credits ++ [n] }, by simp [tget, hin, hsid, ho], by simp⟩
      next hsid =>
        obtain ⟨z, hz, hin⟩ := ih hl
        refine ⟨z, ?_, hin⟩
        rw [List.map_cons]
        split <;> simpa [tget, hsid] using hz
  exact hfound s.ouv.sessions hy

end RingLayer

/-! ### Ring commands (R88 to R90, R102, R103, R388, R392) -/

section RingCommands

variable {s : State} {t n : Nat} {h : CmdHdr}

/-- The ring is made, and the command's partition owns it or is partition 0 (R388). -/
structure RingRight (h : CmdHdr) (n : Nat) (s : State) : Prop where
  made : s.ringMade n = true
  holds : h.part = 0 ∨ h.part = (s.ring n).owner

theorem RingRight.owns (g : RingRight h n s) : owns h (s.ring n).owner = true := by
  simpa [Machine.owns] using g.holds

theorem State.revoked_at_eq_false (hv : (s.part h.part).revoking = false) : (s.at t).revoked h = false := hv

/-- What a `RING_CREATE` may ask for (R89, R90, R392). -/
structure CreateGood (h : CmdHdr) (x : RingSpec) (s : State) : Prop where
  ready : Ready h 0x0301 false s
  issuer : h.part = 0
  number : x.ring < 4096
  owner : x.owner < 64
  form : formAllowed x.rtype x.esize x.fullPolicy = true
  small : 6 ≤ x.log2Entries
  large : x.log2Entries ≤ 20
  inflight : 0 < x.inflightMax
  timeout : 0 < x.fullTimeout
  aligned : x.baseAddr % 4096 = 0
  cq : s.cqAllowed x.rtype x.owner x.cqRing = true
  space : inSoftware x.baseAddr (RingSpec.ring x 0).bytes = true
  apart : ∀ e ∈ s.rings.ctx, e.2.rtype ≠ 0 → e.1 ≠ x.ring → (RingSpec.ring x 0).overlaps e.2 = false
  free : s.ringMade x.ring = false
  pins : x.pinned = true → s.pinnedCount < 256

/-- What a `RING_CREATE` leaves (R89, R90). -/
def State.createRing (x : RingSpec) (s : State) : State :=
  let s' := (s.setRing x.ring (RingSpec.ring x (s.part x.owner).token)).useCtx x.ring
  if hostProduced x.rtype then s'.tellCredit x.ring else s'

theorem CreateGood.exec_ringCreate {x : RingSpec} (g : CreateGood h x s) : exec (.ringCreate t h x) s =
    .next ((((s.at t).createRing x).keep ((s.at t).createRing x).ringsVal).answer h 0x0301 .ok noDetail []) := by
  have hcq : (s.at t).cqAllowed x.rtype x.owner x.cqRing = true := g.cq
  have hspace : inSoftware x.baseAddr (RingSpec.ring x (s.part x.owner).token).bytes = true := g.space
  rw [Machine.exec_ringCreate]
  refine isain_done g.ready rfl rfl (isP0_of g.issuer) (checks_pass ?_)
  simp [g.number, g.owner, g.form, g.small, g.large, g.inflight.ne', g.timeout.ne', g.aligned, hcq, hspace, g.free]
  exact ⟨fun n r => g.apart (n, r), fun hp => decide_eq_false (Nat.not_le.2 (g.pins hp))⟩

theorem RingSpec.ring_eq (x : RingSpec) (token : Nat) : RingSpec.ring x token = {
    rtype := x.rtype, owner := x.owner, esize := x.esize, enabled := x.enabled, pinned := x.pinned
    fullPolicy := x.fullPolicy, log2Entries := x.log2Entries, ownerToken := token
    baseAddr := x.baseAddr, cqRing := x.cqRing, inflightMax := x.inflightMax
    fullTimeout := x.fullTimeout
    limitIdx := if x.rtype = 1 ∨ x.rtype = 3 then BitVec.ofNat 32 (2 ^ x.log2Entries) else 0 } := by
  simp [RingSpec.ring, hostProduced, Ring.size]

theorem State.createRing_host {x : RingSpec} (hh : hostProduced x.rtype = true) : s.createRing x =
    ((s.setRing x.ring (RingSpec.ring x (s.part x.owner).token)).useCtx x.ring).tellCredit x.ring := if_pos hh

theorem State.createRing_device {x : RingSpec} (hh : hostProduced x.rtype = false) : s.createRing x =
    (s.setRing x.ring (RingSpec.ring x (s.part x.owner).token)).useCtx x.ring := by simp [State.createRing, hh]

/-- Only a host-produced ring's credit goes beyond the rings (R92). -/
theorem State.createRing_rings (x : RingSpec) (s : State) : (s.createRing x).rings =
    ((s.setRing x.ring (RingSpec.ring x (s.part x.owner).token)).useCtx x.ring).rings := by
  unfold State.createRing
  split <;> rfl

theorem State.createRing_frame (x : RingSpec) (s : State) :
    s.createRing x = { s with rings := (s.createRing x).rings, ouv := (s.createRing x).ouv } := by
  unfold State.createRing
  split <;> rfl

theorem State.ring_createRing (x : RingSpec) (s : State) :
    (s.createRing x).ring x.ring = RingSpec.ring x (s.part x.owner).token := by
  rw [State.ring, State.createRing_rings]
  exact State.ring_setRing s x.ring _

theorem State.ring_createRing_ne {x : RingSpec} (hn : n ≠ x.ring) : (s.createRing x).ring n = s.ring n := by
  rw [State.ring, State.createRing_rings]
  exact State.ring_setRing_ne _ hn

theorem State.cached_createRing (x : RingSpec) (s : State) : (s.createRing x).cached x.ring = true := by
  rw [State.cached, State.createRing_rings]
  exact State.cached_useCtx _ _

/-- The sessions of its owner learn the credit of a new ring that the host produces into (R92). -/
theorem State.session_createRing {x : RingSpec} {sid : Nat} {y : Session} (hh : hostProduced x.rtype = true)
    (hy : s.session sid = some y) (ho : y.part = x.owner) :
    ∃ z, (s.createRing x).session sid = some z ∧ x.ring ∈ z.credits := by
  rw [State.createRing_host hh]
  exact State.session_tellCredit hy (by rw [State.ring_useCtx, State.ring_setRing, RingSpec.ring_eq, ho])

/-- What a `RING_CONFIG` may ask for (R89, R90); nothing stalls in a ring that it disables. -/
structure ConfigGood (h : CmdHdr) (m : RingMask) (s : State) : Prop where
  ready : Ready h 0x0302 false s
  current : (s.part h.part).revoking = false
  form : formAllowed (s.ring m.ring).rtype (s.ring m.ring).esize
    (m.fullPolicy.getD (s.ring m.ring).fullPolicy) = true
  inflight : m.inflightMax ≠ some 0
  timeout : m.fullTimeout ≠ some 0
  pins : m.pinned = some true → (s.ring m.ring).pinned = false → s.pinnedCount < 256
  drained : m.enabled = some false → (s.ring m.ring).stalled = []

/-- What a `RING_CONFIG` leaves (R89). -/
def State.configRing (m : RingMask) (s : State) : State := (s.modRing m.ring (RingMask.apply m)).useCtx m.ring

theorem State.ring_configRing (m : RingMask) (s : State) :
    (s.configRing m).ring m.ring = RingMask.apply m (s.ring m.ring) := by
  rw [State.configRing, State.ring_useCtx, State.ring_modRing]

theorem State.ring_configRing_ne {m : RingMask} (hn : n ≠ m.ring) : (s.configRing m).ring n = s.ring n := by
  rw [State.configRing, State.ring_useCtx, State.ring_modRing_ne _ hn]

theorem State.keep_configRing_frame (m : RingMask) (v : StVal) (s : State) : (s.configRing m).keep v =
    { s with rings := ((s.configRing m).keep v).rings, bay := ((s.configRing m).keep v).bay } := by
  rw [State.keep_eq]
  rfl

theorem RingMask.enabled_apply_off {m : RingMask} (r : Ring) (h : m.enabled = some false) :
    (RingMask.apply m r).enabled = false := by
  simp [RingMask.apply, h]

theorem ConfigGood.exec_ringConfig {m : RingMask} (g : ConfigGood h m s) (k : RingRight h m.ring s) :
    exec (.ringConfig t h m) s = .next ((((s.at t).configRing m).keep
      ((s.at t).configRing m).ringsVal).answer h 0x0302 .ok noDetail []) := by
  have hdrop : (if m.enabled == some false then (s.at t).dropStalled m.ring else s.at t).modRing m.ring
      (RingMask.apply m) = (s.at t).modRing m.ring (RingMask.apply m) := by
    split
    next hoff =>
      have hnone : ((s.at t).ring m.ring).stalled = [] := g.drained (by simpa using hoff)
      rw [State.dropStalled_of_none hnone, State.modRing_modRing]
      rfl
    next => rfl
  rw [Machine.exec_ringConfig]
  refine isain_done g.ready rfl k.made k.owns ((checks_pass ?_).trans ?_)
  · simp [State.revoked_at_eq_false g.current, g.form, g.inflight, g.timeout]
    exact fun hp hn => decide_eq_false (Nat.not_le.2 (g.pins hp hn))
  · dsimp only
    rw [hdrop]
    rfl

theorem RingRight.exec_ringAttach {sid : Nat} {x : Session} (k : RingRight h n s) (r : Ready h 0x0303 false s)
    (hv : (s.part h.part).revoking = false) (hp : pushes (s.ring n).rtype = true) (hx : s.session sid = some x)
    (ho : x.part = (s.ring n).owner) :
    exec (.ringAttach t h n sid) s = .next ((((s.at t).setRing n { s.ring n with
      pushSession := sid, pushIdx := (s.ring n).limitIdx }).useCtx n).answer h 0x0303 .ok noDetail []) := by
  rw [Machine.exec_ringAttach]
  refine isain_done r rfl k.made k.owns (checks_pass ?_)
  simp [State.revoked_at_eq_false hv, hp, hx, ho]

theorem RingRight.exec_ringDetach (k : RingRight h n s) (r : Ready h 0x0303 false s)
    (hv : (s.part h.part).revoking = false) (hp : pushes (s.ring n).rtype = true) :
    exec (.ringDetach t h n) s = .next ((((s.at t).modRing n fun r => { r with
      pushSession := 0 }).useCtx n).answer h 0x0303 .ok noDetail []) := by
  rw [Machine.exec_ringDetach]
  refine isain_done r rfl k.made k.owns (checks_pass ?_)
  simp [State.revoked_at_eq_false hv, hp]

/-- What a `RING_DESTROY` leaves (R89). -/
def State.destroyRing (n : Nat) (s : State) : State :=
  s.updRings fun x => { x with
    ctx := tdel x.ctx n
    cache := { x.cache with cached := x.cache.cached.erase n } }

theorem RingRight.exec_ringDestroy (k : RingRight h n s) (r : Ready h 0x0304 false s)
    (he : (s.ring n).enabled = false) (hi : (s.ring n).inflight = 0)
    (hc : ∀ e ∈ s.rings.ctx, e.1 ≠ n → hostProduced e.2.rtype = true → e.2.cqRing ≠ n) :
    exec (.ringDestroy t h n) s = .next ((((s.at t).destroyRing n).keep
      ((s.at t).destroyRing n).ringsVal).answer h 0x0304 .ok noDetail []) := by
  rw [Machine.exec_ringDestroy]
  refine isain_done r rfl k.made k.owns (checks_pass ?_)
  simp [he, hi]
  exact fun m x => hc (m, x)

theorem State.ringMade_destroyRing (n : Nat) (s : State) : (s.destroyRing n).ringMade n = false := by
  simp [State.ringMade, State.ring, State.destroyRing, tgetD]

theorem State.ring_destroyRing_ne {k : Nat} (hk : k ≠ n) : (s.destroyRing n).ring k = s.ring k := by
  simp [State.ring, State.destroyRing, tgetD, tget_tdel_ne s.rings.ctx hk]

/-- An enabled ring is not destroyed (R89). -/
theorem RingRight.exec_ringDestroy_enabled (k : RingRight h n s) (r : Ready h 0x0304 false s)
    (he : (s.ring n).enabled = true) :
    exec (.ringDestroy t h n) s = .next ((s.at t).answer h 0x0304 .eState noDetail []) := by
  rw [Machine.exec_ringDestroy]
  refine isain_refuse r rfl k.made k.owns ?_
  simp [checks, he, no]

theorem RingRight.exec_ringQuery (k : RingRight h n s) (r : Ready h 0x0305 true s) :
    exec (.ringQuery t h n) s =
      .next ((s.at t).answer h 0x0305 .ok noDetail (ringContextWords n (s.ring n))) :=
  isain_done r rfl k.made k.owns rfl

theorem RingRight.exec_ringRepush {start : W32} {count : Nat} (k : RingRight h n s) (r : Ready h 0x0306 false s)
    (hp : pushes (s.ring n).rtype = true) (hs : (s.ring n).pushSession ≠ 0)
    (hl : 0 ≤ idxDiff start (s.ring n).limitIdx) (hc : (count : Int) ≤ idxDiff (s.ring n).pushIdx start) :
    exec (.ringRepush t h n start count) s =
      .next (((s.at t).repush n (s.ring n).pushSession start count).answer h 0x0306 .ok noDetail []) := by
  rw [Machine.exec_ringRepush]
  refine isain_done r rfl k.made k.owns (checks_pass ?_)
  simp [hp, hs, Int.not_lt.2 hl, Int.not_lt.2 hc]

/-- The commands on a ring that is made, each with its opcode and whether a global stop allows it (R392). -/
def ringCommands (t : Nat) (h : CmdHdr) (m : RingMask) (n sid : Nat) (start : W32) (count : Nat) :
    List (Instr × Nat × Bool) :=
  [(.ringConfig t h m, 0x0302, false), (.ringAttach t h n sid, 0x0303, false), (.ringDetach t h n, 0x0303, false),
    (.ringDestroy t h n, 0x0304, false), (.ringQuery t h n, 0x0305, true),
    (.ringRepush t h n start count, 0x0306, false)]

/-- Each of them asks first whether the ring is made, then whether its issuer owns it (R383, R388). -/
theorem ringCommands_form {m : RingMask} {sid : Nat} {start : W32} {count : Nat} (hm : m.ring = n) {i : Instr}
    {op : Nat} {stop : Bool} (hi : (i, op, stop) ∈ ringCommands t h m n sid start count) :
    ∃ own : State → Reply, exec i s = s.isain t { op := op, stop := stop } h (fun s => s.ringMade n)
      (fun s => owns h (s.ring n).owner) own := by
  subst hm
  simp only [ringCommands, List.mem_cons, Prod.mk.injEq, List.not_mem_nil, or_false] at hi
  rcases hi with ⟨rfl, rfl, rfl⟩ | ⟨rfl, rfl, rfl⟩ | ⟨rfl, rfl, rfl⟩ | ⟨rfl, rfl, rfl⟩ |
    ⟨rfl, rfl, rfl⟩ | ⟨rfl, rfl, rfl⟩
  all_goals exact ⟨_, rfl⟩

theorem exec_ringCommand_missing {m : RingMask} {sid : Nat} {start : W32} {count : Nat} (hm : m.ring = n) {i : Instr}
    {op : Nat} {stop : Bool} (hi : (i, op, stop) ∈ ringCommands t h m n sid start count) (r : Ready h op stop s)
    (hn : s.ringMade n = false) : exec i s = .next ((s.at t).answer h op .eState noDetail []) := by
  obtain ⟨own, hexec⟩ := ringCommands_form (s := s) hm hi
  rw [hexec]
  exact isain_missing r rfl hn

theorem exec_ringCommand_foreign {m : RingMask} {sid : Nat} {start : W32} {count : Nat} (hm : m.ring = n) {i : Instr}
    {op : Nat} {stop : Bool} (hi : (i, op, stop) ∈ ringCommands t h m n sid start count) (r : Ready h op stop s)
    (hn : s.ringMade n = true) (h0 : h.part ≠ 0) (ho : h.part ≠ (s.ring n).owner) :
    exec i s = .next ((s.at t).answer h op .ePriv noDetail []) := by
  obtain ⟨own, hexec⟩ := ringCommands_form (s := s) hm hi
  rw [hexec]
  exact isain_noRight r rfl hn (by simp [owns, h0, ho])

end RingCommands

/-! ### Slot queries and barriers (R110, R111, R392) -/

section SlotsAndBarriers

variable {s : State} {t : Nat} {h : CmdHdr}

/-- To a partition that neither owns a slot nor is partition 0 it reads as zeros (R392). -/
theorem exec_slotQuery_foreign {slot : Nat} (r : Ready h 0x0308 true s) (hs : slot < 65536) (h0 : h.part ≠ 0)
    (hp : (s.slot slot).part ≠ h.part) :
    exec (.slotQuery t h slot) s = .next ((s.at t).answer h 0x0308 .ok noDetail (List.replicate 3 0)) := by
  have hzero : pack [(3, 0), (6, 0), (16, 0), (16, 0), (16, 0), (64, 0), (12, 0), (32, 0)] = List.replicate 3 0 := by
    decide
  rw [exec_slotQuery]
  refine isain_done r rfl rfl rfl ?_
  simp [Nat.not_le.2 hs, h0, hp, hzero]

/-- To its owner and partition 0 it reads as the request it works for (R392). -/
theorem exec_slotQuery_running {slot n : Nat} {i : W32} (r : Ready h 0x0308 true s) (hs : slot < 65536)
    (hp : h.part = 0 ∨ (s.slot slot).part = h.part) (hsrc : (s.slot slot).src = .ring n i)
    (hst : (s.slot slot).state = .running) :
    exec (.slotQuery t h slot) s = .next ((s.at t).answer h 0x0308 .ok noDetail (pack [(3, 2),
      (6, (s.slot slot).part), (16, (s.slot slot).gen), (16, (s.slot slot).model), (16, (s.slot slot).epoch),
      (64, (s.slot slot).deadline), (12, n), (32, i.toNat)])) := by
  rw [exec_slotQuery]
  refine isain_done r rfl rfl rfl ?_
  simp [Nat.not_le.2 hs, hp, hsrc, hst]

/-- What a `BARRIER` may name (R110). -/
structure BarrierGood (h : CmdHdr) (rings : List Nat) (pairs : List (Nat × Nat)) (s : State) : Prop where
  ready : Ready h 0x0307 false s
  current : (s.part h.part).revoking = false
  hostRings : ∀ n ∈ rings, s.ringMade n = true ∧ (s.ring n).owner = h.part ∧
    hostProduced (s.ring n).rtype = true
  ownTables : ∀ p ∈ pairs, ∃ x, s.table p.1 = some x ∧ x.owner = h.part ∧
    (x.genIn .current).map (·.g) ≠ some p.2
  fewRings : rings.length ≤ 64
  fewPairs : pairs.length ≤ 16
  timeout : timeoutBad h = false
  room : (s.barriersOf h.part).length < 16

/-- A check that every named table passes. -/
theorem BarrierGood.pairs_pass {rings : List Nat} {pairs : List (Nat × Nat)} (g : BarrierGood h rings pairs s)
    {bad : Nat × Nat → Bool} (hb : ∀ p x, s.table p.1 = some x → x.owner = h.part →
      (x.genIn .current).map (·.g) ≠ some p.2 → bad p = false) :
    itemBad rings.length bad pairs = none :=
  itemBad_eq_none fun p hp =>
    let ⟨x, hx, ho, hg⟩ := g.ownTables p hp
    hb p x hx ho hg

theorem BarrierGood.exec_barrier {rings : List Nat} {pairs : List (Nat × Nat)} (g : BarrierGood h rings pairs s) :
    exec (.barrier t h rings pairs) s = .next ((s.at t).updRings fun x => { x with
      barriers := x.barriers ++ [(h.part, s.freeBarrier h.part,
        { h := h, points := rings.map fun n => (n, (s.ring n).prodIdx), pairs := pairs,
          hold := h.flag, due := max s.tick t + timeoutOf h })] }) := by
  have hmade : itemBad 0 (fun n => !(s.at t).ringMade n) rings = none :=
    itemBad_eq_none fun n hn => by simp [(g.hostRings n hn).1]
  have howned : itemBad 0 (fun n => ((s.at t).ring n).owner != h.part) rings = none :=
    itemBad_eq_none fun n hn => by simp [(g.hostRings n hn).2.1]
  have hhost : itemBad 0 (fun n => !hostProduced ((s.at t).ring n).rtype) rings = none :=
    itemBad_eq_none fun n hn => by simp [(g.hostRings n hn).2.2]
  have htable : itemBad rings.length (fun p => ((s.at t).table p.1).isNone) pairs = none :=
    g.pairs_pass fun p x hx _ _ => by simp [hx]
  have htableOwned : itemBad rings.length (fun p => ((s.at t).table p.1).map (·.owner) != some h.part) pairs = none :=
    g.pairs_pass fun p x hx ho _ => by simp [hx, ho]
  have hretiring : itemBad rings.length
      (fun p => (((s.at t).table p.1).bind (·.genIn .current)).map (·.g) == some p.2) pairs = none :=
    g.pairs_pass fun p x hx _ hg => by simpa [hx] using hg
  rw [Machine.exec_barrier]
  refine isain_wait g.ready rfl rfl rfl (checksAt_pass ?_)
  simp only [List.forall_mem_cons]
  refine ⟨hmade, htable, howned, htableOwned, ?_, ?_, ?_, hhost, hretiring, ?_, nofun⟩
  · simp [unlistedAt, onWhole, g.ready.listed]
  · simp [onWhole, State.revoked_at_eq_false g.current]
  · simp [onWhole, Nat.not_lt.2 g.fewRings, Nat.not_lt.2 g.fewPairs, g.timeout]
  · simp [onWhole, Nat.not_le.2 g.room]

/-- A barrier whose rings and generations are complete answers with its completion rings' producer indices (R110). -/
theorem exec_barrierComplete_done {part idx : Nat} {b : Barrier} (hr : s.running = true) (hi : s.bay.isainUp = true)
    (hb : s.barrier part idx = some b) (hd : s.barrierDone b = true) :
    exec (.barrierComplete t part idx) s = .next (((s.at t).dropBarrier part idx).answer b.h 0x0307 .ok noDetail
      (pack (b.points.map fun p => (32, (s.ring (s.ring p.1).cqRing).prodIdx.toNat)))) := by
  have hb' : (s.at t).barrier part idx = some b := hb
  rw [exec_barrierComplete]
  refine (happen_pos ?_).trans ?_
  · simp [hr, hi, hb, hd]
  · simp only [hb']
    rfl

/-- With `hold`, no entry at or above a barrier's point is admitted (R110). -/
theorem State.admits_of_held {e : Nat × Nat × Barrier} {p : Nat × W32} (he : e ∈ s.rings.barriers)
    (hp : p ∈ e.2.2.points) (hh : e.2.2.hold = true) (ha : idxAbove p.2 (s.ring p.1).consIdx = false) :
    s.admits p.1 = false := by
  have hheld : s.heldBack p.1 (s.ring p.1).consIdx = true :=
    List.any_eq_true.2 ⟨e, he, by simpa [hh] using ⟨p.2, hp, ha⟩⟩
  simp [State.admits, State.stands, hheld]

end SlotsAndBarriers

end Sys2Proof.Machine

namespace Sys2Proof.Machine

/-! ### Reads of memory, and what they leave to the rings (R325) -/

section Reads

variable {s u v : State}

/-- Two states differ by reads of device memory: by what they count and correct, and by no byte (R325). -/
structure ReadsOnly (s u : State) : Prop where
  told : ToldOnly s u
  rings : u.rings = s.rings
  bytes : u.mem.bytes = s.mem.bytes
  faults : u.mem.faults ⊆ s.mem.faults

theorem ReadsOnly.refl (s : State) : ReadsOnly s s := ⟨.refl s, rfl, rfl, List.Subset.refl _⟩

theorem ReadsOnly.trans (h : ReadsOnly s u) (k : ReadsOnly u v) : ReadsOnly s v :=
  ⟨h.told.trans k.told, k.rings.trans h.rings, k.bytes.trans h.bytes, List.Subset.trans k.faults h.faults⟩

/-- A read corrects a word at most: it brings no fault about (R325). -/
theorem State.faults_readFault (w access : Nat) (f : WordFault) (s : State) :
    (s.readFault w access f).mem.faults ⊆ s.mem.faults := by
  cases f with
  | flipped => exact List.filter_subset_self _
  | poison => exact List.Subset.refl _
  | broken =>
    unfold State.readFault State.recordUe
    dsimp only
    split
    · exact List.Subset.refl _
    · rw [State.record_mem]
      exact List.Subset.refl _

theorem readsOnly_readFault (w access : Nat) (f : WordFault) (s : State) : ReadsOnly s (s.readFault w access f) :=
  ⟨readFault_told w access f, State.readFault_rings w access f s, State.readFault_bytes w access f s,
    State.faults_readFault w access f s⟩

/-- A fold of reads only reads. -/
theorem foldl_readsOnly {α : Type} {f : State → α → State} (h : ∀ s a, ReadsOnly s (f s a)) (l : List α)
    (s : State) : ReadsOnly s (l.foldl f s) := by
  induction l generalizing s with
  | nil => exact .refl s
  | cons a l ih => exact (h s a).trans (ih _)

theorem readsOnly_touch (a n access : Nat) (s : State) : ReadsOnly s (s.touch a n access) :=
  foldl_readsOnly (fun s (e : Nat × WordFault) => readsOnly_readFault e.1 access e.2 s) _ s

/-- What can be read once can be read again. -/
theorem ReadsOnly.readable {a n : Nat} (h : ReadsOnly s u) (hr : s.mem.readable a n = true) :
    u.mem.readable a n = true := by
  simp only [Memory.readable, Bool.not_eq_true', List.any_eq_false] at hr ⊢
  exact fun e he => hr e (List.mem_filter.2 ⟨h.faults (List.mem_filter.1 he).1, (List.mem_filter.1 he).2⟩)

/-- Reads change no ring. -/
@[simp] theorem State.rings_touch (a n access : Nat) (s : State) : (s.touch a n access).rings = s.rings :=
  (readsOnly_touch a n access s).rings

@[simp] theorem State.ring_touch (a n access k : Nat) (s : State) : (s.touch a n access).ring k = s.ring k := by
  rw [State.ring, State.rings_touch, State.ring]

@[simp] theorem State.sent_touch (a n access : Nat) (s : State) : (s.touch a n access).sent = s.sent :=
  (touch_told a n access).sent

/-- A word of Isain's areas is read, which changes no ring. -/
@[simp] theorem State.rings_isainWord (check : WordCheck) (s : State) : (s.isainWord check).rings = s.rings := by
  unfold State.isainWord
  split
  · exact State.rings_touch _ _ _ _
  · rfl

/-- What only tells leaves the rest of the state as it was. -/
theorem ToldOnly.frame (h : ToldOnly s u) : u = { s with rings := u.rings, mem := u.mem, obs := u.obs } := by
  obtain ⟨h1, h2, h3, h4, h5, h6, h7, h8, h9, h10, h11, h12, h13, h14, h15, h16, h17, h18, h19, h20⟩ := h
  rw [← h1, ← h2, ← h3, ← h4, ← h5, ← h6, ← h7, ← h8, ← h9, ← h10, ← h11, ← h12, ← h13, ← h14, ← h15, ← h16, ← h17,
    ← h18, ← h19, ← h20]

end Reads

/-! ### Items for one ring, and what they leave to the others (R104) -/

section OneRing

variable {s u v : State} {n m : Nat} {item : RingItem}

/-- Two states differ, as far as rings go, at most in the context of one ring. -/
structure OneRing (n : Nat) (s u : State) : Prop where
  cache : u.rings.cache = s.rings.cache
  others : ∀ k, k ≠ n → u.ring k = s.ring k

theorem OneRing.refl (n : Nat) (s : State) : OneRing n s s := ⟨rfl, fun _ _ => rfl⟩

theorem OneRing.trans (h : OneRing n s u) (k : OneRing n u v) : OneRing n s v :=
  ⟨k.cache.trans h.cache, fun j hj => (k.others j hj).trans (h.others j hj)⟩

theorem setRing_oneRing (r : Ring) : OneRing n s (s.setRing n r) := ⟨rfl, fun _ hk => State.ring_setRing_ne r hk⟩

theorem modRing_oneRing (f : Ring → Ring) : OneRing n s (s.modRing n f) := setRing_oneRing _

theorem putEntry_oneRing (e : List W64) : OneRing n s (s.putEntry n e) := by
  unfold State.putEntry
  refine OneRing.trans ⟨?_, fun k _ => ?_⟩ (modRing_oneRing _)
  · rw [State.poke_rings]
  · rw [State.ring_poke]

theorem foldl_putEntry_oneRing (item : RingItem) (s : State) :
    OneRing n s (item.foldl (fun s e => s.putEntry n e) s) := by
  induction item generalizing s with
  | nil => exact .refl n s
  | cons e item ih => exact (putEntry_oneRing e).trans (ih _)

theorem putLoss_oneRing : OneRing n s (s.putLoss n) := by
  unfold State.putLoss
  dsimp only
  split
  · exact (foldl_putEntry_oneRing _ _).trans (modRing_oneRing _)
  · exact .refl n s

theorem overwrite_oneRing (need fuel : Nat) (s : State) : OneRing n s (s.overwrite n need fuel) := by
  induction fuel generalizing s with
  | zero => exact .refl n s
  | succ fuel ih =>
    unfold State.overwrite
    dsimp only
    split
    · exact .refl n s
    · exact (setRing_oneRing _).trans (ih _)

/-- An item that completes no entry changes its own ring alone. -/
theorem CompletesNone.itemNow (h : CompletesNone item) : OneRing n s (s.itemNow n item) := by
  have put (s : State) : OneRing n s (s.putItem n item) := foldl_putEntry_oneRing item s
  unfold State.itemNow
  simp only [h.itemDone, h.dropItem]
  refine (putLoss_oneRing (s := s)).trans ?_
  generalize s.putLoss n = s
  split
  · exact .refl n s
  split
  · exact modRing_oneRing _
  split
  · split
    · exact put s
    · exact modRing_oneRing _
  split
  · exact put s
  split
  · refine ((overwrite_oneRing ((s.ring n).need item) ((s.ring n).need item) s).trans putLoss_oneRing).trans ?_
    split
    · exact put _
    · exact modRing_oneRing _
  · exact modRing_oneRing _

/-- A faulted ring takes no item (R331). -/
theorem CompletesNone.itemNow_faulted (h : CompletesNone item) (hf : (s.ring n).faulted = true) :
    s.itemNow n item = s := by
  have hloss : s.putLoss n = s := by simp [State.putLoss, hf]
  simp [State.itemNow, hloss, hf, h.itemDone]

/-- An item for any ring leaves a faulted ring as it was. -/
theorem CompletesNone.ring_ringItem_faulted (h : CompletesNone item) (hf : (s.ring n).faulted = true) :
    (s.ringItem m item).ring n = s.ring n := by
  unfold State.ringItem
  split
  · rw [h.itemDone]
  · split
    · rcases eq_or_ne n m with rfl | hne
      · rw [h.itemNow_faulted (s := s.useCtx n) hf, State.ring_useCtx]
      · exact h.itemNow.others n hne
    · rfl

/-- An item for any ring starts no fetch of a context that is in the cache (R90). -/
theorem CompletesNone.fetching_ringItem (h : CompletesNone item) (hc : s.cached n = true)
    (hf : n ∉ s.rings.cache.fetching) : n ∉ (s.ringItem m item).rings.cache.fetching := by
  unfold State.ringItem
  split
  · rwa [h.itemDone]
  · split
    · rw [h.itemNow.cache]
      exact hf
    next hm =>
      have hne : n ≠ m := fun hne => hm (hne ▸ hc)
      simp only [State.missCtx, State.updRings_rings]
      split
      · exact hf
      · simp [hf, hne]

end OneRing

/-! ### Events (R454) -/

section Events

variable {s : State} {n part code rm : Nat} {data : List (Nat × Nat)}

theorem headKind_entryHead {kind flags count d : Nat} (hk : kind < 256) (hc : count < 2 ^ 24) :
    headKind (entryHead kind flags count d) = kind := by
  simp only [headKind, entryHead, bitsOf, BitVec.toNat_ofNat]
  omega

/-- An event completes no entry. -/
theorem completesNone_eventItem (code tick wall rm : Nat) (data : List Nat) :
    CompletesNone (eventItem code tick wall rm data) := by
  have hkind {k : Nat} (hk : k < 2 ^ 24) : headKind (entryHead 0x13 0 k code) = 0x13 :=
    headKind_entryHead (by decide) hk
  intro e he
  unfold eventItem at he
  dsimp only at he
  split at he
  all_goals
    cases he
    simp [wordOf, hkind]

/-- An event is an item for its partition's event ring, or is counted where there is none (R454, R455). -/
theorem State.event_cases (part code : Nat) (data : List (Nat × Nat)) (rm : Nat) (s : State) :
    (∃ m item, CompletesNone item ∧ s.event part code data rm = s.ringItem m item) ∨
      s.event part code data rm = s.count Ctr.evNoRing part := by
  unfold State.event
  split
  · exact .inl ⟨_, _, completesNone_eventItem _ _ _ _ _, rfl⟩
  · exact .inr rfl

theorem State.ring_event_faulted (hf : (s.ring n).faulted = true) :
    (s.event part code data rm).ring n = s.ring n := by
  rcases s.event_cases part code data rm with ⟨m, item, hitem, he⟩ | he
  · rw [he, hitem.ring_ringItem_faulted hf]
  · rw [he]
    rfl

theorem State.fetching_event (hc : s.cached n = true) (hf : n ∉ s.rings.cache.fetching) :
    n ∉ (s.event part code data rm).rings.cache.fetching := by
  rcases s.event_cases part code data rm with ⟨m, item, hitem, he⟩ | he
  · rw [he]
    exact hitem.fetching_ringItem hc hf
  · rw [he]
    exact hf

end Events

end Sys2Proof.Machine

namespace Sys2Proof.Machine

/-! ### Context fetches and pushes (R90, R102, R331) -/

section FetchAndPush

variable {s u : State} {t n : Nat}

/-- The state in which the fetch of a context has ended: the context is in the cache, and nothing waits for it. -/
def State.fetched (n : Nat) (s : State) : State :=
  (s.updRings fun x => { x with cache := { x.cache with
    fetching := x.cache.fetching.filter (· != n)
    waiting := x.cache.waiting.filter fun e => e.1 != n } }).useCtx n

theorem State.cached_fetched (n : Nat) (s : State) : (s.fetched n).cached n = true := State.cached_useCtx n _

theorem State.ctx_fetched (n : Nat) (s : State) : (s.fetched n).rings.ctx = s.rings.ctx := rfl

theorem State.fetching_fetched (n : Nat) (s : State) : n ∉ (s.fetched n).rings.cache.fetching := by
  simp [State.fetched, State.useCtx]

theorem exec_contextFetch_alone {check : WordCheck} (hr : s.running = true) (hf : n ∈ s.rings.cache.fetching)
    (hw : ∀ e ∈ s.rings.cache.waiting, e.1 ≠ n) : exec (.contextFetch t n check) s =
      .next (if checkBad check then (((s.at t).fetched n).isainWord check).faultRing n
        else ((s.at t).fetched n).isainWord check) := by
  have hops : ((s.at t).rings.cache.waiting.filter fun e => e.1 == n) = [] :=
    List.filter_eq_nil_iff.2 fun e he => by simpa using hw e he
  rw [exec_contextFetch]
  refine (happen_pos ?_).trans ?_
  · simpa [hr] using hf
  · rw [hops]
    rfl

/-- Dropping the stalled items of a ring changes no ring's place in the cache. -/
theorem State.cache_completeEntry (n : Nat) (i : W32) (s : State) :
    (s.completeEntry n i).rings.cache = s.rings.cache := by
  unfold State.completeEntry
  dsimp only
  generalize s.slotsAt n i = l
  have hfold : (l.foldl (fun s k => s.freeSlot k) s).rings.cache = s.rings.cache := by
    induction l generalizing s with
    | nil => rfl
    | cons k l ih => exact ih _
  exact hfold

theorem State.cache_dropItem (n : Nat) (item : RingItem) (s : State) :
    (s.dropItem n item).rings.cache = s.rings.cache := by
  unfold State.dropItem State.itemDone
  split
  · rfl
  · dsimp only
    split
    · rw [State.cache_completeEntry]
      rfl
    · rfl

theorem State.cache_dropStalled (n : Nat) (s : State) : (s.dropStalled n).rings.cache = s.rings.cache := by
  rw [State.dropStalled_eq]
  generalize (s.ring n).stalled = l
  have hfold (l : List (Nat × RingItem)) (u : State) :
      (l.foldl (fun s e => s.dropItem n e.2) u).rings.cache = u.rings.cache := by
    induction l generalizing u with
    | nil => rfl
    | cons e l ih => exact (ih _).trans (State.cache_dropItem n e.2 u)
  exact hfold l _

/-- The ring whose context cannot be read is disabled and faulted (R331). -/
theorem State.ring_faultRing (n : Nat) (s : State) :
    ((s.faultRing n).ring n).faulted = true ∧ ((s.faultRing n).ring n).enabled = false := by
  unfold State.faultRing
  dsimp only
  rw [State.ring_event_faulted (by rw [State.ring_modRing])]
  simp

/-- The event of its fault starts no fetch of the context again. -/
theorem State.fetching_faultRing (hc : s.cached n = true) (hf : n ∉ s.rings.cache.fetching) :
    n ∉ (s.faultRing n).rings.cache.fetching := by
  have hcache (g : Ring → Ring) : ((s.dropStalled n).modRing n g).rings.cache = s.rings.cache :=
    State.cache_dropStalled n s
  refine State.fetching_event ?_ ?_
  · rw [State.cached, hcache]
    exact hc
  · rwa [hcache]

/-- The fetch of a context ends, with the context in the cache, or with its ring faulted (R90, R331). -/
theorem exec_contextFetch_ends {check : WordCheck} (hr : s.running = true) (hf : n ∈ s.rings.cache.fetching)
    (hw : ∀ e ∈ s.rings.cache.waiting, e.1 ≠ n) :
    ∃ s' : State, exec (.contextFetch t n check) s = .next s' ∧ n ∉ s'.rings.cache.fetching ∧
      ((check = .clean ∨ check = .corrected) → s'.cached n = true ∧ s'.rings.ctx = s.rings.ctx) ∧
      ((check = .uncorrectable ∨ check = .poisoned) →
        (s'.ring n).faulted = true ∧ (s'.ring n).enabled = false) := by
  have hrings : (((s.at t).fetched n).isainWord check).rings = ((s.at t).fetched n).rings :=
    State.rings_isainWord _ _
  have hcached : (((s.at t).fetched n).isainWord check).cached n = true := by
    rw [State.cached, hrings]
    exact State.cached_fetched n _
  have hfetching : n ∉ (((s.at t).fetched n).isainWord check).rings.cache.fetching := by
    rw [hrings]
    exact State.fetching_fetched n _
  refine ⟨_, exec_contextFetch_alone hr hf hw, ?_⟩
  cases hbad : checkBad check
  · have hctx : (((s.at t).fetched n).isainWord check).rings.ctx = s.rings.ctx := by
      rw [hrings, State.ctx_fetched]
      rfl
    refine ⟨hfetching, fun _ => ⟨hcached, hctx⟩, ?_⟩
    rintro (rfl | rfl) <;> cases hbad
  · refine ⟨State.fetching_faultRing hcached hfetching, ?_, fun _ => State.ring_faultRing n _⟩
    rintro (rfl | rfl) <;> cases hbad

@[simp] theorem State.rings_emit (ifc len : Nat) (e : Sent) (s : State) : (s.emit ifc len e).rings = s.rings := by
  unfold State.emit
  split
  · rfl
  · split <;> rfl

@[simp] theorem State.mem_emit (ifc len : Nat) (e : Sent) (s : State) : (s.emit ifc len e).mem = s.mem := by
  unfold State.emit
  split
  · rfl
  · split <;> rfl

/-- A session's frame changes no ring and no memory. -/
theorem State.sendFrame_leaves (sid ftype target : Nat) (st : Status) (words : List Nat) (s : State) :
    (s.sendFrame sid ftype target st words).rings = s.rings ∧
      (s.sendFrame sid ftype target st words).mem = s.mem := by
  cases hx : s.session sid with
  | none => simp [State.sendFrame, hx]
  | some x =>
    rw [State.sendFrame_eq hx]
    exact ⟨State.rings_emit _ _ _ _, State.mem_emit _ _ _ _⟩

/-- A ring as the end of a session leaves it (R102). -/
def Ring.detach (sid : Nat) (r : Ring) : Ring := if r.pushSession = sid then { r with pushSession := 0 } else r

/-- The end of a session takes it from the rings that push to it, and leaves the rest of each (R102). -/
theorem State.ring_endSession (sid n : Nat) (s : State) :
    ∃ p, (s.endSession sid).ring n = { s.ring n with pushSession := p } := by
  have hmap : (s.endSession sid).rings.ctx = s.rings.ctx.map fun e => (e.1, e.2.detach sid) := by
    refine List.map_congr_left fun e _ => ?_
    unfold Ring.detach
    split <;> rfl
  have hring : (s.endSession sid).ring n = ((tget s.rings.ctx n).map (Ring.detach sid)).getD {} := by
    rw [State.ring, tgetD, hmap, tget_map_snd]
  rw [hring, State.ring, tgetD]
  cases tget s.rings.ctx n with
  | none => exact ⟨0, rfl⟩
  | some r =>
    by_cases hp : r.pushSession = sid
    · exact ⟨0, by simp [Ring.detach, hp]⟩
    · exact ⟨r.pushSession, by simp [Ring.detach, hp]⟩

/-- A frame sent leaves every ring but for the session it pushes to, and memory. -/
theorem State.sendOuv_leaves (sid ftype target : Nat) (st : Status) (words : List Nat) (n : Nat) (s : State) :
    (∃ p, (s.sendOuv sid ftype target st words).ring n = { s.ring n with pushSession := p }) ∧
      (s.sendOuv sid ftype target st words).mem = s.mem := by
  obtain ⟨hrings, hmem⟩ := s.sendFrame_leaves sid ftype target st words
  have hring : (s.sendFrame sid ftype target st words).ring n = s.ring n := by rw [State.ring, hrings, State.ring]
  unfold State.sendOuv State.closeWorn
  generalize s.sendFrame sid ftype target st words = u at hmem hring
  have hsame : (∃ p, u.ring n = { s.ring n with pushSession := p }) ∧ u.mem = s.mem := ⟨⟨_, hring⟩, hmem⟩
  split
  · split
    · obtain ⟨hrings', hmem'⟩ := u.sendFrame_leaves sid 0xF 0 .eNospace []
      have hring' : (u.sendFrame sid 0xF 0 .eNospace []).ring n = u.ring n := by rw [State.ring, hrings', State.ring]
      obtain ⟨p, hp⟩ := (u.sendFrame sid 0xF 0 .eNospace []).ring_endSession sid n
      exact ⟨⟨p, by rw [State.closeSession, hp, hring', hring]⟩, hmem'.trans hmem⟩
    · exact hsame
  · exact hsame

/-- The number of entries a push takes (R102). -/
def Ring.pushCount (r : Ring) : Nat := min (idxCount r.prodIdx r.pushIdx) r.pushBatch

/-- A push that is due fetches its ring's context first (R90). -/
theorem exec_ringPush_miss (hr : s.running = true) (hd : (s.at t).pushDue n = true) (hc : s.cached n = false) :
    exec (.ringPush t n) s = .next ((s.at t).missCtx n none) := by
  rw [exec_ringPush]
  refine (happen_pos ?_).trans ?_
  · simp [hr, hd]
  · simp [hc]

/-- The state in which the entries of a push have been read. -/
def State.readEntries (n : Nat) (l : List W32) (s : State) : State :=
  l.foldl (fun u i => u.touch ((s.ring n).addr i) (s.ring n).entryBytes 0) s

theorem readsOnly_readEntries (n : Nat) (l : List W32) (s : State) : ReadsOnly s (s.readEntries n l) :=
  foldl_readsOnly (fun s _ => readsOnly_touch _ _ 0 s) l s

/-- The indices of the entries that a ring's next push takes, in order (R102). -/
def State.pushIndices (n : Nat) (s : State) : List W32 :=
  (List.range (s.ring n).pushCount).map fun j => (s.ring n).pushIdx + BitVec.ofNat 32 j

/-- The state in which a ring's next push has read its entries. -/
def State.readPush (n : Nat) (s : State) : State := (s.useCtx n).readEntries n (s.pushIndices n)

theorem State.readPush_told (n : Nat) (s : State) : ToldOnly s (s.readPush n) :=
  (useCtx_told n).trans (readsOnly_readEntries _ _ _).told

theorem State.ctx_readPush (n : Nat) (s : State) : (s.readPush n).rings.ctx = s.rings.ctx :=
  (congrArg Rings.ctx (readsOnly_readEntries n (s.pushIndices n) (s.useCtx n)).rings :)

theorem State.bytes_readPush (n : Nat) (s : State) : (s.readPush n).mem.bytes = s.mem.bytes :=
  (readsOnly_readEntries n (s.pushIndices n) (s.useCtx n)).bytes

/-- In a state `u` that has read them, the entries of a ring that stood in `s` are sent, and its push index rises by
their number (R102). -/
def State.sendPush (n : Nat) (s u : State) : State :=
  (u.sendOuv (s.ring n).pushSession 0x8 n .ok
    (((s.ring n).pushIdx.toNat * 2 ^ 32 + (s.ring n).pushCount * 2 ^ 16) ::
      (s.pushIndices n).flatMap fun i => s.pushWords n i)).modRing n fun r => { r with
        pushIdx := r.pushIdx + BitVec.ofNat 32 (s.ring n).pushCount }

theorem State.sendPush_leaves (h : u.rings.ctx = s.rings.ctx) :
    ((s.sendPush n u).ring n).pushIdx = (s.ring n).pushIdx + BitVec.ofNat 32 (s.ring n).pushCount ∧
    ((s.sendPush n u).ring n).prodIdx = (s.ring n).prodIdx ∧ (s.sendPush n u).mem = u.mem := by
  obtain ⟨⟨p, hp⟩, hmem⟩ := u.sendOuv_leaves (s.ring n).pushSession 0x8 n .ok
    (((s.ring n).pushIdx.toNat * 2 ^ 32 + (s.ring n).pushCount * 2 ^ 16) ::
      (s.pushIndices n).flatMap fun i => s.pushWords n i) n
  have hring : u.ring n = s.ring n := by rw [State.ring, h, State.ring]
  rw [State.sendPush, State.ring_modRing, State.mem_modRing, hp, hring]
  exact ⟨rfl, rfl, hmem⟩

/-- A push that is due sends the awaiting entries of a ring whose context is in the cache, in index order (R102). -/
theorem exec_ringPush_cached (hr : s.running = true) (hd : (s.at t).pushDue n = true) (hc : s.cached n = true) :
    exec (.ringPush t n) s = .next (s.sendPush n ((s.at t).readPush n)) := by
  rw [exec_ringPush]
  refine (happen_pos ?_).trans ?_
  · simp [hr, hd]
  · rw [if_pos (by simpa using hc)]
    rfl

end FetchAndPush

end Sys2Proof.Machine

namespace Sys2Proof.Machine

/-! ### The entry at the head of a host-produced ring (R90, R96, R97, R331) -/

section HeadEntry

variable {s : State} {t n kind : Nat}

/-- A row that reads a ring's context acts where the cache holds it (R90). -/
theorem onCtx_cached {guard : State → Bool} {eff : State → State} (hg : guard (s.at t) = true)
    (hc : s.cached n = true) : s.onCtx t n guard eff = .next (eff (s.at t)) :=
  (happen_pos hg).trans (congrArg _ (if_pos hc))

/-- A miss starts the fetch of its context (R90). -/
theorem onCtx_miss {guard : State → Bool} {eff : State → State} (hg : guard (s.at t) = true)
    (hc : s.cached n = false) : s.onCtx t n guard eff = .next ((s.at t).missCtx n none) :=
  (happen_pos hg).trans (congrArg _ (if_neg (by simp [hc])))

/-- The words of the entry at the head of a ring. -/
def State.headWords (n : Nat) (s : State) : List W64 := s.entryWords n (s.ring n).consIdx

/-- The state in which the entry at the head of a ring has been read. -/
def State.readHead (n : Nat) (s : State) : State :=
  (s.useCtx n).touch ((s.ring n).addr (s.ring n).consIdx) (s.ring n).entryBytes 0

/-- The context of a ring is in the cache, and the entry at its head can be read and is one of its kind that no
check of R97 refuses. -/
structure HeadGood (n kind : Nat) (s : State) : Prop where
  cached : s.cached n = true
  readable : s.entryReadable n (s.ring n).consIdx = true
  passes : headRefusal (s.ring n).rtype (s.ring n).consIdx (s.headWords n) = none
  kind : headKind (wordOf (s.headWords n) 0) = kind

theorem HeadGood.nextEntry {good : W32 → List W64 → State → State} (g : HeadGood n kind s) :
    s.nextEntry n kind good = good (s.ring n).consIdx (s.headWords n) (s.readHead n) := by
  have hpasses := g.passes
  have hkind := g.kind
  unfold State.headWords at hpasses hkind
  simp [State.nextEntry, g.readable, hpasses, hkind, State.headWords, State.readHead]

/-- Such an entry is acted on, where its row's guard holds. -/
theorem HeadGood.onCtx {guard : State → Bool} {good : W32 → List W64 → State → State} (g : HeadGood n kind s)
    (hg : guard (s.at t) = true) : s.onCtx t n guard (fun s => s.nextEntry n kind good) =
      .next (good (s.ring n).consIdx (s.headWords n) ((s.at t).readHead n)) := by
  have g' : HeadGood n kind (s.at t) := ⟨g.cached, g.readable, g.passes, g.kind⟩
  rw [onCtx_cached hg g.cached, g'.nextEntry]
  rfl

@[simp] theorem State.ring_readHead (n k : Nat) (s : State) : (s.readHead n).ring k = s.ring k :=
  State.ring_touch _ _ _ _ _

@[simp] theorem State.sent_readHead (n : Nat) (s : State) : (s.readHead n).sent = s.sent :=
  State.sent_touch _ _ _ _

@[simp] theorem State.bytes_readHead (n : Nat) (s : State) : (s.readHead n).mem.bytes = s.mem.bytes :=
  State.touch_bytes _ _ _ _

/-- What stands in a ring does not change when its head is read. -/
theorem State.entryWords_readHead (n k : Nat) (i : W32) (s : State) :
    (s.readHead n).entryWords k i = s.entryWords k i := by
  simp only [State.entryWords, State.ring_readHead, State.bytesAt, State.bytes_readHead]

/-- Entries consumed: the indices of the ring (R92). -/
@[simp] theorem State.ring_consume (n k : Nat) (s : State) : (s.consume n k).ring n = { s.ring n with
    consIdx := (s.ring n).consIdx + BitVec.ofNat 32 k
    limitIdx := (s.ring n).consIdx + BitVec.ofNat 32 k + BitVec.ofNat 32 (s.ring n).size
    headTick := s.tick
    slotWait := none
    avail := (s.ring n).avail.filter fun e => idxAbove e.1 ((s.ring n).consIdx + BitVec.ofNat 32 k) } := by
  simp [State.consume]

@[simp] theorem State.sent_consume (n k : Nat) (s : State) : (s.consume n k).sent = s.sent := rfl

@[simp] theorem State.mem_consume (n k : Nat) (s : State) : (s.consume n k).mem = s.mem := rfl

@[simp] theorem State.sent_modRing (n : Nat) (f : Ring → Ring) (s : State) : (s.modRing n f).sent = s.sent := rfl

/-- A fence holds back every later entry of its ring (R109). -/
theorem State.admits_of_fences (h : (s.ring n).fences ≠ []) : s.admits n = false := by
  have hnone : (s.ring n).fences.isEmpty = false := List.isEmpty_eq_false_iff.2 h
  simp [State.admits, State.stands, hnone]

/-- A command that Isain holds holds back every later one of its ring (R100). -/
theorem State.admits_of_opened (h1 : (s.ring n).rtype ≠ 1) (h : (s.ring n).opened ≠ []) : s.admits n = false := by
  have hnone : (s.ring n).opened.isEmpty = false := List.isEmpty_eq_false_iff.2 h
  simp [State.admits, State.stands, hnone, h1]

/-- Where a ring's next entry is admitted, one awaits. -/
theorem State.head_of_admits (h : s.admits n = true) : (s.ring n).consIdx ≠ (s.ring n).prodIdx := by
  intro heq
  simp [State.admits, State.stands, heq] at h

end HeadEntry

/-! ### Fences, NOPs and commands of a ring (R97, R100, R104, R109) -/

section RingEntryRows

variable {s : State} {t n : Nat}

theorem exec_nopEntry_head (ha : s.admits n = true) (g : HeadGood n 0x03 s) :
    exec (.nopEntry t n) s = .next (((s.at t).readHead n).consume n 1) := by
  rw [exec_nopEntry]
  exact g.onCtx ha

/-- A fence takes its place before the entries after it (R109). -/
def Ring.addFence (i : W32) (ws : List W64) (r : Ring) : Ring :=
  { r with
    fences := r.fences ++ [(i, wordOf ws 1, (headFlags (wordOf ws 0)).testBit 0)]
    fencePending := r.fencePending + 1 }

theorem exec_fenceEntry_head (ha : s.admits n = true) (g : HeadGood n 0x02 s) : exec (.fenceEntry t n) s =
    .next ((((s.at t).readHead n).modRing n (Ring.addFence (s.ring n).consIdx (s.headWords n))).consume n 1) := by
  rw [exec_fenceEntry]
  exact g.onCtx ha

/-- A fence before which every entry has completed ends (R109). -/
theorem exec_fenceComplete_due {i : W32} {cookie : W64} {post : Bool} {rest : List (W32 × W64 × Bool)}
    (hr : s.running = true) (hf : (s.ring n).fences = (i, cookie, post) :: rest) (ho : (s.ring n).opened = [])
    (hd : ∀ e ∈ (s.ring n).pendingDone, e.1 ≠ i) {u : State}
    (hu : u = (s.at t).setRing n { s.ring n with
      headTick := max s.tick t, fences := rest, fencePending := (s.ring n).fencePending - 1 }) :
    exec (.fenceComplete t n) s = .next (if post then u.ringItem (s.ring n).cqRing
      [[entryHead 0x11 0 1 0, cookie, BitVec.ofNat 64 (n * 2 ^ 36 + i.toNat)]] else u) := by
  have hkept : ((s.ring n).pendingDone.filter fun e => e.1 != i) = (s.ring n).pendingDone :=
    List.filter_eq_self.2 fun e he => by simpa using hd e he
  have hnone : ((s.ring n).pendingDone.find? fun e => e.1 == i) = none :=
    List.find?_eq_none.2 fun e he => by simpa using hd e he
  have hf' : ((s.at t).ring n).fences = (i, cookie, post) :: rest := hf
  rw [exec_fenceComplete]
  refine (happen_pos ?_).trans ?_
  · simp [hr, hf, ho]
  · dsimp only
    rw [hf']
    dsimp only
    rw [State.ring_at, hkept, hnone, hu]
    rfl

/-- The oldest item that has stalled for `full_timeout` is dropped (R104). -/
theorem exec_ringFullStallExpiry_due {e : Nat × RingItem} {rest : List (Nat × RingItem)} (hr : s.running = true)
    (hs : (s.ring n).stalled = e :: rest) (hd : e.1 + (s.ring n).fullTimeout * 1000 ≤ max s.tick t) :
    exec (.ringFullStallExpiry t n) s =
      .next ((((s.at t).modRing n fun r => { r with stalled := rest }).dropItem n e.2).drainStalled n) := by
  have hs' : ((s.at t).ring n).stalled = e :: rest := hs
  rw [exec_ringFullStallExpiry]
  refine (happen_pos ?_).trans ?_
  · simp [hr, hs, hd]
  · rw [hs']

/-- The state in which a command of one entry has been taken from its ring. -/
def State.heldCmd (n : Nat) (s : State) : State :=
  ((s.readHead n).consume n 1).modRing n fun r => { r with
    opened := r.opened ++ [(s.ring n).consIdx], cmd := (s.headWords n).drop 1 }

/-- A whole command of one entry is read, and one of an opcode that no table gives is refused (R100). -/
theorem exec_commandEntry_single (ha : s.admits n = true) (g : HeadGood n 0x04 s) (h3 : (s.ring n).rtype = 3)
    (h1 : headCount (wordOf (s.headWords n) 0) = 1) {op : Nat}
    (hop : op = bitsOf (wordOf (s.headWords n) 1).toNat 63 48) :
    exec (.commandEntry t n) s = .next (if opcodes.contains op then (s.at t).heldCmd n
      else ((s.at t).heldCmd n).answer (cmdHead n ((s.headWords n).drop 1)) op .eArg noDetail []) := by
  have hawait : ¬idxCount (s.ring n).prodIdx (s.ring n).consIdx < 1 := by
    have hne := State.head_of_admits ha
    simp only [idxCount]
    bv_omega
  have hwords : ((s.at t).readHead n).entryWords n (s.ring n).consIdx = s.headWords n :=
    State.entryWords_readHead n n _ _
  have hword : wordOf ((s.headWords n).drop 1) 0 = wordOf (s.headWords n) 1 := by simp [wordOf]
  rw [exec_commandEntry]
  refine (g.onCtx (by simp [ha, h3])).trans ?_
  simp only [h1, State.ring_readHead, State.ring_at, hawait, Nat.one_ne_zero, false_or, Nat.sub_self, List.range_zero,
    List.map_nil, List.any_nil, List.findSome?_nil, List.foldl_nil, List.flatMap_cons, List.flatMap_nil,
    List.append_nil, hwords, State.takeCmd, hword, ← hop]
  simp only [show ¬(8 < 1) from by decide, if_false, Bool.false_eq_true]
  rfl

/-- Isain holds the one command it has taken from a ring, and admits no other meanwhile (R100). -/
theorem State.heldCmd_leaves (h3 : (s.ring n).rtype = 3) (ho : (s.ring n).opened = []) :
    ((s.heldCmd n).ring n).opened = [(s.ring n).consIdx] ∧ ((s.heldCmd n).ring n).cmd = (s.headWords n).drop 1 ∧
    ((s.heldCmd n).ring n).consIdx = (s.ring n).consIdx + 1 ∧ (s.heldCmd n).admits n = false ∧
    (s.heldCmd n).sent = s.sent ∧ (s.heldCmd n).mem.bytes = s.mem.bytes := by
  have hopened : ((s.heldCmd n).ring n).opened = [(s.ring n).consIdx] := by simp [State.heldCmd, ho]
  have hrtype : ((s.heldCmd n).ring n).rtype = 3 := by simp [State.heldCmd, h3]
  refine ⟨hopened, by simp [State.heldCmd], by simp [State.heldCmd], ?_, by simp [State.heldCmd],
    by simp [State.heldCmd]⟩
  exact State.admits_of_opened (by simp [hrtype]) (by simp [hopened])

/-- A `COMMAND` ring admits an entry only where Isain holds none of its commands (R100). -/
theorem State.opened_of_admits (ha : s.admits n = true) (h3 : (s.ring n).rtype = 3) : (s.ring n).opened = [] := by
  by_contra hne
  exact absurd ha (by simp [State.admits_of_opened (by simp [h3]) hne])

end RingEntryRows

/-! ### Losses (R101, R104) -/

section Losses

variable {s : State} {n : Nat} {item : RingItem}

/-- A `LOSS` entry that is due is written when there is room, and reports every loss so far (R104). -/
theorem State.ring_putLoss (hl : (s.ring n).lossCount ≠ 0) (he : (s.ring n).enabled = true)
    (hf : (s.ring n).faulted = false) (hr : 0 < (s.ring n).room) :
    ((s.putLoss n).ring n).lossCount = 0 ∧ ((s.putLoss n).ring n).prodIdx = (s.ring n).prodIdx + 1 := by
  have hput : s.putLoss n = ((lossItem (s.ring n)).foldl (fun s e => s.putEntry n e) s).modRing n
      fun r => { r with lossCount := 0 } := if_pos ⟨hl, he, by simp [hf], hr⟩
  rw [hput, State.ring_modRing, lossItem, List.foldl_cons, List.foldl_nil]
  refine ⟨rfl, ?_⟩
  dsimp only
  rw [State.prodIdx_putEntry]

/-- An item that completes no entry is counted where it is dropped, and stands in the loss that is reported next,
except on a `FABRIC` ring (R104, R357). -/
theorem CompletesNone.ring_dropItem (h : CompletesNone item) :
    ((s.dropItem n item).ring n) = (s.ring n).lose item.length ∧
    (∀ k, k ≠ n → (s.dropItem n item).ring k = s.ring k) ∧
    s.dropItem n item = { s with rings := (s.dropItem n item).rings } := by
  rw [h.dropItem]
  exact ⟨State.ring_modRing s n _, fun k hk => State.ring_modRing_ne _ hk, rfl⟩

end Losses

/-- Settles O17, command by command and event by event. -/
theorem ringsAndSlots : Obligations.RingsAndSlots := by
  unfold Obligations.RingsAndSlots
  refine ⟨?_, ?_, ?_, ?_, ?_, ?_, ?_, ?_, ?_⟩
  · intro t h x s hready h0 hring howner hform hsmall hlarge hinflight htimeout hbase hcq hspace happart hfree hpins
    have g : CreateGood h x s := ⟨hready, h0, hring, howner, hform, hsmall, hlarge, hinflight, htimeout, hbase, hcq,
      hspace, happart, hfree, hpins⟩
    refine ⟨_, g.exec_ringCreate, ?_, ?_, fun n hn => ?_, fun hhost sid y hy hown => ?_, fun hhost => ?_, ?_⟩
    · rw [State.ring_keep, State.ring_createRing, RingSpec.ring_eq]
      rfl
    · rw [State.cached, State.rings_keep]
      exact State.cached_createRing x _
    · rw [State.ring_keep, State.ring_createRing_ne hn, State.ring_at]
    · rw [State.session, State.ouv_keep]
      exact State.session_createRing hhost hy hown
    · rw [State.ouv_keep, State.createRing_device hhost]
      rfl
    · rw [State.keep_eq, State.createRing_frame]
  · intro t ring h s hmade hholds hcurrent
    have k : RingRight h ring s := ⟨hmade, hholds⟩
    refine ⟨?_, ?_, ?_, ?_, ?_, ?_, ?_⟩
    · rintro m rfl hready hform hinflight htimeout hpins
      have hexec (hdrained : m.enabled = some false → (s.ring m.ring).stalled = []) :=
        ConfigGood.exec_ringConfig (t := t) ⟨hready, hcurrent, hform, hinflight, htimeout, hpins, hdrained⟩ k
      have hring := State.ring_configRing m (s.at t)
      have hframe := State.keep_configRing_frame m ((s.at t).configRing m).ringsVal (s.at t)
      constructor
      · intro hkeeps
        refine ⟨_, hexec fun hoff => absurd hoff hkeeps, ?_, fun n hn => ?_, hframe⟩
        · rw [State.ring_keep, hring, State.ring_at]
        · rw [State.ring_keep, State.ring_configRing_ne hn, State.ring_at]
      · intro hoff hstalled
        refine ⟨_, hexec fun _ => hstalled, ?_, ?_, hframe⟩
        · rw [State.ring_keep, hring, State.ring_at]
        · rw [State.ring_keep, hring, RingMask.enabled_apply_off _ hoff]
    · intro sid x hready hpushes hx hown
      exact k.exec_ringAttach hready hcurrent hpushes hx hown
    · exact fun hready hpushes => k.exec_ringDetach hready hcurrent hpushes
    · intro hready hoff hinflight hnamed
      refine ⟨_, k.exec_ringDestroy hready hoff hinflight hnamed, ?_, fun n hn => ?_, ?_⟩
      · rw [State.ringMade, State.ring_keep]
        exact State.ringMade_destroyRing ring _
      · rw [State.ring_keep, State.ring_destroyRing_ne hn, State.ring_at]
      · rw [State.keep_eq]
        rfl
    · exact k.exec_ringDestroy_enabled
    · exact k.exec_ringQuery
    · intro start count hready hpushes hattached hlow hhigh
      exact k.exec_ringRepush hready hpushes hattached hlow hhigh
  · intro t ring h m sid start count s hm i op stop hi hready
    exact ⟨exec_ringCommand_missing hm hi hready, exec_ringCommand_foreign hm hi hready⟩
  · intro t slot h n i s hready hslot
    exact ⟨exec_slotQuery_foreign hready hslot, exec_slotQuery_running hready hslot⟩
  · intro t h rings pairs s
    refine ⟨?_, fun part idx b => exec_barrierComplete_done, fun e he p hp => State.admits_of_held he hp⟩
    intro hready hcurrent hrings hpairs hfewRings hfewPairs htimeout hroom
    exact BarrierGood.exec_barrier ⟨hready, hcurrent, hrings, hpairs, hfewRings, hfewPairs, htimeout, hroom⟩
  · intro t ring s
    refine ⟨fun check => exec_contextFetch_ends, ?_⟩
    rintro k hrun hdue rfl
    refine ⟨exec_ringPush_miss hrun hdue, fun hcached => ?_⟩
    have hctx := State.ctx_readPush ring (s.at t)
    have hbytes := State.bytes_readPush ring (s.at t)
    obtain ⟨hpush, hprod, hmem⟩ := State.sendPush_leaves (s := s) (n := ring) hctx
    exact ⟨_, _, exec_ringPush_cached hrun hdue hcached, (State.readPush_told ring _).frame, hctx, hbytes, rfl, hpush,
      hprod, (congrArg Memory.bytes hmem).trans hbytes⟩
  · intro t ring s
    refine ⟨fun hadmits hcached hread hpass => ⟨fun hkind => ?_, fun hkind => ?_⟩, ?_⟩
    · refine ⟨_, exec_nopEntry_head hadmits ⟨hcached, hread, hpass, hkind⟩, ?_⟩
      simp
    · refine ⟨_, exec_fenceEntry_head hadmits ⟨hcached, hread, hpass, hkind⟩, ?_⟩
      simp [Ring.addFence, State.admits_of_fences, State.headWords]
    · intro i cookie post rest hrun hfences hopened hdone
      have hexec := exec_fenceComplete_due (t := t) hrun hfences hopened hdone rfl
      exact ⟨fun hpost => by simpa [hpost] using hexec, fun hpost => by simpa [hpost] using hexec⟩
  · intro t ring s
    refine ⟨fun hadmits hcached => ⟨onCtx_miss hadmits hcached, onCtx_miss hadmits hcached⟩, ?_, ?_⟩
    · intro hadmits hcached h3 hread hpass hkind hcount
      have g : HeadGood ring 0x04 s := ⟨hcached, hread, h3 ▸ hpass, hkind⟩
      obtain ⟨hopened, hcmd, hcons, hnone, hsent, hbytes⟩ :=
        State.heldCmd_leaves (s := s.at t) h3 (State.opened_of_admits hadmits h3)
      refine ⟨_, hopened, hcmd, hcons, hnone, hsent, hbytes, fun op hop => ?_⟩
      have hexec := exec_commandEntry_single (t := t) hadmits g h3 hcount hop
      constructor
      · intro hknown
        rwa [if_pos (by simpa using hknown)] at hexec
      · intro hunknown
        rwa [if_neg (by simpa using hunknown)] at hexec
    · exact fun e rest => exec_ringFullStallExpiry_due
  · intro n item s hitem
    obtain ⟨hring, hothers, hframe⟩ := CompletesNone.ring_dropItem (s := s) (n := n) hitem
    refine ⟨?_, ?_, fun hnone => ?_, hothers, hframe, State.ring_putLoss⟩
    · rw [hring]
      rfl
    · rw [hring]
      rfl
    · rw [hring]
      exact if_pos hnone

end Sys2Proof.Machine

namespace Sys2Proof.Machine

/-! ### Requests at the head of a ring (R90, R98, R106, R107, R315) -/

section RequestEntries

variable {s u : State} {t n : Nat} {q : Req} {m : Model}

theorem exec_requestAdmit_refused {st : Status} (ha : s.admits n = true) (h1 : (s.ring n).rtype = 1)
    (g : HeadGood n 0x01 s) (hu : u = (s.at t).readHead n) (hq : q = parseReq ((u.ring n).esize == 1) (s.headWords n))
    (hst : u.reqRefusal (u.ring n).owner q = some st) :
    exec (.requestAdmit t n) s = .next (u.refuseEntry n (s.ring n).consIdx (s.headWords n) 1 st) := by
  subst hu hq
  rw [exec_requestAdmit]
  refine (g.onCtx (by simp [ha, h1])).trans ?_
  dsimp only
  rw [hst]

/-- A request that no check refuses takes a slot, or waits for one (R106, R107). -/
theorem exec_requestAdmit_accepted (ha : s.admits n = true) (h1 : (s.ring n).rtype = 1) (g : HeadGood n 0x01 s)
    (hu : u = (s.at t).readHead n) (hq : q = parseReq ((u.ring n).esize == 1) (s.headWords n))
    (hst : u.reqRefusal (u.ring n).owner q = none) (hm : u.liveModel (u.ring n).owner q.model = some m) :
    exec (.requestAdmit t n) s = .next (if u.canServe (u.ring n).owner then u.admitReq n (s.ring n).consIdx q m
      else u.waitSlot n (s.ring n).consIdx) := by
  subst hu hq
  rw [exec_requestAdmit]
  refine (g.onCtx (by simp [ha, h1])).trans ?_
  dsimp only
  rw [hst, hm]

theorem State.stands_of_admits (h : s.admits n = true) : s.stands n = true := (Bool.and_eq_true_iff.1 h).1

/-- The verdict of a request that found no slot in time, with `a` for the open tick of its admission (R107, R317). -/
def State.waitVerdict (n a : Nat) (m : Model) (s : State) : Verdict :=
  (m.defaultVerdict 4).stamp a s.tick (s.domain (s.ring n).owner).epoch (s.ring n).owner

/-- A request that waits for a slot gets rung 3 once its limit has passed (R107). -/
theorem exec_slotWaitExpiry_head (ha : s.admits n = true) (g : HeadGood n 0x01 s) (hu : u = (s.at t).readHead n)
    (hq : q = parseReq ((u.ring n).esize == 1) (s.headWords n)) (hm : u.liveModel (u.ring n).owner q.model = some m)
    (hw : (s.ring n).slotWait = some (s.ring n).consIdx) :
    exec (.slotWaitExpiry t n) s = .next (if u.tick < (u.ring n).waitLimit q m then u
      else (((u.fresh.2.countVerdict (u.ring n).owner (u.waitVerdict n (u.fresh.1 % 2 ^ 64) m)).consume n 1).modRing n
        fun r => { r with opened := r.opened ++ [(s.ring n).consIdx] }).ringItem (u.ring n).cqRing
          (verdictItem n (s.ring n).consIdx q.cookie .ok
            (verdictWords (u.waitVerdict n (u.fresh.1 % 2 ^ 64) m)))) := by
  subst hu hq
  have hstands : (s.at t).stands n = true := State.stands_of_admits ha
  rw [exec_slotWaitExpiry]
  refine (g.onCtx (by simp [hstands, hw])).trans ?_
  dsimp only
  rw [hm]
  rfl

/-- A row that needs a ring's context fetches it first (R90). -/
theorem exec_requestAdmit_miss (ha : s.admits n = true) (h1 : (s.ring n).rtype = 1) (hc : s.cached n = false) :
    exec (.requestAdmit t n) s = .next ((s.at t).missCtx n none) := by
  rw [exec_requestAdmit]
  exact onCtx_miss (by simp [ha, h1]) hc

theorem exec_slotWaitExpiry_miss (hs : s.stands n = true) (hw : (s.ring n).slotWait = some (s.ring n).consIdx)
    (hc : s.cached n = false) : exec (.slotWaitExpiry t n) s = .next ((s.at t).missCtx n none) := by
  have hs' : (s.at t).stands n = true := hs
  rw [exec_slotWaitExpiry]
  exact onCtx_miss (by simp [hs', hw]) hc

/-- A ring whose requests in flight have reached its limit admits none (R107). -/
theorem State.admits_of_full (h1 : (s.ring n).rtype = 1) (hf : (s.ring n).inflightMax ≤ (s.ring n).inflight) :
    s.admits n = false := by
  simp [State.admits, h1, hf]

end RequestEntries

/-! ### Slots at work (R106, R248, R262) -/

section SlotWork

variable {s u : State} {t k id : Nat} {m : Model} {f : Frame}

/-- An admitted slot starts: one of a ring at once, one of a frame when its scan has ended (R106). -/
theorem exec_slotRunning_starts (hr : s.moving = true) (hm : s.slotModel k = some m)
    (ha : (s.slot k).state = .admitted)
    (hsrc : (∃ n i, (s.slot k).src = .ring n i) ∨
      ∃ id f, (s.slot k).src = .frame id ∧ s.frame id = some f ∧ f.stage = .deep) :
    exec (.slotRunning t k) s = .next ((s.at t).startRequest k m) := by
  have hm' : (s.at t).slotModel k = some m := hm
  rw [exec_slotRunning]
  refine (happen_pos ?_).trans ?_
  · rcases hsrc with ⟨n, i, hring⟩ | ⟨id, f, hframe, hf, hdeep⟩
    · simp [hr, ha, hm, hring]
    · simp [hr, ha, hm, hframe, hf, hdeep]
  · rw [hm']

/-- At the cut-off a running slot's encoders, shares and groups stop (R248). -/
theorem exec_deadlineCutoff_due (hr : s.moving = true) (hs : (s.slot k).state = .running)
    (hc : s.cutoff k ≤ max s.tick t) : exec (.deadlineCutoff t k) s =
      .next (((((s.at t).stopEncoders k (s.slot k).gen).stopShares k (s.slot k).gen).closeSlotGroups k
        (s.slot k).gen).settle2) := by
  rw [exec_deadlineCutoff]
  exact happen_pos (by simp [hr, hs, hc])

/-- The inputs of a model that take features of a frame's other direction (R262). -/
def Model.reverseInputs (m : Model) : List InputRec := m.inputs.filter fun x => x.kind == 3 && decide (128 ≤ x.argA)

/-- A lookup reads index entries and a record, and changes no byte (R149). -/
theorem readsOnly_flowTouch (p : Nat) (key : FlowKey) (s : State) : ReadsOnly s (s.flowTouch p key) := by
  have hfold := foldl_readsOnly (fun s a => readsOnly_touch a 16 0 s) ((s.pipe p).entries key) s
  unfold State.flowTouch
  split
  · exact .refl s
  · dsimp only
    split
    · exact hfold.trans (readsOnly_touch _ _ _ _)
    · split
      · exact hfold.trans (readsOnly_touch _ _ _ _)
      · exact hfold
    · exact hfold

theorem ReadsOnly.recStats (h : ReadsOnly s u) (p i : Nat) : u.recStats p i = s.recStats p i := by
  simp only [State.recStats, State.pipe, State.leAt, State.bytesAt, h.bytes, h.told.cls]

theorem ReadsOnly.halfReadable {p i : Nat} (h : ReadsOnly s u) (hr : s.halfReadable p i = true) :
    u.halfReadable p i = true := by
  unfold State.halfReadable State.pipe at hr ⊢
  rw [h.told.cls]
  exact h.readable hr

/-- A slot of a frame whose reverse lookup is due (R262). -/
structure ReverseDue (k id : Nat) (f : Frame) (m : Model) (s : State) : Prop where
  moves : s.moving = true
  model : s.slotModel k = some m
  running : (s.slot k).state = .running
  pending : (s.slot k).revPending = true
  source : (s.slot k).src = .frame id
  frame : s.frame id = some f

theorem ReverseDue.guard (g : ReverseDue k id f m s) : ((s.at t).moving && ((s.at t).slot k).state == .running &&
    ((s.at t).slot k).revPending) = true := by
  simp [g.moves, g.running, g.pending]

theorem ReverseDue.slotFrame (g : ReverseDue k id f m s) : s.slotFrame (s.slot k) = some f := by
  simp [State.slotFrame, g.source, g.frame]

/-- The features of the other direction settle as missing (R262). -/
def State.settleReverse (k : Nat) (m : Model) (s : State) : State :=
  m.reverseInputs.foldl (fun s x => s.settleFeats k [x.featBase] fun _ _ => none)
    (s.modSlot k fun x => { x with revPending := false })

/-- The state after a frame's reverse lookup, counted (R262). -/
def State.reverseLooked (f : Frame) (s : State) : State :=
  ((s.flowTouch (s.reverseKey f).2 (s.reverseKey f).1).count Ctr.revLookup (s.reverseKey f).2).fresh.2.count
    Ctr.revMiss (s.reverseKey f).2

theorem State.flowScan_at (p : Nat) (key : FlowKey) (l : List Nat) :
    (s.at t).flowScan p key l = s.flowScan p key l := by
  induction l with
  | nil => rfl
  | cons a l ih =>
    unfold State.flowScan
    rw [ih]
    rfl

/-- What a lookup finds does not depend on the time. -/
theorem State.flowLook_at (p : Nat) (key : FlowKey) : (s.at t).flowLook p key = s.flowLook p key := by
  unfold State.flowLook
  rw [State.flowScan_at]
  rfl

/-- Where there is no flow of the other direction, its features are missing (R262). -/
theorem ReverseDue.exec_miss (g : ReverseDue k id f m s)
    (hl : s.flowLook (s.reverseKey f).2 (s.reverseKey f).1 = .miss) :
    exec (.reverseLookupDone t k) s = .next (((s.at t).reverseLooked f).settleReverse k m) := by
  have hframe : (s.at t).slotFrame ((s.at t).slot k) = some f := g.slotFrame
  have hmodel : (s.at t).slotModel k = some m := g.model
  have hlook : (s.at t).flowLook ((s.at t).reverseKey f).2 ((s.at t).reverseKey f).1 = .miss := by
    rw [State.reverseKey_at, State.flowLook_at, hl]
  rw [exec_reverseLookupDone]
  refine (happen_pos g.guard).trans ?_
  rw [hframe, hmodel]
  dsimp only
  rw [hlook]
  rfl

@[simp] theorem State.recStats_count (c d p i : Nat) : (s.count c d).recStats p i = s.recStats p i := rfl

@[simp] theorem State.recStats_fresh (p i : Nat) : s.fresh.2.recStats p i = s.recStats p i := rfl

@[simp] theorem State.halfReadable_count (c d p i : Nat) : (s.count c d).halfReadable p i = s.halfReadable p i := rfl

@[simp] theorem State.halfReadable_fresh (p i : Nat) : s.fresh.2.halfReadable p i = s.halfReadable p i := rfl

/-- A record that is not warm gives no features (R261). -/
theorem State.flowFeatures_cold {r : Nat} (p i iat : Nat) (h : r.testBit 47 = false) :
    s.flowFeatures p i r iat = [] := by
  simp [State.flowFeatures, h]

/-- The reverse inputs include all that lie in the state half (R262). -/
theorem Model.reverseInputs_any_half (m : Model) : (m.reverseInputs.any fun x => decide (154 ≤ x.argA)) =
    m.inputs.any fun x => x.kind == 3 && decide (154 ≤ x.argA) := by
  rw [Model.reverseInputs, List.any_filter]
  congr 1
  funext x
  by_cases h : 154 ≤ x.argA
  · have hrev : 128 ≤ x.argA := by omega
    rw [decide_eq_true h, decide_eq_true hrev]
    simp
  · simp [decide_eq_false h]

/-- Where there is one whose record is not warm, so are they, and the state half that they lie in is read (R261,
R262). -/
theorem ReverseDue.exec_cold {a i : Nat} (g : ReverseDue k id f m s)
    (hl : s.flowLook (s.reverseKey f).2 (s.reverseKey f).1 = .hit a i)
    (hcold : (s.recStats (s.reverseKey f).2 i).testBit 47 = false)
    (hread : s.halfReadable (s.reverseKey f).2 i = true) :
    exec (.reverseLookupDone t k) s = .next ((if m.inputs.any fun x => x.kind == 3 && decide (154 ≤ x.argA)
      then ((s.at t).reverseLooked f).touchHalf (s.reverseKey f).2 i
      else (s.at t).reverseLooked f).settleReverse k m) := by
  have hframe : (s.at t).slotFrame ((s.at t).slot k) = some f := g.slotFrame
  have hmodel : (s.at t).slotModel k = some m := g.model
  have hlook : (s.at t).flowLook (s.reverseKey f).2 (s.reverseKey f).1 = .hit a i := by
    rw [State.flowLook_at, hl]
  have hreads := readsOnly_flowTouch (s.reverseKey f).2 (s.reverseKey f).1 (s.at t)
  have hcold' : (((s.at t).flowTouch (s.reverseKey f).2 (s.reverseKey f).1).recStats
      (s.reverseKey f).2 i).testBit 47 = false := by
    rw [hreads.recStats, State.recStats_at, hcold]
  have hread' := hreads.halfReadable (p := (s.reverseKey f).2) (i := i) hread
  rw [exec_reverseLookupDone]
  refine (happen_pos g.guard).trans ?_
  rw [hframe, hmodel]
  dsimp only
  rw [State.reverseKey_at, hlook, ← m.reverseInputs_any_half]
  dsimp only
  simp only [State.recStats_fresh, State.recStats_count, State.halfReadable_fresh, State.halfReadable_count, hcold',
    hread', State.flowFeatures_cold, Bool.false_eq_true, if_false, Bool.not_true]
  rfl

end SlotWork

end Sys2Proof.Machine

namespace Sys2Proof.Machine

/-! ### Tree walks and copies of shards (R234, R242, R253) -/

section TreeWalks

variable {s u : State} {t core i : Nat} {w : Walk} {m : Model} {check : WordCheck}

@[simp] theorem State.strike_clean (l : List (Nat × Nat)) (s : State) : s.strike l .clean = s := rfl

@[simp] theorem State.copyWord_clean (p : Nat) (inStore : Bool) (s : State) : s.copyWord p inStore .clean = s := rfl

@[simp] theorem State.nodeWord_clean (p : Nat) (w : Walk) (m : Model) (s : State) : s.nodeWord p w m .clean = s := by
  simp [State.nodeWord]

/-- A check whose word cannot be had (R325). -/
theorem checkBad_of_lost (h : check = .poisoned ∨ check = .uncorrectable) : checkBad check = true := by
  rcases h with rfl | rfl <;> rfl

theorem checkBad_of_read (h : check = .clean ∨ check = .corrected) : checkBad check = false := by
  rcases h with rfl | rfl <;> rfl

/-- A walk of a slot's model that waits for no feature, on a device that runs (R242). -/
structure WalkReady (core i : Nat) (w : Walk) (m : Model) (s : State) : Prop where
  moves : s.moving = true
  walk : tget (s.core core).walks i = some w
  ready : w.parked = none
  model : s.slotModel w.slot = some m

theorem WalkReady.exec (g : WalkReady core i w m s) (check : WordCheck) :
    exec (.walkComplete t core i check) s = .next (if checkBad check then (s.at t).badWalk core i w m check
      else ((s.at t).nodeWord core w m check).runWalk core i w m).settle2 := by
  have hwalk : tget ((s.at t).core core).walks i = some w := g.walk
  have hmodel : (s.at t).slotModel w.slot = some m := g.model
  rw [exec_walkComplete]
  refine (happen_pos ?_).trans ?_
  · simp [g.moves, g.walk, g.ready, g.model]
  · rw [hwalk]
    dsimp only
    rw [hmodel]

/-- Which word of a walk cannot be had is open: a node's, or one of the item's vector (R234, R253). -/
theorem State.badWalk_cases (core i : Nat) (w : Walk) (m : Model) (check : WordCheck) (s : State) :
    s.badWalk core i w m check = (s.fresh.2.nodeWord core w m check).walkFault core i w m ∨
    s.badWalk core i w m check = ((s.fresh.2.copyWord core false check).featFault core w m).runWalk core i w m := by
  unfold State.badWalk
  split
  · exact .inl rfl
  · exact .inr rfl

/-- The ends of a walk's run of reads (R234, R242, R253). -/
theorem WalkReady.ends (g : WalkReady core i w m s) :
    Machine.exec (.walkComplete t core i .clean) s = .next ((s.at t).runWalk core i w m).settle2 ∧
    Machine.exec (.walkComplete t core i .corrected) s =
      .next (((s.at t).nodeWord core w m .corrected).runWalk core i w m).settle2 ∧
    ∀ check, check = .poisoned ∨ check = .uncorrectable →
      Machine.exec (.walkComplete t core i check) s =
          .next (((s.at t).fresh.2.nodeWord core w m check).walkFault core i w m).settle2 ∨
      Machine.exec (.walkComplete t core i check) s =
          .next ((((s.at t).fresh.2.copyWord core false check).featFault core w m).runWalk core i w m).settle2 := by
  refine ⟨?_, g.exec .corrected, fun check hbad => ?_⟩
  · rw [g.exec .clean, State.nodeWord_clean]
    rfl
  · rw [g.exec check, checkBad_of_lost hbad, if_pos rfl]
    rcases (s.at t).badWalk_cases core i w m check with h | h
    · exact .inl (by rw [h])
    · exact .inr (by rw [h])

theorem State.modCore_congr {p : Nat} {f g : Core → Core} (h : f (s.core p) = g (s.core p)) :
    s.modCore p f = s.modCore p g := by
  unfold State.modCore
  exact congrArg (fun c : Core => s.updComp fun x => { x with cores := tset x.cores p c }) h

theorem State.comp_strike (l : List (Nat × Nat)) (check : WordCheck) (s : State) :
    (s.strike l check).comp = s.comp := by
  unfold State.strike
  split
  · rfl
  · split
    · rfl
    · split <;> rfl

/-- A model's container read for a core's copy (R253). -/
def State.readContainer (m : Model) (check : WordCheck) (s : State) : State :=
  (s.strike [(m.cAddr, m.cLen)] check).touch m.cAddr m.cLen 0

theorem State.core_readContainer (p : Nat) (m : Model) (check : WordCheck) (s : State) :
    (s.readContainer m check).core p = s.core p := by
  rw [State.core, State.readContainer, (touch_told _ _ _).comp, State.comp_strike]
  rfl

/-- The nodes of a model as its container holds them. -/
def State.containerNodes (m : Model) (s : State) : List (BitVec 128) :=
  (List.range m.nodes.length).map fun i => BitVec.ofNat 128 (s.leAt (m.nodesAt + 16 * i) 16)

variable {domain handle epoch : Nat}

/-- A core with one bad copy, which its container may still make good (R253). -/
structure OneBadCopy (core domain handle epoch : Nat) (m : Model) (s : State) : Prop where
  moves : s.moving = true
  bad : (s.core core).badShards = [(domain, handle, epoch)]
  live : (s.core core).deadShards = []
  model : s.modelAt domain epoch handle = some m

theorem OneBadCopy.exec (g : OneBadCopy core domain handle epoch m s) (check : WordCheck) :
    exec (.shardRecopyDone t core domain handle check) s =
      .next ((s.at t).recopy core (domain, handle, epoch) check).settle2 := by
  have hcopy : (s.core core).toCopy domain handle = [(domain, handle, epoch)] := by
    simp [Core.toCopy, g.bad, g.live]
  have hcopy' : ((s.at t).core core).toCopy domain handle = [(domain, handle, epoch)] := hcopy
  rw [exec_shardRecopyDone]
  refine (happen_pos ?_).trans ?_
  · simp [g.moves, hcopy]
  · rw [hcopy']
    rfl

/-- A bad copy whose container can be read is good again (R253). -/
theorem OneBadCopy.exec_good (g : OneBadCopy core domain handle epoch m s) (hu : u = (s.at t).readContainer m check)
    (hc : check = .clean ∨ check = .corrected) (hr : s.mem.readable m.cAddr m.cLen = true) :
    Machine.exec (.shardRecopyDone t core domain handle check) s = .next (u.modCore core fun c => { c with
      badShards := []
      shardNodes := aset c.shardNodes (domain, handle, epoch) (u.containerNodes m) }).settle2 := by
  subst hu
  have hmodel : (s.at t).modelAt domain epoch handle = some m := g.model
  have hread : (s.at t).mem.readable m.cAddr m.cLen = true := hr
  have hbad : (((s.at t).readContainer m check).core core).badShards = [(domain, handle, epoch)] := by
    rw [State.core_readContainer]
    exact g.bad
  rw [g.exec check]
  unfold State.recopy
  rw [hmodel]
  dsimp only
  rw [checkBad_of_read hc, hread, if_neg (by simp)]
  congr 2
  refine State.modCore_congr ?_
  rw [← State.readContainer, hbad]
  simp [State.containerNodes]

/-- One whose container cannot be read stays bad until its model is staged again, and the domain's owner is told
(R253, R331). -/
theorem OneBadCopy.exec_dead (g : OneBadCopy core domain handle epoch m s) (hu : u = (s.at t).readContainer m check)
    (hc : checkBad check = true) :
    Machine.exec (.shardRecopyDone t core domain handle check) s = .next ((u.modCore core fun c => { c with
      deadShards := c.deadShards ++ [(domain, handle, epoch)] }).event (domainOwner domain) 0x0007
        [(7, domain), (16, handle), (16, epoch)] 0).settle2 := by
  subst hu
  have hmodel : (s.at t).modelAt domain epoch handle = some m := g.model
  rw [g.exec check]
  unfold State.recopy
  rw [hmodel]
  dsimp only
  rw [hc, Bool.true_or, if_pos rfl]
  rfl

/-- Where every bad copy is lost, there is none to make again (R331). -/
theorem exec_shardRecopyDone_allDead (h : (s.core core).badShards = (s.core core).deadShards) :
    exec (.shardRecopyDone t core domain handle check) s = .next (s.at t) := by
  have hnone : (s.core core).toCopy domain handle = [] := by
    rw [Core.toCopy, h, List.filter_eq_nil_iff]
    intro e he
    simp [he]
  rw [exec_shardRecopyDone]
  exact happen_neg (by simp [hnone])

/-- A core whose copies of a call's epoch are bad takes no packet-model call (R252, R253). -/
theorem State.pmCore_of_epochBad {id : Nat} (hb : s.epochBad core packetDomain epoch = true)
    (he : s.pmEpoch id = some epoch) : s.pmCore id core = false := by
  unfold State.pmCore
  split
  · rw [he, Option.getD_some, hb, Bool.not_true, Bool.and_false]
  · rfl

end TreeWalks

/-! ### Packet models (R252) -/

section PacketModels

variable {s u : State} {t id core since epoch : Nat} {f : Frame} {m : Model} {check : WordCheck}

/-- A frame that waits for a packet-model core. -/
structure PmWaits (id since : Nat) (f : Frame) (m : Model) (s : State) : Prop where
  moves : s.moving = true
  frame : s.frame id = some f
  waits : f.stage = .pmWait since
  model : s.pmModel id = some m

theorem PmWaits.stage (g : PmWaits id since f m s) : (s.frame id).map (·.stage) = some (.pmWait since) := by
  rw [g.frame, Option.map_some, g.waits]

theorem PmWaits.exec (g : PmWaits id since f m s) (hcore : s.pmCore id core = true) (check : WordCheck) :
    exec (.packetModelWalk t id core check) s = .next (if checkBad check
      then (s.at t).pmBad id core m (s.packetItem m f) check
      else ((s.at t).copyWord core true check).pmScore id core m (s.packetItem m f)) := by
  have hframe : (s.at t).frame id = some f := g.frame
  have hmodel : (s.at t).pmModel id = some m := g.model
  rw [exec_packetModelWalk]
  refine (happen_pos ?_).trans ?_
  · have hstage : ((s.at t).frame id).map (·.stage) = some (.pmWait since) := g.stage
    have hcore' : (s.at t).pmCore id core = true := hcore
    have hmoves : (s.at t).moving = true := g.moves
    rw [hstage, hcore', hmoves]
    rfl
  · rw [hframe, hmodel]
    rfl

theorem State.length_pmWalks (id core : Nat) (m : Model) (x : Item) (s : State) :
    (s.pmWalks id core m x).length = m.trees.length := by
  simp [State.pmWalks, Model.walksAll, numbered]

/-- A call whose walks have run, counted (R252). -/
def State.pmRun (core : Nat) (m : Model) (x : Item) (l : List (Nat × WalkEnd)) (s : State) : State :=
  ({ s with freeCount := s.freeCount + m.trees.length }).countRun core (runVisits l)
    ((l.map fun (e : Nat × WalkEnd) => e.2.badReads x).sum)

/-- The scores of a call's walks, whose order of ends is open, with K = 1 (R237, R252). -/
def State.pmScores (m : Model) (l : List (Nat × WalkEnd)) (s : State) : Option (List W32) :=
  m.scores ((m.stages.head?.map (·.corr)).getD []) 1 (m.sumLeaves (shuffle l.length s.freeCount l))

theorem State.pmScore_of_scores {x : Item} {ys : List W32} (h : s.pmScores m (s.pmWalks id core m x) = some ys) :
    s.pmScore id core m x = (s.pmRun core m x (s.pmWalks id core m x)).pmVerdict id (m.mapScores 1 1 1 ys) := by
  unfold State.pmScores at h
  rw [State.pmRun, ← s.length_pmWalks id core m x]
  unfold State.pmScore
  dsimp only
  rw [h]

/-- A score that is not finite gives rung 3 with reason 3 (R252). -/
theorem State.pmScore_of_none {x : Item} (h : s.pmScores m (s.pmWalks id core m x) = none) :
    s.pmScore id core m x = (s.pmRun core m x (s.pmWalks id core m x)).pmVerdict id
      { m.defaultVerdict 3 with stages := 1 } := by
  unfold State.pmScores at h
  rw [State.pmRun, ← s.length_pmWalks id core m x]
  unfold State.pmScore
  dsimp only
  rw [h]

/-- Which word of a call cannot be had is open: a node's, or one of the frame's vector (R234, R252). -/
theorem State.pmBad_cases (id core : Nat) (m : Model) (x : Item) (check : WordCheck) (s : State) :
    s.pmBad id core m x check = (s.fresh.2.copyWord core true check).pmFault id core m x ∨
    ∃ v : State, v = s.fresh.2.copyWord core false check ∧ s.pmBad id core m x check = v.fresh.2.pmScore id core m
      (x.spoiled (v.pmWalks id core m x) m.params.nFeat v.fresh.1) := by
  unfold State.pmBad
  dsimp only
  split
  · exact .inl rfl
  · exact .inr ⟨_, rfl, rfl⟩

/-- A call that has waited 1 µs for a walk slot gets rung 3 with reason 6, counted (R252). -/
theorem PmWaits.exec_expiry (g : PmWaits id since f m s) (hd : since + 1000 ≤ max s.tick t) :
    Machine.exec (.pmWaitExpiry t id) s =
      .next (((s.at t).tally Ctr.pmSlotFull).pmVerdict id (m.defaultVerdict 6)) := by
  have hmodel : (s.at t).pmModel id = some m := g.model
  rw [exec_pmWaitExpiry]
  refine (happen_pos ?_).trans ?_
  · have hstage : ((s.at t).frame id).map (·.stage) = some (.pmWait since) := g.stage
    have hmoves : (s.at t).moving = true := g.moves
    rw [hstage, hmoves]
    exact decide_eq_true hd
  · rw [hmodel]

end PacketModels

end Sys2Proof.Machine

namespace Sys2Proof.Machine

/-! ### Pattern scans (R129, R130) -/

section PatternScans

variable {s u : State} {t engine id k : Nat} {f : Frame} {fault : Bool} {rest : List Nat}

/-- The oldest frame of the queue goes to a free engine (R129). -/
theorem exec_patternScanStart_free (hr : s.moving = true) (he : engine < 32)
    (hfree : tget s.parser.engines engine = none) (hq : s.scanQueue = id :: rest) :
    exec (.patternScanStart t engine) s =
      .next (((s.at t).modFrame id fun x => { x with stage := .scanning engine }).updParser fun p =>
        { p with engines := tset p.engines engine id }) := by
  have hq' : (s.at t).scanQueue = id :: rest := hq
  rw [exec_patternScanStart]
  refine (happen_pos ?_).trans ?_
  · simp [hr, he, hfree, hq]
  · rw [hq']

/-- A scan has ended: the engine is free, and the match block stands in the frame's slot (R130). -/
def State.scanEnded (engine id k : Nat) (f : Frame) (fault : Bool) (s : State) : State :=
  ((s.updParser fun p => { p with engines := tdel p.engines engine }).modFrame id fun x =>
    { x with stage := .deep }).modSlot k fun x => { x with matched := s.scanFrame f fault }

theorem State.scanFrame_status_fault (f : Frame) (s : State) : (s.scanFrame f true).status = 4 := by
  simp [State.scanFrame]

/-- What a scan's end counts and records (R130). -/
def State.tellScan (b : MatchBlock) (f : Frame) (s : State) : State :=
  let s := if 32 < b.nMatches then s.tally Ctr.matchOverflow else s
  if b.status = 4 ∧ !f.poison then (s.tally Ctr.scanFault).packetFault 1 b.setId
  else if b.status = 4 then s.tally Ctr.scanFault else s

/-- A scan's end leaves nothing but this, and what tells of it. -/
theorem exec_patternScanEnd_slot (hr : s.moving = true) (he : tget s.parser.engines engine = some id)
    (hf : s.frame id = some f) (hk : f.slot = some k) : exec (.patternScanEnd t engine fault) s =
      .next (((s.at t).scanEnded engine id k f fault).tellScan ((s.at t).scanFrame f fault) f) := by
  have he' : tget (s.at t).parser.engines engine = some id := he
  have hf' : ((s.at t).updParser fun p => { p with engines := tdel p.engines engine }).frame id = some f := hf
  rw [exec_patternScanEnd]
  refine (happen_pos (by simp [hr, he])).trans ?_
  rw [he']
  dsimp only
  rw [hf']
  dsimp only
  rw [hk]
  rfl

/-- A scan has ended in a state: the engine is free, the frame goes on with its match block, and no other slot
changes (R130). -/
structure ScanEnds (engine id k : Nat) (b : MatchBlock) (s u : State) : Prop where
  free : tget u.parser.engines engine = none
  matched : (u.slot k).matched = b
  deep : (u.frame id).map (·.stage) = some .deep
  others : ∀ j, j ≠ k → u.slot j = s.slot j

theorem ScanEnds.tally {b : MatchBlock} (g : ScanEnds engine id k b s u) (c : Nat) :
    ScanEnds engine id k b s (u.tally c) := ⟨g.free, g.matched, g.deep, g.others⟩

theorem ScanEnds.packetFault {b : MatchBlock} (g : ScanEnds engine id k b s u) (sub index : Nat) :
    ScanEnds engine id k b s (u.packetFault sub index) := by
  rw [State.packetFault, State.record_eq]
  exact ⟨g.free, g.matched, g.deep, g.others⟩

theorem ScanEnds.tellScan {b : MatchBlock} (g : ScanEnds engine id k b s u) (b' : MatchBlock) (f : Frame) :
    ScanEnds engine id k b s (u.tellScan b' f) := by
  have hover : ScanEnds engine id k b s (if 32 < b'.nMatches then u.tally Ctr.matchOverflow else u) := by
    split
    · exact g.tally _
    · exact g
  unfold State.tellScan
  dsimp only
  split
  · exact (hover.tally _).packetFault _ _
  · split
    · exact hover.tally _
    · exact hover

theorem State.scanEnded_ends (hf : s.frame id = some f) :
    ScanEnds engine id k (s.scanFrame f fault) s (s.scanEnded engine id k f fault) where
  free := tget_tdel _ _
  matched := by rw [State.scanEnded, State.slot_modSlot]
  deep := by
    have hframe : (s.scanEnded engine id k f fault).frame id = (s.frame id).map fun x => { x with stage := .deep } :=
      tget_tmod s.parser.frames id _
    rw [hframe, hf]
    rfl
  others j hj := congrArg (·.getD {}) (tget_tset_ne s.rings.slots _ hj)

end PatternScans

/-- Settles O30: each row by the lemma of its entry, slot, walk, call or scan. -/
theorem requestsAndModels : Obligations.RequestsAndModels := by
  unfold Obligations.RequestsAndModels
  refine ⟨?_, ?_, ?_, ?_, ?_, ?_⟩
  · intro t ring ws q m u s ha h1 hc hr hw hp hk hu hq
    have g : HeadGood ring 0x01 s :=
      ⟨hc, hr, by rw [h1, State.headWords, ← hw, hp], by rw [State.headWords, ← hw, hk]⟩
    have hread : u = (s.at t).readHead ring := hu
    rw [hw] at hq ⊢
    refine ⟨fun st hst => exec_requestAdmit_refused ha h1 g hread hq hst, fun hst hm => ?_, fun hm hwait => ?_⟩
    · rw [exec_requestAdmit_accepted ha h1 g hread hq hst hm]
      exact ⟨fun h => by rw [if_pos h], fun h => by rw [h, if_neg Bool.false_ne_true]⟩
    · rw [exec_slotWaitExpiry_head ha g hread hq hm hwait]
      exact ⟨fun h => by rw [if_pos h], fun h => ⟨_, _, rfl, by rw [if_neg (Nat.not_lt.2 h)]; rfl⟩⟩
  · intro t ring s hc
    exact ⟨fun ha h1 => exec_requestAdmit_miss ha h1 hc, fun hs hw => exec_slotWaitExpiry_miss hs hw hc,
      fun h1 hf => State.admits_of_full h1 hf⟩
  · intro t k m s hr hm
    refine ⟨exec_slotRunning_starts hr hm, fun id f hs hp hsrc hf hl => ?_, ?_, exec_deadlineCutoff_due hr⟩
    · exact ReverseDue.exec_miss ⟨hr, hm, hs, hp, hsrc, hf⟩ hl
    · rintro id f a i p hs hp hsrc hf rfl hl hcold hread
      exact ReverseDue.exec_cold ⟨hr, hm, hs, hp, hsrc, hf⟩ hl hcold hread
  · intro t core s hr
    refine ⟨fun i w m hw hp hm => WalkReady.ends ⟨hr, hw, hp, hm⟩, fun domain handle epoch check m u hb hd hm hu => ?_,
      fun domain handle check h => exec_shardRecopyDone_allDead h,
      fun x epoch k hb he hx => State.pmCore_of_epochBad (hx ▸ hb) he⟩
    have g : OneBadCopy core domain handle epoch m s := ⟨hr, hb, hd, hm⟩
    exact ⟨fun hc hread => g.exec_good hu hc hread, fun hc => g.exec_dead hu (checkBad_of_lost hc.symm)⟩
  · intro t id core since f m s hr hf hw hm
    have g : PmWaits id since f m s := ⟨hr, hf, hw, hm⟩
    refine ⟨?_, g.exec_expiry⟩
    rintro x l u hcore rfl rfl rfl
    refine ⟨fun ys hys => ?_, fun hys => ?_, g.exec hcore .corrected, fun check hbad => ?_, fun v => ⟨_, _, rfl⟩⟩
    · exact (g.exec hcore .clean).trans (congrArg _ (State.pmScore_of_scores (s := s.at t) hys))
    · exact (g.exec hcore .clean).trans (congrArg _ (State.pmScore_of_none (s := s.at t) hys))
    · rw [g.exec hcore check, checkBad_of_lost hbad, if_pos rfl]
      rcases (s.at t).pmBad_cases id core m (s.packetItem m f) check with h | ⟨v, hv, h⟩
      · exact .inl (congrArg _ h)
      · exact .inr ⟨v, hv, congrArg _ h⟩
  · intro t engine s hr
    refine ⟨fun id rest he hfree hq => exec_patternScanStart_free hr he hfree hq, fun id f k fault he hf hk => ?_⟩
    have g : ScanEnds engine id k _ (s.at t) _ := State.scanEnded_ends (fault := fault) hf
    obtain ⟨hfree, hmatched, hdeep, hothers⟩ := g.tellScan ((s.at t).scanFrame f fault) f
    exact ⟨_, exec_patternScanEnd_slot hr he hf hk, hfree, hmatched, hdeep,
      fun hfault => by rw [hmatched, hfault, State.scanFrame_status_fault], hothers⟩

end Sys2Proof.Machine

namespace Sys2Proof.Machine

/-! ### Bounds of a parse (R117, R120) -/

section ParseLimits

variable {g : ChiveProg} {bs : List Byte} {limit len pos c : Nat} {fault : Option Nat} {p : Parse} {op : ChiveOp}
  {k : ParseStep}

/-- A parse within its bounds of layers and cursor, `c` cycles in. -/
structure Parse.Bounded (len c : Nat) (p : Parse) : Prop where
  layers : p.layers.length ≤ 12
  cursor : p.cursor ≤ min len 512
  cycles : p.cycles = c

/-- A step leaves a parse within its bounds, `c` cycles in, and does not end it for want of cycles. -/
def ParseStep.Within (len c : Nat) : ParseStep → Prop
  | .go p => p.Bounded len c
  | .stop p code => p.Bounded len c ∧ code ≠ 3

/-- A position that is reached lies in the frame and in the window (R120). -/
theorem reach_within (hp : p.Bounded len c) (hk : pos ≤ min len 512 → k.Within len c) :
    (reach len pos p k).Within len c := by
  unfold reach
  split
  · exact ⟨hp, by decide⟩
  · split
    · exact ⟨hp, by decide⟩
    · exact hk (by omega)

/-- A layer opened where there is room for it keeps the bounds (R120). -/
theorem Parse.Bounded.push (hp : p.Bounded len c) (hroom : p.layers.length < 12) (l : Nat × Nat) :
    Parse.Bounded len c { p with layers := p.layers ++ [l] } :=
  { hp with layers := by rw [List.length_append]; exact hroom }

theorem openLayer_within {ltype adv : Nat} (hp : p.Bounded len c) : (openLayer len ltype adv p).Within len c := by
  unfold openLayer
  dsimp only
  split
  · exact ⟨hp, by decide⟩
  next hfull =>
    have hq : Parse.Bounded len c (if decide (512 ≤ p.cursor) || (p.nonFirst && l4Type ltype) then p
        else { p with layers := p.layers ++ [(ltype, p.cursor)] }) := by
      split
      · exact hp
      next hopen =>
        obtain ⟨-, hbarred⟩ := Bool.or_eq_false_iff.1 (Bool.eq_false_iff.2 hopen)
        exact hp.push (by simpa [hbarred] using hfull) _
    refine reach_within hq fun hpos => ?_
    split
    · exact ⟨hq, by decide⟩
    · exact { hq with cursor := hpos }

theorem declareExtent_within {n : Nat} (hp : p.Bounded len c) : (declareExtent len n p).Within len c := by
  unfold declareExtent
  split
  · exact hp
  · dsimp only
    split
    · exact ⟨hp, by decide⟩
    · split
      · exact ⟨hp, by decide⟩
      · exact { hp with }

theorem Parse.Bounded.noL4 (hp : p.Bounded len c) : p.noL4.Bounded len c :=
  { hp with layers := (List.length_filter_le _ _).trans hp.layers }

/-- An instruction whose cycles are left keeps the bounds and takes its cycles (R116, R120). -/
theorem chiveStep_within (hp : p.Bounded bs.length p.cycles) (hc : p.cycles + chiveCost g p op ≤ limit) :
    (chiveStep g bs limit p op).Within bs.length (p.cycles + chiveCost g p op) := by
  have hn : Parse.Bounded bs.length (p.cycles + chiveCost g p op)
      { p with cycles := p.cycles + chiveCost g p op, pc := p.pc + 1, count := p.count + 1 } :=
    { hp with cycles := rfl }
  unfold chiveStep
  dsimp only
  rw [if_neg (Nat.not_lt.2 hc)]
  cases op with
  | extract dst off w => exact reach_within hn fun _ => { hn with }
  | alu fn dst a b => exact { hn with }
  | branch r target => dsimp only; split <;> exact { hn with }
  | lookup dst key n => exact { hn with }
  | layer ltype adv => exact openLayer_within hn
  | declareExt v => exact declareExtent_within hn
  | store off w src => dsimp only; split <;> exact { hn with }
  | flagBits m =>
    dsimp only
    split
    · exact Parse.Bounded.noL4 { hn with }
    · exact { hn with }
  | accept => exact ⟨hn, by decide⟩
  | reject => exact ⟨hn, by decide⟩

/-- An instruction whose cycles are not left ends the parse where it stands, with code 3 (R117). -/
theorem chiveStep_of_lt (hc : limit < p.cycles + chiveCost g p op) : chiveStep g bs limit p op = .stop p 3 :=
  if_pos hc

theorem chiveCost_pos (g : ChiveProg) (p : Parse) (op : ChiveOp) : 0 < chiveCost g p op := by
  cases op with
  | branch | lookup => rw [chiveCost]; split <;> exact Nat.succ_pos _
  | _ => exact Nat.one_pos

/-- The next instruction of a parse would take more cycles than are left (R117). -/
def OutOfCycles (g : ChiveProg) (limit : Nat) (p : Parse) : Prop :=
  ∃ op, g.code[p.pc]? = some op ∧ limit < p.cycles + chiveCost g p op

/-- A parse has ended within its bounds and its cycles, with code 3 only for want of cycles where its fuel is `enough`
to use them up. -/
structure ParseEnds (g : ChiveProg) (len limit : Nat) (enough : Prop) (r : Parse × Nat) : Prop where
  bounded : r.1.Bounded len r.1.cycles
  cycles : r.1.cycles ≤ limit
  code3 : enough → r.2 = 3 → OutOfCycles g limit r.1

/-- A run ends within the bounds it starts in: each instruction keeps them, and takes one unit of fuel and a cycle
at least, so that fuel for the cycles left does not run out (R117, R120). -/
theorem chiveRun_ends {fuel : Nat} (hp : p.Bounded bs.length p.cycles) (hc : p.cycles ≤ limit) :
    ParseEnds g bs.length limit (limit < p.cycles + fuel) (chiveRun g bs limit fault fuel p) := by
  induction fuel generalizing p with
  | zero => exact ⟨hp, hc, fun henough => absurd hc (Nat.not_le.2 henough)⟩
  | succ fuel ih =>
    rw [chiveRun]
    split
    · exact ⟨hp, hc, fun _ h => nomatch h⟩
    · split
      · exact ⟨hp, hc, fun _ h => nomatch h⟩
      next op hop =>
        rcases Nat.lt_or_ge limit (p.cycles + chiveCost g p op) with hlt | hle
        · rw [chiveStep_of_lt hlt]
          exact ⟨hp, hc, fun _ _ => ⟨op, hop, hlt⟩⟩
        · have hstep := chiveStep_within hp hle
          split
          next q hq =>
            rw [hq] at hstep
            have hspent : q.cycles = p.cycles + chiveCost g p op := hstep.cycles
            have hcost := chiveCost_pos g p op
            obtain ⟨hbounded, hcycles, hcode⟩ := ih { hstep with cycles := rfl } (hspent ▸ hle)
            exact ⟨hbounded, hcycles, fun henough => hcode (by omega)⟩
          next q code hq =>
            rw [hq] at hstep
            obtain ⟨hstop, hcode⟩ := hstep
            exact ⟨{ hstop with cycles := rfl }, hstop.cycles ▸ hle, fun _ h => absurd h hcode⟩

end ParseLimits

/-- Settles O20: a parse starts within its bounds with no cycle used, and a run keeps them. -/
theorem parseBounds : Obligations.ParseBounds := by
  unfold Obligations.ParseBounds
  rintro g bs limit fuel fault r rfl
  have hstart : Parse.Bounded bs.length 0 { record := freshRecord } := ⟨Nat.zero_le _, Nat.zero_le _, rfl⟩
  obtain ⟨hbounded, hcycles, hcode⟩ :=
    chiveRun_ends (g := g) (fuel := fuel) (fault := fault) (p := { record := freshRecord }) hstart (Nat.zero_le limit)
  exact ⟨hbounded.layers, hbounded.cursor, hcycles, fun henough => hcode ((Nat.zero_add fuel).symm ▸ henough)⟩

end Sys2Proof.Machine

namespace Sys2Proof.Machine

/-! ### Choices of a spread context (R133, R134) -/

section SpreadChoices

variable {s : State} {owner ctx hash c : Nat} {forFrame : Bool}

theorem State.serves_iff :
    s.serves owner c = true ↔ c < 256 ∧ (s.cluster c).owner = owner ∧ (s.cluster c).leaving = none := by
  rw [State.serves, Bool.and_eq_true, Bool.and_eq_true, beq_iff_eq, Option.isNone_iff_eq_none, decide_eq_true_iff,
    and_comm]
  rfl

theorem State.mem_clustersOf : c ∈ s.clustersOf owner ↔ c ∈ s.comp.clusters.map (·.1) ∧ s.serves owner c = true :=
  List.mem_filter

/-- Where a context may place work: on a cluster that serves its owner; for a frame, on a ring when its table holds
entries; and nowhere only when no cluster serves its owner (R133, R134). -/
def Landing.Allowed (ctx : Nat) (forFrame : Bool) (s : State) : Landing → Prop
  | .cluster c => s.serves ctx c = true
  | .ring _ => forFrame = true ∧ (tgetD s.parser.spread ctx {}).table ≠ []
  | .nowhere => s.clustersOf ctx = []

/-- The hash, reduced to the clusters held, always picks one of them (R134). -/
theorem State.spreadElse_allowed : (s.spreadElse ctx hash).1.Allowed ctx forFrame s := by
  unfold State.spreadElse ctxOwner
  dsimp only
  split
  next c hc => exact (State.mem_clustersOf.1 (List.mem_of_getElem? hc)).2
  next hnone =>
    refine List.eq_nil_iff_length_eq_zero.2 (Nat.eq_zero_of_not_pos fun hpos => ?_)
    exact absurd (List.getElem?_eq_none_iff.1 hnone) (Nat.not_le.2 (Nat.mod_lt hash hpos))

/-- An entry of an empty table is of kind 0, a cluster. -/
theorem Spread.table_ne_nil {x : Spread} {k : Nat} (h : (tgetD x.table k { tkind := 0, target := 0 }).tkind = 1) :
    x.table ≠ [] := by
  intro hnil
  rw [hnil] at h
  exact Nat.zero_ne_one h

theorem State.spread_allowed : (s.spread ctx hash forFrame).1.Allowed ctx forFrame s := by
  unfold State.spread
  dsimp only
  split
  next hring =>
    split
    next hframe => exact ⟨hframe, Spread.table_ne_nil hring⟩
    next => exact State.spreadElse_allowed
  next =>
    split
    next hserves => exact hserves
    next => exact State.spreadElse_allowed

theorem State.spreadElse_frame : (s.spreadElse ctx hash).2 = { s with obs := (s.spreadElse ctx hash).2.obs } := by
  unfold State.spreadElse
  dsimp only
  split <;> rfl

/-- A choice changes what is counted, and nothing else. -/
theorem State.spread_frame :
    (s.spread ctx hash forFrame).2 = { s with obs := (s.spread ctx hash forFrame).2.obs } := by
  unfold State.spread
  dsimp only
  split
  · split
    · rfl
    · exact State.spreadElse_frame
  · split
    · rfl
    · exact State.spreadElse_frame

end SpreadChoices

/-- Settles O21: by where a context may place work, and by what a choice changes. -/
theorem spreadChoosesOwnClusters : Obligations.SpreadChoosesOwnClusters := by
  unfold Obligations.SpreadChoosesOwnClusters
  intro ctx hash forFrame s
  have hallowed : (s.spread ctx hash forFrame).1.Allowed ctx forFrame s := State.spread_allowed
  refine ⟨fun c hc => ?_, fun n hn => ?_, fun hnone e he howner hleaving => ?_, State.spread_frame⟩
  · rw [hc] at hallowed
    exact State.serves_iff.1 hallowed
  · rwa [hn] at hallowed
  · rw [hnone] at hallowed
    refine Nat.not_lt.1 fun hlt => ?_
    have hheld : e.1 ∈ s.clustersOf ctx :=
      State.mem_clustersOf.2 ⟨List.mem_map_of_mem he, State.serves_iff.2 ⟨hlt, howner, hleaving⟩⟩
    exact List.ne_nil_of_mem hheld hallowed

end Sys2Proof.Machine

namespace Sys2Proof.Machine

/-! ### Rule rows and their keys (R141) -/

section RuleRows

variable {row : RuleRow} {key : BitVec 256} {p : Pipeline} {n : Nat}

/-- Two words agree under a mask exactly where they agree in each of its bits. -/
theorem xor_and_eq_zero_iff {w : Nat} {a b m : BitVec w} :
    (a ^^^ b) &&& m = 0 ↔ ∀ i, m.getLsbD i = true → a.getLsbD i = b.getLsbD i := by
  constructor
  · intro h i hi
    have hbit := congrArg (fun v : BitVec w => v.getLsbD i) h
    simpa [hi] using hbit
  · intro h
    refine BitVec.eq_of_getLsbD_eq fun i _ => ?_
    cases hi : m.getLsbD i with
    | false => simp [hi]
    | true => simp [h i hi]

theorem rowMatches_iff : rowMatches row key = true ↔
    row.action.valid = true ∧ ∀ i, row.mask.getLsbD i = true → key.getLsbD i = row.key.getLsbD i := by
  rw [rowMatches, Bool.and_eq_true, beq_iff_eq, xor_and_eq_zero_iff]

/-- With no row that matches wrongly, a row that is in use and matches is a winner. -/
theorem Pipeline.winner_eq (p : Pipeline) (key : BitVec 256) :
    p.winner key none = p.rules.find? fun e => p.live e.1 && rowMatches e.2 key := by
  simp [Pipeline.winner]

/-- Where the rows are in order, no row in use of a lower number than the winner's matches. -/
theorem Pipeline.winner_lowest (ho : (p.rules.map (·.1)).Pairwise (· < ·)) (hw : p.winner key none = some (n, row)) :
    (n, row) ∈ p.rules ∧ p.live n = true ∧ rowMatches row key = true ∧
      ∀ e ∈ p.rules, e.1 < n → p.live e.1 = true → rowMatches e.2 key = false := by
  rw [Pipeline.winner_eq, List.find?_eq_some_iff_append] at hw
  obtain ⟨hhit, lower, higher, hrules, hmiss⟩ := hw
  obtain ⟨hlive, hmatch⟩ := Bool.and_eq_true_iff.1 hhit
  refine ⟨by simp [hrules], hlive, hmatch, fun e he hlt hl => ?_⟩
  rw [hrules, List.map_append, List.map_cons, List.pairwise_append, List.pairwise_cons] at ho
  obtain ⟨-, ⟨habove, -⟩, -⟩ := ho
  rw [hrules, List.mem_append, List.mem_cons] at he
  rcases he with he | rfl | he
  · simpa [hl] using hmiss e he
  · exact absurd hlt (Nat.lt_irrefl _)
  · exact absurd hlt (Nat.lt_asymm (habove _ (List.mem_map_of_mem he)))

theorem Pipeline.winner_none (hw : p.winner key none = none) {e : Nat × RuleRow} (he : e ∈ p.rules)
    (hl : p.live e.1 = true) : rowMatches e.2 key = false := by
  rw [Pipeline.winner_eq, List.find?_eq_none] at hw
  simpa [hl] using hw e he

end RuleRows

/-- Settles O22: the winner is the first row that matches of rows that rise. -/
theorem lowestRuleWins : Obligations.LowestRuleWins := by
  unfold Obligations.LowestRuleWins
  exact ⟨fun _ _ => rowMatches_iff, fun _ _ ho =>
    ⟨fun _ _ hw => Pipeline.winner_lowest ho hw, fun hw _ he hl => Pipeline.winner_none hw he hl⟩⟩

end Sys2Proof.Machine

namespace Sys2Proof.Machine

/-! ### The longest of the covering prefixes (R145) -/

section LongestPrefix

variable {c : Classifier} {v6 : Bool} {a lv : Nat}

/-- The longest of one or more prefixes is one of them and at least as long as each. -/
theorem foldl_longer : ∀ (l : List Prefix) (b : Prefix), ∃ p ∈ b :: l, l.foldl longer (some b) = some p ∧
    ∀ q ∈ b :: l, q.len ≤ p.len
  | [], b => ⟨b, .head _, rfl, fun q hq => by rw [List.mem_singleton.1 hq]⟩
  | x :: l, b => by
    by_cases hlt : b.len < x.len
    · obtain ⟨p, hmem, hp, hmax⟩ := foldl_longer l x
      refine ⟨p, .tail _ hmem, by rw [List.foldl_cons, longer, if_pos hlt, hp], fun q hq => ?_⟩
      rcases List.mem_cons.1 hq with rfl | hq
      · exact hlt.le.trans (hmax x (.head _))
      · exact hmax q hq
    · obtain ⟨p, hmem, hp, hmax⟩ := foldl_longer l b
      refine ⟨p, ?_, by rw [List.foldl_cons, longer, if_neg hlt, hp], fun q hq => ?_⟩
      · exact (List.mem_cons.1 hmem).elim (· ▸ .head _) fun h => .tail _ (.tail _ h)
      · rcases List.mem_cons.1 hq with rfl | hq
        · exact hmax _ (.head _)
        · rcases List.mem_cons.1 hq with rfl | hq
          · exact (Nat.le_of_not_lt hlt).trans (hmax b (.head _))
          · exact hmax q (.tail _ hq)

/-- Where prefixes of a list cover an address, `longest` is one of them, and no other is longer. -/
theorem longest_eq_some {l : List Prefix} (h : ∃ p ∈ l, p.covers v6 a = true) :
    ∃ p ∈ l, p.covers v6 a = true ∧ longest l v6 a = some p ∧
      ∀ q ∈ l, q.covers v6 a = true → q.len ≤ p.len := by
  obtain ⟨x, hx, hcov⟩ := h
  have hmem : x ∈ l.filter fun p => p.covers v6 a := List.mem_filter.2 ⟨hx, hcov⟩
  unfold longest
  cases hl : l.filter fun p => p.covers v6 a with
  | nil => exact absurd (hl ▸ hmem) (List.not_mem_nil)
  | cons b rest =>
    obtain ⟨p, hp, hfold, hmax⟩ := foldl_longer rest b
    rw [← hl] at hp hmax
    obtain ⟨hpl, hpc⟩ := List.mem_filter.1 hp
    exact ⟨p, hpl, hpc, hfold, fun q hq hc => hmax q (List.mem_filter.2 ⟨hq, hc⟩)⟩

theorem longest_eq_none {l : List Prefix} (h : ∀ p ∈ l, p.covers v6 a = false) : longest l v6 a = none := by
  rw [longest, List.filter_eq_nil_iff.2 fun p hp => by simp [h p hp]]
  rfl

/-- A lookup that reads only slots that can be read (R145). -/
theorem Classifier.lpm_readable (hb : c.badTrie = []) :
    c.lpm v6 a none = (((longest (c.trie v6) v6 a).map (·.cls)).getD 0, none) := by
  have hgood : ((levelsRead (c.trie v6) v6 a).find? fun lv =>
      (none : Option Nat) == some lv || c.badTrie.contains (slotCode v6 lv a)) = none :=
    List.find?_eq_none.2 fun _ _ => by simp [hb]
  simp only [Classifier.lpm, hgood]

/-- A lookup one of whose slots is found uncorrectable (R161). -/
theorem Classifier.lpm_uncorrectable (hl : lv ∈ levelsRead (c.trie v6) v6 a) :
    (c.lpm v6 a (some lv)).1 = 0 ∧ (c.lpm v6 a (some lv)).2.isSome = true := by
  unfold Classifier.lpm
  dsimp only
  split
  next => exact ⟨rfl, rfl⟩
  next hnone => simpa using List.find?_eq_none.1 hnone lv hl

end LongestPrefix

/-- Settles O23: a lookup gives the class of `longest`, the longest of the covering prefixes. -/
theorem longestPrefixWins : Obligations.LongestPrefixWins := by
  unfold Obligations.LongestPrefixWins
  refine fun c v6 a hb => ⟨fun hcov => ?_, fun hnone => ?_, fun lv hl => Classifier.lpm_uncorrectable hl⟩
  · obtain ⟨p, hp, hc, hlong, hmax⟩ := longest_eq_some hcov
    exact ⟨p, hp, hc, by rw [Classifier.lpm_readable hb, hlong]; rfl, hmax⟩
  · rw [Classifier.lpm_readable hb, longest_eq_none hnone]
    rfl

end Sys2Proof.Machine

namespace Sys2Proof.Machine

/-! ### Index entries in device memory (R149, R326) -/

section IndexEntries

variable {s : State} {a v : Nat}

theorem leNat_lt : ∀ bs : List Byte, leNat bs < 2 ^ (8 * bs.length)
  | [] => by simp [leNat]
  | b :: r => by
    have hrest := leNat_lt r
    have hb := b.isLt
    rw [leNat, List.length_cons, Nat.mul_succ, Nat.pow_add]
    omega

/-- A number that fits in its bytes is read back from them. -/
theorem leNat_leBytes : ∀ (n : Nat) {v : Nat}, v < 2 ^ (8 * n) → leNat (leBytes n v) = v
  | 0, v, h => (Nat.lt_one_iff.1 h).symm
  | n + 1, v, h => by
    rw [Nat.mul_succ, Nat.pow_add] at h
    rw [leBytes, leNat, leNat_leBytes n (by omega), BitVec.toNat_ofNat]
    omega

/-- Bytes written are read back (R326). -/
theorem State.bytesAt_poke (h : s.mem.wf = true) (a : Nat) (bs : List Byte) :
    (s.poke a bs).bytesAt a bs.length = bs := by
  refine List.ext_getElem (by simp [State.bytesAt, memBytes]) fun i _ hi => ?_
  simp [State.bytesAt, memBytes, State.memGet_poke_add h a bs hi, hi]

/-- An index entry written is read back (R149). -/
theorem State.ixAt_ixPut (h : s.mem.wf = true) (a : Nat) (hv : v < 2 ^ 128) : (s.ixPut a v).ixAt a = v := by
  have hbytes := State.bytesAt_poke h a (leBytes 16 v)
  rw [length_leBytes] at hbytes
  rw [State.ixAt, State.leAt, State.ixPut, hbytes]
  exact leNat_leBytes 16 hv

/-- An index entry written leaves every other byte (R326). -/
theorem State.ixPut_other (h : s.mem.wf = true) (v : Nat) {x : Nat} (hx : x < a ∨ a + 16 ≤ x) :
    memGet (s.ixPut a v).mem.bytes x = memGet s.mem.bytes x :=
  State.poke_other h a _ x (by rwa [length_leBytes])

theorem State.ixAt_lt (a : Nat) (s : State) : s.ixAt a < 2 ^ 128 := by
  have hlen : (s.bytesAt a 16).length = 16 := by simp [State.bytesAt, memBytes]
  have hlt := leNat_lt (s.bytesAt a 16)
  rwa [hlen] at hlt

theorem ixSig_lt (e : Nat) : ixSig e < 2 ^ 64 := Nat.mod_lt _ (by decide)
theorem ixRec_lt (e : Nat) : ixRec e < 2 ^ 24 := Nat.mod_lt _ (by decide)
theorem ixSeen_lt (e : Nat) : ixSeen e < 2 ^ 28 := Nat.mod_lt _ (by decide)
theorem seenAt_lt (tick : Nat) : seenAt tick < 2 ^ 28 := Nat.mod_lt _ (by decide)

/-- Fields of an entry that fit make a word that fits (R149). -/
theorem ixWord_lt {sig record seen : Nat} (hs : sig < 2 ^ 64) (hr : record < 2 ^ 24) (hn : seen < 2 ^ 28)
    (hit : Bool) : ixWord sig record seen hit < 2 ^ 128 := by
  have hbit : bit hit ≤ 1 := by cases hit <;> decide
  unfold ixWord
  omega

end IndexEntries

/-! ### Flow hits (R149, R160) -/

section FlowHits

variable {s : State} {pipe : Nat}

/-- A hit's entry as it is refreshed: the same signature and record, seen now, with the hit bit (R149). -/
def State.refreshed (entry : Nat) (s : State) : State :=
  s.ixPut entry (ixWord (ixSig (s.ixAt entry)) (ixRec (s.ixAt entry)) (seenAt s.tick) true)

theorem State.flowHit_locked (hl : s.flowLocked pipe = true) (id entry record : Nat) (f : Frame) :
    s.flowHit id pipe entry record f = s.flowUpdate id pipe record false f (s.recStats pipe record) := by
  simp only [State.flowHit, hl, if_true]

theorem State.flowHit_unlocked (hl : s.flowLocked pipe = false) (id entry record : Nat) (f : Frame) :
    s.flowHit id pipe entry record f =
      (s.refreshed entry).flowUpdate id pipe record false f ((s.refreshed entry).recStats pipe record) := by
  simp only [State.flowHit, State.refreshed, hl, Bool.false_eq_true, if_false]

theorem State.ixAt_refreshed (h : s.mem.wf = true) (entry : Nat) : (s.refreshed entry).ixAt entry =
    ixWord (ixSig (s.ixAt entry)) (ixRec (s.ixAt entry)) (seenAt s.tick) true :=
  State.ixAt_ixPut h entry (ixWord_lt (ixSig_lt _) (ixRec_lt _) (seenAt_lt _) true)

end FlowHits

/-- Settles O27: a hit goes on from the state with its entry refreshed, or on a locked table from the state as it
is. -/
theorem flowHitRefreshes : Obligations.FlowHitRefreshes := by
  unfold Obligations.FlowHitRefreshes
  exact fun id pipe entry record f s h => ⟨fun hl => State.flowHit_locked hl id entry record f, fun hl =>
    ⟨s.refreshed entry, State.ixAt_refreshed h entry, fun _ hx => State.ixPut_other h _ hx,
      State.flowHit_unlocked hl id entry record f⟩⟩

end Sys2Proof.Machine

namespace Sys2Proof.Machine

/-! ### Writes of MAC entries, and what each pipeline sees (R154) -/

section MacWrites

variable {s : State} {pipe k : Nat}

/-- The MAC table after a write: the entry named holds what was written, or nothing where it was deleted. -/
@[simp] theorem State.tget_macWrite (pipe k : Nat) (e : Option MacEntry) (s : State) :
    tget (s.macWrite pipe k e).cls.macs k = e := by
  cases e with
  | none => exact tget_tdel _ _
  | some e => exact tget_tset _ _ _

theorem State.tget_macWrite_ne (e : Option MacEntry) {j : Nat} (hj : j ≠ k) :
    tget (s.macWrite pipe k e).cls.macs j = tget s.cls.macs j := by
  cases e with
  | none => exact tget_tdel_ne _ hj
  | some e => exact tget_tset_ne _ _ hj

/-- No entry of the copy that a pipeline reads lags behind the learn engine's. -/
def State.MacCurrent (pipe : Nat) (s : State) : Prop := ∀ x ∈ s.cls.macOld, x.1.1 ≠ pipe

/-- A write for a pipeline lags in the copy of the other alone (R154). -/
theorem State.MacCurrent.macWrite (h : s.MacCurrent pipe) (e : Option MacEntry) :
    (s.macWrite pipe k e).MacCurrent pipe := by
  have hkept : ∀ x ∈ s.cls.macOld.filter fun x => decide (s.tick < x.2.1) && x.1 != (pipe, k), x.1.1 ≠ pipe :=
    fun x hx => h x (List.mem_filter.1 hx).1
  intro x hx
  simp only [State.macWrite, State.updCls_cls] at hx
  split at hx
  · exact hkept x hx
  · rcases List.mem_append.1 hx with hx | hx
    · exact hkept x hx
    · rw [List.mem_singleton.1 hx]
      dsimp only
      omega

/-- A pipeline whose copy does not lag finds what the table holds (R154). -/
theorem State.MacCurrent.macLook (h : s.MacCurrent pipe) (mac vid : Nat) :
    (s.macLook pipe mac vid).1 = s.cls.macFind mac vid := by
  have hnone : (s.cls.macOld.filter fun x => x.1.1 == pipe && decide (s.tick < x.2.1) &&
      (macPlaces mac vid).contains x.1.2) = [] :=
    List.filter_eq_nil_iff.2 fun x hx => by simp [h x hx]
  simp only [State.macLook, hnone, List.isEmpty_nil, if_true]

end MacWrites

/-! ### Source learns (R156, R157) -/

section SourceLearns

variable {s : State} {ifc mac vid k : Nat} {e : MacEntry}

theorem State.macLearn_static (hf : s.cls.macFind mac vid = some (k, e)) (hs : e.isStatic = true) :
    s.macLearn ifc mac vid = (.go, s) := by
  simp only [State.macLearn, hf, hs, if_true]

/-- A learned station where it was is refreshed. -/
theorem State.macLearn_known (hf : s.cls.macFind mac vid = some (k, e)) (hs : e.isStatic = false)
    (hi : e.mif = ifc) : s.macLearn ifc mac vid = (.go, s.macWrite (portOf ifc) k (some { e with
      hit := true, lastSeen := macTime s.tick % 2 ^ 24 })) := by
  simp [State.macLearn, hf, hs, hi]

theorem State.macLearn_pinned (hf : s.cls.macFind mac vid = some (k, e)) (hs : e.isStatic = false)
    (hi : e.mif ≠ ifc) (hp : e.pinned = true) :
    s.macLearn ifc mac vid = (.go, s.count Ctr.macLearnPinned ifc) := by
  simp [State.macLearn, hf, hs, hi, hp]

/-- A station that moves within its moves is written with its new interface. -/
theorem State.macLearn_moves (hf : s.cls.macFind mac vid = some (k, e)) (hs : e.isStatic = false)
    (hi : e.mif ≠ ifc) (hp : e.pinned = false)
    (hm : (e.move ifc s.cls.macMoveWindow s.tick).moves ≤ s.cls.macMoveMax) :
    s.macLearn ifc mac vid = (.go, (s.count Ctr.macMove ifc).macWrite (portOf ifc) k
      (some (e.move ifc s.cls.macMoveWindow s.tick))) := by
  simp only [State.macLearn, hf, hs, hi, hp, Bool.false_eq_true, if_false]
  exact if_neg (Nat.not_lt.2 hm)

/-- One that has moved too often is pinned and reported. -/
theorem State.macLearn_flaps (hf : s.cls.macFind mac vid = some (k, e)) (hs : e.isStatic = false)
    (hi : e.mif ≠ ifc) (hp : e.pinned = false)
    (hm : s.cls.macMoveMax < (e.move ifc s.cls.macMoveWindow s.tick).moves) :
    s.macLearn ifc mac vid = (.go, ((s.count Ctr.macMove ifc).macWrite (portOf ifc) k
      (some ((e.move ifc s.cls.macMoveWindow s.tick).pin s.tick))).macFlap
        ((e.move ifc s.cls.macMoveWindow s.tick).pin s.tick)) := by
  simp only [State.macLearn, hf, hs, hi, hp, Bool.false_eq_true, if_false]
  exact if_pos hm

@[simp] theorem State.cls_macFlap (e : MacEntry) (s : State) : (s.macFlap e).cls = s.cls :=
  (recordEvent_told _ _ _ _ _ _ _ _ _).cls

/-- A station that moves goes on, whether its entry is written or pinned. -/
theorem State.macLearn_go (hf : s.cls.macFind mac vid = some (k, e)) (hs : e.isStatic = false)
    (hi : e.mif ≠ ifc) (hp : e.pinned = false) : (s.macLearn ifc mac vid).1 = .go := by
  rcases Nat.lt_or_ge s.cls.macMoveMax (e.move ifc s.cls.macMoveWindow s.tick).moves with hm | hm
  · rw [State.macLearn_flaps hf hs hi hp hm]
  · rw [State.macLearn_moves hf hs hi hp hm]

/-- A new station beyond its interface's limit is not learned. -/
theorem State.macLearn_limit (hf : s.cls.macFind mac vid = none)
    (hl : (s.clsIfc ifc).macLimit ≤ s.cls.learnedOn ifc) :
    s.macLearn ifc mac vid = (if (s.clsIfc ifc).learnExcess = 0 then .drop else .flood,
      s.count Ctr.macLimitHit ifc) := by
  simp only [State.macLearn, hf, if_pos hl]

/-- With both buckets full the learn fails (R157). -/
theorem State.macLearn_full (hf : s.cls.macFind mac vid = none)
    (hl : s.cls.learnedOn ifc < (s.clsIfc ifc).macLimit) (hn : s.cls.macFree mac vid = none) :
    s.macLearn ifc mac vid = (.flood, s.count Ctr.macLearnFail ifc) := by
  simp only [State.macLearn, hf, if_neg (Nat.not_le.2 hl), hn]

/-- A new station takes the free entry. -/
theorem State.macLearn_new (hf : s.cls.macFind mac vid = none)
    (hl : s.cls.learnedOn ifc < (s.clsIfc ifc).macLimit) (hn : s.cls.macFree mac vid = some k) :
    s.macLearn ifc mac vid = (.go, (s.macWrite (portOf ifc) k (some {
      mac := BitVec.ofNat 48 mac, vid := vid, mif := ifc
      lastSeen := macTime s.tick % 2 ^ 24 })).count Ctr.macLearn ifc) := by
  simp only [State.macLearn, hf, if_neg (Nat.not_le.2 hl), hn]

end SourceLearns

/-- Settles O25: each case of a source learn leaves the entry that it writes, in the copy of the pipeline that
learns. -/
theorem macLearning : Obligations.MacLearning := by
  unfold Obligations.MacLearning
  refine fun ifc mac vid s => ⟨fun k e hf => ⟨State.macLearn_static hf, State.macLearn_known hf,
    State.macLearn_pinned hf, fun hs hi hp => ⟨State.macLearn_go hf hs hi hp, fun hm => ?_, fun hm => ?_⟩⟩,
    State.macLearn_limit, State.macLearn_full, fun k hf hl hn => ?_, fun pipe k e hold => ?_⟩
  · rw [State.macLearn_moves hf hs hi hp hm]
    exact ⟨_, State.tget_macWrite _ _ _ _, rfl, hp, rfl, rfl⟩
  · rw [State.macLearn_flaps hf hs hi hp hm, State.cls_macFlap]
    exact ⟨_, State.tget_macWrite _ _ _ _, rfl, rfl⟩
  · rw [State.macLearn_new hf hl hn]
    exact ⟨rfl, _, State.tget_macWrite _ _ (some _) _, rfl, rfl, rfl, rfl, rfl⟩
  · have hnew : (s.macWrite pipe k e).MacCurrent pipe := State.MacCurrent.macWrite hold e
    exact ⟨State.tget_macWrite _ _ _ _, fun _ hj => State.tget_macWrite_ne _ hj, hnew.macLook mac vid⟩

end Sys2Proof.Machine

namespace Sys2Proof.Machine

/-! ### Frames classified (R136, R141, R143) -/

section FramesClassified

variable {s : State} {t id n : Nat} {f : Frame} {r : ClassReads} {row : RuleRow}

theorem exec_classify_parsed (hm : s.moving = true) (hf : s.frame id = some f) (hs : f.stage = .parsed) :
    exec (.classify t id r) s = .next ((s.at t).classify id f r) := by
  have hf' : (s.at t).frame id = some f := hf
  rw [exec_classify]
  refine (happen_pos ?_).trans ?_
  · simp [hm, hf, hs]
  · rw [hf']

/-- A frame with the copy rings that stand when it is classified (R138). -/
def State.stamped (id : Nat) (f : Frame) (s : State) : State :=
  s.modFrame id fun x => { x with set := x.set.classed f.ifc s }

/-- The frame counted under `c` and handed to egress with the decision `d`. -/
def State.countDecide (id : Nat) (f : Frame) (c : Nat) (d : Decision) (s : State) : State :=
  ((s.stamped id f).count c f.ifc).decide' id d

theorem State.countDecide_leaves (hf : s.frame id = some f) (c : Nat) (d : Decision) :
    (s.countDecide id f c d).frame id = some { f with
        set := RxSet.classed f.ifc s f.set, stage := .egress, decision := some d } ∧
      (s.countDecide id f c d).counter c f.ifc = min (s.counter c f.ifc + 1) (2 ^ 64 - 1) ∧
      s.countDecide id f c d = { s with
        parser := (s.countDecide id f c d).parser, obs := (s.countDecide id f c d).obs } := by
  refine ⟨?_, State.counter_countN c f.ifc 1 (s.stamped id f), rfl⟩
  have hstamped : ((s.stamped id f).count c f.ifc).frame id = some { f with set := f.set.classed f.ifc s } := by
    refine (State.frame_modFrame s id _).trans ?_
    rw [hf]
    rfl
  rw [State.countDecide, State.decide', State.frame_modFrame, hstamped]
  rfl

/-- A malformed record takes its interface's `malformed_action` (R136). -/
theorem State.classify_malformed (h14 : f.pflag 14 = true) : s.classify id f r =
    s.countDecide id f Ctr.clsMalformed (.dflt (s.clsIfc f.ifc).malformedAction true) := if_pos h14

/-- An incomplete one takes its interface's `default_action` (R136). -/
theorem State.classify_incomplete (h14 : f.pflag 14 = false) (h15 : f.pflag 15 = true) : s.classify id f r =
    s.countDecide id f Ctr.clsIncomplete (.dflt (s.clsIfc f.ifc).defaultAction false) := by
  unfold State.classify
  rw [h14, h15]
  rfl

/-- Any other record goes on to the rules. -/
theorem State.classify_ruled (h14 : f.pflag 14 = false) (h15 : f.pflag 15 = false) :
    s.classify id f r = (s.stamped id f).ruleStep id f r := by
  unfold State.classify
  rw [h14, h15]
  rfl

/-- A frame without an IP header has no class, and none is looked up. -/
theorem State.classOf_noIp (h9 : f.pflag 9 = false) (h8 : f.pflag 8 = false) (a : Nat) (bad : Option Nat) :
    s.classOf f a bad = (0, s) := by
  simp [State.classOf, h9, h8]

/-- The winning row's counts of hits and bytes (R143). -/
def Pipeline.countHit (n len : Nat) (p : Pipeline) : Pipeline :=
  { p with
    hits := tup p.hits n 0 (· + 1)
    hitBytes := tup p.hitBytes n 0 (· + len) }

/-- A frame as the row that it matches leaves it. -/
def Frame.ofRow (n : Nat) (row : RuleRow) (mac : Option Nat) (f : Frame) : Frame :=
  { f with rule := some n, act := some row.action, macFault := mac }

theorem State.ruleStep_miss (h9 : f.pflag 9 = false) (h8 : f.pflag 8 = false) (hr : r.wrong = none)
    (hw : (s.pipe (portOf f.ifc)).winner (BitVec.ofNat 256 (ruleKey f 0 0)) none = none) :
    s.ruleStep id f r =
      (s.count Ctr.clsMiss f.ifc).decide' id (.dflt (s.clsIfc f.ifc).defaultAction false) := by
  unfold State.ruleStep
  simp only [State.classOf_noIp h9 h8, hr, hw]

theorem State.ruleStep_hit (h9 : f.pflag 9 = false) (h8 : f.pflag 8 = false) (hr : r.wrong = none)
    (hread : r.rule = false)
    (hw : (s.pipe (portOf f.ifc)).winner (BitVec.ofNat 256 (ruleKey f 0 0)) none = some (n, row)) :
    s.ruleStep id f r = ((s.modPipe (portOf f.ifc) (Pipeline.countHit n f.len)).modFrame id
      (Frame.ofRow n row r.mac)).flowEnter id (portOf f.ifc) (f.ofRow n row r.mac) row.action := by
  unfold State.ruleStep
  simp only [State.classOf_noIp h9 h8, hr, hw, hread, Bool.false_eq_true, if_false]
  rfl

/-- A row without flow, MAC learning, models or scans (R140). -/
structure RuleAction.Plain (a : RuleAction) : Prop where
  flow : a.flowMode = 0
  mac : a.macLearn = false
  pm : a.pmEn = false
  deep : a.deepEn = false

/-- Such a row leads its frame to egress with no verdict (R143). -/
theorem RuleAction.Plain.flowEnter {a : RuleAction} (g : RuleAction.Plain a) (hf : s.frame id = some f)
    (ha : f.act = some a) (pipe : Nat) (f' : Frame) : s.flowEnter id pipe f' a = s.noVerdict id := by
  have hact : (s.frame id).bind (·.act) = some a := by rw [hf]; exact ha
  rw [State.flowEnter, if_pos g.flow, State.macStep, State.macThen, hact, hf]
  simp only [g.mac, Bool.not_false, if_true]
  rw [State.ruleAct, hact, hf]
  simp [g.pm, g.deep]

/-- The frame sent to egress with the action of the row that it matches. -/
def State.matchedPlain (id : Nat) (f : Frame) (n : Nat) (row : RuleRow) (mac : Option Nat) (s : State) : State :=
  (((s.stamped id f).modPipe (portOf f.ifc) (Pipeline.countHit n f.len)).modFrame id
    (Frame.ofRow n row mac)).noVerdict id

/-- The frame once its row is known. -/
theorem State.frame_matched (hf : s.frame id = some f) (mac : Option Nat) :
    (((s.stamped id f).modPipe (portOf f.ifc) (Pipeline.countHit n f.len)).modFrame id
      (Frame.ofRow n row mac)).frame id =
        some (Frame.ofRow n row mac { f with set := f.set.classed f.ifc s }) := by
  have hstamped : ((s.stamped id f).modPipe (portOf f.ifc) (Pipeline.countHit n f.len)).frame id =
      some { f with set := f.set.classed f.ifc s } := by
    refine (State.frame_modFrame s id _).trans ?_
    rw [hf]
    rfl
  rw [State.frame_modFrame, hstamped]
  rfl

theorem State.classify_matched (hf : s.frame id = some f) (h14 : f.pflag 14 = false) (h15 : f.pflag 15 = false)
    (h9 : f.pflag 9 = false) (h8 : f.pflag 8 = false) (hr : r.wrong = none) (hread : r.rule = false)
    (hw : (s.pipe (portOf f.ifc)).winner (BitVec.ofNat 256 (ruleKey f 0 0)) none = some (n, row))
    (g : RuleAction.Plain row.action) : s.classify id f r = s.matchedPlain id f n row r.mac := by
  rw [State.classify_ruled h14 h15, State.ruleStep_hit (s := s.stamped id f) h9 h8 hr hread hw,
    g.flowEnter (State.frame_matched hf r.mac) rfl]
  rfl

theorem State.classify_missed (h14 : f.pflag 14 = false) (h15 : f.pflag 15 = false)
    (h9 : f.pflag 9 = false) (h8 : f.pflag 8 = false) (hr : r.wrong = none)
    (hw : (s.pipe (portOf f.ifc)).winner (BitVec.ofNat 256 (ruleKey f 0 0)) none = none) :
    s.classify id f r = s.countDecide id f Ctr.clsMiss (.dflt (s.clsIfc f.ifc).defaultAction false) := by
  rw [State.classify_ruled h14 h15, State.ruleStep_miss (s := s.stamped id f) h9 h8 hr hw]
  rfl

/-- The frame takes its rule's action, and the row counts it and its bytes. -/
theorem State.matchedPlain_leaves (hf : s.frame id = some f) (hv : f.pmVerdict = none) (mac : Option Nat) :
    (s.matchedPlain id f n row mac).frame id = some { f with
        set := RxSet.classed f.ifc s f.set, stage := .egress, decision := some .rule
        rule := some n, act := some row.action, macFault := mac } ∧
      (s.matchedPlain id f n row mac).pipe (portOf f.ifc) = (s.pipe (portOf f.ifc)).countHit n f.len ∧
      s.matchedPlain id f n row mac = { s with
        parser := (s.matchedPlain id f n row mac).parser, cls := (s.matchedPlain id f n row mac).cls } := by
  refine ⟨?_, State.pipe_modPipe (s.stamped id f) _ _, rfl⟩
  rw [State.matchedPlain, State.noVerdict, State.frame_modFrame, State.frame_matched hf]
  simp [Frame.ofRow, hv]

end FramesClassified

/-! ### The update engines (R142, R147) -/

section UpdateEngines

variable {s : State} {table bound : Nat} {h : CmdHdr}

/-- A table's engine taken changes who holds the engines, and draws the time it is held for. -/
theorem State.engage_eq (table bound : Nat) (h : CmdHdr) (s : State) : s.engage table bound h =
    { s with cls := { s.cls with busy := (s.engage table bound h).cls.busy }
             freeCount := (s.engage table bound h).freeCount } := rfl

@[simp] theorem State.cls_keep (v : StVal) (s : State) : (s.keep v).cls = s.cls := by rw [State.keep_eq]

end UpdateEngines

/-! ### Rule commands (R140, R142, R395) -/

section RuleCommands

variable {s : State} {t pipe n : Nat} {h : CmdHdr} {rows : List (Nat × RuleRow)} {clears : List Nat}

/-- A model that is live is on the device. -/
theorem State.modelHere_of_liveModel {d handle : Nat} (hl : (s.liveModel d handle).isNone = false) :
    s.modelHere d handle = true := by
  rw [State.modelHere, Option.isNone_eq_false_iff.1 hl, Bool.or_true]

/-- A row that passes the checks of R143 names rings and models that there are. -/
theorem State.rowMiss_of_rowChecks {e : Nat × RuleRow} (hc : ∀ c ∈ s.rowChecks pipe, c.1 e = false) :
    s.rowMiss e = false := by
  simp only [State.rowChecks, List.forall_mem_cons, Bool.or_eq_false_iff] at hc
  obtain ⟨⟨hwrong, hcopy⟩, ⟨hpm, hdeep⟩, -⟩ := hc
  simp only [State.rowMiss, Bool.or_eq_false_iff]
  refine ⟨⟨?_, ?_⟩, ?_⟩
  · by_cases hfwd : e.2.action.fwdAction = 4 ∨ e.2.action.fwdAction = 5
    · have harg : e.2.action.egressArg < 4096 := by
        have hne : e.2.action.fwdAction ≠ 2 := by omega
        simp only [RuleAction.wrong, Bool.or_eq_false_iff, hne, hfwd, if_true, if_false,
          decide_eq_false_iff_not, Nat.not_le] at hwrong
        exact hwrong.2
      have hring : (s.ring e.2.action.egressArg).rtype = 6 := by
        have hok : s.copyRingOk e.2.action.egressArg = true := by
          rcases hfwd with hfwd | hfwd <;> simpa [hfwd] using hcopy
        simp only [State.copyRingOk, Bool.and_eq_true, beq_iff_eq] at hok
        exact hok.1
      simp [State.ringMade, Nat.mod_eq_of_lt harg, hring]
    · simp only [not_or] at hfwd
      simp [hfwd]
  · rcases Bool.and_eq_false_iff.1 hpm with hen | hlive
    · rw [hen, Bool.false_and]
    · rw [State.modelHere_of_liveModel hlive, Bool.not_true, Bool.and_false]
  · rcases Bool.and_eq_false_iff.1 hdeep with hen | hlive
    · rw [hen, Bool.false_and]
    · rw [State.modelHere_of_liveModel (Bool.or_eq_false_iff.1 hlive).2, Bool.not_true, Bool.and_false]

/-- A `RULE_WRITE` that passes its checks (R142, R143). -/
structure RowsGood (h : CmdHdr) (pipe : Nat) (rows : List (Nat × RuleRow)) (clears : List Nat) (s : State) :
    Prop where
  ready : Ready h 0x0702 false s
  issuer : h.part = 0
  pipeline : pipe < 2
  good : ∀ e ∈ rows, e.1 < 16384 ∧ rowResv e.2 = false ∧ ∀ c ∈ s.rowChecks pipe, c.1 e = false
  nonempty : rows ≠ []
  most : rows.length ≤ 32
  mostClears : clears.length ≤ 63
  inRange : ∀ n ∈ clears, n < 16384

theorem RowsGood.noResv (g : RowsGood h pipe rows clears s) :
    idxOf? (fun e : Nat × RuleRow => rowResv e.2) rows = none := by
  have hbad := itemBad_eq_none (base := 0) (bad := fun e : Nat × RuleRow => rowResv e.2)
    fun e he => (g.good e he).2.1
  exact Option.map_eq_none_iff.1 hbad

theorem RowsGood.noMiss (g : RowsGood h pipe rows clears s) :
    itemBad 0 (fun e => (s.at t).rowMiss e) rows = none :=
  itemBad_eq_none fun e he => State.rowMiss_of_rowChecks (g.good e he).2.2

/-- A row written counts its table's engine as taken; the rows and their kept copy change (R142, R372). -/
def State.writeRules (pipe : Nat) (rows : List (Nat × RuleRow)) (clears : List Nat) (h : CmdHdr) (s : State) :
    State :=
  ((s.modPipe pipe fun p => p.writeRows rows clears).engage pipe engineTime h)

theorem RowsGood.exec_busy (g : RowsGood h pipe rows clears s) (hb : (s.at t).engineBusy pipe h = true) :
    exec (.ruleWrite t h pipe rows clears) s = .next ((s.at t).answer h 0x0702 .busy noDetail []) := by
  rw [exec_ruleWrite]
  refine isain_refuse g.ready g.noResv rfl rfl ?_
  simp [checksAt, g.noMiss, g.issuer, unlistedAt, onWhole, g.ready.listed, hb]

theorem RowsGood.exec_written (g : RowsGood h pipe rows clears s) (hb : (s.at t).engineBusy pipe h = false) :
    exec (.ruleWrite t h pipe rows clears) s =
      .next ((((s.at t).writeRules pipe rows clears h).keep
        ((s.at t).writeRules pipe rows clears h).clsVal).answer h 0x0702 .ok noDetail []) := by
  have hnum : itemBad 0 (fun e : Nat × RuleRow => decide (16384 ≤ e.1)) rows = none :=
    itemBad_eq_none fun e he => by simpa using (g.good e he).1
  have hclears : itemBad rows.length (fun n => decide (16384 ≤ n)) clears = none :=
    itemBad_eq_none fun n hn => by simpa using g.inRange n hn
  have hrows : ∀ c ∈ (s.at t).rowChecks pipe, itemBad 0 c.1 rows = none :=
    fun c hc => itemBad_eq_none fun e he => (g.good e he).2.2 c hc
  rw [exec_ruleWrite]
  refine isain_done g.ready g.noResv rfl rfl (checksAt_pass fun c hc => ?_)
  rcases List.mem_append.1 hc with hc | hc
  · simp only [g.noMiss, hnum, hclears, unlistedAt, g.ready.listed, hb, List.mem_cons, List.not_mem_nil,
      or_false] at hc
    rcases hc with rfl | rfl | rfl | rfl | rfl | rfl | rfl
    all_goals simp [onWhole, g.issuer, g.pipeline, g.nonempty, g.most, g.mostClears]
  · obtain ⟨c', hc', rfl⟩ := List.mem_map.1 hc
    exact hrows c' hc'

theorem tget_foldl_tset_ne : ∀ {rows : List (Nat × RuleRow)} (t : Tab RuleRow), (∀ e ∈ rows, e.1 ≠ n) →
    tget (rows.foldl (fun t e => tset t e.1 e.2) t) n = tget t n
  | [], _, _ => rfl
  | e :: rows, t, h => (tget_foldl_tset_ne (rows := rows) _ fun x hx => h x (.tail _ hx)).trans
      (tget_tset_ne t _ (h e (.head _)).symm)

theorem tget_foldl_tmod_ne {f : RuleRow → RuleRow} : ∀ {clears : List Nat} (t : Tab RuleRow), n ∉ clears →
    tget (clears.foldl (fun t k => tmod t k f) t) n = tget t n
  | [], _, _ => rfl
  | k :: clears, t, h => by
    obtain ⟨hk, hrest⟩ := not_or.1 (mt List.mem_cons.2 h)
    exact (tget_foldl_tmod_ne (clears := clears) _ hrest).trans (tget_tmod_ne t f hk)

/-- Each row that is changed, and none after it again, is as the change leaves some row. -/
theorem exists_of_tget_foldl_tmod {f : RuleRow → RuleRow} {r : RuleRow} : ∀ {clears : List Nat} (t : Tab RuleRow),
    n ∈ clears → tget (clears.foldl (fun t k => tmod t k f) t) n = some r → ∃ r', r = f r'
  | k :: clears, t, hn, hr => by
    by_cases hrest : n ∈ clears
    · exact exists_of_tget_foldl_tmod (clears := clears) _ hrest hr
    · obtain rfl := (List.mem_cons.1 hn).resolve_right hrest
      rw [List.foldl_cons, tget_foldl_tmod_ne _ hrest, tget_tmod, Option.map_eq_some_iff] at hr
      obtain ⟨r', -, rfl⟩ := hr
      exact ⟨r', rfl⟩

/-- A row that is not named stays as it was (R142). -/
theorem Pipeline.writeRows_other (p : Pipeline) (hr : ∀ e ∈ rows, e.1 ≠ n) (hc : n ∉ clears) :
    tget (p.writeRows rows clears).rules n = tget p.rules n :=
  (tget_foldl_tmod_ne _ hc).trans (tget_foldl_tset_ne p.rules hr)

theorem Pipeline.writeRows_cleared (p : Pipeline) {r : RuleRow} (hn : n ∈ clears)
    (hr : tget (p.writeRows rows clears).rules n = some r) : r.action.valid = false := by
  obtain ⟨r', rfl⟩ := exists_of_tget_foldl_tmod _ hn hr
  rfl

/-- A row written is live again (R161). -/
theorem Pipeline.writeRows_live (p : Pipeline) {e : Nat × RuleRow} (he : e ∈ rows) :
    e.1 ∉ (p.writeRows rows clears).offRows := by
  intro hoff
  have hout := (List.mem_filter.1 hoff).2
  simp only [Bool.not_eq_true', List.contains_eq_mem, decide_eq_false_iff_not] at hout
  exact hout (List.mem_map_of_mem he)

theorem exec_ruleRead_answered {start max : Nat} (r : Ready h 0x0703 false s) (h0 : h.part = 0) (hp : pipe < 2)
    (hb : (s.at t).engineBusy pipe h = false) :
    exec (.ruleRead t h pipe start max) s = .next ((s.at t).answer h 0x0703 .ok noDetail
      (listPage start max 98 [] ((List.range (min 99 (16384 - start))).map fun i =>
        (start + i, (s.pipe pipe).rowFields (start + i))))) := by
  rw [exec_ruleRead]
  exact isain_done r rfl rfl (isP0_of h0) (checks_pass (by simp [hp, hb]))

end RuleCommands

/-! ### Prefix commands (R144 to R147, R395) -/

section PrefixCommands

variable {s u v : State} {t len : Nat} {v6 : Bool} {pfx : BitVec 128} {h : CmdHdr}

theorem aget_aset {κ α : Type} [DecidableEq κ] (k j : κ) (x : α) :
    ∀ l : List (κ × α), aget (aset l k x) j = if k = j then some x else aget l j
  | [] => rfl
  | (k', y) :: l => by
    rw [aset]
    by_cases hk : k' = k
    · subst hk
      rw [if_pos rfl, aget, aget]
      split <;> rfl
    · rw [if_neg hk, aget, aget_aset k j x l, aget]
      by_cases hj : k' = j
      · subst hj
        rw [if_pos rfl, if_neg (Ne.symm hk), if_pos rfl]
      · rw [if_neg hj, if_neg hj]

/-- Nodes have been taken from their pools, and nothing else has changed but the free values drawn (R147). -/
structure NodesTaken (s u : State) : Prop where
  frame : u = { s with cls := { s.cls with nodes := u.cls.nodes }, freeCount := u.freeCount }
  kept : ∀ k, (aget s.cls.nodes k).isSome = true → (aget u.cls.nodes k).isSome = true

theorem NodesTaken.refl (s : State) : NodesTaken s s := ⟨rfl, fun _ h => h⟩

theorem NodesTaken.trans (h : NodesTaken s u) (k : NodesTaken u v) : NodesTaken s v where
  frame := by rw [k.frame, h.frame]
  kept j hj := k.kept j (h.kept j hj)

theorem State.takeNode_taken (v6 : Bool) (n : Nat × Nat) (s : State) : NodesTaken s (s.takeNode v6 n) := by
  unfold State.takeNode
  dsimp only
  split
  · exact .refl s
  · refine ⟨rfl, fun k hk => ?_⟩
    simp only [State.updCls_cls, aget_aset]
    split
    · rfl
    · exact hk

/-- A node that is taken is in use. -/
theorem State.takeNode_inUse (v6 : Bool) (n : Nat × Nat) (s : State) :
    (aget (s.takeNode v6 n).cls.nodes (bit v6, n.1, n.2)).isSome = true := by
  unfold State.takeNode
  dsimp only
  split
  next hin => exact hin
  next => simp only [State.updCls_cls, aget_aset, if_true, Option.isSome_some]

theorem foldl_takeNode (v6 : Bool) : ∀ (l : List (Nat × Nat)) (s : State),
    NodesTaken s (l.foldl (fun s n => s.takeNode v6 n) s) ∧ ∀ n ∈ l,
      (aget (l.foldl (fun s n => s.takeNode v6 n) s).cls.nodes (bit v6, n.1, n.2)).isSome = true
  | [], s => ⟨.refl s, fun _ hn => nomatch hn⟩
  | m :: l, s => by
    obtain ⟨htaken, huse⟩ := foldl_takeNode v6 l (s.takeNode v6 m)
    refine ⟨(State.takeNode_taken v6 m s).trans htaken, fun n hn => ?_⟩
    rcases List.mem_cons.1 hn with rfl | hn
    · exact htaken.kept _ (State.takeNode_inUse v6 n s)
    · exact huse n hn

@[simp] theorem Classifier.trie_setTrie (c : Classifier) (v6 : Bool) (l : List Prefix) :
    (c.setTrie v6 l).trie v6 = l := by cases v6 <;> rfl

@[simp] theorem Classifier.trie_setTrie_other (c : Classifier) (v6 : Bool) (l : List Prefix) :
    (c.setTrie v6 l).trie (!v6) = c.trie (!v6) := by cases v6 <;> rfl

/-- A family's prefixes replaced, nothing else of the classifier changes. -/
theorem Classifier.trie_congr {c d : Classifier} (h4 : c.trie4 = d.trie4) (h6 : c.trie6 = d.trie6) (v6 : Bool) :
    c.trie v6 = d.trie v6 := by cases v6 <;> assumption

/-- A length and bits that the family allows pass (R144). -/
theorem prefixForm_pass {bits : Nat} (hl : len ≤ famBits v6) (hz : bits % 2 ^ (famBits v6 - len) = 0) :
    ∀ e ∈ prefixForm v6 len bits, e.1 = false := by
  simp [prefixForm, hl, hz]

/-- The prefixes of a family but the one of a length and bits. -/
def Classifier.without (c : Classifier) (v6 : Bool) (len bits : Nat) : List Prefix :=
  (c.trie v6).filter fun q => !q.is len bits

/-- The prefixes `l` with `p` added, and the nodes of `p` taken (R146, R147). -/
def State.addPrefix (v6 : Bool) (p : Prefix) (l : List Prefix) (s : State) : State :=
  (nodesOf v6 p).foldl (fun s n => s.takeNode v6 n)
    ((s.at (s.nodesReady v6 p)).updCls fun c => c.setTrie v6 (l ++ [p]))

theorem State.addPrefix_taken (v6 : Bool) (p : Prefix) (l : List Prefix) (s : State) :
    NodesTaken ((s.at (s.nodesReady v6 p)).updCls fun c => c.setTrie v6 (l ++ [p])) (s.addPrefix v6 p l) :=
  (foldl_takeNode v6 _ _).1

theorem State.trie_addPrefix (v6 w6 : Bool) (p : Prefix) (l : List Prefix) (s : State) :
    (s.addPrefix v6 p l).cls.trie w6 = (s.cls.setTrie v6 (l ++ [p])).trie w6 := by
  rw [(s.addPrefix_taken v6 p l).frame]
  exact Classifier.trie_congr rfl rfl w6

/-- A `PREFIX_ADD` that passes its checks (R146). -/
structure AddGood (h : CmdHdr) (v6 : Bool) (len cls bits : Nat) (s : State) : Prop where
  ready : Ready h 0x0704 false s
  issuer : h.part = 0
  length : len ≤ famBits v6
  form : bits % 2 ^ (famBits v6 - len) = 0
  least : 1 ≤ cls
  most : cls < 2 ^ 20
  room : (s.cls.without v6 len bits).length < if v6 then 524288 else 1048576
  pools : s.poolsFull v6 { len := len, bits := BitVec.ofNat 128 bits, cls := cls } = false

theorem AddGood.exec_prefixAdd {cls : Nat} (g : AddGood h v6 len cls (prefixBits v6 pfx) s)
    (hb : (s.at t).engineBusy (2 + bit v6) h = false) : exec (.prefixAdd t h v6 len cls pfx) s =
      .next ((((s.at t).addPrefix v6 { len := len, bits := BitVec.ofNat 128 (prefixBits v6 pfx), cls := cls }
        (s.cls.without v6 len (prefixBits v6 pfx))).engage (2 + bit v6) prefixTime h).answer h 0x0704 .ok
          noDetail []) := by
  have hroom : ¬((if v6 then 524288 else 1048576) <
      ((s.cls.trie v6).filter fun q => !q.is len (prefixBits v6 pfx)).length + 1) := Nat.not_lt.2 g.room
  have hpools : (s.at t).poolsFull v6
      { len := len, bits := BitVec.ofNat 128 (prefixBits v6 pfx), cls := cls } = false := g.pools
  have hleast : cls ≠ 0 := Nat.pos_iff_ne_zero.1 g.least
  have hmost : ¬2 ^ 20 ≤ cls := Nat.not_le.2 g.most
  rw [Machine.exec_prefixAdd]
  refine isain_done g.ready rfl rfl (isP0_of g.issuer) (checks_pass fun e he => ?_)
  rcases List.mem_append.1 he with he | he
  · exact prefixForm_pass g.length g.form e he
  · simp only [List.mem_cons, List.not_mem_nil, or_false] at he
    rcases he with rfl | rfl | rfl
    · simp only [decide_eq_false hleast, decide_eq_false hmost, Bool.or_self]
    · exact Bool.or_eq_false_iff.2 ⟨decide_eq_false hroom, hpools⟩
    · exact hb

/-- The prefixes `l` alone left, and the nodes freed that they do not need (R146, R147). -/
def State.delPrefix (v6 : Bool) (l : List Prefix) (s : State) : State :=
  s.updCls fun c => (c.setTrie v6 l).freeNodes v6 s.tick

theorem exec_prefixDel_found (r : Ready h 0x0705 false s) (h0 : h.part = 0) (hl : len ≤ famBits v6)
    (hz : prefixBits v6 pfx % 2 ^ (famBits v6 - len) = 0) (hb : (s.at t).engineBusy (2 + bit v6) h = false)
    (hf : ∃ q ∈ s.cls.trie v6, q.is len (prefixBits v6 pfx) = true) : exec (.prefixDel t h v6 len pfx) s =
      .next ((((s.at t).delPrefix v6 (s.cls.without v6 len (prefixBits v6 pfx))).engage (2 + bit v6) prefixTime
        h).answer h 0x0705 .ok noDetail []) := by
  have hany : ((s.at t).cls.trie v6).any (fun q => q.is len (prefixBits v6 pfx)) = true := List.any_eq_true.2 hf
  rw [exec_prefixDel]
  refine isain_done r rfl rfl (isP0_of h0) (checks_pass fun e he => ?_)
  rcases List.mem_append.1 he with he | he
  · exact prefixForm_pass hl hz e he
  · simp only [hany, hb, List.mem_cons, List.not_mem_nil, or_false] at he
    rcases he with rfl | rfl <;> rfl

/-- A list of checks runs its second part where its first part passes. -/
theorem checks_append {l l' : List (Bool × Status)} {r : Reply} (hl : ∀ e ∈ l, e.1 = false) :
    checks (l ++ l') r = checks l' r := by
  induction l with
  | nil => rfl
  | cons e l ih =>
    obtain ⟨bad, st⟩ := e
    obtain rfl : bad = false := hl _ (.head _)
    exact ih fun x hx => hl x (.tail _ hx)

theorem exec_prefixDel_missing (r : Ready h 0x0705 false s) (h0 : h.part = 0) (hl : len ≤ famBits v6)
    (hz : prefixBits v6 pfx % 2 ^ (famBits v6 - len) = 0)
    (hf : ∀ q ∈ s.cls.trie v6, q.is len (prefixBits v6 pfx) = false) : exec (.prefixDel t h v6 len pfx) s =
      .next ((s.at t).answer h 0x0705 .eState noDetail []) := by
  have hany : ((s.at t).cls.trie v6).any (fun q => q.is len (prefixBits v6 pfx)) = false :=
    List.any_eq_false.2 fun q hq => by simp [hf q hq]
  rw [exec_prefixDel]
  refine isain_refuse r rfl rfl (isP0_of h0) ((checks_append (prefixForm_pass hl hz)).trans ?_)
  rw [hany]
  rfl

/-- The root of a trie has 2^16 slots (R144). -/
theorem exec_prefixRead_root (r : Ready h 0x0706 false s) (h0 : h.part = 0)
    (hb : (s.at t).engineBusy (2 + bit v6) h = false) (start max : Nat) :
    exec (.prefixRead t h v6 1 0 start max) s = .next ((s.at t).answer h 0x0706 .ok noDetail
      (listPage start max 1079 [] ((List.range (min 1080 (2 ^ 16 - start))).map fun i =>
        (start + i, [(64, s.cls.slotWord v6 1 0 (start + i))])))) := by
  have hsize : ((0 :: levelEnds v6)[1]?).getD 0 - ((0 :: levelEnds v6)[1 - 1]?).getD 0 = 16 := by
    cases v6 <;> rfl
  have hlevels : ¬(levelEnds v6).length < 1 := by cases v6 <;> decide
  rw [exec_prefixRead]
  refine isain_done r rfl rfl (isP0_of h0) ((checks_pass ?_).trans ?_)
  · simp [hb, hlevels]
  · rw [hsize]
    rfl

/-- A node that is not in use reads as zeros (R145). -/
theorem exec_prefixRead_unused {level node : Nat} (r : Ready h 0x0706 false s) (h0 : h.part = 0)
    (hb : (s.at t).engineBusy (2 + bit v6) h = false) (start max : Nat) (h2 : 2 ≤ level)
    (hl : level ≤ (levelEnds v6).length) (hn : node < (nodePool v6 level).2)
    (hu : (s.cls.nodes.all fun e => !(e.1.1 == bit v6 && e.1.2.1 == level && e.2 == node)) = true) :
    exec (.prefixRead t h v6 level node start max) s = .next ((s.at t).answer h 0x0706 .ok noDetail
      (listPage start max 1079 [] ((List.range (min 1080 (2 ^ ((levelEnds v6)[level - 1]?.getD 0 -
        (levelEnds v6)[level - 2]?.getD 0) - start))).map fun i => (start + i, [(64, 0)])))) := by
  obtain ⟨k, rfl⟩ : ∃ k, level = k + 2 := ⟨level - 2, by omega⟩
  have hnone : ((s.at t).cls.nodes.find? fun e => e.1.1 == bit v6 && e.1.2.1 == k + 2 && e.2 == node) = none := by
    refine List.find?_eq_none.2 fun e he => ?_
    have hne := List.all_eq_true.1 hu e he
    rw [Bool.not_eq_true'] at hne
    rw [hne]
    exact Bool.false_ne_true
  rw [exec_prefixRead]
  refine isain_done r rfl rfl (isP0_of h0) ((checks_pass ?_).trans ?_)
  · simp [hb, hl, hn]
  · rw [hnone]
    rfl

end PrefixCommands

/-! ### MAC commands (R154, R155, R395) -/

section MacCommands

variable {s : State} {t vid k : Nat} {mac : BitVec 48} {h : CmdHdr}

/-- A change of the MAC table that takes its engine, and its kept copy (R372). -/
def State.putMacs (f : Tab MacEntry → Tab MacEntry) (h : CmdHdr) (s : State) : State :=
  ((s.updCls fun c => { c with macs := f c.macs }).engage 4 engineTime h).keep
    ((s.updCls fun c => { c with macs := f c.macs }).engage 4 engineTime h).clsVal

theorem State.macs_putMacs (f : Tab MacEntry → Tab MacEntry) (h : CmdHdr) (s : State) :
    (s.putMacs f h).cls.macs = f s.cls.macs := by
  rw [State.putMacs, State.cls_keep]
  rfl

theorem State.putMacs_frame (f : Tab MacEntry → Tab MacEntry) (h : CmdHdr) (s : State) :
    s.putMacs f h = { s with
      cls := (s.putMacs f h).cls, bay := (s.putMacs f h).bay, freeCount := (s.putMacs f h).freeCount } := by
  rw [State.putMacs, State.keep_eq]
  rfl

/-- The entry of a key, else a free one, takes a static station (R154). -/
theorem exec_macStaticAdd_placed {mif : Nat} (r : Ready h 0x0707 false s) (h0 : h.part = 0)
    (hb : (s.at t).engineBusy 4 h = false) (hm : mif < 4) (hv : vid < 4096)
    (hk : (∃ e, s.cls.macFind mac.toNat vid = some (k, e)) ∨
      (s.cls.macFind mac.toNat vid = none ∧ s.cls.macFree mac.toNat vid = some k)) :
    exec (.macStaticAdd t h mif vid mac) s = .next (((s.at t).putMacs (fun l => tset l k
      { mac := mac, vid := vid, mif := mif, isStatic := true, hit := false }) h).answer h 0x0707 .ok noDetail
        []) := by
  rw [exec_macStaticAdd]
  refine isain_done r rfl rfl (isP0_of h0) ?_
  dsimp only
  rw [if_neg (by omega), hb, if_neg Bool.false_ne_true]
  rcases hk with ⟨e, hfind⟩ | ⟨hfind, hfree⟩
  · have hfind' : (s.at t).cls.macFind mac.toNat vid = some (k, e) := hfind
    rw [hfind']
    rfl
  · have hfind' : (s.at t).cls.macFind mac.toNat vid = none := hfind
    have hfree' : (s.at t).cls.macFree mac.toNat vid = some k := hfree
    rw [hfind', hfree']
    rfl

theorem exec_macStaticRemove_found {e : MacEntry} (r : Ready h 0x0707 false s) (h0 : h.part = 0)
    (hb : (s.at t).engineBusy 4 h = false)
    (hf : s.cls.macs.find? (fun e => e.2.isStatic && e.2.mac == mac && e.2.vid == vid) = some (k, e)) :
    exec (.macStaticRemove t h vid mac) s =
      .next (((s.at t).putMacs (fun l => tdel l k) h).answer h 0x0707 .ok noDetail []) := by
  have hf' : (s.at t).cls.macs.find? (fun e => e.2.isStatic && e.2.mac == mac && e.2.vid == vid) =
    some (k, e) := hf
  rw [exec_macStaticRemove]
  refine isain_done r rfl rfl (isP0_of h0) ?_
  dsimp only
  rw [hb, if_neg Bool.false_ne_true, hf']
  rfl

theorem exec_macRead_answered (r : Ready h 0x0708 false s) (h0 : h.part = 0)
    (hb : (s.at t).engineBusy 4 h = false) (start max : Nat) :
    exec (.macRead t h start max) s = .next ((s.at t).answer h 0x0708 .ok noDetail
      (listPage start max 539 [] ((List.range (min 540 (65536 - start))).map fun i =>
        (start + i, s.cls.macWord (start + i))))) := by
  rw [exec_macRead]
  refine isain_done r rfl rfl (isP0_of h0) ?_
  rw [hb]
  rfl

/-- The learned entries that a `MAC_FLUSH` names (R395). -/
def MacEntry.flushed (mif vid : Nat) (e : MacEntry) : Bool :=
  !e.isStatic && (mif == 7 || e.mif == mif) && (vid == 0x1000 || e.vid == vid)

/-- A flush takes the entries away and the table's engine. -/
def State.flushMacs (mif vid : Nat) (h : CmdHdr) (s : State) : State :=
  (s.updCls fun c => { c with macs := c.macs.filter fun e => !e.2.flushed mif vid }).engage 4 engineTime h

theorem exec_macFlush_done {mif : Nat} (r : Ready h 0x0709 false s) (h0 : h.part = 0)
    (hb : (s.at t).engineBusy 4 h = false) (hm : mif < 4 ∨ mif = 7) (hv : vid ≤ 0x1000) :
    exec (.macFlush t h mif vid) s = .next (((s.at t).flushMacs mif vid h).answer h 0x0709 .ok noDetail
      (pack [(32, (s.cls.macs.filter fun e => e.2.flushed mif vid).length)])) := by
  have hif : (decide (4 ≤ mif) && decide (mif ≠ 7)) = false := by
    rcases hm with hm | rfl
    · simp [Nat.not_le.2 hm]
    · rfl
  rw [exec_macFlush]
  refine isain_done r rfl rfl (isP0_of h0) (checks_pass ?_)
  simp only [List.forall_mem_cons, hif, hb, decide_eq_false (Nat.not_lt.2 hv)]
  simp

/-- What a flush leaves: the static entries, and those of another interface or VLAN than it names. -/
theorem MacEntry.flushed_eq_false_iff {mif : Nat} {e : MacEntry} : e.flushed mif vid = false ↔
    e.isStatic = true ∨ (mif ≠ 7 ∧ e.mif ≠ mif) ∨ (vid ≠ 0x1000 ∧ e.vid ≠ vid) := by
  simp only [MacEntry.flushed, Bool.and_eq_false_iff, Bool.or_eq_false_iff, Bool.not_eq_false', beq_eq_false_iff_ne,
    or_assoc]

end MacCommands

/-! ### Aging, scrubbing and rewriting (R156, R158, R161) -/

section ClassifierUpkeep

variable {s : State} {t pipe entry : Nat} {e : MacEntry}

theorem exec_macAgingPass_raced (hm : s.moving = true) (hn : entry < 65536) :
    exec (.macAgingPass t entry true) s = .next ((s.at t).count Ctr.ageRaceKept 0) := by
  rw [exec_macAgingPass]
  exact happen_pos (by simp [hm, hn])

/-- The scanner's write to a learned entry that has not changed since it was read (R158). -/
theorem exec_macAgingPass_read (hm : s.moving = true) (hn : entry < 65536) (he : tget s.cls.macs entry = some e)
    (hs : e.isStatic = false) (hb : entry ∉ s.cls.badMacs) : exec (.macAgingPass t entry false) s =
      .next (if e.hit then (s.at t).modMac entry fun e => { e with hit := false }
        else if s.cls.macAge ≤ idleOf (macTime (max s.tick t) % 2 ^ 24) e.lastSeen (2 ^ 24) then
          ((s.at t).macWrite (portOf e.mif) entry none).tally Ctr.macAged
        else s.at t) := by
  have he' : tget (s.at t).cls.macs entry = some e := he
  have hb' : (s.at t).cls.badMacs.contains entry = false := by simpa using hb
  rw [exec_macAgingPass]
  refine (happen_pos ?_).trans ?_
  · simp only [he', hb', State.moving_at, hm, hn, hs]
    rfl
  · simp only [Bool.false_eq_true, if_false, he']
    rfl

/-- A pin that has stood for its time is released (R156). -/
theorem exec_macPinRelease_due (hm : s.moving = true) (he : tget s.cls.macs entry = some e)
    (hp : e.pinned = true)
    (hd : s.cls.macPinHold ≤ idleOf (macTime (max s.tick t) % 2 ^ 28) e.moveWin (2 ^ 28)) :
    exec (.macPinRelease t entry) s =
      .next ((s.at t).modMac entry fun e => { e with pinned := false, moves := 0 }) := by
  have he' : tget (s.at t).cls.macs entry = some e := he
  have hd' : (s.at t).cls.macPinHold ≤ idleOf (macTime (s.at t).tick % 2 ^ 28) e.moveWin (2 ^ 28) := hd
  rw [exec_macPinRelease]
  refine happen_pos ?_
  simp only [he', State.moving_at, hm, hp, decide_eq_true hd', Bool.and_self]

theorem exec_ruleScrubPass_running {bad : List Nat} (hr : s.running = true) (hp : pipe < 2) :
    exec (.ruleScrubPass t pipe bad) s = .next (bad.foldl (fun s r =>
      if r < 16384 ∧ (s.pipe pipe).live r then s.ruleFault pipe r else s) (s.at t)) := by
  rw [exec_ruleScrubPass]
  exact happen_pos (by simp [hr, hp])

/-- A quarantined entry of table `table` as Isain rewrites it (R161). -/
def State.rewriteEntry (table idx : Nat) (s : State) : State :=
  if table < 2 then s.modPipe table fun p => { p with offRows := p.offRows.filter (· != idx) }
  else if table < 4 then
    s.updCls fun c => { c with badTrie := c.badTrie.filter fun x => nodeCode x != nodeCode idx }
  else if table = 4 then (if s.cls.badMacs.contains idx then s.clearMac idx else s)
  else s.clearFlowEntry (table - 5) idx

theorem exec_tableEntryRewrite_running {table idx : Nat} (hr : s.running = true) (hi : s.isainUp = true)
    (ht : table < 7) : exec (.tableEntryRewrite t table idx) s = .next ((s.at t).rewriteEntry table idx) := by
  rw [exec_tableEntryRewrite]
  exact happen_pos (by simp [hr, hi, ht])

/-- A quarantined flow entry is cleared with its record. -/
theorem State.rewriteEntry_flow {idx : Nat} (hb : (s.pipe pipe).tableBase.isSome = true)
    (hq : ixBad (s.ixAt ((s.pipe pipe).indexBase + 64 + idx * 16)) = true) : s.rewriteEntry (pipe + 5) idx =
      (s.ixPut ((s.pipe pipe).indexBase + 64 + idx * 16) 0).recFreed pipe
        (ixRec (s.ixAt ((s.pipe pipe).indexBase + 64 + idx * 16))) := by
  unfold State.rewriteEntry
  rw [if_neg (by omega), if_neg (by omega), if_neg (by omega), Nat.add_sub_cancel]
  exact if_pos (by rw [hb, hq]; rfl)

end ClassifierUpkeep

/-- Settles O24, part by part: classification, the commands of rules, prefixes and MAC entries, and the
classifier's upkeep. -/
theorem classifierCommands : Obligations.ClassifierCommands := by
  unfold Obligations.ClassifierCommands
  refine ⟨fun t id f s hm hf hs => ?classification, fun t pipe h s h0 hp => ?rules,
    fun t len v6 pfx h s h0 hb hl hz => ?prefixes, fun t vid mac h s h0 hb => ?macs, fun t s => ?upkeep⟩
  case classification =>
    have hf' : (s.at t).frame id = some f := hf
    have hexec (r : ClassReads) := exec_classify_parsed (t := t) (r := r) hm hf hs
    refine ⟨fun h14 r => ?_, fun h14 h15 r => ?_, fun h14 h15 h9 h8 => ⟨fun r hr hw => ?_, ?_⟩⟩
    · exact ⟨_, (hexec r).trans (congrArg _ (State.classify_malformed h14)), State.countDecide_leaves hf' _ _⟩
    · exact ⟨_, (hexec r).trans (congrArg _ (State.classify_incomplete h14 h15)),
        State.countDecide_leaves hf' _ _⟩
    · exact ⟨_, (hexec r).trans (congrArg _ (State.classify_missed h14 h15 h9 h8 hr hw)),
        State.countDecide_leaves hf' _ _⟩
    · intro r n row hr hread hw hflow hmac hpm hdeep hv
      have g : RuleAction.Plain row.action := ⟨hflow, hmac, hpm, hdeep⟩
      obtain ⟨hframe, hpipe, hrest⟩ := State.matchedPlain_leaves (n := n) (row := row) hf' hv r.mac
      refine ⟨_, (hexec r).trans (congrArg _ (State.classify_matched hf' h14 h15 h9 h8 hr hread hw g)), hframe,
        ?_, ?_, hrest⟩
      · rw [hpipe]
        exact tgetD_tup (s.pipe (portOf f.ifc)).hits n 0 (· + 1)
      · rw [hpipe]
        exact tgetD_tup (s.pipe (portOf f.ifc)).hitBytes n 0 (· + f.len)
  case rules =>
    refine ⟨fun rows clears r hrows hsome hmost hclears hrange => ?_, fun start max r hb =>
      exec_ruleRead_answered r h0 hp hb⟩
    have g : RowsGood h pipe rows clears s := ⟨r, h0, hp, hrows, hsome, hmost, hclears, hrange⟩
    refine ⟨g.exec_busy, fun hb => ⟨_, g.exec_written hb, ?_⟩⟩
    have hpipe : (((s.at t).writeRules pipe rows clears h).keep
        ((s.at t).writeRules pipe rows clears h).clsVal).pipe pipe = (s.pipe pipe).writeRows rows clears := by
      rw [State.pipe, State.cls_keep]
      exact State.pipe_modPipe (s.at t) pipe fun p => p.writeRows rows clears
    rw [hpipe]
    refine ⟨rfl, fun n => Pipeline.writeRows_other _, fun n r => Pipeline.writeRows_cleared _,
      fun e => Pipeline.writeRows_live _, ?_⟩
    rw [State.keep_eq]
    rfl
  case prefixes =>
    refine ⟨fun cls r hleast hmost hroom hpools => ?_, fun r => ⟨fun hfound => ?_,
      exec_prefixDel_missing r h0 hl hz⟩, fun r start max => ⟨exec_prefixRead_root r h0 hb start max,
        fun level node => exec_prefixRead_unused r h0 hb start max⟩⟩
    · have g : AddGood h v6 len cls (prefixBits v6 pfx) s := ⟨r, h0, hl, hz, hleast, hmost, hroom, hpools⟩
      refine ⟨_, g.exec_prefixAdd hb, ?_, ?_, (foldl_takeNode v6 _ _).2, ?_, ?_⟩
      · exact (State.trie_addPrefix v6 v6 _ _ _).trans (Classifier.trie_setTrie _ _ _)
      · exact (State.trie_addPrefix v6 (!v6) _ _ _).trans (Classifier.trie_setTrie_other _ _ _)
      · rw [State.engage_eq, (State.addPrefix_taken v6 _ _ _).frame]
        exact Nat.le_max_left _ _
      · rw [State.engage_eq, (State.addPrefix_taken v6 _ _ _).frame]
        rfl
    · refine ⟨_, exec_prefixDel_found r h0 hl hz hb hfound, ?_, ?_, rfl⟩
      · exact Classifier.trie_setTrie s.cls v6 _
      · exact Classifier.trie_setTrie_other s.cls v6 _
  case macs =>
    refine ⟨fun mif k r hm hv hk => ⟨_, exec_macStaticAdd_placed r h0 hb hm hv hk, ?_⟩,
      fun k e r hf => ⟨_, exec_macStaticRemove_found r h0 hb hf, ?_⟩,
      fun start max r => exec_macRead_answered r h0 hb start max,
      fun mif r hm hv => ⟨_, _, exec_macFlush_done r h0 hb hm hv, ?_, fun e => ?_, rfl⟩⟩
    · rw [State.macs_putMacs]
      exact ⟨tget_tset _ _ _, fun j hj => tget_tset_ne _ _ hj, State.putMacs_frame _ _ _⟩
    · rw [State.macs_putMacs]
      exact ⟨tget_tdel _ _, fun j hj => tget_tdel_ne _ hj, State.putMacs_frame _ _ _⟩
    · exact (List.length_eq_length_filter_add fun e : Nat × MacEntry => e.2.flushed mif vid).symm
    · rw [← MacEntry.flushed_eq_false_iff]
      exact List.mem_filter.trans (and_congr_right' (by rw [Bool.not_eq_true']))
  case upkeep =>
    refine ⟨fun entry e raced hm he hs hb hn => ⟨?_, ?_, ?_⟩, fun entry e hm he hp hd =>
      exec_macPinRelease_due hm he hp hd, fun pipe hr hp => ⟨exec_ruleScrubPass_running hr hp,
        fun row hrow hlive => ?_⟩, fun idx hr hi => ⟨fun pipe hp => ⟨?_, fun hbase hbad => ?_⟩, ?_, fun hq => ?_⟩⟩
    · rintro rfl
      exact exec_macAgingPass_raced hm hn
    · rintro rfl hhit
      rw [exec_macAgingPass_read hm hn he hs hb, if_pos hhit]
    · rintro rfl hhit hage
      rw [exec_macAgingPass_read hm hn he hs hb, hhit, if_neg Bool.false_ne_true, if_pos hage]
    · exact (exec_ruleScrubPass_running hr hp).trans (congrArg _ (if_pos ⟨hrow, hlive⟩))
    · exact (exec_tableEntryRewrite_running hr hi (by omega)).trans (congrArg _ (if_pos hp))
    · exact (exec_tableEntryRewrite_running hr hi (by omega)).trans
        (congrArg _ (State.rewriteEntry_flow (s := s.at t) hbase hbad))
    · exact exec_tableEntryRewrite_running hr hi (by decide)
    · have hq' : (s.at t).cls.badMacs.contains idx = true := by simpa using hq
      exact (exec_tableEntryRewrite_running hr hi (by decide)).trans (congrArg _ (if_pos hq'))

end Sys2Proof.Machine

namespace Sys2Proof.Machine

/-! ### The flow step of a frame (R149, R151, R160) -/

section FlowSteps

variable {s : State} {t id pipe : Nat} {f : Frame} {a : RuleAction}

theorem exec_flowMissComplete_waiting (hm : s.moving = true) (hf : s.frame id = some f)
    (hs : f.stage = .flowMiss) (ha : f.act = some a) :
    exec (.flowMissComplete t id) s = .next ((s.at t).flowStep id (portOf f.ifc) f a) := by
  have hf' : (s.at t).frame id = some f := hf
  rw [exec_flowMissComplete]
  refine (happen_pos ?_).trans ?_
  · simp [hm, hf, hs]
  · simp only [hf', ha]

/-- A learn of the frame's key is in flight. -/
def State.Learning (pipe : Nat) (f : Frame) (s : State) : Prop :=
  ∃ e ∈ (s.pipe pipe).learning, e.2.key = keySorted (s.pipe pipe).flowSym f.key

theorem State.flowStep_waits (h : s.Learning pipe f) :
    s.flowStep id pipe f a = s.modFrame id fun f => { f with stage := .learnWait } := by
  obtain ⟨e, he, hkey⟩ := h
  exact if_pos (List.any_eq_true.2 ⟨e, he, by simp [hkey]⟩)

theorem State.learning_any_eq_false (h : ¬s.Learning pipe f) :
    ((s.pipe pipe).learning.any fun e => e.2.key == keySorted (s.pipe pipe).flowSym f.key) = false :=
  List.any_eq_false.2 fun e he => by
    rw [beq_iff_eq]
    exact fun hkey => h ⟨e, he, hkey⟩

/-- With no such learn the frame's key is looked up; where it hits, its entry is refreshed and cached (R149, R150). -/
theorem State.flowStep_hit {u : State} {e i : Nat} (h : ¬s.Learning pipe f)
    (hu : u = s.flowTouch pipe (keySorted (s.pipe pipe).flowSym f.key))
    (hl : u.flowLook pipe (keySorted (s.pipe pipe).flowSym f.key) = .hit e i) : s.flowStep id pipe f a =
      ((u.modPipe pipe (Pipeline.caches e)).flowHit id pipe e i f).macStep id := by
  subst hu
  unfold State.flowStep
  dsimp only
  rw [State.learning_any_eq_false h, if_neg Bool.false_ne_true, hl]

/-- Where it misses under a rule that does not learn, the frame goes on (R140). -/
theorem State.flowStep_miss {u : State} (h : ¬s.Learning pipe f)
    (hu : u = s.flowTouch pipe (keySorted (s.pipe pipe).flowSym f.key))
    (hl : u.flowLook pipe (keySorted (s.pipe pipe).flowSym f.key) = .miss) (h1 : a.flowMode = 1) :
    s.flowStep id pipe f a = u.macStep id := by
  subst hu
  unfold State.flowStep
  dsimp only
  rw [State.learning_any_eq_false h, if_neg Bool.false_ne_true, hl]
  exact if_neg (by simp [h1])

end FlowSteps

/-! ### Index entries in words that can be read (R151, R158, R326) -/

section CleanEntries

variable {s : State} {t pipe entry i a e : Nat}

theorem State.tget_faults_of_clean {a n w : Nat} (h : s.mem.faultsIn a n = []) (hl : a / 4 * 4 ≤ w)
    (hr : w < a + n) : tget s.mem.faults w = none := by
  cases hw : tget s.mem.faults w with
  | none => rfl
  | some f =>
    have hmem : (w, f) ∈ s.mem.faultsIn a n := List.mem_filter.2 ⟨mem_of_tget hw, by simp [hl, hr]⟩
    exact absurd (h ▸ hmem) List.not_mem_nil

/-- The words that a write covers in part lie in the words that it touches (R326). -/
theorem partWords_within {a n w : Nat} (hw : w ∈ partWords a n) : a / 4 * 4 ≤ w ∧ w < a + n := by
  rw [partWords, List.mem_eraseDups, List.mem_append] at hw
  rcases hw with hw | hw <;> split at hw
  all_goals simp only [List.not_mem_nil, List.mem_singleton] at hw
  all_goals omega

/-- A write to words without a fault changes memory alone. -/
theorem State.poke_clean {a : Nat} {bs : List Byte} (h : s.mem.faultsIn a bs.length = []) :
    s.poke a bs = { s with mem := (s.poke a bs).mem } := by
  have hmerge : ∀ l : List Nat, l ⊆ partWords a bs.length → l.foldl (fun s w => s.mergeRead w) s = s := by
    intro l
    induction l with
    | nil => exact fun _ => rfl
    | cons w l ih =>
      intro hl
      obtain ⟨hlow, hhigh⟩ := partWords_within (hl (.head _))
      have hw : s.mergeRead w = s := by
        rw [State.mergeRead, State.tget_faults_of_clean h hlow hhigh]
      rw [List.foldl_cons, hw, ih fun _ hx => hl (.tail _ hx)]
  unfold State.poke
  dsimp only
  rw [hmerge _ (List.Subset.refl _)]
  rfl

theorem State.ixPut_clean {a : Nat} (h : s.mem.faultsIn a 16 = []) (v : Nat) :
    s.ixPut a v = { s with mem := (s.ixPut a v).mem } :=
  State.poke_clean (by rwa [length_leBytes])

/-- A read of words without a fault changes nothing. -/
theorem State.touch_clean {a n : Nat} (h : s.mem.faultsIn a n = []) (access : Nat) : s.touch a n access = s := by
  rw [State.touch, h]
  rfl

theorem Memory.readable_clean {m : Memory} {a n : Nat} (h : m.faultsIn a n = []) : m.readable a n = true := by
  simp [Memory.readable, h]

@[simp] theorem State.parser_ixPut (a v : Nat) (s : State) : (s.ixPut a v).parser = s.parser :=
  (poke_told a _).parser

@[simp] theorem State.parser_modPipe (p : Nat) (f : Pipeline → Pipeline) (s : State) :
    (s.modPipe p f).parser = s.parser := rfl

@[simp] theorem State.ixAt_recFreed (p i a : Nat) (s : State) : (s.recFreed p i).ixAt a = s.ixAt a := rfl

/-- A learn that ends wakes no frame where none waits. -/
theorem State.wakeLearn_none (hw : ∀ e ∈ s.parser.frames, e.2.stage ≠ .learnWait) (key : FlowKey) :
    s.wakeLearn pipe key = s := by
  have hnone : (s.parser.frames.filter fun e => (s.pipe pipe).waitsOn pipe key e.2) = [] :=
    List.filter_eq_nil_iff.2 fun e he => by simp [Pipeline.waitsOn, hw e he]
  rw [State.wakeLearn, hnone]
  rfl

/-- A learn in flight ends by writing its index entry, valid and not yet hit, which enters the flow cache (R151). -/
theorem State.learnDone_flying {l : Learn} (hl : tget (s.pipe pipe).learning i = some l) : s.learnDone pipe i =
    (s.ixPut l.entry (ixWord (keySig l.key) i (seenAt s.tick) false)).modPipe pipe fun p =>
      { Pipeline.caches l.entry p with learning := tdel p.learning i } := by
  rw [State.learnDone, hl]

/-- Where no frame waits for a learn, its end is all that its completion does. -/
theorem exec_flowLearnComplete_alone {l : Learn} (hm : s.moving = true)
    (hl : tget (s.pipe pipe).learning i = some l) (hw : ∀ e ∈ s.parser.frames, e.2.stage ≠ .learnWait) :
    exec (.flowLearnComplete t pipe i) s = .next ((s.at t).learnDone pipe i) := by
  have hl' : tget ((s.at t).pipe pipe).learning i = some l := hl
  have hparser : ((s.at t).learnDone pipe i).parser = s.parser := by
    rw [State.learnDone_flying hl', State.parser_modPipe, State.parser_ixPut]
    rfl
  rw [exec_flowLearnComplete]
  refine (happen_pos (by simp [hm, hl])).trans ?_
  rw [hl']
  exact congrArg _ (State.wakeLearn_none (hparser ▸ hw) l.key)

/-- The scanner stands at an entry in use of a table that is not locked, in words that can be read (R158): at address
`a`, with the word `e`. -/
structure EntryScanned (pipe entry a e : Nat) (s : State) : Prop where
  place : a = (s.pipe pipe).indexBase + 64 + entry * 16
  word : e = s.ixAt a
  moves : s.moving = true
  table : (s.pipe pipe).tableBase.isSome = true
  unlocked : s.flowLocked pipe = false
  number : entry < (s.pipe pipe).flowRecords * 2
  clean : s.mem.faultsIn a 16 = []
  valid : ixValid e = true
  sound : ixBad e = false

theorem EntryScanned.exec_agingPass (g : EntryScanned pipe entry a e s) (raced : Bool) :
    exec (.flowAgingPass t pipe entry raced) s = .next (
      if raced then (s.at t).count Ctr.ageRaceKept pipe
      else if ixHit e then (s.at t).ixPut a (ixWord (ixSig e) (ixRec e) (ixSeen e) false)
      else if (s.pipe pipe).flowAge ≤ idleOf (seenAt (max s.tick t)) (ixSeen e) (2 ^ 28) then
        ((s.at t).flowDrop pipe a).count Ctr.flowAged pipe
      else s.at t) := by
  have hplace : ((s.at t).pipe pipe).indexBase + 64 + entry * 16 = a := g.place.symm
  have hword : (s.at t).ixAt a = e := g.word.symm
  have hclean : (s.at t).mem.faultsIn a 16 = [] := g.clean
  rw [exec_flowAgingPass]
  refine (happen_pos ?_).trans ?_
  · simp [g.moves, g.table, g.unlocked, g.number]
  · dsimp only
    rw [hplace, State.touch_clean hclean, Memory.readable_clean hclean, hword, g.valid, g.sound]
    rfl

/-- The hit bit of an entry cleared, and nothing else changed (R158). -/
theorem State.ixPut_unhit_leaves {u : State} (h : s.mem.faultsIn a 16 = []) (hwf : s.mem.wf = true)
    (hu : u = s.ixPut a (ixWord (ixSig e) (ixRec e) (ixSeen e) false)) :
    u.ixAt a = ixWord (ixSig e) (ixRec e) (ixSeen e) false ∧ u = { s with mem := u.mem } := by
  subst hu
  exact ⟨State.ixAt_ixPut hwf a (ixWord_lt (ixSig_lt e) (ixRec_lt e) (ixSeen_lt e) false), State.ixPut_clean h _⟩

/-- An index entry deleted with its record changes memory and its pipeline (R158). -/
theorem State.flowDrop_clean (h : s.mem.faultsIn a 16 = []) : s.flowDrop pipe a =
    { s with mem := (s.flowDrop pipe a).mem, cls := (s.flowDrop pipe a).cls } := by
  unfold State.flowDrop
  dsimp only
  rw [State.ixPut_clean h]
  rfl

theorem State.ixValid_flowDrop (h : s.mem.wf = true) (a : Nat) : ixValid ((s.flowDrop pipe a).ixAt a) = false := by
  have hword : (s.flowDrop pipe a).ixAt a = s.ixAt a - s.ixAt a % 2 := by
    rw [State.flowDrop, State.ixAt_recFreed]
    exact State.ixAt_ixPut h a ((Nat.sub_le _ _).trans_lt (State.ixAt_lt a s))
  rw [hword, ixValid, Nat.testBit_zero]
  exact decide_eq_false (by omega)

/-- An entry dropped by the scanner: free, counted, and nothing else changed (R158). -/
theorem State.flowDrop_count_leaves (h : s.mem.faultsIn a 16 = []) (hwf : s.mem.wf = true) {u : State}
    (hu : u = (s.flowDrop pipe a).count Ctr.flowAged pipe) : ixValid (u.ixAt a) = false ∧
      u.counter Ctr.flowAged pipe = min (s.counter Ctr.flowAged pipe + 1) (2 ^ 64 - 1) ∧
      u = { s with mem := u.mem, cls := u.cls, obs := u.obs } := by
  have hvalid := State.ixValid_flowDrop (pipe := pipe) hwf a
  have hdrop := State.flowDrop_clean (pipe := pipe) h
  generalize s.flowDrop pipe a = d at hu hvalid hdrop
  subst hu
  have hcount : (d.count Ctr.flowAged pipe).counter Ctr.flowAged pipe =
    min (d.counter Ctr.flowAged pipe + 1) (2 ^ 64 - 1) := State.counter_countN _ _ _ _
  refine ⟨hvalid, hcount.trans ?_, ?_⟩
  · rw [hdrop]
    rfl
  · rw [hdrop]
    rfl

end CleanEntries

/-! ### Flow commands (R159, R395) -/

section FlowCommands

variable {s : State} {t pipe : Nat} {key k : FlowKey} {h : CmdHdr} {raced : Bool}

/-- A flow command that Isain may serve now: `k` is the key that it looks up. -/
structure FlowAsked (h : CmdHdr) (pipe : Nat) (key k : FlowKey) (s : State) : Prop where
  issuer : h.part = 0
  pipeline : pipe < 2
  free : s.engineBusy (5 + pipe) h = false
  sorted : k = keySorted (s.pipe pipe).flowSym key

/-- What `FLOW_READ` answers by what its lookup finds (R159, R395). -/
def State.flowReadReply (pipe : Nat) (k : FlowKey) (l : FlowHit) (s : State) : Reply :=
  match l with
  | .hit a i => .done .ok (pack [(128, s.ixAt a), (1024, s.recStats pipe i)]) (s.flowTouch pipe k)
  | .miss => .done .eState [] (s.flowTouch pipe k)
  | .fault a => .done .eFault [] ((s.flowTouch pipe k).flowFaulted pipe a)

theorem FlowAsked.exec_flowRead {st : Status} {body : List Nat} {u : State} (g : FlowAsked h pipe key k (s.at t))
    (r : Ready h 0x070B false s)
    (hl : (s.at t).flowReadReply pipe k (s.flowLook pipe k) = .done st body u) :
    exec (.flowRead t h pipe key) s = .next (u.answer h 0x070B st noDetail body) := by
  rw [Machine.exec_flowRead]
  refine isain_done r rfl rfl (isP0_of g.issuer) (Eq.trans ?_ hl)
  rw [← State.flowLook_at (t := t)]
  dsimp only
  rw [← g.sorted, if_neg (Nat.not_le.2 g.pipeline), g.free]
  rfl

/-- What `FLOW_DELETE` answers by what its lookup finds, and whether the entry has changed since (R159, R395). -/
def State.flowDeleteReply (pipe : Nat) (k : FlowKey) (h : CmdHdr) (raced : Bool) (l : FlowHit) (s : State) : Reply :=
  match l with
  | .hit a _ =>
    if raced then .done .eConflict [] (s.flowTouch pipe k)
    else okReply (((s.flowTouch pipe k).flowDrop pipe a).engage (5 + pipe) engineTime h)
  | .miss => .done .eState [] (s.flowTouch pipe k)
  | .fault a => .done .eState [] ((s.flowTouch pipe k).flowFaulted pipe a)

theorem FlowAsked.exec_flowDelete {st : Status} {body : List Nat} {u : State}
    (g : FlowAsked h pipe key k (s.at t)) (r : Ready h 0x070A false s)
    (hl : (s.at t).flowDeleteReply pipe k h raced (s.flowLook pipe k) = .done st body u) :
    exec (.flowDelete t h pipe key raced) s = .next (u.answer h 0x070A st noDetail body) := by
  rw [Machine.exec_flowDelete]
  refine isain_done r rfl rfl (isP0_of g.issuer) (Eq.trans ?_ hl)
  rw [← State.flowLook_at (t := t)]
  dsimp only
  rw [← g.sorted, if_neg (Nat.not_le.2 g.pipeline), g.free]
  rfl

end FlowCommands

/-! ### The lock bit of a flow table (R160) -/

section TableLock

variable {s : State} {t pipe a b : Nat} {f : OuvHdr} {x : Session} {w : Window} {data : List Byte}

/-- The control word of a table holds no index entry. -/
theorem State.entriesHit_ctl (pipe : Nat) (s : State) : s.entriesHit pipe (s.pipe pipe).indexBase 4 = [] := by
  unfold State.entriesHit
  exact List.filterMap_eq_nil_iff.2 fun i _ => if_neg (by omega)

theorem State.finishLearns_none (h : (s.pipe pipe).learning = []) : s.finishLearns pipe = s := by
  rw [State.finishLearns, h]
  rfl

/-- A write that touches no index entry, and for which no learn has to finish, is the write alone. -/
theorem State.windowPoke_plain (hl : ∀ p, s.locks p a data = true → (s.pipe p).learning = [])
    (he : ∀ p, s.entriesHit p a data.length = []) : s.windowPoke a data = s.poke a data := by
  have hfinish : (List.range 2).foldl (fun s p => if s.locks p a data then s.finishLearns p else s) s = s :=
    List.foldl_fixed' (fun p => ite_eq_right_iff.2 fun hlock => State.finishLearns_none (hl p hlock)) _
  have hclear (p : Nat) (u : State) : u.freeCleared p [] = u := by
    unfold State.freeCleared
    split <;> rfl
  unfold State.windowPoke
  dsimp only
  rw [hfinish]
  simp only [he, List.map_nil, ite_self, hclear]
  exact List.foldl_fixed' (fun _ => rfl) _

/-- A zero word sets no lock bit. -/
theorem State.locks_zero (p a : Nat) (s : State) : s.locks p a (leBytes 4 0) = false := by
  have hbit (k : Nat) : (((leBytes 4 0)[k]?).getD 0).getLsbD 0 = false := by
    rw [show leBytes 4 0 = List.replicate 4 0 from rfl, List.getElem?_replicate]
    split <;> rfl
  unfold State.locks
  split
  · dsimp only
    rw [hbit, Bool.and_false]
  · rfl

/-- The control word of a pipeline's table lies in a window that the frame's partition may write (R84, R160). -/
structure CtlOpen (t pipe : Nat) (f : OuvHdr) (x : Session) (w : Window) (s : State) : Prop where
  accepted : Accepted t f 0xB x s
  target : f.target < 16
  window : tget s.ouv.windows (winKey x.part f.target) = some w
  table : ∃ b, (s.pipe pipe).tableBase = some b
  above : w.base ≤ (s.pipe pipe).indexBase
  right : w.rights.testBit 1 = true
  aligned : ((s.pipe pipe).indexBase - w.base) % 4 = 0
  inside : (s.pipe pipe).indexBase + 4 ≤ w.base + w.pages * 4096
  software : inSoftware (s.pipe pipe).indexBase 4 = true
  apart : ∀ p, p ≠ pipe → s.entriesHit p (s.pipe pipe).indexBase 4 = []

theorem CtlOpen.writeCtl (g : CtlOpen t pipe f x w s) (v : Nat)
    (hl : ∀ p, s.locks p (s.pipe pipe).indexBase (leBytes 4 v) = true → (s.pipe p).learning = []) :
    (s.heard t f x).writeCtl f (x.accept f.seq (s.at t).tick) pipe v =
      .done ((s.heard t f x).poke32 (s.pipe pipe).indexBase v) := by
  obtain ⟨b, hb⟩ := g.table
  have hb' : ((s.heard t f x).pipe pipe).tableBase = some b := hb
  have hwin := State.windowOf_heard (t := t) g.target g.window
  have hsum : w.base + ((s.pipe pipe).indexBase - w.base) = (s.pipe pipe).indexBase := by have := g.above; omega
  have hoff : (s.heard t f x).ctlOffset f (x.accept f.seq (s.at t).tick) pipe =
      some ((s.pipe pipe).indexBase - w.base) := by
    rw [State.ctlOffset, hwin, hb']
    exact if_pos g.above
  have hcheck : windowCheck (some w) 1 ((s.pipe pipe).indexBase - w.base) 4 = none :=
    windowCheck_pass g.right ⟨g.aligned, rfl, le_rfl, by decide⟩ (by have := g.inside; omega)
      (hsum.symm ▸ g.software)
  have hentries (p : Nat) : s.entriesHit p (s.pipe pipe).indexBase 4 = [] := by
    by_cases hp : p = pipe
    · rw [hp, State.entriesHit_ctl]
    · exact g.apart p hp
  rw [State.writeCtl, hoff]
  dsimp only
  rw [hwin, hcheck]
  exact congrArg _ (State.windowPoke_plain (s := s.heard t f x) hl (by rw [length_leBytes]; exact hentries))

@[simp] theorem State.cls_emit (ifc len : Nat) (e : Sent) (s : State) : (s.emit ifc len e).cls = s.cls := by
  unfold State.emit
  split
  · rfl
  · split <;> rfl

/-- An acknowledged frame leaves memory and the classifier as its effect left them. -/
theorem State.ackedBy_leaves (f : OuvHdr) (s : State) :
    (s.ackedBy f).mem = s.mem ∧ (s.ackedBy f).cls = s.cls := by
  have hsend (sid : Nat) (s : State) : (s.sendFrame sid 0xF 0 .eNospace []).mem = s.mem ∧
      (s.sendFrame sid 0xF 0 .eNospace []).cls = s.cls := by
    refine ⟨(State.sendFrame_leaves _ _ _ _ _ _).2, ?_⟩
    unfold State.sendFrame
    split
    · rfl
    · exact State.cls_emit _ _ _ _
  have hclose (sid : Nat) (s : State) : (s.closeWorn sid).mem = s.mem ∧ (s.closeWorn sid).cls = s.cls := by
    unfold State.closeWorn
    split
    · split
      · exact hsend sid s
      · exact ⟨rfl, rfl⟩
    · exact ⟨rfl, rfl⟩
  unfold State.ackedBy
  split
  · exact hclose f.sid (s.owe f.sid f.seq)
  · exact hclose f.sid s

/-- The lock bit stands once the control word is 1 (R160). -/
theorem State.flowLocked_poke32 (hwf : s.mem.wf = true) (hb : (s.pipe pipe).tableBase.isSome = true) (f : OuvHdr) :
    ((s.poke32 (s.pipe pipe).indexBase 1).ackedBy f).flowLocked pipe = true := by
  obtain ⟨hmem, hcls⟩ := State.ackedBy_leaves f (s.poke32 (s.pipe pipe).indexBase 1)
  have hpoke : (s.poke32 (s.pipe pipe).indexBase 1).cls = s.cls := (poke_told _ _).cls
  have hbyte : memGet (s.poke32 (s.pipe pipe).indexBase 1).mem.bytes (s.pipe pipe).indexBase = 1 :=
    State.memGet_poke_add hwf (s.pipe pipe).indexBase (leBytes 4 1) (k := 0) (by decide)
  have hpipe : ((s.poke32 (s.pipe pipe).indexBase 1).ackedBy f).pipe pipe = s.pipe pipe := by
    rw [State.pipe, hcls, hpoke, State.pipe]
  rw [State.flowLocked, hpipe, hmem, hbyte, hb]
  rfl

end TableLock

/-! ### Recurrent updates (R263, R265, R267, R268) -/

section RecurrentUpdates

variable {s : State} {t pipe i : Nat} {u : RsUpdate}

/-- What the end of an update leaves before the next is dispatched. -/
def State.rsSettle (pipe i : Nat) (u : RsUpdate) (jobFault : Bool) (s : State) : State :=
  if u.stale then s.count Ctr.rsStale pipe
  else if u.tick + 20000 < s.tick then s.count Ctr.rsSkip pipe
  else if jobFault then s.count Ctr.rsJobFault ((s.logicalIn u.cluster).headD 0)
  else if !s.halfReadable pipe i then (s.touchHalf pipe i).halfFault pipe i
  else (s.touchHalf pipe i).rsWrite pipe i u

theorem exec_rsUpdateDone_flying (hm : s.moving = true) (hu : tget (s.pipe pipe).rsFlight i = some u)
    (jobFault : Bool) : exec (.rsUpdateDone t pipe i jobFault) s =
      .next (((s.at t).rsSettle pipe i u jobFault).rsNext pipe i) := by
  have hu' : tget ((s.at t).pipe pipe).rsFlight i = some u := hu
  rw [exec_rsUpdateDone]
  refine (happen_pos (by simp [hm, hu])).trans ?_
  rw [hu']
  rfl

/-- One whose record has gone writes nothing (R268). -/
theorem State.rsSettle_stale (hs : u.stale = true) (jobFault : Bool) :
    s.rsSettle pipe i u jobFault = s.count Ctr.rsStale pipe := if_pos hs

/-- One in time comes to its job's fault, or to its record's state half. -/
theorem State.rsSettle_inTime (hs : u.stale = false) (ht : s.tick ≤ u.tick + 20000) (jobFault : Bool) :
    s.rsSettle pipe i u jobFault =
      if jobFault then s.count Ctr.rsJobFault ((s.logicalIn u.cluster).headD 0)
      else if !s.halfReadable pipe i then (s.touchHalf pipe i).halfFault pipe i
      else (s.touchHalf pipe i).rsWrite pipe i u := by
  rw [State.rsSettle, hs, if_neg Bool.false_ne_true, if_neg (Nat.not_lt.2 ht)]

theorem exec_rsUpdateTimeout_due (hm : s.moving = true) (hu : tget (s.pipe pipe).rsFlight i = some u)
    (hd : u.tick + 20000 ≤ max s.tick t) :
    exec (.rsUpdateTimeout t pipe i) s = .next (((s.at t).count Ctr.rsSkip pipe).rsNext pipe i) := by
  have hu' : tget ((s.at t).pipe pipe).rsFlight i = some u := hu
  have hd' : u.tick + 20000 ≤ (s.at t).tick := hd
  rw [exec_rsUpdateTimeout]
  refine happen_pos ?_
  simp only [hu', State.moving_at, hm, decide_eq_true hd', Bool.and_self]

/-- With none waiting, no update of the record is in flight any more (R265). -/
theorem State.rsNext_idle (hw : tget (s.pipe pipe).rsWait i = none) :
    tget ((s.rsNext pipe i).pipe pipe).rsFlight i = none := by
  unfold State.rsNext
  dsimp only
  rw [hw]
  dsimp only
  rw [State.pipe_modPipe]
  exact tget_tdel _ _

end RecurrentUpdates

/-! ### Baselines (R270, R271, R395) -/

section Baselines

variable {s : State} {t bl owner : Nat} {x : BaselineSpec} {y : Baseline} {h : CmdHdr}

theorem exec_baselineCreate_pass (r : Ready h 0x0901 false s) (hm : BaselineSpec.missing x = false)
    (hc : ∀ e ∈ s.baselineChecks h.part x (BaselineSpec.over x {}), e.1 = none) (hn : bl < 4096)
    (hf : tget s.models.baselines bl = none) (hroom : s.models.baselines.length < 4096) :
    exec (.baselineCreate t h bl x) s = .next (((s.at t).startBaseline bl h.part (BaselineSpec.over x {})).answer h
      0x0901 .ok noDetail (pack [(12, bl)])) := by
  have hf' : tget (s.at t).models.baselines bl = none := hf
  have hroom' : (s.at t).models.baselines.length < 4096 := hroom
  rw [exec_baselineCreate]
  refine isain_done r rfl rfl rfl (checksAt_pass fun e he => ?_)
  rw [List.cons_append, List.mem_cons, List.mem_append] at he
  rcases he with rfl | he | he
  · rw [hm]
    rfl
  · exact hc e he
  · simp only [hf', decide_eq_false (Nat.not_le.2 hn), decide_eq_false (Nat.not_le.2 hroom'), List.mem_cons,
      List.not_mem_nil, or_false] at he
    rcases he with rfl | rfl | rfl <;> rfl

theorem exec_baselineCreate_missing (r : Ready h 0x0901 false s) (hm : BaselineSpec.missing x = true) :
    exec (.baselineCreate t h bl x) s = .next ((s.at t).answer h 0x0901 .eArg noDetail []) := by
  rw [exec_baselineCreate]
  refine isain_refuse r rfl rfl rfl ?_
  rw [hm]
  rfl

/-- Settings that a creation gives stand, and the others have their defaults (R270). -/
theorem BaselineSpec.over_default (hm : BaselineSpec.missing x = false) :
    some (BaselineSpec.over x {}).source = x.source ∧ some (BaselineSpec.over x {}).index = x.index := by
  obtain ⟨hsource, hindex⟩ := Bool.or_eq_false_iff.1 hm
  obtain ⟨source, hs⟩ := Option.isSome_iff_exists.1 (Option.isNone_eq_false_iff.1 hsource)
  obtain ⟨index, hi⟩ := Option.isSome_iff_exists.1 (Option.isNone_eq_false_iff.1 hindex)
  simp [BaselineSpec.over, hs, hi]

/-- A baseline that there is, and a command of its owner or of partition 0 (R388). -/
structure BaselineRight (h : CmdHdr) (bl : Nat) (s : State) : Prop where
  there : s.hasBaseline bl = true
  holds : h.part = 0 ∨ h.part = s.baselineOwner bl

theorem BaselineRight.owns (g : BaselineRight h bl s) : Machine.owns h (s.baselineOwner bl) = true := by
  simpa [Machine.owns] using g.holds

theorem BaselineRight.exec_change (g : BaselineRight h bl s) (r : Ready h 0x0901 false s)
    (hc : ∀ e ∈ s.baselineChecks h.part x (BaselineSpec.over x (s.baseline bl)), e.1 = none) :
    exec (.baselineChange t h bl x) s = .next (((s.at t).changeBaseline bl (BaselineSpec.over x
      (s.baseline bl))).answer h 0x0901 .ok noDetail (pack [(12, bl)])) := by
  rw [exec_baselineChange]
  exact isain_done r rfl g.there g.owns (checksAt_pass hc)

/-- A baseline and its measures taken away. -/
def State.dropBaseline (bl : Nat) (s : State) : State :=
  { s with models := { s.models with baselines := tdel s.models.baselines bl }, bases := tdel s.bases bl }

theorem BaselineRight.exec_delete (g : BaselineRight h bl s) (r : Ready h 0x0901 false s) :
    exec (.baselineDelete t h bl) s =
      .next (((s.at t).dropBaseline bl).answer h 0x0901 .ok noDetail (pack [(12, bl)])) := by
  rw [exec_baselineDelete]
  exact isain_done r rfl g.there g.owns rfl

theorem State.hasBaseline_dropBaseline (bl : Nat) (s : State) : (s.dropBaseline bl).hasBaseline bl = false := by
  unfold State.hasBaseline
  exact Option.isSome_eq_false_iff.2 (Option.isNone_iff_eq_none.2 (tget_tdel _ _))

theorem BaselineRight.exec_read (g : BaselineRight h bl s) (r : Ready h 0x0902 false s) :
    exec (.baselineRead t h bl) s = .next ((s.at t).answer h 0x0902 .ok noDetail
      (pack [(2, (tgetD s.bases bl {}).state), (32, (tgetD s.bases bl {}).w),
        (32, (tgetD s.bases bl {}).mean.toNat), (32, (tgetD s.bases bl {}).var.toNat),
        (32, (tgetD s.bases bl {}).z.toNat)])) := by
  rw [exec_baselineRead]
  exact isain_done r rfl g.there g.owns rfl

/-- An alarm told changes rings, memory and what is observed (R271). -/
theorem tellBaseline_told (bl owner old : Nat) (b : BaseState) (s : State) :
    ToldOnly s (s.tellBaseline bl owner old b) := by
  unfold State.tellBaseline
  split
  · exact (count_told _ _).trans (event_told _ _ _ _)
  · exact .refl s

/-- A changed baseline keeps its measures and warms again in a window of its own (R271). -/
def BaseState.restarted (tick count : Nat) (b : BaseState) : BaseState :=
  { b with w := 0, state := 0, winStart := tick, countStart := count }

theorem State.changeBaseline_leaves (bl : Nat) (y : Baseline) (s : State) :
    tget (s.changeBaseline bl y).models.baselines bl = some (y, s.baselineOwner bl) ∧
      tget (s.changeBaseline bl y).bases bl =
        some ((tgetD s.bases bl {}).restarted s.tick (s.sourceCount y (s.baselineOwner bl))) := by
  unfold State.changeBaseline
  dsimp only
  rw [(tellBaseline_told _ _ _ _ _).models, (tellBaseline_told _ _ _ _ _).bases]
  exact ⟨tget_tset _ _ _, tget_tset _ _ _⟩

/-- The state in which a window's count has been folded in (R271). -/
def State.foldWindow (bl owner : Nat) (y : Baseline) (s : State) : State :=
  s.updBases fun l => tset l bl ((tgetD s.bases bl {}).fold y
    (s.sourceCount y owner - (tgetD s.bases bl {}).countStart) s.tick (s.sourceCount y owner))

theorem exec_baselineWindowClose_due (hm : s.moving = true) (hy : tget s.models.baselines bl = some (y, owner))
    (hd : (tgetD s.bases bl {}).winStart + y.winNs ≤ max s.tick t) : exec (.baselineWindowClose t bl) s =
      .next (((s.at t).foldWindow bl owner y).tellBaseline bl owner (tgetD s.bases bl {}).state
        (tgetD ((s.at t).foldWindow bl owner y).bases bl {})) := by
  have hy' : tget (s.at t).models.baselines bl = some (y, owner) := hy
  have hd' : (tgetD (s.at t).bases bl {}).winStart + y.winNs ≤ (s.at t).tick := hd
  have hfold : tgetD ((s.at t).foldWindow bl owner y).bases bl {} = _ := tgetD_tset _ _ _ _
  rw [exec_baselineWindowClose]
  refine (happen_pos ?_).trans ?_
  · simp only [hy', State.moving_at, hm, decide_eq_true hd', Bool.and_self]
  · rw [hfold]
    simp only [hy']
    rfl

/-- A baseline leaves its training state after 16 windows (R271). -/
theorem BaseState.fold_training {b : BaseState} {n tick count : Nat} (hw : (b.fold y n tick count).w ≤ 16) :
    (b.fold y n tick count).state = 0 := if_pos hw

end Baselines

/-- Settles O26, part by part: the flow step, learning and aging, the flow commands, the lock bit, recurrent updates,
and the commands and windows of baselines. -/
theorem flowsAndBaselines : Obligations.FlowsAndBaselines := by
  unfold Obligations.FlowsAndBaselines
  refine ⟨fun t id f a s hm hf hs ha => ?flowStep, fun t pipe s hm hwf => ?learnAndAge,
    fun t pipe key h s h0 hp hb => ?commands,
    fun t pipe f x w b s ha ht hw hb habove hr hal hin hsoft hwf hapart => ?lock,
    fun t pipe i u s hm hu => ?updates, fun t bl x y h s => ?baselines, fun t bl owner x s hm hx hd => ?windows⟩
  case flowStep =>
    rw [exec_flowMissComplete_waiting hm hf hs ha]
    refine ⟨fun hl => congrArg _ (State.flowStep_waits (s := s.at t) hl), fun hl => ?_⟩
    have hnone : ¬(s.at t).Learning (portOf f.ifc) f := fun ⟨e, he, hkey⟩ => hl e he hkey
    exact ⟨fun hmiss h1 => congrArg _ (State.flowStep_miss hnone rfl hmiss h1),
      fun e i hhit => congrArg _ (State.flowStep_hit hnone rfl hhit)⟩
  case learnAndAge =>
    refine ⟨fun i l hl hw => ?_, fun entry raced hb hul hn hclean hvalid hsound => ?_⟩
    · rw [exec_flowLearnComplete_alone hm hl hw, State.learnDone_flying (s := s.at t) hl]
      rfl
    · have g : EntryScanned pipe entry _ _ s := ⟨rfl, rfl, hm, hb, hul, hn, hclean, hvalid, hsound⟩
      rw [g.exec_agingPass raced]
      refine ⟨?_, ?_, ?_⟩
      · rintro rfl
        rfl
      · rintro rfl hhit
        rw [hhit]
        exact ⟨_, rfl, State.ixPut_unhit_leaves (s := s.at t) hclean hwf rfl⟩
      · rintro rfl hhit hage
        rw [hhit, if_pos hage]
        exact ⟨_, rfl, State.flowDrop_count_leaves (s := s.at t) hclean hwf rfl⟩
  case commands =>
    have g : FlowAsked h pipe key (keySorted (s.pipe pipe).flowSym key) (s.at t) := ⟨h0, hp, hb, rfl⟩
    refine ⟨fun a i hl => ⟨fun r => g.exec_flowRead r ?_, fun r => ⟨g.exec_flowDelete r ?_, g.exec_flowDelete r ?_⟩⟩,
      fun hl => ⟨fun r => g.exec_flowRead r ?_, fun r raced => g.exec_flowDelete r ?_⟩⟩
    all_goals
      rw [hl]
      rfl
  case lock =>
    have g : CtlOpen t pipe f x w s := ⟨ha, ht, hw, ⟨b, hb⟩, habove, hr, hal, hin, hsoft, hapart⟩
    refine ⟨?_, fun hlearn => ⟨?_, ?_⟩⟩
    · rw [exec_flowTableLockClear]
      refine onFrame_done ha (g.writeCtl 0 fun p hlock => ?_)
      rw [State.locks_zero] at hlock
      cases hlock
    · rw [exec_flowTableLockSet]
      exact onFrame_done ha (g.writeCtl 1 fun p _ => hlearn p)
    · exact State.flowLocked_poke32 (s := s.heard t f x) hwf (Option.isSome_of_eq_some hb) f
  case updates =>
    refine ⟨fun hs => ?_, fun hs ht => ?_, fun hs ht hread => ?_, exec_rsUpdateTimeout_due hm hu, State.rsNext_idle⟩
    · rw [exec_rsUpdateDone_flying hm hu, State.rsSettle_stale hs]
    · rw [exec_rsUpdateDone_flying hm hu, State.rsSettle_inTime hs ht]
      rfl
    · have hread' : (s.at t).halfReadable pipe i = true := hread
      rw [exec_rsUpdateDone_flying hm hu, State.rsSettle_inTime hs ht, hread']
      rfl
  case baselines =>
    refine ⟨?_, exec_baselineCreate_missing, fun hb ho => ?_⟩
    · rintro r hmiss rfl hc hn hf hroom
      obtain ⟨hsource, hindex⟩ := BaselineSpec.over_default hmiss
      exact ⟨exec_baselineCreate_pass r hmiss hc hn hf hroom, hsource, hindex, rfl, rfl, rfl, tget_tset _ _ _⟩
    · have g : BaselineRight h bl s := ⟨hb, ho⟩
      refine ⟨?_, fun r => ⟨_, g.exec_delete r, State.hasBaseline_dropBaseline bl _,
        fun k hk => tget_tdel_ne _ hk, rfl⟩, g.exec_read⟩
      rintro r rfl hc
      exact ⟨g.exec_change r hc, State.changeBaseline_leaves bl _ (s.at t)⟩
  case windows =>
    have htold := tellBaseline_told bl owner (tgetD s.bases bl {}).state
      (tgetD ((s.at t).foldWindow bl owner x).bases bl {}) ((s.at t).foldWindow bl owner x)
    have hfold : tgetD ((s.at t).foldWindow bl owner x).bases bl {} = (tgetD s.bases bl {}).fold x
        (s.sourceCount x owner - (tgetD s.bases bl {}).countStart) (max s.tick t) (s.sourceCount x owner) :=
      tgetD_tset _ _ _ _
    refine ⟨_, exec_baselineWindowClose_due hm hx hd, ?_⟩
    rw [htold.bases]
    refine ⟨hfold, by rw [hfold]; rfl, ?_, fun hno => ?_, fun hyes => ⟨_, rfl, if_pos hyes⟩⟩
    · rw [hfold]
      exact BaseState.fold_training
    · rw [State.tellBaseline, hno]
      exact ⟨rfl, rfl⟩

end Sys2Proof.Machine

namespace Sys2Proof.Machine

/-! ### The frame that an interface sends next (R176) -/

section TransmitOrder

variable {s : State} {t ifc q id tick : Nat} {f : Frame} {x : Queue}

/-- A shaper holds frames back exactly where it has a rate and its tokens are below zero (R176). -/
theorem Queue.mayShape_iff : x.mayShape tick = true ↔ (x.shapeRate ≠ 0 → 0 ≤ (x.shaped tick).tokens) := by
  rw [Queue.mayShape, Bool.or_eq_true, beq_iff_eq, decide_eq_true_iff, or_iff_not_imp_left]

/-- The four conditions of R176: a frame at the head, no pause, tokens of zero or more, and a gate that stays open
until the frame's end. -/
theorem State.eligible_iff :
    s.eligible ifc q = true ↔ ∃ id f, s.headOf ifc q = some (id, f) ∧ s.paused ifc q = false ∧
      (s.queue ifc q).mayShape s.tick = true ∧
      ∀ left, s.gateLeft ifc q = some left → s.endsBefore ifc f.len left = true := by
  unfold State.eligible
  cases hhead : s.headOf ifc q with
  | none => simp
  | some e =>
    obtain ⟨id, f⟩ := e
    cases hgate : s.gateLeft ifc q <;> simp [and_assoc]

theorem State.not_eligible_of_empty (h : s.headOf ifc q = none) : s.eligible ifc q = false := by
  refine Bool.eq_false_iff.2 fun he => ?_
  obtain ⟨id, f, hhead, -⟩ := State.eligible_iff.1 he
  exact Option.some_ne_none _ (hhead.symm.trans h)

theorem State.not_eligible_of_paused (h : s.paused ifc q = true) : s.eligible ifc q = false := by
  refine Bool.eq_false_iff.2 fun he => ?_
  obtain ⟨id, f, -, hpause, -⟩ := State.eligible_iff.1 he
  exact Bool.false_ne_true (hpause.symm.trans h)

theorem State.not_eligible_of_short (hr : (s.queue ifc q).shapeRate ≠ 0)
    (ht : ((s.queue ifc q).shaped s.tick).tokens < 0) : s.eligible ifc q = false := by
  refine Bool.eq_false_iff.2 fun he => ?_
  obtain ⟨id, f, -, -, hshape, -⟩ := State.eligible_iff.1 he
  exact absurd (Queue.mayShape_iff.1 hshape hr) (Int.not_le.2 ht)

/-- The search of the `n` highest of the eight queues, from queue 7 down, finds the highest that `p` holds of. -/
theorem find_highestQueue {p : Nat → Bool} {n : Nat} (hq : q < 8) (hn : 8 ≤ q + n) (hp : p q = true)
    (hmax : ∀ r, q < r → r < 8 → p r = false) : ((List.range (min 8 n)).map (7 - ·)).find? p = some q := by
  have hfirst : (List.range (min 8 n)).find? (p ∘ (7 - ·)) = some (7 - q) := by
    refine List.find?_range_eq_some.2 ⟨?_, List.mem_range.2 (by omega), fun j hj => ?_⟩
    · rw [Function.comp_apply, Nat.sub_sub_self (by omega), hp]
    · rw [Function.comp_apply, hmax (7 - j) (by omega) (by omega)]
      rfl
  rw [List.find?_map, hfirst, Option.map_some, Nat.sub_sub_self (by omega)]

/-- The highest eligible strict queue sends, and no deficit moves. -/
theorem State.pickData_strict (hq : q < 8) (hn : 8 ≤ q + tgetD s.eg.strictCount ifc 2)
    (he : s.eligible ifc q = true) (hmax : ∀ r, q < r → r < 8 → s.eligible ifc r = false) :
    s.pickData ifc = (some q, s) := by
  unfold State.pickData
  dsimp only
  rw [find_highestQueue hq hn he hmax]

/-- Where no data queue is eligible none sends, and no deficit moves. -/
theorem State.pickData_none (h : ∀ q, q < 8 → s.eligible ifc q = false) : s.pickData ifc = (none, s) := by
  have hstrict (n : Nat) : ((List.range n).map (7 - ·)).find? (fun q => s.eligible ifc q) = none := by
    refine List.find?_eq_none.2 fun q hq => ?_
    obtain ⟨k, -, rfl⟩ := List.mem_map.1 hq
    exact Bool.eq_false_iff.1 (h (7 - k) (by omega))
  have hweighted (n : Nat) : (weighted n).any (fun q => s.eligible ifc q) = false := by
    refine List.any_eq_false.2 fun q hq => Bool.eq_false_iff.1 (h q ?_)
    have hlt : q < 8 - n := List.mem_range.1 hq
    omega
  unfold State.pickData
  dsimp only
  rw [hstrict, hweighted]
  rfl

/-- Without a running list every frame fits its gate, and none is dropped for its length (R178). -/
theorem State.trimGate_ungated {fuel : Nat} (hg : (s.gates ifc).running = none) : s.trimGate ifc q fuel = s := by
  cases fuel with
  | zero => rfl
  | succ n =>
    rw [State.trimGate, hg]
    split
    next h => cases h
    next => rfl

/-- What an interface does at a transmit opportunity once the heads that fit no gate are dropped (R176). -/
def State.sendNext (ifc : Nat) (s : State) : State :=
  if !(s.queue ifc 9).mayShape s.tick then s
  else if !(s.queue ifc 8).ctl.isEmpty && (s.queue ifc 8).mayShape s.tick then s.sendCtl ifc
  else
    let p := s.pickData ifc
    match p.1 with
    | none => p.2
    | some q => match p.2.headOf ifc q with
      | some (id, f) => p.2.sendData ifc q id f
      | none => p.2

/-- A transmit opportunity of an interface without a running gate list. -/
theorem exec_transmitSelect_ungated (hm : s.moving = true) (hl : (s.ifc ifc).link = true) (hi : ifc < 4)
    (hg : (s.gates ifc).running = none) :
    exec (.transmitSelect t ifc) s = .next ((s.at t).sendNext ifc) := by
  have htrim : (List.range 8).foldl (fun s q => s.trimGate ifc q (s.queue ifc q).frames.length) (s.at t) = s.at t :=
    List.foldl_fixed' (fun _ => State.trimGate_ungated (s := s.at t) hg) _
  rw [exec_transmitSelect]
  refine (happen_pos ?_).trans ?_
  · simp only [State.moving_at, State.ifc_at, hm, hl, hi, decide_true, Bool.and_self]
  · rw [htrim]
    rfl

theorem State.sendNext_short (h : (s.queue ifc 9).mayShape s.tick = false) : s.sendNext ifc = s := by
  rw [State.sendNext, h]
  rfl

theorem State.sendNext_ctl (h9 : (s.queue ifc 9).mayShape s.tick = true) (hc : (s.queue ifc 8).ctl ≠ [])
    (h8 : (s.queue ifc 8).mayShape s.tick = true) : s.sendNext ifc = s.sendCtl ifc := by
  rw [State.sendNext, h9, h8, List.isEmpty_eq_false_iff.2 hc]
  rfl

theorem State.sendNext_data (h9 : (s.queue ifc 9).mayShape s.tick = true) (hc : (s.queue ifc 8).ctl = [])
    (hp : s.pickData ifc = (some q, s)) (hh : s.headOf ifc q = some (id, f)) :
    s.sendNext ifc = s.sendData ifc q id f := by
  simp only [State.sendNext, h9, hc, hp, hh]
  rfl

theorem State.sendNext_none (h9 : (s.queue ifc 9).mayShape s.tick = true) (hc : (s.queue ifc 8).ctl = [])
    (hp : s.pickData ifc = (none, s)) : s.sendNext ifc = s := by
  simp only [State.sendNext, h9, hc, hp]
  rfl

end TransmitOrder

/-- Settles O34: the sources of `State.sendNext` in their order, and the conditions of `State.eligible_iff`. -/
theorem transmitOrder : Obligations.TransmitOrder := by
  unfold Obligations.TransmitOrder
  intro t ifc s hm hl hi hg
  rw [exec_transmitSelect_ungated hm hl hi hg]
  refine ⟨fun h9 => ?_, fun h9 => ⟨fun hc h8 => ?_, fun hc => ⟨fun q id f hq hn he hmax hh => ?_, fun hno => ?_⟩⟩,
    fun q => ⟨State.not_eligible_of_empty, State.not_eligible_of_paused, State.not_eligible_of_short⟩⟩
  · rw [State.sendNext_short h9]
  · rw [State.sendNext_ctl h9 hc h8]
  · rw [State.sendNext_data h9 hc (State.pickData_strict hq hn he hmax) hh]
  · rw [State.sendNext_none h9 hc (State.pickData_none hno)]

/-! ### The start of a gate list (R179) -/

section GateStart

variable {base cycle wall n : Nat}

theorem gateStart_snd : (gateStart base cycle wall).2 = base + (gateStart base cycle wall).1 * cycle := by
  unfold gateStart
  split
  · rw [Nat.zero_mul, Nat.add_zero]
  · rfl

/-- The cycles counted are the least number that reaches 10 µs past the wall time: a quotient rounded up. -/
theorem gateStart_fst_le_iff (hc : 0 < cycle) :
    (gateStart base cycle wall).1 ≤ n ↔ wall + 10000 ≤ base + n * cycle := by
  unfold gateStart
  split
  · omega
  · have hceil : (wall + 10000 - base + cycle - 1) / cycle ≤ n ↔ wall + 10000 - base ≤ cycle * n := by
      rw [← Nat.ceilDiv_eq_add_pred_div, ceilDiv_le_iff_le_mul hc]
    rw [Nat.mul_comm] at hceil
    refine hceil.trans ?_
    omega

end GateStart

/-- Settles O35: `gateStart_fst_le_iff` at N itself and at each smaller number. -/
theorem gateListStartsLeast : Obligations.GateListStartsLeast := by
  unfold Obligations.GateListStartsLeast
  exact fun base cycle wall hc => ⟨gateStart_snd, (gateStart_fst_le_iff hc).1 le_rfl,
    fun n hn => Nat.not_le.1 fun h => Nat.not_le.2 hn ((gateStart_fst_le_iff hc).2 h)⟩

end Sys2Proof.Machine

namespace Sys2Proof.Machine

/-! ### Cores and their contexts after one has changed (R181) -/

section CoreContexts

variable {s : State} {p p' k k' c c' : Nat}

theorem State.core_modCore_ne (f : Core → Core) (h : p' ≠ p) : (s.modCore p f).core p' = s.core p' :=
  tgetD_tup_ne s.comp.cores {} f h

theorem State.cluster_modCluster_ne (f : Cluster → Cluster) (h : c' ≠ c) :
    (s.modCluster c f).cluster c' = s.cluster c' := tgetD_tup_ne s.comp.clusters {} f h

@[simp] theorem State.ctx_modCtx (f : Ctx → Ctx) : (s.modCtx p k f).ctx p k = (s.ctx p k).map f := by
  rw [State.ctx, State.modCtx, State.core_modCore, tget_tmod]
  rfl

/-- Another context stays as it was, on the same core or another. -/
theorem State.ctx_modCtx_ne (f : Ctx → Ctx) (h : (p', k') ≠ (p, k)) : (s.modCtx p k f).ctx p' k' = s.ctx p' k' := by
  rw [State.ctx, State.modCtx]
  by_cases hp : p' = p
  · subst hp
    have hk : k' ≠ k := fun hk => h (by rw [hk])
    rw [State.core_modCore, tget_tmod_ne _ _ hk]
    rfl
  · rw [State.core_modCore_ne _ hp]
    rfl

@[simp] theorem State.ctxReady_at (t p k : Nat) (s : State) : (s.at t).ctxReady p k = s.ctxReady p k := rfl

end CoreContexts

/-! ### Integers in words (R186) -/

section IntegerLanes

variable {n : Nat} {i : Int}

theorem natCast_low (n : Nat) (i : Int) : (low n i : Int) = i % 2 ^ n :=
  Int.toNat_of_nonneg (Int.emod_nonneg i (by positivity))

theorem low_lt (n : Nat) (i : Int) : low n i < 2 ^ n := by
  zify
  rw [natCast_low]
  exact Int.emod_lt_of_pos i (by positivity)

/-- Two's complement is the residue nearest 0. -/
theorem asInt_eq_bmod (hn : 0 < n) (v : Nat) : asInt n v = Int.bmod v (2 ^ n) := by
  have hpow := Nat.two_pow_pred_add_two_pow_pred hn
  have hhalf : ((2 ^ n : Nat) + 1 : Int) / 2 = (2 ^ (n - 1) : Nat) := by omega
  rw [Int.bmod, hhalf, ← Int.natCast_mod, asInt]
  split_ifs <;> push_cast <;> omega

/-- An integer in the format's range is what its own low bits stand for. -/
theorem asInt_low (hn : 0 < n) (hlo : -2 ^ (n - 1) ≤ i) (hhi : i < 2 ^ (n - 1)) : asInt n (low n i) = i := by
  have hpow : (2 : Int) ^ (n - 1) + 2 ^ (n - 1) = 2 ^ n := mod_cast Nat.two_pow_pred_add_two_pow_pred hn
  have hmod : i % (2 : Int) ^ n = i % (2 ^ n : Nat) := by push_cast; rfl
  rw [asInt_eq_bmod hn, natCast_low, hmod, Int.emod_bmod]
  refine Int.bmod_eq_of_le ?_ ?_ <;> push_cast <;> omega

theorem low_asInt (hn : 0 < n) (v : Nat) : low n (asInt n v) = v % 2 ^ n := by
  have hmod : ∀ j : Int, j % (2 : Int) ^ n = j % (2 ^ n : Nat) := fun j => by push_cast; rfl
  zify
  rw [natCast_low, asInt_eq_bmod hn, hmod, Int.bmod_emod, hmod]

/-- The sum of what two words stand for has the low bits of the words' own sum. -/
theorem low_asInt_add (hn : 0 < n) (v w : Nat) : low n (asInt n v + asInt n w) = (v + w) % 2 ^ n := by
  have hv := low_asInt hn v
  have hw := low_asInt hn w
  zify at hv hw ⊢
  rw [natCast_low] at hv hw ⊢
  rw [Int.add_emod, hv, hw, ← Int.add_emod]

theorem toNat_laneOf (hn : n ≤ 32) (i : Int) : (laneOf n i).toNat = low n i := by
  rw [laneOf, BitVec.toNat_ofNat, Nat.mod_eq_of_lt ((low_lt n i).trans_le (Nat.pow_le_pow_right (by decide) hn))]

theorem fitInt_sat (n : Nat) (i : Int) : (fitInt n true i).1 = max (-2 ^ (n - 1)) (min (2 ^ (n - 1) - 1) i) := by
  have hpos : (0 : Int) < 2 ^ (n - 1) := by positivity
  unfold fitInt
  dsimp only
  rw [if_pos rfl]
  split
  · dsimp only
    omega
  · split <;> dsimp only <;> omega

theorem fitInt_wrap (n : Nat) (i : Int) : (fitInt n false i).1 = asInt n (low n i) := rfl

theorem asInt_laneOf_sat (hn : 0 < n) (h32 : n ≤ 32) (i : Int) :
    asInt n (laneOf n (fitInt n true i).1).toNat = max (-2 ^ (n - 1)) (min (2 ^ (n - 1) - 1) i) := by
  have hpos : (0 : Int) < 2 ^ (n - 1) := by positivity
  rw [toNat_laneOf h32, fitInt_sat, asInt_low hn] <;> omega

/-- A saturating sum or difference is the exact one, held to the format's range (R186). -/
theorem asInt_intLane_sat {x y r : W32} (hn : 0 < n) (h32 : n ≤ 32) :
    (intLane n .add true x y = some r →
      asInt n r.toNat = max (-2 ^ (n - 1)) (min (2 ^ (n - 1) - 1) (asInt n x.toNat + asInt n y.toNat))) ∧
    (intLane n .sub true x y = some r →
      asInt n r.toNat = max (-2 ^ (n - 1)) (min (2 ^ (n - 1) - 1) (asInt n x.toNat - asInt n y.toNat))) := by
  refine ⟨fun hr => ?_, fun hr => ?_⟩ <;> cases hr
  · exact asInt_laneOf_sat hn h32 _
  · exact asInt_laneOf_sat hn h32 _

/-- A wrapping sum is the words' own sum, modulo the format (R186). -/
theorem toNat_intLane_add_wrap {x y r : W32} (hn : 0 < n) (h32 : n ≤ 32) (hr : intLane n .add false x y = some r) :
    r.toNat = (x.toNat + y.toNat) % 2 ^ n := by
  cases hr
  rw [fitInt_wrap, toNat_laneOf h32, low_asInt hn, Nat.mod_eq_of_lt (low_lt n _), low_asInt_add hn]

end IntegerLanes

/-! ### Vector instructions (R186, R187) -/

/-- A vector instruction that its unit has changes its context, lane by lane. -/
theorem exec_vectorInstruction_ready {t core ctx dst : Nat} {fmt : VFmt} {op : VOp} {sat : Bool} {a b c : List W32}
    {s : State} (hm : s.moving = true) (hr : s.ctxReady core ctx = true)
    (hv : (vLane fmt op sat 0 0 0).isSome = true) :
    exec (.vectorInstruction t core ctx fmt op sat dst a b c) s =
      .next ((s.at t).modCtx core ctx (Ctx.vector dst (vRun fmt op sat a b c))) := by
  rw [exec_vectorInstruction]
  exact happen_pos (by rw [State.moving_at, State.ctxReady_at, hm, hr, hv]; rfl)

/-- Settles O42: by `Ctx.vector` on the one context, and by what an integer lane's word stands for. -/
theorem vectorUnit : Obligations.VectorUnit := by
  unfold Obligations.VectorUnit
  intro t core ctx dst fmt op sat a b c s
  refine ⟨fun x hm hx hr hv => ⟨_, exec_vectorInstruction_ready hm hr hv, ?_, fun p k hne => ?_, rfl⟩,
    fun n x y r hn => ?_⟩
  · rw [State.ctx_modCtx, State.ctx_at, hx]
    rfl
  · rw [State.ctx_modCtx_ne _ hne, State.ctx_at]
  · have hn0 : 0 < n := by omega
    have h32 : n ≤ 32 := by omega
    obtain ⟨hadd, hsub⟩ := asInt_intLane_sat (x := x) (y := y) (r := r) hn0 h32
    exact ⟨hadd, hsub, toNat_intLane_add_wrap hn0 h32⟩

end Sys2Proof.Machine

namespace Sys2Proof.Machine

/-! ### A cluster reset while launches wait (R195, R204, R242, R269) -/

section ResetWithWaiting

/-- A model whose 64 features come from one session encoder, placed on clusters 1 and 2. -/
def encoderModel : Model :=
  { handle := 1, packet := false, cAddr := 0, cLen := 0
    params := { defaultBudget := 0, maxBudget := 0, nItemsMax := 1 }
    inputs := [{ kind := 7, featBase := 0, count := 64, perItem := false, argA := 0, argB := 0, argC := 0 }]
    bands := [], nodes := [], trees := [], stages := [], leaves := [], bits := [], nPclust := 2
    places := [], kernelAddrs := [], argBase := 0, steps := []
    cells := [{ kind := 0, nIn := 1, use := 1, inputs := [], weights := [], bias := [] }]
    bindings := [{ clusters := [1, 2], cores := [] }] }

/-- A running request of partition 3 with that model, whose encoder has not ended. -/
def encoderSlot : Slot :=
  { state := .running, part := 3, token := 1, model := 1, epoch := 1, binding := [1, 2], encoders := [0]
    items := [{ pending := List.range 64 }] }

/-- The launch of its encoder. -/
def encoderLaunch : Launch :=
  { desc := { slotDesc 0 0 with kernel := encoderBase }, part := 3, token := 1, asker := none }

/-- A walk of the request that waits for feature 0. -/
def parkedWalk : Walk := { slot := 0, slotGen := 0, item := 0, tree := 0, node := 0, parked := some 0 }

/-- The encoder's launch waits on core 16 of cluster 1, and the walk on core 32 of cluster 2. -/
def encoderWaits : State :=
  { State.reset with
    rings := { slots := [(0, encoderSlot)] }
    models := { domains := [(3, { models := [encoderModel] })] }
    comp := {
      map := [(0, { state := 1, phys := 16, home := 16 }), (1, { state := 1, phys := 32, home := 32 })]
      clusters := [(1, { owner := 3 }), (2, { owner := 3 })]
      cores := [(16, { waiting := [encoderLaunch] }), (32, { walks := [(0, parkedWalk)] })] } }

theorem coresIn_encoderWaits : encoderWaits.coresIn 1 = [16] := by decide

/-- The reset ends the launch; with its encoder the features are missing, so that the walk goes on (R242, R269). -/
theorem walks_zeroCluster_encoderWaits :
    ((encoderWaits.zeroCluster 1).core 32).walks = [(0, { parkedWalk with parked := none })] := by decide +kernel

end ResetWithWaiting

/-- Refutes O53: a launch that still waits on a core of the cluster ends with the reset, and what it stands for ends
with it. In `encoderWaits` it is a request's encoder: its features are missing then, and the request's walk on core 32,
of a cluster that is not reset, waits no more. -/
theorem not_clusterZeroed : ¬ Obligations.ClusterZeroed := by
  unfold Obligations.ClusterZeroed
  intro hall
  obtain ⟨-, -, -, -, -, hothers, -⟩ := hall 1 encoderWaits
  have hsame : (encoderWaits.zeroCluster 1).core 32 = encoderWaits.core 32 :=
    hothers 32 (by rw [coresIn_encoderWaits]; decide)
  have hwalks := walks_zeroCluster_encoderWaits
  rw [hsame] at hwalks
  exact absurd hwalks (by decide)

end Sys2Proof.Machine

namespace Sys2Proof.Machine

/-! ### Kernel commands (R197 to R199, R388, R396, R432) -/

section KernelCommands

variable {s : State} {t handle addr len : Nat} {h : CmdHdr} {d : LaunchDesc}

/-- What a `KERNEL_LOAD` may name: an image of a size it may have, in software memory that its partition may read. -/
structure ImageGood (h : CmdHdr) (addr len : Nat) (s : State) : Prop where
  ready : Ready h 0x0B06 false s
  size : len ≤ 65536
  space : inSoftware addr len = true
  right : (s.part h.part).covers 1 addr len = true

/-- An image under a handle not in use is kept (R197). -/
theorem ImageGood.exec_free (g : ImageGood h addr len s) (hf : aget s.comp.kernels (h.part, handle) = none) :
    exec (.kernelLoad t h handle addr len) s = .next (((s.at t).updComp fun c => { c with
      kernels := aset c.kernels (h.part, handle) { part := h.part, addr := addr, len := len } }).answer h 0x0B06 .ok
        noDetail []) := by
  rw [exec_kernelLoad]
  refine isain_done g.ready rfl rfl rfl (checks_pass ?_)
  simp [hf, g.right, g.space, decide_eq_false (Nat.not_lt.2 g.size : ¬ maxImage < len)]

/-- A handle in use is refused. -/
theorem exec_kernelLoad_used (r : Ready h 0x0B06 false s)
    (hu : (aget s.comp.kernels (h.part, handle)).isSome = true) :
    exec (.kernelLoad t h handle addr len) s = .next ((s.at t).answer h 0x0B06 .eConflict noDetail []) := by
  have hused : (aget (s.at t).comp.kernels (h.part, handle)).isSome = true := hu
  rw [exec_kernelLoad]
  refine isain_refuse r rfl rfl rfl ?_
  rw [hused]
  rfl

/-- A kernel that no launch runs is forgotten (R396). -/
theorem exec_kernelUnload_idle (r : Ready h 0x0B07 false s)
    (hk : (aget s.comp.kernels (h.part, handle)).isSome = true) (hr : s.kernelRuns h.part handle = false) :
    exec (.kernelUnload t h handle) s = .next (((s.at t).updComp fun c => { c with
      kernels := adel c.kernels (h.part, handle) }).answer h 0x0B07 .ok noDetail []) := by
  rw [exec_kernelUnload]
  refine isain_done r rfl hk rfl ?_
  rw [State.kernelRuns_at, hr]
  rfl

/-- A kernel that a launch runs is kept (R396). -/
theorem exec_kernelUnload_runs (r : Ready h 0x0B07 false s)
    (hk : (aget s.comp.kernels (h.part, handle)).isSome = true) (hr : s.kernelRuns h.part handle = true) :
    exec (.kernelUnload t h handle) s = .next ((s.at t).answer h 0x0B07 .eState noDetail []) := by
  rw [exec_kernelUnload]
  refine isain_refuse r rfl hk rfl ?_
  rw [State.kernelRuns_at, hr]
  rfl

/-! #### Launches -/

theorem mem_launchCores {l : Nat} : l ∈ launchCores d ↔ d.firstCore ≤ l ∧ l < d.firstCore + d.nCores := by
  simp only [launchCores, List.mem_map, List.mem_range]
  constructor
  · rintro ⟨i, hi, rfl⟩
    omega
  · exact fun hl => ⟨l - d.firstCore, by omega, by omega⟩

/-- A launch whose cores are logical numbers is foreign where one of them has another owner (R388). -/
theorem State.launchForeign_iff (hend : d.firstCore + d.nCores ≤ s.logicalEnd) :
    s.launchForeign h d = true ↔ ∃ l ∈ launchCores d, s.logicalOwner l ≠ h.part := by
  simp only [State.launchForeign, List.any_eq_true, Bool.and_eq_true, decide_eq_true_eq, bne_iff_ne]
  refine exists_congr fun l => and_congr_right fun hl => and_iff_right ?_
  exact (mem_launchCores.1 hl).2.trans_le hend

/-- The first check that a launch of a lost core fails: its cores are logical numbers, but one is not served (R199). -/
theorem State.launchChecks_lost (hn : d.nCores ≠ 0) (hend : d.firstCore + d.nCores ≤ s.logicalEnd)
    (hl : ∃ l ∈ launchCores d, s.physOf l = none) :
    ∃ rest, s.launchChecks h d = (false, .eRange) :: (true, .eState) :: rest := by
  have hrange : (d.nCores == 0 || decide (s.logicalEnd < d.firstCore + d.nCores)) = false := by simp [hn, hend]
  have hlost : (launchCores d).any (fun l => (s.physOf l).isNone) = true := by simpa using hl
  exact ⟨_, by rw [State.launchChecks, hrange, hlost]⟩

/-- A launch that is ready, of a kernel that stands under its number, on logical numbers. -/
structure LaunchNamed (h : CmdHdr) (d : LaunchDesc) (s : State) : Prop where
  ready : Ready h 0x0B08 false s
  reserved : d.resvBad = false
  kernel : (aget s.comp.kernels (h.part, d.kernel)).isSome = true
  cores : d.firstCore + d.nCores ≤ s.logicalEnd

theorem LaunchNamed.form (g : LaunchNamed h d s) : (if d.resvBad then some noDetail else none) = none := by
  rw [g.reserved]
  rfl

theorem LaunchNamed.own (g : LaunchNamed h d s) (ho : ∀ l ∈ launchCores d, s.logicalOwner l = h.part) :
    s.launchForeign h d = false := by
  rw [Bool.eq_false_iff, Ne, State.launchForeign_iff g.cores]
  rintro ⟨l, hl, hne⟩
  exact hne (ho l hl)

/-- A launch on a core of another owner is refused (R388). -/
theorem LaunchNamed.exec_foreign (g : LaunchNamed h d s) (hf : ∃ l ∈ launchCores d, s.logicalOwner l ≠ h.part) :
    exec (.kernelLaunch t h d) s = .next ((s.at t).answer h 0x0B08 .ePriv noDetail []) := by
  have hright : (!(s.at t).launchForeign h d) = false := by
    rw [show (s.at t).launchForeign h d = true from (State.launchForeign_iff g.cores).2 hf]
    rfl
  rw [exec_kernelLaunch]
  exact isain_noRight g.ready g.form g.kernel hright

/-- A launch on a lost core is refused (R199). -/
theorem LaunchNamed.exec_lost (g : LaunchNamed h d s) (ho : ∀ l ∈ launchCores d, s.logicalOwner l = h.part)
    (hn : 1 ≤ d.nCores) (hl : ∃ l ∈ launchCores d, s.physOf l = none) :
    exec (.kernelLaunch t h d) s = .next ((s.at t).answer h 0x0B08 .eState noDetail []) := by
  have hright : (!(s.at t).launchForeign h d) = true := by
    rw [show (s.at t).launchForeign h d = false from g.own ho]
    rfl
  obtain ⟨rest, hchecks⟩ := State.launchChecks_lost (s := s.at t) (h := h) (Nat.one_le_iff_ne_zero.1 hn) g.cores hl
  rw [exec_kernelLaunch]
  refine isain_refuse g.ready g.form g.kernel hright ?_
  rw [hchecks]
  rfl

/-- A launch that R199 allows: its cores are the partition's own, serve and stay, its arguments are whole words that
the partition may read, and it names no slot. -/
structure LaunchGood (h : CmdHdr) (d : LaunchDesc) (s : State) : Prop extends LaunchNamed h d s where
  own : ∀ l ∈ launchCores d, s.logicalOwner l = h.part ∧ (s.physOf l).isSome = true ∧ s.logicalLeaves l = false
  counted : 1 ≤ d.nCores
  space : inDevice d.argAddr d.argLen = true
  right : (s.part h.part).covers 1 d.argAddr d.argLen = true
  plain : d.slotV = false
  size : d.argLen ≤ 4096
  words : d.argLen % 4 = 0
  accepting : s.closed = false

theorem LaunchGood.checks_pass (g : LaunchGood h d s) : ∀ e ∈ s.launchChecks h d, e.1 = false := by
  have hserved : (launchCores d).any (fun l => (s.physOf l).isNone) = false := by
    simpa [Option.isSome_iff_ne_none] using fun l hl => (g.own l hl).2.1
  have hstays : (launchCores d).any (fun l => s.logicalLeaves l) = false := by
    simpa using fun l hl => (g.own l hl).2.2
  simp [State.launchChecks, hserved, hstays, Nat.one_le_iff_ne_zero.1 g.counted, g.cores, g.space, g.right, g.plain,
    g.size, g.words, g.accepting]

theorem LaunchGood.right_held (g : LaunchGood h d s) : (!(s.at t).launchForeign h d) = true := by
  rw [show (s.at t).launchForeign h d = false from g.toLaunchNamed.own fun l hl => (g.own l hl).1]
  rfl

/-- It waits on each of its cores (R199). -/
theorem LaunchGood.exec_placed (g : LaunchGood h d s) (hh : s.launchHeld d = false) :
    exec (.kernelLaunch t h d) s = .next ((s.at t).placeLaunch h d) := by
  rw [exec_kernelLaunch]
  refine isain_wait g.ready g.form g.kernel g.right_held ((Machine.checks_pass g.checks_pass).trans ?_)
  exact congrArg Reply.wait (if_neg (Bool.eq_false_iff.1 hh))

/-- One that names a core being retired is held (R432). -/
theorem LaunchGood.exec_held (g : LaunchGood h d s) (hh : s.launchHeld d = true) :
    exec (.kernelLaunch t h d) s = .next ((s.at t).updComp fun c => { c with held := c.held ++ [(h, d)] }) := by
  rw [exec_kernelLaunch]
  refine isain_wait g.ready g.form g.kernel g.right_held ((Machine.checks_pass g.checks_pass).trans ?_)
  exact congrArg Reply.wait (if_pos hh)

/-- A held launch of a core that was lost is refused once none of its cores is being retired (R15, R432). -/
theorem State.tryHeld_lost (hh : s.launchHeld d = false)
    (hk : (aget s.comp.kernels (h.part, d.kernel)).isSome = true) (hf : s.launchForeign h d = false)
    (hn : d.nCores ≠ 0) (hend : d.firstCore + d.nCores ≤ s.logicalEnd)
    (hl : ∃ l ∈ launchCores d, s.physOf l = none) : s.tryHeld (h, d) = s.refuseHeld (h, d) .eState := by
  obtain ⟨rest, hchecks⟩ := State.launchChecks_lost (h := h) hn hend hl
  unfold State.tryHeld
  rw [hh, Option.isNone_eq_false_iff.2 hk, hf, hchecks]
  rfl

end KernelCommands
end Sys2Proof.Machine

namespace Sys2Proof.Machine

/-! ### Kernels on their cores (R182, R184, R198, R200, R204, R331, R426, R468) -/

section KernelRuns

variable {s : State} {t core ctx : Nat}

section Starts

variable {l : Launch} {rest : List Launch}

/-- The first of the launches that wait on a core which is not being retired. -/
structure LaunchFirst (core : Nat) (l : Launch) (rest : List Launch) (s : State) : Prop where
  moves : s.moving = true
  stays : (s.core core).retiring = false
  waits : (s.core core).waiting = l :: rest

theorem LaunchFirst.exec (g : LaunchFirst core l rest s) :
    exec (.kernelStart t core) s = .next ((s.at t).tryLaunch core l).settle2 := by
  have hwaits : ((s.at t).core core).waiting = l :: rest := g.waits
  rw [exec_kernelStart]
  refine (happen_pos ?_).trans ?_
  · rw [State.moving_at, State.core_at, g.moves, g.stays]
    rfl
  · rw [hwaits]

theorem State.tryLaunch_stale (h : s.launchStale l = true) :
    s.tryLaunch core l = (s.dropLaunch core).tally Ctr.staleCompletion := by
  rw [State.tryLaunch, if_pos h]

theorem State.tryLaunch_barred (h : s.launchStale l = false) (hb : l.barred = true) :
    s.tryLaunch core l = (s.dropLaunch core).abortLaunch core l := by
  rw [State.tryLaunch, if_neg (Bool.eq_false_iff.1 h), if_pos hb]

/-- A launch that may start, by the context and the image there are for it. -/
theorem State.tryLaunch_current (h : s.launchStale l = false) (hb : l.barred = false) :
    ((s.core core).freeCtx = none → s.tryLaunch core l = s) ∧
    (∀ k img, (s.core core).freeCtx = some k → s.launchImage l = some (some img) →
      (s.core core).holds img = true → s.tryLaunch core l = s.startLaunch core k l (some img)) ∧
    (∀ k, (s.core core).freeCtx = some k → s.launchImage l = none →
      s.tryLaunch core l = (s.dropLaunch core).abortLaunch core l) := by
  unfold State.tryLaunch
  rw [if_neg (Bool.eq_false_iff.1 h), if_neg (Bool.eq_false_iff.1 hb)]
  refine ⟨fun hfull => ?_, fun k img hk himg hheld => ?_, fun k hk himg => ?_⟩
  · dsimp only
    rw [hfull]
  · dsimp only
    rw [hk, himg]
    exact if_pos hheld
  · dsimp only
    rw [hk, himg]

/-- An image that has been read arrives for the launch it was loaded for. -/
theorem exec_kernelImageLoadDone_waiting {img : Nat × Nat} (hm : s.moving = true)
    (hi : (s.core core).loading = some img) (hw : (s.core core).waiting = l :: rest) (check : WordCheck) :
    exec (.kernelImageLoadDone t core l.desc.kernel check) s = .next ((s.at t).imageLoaded core img l check) := by
  have hloading : ((s.at t).core core).loading = some img := hi
  have hwaits : ((s.at t).core core).waiting = l :: rest := hw
  rw [exec_kernelImageLoadDone]
  refine (happen_pos ((s.moving_at t).trans hm)).trans ?_
  rw [hloading, hwaits]
  dsimp only
  rw [if_pos rfl]

end Starts

section Ends

variable {status : Nat} {x : Ctx}

/-- A kernel returns or faults in a context that nothing holds. -/
theorem exec_kernelEnd_ready (hm : s.moving = true) (hs : status ≤ 3) (hr : s.ctxReady core ctx = true) :
    exec (.kernelEnd t core ctx status) s = .next ((s.at t).endContext core ctx status).settle2 := by
  rw [exec_kernelEnd]
  exact happen_pos (by rw [State.moving_at, State.ctxReady_at, hm, decide_eq_true hs, hr]; rfl)

theorem exec_kernelEnd_held (hr : s.ctxReady core ctx = false) :
    exec (.kernelEnd t core ctx status) s = .next (s.at t) := by
  rw [exec_kernelEnd]
  exact happen_neg (by rw [State.ctxReady_at, hr, Bool.and_false])

/-- A context past `kernel_max_run` ends with `TIMEOUT`. -/
theorem exec_kernelMaxRunExpiry_due (hm : s.moving = true) (hx : s.ctx core ctx = some x)
    (hd : x.start + (s.part x.part).kernelMaxRun ≤ max s.tick t) :
    exec (.kernelMaxRunExpiry t core ctx) s = .next ((s.at t).endContext core ctx 4).settle2 := by
  rw [exec_kernelMaxRunExpiry]
  refine happen_pos ?_
  rw [State.moving_at, hm, State.ctx_at, hx]
  exact decide_eq_true hd

theorem exec_kernelMaxRunExpiry_early (hx : s.ctx core ctx = some x)
    (hd : max s.tick t < x.start + (s.part x.part).kernelMaxRun) :
    exec (.kernelMaxRunExpiry t core ctx) s = .next (s.at t) := by
  rw [exec_kernelMaxRunExpiry]
  refine happen_neg ?_
  rw [State.ctx_at, hx]
  exact Bool.and_eq_false_imp.2 fun _ => decide_eq_false (Nat.not_le.2 hd)

/-- A range marker of a kernel, by the right of its cluster's owner (R426, R468). -/
theorem exec_kernelMarkInsn_ready (hm : s.moving = true) (hx : s.ctx core ctx = some x)
    (hr : s.ctxReady core ctx = true) (b : Bool) (m : Nat) :
    exec (.kernelMarkInsn t core ctx b m) s = .next (if s.mayMark (s.coreOwner core) then
      (s.at t).coreTrace core ctx 0 (markKind b) 0 (m % 65536) (max s.tick t) x.desc
      else (s.at t).count Ctr.dillMarkDenied (s.coreCluster core)) := by
  have hctx : (s.at t).ctx core ctx = some x := hx
  rw [exec_kernelMarkInsn]
  refine (happen_pos (by rw [State.moving_at, State.ctxReady_at, hm, hr]; rfl)).trans ?_
  rw [hctx]
  rfl

end Ends

end KernelRuns
end Sys2Proof.Machine

namespace Sys2Proof.Machine

/-! ### Words of a memory (R5, R326) -/

section MemoryWords

variable {m : Mem}

theorem leNat_leBytes_mod : ∀ n v : Nat, leNat (leBytes n v) = v % 2 ^ (8 * n)
  | 0, v => (Nat.mod_one v).symm
  | n + 1, v => by
    rw [leBytes, leNat, leNat_leBytes_mod n, BitVec.toNat_ofNat, Nat.mul_succ, Nat.add_comm (8 * n), Nat.pow_add,
      Nat.mod_mul]

/-- Bytes written are read back. -/
theorem memBytes_memPut (h : memWfFrom 0 m = true) (a : Nat) (bs : List Byte) :
    memBytes (memPut m a bs) a bs.length = bs := by
  refine List.ext_getElem (by simp [memBytes]) fun i _ hi => ?_
  simp [memBytes, memGet_memPut bs h (Nat.zero_le a), hi]

theorem memGet_memPut_outside (h : memWfFrom 0 m = true) {a x : Nat} {bs : List Byte}
    (hx : x < a ∨ a + bs.length ≤ x) : memGet (memPut m a bs) x = memGet m x := by
  rw [memGet_memPut bs h (Nat.zero_le a), dif_neg (by omega)]

end MemoryWords

/-! ### The cluster store (R183, R192) -/

section ClusterStore

variable {s : State} {t core ctx dst addr n : Nat} {wide : Bool} {op : AtomicOp} {arg : Nat}

/-- A context's window on the store of its cluster (R183). -/
theorem State.ctxPlace_store (hlo : 0x100000 ≤ addr) (hhi : addr + n ≤ 0x300000) :
    s.ctxPlace core addr n = some (.mem (.store (s.coreCluster core)) (addr - 0x100000)) := by
  have hsram : ¬ addr + n ≤ sramBytes := by
    unfold sramBytes
    omega
  rw [State.ctxPlace, if_neg hsram, if_pos ⟨hlo, hhi⟩]

/-- Outside it no address leads to a store. -/
theorem State.ctxPlace_ne_store (h : addr < 0x100000 ∨ 0x300000 < addr + n) (c a : Nat) :
    s.ctxPlace core addr n ≠ some (.mem (.store c) a) := by
  unfold State.ctxPlace
  rw [if_neg (by omega : ¬ (0x100000 ≤ addr ∧ addr + n ≤ 0x300000))]
  split_ifs <;> simp

/-- An atomic operation that a context can issue: of a form and at an alignment that the store has (R192). -/
structure AtomicReady (core ctx addr n : Nat) (wide : Bool) (op : AtomicOp) (s : State) : Prop where
  moves : s.moving = true
  ready : s.ctxReady core ctx = true
  width : n = if wide then 8 else 4
  form : atomicForm wide op = true
  aligned : addr % n = 0

theorem AtomicReady.happens (g : AtomicReady core ctx addr n wide op s) :
    ((s.at t).moving && (s.at t).ctxReady core ctx && atomicForm wide op &&
      addr % n == 0) = true := by
  rw [State.moving_at, State.ctxReady_at, g.moves, g.ready, g.form, g.aligned]
  rfl

/-- In the store it is done at its bank (R192). -/
theorem AtomicReady.exec_good (g : AtomicReady core ctx addr n wide op s) (hlo : 0x100000 ≤ addr)
    (hhi : addr + n ≤ 0x300000) (hg : s.spaceGood (.store (s.coreCluster core)) (addr - 0x100000) n = true) :
    exec (.clusterStoreAtomic t core ctx dst addr wide op arg) s =
      .next ((s.at t).storeAtomic core ctx dst (s.coreCluster core) (addr - 0x100000) n op arg) := by
  have hplace : (s.at t).ctxPlace core addr n = _ := State.ctxPlace_store hlo hhi
  rw [exec_clusterStoreAtomic]
  unfold execClusterStoreAtomic
  dsimp only
  rw [← g.width, happen_pos g.happens, hplace, State.coreCluster_at]
  dsimp only
  rw [State.spaceGood_at, if_pos hg]

/-- A poisoned word there is an operand fault (R192, R201). -/
theorem AtomicReady.exec_poisoned (g : AtomicReady core ctx addr n wide op s) (hlo : 0x100000 ≤ addr)
    (hhi : addr + n ≤ 0x300000) (hg : s.spaceGood (.store (s.coreCluster core)) (addr - 0x100000) n = false) :
    exec (.clusterStoreAtomic t core ctx dst addr wide op arg) s = .next ((s.at t).endContext core ctx 1).settle2 := by
  have hplace : (s.at t).ctxPlace core addr n = _ := State.ctxPlace_store hlo hhi
  rw [exec_clusterStoreAtomic]
  unfold execClusterStoreAtomic
  dsimp only
  rw [← g.width, happen_pos g.happens, hplace, State.coreCluster_at]
  dsimp only
  rw [State.spaceGood_at, if_neg (Bool.eq_false_iff.1 hg)]

/-- Outside the store it is an access fault (R183, R192). -/
theorem AtomicReady.exec_outside (g : AtomicReady core ctx addr n wide op s)
    (h : addr < 0x100000 ∨ 0x300000 < addr + n) : exec (.clusterStoreAtomic t core ctx dst addr wide op arg) s =
      .next ((s.at t).endContext core ctx 2).settle2 := by
  rw [exec_clusterStoreAtomic]
  unfold execClusterStoreAtomic
  dsimp only
  rw [← g.width, happen_pos g.happens]
  split
  next c a hplace => exact absurd hplace (State.ctxPlace_ne_store h c a)
  next => rfl

end ClusterStore

/-- A context that is ready runs. -/
theorem State.ctx_of_ready {s : State} {core ctx : Nat} (h : s.ctxReady core ctx = true) :
    ∃ x, s.ctx core ctx = some x := by
  cases hx : s.ctx core ctx with
  | some x => exact ⟨x, rfl⟩
  | none => simp [State.ctxReady, State.ctxFree, hx] at h

section StoreAtomic

variable {s : State} {core ctx dst c a n arg : Nat} {op : AtomicOp}

@[simp] theorem State.cluster_modCtx (p k c : Nat) (f : Ctx → Ctx) (s : State) :
    (s.modCtx p k f).cluster c = s.cluster c := rfl

/-- The new word, as bytes of the store. -/
def State.atomicBytes (c a n : Nat) (op : AtomicOp) (arg : Nat) (s : State) : List Byte :=
  leBytes n (atomicResult (8 * n) op (leNat (s.spaceBytes (.store c) a n)) (arg % 2 ^ (8 * n)))

theorem State.length_atomicBytes : (s.atomicBytes c a n op arg).length = n := length_leBytes n _

theorem State.store_storeAtomic : ((s.storeAtomic core ctx dst c a n op arg).cluster c).store =
    memPut (s.cluster c).store a (s.atomicBytes c a n op arg) := by
  unfold State.storeAtomic State.setReg State.spacePut
  dsimp only
  rw [State.cluster_modCtx, State.cluster_modCluster]
  rfl

theorem State.cluster_storeAtomic_ne {k : Nat} (hk : k ≠ c) :
    (s.storeAtomic core ctx dst c a n op arg).cluster k = s.cluster k := by
  unfold State.storeAtomic State.setReg State.spacePut
  dsimp only
  rw [State.cluster_modCtx, State.cluster_modCluster_ne _ hk]

/-- The word then holds the result. -/
theorem State.spaceBytes_storeAtomic (hw : memWfFrom 0 (s.cluster c).store = true) :
    leNat ((s.storeAtomic core ctx dst c a n op arg).spaceBytes (.store c) a n) =
      atomicResult (8 * n) op (leNat (s.spaceBytes (.store c) a n)) (arg % 2 ^ (8 * n)) % 2 ^ (8 * n) := by
  have hread := memBytes_memPut hw a (s.atomicBytes c a n op arg)
  rw [State.length_atomicBytes] at hread
  rw [State.spaceBytes, State.store_storeAtomic, hread, State.atomicBytes, leNat_leBytes_mod]

/-- Every byte outside the word stays. -/
theorem State.memGet_storeAtomic (hw : memWfFrom 0 (s.cluster c).store = true) {b : Nat} (hb : b < a ∨ a + n ≤ b) :
    memGet ((s.storeAtomic core ctx dst c a n op arg).cluster c).store b = memGet (s.cluster c).store b := by
  rw [State.store_storeAtomic]
  exact memGet_memPut_outside hw (by rwa [State.length_atomicBytes])

/-- The old word is in the context's register. -/
theorem State.reg_storeAtomic {x : Ctx} (hx : s.ctx core ctx = some x) :
    ((s.storeAtomic core ctx dst c a n op arg).ctx core ctx).bind (fun x => tget x.regs dst) =
      some (BitVec.ofNat 64 (leNat (s.spaceBytes (.store c) a n))) := by
  have hput : (s.spacePut (.store c) a (s.atomicBytes c a n op arg)).ctx core ctx = some x := hx
  unfold State.storeAtomic State.setReg
  dsimp only
  rw [State.ctx_modCtx, ← State.atomicBytes, hput, Option.map_some, Option.bind_some, tget_tset]

end StoreAtomic

/-! ### A context's own accesses (R183, R184, R192, R201) -/

section Accesses

variable {s : State} {t core ctx : Nat} {acc rest : List KAccess} {x : KAccess}

/-- A fence of a context that is ready makes the accesses before it. -/
theorem exec_clusterFence_ready (hm : s.moving = true) (hr : s.ctxReady core ctx = true)
    (hf : acc.all accFormed = true) :
    exec (.clusterFence t core ctx acc) s = .next (State.runAccesses core ctx acc (s.at t)).settle2 := by
  rw [exec_clusterFence]
  exact happen_pos (by rw [State.moving_at, State.ctxReady_at, hm, hr, hf]; rfl)

/-- The first access that faults ends the context. -/
theorem State.runAccesses_fault {st : Nat} (h : s.accessFault core x = some st) :
    State.runAccesses core ctx (x :: rest) s = s.endContext core ctx st := by
  rw [State.runAccesses, h]

theorem State.runAccesses_good {p : CtxPlace} (h : s.accessFault core x = none)
    (hp : s.ctxPlace core (accAddr x) (accSize x) = some p) :
    State.runAccesses core ctx (x :: rest) s = State.runAccesses core ctx rest (s.doAccess core ctx p x) := by
  rw [State.runAccesses, h, hp]

/-- An address that the map does not list is an access fault. -/
theorem State.accessFault_unmapped (hp : s.ctxPlace core (accAddr x) (accSize x) = none) :
    s.accessFault core x = some 2 := by
  rw [State.accessFault, hp]

end Accesses

/-! ### The DMA queue (R189 to R191) -/

section DmaQueue

variable {s : State} {t core ctx addr : Nat} {x : Ctx} {d e : BitVec 256 × Nat} {q rest : List (BitVec 256 × Nat)}

theorem Ctx.post_room {d : BitVec 256} {tick : Nat} (h : x.dmaQ.length < 64) :
    x.post d tick = { x with dmaQ := x.dmaQ ++ [(d, tick)] } := if_pos h

theorem Ctx.post_full {d : BitVec 256} {tick : Nat} (h : 64 ≤ x.dmaQ.length) :
    x.post d tick = { x with dmaWait := some d } := if_neg (Nat.not_lt.2 h)

/-- A descriptor in local SRAM that can be read is posted. -/
theorem exec_dmaPost_readable (hm : s.moving = true) (hr : s.ctxReady core ctx = true) (ha : addr + 32 ≤ sramBytes)
    (hg : s.spaceGood (.sram core) addr 32 = true) : exec (.dmaPost t core ctx addr) s =
      .next ((s.at t).modCtx core ctx
        (Ctx.post (BitVec.ofNat 256 (leNat (s.spaceBytes (.sram core) addr 32))) (max s.tick t))) := by
  have hbad : (!(s.at t).spaceGood (.sram core) addr 32) = false := by rw [State.spaceGood_at, hg]; rfl
  rw [exec_dmaPost]
  refine (happen_pos (by rw [State.moving_at, State.ctxReady_at, hm, hr]; rfl)).trans ?_
  rw [if_neg (Nat.not_lt.2 ha), hbad, if_neg Bool.false_ne_true]
  rfl

/-- Before the first item that holds, or where none does, no item holds. -/
theorem eq_false_of_lt_idxOf? {α : Type} {p : α → Bool} : ∀ {l : List α} {j : Nat} {y : α},
    j < (idxOf? p l).getD l.length → l[j]? = some y → p y = false
  | a :: l, j, y, hj, hy => by
    rw [idxOf?] at hj
    split at hj
    next => exact absurd hj (Nat.not_lt_zero j)
    next ha =>
      cases j with
      | zero =>
        cases hy
        exact Bool.eq_false_iff.2 ha
      | succ j =>
        refine eq_false_of_lt_idxOf? (l := l) (j := j) ?_ hy
        cases h : idxOf? p l with
        | none => simpa [h] using hj
        | some i => simpa [h] using hj

/-- No descriptor that can end next stands behind a fence ahead of it (R190). -/
theorem dmaFence_of_lt_dmaReady : ∀ {q : List (BitVec 256 × Nat)} {j : Nat} {y : BitVec 256 × Nat},
    0 < j → j < dmaReady q → q[j]? = some y → dmaFence y.1 = false
  | _ :: q, j + 1, y, _, hj, hy => by
    rw [dmaReady] at hj
    exact eq_false_of_lt_idxOf? (p := fun e : BitVec 256 × Nat => dmaFence e.1) (l := q) (j := j) (by omega) hy

theorem dmaReady_pos (h : q ≠ []) : 0 < dmaReady q := by
  cases q with
  | nil => exact absurd rfl h
  | cons d q =>
    rw [dmaReady]
    omega

/-- Behind a fence nothing has started: only the head can end. -/
theorem dmaReady_fence (h : dmaFence e.1 = true) : dmaReady (d :: e :: rest) = 1 := by
  simp [dmaReady, idxOf?, h]

theorem exec_dmaComplete_running (hm : s.moving = true) (hx : s.ctx core ctx = some x) :
    exec (.dmaComplete t core ctx) s = .next (if dmaReady x.dmaQ ≤ 1 then (s.at t).dmaEnd core ctx 0
      else (s.at t).fresh.2.dmaEnd core ctx (freeBelow (dmaReady x.dmaQ) (s.at t).fresh.1)) := by
  have hctx : (s.at t).ctx core ctx = some x := hx
  rw [exec_dmaComplete]
  refine (happen_pos ((s.moving_at t).trans hm)).trans ?_
  rw [hctx]

/-- Nothing posted: nothing ends. -/
theorem State.dmaEnd_empty {i : Nat} (hx : s.ctx core ctx = some x) (hq : x.dmaQ = []) : s.dmaEnd core ctx i = s := by
  unfold State.dmaEnd
  rw [hx]
  dsimp only
  rw [hq, List.getElem?_nil]

/-- Which of the descriptors that can end next ends is open (R190). -/
theorem exec_dmaComplete_one (hm : s.moving = true) (hx : s.ctx core ctx = some x) :
    ∃ (s1 : State) (i : Nat), exec (.dmaComplete t core ctx) s = .next (s1.dmaEnd core ctx i) ∧
      (s1 = s.at t ∨ s1 = (s.at t).fresh.2) ∧ (x.dmaQ ≠ [] → i < dmaReady x.dmaQ) ∧
      ∀ j, 0 < j → j ≤ i → ∀ y, x.dmaQ[j]? = some y → dmaFence y.1 = false := by
  rw [exec_dmaComplete_running hm hx]
  split
  next => exact ⟨_, 0, rfl, .inl rfl, dmaReady_pos, fun j h0 hj => absurd hj (Nat.not_le.2 h0)⟩
  next hn =>
    have hi : freeBelow (dmaReady x.dmaQ) (s.at t).fresh.1 < dmaReady x.dmaQ := Nat.mod_lt _ (by omega)
    exact ⟨_, _, rfl, .inr rfl, fun _ => hi, fun j h0 hj y => dmaFence_of_lt_dmaReady h0 (hj.trans_lt hi)⟩

end DmaQueue

end Sys2Proof.Machine

namespace Sys2Proof.Machine

/-! ### The reduce unit (R193 to R195) -/

section ReduceUnit

variable {s : State} {t core ctx cluster : Nat}

section Opens

variable {op len expected close addr : Nat} {dest : Nat × Nat} {d : GroupDest}

/-- A `REDUCE_GROUP_OPEN` of a context that can issue, within the limits of R193 and with a destination. -/
structure OpenReady (core ctx cluster op len expected : Nat) (dest : Nat × Nat) (d : GroupDest) (s : State) :
    Prop where
  moves : s.moving = true
  ready : s.ctxReady core ctx = true
  place : s.coreCluster core = cluster
  good : s.openGood cluster op len expected = true
  named : s.groupDest dest = some d

/-- What it opens. -/
def kernelGroup (core ctx op len expected close : Nat) (d : GroupDest) : Group :=
  { op := op, len := len, expected := expected, closeTick := close, dest := d, opener := some (core, ctx) }

theorem OpenReady.happens (g : OpenReady core ctx cluster op len expected dest d s) :
    ((s.at t).moving && (s.at t).ctxReady core ctx &&
      (s.at t).openGood ((s.at t).coreCluster core) op len expected && ((s.at t).groupDest dest).isSome) = true := by
  rw [State.moving_at, State.ctxReady_at, State.coreCluster_at, State.openGood_at, State.groupDest_at, g.place,
    g.moves, g.ready, g.good, g.named]
  rfl

/-- On the context's own cluster the group opens, or waits (R193). -/
theorem OpenReady.exec_good (g : OpenReady core ctx cluster op len expected dest d s)
    (hd : s.destGood cluster len d = true) : exec (.reduceGroupOpen t core ctx op len expected close dest) s =
      .next ((s.at t).modCluster cluster fun x =>
        x.open (max s.tick t) (kernelGroup core ctx op len expected close d)) := by
  rw [exec_reduceGroupOpen]
  refine (happen_pos ?_).trans ?_
  · exact g.happens
  · dsimp only
    rw [State.groupDest_at, g.named, State.coreCluster_at, g.place]
    dsimp only
    rw [State.destGood_at, if_pos hd]
    rfl

/-- A foreign destination is an access fault of the context (R193). -/
theorem OpenReady.exec_foreign (g : OpenReady core ctx cluster op len expected dest d s)
    (hd : s.destGood cluster len d = false) : exec (.reduceGroupOpen t core ctx op len expected close dest) s =
      .next ((s.at t).endContext core ctx 2).settle2 := by
  rw [exec_reduceGroupOpen]
  refine (happen_pos ?_).trans ?_
  · exact g.happens
  · dsimp only
    rw [State.groupDest_at, g.named, State.coreCluster_at, g.place]
    dsimp only
    rw [State.destGood_at, if_neg (Bool.eq_false_iff.1 hd)]

/-- A place in the cluster's own store is one that a kernel's group may name. -/
theorem State.destGood_store (ha : addr % 4 = 0) (hle : addr + 4 * len + 8 ≤ storeBytes) :
    s.destGood cluster len (.store addr) = true := by
  simp [State.destGood, ha, hle]

variable {c : Cluster} {tick : Nat} {g : Group}

/-- With nothing ahead of it and room, a kernel's group opens under the lowest free number (R193). -/
theorem Cluster.open_room (ho : c.opens = []) (hn : c.held.length < 64)
    (hu : c.reduceUse + g.len * 4 ≤ 131072) :
    c.open tick g = { c with groups := tset c.groups c.freeGroup g } := by
  have hroom : c.roomFor g = true := by simp [Cluster.roomFor, hn, hu]
  rw [Cluster.open, ho, hroom]
  rfl

/-- On a full unit it waits. -/
theorem Cluster.open_full (hs : g.slot = none) (hn : 64 ≤ c.held.length) :
    c.open tick g = { c with opens := c.opens ++ [(tick, g)] } := by
  have hroom : c.roomFor g = false := by simp [Cluster.roomFor, hs, hn]
  rw [Cluster.open, hroom, Bool.and_false]
  rfl

/-- The context of an open that waits waits with it (R193). -/
theorem State.ctxReady_of_openWaits (h : s.openWaits core ctx = true) : s.ctxReady core ctx = false := by
  simp [State.ctxReady, State.ctxFree, h]

theorem State.openWaits_open_full {g : Group} (hp : s.coreCluster core = cluster) (hs : g.slot = none)
    (hg : g.opener = some (core, ctx)) (hn : 64 ≤ (s.cluster cluster).held.length) :
    (s.modCluster cluster fun x => x.open tick g).openWaits core ctx = true := by
  have hplace : (s.modCluster cluster fun x => x.open tick g).coreCluster core = cluster := hp
  rw [State.openWaits, hplace, State.cluster_modCluster, Cluster.open_full hs hn]
  simp [hg]

end Opens

section Contributions

variable {group : Nat} {data : Option (List W32)} {g : Group}

theorem exec_reduceContribution_fits (hm : s.moving = true) (hc : cluster < 256)
    (hf : s.fitsGroup cluster group data = true) : exec (.reduceContribution t cluster group data) s =
      .next ((s.at t).contribute cluster (.num group) data).settle2 := by
  rw [exec_reduceContribution]
  refine happen_pos ?_
  rw [State.moving_at, State.fitsGroup_at, hm, hf, decide_eq_true (show cluster < nClusters from hc)]
  rfl

theorem Cluster.findGroup_num {c : Cluster} :
    c.findGroup (.num group) = (tget c.groups group).map fun g => (group, g) := rfl

theorem Group.fold_arrived (g : Group) (data : Option (List W32)) (up : Nat) :
    (g.fold data up).arrived = g.arrived + 1 := by
  cases data <;> rfl

theorem Group.fold_expected (g : Group) (data : Option (List W32)) (up : Nat) :
    (g.fold data up).expected = g.expected := by
  cases data <;> rfl

/-- A contribution to an open group (R194): folded in, or, as the last one, the group's close. -/
theorem State.contribute_open (hg : tget (s.cluster cluster).groups group = some g) :
    s.contribute cluster (.num group) data =
      if g.expected ≤ g.arrived + 1
      then (s.modCluster cluster fun x => { x with groups := tdel x.groups group }).deliverGroup chainFuel cluster
        (g.fold data 0)
      else s.modCluster cluster fun x => { x with groups := tset x.groups group (g.fold data 0) } := by
  unfold State.contribute
  dsimp only
  rw [Cluster.findGroup_num, hg, Option.map_some]
  dsimp only
  rw [Group.fold_arrived, Group.fold_expected]

/-- A contribution to a group that is not open is late (R195). -/
theorem State.contribute_late (hg : tget (s.cluster cluster).groups group = none) :
    s.contribute cluster (.num group) data = s.count Ctr.reduceLate cluster := by
  unfold State.contribute
  dsimp only
  rw [Cluster.findGroup_num, hg, Option.map_none]

theorem State.fitsGroup_none (hg : tget (s.cluster cluster).groups group = none) :
    s.fitsGroup cluster group data = true := by
  unfold State.fitsGroup
  rw [hg]
  cases data <;> rfl

/-- What has arrived is what was summed and what was void (R194). -/
theorem Group.fold_counts (h : g.arrived = g.summed + g.voids) :
    (g.fold data 0).arrived = (g.fold data 0).summed + (g.fold data 0).voids := by
  cases data with
  | none =>
    show g.arrived + 1 = g.summed + (g.voids + 1 + 0)
    omega
  | some v =>
    show g.arrived + 1 = g.summed + 1 + (g.voids + 0)
    omega

/-- A closed group's counts make up what it expected: what did not arrive is void (R194). -/
theorem Group.close_counts (h : g.arrived = g.summed + g.voids) (hle : g.arrived ≤ g.expected) :
    g.close.summed + g.close.voids = g.expected := by
  show g.summed + (g.voids + (g.expected - g.arrived)) = g.expected
  omega

end Contributions

section CloseTicks

variable {group i : Nat} {g : Group}

/-- A group that a close tick names, once the tick has come. -/
theorem exec_reduceCloseTick_due (hm : s.moving = true) (hg : s.closing cluster group = some g)
    (hd : g.closeTick ≤ max s.tick t) : exec (.reduceCloseTick t cluster group) s =
      .next (if group < 128 then (s.at t).closeGroup cluster group
        else (s.at t).closeWaiting cluster (group - 128)).settle2 := by
  rw [exec_reduceCloseTick]
  refine happen_pos ?_
  rw [State.moving_at, State.closing_at, hm, hg]
  exact decide_eq_true hd

theorem State.closing_open (h : group < 128) : s.closing cluster group = tget (s.cluster cluster).groups group :=
  if_pos h

theorem State.closing_waiting {e : Nat × Group} (he : (s.cluster cluster).opens[i]? = some e) :
    s.closing cluster (128 + i) = some e.2 := by
  rw [State.closing, if_neg (by omega), Nat.add_sub_cancel_left, he]
  rfl

end CloseTicks

end ReduceUnit
end Sys2Proof.Machine

namespace Sys2Proof.Machine

/-! ### Matrix jobs (R213, R219 to R221, R226) -/

section MatrixJobs

variable {s : State} {t core ctx array addr : Nat}

section Issues

/-- A context may issue to an array of its core. -/
structure IssueReady (core ctx array : Nat) (s : State) : Prop where
  moves : s.moving = true
  number : array < 2
  free : s.mayIssue core ctx array = true

/-- An issue, by the room in the queue and what stands at its address (R213, R219). -/
def State.tryIssue (core ctx array addr : Nat) (s : State) : State :=
  if (s.mx core array).full then s.modMx core array (MxArray.hold ctx s.tick)
  else if sramBytes < addr + 64 then (s.endContext core ctx 2).settle2
  else if addr % 64 ≠ 0 then (s.endContext core ctx 3).settle2
  else if !s.spaceGood (.sram core) addr 64 then (s.endContext core ctx 1).settle2
  else (s.mxIssue core ctx array (BitVec.ofNat 512 (leNat (s.spaceBytes (.sram core) addr 64)))).settle2

theorem IssueReady.exec (g : IssueReady core ctx array s) :
    exec (.matrixJobIssue t core ctx array addr) s = .next ((s.at t).tryIssue core ctx array addr) := by
  have hfree : (s.at t).mayIssue core ctx array = true := g.free
  rw [exec_matrixJobIssue]
  refine (happen_pos ?_).trans ?_
  · rw [State.moving_at, g.moves, decide_eq_true g.number, hfree]
    rfl
  · rw [State.tryIssue]

/-- A full queue holds the context (R219). -/
theorem State.tryIssue_full (hf : (s.mx core array).full = true) :
    s.tryIssue core ctx array addr = s.modMx core array (MxArray.hold ctx s.tick) := by
  rw [State.tryIssue, if_pos hf]

/-- A misaligned descriptor ends it (R213). -/
theorem State.tryIssue_misaligned (hf : (s.mx core array).full = false) (ha : addr + 64 ≤ sramBytes)
    (hm : addr % 64 ≠ 0) : s.tryIssue core ctx array addr = (s.endContext core ctx 3).settle2 := by
  rw [State.tryIssue, if_neg (Bool.eq_false_iff.1 hf), if_neg (Nat.not_lt.2 ha), if_pos hm]

/-- A descriptor that can be read is issued (R213). -/
theorem State.tryIssue_readable (hf : (s.mx core array).full = false) (ha : addr + 64 ≤ sramBytes)
    (hm : addr % 64 = 0) (hg : s.spaceGood (.sram core) addr 64 = true) : s.tryIssue core ctx array addr =
      (s.mxIssue core ctx array (BitVec.ofNat 512 (leNat (s.spaceBytes (.sram core) addr 64)))).settle2 := by
  have hread : ¬ (!s.spaceGood (.sram core) addr 64) = true := by simp [hg]
  rw [State.tryIssue, if_neg (Bool.eq_false_iff.1 hf), if_neg (Nat.not_lt.2 ha), if_neg (not_not_intro hm),
    if_neg hread]

/-- A job as it is issued. -/
def issuedJob (ctx : Nat) (d : BitVec 512) (tick : Nat) : MxJob := { ctx := ctx, desc := d, issued := tick }

theorem State.mxIssue_refused {d : BitVec 512} {st : Nat} (h : (s.mx core array).refuses array ctx d = some st) :
    s.mxIssue core ctx array d = s.mxFail core array (issuedJob ctx d s.tick) st 0 := by
  unfold State.mxIssue
  rw [h]
  rfl

theorem State.mxIssue_queued {d : BitVec 512} (h : (s.mx core array).refuses array ctx d = none) :
    s.mxIssue core ctx array d = s.modMx core array fun x => { x with
      jobs := x.jobs ++ [issuedJob ctx d s.tick]
      held := tdel x.held ctx } := by
  unfold State.mxIssue
  rw [h]
  rfl

/-- An issue with room, by what the array finds wrong with its descriptor (R213). -/
theorem IssueReady.exec_descriptor {d : BitVec 512} (g : IssueReady core ctx array s)
    (hf : (s.mx core array).full = false) (ha : addr + 64 ≤ sramBytes) (hm : addr % 64 = 0)
    (hg : s.spaceGood (.sram core) addr 64 = true)
    (hd : d = BitVec.ofNat 512 (leNat (s.spaceBytes (.sram core) addr 64))) :
    (∀ st, (s.mx core array).refuses array ctx d = some st →
      Machine.exec (.matrixJobIssue t core ctx array addr) s =
        .next ((s.at t).mxFail core array (issuedJob ctx d (max s.tick t)) st 0).settle2) ∧
    ((s.mx core array).refuses array ctx d = none →
      Machine.exec (.matrixJobIssue t core ctx array addr) s =
        .next ((s.at t).modMx core array fun x => { x with
          jobs := x.jobs ++ [issuedJob ctx d (max s.tick t)]
          held := tdel x.held ctx }).settle2) := by
  rw [g.exec, State.tryIssue_readable (s := s.at t) hf ha hm hg, State.spaceBytes_at, ← hd]
  exact ⟨fun st hst => by rw [State.mxIssue_refused (s := s.at t) hst, State.at_tick],
    fun hnone => by rw [State.mxIssue_queued (s := s.at t) hnone, State.at_tick]⟩

end Issues

section JobEnds

variable {j : MxJob}

/-- The end of the job that an array runs: by the array's check, then by its operands. -/
def State.endRunning (core array : Nat) (j : MxJob) (fault : Bool) (s : State) : State :=
  if fault then ((s.arrayFault core array).mxEcc core array j).settle2
  else if (readRegions j.desc).any fun e => !s.spaceGood (.sram core) e.1 e.2 then
    (s.mxEcc core array j).settle2
  else s.mxDone core array j

/-- An array that runs no job ends none. -/
theorem exec_matrixJobEnd_idle (hm : s.moving = true) (ha : array < 2) (hr : (s.mx core array).running = none)
    (fault : Bool) : exec (.matrixJobEnd t core array fault) s = .next (s.at t) := by
  rw [exec_matrixJobEnd]
  refine (happen_pos ?_).trans ?_
  · rw [State.moving_at, hm, decide_eq_true ha]
    rfl
  · rw [State.mx_at, hr]

theorem exec_matrixJobEnd_running (hm : s.moving = true) (ha : array < 2)
    (hr : (s.mx core array).running = some j) (fault : Bool) : exec (.matrixJobEnd t core array fault) s =
      .next (((s.at t).mxHeld core).endRunning core array j fault) := by
  rw [exec_matrixJobEnd]
  refine (happen_pos ?_).trans ?_
  · rw [State.moving_at, hm, decide_eq_true ha]
    rfl
  · rw [State.mx_at, hr]
    dsimp only
    rw [State.endRunning]

/-- A failed check of the array counts against the core, and the job ends with `FAULT_ECC` (R226, R430). -/
theorem State.endRunning_fault : s.endRunning core array j true =
    ((s.arrayFault core array).mxEcc core array j).settle2 := by
  rw [State.endRunning, if_pos rfl]

/-- An operand that cannot be read ends the job with `FAULT_ECC` (R220). -/
theorem State.endRunning_bad (hb : ∃ e ∈ readRegions j.desc, s.spaceGood (.sram core) e.1 e.2 = false) :
    s.endRunning core array j false = (s.mxEcc core array j).settle2 := by
  have hbad : (readRegions j.desc).any (fun e => !s.spaceGood (.sram core) e.1 e.2) = true := by simpa using hb
  rw [State.endRunning, if_neg Bool.false_ne_true, if_pos hbad]

/-- Else it ends with its results (R217). -/
theorem State.endRunning_good (hg : ∀ e ∈ readRegions j.desc, s.spaceGood (.sram core) e.1 e.2 = true) :
    s.endRunning core array j false = s.mxDone core array j := by
  have hgood : ¬ (readRegions j.desc).any (fun e => !s.spaceGood (.sram core) e.1 e.2) = true := by
    simpa using fun a n hmem => hg (a, n) hmem
  rw [State.endRunning, if_neg Bool.false_ne_true, if_neg hgood]

theorem State.spaceGood_mxHeld (x : Space) (a n : Nat) (s : State) :
    (s.mxHeld core).spaceGood x a n = s.spaceGood x a n := by
  cases x <;> rfl

end JobEnds

end MatrixJobs
end Sys2Proof.Machine

namespace Sys2Proof.Machine

/-- Settles O41, part by part: kernel commands, held launches, kernels on cores, stores and DMA, the reduce unit, and
matrix jobs. -/
theorem computeWork : Obligations.ComputeWork := by
  unfold Obligations.ComputeWork
  refine ⟨fun t handle addr len h d s => ?commands, fun h d s => State.tryHeld_lost, fun t core ctx s hm => ?cores,
    fun t core ctx s => ?memories, fun t cluster s => ?reduce, fun t core ctx array addr s hm ha => ?matrix⟩
  case commands =>
    refine ⟨fun hready hsize hspace hright => ⟨ImageGood.exec_free ⟨hready, hsize, hspace, hright⟩,
      exec_kernelLoad_used hready⟩, fun hready hk => ⟨exec_kernelUnload_idle hready hk,
      exec_kernelUnload_runs hready hk⟩, fun hready hresv hk hend => ?_⟩
    have hnamed : LaunchNamed h d s := ⟨hready, hresv, hk, hend⟩
    refine ⟨hnamed.exec_foreign, hnamed.exec_lost, fun hown hn hspace hright hslot hsize hwords hclosed => ?_⟩
    have hgood : LaunchGood h d s := ⟨hnamed, hown, hn, hspace, hright, hslot, hsize, hwords, hclosed⟩
    exact ⟨hgood.exec_placed, hgood.exec_held⟩
  case cores =>
    refine ⟨fun l rest hstays hwaits => ?_, fun img l rest hi hw _ => ⟨exec_kernelImageLoadDone_waiting hm hi hw _,
      exec_kernelImageLoadDone_waiting hm hi hw _⟩, fun status hs => ⟨exec_kernelEnd_ready hm hs,
      exec_kernelEnd_held⟩, fun x hx => ⟨exec_kernelMaxRunExpiry_due hm hx, exec_kernelMaxRunExpiry_early hx,
      fun b m hr => ?_⟩⟩
    · have hfirst : LaunchFirst core l rest s := ⟨hm, hstays, hwaits⟩
      rw [hfirst.exec]
      refine ⟨fun hst => ?_, fun hst hb => ?_, fun hst hb => ?_⟩
      · rw [State.tryLaunch_stale (s := s.at t) hst]
      · rw [State.tryLaunch_barred (s := s.at t) hst hb]
        rfl
      · obtain ⟨hfull, hstarts, hgone⟩ := State.tryLaunch_current (s := s.at t) (core := core) hst hb
        exact ⟨fun hk => by rw [hfull hk], fun k img hk himg hheld => by rw [hstarts k img hk himg hheld],
          fun k hk himg => by rw [hgone k hk himg]; rfl⟩
    · rw [exec_kernelMarkInsn_ready hm hx hr]
      exact ⟨fun hmay => by rw [if_pos hmay], fun hmay => by rw [if_neg (Bool.eq_false_iff.1 hmay)]⟩
  case memories =>
    refine ⟨fun dst addr wide op arg n c hm hr hn hform hal hlo hhi hc hgood hwf => ?_,
      fun dst addr wide op arg n hm hr hn hform hal => ?_, fun hm hr => ?_, fun addr x hm hx hr ha hg => ?_,
      fun x hm hx => ?_⟩
    · have g : AtomicReady core ctx addr n wide op s := ⟨hm, hr, hn, hform, hal⟩
      obtain ⟨x, hx⟩ := State.ctx_of_ready hr
      subst hc
      exact ⟨_, g.exec_good hlo hhi hgood, State.spaceBytes_storeAtomic (s := s.at t) hwf,
        fun a hout => State.memGet_storeAtomic (s := s.at t) hwf hout,
        fun k => State.cluster_storeAtomic_ne (s := s.at t), State.reg_storeAtomic (s := s.at t) hx, rfl⟩
    · have g : AtomicReady core ctx addr n wide op s := ⟨hm, hr, hn, hform, hal⟩
      exact ⟨g.exec_outside, g.exec_poisoned⟩
    · refine ⟨exec_clusterFence_ready hm hr rfl, fun x r hx hrest => ?_⟩
      rw [exec_clusterFence_ready hm hr (by rw [List.all_cons, hx, hrest]; rfl)]
      exact ⟨fun st hst => by rw [State.runAccesses_fault hst],
        fun p hnone hp => by rw [State.runAccesses_good (s := s.at t) hnone hp], State.accessFault_unmapped⟩
    · rw [exec_dmaPost_readable hm hr ha hg]
      refine ⟨_, rfl, fun hroom => ?_, fun hfull => ?_, rfl⟩
      · rw [State.ctx_modCtx, State.ctx_at, hx, Option.map_some, Ctx.post_room hroom]
      · rw [State.ctx_modCtx, State.ctx_at, hx, Option.map_some, Ctx.post_full hfull]
    · refine ⟨fun hq => ?_, fun d e rest hq hf => ?_, exec_dmaComplete_one hm hx⟩
      · rw [exec_dmaComplete_running hm hx, hq, if_pos (by decide), State.dmaEnd_empty (s := s.at t) hx hq]
      · rw [exec_dmaComplete_running hm hx, hq, dmaReady_fence hf, if_pos le_rfl]
  case reduce =>
    refine ⟨fun core ctx op len expected close addr hm hr hp hg ha hle ho => ?_,
      fun core ctx op len expected close dest d hm hr hp hg hd hbad => ?_,
      fun group data g hm hc hg hf => ?_, fun group data hm hc hg => ?_, fun group g hm h128 hg hd => ?_,
      fun i e hm he hd => ?_, fun g data hcount => ⟨Group.fold_counts hcount, Group.close_counts hcount⟩⟩
    · have g : OpenReady core ctx cluster op len expected (0, addr) (.store addr) s := ⟨hm, hr, hp, hg, rfl⟩
      refine ⟨_, g.exec_good (State.destGood_store ha hle), fun hn hu => ?_, fun hn => ?_, rfl⟩
      · rw [State.cluster_modCluster, State.cluster_at, Cluster.open_room ho hn hu]
        exact tget_tset _ _ _
      · refine ⟨?_, ?_, State.ctxReady_of_openWaits (State.openWaits_open_full (s := s.at t) hp rfl rfl hn)⟩
        · rw [State.cluster_modCluster, State.cluster_at, Cluster.open_full rfl hn]
        · rw [State.cluster_modCluster, State.cluster_at, Cluster.open_full rfl hn, ho]
          rfl
    · have g : OpenReady core ctx cluster op len expected dest d s := ⟨hm, hr, hp, hg, hd⟩
      exact g.exec_foreign hbad
    · rw [exec_reduceContribution_fits hm hc hf, State.contribute_open (s := s.at t) hg]
      exact ⟨fun hlt => by rw [if_neg (Nat.not_le.2 hlt)], fun hle => by rw [if_pos hle]⟩
    · rw [exec_reduceContribution_fits hm hc (State.fitsGroup_none hg), State.contribute_late (s := s.at t) hg]
    · rw [exec_reduceCloseTick_due hm ((State.closing_open h128).trans hg) hd, if_pos h128]
    · rw [exec_reduceCloseTick_due hm (State.closing_waiting he) hd, if_neg (by omega), Nat.add_sub_cancel_left]
  case matrix =>
    refine ⟨fun hi => ?_, fun hr => exec_matrixJobEnd_idle hm ha hr _, fun j hr => ?_⟩
    · have g : IssueReady core ctx array s := ⟨hm, ha, hi⟩
      refine ⟨fun hf => ?_, fun hf haddr => ⟨fun hal => ?_, fun d hal hg hd => g.exec_descriptor hf haddr hal hg hd⟩⟩
      · rw [g.exec, State.tryIssue_full (s := s.at t) hf, State.at_tick]
      · rw [g.exec, State.tryIssue_misaligned (s := s.at t) hf haddr hal]
    · refine ⟨fun hgood => ?_, fun hbad => ?_, ?_⟩
      · rw [exec_matrixJobEnd_running hm ha hr, State.endRunning_good (by simpa [State.spaceGood_mxHeld] using hgood)]
      · rw [exec_matrixJobEnd_running hm ha hr, State.endRunning_bad (by simpa [State.spaceGood_mxHeld] using hbad)]
      · rw [exec_matrixJobEnd_running hm ha hr, State.endRunning_fault]

end Sys2Proof.Machine

namespace Sys2Proof.Machine

/-! ### Integer accumulation of a matrix job (R214, R216) -/

section IntegerAccumulation

/-- A wrapping step adds modulo 2^32: the accumulator's sign does not matter (R216). -/
theorem toNat_intStep_wrap (acc : W32) (x : Int) :
    ((intStep false acc x).1.toNat : Int) = ((acc.toNat : Int) + x) % 2 ^ 32 := by
  have hacc : asInt 32 acc.toNat % 2 ^ 32 = (acc.toNat : Int) % 2 ^ 32 := by
    have h := low_asInt (n := 32) (by decide) acc.toNat
    zify at h
    rwa [natCast_low] at h
  have hfit : low 32 (fitInt 32 false (asInt 32 acc.toNat + x)).1 = low 32 (asInt 32 acc.toNat + x) := by
    rw [fitInt_wrap, low_asInt (by decide), Nat.mod_eq_of_lt (low_lt 32 _)]
  calc ((intStep false acc x).1.toNat : Int)
      = low 32 (fitInt 32 false (asInt 32 acc.toNat + x)).1 := congrArg Nat.cast (toNat_laneOf le_rfl _)
    _ = (asInt 32 acc.toNat + x) % 2 ^ 32 := by rw [hfit, natCast_low]
    _ = ((acc.toNat : Int) + x) % 2 ^ 32 := by rw [Int.add_emod, hacc, ← Int.add_emod]

/-- Wrapping steps one after the other add the sum of their terms, modulo 2^32. -/
theorem toNat_foldl_intStep_wrap (acc : W32) (xs : List Int) :
    ((xs.foldl (fun a x => (intStep false a x).1) acc).toNat : Int) = ((acc.toNat : Int) + xs.sum) % 2 ^ 32 := by
  induction xs generalizing acc with
  | nil =>
    rw [List.foldl_nil, List.sum_nil, add_zero]
    exact_mod_cast (Nat.mod_eq_of_lt acc.isLt).symm
  | cons x xs ih => rw [List.foldl_cons, ih, toNat_intStep_wrap, Int.emod_add_emod, List.sum_cons, add_assoc]

/-- Outside the 4-bit formats a step takes one k (R214). -/
theorem kSteps_singletons {f : Nat} (len : Nat) (hf : fmt4 f = false) :
    kSteps f len = (List.range len).map fun k => [k] := by
  rw [kSteps, hf, if_neg Bool.false_ne_true]

variable {m : Mem} {d : BitVec 512} {i j : Nat}

/-- The word an integer job accumulates is its integer steps one after the other; the flags do not enter it. -/
theorem accumulate_int (acc : W32) (hint : mxInt d = true) :
    (accumulate m d i j acc).1 =
      ((kSteps (mxAFmt d) (mxK d)).map fun ks => (ks.map (intProd m d i j)).sum).foldl
        (fun a x => (intStep (mxSat d) a x).1) acc := by
  simp only [accumulate, hint, if_true, List.foldl_map]
  exact (List.foldl_hom Prod.fst fun _ _ => rfl).symm

end IntegerAccumulation

/-- Settles O43: an INT8 job's steps are its products one by one, and each step adds modulo 2^32. -/
theorem integerAccumulation : Obligations.IntegerAccumulation := by
  unfold Obligations.IntegerAccumulation
  intro m d i j acc hfmt hsat
  have hint : mxInt d = true := by rw [mxInt, hfmt]; rfl
  have hsteps : ((kSteps (mxAFmt d) (mxK d)).map fun ks => (ks.map (intProd m d i j)).sum) =
      (List.range (mxK d)).map fun k => intProd m d i j k := by
    simp [hfmt, kSteps_singletons (f := 4) (mxK d) rfl]
  rw [accumulate_int acc hint, hsat, toNat_foldl_intStep_wrap, hsteps]

end Sys2Proof.Machine

namespace Sys2Proof.Machine

/-! ### Flow records: fields and what an update leaves in them (R255, R258, R259) -/

section FlowRecords

variable {r r' lo w hi i n : Nat}

/-- A replaced field stands between the bits above it and the bits below it. -/
theorem putBits_eq (r lo w v : Nat) :
    putBits r lo w v = 2 ^ lo * (2 ^ w * (r / 2 ^ lo / 2 ^ w) + v % 2 ^ w) + r % 2 ^ lo := by
  have hr : 2 ^ lo * (r / 2 ^ lo) + r % 2 ^ lo = r := Nat.div_add_mod r (2 ^ lo)
  have hq : 2 ^ w * (r / 2 ^ lo / 2 ^ w) + r / 2 ^ lo % 2 ^ w = r / 2 ^ lo := Nat.div_add_mod _ (2 ^ w)
  have hold : r = 2 ^ lo * (2 ^ w * (r / 2 ^ lo / 2 ^ w)) + r / 2 ^ lo % 2 ^ w * 2 ^ lo + r % 2 ^ lo := by
    rw [Nat.mul_comm (r / 2 ^ lo % 2 ^ w), ← Nat.mul_add, hq, hr]
  rw [putBits, Nat.mul_add, Nat.mul_comm _ (v % 2 ^ w)]
  omega

/-- A field reads back what was set, cut to its width. -/
theorem bitsOf_setF (h : hi + 1 = lo + w) (r v : Nat) : bitsOf (setF r lo w v) hi lo = v % 2 ^ w := by
  have hw : hi + 1 - lo = w := by omega
  have hbelow : r % 2 ^ lo / 2 ^ lo = 0 := Nat.div_eq_of_lt (Nat.mod_lt r (Nat.two_pow_pos lo))
  rw [bitsOf, hw, setF, putBits_eq, Nat.mul_add_div (Nat.two_pow_pos lo), hbelow, Nat.add_zero, Nat.mul_add_mod,
    Nat.mod_mod]

theorem bitsOf_setF_lt (h : hi + 1 = lo + w) (hn : n < 2 ^ w) (r : Nat) : bitsOf (setF r lo w n) hi lo = n := by
  rw [bitsOf_setF h, Nat.mod_eq_of_lt hn]

theorem bitsOf_bump (h : hi + 1 = lo + w) (r n : Nat) :
    bitsOf (bump r lo w n) hi lo = min (bitsOf r hi lo + n) (2 ^ w - 1) := by
  have hhi : lo + w - 1 = hi := by omega
  have hfit : satAdd w (bitsOf r hi lo) n < 2 ^ w :=
    (Nat.min_le_right _ _).trans_lt (Nat.sub_lt (Nat.two_pow_pos w) Nat.one_pos)
  rw [bump, hhi]
  exact bitsOf_setF_lt h hfit r

theorem bitsOf_lt (r hi lo : Nat) : bitsOf r hi lo < 2 ^ (hi + 1 - lo) := Nat.mod_lt _ (Nat.two_pow_pos _)

/-! #### What an update leaves of the other bits -/

theorem testBit_setF_of_outside (h : i < lo ∨ lo + w ≤ i) (r v : Nat) :
    (setF r lo w v).testBit i = r.testBit i := by
  rw [setF, putBits_eq, Nat.testBit_two_pow_mul_add _ (Nat.mod_lt r (Nat.two_pow_pos lo))]
  rcases h with hbelow | habove
  · rw [if_pos hbelow, Nat.testBit_mod_two_pow, decide_eq_true hbelow, Bool.true_and]
  · rw [if_neg (by omega), Nat.testBit_two_pow_mul_add _ (Nat.mod_lt v (Nat.two_pow_pos w)), if_neg (by omega),
      Nat.testBit_div_two_pow, Nat.testBit_div_two_pow]
    congr 1
    omega

theorem testBit_bump_of_outside (h : i < lo ∨ lo + w ≤ i) (r n : Nat) :
    (bump r lo w n).testBit i = r.testBit i :=
  testBit_setF_of_outside h r _

theorem div_two_pow_congr (h : ∀ i, lo ≤ i → r'.testBit i = r.testBit i) : r' / 2 ^ lo = r / 2 ^ lo :=
  Nat.eq_of_testBit_eq fun i => by
    rw [Nat.testBit_div_two_pow, Nat.testBit_div_two_pow, h _ (Nat.le_add_left lo i)]

theorem bitsOf_congr (h : ∀ i, lo ≤ i → i ≤ hi → r'.testBit i = r.testBit i) :
    bitsOf r' hi lo = bitsOf r hi lo := Nat.eq_of_testBit_eq fun i => by
  rw [bitsOf, bitsOf, Nat.testBit_mod_two_pow, Nat.testBit_mod_two_pow, Nat.testBit_div_two_pow,
    Nat.testBit_div_two_pow]
  by_cases hi' : i < hi + 1 - lo
  · rw [h (i + lo) (Nat.le_add_left lo i) (by omega)]
  · rw [decide_eq_false hi', Bool.false_and, Bool.false_and]

/-! #### The parts of an update, one after the other (R258) -/

variable (isNew : Bool) (f : Frame) (warm : Nat)

/-- Ticks, TTLs and inter-arrival times. -/
def recTimes (isNew : Bool) (f : Frame) (r : Nat) : Nat :=
  if isNew then
    setF (setF (setF (setF r 608 64 f.rxTick) 544 64 f.rxTick) 120 8 (f.field 407 400)) 112 8 (f.field 407 400)
  else
    let r := iatUpdate r (iatOf r f.rxTick)
    let r := setF r 544 64 (max (bitsOf r 607 544) f.rxTick)
    setF (setF r 120 8 (min (bitsOf r 127 120) (f.field 407 400))) 112 8
      (max (bitsOf r 119 112) (f.field 407 400))

/-- Packets, bytes and the bin of the frame's size. -/
def recCounts (f : Frame) (r : Nat) : Nat :=
  bump (bump (bump r 512 32 1) 464 48 f.len) (272 + 16 * sizeBin f.len) 16 1

/-- The counts of the TCP flags. -/
def recFlags (f : Frame) (r : Nat) : Nat :=
  if f.field 423 416 = 6 then
    (List.range 8).foldl (fun r i => if (f.field 415 408).testBit i then bump r (144 + 16 * i) 16 1 else r) r
  else r

/-- An update up to the warm mark: after the ticks and counts, the largest length and the TCP flags. -/
def recBody (isNew : Bool) (f : Frame) (r : Nat) : Nat :=
  let c := recCounts f (recTimes isNew f r)
  recFlags f (setF c 128 16 (max (bitsOf c 143 128) f.len))

/-- The warm mark. -/
def recWarm (warm r : Nat) : Nat := if warm ≤ bitsOf r 543 512 then setF r 47 1 1 else r

theorem recUpdate_eq (r : Nat) : recUpdate isNew warm f r = recWarm warm (recBody isNew f r) := rfl

theorem testBit_iatUpdate_of_outside (h : i < 400 ∨ 464 ≤ i) (r iat : Nat) :
    (iatUpdate r iat).testBit i = r.testBit i := by
  unfold iatUpdate
  dsimp only
  split <;> rw [testBit_setF_of_outside (by omega), testBit_setF_of_outside (by omega)]

theorem testBit_recTimes_of_outside (h : i < 112 ∨ (128 ≤ i ∧ i < 400) ∨ (464 ≤ i ∧ i < 544) ∨ 672 ≤ i)
    (r : Nat) :
    (recTimes isNew f r).testBit i = r.testBit i := by
  cases isNew
  case true =>
    rw [recTimes, if_pos rfl]
    simp (disch := omega) only [testBit_setF_of_outside]
  case false =>
    rw [recTimes, if_neg Bool.false_ne_true]
    simp (disch := omega) only [testBit_setF_of_outside, testBit_iatUpdate_of_outside]

theorem bitsOf_recTimes_firstTick (hf : f.rxTick < 2 ^ 64) (r : Nat) :
    bitsOf (recTimes true f r) 671 608 = f.rxTick :=
  calc bitsOf (recTimes true f r) 671 608
      = bitsOf (setF r 608 64 f.rxTick) 671 608 := bitsOf_congr fun i hlo _ => by
        rw [recTimes, if_pos rfl]
        simp (disch := omega) only [testBit_setF_of_outside]
    _ = f.rxTick := bitsOf_setF_lt (by decide) hf r

/-- For a record that there was, the later of two ticks stands. -/
theorem bitsOf_recTimes_lastTick (hf : f.rxTick < 2 ^ 64) (r : Nat) :
    bitsOf (recTimes false f r) 607 544 = max (bitsOf r 607 544) f.rxTick := by
  have hiat : bitsOf (iatUpdate r (iatOf r f.rxTick)) 607 544 = bitsOf r 607 544 :=
    bitsOf_congr fun i hlo _ => testBit_iatUpdate_of_outside (by omega) r _
  calc bitsOf (recTimes false f r) 607 544
      = bitsOf (setF (iatUpdate r (iatOf r f.rxTick)) 544 64
          (max (bitsOf (iatUpdate r (iatOf r f.rxTick)) 607 544) f.rxTick)) 607 544 :=
        bitsOf_congr fun i hlo _ => by
          rw [recTimes, if_neg Bool.false_ne_true]
          simp (disch := omega) only [testBit_setF_of_outside]
    _ = max (bitsOf r 607 544) f.rxTick := by
        rw [hiat]
        exact bitsOf_setF_lt (by decide) (max_lt (bitsOf_lt r 607 544) hf) _

theorem sizeBin_le (n : Nat) : sizeBin n ≤ 7 := List.length_filter_le _ _

theorem testBit_recCounts_of_outside (h : i < 272 ∨ (400 ≤ i ∧ i < 464) ∨ 544 ≤ i) (r : Nat) :
    (recCounts f r).testBit i = r.testBit i := by
  have hbin := sizeBin_le f.len
  rw [recCounts, testBit_bump_of_outside (by omega), testBit_bump_of_outside (by omega),
    testBit_bump_of_outside (by omega)]

theorem bitsOf_recCounts_packets (r : Nat) :
    bitsOf (recCounts f r) 543 512 = min (bitsOf r 543 512 + 1) (2 ^ 32 - 1) := by
  have hbin := sizeBin_le f.len
  calc bitsOf (recCounts f r) 543 512
      = bitsOf (bump r 512 32 1) 543 512 := bitsOf_congr fun i hlo _ => by
        rw [recCounts, testBit_bump_of_outside (by omega), testBit_bump_of_outside (by omega)]
    _ = min (bitsOf r 543 512 + 1) (2 ^ 32 - 1) := bitsOf_bump (by decide) r 1

theorem bitsOf_recCounts_bytes (r : Nat) :
    bitsOf (recCounts f r) 511 464 = min (bitsOf r 511 464 + f.len) (2 ^ 48 - 1) := by
  have hbin := sizeBin_le f.len
  have hpkts : bitsOf (bump r 512 32 1) 511 464 = bitsOf r 511 464 :=
    bitsOf_congr fun i _ hhi => testBit_bump_of_outside (by omega) r 1
  calc bitsOf (recCounts f r) 511 464
      = bitsOf (bump (bump r 512 32 1) 464 48 f.len) 511 464 := bitsOf_congr fun i hlo _ => by
        rw [recCounts, testBit_bump_of_outside (by omega)]
    _ = min (bitsOf r 511 464 + f.len) (2 ^ 48 - 1) := by rw [bitsOf_bump (by decide), hpkts]

theorem testBit_recFlags_of_outside (h : i < 144 ∨ 272 ≤ i) (r : Nat) :
    (recFlags f r).testBit i = r.testBit i := by
  unfold recFlags
  split
  · refine List.foldlRecOn (motive := fun x : Nat => x.testBit i = r.testBit i) _ _ rfl fun x hx flag hflag => ?_
    have hflag8 : flag < 8 := List.mem_range.1 hflag
    split
    · exact (testBit_bump_of_outside (by omega) x 1).trans hx
    · exact hx
  · rfl

/-- After the counts, only the largest length and the flags' counts change. -/
theorem testBit_recBody_of_outside (h : i < 128 ∨ 272 ≤ i) (r : Nat) :
    (recBody isNew f r).testBit i = (recCounts f (recTimes isNew f r)).testBit i := by
  unfold recBody
  dsimp only
  rw [testBit_recFlags_of_outside _ (by omega), testBit_setF_of_outside (by omega)]

/-- The key and the bits below the TTLs: nothing before the warm mark writes there. -/
theorem testBit_recBody_of_kept (h : i < 112 ∨ 672 ≤ i) (r : Nat) :
    (recBody isNew f r).testBit i = r.testBit i := by
  rw [testBit_recBody_of_outside _ _ (by omega), testBit_recCounts_of_outside _ (by omega),
    testBit_recTimes_of_outside _ _ (by omega)]

theorem bitsOf_recBody_packets (r : Nat) :
    bitsOf (recBody isNew f r) 543 512 = min (bitsOf r 543 512 + 1) (2 ^ 32 - 1) := by
  rw [bitsOf_congr fun i hlo _ => testBit_recBody_of_outside isNew f (by omega) r, bitsOf_recCounts_packets,
    bitsOf_congr fun i hlo hhi => testBit_recTimes_of_outside isNew f (by omega) r]

theorem bitsOf_recBody_bytes (r : Nat) :
    bitsOf (recBody isNew f r) 511 464 = min (bitsOf r 511 464 + f.len) (2 ^ 48 - 1) := by
  rw [bitsOf_congr fun i hlo _ => testBit_recBody_of_outside isNew f (by omega) r, bitsOf_recCounts_bytes,
    bitsOf_congr fun i hlo hhi => testBit_recTimes_of_outside isNew f (by omega) r]

theorem bitsOf_recBody_sizeMax (hf : f.len < 2 ^ 16) (r : Nat) :
    bitsOf (recBody isNew f r) 143 128 = max (bitsOf r 143 128) f.len := by
  have hcounts : bitsOf (recCounts f (recTimes isNew f r)) 143 128 = bitsOf r 143 128 :=
    bitsOf_congr fun i hlo hhi => by
      rw [testBit_recCounts_of_outside _ (by omega), testBit_recTimes_of_outside _ _ (by omega)]
  unfold recBody
  dsimp only
  rw [bitsOf_congr fun i _ hhi => testBit_recFlags_of_outside f (by omega) _, hcounts]
  exact bitsOf_setF_lt (by decide) (max_lt (bitsOf_lt r 143 128) hf) _

/-- The ticks are those that the first part set. -/
theorem bitsOf_recBody_ticks (hlo : 544 ≤ lo) (r : Nat) :
    bitsOf (recBody isNew f r) hi lo = bitsOf (recTimes isNew f r) hi lo :=
  bitsOf_congr fun i hi' _ => by
    rw [testBit_recBody_of_outside _ _ (by omega), testBit_recCounts_of_outside _ (by omega)]

theorem testBit_recWarm_of_ne (h : i ≠ 47) (r : Nat) : (recWarm warm r).testBit i = r.testBit i := by
  unfold recWarm
  split
  · exact testBit_setF_of_outside (by omega) r 1
  · rfl

theorem bitsOf_recWarm (h : 47 < lo) (r : Nat) : bitsOf (recWarm warm r) hi lo = bitsOf r hi lo :=
  bitsOf_congr fun i hlo _ => testBit_recWarm_of_ne warm (by omega) r

theorem testBit_setF_bit (b r : Nat) : (setF r b 1 1).testBit b = true := by
  have hbit : bitsOf (setF r b 1 1) b b = 1 := bitsOf_setF_lt rfl Nat.one_lt_two r
  rw [bitsOf, Nat.add_sub_cancel_left] at hbit
  rw [Nat.testBit_eq_decide_div_mod_eq]
  exact decide_eq_true hbit

/-- A record is warm that was, or that has packets enough (R259). -/
theorem testBit_recWarm (r : Nat) :
    (recWarm warm r).testBit 47 = true ↔ r.testBit 47 = true ∨ warm ≤ bitsOf r 543 512 := by
  unfold recWarm
  split
  case isTrue h => exact iff_of_true (testBit_setF_bit 47 r) (.inr h)
  case isFalse h => exact (or_iff_left h).symm

end FlowRecords

/-! ### The settings of `FLOW_TABLE_CONFIG` (R259) -/

section WarmSetting

variable {r : SetRec} {s : State}

theorem scopeIn_pass {n : Nat} (h : r.scope < n) (k : Option Status) : scopeIn r n k = k :=
  if_neg (Nat.not_le.2 h)

theorem inRange_eq_none {lo hi : Nat} : inRange r lo hi = none ↔ lo ≤ r.value ∧ r.value ≤ hi := by
  simp [inRange]

theorem State.pipe_modPipe_ne {k p : Nat} (f : Pipeline → Pipeline) (h : k ≠ p) :
    (s.modPipe p f).pipe k = s.pipe k := tgetD_tup_ne s.cls.pipes {} f h

theorem flowChk_warm (hid : r.id = 2) (hscope : r.scope < 2) : flowChk s r = none ↔ r.value ≤ 255 := by
  simp only [flowChk, hid]
  rw [scopeIn_pass hscope, inRange_eq_none]
  exact and_iff_right (Nat.zero_le _)

theorem flowApply_warm (hid : r.id = 2) :
    flowApply s r = s.modPipe r.scope fun p => { p with warmPkts := r.value } := by
  simp only [flowApply, hid]

end WarmSetting

/-- Settles O28: each part of an update writes its own fields, and no part after it touches them. -/
theorem flowRecordUpdate : Obligations.FlowRecordUpdate := by
  unfold Obligations.FlowRecordUpdate
  intro isNew warm f r _ htick hlen
  rw [recUpdate_eq, bitsOf_recWarm _ (by decide), bitsOf_recWarm _ (by decide), bitsOf_recWarm _ (by decide),
    bitsOf_recWarm _ (by decide), bitsOf_recWarm _ (by decide)]
  refine ⟨bitsOf_recBody_packets isNew f r, bitsOf_recBody_bytes isNew f r, div_two_pow_congr fun i hi => ?key,
    bitsOf_recBody_sizeMax isNew f hlen r, ?lastTick, ?firstTick⟩
  case key => rw [testBit_recWarm_of_ne _ (by omega), testBit_recBody_of_kept _ _ (.inr hi)]
  case lastTick =>
    rintro rfl
    rw [bitsOf_recBody_ticks _ _ le_rfl, bitsOf_recTimes_lastTick f htick]
    exact le_max_left _ _
  case firstTick =>
    rintro rfl
    rw [bitsOf_recBody_ticks _ _ (by decide), bitsOf_recTimes_firstTick f htick]

/-- Settles O29: the warm mark is the last thing an update sets, from the packets that stand by then. -/
theorem flowWarmPackets : Obligations.FlowWarmPackets := by
  unfold Obligations.FlowWarmPackets
  refine ⟨fun _ => rfl, fun r s hid _ _ hscope => ⟨flowChk_warm hid hscope, ?set, ?others⟩,
    fun isNew warm f r _ _ _ => ?mark⟩
  case set => rw [flowApply_warm hid, State.pipe_modPipe]
  case others =>
    intro k hk
    rw [flowApply_warm hid, State.pipe_modPipe_ne _ hk]
  case mark =>
    rw [recUpdate_eq, testBit_recWarm, bitsOf_recWarm _ (by decide), testBit_recBody_of_kept _ _ (by decide)]
    exact ⟨Iff.rfl, fun h => .inr (h ▸ Nat.zero_le _)⟩

end Sys2Proof.Machine

namespace Sys2Proof.Machine

/-! ### Steps keep a good state (R327, R416, R419, R446, R457) -/

section GoodSteps

variable {q : List Instr} {f : Fuses} {s s' : State}

/-- A good state that keeps a queue, and fuses but for an anti-rollback counter that has not fallen (R416). -/
def SoundRaised (q : List Instr) (f : Fuses) (s : State) : Prop :=
  ∃ n, f.svn ≤ n ∧ Sound q { f with svn := n } s

theorem SoundRaised.good (h : SoundRaised q f s) : s.Good :=
  let ⟨_, _, hs⟩ := h
  hs.good

/-- What an outcome answers is sound, but for an anti-rollback counter that may have risen. -/
def RaisedOut (q : List Instr) (f : Fuses) (o : Host.Outcome State Fault Refusal) : Prop :=
  ∀ s', o = .next s' → SoundRaised q f s'

theorem SoundOut.raised {o : Host.Outcome State Fault Refusal} (h : SoundOut q f o) : RaisedOut q f o :=
  fun s' ho => ⟨f.svn, le_rfl, h s' ho⟩

/-- Every command keeps a good state; only `UPDATE_CONFIRM` touches a fuse, the anti-rollback counter, which it
raises (R414, R416). -/
theorem exec_sound (hs : Sound q f s) (i : Instr) : RaisedOut q f (exec i s) :=
  match i with
  | .deviceReset .. => (execDeviceReset_sound hs).raised
  | .deviceResetTest .. => (execDeviceResetTest_sound hs).raised
  | .deviceShutdown .. => (execDeviceShutdown_sound hs).raised
  | .powerConfig .. => (execPowerConfig_sound hs).raised
  | .settingsReadForm .. => (execSettingsReadForm_sound hs).raised
  | .bypassForce .. => (execBypassForce_sound hs).raised
  | .bypassReleaseForce .. => (execBypassReleaseForce_sound hs).raised
  | .bypassRearm .. => (execBypassRearm_sound hs).raised
  | .partitionReinit .. => (execPartitionReinit_sound hs).raised
  | .partitionEnable .. => (execPartitionEnable_sound hs).raised
  | .partitionDisable .. => (execPartitionDisable_sound hs).raised
  | .partitionConfig .. => (execPartitionConfig_sound hs).raised
  | .partitionQuery .. => (execPartitionQuery_sound hs).raised
  | .clusterAssign .. => (execClusterAssign_sound hs).raised
  | .clusterConfig .. => (execClusterConfig_sound hs).raised
  | .coreMapRead .. => (execCoreMapRead_sound hs).raised
  | .ringCreate .. => (execRingCreate_sound hs).raised
  | .ringConfig .. => (execRingConfig_sound hs).raised
  | .ringAttach .. => (execRingAttach_sound hs).raised
  | .ringDetach .. => (execRingDetach_sound hs).raised
  | .ringDestroy .. => (execRingDestroy_sound hs).raised
  | .ringQuery .. => (execRingQuery_sound hs).raised
  | .ringRepush .. => (execRingRepush_sound hs).raised
  | .barrier .. => (execBarrier_sound hs).raised
  | .slotQuery .. => (execSlotQuery_sound hs).raised
  | .portConfig .. => (execPortConfig_sound hs).raised
  | .portDrain .. => (execPortDrain_sound hs).raised
  | .portResume .. => (execPortResume_sound hs).raised
  | .portStatus .. => (execPortStatus_sound hs).raised
  | .portTxFrame .. => (execPortTxFrame_sound hs).raised
  | .macsecSaInstall .. => (execMacsecSaInstall_sound hs).raised
  | .macsecSaRemove .. => (execMacsecSaRemove_sound hs).raised
  | .windowOpen .. => (execWindowOpen_sound hs).raised
  | .windowClose .. => (execWindowClose_sound hs).raised
  | .bfdSessionSet .. => (execBfdSessionSet_sound hs).raised
  | .bfdSessionRemove .. => (execBfdSessionRemove_sound hs).raised
  | .timeRead .. => (execTimeRead_sound hs).raised
  | .ptpConfig .. => (execPtpConfig_sound hs).raised
  | .parseLoad .. => (execParseLoad_sound hs).raised
  | .parseCommit .. => (execParseCommit_sound hs).raised
  | .parseConfig .. => (execParseConfig_sound hs).raised
  | .spreadConfig .. => (execSpreadConfig_sound hs).raised
  | .patternLoad .. => (execPatternLoad_sound hs).raised
  | .classConfig .. => (execClassConfig_sound hs).raised
  | .ruleWrite .. => (execRuleWrite_sound hs).raised
  | .ruleRead .. => (execRuleRead_sound hs).raised
  | .prefixAdd .. => (execPrefixAdd_sound hs).raised
  | .prefixDel .. => (execPrefixDel_sound hs).raised
  | .prefixRead .. => (execPrefixRead_sound hs).raised
  | .macStaticAdd .. => (execMacStaticAdd_sound hs).raised
  | .macStaticRemove .. => (execMacStaticRemove_sound hs).raised
  | .macRead .. => (execMacRead_sound hs).raised
  | .macFlush .. => (execMacFlush_sound hs).raised
  | .flowDelete .. => (execFlowDelete_sound hs).raised
  | .flowRead .. => (execFlowRead_sound hs).raised
  | .flowTableConfig .. => (execFlowTableConfig_sound hs).raised
  | .egressConfig .. => (execEgressConfig_sound hs).raised
  | .policerConfig .. => (execPolicerConfig_sound hs).raised
  | .gateListSet .. => (execGateListSet_sound hs).raised
  | .gateListRemove .. => (execGateListRemove_sound hs).raised
  | .queueStats .. => (execQueueStats_sound hs).raised
  | .queueStatsClear .. => (execQueueStatsClear_sound hs).raised
  | .baselineCreate .. => (execBaselineCreate_sound hs).raised
  | .baselineChange .. => (execBaselineChange_sound hs).raised
  | .baselineDelete .. => (execBaselineDelete_sound hs).raised
  | .baselineRead .. => (execBaselineRead_sound hs).raised
  | .ftableCreate .. => (execFtableCreate_sound hs).raised
  | .ftableDestroy .. => (execFtableDestroy_sound hs).raised
  | .ftableQuery .. => (execFtableQuery_sound hs).raised
  | .generationStage .. => (execGenerationStage_sound hs).raised
  | .generationSeal .. => (execGenerationSeal_sound hs).raised
  | .generationCommit .. => (execGenerationCommit_sound hs).raised
  | .generationCommitBind .. => (execGenerationCommitBind_sound hs).raised
  | .generationDrop .. => (execGenerationDrop_sound hs).raised
  | .modelStage .. => (execModelStage_sound hs).raised
  | .modelRemove .. => (execModelRemove_sound hs).raised
  | .modelAbort .. => (execModelAbort_sound hs).raised
  | .modelCommit .. => (execModelCommit_sound hs).raised
  | .modelCommitWait .. => (execModelCommitWait_sound hs).raised
  | .modelQuery .. => (execModelQuery_sound hs).raised
  | .kernelLoad .. => (execKernelLoad_sound hs).raised
  | .kernelUnload .. => (execKernelUnload_sound hs).raised
  | .kernelLaunch .. => (execKernelLaunch_sound hs).raised
  | .memConfig .. => (execMemConfig_sound hs).raised
  | .memRetire .. => (execMemRetire_sound hs).raised
  | .fabricConfig .. => (execFabricConfig_sound hs).raised
  | .fabricLeave .. => (execFabricLeave_sound hs).raised
  | .fabricRelease .. => (execFabricRelease_sound hs).raised
  | .fabricWatchAdd .. => (execFabricWatchAdd_sound hs).raised
  | .fabricWatchRemove .. => (execFabricWatchRemove_sound hs).raised
  | .fabricStatus .. => (execFabricStatus_sound hs).raised
  | .counterRead .. => (execCounterRead_sound hs).raised
  | .counterReadClear .. => (execCounterReadClear_sound hs).raised
  | .rosemaryRead .. => (execRosemaryRead_sound hs).raised
  | .rosemaryFreeze .. => (execRosemaryFreeze_sound hs).raised
  | .rosemaryUnfreeze .. => (execRosemaryUnfreeze_sound hs).raised
  | .rosemaryClear .. => (execRosemaryClear_sound hs).raised
  | .traceConfig .. => (execTraceConfig_sound hs).raised
  | .traceMarkBegin .. => (execTraceMarkBegin_sound hs).raised
  | .traceMarkEnd .. => (execTraceMarkEnd_sound hs).raised
  | .waitforRead .. => (execWaitforRead_sound hs).raised
  | .quiesce .. => (execQuiesce_sound hs).raised
  | .quiesceRelease .. => (execQuiesceRelease_sound hs).raised
  | .globalStop .. => (execGlobalStop_sound hs).raised
  | .globalResume .. => (execGlobalResume_sound hs).raised
  | .updateOpen .. => (execUpdateOpen_sound hs).raised
  | .updateData .. => (execUpdateData_sound hs).raised
  | .updateFinish .. => (execUpdateFinish_sound hs).raised
  | .updateActivate .. => (execUpdateActivate_sound hs).raised
  | .updateConfirm .. => execUpdateConfirm_sound hs
  | .updateRollback .. => (execUpdateRollback_sound hs).raised
  | .updateAbort .. => (execUpdateAbort_sound hs).raised
  | .updateStatus .. => (execUpdateStatus_sound hs).raised
  | .attest .. => (execAttest_sound hs).raised
  | .certRead .. => (execCertRead_sound hs).raised
  | .sessionKeySet .. => (execSessionKeySet_sound hs).raised
  | .rightsSet .. => (execRightsSet_sound hs).raised
  | .debugUnlock .. => (execDebugUnlock_sound hs).raised
  | .bootStatus .. => (execBootStatus_sound hs).raised
  | .settingsSync .. => (execSettingsSync_sound hs).raised
  | .logRead .. => (execLogRead_sound hs).raised
  | .commandTimeout .. => (execCommandTimeout_sound hs).raised
  | .hello .. => (execHello_sound hs).raised
  | .helloPartExpiry .. => (execHelloPartExpiry_sound hs).raised
  | .keyFetch .. => (execKeyFetch_sound hs).raised
  | .ringWrite .. => (execRingWrite_sound hs).raised
  | .doorbellProduce .. => (execDoorbellProduce_sound hs).raised
  | .doorbellRelease .. => (execDoorbellRelease_sound hs).raised
  | .mboxReq .. => (execMboxReq_sound hs).raised
  | .winWrite .. => (execWinWrite_sound hs).raised
  | .winRead .. => (execWinRead_sound hs).raised
  | .flowTableLockSet .. => (execFlowTableLockSet_sound hs).raised
  | .flowTableLockClear .. => (execFlowTableLockClear_sound hs).raised
  | .hostClose _ _ status => (execHostClose_sound (_status := status) hs).raised
  | .sessionIdleTimeout .. => (execSessionIdleTimeout_sound hs).raised
  | .ackSend .. => (execAckSend_sound hs).raised
  | .creditAck .. => (execCreditAck_sound hs).raised
  | .ringPush .. => (execRingPush_sound hs).raised
  | .contextFetch .. => (execContextFetch_sound hs).raised
  | .requestAdmit .. => (execRequestAdmit_sound hs).raised
  | .slotWaitExpiry .. => (execSlotWaitExpiry_sound hs).raised
  | .fenceEntry .. => (execFenceEntry_sound hs).raised
  | .fenceComplete .. => (execFenceComplete_sound hs).raised
  | .nopEntry .. => (execNopEntry_sound hs).raised
  | .commandEntry .. => (execCommandEntry_sound hs).raised
  | .ringFullStallExpiry .. => (execRingFullStallExpiry_sound hs).raised
  | .frameReceive .. => (execFrameReceive_sound hs).raised
  | .pfcReceive .. => (execPfcReceive_sound hs).raised
  | .arpNdEcho .. => (execArpNdEcho_sound hs).raised
  | .chiveParse .. => (execChiveParse_sound hs).raised
  | .chiveGroupRewrite .. => (execChiveGroupRewrite_sound hs).raised
  | .classify .. => (execClassify_sound hs).raised
  | .flowMissComplete .. => (execFlowMissComplete_sound hs).raised
  | .reverseLookupDone .. => (execReverseLookupDone_sound hs).raised
  | .packetModelWalk .. => (execPacketModelWalk_sound hs).raised
  | .pmWaitExpiry .. => (execPmWaitExpiry_sound hs).raised
  | .patternScanStart .. => (execPatternScanStart_sound hs).raised
  | .patternScanEnd .. => (execPatternScanEnd_sound hs).raised
  | .egressDecision .. => (execEgressDecision_sound hs).raised
  | .egHoldExpiry .. => (execEgHoldExpiry_sound hs).raised
  | .transmitSelect .. => (execTransmitSelect_sound hs).raised
  | .gateEntryAdvance .. => (execGateEntryAdvance_sound hs).raised
  | .gateListStart .. => (execGateListStart_sound hs).raised
  | .laneFail .. => (execLaneFail_sound hs).raised
  | .fallbackTimeout .. => (execFallbackTimeout_sound hs).raised
  | .linkUp .. => (execLinkUp_sound hs).raised
  | .linkDown .. => (execLinkDown_sound hs).raised
  | .bypassLinkTimeout .. => (execBypassLinkTimeout_sound hs).raised
  | .bypassRetryExpiry .. => (execBypassRetryExpiry_sound hs).raised
  | .bypassHoldExpiry .. => (execBypassHoldExpiry_sound hs).raised
  | .drainComplete .. => (execDrainComplete_sound hs).raised
  | .drainTimeout .. => (execDrainTimeout_sound hs).raised
  | .ptpMessageReceive .. => (execPtpMessageReceive_sound hs).raised
  | .ppsInEdge .. => (execPpsInEdge_sound hs).raised
  | .ppsOutPulse .. => (execPpsOutPulse_sound hs).raised
  | .bfdReceive .. => (execBfdReceive_sound hs).raised
  | .bfdTxTimer .. => (execBfdTxTimer_sound hs).raised
  | .bfdDetectTimeout .. => (execBfdDetectTimeout_sound hs).raised
  | .slotRunning .. => (execSlotRunning_sound hs).raised
  | .lookupJoinHold .. => (execLookupJoinHold_sound hs).raised
  | .localLookupDone .. => (execLocalLookupDone_sound hs).raised
  | .feLockRetry .. => (execFeLockRetry_sound hs).raised
  | .fetchEndTick .. => (execFetchEndTick_sound hs).raised
  | .walkComplete .. => (execWalkComplete_sound hs).raised
  | .shardRecopyDone .. => (execShardRecopyDone_sound hs).raised
  | .deadlineCutoff .. => (execDeadlineCutoff_sound hs).raised
  | .reduceGroupOpen .. => (execReduceGroupOpen_sound hs).raised
  | .reduceContribution .. => (execReduceContribution_sound hs).raised
  | .reduceCloseTick .. => (execReduceCloseTick_sound hs).raised
  | .kernelStart .. => (execKernelStart_sound hs).raised
  | .kernelImageLoadDone .. => (execKernelImageLoadDone_sound hs).raised
  | .kernelEnd .. => (execKernelEnd_sound hs).raised
  | .kernelMaxRunExpiry .. => (execKernelMaxRunExpiry_sound hs).raised
  | .vectorInstruction .. => (execVectorInstruction_sound hs).raised
  | .clusterStoreAtomic .. => (execClusterStoreAtomic_sound hs).raised
  | .clusterFence .. => (execClusterFence_sound hs).raised
  | .kernelMarkInsn .. => (execKernelMarkInsn_sound hs).raised
  | .dmaPost .. => (execDmaPost_sound hs).raised
  | .dmaComplete .. => (execDmaComplete_sound hs).raised
  | .matrixJobIssue .. => (execMatrixJobIssue_sound hs).raised
  | .matrixJobEnd .. => (execMatrixJobEnd_sound hs).raised
  | .reassignGraceExpiry .. => (execReassignGraceExpiry_sound hs).raised
  | .clusterResetDone .. => (execClusterResetDone_sound hs).raised
  | .rsUpdateDone .. => (execRsUpdateDone_sound hs).raised
  | .rsUpdateTimeout .. => (execRsUpdateTimeout_sound hs).raised
  | .baselineWindowClose .. => (execBaselineWindowClose_sound hs).raised
  | .generationRetire .. => (execGenerationRetire_sound hs).raised
  | .generationDropDone .. => (execGenerationDropDone_sound hs).raised
  | .epochRetire .. => (execEpochRetire_sound hs).raised
  | .modelCommitFlip .. => (execModelCommitFlip_sound hs).raised
  | .barrierComplete .. => (execBarrierComplete_sound hs).raised
  | .quiesceDone .. => (execQuiesceDone_sound hs).raised
  | .heartbeat .. => (execHeartbeat_sound hs).raised
  | .join .. => (execJoin_sound hs).raised
  | .joinReply .. => (execJoinReply_sound hs).raised
  | .view .. => (execView_sound hs).raised
  | .elect .. => (execElect_sound hs).raised
  | .lookup .. => (execLookup_sound hs).raised
  | .lookupReply .. => (execLookupReply_sound hs).raised
  | .put .. => (execPut_sound hs).raised
  | .putAck .. => (execPutAck_sound hs).raised
  | .fabricPost .. => (execFabricPost_sound hs).raised
  | .heartbeatSend .. => (execHeartbeatSend_sound hs).raised
  | .electSend .. => (execElectSend_sound hs).raised
  | .joinRetry .. => (execJoinRetry_sound hs).raised
  | .peerLossTimeout .. => (execPeerLossTimeout_sound hs).raised
  | .lostPeerProbe .. => (execLostPeerProbe_sound hs).raised
  | .lookupRto .. => (execLookupRto_sound hs).raised
  | .putRto .. => (execPutRto_sound hs).raised
  | .channelSuspectExpiry .. => (execChannelSuspectExpiry_sound hs).raised
  | .pwrgdRise .. => (execPwrgdRise_sound hs).raised
  | .pwrgdFall .. => (execPwrgdFall_sound hs).raised
  | .coldRstNFall .. => (execColdRstNFall_sound hs).raised
  | .coldRstNRise .. => (execColdRstNRise_sound hs).raised
  | .warmRstNFall .. => (execWarmRstNFall_sound hs).raised
  | .warmRstNRise .. => (execWarmRstNRise_sound hs).raised
  | .startWatchdogExpiry .. => (execStartWatchdogExpiry_sound hs).raised
  | .sdRefclkLoss .. => (execSdRefclkLoss_sound hs).raised
  | .sdRefclkReturn .. => (execSdRefclkReturn_sound hs).raised
  | .sysRefclkLoss .. => (execSysRefclkLoss_sound hs).raised
  | .freezeNFall .. => (execFreezeNFall_sound hs).raised
  | .freezeNRise .. => (execFreezeNRise_sound hs).raised
  | .jtagInstruction .. => (execJtagInstruction_sound hs).raised
  | .smbPwrCapWrite .. => (execSmbPwrCapWrite_sound hs).raised
  | .smbAlertStatusClear .. => (execSmbAlertStatusClear_sound hs).raised
  | .smbWriteRefused _ offset value => (execSmbWriteRefused_sound (offset := offset) (value := value) hs).raised
  | .clusterThermalStep .. => (execClusterThermalStep_sound hs).raised
  | .xDieHot .. => (execXDieHot_sound hs).raised
  | .thermtrip .. => (execThermtrip_sound hs).raised
  | .voltageDroop .. => (execVoltageDroop_sound hs).raised
  | .powerSample .. => (execPowerSample_sound hs).raised
  | .ceilingUpdate .. => (execCeilingUpdate_sound hs).raised
  | .timeBeacon .. => (execTimeBeacon_sound hs).raised
  | .flowAgingPass .. => (execFlowAgingPass_sound hs).raised
  | .macAgingPass .. => (execMacAgingPass_sound hs).raised
  | .macPinRelease .. => (execMacPinRelease_sound hs).raised
  | .ruleScrubPass .. => (execRuleScrubPass_sound hs).raised
  | .tableEntryRewrite .. => (execTableEntryRewrite_sound hs).raised
  | .patrolScrub .. => (execPatrolScrub_sound hs).raised
  | .sramScrub .. => (execSramScrub_sound hs).raised
  | .mr4Poll .. => (execMr4Poll_sound hs).raised
  | .oscillatorTrack .. => (execOscillatorTrack_sound hs).raised
  | .pageRetire .. => (execPageRetire_sound hs).raised
  | .linkFlitReceive .. => (execLinkFlitReceive_sound hs).raised
  | .dieSilentTimeout .. => (execDieSilentTimeout_sound hs).raised
  | .devResetRunClear .. => (execDevResetRunClear_sound hs).raised
  | .isainHeartbeatMiss .. => (execIsainHeartbeatMiss_sound hs).raised
  | .isainRestartDone .. => (execIsainRestartDone_sound hs).raised
  | .hungSlotScan .. => (execHungSlotScan_sound hs).raised
  | .reinitRevoke .. => (execReinitRevoke_sound hs).raised
  | .orphanSlotFree .. => (execOrphanSlotFree_sound hs).raised
  | .spareTest .. => (execSpareTest_sound hs).raised
  | .coreRetire .. => (execCoreRetire_sound hs).raised
  | .settingsAppend .. => (execSettingsAppend_sound hs).raised
  | .updateLockExpiry .. => (execUpdateLockExpiry_sound hs).raised
  | .rosemaryRecord .. => (execRosemaryRecord_sound hs).raised
  | .rosemaryLogCopy .. => (execRosemaryLogCopy_sound hs).raised
  | .dillDrain .. => (execDillDrain_sound hs).raised
  | .pfcPauseExpiry .. => (execPfcPauseExpiry_sound hs).raised
  | .flowLearnComplete .. => (execFlowLearnComplete_sound hs).raised
  | .deviceResetApply .. => (execDeviceResetApply_sound hs).raised
  | .wallTimeHoldover .. => (execWallTimeHoldover_sound hs).raised

theorem step_idle (h : s.pending = []) : step s = .next s := by rw [step, h]

theorem step_front {c : Instr} {rest : List Instr} (h : s.pending = c :: rest) :
    step s = exec c { s with pending := rest } := by rw [step, h]

theorem State.Good.sound (h : s.Good) : Sound s.pending s.fuses s := ⟨rfl, rfl, h⟩

/-- The queue is no part of what makes a state good. -/
theorem State.Good.dequeued (h : s.Good) (rest : List Instr) : ({ s with pending := rest } : State).Good :=
  ⟨h.mem, h.counters, h.rosemary⟩

theorem step_good (h : s.Good) (hstep : step s = .next s') : s'.Good := by
  cases hq : s.pending with
  | nil =>
    rw [step_idle hq] at hstep
    cases hstep
    exact h
  | cons c rest =>
    rw [step_front hq] at hstep
    exact (exec_sound (h.dequeued rest).sound c s' hstep).good

end GoodSteps

/-- Settles O4: every command keeps a good state, and a step is a command or nothing. -/
theorem goodKept : Obligations.GoodKept := by
  unfold Obligations.GoodKept
  exact fun _ _ => step_good

/-- Settles O1: the two cases of `step`. -/
theorem stepRunsFront : Obligations.StepRunsFront := by
  unfold Obligations.StepRunsFront
  exact ⟨fun _ _ _ => step_front, fun _ => step_idle⟩

/-- Settles O3: at reset memory, the counters and Rosemary are empty. -/
theorem resetIsGood : Obligations.ResetIsGood := by
  unfold Obligations.ResetIsGood
  exact ⟨rfl, (fun _ he => nomatch he : ∀ e ∈ [], _), Nat.zero_le _, List.Pairwise.nil,
    (fun _ hr => nomatch hr : ∀ r ∈ [], _)⟩

end Sys2Proof.Machine

namespace Sys2Proof.Machine

/-! ### Where a word lies (R323) -/

section WordPlaces

variable {o o' : Nat}

/-- A place gives back the word it is the place of. -/
theorem word_of_placeOf (o : Nat) :
    o / 4 = 128 * (4 * (3 * (placeOf o).row + (placeOf o).word / 128) + (placeOf o).channel) +
      (placeOf o).word % 128 := by
  simp only [placeOf]
  omega

/-- The bytes of one word have one place. -/
theorem placeOf_congr (h : o / 4 = o' / 4) : placeOf o = placeOf o' := by
  simp only [placeOf, WordPlace.mk.injEq]
  omega

theorem placeOf_eq_iff : placeOf o = placeOf o' ↔ o / 4 = o' / 4 :=
  ⟨fun h => by rw [word_of_placeOf o, word_of_placeOf o', h], placeOf_congr⟩

end WordPlaces

/-! ### The columns of the check bits (R324) -/

section Columns

theorem length_drawCols (order : Nat → Nat) : ∀ {n : Nat} (i : Nat) {l : List (BitVec 7)}, n ≤ l.length →
    (drawCols order n i l).length = n
  | 0, _, _, _ => rfl
  | n + 1, i, l, h => by
    have hlt : order i % l.length < l.length := Nat.mod_lt _ (by omega)
    rw [drawCols, List.getElem?_eq_getElem hlt]
    have herase := List.length_erase_of_mem (List.getElem_mem hlt)
    exact congrArg (· + 1) (length_drawCols order (i + 1) (by omega))

theorem drawCols_subset (order : Nat → Nat) : ∀ (n i : Nat) (l : List (BitVec 7)), drawCols order n i l ⊆ l
  | 0, _, _ => List.nil_subset _
  | n + 1, i, l => by
    rw [drawCols]
    split
    · exact List.nil_subset _
    next c hc =>
      exact List.cons_subset.2 ⟨List.mem_of_getElem? hc,
        List.Subset.trans (drawCols_subset order n (i + 1) (l.erase c)) List.erase_subset⟩

theorem nodup_drawCols (order : Nat → Nat) : ∀ (n i : Nat) {l : List (BitVec 7)}, l.Nodup →
    (drawCols order n i l).Nodup
  | 0, _, _, _ => List.nodup_nil
  | n + 1, i, l, h => by
    rw [drawCols]
    split
    · exact List.nodup_nil
    next c _ =>
      exact List.nodup_cons.2 ⟨fun hc => h.not_mem_erase (drawCols_subset order n (i + 1) _ hc),
        nodup_drawCols order n (i + 1) (h.erase c)⟩

theorem length_dataCols : dataCols.length = 32 := length_drawCols _ 0 (by decide)

theorem nodup_dataCols : dataCols.Nodup := nodup_drawCols _ 32 0 (by decide)

theorem weight3_of_dataCols {c : BitVec 7} (h : c ∈ dataCols) : c ∈ weight3 := drawCols_subset _ 32 0 _ h

/-- The column of a data bit. -/
def dataCol (i : Nat) : BitVec 7 := dataCols[i]?.getD 0

theorem dataCols_getElem? {i : Nat} (h : i < 32) : dataCols[i]? = some (dataCol i) := by
  rw [dataCol, List.getElem?_eq_getElem (length_dataCols.symm ▸ h)]
  rfl

theorem dataCol_mem {i : Nat} (h : i < 32) : dataCol i ∈ dataCols := List.mem_of_getElem? (dataCols_getElem? h)

theorem dataCol_ne {i j : Nat} (hij : i < j) (hj : j < 32) : dataCol i ≠ dataCol j := fun h =>
  hij.ne ((List.getElem?_inj (length_dataCols.symm ▸ hij.trans hj) nodup_dataCols).1
    ((dataCols_getElem? (hij.trans hj)).trans (h ▸ (dataCols_getElem? hj).symm)))

end Columns

/-! ### The check bits of a word with flipped bits (R324) -/

section CheckBits

variable {d : W32} {i : Nat}

/-- The columns of a word's set bits, added, from bit `k` up. -/
def columnSum (d : W32) : Nat → List (BitVec 7) → BitVec 7
  | _, [] => 0
  | k, c :: r => (if d.getLsbD k then c else 0) ^^^ columnSum d (k + 1) r

theorem foldl_zipIdx_columns (d : W32) : ∀ (l : List (BitVec 7)) (k : Nat) (c : BitVec 7),
    (l.zipIdx k).foldl (fun c e => if d.getLsbD e.2 then c ^^^ e.1 else c) c = c ^^^ columnSum d k l
  | [], _, c => (BitVec.xor_zero (x := c)).symm
  | e :: l, k, c => by
    rw [List.zipIdx_cons, List.foldl_cons, foldl_zipIdx_columns d l, columnSum, ← BitVec.xor_assoc]
    cases d.getLsbD k <;> simp

theorem checkBits_eq_columnSum (d : W32) : checkBits d = columnSum d 0 dataCols := by
  rw [checkBits, foldl_zipIdx_columns]
  exact BitVec.zero_xor

/-- The bits of a word with one set bit. -/
theorem getLsbD_oneBit {w k : Nat} (h : i < w) : ((1 <<< i : Nat) : BitVec w).getLsbD k = decide (k = i) := by
  rw [BitVec.natCast_eq_ofNat, BitVec.getLsbD_ofNat, Nat.shiftLeft_eq, Nat.one_mul, Nat.testBit_two_pow]
  rcases eq_or_ne k i with rfl | hk
  · simp [h]
  · simp [hk, hk.symm]

/-- A flipped bit adds its column, where it is one of those summed. -/
theorem columnSum_flip (h : i < 32) : ∀ (l : List (BitVec 7)) (k : Nat),
    columnSum (d ^^^ (1 <<< i)) k l = columnSum d k l ^^^ (if k ≤ i then l[i - k]?.getD 0 else 0)
  | [], k => by simp [columnSum]
  | c :: l, k => by
    rw [columnSum, columnSum, columnSum_flip h l, BitVec.getLsbD_xor, getLsbD_oneBit h]
    rcases lt_trichotomy k i with hk | rfl | hk
    · have hsub : i - k = (i - (k + 1)) + 1 := by omega
      simp [hk.ne, hk.le, Nat.succ_le_of_lt hk, hsub, BitVec.xor_assoc]
    · simp only [decide_true, Bool.xor_true, Nat.not_succ_le_self, if_false, le_refl, if_true, Nat.sub_self,
        List.getElem?_cons_zero, Option.getD_some]
      cases d.getLsbD k <;> simp [BitVec.xor_comm c]
    · simp [hk.ne', hk.not_ge, Nat.not_le.2 (Nat.lt_succ_of_lt hk)]

theorem checkBits_flip (h : i < 32) : checkBits (d ^^^ (1 <<< i)) = checkBits d ^^^ dataCol i := by
  rw [checkBits_eq_columnSum, checkBits_eq_columnSum, columnSum_flip h]
  rfl

end CheckBits

/-! ### Columns of odd weight (R324) -/

section OddWeight

/-- An odd number of a column's bits is set. -/
def oddWeight (c : BitVec 7) : Bool := (List.range 7).foldl (fun p i => p ^^ c.getLsbD i) false

theorem foldl_xor_bits (a b : BitVec 7) : ∀ (l : List Nat) (p q : Bool),
    l.foldl (fun p i => p ^^ (a ^^^ b).getLsbD i) (p ^^ q) =
      (l.foldl (fun p i => p ^^ a.getLsbD i) p ^^ l.foldl (fun p i => p ^^ b.getLsbD i) q)
  | [], _, _ => rfl
  | i :: l, p, q => by
    rw [List.foldl_cons, List.foldl_cons, List.foldl_cons, ← foldl_xor_bits a b l, BitVec.getLsbD_xor]
    congr 1
    cases p <;> cases q <;> simp

theorem oddWeight_xor (a b : BitVec 7) : oddWeight (a ^^^ b) = (oddWeight a ^^ oddWeight b) :=
  foldl_xor_bits a b (List.range 7) false false

/-- The syndrome of one flipped check bit. -/
def unitCol (i : Nat) : BitVec 7 := ((1 <<< i : Nat) : BitVec 7)

/-- The syndromes of one flipped check bit. -/
def unitCols : List (BitVec 7) := [1, 2, 4, 8, 16, 32, 64]

theorem unitCol_mem : ∀ {i : Nat}, i < 7 → unitCol i ∈ unitCols := by decide

theorem unitCol_ne {i j : Nat} (hij : i < j) (hj : j < 7) : unitCol i ≠ unitCol j := fun h => by
  have hbit := congrArg (BitVec.getLsbD · i) h
  rw [unitCol, unitCol, getLsbD_oneBit hj, getLsbD_oneBit (hij.trans hj), decide_eq_false hij.ne,
    decide_eq_true rfl] at hbit
  exact absurd hbit (by decide)

theorem oddWeight_weight3 : ∀ c ∈ weight3, oddWeight c = true := by decide

theorem oddWeight_unitCols : ∀ c ∈ unitCols, oddWeight c = true := by decide

theorem oddWeight_dataCol {i : Nat} (h : i < 32) : oddWeight (dataCol i) = true :=
  oddWeight_weight3 _ (weight3_of_dataCols (dataCol_mem h))

theorem oddWeight_unitCol {i : Nat} (h : i < 7) : oddWeight (unitCol i) = true :=
  oddWeight_unitCols _ (unitCol_mem h)

/-- A column of a data bit is none of a check bit. -/
theorem dataCol_ne_unitCol {i j : Nat} (hi : i < 32) (hj : j < 7) : dataCol i ≠ unitCol j := fun h =>
  (by decide : ∀ u ∈ unitCols, u ∉ weight3) _ (unitCol_mem hj) (h ▸ weight3_of_dataCols (dataCol_mem hi))

end OddWeight

/-! ### What a read finds, by the syndrome (R324, R325) -/

section Syndromes

variable {d : W32} {c : Byte} {i j : Nat}

/-- The check bits as stored, less those of the data as read. -/
def syndrome (d : W32) (c : Byte) : BitVec 7 := c.extractLsb' 0 7 ^^^ checkBits d

theorem syndrome_flip_data (h : i < 32) : syndrome (d ^^^ (1 <<< i)) c = syndrome d c ^^^ dataCol i := by
  rw [syndrome, checkBits_flip h, ← BitVec.xor_assoc]
  rfl

theorem syndrome_flip_check (h : i < 7) : syndrome d (c ^^^ (1 <<< i)) = syndrome d c ^^^ unitCol i := by
  have hflip : (c ^^^ (1 <<< i)).extractLsb' 0 7 = c.extractLsb' 0 7 ^^^ unitCol i := by
    refine BitVec.eq_of_getLsbD_eq fun k hk => ?_
    rw [BitVec.getLsbD_xor, BitVec.getLsbD_extractLsb', BitVec.getLsbD_extractLsb', BitVec.getLsbD_xor, unitCol,
      getLsbD_oneBit h, getLsbD_oneBit (h.trans (by decide)), Nat.zero_add, decide_eq_true hk, Bool.true_and, Bool.true_and]
  rw [syndrome, hflip, BitVec.xor_assoc, BitVec.xor_comm (unitCol i), ← BitVec.xor_assoc]
  rfl

theorem flip_check_top (h : i < 7) : (c ^^^ (1 <<< i)).getLsbD 7 = c.getLsbD 7 := by
  rw [BitVec.getLsbD_xor, getLsbD_oneBit (h.trans (by decide)), decide_eq_false h.ne', Bool.xor_false]

theorem syndrome_flip_poison : syndrome d (c ^^^ 0x80) = syndrome d c := by
  have hsame : (c ^^^ 0x80).extractLsb' 0 7 = c.extractLsb' 0 7 := by
    rw [BitVec.extractLsb'_xor]
    exact BitVec.xor_zero
  rw [syndrome, hsame]
  rfl

theorem flip_poison_top : (c ^^^ 0x80).getLsbD 7 = !c.getLsbD 7 := BitVec.getLsbD_xor.trans (Bool.xor_true _)

theorem checkByte_top (d : W32) (p : Bool) : (checkByte d p).getLsbD 7 = p := by
  cases p
  · exact BitVec.getLsbD_append.trans rfl
  · exact BitVec.getLsbD_append.trans rfl

theorem syndrome_checkByte (d : W32) (p : Bool) : syndrome d (checkByte d p) = if p then 0x7F else 0 := by
  cases p
  · rw [syndrome, checkByte, if_neg Bool.false_ne_true, BitVec.extractLsb'_append_eq_right]
    exact BitVec.xor_self
  · rw [syndrome, checkByte, if_pos rfl, BitVec.extractLsb'_append_eq_right]
    refine BitVec.eq_of_getLsbD_eq fun k hk => ?_
    rw [BitVec.getLsbD_xor, BitVec.getLsbD_not, decide_eq_true hk, Bool.true_and, Bool.not_xor, Bool.xor_self]
    exact ((by decide : ∀ k < 7, true = (0x7F : BitVec 7).getLsbD k)) k hk

theorem readChecked_poison (hc : c.getLsbD 7 = true) :
    readChecked d c = (if syndrome d c = 0x7F then .poisoned else .uncorrectable, d) := if_pos hc

theorem readChecked_clean (hc : c.getLsbD 7 = false) (hs : syndrome d c = 0) : readChecked d c = (.clean, d) :=
  (if_neg (Bool.eq_false_iff.1 hc)).trans (if_pos hs)

theorem readChecked_column (hc : c.getLsbD 7 = false) (hi : i < 32) (hs : syndrome d c = dataCol i) :
    readChecked d c = (.corrected, d ^^^ (1 <<< i)) := by
  have hw : dataCol i ≠ 0 := fun h => absurd (h ▸ oddWeight_dataCol hi) (by decide)
  have hlen : i < dataCols.length := length_dataCols.symm ▸ hi
  have hcol : dataCols[i] = dataCol i := Option.some.inj ((List.getElem?_eq_getElem hlen).symm.trans (dataCols_getElem? hi))
  have hidx : dataCols.idxOf? (dataCol i) = some i :=
    List.idxOf?_eq_some_iff.2 ⟨hlen, hcol, fun j hj h => hj.ne ((nodup_dataCols.getElem_inj_iff).1 (h.trans hcol.symm))⟩
  unfold readChecked
  rw [show c.extractLsb' 0 7 ^^^ checkBits d = dataCol i from hs, if_neg (Bool.eq_false_iff.1 hc), if_neg hw, hidx]

/-- A syndrome that is no data bit's column. -/
theorem readChecked_other (hc : c.getLsbD 7 = false) {x : BitVec 7} (hs : syndrome d c = x) (h0 : x ≠ 0)
    (hx : x ∉ weight3) : readChecked d c = (if x ∈ unitCols then .corrected else .uncorrectable, d) := by
  have hidx : dataCols.idxOf? x = none := List.idxOf?_eq_none_iff.2 fun h => hx (weight3_of_dataCols h)
  unfold readChecked
  rw [show c.extractLsb' 0 7 ^^^ checkBits d = x from hs, if_neg (Bool.eq_false_iff.1 hc), if_neg h0, hidx]
  rfl

/-- Two columns of odd weight that differ add to one that no single flipped bit has. -/
theorem readChecked_two (hc : c.getLsbD 7 = false) {a b : BitVec 7} (hs : syndrome d c = a ^^^ b) (hab : a ≠ b)
    (ha : oddWeight a = true) (hb : oddWeight b = true) : (readChecked d c).1 = .uncorrectable := by
  have heven : oddWeight (a ^^^ b) = false := by rw [oddWeight_xor, ha, hb]; rfl
  have h0 : a ^^^ b ≠ 0 := fun h => hab (BitVec.xor_eq_zero_iff.1 h)
  rw [readChecked_other hc hs h0 fun h => by simp [oddWeight_weight3 _ h] at heven, if_neg]
  exact fun h => by simp [oddWeight_unitCols _ h] at heven

end Syndromes

/-- Settles O60: a word's place gives it back, and the syndrome of flipped bits is the sum of their columns, which
have odd weight and differ. -/
theorem wordsAndCheckBytes : Obligations.WordsAndCheckBytes := by
  unfold Obligations.WordsAndCheckBytes
  refine ⟨fun o o' => ⟨?_, ?_, rfl, ?_, placeOf_eq_iff, ?_⟩, length_dataCols, nodup_dataCols, fun d p =>
    ⟨?clean, ?poisoned, fun i hi => ?data, fun i hi => ?check, ?poisonBit, fun i j hij hj => ?twoData,
      fun i j hi hj => ?dataAndCheck, fun i j hij hj => ?twoCheck⟩⟩
  case clean => exact readChecked_clean (checkByte_top d _) (syndrome_checkByte d _)
  case poisoned => rw [readChecked_poison (checkByte_top d _), syndrome_checkByte]; rfl
  case data =>
    have hs : syndrome (d ^^^ (1 <<< i)) (checkByte d false) = dataCol i := by
      rw [syndrome_flip_data hi, syndrome_checkByte]; exact BitVec.zero_xor
    rw [readChecked_column (checkByte_top d _) hi hs, BitVec.xor_assoc, BitVec.xor_self, BitVec.xor_zero]
  case check =>
    have hs : syndrome d (checkByte d false ^^^ (1 <<< i)) = unitCol i := by
      rw [syndrome_flip_check hi, syndrome_checkByte]; exact BitVec.zero_xor
    obtain ⟨h0, hw⟩ := (by decide : ∀ u ∈ unitCols, u ≠ 0 ∧ u ∉ weight3) _ (unitCol_mem hi)
    rw [readChecked_other ((flip_check_top hi).trans (checkByte_top d _)) hs h0 hw, if_pos (unitCol_mem hi)]
  case poisonBit =>
    have htop := (flip_poison_top (c := checkByte d p)).trans (congrArg _ (checkByte_top d p))
    have hs := (syndrome_flip_poison (c := checkByte d p)).trans (syndrome_checkByte d p)
    cases p
    · rw [readChecked_poison htop, hs]; rfl
    · rw [readChecked_other htop hs (by decide) (by decide)]; rfl
  case twoData =>
    refine readChecked_two (checkByte_top d _) ?_ (dataCol_ne hij hj) (oddWeight_dataCol (hij.trans hj))
      (oddWeight_dataCol hj)
    rw [syndrome_flip_data hj, syndrome_flip_data (hij.trans hj), syndrome_checkByte]
    exact congrArg (· ^^^ _) BitVec.zero_xor
  case dataAndCheck =>
    refine readChecked_two ((flip_check_top hj).trans (checkByte_top d _)) ?_ (dataCol_ne_unitCol hi hj)
      (oddWeight_dataCol hi) (oddWeight_unitCol hj)
    rw [syndrome_flip_check hj, syndrome_flip_data hi, syndrome_checkByte]
    exact congrArg (· ^^^ _) BitVec.zero_xor
  case twoCheck =>
    refine readChecked_two ((flip_check_top hj).trans ((flip_check_top (hij.trans hj)).trans (checkByte_top d _))) ?_
      (unitCol_ne hij hj) (oddWeight_unitCol (hij.trans hj)) (oddWeight_unitCol hj)
    rw [syndrome_flip_check hj, syndrome_flip_check (hij.trans hj), syndrome_checkByte]
    exact congrArg (· ^^^ _) BitVec.zero_xor
  all_goals simp only [placeOf]; omega

end Sys2Proof.Machine

namespace Sys2Proof.Machine

/-! ### Bytes written to device memory (R5, R326) -/

section DeviceWrites

variable {s : State}

/-- A number written is read back, to the width written (R5). -/
theorem State.leAt_poke_leBytes (h : s.mem.wf = true) (a n v : Nat) :
    (s.poke a (leBytes n v)).leAt a n = v % 2 ^ (8 * n) := by
  have hread := State.bytesAt_poke h a (leBytes n v)
  rw [length_leBytes] at hread
  rw [State.leAt, hread, leNat_leBytes_mod]

end DeviceWrites

/-- Settles O45: what is put into a canonical memory is read back, and the rest stands. -/
theorem memoryWrites : Obligations.MemoryWrites := by
  unfold Obligations.MemoryWrites
  exact fun a s h => ⟨State.leAt_poke_leBytes h a, State.poke_other h a, State.poke_wf h a⟩

/-! ### The channel of a message (R346, R347) -/

section Channels

variable {s : State} {a c k : Nat}

/-- The channels in the order in which a message tries them: its own first (R347). -/
def channelOrder (c n : Nat) : List Nat := (List.range n).map fun i => (c + i) % n

theorem channelOrder_lt {n : Nat} (hk : k ∈ channelOrder c n) : k < n := by
  obtain ⟨i, hi, rfl⟩ := List.mem_map.1 hk
  exact Nat.mod_lt _ (Nat.zero_lt_of_lt (List.mem_range.1 hi))

/-- Every channel is tried. -/
theorem mem_channelOrder {n : Nat} (hk : k < n) : k ∈ channelOrder c n := by
  have hn : 0 < n := Nat.zero_lt_of_lt hk
  refine List.mem_map.2 ⟨(k + n - c % n) % n, List.mem_range.2 (Nat.mod_lt _ hn), ?_⟩
  have hc : c % n < n := Nat.mod_lt c hn
  rw [Nat.add_mod_mod, ← Nat.mod_add_mod, show c % n + (k + n - c % n) = k + n by omega, Nat.add_mod_right,
    Nat.mod_eq_of_lt hk]

theorem channelOrder_cons {n : Nat} (hn : 0 < n) : ∃ l, channelOrder c n = c % n :: l := by
  obtain ⟨m, rfl⟩ : ∃ m, n = m + 1 := ⟨n - 1, by omega⟩
  exact ⟨_, by rw [channelOrder, List.range_succ_eq_map, List.map_cons]; rfl⟩

theorem State.channelFrom_eq (a c : Nat) (s : State) : s.channelFrom a c =
    ((channelOrder c s.fab.paths).find? fun i => !(s.peer a).isSuspect s.tick i).getD (c % s.fab.paths) := rfl

theorem State.channelFrom_lt (hn : 0 < s.fab.paths) : s.channelFrom a c < s.fab.paths := by
  rw [State.channelFrom_eq]
  cases hf : (channelOrder c s.fab.paths).find? fun i => !(s.peer a).isSuspect s.tick i with
  | none => exact Nat.mod_lt _ hn
  | some i => exact channelOrder_lt (List.mem_of_find?_eq_some hf)

theorem State.channelFrom_own (hn : 0 < s.fab.paths) (h : (s.peer a).isSuspect s.tick (c % s.fab.paths) = false) :
    s.channelFrom a c = c % s.fab.paths := by
  obtain ⟨l, hl⟩ := channelOrder_cons (c := c) hn
  rw [State.channelFrom_eq, hl, List.find?_cons, h]
  rfl

theorem State.channelFrom_notSuspect (hk : k < s.fab.paths) (h : (s.peer a).isSuspect s.tick k = false) :
    (s.peer a).isSuspect s.tick (s.channelFrom a c) = false := by
  rw [State.channelFrom_eq]
  cases hf : (channelOrder c s.fab.paths).find? fun i => !(s.peer a).isSuspect s.tick i with
  | none => exact absurd (List.find?_eq_none.1 hf k (mem_channelOrder hk)) (by simp [h])
  | some i => simpa using List.find?_some hf

end Channels

/-- Settles O48: a message tries its own channel first, and each channel once. -/
theorem suspectChannels : Obligations.SuspectChannels := by
  unfold Obligations.SuspectChannels
  exact fun a c s hn => ⟨State.channelFrom_lt hn, State.channelFrom_own hn,
    fun ⟨_, hk, h⟩ => State.channelFrom_notSuspect hk h⟩

/-! ### Addresses that a coordinator grants (R351, R352) -/

section Grants

variable {s : State} {m : JoinMsg} {a : Nat}

/-- A free address is valid, held by no serial, and not released within 10 s (R352). -/
theorem State.addrFree_iff : s.addrFree a = true ↔ 1 ≤ a ∧ a ≤ 20480 ∧ (∀ e ∈ s.fab.assigned, e.2 ≠ a) ∧
    ∀ k, tget s.fab.released a = some k → k + 10000000000 ≤ s.tick := by
  unfold State.addrFree
  cases tget s.fab.released a <;> simp [and_assoc]

theorem State.lowestFree_free (h : s.lowestFree = some a) : s.addrFree a = true :=
  List.find?_some (p := fun a => s.addrFree a) h

/-- A new serial is granted a free address (R351). -/
theorem State.grant_free (hn : aget s.fab.assigned m.serial = none) (h : s.grant m = (.ok, a)) :
    s.addrFree a = true := by
  rw [State.grant, hn] at h
  dsimp only at h
  split at h
  next hfree =>
    cases h
    exact hfree
  split at h
  next => cases h
  cases hl : s.lowestFree with
  | none =>
    rw [hl] at h
    cases h
  | some b =>
    rw [hl] at h
    cases h
    exact State.lowestFree_free hl

theorem State.grant_known {b : Nat} (hb : aget s.fab.assigned m.serial = some b) : s.grant m = (.ok, b) := by
  rw [State.grant, hb]

end Grants

/-- Settles O49: a known serial has its address, and any other takes a free one. -/
theorem grantedAddresses : Obligations.GrantedAddresses := by
  unfold Obligations.GrantedAddresses
  refine fun m a s h => ⟨fun b hb => ?_, fun hn => State.addrFree_iff.1 (State.grant_free hn h)⟩
  rw [State.grant_known hb] at h
  cases h
  rfl

/-! ### Fabric frames taken as new (R343, R344, R78) -/

section FabricFrames

variable {f : FabHdr} {u s : State} {p : Peer} {tick : Nat} {w : Bool}

/-- A frame that is fresh has passed the checks of R343, and is not from an older start of its sender (R344). -/
theorem State.fabIn_fresh {k : Nat} (h : s.fabIn k f = .fresh u) :
    f.overrun = false ∧ f.fversion = 1 ∧ f.fsys = s.fab.sysId ∧ f.lenOk = true ∧ (f.dst = 0 ∨ f.dst = s.fab.addr) ∧
      f.tagOk = true ∧ (tget s.fab.keys f.fkey).isSome = true ∧
      (f.src ≠ 0 → (s.peer f.src).bootCount ≤ f.bootCount) := by
  unfold State.fabIn at h
  split at h
  next => cases h
  next hover =>
  split at h
  next => cases h
  next hhead =>
  split at h
  next => cases h
  next htag =>
  simp only [not_or, not_not, Bool.not_eq_true, Bool.not_eq_false', not_and, Option.isNone_eq_false_iff] at hover hhead htag
  obtain ⟨-, hversion, hsys, hlen, hdst⟩ := hhead
  refine ⟨hover, hversion, hsys, hlen, or_iff_not_imp_left.2 hdst, htag.1, htag.2, fun hsrc => ?_⟩
  rw [if_neg hsrc] at h
  dsimp only at h
  split at h
  next hlt => exact hlt.le
  split at h
  next => cases h
  next hge => exact Nat.not_lt.1 hge

/-- A sequence number that a peer holds: it is in the window's record, and not above it (R78). -/
theorem Peer.fresh_of_seen {q : Nat} (hs : p.seen.contains q = true) (hq : q ≤ p.highSeq) : p.fresh q = false := by
  rw [Peer.fresh, hs, decide_eq_false (Nat.not_lt.2 hq)]
  simp

/-- A number below the window of 1,024 is not new (R78). -/
theorem Peer.fresh_of_old {q : Nat} (hq : q + 1025 ≤ p.highSeq) : p.fresh q = false := by
  rw [Peer.fresh, decide_eq_false (by omega : ¬ p.highSeq < q), decide_eq_false (Nat.not_lt.2 hq)]
  simp

/-- What a peer has seen, and the number just accepted, are not new afterwards. -/
theorem Peer.fresh_accept {q : Nat} (hs : q ∈ p.seen ++ [f.fseq]) (hq : q ≤ max p.highSeq f.fseq) :
    (p.accept f tick w).fresh q = false := by
  rcases Nat.lt_or_ge (max p.highSeq f.fseq) (q + 1025) with h | h
  · refine Peer.fresh_of_seen (List.contains_iff_mem.2 (List.mem_filter.2 ⟨hs, ?_⟩)) hq
    exact decide_eq_true h
  · exact Peer.fresh_of_old h

end FabricFrames

/-- Settles O47: the checks of `State.fabIn` one after the other, and the window of the numbers seen. -/
theorem fabricAcceptance : Obligations.FabricAcceptance := by
  unfold Obligations.FabricAcceptance
  refine fun k f u s => ⟨State.fabIn_fresh, fun p tick w _ => ⟨?_, rfl, fun q hq _ hle => ?_⟩⟩
  · exact Peer.fresh_accept (List.mem_append_right _ (.head _)) (le_max_right _ _)
  · exact Peer.fresh_accept (List.mem_append_left _ (List.contains_iff_mem.1 hq)) (hle.trans (le_max_left _ _))

/-! ### Rosemary's records (R446, R451) -/

section RosemaryRecords

variable {o : Observe} {r : RmRec}

/-- A record that waits for the log region is passed over (R451). -/
theorem rmEvict_waiting : ∀ {l : List RmRec}, (∀ e ∈ l, e.kept = true ∧ e.copied = false) → rmEvict l = none
  | [], _ => rfl
  | e :: l, h => by
    obtain ⟨hk, hc⟩ := h e (.head _)
    rw [rmEvict, rmEvict_waiting fun x hx => h x (.tail _ hx)]
    simp [hk, hc]

/-- The oldest record that does not wait goes (R451). -/
theorem rmEvict_append {x : RmRec} {post : List RmRec} (hx : x.kept = false ∨ x.copied = true) :
    ∀ {pre : List RmRec}, (∀ e ∈ pre, e.kept = true ∧ e.copied = false) →
      rmEvict (pre ++ x :: post) = some (pre ++ post)
  | [], _ => by
    rw [List.nil_append, rmEvict, if_neg (by rcases hx with h | h <;> simp [h])]
    rfl
  | e :: pre, h => by
    obtain ⟨hk, hc⟩ := h e (.head _)
    rw [List.cons_append, rmEvict, rmEvict_append hx fun y hy => h y (.tail _ hy)]
    simp [hk, hc]

theorem Observe.store_room (h : o.rm.length < 16384) :
    (o.store r).1.rm = o.rm ++ [{ r with seq := o.rmSeq }] ∧ (o.store r).2 = none := by
  have heq : o.store r = _ := if_pos h
  rw [heq]
  exact ⟨rfl, rfl⟩

theorem Observe.store_frozen (hfull : 16384 ≤ o.rm.length) (hf : o.frozen = true) :
    (o.store r).1.rm = o.rm ∧ (o.store r).1.lost = o.lost + 1 ∧ (o.store r).2 = some Ctr.rmLost := by
  have heq : o.store r = _ := (if_neg (Nat.not_lt.2 hfull)).trans (if_pos hf)
  rw [heq]
  exact ⟨rfl, rfl, rfl⟩

/-- In a full store that is not frozen, `rmEvict` decides. -/
theorem Observe.store_full (hfull : 16384 ≤ o.rm.length) (hf : o.frozen = false) : o.store r =
    match rmEvict o.rm with
    | some rest => ({ o with rmSeq := o.rmSeq + 1, rm := rest ++ [{ r with seq := o.rmSeq }] },
        some Ctr.rmOverwritten)
    | none => ({ o with
        rmSeq := o.rmSeq + 1, lost := o.lost + 1, lostFirst := if o.lost = 0 then o.rmSeq else o.lostFirst },
        some Ctr.rmLost) :=
  (if_neg (Nat.not_lt.2 hfull)).trans (if_neg (Bool.eq_false_iff.1 hf))

theorem Observe.rmSeq_store (o : Observe) (r : RmRec) : (o.store r).1.rmSeq = o.rmSeq + 1 := by
  rcases Nat.lt_or_ge o.rm.length 16384 with h | h
  · rw [show o.store r = _ from if_pos h]
  cases hf : o.frozen with
  | true => rw [show o.store r = _ from (if_neg (Nat.not_lt.2 h)).trans (if_pos hf)]
  | false =>
    rw [Observe.store_full h hf]
    split <;> rfl

end RosemaryRecords

/-- Settles O56: with room the record is added; else a freeze loses it, or `rmEvict` names the record that goes. -/
theorem rosemaryStores : Obligations.RosemaryStores := by
  unfold Obligations.RosemaryStores
  refine fun o r => ⟨o.rmSeq_store r, Observe.store_room, Observe.store_frozen, ?overwritten, ?lost⟩
  case overwritten =>
    intro pre x post hfull hf ho hpre hx
    rw [Observe.store_full hfull hf, ho, rmEvict_append hx hpre]
    exact ⟨rfl, rfl⟩
  case lost =>
    intro hfull hf hall
    rw [Observe.store_full hfull hf, rmEvict_waiting hall]
    exact ⟨rfl, rfl⟩

end Sys2Proof.Machine

namespace Sys2Proof.Machine

/-! ### The buffer of a Dill unit (R461, R465 to R467) -/

section DillBuffer

variable {d : Dill} {r x : TraceRec}

theorem length_lastN_le {α : Type} (n : Nat) (l : List α) : (lastN n l).length ≤ n := by
  rw [lastN, List.length_drop]
  omega

/-- What makes room is one record, and never a protected one (R467). -/
theorem dillDisplace_some : ∀ {l b : List TraceRec}, dillDisplace l = some b →
    b.length + 1 = l.length ∧ ∀ x ∈ l, x.prot = true → x ∈ b
  | [], _, h => nomatch h
  | e :: l, b, h => by
    rw [dillDisplace] at h
    split at h
    next hp =>
      obtain ⟨b', hb', rfl⟩ := Option.map_eq_some_iff.1 h
      obtain ⟨hlen, hkept⟩ := dillDisplace_some hb'
      exact ⟨congrArg (· + 1) hlen, fun x hx hxp =>
        (List.mem_cons.1 hx).elim (fun he => he ▸ .head _) fun hl => .tail _ (hkept x hl hxp)⟩
    next hp =>
      cases h
      exact ⟨rfl, fun x hx hxp => (List.mem_cons.1 hx).resolve_left fun he => hp (he ▸ hxp)⟩

@[simp] theorem Dill.seq_place (d : Dill) (r : TraceRec) : (d.place r).1.seq = d.seq := by
  unfold Dill.place
  split_ifs <;> try rfl
  split <;> rfl

/-- The buffer holds at most 1,024 records (R461). -/
theorem Dill.length_place (h : d.buf.length ≤ 1024) : (d.place r).1.buf.length ≤ 1024 := by
  unfold Dill.place
  split_ifs with hcap hroom
  · exact (length_lastN_le _ _).trans (by unfold dillSize; omega)
  · rw [List.length_append]
    exact hroom
  · split
    next b hb =>
      rw [List.length_append, List.length_singleton, (dillDisplace_some hb).1]
      exact h
    next => exact h
  · exact h

/-- Once the unit has fired, a record placed drops none of the protected window (R467). -/
theorem Dill.prot_place (hf : d.fired = true) (hx : x ∈ d.buf) (hp : x.prot = true) :
    x ∈ (d.place r).1.buf := by
  unfold Dill.place
  rw [if_neg (by simp [hf])]
  split_ifs
  · exact List.mem_append_left _ hx
  · split
    next b hb => exact List.mem_append_left _ ((dillDisplace_some hb).2 x hx hp)
    next => exact hx
  · exact hx

theorem length_protectLast (l : List TraceRec) : (protectLast l).length = l.length := by
  simp [protectLast]

/-- A unit that has fired does not fire again (R465). -/
theorem Dill.fires_of_fired (hf : d.fired = true) : d.fires r = false := by
  simp [Dill.fires, hf]

/-- A unit that is off, frozen, or does not record the kind (R465). -/
theorem Dill.write_idle (h : d.mode = 0 ∨ d.frozen = true ∨ (trigMask d.trig).testBit r.kind = false) :
    d.write r = (d, 0, false) :=
  if_pos (h.imp_right (Or.imp_right (by simp [·])))

theorem Dill.prot_write (hf : d.fired = true) (hx : x ∈ d.buf) (hp : x.prot = true) : x ∈ (d.write r).1.buf := by
  unfold Dill.write
  dsimp only
  rw [Dill.fires_of_fired (by exact hf)]
  simp only [Bool.false_eq_true, if_false]
  split_ifs
  · exact hx
  · exact Dill.prot_place (by exact hf) (by exact hx) hp
  · exact Dill.prot_place (by exact hf) (by exact hx) hp

theorem Dill.length_write (h : d.buf.length ≤ 1024) : (d.write r).1.buf.length ≤ 1024 := by
  unfold Dill.write
  dsimp only
  split_ifs
  · exact h
  · exact Dill.length_place (Dill.length_place ((length_protectLast d.buf).trans_le h))
  · exact Dill.length_place (by exact h)
  · exact Dill.length_place (by exact h)

/-- A record takes a number, and the one that a trigger adds takes another (R465). -/
theorem Dill.seq_write : d.seq ≤ (d.write r).1.seq ∧ (d.write r).1.seq ≤ d.seq + 2 := by
  unfold Dill.write
  dsimp only
  split_ifs <;> simp [Dill.post1]
  omega

end DillBuffer

/-- Settles O57: a record is placed in the buffer at most twice, and each time by `Dill.place`. -/
theorem dillWindow : Obligations.DillWindow := by
  unfold Obligations.DillWindow
  exact fun d r => ⟨Dill.write_idle, fun hf _ hx hp => Dill.prot_write hf hx hp, fun _ h _ => Dill.length_write h,
    Dill.seq_write⟩

/-! ### Lookups in an image (R280) -/

section Lookups

variable {x : FTable} {g : Generation} {key : W64} {e : Nat} {s : State}

/-- An entry that a lookup of the key may answer: the image's, numbered below N, readable, of this generation with no
reserved bit set, valid and of the key, and not locked (R280). -/
def FTable.Answers (x : FTable) (g : Generation) (key : W64) (s : State) (e : Nat) : Prop :=
  ∃ n, n < g.n ∧ e = s.leAt (x.entAddr g n) x.entBytes ∧ s.mem.readable (x.entAddr g n) x.entBytes = true ∧
    x.entryClean g.g e = true ∧ e.testBit 64 = true ∧ e % 2 ^ 64 = key.toNat ∧ e.testBit 65 = false

/-- An entry examined is answered where it is the key's, or the lookup goes on. -/
theorem State.lookEntry_found {n pos : Nat} {next : Look} (hn : n < g.n)
    (h : (s.lookEntry x g key (x.entAddr g n) pos next).last = .found e) :
    x.Answers g key s e ∨ next.last = .found e := by
  unfold State.lookEntry at h
  dsimp only at h
  split_ifs at h with hread hclean hkey hlock
  · exact .inr h
  · exact .inr h
  · simp only [LookEnd.found.injEq] at h
    subst h
    simp only [Bool.not_eq_true, Bool.not_eq_false', entryFor, Bool.and_eq_true, beq_iff_eq, entryLocked] at hread hclean hkey hlock
    exact .inl ⟨n, hn, rfl, hread, hclean, hkey.1, hkey.2, hlock⟩

theorem Look.last_after (a n bad : Nat) (l : Look) : (l.after a n bad).last = l.last := rfl

/-- A place examined answers an entry of the key's, or the lookup goes on. -/
theorem State.lookPlaces_found : ∀ {l : List Nat}, (s.lookPlaces x g key l).last = .found e → x.Answers g key s e
  | [], h => nomatch h
  | pos :: rest, h => by
    unfold State.lookPlaces at h
    extract_lets hash b1 p a w next r at h
    split_ifs at h
    case neg hspill hread hlast | pos hspill hread hlast =>
      have hr : r.last = .found e := h
      unfold r at hr
      split_ifs at hr with htag hnum
      · exact State.lookPlaces_found hr
      · exact State.lookPlaces_found hr
      · exact (State.lookEntry_found (Nat.not_le.1 hnum) hr).elim id State.lookPlaces_found

end Lookups

/-- Settles O38: a lookup ends with an entry only where it examined it. -/
theorem lookupFindsTheKey : Obligations.LookupFindsTheKey := by
  unfold Obligations.LookupFindsTheKey
  exact fun x g key e s => State.lookPlaces_found

end Sys2Proof.Machine

namespace Sys2Proof.Machine

/-! ### The first item that fails -/

section FirstBad

variable {α : Type} {p : α → Bool} {l : List α}

theorem idxOf?_eq_findIdx? (p : α → Bool) : ∀ l : List α, idxOf? p l = l.findIdx? p
  | [] => rfl
  | x :: l => by rw [idxOf?, List.findIdx?_cons, idxOf?_eq_findIdx? p l]

theorem idxOf?_eq_none (h : ∀ x ∈ l, p x = false) : idxOf? p l = none := by
  rw [idxOf?_eq_findIdx?, List.findIdx?_eq_none_iff]
  exact h

/-- The first item that fails, by its position. -/
theorem idxOf?_eq_some {k : Nat} {x : α} (hx : l[k]? = some x) (hp : p x = true)
    (hb : ∀ j y, j < k → l[j]? = some y → p y = false) : idxOf? p l = some k := by
  obtain ⟨hk, rfl⟩ := List.getElem?_eq_some_iff.1 hx
  rw [idxOf?_eq_findIdx?, List.findIdx?_eq_some_iff_getElem]
  exact ⟨hk, hp, fun j hj => by simp [hb j _ hj (List.getElem?_eq_getElem (hj.trans hk))]⟩

end FirstBad

/-! ### Domains after one has changed (R309) -/

theorem State.domain_modDomain_ne {s : State} {d k : Nat} (f : Domain → Domain) (h : d ≠ k) :
    (s.modDomain k f).domain d = s.domain d := tgetD_tup_ne s.models.domains {} f h

/-! ### Commits of feature-table generations (R286, R310) -/

section Commits

variable {s : State} {t : Nat} {h : CmdHdr} {pairs : List (Nat × Nat)}

/-- A table takes the commit of its pair, and no other table changes. -/
theorem tget_foldl_commit {tick k : Nat} : ∀ {l : List (Nat × Nat)} (ts : Tab FTable),
    (k ∉ l.map (·.1) → tget (l.foldl (fun ts g => tmod ts g.1 (FTable.commit g.2 tick)) ts) k = tget ts k) ∧
    ((l.map (·.1)).Nodup → ∀ p ∈ l, p.1 = k →
      tget (l.foldl (fun ts g => tmod ts g.1 (FTable.commit g.2 tick)) ts) k = (tget ts k).map (FTable.commit p.2 tick))
  | [], ts => ⟨fun _ => rfl, fun _ _ hp => nomatch hp⟩
  | g :: l, ts => by
    obtain ⟨ihOther, ihOwn⟩ := tget_foldl_commit (tick := tick) (k := k) (l := l)
      (tmod ts g.1 (FTable.commit g.2 tick))
    refine ⟨fun hk => ?_, fun hd p hp hpk => ?_⟩
    · rw [List.map_cons, List.mem_cons, not_or] at hk
      exact (ihOther hk.2).trans (tget_tmod_ne _ _ hk.1)
    · rw [List.map_cons, List.nodup_cons] at hd
      rcases List.mem_cons.1 hp with rfl | hp
      · subst hpk
        exact (ihOther hd.1).trans (tget_tmod _ _ _)
      · have hne : k ≠ g.1 := fun he => hd.1 (List.mem_map.2 ⟨p, hp, hpk.trans he⟩)
        exact (ihOwn hd.2 p hp hpk).trans (by rw [tget_tmod_ne _ _ hne])

theorem State.table_commitGens {p : Nat × Nat} (hd : (pairs.map (·.1)).Nodup) (hp : p ∈ pairs) :
    (s.commitGens pairs).table p.1 = (s.table p.1).map (FTable.commit p.2 s.tick) :=
  (tget_foldl_commit s.models.tables).2 hd p hp rfl

theorem State.table_commitGens_ne {k : Nat} (hk : k ∉ pairs.map (·.1)) :
    (s.commitGens pairs).table k = s.table k :=
  (tget_foldl_commit s.models.tables).1 hk

/-- After a commit only the committed generation is current (R286). -/
theorem FTable.current_commit {g tick : Nat} {x : FTable} {y : Generation} (hy : y ∈ (x.commit g tick).gens)
    (hc : y.state = .current) : y.g = g := by
  obtain ⟨z, hz, rfl⟩ := List.mem_map.1 hy
  split_ifs at hc ⊢ with h1 h2
  · exact h1.1
  · exact absurd hc h2

/-- A commit makes its sealed generation current (R286). -/
theorem FTable.genIn_commit {g tick : Nat} {x : FTable} {y : Generation} (hy : x.gen g = some y)
    (hs : y.state = .sealed) : ((x.commit g tick).genIn .current).map (·.g) = some g := by
  have hmem : y ∈ x.gens := List.mem_of_find?_eq_some hy
  have hg : y.g = g := (show y.g = g ∧ _ by simpa using List.find?_some hy).1
  have hin : { y with state := .current, commitTick := tick } ∈ (x.commit g tick).gens :=
    List.mem_map.2 ⟨y, hmem, if_pos ⟨hg, hs⟩⟩
  cases hf : (x.commit g tick).genIn .current with
  | none => exact absurd (List.find?_eq_none.1 hf _ hin) (by simp)
  | some z =>
    exact congrArg some (FTable.current_commit (List.mem_of_find?_eq_some hf) (by simpa using List.find?_some hf))

/-- A commit makes the current generation retiring (R286). -/
theorem FTable.retiring_commit {g tick : Nat} {x : FTable} {y : Generation} (hy : x.genIn .current = some y) :
    { y with state := .retiring, commitTick := tick } ∈ (x.commit g tick).gens := by
  have hc : y.state = .current := by simpa using List.find?_some hy
  exact List.mem_map.2 ⟨y, List.mem_of_find?_eq_some hy, by simp [hc]⟩

theorem State.sealedGen_iff {p : Nat × Nat} : s.sealedGen p = true ↔
    ∃ x y, s.table p.1 = some x ∧ x.gen p.2 = some y ∧ y.state = .sealed ∧ y.dropping = false := by
  unfold State.sealedGen
  cases hx : s.table p.1 with
  | none => simp
  | some x => cases hy : x.gen p.2 <;> simp [hy]

/-- What the checks of a commit ask for (R286, R383). -/
structure CommitGood (h : CmdHdr) (pairs : List (Nat × Nat)) (s : State) : Prop where
  ready : Ready h 0x0A06 false s
  some : pairs ≠ []
  few : pairs.length ≤ 16
  once : (pairs.map (·.1)).Nodup
  good : ∀ p ∈ pairs, s.hasTable p.1 = true ∧ s.sealedGen p = true ∧
    (h.part = 0 ∨ s.tableOwner p.1 = Option.some h.part)

/-- No table is named twice. -/
theorem CommitGood.noRepeat (g : CommitGood h pairs s) :
    idxOf? (fun e : (Nat × Nat) × Nat => (pairs.take e.2).any fun p => p.1 == e.1.1) pairs.zipIdx = none := by
  refine idxOf?_eq_none fun e he => ?_
  obtain ⟨hi, hx⟩ := List.mem_zipIdx' he
  refine List.any_eq_false.2 fun p hp hpe => ?_
  obtain ⟨j, hj, rfl⟩ := List.mem_take_iff_getElem.1 hp
  have hinj := (List.Nodup.getElem_inj_iff g.once (i := j) (hi := by rw [List.length_map]; omega)
    (hj := by rw [List.length_map]; exact hi)).1 (by simpa [hx] using hpe)
  omega

theorem CommitGood.checks_pass (g : CommitGood h pairs s) (tick : Nat) (r : Reply) :
    checksAt ((s.at tick).commitChecks h pairs) r = r := by
  rw [State.commitChecks_at]
  have hlen : pairs.length ≠ 0 := fun h0 => g.some (List.length_eq_zero_iff.1 h0)
  have htable : itemBad 0 (fun p => !s.hasTable p.1) pairs = none :=
    itemBad_eq_none fun p hp => by rw [(g.good p hp).1]; rfl
  have hright : itemBad 0 (fun p => h.part != 0 && s.tableOwner p.1 != Option.some h.part) pairs = none :=
    itemBad_eq_none fun p hp => by rcases (g.good p hp).2.2 with h0 | ho <;> simp [*]
  have hsealed : itemBad 0 (fun p => !s.sealedGen p) pairs = none :=
    itemBad_eq_none fun p hp => by rw [(g.good p hp).2.1]; rfl
  refine checksAt_pass ?_
  simp [State.commitChecks, unlistedAt, onWhole, htable, hright, hsealed, g.noRepeat, g.ready.listed, hlen, g.few]

theorem CommitGood.exec_generationCommit (g : CommitGood h pairs s) : exec (.generationCommit t h pairs) s =
    .next (((s.at t).commitGens pairs).answer h 0x0A06 .ok noDetail []) :=
  isain_done g.ready rfl rfl rfl (g.checks_pass t _)

theorem CommitGood.exec_generationCommitBind (g : CommitGood h pairs s)
    (hb : ∀ p ∈ pairs, s.domainBusy ((s.tableOwner p.1).getD 0) = false) :
    exec (.generationCommitBind t h pairs) s =
      .next ((pairs.foldl (fun s p => s.bindGen p) (s.at t)).answer h 0x0A06 .ok noDetail []) := by
  have hbusy : itemBad 0 (fun p => (s.at t).domainBusy (((s.at t).tableOwner p.1).getD 0)) pairs = none :=
    itemBad_eq_none hb
  refine isain_done g.ready rfl rfl rfl ?_
  rw [checksAt_append, g.checks_pass, hbusy]
  rfl

/-- A generation bound stands in its owner's staging set (R310). -/
theorem State.mem_bindGen (g : Nat × Nat) (s : State) :
    g ∈ ((s.bindGen g).domain ((s.tableOwner g.1).getD 0)).staging.gens := by
  rw [State.bindGen, State.domain_modDomain]
  exact List.mem_append_right _ (.head _)

/-- Another table's generation stays in the staging set. -/
theorem State.mem_bindGen_of_ne {d : Nat} {p g : Nat × Nat} (hp : p ∈ (s.domain d).staging.gens) (hne : p.1 ≠ g.1) :
    p ∈ ((s.bindGen g).domain d).staging.gens := by
  rw [State.bindGen]
  rcases eq_or_ne d ((s.tableOwner g.1).getD 0) with hd | hd
  · rw [← hd, State.domain_modDomain]
    exact List.mem_append_left _ (List.mem_filter.2 ⟨hp, by simpa using hne⟩)
  · rw [State.domain_modDomain_ne _ hd]
    exact hp

/-- Generations bound to their owners' staging sets: no table changes, and each pair stands in its set, where no
later pair names its table (R310). -/
theorem State.foldl_bindGen : ∀ (l : List (Nat × Nat)) (s : State),
    (l.foldl (fun s p => s.bindGen p) s).models.tables = s.models.tables ∧
    (l.foldl (fun s p => s.bindGen p) s) = { s with models := (l.foldl (fun s p => s.bindGen p) s).models } ∧
    (∀ d p, (p ∈ (s.domain d).staging.gens ∧ p.1 ∉ l.map (·.1)) ∨
        ((l.map (·.1)).Nodup ∧ p ∈ l ∧ d = (s.tableOwner p.1).getD 0) →
      p ∈ ((l.foldl (fun s p => s.bindGen p) s).domain d).staging.gens)
  | [], s => ⟨rfl, rfl, fun d p hp => hp.elim And.left fun h => nomatch h.2.1⟩
  | g :: l, s => by
    obtain ⟨htables, hframe, hstaged⟩ := State.foldl_bindGen l (s.bindGen g)
    refine ⟨htables, hframe, fun d p hp => hstaged d p ?_⟩
    rcases hp with ⟨hp, hk⟩ | ⟨hdl, hp, rfl⟩
    · rw [List.map_cons, List.mem_cons, not_or] at hk
      exact .inl ⟨State.mem_bindGen_of_ne hp hk.1, hk.2⟩
    · rw [List.map_cons, List.nodup_cons] at hdl
      rcases List.mem_cons.1 hp with rfl | hp
      · exact .inl ⟨State.mem_bindGen p s, hdl.1⟩
      · exact .inr ⟨hdl.2, hp, rfl⟩

end Commits

/-- Settles O37: the checks pass, and a commit is `FTable.commit` of each pair's table. -/
theorem generationCommits : Obligations.GenerationCommits := by
  unfold Obligations.GenerationCommits
  intro t h pairs s r hne hlen hd hgood
  have g : CommitGood h pairs s := ⟨r, hne, hlen, hd, hgood⟩
  refine ⟨⟨_, g.exec_generationCommit, fun p hp => ?_, fun p hp x x' y hx hy hx' => ?_,
    fun k hk => State.table_commitGens_ne hk, rfl⟩, fun hb => ?_⟩
  · obtain ⟨x, y, hx, hy, hs, -⟩ := State.sealedGen_iff.1 (hgood p hp).2.1
    rw [State.table_commitGens (s := s.at t) hd hp, State.table_at, hx]
    exact FTable.genIn_commit hy hs
  · rw [State.table_commitGens (s := s.at t) hd hp, State.table_at, hx] at hx'
    cases hx'
    exact FTable.retiring_commit hy
  · obtain ⟨htables, hframe, hstaged⟩ := State.foldl_bindGen pairs (s.at t)
    exact ⟨_, g.exec_generationCommitBind hb, htables, fun p hp => hstaged _ p (.inr ⟨hd, hp, rfl⟩), hframe⟩

end Sys2Proof.Machine

namespace Sys2Proof.Machine

/-! ### Where a request takes its slot (R308, R315, R316) -/

section Placement

variable {s : State} {k : Nat} {m : Model}

/-- A deadline is clamped to the model's longest budget, and a clamp is counted (R308). -/
theorem State.clampDeadline_eq (k d : Nat) (m : Model) (s : State) : s.clampDeadline k d m =
    if (s.slot k).admitAt + m.params.maxBudget < d then
      (s.modSlot k fun x => { x with deadline := min d ((s.slot k).admitAt + m.params.maxBudget) }).count Ctr.dlClamped
        (modelScope (s.slot k).part (s.slot k).model)
    else s.modSlot k fun x => { x with deadline := min d ((s.slot k).admitAt + m.params.maxBudget) } := rfl

theorem State.deadline_clampDeadline (d : Nat) : ((s.clampDeadline k d m).slot k).deadline =
    min d ((s.slot k).admitAt + m.params.maxBudget) := by
  have hslot : (s.clampDeadline k d m).slot k = (s.modSlot k fun x => { x with
      deadline := min d ((s.slot k).admitAt + m.params.maxBudget) }).slot k := by
    rw [State.clampDeadline_eq]
    split_ifs <;> rfl
  rw [hslot, State.slot_modSlot]

theorem State.placeSlot_late (lead : Option Nat) (h : s.cutoff k ≤ (s.slot k).admitAt) :
    s.placeSlot k lead m = s.postDefault k 2 := if_pos h

/-- No cluster serves (R315). -/
theorem State.placeSlot_none (h : (s.slot k).admitAt < s.cutoff k) : s.placeSlot k none m = s.postDefault k 5 :=
  if_neg (Nat.not_le.2 h)

/-- No binding is whole (R316). -/
theorem State.placeSlot_unserved {c : Nat} (h : (s.slot k).admitAt < s.cutoff k)
    (hb : s.chooseBinding (s.slot k).part c m = none) : s.placeSlot k (some c) m = s.postDefault k 5 := by
  refine (if_neg (Nat.not_le.2 h)).trans ?_
  rw [hb]

theorem State.placeSlot_served {c : Nat} {b : Binding} (h : (s.slot k).admitAt < s.cutoff k)
    (hb : s.chooseBinding (s.slot k).part c m = some b) :
    s.placeSlot k (some c) m = s.modSlot k fun x => { x with lead := c, binding := b.clusters } := by
  refine (if_neg (Nat.not_le.2 h)).trans ?_
  rw [hb]

/-- A binding chosen is one of the model's, and whole (R316). -/
theorem State.chooseBinding_some {part lead : Nat} {b : Binding} (h : s.chooseBinding part lead m = some b) :
    b ∈ m.bindings ∧ s.bindingWhole part m b = true := by
  obtain ⟨j, -, hj⟩ := List.mem_filterMap.1 (List.mem_of_find?_eq_some h)
  exact ⟨List.mem_of_getElem? hj, List.find?_some (p := fun b => s.bindingWhole part m b) h⟩

end Placement

/-- Settles O31: the branches of `State.clampDeadline` and of `State.placeSlot`. -/
theorem slotPlacement : Obligations.SlotPlacement := by
  unfold Obligations.SlotPlacement
  refine fun k m s => ⟨fun d => ⟨State.deadline_clampDeadline d, fun hle => ?_, fun hlt => ?_⟩,
    State.placeSlot_late, fun lead h => ⟨?_, ?_, ?_⟩⟩
  · rw [State.clampDeadline_eq, if_neg (Nat.not_lt.2 hle)]
    rfl
  · rw [State.clampDeadline_eq, if_pos hlt]
    exact State.counter_countN _ _ _ _
  · rintro rfl
    exact State.placeSlot_none h
  · rintro c rfl hb
    exact State.placeSlot_unserved h hb
  · rintro c b rfl hb
    obtain ⟨hmem, hwhole⟩ := State.chooseBinding_some hb
    rw [State.placeSlot_served h hb]
    exact ⟨hmem, hwhole, s.slot_modSlot k _, rfl⟩

/-! ### Epochs that flip (R296, R310, R311) -/

section Flips

variable {s : State} {d k : Nat}

/-- A domain after a flip: the next epoch with the models neither removed nor staged again and the staged ones, and the
old epoch retiring (R310). -/
def Domain.flipped (tick : Nat) (x : Domain) : Domain :=
  { x with
    epoch := epochNext x.epoch
    models := (x.models.filter fun m =>
      !(x.staging.removed.contains m.handle) && !(x.staging.models.any fun y => y.handle == m.handle)) ++ x.staging.models
    retiring := some (x.epoch, x.models)
    staging := {}
    waiting := none
    flipTick := tick }

theorem foldl_modPipe_models (l : List (Nat × Nat)) (s : State) :
    (l.foldl (fun s r => s.modPipe r.1 fun p => { p with rsModel := r.2 }) s).models = s.models := by
  induction l generalizing s with
  | nil => rfl
  | cons r l ih => exact ih _

theorem State.cellWarn_told (staged : List Model) (epoch : Nat) (s : State) : ToldOnly s (s.cellWarn staged epoch) :=
  foldl_told (fun s k => by
    split
    · exact record_told _ _ _ _ _ _
    · exact .refl s) _ s

/-- A flip changes its own domain, and of the other models only the generations it commits (R310). -/
theorem State.models_flip (d : Nat) (s : State) : (s.flip d).models =
    ((s.modDomain d (Domain.flipped s.tick)).commitGens (s.domain d).staging.gens).models := by
  have hdomain : (s.modDomain d fun x => { x with
      epoch := epochNext (s.domain d).epoch
      models := ((s.domain d).models.filter fun m => !((s.domain d).staging.removed.contains m.handle) &&
        !((s.domain d).staging.models.any fun y => y.handle == m.handle)) ++ (s.domain d).staging.models
      retiring := some ((s.domain d).epoch, (s.domain d).models), staging := {}, waiting := none, flipTick := s.tick }) =
      s.modDomain d (Domain.flipped s.tick) := rfl
  unfold State.flip
  extract_lets x e st kept s1 s2 s3 s4 s5
  have h4 : s4.models = s2.models := foldl_modPipe_models _ _
  have h5 : s5.models = s4.models := by
    unfold s5
    split_ifs
    · rfl
    · rw [State.keep_eq]
  have hend : (if d = packetDomain then s5.cellWarn st.models e else s5).models = s5.models := by
    split_ifs
    · exact (s5.cellWarn_told _ _).models
    · rfl
  rw [hend, h5, h4, ← hdomain]
  rfl

theorem State.domain_flip (d : Nat) (s : State) : (s.flip d).domain d = (s.domain d).flipped s.tick := by
  rw [State.domain, State.models_flip]
  exact s.domain_modDomain d _

theorem State.domain_flip_ne {k : Nat} (h : k ≠ d) : (s.flip d).domain k = s.domain k := by
  rw [State.domain, State.models_flip]
  exact State.domain_modDomain_ne _ h

theorem epochNext_ne (e : Nat) : e ≠ epochNext e := by
  unfold epochNext
  split_ifs <;> omega

/-- The live models of an epoch that flips stay those of the old epoch (R310). -/
theorem Domain.modelsAt_flipped (x : Domain) (tick : Nat) : (x.flipped tick).modelsAt x.epoch = x.modelsAt x.epoch := by
  simp [Domain.modelsAt, Domain.flipped, epochNext_ne]

theorem State.liveModel_eq (d k : Nat) (s : State) :
    s.liveModel d k = (s.domain d).models.find? fun m => m.handle == k := by
  rw [State.liveModel, State.modelAt, Domain.modelsAt, if_pos rfl]

theorem State.liveModel_flip (d k : Nat) (s : State) : (s.flip d).liveModel d k =
    ((s.domain d).flipped s.tick).models.find? fun m => m.handle == k := by
  rw [State.liveModel_eq, State.domain_flip]

/-- Which of an epoch's models carry over: those neither removed nor staged again (R310). -/
def Domain.carries (x : Domain) (k : Nat) : Bool :=
  !(x.staging.removed.contains k) && !(x.staging.models.any fun y => y.handle == k)

/-- After a flip a handle names a model that carried over, or else the staged one. -/
theorem Domain.find_flipped (x : Domain) (tick k : Nat) : ((x.flipped tick).models.find? fun m => m.handle == k) =
    (if x.carries k then x.models.find? fun m => m.handle == k else none).or
      (x.staging.models.find? fun m => m.handle == k) := by
  have hkept : ((x.models.filter fun m => x.carries m.handle).find? fun m => m.handle == k) =
      if x.carries k then x.models.find? fun m => m.handle == k else none := by
    rw [List.find?_filter]
    split_ifs with hc
    · refine congrArg (List.find? · x.models) (funext fun m => ?_)
      by_cases hm : m.handle = k <;> simp [hm, hc]
    · refine List.find?_eq_none.2 fun m _ => ?_
      by_cases hm : m.handle = k <;> simp [hm, hc]
  exact List.find?_append.trans (congrArg (Option.or · _) hkept)

theorem find_of_not_staged {l : List Model} (h : (l.any fun m => m.handle == k) = false) :
    (l.find? fun m => m.handle == k) = none := by
  refine List.find?_eq_none.2 fun m hm => ?_
  simpa using List.any_eq_false.1 h m hm

end Flips

/-- Settles O40: a flip makes of its domain `Domain.flipped`, and changes no other. -/
theorem flipsKeepOldEpochs : Obligations.FlipsKeepOldEpochs := by
  unfold Obligations.FlipsKeepOldEpochs
  intro d s
  rw [State.domain_flip]
  refine ⟨rfl, rfl, rfl, fun k => ?old, fun k hr hs => ?carried, fun k hs => ?staged, fun k hr hs => ?removed,
    fun d' hd' => State.domain_flip_ne hd'⟩
  case old =>
    rw [State.modelAt, State.domain_flip, Domain.modelsAt_flipped, State.liveModel, State.modelAt]
  case carried =>
    rw [State.liveModel_flip, Domain.find_flipped, find_of_not_staged hs, Option.or_none, State.liveModel_eq,
      if_pos (by rw [Domain.carries, hr, hs]; rfl)]
  case staged =>
    rw [State.liveModel_flip, Domain.find_flipped, if_neg (by simp [Domain.carries, hs]), Option.none_or]
  case removed =>
    rw [State.liveModel_flip, Domain.find_flipped, find_of_not_staged hs, Option.or_none,
      if_neg (by rw [Domain.carries, hr]; exact Bool.false_ne_true)]

end Sys2Proof.Machine

namespace Sys2Proof.Machine

/-! ### Feature tables (R273, R396) -/

section Tables

variable {s : State} {t table : Nat} {h : CmdHdr} {x : FTable}

/-- The table is made, and the command's partition owns it or is partition 0 (R388). -/
structure TableRight (h : CmdHdr) (table : Nat) (x : FTable) (s : State) : Prop where
  made : s.table table = some x
  holds : h.part = 0 ∨ h.part = x.owner

theorem TableRight.hasTable (g : TableRight h table x s) : s.hasTable table = true := by
  rw [State.hasTable, g.made]
  rfl

theorem TableRight.ownsTable (g : TableRight h table x s) : s.ownsTable h table = true := by
  rw [State.ownsTable, State.tableOwner, g.made]
  simpa [owns] using g.holds

/-- The settings of a `FTABLE_CREATE` without a fallback that stand in their ranges and together (R273). -/
structure CreateTableGood (h : CmdHdr) (table : Nat) (spec : TableSpec) (s : State) : Prop where
  ready : Ready h 0x0A01 false s
  number : table < 65536
  ranges : TableSpec.outOfRange spec = false
  complete : TableSpec.missing spec = false
  fallback : spec.fallback = none
  agrees : s.contradicts (TableSpec.table spec h.part) = false

/-- A table set to a value. -/
def State.setTable (table : Nat) (x : FTable) (s : State) : State :=
  s.updModels fun m => { m with tables := tset m.tables table x }

/-- A `FTABLE_CREATE` whose settings are good comes to its last two checks: the handle and the number of tables. -/
theorem CreateTableGood.exec_eq {spec : TableSpec} (g : CreateTableGood h table spec s) :
    ∃ own : State → Reply, exec (.ftableCreate t h table spec) s =
      s.isain t { op := 0x0A01, late := true } h noObj anyPart own ∧
      own (s.at t) = checksAt
        [(onWhole (s.table table).isSome, .eConflict),
         (onWhole (decide (1024 ≤ s.models.tables.length) ||
          decide (64 ≤ (s.models.tables.filter fun e => e.2.owner == h.part).length)), .eNospace)]
        (okReply (((s.at t).setTable table (TableSpec.table spec h.part)).keep
          ((s.at t).setTable table (TableSpec.table spec h.part)).tablesVal)) := by
  refine ⟨_, rfl, ?_⟩
  have hranges : idxOf? id (TableSpec.ranges spec) = none :=
    idxOf?_eq_none fun b hb => by simpa using List.any_eq_false.1 g.ranges b hb
  obtain ⟨hsmall, hback⟩ := Bool.or_eq_false_iff.1 g.agrees
  refine (checksAt_append [_, _, _, _, _, _, _, _] [_, _]).trans (checksAt_pass ?_)
  simp [g.fallback, unlistedAt, onWhole, g.ready.listed, g.number, hranges, g.complete, hsmall, hback]

theorem CreateTableGood.exec_ftableCreate {spec : TableSpec} (g : CreateTableGood h table spec s)
    (hfree : s.table table = none) (hall : s.models.tables.length < 1024)
    (hown : (s.models.tables.filter fun e => e.2.owner == h.part).length < 64) :
    exec (.ftableCreate t h table spec) s =
      .next ((((s.at t).setTable table (TableSpec.table spec h.part)).keep
        ((s.at t).setTable table (TableSpec.table spec h.part)).tablesVal).answer h 0x0A01 .ok noDetail []) := by
  obtain ⟨own, hexec, hown'⟩ := g.exec_eq (t := t)
  rw [hexec]
  refine isain_done g.ready rfl rfl rfl (hown'.trans (checksAt_pass ?_))
  simp [hfree, onWhole, hall, hown]

theorem CreateTableGood.exec_ftableCreate_inUse {spec : TableSpec} (g : CreateTableGood h table spec s)
    (hx : s.table table = some x) :
    exec (.ftableCreate t h table spec) s = .next ((s.at t).answer h 0x0A01 .eConflict noDetail []) := by
  obtain ⟨own, hexec, hown⟩ := g.exec_eq (t := t)
  rw [hexec]
  refine isain_refuse g.ready rfl rfl rfl (hown.trans ?_)
  rw [hx]
  rfl

/-- A kept setting changes the bay alone. -/
theorem State.models_keep (v : StVal) (s : State) : (s.keep v).models = s.models := by rw [State.keep_eq]

theorem State.table_keep (v : StVal) (k : Nat) (s : State) : (s.keep v).table k = s.table k := by
  rw [State.table, State.models_keep, State.table]

/-- What a `FTABLE_DESTROY` leaves (R273). -/
def State.destroyTable (table : Nat) (s : State) : State :=
  s.updModels fun m => { m with tables := tdel m.tables table }

theorem TableRight.exec_ftableDestroy (g : TableRight h table x s) (r : Ready h 0x0A02 false s) (hx : x.gens = [])
    (hr : s.tableRead table = false) (hb : ∀ e ∈ s.models.tables, e.2.fallback ≠ some table) :
    exec (.ftableDestroy t h table) s = .next ((((s.at t).destroyTable table).keep
      ((s.at t).destroyTable table).tablesVal).answer h 0x0A02 .ok noDetail []) := by
  refine isain_done r rfl g.hasTable g.ownsTable (checks_pass ?_)
  have hback : (s.models.tables.any fun e => e.1 != table && e.2.fallback == some table) = false :=
    List.any_eq_false.2 fun e he => by simp [hb e he]
  simp [g.made, hx, hr, hback]

/-- A table with a generation is not destroyed (R273). -/
theorem TableRight.exec_ftableDestroy_used (g : TableRight h table x s) (r : Ready h 0x0A02 false s)
    (hx : x.gens ≠ []) :
    exec (.ftableDestroy t h table) s = .next ((s.at t).answer h 0x0A02 .eState noDetail []) := by
  refine isain_refuse r rfl g.hasTable g.ownsTable ?_
  simp [checks, g.made, hx, no]

/-- The words of a table with one generation: its own, then zeros (R285). -/
theorem TableRight.exec_ftableQuery (g : TableRight h table x s) (r : Ready h 0x0A03 true s) {y : Generation}
    (hy : x.gens = [y]) : exec (.ftableQuery t h table) s = .next ((s.at t).answer h 0x0A03 .ok noDetail
      (pack [(8, y.g), (3, genCode y.state), (48, y.base), (64, y.n), (8, 0), (3, 0), (48, 0), (64, 0)])) := by
  refine isain_done r rfl g.hasTable g.ownsTable ?_
  rw [State.table_at, g.made, Option.map_some, hy]
  rfl

end Tables

/-! ### Bytes of device memory that a range of zeros leaves (R286) -/

section Zeros

variable {s : State}

/-- Another address's byte is read behind the first entry. -/
theorem memGet_cons_ne {a x : Nat} {b : Byte} {m : Mem} (hm : memWfFrom (a + 1) m = true) (h : a ≠ x) :
    memGet ((a, b) :: m) x = memGet m x := by
  rw [memGet, if_neg h]
  split_ifs with hx
  · exact (memGet_low hm (by omega)).symm
  · rfl

/-- Bytes dropped by their addresses read 0, and the others as before. -/
theorem memGet_filter (keep : Nat → Bool) (x : Nat) : ∀ {m : Mem} {lo : Nat}, memWfFrom lo m = true →
    memGet (m.filter fun e => keep e.1) x = if keep x then memGet m x else 0
  | [], _, _ => (ite_self _).symm
  | (a, b) :: m, lo, hm => by
    simp only [memWfFrom, Bool.and_eq_true] at hm
    obtain ⟨-, hm⟩ := hm
    have ih := memGet_filter keep x hm
    rw [List.filter_cons]
    rcases eq_or_ne a x with rfl | ha
    · cases hk : keep a
      · simpa [hk] using ih
      · simp [memGet]
    · rw [memGet_cons_ne hm ha, ← ih]
      cases keep a
      · rfl
      · exact memGet_cons_ne (memFilter_wf _ hm) ha

/-- A range of zeros reads 0, and every byte outside it as before. -/
theorem State.memGet_zeroRange (hm : s.mem.wf = true) (a n x : Nat) : memGet (s.zeroRange a n).mem.bytes x =
    if a ≤ x ∧ x < a + n then 0 else memGet s.mem.bytes x := by
  refine (memGet_filter (fun y => !(decide (a ≤ y) && decide (y < a + n))) x hm).trans ?_
  by_cases h : a ≤ x ∧ x < a + n <;> simp [h]

end Zeros

/-! ### Generations (R285 to R288) -/

section Generations

variable {s : State} {t table g : Nat} {h : CmdHdr} {x : FTable}

theorem State.table_modTable (k : Nat) (f : FTable → FTable) (s : State) :
    (s.modTable k f).table k = (s.table k).map f := tget_tmod _ _ _

theorem State.mem_modTable (k : Nat) (f : FTable → FTable) (s : State) : (s.modTable k f).mem = s.mem := rfl

/-- What a `GENERATION_STAGE` writes: the header of the image and the zeros of its index (R286). -/
def State.writeImage (y : Generation) (s : State) : State :=
  (s.poke y.base (imageHeader y.g y.n)).zeroRange (y.base + 16384) (64 * y.buckets)

theorem length_imageHeader (g n : Nat) : (imageHeader g n).length = 64 := length_leBytes 64 _

theorem State.models_poke (a : Nat) (bs : List Byte) (s : State) : (s.poke a bs).models = s.models :=
  (poke_told a bs).models

theorem State.models_zeroRange (a n : Nat) (s : State) : (s.zeroRange a n).models = s.models := rfl

theorem State.table_writeImage (y : Generation) (k : Nat) (s : State) : (s.writeImage y).table k = s.table k := by
  rw [State.table, State.writeImage, State.models_zeroRange, State.models_poke, State.table]

theorem State.memGet_writeImage (hm : s.mem.wf = true) (y : Generation) (a : Nat) :
    memGet (s.writeImage y).mem.bytes a =
      if y.base + 16384 ≤ a ∧ a < y.base + 16384 + 64 * y.buckets then 0
      else memGet (s.poke y.base (imageHeader y.g y.n)).mem.bytes a :=
  State.memGet_zeroRange (State.poke_wf hm _ _) _ _ _

/-- The header of a new image (R275). -/
theorem State.memGet_writeImage_header (hm : s.mem.wf = true) (y : Generation) {i : Nat} (hi : i < 64) :
    memGet (s.writeImage y).mem.bytes (y.base + i) = ((imageHeader y.g y.n)[i]?).getD 0 := by
  have hlen : i < (imageHeader y.g y.n).length := (length_imageHeader _ _).symm ▸ hi
  rw [State.memGet_writeImage hm, if_neg (by omega), State.memGet_poke_add hm _ _ hlen,
    List.getElem?_eq_getElem hlen, Option.getD_some]

/-- The index of a new image is empty (R276). -/
theorem State.memGet_writeImage_index (hm : s.mem.wf = true) (y : Generation) {a : Nat}
    (hlo : y.base + 16384 ≤ a) (hhi : a < y.base + 16384 + 64 * y.buckets) :
    memGet (s.writeImage y).mem.bytes a = 0 := by
  rw [State.memGet_writeImage hm, if_pos ⟨hlo, hhi⟩]

/-- No other byte changes. -/
theorem State.memGet_writeImage_other (hm : s.mem.wf = true) (y : Generation) {a : Nat}
    (hh : a < y.base ∨ y.base + 64 ≤ a) (hx : a < y.base + 16384 ∨ y.base + 16384 + 64 * y.buckets ≤ a) :
    memGet (s.writeImage y).mem.bytes a = memGet s.mem.bytes a := by
  rw [State.memGet_writeImage hm, if_neg (by omega)]
  exact State.poke_other hm _ _ _ (by rwa [length_imageHeader])

/-- What a `GENERATION_STAGE` may ask for (R286). -/
structure StageGood (h : CmdHdr) (x : FTable) (y : Generation) (s : State) : Prop where
  ready : Ready h 0x0A04 false s
  room : x.gens.length < 2
  number : y.g < 256
  next : x.genBad y.g = false
  aligned : y.base % 4096 = 0
  small : 10 ≤ y.log2Buckets
  large : y.log2Buckets ≤ 30
  access : s.mayAccess x.owner 1 y.base (x.imageBytes y) = true
  software : inSoftware y.base (x.imageBytes y) = true
  apart : s.imageMeets y.base (x.imageBytes y) = false

theorem TableRight.exec_generationStage (k : TableRight h table x s) {y : Generation} (hy : y =
    ({ g := y.g, state := .loading, base := y.base, log2Buckets := y.log2Buckets, n := y.n } : Generation))
    (c : StageGood h x y s) : exec (.generationStage t h table y.g y.log2Buckets y.base y.n) s =
      .next ((((s.at t).writeImage y).modTable table fun x => { x with gens := x.gens ++ [y] }).answer h 0x0A04 .ok
        noDetail []) := by
  refine isain_done c.ready rfl k.hasTable k.ownsTable ?_
  rw [State.table_at, k.made]
  dsimp only
  rw [← hy]
  refine checks_pass ?_
  have hmeets : (s.at t).imageMeets y.base (x.imageBytes y) = false := c.apart
  simp [c.room, c.number, c.next, c.aligned, c.small, c.large, c.access, c.software, hmeets]

theorem TableRight.exec_generationSeal (k : TableRight h table x s) (r : Ready h 0x0A05 false s) {y : Generation}
    (hy : x.gen g = some y) (hs : y.state = .loading) (hd : y.dropping = false)
    (hr : s.mem.readable y.base 64 = true) (hh : s.headerGood y = true) :
    exec (.generationSeal t h table g) s = .next ((((s.at t).touch y.base 64 0).modTable table
      (FTable.modGen g fun y => { y with state := .sealed })).answer h 0x0A05 .ok noDetail []) := by
  refine isain_done r rfl k.hasTable k.ownsTable ?_
  have hr' : (s.at t).mem.readable y.base 64 = true := hr
  simp only [State.table_at, k.made, Option.bind_some, hy, hs, hd, hr', State.headerGood_at, hh]
  rfl

theorem TableRight.exec_generationDrop (k : TableRight h table x s) (r : Ready h 0x0A07 false s) {y : Generation}
    (hy : x.gen g = some y) (hs : y.state = .loading ∨ y.state = .sealed) :
    exec (.generationDrop t h table g) s = .next (((s.at t).modTable table
      (FTable.modGen g fun y => { y with dropping := true })).answer h 0x0A07 .ok noDetail []) := by
  refine isain_done r rfl k.hasTable k.ownsTable ?_
  simp [k.made, hy, hs, okReply]

theorem TableRight.exec_generationDrop_live (k : TableRight h table x s) (r : Ready h 0x0A07 false s)
    {y : Generation} (hy : x.gen g = some y) (hs : y.state = .current ∨ y.state = .retiring) :
    exec (.generationDrop t h table g) s = .next ((s.at t).answer h 0x0A07 .eState noDetail []) := by
  refine isain_refuse r rfl k.hasTable k.ownsTable ?_
  rcases hs with hs | hs <;> simp [k.made, hy, hs, no]

theorem exec_generationDropDone_unread {y : Generation} (hr : s.running = true) (hx : s.table table = some x)
    (hy : x.gen g = some y) (hd : y.dropping = true) (hs : s.servedFrom table g = false) :
    exec (.generationDropDone t table g) s = .next ((s.at t).modTable table (FTable.freeGen g)) := by
  rw [exec_generationDropDone]
  exact happen_pos (by simp [hr, hx, hy, hd, hs])

theorem State.genOf_some {y : Generation} (hx : s.table table = some x) (hy : x.gen g = some y) :
    s.genOf table g = some (x, y) := by
  rw [State.genOf, hx, Option.bind_some, hy, Option.map_some]

theorem exec_generationRetire_freeable {y : Generation} (hr : s.running = true) (hx : s.table table = some x)
    (hy : x.gen g = some y) (hf : (s.at t).genFreeable table x y = true) :
    exec (.generationRetire t table g) s = .next (((s.at t).modTable table (FTable.freeGen g)).event
      x.owner 0x0005 [(16, table), (8, g)] 0) := by
  rw [exec_generationRetire]
  refine (happen_pos ?_).trans ?_
  · simp [hr, State.genOf_some hx hy, hf]
  · simp [hx]

end Generations

/-! ### How fetches end (R281 to R283) -/

section Fetches

variable {s : State} {t tag : Nat} {f : Fetch} {x : FTable} {g : Generation}

/-- What a lookup answers does not depend on the time. -/
theorem State.lookPlaces_at (t : Nat) (x : FTable) (g : Generation) (key : W64) (s : State) :
    ∀ l : List Nat, (s.at t).lookPlaces x g key l = s.lookPlaces x g key l
  | [] => rfl
  | pos :: rest => by
    rw [State.lookPlaces, State.lookPlaces, State.lookPlaces_at t x g key s rest]
    rfl

theorem State.lookup_at (t : Nat) (x : FTable) (g : Generation) (key : W64) (s : State) :
    (s.at t).lookup x g key = s.lookup x g key := State.lookPlaces_at t x g key s _

theorem State.lookAgain_at (t : Nat) (x : FTable) (g : Generation) (key : W64) (addr pos : Nat) (s : State) :
    (s.at t).lookAgain x g key addr pos = s.lookAgain x g key addr pos := by
  rw [State.lookAgain, State.lookAgain, State.lookPlaces_at]
  rfl

theorem Look.checked_clean (l : Look) : l.checked .clean = l := rfl

/-- A fetch whose lookup of this device is under way: it joined none, waits for no place and asks no other device. -/
structure LookupRuns (tag : Nat) (f : Fetch) (x : FTable) (g : Generation) (s : State) : Prop where
  moves : s.moving = true
  fetch : s.fetch tag = some f
  alone : f.joins = none
  placed : f.parked = false
  here : f.remote = false
  reads : s.genOf f.reads.1 f.reads.2 = some (x, g)

theorem LookupRuns.isLocal (k : LookupRuns tag f x g s) : f.local' = true := by
  simp [Fetch.local', k.alone, k.placed, k.here]

/-- What a lookup that has ended does, where a locked entry is not read again (R281). -/
theorem State.fetchLook_locked {l : Look} {a pos : Nat} (hl : l.last = .locked a pos) (hf : s.fetch tag = some f) :
    s.fetchLook tag x l = if f.lockReads = 4 then s.endFetch tag .locked
      else s.modFetch tag fun f => { f with
        lockReads := f.lockReads + 1, lockDue := s.tick + 200, lockAddr := a, lockPos := pos } := by
  rw [State.fetchLook, hl]
  dsimp only
  rw [hf]

/-- A lookup's reads and bad entries leave the fetches as they are. -/
theorem State.looked_told (table : Nat) (l : Look) (s : State) : ToldOnly s (s.looked table l) := by
  have hread := foldl_told (f := fun s (r : Nat × Nat) => s.touch r.1 r.2 0) (fun s r => touch_told _ _ _) l.reads s
  unfold State.looked
  dsimp only
  split_ifs
  · exact hread
  · exact hread.trans (countN_told _ _ _)

theorem State.fetch_looked (table : Nat) (l : Look) (s : State) (tag : Nat) :
    (s.looked table l).fetch tag = s.fetch tag :=
  congrArg (fun m : Models => tget m.fetches tag) (s.looked_told table l).models

theorem State.tick_looked (table : Nat) (l : Look) (s : State) : (s.looked table l).tick = s.tick :=
  (s.looked_told table l).tick

/-- A lookup's first pass ends (R280, R281). -/
theorem LookupRuns.exec_localLookupDone (k : LookupRuns tag f x g s) (hl : f.lockReads = 0)
    (he : max s.tick t ≤ f.endTick) {check : WordCheck} {u : State}
    (hu : u = (s.at t).strike (s.lookup x g f.key).reads check) : exec (.localLookupDone t tag check) s =
      .next (((u.looked f.reads.1 ((u.lookup x g f.key).checked check)).fetchLook tag x
        ((u.lookup x g f.key).checked check)).unparkAll) := by
  rw [Machine.exec_localLookupDone]
  refine (happen_pos ?_).trans ?_
  · simpa [k.moves, k.fetch, k.isLocal, hl] using he
  · rw [State.fetch_at, k.fetch]
    dsimp only
    rw [State.genOf_at, k.reads]
    dsimp only
    rw [State.lookup_at, ← hu]

/-- A locked entry is read again (R281). -/
theorem LookupRuns.exec_feLockRetry (k : LookupRuns tag f x g s) (hl : f.lockReads ≠ 0)
    (hd : f.lockDue ≤ max s.tick t) (he : max s.tick t ≤ f.endTick) : exec (.feLockRetry t tag) s =
      .next ((((s.at t).looked f.reads.1 (s.lookAgain x g f.key f.lockAddr f.lockPos)).fetchLook tag x
        (s.lookAgain x g f.key f.lockAddr f.lockPos)).unparkAll) := by
  rw [Machine.exec_feLockRetry]
  refine (happen_pos ?_).trans ?_
  · simpa [k.moves, k.fetch, k.isLocal, hl] using And.intro hd he
  · rw [State.fetch_at, k.fetch]
    dsimp only
    rw [State.retryFetch, State.genOf_at, k.reads]
    dsimp only
    rw [State.lookAgain_at]

/-- A fetch that joined none waits for another device where it asks one. -/
theorem State.waitsAway_alone (h : f.joins = none) : s.waitsAway f = s.asksAway f := by
  rw [State.waitsAway, h]

/-- The end tick of a fetch that joined none has passed (R283). -/
theorem exec_fetchEndTick_due (hm : s.moving = true) (hf : s.fetch tag = some f) (ha : f.joins = none)
    (he : f.endTick ≤ max s.tick t) : exec (.fetchEndTick t tag) s =
      .next (if s.asksAway f && decide (f.endTick < f.cut) then ((s.at t).fallAlone tag f).unparkAll
        else ((s.at t).endAlone tag .timeout).unparkAll) := by
  rw [exec_fetchEndTick]
  refine (happen_pos ?_).trans ?_
  · simpa [hm, hf] using he
  · have haway : (s.at t).waitsAway f = s.asksAway f := State.waitsAway_alone ha
    rw [State.fetch_at, hf]
    dsimp only
    rw [haway, ha]
    rfl

theorem exec_localLookupDone_late {c : Nat} {check : WordCheck} (hm : s.moving = true) (hf : s.fetch tag = none)
    (hl : tget s.models.late tag = some c) :
    exec (.localLookupDone t tag check) s = .next ((s.at t).lateLook tag c) := by
  have hl' : tget (s.at t).models.late tag = some c := hl
  rw [exec_localLookupDone]
  refine (happen_pos ?_).trans ?_
  · simp [hm, hf, hl]
  · rw [State.fetch_at, hf]
    dsimp only
    rw [hl']

end Fetches

/-- Settles O36: the commands on tables and generations pass their checks, and each fetch ends as its lookup does. -/
theorem featureTables : Obligations.FeatureTables := by
  unfold Obligations.FeatureTables
  refine ⟨fun t table h x s => ⟨fun spec r hn hr hc hb ha => ?create, fun hx ho => ?table⟩,
    fun t table g h x s hx => ⟨fun ho hw => ?gens, ?dropDone, ?retire⟩,
    fun t tag f x g s hm hf ha => ⟨fun hp hh hg => ⟨fun hl he => ?ends, fun hl hd he => ?again⟩, ?timeout, ?falls⟩,
    fun t tag c check s => exec_localLookupDone_late⟩
  case create =>
    have k : CreateTableGood h table spec s := ⟨r, hn, hr, hc, hb, ha⟩
    refine ⟨fun hfree hall hown => ⟨_, k.exec_ftableCreate hfree hall hown, ?_, rfl, fun j hj => ?_, ?_⟩,
      k.exec_ftableCreate_inUse⟩
    · rw [State.table_keep]
      exact tget_tset _ _ _
    · rw [State.table_keep]
      exact tget_tset_ne _ _ hj
    · rw [State.keep_eq]
      rfl
  case table =>
    have k : TableRight h table x s := ⟨hx, ho⟩
    refine ⟨fun r hgens hread hback => ⟨_, k.exec_ftableDestroy r hgens hread hback, ?_, fun j hj => ?_⟩,
      k.exec_ftableDestroy_used, fun y r hy => k.exec_ftableQuery r hy⟩
    · rw [State.table_keep]
      exact tget_tdel _ _
    · rw [State.table_keep]
      exact tget_tdel_ne _ hj
  case gens =>
    have k : TableRight h table x s := ⟨hx, ho⟩
    refine ⟨?_, fun y r => k.exec_generationSeal r, fun y r hy =>
      ⟨k.exec_generationDrop r hy, k.exec_generationDrop_live r hy⟩⟩
    intro lb base n y hy r hroom hnum hnext hal hsmall hlarge hacc hsoft hapart
    obtain rfl : y.g = g := by rw [hy]
    obtain rfl : y.base = base := by rw [hy]
    obtain rfl : y.n = n := by rw [hy]
    obtain rfl : y.log2Buckets = lb := by rw [hy]
    have hw' : (s.at t).mem.wf = true := hw
    refine ⟨_, k.exec_generationStage hy ⟨r, hroom, hnum, hnext, hal, hsmall, hlarge, hacc, hsoft, hapart⟩, ?_, ?_⟩
    · rw [State.table_modTable, State.table_writeImage, State.table_at, hx]
      rfl
    · rw [State.mem_modTable]
      exact ⟨fun i hi => State.memGet_writeImage_header hw' y hi,
        fun a hlo hhi => State.memGet_writeImage_index hw' y hlo hhi,
        fun a hh hi => State.memGet_writeImage_other hw' y hh hi⟩
  case dropDone => exact fun y hr hy hd hs => exec_generationDropDone_unread hr hx hy hd hs
  case retire => exact fun y hr hy hf => exec_generationRetire_freeable hr hx hy hf
  case ends =>
    have k : LookupRuns tag f x g s := ⟨hm, hf, ha, hp, hh, hg⟩
    have hclean := k.exec_localLookupDone (t := t) (check := .clean) hl he rfl
    refine ⟨fun e hlast => hclean.trans ?_, fun hlast => hclean.trans ?_, fun u hu =>
      k.exec_localLookupDone hl he hu⟩
    · rw [State.strike_clean, State.lookup_at, Look.checked_clean, State.fetchLook, hlast]
    · rw [State.strike_clean, State.lookup_at, Look.checked_clean, State.fetchLook, hlast]
  case again =>
    rintro l rfl
    have k : LookupRuns tag f x g s := ⟨hm, hf, ha, hp, hh, hg⟩
    have hretry := k.exec_feLockRetry (t := t) hl hd he
    have hf' : (s.at t).fetch tag = some f := hf
    refine ⟨fun e hlast => hretry.trans ?_, fun a pos hlast h4 => hretry.trans ?_, fun a pos hlast h4 =>
      hretry.trans ?_⟩
    · rw [State.fetchLook, hlast]
    · rw [State.fetchLook_locked hlast ((State.fetch_looked _ _ _ _).trans hf'), if_pos h4]
    · rw [State.fetchLook_locked hlast ((State.fetch_looked _ _ _ _).trans hf'), if_neg h4.ne, State.tick_looked]
      rfl
  case timeout =>
    intro he hno
    rw [exec_fetchEndTick_due hm hf ha he, if_neg]
    rcases hno with h | h <;> simp [h]
  case falls =>
    intro he haway hlt
    rw [exec_fetchEndTick_due hm hf ha he, haway, if_pos (by simpa using hlt)]

end Sys2Proof.Machine

namespace Sys2Proof.Machine

/-! ### Staging sets (R309, R310, R396) -/

section Staging

variable {s : State} {t domain handle addr len : Nat} {h : CmdHdr} {bindings : List (List Nat)} {m : Model}

/-- The issuer may act on a domain that exists (R396). -/
structure DomainRight (h : CmdHdr) (domain : Nat) : Prop where
  numbered : domain ≤ 0x40
  owned : h.part = 0 ∨ h.part = domainOwner domain

theorem DomainRight.owns (k : DomainRight h domain) : ownsDomain h domain = true := by
  simpa [ownsDomain, Machine.owns] using k.owned

theorem DomainRight.good (k : DomainRight h domain) : domainBad domain = false :=
  decide_eq_false (Nat.not_lt.2 k.numbered)

/-- The checks of a `MODEL_STAGE` before the one of its handle pass (R309). -/
structure ModelStageGood (h : CmdHdr) (domain handle addr len : Nat) (bindings : List (List Nat)) (m : Model)
    (s : State) : Prop where
  right : DomainRight h domain
  ready : Ready h 0x0B01 false s
  parsed : m = s.parseModel handle addr len bindings
  free : s.domainBusy domain = false
  aligned : addr % 64 = 0
  headed : 64 ≤ len
  inside : inDevice addr len = true
  access : s.mayAccess (domainOwner domain) 1 addr len = true
  container : s.containerGood domain addr len m = true
  budget : m.packet = true ∨ m.params.maxBudget < s.eg.holdMax
  tables : ∀ k ∈ m.tables, ∃ y, s.table k = some y ∧ y.owner = domain
  fetches : s.fetchesGood m = true
  clusters : s.foreign domain bindings = false

theorem ModelStageGood.tables_made (k : ModelStageGood h domain handle addr len bindings m s) :
    m.tables.any (fun j => (s.table j).isNone) = false :=
  List.any_eq_false.2 fun j hj => by
    obtain ⟨y, hy, -⟩ := k.tables j hj
    simp [hy]

theorem ModelStageGood.tables_owned (k : ModelStageGood h domain handle addr len bindings m s) :
    m.tables.any (fun j => (s.table j).map (·.owner) != some domain) = false :=
  List.any_eq_false.2 fun j hj => by
    obtain ⟨y, hy, ho⟩ := k.tables j hj
    simp [hy, ho]

/-- What a `MODEL_STAGE` whose container is good comes to: the check of its handle, and what follows it. -/
theorem ModelStageGood.exec_modelStage (k : ModelStageGood h domain handle addr len bindings m s) {st : Status} {u : State}
    (hu : Reply.after ((s.at t).touch addr len 0) (checks
      [((s.domain domain).staging.models.any (fun y => y.handle == handle) ||
          (s.domain domain).staging.removed.contains handle, .eConflict),
       (decide (256 < ((s.domain domain).handlesWith handle).length) || !s.sharesFit m, .eNospace)]
      (okReply (((s.at t).touch addr len 0).modDomain domain fun x => { x with
        staging := { x.staging with models := x.staging.models ++ [m] } }))) = .done st [] u) :
    exec (.modelStage t h domain handle addr len bindings) s = .next (u.answer h 0x0B01 st noDetail []) := by
  rw [Machine.exec_modelStage]
  refine isain_done k.ready rfl rfl k.right.owns ?_
  dsimp only
  rw [State.parseModel_at, ← k.parsed]
  refine (checks_pass ?_).trans ?_
  · simp [k.right.good, k.free, k.aligned, k.headed, k.inside, k.access]
  · refine (congrArg (Reply.after _) (checks_append (l := [_, _, _, _, _, _]) ?_)).trans hu
    have hbudget (hp : m.packet = false) : decide (s.eg.holdMax ≤ m.params.maxBudget) = false :=
      decide_eq_false (Nat.not_le.2 (k.budget.resolve_left (by simp [hp])))
    simp [k.container, k.tables_made, k.tables_owned, k.fetches, k.clusters, -decide_eq_false_iff_not]
    exact hbudget

/-- A container that passes every check is staged under its handle (R309). -/
theorem ModelStageGood.exec_modelStage_fresh (k : ModelStageGood h domain handle addr len bindings m s)
    (hn : ((s.domain domain).handlesWith handle).length ≤ 256) (hf : s.sharesFit m = true)
    (hs : ∀ y ∈ (s.domain domain).staging.models, y.handle ≠ handle)
    (hr : (s.domain domain).staging.removed.contains handle = false) :
    exec (.modelStage t h domain handle addr len bindings) s =
      .next ((((s.at t).touch addr len 0).modDomain domain fun x => { x with
        staging := { x.staging with models := x.staging.models ++ [m] } }).answer h 0x0B01 .ok noDetail []) := by
  have hstaged : (s.domain domain).staging.models.any (fun y => y.handle == handle) = false :=
    List.any_eq_false.2 fun y hy => by simpa using hs y hy
  refine k.exec_modelStage (congrArg (Reply.after _) (checks_pass ?_))
  simpa [hstaged, hf, hn] using hr

/-- A handle that is staged or removed in the set is refused (R309). -/
theorem ModelStageGood.exec_modelStage_conflict (k : ModelStageGood h domain handle addr len bindings m s)
    (hs : (∃ y ∈ (s.domain domain).staging.models, y.handle = handle) ∨
      (s.domain domain).staging.removed.contains handle = true) :
    exec (.modelStage t h domain handle addr len bindings) s =
      .next (((s.at t).touch addr len 0).answer h 0x0B01 .eConflict noDetail []) := by
  have htaken : ((s.domain domain).staging.models.any (fun y => y.handle == handle) ||
      (s.domain domain).staging.removed.contains handle) = true := by
    simpa [List.any_eq_true] using hs
  exact k.exec_modelStage (by rw [checks, htaken]; rfl)

/-- A live handle is marked for removal (R310). -/
theorem exec_modelRemove_live (k : DomainRight h domain) (r : Ready h 0x0B02 false s)
    (hl : (s.liveModel domain handle).isSome = true) (hb : s.domainBusy domain = false) :
    exec (.modelRemove t h domain handle) s = .next (((s.at t).modDomain domain fun x => { x with
      staging := { x.staging with removed := x.staging.removed.filter (· != handle) ++ [handle] } }).answer
        h 0x0B02 .ok noDetail []) :=
  isain_done r rfl hl k.owns (checks_pass (by simp [hb]))

theorem exec_modelAbort_free (k : DomainRight h domain) (r : Ready h 0x0B03 false s)
    (hb : s.domainBusy domain = false) :
    exec (.modelAbort t h domain) s = .next (((s.at t).modDomain domain fun x => { x with
      staging := {} }).answer h 0x0B03 .ok noDetail []) :=
  isain_done r rfl rfl k.owns (checks_pass (by simp [k.good, hb]))

/-- While a commit waits, an abort is refused (R313). -/
theorem exec_modelAbort_busy (k : DomainRight h domain) (r : Ready h 0x0B03 false s)
    (hb : s.domainBusy domain = true) :
    exec (.modelAbort t h domain) s = .next ((s.at t).answer h 0x0B03 .busy noDetail []) :=
  isain_refuse r rfl rfl k.owns (by simp [checks, k.good, hb, no])

theorem exec_modelQuery_free {start max : Nat} (k : DomainRight h domain) (r : Ready h 0x0B05 true s)
    (hb : s.domainBusy domain = false) : ∃ words, exec (.modelQuery t h domain start max) s =
      .next ((s.at t).answer h 0x0B05 .ok noDetail words) :=
  ⟨_, isain_done r rfl rfl k.owns (checks_pass (by simp [k.good, hb]))⟩

end Staging

/-! ### Pattern sets staged (R127, R128) -/

section PatternSets

variable {s : State} {t setId addr len : Nat} {h : CmdHdr} {fromL2 : Bool} {pats : List Pattern}

/-- The checks of a `PATTERN_LOAD` pass (R127). -/
structure PatternsGood (h : CmdHdr) (setId addr len : Nat) (pats : List Pattern) (s : State) : Prop where
  ready : Ready h 0x0605 false s
  small : setId < 256
  inside : inSoftware addr len = true
  access : s.mayAccess h.part 1 addr len = true
  owned : ∀ x, tget s.parser.sets setId = some x → x.owner = h.part
  free : s.domainBusy h.part = false
  readable : s.mem.readable addr len = true
  good : pats.all patternGood = true
  distinct : (pats.map (·.id)).Nodup
  entries : (s.patternsWith h.part setId pats.length).2 ≤ 131072
  live : (s.patternsWith h.part setId pats.length).1 ≤ 65536

theorem PatternsGood.owner_pass (k : PatternsGood h setId addr len pats s) :
    ((tget s.parser.sets setId).map (·.owner)).getD h.part = h.part := by
  cases hx : tget s.parser.sets setId with
  | none => simp
  | some x => simp [k.owned x hx]

/-- The state a `PATTERN_LOAD` leaves: the version is staged in its owner's domain (R128). -/
def State.loadPatterns (part setId addr len : Nat) (v : PatternVer) (s : State) : State :=
  ((s.touch addr len 0).updParser fun p => { p with
    sets := tup p.sets setId { owner := part } id }).modDomain part fun x => { x with staging := { x.staging with
      patterns := (x.staging.patterns.filter fun e => e.1 != setId) ++ [(setId, v)] } }

theorem PatternsGood.exec_patternLoad (k : PatternsGood h setId addr len pats s) :
    exec (.patternLoad t h setId addr len fromL2 pats) s =
      .next (((s.at t).loadPatterns h.part setId addr len { fromL2 := fromL2, pats := pats, since := 0 }).answer
        h 0x0605 .ok noDetail []) := by
  have hheld : (s.at t).patternsWith h.part setId pats.length = s.patternsWith h.part setId pats.length := rfl
  rw [Machine.exec_patternLoad]
  refine isain_done k.ready rfl rfl rfl ?_
  dsimp only
  rw [hheld]
  refine (checks_pass ?_).trans (congrArg (Reply.after _) (checks_pass ?_))
  · simp [Nat.not_le.2 k.small, k.inside, k.access, k.free, k.owner_pass]
  · simpa [k.readable, k.distinct, Nat.not_lt.2 k.entries, Nat.not_lt.2 k.live] using k.good

theorem State.staging_loadPatterns (part setId addr len : Nat) (v : PatternVer) (s : State) :
    ((s.loadPatterns part setId addr len v).domain part).staging.patterns =
      ((s.domain part).staging.patterns.filter fun e => e.1 != setId) ++ [(setId, v)] := by
  have hmodels : (s.touch addr len 0).models = s.models := (touch_told addr len 0).models
  rw [State.loadPatterns, State.domain_modDomain]
  dsimp only
  rw [show ((s.touch addr len 0).updParser _).domain part = s.domain part from
    congrArg (fun m : Models => tgetD m.domains part {}) hmodels]

theorem State.sets_loadPatterns (part setId addr len : Nat) (v : PatternVer) (s : State) :
    (tget (s.loadPatterns part setId addr len v).parser.sets setId).map (·.vers) =
      some (((tget s.parser.sets setId).map (·.vers)).getD []) := by
  have hparser : (s.touch addr len 0).parser = s.parser := (touch_told addr len 0).parser
  have hsets : (s.loadPatterns part setId addr len v).parser.sets =
      tup s.parser.sets setId { owner := part } id := by rw [← hparser]; rfl
  rw [hsets, tget_tup, tgetD]
  cases tget s.parser.sets setId <;> rfl

end PatternSets

/-! ### Commits (R310 to R312) -/

section Commit

variable {s : State} {t domain : Nat} {h : CmdHdr}

/-- A commit of a set that is empty, or while something old is live, is refused (R311). -/
theorem exec_modelCommit_refused (k : DomainRight h domain) (r : Ready h 0x0B04 false s)
    (hb : s.domainBusy domain = false)
    (he : (s.domain domain).staging.isEmpty = true ∨ s.commitWaits domain = true) :
    exec (.modelCommit t h domain) s = .next ((s.at t).answer h 0x0B04 .eState noDetail []) := by
  have hrefused : ((s.domain domain).staging.isEmpty || s.commitWaits domain || s.removedNamed domain ||
      s.stagingStale domain) = true := by
    rcases he with he | he <;> simp [he]
  exact isain_refuse r rfl rfl k.owns (by simp [checks, k.good, hb, hrefused, no])

/-- A staging set that a commit may make live (R310, R311). -/
structure FlipGood (domain : Nat) (s : State) : Prop where
  full : (s.domain domain).staging.isEmpty = false
  named : s.removedNamed domain = false
  fresh : s.stagingStale domain = false

/-- The answer of a commit that has flipped its domain (R311). -/
def State.flipAnswered (domain : Nat) (h : CmdHdr) (s : State) : State :=
  (s.flip domain).answer h 0x0B04 .ok noDetail (pack [(16, ((s.flip domain).domain domain).epoch)])

theorem FlipGood.exec_modelCommit (c : FlipGood domain s) (k : DomainRight h domain)
    (r : Ready h 0x0B04 false s) (hb : s.domainBusy domain = false) (hw : s.commitWaits domain = false) :
    exec (.modelCommit t h domain) s = .next ((s.at t).flipAnswered domain h) :=
  isain_done r rfl rfl k.owns (checks_pass (by simp [k.good, hb, hw, c.full, c.named, c.fresh]))

/-- With `wait`, a commit is held while something old is live (R311). -/
theorem FlipGood.exec_modelCommitWait_held (c : FlipGood domain s) (k : DomainRight h domain)
    (r : Ready h 0x0B04 false s) (hb : s.domainBusy domain = false) (hw : s.commitWaits domain = true)
    (ht : timeoutBad h = false) :
    exec (.modelCommitWait t h domain) s = .next ((s.at t).modDomain domain fun x => { x with
      waiting := some { h := h, due := max s.tick t + timeoutOf h } }) := by
  refine isain_wait r rfl rfl k.owns ((checks_pass ?_).trans (if_pos hw))
  simp [k.good, hb, ht, c.full, c.named, c.fresh]

/-- With `wait`, a commit goes through at once where nothing old is live (R311). -/
theorem FlipGood.exec_modelCommitWait_through (c : FlipGood domain s) (k : DomainRight h domain)
    (r : Ready h 0x0B04 false s) (hb : s.domainBusy domain = false) (hw : s.commitWaits domain = false)
    (ht : timeoutBad h = false) :
    exec (.modelCommitWait t h domain) s = .next ((s.at t).flipAnswered domain h) := by
  refine isain_done r rfl rfl k.owns ((checks_pass ?_).trans (if_neg (Bool.eq_false_iff.1 hw)))
  simp [k.good, hb, ht, c.full, c.named, c.fresh]

/-- A commit is held that nothing old holds up any more (R311). -/
structure FlipDue (domain : Nat) (w : CommitWait) (s : State) : Prop where
  runs : s.running = true
  up : s.bay.isainUp = true
  waiting : (s.domain domain).waiting = some w
  retired : s.commitWaits domain = false

variable {w : CommitWait}

theorem FlipDue.guard (k : FlipDue domain w s) : ((s.at t).running && (s.at t).bay.isainUp &&
    (s.at t).domainBusy domain && !(s.at t).commitWaits domain) = true := by
  simp [State.domainBusy, k.runs, k.up, k.waiting, k.retired]

theorem FlipDue.exec_modelCommitFlip (k : FlipDue domain w s) (c : FlipGood domain s) :
    exec (.modelCommitFlip t domain) s = .next ((s.at t).flipAnswered domain w.h) := by
  rw [Machine.exec_modelCommitFlip]
  refine (happen_pos k.guard).trans ?_
  rw [State.domain_at, k.waiting]
  dsimp only
  rw [c.full, State.removedNamed_at, c.named, State.stagingStale_at, c.fresh]
  rfl

/-- A held commit whose set has become empty or stale is refused (R311). -/
theorem FlipDue.exec_modelCommitFlip_refused (k : FlipDue domain w s)
    (he : s.stagingStale domain = true ∨ (s.domain domain).staging.isEmpty = true) :
    exec (.modelCommitFlip t domain) s = .next (((s.at t).modDomain domain fun x => { x with
      waiting := none }).answer w.h 0x0B04 .eState noDetail []) := by
  have hrefused : ((s.domain domain).staging.isEmpty || s.removedNamed domain ||
      s.stagingStale domain) = true := by
    rcases he with he | he <;> simp [he]
  rw [Machine.exec_modelCommitFlip]
  refine (happen_pos k.guard).trans ?_
  rw [State.domain_at, k.waiting]
  dsimp only
  rw [State.removedNamed_at, State.stagingStale_at, if_pos hrefused]

end Commit

/-! ### Retirement of an epoch (R312) -/

section Retirement

variable {s : State} {t domain e : Nat}

/-- A core without what it kept for an epoch of a domain: its stage costs and bad copies (R312). -/
def Core.forgetEpoch (domain e : Nat) (k : Core) : Core :=
  { k with
    stageCost := k.stageCost.filter fun y => !(y.1.1 == domain && y.1.2.2.1 == e)
    badShards := k.badShards.filter fun y => !(y.1 == domain && y.2.2 == e)
    deadShards := k.deadShards.filter fun y => !(y.1 == domain && y.2.2 == e)
    shardNodes := k.shardNodes.filter fun y => !(y.1.1 == domain && y.1.2.2 == e) }

theorem Core.badShards_forgetEpoch {k : Core} {y : Nat × Nat × Nat} (hy : y ∈ (k.forgetEpoch domain e).badShards) :
    ¬ (y.1 = domain ∧ y.2.2 = e) := by
  simpa [← not_and_or, -not_and] using (List.mem_filter.1 hy).2

theorem Core.deadShards_forgetEpoch {k : Core} {y : Nat × Nat × Nat}
    (hy : y ∈ (k.forgetEpoch domain e).deadShards) : ¬ (y.1 = domain ∧ y.2.2 = e) := by
  simpa [← not_and_or, -not_and] using (List.mem_filter.1 hy).2

/-- The state in which an epoch of a domain has retired (R312). -/
def State.retireEpoch (domain e : Nat) (s : State) : State :=
  ((s.modDomain domain fun x => { x with retiring := none }).updParser fun p => { p with
    sets := p.sets.map fun x => if x.2.owner = domain then (x.1, x.2.newest) else x }).updComp fun c => { c with
      cores := c.cores.map fun k => (k.1, k.2.forgetEpoch domain e) }

theorem State.domain_retireEpoch_self :
    ((s.retireEpoch domain e).domain domain).retiring = none :=
  congrArg Domain.retiring (State.domain_modDomain (s := s) domain _)

theorem State.domain_retireEpoch_ne {d : Nat} (hd : d ≠ domain) :
    (s.retireEpoch domain e).domain d = s.domain d :=
  State.domain_modDomain_ne (s := s) _ hd

theorem exec_epochRetire_unheld {ms : List Model} (hr : s.running = true)
    (he : (s.domain domain).retiring = some (e, ms)) (hh : s.epochHeld domain e = false) :
    exec (.epochRetire t domain) s =
      .next (((s.at t).retireEpoch domain e).event (domainOwner domain) 0x0006 [(7, domain), (16, e)] 0) := by
  rw [exec_epochRetire]
  refine (happen_pos ?_).trans ?_
  · simp [hr, he, hh]
  · rw [State.domain_at, he]
    rfl

end Retirement

/-- Settles O39: each command on a staging set passes its checks, or is refused by the one that fails. -/
theorem modelStaging : Obligations.ModelStaging := by
  unfold Obligations.ModelStaging
  refine ⟨fun t domain handle h s hd ho => ?staging, fun t domain h s hd => ⟨fun ho r hb => ?commit,
    fun w hr hup hw hc => ?held, fun e ms hr he hh => ?retire⟩⟩
  case staging =>
    have k : DomainRight h domain := ⟨hd, ho⟩
    refine ⟨?_, exec_modelRemove_live k, exec_modelAbort_free k, exec_modelAbort_busy k,
      fun start max => exec_modelQuery_free k, ?_⟩
    · intro addr len bindings m r hm hb hal hl hin hacc hgood hbud htab hfet hfor hn hfit
      have g : ModelStageGood h domain handle addr len bindings m s :=
        ⟨k, r, hm, hb, hal, hl, hin, hacc, hgood, hbud, htab, hfet, hfor⟩
      exact ⟨g.exec_modelStage_fresh hn hfit, g.exec_modelStage_conflict⟩
    · intro setId addr len fromL2 pats r hk hin hacc hown hb hread hgood hdist hent hlive
      have g : PatternsGood h setId addr len pats s :=
        ⟨r, hk, hin, hacc, hown, hb, hread, hgood, hdist, hent, hlive⟩
      exact ⟨_, g.exec_patternLoad, State.staging_loadPatterns .., State.sets_loadPatterns ..⟩
  case commit =>
    have k : DomainRight h domain := ⟨hd, ho⟩
    refine ⟨exec_modelCommit_refused k r hb, fun hfull hnamed hfresh => ?_⟩
    have c : FlipGood domain s := ⟨hfull, hnamed, hfresh⟩
    exact ⟨c.exec_modelCommit k r hb, c.exec_modelCommitWait_held k r hb, c.exec_modelCommitWait_through k r hb⟩
  case held =>
    have k : FlipDue domain w s := ⟨hr, hup, hw, hc⟩
    exact ⟨fun hnamed hfresh hfull => k.exec_modelCommitFlip ⟨hfull, hnamed, hfresh⟩,
      k.exec_modelCommitFlip_refused⟩
  case retire =>
    refine ⟨_, exec_epochRetire_unheld hr he hh, State.domain_retireEpoch_self, fun c hc => ?_,
      fun d hne => State.domain_retireEpoch_ne hne⟩
    obtain ⟨k, -, rfl⟩ := List.mem_map.1 (show c ∈ s.comp.cores.map fun k => (k.1, k.2.forgetEpoch domain e) from hc)
    exact ⟨fun y => Core.badShards_forgetEpoch, fun y => Core.deadShards_forgetEpoch⟩

end Sys2Proof.Machine

namespace Sys2Proof.Machine

/-! ### A settings record of length 0 (R386, log entry 120) -/

section RecordLength

/-- A running device with a `MEM_CONFIG` of partition 0 read from its `COMMAND` ring 1. -/
def settingDevice : State :=
  { stoppedDevice with
    rings := { ctx := [(1, { rtype := 3, opened := [0], cmd := [0x0C01000000010000, 7, 0, 0, 0, 0, 0, 0] })] }
    obs := {} }

/-- A record of `scrub_period` with a value in its range, and the length 0. -/
def lengthless : SetRec := { id := 1, scope := 0, len := 0, value := 86400, resvBad := false }

theorem ready_settingDevice : Ready stoppedQuery 0x0C01 false settingDevice where
  up := rfl
  carrier := by decide
  lengths := rfl
  reserved := rfl
  listed := by decide
  room := rfl
  space := rfl
  enabled := rfl
  token := rfl
  allowed := by decide

/-- The length of a record is checked before its own check (R386): one of length 0 is refused. -/
theorem settings_lengthless {chk : SetRec → Option Status} {apply : State → SetRec → State}
    {whole : State → State → Option Status} {kept : State → State} {r : SetRec} {rest : List SetRec} {s : State}
    (h0 : r.len = 0) : settings chk apply whole kept (r :: rest) s = .refuse .eRange 0 := by
  simp [settings, firstBad, lenChk, h0]

theorem exec_memConfig_lengthless : exec (.memConfig 0 stoppedQuery [lengthless]) settingDevice =
    .next ((settingDevice.at 0).answer stoppedQuery 0x0C01 .eRange 0 []) := by
  rw [exec_memConfig]
  exact isain_refuse (c := { op := 0x0C01, resv := resvRec [lengthless] }) ready_settingDevice rfl rfl (isP0_of rfl)
    (settings_lengthless (r := lengthless) rfl)

/-- Two answers of a ring's command that leave the same state have one status (R101). -/
theorem status_of_answer_ring {s u : State} {h : CmdHdr} {op n d d' : Nat} {st st' : Status} {b b' : List Nat}
    {i j : W32} {l l' : List W32} (hs : s.isainUp = true) (hm : s.bay.mute = []) (hu : u.isainUp = true)
    (hm' : u.bay.mute = []) (hv : h.via = .ring n) (ho : (s.ring n).opened = i :: l) (ho' : (u.ring n).opened = j :: l')
    (he : s.answer h op st d b = u.answer h op st' d' b') : st = st' := by
  have hsent := congrArg State.sent he
  rw [State.sent_answer_ring hs hm hv ho, State.sent_answer_ring hu hm' hv ho'] at hsent
  have hresp := List.append_inj_right' hsent rfl
  injection hresp with hresp
  injection hresp

end RecordLength

/-- Refutes O51: `memChk` passes a record whatever its `sr_len`, and R386's length check, which `settings` makes
before it, stands in no `chk` of the statement's list: `settingDevice` answers a record of length 0 `E_RANGE` and
not `OK`. -/
theorem not_settingsCommands : ¬ Obligations.SettingsCommands := by
  unfold Obligations.SettingsCommands
  intro hall
  obtain ⟨hok, -⟩ := hall 0 stoppedQuery [lengthless] settingDevice rfl rfl (.memConfig 0 stoppedQuery [lengthless])
    0x0C01 memChk _ _ _ _ (List.mem_of_getElem? (i := 7) rfl) ready_settingDevice
  have hok := hok (by decide) rfl
  rw [exec_memConfig_lengthless] at hok
  injection hok with heq
  exact absurd (status_of_answer_ring rfl rfl rfl rfl rfl rfl rfl heq) (by decide)

end Sys2Proof.Machine

namespace Sys2Proof.Machine

/-! ### The read form of the settings commands (R387) -/

section ReadForm

variable {s : State} {t : Nat} {h : CmdHdr} {c : SetCmd} {recs : List SetRec} {chk : SetRec → Option Status}

theorem firstBad_eq_none {i : Nat} : ∀ {recs : List SetRec}, (∀ r ∈ recs, chk r = none) → firstBad chk i recs = none
  | [], _ => rfl
  | r :: rest, hg => by
    rw [firstBad, hg r (.head _)]
    exact firstBad_eq_none fun q hq => hg q (.tail _ hq)

/-- The first record that its check refuses, with its position. -/
theorem firstBad_eq_some {r : SetRec} {st : Status} : ∀ {recs : List SetRec} {i k : Nat}, recs[k]? = some r →
    chk r = some st → (∀ j q, j < k → recs[j]? = some q → chk q = none) → firstBad chk i recs = some (st, i + k)
  | [], _, _, hr, _, _ => nomatch hr
  | q :: rest, i, 0, hr, hst, _ => by
    obtain rfl : q = r := Option.some.inj hr
    rw [firstBad, hst]
    rfl
  | q :: rest, i, k + 1, hr, hst, hb => by
    rw [firstBad, hb 0 q k.succ_pos rfl]
    dsimp only
    rw [firstBad_eq_some (i := i + 1) (k := k) hr hst fun j x hj hx => hb (j + 1) x (Nat.succ_lt_succ hj) hx]
    simp only [Option.some.injEq, Prod.mk.injEq, true_and]
    omega

theorem State.readRight_p0 (h0 : h.part = 0) : s.readRight c h recs = none := if_pos h0

theorem unlistedAt_pass {op : Nat} (hu : unlisted h op = false) : (unlistedAt h op).1 = none := by
  simp [unlistedAt, onWhole, hu]

theorem exec_settingsReadForm_pass (h0 : h.part = 0) (hresv : resvRec recs = none) (r : Ready h (setOp c) false s)
    (hg : ∀ x ∈ recs, readChk c x = none) (hl : (recs.flatMap fun x => (s.at t).readRec c x).length ≤ 1080) :
    exec (.settingsReadForm t h c recs) s = .next ((s.at t).answerRd h (setOp c) 1 .ok noDetail
      (recs.flatMap fun x => (s.at t).readRec c x)) := by
  rw [exec_settingsReadForm]
  refine isain_done (c := { op := setOp c, rd := 1, resv := resvRec recs, late := true }) r hresv rfl rfl
    ((checksAt_pass ?_).trans ?_)
  · simp [State.readRight_p0 h0, unlistedAt_pass r.listed]
  · rw [firstBad_eq_none hg]
    exact if_neg (Nat.not_lt.2 hl)

/-- The first record whose setting or scope does not exist is refused with its position. -/
theorem exec_settingsReadForm_refused (h0 : h.part = 0) (hresv : resvRec recs = none) (r : Ready h (setOp c) false s)
    {k : Nat} {x : SetRec} {st : Status} (hx : recs[k]? = some x) (hst : readChk c x = some st)
    (hb : ∀ j q, j < k → recs[j]? = some q → readChk c q = none) :
    exec (.settingsReadForm t h c recs) s = .next ((s.at t).answerRd h (setOp c) 1 st k []) := by
  rw [exec_settingsReadForm]
  refine isain_refuse (c := { op := setOp c, rd := 1, resv := resvRec recs, late := true }) r hresv rfl rfl
    ((checksAt_pass ?_).trans ?_)
  · simp [State.readRight_p0 h0, unlistedAt_pass r.listed]
  · rw [firstBad_eq_some hx hst hb, Nat.zero_add]

end ReadForm

/-! ### Partitions (R372, R390) -/

section Partitions

variable {s : State} {t part : Nat} {h : CmdHdr}

/-- A partition with a changed value that is kept (R372, R390). -/
def State.setEnabled (part : Nat) (on : Bool) (s : State) : State :=
  (s.modPart part fun p => { p with enabled := on }).keepPart part

theorem State.parts_keepPart (p : Nat) (s : State) : (s.keepPart p).parts = s.parts := by
  rw [State.keepPart, State.keep_eq]

theorem State.part_setEnabled (on : Bool) : (s.setEnabled part on).part part = { s.part part with enabled := on } := by
  rw [State.setEnabled, State.part, State.parts_keepPart]
  exact State.part_modPart (s := s) part _

theorem State.part_setEnabled_ne {on : Bool} {k : Nat} (hk : k ≠ part) :
    (s.setEnabled part on).part k = s.part k := by
  rw [State.setEnabled, State.part, State.parts_keepPart]
  exact State.part_modPart_ne (s := s) _ hk

theorem State.setEnabled_eq (part : Nat) (on : Bool) (s : State) : s.setEnabled part on =
    { s with parts := (s.setEnabled part on).parts, bay := (s.setEnabled part on).bay } := by
  rw [State.setEnabled, State.keepPart, State.keep_eq]
  rfl

theorem exec_partitionEnable_pass (h0 : h.part = 0) (r : Ready h 0x0201 false s) (hlo : 0 < part) (hhi : part < 64) :
    exec (.partitionEnable t h part) s = .next (((s.at t).setEnabled part true).answer h 0x0201 .ok noDetail []) :=
  isain_done r rfl rfl (isP0_of h0) (checks_pass (by simp [hlo.ne', hhi]))

/-- Partition 0 itself is refused (R390). -/
theorem exec_partitionEnable_zero (h0 : h.part = 0) (r : Ready h 0x0201 false s) :
    exec (.partitionEnable t h 0) s = .next ((s.at t).answer h 0x0201 .eArg noDetail []) :=
  isain_refuse r rfl rfl (isP0_of h0) rfl

/-- A partition that owns something stays enabled (R390). -/
theorem exec_partitionDisable_owner (h0 : h.part = 0) (r : Ready h 0x0201 false s) (hlo : 0 < part) (hhi : part < 64)
    (ho : s.holdsAnything part = true) :
    exec (.partitionDisable t h part) s = .next ((s.at t).answer h 0x0201 .eState noDetail []) := by
  have hheld : (s.at t).holdsAnything part = true := ho
  exact isain_refuse r rfl rfl (isP0_of h0) (by simp [checks, hlo.ne', hhi, hheld, no])

theorem exec_partitionDisable_pass (h0 : h.part = 0) (r : Ready h 0x0201 false s) (hlo : 0 < part) (hhi : part < 64)
    (ho : s.holdsAnything part = false) :
    exec (.partitionDisable t h part) s = .next (((s.at t).setEnabled part false).answer h 0x0201 .ok noDetail []) := by
  have hheld : (s.at t).holdsAnything part = false := ho
  exact isain_done r rfl rfl (isP0_of h0) (checks_pass (by simp [hlo.ne', hhi, hheld]))

/-- A command that is ready but for the room its change needs in the store is refused (R372, log entry 104). -/
theorem isain_cramped {c : CmdForm} {ex right : State → Bool} {own : State → Reply} {u : State} {st : Status}
    {body : List Nat} (r : Ready { h with fullBad := false } c.op c.stop s) (hr : c.resv = none)
    (he : ex (s.at t) = true) (hp : right (s.at t) = true) (ho : own (s.at t) = .done st body u)
    (hn : (s.at t).noRoom h u = true) :
    s.isain t c h ex right own = .next ((s.at t).answerRd h c.op c.rd .eNospace noDetail []) := by
  have hup : (s.at t).isainUp = true := r.up
  have hcarrier : (s.at t).carrierPart h c.op = some h.part := r.carrier
  have hpre : (s.at t).preCheck { h with fullBad := false } c.op c.stop false h.part = none := Ready.preCheck r
  have hlisted : unlisted h c.op = false := r.listed
  unfold State.isain
  dsimp only
  rw [hup, hcarrier]
  dsimp only
  rw [State.runCmd, hr, show (s.at t).preCheck h c.op c.stop (none : Option Nat).isSome h.part = none from hpre]
  simp [he, hp, hlisted, ho, hn]

/-- A kept value waits for the store in the normal mode. -/
theorem State.unsaved_setEnabled (on : Bool) (hm : s.bay.runMode = 0) :
    (s.setEnabled part on).bay.unsaved.length = s.bay.unsaved.length + 1 := by
  have hmode : ((s.modPart part fun p => { p with enabled := on }).bay.runMode = 0) := hm
  simp [State.setEnabled, State.keepPart, State.keep, hmode]
  rfl

theorem exec_partitionEnable_cramped (h0 : h.part = 0) (hf : h.fullBad = true)
    (r : Ready { h with fullBad := false } 0x0201 false s) (hlo : 0 < part) (hhi : part < 64)
    (hm : s.bay.runMode = 0) (hc : s.bay.cramped (s.bay.unsaved.length + 1) = true) :
    exec (.partitionEnable t h part) s = .next ((s.at t).answer h 0x0201 .eNospace noDetail []) := by
  rw [exec_partitionEnable]
  refine isain_cramped (u := (s.at t).setEnabled part true) r rfl rfl (isP0_of h0)
    (checks_pass (by simp [hlo.ne', hhi])) ?_
  rw [State.noRoom, State.unsaved_setEnabled (s := s.at t) true hm]
  simp [hf, hc]

theorem exec_partitionQuery_pass (ho : h.part = 0 ∨ h.part = part) (r : Ready h 0x0203 false s) :
    exec (.partitionQuery t h part) s = .next ((s.at t).answer h 0x0203 .ok noDetail
      (pack [(1, bit (s.part part).enabled), (1, bit (s.part part).revoking),
        (16, (s.part part).token), (32, s.slotsOf part), (16, (s.ownedBy part).length),
        (16, (s.rings.ctx.filter fun e => e.2.rtype != 0 && e.2.owner == part).length),
        (16, (s.sessionsOf part).length)])) :=
  isain_done r rfl rfl (by simpa [owns] using ho) rfl

end Partitions

/-! ### Quiesce, shutdown and the global stop (R389, R472, R475, R476) -/

section Quiesce

variable {s : State} {t : Nat} {h : CmdHdr}

theorem exec_quiesce_quiesced (h0 : h.part = 0) (ht : timeoutBad h = false) (r : Ready h 0x0E08 false s)
    (hq : s.obs.quiesced = true) :
    exec (.quiesce t h) s = .next ((s.at t).answer h 0x0E08 .ok noDetail []) :=
  isain_done r rfl rfl (isP0_of h0) ((checks_pass (by simp [ht])).trans (if_pos hq))

theorem exec_quiesce_begins (h0 : h.part = 0) (ht : timeoutBad h = false) (r : Ready h 0x0E08 false s)
    (hq : s.obs.quiesced = false) :
    exec (.quiesce t h) s = .next ((s.at t).startQuiesce h false) :=
  isain_wait r rfl rfl (isP0_of h0) ((checks_pass (by simp [ht])).trans (if_neg (Bool.eq_false_iff.1 hq)))

/-- The pin going low changes the package alone (R48). -/
theorem State.bypassLow_eq (s : State) : s.bypassLow = { s with pkg := s.bypassLow.pkg } := by
  unfold State.bypassLow
  dsimp only
  split <;> rfl

/-- While a wait of R476 runs, admission is stopped. -/
theorem State.closed_startQuiesce (h : CmdHdr) (shut : Bool) (s : State) : (s.startQuiesce h shut).closed = true := by
  rw [State.startQuiesce, State.bypassLow_eq]
  simp [State.closed, State.updObs]

theorem exec_quiesceRelease_quiesced (h0 : h.part = 0) (ht : timeoutBad h = false) (r : Ready h 0x0E08 false s)
    (hq : s.obs.quiesced = true) :
    exec (.quiesceRelease t h) s = .next ((((s.at t).updObs fun o => { o with quiesced := false }).tryArm).answer
      h 0x0E08 .ok noDetail []) :=
  isain_done r rfl rfl (isP0_of h0) (checks_pass (by simp [ht, hq]))

theorem exec_quiesceRelease_open (h0 : h.part = 0) (ht : timeoutBad h = false) (r : Ready h 0x0E08 false s)
    (hq : s.obs.quiesced = false) :
    exec (.quiesceRelease t h) s = .next ((s.at t).answer h 0x0E08 .eState noDetail []) :=
  isain_refuse r rfl rfl (isP0_of h0) (by simp [checks, ht, hq, no])

theorem exec_deviceShutdown_begins (h0 : h.part = 0) (ht : timeoutBad h = false) (r : Ready h 0x0102 false s)
    (hq : s.obs.quiesced = false) :
    exec (.deviceShutdown t h) s = .next ((s.at t).startQuiesce h true) :=
  isain_wait r rfl rfl (isP0_of h0) ((checks_pass (by simp [ht])).trans (if_neg (Bool.eq_false_iff.1 hq)))

/-- A shutdown of a quiesced device finishes at once (log entry 97). -/
theorem exec_deviceShutdown_quiesced (h0 : h.part = 0) (ht : timeoutBad h = false) (r : Ready h 0x0102 false s)
    (hq : s.obs.quiesced = true) :
    exec (.deviceShutdown t h) s = .next (((s.at t).finishShutdown).answer h 0x0102 .ok noDetail []) :=
  isain_done r rfl rfl (isP0_of h0) ((checks_pass (by simp [ht])).trans (if_pos hq))

theorem exec_globalStop_stopped (h0 : h.part = 0) (r : Ready h 0x0E09 true s) (hs : s.obs.islandsStopped = true) :
    exec (.globalStop t h) s = .next ((s.at t).answer h 0x0E09 .eState noDetail []) :=
  isain_refuse r rfl rfl (isP0_of h0) (by simp [checks, hs, no])

/-- The words of a `GLOBAL_STOP`'s answer: the first stop tick and each island's offset (R472, R474). -/
def State.stopWords (s : State) : List Nat :=
  pack ([(64, s.stopFirst), (16, islandCount)] ++ s.stopOffsets.map fun x => (16, x))

theorem exec_globalStop_running (h0 : h.part = 0) (r : Ready h 0x0E09 true s) (hs : s.obs.islandsStopped = false) :
    exec (.globalStop t h) s = .next (((s.at t).ownStop 0).answer h 0x0E09 .ok noDetail (s.at t).stopWords) :=
  isain_done r rfl rfl (isP0_of h0) (checks_pass (by simp [hs]))

/-- A first field of 64 bits is the first word. -/
theorem head?_pack_word (v : Nat) (rest : List (Nat × Nat)) : (pack ((64, v) :: rest)).head? = some (v % 2 ^ 64) := by
  simp [pack, packGo, wideWords]

theorem State.stopFirst_bounds (s : State) : s.tick ≤ s.stopFirst ∧ s.stopFirst ≤ s.tick + 1000 := by
  have hlt : freeBelow 1001 (Config.free (s.freeCount + islandCount)) < 1001 := Nat.mod_lt _ (by decide)
  rw [State.stopFirst]
  omega

theorem exec_globalResume_stopped (h0 : h.part = 0) (r : Ready h 0x0E0A true s) (hs : s.obs.islandsStopped = true) :
    exec (.globalResume t h) s = .next ((((s.at t).updObs fun o => { o with ownStop := false }).tryResume).answer
      h 0x0E0A .ok noDetail []) :=
  isain_done r rfl rfl (isP0_of h0) (checks_pass (by simp [hs]))

theorem exec_globalResume_running (h0 : h.part = 0) (r : Ready h 0x0E0A true s) (hs : s.obs.islandsStopped = false) :
    exec (.globalResume t h) s = .next ((s.at t).answer h 0x0E0A .eState noDetail []) :=
  isain_refuse r rfl rfl (isP0_of h0) (by simp [checks, hs, no])

/-- The device has become quiet: the wait of R476 is over. -/
def State.quiesced (s : State) : State :=
  s.updObs fun o => { o with quiescing := [], quiesceAt := [], quiesced := true }

/-- The commands that waited are answered, after the rest of a shutdown where one of them asked for it (R476). -/
theorem exec_quiesceDone_quiet (hr : s.running = true) (hup : s.isainUp = true) (hw : s.obs.quiescing ≠ [])
    (hq : s.quiet = true) : exec (.quiesceDone t) s =
      .next (s.obs.quiescing.foldl (fun s e => s.answer e.1 (quiesceOp e.2.2) .ok noDetail [])
        (if s.obs.quiescing.any (·.2.2) then (s.at t).quiesced.finishShutdown else (s.at t).quiesced)) := by
  have hup' : (s.at t).isainUp = true := hup
  have hq' : (s.at t).quiet = true := hq
  have hw' : (s.at t).obs.quiescing.isEmpty = false := by simpa using hw
  rw [exec_quiesceDone]
  exact happen_pos (by rw [State.running_at, hr, hup', hw', hq']; rfl)

end Quiesce

/-! ### Time limits (R385) -/

section Limits

variable {s : State} {t seq : Nat} {via : Via}

theorem exec_commandTimeout_up (hup : s.isainUp = true) :
    exec (.commandTimeout t via seq) s = .next (match (s.at t).expireBarrier via seq with
      | some s' => s'
      | none => match (s.at t).expireCommit via seq with
        | some s' => s'
        | none => ((s.at t).expireQuiesce via seq).getD (s.at t)) := by
  rw [exec_commandTimeout]
  exact happen_pos hup

theorem State.expireBarrier_none (hb : s.rings.barriers = []) : s.expireBarrier via seq = none := by
  simp [State.expireBarrier, hb]

theorem State.expireCommit_none (hd : ∀ d ∈ s.models.domains, d.2.waiting = none) :
    s.expireCommit via seq = none := by
  rw [State.expireCommit, Option.map_eq_none_iff, List.find?_eq_none]
  intro d hmem
  simp [hd d hmem]

theorem State.expireQuiesce_none (hq : s.obs.quiescing = []) : s.expireQuiesce via seq = none := by
  simp [State.expireQuiesce, hq]

/-- Where no command waits, a time limit ends none. -/
theorem exec_commandTimeout_none (hup : s.isainUp = true) (hb : s.rings.barriers = [])
    (hd : ∀ d ∈ s.models.domains, d.2.waiting = none) (hq : s.obs.quiescing = []) :
    exec (.commandTimeout t via seq) s = .next (s.at t) := by
  rw [exec_commandTimeout_up hup, State.expireBarrier_none (s := s.at t) hb,
    State.expireCommit_none (s := s.at t) hd, State.expireQuiesce_none (s := s.at t) hq]
  rfl

/-- A barrier whose time is up ends (R110). -/
theorem exec_commandTimeout_barrier {p idx : Nat} {b : Barrier} (hup : s.isainUp = true)
    (hb : s.rings.barriers = [(p, idx, b)]) (hdue : b.due ≤ max s.tick t) :
    exec (.commandTimeout t b.h.via b.h.seq) s =
      .next (((s.at t).dropBarrier p idx).answer b.h 0x0307 .eTimeout noDetail []) := by
  have hdue' : b.due ≤ (s.at t).tick := hdue
  have hend : (s.at t).expireBarrier b.h.via b.h.seq =
      some (((s.at t).dropBarrier p idx).answer b.h 0x0307 .eTimeout noDetail []) := by
    have hb' : (s.at t).rings.barriers = [(p, idx, b)] := hb
    rw [State.expireBarrier, hb', List.find?_cons_of_pos (by simpa [isCmd] using hdue')]
    rfl
  rw [exec_commandTimeout_up hup, hend]

end Limits

/-- Settles O50: each of these commands passes its checks, or is refused by the one that fails. -/
theorem adminCommands : Obligations.AdminCommands := by
  unfold Obligations.AdminCommands
  refine ⟨fun t h c recs s h0 hresv r => ?reads, fun t part h s => ?parts, fun t h s => ?gates⟩
  case reads =>
    exact ⟨exec_settingsReadForm_pass h0 hresv r, fun k x st => exec_settingsReadForm_refused h0 hresv r⟩
  case parts =>
    refine ⟨fun h0 r hlo hhi => ⟨?_, exec_partitionDisable_owner h0 r hlo hhi, fun ho => ?_⟩,
      exec_partitionEnable_cramped, exec_partitionEnable_zero, exec_partitionQuery_pass⟩
    · exact ⟨_, exec_partitionEnable_pass h0 r hlo hhi, State.part_setEnabled true,
        fun k => State.part_setEnabled_ne, State.setEnabled_eq ..⟩
    · exact ⟨_, exec_partitionDisable_pass h0 r hlo hhi ho, State.part_setEnabled false,
        fun k => State.part_setEnabled_ne⟩
  case gates =>
    refine ⟨fun h0 ht => ⟨fun r => ?quiesce, fun r => ?shutdown, fun r => ?stop, fun r => ?resume⟩, ?done, ?limits, ?barrier⟩
    case quiesce =>
      exact ⟨exec_quiesce_quiesced h0 ht r, fun hq => ⟨exec_quiesce_begins h0 ht r hq, State.closed_startQuiesce ..⟩,
        exec_quiesceRelease_quiesced h0 ht r, exec_quiesceRelease_open h0 ht r⟩
    case shutdown => exact ⟨exec_deviceShutdown_begins h0 ht r, exec_deviceShutdown_quiesced h0 ht r⟩
    case stop =>
      obtain ⟨hlo, hhi⟩ := (s.at t).stopFirst_bounds
      exact ⟨exec_globalStop_stopped h0 r, fun hs =>
        ⟨_, _, exec_globalStop_running h0 r hs, hlo, hhi, head?_pack_word _ _⟩⟩
    case resume => exact ⟨exec_globalResume_stopped h0 r, exec_globalResume_running h0 r⟩
    case done =>
      intro h' due hr hup hw hq
      rw [exec_quiesceDone_quiet hr hup (by simp [hw]) hq, hw]
      rfl
    case limits => exact fun via seq => exec_commandTimeout_none
    case barrier =>
      rintro _ _ p idx b hup hb rfl rfl hdue
      exact exec_commandTimeout_barrier hup hb hdue

end Sys2Proof.Machine

namespace Sys2Proof.Machine

/-! ### What is observed beside records and counters: quiesce and the global stop -/

section Stops

variable {s : State}

/-- What quiesces or stops the device, apart from what is recorded and counted (R472, R475, R476). -/
structure StopState where
  quiesced : Bool
  quiescing : List (CmdHdr × Nat × Bool)
  islandsStopped : Bool
  ownStop : Bool
  freezeLow : Bool

def Observe.stops (o : Observe) : StopState :=
  ⟨o.quiesced, o.quiescing, o.islandsStopped, o.ownStop, o.freezeLow⟩

def State.stops (s : State) : StopState := s.obs.stops

theorem State.stops_eq {u : State} (h : u.stops = s.stops) : u.obs.quiesced = s.obs.quiesced ∧
    u.obs.quiescing = s.obs.quiescing ∧ u.obs.islandsStopped = s.obs.islandsStopped ∧
    u.obs.ownStop = s.obs.ownStop ∧ u.obs.freezeLow = s.obs.freezeLow := by
  injection h with h1 h2 h3 h4 h5
  exact ⟨h1, h2, h3, h4, h5⟩

theorem State.stops_foldl {α : Type} {f : State → α → State} (h : ∀ s a, (f s a).stops = s.stops) :
    ∀ (l : List α) (s : State), (l.foldl f s).stops = s.stops
  | [], _ => rfl
  | a :: l, s => (State.stops_foldl h l (f s a)).trans (h s a)

@[simp] theorem State.stops_updRings (f : Rings → Rings) : (s.updRings f).stops = s.stops := rfl
@[simp] theorem State.stops_updMem (f : Memory → Memory) : (s.updMem f).stops = s.stops := rfl
@[simp] theorem State.stops_updBay (f : Bay → Bay) : (s.updBay f).stops = s.stops := rfl
@[simp] theorem State.stops_countN (id scope n : Nat) : (s.countN id scope n).stops = s.stops := rfl
@[simp] theorem State.stops_count (id scope : Nat) : (s.count id scope).stops = s.stops := rfl
@[simp] theorem State.stops_tally (id : Nat) : (s.tally id).stops = s.stops := rfl
@[simp] theorem State.stops_setRing (n : Nat) (r : Ring) : (s.setRing n r).stops = s.stops := rfl
@[simp] theorem State.stops_modRing (n : Nat) (f : Ring → Ring) : (s.modRing n f).stops = s.stops := rfl
@[simp] theorem State.stops_setSlot (k : Nat) (x : Slot) : (s.setSlot k x).stops = s.stops := rfl
@[simp] theorem State.stops_freeSlot (k : Nat) : (s.freeSlot k).stops = s.stops := rfl
@[simp] theorem State.stops_useCtx (n : Nat) : (s.useCtx n).stops = s.stops := rfl
@[simp] theorem State.stops_missCtx (n : Nat) (op : Option CtxOp) : (s.missCtx n op).stops = s.stops := rfl

/-- A record that is stored changes none of it. -/
theorem Observe.stops_store (o : Observe) (r : RmRec) : (o.store r).1.stops = o.stops := by
  unfold Observe.store
  dsimp only
  split
  · rfl
  split
  · rfl
  · split <;> rfl

@[simp] theorem State.stops_recordRaw (kind level unit part sev : Nat) (data : List Nat) :
    (s.recordRaw kind level unit part sev data).stops = s.stops := by
  unfold State.recordRaw
  dsimp only
  split <;> exact Observe.stops_store ..

@[simp] theorem State.stops_record (kind level unit part sev : Nat) (data : List (Nat × Nat)) :
    (s.record kind level unit part sev data).stops = s.stops := by
  unfold State.record
  split
  · rfl
  · exact State.stops_recordRaw ..

@[simp] theorem State.stops_readFault (w access : Nat) (f : WordFault) : (s.readFault w access f).stops = s.stops := by
  cases f with
  | flipped => rfl
  | poison => rfl
  | broken =>
    unfold State.readFault State.recordUe
    dsimp only
    split
    · rfl
    · exact State.stops_record ..

@[simp] theorem State.stops_mergeRead (w : Nat) : (s.mergeRead w).stops = s.stops := by
  unfold State.mergeRead
  split
  · rfl
  · dsimp only
    split <;> simp

@[simp] theorem State.stops_poke (a : Nat) (bs : List Byte) : (s.poke a bs).stops = s.stops :=
  State.stops_foldl (fun _ _ => State.stops_mergeRead _) _ s

@[simp] theorem State.stops_completeEntry (n : Nat) (i : W32) : (s.completeEntry n i).stops = s.stops :=
  State.stops_foldl (fun _ _ => State.stops_freeSlot _) _ s

@[simp] theorem State.stops_itemDone (n : Nat) (item : RingItem) : (s.itemDone n item).stops = s.stops := by
  unfold State.itemDone
  split
  · rfl
  · dsimp only
    split <;> simp

@[simp] theorem State.stops_dropItem (n : Nat) (item : RingItem) : (s.dropItem n item).stops = s.stops := by
  simp [State.dropItem]

@[simp] theorem State.stops_putEntry (n : Nat) (e : List W64) : (s.putEntry n e).stops = s.stops := by
  simp [State.putEntry]

@[simp] theorem State.stops_putItem (n : Nat) (item : RingItem) : (s.putItem n item).stops = s.stops :=
  State.stops_foldl (fun _ _ => State.stops_putEntry _ _) _ s

@[simp] theorem State.stops_putLoss (n : Nat) : (s.putLoss n).stops = s.stops := by
  unfold State.putLoss
  dsimp only
  split
  · rw [State.stops_modRing]
    exact State.stops_putItem n _
  · rfl

@[simp] theorem State.stops_overwrite (n need : Nat) : ∀ (fuel : Nat) (s : State),
    (s.overwrite n need fuel).stops = s.stops
  | 0, _ => rfl
  | fuel + 1, s => by
    unfold State.overwrite
    dsimp only
    split
    · rfl
    · exact State.stops_overwrite n need fuel _

@[simp] theorem State.stops_itemNow (n : Nat) (item : RingItem) : (s.itemNow n item).stops = s.stops := by
  unfold State.itemNow
  dsimp only
  split_ifs <;> simp

/-- An item for a ring changes none of it. -/
@[simp] theorem State.stops_ringItem (n : Nat) (item : RingItem) : (s.ringItem n item).stops = s.stops := by
  unfold State.ringItem
  split_ifs <;> simp

@[simp] theorem State.stops_event (part code : Nat) (data : List (Nat × Nat)) (rm : Nat) :
    (s.event part code data rm).stops = s.stops := by
  unfold State.event
  split <;> simp

end Stops

/-! ### What an answer leaves as it was (R101, R380) -/

section Answers

/-- An answer changes sessions, rings and memory, what is sent, counted and recorded, and which commands are still
in Isain's hands; all else stays. -/
structure AnswerOnly (s u : State) : Prop where
  tick : u.tick = s.tick
  pkg : u.pkg = s.pkg
  ifcs : u.ifcs = s.ifcs
  wall : u.wall = s.wall
  parts : u.parts = s.parts
  parser : u.parser = s.parser
  cls : u.cls = s.cls
  comp : u.comp = s.comp
  models : u.models = s.models
  fab : u.fab = s.fab
  fuses : u.fuses = s.fuses
  shutdown : u.bay.shutdown = s.bay.shutdown
  stops : u.stops = s.stops

theorem AnswerOnly.refl (s : State) : AnswerOnly s s := by constructor <;> rfl

theorem AnswerOnly.trans {a b c : State} (h : AnswerOnly a b) (k : AnswerOnly b c) : AnswerOnly a c where
  tick := k.tick.trans h.tick
  pkg := k.pkg.trans h.pkg
  ifcs := k.ifcs.trans h.ifcs
  wall := k.wall.trans h.wall
  parts := k.parts.trans h.parts
  parser := k.parser.trans h.parser
  cls := k.cls.trans h.cls
  comp := k.comp.trans h.comp
  models := k.models.trans h.models
  fab := k.fab.trans h.fab
  fuses := k.fuses.trans h.fuses
  shutdown := k.shutdown.trans h.shutdown
  stops := k.stops.trans h.stops

theorem ToldOnly.answerOnly {s u : State} (h : ToldOnly s u) (hg : u.stops = s.stops) : AnswerOnly s u where
  tick := h.tick
  pkg := h.pkg
  ifcs := h.ifcs
  wall := h.wall
  parts := h.parts
  parser := h.parser
  cls := h.cls
  comp := h.comp
  models := h.models
  fab := h.fab
  fuses := h.fuses
  shutdown := congrArg Bay.shutdown h.bay
  stops := hg

variable {s : State}

theorem modSession_answerOnly (sid : Nat) (f : Session → Session) : AnswerOnly s (s.modSession sid f) := by
  constructor <;> rfl

theorem emit_answerOnly (ifc len : Nat) (x : Sent) : AnswerOnly s (s.emit ifc len x) := by
  unfold State.emit
  split_ifs <;> constructor <;> rfl

theorem sendFrame_answerOnly (sid ftype target : Nat) (status : Status) (words : List Nat) :
    AnswerOnly s (s.sendFrame sid ftype target status words) := by
  unfold State.sendFrame
  split
  · exact .refl s
  · exact (modSession_answerOnly sid _).trans (emit_answerOnly _ _ _)

theorem endSession_answerOnly (sid : Nat) : AnswerOnly s (s.endSession sid) := by
  constructor <;> rfl

theorem sendOuv_answerOnly (sid ftype target : Nat) (status : Status) (words : List Nat) :
    AnswerOnly s (s.sendOuv sid ftype target status words) := by
  refine (sendFrame_answerOnly sid ftype target status words).trans ?_
  unfold State.sendOuv State.closeWorn
  split
  · split_ifs
    · exact (sendFrame_answerOnly _ _ _ _ _).trans (endSession_answerOnly sid)
    · exact .refl _
  · exact .refl _

/-- A command that ends with no answer changes its carrier alone (R23). -/
theorem hush_answerOnly (h : CmdHdr) : AnswerOnly s (s.hush h) := by
  have hmuted : AnswerOnly s (s.updBay fun b => { b with
      mute := b.mute.filter (fun k => decide (k ≠ s.flight h)) }) := by constructor <;> rfl
  unfold State.hush
  refine hmuted.trans ?_
  split
  · exact modSession_answerOnly _ _
  · dsimp only
    split
    · exact (completeEntry_told _ _).answerOnly (State.stops_completeEntry _ _)
    · exact .refl _

theorem answerRd_answerOnly (h : CmdHdr) (op rd : Nat) (st : Status) (detail : Nat) (body : List Nat) :
    AnswerOnly s (s.answerRd h op rd st detail body) := by
  have hout (x : Sent) : AnswerOnly s (s.out x) := by constructor <;> rfl
  unfold State.answerRd
  split
  · exact hush_answerOnly h
  · split
    · exact (modSession_answerOnly _ _).trans (sendOuv_answerOnly _ _ _ _ _)
    · dsimp only
      split
      · exact .refl s
      · exact (hout _).trans ((ringItem_told _ _).answerOnly (State.stops_ringItem _ _))

theorem answer_answerOnly (h : CmdHdr) (op : Nat) (st : Status) (detail : Nat) (body : List Nat) :
    AnswerOnly s (s.answer h op st detail body) := answerRd_answerOnly h op 0 st detail body

/-- Answering several commands. -/
theorem foldl_answerOnly {α : Type} {f : State → α → State} (h : ∀ s a, AnswerOnly s (f s a)) :
    ∀ (l : List α) (s : State), AnswerOnly s (l.foldl f s)
  | [], s => .refl s
  | a :: l, s => (h s a).trans (foldl_answerOnly h l (f s a))

theorem AnswerOnly.part {u : State} (k : AnswerOnly s u) (p : Nat) : u.part p = s.part p :=
  congrArg (fun l : Tab Partition => tgetD l p {}) k.parts

theorem AnswerOnly.domain {u : State} (k : AnswerOnly s u) (d : Nat) : u.domain d = s.domain d :=
  congrArg (fun m : Models => tgetD m.domains d {}) k.models

theorem AnswerOnly.closed {u : State} (k : AnswerOnly s u) : u.closed = s.closed := by
  obtain ⟨hquiesced, hquiescing, -⟩ := State.stops_eq k.stops
  rw [State.closed, State.closed, hquiesced, hquiescing, k.shutdown]

end Answers

end Sys2Proof.Machine

namespace Sys2Proof.Machine

/-! ### What quiesce, shutdown and the global stop leave (R389, R472 to R476) -/

section Stopping

variable {s : State}

/-- The pin's arming changes the package alone (R47). -/
theorem State.tryArm_eq (s : State) : s.tryArm = { s with pkg := s.tryArm.pkg } := by
  unfold State.tryArm
  split <;> rfl

theorem State.obs_tryArm : s.tryArm.obs = s.obs := by rw [State.tryArm_eq]

theorem State.parts_tryArm : s.tryArm.parts = s.parts := by rw [State.tryArm_eq]

theorem event_answerOnly (part code : Nat) (data : List (Nat × Nat)) (rm : Nat) :
    AnswerOnly s (s.event part code data rm) := (event_told part code data rm).answerOnly (State.stops_event ..)

/-- What a shutdown's last frames leave: time, the fuses and what stops the device. -/
structure SendsOnly (s u : State) : Prop where
  tick : u.tick = s.tick
  fuses : u.fuses = s.fuses
  stops : u.stops = s.stops

theorem SendsOnly.refl (s : State) : SendsOnly s s := ⟨rfl, rfl, rfl⟩

theorem SendsOnly.trans {a b c : State} (h : SendsOnly a b) (k : SendsOnly b c) : SendsOnly a c :=
  ⟨k.tick.trans h.tick, k.fuses.trans h.fuses, k.stops.trans h.stops⟩

theorem foldl_sendsOnly {α : Type} {f : State → α → State} (h : ∀ s a, SendsOnly s (f s a)) :
    ∀ (l : List α) (s : State), SendsOnly s (l.foldl f s)
  | [], s => .refl s
  | a :: l, s => (h s a).trans (foldl_sendsOnly h l (f s a))

/-- MACsec takes a packet number of its interface, and tells of one that runs out (R66). -/
theorem secure_sendsOnly {mode ifc : Nat} {eapol : Bool} {p : State × Option (Nat × Sa)}
    (h : s.secure mode ifc eapol = some p) : SendsOnly s p.1 := by
  unfold State.secure at h
  dsimp only at h
  split at h
  case isTrue =>
    obtain rfl := Option.some.inj h
    exact .refl s
  split at h
  case isTrue =>
    split at h
    · obtain rfl := Option.some.inj h
      exact .refl s
    · cases h
  split at h
  · cases h
  · obtain rfl := Option.some.inj h
    dsimp only
    split
    · obtain ⟨htick, -, -, -, -, -, -, -, -, -, hfuses, -, hstops⟩ := event_answerOnly (s := s.modIfc ifc _) _ _ _ _
      exact ⟨htick, hfuses, hstops⟩
    · exact ⟨rfl, rfl, rfl⟩

theorem bfdDown_sendsOnly (ifc : Nat) (s : State) : SendsOnly s (s.bfdDown ifc) := by
  refine SendsOnly.trans (b := s.modIfc ifc _) ⟨rfl, rfl, rfl⟩ (foldl_sendsOnly (fun s e => ?_) _ _)
  split
  next hsecure =>
    have hsent := secure_sendsOnly hsecure
    exact ⟨hsent.tick, hsent.fuses, hsent.stops⟩
  next => exact ⟨rfl, rfl, rfl⟩

/-- The rest of a shutdown (R31). -/
theorem finishShutdown_sendsOnly (s : State) : SendsOnly s s.finishShutdown := by
  refine (foldl_sendsOnly (fun s ifc => bfdDown_sendsOnly ifc s) s.lineIfcs s).trans ?_
  unfold State.finishShutdown
  dsimp only
  rw [State.bypassLow_eq]
  exact ⟨rfl, rfl, rfl⟩

theorem State.closed_finishShutdown : s.finishShutdown.closed = true := by
  unfold State.finishShutdown
  dsimp only
  rw [State.bypassLow_eq]
  simp [State.closed, State.portsIdle, State.updIfcs, State.updBay]

theorem State.stops_dillStamp (c stamp : Nat) (r : TraceRec) (s : State) : (s.dillStamp c stamp r).1.stops = s.stops := by
  unfold State.dillStamp
  dsimp only
  split <;> rfl

/-- The markers that arrive are written, and stop nothing by themselves (R468). -/
theorem State.stops_dillArrive (c upto : Nat) (s : State) : (s.dillArrive c upto).1.stops = s.stops := by
  have hfold : ∀ (l : List (Nat × TraceRec)) (p : State × Bool), (l.foldl (fun p m =>
      let w := p.1.dillStamp c m.1 m.2; (w.1, p.2 || w.2)) p).1.stops = p.1.stops := by
    intro l
    induction l with
    | nil => exact fun p => rfl
    | cons m l ih => exact fun p => (ih _).trans (State.stops_dillStamp c m.1 m.2 p.1)
  unfold State.dillArrive
  exact hfold _ _

theorem State.stops_dillPut (c late : Nat) (r : TraceRec) (s : State) : (s.dillPut c late r).1.stops = s.stops := by
  unfold State.dillPut
  split
  · rfl
  · exact (State.stops_dillStamp ..).trans (State.stops_dillArrive ..)

/-- A stop of the device's own stops the islands (R472). -/
theorem State.stops_ownStop (cause : Nat) (hs : s.obs.islandsStopped = false) :
    (s.ownStop cause).obs.islandsStopped = true ∧ (s.ownStop cause).obs.ownStop = true := by
  have hstops : (s.ownStop cause).stops = { s.stops with islandsStopped := true, ownStop := true } := by
    unfold State.ownStop State.stopIslands
    dsimp only
    rw [if_neg (by simp [State.updObs, hs]), State.stops_record,
      State.stops_foldl (fun s c => State.stops_dillPut ..), State.bypassLow_eq]
    rfl
  injection hstops with _ _ hislands hown _
  exact ⟨hislands, hown⟩

/-- The islands resume once no stop of the device's own remains, unless `FREEZE_N` holds them (R475). -/
theorem State.stops_tryResume (hs : s.obs.islandsStopped = true) (ho : s.obs.ownStop = false) :
    s.tryResume.obs.ownStop = false ∧ s.tryResume.obs.islandsStopped = s.obs.freezeLow := by
  unfold State.tryResume
  cases hf : s.obs.freezeLow with
  | true => simp [hs, ho]
  | false =>
    simp only [hs, ho, Bool.not_false, Bool.and_true, if_true]
    rw [State.obs_tryArm]
    have hstops := State.stops_record (s := (({ s with freeCount := s.freeCount + 1 } : State).updObs fun o =>
      { o with islandsStopped := false })) 0x0004 4 0 0xFF 0
        [(64, s.tick), (64, s.tick + freeBelow 401 (Config.free s.freeCount))]
    obtain ⟨-, -, hislands, hown, -⟩ := State.stops_eq hstops
    exact ⟨hown.trans ho, hislands⟩

end Stopping

/-! ### A commit whose time is up (R311, R385) -/

section Expired

variable {s : State} {t d : Nat} {x : Domain} {w : CommitWait}

theorem State.domain_only (hd : s.models.domains = [(d, x)]) : s.domain d = x := by
  simp [State.domain, hd, tgetD, tget]

/-- The command is answered, and waits no more; the staging set stays (R311). -/
theorem exec_commandTimeout_commit (hup : s.isainUp = true) (hb : s.rings.barriers = [])
    (hd : s.models.domains = [(d, x)]) (hw : x.waiting = some w) (hdue : w.due ≤ max s.tick t) :
    exec (.commandTimeout t w.h.via w.h.seq) s = .next (((s.at t).modDomain d fun x => { x with
      waiting := none }).answer w.h 0x0B04 .eTimeout noDetail []) := by
  have hdue' : w.due ≤ (s.at t).tick := hdue
  have hd' : (s.at t).models.domains = [(d, x)] := hd
  have hend : (s.at t).expireCommit w.h.via w.h.seq = some (((s.at t).modDomain d fun x => { x with
      waiting := none }).answer w.h 0x0B04 .eTimeout noDetail []) := by
    rw [State.expireCommit, hd', List.find?_cons_of_pos (by simpa [isCmd, hw] using hdue'), Option.map_some, hw]
  rw [exec_commandTimeout_up hup, State.expireBarrier_none (s := s.at t) hb, hend]

end Expired

/-! ### Administration and staging complete -/

theorem State.models_retireEpoch_self {domain e : Nat} {s : State} :
    ((s.retireEpoch domain e).domain domain).models = (s.domain domain).models := by
  have hmodels := congrArg Domain.models
    (State.domain_modDomain (s := s) domain fun x => { x with retiring := none })
  exact hmodels

section Complete

variable {s : State} {t part : Nat} {h : CmdHdr}

theorem deviceShutdown_completes (h0 : h.part = 0) (ht : timeoutBad h = false) (r : Ready h 0x0102 false s) :
    ∃ u : State, exec (.deviceShutdown t h) s = .next u ∧ u.closed = true ∧ u.fuses = s.fuses ∧
      u.tick = max s.tick t := by
  cases hq : s.obs.quiesced with
  | true =>
    have hshut := finishShutdown_sendsOnly (s.at t)
    have hans := answer_answerOnly (s := (s.at t).finishShutdown) h 0x0102 .ok noDetail []
    exact ⟨_, exec_deviceShutdown_quiesced h0 ht r hq, hans.closed.trans State.closed_finishShutdown,
      hans.fuses.trans hshut.fuses, hans.tick.trans hshut.tick⟩
  | false =>
    refine ⟨_, exec_deviceShutdown_begins h0 ht r hq, State.closed_startQuiesce .., ?_, ?_⟩ <;>
      rw [State.startQuiesce, State.bypassLow_eq] <;> rfl

theorem quiesce_completes (h0 : h.part = 0) (ht : timeoutBad h = false) (r : Ready h 0x0E08 false s) :
    ∃ u : State, exec (.quiesce t h) s = .next u ∧ u.closed = true ∧ u.parts = s.parts := by
  cases hq : s.obs.quiesced with
  | true =>
    have hans := answer_answerOnly (s := s.at t) h 0x0E08 .ok noDetail []
    exact ⟨_, exec_quiesce_quiesced h0 ht r hq, hans.closed.trans (by simp [State.closed, hq]), hans.parts⟩
  | false =>
    refine ⟨_, exec_quiesce_begins h0 ht r hq, State.closed_startQuiesce .., ?_⟩
    rw [State.startQuiesce, State.bypassLow_eq]
    rfl

theorem quiesceRelease_completes (h0 : h.part = 0) (ht : timeoutBad h = false) (r : Ready h 0x0E08 false s)
    (hq : s.obs.quiesced = true) :
    ∃ u : State, exec (.quiesceRelease t h) s = .next u ∧ u.obs.quiesced = false ∧ u.parts = s.parts := by
  have hans := answer_answerOnly (s := ((s.at t).updObs fun o => { o with quiesced := false }).tryArm) h 0x0E08 .ok
    noDetail []
  obtain ⟨hquiesced, -⟩ := State.stops_eq hans.stops
  refine ⟨_, exec_quiesceRelease_quiesced h0 ht r hq, hquiesced.trans ?_, hans.parts.trans State.parts_tryArm⟩
  rw [State.obs_tryArm]
  rfl

theorem globalStop_completes (h0 : h.part = 0) (r : Ready h 0x0E09 true s) (hs : s.obs.islandsStopped = false) :
    ∃ u : State, exec (.globalStop t h) s = .next u ∧ u.obs.islandsStopped = true ∧ u.obs.ownStop = true := by
  have hans := answer_answerOnly (s := (s.at t).ownStop 0) h 0x0E09 .ok noDetail (s.at t).stopWords
  obtain ⟨-, -, hislands, hown, -⟩ := State.stops_eq hans.stops
  obtain ⟨hstopped, hmine⟩ := State.stops_ownStop (s := s.at t) 0 hs
  exact ⟨_, exec_globalStop_running h0 r hs, hislands.trans hstopped, hown.trans hmine⟩

theorem globalResume_completes (h0 : h.part = 0) (r : Ready h 0x0E0A true s) (hs : s.obs.islandsStopped = true) :
    ∃ u : State, exec (.globalResume t h) s = .next u ∧ u.obs.ownStop = false ∧
      u.obs.islandsStopped = s.obs.freezeLow := by
  have hans := answer_answerOnly (s := ((s.at t).updObs fun o => { o with ownStop := false }).tryResume) h 0x0E0A .ok
    noDetail []
  obtain ⟨-, -, hislands, hown, -⟩ := State.stops_eq hans.stops
  obtain ⟨hmine, hstopped⟩ := State.stops_tryResume
    (s := (s.at t).updObs fun o => { o with ownStop := false }) hs rfl
  exact ⟨_, exec_globalResume_stopped h0 r hs, hown.trans hmine, hislands.trans hstopped⟩

/-- Where the wait of R476 is over, its commands are answered and the device is quiesced. -/
theorem quiesceDone_completes (hr : s.running = true) (hup : s.isainUp = true) (hw : s.obs.quiescing ≠ [])
    (hq : s.quiet = true) :
    ∃ u : State, exec (.quiesceDone t) s = .next u ∧ u.obs.quiesced = true ∧ u.obs.quiescing = [] := by
  have hdone : (if s.obs.quiescing.any (·.2.2) then (s.at t).quiesced.finishShutdown else (s.at t).quiesced).stops =
      (s.at t).quiesced.stops := by
    split
    · exact (finishShutdown_sendsOnly _).stops
    · rfl
  have hans := (foldl_answerOnly (fun s (e : CmdHdr × Nat × Bool) =>
    answer_answerOnly e.1 (quiesceOp e.2.2) .ok noDetail []) s.obs.quiescing
    (if s.obs.quiescing.any (·.2.2) then (s.at t).quiesced.finishShutdown else (s.at t).quiesced)).stops.trans hdone
  obtain ⟨hquiesced, hquiescing, -⟩ := State.stops_eq hans
  exact ⟨_, exec_quiesceDone_quiet hr hup hw hq, hquiesced, hquiescing⟩

theorem commandTimeout_completes {d : Nat} {x : Domain} {w : CommitWait} (hup : s.isainUp = true)
    (hb : s.rings.barriers = []) (hd : s.models.domains = [(d, x)]) (hw : x.waiting = some w)
    (hdue : w.due ≤ max s.tick t) : ∃ u : State, exec (.commandTimeout t w.h.via w.h.seq) s = .next u ∧
      (u.domain d).waiting = none ∧ (u.domain d).staging = x.staging ∧ (u.domain d).epoch = x.epoch := by
  have hans := answer_answerOnly (s := (s.at t).modDomain d fun x => { x with waiting := none }) w.h 0x0B04 .eTimeout
    noDetail []
  refine ⟨_, exec_commandTimeout_commit hup hb hd hw hdue, ?_⟩
  rw [hans.domain, State.domain_modDomain, State.domain_only (s := s.at t) hd]
  exact ⟨rfl, rfl, rfl⟩

/-- What a staging command that changes its own domain by `f` leaves of the domains, once it is answered. -/
theorem domain_answered {d : Nat} {f : Domain → Domain} {u v : State} (hm : u.models = s.models)
    (hv : AnswerOnly (u.modDomain d f) v) : v.domain d = f (s.domain d) ∧ ∀ k, k ≠ d → v.domain k = s.domain k := by
  have hdomain (k : Nat) : u.domain k = s.domain k := congrArg (fun m : Models => tgetD m.domains k {}) hm
  refine ⟨?_, fun k hk => ?_⟩
  · rw [hv.domain, State.domain_modDomain, hdomain]
  · rw [hv.domain, State.domain_modDomain_ne f hk, hdomain]

theorem domain_flipAnswered (d : Nat) (h : CmdHdr) (s : State) :
    (s.flipAnswered d h).domain d = (s.domain d).flipped s.tick := by
  rw [State.flipAnswered, (answer_answerOnly ..).domain, State.domain_flip]

end Complete

/-- Settles O59: what each command or event is answered from holds its effect, and the answer keeps it. -/
theorem administrationAndStagingComplete : Obligations.AdministrationAndStagingComplete := by
  unfold Obligations.AdministrationAndStagingComplete
  refine ⟨fun t part h s h0 => ?admin, fun t s hup => ⟨fun hr hw hq => quiesceDone_completes hr hup hw hq,
      fun d x w hb hd hw hdue => commandTimeout_completes hup hb hd hw hdue⟩,
    fun t domain h s hd hb ho => ?staging, ?patterns, fun t domain s hr => ?events⟩
  case admin =>
    refine ⟨fun ht => ⟨deviceShutdown_completes h0 ht, fun r => ⟨quiesce_completes h0 ht r,
      quiesceRelease_completes h0 ht r⟩⟩, fun c recs hresv r hg hl => ?_, fun r hlo hhi => ⟨?_, fun hn => ?_⟩,
      fun r => ?_, globalStop_completes h0, globalResume_completes h0⟩
    · have hans := answerRd_answerOnly (s := s.at t) h (setOp c) 1 .ok noDetail
        (recs.flatMap fun x => (s.at t).readRec c x)
      exact ⟨_, exec_settingsReadForm_pass h0 hresv r hg hl, hans.parts, hans.cls, hans.ifcs, hans.parser, hans.comp,
        hans.fab, hans.pkg, hans.wall⟩
    · have hans := answer_answerOnly (s := (s.at t).setEnabled part true) h 0x0201 .ok noDetail []
      refine ⟨_, exec_partitionEnable_pass h0 r hlo hhi, ?_, fun k hk => ?_⟩
      · rw [hans.part, State.part_setEnabled]
      · rw [hans.part, State.part_setEnabled_ne hk]
        rfl
    · have hans := answer_answerOnly (s := (s.at t).setEnabled part false) h 0x0201 .ok noDetail []
      refine ⟨_, exec_partitionDisable_pass h0 r hlo hhi hn, ?_, fun k hk => ?_⟩
      · rw [hans.part, State.part_setEnabled]
      · rw [hans.part, State.part_setEnabled_ne hk]
        rfl
    · exact ⟨_, exec_partitionQuery_pass (.inl h0) r, (answer_answerOnly ..).parts, (answer_answerOnly ..).comp⟩
  case staging =>
    have k : DomainRight h domain := ⟨hd, ho⟩
    refine ⟨?stage, fun handle r hl => ?remove, fun r => ?abort, fun start max r => ?query,
      fun r hfull hnamed hfresh => ?commit⟩
    case stage =>
      intro handle addr len bindings m r hm hal hl hin hacc hgood hbud htab hfet hfor hn hfit hstaged hremoved
      have g : ModelStageGood h domain handle addr len bindings m s :=
        ⟨k, r, hm, hb, hal, hl, hin, hacc, hgood, hbud, htab, hfet, hfor⟩
      obtain ⟨hown, hother⟩ := domain_answered (s := s) (touch_told (s := s.at t) addr len 0).models
        (answer_answerOnly h 0x0B01 .ok noDetail [])
      refine ⟨_, g.exec_modelStage_fresh hn hfit hstaged hremoved, ?_, ?_, hother⟩ <;> rw [hown]
      exact List.mem_append_right _ (List.mem_singleton_self m)
    case remove =>
      obtain ⟨hown, hother⟩ := domain_answered (s := s) (u := s.at t) rfl (answer_answerOnly h 0x0B02 .ok noDetail [])
      refine ⟨_, exec_modelRemove_live k r hl hb, ?_, ?_, hother⟩ <;> rw [hown]
      exact List.mem_append_right _ (List.mem_singleton_self handle)
    case abort =>
      obtain ⟨hown, hother⟩ := domain_answered (s := s) (u := s.at t) rfl (answer_answerOnly h 0x0B03 .ok noDetail [])
      refine ⟨_, exec_modelAbort_free k r hb, ?_, ?_, hother⟩ <;> rw [hown]
    case query =>
      obtain ⟨words, hexec⟩ := exec_modelQuery_free (t := t) (start := start) (max := max) k r hb
      exact ⟨_, hexec, (answer_answerOnly ..).models⟩
    case commit =>
      have c : FlipGood domain s := ⟨hfull, hnamed, hfresh⟩
      refine ⟨fun hw => ⟨_, c.exec_modelCommit k r hb hw, ?_⟩, fun hw ht =>
        ⟨_, c.exec_modelCommitWait_held k r hb hw ht, ?_⟩⟩
      · rw [domain_flipAnswered]
        exact ⟨rfl, rfl, rfl⟩
      · rw [State.domain_modDomain]
        exact ⟨rfl, rfl⟩
  case patterns =>
    intro t setId addr len fromL2 pats h s r hk hin hacc hown hb hread hgood hdist hent hlive
    have g : PatternsGood h setId addr len pats s := ⟨r, hk, hin, hacc, hown, hb, hread, hgood, hdist, hent, hlive⟩
    refine ⟨_, g.exec_patternLoad (t := t) (fromL2 := fromL2), ?_⟩
    rw [(answer_answerOnly ..).domain, State.staging_loadPatterns]
    exact List.mem_append_right _ (List.mem_singleton_self _)
  case events =>
    refine ⟨fun w hup hw hc hnamed hfresh hfull => ?_, fun e ms he hh => ?_⟩
    · have k : FlipDue domain w s := ⟨hr, hup, hw, hc⟩
      refine ⟨_, k.exec_modelCommitFlip ⟨hfull, hnamed, hfresh⟩, ?_⟩
      rw [domain_flipAnswered]
      exact ⟨rfl, rfl, rfl⟩
    · refine ⟨_, exec_epochRetire_unheld hr he hh, ?_⟩
      rw [(event_answerOnly ..).domain]
      exact ⟨State.domain_retireEpoch_self, State.models_retireEpoch_self⟩

end Sys2Proof.Machine

namespace Sys2Proof.Machine

/-! ### Pages retired to the pool (R334 to R338) -/

section Pages

variable {s : State} {t addr g : Nat} {h : CmdHdr}

theorem Region.exists_spare (r : Region) :
    ∃ i, ((List.range (r.retired.length + 1)).find? fun i => !r.retired.any fun e => e.2 == i) = some i := by
  rw [← Option.isSome_iff_exists, List.find?_isSome]
  by_contra hall
  have hsub : List.range (r.retired.length + 1) ⊆ r.retired.map (·.2) := by
    intro i hi
    by_contra hfree
    have hunused : (r.retired.any fun e => e.2 == i) = false :=
      List.any_eq_false.2 fun e he heq => hfree (List.mem_map.2 ⟨e, he, beq_iff_eq.1 heq⟩)
    exact hall ⟨i, hi, by rw [hunused, Bool.not_false]⟩
  have hle := (List.nodup_range.subperm hsub).length_le
  simp at hle

/-- A region's next spare page is one that no page is retired to (R334). -/
theorem Region.spare_free (r : Region) : (∀ e ∈ r.retired, e.2 ≠ r.spare) ∧ r.spare ≤ r.retired.length := by
  obtain ⟨i, hi⟩ := r.exists_spare
  have hspare : r.spare = i := by rw [Region.spare, hi]; rfl
  have hfree := List.find?_some hi
  have hrange := List.mem_range.1 (List.mem_of_find?_eq_some hi)
  rw [hspare]
  exact ⟨by simpa using hfree, Nat.le_of_lt_succ hrange⟩

/-- With no ring for partition 0's events, an event is only recorded and counted. -/
theorem State.mem_recordEvent_noRing {kind level unit rpart sev code : Nat} {rdata data : List (Nat × Nat)}
    (hr : s.eventRing 0 = none) :
    (s.recordEvent kind level unit rpart sev rdata 0 code data).mem = s.mem := by
  have hr' : (s.record kind level unit rpart sev rdata).eventRing 0 = none := by
    rw [State.eventRing, State.record_rings]
    exact hr
  rw [State.recordEvent, State.event, hr']
  exact State.record_mem ..

/-- A page as it is retired (R336). -/
def Region.retire (addr : Nat) (r : Region) : Region :=
  { r with
    retired := r.retired ++ [(addr, r.spare)]
    poolLeft := r.poolLeft - 1
    due := r.due.filter (· != addr) }

theorem State.region_modRegion_ne {k : Nat} {f : Region → Region} (hk : k ≠ g) :
    (s.modRegion g f).region k = s.region k := tgetD_tup_ne s.mem.regions {} f hk

/-- Where memory holds no fault, a retirement changes its region, and no byte. -/
theorem State.mem_retirePage (hf : s.mem.faults = []) (hr : s.eventRing 0 = none) :
    ∃ l, (s.retirePage addr).mem = { (s.modRegion (regionOf addr) (Region.retire addr)).mem with repaired := l } := by
  have htouch : s.touch addr 4096 0 = s := s.touch_clean (by simp [Memory.faultsIn, hf]) 0
  have hcopy : s.copyPage addr = s := by
    rw [State.copyPage, htouch]
    unfold State.updMem
    dsimp only
    rw [hf, List.map_nil, ← hf]
  unfold State.retirePage
  dsimp only
  rw [hcopy, State.keep_eq]
  refine ⟨_, State.mem_recordEvent_noRing ?_⟩
  exact hr

theorem retirePage_retires (hg : g = regionOf addr) (hf : s.mem.faults = []) (hr : s.eventRing 0 = none) :
    (s.retirePage addr).region g = (s.region g).retire addr ∧
      (∀ k, k ≠ g → (s.retirePage addr).region k = s.region k) ∧
      (s.retirePage addr).mem.bytes = s.mem.bytes := by
  subst hg
  obtain ⟨l, hmem⟩ := State.mem_retirePage (addr := addr) hf hr
  have hregion (k : Nat) : (s.retirePage addr).region k =
      (s.modRegion (regionOf addr) (Region.retire addr)).region k := by
    rw [State.region, hmem]
    rfl
  refine ⟨(hregion _).trans (State.region_modRegion _ _ _), fun k hk =>
    (hregion k).trans (State.region_modRegion_ne hk), ?_⟩
  rw [hmem]
  rfl

/-- The checks of a `MEM_RETIRE` before the pool's pass (R335). -/
structure PageNamed (h : CmdHdr) (addr : Nat) (s : State) : Prop where
  ready : Ready h 0x0C02 false s
  issuer : h.part = 0
  aligned : addr % 4096 = 0
  page : pageGood addr = true

theorem PageNamed.exec_memRetire (k : PageNamed h addr s) (hp : 0 < (s.region (regionOf addr)).poolLeft)
    (hn : s.pageRetired addr = false) :
    exec (.memRetire t h addr) s = .next (((s.at t).retirePage addr).answer h 0x0C02 .ok noDetail []) :=
  isain_done k.ready rfl rfl (isP0_of k.issuer)
    (checks_pass (by simp [k.aligned, k.page, hp.ne', hn]))

/-- A region without a spare page takes none (R338). -/
theorem PageNamed.exec_memRetire_empty (k : PageNamed h addr s) (hp : (s.region (regionOf addr)).poolLeft = 0) :
    exec (.memRetire t h addr) s = .next ((s.at t).answer h 0x0C02 .eNospace noDetail []) :=
  isain_refuse k.ready rfl rfl (isP0_of k.issuer) (by simp [checks, k.aligned, k.page, hp, no])

/-- What a page that is due comes to (R335, R336, R338). -/
theorem exec_pageRetire_due (hr : s.running = true) (hd : addr ∈ (s.region (regionOf addr)).due) :
    exec (.pageRetire t addr) s = .next (if !pageGood addr then
        (s.at t).modRegion (regionOf addr) fun r => { r with due := r.due.filter (· != addr) }
      else if (s.region (regionOf addr)).poolLeft = 0 then (s.at t).poolEmpty (regionOf addr) addr
      else (s.at t).retirePage addr) := by
  rw [exec_pageRetire]
  exact happen_pos (by simp [hr, hd])

end Pages

/-! ### The patrol, refresh rates and rows (R329, R330, R333) -/

section Patrol

variable {s : State} {t region channel line : Nat}

/-- Of a table that holds nothing a filter keeps, with an entry that it keeps, the filter leaves that entry. -/
theorem filter_tset {α : Type} {p : Nat × α → Bool} {k : Nat} {v : α} (hk : p (k, v) = true) :
    ∀ {l : Tab α}, l.filter p = [] → (tset l k v).filter p = [(k, v)]
  | [], _ => by simp [tset, hk]
  | e :: l, hl => by
    obtain ⟨hhead, htail⟩ : p e = false ∧ l.filter p = [] := by
      cases he : p e <;> simp [he] at hl
      exact ⟨rfl, by simpa using hl⟩
    unfold tset
    split_ifs
    · simp [hk, hhead, htail]
    · simp [hk, htail]
    · rw [List.filter_cons_of_neg (by simpa using hhead)]
      exact filter_tset hk htail

/-- A line that holds no fault takes the one that a check finds, in one of its words (R325). -/
theorem State.strike_line (hl : line % 64 = 0) (hf : s.mem.faultsIn line 64 = []) {check : WordCheck} {k : WordFault}
    (hk : checkFault check = some k) :
    ∃ w, line ≤ w ∧ w < line + 64 ∧ w % 4 = 0 ∧
      s.strike [(line, 64)] check = s.fresh.2.updMem fun m => m.hurt w k := by
  have hwords : (line + 64 + 3) / 4 - line / 4 = 16 := by omega
  have hlt : freeBelow 16 s.fresh.1 < 16 := Nat.mod_lt _ (by decide)
  refine ⟨4 * (line / 4 + freeBelow 16 s.fresh.1), by omega, by omega, by omega, ?_⟩
  have hnone : ([(line, 64)].any fun r => (s.mem.faultsIn r.1 r.2).any fun e => e.2 == k) = false := by simp [hf]
  have hsum : rangeWords [(line, 64)] = 16 := by simp [rangeWords, hwords]
  rw [State.strike, hk]
  dsimp only
  rw [hnone, if_neg Bool.false_ne_true, hsum, rangeWord, hwords]
  dsimp only
  rw [if_pos hlt]

/-- A read of a line in which one word is at fault meets that word (R325). -/
theorem State.touch_hurt {w access : Nat} {k : WordFault} (hf : s.mem.faultsIn line 64 = []) (hl : line % 64 = 0)
    (hlo : line ≤ w) (hhi : w < line + 64) :
    (s.updMem fun m => m.hurt w k).touch line 64 access = (s.updMem fun m => m.hurt w k).readFault w access k := by
  have hbase : line / 4 * 4 = line := by omega
  have hnone : tget s.mem.faults w = none := State.tget_faults_of_clean hf (by omega) hhi
  have hfaults : (s.mem.hurt w k).faultsIn line 64 = [(w, k)] := by
    unfold Memory.hurt
    rw [hnone]
    exact filter_tset (by simp [hbase, hlo, hhi]) hf
  rw [State.touch, show (s.updMem fun m => m.hurt w k).mem = s.mem.hurt w k from rfl, hfaults]
  rfl

theorem exec_patrolScrub_moving (check : WordCheck) (hm : s.moving = true) (hl : line % 64 = 0)
    (hd : line < 0x6000000000) : exec (.patrolScrub t line check) s =
      .next (((((s.at t).strike [(line, 64)] check).touch line 64 1).isainHurt line).modRegion (regionOf line) fun r =>
        { r with patrolNext := (line % regionSize + 64) % regionSize }) := by
  rw [exec_patrolScrub]
  exact happen_pos (by simp [hm, hl, hd])

theorem State.isainHurt_readable (hf : s.mem.faultsIn line 64 = []) : s.isainHurt line = s :=
  if_pos (.inr (Memory.readable_clean hf))

theorem exec_mr4Poll_running {rate : Nat} (hr : s.running = true) (hg : region < 16) (hc : channel < 4) :
    exec (.mr4Poll t region channel rate) s =
      .next (if tgetD (s.region region).refresh channel 1 = rate then s.at t
        else ((s.at t).modRegion region fun r => { r with refresh := tset r.refresh channel rate }).record 0x0011 2
          region 0xFF 1 [(8, 2), (48, region * regionSize + channel * 512)]) := by
  rw [exec_mr4Poll]
  exact happen_pos (by simp [hr, hg, hc])

theorem exec_oscillatorTrack_running (hr : s.running = true) (hg : region < 16) (hc : channel < 4) :
    exec (.oscillatorTrack t region channel) s = .next ((s.at t).modRegion region fun r => { r with
      oscTick := tset r.oscTick channel (max s.tick t) }) := by
  rw [exec_oscillatorTrack]
  exact happen_pos (by simp [hr, hg, hc])

variable {kind : SramKind} {unit row : Nat}

/-- A checked row of a memory other than the tables' comes to its check's outcome (R330, R331). -/
theorem exec_sramScrub_running {check : WordCheck} (hr : s.running = true) (hu : unit < sramUnits kind)
    (hc : kind ≠ .tableMem ∨ check ≠ .uncorrectable) : exec (.sramScrub t kind unit row check) s =
      .next (if check = .uncorrectable then ((s.at t).sramChecked kind unit row check).sramHurt kind unit row
        else (s.at t).sramChecked kind unit row check) := by
  rw [exec_sramScrub]
  refine (happen_pos (by simp [hr, hu])).trans (congrArg Host.Outcome.next (if_neg ?_))
  rintro ⟨hk, -, hb⟩
  exact hc.elim (absurd hk) (absurd hb)

end Patrol

/-! ### Link flits (R332) -/

section Flits

variable {s : State} {t link lane attempt : Nat} {b : Flit} {check : WordCheck}

/-- The sender's buffer takes the flit at its first attempt (R332). -/
def State.senderHolds (link attempt : Nat) (b : Flit) (s : State) : State :=
  if attempt = 0 then s.modLink link fun x => { x with buffer := lastN 64 (x.buffer ++ [heldFlit b]) } else s

/-- A flit arrives on a link that is up. -/
structure FlitArrives (link : Nat) (s : State) : Prop where
  runs : s.running = true
  listed : link < 280
  up : (s.link link).up = true

/-- A replay of a flit that the buffer no longer holds does not happen. -/
theorem exec_linkFlitReceive_gone (ha : attempt ≠ 0)
    (hb : heldFlit b ∉ (s.link link).buffer) : exec (.linkFlitReceive t link lane check b attempt) s = .next (s.at t) := by
  rw [exec_linkFlitReceive]
  exact happen_neg (by simp [ha, hb])

theorem FlitArrives.exec_linkFlitReceive (k : FlitArrives link s)
    (ha : attempt = 0 ∨ heldFlit b ∈ (s.link link).buffer) : exec (.linkFlitReceive t link lane check b attempt) s =
      .next (match check with
        | .clean => (s.at t).senderHolds link attempt b
        | .poisoned => ((s.at t).senderHolds link attempt b).poisonedFlit b
        | .corrected => ((s.at t).senderHolds link attempt b).count Ctr.linkCe link
        | .uncorrectable => if attempt < 3 then ((s.at t).senderHolds link attempt b).replay link lane
          else ((s.at t).senderHolds link attempt b).giveUp link lane b) := by
  rw [Machine.exec_linkFlitReceive]
  refine (happen_pos ?_).trans ?_
  · simpa [k.runs, linkCount, k.listed, k.up] using ha
  · cases check <;> rfl

theorem State.link_modLink (l : Nat) (f : Link → Link) : (s.modLink l f).link l = f (s.link l) :=
  tgetD_tup s.mem.links l {} f

theorem State.link_modLink_ne {l k : Nat} {f : Link → Link} (hk : k ≠ l) : (s.modLink l f).link k = s.link k :=
  tgetD_tup_ne s.mem.links {} f hk

theorem State.link_senderHolds_ne {k : Nat} (hk : k ≠ link) :
    (s.senderHolds link attempt b).link k = s.link k := by
  unfold State.senderHolds
  split
  · exact State.link_modLink_ne hk
  · rfl

/-- A flit that is given up for its header takes its link down, and no other (R332). -/
theorem State.giveUp_header (hb : b.headerBad = true) (hl : 8 ≤ link) :
    ((s.giveUp link lane b).link link).up = false ∧ ∀ k, k ≠ link → (s.giveUp link lane b).link k = s.link k := by
  have hlinks (k : Nat) : (s.giveUp link lane b).link k = (s.modLink link fun x => { x with up := false }).link k := by
    unfold State.giveUp State.linkRecord
    dsimp only
    rw [if_pos hb, if_neg (Nat.not_lt.2 hl), State.link, State.record_mem]
    rfl
  refine ⟨?_, fun k hk => (hlinks k).trans (State.link_modLink_ne hk)⟩
  rw [hlinks, State.link_modLink]

end Flits

/-- Settles O44: pages, the patrol, refresh rates, checked rows and flits, each by what its guard and checks let
through. -/
theorem memoryUpkeepAll : Obligations.MemoryUpkeepAll := by
  unfold Obligations.MemoryUpkeepAll
  refine ⟨fun t addr h s => ⟨fun g hg hf hr => ?retires, fun r h0 hal hp => ?retire, fun hr hd hp => ?pool,
      fun hr hd hp => ?due⟩,
    fun t region channel s => ⟨fun line hm hl hd hf => ?patrol, fun rate hr hg hc => ?rates,
      fun kind unit row hr hu => ?rows, fun link lane attempt b v hr hl hup => ?flits⟩⟩
  case retires =>
    obtain ⟨hown, hother, hbytes⟩ := retirePage_retires hg hf hr
    obtain ⟨hfree, hle⟩ := (s.region g).spare_free
    rw [hown]
    exact ⟨rfl, hfree, hle, rfl, hother, hbytes⟩
  case retire =>
    have k : PageNamed h addr s := ⟨r, h0, hal, hp⟩
    exact ⟨k.exec_memRetire, k.exec_memRetire_empty⟩
  case pool => rw [exec_pageRetire_due hr hd, hp, Bool.not_false, if_pos rfl]
  case due =>
    rw [exec_pageRetire_due hr hd, hp, Bool.not_true, if_neg Bool.false_ne_true]
    exact ⟨fun hleft => by rw [if_neg hleft.ne'], fun hleft => by rw [if_pos hleft]⟩
  case patrol =>
    have hf' : (s.at t).mem.faultsIn line 64 = [] := hf
    refine ⟨⟨_, exec_patrolScrub_moving .clean hm hl hd, ?_⟩, fun check k hk => ?_⟩
    · rw [State.strike_clean, State.touch_clean hf', State.isainHurt_readable hf']
      exact ⟨congrArg Region.patrolNext (State.region_modRegion _ _ _), rfl, rfl⟩
    · obtain ⟨w, hlo, hhi, hw, hstrike⟩ := State.strike_line (s := s.at t) hl hf' hk
      refine ⟨w, hlo, hhi, hw, (exec_patrolScrub_moving check hm hl hd).trans ?_⟩
      rw [hstrike, State.touch_hurt (s := (s.at t).fresh.2) hf' hl hlo hhi]
  case rates =>
    exact ⟨fun h => (exec_mr4Poll_running hr hg hc).trans (by rw [if_pos h]),
      fun h => (exec_mr4Poll_running hr hg hc).trans (by rw [if_neg h]), exec_oscillatorTrack_running hr hg hc⟩
  case rows =>
    refine ⟨exec_sramScrub_running hr hu (.inr (by decide)), exec_sramScrub_running hr hu (.inr (by decide)), _, rfl,
      exec_sramScrub_running hr hu (.inr (by decide)), fun hk => exec_sramScrub_running hr hu (.inl hk)⟩
  case flits =>
    have k : FlitArrives link s := ⟨hr, hl, hup⟩
    refine ⟨fun ha hb check => exec_linkFlitReceive_gone ha hb, fun ha hv => ?_⟩
    obtain rfl : v = (s.at t).senderHolds link attempt b := hv
    have hexec (check : WordCheck) := k.exec_linkFlitReceive (t := t) (lane := lane) (check := check) ha
    refine ⟨hexec .clean, hexec .corrected, hexec .poisoned, fun h3 => (hexec .uncorrectable).trans (by rw [if_pos h3]),
      fun h3 hb => (hexec .uncorrectable).trans ?_, fun h3 hb h8 => ⟨_, hexec .uncorrectable, ?_⟩⟩
    · dsimp only
      rw [if_neg (Nat.not_lt.2 h3), State.giveUp, if_neg (by simp [hb])]
    · dsimp only
      rw [if_neg (Nat.not_lt.2 h3)]
      obtain ⟨hdown, hother⟩ := State.giveUp_header (s := (s.at t).senderHolds link attempt b) (lane := lane) hb h8
      exact ⟨hdown, fun j hj => (hother j hj).trans (State.link_senderHolds_ne hj)⟩

end Sys2Proof.Machine

namespace Sys2Proof.Machine

/-! ### Counters read and cleared (R457, R458, R460) -/

section CounterReads

variable {s : State} {t : Nat} {h : CmdHdr} {ids : List CounterId}

theorem itemBad_eq_some {α : Type} {base k : Nat} {bad : α → Bool} {l : List α} {x : α} (hx : l[k]? = some x)
    (hp : bad x = true) (hb : ∀ j y, j < k → l[j]? = some y → bad y = false) : itemBad base bad l = some (base + k) := by
  rw [itemBad, idxOf?_eq_some hx hp hb]
  rfl

/-- Every named counter exists, has a scope in range and is open to the issuer. -/
def CountersGood (h : CmdHdr) (ids : List CounterId) (s : State) : Prop :=
  ∀ c ∈ ids, ∃ k, Ctr.kind c.id = some k ∧ s.scopeGood c.id k c.scope = true ∧
    (h.part = 0 ∨ s.counterOpen h.part k c.scope = true)

theorem CountersGood.checks (g : CountersGood h ids s) (r : Reply) : checksAt (s.counterChk h.part ids) r = r := by
  have hkinds : itemBad 0 (fun c => (Ctr.kind c.id).isNone) ids = none := itemBad_eq_none fun c hc => by
    obtain ⟨k, hk, -⟩ := g c hc
    simp [hk]
  have hopen : itemBad 0 (fun c => h.part != 0 && (Ctr.kind c.id).any fun k => !s.counterOpen h.part k c.scope) ids =
      none := itemBad_eq_none fun c hc => by
    obtain ⟨k, hk, -, ho⟩ := g c hc
    rcases ho with ho | ho <;> simp [hk, ho]
  have hscopes : itemBad 0 (fun c => (Ctr.kind c.id).any fun k => !s.scopeGood c.id k c.scope) ids = none :=
    itemBad_eq_none fun c hc => by
      obtain ⟨k, hk, hs, -⟩ := g c hc
      simp [hk, hs]
  exact checksAt_pass (by simp [State.counterChk, hkinds, hopen, hscopes])

/-- The first counter that fails a check, by the first of the checks that any fails (R458, R460, log entry 98). -/
inductive CounterBad (h : CmdHdr) (ids : List CounterId) (s : State) (j : Nat) (c : CounterId) : Status → Prop
  | unknown (hk : Ctr.kind c.id = none) (hb : ∀ i d, i < j → ids[i]? = some d → Ctr.kind d.id ≠ none) :
    CounterBad h ids s j c .eArg
  | closed {k : ScopeKind} (hall : ∀ d ∈ ids, Ctr.kind d.id ≠ none) (hk : Ctr.kind c.id = some k) (hp : h.part ≠ 0)
    (ho : s.counterOpen h.part k c.scope = false)
    (hb : ∀ i d k, i < j → ids[i]? = some d → Ctr.kind d.id = some k → s.counterOpen h.part k d.scope = true) :
    CounterBad h ids s j c .ePriv
  | range {k : ScopeKind} (hall : ∀ d ∈ ids, Ctr.kind d.id ≠ none) (hk : Ctr.kind c.id = some k)
    (hs : s.scopeGood c.id k c.scope = false)
    (ho : h.part = 0 ∨ ∀ d k, d ∈ ids → Ctr.kind d.id = some k → s.counterOpen h.part k d.scope = true)
    (hb : ∀ i d k, i < j → ids[i]? = some d → Ctr.kind d.id = some k → s.scopeGood d.id k d.scope = true) :
    CounterBad h ids s j c .eRange

theorem CounterBad.checks {j : Nat} {c : CounterId} {st : Status} (b : CounterBad h ids s j c st)
    (hj : ids[j]? = some c) (r : Reply) : checksAt (s.counterChk h.part ids) r = .refuse st j := by
  have hknown (hall : ∀ d ∈ ids, Ctr.kind d.id ≠ none) : itemBad 0 (fun c => (Ctr.kind c.id).isNone) ids = none :=
    itemBad_eq_none fun d hd => Option.isNone_eq_false_iff.2 (Option.isSome_iff_ne_none.2 (hall d hd))
  unfold State.counterChk
  cases b with
  | unknown hk hb =>
    have hbad : itemBad 0 (fun c => (Ctr.kind c.id).isNone) ids = some (0 + j) :=
      itemBad_eq_some hj (by simp [hk]) fun i d hi hd =>
        Option.isNone_eq_false_iff.2 (Option.isSome_iff_ne_none.2 (hb i d hi hd))
    rw [hbad, Nat.zero_add, checksAt]
  | closed hall hk hp ho hb =>
    have hbad : itemBad 0 (fun c => h.part != 0 && (Ctr.kind c.id).any fun k => !s.counterOpen h.part k c.scope) ids =
        some (0 + j) := itemBad_eq_some hj (by simp [hk, hp, ho]) fun i d hi hd => by
      cases hkd : Ctr.kind d.id with
      | none => simp
      | some k => simp [hb i d k hi hd hkd]
    rw [hknown hall, hbad, Nat.zero_add, checksAt, checksAt]
  | range hall hk hs ho hb =>
    have hopen : itemBad 0 (fun c => h.part != 0 && (Ctr.kind c.id).any fun k => !s.counterOpen h.part k c.scope) ids =
        none := itemBad_eq_none fun d hd => by
      rcases ho with ho | ho
      · simp [ho]
      · cases hkd : Ctr.kind d.id with
        | none => simp
        | some k => simp [ho d k hd hkd]
    have hbad : itemBad 0 (fun c => (Ctr.kind c.id).any fun k => !s.scopeGood c.id k c.scope) ids = some (0 + j) :=
      itemBad_eq_some hj (by simp [hk, hs]) fun i d hi hd => by
        cases hkd : Ctr.kind d.id with
        | none => simp
        | some k => simp [hb i d k hi hd hkd]
    rw [hknown hall, hopen, hbad, Nat.zero_add, checksAt, checksAt, checksAt]

/-- The counters of a device but for the named ones. -/
def State.dropCounters (ids : List CounterId) (s : State) : State :=
  s.updObs fun o => { o with counters := o.counters.filter fun e => ids.all fun c => e.1 != (c.id, c.scope) }

theorem aget_filter_not {κ α : Type} [DecidableEq κ] {p : κ × α → Bool} {k : κ} (hp : ∀ v, p (k, v) = false) :
    ∀ l : List (κ × α), aget (l.filter p) k = none
  | [] => rfl
  | (k', v) :: l => by
    by_cases hk : k' = k
    · subst hk
      rw [List.filter_cons_of_neg (by simp [hp])]
      exact aget_filter_not hp l
    · cases he : p (k', v) <;> simp [he, aget, hk, aget_filter_not hp l]

theorem aget_filter {κ α : Type} [DecidableEq κ] {p : κ × α → Bool} {k : κ} (hp : ∀ v, p (k, v) = true) :
    ∀ l : List (κ × α), aget (l.filter p) k = aget l k
  | [] => rfl
  | (k', v) :: l => by
    by_cases hk : k' = k
    · subst hk
      simp [hp, aget]
    · cases he : p (k', v) <;> simp [he, aget, hk, aget_filter hp l]

/-- Counters read and zeroed one by one are dropped together. -/
theorem foldl_takeCounter_state : ∀ (ids : List CounterId) (p : State × List Nat),
    (ids.foldl takeCounter p).1 = p.1.dropCounters ids
  | [], p => by simp [State.dropCounters, State.updObs]
  | c :: ids, p => by
    rw [List.foldl_cons, foldl_takeCounter_state ids]
    simp [takeCounter, State.dropCounters, State.updObs, List.filter_filter, Bool.and_comm]

theorem State.counter_dropCounters {id scope : Nat} (hc : ∀ c ∈ ids, (c.id, c.scope) ≠ (id, scope)) :
    (s.dropCounters ids).counter id scope = s.counter id scope := by
  have hkept : ∀ v : Nat, (ids.all fun c => (id, scope) != (c.id, c.scope)) = true := fun _ =>
    List.all_eq_true.2 fun c hmem => bne_iff_ne.2 (hc c hmem).symm
  exact congrArg (fun o : Option Nat => o.getD 0)
    (aget_filter (p := fun e => ids.all fun c => e.1 != (c.id, c.scope)) hkept s.obs.counters)

theorem State.counter_dropCounters_self {c : CounterId} (hc : c ∈ ids) :
    (s.dropCounters ids).counter c.id c.scope = 0 := by
  have hgone : ∀ v : Nat, (ids.all fun d => (c.id, c.scope) != (d.id, d.scope)) = false := fun _ =>
    List.all_eq_false.2 ⟨c, hc, by simp⟩
  exact congrArg (fun o : Option Nat => o.getD 0)
    (aget_filter_not (p := fun e => ids.all fun d => e.1 != (d.id, d.scope)) hgone s.obs.counters)

/-- Where no counter is named twice, each is read as it was. -/
theorem foldl_takeCounter_words : ∀ (ids : List CounterId) (p : State × List Nat),
    (ids.map fun c => (c.id, c.scope)).Nodup →
      (ids.foldl takeCounter p).2 = p.2 ++ ids.map fun c => p.1.counter c.id c.scope
  | [], p, _ => (List.append_nil p.2).symm
  | c :: ids, p, hd => by
    rw [List.map_cons, List.nodup_cons] at hd
    obtain ⟨hc, hd⟩ := hd
    have hstep : (takeCounter p c).1 = p.1.dropCounters [c] := foldl_takeCounter_state [c] p
    have hrest : (ids.map fun d => (takeCounter p c).1.counter d.id d.scope) = ids.map fun d => p.1.counter d.id d.scope :=
      List.map_congr_left fun d hmem => by
        rw [hstep]
        refine State.counter_dropCounters fun x hx => ?_
        obtain rfl := List.mem_singleton.1 hx
        exact fun heq => hc (List.mem_map.2 ⟨d, hmem, heq.symm⟩)
    rw [List.foldl_cons, foldl_takeCounter_words ids _ hd, hrest]
    simp [takeCounter]

theorem CountersGood.exec_counterRead (g : CountersGood h ids s) (r : Ready h 0x0E01 true s) :
    exec (.counterRead t h ids) s = .next ((s.at t).answer h 0x0E01 .ok noDetail
      (ids.map fun c => s.counter c.id c.scope)) := by
  rw [Machine.exec_counterRead]
  exact isain_done r rfl rfl rfl (CountersGood.checks (s := s.at t) g _)

theorem CountersGood.exec_counterReadClear (g : CountersGood h ids s) (r : Ready h 0x0E01 true s) :
    exec (.counterReadClear t h ids) s = .next (((s.at t).dropCounters ids).answer h 0x0E01 .ok noDetail
      (ids.foldl takeCounter (s.at t, [])).2) := by
  rw [Machine.exec_counterReadClear, ← foldl_takeCounter_state ids (s.at t, [])]
  exact isain_done r rfl rfl rfl (CountersGood.checks (s := s.at t) g _)

theorem CounterBad.exec_refused {j : Nat} {c : CounterId} {st : Status} (b : CounterBad h ids (s.at t) j c st)
    (hj : ids[j]? = some c) (r : Ready h 0x0E01 true s) :
    exec (.counterRead t h ids) s = .next ((s.at t).answer h 0x0E01 st j []) ∧
      exec (.counterReadClear t h ids) s = .next ((s.at t).answer h 0x0E01 st j []) :=
  ⟨isain_refuse r rfl rfl rfl (b.checks hj _), isain_refuse r rfl rfl rfl (b.checks hj _)⟩

/-- Counting one counter changes no other (R457). -/
theorem State.counter_countN_ne {id scope n id' scope' : Nat} (hne : (id', scope') ≠ (id, scope)) :
    (s.countN id scope n).counter id' scope' = s.counter id' scope' := by
  unfold State.counter State.countN
  rw [State.updObs_obs]
  dsimp only
  rw [aget_aset, if_neg (Ne.symm hne)]

theorem State.countersFit_countN {id scope n : Nat} (hf : s.obs.countersFit) :
    (s.countN id scope n).obs.countersFit := aset_fits (Nat.min_le_right _ _) hf

end CounterReads

/-! ### Rosemary's commands (R446, R451 to R453, R377) -/

section Rosemary

variable {s : State} {t : Nat} {h : CmdHdr}

theorem exec_rosemaryRead_pass {start max : Nat} (h0 : h.part = 0) (r : Ready h 0x0E02 true s) :
    ∃ words, exec (.rosemaryRead t h start max) s = .next ((s.at t).answer h 0x0E02 .ok noDetail words) :=
  ⟨_, isain_done r rfl rfl (isP0_of h0) rfl⟩

theorem exec_logRead_pass {start max : Nat} (h0 : h.part = 0) (r : Ready h 0x1103 true s) :
    ∃ words, exec (.logRead t h start max) s = .next ((s.at t).answer h 0x1103 .ok noDetail words) :=
  ⟨_, isain_done r rfl rfl (isP0_of h0) rfl⟩

theorem exec_rosemaryFreeze_pass (h0 : h.part = 0) (r : Ready h 0x0E03 true s) :
    exec (.rosemaryFreeze t h) s = .next (((s.at t).updObs fun o =>
      if o.frozen then o else { o with frozen := true, lost := 0, lostFirst := 0 }).answer h 0x0E03 .ok noDetail []) :=
  isain_done r rfl rfl (isP0_of h0) rfl

/-- Rosemary without a freeze, and with nothing lost (R451). -/
def State.thawed (s : State) : State :=
  s.updObs fun o => { o with frozen := false, lost := 0, lostFirst := 0 }

theorem exec_rosemaryUnfreeze_pass (h0 : h.part = 0) (r : Ready h 0x0E03 true s) :
    exec (.rosemaryUnfreeze t h) s = .next ((if s.obs.frozen && s.obs.lost != 0 then
      (s.at t).thawed.record 0x0006 4 0 0xFF 1 [(64, s.obs.lost), (64, s.obs.lostFirst)] else (s.at t).thawed).answer
        h 0x0E03 .ok noDetail []) :=
  isain_done r rfl rfl (isP0_of h0) rfl

theorem exec_rosemaryClear_running {upto : Nat} (h0 : h.part = 0) (r : Ready h 0x0E04 true s)
    (hf : s.obs.frozen = false) :
    exec (.rosemaryClear t h upto) s = .next ((s.at t).answer h 0x0E04 .eState noDetail []) :=
  isain_refuse r rfl rfl (isP0_of h0) (by simp [checks, hf, no])

theorem exec_rosemaryClear_ahead {upto : Nat} (h0 : h.part = 0) (r : Ready h 0x0E04 true s)
    (hf : s.obs.frozen = true) (hu : s.obs.rmSeq ≤ upto) :
    exec (.rosemaryClear t h upto) s = .next ((s.at t).answer h 0x0E04 .eRange noDetail []) :=
  isain_refuse r rfl rfl (isP0_of h0) (by simp [checks, hf, hu, no])

/-- A frozen store without the records at or below a number, the kept ones copied first (R453). -/
def State.clearLog (upto : Nat) (s : State) : State :=
  s.copyLog.updObs fun o => { o with rm := o.rm.filter fun r => decide (upto < r.seq) }

theorem exec_rosemaryClear_pass {upto : Nat} (h0 : h.part = 0) (r : Ready h 0x0E04 true s)
    (hf : s.obs.frozen = true) (hu : upto < s.obs.rmSeq) :
    exec (.rosemaryClear t h upto) s = .next ((((s.at t).clearLog upto).record 0x0005 4 0 0xFF 1
      [(64, upto), (32, viaSid h.via), (8, 0)]).answer h 0x0E04 .ok noDetail []) := by
  have hexec : exec (.rosemaryClear t h upto) s = .next ((((s.at t).clearLog upto).record 0x0005 4 0 0xFF 1
      [(64, upto), (32, viaSid h.via), (8, h.part)]).answer h 0x0E04 .ok noDetail []) :=
    isain_done r rfl rfl (isP0_of h0) (checks_pass (by simp [hf, Nat.not_le.2 hu]))
  rwa [h0] at hexec

/-- A record as it stands once the log region has what is kept (R453). -/
def RmRec.asCopied (r : RmRec) : RmRec := if r.kept then { r with copied := true } else r

theorem RmRec.asCopied_eq (r : RmRec) : r.asCopied.seq = r.seq ∧ r.asCopied.data = r.data ∧
    (r.asCopied.kept = true → r.asCopied.copied = true) := by
  unfold RmRec.asCopied
  split
  · exact ⟨rfl, rfl, fun _ => rfl⟩
  next hk => exact ⟨rfl, rfl, fun h => absurd h hk⟩

theorem State.rm_copyLog (s : State) : s.copyLog.obs.rm = s.obs.rm.map RmRec.asCopied := rfl

theorem State.rm_clearLog (upto : Nat) (s : State) : (s.clearLog upto).obs.rm =
    (s.obs.rm.map RmRec.asCopied).filter fun r => decide (upto < r.seq) := rfl

theorem exec_rosemaryLogCopy_alive (ha : s.alive = true) : exec (.rosemaryLogCopy t) s = .next (s.at t).copyLog := by
  rw [exec_rosemaryLogCopy]
  exact happen_pos ha

theorem exec_rosemaryRecord_listed {kind unit level sev : Nat} {data : List W64} (ha : s.alive = true)
    (hf : recordForm kind ((data.headD 0).toNat) = some (level, sev)) :
    exec (.rosemaryRecord t kind unit data) s = .next ((s.at t).record kind level (unit % 65536)
      0xFF sev ((data.take 3).map fun w : W64 => (64, w.toNat))) := by
  have ha' : (s.at t).alive = true := ha
  rw [exec_rosemaryRecord, execRosemaryRecord, hf]
  exact happen_pos (by rw [ha']; rfl)

end Rosemary

/-! ### Dill's commands and its drain (R464 to R468) -/

section Traces

variable {s : State} {t cluster ring mode post : Nat} {h : CmdHdr} {trig : W64}

/-- A `TRACE_CONFIG` names a ring that is made, and its issuer owns the cluster (R464). -/
structure TraceNamed (h : CmdHdr) (cluster ring : Nat) (s : State) : Prop where
  ready : Ready h 0x0E05 false s
  made : s.ringMade ring = true
  owned : h.part = 0 ∨ h.part = (s.cluster cluster).owner

theorem TraceNamed.owns (k : TraceNamed h cluster ring s) : owns h ((s.at t).cluster cluster).owner = true := by
  simpa [Machine.owns] using k.owned

/-- A reserved bit of the trigger word is refused and counted (R6, R465). -/
theorem TraceNamed.exec_traceConfig_reserved (k : TraceNamed h cluster ring s) (hr : trigResv trig ≠ none) :
    exec (.traceConfig t h cluster ring mode post trig) s =
      .next (((s.at t).count Ctr.cmdResvRefused h.part).answer h 0x0E05 .eArg noDetail []) := by
  have hresv : trigResv trig = some noDetail := by
    unfold trigResv at hr ⊢
    split at hr
    · exact absurd rfl hr
    next hbits => exact if_neg hbits
  rw [exec_traceConfig]
  refine (isain_reserved k.ready.up k.ready.carrier (by simp [hresv])).trans ?_
  simp [hresv, State.answer]

theorem TraceNamed.exec_traceConfig_refuse (k : TraceNamed h cluster ring s) (hr : trigResv trig = none) {st : Status}
    (hc : ∀ r, checks [(decide (3 ≤ mode) || trigBad trig, .eArg),
       (decide (448 < post) || decide (256 ≤ cluster), .eRange),
       ((s.ring ring).rtype != 5 || (s.ring ring).owner != s.traceOwner cluster, .ePriv),
       (trigStop trig && h.part != 0, .ePriv)] r = .refuse st noDetail) :
    exec (.traceConfig t h cluster ring mode post trig) s = .next ((s.at t).answer h 0x0E05 st noDetail []) := by
  rw [exec_traceConfig]
  exact isain_refuse (c := { op := 0x0E05, resv := trigResv trig }) k.ready hr k.made k.owns (hc _)

/-- A cluster's unit with a new configuration; what the old one had not drained is counted as dropped (R464). -/
def State.configTrace (cluster ring mode post : Nat) (trig : W64) (s : State) : State :=
  (if (s.cluster cluster).dill.buf.isEmpty then s
    else s.countN Ctr.dillDrop cluster (s.cluster cluster).dill.buf.length).modCluster cluster fun x => { x with
      dill := { mode := mode, ring := ring, post := post, trig := trig, seq := (s.cluster cluster).dill.seq,
                marks := (s.cluster cluster).dill.marks } }

theorem TraceNamed.exec_traceConfig_pass (k : TraceNamed h cluster ring s) (hr : trigResv trig = none)
    (hm : mode < 3) (hb : trigBad trig = false) (hp : post ≤ 448) (hc : cluster < 256) (hty : (s.ring ring).rtype = 5)
    (ho : (s.ring ring).owner = s.traceOwner cluster) (hs : trigStop trig = false ∨ h.part = 0) :
    exec (.traceConfig t h cluster ring mode post trig) s =
      .next (((s.at t).configTrace cluster ring mode post trig).answer h 0x0E05 .ok noDetail []) := by
  have hstop : (trigStop trig && h.part != 0) = false := by rcases hs with hs | hs <;> simp [hs]
  rw [exec_traceConfig]
  refine isain_done (c := { op := 0x0E05, resv := trigResv trig }) k.ready hr k.made k.owns (checks_pass ?_)
  simp [Nat.not_le.2 hm, hb, Nat.not_lt.2 hp, Nat.not_le.2 hc, hty, ho, hstop, -Bool.and_eq_false_imp]

theorem State.cluster_configTrace : ((s.configTrace cluster ring mode post trig).cluster cluster).dill =
    ⟨mode, ring, post, trig, false, 0, false, [], (s.cluster cluster).dill.seq, 0, (s.cluster cluster).dill.marks⟩ := by
  rw [State.configTrace, State.cluster_modCluster]

theorem State.cluster_configTrace_ne {k : Nat} (hk : k ≠ cluster) :
    (s.configTrace cluster ring mode post trig).cluster k = s.cluster k := by
  unfold State.configTrace
  rw [State.cluster_modCluster_ne _ hk]
  split <;> rfl

theorem State.configTrace_drained (hb : (s.cluster cluster).dill.buf = []) :
    s.configTrace cluster ring mode post trig = { s with comp := { s.comp with
      clusters := (s.configTrace cluster ring mode post trig).comp.clusters } } := by
  unfold State.configTrace
  rw [hb]
  rfl

/-- A mark is on its way to its cluster, which it reaches 2 to 20 µs later (R468). -/
theorem State.markCluster_late (s : State) : 2000 ≤ 2000 + freeBelow 18001 s.fresh.1 ∧
    2000 + freeBelow 18001 s.fresh.1 ≤ 20000 := by
  have hlt : freeBelow 18001 s.fresh.1 < 18001 := Nat.mod_lt _ (by decide)
  omega

theorem mayMark_of (hr : h.part = 0 ∨ (s.part h.part).rights.getLsbD 0 = true) : mayMark h s = true := by
  simpa [mayMark] using hr

theorem exec_traceMark_pass {mark : Nat} (r : Ready h 0x0E06 false s)
    (hr : h.part = 0 ∨ (s.part h.part).rights.getLsbD 0 = true) (hc : cluster < 256) :
    exec (.traceMarkBegin t h cluster mark) s =
        .next (((s.at t).markCluster cluster 8 mark).answer h 0x0E06 .ok noDetail []) ∧
      exec (.traceMarkEnd t h cluster mark) s =
        .next (((s.at t).markCluster cluster 9 mark).answer h 0x0E06 .ok noDetail []) :=
  ⟨isain_done r rfl rfl (mayMark_of (s := s.at t) hr) (checks_pass (by simp [hc])),
    isain_done r rfl rfl (mayMark_of (s := s.at t) hr) (checks_pass (by simp [hc]))⟩

theorem exec_traceMark_refused {mark : Nat} (r : Ready h 0x0E06 false s)
    (hr : h.part = 0 ∨ (s.part h.part).rights.getLsbD 0 = true) (hc : 256 ≤ cluster) :
    exec (.traceMarkBegin t h cluster mark) s = .next ((s.at t).answer h 0x0E06 .eRange noDetail []) ∧
      exec (.traceMarkEnd t h cluster mark) s = .next ((s.at t).answer h 0x0E06 .eRange noDetail []) :=
  ⟨isain_refuse r rfl rfl (mayMark_of (s := s.at t) hr) (by simp [checks, hc, no]),
    isain_refuse r rfl rfl (mayMark_of (s := s.at t) hr) (by simp [checks, hc, no])⟩

/-- A unit drains its oldest record, and has no drops to tell of first (R467). -/
theorem exec_dillDrain_front {r : TraceRec} {rest : List TraceRec} (hm : s.moving = true)
    (hd : (s.cluster cluster).dill.drains = true) (hb : (s.cluster cluster).dill.buf = r :: rest)
    (h0 : (s.cluster cluster).dill.dropped = 0) : exec (.dillDrain t cluster) s =
      .next (let u := if r.prot then (s.at t).roomFor (s.cluster cluster).dill.ring (traceItem r) else s.at t
        if r.prot && !(u.ring (s.cluster cluster).dill.ring).fits (traceItem r) then s.at t
        else (u.modCluster cluster fun x => { x with dill := { x.dill with buf := rest } }).ringItem
          (s.cluster cluster).dill.ring (traceItem r)) := by
  have h0' : ((s.at t).cluster cluster).dill.dropped = 0 := h0
  have hb' : ((s.at t).cluster cluster).dill.buf = r :: rest := hb
  have hloss : (s.at t).dillLoss cluster = s.at t := by rw [State.dillLoss, h0']; rfl
  rw [exec_dillDrain]
  refine (happen_pos (by simp [hm, hd])).trans ?_
  dsimp only
  rw [hloss, hb']
  rfl

end Traces

/-! ### The wait-for graph (R470) -/

section Graph

variable {s : State} {t start max : Nat} {h : CmdHdr}

theorem exec_waitforRead_pass {u : State} (h0 : h.part = 0) (r : Ready h 0x0E07 true s)
    (hu : (if start = 0 then (s.at t).buildGraph else s.at t) = u) (hf : u.graphFresh = true) :
    ∃ words, exec (.waitforRead t h start max) s = .next (u.answer h 0x0E07 .ok noDetail words) := by
  subst hu
  exact ⟨_, isain_done r rfl rfl (isP0_of h0) (checks_pass (by simpa using hf))⟩

theorem exec_waitforRead_stale (h0 : h.part = 0) (r : Ready h 0x0E07 true s) (hs : start ≠ 0)
    (hf : (s.at t).graphFresh = false) :
    exec (.waitforRead t h start max) s = .next ((s.at t).answer h 0x0E07 .eState noDetail []) :=
  isain_refuse r rfl rfl (isP0_of h0) (by simp [checks, hs, hf, no])

theorem State.graph_buildGraph (s : State) : s.buildGraph.obs.graph.length ≤ 65536 := by
  have hlen : s.buildGraph.obs.graph.length = (s.edges.take edgeMax).length := List.length_map _
  rw [hlen, List.length_take]
  exact Nat.min_le_left _ _

theorem State.graphFresh_buildGraph (s : State) : s.buildGraph.graphFresh = true :=
  decide_eq_true (Nat.le_add_right _ _)

end Graph

/-- Settles O55: the commands of counters, Rosemary, Dill and the wait-for graph pass their checks or are refused by
the one that fails. -/
theorem observability : Obligations.Observability := by
  unfold Obligations.Observability
  refine ⟨fun t h ids s r => ⟨fun g => ?counters, fun j c st hj hbad => ?refused⟩, fun t h s => ⟨fun h0 => ?rosemary,
    fun ha => ?records⟩, fun t cluster h s => ⟨fun ring mode post trig r hmade howned => ?config, fun mark r hr => ?marks,
    fun r rest hm hd hb h0 => ?drain⟩, fun t start max h s h0 r => ?graph, fun id scope n s hf => ?counts⟩
  case counters =>
    have g : CountersGood h ids s := g
    exact ⟨g.exec_counterRead r, _, _, g.exec_counterReadClear r, rfl, fun c => State.counter_dropCounters_self,
      fun id scope hc => State.counter_dropCounters hc, foldl_takeCounter_words ids (s.at t, [])⟩
  case refused =>
    have b : CounterBad h ids (s.at t) j c st := by
      rcases hbad with ⟨rfl, hk, hb⟩ | ⟨hall, k, hk, ⟨rfl, hp, ho, hb⟩ | ⟨rfl, hs, ho, hb⟩⟩
      · exact .unknown hk hb
      · exact .closed hall hk hp ho hb
      · exact .range hall hk hs ho hb
    exact b.exec_refused hj r
  case rosemary =>
    refine ⟨fun start max => exec_rosemaryRead_pass h0, fun start max => exec_logRead_pass h0, fun r => ⟨fun hf => ?_,
      fun hf => ?_, _, rfl, fun hl => ?_, fun hl => ?_⟩, fun upto r => ⟨exec_rosemaryClear_running h0 r,
      exec_rosemaryClear_ahead h0 r, fun hf hu => ⟨_, exec_rosemaryClear_pass h0 r hf hu, hf, ?_, ?_, rfl⟩⟩⟩
    · rw [exec_rosemaryFreeze_pass h0 r, State.updObs]
      simp [hf]
    · rw [exec_rosemaryFreeze_pass h0 r, State.updObs]
      simp [hf]
      rfl
    · rw [exec_rosemaryUnfreeze_pass h0 r, if_pos (by simp [hl])]
      rfl
    · rw [exec_rosemaryUnfreeze_pass h0 r, if_neg (by rcases hl with hl | hl <;> simp [hl])]
      rfl
    · intro x hx
      rw [State.rm_clearLog] at hx
      simpa using (List.mem_filter.1 hx).2
    · intro x hx hlt
      obtain ⟨hseq, hdata, -⟩ := x.asCopied_eq
      refine ⟨x.asCopied, ?_, hseq, hdata⟩
      rw [State.rm_clearLog]
      exact List.mem_filter.2 ⟨List.mem_map_of_mem hx, by simpa [hseq] using hlt⟩
  case records =>
    refine ⟨exec_rosemaryLogCopy_alive ha, fun x hx => ?_, fun kind unit data level sev =>
      exec_rosemaryRecord_listed ha⟩
    obtain ⟨y, -, rfl⟩ := List.mem_map.1 (State.rm_copyLog (s.at t) ▸ hx)
    exact y.asCopied_eq.2.2
  case config =>
    have k : TraceNamed h cluster ring s := ⟨r, hmade, howned⟩
    refine ⟨k.exec_traceConfig_reserved, fun hresv hbad => k.exec_traceConfig_refuse hresv fun _ => ?_,
      fun hresv hm hb => ⟨fun hp => k.exec_traceConfig_refuse hresv fun _ => ?_, fun hp hc hty ho =>
        ⟨fun hstop h0 => k.exec_traceConfig_refuse hresv fun _ => ?_, fun hs =>
          ⟨_, k.exec_traceConfig_pass hresv hm hb hp hc hty ho hs, State.cluster_configTrace,
            fun j => State.cluster_configTrace_ne, State.configTrace_drained (s := s.at t)⟩⟩⟩⟩
    · rcases hbad with hbad | hbad <;> simp [checks, hbad, no]
    · simp [checks, Nat.not_le.2 hm, hb, hp, no]
    · simp [checks, Nat.not_le.2 hm, hb, Nat.not_lt.2 hp, Nat.not_le.2 hc, hty, ho, hstop, h0, no]
  case marks =>
    refine ⟨fun hc => ?_, exec_traceMark_refused r hr⟩
    obtain ⟨hlo, hhi⟩ := (s.at t).markCluster_late
    obtain ⟨hbegin, hend⟩ := exec_traceMark_pass (t := t) (mark := mark) r hr hc
    exact ⟨_, hlo, hhi, hbegin, hend⟩
  case drain =>
    refine ⟨fun hp => ?_, fun hp hpol hfit => ?_⟩ <;> rw [exec_dillDrain_front hm hd hb h0, hp]
    · rfl
    · have hroom : (s.at t).roomFor (s.cluster cluster).dill.ring (traceItem r) = s.at t := if_neg hpol
      simp [hroom, hfit]
  case graph =>
    refine ⟨fun h0' => ?_, fun hs => ⟨fun hf => ?_, exec_waitforRead_stale h0 r hs⟩, State.graph_buildGraph _,
      State.graphFresh_buildGraph _⟩
    · exact exec_waitforRead_pass h0 r (if_pos h0') (State.graphFresh_buildGraph _)
    · exact exec_waitforRead_pass h0 r (if_neg hs) hf
  case counts =>
    exact ⟨State.counter_countN id scope n s, fun id' scope' => State.counter_countN_ne, State.countersFit_countN hf,
      fun id' scope' => rfl⟩

end Sys2Proof.Machine

namespace Sys2Proof.Machine

/-! ### A received fabric frame (R343 to R345) -/

section FabFrames

variable {s u : State} {t ftype : Nat} {f : FabHdr} {act g : State → State} {redo : Option (State → State)}

/-- A frame arrives on a `fab_if` interface that is up, at a device that takes part in a fabric. -/
structure FabArrives (f : FabHdr) (s : State) : Prop where
  up : s.fabUp = true
  listed : ∃ i ∈ s.fab.ifcs, i.2 = f.ifc
  link : (s.ifc f.ifc).link = true

theorem FabArrives.guard (k : FabArrives f s) : (s.fabUp && s.fab.ifcs.any (fun i => i.2 == f.ifc) &&
    (s.ifc f.ifc).link) = true := by
  have hlisted : s.fab.ifcs.any (fun i => i.2 == f.ifc) = true := by
    simpa [List.any_eq_true] using k.listed
  rw [k.up, hlisted, k.link]
  rfl

theorem FabArrives.drop (k : FabArrives f s) (h : (s.at t).fabIn ftype f = .drop u) :
    s.fabReceive t ftype f act redo = .next u := by
  unfold State.fabReceive
  rw [happen_pos k.guard, h]

theorem FabArrives.fresh (k : FabArrives f s) (h : (s.at t).fabIn ftype f = .fresh u) :
    s.fabReceive t ftype f act redo = .next (act u) := fabReceive_fresh k.guard h

/-- A frame seen before is only counted, where its type does not act again (R344). -/
theorem FabArrives.again (k : FabArrives f s) (h : (s.at t).fabIn ftype f = .again u) :
    s.fabReceive t ftype f act none = .next (u.tally Ctr.fabReplay) := by
  unfold State.fabReceive
  rw [happen_pos k.guard, h]

theorem FabArrives.repeats (k : FabArrives f s) (h : (s.at t).fabIn ftype f = .again u) :
    s.fabReceive t ftype f act (some g) = .next (g u) := by
  unfold State.fabReceive
  rw [happen_pos k.guard, h]

variable {ls : List LookupMsg} {rs : List ReplyMsg} {ps : List PutMsg} {acked : Nat} {sts : List Nat} {m : JoinMsg}
  {st addr : Nat} {coord : Nat × Nat} {cs : List ViewChange} {serial prio term high : Nat}

theorem exec_joinReply_pair (st addr : Nat) (coord : Nat × Nat) :
    exec (.joinReply t f st addr coord) s = execJoinReply t f st addr coord s := rfl

/-- Whatever its type, a frame that fails a check is dropped; one seen before is counted, but for a `LOOKUP` and a
`PUT` (R344). -/
theorem FabArrives.exec_checked (k : FabArrives f s) {i : Instr} (hi : (i, ftype) ∈ ([(.heartbeat t f, 1),
    (.join t f m, 2), (.joinReply t f st addr coord, 3), (.view t f cs, 4), (.elect t f serial prio term high, 5),
    (.lookup t f ls, 6), (.lookupReply t f rs, 7), (.put t f ps, 8), (.putAck t f acked sts, 9)] :
      List (Instr × Nat))) :
    ((s.at t).fabIn ftype f = .drop u → exec i s = .next u) ∧
      (ftype ≠ 6 → ftype ≠ 8 → (s.at t).fabIn ftype f = .again u → exec i s = .next (u.tally Ctr.fabReplay)) := by
  simp only [List.mem_cons, Prod.mk.injEq, List.not_mem_nil, or_false] at hi
  rcases hi with ⟨rfl, rfl⟩ | ⟨rfl, rfl⟩ | ⟨rfl, rfl⟩ | ⟨rfl, rfl⟩ | ⟨rfl, rfl⟩ | ⟨rfl, rfl⟩ | ⟨rfl, rfl⟩ | ⟨rfl, rfl⟩ |
    ⟨rfl, rfl⟩
  · rw [exec_heartbeat]
    exact ⟨fun h => k.drop h, fun _ _ h => k.again h⟩
  · rw [exec_join]
    exact ⟨fun h => k.drop h, fun _ _ h => k.again h⟩
  · rw [exec_joinReply_pair]
    exact ⟨fun h => k.drop h, fun _ _ h => k.again h⟩
  · rw [exec_view]
    exact ⟨fun h => k.drop h, fun _ _ h => k.again h⟩
  · rw [exec_elect]
    exact ⟨fun h => k.drop h, fun _ _ h => k.again h⟩
  · rw [exec_lookup]
    exact ⟨fun h => k.drop h, fun h6 _ _ => absurd rfl h6⟩
  · rw [exec_lookupReply]
    exact ⟨fun h => k.drop h, fun _ _ h => k.again h⟩
  · rw [exec_put]
    exact ⟨fun h => k.drop h, fun _ h8 _ => absurd rfl h8⟩
  · rw [exec_putAck]
    exact ⟨fun h => k.drop h, fun _ _ h => k.again h⟩

end FabFrames

/-! ### What sending leaves of the coordinator's table (R351, R352) -/

section Assigning

variable {s : State}

/-- What is sent to peers, and the members that change, leave the assignments, the joins that wait for them, and the
store. -/
structure SentFab (s u : State) : Prop where
  assigned : u.fab.assigned = s.fab.assigned
  joinWaits : u.fab.joinWaits = s.fab.joinWaits
  bay : u.bay = s.bay

theorem SentFab.refl (s : State) : SentFab s s := ⟨rfl, rfl, rfl⟩

theorem SentFab.trans {a b c : State} (h : SentFab a b) (k : SentFab b c) : SentFab a c :=
  ⟨k.assigned.trans h.assigned, k.joinWaits.trans h.joinWaits, k.bay.trans h.bay⟩

theorem foldl_sentFab {α : Type} {f : State → α → State} (h : ∀ s a, SentFab s (f s a)) :
    ∀ (l : List α) (s : State), SentFab s (l.foldl f s)
  | [], s => .refl s
  | a :: l, s => (h s a).trans (foldl_sentFab h l (f s a))

theorem modPeer_sentFab (a : Nat) (f : Peer → Peer) : SentFab s (s.modPeer a f) := ⟨rfl, rfl, rfl⟩

theorem emit_sentFab (ifc len : Nat) (x : Sent) : SentFab s (s.emit ifc len x) := by
  unfold State.emit
  split_ifs <;> exact ⟨rfl, rfl, rfl⟩

theorem putFab_sentFab (ip port dst channel ftype fseq nMsg : Nat) (fwatch : Bool) (words : List Nat) :
    SentFab s (s.putFab ip port dst channel ftype fseq nMsg fwatch words) := by
  unfold State.putFab
  split
  · exact .refl s
  · exact emit_sentFab _ _ _

theorem fabSendMsgs_sentFab (fseq dst channel ftype nMsg : Nat) (words : List Nat) :
    SentFab s (s.fabSendMsgs fseq dst channel ftype nMsg words) := by
  unfold State.fabSendMsgs
  split
  · exact .refl s
  · split_ifs
    · exact .refl s
    · exact (modPeer_sentFab dst _).trans (putFab_sentFab _ _ _ _ _ _ _ _ _)

theorem fabSendNext_sentFab (dst ftype : Nat) (words : List Nat) : SentFab s (s.fabSendNext dst ftype words) :=
  ((modPeer_sentFab dst _).trans (fabSendMsgs_sentFab _ dst _ ftype _ words)).trans ⟨rfl, rfl, rfl⟩

theorem fabSendTo_sentFab (ip port ftype : Nat) (words : List Nat) : SentFab s (s.fabSendTo ip port ftype words) := by
  unfold State.fabSendTo
  dsimp only
  split
  · exact (putFab_sentFab _ _ _ _ _ _ _ _ _).trans ⟨rfl, rfl, rfl⟩
  · split_ifs
    · exact .refl s
    · exact ((modPeer_sentFab _ _).trans (putFab_sentFab _ _ _ _ _ _ _ _ _)).trans ⟨rfl, rfl, rfl⟩

theorem startWatch_sentFab (a : Nat) : SentFab s (s.startWatch a) := by
  unfold State.startWatch
  split_ifs <;> exact ⟨rfl, rfl, rfl⟩

/-- A change of the members leaves what its function leaves. -/
theorem changeFab_sentFab {g : Fabric → Fabric} (ha : (g s.fab).assigned = s.fab.assigned)
    (hw : (g s.fab).joinWaits = s.fab.joinWaits) : SentFab s (s.changeFab g) :=
  SentFab.trans (b := s.updFab g) ⟨ha, hw, rfl⟩ (foldl_sentFab (fun _ a => startWatch_sentFab a) _ _)

theorem Fabric.apply_eq (c : ViewChange) (f : Fabric) :
    (f.apply c).assigned = f.assigned ∧ (f.apply c).joinWaits = f.joinWaits := by
  unfold Fabric.apply
  split_ifs <;> exact ⟨rfl, rfl⟩

theorem publish_sentFab (c : ViewChange) : SentFab s (s.publish c) := by
  obtain ⟨ha, hw⟩ := Fabric.apply_eq { c with view := s.fab.viewNo + 1 } s.fab
  exact SentFab.trans (changeFab_sentFab (g := fun f => { Fabric.apply { c with view := s.fab.viewNo + 1 } f with
    viewNo := s.fab.viewNo + 1 }) ha hw) (foldl_sentFab (fun _ a => fabSendNext_sentFab a 4 _) _ _)

theorem announce_sentFab (m : JoinMsg) (a boot : Nat) : SentFab s (s.announce m a boot) := by
  unfold State.announce
  dsimp only
  split_ifs
  · exact .refl s
  · exact publish_sentFab _

theorem tellJoin_sentFab (m : JoinMsg) (st : Status) (a : Nat) : SentFab s (s.tellJoin m st a) :=
  fabSendTo_sentFab _ _ _ _

theorem State.assigned_settleJoins (s : State) : s.settleJoins.fab.assigned = s.fab.assigned := by
  unfold State.settleJoins
  split_ifs
  · exact (foldl_sentFab (fun _ (w : JoinWait) => (announce_sentFab w.msg w.addr w.boot).trans
      (tellJoin_sentFab w.msg .ok w.addr)) _ _).assigned
  · rfl

/-- While the store has not taken every assignment, no join is answered (R352). -/
theorem State.joinWaits_settleJoins (h : s.fabWritten = false) : s.settleJoins.fab.joinWaits = s.fab.joinWaits := by
  have hnone (w : JoinWait) : s.confirmed w = false := by simp [State.confirmed, h]
  simp only [State.settleJoins, hnone]
  split_ifs <;> simp

/-- The state in which an assignment stands in the table, before it is settled (R352). -/
def State.assigning (m : JoinMsg) (a boot : Nat) (s : State) : State :=
  (s.writeAssign m.serial a).updFab fun f => { f with
    joinWaits := f.joinWaits.filter (fun w => w.msg.serial != m.serial) ++
      [{ msg := m, addr := a, boot := boot, acks := [] }] }

theorem State.assign_sends (m : JoinMsg) (a boot : Nat) (s : State) :
    ∃ v, SentFab (s.assigning m a boot) v ∧ s.assign m a boot = v.settleJoins :=
  ⟨_, foldl_sentFab (fun _ (e : Nat × Nat) => fabSendTo_sentFab e.1 e.2 4 _) _ _, rfl⟩

theorem State.fab_keepFabric (s : State) : s.keepFabric.fab = s.fab := by rw [State.keepFabric, State.keep_eq]

theorem State.assigned_assigning (m : JoinMsg) (a boot : Nat) (s : State) :
    (s.assigning m a boot).fab.assigned = aset s.fab.assigned m.serial a :=
  congrArg Fabric.assigned (State.fab_keepFabric _)

/-- The coordinator's table holds what it has assigned. -/
theorem State.assigned_assign (m : JoinMsg) (a boot : Nat) (s : State) :
    aget (s.assign m a boot).fab.assigned m.serial = some a := by
  obtain ⟨v, hv, hassign⟩ := s.assign_sends m a boot
  rw [hassign, State.assigned_settleJoins, hv.assigned, State.assigned_assigning, aget_aset, if_pos rfl]

/-- In the normal mode a kept value waits for the store (R372). -/
theorem State.keep_normal (v : StVal) (hm : s.bay.runMode = 0) :
    s.keep v = s.updBay fun b => { b with unsaved := b.unsaved ++ [v] } := if_pos (by simp [hm])

theorem State.fabWritten_assigning (m : JoinMsg) (a boot : Nat) (hm : s.bay.runMode = 0) :
    (s.assigning m a boot).fabWritten = false := by
  have hkeep := State.keep_normal (s := s.updFab fun f => { f with assigned := aset f.assigned m.serial a })
    (.fabric (s.updFab fun f => { f with assigned := aset f.assigned m.serial a }).fab.settings) hm
  rw [State.assigning, State.writeAssign, State.keepFabric, hkeep]
  simp [State.fabWritten, State.updFab, State.updBay, StVal.group]

/-- In the normal mode an assignment waits until the store holds it (R352). -/
theorem State.joinWaits_assign (m : JoinMsg) (a boot : Nat) (hm : s.bay.runMode = 0) :
    ∃ w ∈ (s.assign m a boot).fab.joinWaits, w.msg = m ∧ w.addr = a := by
  obtain ⟨v, hv, hassign⟩ := s.assign_sends m a boot
  have hwritten : v.fabWritten = false := by
    rw [State.fabWritten, hv.bay]
    exact State.fabWritten_assigning m a boot hm
  rw [hassign, State.joinWaits_settleJoins hwritten, hv.joinWaits]
  exact ⟨_, List.mem_append_right _ (List.mem_singleton_self _), rfl, rfl⟩

end Assigning

end Sys2Proof.Machine

namespace Sys2Proof.Machine

/-! ### What the fabric engine does at its times (R347 to R351, R354, R357, R359) -/

section FabTimers

variable {s u : State} {t peer tag : Nat}

theorem exec_channelSuspectExpiry_due {channel due : Nat} (hs : tget (s.peer peer).suspect channel = some due)
    (hd : due ≤ max s.tick t) : exec (.channelSuspectExpiry t peer channel) s =
      .next ((s.at t).modPeer peer fun p => { p with suspect := tdel p.suspect channel }) := by
  rw [exec_channelSuspectExpiry]
  refine happen_pos ?_
  rw [State.peer_at, hs]
  simpa using hd

/-- A watched peer that has been silent for 300 µs is lost (R348). -/
theorem exec_peerLossTimeout_due {k : Nat} (hup : s.fabUp = true) (hl : (s.peer peer).state = .live)
    (hw : (s.peer peer).watchSince = some k) (hwatch : (s.at t).watching peer = true)
    (hd : max k (s.peer peer).lastRx + 300000 ≤ max s.tick t) :
    exec (.peerLossTimeout t peer) s = .next ((s.at t).losePeer peer) := by
  rw [exec_peerLossTimeout]
  exact happen_pos (by simp [hup, hl, hw, hwatch, hd])

/-- A peer that has been heard within 300 µs stays, while a `fab_if` interface is up. -/
theorem exec_peerLossTimeout_early {k : Nat} (hl : (s.peer peer).state = .live)
    (hw : (s.peer peer).watchSince = some k) (hlinks : s.fabLinks = true)
    (hd : max s.tick t < max k (s.peer peer).lastRx + 300000) :
    exec (.peerLossTimeout t peer) s = .next (s.at t) := by
  rw [exec_peerLossTimeout]
  exact happen_neg (by simp [hl, hw, hlinks, Nat.not_le.2 hd])

theorem exec_lostPeerProbe_due (hup : s.fabUp = true) (hlinks : s.fabLinks = true)
    (hl : (s.peer peer).state = .lost) (hd : (s.peer peer).lastProbe + 1000000 ≤ max s.tick t) :
    exec (.lostPeerProbe t peer) s = .next (((s.at t).modPeer peer fun p => { p with
      lastProbe := max s.tick t }).fabSendNext peer 1 []) := by
  rw [exec_lostPeerProbe]
  exact happen_pos (by simp [hup, hlinks, hl, hd])

/-- The one peer that watches the device gets a heartbeat, where no frame has gone to it within 100 µs (R349). -/
theorem exec_heartbeatSend_one (hup : s.fabUp = true) (hlinks : s.fabLinks = true) (hreset : s.bay.resetDue = none)
    (hw : (s.at t).watchers = [peer]) (hd : ∀ k, (s.peer peer).lastTx = some k → k + 100000 ≤ max s.tick t) :
    exec (.heartbeatSend t) s = .next ((s.at t).fabSendNext peer 1 []) := by
  rw [exec_heartbeatSend]
  refine (happen_pos (by simp [hup, hlinks, hreset])).trans ?_
  rw [hw, List.filter_cons_of_pos]
  · rfl
  · rw [State.peer_at]
    cases hk : (s.peer peer).lastTx with
    | none => rfl
    | some k => exact decide_eq_true (hd k hk)

theorem exec_electSend_candidate (hup : s.fabUp = true) (hc : s.candidate = true) :
    exec (.electSend t) s = .next ((s.otherSeeds.foldl (fun u e => u.fabSendTo e.1 e.2 5
      [u.fuses.serial, u.fab.prio, u.fab.term, u.fab.viewNo]) (s.at t)).elected) := by
  rw [exec_electSend]
  exact happen_pos (by simp [hup, hc])

theorem exec_joinRetry_first (hup : s.fabUp = true) (hj : s.fab.joined = false) (hn : s.fab.joinSince = none) :
    exec (.joinRetry t) s = .next ((s.fab.seeds.foldl (fun u e => u.fabSendTo e.2.1 e.2.2 2
      (joinWords u.ownJoin)) (s.at t)).updFab fun f => { f with joinSince := some (max s.tick t) }) := by
  rw [exec_joinRetry]
  exact happen_pos (by simp [hup, hj, hn])

/-- A lookup without a reply makes its channel suspect; it goes again once (R347, R354). -/
theorem exec_lookupRto_due {f : Fetch} (hup : s.fabUp = true) (hf : s.fetch tag = some f) (hw : f.waits = true)
    (hd : f.sentTick + s.fab.rto ≤ max s.tick t) (hu : u = (s.at t).suspect f.home f.channel) :
    exec (.lookupRto t tag) s = .next (if f.resent then u.modFetch tag fun f => { f with sentTick := f.endTick }
      else (u.modFetch tag fun f => { f with resent := true }).sendLookups f.home
        (u.channelFrom f.home (f.channel + 1)) [tag]) := by
  subst hu
  rw [exec_lookupRto]
  refine (happen_pos ?_).trans ?_
  · simp [hup, hf, hw, hd]
  · rw [State.fetch_at, hf]

/-- A put without an answer goes again, at most three times (R347, R359). -/
theorem exec_putRto_due {k : Nat} {p : PutRun} (hup : s.fabUp = true) (hp : tget s.fab.puts k = some p)
    (hh : p.home ≠ s.fab.addr) (hd : p.sentTick + s.fab.rto ≤ max s.tick t)
    (hu : u = (s.at t).suspect p.home p.channel) :
    (3 ≤ p.resends → exec (.putRto t k) s =
      .next ((u.endPut k none).takePuts p.ring ((u.endPut k none).ring p.ring).putFuel)) ∧
    (p.resends < 3 → exec (.putRto t k) s = .next (((u.updFab fun f => { f with
      puts := tset f.puts k { p with
        resends := p.resends + 1, channel := u.channelFrom p.home (p.channel + 1), sentTick := max s.tick t } }).noteWork
          p.home).fabSendAs k p.home (u.channelFrom p.home (p.channel + 1)) 8 (putWords p.msg))) := by
  subst hu
  have hp' : tget (s.at t).fab.puts k = some p := hp
  have hguard : ((s.at t).fabUp && match tget (s.at t).fab.puts k with
      | some p => p.home != (s.at t).fab.addr && decide (p.sentTick + (s.at t).fab.rto ≤ (s.at t).tick)
      | none => false) = true := by
    rw [hp']
    simp [hup, hh, hd]
  rw [exec_putRto]
  refine ⟨fun h3 => (happen_pos hguard).trans ?_, fun h3 => (happen_pos hguard).trans ?_⟩
  · rw [hp']
    dsimp only
    rw [if_pos h3]
  · rw [hp']
    dsimp only
    rw [if_neg (Nat.not_le.2 h3)]
    rfl

/-- Of a fold over a range, the one step that changes something. -/
theorem foldl_range_single {α : Type} {f : α → Nat → α} {n k : Nat} (hk : k < n)
    (h : ∀ a j, j ≠ k → f a j = a) (a : α) : (List.range n).foldl f a = f a k := by
  have hidle : ∀ l : List Nat, k ∉ l → ∀ a, l.foldl f a = a := by
    intro l
    induction l with
    | nil => exact fun _ _ => rfl
    | cons j l ih =>
      intro hl a
      obtain ⟨hj, hl⟩ := not_or.1 (mt List.mem_cons.2 hl)
      rw [List.foldl_cons, h a j (Ne.symm hj), ih hl]
  obtain ⟨m, rfl⟩ := Nat.exists_eq_add_of_lt hk
  rw [Nat.add_assoc, List.range_add, List.foldl_append, hidle (List.range k) (by simp), Nat.add_comm m 1,
    List.range_add, List.map_append, List.foldl_append]
  refine (hidle _ ?_ _).trans rfl
  simp only [List.mem_map, List.mem_range, not_exists, not_and]
  omega

/-- The one lookup that is held for a home goes on its own channel (R354). -/
theorem exec_lookupJoinHold_one {f : Fetch} (hup : s.fabUp = true) (hh : (s.at t).heldFor peer = [tag])
    (hf : s.fetch tag = some f) (hm : 1280 ≤ s.fab.mtu) (hn : s.fab.paths ≤ 64) (h0 : 0 < s.fab.paths) :
    exec (.lookupJoinHold t peer) s = .next ((s.at t).sendLookups peer
      ((s.at t).channelFrom peer (s.keyChannel f.key f.table)) [tag]) := by
  have hchannel : (s.at t).channelFrom peer (s.keyChannel f.key f.table) < 64 :=
    (State.channelFrom_lt (s := s.at t) h0).trans_le hn
  have hroom : 1 ≤ min 64 (s.frameRoom / 24) := by
    unfold State.frameRoom
    omega
  have hwhole : [tag].take (min 64 (s.frameRoom / 24)) = [tag] := List.take_of_length_le hroom
  rw [exec_lookupJoinHold]
  refine (happen_pos (by rw [hh]; simp [hup])).trans ?_
  dsimp only
  rw [hh, foldl_range_single hchannel fun a j hj => by simp [hf, hj.symm, pieces]]
  simp [hf, pieces, hwhole]

/-- A kernel's entry goes to its ring, and what stands on the ring is taken (R357). -/
theorem exec_fabricPost_ready {core ctx ring : Nat} {entry : List W64} {x : Ctx} (hm : s.moving = true)
    (hty : (s.ring ring).rtype = 7) (hx : s.ctx core ctx = some x) (hr : s.ctxReady core ctx = true)
    (ho : x.part = (s.ring ring).owner) (hu : u = ((s.at t).useCtx ring).itemNow ring [entry]) :
    exec (.fabricPost t core ctx ring entry) s = .next ((u.modCtx core ctx fun x => { x with
      fabWait := some (ring, max s.tick t, entry) }).takePuts ring (u.ring ring).putFuel) := by
  have htick : u.tick = max s.tick t := by
    rw [hu]
    exact ((useCtx_told ring).trans (itemNow_told ring [entry])).tick
  rw [exec_fabricPost, ← htick, hu]
  refine happen_pos ?_
  simp [hm, hty, hx, hr, ho]

end FabTimers

/-! ### The fabric's commands (R340, R349, R352, R353, R397) -/

section FabCommands

variable {s u : State} {t addr serial : Nat} {h : CmdHdr}

theorem exec_fabricLeave_pass (h0 : h.part = 0) (r : Ready h 0x0D02 false s)
    (hu : u = (s.fab.members.map (·.1)).foldl (fun s a => s.failWork a) ((s.at t).updFab fun f =>
      { f with left := true, coordinator := false, joinWaits := [], acksDue := [] })) :
    exec (.fabricLeave t h) s = .next (((u.updModels fun m => { m with
      serving := m.serving.filter fun e => e.2.peer == u.fab.addr }).keepFabric).answer h 0x0D02 .ok noDetail []) := by
  rw [hu, exec_fabricLeave]
  exact isain_done r rfl rfl (isP0_of h0) rfl

/-- A device that has left takes no part in a fabric (R397). -/
theorem State.fabUp_left (hl : s.fab.left = true) : s.fabUp = false := by simp [State.fabUp, hl]

theorem exec_fabricRelease_coordinator {a : Nat} (h0 : h.part = 0) (r : Ready h 0x0D03 false s) (hup : s.fabUp = true)
    (hc : s.fab.coordinator = true) (hm : (s.at t).majority = true) (ha : aget s.fab.assigned serial = some a) :
    exec (.fabricRelease t h serial) s = .next (((s.at t).releaseAddr a).answer h 0x0D03 .ok noDetail []) := by
  have ha' : aget (s.at t).fab.assigned serial = some a := ha
  refine isain_done r rfl rfl (isP0_of h0) ((if_pos (by simp [hup, hc, hm])).trans ?_)
  rw [ha']
  rfl

theorem exec_fabricRelease_unknown (h0 : h.part = 0) (r : Ready h 0x0D03 false s) (hup : s.fabUp = true)
    (hc : s.fab.coordinator = true) (hm : (s.at t).majority = true) (ha : aget s.fab.assigned serial = none) :
    exec (.fabricRelease t h serial) s = .next ((s.at t).answer h 0x0D03 .eState noDetail []) := by
  have ha' : aget (s.at t).fab.assigned serial = none := ha
  refine isain_refuse r rfl rfl (isP0_of h0) ((if_pos (by simp [hup, hc, hm])).trans ?_)
  rw [ha']
  rfl

theorem addrValid_of (hlo : 1 ≤ addr) (hhi : addr ≤ 20480) : addrValid addr = true := by simp [addrValid, hlo, hhi]

/-- What a `FABRIC_WATCH` that adds a peer comes to (R349). -/
theorem watchAdd_listed (hlo : 1 ≤ addr) (hhi : addr ≤ 20480) (hw : addr ∈ s.fab.watch) {r : Reply} :
    (if !addrValid addr then no .eRange else if s.fab.watch.contains addr then okReply s else r) = okReply s := by
  simp [addrValid_of hlo hhi, hw]

theorem exec_fabricWatchAdd_listed (h0 : h.part = 0) (r : Ready h 0x0D04 false s) (hlo : 1 ≤ addr) (hhi : addr ≤ 20480)
    (hw : addr ∈ s.fab.watch) :
    exec (.fabricWatchAdd t h addr) s = .next ((s.at t).answer h 0x0D04 .ok noDetail []) :=
  isain_done r rfl rfl (isP0_of h0) (watchAdd_listed (s := s.at t) hlo hhi hw)

theorem exec_fabricWatchAdd_new (h0 : h.part = 0) (r : Ready h 0x0D04 false s) (hlo : 1 ≤ addr) (hhi : addr ≤ 20480)
    (hw : addr ∉ s.fab.watch) (hn : s.fab.watch.length < 4096) :
    exec (.fabricWatchAdd t h addr) s = .next ((((s.at t).startWatch addr).updFab fun f => { f with
      watch := f.watch ++ [addr] }).answer h 0x0D04 .ok noDetail []) := by
  rw [exec_fabricWatchAdd]
  exact isain_done r rfl rfl (isP0_of h0) (by simp [addrValid_of hlo hhi, hw, Nat.not_le.2 hn, okReply])

theorem exec_fabricWatchAdd_full (h0 : h.part = 0) (r : Ready h 0x0D04 false s) (hlo : 1 ≤ addr) (hhi : addr ≤ 20480)
    (hw : addr ∉ s.fab.watch) (hn : 4096 ≤ s.fab.watch.length) :
    exec (.fabricWatchAdd t h addr) s = .next ((s.at t).answer h 0x0D04 .eNospace noDetail []) := by
  rw [exec_fabricWatchAdd]
  exact isain_refuse r rfl rfl (isP0_of h0) (by simp [addrValid_of hlo hhi, hw, hn, no])

theorem exec_fabricWatchAdd_range (h0 : h.part = 0) (r : Ready h 0x0D04 false s) (hhi : 20480 < addr) :
    exec (.fabricWatchAdd t h addr) s = .next ((s.at t).answer h 0x0D04 .eRange noDetail []) := by
  rw [exec_fabricWatchAdd]
  exact isain_refuse r rfl rfl (isP0_of h0) (by simp [addrValid, Nat.not_le.2 hhi, no])

theorem exec_fabricWatchRemove_pass (h0 : h.part = 0) (r : Ready h 0x0D04 false s) (hlo : 1 ≤ addr)
    (hhi : addr ≤ 20480) : exec (.fabricWatchRemove t h addr) s = .next (((s.at t).updFab fun f => { f with
      watch := f.watch.filter (· != addr) }).answer h 0x0D04 .ok noDetail []) := by
  rw [exec_fabricWatchRemove]
  exact isain_done r rfl rfl (isP0_of h0) (by simp [addrValid_of hlo hhi, okReply])

theorem State.watch_startWatch (a : Nat) : (s.startWatch a).fab.watch = s.fab.watch := by
  unfold State.startWatch
  split_ifs <;> rfl

theorem exec_fabricStatus_pass {start max : Nat} (r : Ready h 0x0D05 true s) :
    ∃ words, exec (.fabricStatus t h start max) s = .next ((s.at t).answer h 0x0D05 .ok noDetail words) :=
  ⟨_, isain_done r rfl rfl rfl rfl⟩

end FabCommands

/-- Settles O46: each frame acts as its checks let it, each timer where it is due, each command where its conditions
hold. -/
theorem fabricWork : Obligations.FabricWork := by
  unfold Obligations.FabricWork
  refine ⟨?frames, fun t peer s => ⟨fun channel due => exec_channelSuspectExpiry_due, fun hup => ?timers,
    fun core ctx ring entry x hm hty hx hr ho => ⟨_, rfl, exec_fabricPost_ready hm hty hx hr ho rfl⟩⟩,
    fun t addr h s => ⟨fun h0 => ?commands, fun start max => exec_fabricStatus_pass⟩⟩
  case frames =>
    intro t f u s hup hlisted hlink ls rs ps acked sts m st addr coord cs serial prio term high
    have k : FabArrives f s := ⟨hup, hlisted, hlink⟩
    refine ⟨fun i ty hi => k.exec_checked hi, fun hf => ?heartbeat, fun hf => ?join, fun hf => ?joinReply,
      fun hf => ?view, fun hf => ?elect, fun hf => ?lookup, fun hf => ?reply, fun hf => ?put, fun hf => ?putAgain,
      fun p v hf hp hh hv => ?putAck⟩
    case heartbeat => rw [exec_heartbeat]; exact k.fresh hf
    case join =>
      rw [exec_join]
      refine ⟨fun hc hn => ?_, fun hc hn => ?_, fun a hc hg => ⟨?_, State.assigned_assign .., State.joinWaits_assign _ _ _⟩,
        fun e hc he hg => ?_⟩ <;> refine (k.fresh hf).trans (congrArg Host.Outcome.next ?_)
      · simp [hc, hn]
      · simp [hc, hn, State.tellJoin]
      · simp [hc, hg]
      · simp [hc, hg, he, State.tellJoin]
    case joinReply =>
      rw [exec_joinReply_pair]
      refine ⟨fun hj => ?_, fun hj => ?_⟩ <;> refine (k.fresh hf).trans (congrArg Host.Outcome.next ?_) <;> simp [hj]
    case view =>
      rw [exec_view]
      refine ⟨fun hc => ?_, fun hc hh => ?_, fun v hc hh hv => ?_⟩ <;>
        refine (k.fresh hf).trans (congrArg Host.Outcome.next ?_)
      · simp [hc]
      · simp [hc, hh]
      · simp [hc, hh, hv]
    case elect =>
      rw [exec_elect]
      refine ⟨fun hn => ?_, fun v hc hs hv => ⟨fun hterm => ?_, fun hterm => ?_⟩⟩ <;>
        refine (k.fresh hf).trans (congrArg Host.Outcome.next ?_)
      · exact if_pos (by rcases hn with hn | hn <;> simp [hn])
      · rw [if_neg (by simp [hc, hs]), hv]
        exact if_neg (Nat.not_lt.2 hterm)
      · rw [if_neg (by simp [hc, hs]), hv]
        exact if_pos hterm
    case lookup =>
      rw [exec_lookup]
      rcases hf with hf | hf
      · exact k.fresh hf
      · exact k.repeats hf
    case reply => rw [exec_lookupReply]; exact k.fresh hf
    case put => rw [exec_put]; exact k.fresh hf
    case putAgain => rw [exec_put]; exact k.repeats hf
    case putAck =>
      rw [exec_putAck]
      refine (k.fresh hf).trans ?_
      dsimp only
      rw [hp]
      dsimp only
      rw [if_pos hh, hv]
  case timers =>
    refine ⟨fun k hl hw hwatch hd => exec_peerLossTimeout_due hup hl hw hwatch hd,
      fun k hl hw hlinks hd => exec_peerLossTimeout_early hl hw hlinks hd,
      fun hlinks hl hd => exec_lostPeerProbe_due hup hlinks hl hd, exec_heartbeatSend_one hup,
      fun hc _ => exec_electSend_candidate hup hc, exec_joinRetry_first hup, fun tag f u hf hw hd hu => ⟨fun hr => ?_,
      fun hr => ?_⟩, fun k p u hp hh hd hu => ⟨fun h3 => ⟨_, _, rfl, rfl, (exec_putRto_due hup hp hh hd hu).2 h3⟩,
      (exec_putRto_due hup hp hh hd hu).1⟩, fun tag f => exec_lookupJoinHold_one hup⟩
    · rw [exec_lookupRto_due hup hf hw hd hu, if_pos hr]
    · rw [exec_lookupRto_due hup hf hw hd hu, if_neg (Bool.eq_false_iff.1 hr)]
  case commands =>
    refine ⟨fun u r hu => exec_fabricLeave_pass h0 r hu, fun r hm => ⟨_, exec_fabricLeave_pass h0 r rfl, ?_⟩,
      fun serial a => exec_fabricRelease_coordinator h0, fun serial => exec_fabricRelease_unknown h0,
      fun r => ⟨fun hlo hhi => ⟨exec_fabricWatchAdd_listed h0 r hlo hhi, fun hw hn =>
        ⟨_, exec_fabricWatchAdd_new h0 r hlo hhi hw hn, ?_⟩, exec_fabricWatchAdd_full h0 r hlo hhi,
        _, exec_fabricWatchRemove_pass h0 r hlo hhi, by simp [State.updFab], rfl⟩, exec_fabricWatchAdd_range h0 r⟩⟩
    · rw [hm]
      refine ⟨?_, ?_, State.fabUp_left ?_, ?_, ?_⟩ <;> rw [State.fab_keepFabric] <;> rfl
    · exact congrArg (· ++ [addr]) (State.watch_startWatch (s := s.at t) addr)

end Sys2Proof.Machine

namespace Sys2Proof.Machine

/-! ### A refused debug token over a correctable word (R325, R427, log entry 111) -/

section RefusedToken

/-- A running device with a `DEBUG_UNLOCK` of partition 0 read from its `COMMAND` ring 1; partition 0 may read
memory from address 0 on, and the first word there has a flipped bit. -/
def unlockingDevice : State :=
  { stoppedDevice with
    parts := [(0, { enabled := true, memRanges := [(0, (0, 32768, 3))] })]
    rings := { ctx := [(1, { rtype := 3, opened := [0], cmd := [0x1005000000010000, 7, 0, 0, 0, 0, 0, 0] })] }
    mem := { faults := [(0, .flipped)] }
    obs := {} }

theorem ready_unlockingDevice : Ready stoppedQuery 0x1005 false unlockingDevice where
  up := rfl
  carrier := by decide
  lengths := rfl
  reserved := rfl
  listed := by decide
  room := rfl
  space := rfl
  enabled := rfl
  token := rfl
  allowed := by decide

theorem mayAccess_unlockingDevice : unlockingDevice.mayAccess 0 1 0 29920 = true := by decide

/-- A token that was read and is refused leaves what the reads did (R325, R331). -/
theorem exec_debugUnlock_refused {t tokAddr : Nat} {h : CmdHdr} {s : State} (r : Ready h 0x1005 false s)
    (h0 : h.part = 0) (hin : inDevice tokAddr 29920 = true) (hacc : s.mayAccess 0 1 tokAddr 29920 = true)
    (hread : s.mem.readable tokAddr 29920 = true) :
    exec (.debugUnlock t h tokAddr 29920 false) s =
      .next (((s.at t).touch tokAddr 29920 0).answer h 0x1005 .eAuth noDetail []) := by
  rw [exec_debugUnlock]
  refine isain_done (c := { op := 0x1005 }) r rfl rfl (isP0_of h0) ?_
  rw [checks_pass (by simp [tokenLen, hin, State.mayAccess_at, hacc])]
  simp only [checks, Reply.after, tokenLen, no, State.at_mem, hread, Bool.not_true, Bool.or_true, if_true,
    Bool.false_eq_true, if_false, Bool.not_false]

/-- The answer leaves the flipped bit, and the read corrects it. -/
theorem faults_answer_unlockingDevice :
    ((unlockingDevice.at 0).answer stoppedQuery 0x1005 .eAuth noDetail []).mem.faults = [(0, .flipped)] := rfl

theorem faults_touch_unlockingDevice :
    (((unlockingDevice.at 0).touch 0 29920 0).answer stoppedQuery 0x1005 .eAuth noDetail []).mem.faults = [] := rfl

end RefusedToken

/-- Refutes O58: a debug token is read before it is refused, and the reads correct a flipped bit and count it
(`Reply.after`), so the refusal with `E_AUTH` is not answered from the state before: in `unlockingDevice` the first
word of the token has a flipped bit. -/
theorem not_updateAndSecurity : ¬ Obligations.UpdateAndSecurity := by
  unfold Obligations.UpdateAndSecurity
  intro hall
  obtain ⟨-, -, -, -, -, -, -, hsecurity⟩ := hall
  obtain ⟨-, -, hpart0⟩ := hsecurity 0 stoppedQuery unlockingDevice
  obtain ⟨-, -, hunlock⟩ := hpart0 rfl
  obtain ⟨-, -, -, htoken⟩ := hunlock 0 false ready_unlockingDevice
  obtain ⟨hrefused, -⟩ := htoken (by decide) mayAccess_unlockingDevice (by decide)
  have hanswer := hrefused (.inr rfl)
  rw [exec_debugUnlock_refused ready_unlockingDevice rfl (by decide) mayAccess_unlockingDevice (by decide)] at hanswer
  injection hanswer with heq
  have hfaults := congrArg (fun u : State => u.mem.faults) heq
  rw [faults_answer_unlockingDevice, faults_touch_unlockingDevice] at hfaults
  exact absurd hfaults (by decide)

end Sys2Proof.Machine

namespace Sys2Proof.Machine

/-! ### What a step keeps of every state: the queue and the fuses (R384, R416) -/

/-- The queue that waits and the fuses. Its rules are proved `by rfl`: as definitional rules of `simp` they would not
close the side condition of `State.held_foldl`. -/
def State.held (s : State) : List Instr × Fuses := (s.pending, s.fuses)

section HeldPieces

variable {s : State}

@[simp] theorem State.held_at (t : Nat) : (s.at t).held = s.held := by rfl
@[simp] theorem State.held_updPkg (g : Package → Package) : (s.updPkg g).held = s.held := by rfl
@[simp] theorem State.held_updIfcs (g : Tab Ifc → Tab Ifc) : (s.updIfcs g).held = s.held := by rfl
@[simp] theorem State.held_updPorts (g : Tab Port → Tab Port) : (s.updPorts g).held = s.held := by rfl
@[simp] theorem State.held_updWall (g : WallClock → WallClock) : (s.updWall g).held = s.held := by rfl
@[simp] theorem State.held_updOuv (g : Ouvlen → Ouvlen) : (s.updOuv g).held = s.held := by rfl
@[simp] theorem State.held_updRings (g : Rings → Rings) : (s.updRings g).held = s.held := by rfl
@[simp] theorem State.held_updParts (g : Tab Partition → Tab Partition) : (s.updParts g).held = s.held := by rfl
@[simp] theorem State.held_updParser (g : Parser → Parser) : (s.updParser g).held = s.held := by rfl
@[simp] theorem State.held_updCls (g : Classifier → Classifier) : (s.updCls g).held = s.held := by rfl
@[simp] theorem State.held_updEg (g : Egress → Egress) : (s.updEg g).held = s.held := by rfl
@[simp] theorem State.held_updComp (g : Compute → Compute) : (s.updComp g).held = s.held := by rfl
@[simp] theorem State.held_updModels (g : Models → Models) : (s.updModels g).held = s.held := by rfl
@[simp] theorem State.held_updBases (g : Tab BaseState → Tab BaseState) : (s.updBases g).held = s.held := by rfl
@[simp] theorem State.held_updMem (g : Memory → Memory) : (s.updMem g).held = s.held := by rfl
@[simp] theorem State.held_updFab (g : Fabric → Fabric) : (s.updFab g).held = s.held := by rfl
@[simp] theorem State.held_updBay (g : Bay → Bay) : (s.updBay g).held = s.held := by rfl
@[simp] theorem State.held_updObs (g : Observe → Observe) : (s.updObs g).held = s.held := by rfl

/-- A state written out whole keeps what its queue and its fuses are taken from. -/
@[simp] theorem State.held_mk {q : List Instr} {a1 : Nat} {a2 : Tab (Nat × Nat)} {a3 : Package} {a4 : Tab Ifc}
    {a5 : Tab Port} {a6 : WallClock} {a7 : Ouvlen} {a8 : Rings} {a9 : Tab Partition} {b1 : Parser} {b2 : Classifier}
    {b3 : Egress} {b4 : Compute} {b5 : Models} {b6 : Tab BaseState} {m : Memory} {b7 : Fabric} {b8 : Bay} {f : Fuses}
    {o : Observe} {b9 : Nat} {c1 : List Sent} :
    State.held ⟨q, a1, a2, a3, a4, a5, a6, a7, a8, a9, b1, b2, b3, b4, b5, b6, m, b7, b8, f, o, b9, c1⟩ = (q, f) := by
  rfl

@[simp] theorem State.pair_held : (s.pending, s.fuses) = s.held := by rfl

@[simp] theorem State.held_ite {c : Prop} [Decidable c] {a b : State} :
    (if c then a else b).held = if c then a.held else b.held := apply_ite State.held c a b

@[simp] theorem State.held_foldl {α : Type} {g : State → α → State} (h : ∀ s x, (g s x).held = s.held) :
    ∀ (l : List α) (s : State), (l.foldl g s).held = s.held
  | [], _ => rfl
  | x :: l, s => (State.held_foldl h l (g s x)).trans (h s x)

/-- The state in a fold that carries something beside it. -/
@[simp] theorem State.held_foldl_fst {α β : Type} {g : State × β → α → State × β}
    (h : ∀ p x, (g p x).1.held = p.1.held) : ∀ (l : List α) (p : State × β), (l.foldl g p).1.held = p.1.held
  | [], _ => rfl
  | x :: l, p => (State.held_foldl_fst h l (g p x)).trans (h p x)

end HeldPieces

/-! ### Memory, counters and Rosemary (Machine/Ops) -/

section HeldOps

variable {s : State}

@[simp] theorem State.held_out (x : Sent) : (s.out x).held = s.held := by rfl
@[simp] theorem State.held_fresh : s.fresh.2.held = s.held := by rfl
@[simp] theorem State.held_countN (id scope n : Nat) : (s.countN id scope n).held = s.held := by rfl
@[simp] theorem State.held_count (id scope : Nat) : (s.count id scope).held = s.held := by rfl
@[simp] theorem State.held_tally (id : Nat) : (s.tally id).held = s.held := by rfl

@[simp] theorem State.held_recordRaw (kind level unit part sev : Nat) (data : List Nat) :
    (s.recordRaw kind level unit part sev data).held = s.held := by
  simp only [State.recordRaw]
  split <;> simp

@[simp] theorem State.held_record (kind level : Nat) (unit part sev : Nat) (data : List (Nat × Nat)) :
    (s.record kind level unit part sev data).held = s.held := by
  simp [State.record]

@[simp] theorem State.held_recordUe (w access : Nat) : (s.recordUe w access).held = s.held := by simp [State.recordUe]

@[simp] theorem State.held_readFault (w access : Nat) (f : WordFault) : (s.readFault w access f).held = s.held := by
  unfold State.readFault
  split <;> simp

@[simp] theorem State.held_touch (a n access : Nat) : (s.touch a n access).held = s.held := by simp [State.touch]

@[simp] theorem State.held_strike (l : List (Nat × Nat)) (check : WordCheck) : (s.strike l check).held = s.held := by
  unfold State.strike
  (repeat' split) <;> simp

@[simp] theorem State.held_isainWord (check : WordCheck) : (s.isainWord check).held = s.held := by
  unfold State.isainWord
  split <;> simp

@[simp] theorem State.held_mergeRead (w : Nat) : (s.mergeRead w).held = s.held := by
  unfold State.mergeRead
  split <;> simp

@[simp] theorem State.held_poke (a : Nat) (bs : List Byte) : (s.poke a bs).held = s.held := by simp [State.poke]
@[simp] theorem State.held_poke64 (a v : Nat) : (s.poke64 a v).held = s.held := by simp [State.poke64]
@[simp] theorem State.held_poke32 (a v : Nat) : (s.poke32 a v).held = s.held := by simp [State.poke32]
@[simp] theorem State.held_modRegion (g : Nat) (f : Region → Region) : (s.modRegion g f).held = s.held := by rfl
@[simp] theorem State.held_modLink (l : Nat) (f : Link → Link) : (s.modLink l f).held = s.held := by rfl

end HeldOps

/-! ### Rings (Machine/RingOps) -/

section HeldRingOps

variable {s : State}

@[simp] theorem State.held_setRing (n : Nat) (r : Ring) : (s.setRing n r).held = s.held := by rfl
@[simp] theorem State.held_modRing (n : Nat) (f : Ring → Ring) : (s.modRing n f).held = s.held := by rfl
@[simp] theorem State.held_useCtx (n : Nat) : (s.useCtx n).held = s.held := by rfl
@[simp] theorem State.held_missCtx (n : Nat) (op : Option CtxOp) : (s.missCtx n op).held = s.held := by rfl
@[simp] theorem State.held_setSlot (k : Nat) (x : Slot) : (s.setSlot k x).held = s.held := by rfl
@[simp] theorem State.held_modSlot (k : Nat) (f : Slot → Slot) : (s.modSlot k f).held = s.held := by rfl
@[simp] theorem State.held_freeSlot (k : Nat) : (s.freeSlot k).held = s.held := by rfl
@[simp] theorem State.held_completeEntry (n : Nat) (i : W32) : (s.completeEntry n i).held = s.held := by
  simp [State.completeEntry]

@[simp] theorem State.held_itemDone (n : Nat) (item : RingItem) : (s.itemDone n item).held = s.held := by
  unfold State.itemDone
  split <;> simp

@[simp] theorem State.held_dropItem (n : Nat) (item : RingItem) : (s.dropItem n item).held = s.held := by
  simp [State.dropItem]
@[simp] theorem State.held_putEntry (n : Nat) (e : List W64) : (s.putEntry n e).held = s.held := by
  simp [State.putEntry]
@[simp] theorem State.held_putLoss (n : Nat) : (s.putLoss n).held = s.held := by simp [State.putLoss]
@[simp] theorem State.held_putItem (n : Nat) (item : RingItem) : (s.putItem n item).held = s.held := by
  simp [State.putItem]

@[simp] theorem State.held_overwrite (n need : Nat) : ∀ (fuel : Nat) (s : State), (s.overwrite n need fuel).held = s.held
  | 0, _ => rfl
  | fuel + 1, s => by
    rw [State.overwrite]
    simp [State.held_overwrite n need fuel]

@[simp] theorem State.held_itemNow (n : Nat) (item : RingItem) : (s.itemNow n item).held = s.held := by
  simp [State.itemNow]
@[simp] theorem State.held_ringItem (n : Nat) (item : RingItem) : (s.ringItem n item).held = s.held := by
  simp [State.ringItem]

@[simp] theorem drainOne_held (n : Nat) (p : State × List (Nat × RingItem)) (e : Nat × RingItem) :
    (drainOne n p e).1.held = p.1.held := by
  unfold drainOne
  split <;> simp

@[simp] theorem State.held_drainStalled (n : Nat) : (s.drainStalled n).held = s.held := by simp [State.drainStalled]
@[simp] theorem State.held_dropStalled (n : Nat) : (s.dropStalled n).held = s.held := by simp [State.dropStalled]
@[simp] theorem State.held_tellCredit (n : Nat) : (s.tellCredit n).held = s.held := by rfl
@[simp] theorem State.held_consume (n k : Nat) : (s.consume n k).held = s.held := by rfl

@[simp] theorem State.held_event (part code : Nat) (data : List (Nat × Nat)) (rm : Nat) :
    (s.event part code data rm).held = s.held := by
  unfold State.event
  split <;> simp

@[simp] theorem State.held_recordEvent (kind level : Nat) (unit rpart sev : Nat) (rdata : List (Nat × Nat)) (part
    code : Nat) (data : List (Nat × Nat)) :
    (s.recordEvent kind level unit rpart sev rdata part code data).held = s.held := by
  simp [State.recordEvent]

@[simp] theorem State.held_faultRing (n : Nat) : (s.faultRing n).held = s.held := by simp [State.faultRing]

end HeldRingOps

/-! ### Sessions and answers (Machine/IsainOps) -/

section HeldIsainOps

variable {s : State}

@[simp] theorem State.held_emit (ifc len : Nat) (x : Sent) : (s.emit ifc len x).held = s.held := by simp [State.emit]
@[simp] theorem State.held_modSession (sid : Nat) (f : Session → Session) : (s.modSession sid f).held = s.held := by
  rfl

@[simp] theorem State.held_putOuv (key : Option (BitVec 256)) (ifc : Nat) (host : BitVec 128) (sid ftype seq target
    : Nat) (status : Status) (words : List Nat) (credit : Option (Nat × W32)) :
    (s.putOuv key ifc host sid ftype seq target status words credit).held = s.held := by
  simp [State.putOuv]

@[simp] theorem State.held_sendFrame (sid ftype target : Nat) (status : Status) (words : List Nat) :
    (s.sendFrame sid ftype target status words).held = s.held := by
  unfold State.sendFrame
  split <;> simp

@[simp] theorem State.held_dropLock (sid : Nat) : (s.dropLock sid).held = s.held := by rfl
@[simp] theorem State.held_endSession (sid : Nat) : (s.endSession sid).held = s.held := by rfl
@[simp] theorem State.held_closeSession (sid : Nat) (st : Status) : (s.closeSession sid st).held = s.held := by
  simp [State.closeSession]

@[simp] theorem State.held_closeWorn (sid : Nat) : (s.closeWorn sid).held = s.held := by
  unfold State.closeWorn
  split <;> simp

@[simp] theorem State.held_sendOuv (sid ftype target : Nat) (status : Status) (words : List Nat) :
    (s.sendOuv sid ftype target status words).held = s.held := by
  simp [State.sendOuv]

@[simp] theorem State.held_respond (sid seq : Nat) (st : Status) (words : List Nat) :
    (s.respond sid seq st words).held = s.held := by
  simp [State.respond]

@[simp] theorem State.held_hush (h : CmdHdr) : (s.hush h).held = s.held := by
  simp only [State.hush]
  (repeat' split) <;> simp

@[simp] theorem State.held_answerRd (h : CmdHdr) (op rd : Nat) (st : Status) (detail : Nat) (body : List Nat) :
    (s.answerRd h op rd st detail body).held = s.held := by
  simp only [State.answerRd]
  (repeat' split) <;> simp

@[simp] theorem State.held_answer (h : CmdHdr) (op : Nat) (st : Status) (detail : Nat) (body : List Nat) :
    (s.answer h op st detail body).held = s.held := by
  simp [State.answer]

@[simp] theorem State.held_modPart (p : Nat) (f : Partition → Partition) : (s.modPart p f).held = s.held := by rfl

end HeldIsainOps

/-! ### Outcomes that keep them -/

/-- An outcome is a next state with this queue and these fuses. -/
def OutHolds (d : List Instr × Fuses) (o : Host.Outcome State Fault Refusal) : Prop := ∃ u, o = .next u ∧ u.held = d

/-- A reply's state, where it has one, has them. -/
def Reply.Holds (d : List Instr × Fuses) : Reply → Prop
  | .refuse _ _ => True
  | .done _ _ u => u.held = d
  | .wait u => u.held = d

/-- The state in which a reply leaves the device, where its effect is not refused. -/
def Reply.Leaves (u : State) : Reply → Prop
  | .refuse _ _ => False
  | .done _ _ v => v = u
  | .wait v => v = u

/-- The state in which a session frame acted has them. -/
def FrameOut.Holds (d : List Instr × Fuses) : FrameOut → Prop
  | .done u => u.held = d
  | .refuse _ => True
  | .silent u => u.held = d

section HeldReplies

variable {s : State} {d : List Instr × Fuses} {r : Reply} {o : FrameOut}

theorem holds_next {u : State} (h : u.held = d) : OutHolds d (.next u) := ⟨u, rfl, h⟩

theorem Reply.Holds.leaves {u : State} (h : r.Holds d) (hu : r.Leaves u) : u.held = d := by
  cases r with
  | refuse => exact hu.elim
  | done => exact hu ▸ h
  | wait => exact hu ▸ h

@[simp] theorem Reply.holds_refuse (st : Status) (n : Nat) : (Reply.refuse st n).Holds d := trivial
@[simp] theorem Reply.holds_no (st : Status) : (no st).Holds d := trivial
@[simp] theorem Reply.holds_done (st : Status) (b : List Nat) : (Reply.done st b s).Holds d ↔ s.held = d := .rfl
@[simp] theorem Reply.holds_ok : (okReply s).Holds d ↔ s.held = d := .rfl
@[simp] theorem Reply.holds_wait : (Reply.wait s).Holds d ↔ s.held = d := .rfl
@[simp] theorem Reply.holds_ite {c : Prop} [Decidable c] {a b : Reply} :
    (if c then a else b).Holds d ↔ if c then a.Holds d else b.Holds d := by split <;> rfl

@[simp] theorem checks_holds (h : r.Holds d) : ∀ l : List (Bool × Status), (checks l r).Holds d
  | [] => h
  | (true, _) :: _ => trivial
  | (false, _) :: l => checks_holds h l

@[simp] theorem checksAt_holds (h : r.Holds d) : ∀ l : List (Option Nat × Status), (checksAt l r).Holds d
  | [] => h
  | (some _, _) :: _ => trivial
  | (none, _) :: l => checksAt_holds h l

@[simp] theorem Reply.after_holds (hs : s.held = d) (h : r.Holds d) : (r.after s).Holds d := by
  cases r with
  | refuse => exact hs
  | done => exact h
  | wait => exact h

@[simp] theorem FrameOut.holds_done : (FrameOut.done s).Holds d ↔ s.held = d := .rfl
@[simp] theorem FrameOut.holds_refuse (st : Status) : (FrameOut.refuse st).Holds d := trivial
@[simp] theorem FrameOut.holds_silent : (FrameOut.silent s).Holds d ↔ s.held = d := .rfl
@[simp] theorem FrameOut.holds_ite {c : Prop} [Decidable c] {a b : FrameOut} :
    (if c then a else b).Holds d ↔ if c then a.Holds d else b.Holds d := by split <;> rfl

@[simp] theorem frameChecks_holds (h : o.Holds d) : ∀ l : List (Bool × Status), (frameChecks l o).Holds d
  | [] => h
  | (true, _) :: _ => trivial
  | (false, _) :: l => frameChecks_holds h l

@[simp] theorem State.held_keep (v : StVal) : (s.keep v).held = s.held := by
  simp [State.keep]

@[simp] theorem settings_holds {chk : SetRec → Option Status} {apply : State → SetRec → State}
    {whole : State → State → Option Status} {kept : State → State} (ha : ∀ s r, (apply s r).held = s.held)
    (hk : ∀ s, (kept s).held = s.held) (recs : List SetRec) :
    (settings chk apply whole kept recs s).Holds s.held := by
  unfold settings
  split
  · trivial
  · dsimp only
    split
    · trivial
    · exact (hk _).trans (State.held_foldl ha recs s)

theorem happen_holds {t : Nat} {guard : State → Bool} {eff : State → State} (h : ∀ s, (eff s).held = s.held) :
    OutHolds s.held (s.happen t guard eff) := by
  refine holds_next ?_
  split
  · exact h _
  · rfl

/-- What Isain's checks leave of a command (R383): the state before, or the one that its own effect leaves. -/
theorem State.held_runCmd_cases (c : CmdForm) (h : CmdHdr) (owner : Nat) (ex right : State → Bool)
    (own : State → Reply) : (s.runCmd c h owner ex right own).held = s.held ∨
      ∃ u, (own s).Leaves u ∧ (s.runCmd c h owner ex right own).held = u.held := by
  unfold State.runCmd
  split
  · exact .inl (by simp)
  · split
    · exact .inl (by simp)
    split
    · exact .inl (by simp)
    split
    · exact .inl (by simp)
    cases own s with
    | refuse st d => exact .inl (by simp)
    | done st b u =>
      dsimp only
      split
      · exact .inl (by simp)
      · exact .inr ⟨u, rfl, by simp⟩
    | wait u =>
      dsimp only
      split
      · exact .inl (by simp)
      · exact .inr ⟨u, rfl, rfl⟩

/-- A command that Isain runs keeps them where its own effect does. -/
theorem State.held_runCmd {c : CmdForm} {h : CmdHdr} {owner : Nat} {ex right : State → Bool} {own : State → Reply}
    (ho : (own s).Holds s.held) : (s.runCmd c h owner ex right own).held = s.held := by
  obtain he | ⟨u, hu, he⟩ := State.held_runCmd_cases c h owner ex right own
  · exact he
  · exact he.trans (ho.leaves hu)

theorem isain_holds {t : Nat} {c : CmdForm} {h : CmdHdr} {ex right : State → Bool} {own : State → Reply}
    (ho : ∀ s, (own s).Holds s.held) : OutHolds s.held (s.isain t c h ex right own) := by
  unfold State.isain
  dsimp only
  split
  · exact holds_next (State.held_runCmd (ho _))
  · exact holds_next rfl

end HeldReplies

end Sys2Proof.Machine

namespace Sys2Proof.Machine

/-! ### Machine/StopOps -/

section HeldStopOps

variable {s : State}

@[simp] theorem State.held_modIfc (i : Nat) (f : Ifc → Ifc) : (s.modIfc i f).held = s.held := by rfl
@[simp] theorem State.held_modPort (p : Nat) (f : Port → Port) : (s.modPort p f).held = s.held := by rfl
@[simp] theorem State.held_modBypass (f : Bypass → Bypass) : (s.modBypass f).held = s.held := by rfl
@[simp] theorem State.held_alert (b : Nat) : (s.alert b).held = s.held := by rfl
@[simp] theorem State.held_tryArm : s.tryArm.held = s.held := by simp [State.tryArm]
@[simp] theorem State.held_bypassLow : s.bypassLow.held = s.held := by simp [State.bypassLow]
@[simp] theorem State.held_lowAlert : s.lowAlert.held = s.held := by simp [State.lowAlert]
@[simp] theorem State.held_portsIdle : s.portsIdle.held = s.held := by rfl
@[simp] theorem State.held_portState (ifc sub : Nat) : (s.portState ifc sub).held = s.held := by
  simp [State.portState]
@[simp] theorem State.held_portRecord (ifc sub : Nat) : (s.portRecord ifc sub).held = s.held := by
  simp [State.portRecord]
@[simp] theorem State.held_modCluster (c : Nat) (f : Cluster → Cluster) : (s.modCluster c f).held = s.held := by rfl
@[simp] theorem State.held_dillStamp (c stamp : Nat) (r : TraceRec) : (s.dillStamp c stamp r).1.held = s.held := by
  simp [State.dillStamp]
@[simp] theorem State.held_dillArrive (c upto : Nat) : (s.dillArrive c upto).1.held = s.held := by
  simp [State.dillArrive]

@[simp] theorem State.held_dillPut (c late : Nat) (r : TraceRec) : (s.dillPut c late r).1.held = s.held := by
  unfold State.dillPut
  split <;> simp

@[simp] theorem State.held_stopIslands (cause : Nat) : (s.stopIslands cause).held = s.held := by
  simp [State.stopIslands]

@[simp] theorem State.held_ownStop (cause : Nat) : (s.ownStop cause).held = s.held := by
  simp only [State.ownStop]
  split <;> simp

@[simp] theorem State.held_trigStop (p : State × Bool) : (State.trigStop p).held = p.1.held := by
  simp [State.trigStop]
@[simp] theorem State.held_trace (c : Nat) (r : TraceRec) : (s.trace c r).held = s.held := by simp [State.trace]
@[simp] theorem State.held_sendMark (c late : Nat) (r : TraceRec) : (s.sendMark c late r).held = s.held := by rfl

@[simp] theorem State.held_takeMarks (c : Nat) : (s.takeMarks c).held = s.held := by
  unfold State.takeMarks
  split <;> simp

@[simp] theorem State.held_tryResume : s.tryResume.held = s.held := by simp [State.tryResume]

end HeldStopOps

/-! ### Machine/CoreOps -/

section HeldCoreOps

variable {s : State}

@[simp] theorem State.held_modCore (p : Nat) (f : Core → Core) : (s.modCore p f).held = s.held := by rfl
@[simp] theorem State.held_modCtx (p k : Nat) (f : Ctx → Ctx) : (s.modCtx p k f).held = s.held := by rfl

@[simp] theorem State.held_spacePut (x : Space) (a : Nat) (bs : List Byte) : (s.spacePut x a bs).held = s.held := by
  unfold State.spacePut
  split <;> simp

@[simp] theorem State.held_spacePoison (x : Space) (w : Nat) : (s.spacePoison x w).held = s.held := by
  unfold State.spacePoison
  split <;> rfl

end HeldCoreOps

/-! ### Machine/SpareOps -/

section HeldSpareOps

variable {s : State}

@[simp] theorem State.held_sramRecord (k : SramKind) (unit row sub : Nat) :
    (s.sramRecord k unit row sub).held = s.held := by
  simp [State.sramRecord]

@[simp] theorem State.held_sparesGone (k : SramKind) (unit row : Nat) : (s.sparesGone k unit row).held = s.held := by
  unfold State.sparesGone
  split <;> simp

@[simp] theorem State.held_tellSpent (k : SramKind) (unit row : Nat) : (s.tellSpent k unit row).held = s.held := by
  simp [State.tellSpent]
@[simp] theorem State.held_bringSpare (k : SramKind) (unit row : Nat) : (s.bringSpare k unit row).held = s.held := by
  simp [State.bringSpare]
@[simp] theorem State.held_markRow (k : SramKind) (unit row : Nat) : (s.markRow k unit row).held = s.held := by rfl
@[simp] theorem State.held_spareFault (core : Nat) : (s.spareFault core).held = s.held := by simp [State.spareFault]

@[simp] theorem State.held_sramCorrected (k : SramKind) (unit row : Nat) :
    (s.sramCorrected k unit row).held = s.held := by
  simp only [State.sramCorrected]
  (repeat' split) <;> simp

@[simp] theorem State.held_sramUncorrectable (k : SramKind) (unit row : Nat) :
    (s.sramUncorrectable k unit row).held = s.held := by
  simp [State.sramUncorrectable]

@[simp] theorem State.held_sramChecked (k : SramKind) (unit row : Nat) (check : WordCheck) :
    (s.sramChecked k unit row check).held = s.held := by
  unfold State.sramChecked
  (repeat' split) <;> simp

@[simp] theorem State.held_setRails : s.setRails.held = s.held := by rfl

end HeldSpareOps

/-! ### Machine/Boot -/

section HeldBoot

variable {s : State}

@[simp] theorem State.held_lose : s.lose.held = s.held := by rfl
@[simp] theorem State.held_coldReset : s.coldReset.held = s.held := by rfl
@[simp] theorem State.held_warmReset : s.warmReset.held = s.held := by rfl
@[simp] theorem State.held_writeDir (f : Directory → Directory) : (s.writeDir f).held = s.held := by rfl

theorem State.held_readDir {b : BootIn} {u : State} (h : s.readDir b = some u) : u.held = s.held := by
  unfold State.readDir at h
  (repeat' split at h) <;> cases h <;> rfl

@[simp] theorem State.held_appendAs (removal conv : Bool) (v : StVal) (fmt len : Nat) :
    (s.appendAs removal conv v fmt len).held = s.held := by
  rfl

@[simp] theorem State.held_appendStore (v : StVal) (fmt len : Nat) : (s.appendStore v fmt len).held = s.held := by rfl
@[simp] theorem State.held_bootLog (msRun result slot : Nat) : (s.bootLog msRun result slot).held = s.held := by rfl
@[simp] theorem State.held_copyStaged (ok : Bool) : (s.copyStaged ok).held = s.held := by simp [State.copyStaged]

@[simp] theorem State.held_chooseSlot : s.chooseSlot.1.held = s.held := by
  simp only [State.chooseSlot]
  (repeat' split) <;> simp

@[simp] theorem State.held_applySetting (v : StVal) : (s.applySetting v).held = s.held := by
  simp only [State.applySetting]
  (repeat' split) <;> simp

@[simp] theorem State.held_takeGroup (mode : Nat) (m : Mem) (e : Nat × Nat) :
    (s.takeGroup mode m e).held = s.held := by
  simp only [State.takeGroup]
  (repeat' split) <;> simp

@[simp] theorem State.held_revertTrial : s.revertTrial.held = s.held := by unfold State.revertTrial; split <;> simp
@[simp] theorem State.held_badRecords : s.badRecords.held = s.held := by simp [State.badRecords]
@[simp] theorem State.held_releasePages (g : Nat) : (s.releasePages g).held = s.held := by rfl
@[simp] theorem State.held_repairRow (g : Nat) (x : Nat × Nat) : (s.repairRow g x).held = s.held := by
  simp [State.repairRow]
@[simp] theorem State.held_repairPages : s.repairPages.held = s.held := by simp [State.repairPages]
@[simp] theorem State.held_buildMap : s.buildMap.held = s.held := by simp [State.buildMap]

@[simp] theorem State.held_romRecovery (result : Nat) (b : BootIn) : (s.romRecovery result b).held = s.held := by
  simp only [State.romRecovery]
  split <;> simp

@[simp] theorem State.held_startFailed : s.startFailed.held = s.held := by simp [State.startFailed]

@[simp] theorem State.held_coreRecord (unit logical : Nat) (old new sub : Nat) :
    (s.coreRecord unit logical old new sub).held = s.held := by
  simp [State.coreRecord]

@[simp] theorem State.held_modMap (i : Nat) (f : MapEntry → MapEntry) : (s.modMap i f).held = s.held := by rfl
@[simp] theorem State.held_spareFailed (i core : Nat) : (s.spareFailed i core).held = s.held := by
  simp [State.spareFailed]

@[simp] theorem State.held_selfTestFailed (core : Nat) : (s.selfTestFailed core).held = s.held := by
  unfold State.selfTestFailed
  split <;> simp

@[simp] theorem State.held_orderReset (after : Nat) : (s.orderReset after).held = s.held := by simp [State.orderReset]
@[simp] theorem State.held_takeGroups (want : Nat → Bool) : (s.takeGroups want).held = s.held := by
  simp [State.takeGroups]
@[simp] theorem State.held_loadSections (types : List Nat) : (s.loadSections types).held = s.held := by rfl
@[simp] theorem State.held_lockIslands (n : Nat) : (s.lockIslands n).held = s.held := by rfl
@[simp] theorem State.held_startIsain : s.startIsain.held = s.held := by rfl
@[simp] theorem State.held_trainMemory (bad : List (Nat × Nat)) : (s.trainMemory bad).held = s.held := by
  simp [State.trainMemory]
@[simp] theorem State.held_leaveLanes (bad : List (Nat × Nat)) : (s.leaveLanes bad).held = s.held := by
  simp [State.leaveLanes]
@[simp] theorem State.held_startDies (b : BootIn) : (s.startDies b).held = s.held := by simp [State.startDies]
@[simp] theorem State.held_startPorts : s.startPorts.held = s.held := by simp [State.startPorts]
@[simp] theorem State.held_startSettings : s.startSettings.held = s.held := by simp [State.startSettings]
@[simp] theorem State.held_startDone : s.startDone.held = s.held := by simp [State.startDone]

@[simp] theorem State.held_startStep (b : BootIn) (n : Nat) : (s.startStep b n).held = s.held := by
  unfold State.startStep
  split <;> simp

@[simp] theorem State.held_loadFailed (k : Nat) : (s.loadFailed k).held = s.held := by simp [State.loadFailed]
@[simp] theorem State.held_startLink (b : BootIn) : (s.startLink b).held = s.held := by rfl

@[simp] theorem State.held_startRun (cold : Bool) (late : Nat) (b : BootIn) (k : Nat) :
    (s.startRun cold late b k).held = s.held := by
  simp [State.startRun]

@[simp] theorem State.held_readStore (b : BootIn) : (s.readStore b).held = s.held := by simp [State.readStore]

@[simp] theorem State.held_startFrom (cold : Bool) (b : BootIn) : (s.startFrom cold b).held = s.held := by
  simp only [State.startFrom]
  (repeat' split) <;> simp

@[simp] theorem State.held_start (b : BootIn) : (s.start b).held = s.held := by
  simp only [State.start]
  (repeat' split) <;> try simp
  next h => simp [State.held_readDir h]

@[simp] theorem State.held_copyLog : s.copyLog.held = s.held := by rfl
@[simp] theorem State.held_deviceReset (b : BootIn) : (s.deviceReset b).held = s.held := by simp [State.deviceReset]

theorem execPwrgdRise_holds (t : Nat) : OutHolds s.held (execPwrgdRise t s) := happen_holds fun _ => by simp

theorem execPwrgdFall_holds (t : Nat) : OutHolds s.held (execPwrgdFall t s) := happen_holds fun _ => by simp

theorem execColdRstNFall_holds (t lowNs : Nat) : OutHolds s.held (execColdRstNFall t lowNs s) :=
  happen_holds fun _ => by simp

theorem execColdRstNRise_holds (t : Nat) (b : BootIn) : OutHolds s.held (execColdRstNRise t b s) :=
  happen_holds fun _ => by simp

theorem execWarmRstNFall_holds (t lowNs : Nat) : OutHolds s.held (execWarmRstNFall t lowNs s) :=
  happen_holds fun _ => by simp

theorem execWarmRstNRise_holds (t : Nat) (b : BootIn) : OutHolds s.held (execWarmRstNRise t b s) :=
  happen_holds fun _ => by simp

theorem execStartWatchdogExpiry_holds (t : Nat) (b : BootIn) : OutHolds s.held (execStartWatchdogExpiry t b s) :=
  happen_holds fun _ => by simp

theorem execDeviceResetApply_holds (t : Nat) (b : BootIn) : OutHolds s.held (execDeviceResetApply t b s) :=
  happen_holds fun _ => by simp

theorem execDevResetRunClear_holds (t : Nat) : OutHolds s.held (execDevResetRunClear t s) :=
  happen_holds fun _ => by simp

end HeldBoot

/-! ### Machine/Power -/

section HeldPower

variable {s : State}

@[simp] theorem State.held_envelopeChanged (old : Nat) : (s.envelopeChanged old).held = s.held := by
  simp [State.envelopeChanged]
@[simp] theorem State.held_floorBreach : s.floorBreach.held = s.held := by simp [State.floorBreach]
@[simp] theorem State.held_mapClusters (f : Cluster → Cluster) : (s.mapClusters f).held = s.held := by rfl
@[simp] theorem State.held_govern : s.govern.held = s.held := by simp [State.govern]

theorem execPowerSample_holds (t watts : Nat) (tjMax : ℤ) : OutHolds s.held (execPowerSample t watts tjMax s) :=
  happen_holds fun _ => by simp

theorem execCeilingUpdate_holds (t : Nat) : OutHolds s.held (execCeilingUpdate t s) := happen_holds fun _ => by simp

theorem execClusterThermalStep_holds (t cluster : Nat) (tempC : Int) :
    OutHolds s.held (execClusterThermalStep t cluster tempC s) := happen_holds fun _ => by simp

theorem execXDieHot_holds (t : Nat) (tempC : ℤ) : OutHolds s.held (execXDieHot t tempC s) :=
  happen_holds fun _ => by simp

theorem execThermtrip_holds (t : Nat) : OutHolds s.held (execThermtrip t s) := happen_holds fun _ => by simp

theorem execVoltageDroop_holds (t cluster : Nat) : OutHolds s.held (execVoltageDroop t cluster s) :=
  happen_holds fun _ => by simp

theorem execSdRefclkLoss_holds (t : Nat) : OutHolds s.held (execSdRefclkLoss t s) := happen_holds fun _ => by simp

theorem execSdRefclkReturn_holds (t : Nat) : OutHolds s.held (execSdRefclkReturn t s) := happen_holds fun _ => by simp

theorem execSysRefclkLoss_holds (t : Nat) : OutHolds s.held (execSysRefclkLoss t s) := happen_holds fun _ => by simp

theorem execTimeBeacon_holds (t island elapsed : Nat) : OutHolds s.held (execTimeBeacon t island elapsed s) :=
  happen_holds fun _ => by simp

theorem execPpsInEdge_holds (t highNs : Nat) : OutHolds s.held (execPpsInEdge t highNs s) :=
  happen_holds fun _ => by simp

theorem execPpsOutPulse_holds (t : Nat) : OutHolds s.held (execPpsOutPulse t s) := happen_holds fun _ => by simp

theorem execFreezeNFall_holds (t : Nat) : OutHolds s.held (execFreezeNFall t s) := happen_holds fun _ => by simp

theorem execFreezeNRise_holds (t : Nat) : OutHolds s.held (execFreezeNRise t s) := happen_holds fun _ => by simp

theorem execJtagInstruction_holds (t : Nat) (boundary : Bool) (scope : Nat) :
    OutHolds s.held (execJtagInstruction t boundary scope s) := happen_holds fun _ => by simp

theorem execSmbPwrCapWrite_holds (t value : Nat) : OutHolds s.held (execSmbPwrCapWrite t value s) :=
  happen_holds fun _ => by simp

theorem execSmbAlertStatusClear_holds (t : Nat) (ones : Byte) : OutHolds s.held (execSmbAlertStatusClear t ones s) :=
  happen_holds fun _ => by simp

theorem execSmbWriteRefused_holds (t offset value : Nat) : OutHolds s.held (execSmbWriteRefused t offset value s) :=
  happen_holds fun _ => by simp

theorem execDeviceReset_holds (t : Nat) (h : CmdHdr) : OutHolds s.held (execDeviceReset t h s) :=
  isain_holds fun _ => by simp

theorem execDeviceResetTest_holds (t : Nat) (h : CmdHdr) : OutHolds s.held (execDeviceResetTest t h s) :=
  isain_holds fun _ => by simp

@[simp] theorem State.held_setFloor (v : Nat) : (s.setFloor v).held = s.held := by simp [State.setFloor]
@[simp] theorem powerApply_held (r : SetRec) : (powerApply s r).held = s.held := by unfold powerApply; split <;> simp

theorem execPowerConfig_holds (t : Nat) (h : CmdHdr) (recs : List SetRec) :
    OutHolds s.held (execPowerConfig t h recs s) := isain_holds fun _ => by simp

theorem execBypassForce_holds (t : Nat) (h : CmdHdr) : OutHolds s.held (execBypassForce t h s) :=
  isain_holds fun _ => by simp

theorem execBypassReleaseForce_holds (t : Nat) (h : CmdHdr) : OutHolds s.held (execBypassReleaseForce t h s) :=
  isain_holds fun _ => by simp

theorem execBypassRearm_holds (t : Nat) (h : CmdHdr) : OutHolds s.held (execBypassRearm t h s) :=
  isain_holds fun _ => by simp

theorem execBypassLinkTimeout_holds (t : Nat) : OutHolds s.held (execBypassLinkTimeout t s) :=
  happen_holds fun _ => by simp

theorem execBypassRetryExpiry_holds (t : Nat) : OutHolds s.held (execBypassRetryExpiry t s) :=
  happen_holds fun _ => by simp

theorem execBypassHoldExpiry_holds (t : Nat) : OutHolds s.held (execBypassHoldExpiry t s) :=
  happen_holds fun _ => by simp

end HeldPower

/-! ### Machine/Ports -/

section HeldPorts

variable {s : State}

@[simp] theorem State.held_setMode (p mode : Nat) : (s.setMode p mode).held = s.held := by simp [State.setMode]
@[simp] theorem portApply_held (r : SetRec) : (portApply s r).held = s.held := by unfold portApply; split <;> simp

theorem execPortConfig_holds (t : Nat) (h : CmdHdr) (recs : List SetRec) :
    OutHolds s.held (execPortConfig t h recs s) := isain_holds fun _ => by simp

theorem execPortDrain_holds (t : Nat) (h : CmdHdr) (port : Nat) : OutHolds s.held (execPortDrain t h port s) :=
  isain_holds fun _ => by (repeat' split) <;> simp

theorem execPortResume_holds (t : Nat) (h : CmdHdr) (port : Nat) : OutHolds s.held (execPortResume t h port s) :=
  isain_holds fun _ => by simp

theorem execPortStatus_holds (t : Nat) (h : CmdHdr) (port : Nat) : OutHolds s.held (execPortStatus t h port s) :=
  isain_holds fun _ => by simp

@[simp] theorem State.held_control (ifc : Nat) (bytes : List Byte) : (s.control ifc bytes).held = s.held := by
  simp [State.control]

theorem execPortTxFrame_holds (t : Nat) (h : CmdHdr) (ifc : Nat) (bytes : List Byte) :
    OutHolds s.held (execPortTxFrame t h ifc bytes s) := isain_holds fun _ => by simp

theorem execMacsecSaInstall_holds (t : Nat) (h : CmdHdr) (sa : SaSpec) :
    OutHolds s.held (execMacsecSaInstall t h sa s) := isain_holds fun _ => by simp

theorem execMacsecSaRemove_holds (t : Nat) (h : CmdHdr) (ifc : Nat) (transmit : Bool) (sc an : Nat) :
    OutHolds s.held (execMacsecSaRemove t h ifc transmit sc an s) := isain_holds fun _ => by simp

theorem execWindowOpen_holds (t : Nat) (h : CmdHdr) (part win rights base pages : Nat) :
    OutHolds s.held (execWindowOpen t h part win rights base pages s) := isain_holds fun _ => by simp

theorem execWindowClose_holds (t : Nat) (h : CmdHdr) (part win : Nat) :
    OutHolds s.held (execWindowClose t h part win s) := isain_holds fun _ => by simp

theorem execBfdSessionSet_holds (t : Nat) (h : CmdHdr) (ifc sess txUs rxUs mult : Nat) (peer : BitVec 128) :
    OutHolds s.held (execBfdSessionSet t h ifc sess txUs rxUs mult peer s) := isain_holds fun _ => by simp

theorem execBfdSessionRemove_holds (t : Nat) (h : CmdHdr) (ifc sess : Nat) :
    OutHolds s.held (execBfdSessionRemove t h ifc sess s) := isain_holds fun _ => by simp

@[simp] theorem State.held_bfdSend (ifc sess : Nat) (b : Bfd) (final : Bool) :
    (s.bfdSend ifc sess b final).held = s.held := by
  simp [State.bfdSend]

theorem execBfdReceive_holds (t : Nat) (p : BfdPkt) : OutHolds s.held (execBfdReceive t p s) :=
  happen_holds fun _ => by (repeat' split) <;> simp

theorem execBfdTxTimer_holds (t ifc sess : Nat) : OutHolds s.held (execBfdTxTimer t ifc sess s) :=
  happen_holds fun _ => by split <;> simp

theorem execBfdDetectTimeout_holds (t ifc sess : Nat) : OutHolds s.held (execBfdDetectTimeout t ifc sess s) :=
  happen_holds fun _ => by simp

theorem execTimeRead_holds (t : Nat) (h : CmdHdr) : OutHolds s.held (execTimeRead t h s) :=
  isain_holds fun _ => by simp

@[simp] theorem ptpApply_held (r : SetRec) : (ptpApply s r).held = s.held := by unfold ptpApply; split <;> rfl

theorem execPtpConfig_holds (t : Nat) (h : CmdHdr) (recs : List SetRec) :
    OutHolds s.held (execPtpConfig t h recs s) := isain_holds fun _ => by simp

@[simp] theorem State.held_gatePend (ifc : Nat) (l : GateList) (wall : Nat) :
    (s.gatePend ifc l wall).held = s.held := by
  simp [State.gatePend]

@[simp] theorem State.held_gateRestart (ifc : Nat) (g : Gates) : (s.gateRestart ifc g).held = s.held := by
  unfold State.gateRestart
  split <;> simp

@[simp] theorem State.held_gatesStep : s.gatesStep.held = s.held :=
  State.held_foldl (fun _ _ => by dsimp only; split <;> simp) _ _
@[simp] theorem State.held_stepWall (offset : ℤ) (cause : Nat) : (s.stepWall offset cause).held = s.held := by
  simp [State.stepWall]

@[simp] theorem State.held_servo (offset : Int) : (s.servo offset).held = s.held := by
  simp only [State.servo]
  (repeat' split) <;> simp

@[simp] theorem State.held_sendDelayReq : s.sendDelayReq.held = s.held := by simp [State.sendDelayReq]
@[simp] theorem State.held_takeSync (origin : Int) (y : SyncHeld) : (s.takeSync origin y).held = s.held := by
  simp [State.takeSync]

@[simp] theorem State.held_takePtp (m : PtpMsg) : (s.takePtp m).held = s.held := by
  unfold State.takePtp
  (repeat' split) <;> simp

theorem execPtpMessageReceive_holds (t : Nat) (m : PtpMsg) : OutHolds s.held (execPtpMessageReceive t m s) :=
  happen_holds fun _ => by simp

theorem execWallTimeHoldover_holds (t : Nat) : OutHolds s.held (execWallTimeHoldover t s) :=
  happen_holds fun _ => by simp

@[simp] theorem State.held_linkLost (i : Nat) : (s.linkLost i).held = s.held := by simp [State.linkLost]

theorem execLinkUp_holds (t ifc : Nat) : OutHolds s.held (execLinkUp t ifc s) := happen_holds fun _ => by simp

theorem execLinkDown_holds (t ifc : Nat) : OutHolds s.held (execLinkDown t ifc s) := happen_holds fun _ => by simp

theorem execLaneFail_holds (t port lane : Nat) : OutHolds s.held (execLaneFail t port lane s) :=
  happen_holds fun _ => by dsimp only; split <;> simp

theorem execFallbackTimeout_holds (t port : Nat) : OutHolds s.held (execFallbackTimeout t port s) :=
  happen_holds fun _ => by simp

end HeldPorts

/-! ### Machine/Ouvlen -/

section HeldOuvlen

variable {s : State}

@[simp] theorem State.held_owe (sid seq : Nat) : (s.owe sid seq).held = s.held := by rfl
@[simp] theorem State.held_refuseFrame (sid seq : Nat) (st : Status) : (s.refuseFrame sid seq st).held = s.held := by
  rfl

@[simp] theorem State.held_settle {f : OuvHdr} {o : FrameOut} (ho : o.Holds s.held) : (s.settle f o).held = s.held := by
  cases o with
  | done u => simpa [State.settle] using ho
  | refuse st => simp [State.settle]
  | silent u => exact ho

theorem State.held_actFrame {f : OuvHdr} {x : Session} {act : Session → State → FrameOut}
    (ha : ∀ x s, (act x s).Holds s.held) : (s.actFrame f x act).held = s.held := by
  simp only [State.actFrame, State.held_closeWorn]
  refine (State.held_settle ?_).trans (State.held_modSession _ _)
  split
  · trivial
  · exact ha _ _

theorem onFrame_holds {t : Nat} {f : OuvHdr} {want : Nat} {act : Session → State → FrameOut}
    (ha : ∀ x s, (act x s).Holds s.held) : OutHolds s.held (s.onFrame t f want act) := by
  unfold State.onFrame
  dsimp only
  split
  · exact holds_next rfl
  · exact holds_next rfl
  · exact holds_next (State.held_actFrame ha)

@[simp] theorem State.held_refuseHello (w : HelloFrom) (key : Option (BitVec 256)) (st : Status) :
    (s.refuseHello w key st).held = s.held := by
  simp [State.refuseHello]

@[simp] theorem State.held_acceptHello (w : HelloFrom) (c : HelloPart) (ss : BitVec 256) :
    (s.acceptHello w c ss).held = s.held := by
  simp [State.acceptHello]

@[simp] theorem State.held_judgeHello (w : HelloFrom) (c : HelloPart) (ct : List Byte) (tagsOk : Bool) :
    (s.judgeHello w c ct tagsOk).held = s.held := by
  simp [State.judgeHello]

@[simp] theorem State.held_takeHello (f : OuvHdr) (p : HelloPart) : (s.takeHello f p).held = s.held := by
  unfold State.takeHello
  split <;> simp

theorem onSetup_holds {t : Nat} {f : OuvHdr} {want : Nat} {act : State → State} (ha : ∀ s, (act s).held = s.held) :
    OutHolds s.held (s.onSetup t f want act) := by
  unfold State.onSetup
  dsimp only
  (repeat' split) <;> exact holds_next (by simp [ha])

theorem execHello_holds (t : Nat) (f : OuvHdr) (p : HelloPart) : OutHolds s.held (execHello t f p s) :=
  onSetup_holds fun _ => by simp

theorem execHelloPartExpiry_holds (t ifc seq : Nat) : OutHolds s.held (execHelloPartExpiry t ifc seq s) :=
  happen_holds fun _ => by simp

theorem execKeyFetch_holds (t : Nat) (f : OuvHdr) : OutHolds s.held (execKeyFetch t f s) :=
  onSetup_holds fun _ => by simp

@[simp] theorem State.held_writeEntries (n : Nat) (start : W32) (entries : List (List W64)) :
    (s.writeEntries n start entries).held = s.held := by
  simp [State.writeEntries]

@[simp] theorem ringWriteAt_holds (n owner : Nat) (start : W32) (entries : List (List W64)) :
    (s.ringWriteAt n owner start entries).Holds s.held :=
  frameChecks_holds (by simp) _

@[simp] theorem produceAt_holds (n owner : Nat) (p : W32) : (s.produceAt n owner p).Holds s.held :=
  frameChecks_holds (by split <;> simp) _
@[simp] theorem releaseAt_holds (n owner : Nat) (p : W32) : (s.releaseAt n owner p).Holds s.held :=
  frameChecks_holds (by split <;> simp) _
@[simp] theorem doorbellAt_holds (n owner : Nat) (p : W32) : (s.doorbellAt n owner p).Holds s.held := by
  simp [State.doorbellAt]

@[simp] theorem ringFrame_holds {f : OuvHdr} {x : Session} {op : CtxOp} {now : State → FrameOut}
    (hn : ∀ s, (now s).Holds s.held) : (s.ringFrame f x op now).Holds s.held := by
  unfold State.ringFrame
  (repeat' split)
  · trivial
  · trivial
  · exact hn _
  · simp

theorem execRingWrite_holds (t : Nat) (f : OuvHdr) (start : W32) (entries : List (List W64)) :
    OutHolds s.held (execRingWrite t f start entries s) := onFrame_holds fun _ _ => by simp

theorem execDoorbellProduce_holds (t : Nat) (f : OuvHdr) (idx : W32) :
    OutHolds s.held (execDoorbellProduce t f idx s) := onFrame_holds fun _ _ => by simp

theorem execDoorbellRelease_holds (t : Nat) (f : OuvHdr) (idx : W32) :
    OutHolds s.held (execDoorbellRelease t f idx s) := onFrame_holds fun _ _ => by simp

@[simp] theorem State.held_resumeOp (n : Nat) (op : CtxOp) : (s.resumeOp n op).held = s.held := by
  simp only [State.resumeOp]
  (repeat' split) <;> simp

theorem execContextFetch_holds (t ring : Nat) (check : WordCheck) :
    OutHolds s.held (execContextFetch t ring check s) := happen_holds fun _ => by simp

@[simp] theorem State.held_pushRange (n sid : Nat) (start : W32) (count : Nat) :
    (s.pushRange n sid start count).held = s.held := by
  simp [State.pushRange]

theorem execRingPush_holds (t ring : Nat) : OutHolds s.held (execRingPush t ring s) := happen_holds fun _ => by simp

@[simp] theorem State.held_deliver (sid : Nat) (x : Session) (h : CmdHdr) (opcode : Nat) :
    (s.deliver sid x h opcode).held = s.held := by
  unfold State.deliver
  split <;> simp

theorem execMboxReq_holds (t : Nat) (f : OuvHdr) (h : CmdHdr) (opcode : Nat) :
    OutHolds s.held (execMboxReq t f h opcode s) := onFrame_holds fun _ _ => by simp

theorem execWinRead_holds (t : Nat) (f : OuvHdr) (offset len : Nat) :
    OutHolds s.held (execWinRead t f offset len s) := onFrame_holds fun _ _ => by dsimp only; split <;> simp

theorem execHostClose_holds (t : Nat) (f : OuvHdr) (_status : Nat) : OutHolds s.held (execHostClose t f _status s) :=
  onFrame_holds fun _ _ => by simp

theorem execSessionIdleTimeout_holds (t sid : Nat) : OutHolds s.held (execSessionIdleTimeout t sid s) :=
  happen_holds fun _ => by simp

@[simp] theorem State.held_sendAck (sid : Nat) : (s.sendAck sid).held = s.held := by
  unfold State.sendAck
  split <;> simp

theorem execAckSend_holds (t sid : Nat) : OutHolds s.held (execAckSend t sid s) := happen_holds fun _ => by simp

theorem execCreditAck_holds (t sid ring : Nat) : OutHolds s.held (execCreditAck t sid ring s) :=
  happen_holds fun _ => by simp

end HeldOuvlen

/-! ### Machine/RingRows -/

section HeldRingRows

variable {s : State}

theorem execRingCreate_holds (t : Nat) (h : CmdHdr) (spec : RingSpec) : OutHolds s.held (execRingCreate t h spec s) :=
  isain_holds fun _ => by simp

theorem execRingConfig_holds (t : Nat) (h : CmdHdr) (m : RingMask) : OutHolds s.held (execRingConfig t h m s) :=
  isain_holds fun _ => by simp

theorem execRingAttach_holds (t : Nat) (h : CmdHdr) (ring sid : Nat) :
    OutHolds s.held (execRingAttach t h ring sid s) := isain_holds fun _ => by simp

theorem execRingDetach_holds (t : Nat) (h : CmdHdr) (ring : Nat) : OutHolds s.held (execRingDetach t h ring s) :=
  isain_holds fun _ => by simp

theorem execRingDestroy_holds (t : Nat) (h : CmdHdr) (ring : Nat) : OutHolds s.held (execRingDestroy t h ring s) :=
  isain_holds fun _ => by simp

theorem execRingQuery_holds (t : Nat) (h : CmdHdr) (ring : Nat) : OutHolds s.held (execRingQuery t h ring s) :=
  isain_holds fun _ => by simp

@[simp] theorem State.held_repush (n sid : Nat) (start : W32) (count : Nat) :
    (s.repush n sid start count).held = s.held := by
  simp [State.repush]

theorem execRingRepush_holds (t : Nat) (h : CmdHdr) (ring : Nat) (start : W32) (count : Nat) :
    OutHolds s.held (execRingRepush t h ring start count s) := isain_holds fun _ => by simp

theorem execSlotQuery_holds (t : Nat) (h : CmdHdr) (slot : Nat) : OutHolds s.held (execSlotQuery t h slot s) :=
  isain_holds fun _ => by simp

theorem execBarrier_holds (t : Nat) (h : CmdHdr) (rings : List Nat) (pairs : List (Nat × Nat)) :
    OutHolds s.held (execBarrier t h rings pairs s) := isain_holds fun _ => by simp

@[simp] theorem State.held_dropBarrier (part idx : Nat) : (s.dropBarrier part idx).held = s.held := by rfl

theorem execBarrierComplete_holds (t part idx : Nat) : OutHolds s.held (execBarrierComplete t part idx s) :=
  happen_holds fun _ => by split <;> simp

theorem onCtx_holds {t n : Nat} {guard : State → Bool} {eff : State → State} (he : ∀ s, (eff s).held = s.held) :
    OutHolds s.held (s.onCtx t n guard eff) :=
  happen_holds fun _ => by simp [he]

@[simp] theorem State.held_refuseEntry (n : Nat) (i : W32) (ws : List W64) (k : Nat) (st : Status) :
    (s.refuseEntry n i ws k st).held = s.held := by
  simp [State.refuseEntry]

@[simp] theorem State.held_faultEntry (n : Nat) (i : W32) (ws : List W64) : (s.faultEntry n i ws).held = s.held := by
  rfl

@[simp] theorem State.held_nextEntry {n kind : Nat} {good : W32 → List W64 → State → State}
    (hg : ∀ i ws s, (good i ws s).held = s.held) : (s.nextEntry n kind good).held = s.held := by
  simp only [State.nextEntry]
  (repeat' split) <;> simp [hg]

theorem execFenceEntry_holds (t ring : Nat) : OutHolds s.held (execFenceEntry t ring s) :=
  onCtx_holds fun _ => by simp

theorem execFenceComplete_holds (t ring : Nat) : OutHolds s.held (execFenceComplete t ring s) :=
  happen_holds fun _ => by dsimp only; (repeat' split) <;> simp

theorem execNopEntry_holds (t ring : Nat) : OutHolds s.held (execNopEntry t ring s) := onCtx_holds fun _ => by simp

@[simp] theorem State.held_takeCmd (n : Nat) (i : W32) (ws : List W64) : (s.takeCmd n i ws).held = s.held := by
  simp [State.takeCmd]

theorem execCommandEntry_holds (t ring : Nat) : OutHolds s.held (execCommandEntry t ring s) :=
  onCtx_holds fun _ => State.held_nextEntry fun _ _ _ => by
    dsimp only
    (repeat' split) <;> simp

theorem execRingFullStallExpiry_holds (t ring : Nat) : OutHolds s.held (execRingFullStallExpiry t ring s) :=
  happen_holds fun _ => by split <;> simp

end HeldRingRows

/-! ### Machine/Frames -/

section HeldFrames

variable {s : State}

@[simp] theorem State.held_modFrame (id : Nat) (f : Frame → Frame) : (s.modFrame id f).held = s.held := by rfl
@[simp] theorem State.held_pfcCheck (ifc prio : Nat) : (s.pfcCheck ifc prio).held = s.held := by simp [State.pfcCheck]
@[simp] theorem State.held_noteHeld (ifc : Nat) : (s.noteHeld ifc).held = s.held := by simp [State.noteHeld]

@[simp] theorem State.held_freeFrame (id : Nat) : (s.freeFrame id).held = s.held := by
  unfold State.freeFrame
  split <;> simp

theorem execArpNdEcho_holds (t ifc : Nat) (request : List Byte) : OutHolds s.held (execArpNdEcho t ifc request s) :=
  happen_holds fun _ => by split <;> simp

@[simp] theorem State.held_copyFrame (ring : Nat) (f : Frame) (reason : Nat) (v : Option Verdict) :
    (s.copyFrame ring f reason v).held = s.held := by
  simp [State.copyFrame]

@[simp] theorem State.held_pfcApply (ifc : Nat) (quanta : List (Nat × Nat)) :
    (s.pfcApply ifc quanta).held = s.held := by
  simp [State.pfcApply]

@[simp] theorem State.held_admitFrame (ifc : Nat) (bs : List Byte) : (s.admitFrame ifc bs).held = s.held := by
  simp only [State.admitFrame, State.held_ite, State.held_count, State.held_pfcCheck, State.held_updParser, ite_self]

theorem State.held_macsecPass {ifc : Nat} {bs : List Byte} {sec : MacsecIn} {u : State}
    (h : s.macsecPass ifc bs sec = some u) : u.held = s.held := by
  unfold State.macsecPass at h
  dsimp only at h
  split at h
  · cases h
  · obtain ⟨_, -, rfl⟩ := Option.map_eq_some_iff.mp h
    simp
  · (repeat' split at h) <;> cases h <;> simp

@[simp] theorem State.held_takeFrame (ifc : Nat) (bs : List Byte) : (s.takeFrame ifc bs).held = s.held := by
  unfold State.takeFrame
  (repeat' split) <;> simp

theorem execFrameReceive_holds (t ifc : Nat) (bytes : List Byte) (fcsOk : Bool) (sec : MacsecIn) :
    OutHolds s.held (execFrameReceive t ifc bytes fcsOk sec s) :=
  happen_holds fun _ => by
    (repeat' split) <;> try simp
    next h => simp [State.held_macsecPass h]

theorem execPfcReceive_holds (t ifc : Nat) (quanta : List (Nat × Nat)) :
    OutHolds s.held (execPfcReceive t ifc quanta s) := happen_holds fun _ => by simp

theorem execPfcPauseExpiry_holds (t ifc prio : Nat) : OutHolds s.held (execPfcPauseExpiry t ifc prio s) :=
  happen_holds fun _ => by simp

@[simp] theorem State.held_packetFault (sub index : Nat) : (s.packetFault sub index).held = s.held := by
  simp [State.packetFault]

@[simp] theorem State.held_parseFrame (id group : Nat) (f : Frame) (fault : Option Nat) :
    (s.parseFrame id group f fault).held = s.held := by
  simp [State.parseFrame]

theorem execChiveParse_holds (t frame group : Nat) (fault : Option Nat) :
    OutHolds s.held (execChiveParse t frame group fault s) := happen_holds fun _ => by split <;> simp

theorem execChiveGroupRewrite_holds (t group : Nat) : OutHolds s.held (execChiveGroupRewrite t group s) :=
  happen_holds fun _ => by simp

theorem execParseLoad_holds (t : Nat) (h : CmdHdr) (pslot addr len : Nat) (prog : ChiveProg) :
    OutHolds s.held (execParseLoad t h pslot addr len prog s) := isain_holds fun _ => checks_holds (by simp) _

theorem execParseCommit_holds (t : Nat) (h : CmdHdr) (slots : List Nat) :
    OutHolds s.held (execParseCommit t h slots s) := isain_holds fun _ => by simp

@[simp] theorem parseApply_held (r : SetRec) : (parseApply s r).held = s.held := by unfold parseApply; split <;> rfl

theorem execParseConfig_holds (t : Nat) (h : CmdHdr) (recs : List SetRec) :
    OutHolds s.held (execParseConfig t h recs s) := isain_holds fun _ => by simp

theorem execSpreadConfig_holds (t : Nat) (h : CmdHdr) (spec : SpreadSpec) :
    OutHolds s.held (execSpreadConfig t h spec s) := isain_holds fun _ => by split <;> simp

@[simp] theorem State.held_spreadElse (ctx hash : Nat) : (s.spreadElse ctx hash).2.held = s.held := by
  simp only [State.spreadElse]
  split <;> simp

@[simp] theorem State.held_spread (ctx hash : Nat) (forFrame : Bool) :
    (s.spread ctx hash forFrame).2.held = s.held := by
  simp only [State.spread]
  (repeat' split) <;> simp

end HeldFrames

end Sys2Proof.Machine

namespace Sys2Proof.Machine

/-! ### Machine/FlowOps -/

section HeldFlowOps

variable {s : State}

@[simp] theorem State.held_modDomain (d : Nat) (f : Domain → Domain) : (s.modDomain d f).held = s.held := by rfl
@[simp] theorem State.held_modPipe (p : Nat) (f : Pipeline → Pipeline) : (s.modPipe p f).held = s.held := by rfl
@[simp] theorem State.held_ixPut (a v : Nat) : (s.ixPut a v).held = s.held := by simp [State.ixPut]
@[simp] theorem State.held_recPut (p i v : Nat) : (s.recPut p i v).held = s.held := by simp [State.recPut]
@[simp] theorem State.held_touchHalf (p i : Nat) : (s.touchHalf p i).held = s.held := by simp [State.touchHalf]

@[simp] theorem State.held_flowTouch (p : Nat) (k : FlowKey) : (s.flowTouch p k).held = s.held := by
  unfold State.flowTouch
  (repeat' split) <;> simp

@[simp] theorem State.held_halfFault (p i : Nat) : (s.halfFault p i).held = s.held := by simp [State.halfFault]
@[simp] theorem State.held_packetLanding (f : Frame) : (s.packetLanding f).2.held = s.held := by
  simp [State.packetLanding]

@[simp] theorem State.held_rsIssue (p i iat : Nat) (f : Frame) : (s.rsIssue p i iat f).held = s.held := by
  simp only [State.rsIssue]
  (repeat' split) <;> simp

@[simp] theorem State.held_rsNext (p i : Nat) : (s.rsNext p i).held = s.held := by unfold State.rsNext; split <;> simp

@[simp] theorem State.held_rsWrite (p i : Nat) (u : RsUpdate) : (s.rsWrite p i u).held = s.held := by
  unfold State.rsWrite
  split <;> simp

theorem execRsUpdateDone_holds (t pipe recIdx : Nat) (jobFault : Bool) :
    OutHolds s.held (execRsUpdateDone t pipe recIdx jobFault s) := happen_holds fun _ => by split <;> simp

theorem execRsUpdateTimeout_holds (t pipe recIdx : Nat) : OutHolds s.held (execRsUpdateTimeout t pipe recIdx s) :=
  happen_holds fun _ => by simp

@[simp] theorem State.held_startBaseline (bl owner : Nat) (x : Baseline) :
    (s.startBaseline bl owner x).held = s.held := by
  rfl

theorem execBaselineCreate_holds (t : Nat) (h : CmdHdr) (bl : Nat) (spec : BaselineSpec) :
    OutHolds s.held (execBaselineCreate t h bl spec s) := isain_holds fun _ => by simp

@[simp] theorem State.held_tellBaseline (bl owner old : Nat) (b : BaseState) :
    (s.tellBaseline bl owner old b).held = s.held := by
  simp [State.tellBaseline]

@[simp] theorem State.held_changeBaseline (bl : Nat) (x : Baseline) : (s.changeBaseline bl x).held = s.held := by
  simp [State.changeBaseline]

theorem execBaselineChange_holds (t : Nat) (h : CmdHdr) (bl : Nat) (spec : BaselineSpec) :
    OutHolds s.held (execBaselineChange t h bl spec s) := isain_holds fun _ => by simp

theorem execBaselineDelete_holds (t : Nat) (h : CmdHdr) (bl : Nat) : OutHolds s.held (execBaselineDelete t h bl s) :=
  isain_holds fun _ => by simp

theorem execBaselineRead_holds (t : Nat) (h : CmdHdr) (bl : Nat) : OutHolds s.held (execBaselineRead t h bl s) :=
  isain_holds fun _ => by simp

theorem execBaselineWindowClose_holds (t bl : Nat) : OutHolds s.held (execBaselineWindowClose t bl s) :=
  happen_holds fun _ => by split <;> simp

end HeldFlowOps

/-! ### Machine/ModelOps -/

section HeldModelOps

variable {s : State}

@[simp] theorem State.held_countVerdict (d : Nat) (v : Verdict) : (s.countVerdict d v).held = s.held := by
  simp [State.countVerdict]

end HeldModelOps

/-! ### Machine/ModelRows -/

section HeldModelRows

variable {s : State}

theorem execModelStage_holds (t : Nat) (h : CmdHdr) (domain handle cAddr cLen : Nat) (bindings : List (List Nat)) :
    OutHolds s.held (execModelStage t h domain handle cAddr cLen bindings s) :=
  isain_holds fun _ => checks_holds (by simp) _

theorem execModelRemove_holds (t : Nat) (h : CmdHdr) (domain handle : Nat) :
    OutHolds s.held (execModelRemove t h domain handle s) := isain_holds fun _ => by simp

theorem execModelAbort_holds (t : Nat) (h : CmdHdr) (domain : Nat) : OutHolds s.held (execModelAbort t h domain s) :=
  isain_holds fun _ => by simp

@[simp] theorem State.held_commitGens (l : List (Nat × Nat)) : (s.commitGens l).held = s.held := by rfl

@[simp] theorem State.held_cellWarn (staged : List Model) (epoch : Nat) :
    (s.cellWarn staged epoch).held = s.held := by
  simp [State.cellWarn]

@[simp] theorem State.held_flip (d : Nat) : (s.flip d).held = s.held := by simp [State.flip]

theorem execModelCommit_holds (t : Nat) (h : CmdHdr) (domain : Nat) :
    OutHolds s.held (execModelCommit t h domain s) := isain_holds fun _ => by simp

theorem execModelCommitWait_holds (t : Nat) (h : CmdHdr) (domain : Nat) :
    OutHolds s.held (execModelCommitWait t h domain s) := isain_holds fun _ => by simp

theorem execModelCommitFlip_holds (t domain : Nat) : OutHolds s.held (execModelCommitFlip t domain s) :=
  happen_holds fun _ => by split <;> simp

theorem execModelQuery_holds (t : Nat) (h : CmdHdr) (domain start max : Nat) :
    OutHolds s.held (execModelQuery t h domain start max s) := isain_holds fun _ => by simp

theorem execEpochRetire_holds (t domain : Nat) : OutHolds s.held (execEpochRetire t domain s) :=
  happen_holds fun _ => by split <;> simp

theorem execPatternLoad_holds (t : Nat) (h : CmdHdr) (setId addr len : Nat) (fromL2 : Bool) (pats : List Pattern) :
    OutHolds s.held (execPatternLoad t h setId addr len fromL2 pats s) :=
  isain_holds fun _ => checks_holds (by simp) _

theorem execPatternScanStart_holds (t engine : Nat) : OutHolds s.held (execPatternScanStart t engine s) :=
  happen_holds fun _ => by split <;> simp

theorem execPatternScanEnd_holds (t engine : Nat) (fault : Bool) :
    OutHolds s.held (execPatternScanEnd t engine fault s) :=
  happen_holds fun _ => by dsimp only; (repeat' split) <;> simp

end HeldModelRows

/-! ### Machine/Features -/

section HeldFeatures

variable {s : State}

@[simp] theorem State.held_touchMap (x : FTable) (g : Generation) (key : W64) :
    (s.touchMap x g key).held = s.held := by
  simp [State.touchMap]

@[simp] theorem State.held_looked (table : Nat) (l : Look) : (s.looked table l).held = s.held := by
  simp [State.looked]
@[simp] theorem State.held_wakeWalks (k gen : Nat) : (s.wakeWalks k gen).held = s.held := by rfl
@[simp] theorem State.held_settleFetch (f : Fetch) (r : FetchEnd) : (s.settleFetch f r).held = s.held := by
  simp [State.settleFetch]

@[simp] theorem State.held_endOne (f : Fetch) (r : FetchEnd) : (s.endOne f r).held = s.held := by
  unfold State.endOne
  (repeat' split) <;> simp

@[simp] theorem State.held_modFetch (tag : Nat) (g : Fetch → Fetch) : (s.modFetch tag g).held = s.held := by rfl
@[simp] theorem State.held_dropFetch (tag : Nat) : (s.dropFetch tag).held = s.held := by rfl
@[simp] theorem State.held_placeFetch (tag : Nat) (f : Fetch) : (s.placeFetch tag f).held = s.held := by
  simp [State.placeFetch]

@[simp] theorem State.held_fallAlone (tag : Nat) (f : Fetch) : (s.fallAlone tag f).held = s.held := by
  simp only [State.fallAlone]
  split <;> simp

@[simp] theorem State.held_endJoined (remote : Bool) (r : FetchEnd) (tag : Nat) (f : Fetch) :
    (s.endJoined remote r tag f).held = s.held := by
  simp [State.endJoined]

@[simp] theorem State.held_endFetch (tag : Nat) (r : FetchEnd) : (s.endFetch tag r).held = s.held := by
  unfold State.endFetch
  split <;> simp

@[simp] theorem State.held_noteLate (tag : Nat) (f : Fetch) : (s.noteLate tag f).held = s.held := by
  simp [State.noteLate]

@[simp] theorem State.held_endAlone (tag : Nat) (r : FetchEnd) : (s.endAlone tag r).held = s.held := by
  unfold State.endAlone
  (repeat' split) <;> simp

@[simp] theorem State.held_closeFetches (k gen : Nat) : (s.closeFetches k gen).held = s.held := by
  simp [State.closeFetches]

theorem State.held_takeRate {part : Nat} {u : State} (h : s.takeRate part = some u) : u.held = s.held := by
  simp only [State.takeRate] at h
  split at h
  · cases h
  · cases h
    simp

@[simp] theorem State.held_failOne (ctr : Option Nat) (e : Nat × Fetch) (done : List ((Nat × Nat) × Nat)) :
    (s.failOne ctr e done).1.held = s.held := by
  simp only [State.failOne]
  (repeat' split) <;> simp

@[simp] theorem State.held_failEach (ctr : Option Nat) : ∀ (l : List (Nat × Fetch)) (done : List ((Nat × Nat) × Nat))
    (s : State), (State.failEach ctr l done s).held = s.held
  | [], _, _ => rfl
  | _ :: rest, _, _ => (State.held_failEach ctr rest _ _).trans (State.held_failOne _ _ _)

@[simp] theorem State.held_failBare (tag : Nat) (ctr : Option Nat) : (s.failBare tag ctr).held = s.held := by
  unfold State.failBare
  split <;> simp

@[simp] theorem State.held_failRemote (tag ctr : Nat) : (s.failRemote tag ctr).held = s.held := by
  simp [State.failRemote]

@[simp] theorem State.held_launchFetch (tag : Nat) : (s.launchFetch tag).held = s.held := by
  simp only [State.launchFetch]
  (repeat' split) <;> try simp
  next h => simp [State.held_takeRate h]

@[simp] theorem State.held_putFetch (f : Fetch) : (s.putFetch f).held = s.held := by rfl

@[simp] theorem State.held_issueFetch (f : Fetch) : (s.issueFetch f).held = s.held := by
  unfold State.issueFetch
  split <;> simp

@[simp] theorem State.held_unpark (c : Nat) : ∀ (fuel : Nat) (s : State), (State.unpark c fuel s).held = s.held
  | 0, _ => rfl
  | fuel + 1, s => by
    rw [State.unpark]
    split
    · simp [State.held_unpark c fuel]
    · rfl

@[simp] theorem State.held_unparkAll : s.unparkAll.held = s.held := by simp [State.unparkAll]

@[simp] theorem State.held_fetchLook (tag : Nat) (x : FTable) (l : Look) : (s.fetchLook tag x l).held = s.held := by
  unfold State.fetchLook
  (repeat' split) <;> simp

@[simp] theorem State.held_lateLook (tag cluster : Nat) : (s.lateLook tag cluster).held = s.held := by rfl

theorem execLocalLookupDone_holds (t fetch : Nat) (check : WordCheck) :
    OutHolds s.held (execLocalLookupDone t fetch check s) := happen_holds fun _ => by (repeat' split) <;> simp

theorem execFetchEndTick_holds (t fetch : Nat) : OutHolds s.held (execFetchEndTick t fetch s) :=
  happen_holds fun _ => by split <;> simp

theorem execFtableCreate_holds (t : Nat) (h : CmdHdr) (table : Nat) (spec : TableSpec) :
    OutHolds s.held (execFtableCreate t h table spec s) := isain_holds fun _ => by simp

theorem execFtableDestroy_holds (t : Nat) (h : CmdHdr) (table : Nat) :
    OutHolds s.held (execFtableDestroy t h table s) := isain_holds fun _ => by simp

theorem execFtableQuery_holds (t : Nat) (h : CmdHdr) (table : Nat) : OutHolds s.held (execFtableQuery t h table s) :=
  isain_holds fun _ => by simp

@[simp] theorem State.held_modTable (k : Nat) (f : FTable → FTable) : (s.modTable k f).held = s.held := by rfl
@[simp] theorem State.held_zeroRange (a n : Nat) : (s.zeroRange a n).held = s.held := by rfl

theorem execGenerationStage_holds (t : Nat) (h : CmdHdr) (table g : Nat) (log2Buckets base n : Nat) :
    OutHolds s.held (execGenerationStage t h table g log2Buckets base n s) := isain_holds fun _ => by split <;> simp

theorem execGenerationSeal_holds (t : Nat) (h : CmdHdr) (table g : Nat) :
    OutHolds s.held (execGenerationSeal t h table g s) := isain_holds fun _ => by split <;> simp

theorem execGenerationCommit_holds (t : Nat) (h : CmdHdr) (pairs : List (Nat × Nat)) :
    OutHolds s.held (execGenerationCommit t h pairs s) := isain_holds fun _ => by simp

@[simp] theorem State.held_bindGen (p : Nat × Nat) : (s.bindGen p).held = s.held := by rfl

theorem execGenerationCommitBind_holds (t : Nat) (h : CmdHdr) (pairs : List (Nat × Nat)) :
    OutHolds s.held (execGenerationCommitBind t h pairs s) := isain_holds fun _ => by simp

theorem execGenerationDrop_holds (t : Nat) (h : CmdHdr) (table g : Nat) :
    OutHolds s.held (execGenerationDrop t h table g s) := isain_holds fun _ => by split <;> simp

theorem execGenerationDropDone_holds (t table g : Nat) : OutHolds s.held (execGenerationDropDone t table g s) :=
  happen_holds fun _ => by simp

theorem execGenerationRetire_holds (t table g : Nat) : OutHolds s.held (execGenerationRetire t table g s) :=
  happen_holds fun _ => by split <;> simp

end HeldFeatures

/-! ### Machine/SlotOps -/

section HeldSlotOps

variable {s : State}

@[simp] theorem State.held_pickSlot : s.pickSlot.2.held = s.held := by rfl
@[simp] theorem State.held_frameVerdict (id : Nat) (v : Verdict) : (s.frameVerdict id v).held = s.held := by rfl

@[simp] theorem State.held_postVerdict (k : Nat) (v : Verdict) : (s.postVerdict k v).held = s.held := by
  simp only [State.postVerdict]
  split <;> simp

@[simp] theorem State.held_postDefault (k reason : Nat) : (s.postDefault k reason).held = s.held := by
  unfold State.postDefault
  split <;> simp

@[simp] theorem State.held_dropShares (k gen : Nat) : (s.dropShares k gen).held = s.held := by rfl

@[simp] theorem State.held_postScores (k : Nat) (m : Model) (corr : List (W32 × W32)) (rung stages : Nat) (sums :
    List W32) :
    (s.postScores k m corr rung stages sums).held = s.held := by
  simp only [State.postScores]
  split <;> simp

@[simp] theorem State.held_compose (k : Nat) (m : Model) : (s.compose k m).held = s.held := by simp [State.compose]

@[simp] theorem State.held_slotResult (k gen stage : Nat) (g : Group) :
    (s.slotResult k gen stage g).held = s.held := by
  simp only [State.slotResult]
  (repeat' split) <;> simp

@[simp] theorem State.held_storeResult (c addr : Nat) (g : Group) : (s.storeResult c addr g).held = s.held := by rfl

@[simp] theorem State.held_deliverGroup : ∀ (fuel c : Nat) (g : Group) (s : State),
    (State.deliverGroup fuel c g s).held = s.held
  | 0, _, _, _ => rfl
  | fuel + 1, c, g, s => by
    simp only [State.deliverGroup]
    (repeat' split) <;> simp [State.held_deliverGroup fuel]

@[simp] theorem State.held_contribute (c : Nat) (ref : GroupRef) (data : Option (List W32)) :
    (s.contribute c ref data).held = s.held := by
  simp only [State.contribute]
  (repeat' split) <;> simp

@[simp] theorem State.held_closeGroup (c i : Nat) : (s.closeGroup c i).held = s.held := by
  unfold State.closeGroup
  split <;> simp

@[simp] theorem State.held_modShare (p k gen : Nat) (f : Share → Share) : (s.modShare p k gen f).held = s.held := by
  rfl
@[simp] theorem State.held_dropShare (p k gen : Nat) : (s.dropShare p k gen).held = s.held := by rfl

@[simp] theorem State.held_voidStages (c k gen : Nat) (stages : List Nat) :
    (s.voidStages c k gen stages).held = s.held := by
  simp [State.voidStages]

@[simp] theorem State.held_jobFault (core ctx : Nat) (part status : Nat) (d : LaunchDesc) :
    (s.jobFault core ctx part status d).held = s.held := by
  simp [State.jobFault]

@[simp] theorem State.held_stageLost (k gen stage : Nat) : (s.stageLost k gen stage).held = s.held := by
  simp [State.stageLost]

@[simp] theorem State.held_stopShare (p : Nat) (x : Share) (m : Model) (status : Nat) :
    (s.stopShare p x m status).held = s.held := by
  simp [State.stopShare]

@[simp] theorem State.held_beginStage (p k gen : Nat) (m : Model) : ∀ (fuel : Nat) (s : State),
    (State.beginStage p k gen m fuel s).held = s.held
  | 0, _ => by simp [State.beginStage]
  | fuel + 1, s => by
    simp only [State.beginStage]
    (repeat' split) <;> simp [State.held_beginStage p k gen m fuel]

@[simp] theorem State.held_issueWalk (p i : Nat) (x : Share) (m : Model) : (s.issueWalk p i x m).held = s.held := by
  unfold State.issueWalk
  split <;> rfl

@[simp] theorem State.held_issueWalks (p : Nat) : ∀ (fuel : Nat) (s : State), (State.issueWalks p fuel s).held = s.held
  | 0, _ => rfl
  | fuel + 1, s => by
    simp only [State.issueWalks]
    (repeat' split) <;> simp [State.held_issueWalks p fuel]

@[simp] theorem State.held_startShares (p : Nat) : (s.startShares p).held = s.held :=
  State.held_foldl (fun _ _ => by split <;> simp) _ _

@[simp] theorem State.held_settleCores : ∀ (fuel : Nat) (s : State), (State.settleCores fuel s).held = s.held
  | 0, _ => rfl
  | fuel + 1, s => by
    simp only [State.settleCores]
    split <;> simp [State.held_settleCores fuel]

@[simp] theorem State.held_settle2 : s.settle2.held = s.held := by simp [State.settle2]
@[simp] theorem State.held_endStage (p : Nat) (x : Share) (m : Model) : (s.endStage p x m).held = s.held := by
  simp [State.endStage]

end HeldSlotOps

/-! ### Machine/Requests -/

section HeldRequests

variable {s : State}

@[simp] theorem State.held_clampDeadline (k d : Nat) (m : Model) : (s.clampDeadline k d m).held = s.held := by
  simp [State.clampDeadline]

@[simp] theorem State.held_placeSlot (k : Nat) (lead : Option Nat) (m : Model) :
    (s.placeSlot k lead m).held = s.held := by
  simp only [State.placeSlot]
  (repeat' split) <;> simp

@[simp] theorem State.held_admitReq (ring : Nat) (i : W32) (q0 : Req) (m : Model) :
    (s.admitReq ring i q0 m).held = s.held := by
  simp [State.admitReq]

@[simp] theorem State.held_waitSlot (ring : Nat) (i : W32) : (s.waitSlot ring i).held = s.held := by
  simp [State.waitSlot]

theorem execRequestAdmit_holds (t ring : Nat) : OutHolds s.held (execRequestAdmit t ring s) :=
  onCtx_holds fun _ => State.held_nextEntry fun _ _ _ => by
    dsimp only
    (repeat' split) <;> simp

theorem execSlotWaitExpiry_holds (t ring : Nat) : OutHolds s.held (execSlotWaitExpiry t ring s) :=
  onCtx_holds fun _ => State.held_nextEntry fun _ _ _ => by
    dsimp only
    (repeat' split) <;> simp

@[simp] theorem State.held_noVerdict (id : Nat) : (s.noVerdict id).held = s.held := by rfl
@[simp] theorem State.held_ruleDecides (id : Nat) : (s.ruleDecides id).held = s.held := by rfl

@[simp] theorem State.held_slotless (id part reason : Nat) (m : Model) :
    (s.slotless id part reason m).held = s.held := by
  simp [State.slotless]

@[simp] theorem State.held_toScan (id k : Nat) (f : Frame) (a : RuleAction) : (s.toScan id k f a).held = s.held := by
  simp [State.toScan]

@[simp] theorem State.held_admitFrameDeep (id : Nat) (f : Frame) (a : RuleAction) (m : Model) :
    (s.admitFrameDeep id f a m).held = s.held := by
  simp only [State.admitFrameDeep]
  split <;> simp

@[simp] theorem State.held_deepAdmit (id : Nat) : (s.deepAdmit id).held = s.held := by
  unfold State.deepAdmit
  (repeat' split) <;> simp

@[simp] theorem State.held_afterPacketModel (id : Nat) : (s.afterPacketModel id).held = s.held := by
  unfold State.afterPacketModel
  split <;> simp

@[simp] theorem State.held_touchBlob (x : Slot) (off n : Nat) : (s.touchBlob x off n).held = s.held := by
  simp [State.touchBlob]

@[simp] theorem State.held_fetchOne (k : Nat) (m : Model) (r : InputRec) (item : Option Nat) :
    (s.fetchOne k m r item).held = s.held := by
  simp only [State.fetchOne]
  (repeat' split) <;> simp

@[simp] theorem State.held_queueAll (k : Nat) (m : Model) : (s.queueAll k m).held = s.held := by simp [State.queueAll]
@[simp] theorem State.held_fetchAll (k : Nat) (m : Model) : (s.fetchAll k m).held = s.held := by simp [State.fetchAll]

@[simp] theorem State.held_settleFeats (k : Nat) (feats : List Nat) (val : Nat → Nat → Option W32) :
    (s.settleFeats k feats val).held = s.held := by
  rfl

@[simp] theorem State.held_pushLaunch (p : Nat) (l : Launch) : (s.pushLaunch p l).held = s.held := by rfl

@[simp] theorem State.held_launchStep (k : Nat) (m : Model) : (s.launchStep k m).held = s.held := by
  simp only [State.launchStep]
  split <;> simp

@[simp] theorem State.held_freeFeats (n nFeat : Nat) : (s.freeFeats n nFeat).2.held = s.held := by rfl

@[simp] theorem State.held_scoreSums (x : Slot) (m : Model) : (s.scoreSums x m).2.held = s.held := by
  unfold State.scoreSums
  split <;> rfl

@[simp] theorem State.held_stepDone (k : Nat) (m : Model) : (s.stepDone k m).held = s.held := by
  simp only [State.stepDone]
  split <;> simp

@[simp] theorem State.held_stepCoreEnd (k gen token : Nat) (ok : Bool) :
    (s.stepCoreEnd k gen token ok).held = s.held := by
  simp only [State.stepCoreEnd]
  (repeat' split) <;> simp

@[simp] theorem State.held_startEncoder (k : Nat) (m : Model) (idx : Nat) :
    (s.startEncoder k m idx).held = s.held := by
  simp only [State.startEncoder]
  (repeat' split) <;> simp

@[simp] theorem State.held_encoderEnd (k gen token idx : Nat) (r : EncEnd) :
    (s.encoderEnd k gen token idx r).held = s.held := by
  simp only [State.encoderEnd]
  (repeat' split) <;> simp

@[simp] theorem State.held_openGroups (k : Nat) (m : Model) : (s.openGroups k m).held = s.held := by
  simp [State.openGroups]

@[simp] theorem State.held_placeShare (k : Nat) (m : Model) (b : Binding) (pc core : Nat) :
    (s.placeShare k m b pc core).held = s.held := by
  unfold State.placeShare
  split <;> simp

@[simp] theorem State.held_placeShares (k : Nat) (m : Model) : (s.placeShares k m).held = s.held := by
  unfold State.placeShares
  split <;> simp

@[simp] theorem State.held_rebind (k : Nat) (m : Model) : (s.rebind k m).held = s.held := by
  simp only [State.rebind]
  split <;> simp

@[simp] theorem State.held_startOn (k : Nat) (m : Model) : (s.startOn k m).held = s.held := by simp [State.startOn]
@[simp] theorem State.held_startRequest (k : Nat) (m : Model) : (s.startRequest k m).held = s.held := by
  simp [State.startRequest]

theorem execSlotRunning_holds (t slot : Nat) : OutHolds s.held (execSlotRunning t slot s) :=
  happen_holds fun _ => by split <;> simp

theorem execReverseLookupDone_holds (t slot : Nat) : OutHolds s.held (execReverseLookupDone t slot s) :=
  happen_holds fun _ => by dsimp only; (repeat' split) <;> simp

@[simp] theorem State.held_dropWalk (p i : Nat) : (s.dropWalk p i).held = s.held := by rfl

@[simp] theorem State.held_leafReached (p i : Nat) (w : Walk) (m : Model) (n : BitVec 128) :
    (s.leafReached p i w m n).held = s.held := by
  simp only [State.leafReached]
  split <;> simp

@[simp] theorem State.held_markShard (p domain model epoch : Nat) :
    (s.markShard p domain model epoch).held = s.held := by
  simp [State.markShard]

@[simp] theorem State.held_walkDenied (p : Nat) (w : Walk) (m : Model) : (s.walkDenied p w m).held = s.held := by
  unfold State.walkDenied
  split <;> simp

@[simp] theorem State.held_nodeFault (p : Nat) (w : Walk) (m : Model) : (s.nodeFault p w m).held = s.held := by
  unfold State.nodeFault
  split <;> simp

@[simp] theorem State.held_featFault (p : Nat) (w : Walk) (m : Model) : (s.featFault p w m).held = s.held := by rfl
@[simp] theorem State.held_countRun (p visits bad : Nat) : (s.countRun p visits bad).held = s.held := by
  simp [State.countRun]

@[simp] theorem State.held_copyWord (p : Nat) (inStore : Bool) (check : WordCheck) :
    (s.copyWord p inStore check).held = s.held := by
  unfold State.copyWord
  split <;> simp

@[simp] theorem State.held_nodeWord (p : Nat) (w : Walk) (m : Model) (check : WordCheck) :
    (s.nodeWord p w m check).held = s.held := by
  simp [State.nodeWord]

@[simp] theorem State.held_runWalk (p i : Nat) (w : Walk) (m : Model) : (s.runWalk p i w m).held = s.held := by
  simp only [State.runWalk]
  (repeat' split) <;> simp

@[simp] theorem State.held_walkFault (p i : Nat) (w : Walk) (m : Model) : (s.walkFault p i w m).held = s.held := by
  simp only [State.walkFault]
  (repeat' split) <;> simp

@[simp] theorem State.held_badWalk (p i : Nat) (w : Walk) (m : Model) (check : WordCheck) :
    (s.badWalk p i w m check).held = s.held := by
  simp [State.badWalk]

theorem execWalkComplete_holds (t core walk : Nat) (check : WordCheck) :
    OutHolds s.held (execWalkComplete t core walk check s) := happen_holds fun _ => by (repeat' split) <;> simp

@[simp] theorem State.held_recopy (core : Nat) (e : Nat × Nat × Nat) (check : WordCheck) :
    (s.recopy core e check).held = s.held := by
  unfold State.recopy
  split <;> simp

theorem execShardRecopyDone_holds (t core domain handle : Nat) (check : WordCheck) :
    OutHolds s.held (execShardRecopyDone t core domain handle check s) := happen_holds fun _ => by simp

@[simp] theorem State.held_closeSlotGroups (k gen : Nat) : (s.closeSlotGroups k gen).held = s.held := by
  simp [State.closeSlotGroups]
@[simp] theorem State.held_stopShares (k gen : Nat) : (s.stopShares k gen).held = s.held :=
  State.held_foldl (fun _ _ => by split <;> simp) _ _
@[simp] theorem State.held_pmVerdict (id : Nat) (v : Verdict) : (s.pmVerdict id v).held = s.held := by
  simp [State.pmVerdict]

@[simp] theorem State.held_pmCall (id : Nat) (f : Frame) : (s.pmCall id f).held = s.held := by
  simp only [State.pmCall]
  split <;> simp

@[simp] theorem State.held_pmScore (id core : Nat) (m : Model) (x : Item) :
    (s.pmScore id core m x).held = s.held := by
  simp only [State.pmScore]
  split <;> simp

@[simp] theorem State.held_pmFault (id core : Nat) (m : Model) (x : Item) :
    (s.pmFault id core m x).held = s.held := by
  simp [State.pmFault]

@[simp] theorem State.held_pmBad (id core : Nat) (m : Model) (x : Item) (check : WordCheck) :
    (s.pmBad id core m x check).held = s.held := by
  simp [State.pmBad]

theorem execPacketModelWalk_holds (t frame core : Nat) (check : WordCheck) :
    OutHolds s.held (execPacketModelWalk t frame core check s) := happen_holds fun _ => by split <;> simp

theorem execPmWaitExpiry_holds (t frame : Nat) : OutHolds s.held (execPmWaitExpiry t frame s) :=
  happen_holds fun _ => by split <;> simp

end HeldRequests

end Sys2Proof.Machine

namespace Sys2Proof.Machine

/-! ### Machine/Classify -/

section HeldClassify

variable {s : State}

@[simp] theorem State.held_modClsIfc (i : Nat) (f : ClsIfc → ClsIfc) : (s.modClsIfc i f).held = s.held := by rfl
@[simp] theorem State.held_trieFault (code : Nat) : (s.trieFault code).held = s.held := by simp [State.trieFault]

@[simp] theorem State.held_classOf (f : Frame) (a : Nat) (bad : Option Nat) :
    (s.classOf f a bad).2.held = s.held := by
  simp only [State.classOf]
  (repeat' split) <;> simp

@[simp] theorem State.held_ruleFault (pipe row : Nat) : (s.ruleFault pipe row).held = s.held := by
  simp [State.ruleFault]
@[simp] theorem State.held_decide' (id : Nat) (d : Decision) : (s.decide' id d).held = s.held := by rfl

@[simp] theorem State.held_ruleAct (id : Nat) : (s.ruleAct id).held = s.held := by
  unfold State.ruleAct
  split <;> simp

@[simp] theorem State.held_macFaulted (pipe k : Nat) : (s.macFaulted pipe k).held = s.held := by
  simp [State.macFaulted]
@[simp] theorem State.held_macWrite (pipe k : Nat) (e : Option MacEntry) : (s.macWrite pipe k e).held = s.held := by
  rfl

@[simp] theorem State.held_macLook (pipe mac vid : Nat) : (s.macLook pipe mac vid).2.held = s.held := by
  simp only [State.macLook]
  split <;> simp

@[simp] theorem State.held_modMac (k : Nat) (f : MacEntry → MacEntry) : (s.modMac k f).held = s.held := by rfl
@[simp] theorem State.held_macFlap (e : MacEntry) : (s.macFlap e).held = s.held := by simp [State.macFlap]

@[simp] theorem State.held_macLearn (ifc mac vid : Nat) : (s.macLearn ifc mac vid).2.held = s.held := by
  simp only [State.macLearn]
  (repeat' split) <;> simp

@[simp] theorem State.held_macThen {id : Nat} {g : State → State} (hg : ∀ s, (g s).held = s.held) :
    (s.macThen id g).held = s.held := by
  simp only [State.macThen]
  (repeat' split) <;> simp [hg]

@[simp] theorem State.held_macStep (id : Nat) : (s.macStep id).held = s.held := by simp [State.macStep]
@[simp] theorem State.held_flowFaulted (pipe a : Nat) : (s.flowFaulted pipe a).held = s.held := by
  simp [State.flowFaulted]
@[simp] theorem State.held_pickRec (pipe : Nat) : (s.pickRec pipe).2.held = s.held := by rfl

theorem State.held_takeLearn {ifc : Nat} {u : State} (h : s.takeLearn ifc = some u) : u.held = s.held := by
  simp only [State.takeLearn] at h
  (repeat' split at h) <;> cases h <;> simp

@[simp] theorem State.held_flowUpdate (id pipe record : Nat) (isNew : Bool) (f : Frame) (r : Nat) :
    (s.flowUpdate id pipe record isNew f r).held = s.held := by
  simp [State.flowUpdate]

@[simp] theorem State.held_flowHit (id pipe : Nat) (entry record : Nat) (f : Frame) :
    (s.flowHit id pipe entry record f).held = s.held := by
  simp [State.flowHit]

@[simp] theorem State.held_flowLearn (id pipe : Nat) (f : Frame) : (s.flowLearn id pipe f).held = s.held := by
  simp only [State.flowLearn]
  (repeat' split) <;> try simp
  all_goals next h => simp [State.held_takeLearn h]

@[simp] theorem State.held_flowMissed (id pipe : Nat) (f : Frame) (a : RuleAction) :
    (s.flowMissed id pipe f a).held = s.held := by
  simp [State.flowMissed]

@[simp] theorem State.held_flowStep (id pipe : Nat) (f : Frame) (a : RuleAction) :
    (s.flowStep id pipe f a).held = s.held := by
  simp only [State.flowStep]
  (repeat' split) <;> simp

@[simp] theorem State.held_cacheHit (pipe : Nat) (f : Frame) : (s.cacheHit pipe f).2.held = s.held := by
  unfold State.cacheHit
  (repeat' split) <;> simp

@[simp] theorem State.held_flowEnter (id pipe : Nat) (f : Frame) (a : RuleAction) :
    (s.flowEnter id pipe f a).held = s.held := by
  simp [State.flowEnter]

@[simp] theorem State.held_ruleStep (id : Nat) (f : Frame) (r : ClassReads) : (s.ruleStep id f r).held = s.held := by
  simp only [State.ruleStep]
  split <;> simp

@[simp] theorem State.held_classify (id : Nat) (f : Frame) (r : ClassReads) : (s.classify id f r).held = s.held := by
  simp [State.classify]

theorem execClassify_holds (t frame : Nat) (r : ClassReads) : OutHolds s.held (execClassify t frame r s) :=
  happen_holds fun _ => by split <;> simp

theorem execFlowMissComplete_holds (t frame : Nat) : OutHolds s.held (execFlowMissComplete t frame s) :=
  happen_holds fun _ => by (repeat' split) <;> simp

@[simp] theorem State.held_learnDone (pipe i : Nat) : (s.learnDone pipe i).held = s.held := by
  unfold State.learnDone
  split <;> simp

@[simp] theorem State.held_wakeLearn (pipe : Nat) (key : FlowKey) : (s.wakeLearn pipe key).held = s.held :=
  State.held_foldl (fun _ _ => by split <;> simp) _ _

theorem execFlowLearnComplete_holds (t pipe recIdx : Nat) : OutHolds s.held (execFlowLearnComplete t pipe recIdx s) :=
  happen_holds fun _ => by split <;> simp

@[simp] theorem State.held_finishLearns (pipe : Nat) : (s.finishLearns pipe).held = s.held := by
  simp [State.finishLearns]
@[simp] theorem State.held_recFreed (pipe i : Nat) : (s.recFreed pipe i).held = s.held := by rfl
@[simp] theorem State.held_freeCleared (p : Nat) (old : List (Nat × Nat)) : (s.freeCleared p old).held = s.held := by
  simp [State.freeCleared]
@[simp] theorem State.held_windowPoke (a : Nat) (data : List Byte) : (s.windowPoke a data).held = s.held := by
  simp [State.windowPoke]

theorem execWinWrite_holds (t : Nat) (f : OuvHdr) (offset : Nat) (data : List Byte) :
    OutHolds s.held (execWinWrite t f offset data s) := onFrame_holds fun _ _ => by split <;> simp

@[simp] theorem writeCtl_holds (f : OuvHdr) (x : Session) (pipe v : Nat) : (s.writeCtl f x pipe v).Holds s.held := by
  unfold State.writeCtl
  (repeat' split) <;> simp

theorem execFlowTableLockSet_holds (t : Nat) (f : OuvHdr) (pipe : Nat) :
    OutHolds s.held (execFlowTableLockSet t f pipe s) := onFrame_holds fun _ _ => by simp

theorem execFlowTableLockClear_holds (t : Nat) (f : OuvHdr) (pipe : Nat) :
    OutHolds s.held (execFlowTableLockClear t f pipe s) := onFrame_holds fun _ _ => by simp

@[simp] theorem State.held_flowDrop (pipe a : Nat) : (s.flowDrop pipe a).held = s.held := by simp [State.flowDrop]

theorem execFlowAgingPass_holds (t pipe entry : Nat) (raced : Bool) :
    OutHolds s.held (execFlowAgingPass t pipe entry raced s) := happen_holds fun _ => by simp

theorem execMacAgingPass_holds (t entry : Nat) (raced : Bool) : OutHolds s.held (execMacAgingPass t entry raced s) :=
  happen_holds fun _ => by (repeat' split) <;> simp

theorem execMacPinRelease_holds (t entry : Nat) : OutHolds s.held (execMacPinRelease t entry s) :=
  happen_holds fun _ => by simp

theorem execRuleScrubPass_holds (t pipe : Nat) (bad : List Nat) : OutHolds s.held (execRuleScrubPass t pipe bad s) :=
  happen_holds fun _ => by simp

@[simp] theorem State.held_clearFlowEntry (pipe entry : Nat) : (s.clearFlowEntry pipe entry).held = s.held := by
  simp [State.clearFlowEntry]
@[simp] theorem State.held_clearMac (k : Nat) : (s.clearMac k).held = s.held := by rfl

theorem execTableEntryRewrite_holds (t table idx : Nat) : OutHolds s.held (execTableEntryRewrite t table idx s) :=
  happen_holds fun _ => by simp

@[simp] theorem State.held_emptyFlows (pipe : Nat) : (s.emptyFlows pipe).held = s.held := by simp [State.emptyFlows]
@[simp] theorem clsApply_held (r : SetRec) : (clsApply s r).held = s.held := by unfold clsApply; split <;> simp

theorem execClassConfig_holds (t : Nat) (h : CmdHdr) (recs : List SetRec) :
    OutHolds s.held (execClassConfig t h recs s) := isain_holds fun _ => by simp

@[simp] theorem flowApply_held (r : SetRec) : (flowApply s r).held = s.held := by unfold flowApply; split <;> simp

theorem execFlowTableConfig_holds (t : Nat) (h : CmdHdr) (recs : List SetRec) :
    OutHolds s.held (execFlowTableConfig t h recs s) := isain_holds fun _ => by simp

@[simp] theorem State.held_engage (table bound : Nat) (h : CmdHdr) : (s.engage table bound h).held = s.held := by rfl

theorem execRuleWrite_holds (t : Nat) (h : CmdHdr) (pipe : Nat) (rows : List (Nat × RuleRow)) (clears : List Nat) :
    OutHolds s.held (execRuleWrite t h pipe rows clears s) := isain_holds fun _ => by simp

theorem execRuleRead_holds (t : Nat) (h : CmdHdr) (pipe start max : Nat) :
    OutHolds s.held (execRuleRead t h pipe start max s) := isain_holds fun _ => by simp

@[simp] theorem State.held_takeNode (v6 : Bool) (n : Nat × Nat) : (s.takeNode v6 n).held = s.held := by
  simp [State.takeNode]

theorem execPrefixAdd_holds (t : Nat) (h : CmdHdr) (v6 : Bool) (len cls : Nat) (pfx : BitVec 128) :
    OutHolds s.held (execPrefixAdd t h v6 len cls pfx s) := isain_holds fun _ => by simp

theorem execPrefixDel_holds (t : Nat) (h : CmdHdr) (v6 : Bool) (len : Nat) (pfx : BitVec 128) :
    OutHolds s.held (execPrefixDel t h v6 len pfx s) := isain_holds fun _ => by simp

theorem execPrefixRead_holds (t : Nat) (h : CmdHdr) (v6 : Bool) (level node start max : Nat) :
    OutHolds s.held (execPrefixRead t h v6 level node start max s) := isain_holds fun _ => by simp

theorem execMacStaticAdd_holds (t : Nat) (h : CmdHdr) (mif vid : Nat) (mac : BitVec 48) :
    OutHolds s.held (execMacStaticAdd t h mif vid mac s) := isain_holds fun _ => by (repeat' split) <;> simp

theorem execMacStaticRemove_holds (t : Nat) (h : CmdHdr) (vid : Nat) (mac : BitVec 48) :
    OutHolds s.held (execMacStaticRemove t h vid mac s) := isain_holds fun _ => by (repeat' split) <;> simp

theorem execMacRead_holds (t : Nat) (h : CmdHdr) (start max : Nat) : OutHolds s.held (execMacRead t h start max s) :=
  isain_holds fun _ => by simp

theorem execMacFlush_holds (t : Nat) (h : CmdHdr) (mif vid : Nat) : OutHolds s.held (execMacFlush t h mif vid s) :=
  isain_holds fun _ => by simp

theorem execFlowDelete_holds (t : Nat) (h : CmdHdr) (pipe : Nat) (key : FlowKey) (raced : Bool) :
    OutHolds s.held (execFlowDelete t h pipe key raced s) :=
  isain_holds fun _ => by dsimp only; (repeat' split) <;> simp

theorem execFlowRead_holds (t : Nat) (h : CmdHdr) (pipe : Nat) (key : FlowKey) :
    OutHolds s.held (execFlowRead t h pipe key s) := isain_holds fun _ => by dsimp only; (repeat' split) <;> simp

end HeldClassify

/-! ### Machine/Egress -/

section HeldEgress

variable {s : State}

@[simp] theorem State.held_police (n bytes : Nat) (f : Frame) : (s.police n bytes f).2.held = s.held := by
  simp only [State.police]
  (repeat' split) <;> simp

@[simp] theorem State.held_policeAll (bytes : Nat) : ∀ (l : List Nat) (f : Frame) (s : State),
    (State.policeAll bytes l f s).2.held = s.held
  | [], _, _ => rfl
  | n :: rest, f, s => by
    have hp : (s.police n bytes f).2.held = s.held := State.held_police n bytes f
    rw [State.policeAll]
    split
    · next h => rw [State.held_policeAll bytes rest, ← hp, h]
    · next h => rw [← hp, h]

@[simp] theorem State.held_modQueue (ifc q0 : Nat) (f : Queue → Queue) : (s.modQueue ifc q0 f).held = s.held := by rfl

@[simp] theorem State.held_releaseSlot (f : Frame) : (s.releaseSlot f).held = s.held := by
  unfold State.releaseSlot
  split <;> rfl

@[simp] theorem State.held_dropFrame (id : Nat) : (s.dropFrame id).held = s.held := by
  unfold State.dropFrame
  split <;> simp

@[simp] theorem State.held_admitQueue (ifc id : Nat) (bs : List Byte) (l3 : Option Nat) :
    (s.admitQueue ifc id bs l3).held = s.held := by
  unfold State.admitQueue
  split <;> simp

@[simp] theorem State.held_sendTo (ifc id : Nat) (f : Frame) (hdr : Option (List Byte)) :
    (s.sendTo ifc id f hdr).held = s.held := by
  simp only [State.sendTo]
  (repeat' split) <;> simp

@[simp] theorem State.held_sendAll (id : Nat) (f : Frame) (hdr : Option (List Byte)) : ∀ (l : List Nat) (s : State),
    (State.sendAll id f hdr l s).held = s.held
  | [], _ => by simp [State.sendAll]
  | [_], _ => by simp [State.sendAll]
  | _ :: i :: rest, _ => by simp [State.sendAll, State.held_sendAll id f hdr (i :: rest)]

@[simp] theorem State.held_discard (id : Nat) (f : Frame) : (s.discard id f).held = s.held := by simp [State.discard]

@[simp] theorem State.held_ship (id : Nat) (f : Frame) (hdr : Option (List Byte)) (pols outs : List Nat) :
    (s.ship id f hdr pols outs).held = s.held := by
  have hp (n : Nat) (l : List Nat) : (s.policeAll n l f).2.held = s.held := State.held_policeAll n l f s
  unfold State.ship
  dsimp only
  split
  · simp
  · split
    · next h => rw [State.held_sendAll, ← hp, h]
    · next h => rw [State.held_dropFrame, ← hp, h]

@[simp] theorem State.held_forward (id : Nat) (f : Frame) (hdr : Option (List Byte)) (pols : List Nat) :
    (s.forward id f hdr pols).held = s.held := by
  unfold State.forward
  split <;> simp

@[simp] theorem State.held_steer (id : Nat) (f : Frame) (hdr : Option (List Byte)) (pols : List Nat) (out : Nat) :
    (s.steer id f hdr pols out).held = s.held := by
  simp [State.steer]

@[simp] theorem State.held_flood (id : Nat) (f : Frame) (hdr : Option (List Byte)) (pols : List Nat) :
    (s.flood id f hdr pols).held = s.held := by
  unfold State.flood
  split <;> simp

@[simp] theorem State.held_l2 (id : Nat) (f : Frame) (hdr : Option (List Byte)) (pols : List Nat) (macBad : Option
    Nat) :
    (s.l2 id f hdr pols macBad).held = s.held := by
  simp only [State.l2]
  (repeat' split) <;> simp

@[simp] theorem State.held_fwdAction (id : Nat) (f : Frame) (a : RuleAction) (macBad : Option Nat) :
    (s.fwdAction id f a macBad).held = s.held := by
  unfold State.fwdAction
  (repeat' split) <;> simp

@[simp] theorem State.held_verdictAction (id : Nat) (f : Frame) (v : Verdict) :
    (s.verdictAction id f v).held = s.held := by
  unfold State.verdictAction
  (repeat' split) <;> simp

@[simp] theorem State.held_dfltCopy (f : Frame) (malformed : Bool) : (s.dfltCopy f malformed).held = s.held := by
  unfold State.dfltCopy
  split <;> simp

@[simp] theorem State.held_dfltAction (id : Nat) (f : Frame) (action : Nat) (malformed : Bool) :
    (s.dfltAction id f action malformed).held = s.held := by
  unfold State.dfltAction
  split <;> simp

@[simp] theorem State.held_egress (id : Nat) (f : Frame) (macBad : Option Nat) :
    (s.egress id f macBad).held = s.held := by
  unfold State.egress
  split <;> simp

theorem execEgressDecision_holds (t frame : Nat) (macBad : Option Nat) :
    OutHolds s.held (execEgressDecision t frame macBad s) := happen_holds fun _ => by split <;> simp

@[simp] theorem State.held_abandon (k : Nat) : (s.abandon k).held = s.held := by simp [State.abandon]

theorem execEgHoldExpiry_holds (t frame : Nat) : OutHolds s.held (execEgHoldExpiry t frame s) :=
  happen_holds fun _ => by (repeat' split) <;> simp

@[simp] theorem State.held_dropHead (ifc q0 id : Nat) : (s.dropHead ifc q0 id).held = s.held := by
  simp [State.dropHead]

@[simp] theorem State.held_trimHead (ifc q : Nat) : ∀ (fuel : Nat) (s : State),
    (State.trimHead ifc q fuel s).held = s.held
  | 0, _ => rfl
  | fuel + 1, s => by
    rw [State.trimHead]
    split
    · rfl
    · simp [State.held_trimHead ifc q fuel]

@[simp] theorem State.held_trimGate (ifc q : Nat) : ∀ (fuel : Nat) (s : State),
    (State.trimGate ifc q fuel s).held = s.held
  | 0, _ => rfl
  | fuel + 1, s => by
    rw [State.trimGate]
    split
    · simp [State.held_trimGate ifc q fuel]
    · rfl

theorem State.held_secure {mode ifc : Nat} {eapol : Bool} {e : State × Option (Nat × Sa)}
    (h : s.secure mode ifc eapol = some e) : e.1.held = s.held := by
  simp only [State.secure] at h
  (repeat' split at h) <;> cases h <;> simp

@[simp] theorem State.held_sentFrom (ifc q0 : Nat) (len wait : Nat) : (s.sentFrom ifc q0 len wait).held = s.held := by
  rfl

@[simp] theorem State.held_sendData (ifc q id : Nat) (f : Frame) : (s.sendData ifc q id f).held = s.held := by
  simp only [State.sendData, State.held_trimHead, State.held_freeFrame, State.held_ite]
  split
  · simp
  · split
    · simp
    · next h => simpa using State.held_secure h

@[simp] theorem State.held_sendOwn (b : Option (Nat × Sa)) (x : Sent) : (s.sendOwn b x).held = s.held := by
  unfold State.sendOwn
  split <;> rfl

@[simp] theorem State.held_sendCtl (ifc : Nat) : (s.sendCtl ifc).held = s.held := by
  simp only [State.sendCtl]
  split
  · rfl
  · split
    · simp
    · next h => simpa using State.held_secure h

@[simp] theorem State.held_drr (ifc strict : Nat) : ∀ (fuel : Nat) (s : State),
    (State.drr ifc strict fuel s).2.held = s.held
  | 0, _ => rfl
  | fuel + 1, s => by
    simp only [State.drr]
    split <;> simp [State.held_drr ifc strict fuel]

@[simp] theorem State.held_pickData (ifc : Nat) : (s.pickData ifc).2.held = s.held := by
  simp only [State.pickData]
  (repeat' split) <;> simp

theorem execTransmitSelect_holds (t ifc : Nat) : OutHolds s.held (execTransmitSelect t ifc s) :=
  happen_holds fun _ => by dsimp only; (repeat' split) <;> simp

theorem execGateEntryAdvance_holds (t ifc : Nat) : OutHolds s.held (execGateEntryAdvance t ifc s) :=
  happen_holds fun _ => by simp

theorem execGateListStart_holds (t ifc : Nat) : OutHolds s.held (execGateListStart t ifc s) :=
  happen_holds fun _ => by simp

@[simp] theorem State.held_drained (port : Nat) : (s.drained port).held = s.held := by
  unfold State.drained
  split <;> simp

theorem execDrainComplete_holds (t port : Nat) : OutHolds s.held (execDrainComplete t port s) :=
  happen_holds fun _ => by simp

@[simp] theorem State.held_clearQueue (ifc q0 : Nat) : (s.clearQueue ifc q0).held = s.held := by
  simp [State.clearQueue]

theorem execDrainTimeout_holds (t port : Nat) : OutHolds s.held (execDrainTimeout t port s) :=
  happen_holds fun _ => by simp

@[simp] theorem egressApply_held (r : SetRec) : (egressApply s r).held = s.held := by
  unfold egressApply
  split <;> rfl

theorem execEgressConfig_holds (t : Nat) (h : CmdHdr) (recs : List SetRec) :
    OutHolds s.held (execEgressConfig t h recs s) := isain_holds fun _ => by simp

@[simp] theorem policerApply_held (r : SetRec) : (policerApply s r).held = s.held := by rfl

theorem execPolicerConfig_holds (t : Nat) (h : CmdHdr) (recs : List SetRec) :
    OutHolds s.held (execPolicerConfig t h recs s) := isain_holds fun _ => by simp

@[simp] theorem removeGates_holds (ifc : Nat) : (s.removeGates ifc).Holds s.held := by
  simp [State.removeGates]

theorem execGateListSet_holds (t : Nat) (h : CmdHdr) (ifc base cycle : Nat) (entries : List (Byte × Nat)) :
    OutHolds s.held (execGateListSet t h ifc base cycle entries s) := isain_holds fun _ => by simp

theorem execGateListRemove_holds (t : Nat) (h : CmdHdr) (ifc : Nat) :
    OutHolds s.held (execGateListRemove t h ifc s) := isain_holds fun _ => by simp

theorem execQueueStats_holds (t : Nat) (h : CmdHdr) (ifc : Nat) : OutHolds s.held (execQueueStats t h ifc s) :=
  isain_holds fun _ => by simp

theorem execQueueStatsClear_holds (t : Nat) (h : CmdHdr) (ifc : Nat) :
    OutHolds s.held (execQueueStatsClear t h ifc s) := isain_holds fun _ => by simp

end HeldEgress

/-! ### Machine/KernelOps -/

section HeldKernelOps

variable {s : State}

@[simp] theorem State.held_noteRun (h : CmdHdr) (status : Nat) : (s.noteRun h status).held = s.held := by
  unfold State.noteRun
  split <;> simp

@[simp] theorem State.held_launchEnd (core : Nat) (d : LaunchDesc) (token : Nat) (asker : Option CmdHdr) (status :
    Nat) :
    (s.launchEnd core d token asker status).held = s.held := by
  unfold State.launchEnd
  split <;> simp

@[simp] theorem State.held_coreTrace (core ctx : Nat) (unit kind : Nat) (status arg since : Nat) (d : LaunchDesc) :
    (s.coreTrace core ctx unit kind status arg since d).held = s.held := by
  simp [State.coreTrace]

@[simp] theorem State.held_spaceTouch (x : Space) (a : Nat) : (s.spaceTouch x a).held = s.held := by
  unfold State.spaceTouch
  split <;> simp

@[simp] theorem State.held_dmaMove (owner : Nat) (sx dx : Space) : ∀ (l : List (Nat × Nat)) (bad : Bool) (s : State),
    (State.dmaMove owner sx dx l bad s).1.held = s.held
  | [], _, _ => rfl
  | _ :: r, _, s => by
    rw [State.dmaMove]
    split
    · rfl
    · simp [State.held_dmaMove owner sx dx r]

@[simp] theorem State.held_dmaRun (core : Nat) (d : BitVec 256) : (s.dmaRun core d).1.held = s.held := by
  simp only [State.dmaRun]
  (repeat' split) <;> simp

@[simp] theorem State.held_putDone (core addr : Nat) (tag status flags : Nat) :
    (s.putDone core addr tag status flags).held = s.held := by
  simp [State.putDone]

@[simp] theorem State.held_dmaFinish (core ctx : Nat) (x : Ctx) (d : BitVec 256) (since : Nat) :
    (s.dmaFinish core ctx x d since).held = s.held := by
  simp [State.dmaFinish]

@[simp] theorem State.held_dmaEnd (core ctx i : Nat) : (s.dmaEnd core ctx i).held = s.held := by
  unfold State.dmaEnd
  (repeat' split) <;> simp

@[simp] theorem State.held_modMx (core a : Nat) (f : MxArray → MxArray) : (s.modMx core a f).held = s.held := by rfl

@[simp] theorem State.held_mxWord (core : Nat) (x : MxJob) (status flags : Nat) :
    (s.mxWord core x status flags).held = s.held := by
  simp [State.mxWord]

@[simp] theorem State.held_mxRecord (core a : Nat) (x : MxJob) (status flags : Nat) :
    (s.mxRecord core a x status flags).held = s.held := by
  simp [State.mxRecord]

@[simp] theorem State.held_mxTell (core a : Nat) (x : MxJob) (status flags : Nat) :
    (s.mxTell core a x status flags).held = s.held := by
  simp [State.mxTell]

@[simp] theorem State.held_mxFlush (core a : Nat) : (s.mxFlush core a).held = s.held :=
  (State.held_modMx _ _ _).trans (State.held_foldl (fun _ _ => by split <;> simp) _ _)
@[simp] theorem State.held_mxHeld (core : Nat) : (s.mxHeld core).held = s.held := by rfl
@[simp] theorem State.held_abortJobs (core ctx a : Nat) : (s.abortJobs core ctx a).held = s.held := by
  simp [State.abortJobs]

@[simp] theorem State.held_drainDma (core ctx status : Nat) : (s.drainDma core ctx status).held = s.held := by
  unfold State.drainDma
  split <;> simp

@[simp] theorem State.held_stopWalks (core ctx : Nat) : (s.stopWalks core ctx).held = s.held :=
  State.held_foldl (fun _ _ => by split <;> simp) _ _
@[simp] theorem State.held_voidMaybe (c i : Nat) : (s.voidMaybe c i).held = s.held := by simp [State.voidMaybe]
@[simp] theorem State.held_voidOwed (core : Nat) : (s.voidOwed core).held = s.held := by simp [State.voidOwed]
@[simp] theorem State.held_cutShort (core ctx : Nat) : (s.cutShort core ctx).held = s.held := by simp [State.cutShort]
@[simp] theorem State.held_dropOpen (core ctx : Nat) : (s.dropOpen core ctx).held = s.held := by rfl

@[simp] theorem State.held_leaveCore (core ctx status : Nat) (x : Ctx) :
    (s.leaveCore core ctx status x).held = s.held := by
  simp [State.leaveCore]

@[simp] theorem State.held_endContext (core ctx status : Nat) : (s.endContext core ctx status).held = s.held := by
  unfold State.endContext
  split <;> simp

@[simp] theorem State.held_endLate (core ctx : Nat) : (s.endLate core ctx).held = s.held := by
  unfold State.endLate
  split <;> simp

end HeldKernelOps

/-! ### Machine/Kernels -/

section HeldKernels

variable {s : State}

theorem execKernelLoad_holds (t : Nat) (h : CmdHdr) (handle addr len : Nat) :
    OutHolds s.held (execKernelLoad t h handle addr len s) := isain_holds fun _ => by simp

theorem execKernelUnload_holds (t : Nat) (h : CmdHdr) (handle : Nat) :
    OutHolds s.held (execKernelUnload t h handle s) := isain_holds fun _ => by simp

@[simp] theorem State.held_placeLaunch (h : CmdHdr) (d : LaunchDesc) : (s.placeLaunch h d).held = s.held := by
  simp [State.placeLaunch]

theorem execKernelLaunch_holds (t : Nat) (h : CmdHdr) (d : LaunchDesc) : OutHolds s.held (execKernelLaunch t h d s) :=
  isain_holds fun _ => by simp

@[simp] theorem State.held_refuseHeld (e : CmdHdr × LaunchDesc) (st : Status) :
    (s.refuseHeld e st).held = s.held := by
  simp [State.refuseHeld]

@[simp] theorem State.held_tryHeld (e : CmdHdr × LaunchDesc) : (s.tryHeld e).held = s.held := by
  unfold State.tryHeld
  (repeat' split) <;> simp

@[simp] theorem State.held_copyArgs (core : Nat) (d : LaunchDesc) : (s.copyArgs core d).held = s.held := by
  simp [State.copyArgs]

@[simp] theorem State.held_startLaunch (core k : Nat) (l : Launch) (img : Option (Nat × Nat)) :
    (s.startLaunch core k l img).held = s.held := by
  simp [State.startLaunch]

@[simp] theorem State.held_dropLaunch (core : Nat) : (s.dropLaunch core).held = s.held := by rfl
@[simp] theorem State.held_abortLaunch (core : Nat) (l : Launch) : (s.abortLaunch core l).held = s.held := by
  simp [State.abortLaunch]

@[simp] theorem State.held_tryLaunch (core : Nat) (l : Launch) : (s.tryLaunch core l).held = s.held := by
  simp only [State.tryLaunch]
  (repeat' split) <;> simp

theorem execKernelStart_holds (t core : Nat) : OutHolds s.held (execKernelStart t core s) :=
  happen_holds fun _ => by split <;> simp

@[simp] theorem State.held_launchFault (core : Nat) (l : Launch) (status : Nat) :
    (s.launchFault core l status).held = s.held := by
  simp [State.launchFault]

@[simp] theorem State.held_imageLoaded (core : Nat) (img : Nat × Nat) (l : Launch) (check : WordCheck) :
    (s.imageLoaded core img l check).held = s.held := by
  simp [State.imageLoaded]

theorem execKernelImageLoadDone_holds (t core kernel : Nat) (check : WordCheck) :
    OutHolds s.held (execKernelImageLoadDone t core kernel check s) := happen_holds fun _ => by split <;> simp

theorem execKernelEnd_holds (t core ctx status : Nat) : OutHolds s.held (execKernelEnd t core ctx status s) :=
  happen_holds fun _ => by simp

@[simp] theorem State.held_stopEncoders (k gen : Nat) : (s.stopEncoders k gen).held = s.held := by
  simp [State.stopEncoders]

theorem execDeadlineCutoff_holds (t slot : Nat) : OutHolds s.held (execDeadlineCutoff t slot s) :=
  happen_holds fun _ => by simp

theorem execKernelMaxRunExpiry_holds (t core ctx : Nat) : OutHolds s.held (execKernelMaxRunExpiry t core ctx s) :=
  happen_holds fun _ => by simp

@[simp] theorem State.held_setReg (core ctx dst v : Nat) : (s.setReg core ctx dst v).held = s.held := by rfl

@[simp] theorem State.held_pageRead (core ctx off : Nat) : (s.pageRead core ctx off).2.held = s.held := by
  unfold State.pageRead
  split <;> rfl

@[simp] theorem State.held_pageWrite (core ctx off : Nat) : (s.pageWrite core ctx off).held = s.held := by
  simp [State.pageWrite]

@[simp] theorem State.held_doAccess (core ctx : Nat) (p : CtxPlace) (x : KAccess) :
    (s.doAccess core ctx p x).held = s.held := by
  unfold State.doAccess
  split <;> simp

@[simp] theorem State.held_runAccesses (core ctx : Nat) : ∀ (l : List KAccess) (s : State),
    (State.runAccesses core ctx l s).held = s.held
  | [], _ => rfl
  | _ :: r, _ => by
    rw [State.runAccesses]
    split <;> simp [State.held_runAccesses core ctx r]

@[simp] theorem State.held_storeAtomic (core ctx dst c a n : Nat) (op : AtomicOp) (arg : Nat) :
    (s.storeAtomic core ctx dst c a n op arg).held = s.held := by
  rfl

theorem execClusterStoreAtomic_holds (t core ctx dst addr : Nat) (wide : Bool) (op : AtomicOp) (arg : Nat) :
    OutHolds s.held (execClusterStoreAtomic t core ctx dst addr wide op arg s) := by
  unfold execClusterStoreAtomic
  refine happen_holds fun _ => ?_
  split
  · split <;> simp
  · simp

theorem execClusterFence_holds (t core ctx : Nat) (acc : List KAccess) :
    OutHolds s.held (execClusterFence t core ctx acc s) := happen_holds fun _ => by simp

theorem execKernelMarkInsn_holds (t core ctx : Nat) (begin : Bool) (mark : Nat) :
    OutHolds s.held (execKernelMarkInsn t core ctx begin mark s) := happen_holds fun _ => by split <;> simp

theorem execDmaPost_holds (t core ctx addr : Nat) : OutHolds s.held (execDmaPost t core ctx addr s) :=
  happen_holds fun _ => by simp

theorem execDmaComplete_holds (t core ctx : Nat) : OutHolds s.held (execDmaComplete t core ctx s) :=
  happen_holds fun _ => by split <;> simp

theorem execReduceGroupOpen_holds (t core ctx op len expected closeTick : Nat) (dest : Nat × Nat) :
    OutHolds s.held (execReduceGroupOpen t core ctx op len expected closeTick dest s) :=
  happen_holds fun _ => by split <;> simp

theorem execReduceContribution_holds (t cluster group : Nat) (data : Option (List W32)) :
    OutHolds s.held (execReduceContribution t cluster group data s) := happen_holds fun _ => by simp

@[simp] theorem State.held_closeWaiting (c i : Nat) : (s.closeWaiting c i).held = s.held := by
  unfold State.closeWaiting
  split <;> simp

theorem execReduceCloseTick_holds (t cluster group : Nat) : OutHolds s.held (execReduceCloseTick t cluster group s) :=
  happen_holds fun _ => by simp

end HeldKernels

/-! ### Machine/Vector -/

section HeldVector

variable {s : State}

theorem execVectorInstruction_holds (t core ctx : Nat) (fmt : VFmt) (op : VOp) (sat : Bool) (dst : Nat) (a b c :
    List W32) :
    OutHolds s.held (execVectorInstruction t core ctx fmt op sat dst a b c s) := happen_holds fun _ => by simp

end HeldVector

/-! ### Machine/Matrix -/

section HeldMatrix

variable {s : State}

@[simp] theorem State.held_mxFail (core a : Nat) (x : MxJob) (status flags : Nat) :
    (s.mxFail core a x status flags).held = s.held := by
  simp [State.mxFail]

@[simp] theorem State.held_mxIssue (core ctx a : Nat) (d : BitVec 512) : (s.mxIssue core ctx a d).held = s.held := by
  unfold State.mxIssue
  split <;> simp

theorem execMatrixJobIssue_holds (t core ctx array addr : Nat) :
    OutHolds s.held (execMatrixJobIssue t core ctx array addr s) := happen_holds fun _ => by simp

@[simp] theorem State.held_mxDrain (core : Nat) (d : BitVec 512) (acc : List W32) :
    (s.mxDrain core d acc).1.held = s.held := by
  simp [State.mxDrain]

@[simp] theorem State.held_arrayFault (core a : Nat) : (s.arrayFault core a).held = s.held := by
  simp [State.arrayFault]
@[simp] theorem State.held_mxDone (core a : Nat) (j : MxJob) : (s.mxDone core a j).held = s.held := by
  simp [State.mxDone]
@[simp] theorem State.held_mxEcc (core a : Nat) (j : MxJob) : (s.mxEcc core a j).held = s.held := by
  simp [State.mxEcc]

theorem execMatrixJobEnd_holds (t core array : Nat) (accFault : Bool) :
    OutHolds s.held (execMatrixJobEnd t core array accFault s) := happen_holds fun _ => by split <;> simp

end HeldMatrix

/-! ### Machine/MemRows -/

section HeldMemRows

variable {s : State}

theorem execMemConfig_holds (t : Nat) (h : CmdHdr) (recs : List SetRec) :
    OutHolds s.held (execMemConfig t h recs s) := isain_holds fun _ => by simp

@[simp] theorem State.held_copyPage (a : Nat) : (s.copyPage a).held = s.held := by simp [State.copyPage]
@[simp] theorem State.held_retirePage (a : Nat) : (s.retirePage a).held = s.held := by simp [State.retirePage]

theorem execMemRetire_holds (t : Nat) (h : CmdHdr) (addr : Nat) : OutHolds s.held (execMemRetire t h addr s) :=
  isain_holds fun _ => by simp

@[simp] theorem State.held_isainHurt (line : Nat) : (s.isainHurt line).held = s.held := by simp [State.isainHurt]

theorem execPatrolScrub_holds (t line : Nat) (check : WordCheck) : OutHolds s.held (execPatrolScrub t line check s) :=
  happen_holds fun _ => by simp

@[simp] theorem State.held_poolEmpty (g a : Nat) : (s.poolEmpty g a).held = s.held := by simp [State.poolEmpty]

theorem execPageRetire_holds (t addr : Nat) : OutHolds s.held (execPageRetire t addr s) :=
  happen_holds fun _ => by simp

theorem execMr4Poll_holds (t region : Nat) (channel rate : Nat) :
    OutHolds s.held (execMr4Poll t region channel rate s) := happen_holds fun _ => by simp

theorem execOscillatorTrack_holds (t region channel : Nat) :
    OutHolds s.held (execOscillatorTrack t region channel s) := happen_holds fun _ => by simp

@[simp] theorem State.held_pick (m : Nat) : (s.pick m).2.held = s.held := by rfl
@[simp] theorem State.held_poisonRow (x : Space) (rows row : Nat) : (s.poisonRow x rows row).held = s.held := by
  simp [State.poisonRow]

@[simp] theorem State.held_instrFault (core : Nat) : (s.instrFault core).held = s.held := by
  simp only [State.instrFault]
  split <;> simp

@[simp] theorem State.held_reduceFault (c : Nat) : (s.reduceFault c).held = s.held := by
  simp only [State.reduceFault]
  (repeat' split) <;> simp

@[simp] theorem State.held_bufferFault : s.bufferFault.held = s.held := by
  simp only [State.bufferFault]
  split <;> simp

@[simp] theorem State.held_restartIsain : s.restartIsain.held = s.held := by simp [State.restartIsain]

@[simp] theorem State.held_sramHurt (k : SramKind) (unit row : Nat) : (s.sramHurt k unit row).held = s.held := by
  unfold State.sramHurt
  split <;> simp

theorem execSramScrub_holds (t : Nat) (kind : SramKind) (unit row : Nat) (check : WordCheck) :
    OutHolds s.held (execSramScrub t kind unit row check s) := happen_holds fun _ => by simp

@[simp] theorem State.held_linkRecord (l lane sub : Nat) : (s.linkRecord l lane sub).held = s.held := by
  simp [State.linkRecord]
@[simp] theorem State.held_removeLane (l lane : Nat) : (s.removeLane l lane).held = s.held := by
  simp [State.removeLane]
@[simp] theorem State.held_replay (l lane : Nat) : (s.replay l lane).held = s.held := by simp [State.replay]

@[simp] theorem State.held_poisonedFlit (f : Flit) : (s.poisonedFlit f).held = s.held := by
  simp only [State.poisonedFlit]
  split <;> simp

@[simp] theorem State.held_giveUp (l lane : Nat) (f : Flit) : (s.giveUp l lane f).held = s.held := by
  simp [State.giveUp]

theorem execLinkFlitReceive_holds (t link lane : Nat) (check : WordCheck) (flit : Flit) (attempt : Nat) :
    OutHolds s.held (execLinkFlitReceive t link lane check flit attempt s) :=
  happen_holds fun _ => by (repeat' split) <;> simp

end HeldMemRows

end Sys2Proof.Machine

namespace Sys2Proof.Machine

/-! ### Machine/FabricOps -/

section HeldFabricOps

variable {s : State}

@[simp] theorem State.held_modPeer (a : Nat) (f : Peer → Peer) : (s.modPeer a f).held = s.held := by rfl
@[simp] theorem State.held_startWatch (a : Nat) : (s.startWatch a).held = s.held := by simp [State.startWatch]
@[simp] theorem State.held_noteWork (a : Nat) : (s.noteWork a).held = s.held := by simp [State.noteWork]
@[simp] theorem State.held_suspect (a c : Nat) : (s.suspect a c).held = s.held := by rfl

@[simp] theorem State.held_putFab (ip port dst channel ftype fseq nMsg : Nat) (fwatch : Bool) (words : List Nat) :
    (s.putFab ip port dst channel ftype fseq nMsg fwatch words).held = s.held := by
  unfold State.putFab
  split <;> simp

@[simp] theorem State.held_fabSendMsgs (fseq dst channel ftype nMsg : Nat) (words : List Nat) :
    (s.fabSendMsgs fseq dst channel ftype nMsg words).held = s.held := by
  unfold State.fabSendMsgs
  split <;> simp

@[simp] theorem State.held_fabSendAs (fseq dst channel ftype : Nat) (words : List Nat) :
    (s.fabSendAs fseq dst channel ftype words).held = s.held := by
  simp [State.fabSendAs]

@[simp] theorem State.held_fabSend (dst channel ftype : Nat) (words : List Nat) :
    (s.fabSend dst channel ftype words).held = s.held := by
  simp [State.fabSend]

@[simp] theorem State.held_fabSendNext (dst ftype : Nat) (words : List Nat) :
    (s.fabSendNext dst ftype words).held = s.held := by
  simp [State.fabSendNext]

@[simp] theorem State.held_fabSendTo (ip port ftype : Nat) (words : List Nat) :
    (s.fabSendTo ip port ftype words).held = s.held := by
  unfold State.fabSendTo
  split <;> simp

@[simp] theorem State.held_fabSendReplies (dst nMsg : Nat) (words : List Nat) :
    (s.fabSendReplies dst nMsg words).held = s.held := by
  simp [State.fabSendReplies]

@[simp] theorem State.held_changeFab (g : Fabric → Fabric) : (s.changeFab g).held = s.held := by
  simp [State.changeFab]
@[simp] theorem State.held_publish (c : ViewChange) : (s.publish c).held = s.held := by simp [State.publish]
@[simp] theorem State.held_reportLoss (a : Nat) : (s.reportLoss a).held = s.held := by simp [State.reportLoss]
@[simp] theorem State.held_endEntry (ring : Nat) (idx : W32) : (s.endEntry ring idx).held = s.held := by rfl

@[simp] theorem State.held_putStatus (status : Option Nat) : (s.putStatus status).2.held = s.held := by
  unfold State.putStatus
  split <;> rfl

@[simp] theorem State.held_endPut (fseq : Nat) (status : Option Nat) : (s.endPut fseq status).held = s.held := by
  unfold State.endPut
  split <;> simp

end HeldFabricOps

/-! ### Machine/FabricServe -/

section HeldFabricServe

variable {s : State}

@[simp] theorem State.held_sendLookups (home channel : Nat) (tags : List Nat) :
    (s.sendLookups home channel tags).held = s.held := by
  simp [State.sendLookups]

theorem execLookupJoinHold_holds (t home : Nat) : OutHolds s.held (execLookupJoinHold t home s) :=
  happen_holds fun _ => by simp

theorem execLookupRto_holds (t tag : Nat) : OutHolds s.held (execLookupRto t tag s) :=
  happen_holds fun _ => by split <;> simp

@[simp] theorem State.held_replyOne (home : Nat) (m : ReplyMsg) : (s.replyOne home m).held = s.held := by
  unfold State.replyOne
  (repeat' split) <;> simp

@[simp] theorem State.held_hold (w : Serve) : (s.hold w).held = s.held := by rfl

@[simp] theorem State.held_served (w : Serve) (x : FTable) (m : LookupMsg) (l : Look) :
    (s.served w x m l).1.held = s.held := by
  unfold State.served
  (repeat' split) <;> simp

@[simp] theorem State.held_serveLookup (src : Nat) (m : LookupMsg) : (s.serveLookup src m).1.held = s.held := by
  unfold State.serveLookup
  (repeat' split) <;> simp

@[simp] theorem State.held_sendReplies (dst : Nat) : ∀ (l : List ReplyMsg) (acc : List Nat) (n : Nat) (s : State),
    (State.sendReplies dst l acc n s).held = s.held
  | [], _, _, _ => by simp [State.sendReplies]
  | _ :: rest, _, _, _ => by simp [State.sendReplies, State.held_sendReplies dst rest]

@[simp] theorem State.held_serveNext (src : Nat) (p : State × List ReplyMsg) (m : LookupMsg) :
    (State.serveNext src p m).1.held = p.1.held := by
  simp [State.serveNext]

@[simp] theorem State.held_serveAll (src : Nat) (msgs : List LookupMsg) : (s.serveAll src msgs).held = s.held := by
  simp [State.serveAll]

@[simp] theorem State.held_putLook (w : Serve) (x : FTable) (m : PutMsg) (l : Look) :
    (s.putLook w x m l).1.held = s.held := by
  unfold State.putLook
  (repeat' split) <;> simp

@[simp] theorem State.held_applyPut (src fseq : Nat) (done : List Nat) (m : PutMsg) (rest : List PutMsg) :
    (s.applyPut src fseq done m rest).1.held = s.held := by
  unfold State.applyPut
  (repeat' split) <;> simp

@[simp] theorem State.held_ackPuts (src fseq : Nat) (done : List Nat) : (s.ackPuts src fseq done).held = s.held := by
  simp [State.ackPuts]

@[simp] theorem State.held_applyPuts (src fseq : Nat) : ∀ (l : List PutMsg) (done : List Nat) (s : State),
    (State.applyPuts src fseq l done s).held = s.held
  | [], _, _ => by simp [State.applyPuts]
  | _ :: rest, _, _ => by
    simp only [State.applyPuts]
    split <;> simp [State.held_applyPuts src fseq rest]

@[simp] theorem State.held_repeatPut (src fseq : Nat) : (s.repeatPut src fseq).held = s.held := by
  unfold State.repeatPut
  split <;> simp

@[simp] theorem State.held_retryLookup (w : Serve) (m : LookupMsg) : (s.retryLookup w m).held = s.held := by
  unfold State.retryLookup
  split <;> simp

@[simp] theorem State.held_retryPut (w : Serve) (fseq : Nat) (done : List Nat) (left : List PutMsg) :
    (s.retryPut w fseq done left).held = s.held := by
  simp only [State.retryPut]
  (repeat' split) <;> simp

@[simp] theorem State.held_retryFetch (tag : Nat) (f : Fetch) : (s.retryFetch tag f).held = s.held := by
  unfold State.retryFetch
  split <;> simp

@[simp] theorem State.held_startPut (ring : Nat) (idx : W32) (p : PutEntry) (home : Nat) :
    (s.startPut ring idx p home).held = s.held := by
  have hrate (u : State) : ((u.takeRate p.msg.part).getD u).held = u.held := by
    cases h : u.takeRate p.msg.part with
    | none => rfl
    | some v => exact State.held_takeRate h
  simp [State.startPut, hrate]

@[simp] theorem State.held_takePut (ring : Nat) : (s.takePut ring).held = s.held := by
  simp only [State.takePut]
  (repeat' split) <;> simp

@[simp] theorem State.held_takePuts (ring : Nat) : ∀ (fuel : Nat) (s : State), (State.takePuts ring fuel s).held = s.held
  | 0, _ => rfl
  | fuel + 1, s => by simp [State.takePuts, State.held_takePuts ring fuel]

@[simp] theorem State.held_retryServe (k : Nat) (w : Serve) : (s.retryServe k w).held = s.held := by
  simp only [State.retryServe]
  (repeat' split) <;> simp

theorem execFeLockRetry_holds (t fetch : Nat) : OutHolds s.held (execFeLockRetry t fetch s) :=
  happen_holds fun _ => by split <;> simp

theorem execFabricPost_holds (t core ctx ring : Nat) (entry : List W64) :
    OutHolds s.held (execFabricPost t core ctx ring entry s) := happen_holds fun _ => by simp

end HeldFabricServe

/-! ### Machine/FabricRows -/

section HeldFabricRows

variable {s : State}

@[simp] theorem State.held_failWork (a : Nat) : (s.failWork a).held = s.held := by simp [State.failWork]
@[simp] theorem State.held_dropServed (a : Nat) : (s.dropServed a).held = s.held := by rfl
@[simp] theorem State.held_losePeer (a : Nat) : (s.losePeer a).held = s.held := by simp [State.losePeer]
@[simp] theorem State.held_acceptFrom (f : FabHdr) : (s.acceptFrom f).held = s.held := by simp [State.acceptFrom]
@[simp] theorem State.held_newStart (a : Nat) : (s.newStart a).held = s.held := by simp [State.newStart]

/-- The state in which a fabric frame was received has them. -/
def FabIn.Holds (d : List Instr × Fuses) : FabIn → Prop
  | .drop u => u.held = d
  | .fresh u => u.held = d
  | .again u => u.held = d

theorem fabIn_holds (ftype : Nat) (f : FabHdr) : (s.fabIn ftype f).Holds s.held := by
  unfold State.fabIn
  dsimp only
  (repeat' split) <;> simp [FabIn.Holds]

theorem fabReceive_redo_holds {t ftype : Nat} {f : FabHdr} {act g : State → State} (ha : ∀ s, (act s).held = s.held)
    (hg : ∀ s, (g s).held = s.held) : OutHolds s.held (s.fabReceive t ftype f act (some g)) :=
  happen_holds fun s => by
    have hin := fabIn_holds ftype f (s := s)
    cases h : s.fabIn ftype f with
    | drop u => simpa [h, FabIn.Holds] using hin
    | fresh u => simpa [h, FabIn.Holds, ha] using hin
    | again u => simpa [h, FabIn.Holds, hg] using hin

theorem fabReceive_holds {t ftype : Nat} {f : FabHdr} {act : State → State} (ha : ∀ s, (act s).held = s.held) :
    OutHolds s.held (s.fabReceive t ftype f act none) :=
  happen_holds fun s => by
    have hin := fabIn_holds ftype f (s := s)
    cases h : s.fabIn ftype f with
    | drop u => simpa [h, FabIn.Holds] using hin
    | fresh u => simpa [h, FabIn.Holds, ha] using hin
    | again u => simpa [h, FabIn.Holds] using hin

theorem execLookupReply_holds (t : Nat) (f : FabHdr) (msgs : List ReplyMsg) :
    OutHolds s.held (execLookupReply t f msgs s) := fabReceive_holds fun _ => by simp

theorem execLookup_holds (t : Nat) (f : FabHdr) (msgs : List LookupMsg) : OutHolds s.held (execLookup t f msgs s) :=
  fabReceive_redo_holds (fun _ => by simp) fun _ => by simp

theorem execPut_holds (t : Nat) (f : FabHdr) (msgs : List PutMsg) : OutHolds s.held (execPut t f msgs s) :=
  fabReceive_redo_holds (fun _ => by simp) fun _ => by simp

theorem execPutAck_holds (t : Nat) (f : FabHdr) (acked : Nat) (statuses : List Nat) :
    OutHolds s.held (execPutAck t f acked statuses s) := fabReceive_holds fun _ => by split <;> simp

theorem execPutRto_holds (t fseq : Nat) : OutHolds s.held (execPutRto t fseq s) :=
  happen_holds fun _ => by split <;> simp

theorem execHeartbeat_holds (t : Nat) (f : FabHdr) : OutHolds s.held (execHeartbeat t f s) :=
  fabReceive_holds fun _ => by simp

theorem execHeartbeatSend_holds (t : Nat) : OutHolds s.held (execHeartbeatSend t s) := happen_holds fun _ => by simp

theorem execPeerLossTimeout_holds (t peer : Nat) : OutHolds s.held (execPeerLossTimeout t peer s) :=
  happen_holds fun _ => by simp

theorem execLostPeerProbe_holds (t peer : Nat) : OutHolds s.held (execLostPeerProbe t peer s) :=
  happen_holds fun _ => by simp

theorem execChannelSuspectExpiry_holds (t peer channel : Nat) :
    OutHolds s.held (execChannelSuspectExpiry t peer channel s) := happen_holds fun _ => by simp

@[simp] theorem State.held_keepFabric : s.keepFabric.held = s.held := by simp [State.keepFabric]
@[simp] theorem State.held_writeAssign (serial a : Nat) : (s.writeAssign serial a).held = s.held := by
  simp [State.writeAssign]
@[simp] theorem State.held_announce (m : JoinMsg) (a boot : Nat) : (s.announce m a boot).held = s.held := by
  simp [State.announce]
@[simp] theorem State.held_tellJoin (m : JoinMsg) (st : Status) (a : Nat) : (s.tellJoin m st a).held = s.held := by
  simp [State.tellJoin]
@[simp] theorem State.held_settleJoins : s.settleJoins.held = s.held := by simp [State.settleJoins]
@[simp] theorem State.held_assign (m : JoinMsg) (a boot : Nat) : (s.assign m a boot).held = s.held := by
  simp [State.assign]
@[simp] theorem State.held_sendAcks : s.sendAcks.held = s.held := by simp [State.sendAcks]
@[simp] theorem State.held_fabStored : s.fabStored.held = s.held := by simp [State.fabStored]
@[simp] theorem State.held_becomeCoord : s.becomeCoord.held = s.held := by simp [State.becomeCoord]
@[simp] theorem State.held_loseCoord : s.loseCoord.held = s.held := by simp [State.loseCoord]
@[simp] theorem State.held_elected : s.elected.held = s.held := by simp [State.elected]

theorem execElectSend_holds (t : Nat) : OutHolds s.held (execElectSend t s) := happen_holds fun _ => by simp

theorem execElect_holds (t : Nat) (f : FabHdr) (serial prio term highView : Nat) :
    OutHolds s.held (execElect t f serial prio term highView s) :=
  fabReceive_holds fun _ => by dsimp only; (repeat' split) <;> simp

theorem execJoinRetry_holds (t : Nat) : OutHolds s.held (execJoinRetry t s) := happen_holds fun _ => by simp

theorem execJoin_holds (t : Nat) (f : FabHdr) (m : JoinMsg) : OutHolds s.held (execJoin t f m s) :=
  fabReceive_holds fun _ => by simp

@[simp] theorem State.held_askView (dst : Nat) (ip : Nat × Nat) : (s.askView dst ip).held = s.held := by
  simp only [State.askView]
  split <;> simp

@[simp] theorem State.held_joinAnswered (src status addr : Nat) (coord : Nat × Nat) :
    (s.joinAnswered src status addr coord).held = s.held := by
  simp [State.joinAnswered]

theorem execJoinReply_holds (t : Nat) (f : FabHdr) (status addr : Nat) (coord : Nat × Nat) :
    OutHolds s.held (execJoinReply t f status addr coord s) := fabReceive_holds fun _ => by simp

@[simp] theorem State.held_dropAssign (a : Nat) : (s.dropAssign a).held = s.held := by simp [State.dropAssign]
@[simp] theorem State.held_releaseAddr (a : Nat) : (s.releaseAddr a).held = s.held := by simp [State.releaseAddr]
@[simp] theorem State.held_sendTable (dst : Nat) : (s.sendTable dst).held = s.held := by simp [State.sendTable]
@[simp] theorem State.held_tookAck (ip : Nat) (c : ViewChange) : (s.tookAck ip c).held = s.held := by
  simp [State.tookAck]

@[simp] theorem State.held_viewAsked (f : FabHdr) (changes : List ViewChange) :
    (s.viewAsked f changes).held = s.held := by
  unfold State.viewAsked
  split
  · simp
  · exact State.held_foldl (fun _ _ => by (repeat' split) <;> simp) _ _

@[simp] theorem State.held_viewRows (rows : List ViewChange) : (s.viewRows rows).held = s.held := by
  simp [State.viewRows]
@[simp] theorem State.held_applyChange (c : ViewChange) : (s.applyChange c).held = s.held := by
  simp [State.applyChange]

@[simp] theorem State.held_viewInOrder (src : Nat) (ip : Nat × Nat) : ∀ (l : List ViewChange) (s : State),
    (State.viewInOrder src ip l s).held = s.held
  | [], _ => rfl
  | _ :: rest, _ => by simp [State.viewInOrder, State.held_viewInOrder src ip rest]

@[simp] theorem State.held_takeAssigns (ip : Nat) (changes : List ViewChange) :
    (s.takeAssigns ip changes).held = s.held := by
  simp [State.takeAssigns]

theorem execView_holds (t : Nat) (f : FabHdr) (changes : List ViewChange) :
    OutHolds s.held (execView t f changes s) := fabReceive_holds fun _ => by simp

@[simp] theorem fabApply_held (r : SetRec) : (fabApply s r).held = s.held := by simp [fabApply]

theorem execFabricConfig_holds (t : Nat) (h : CmdHdr) (recs : List SetRec) :
    OutHolds s.held (execFabricConfig t h recs s) := isain_holds fun _ => by simp

theorem execFabricLeave_holds (t : Nat) (h : CmdHdr) : OutHolds s.held (execFabricLeave t h s) :=
  isain_holds fun _ => by simp

theorem execFabricRelease_holds (t : Nat) (h : CmdHdr) (serial : Nat) :
    OutHolds s.held (execFabricRelease t h serial s) := isain_holds fun _ => by (repeat' split) <;> simp

theorem execFabricWatchAdd_holds (t : Nat) (h : CmdHdr) (addr : Nat) :
    OutHolds s.held (execFabricWatchAdd t h addr s) := isain_holds fun _ => by simp

theorem execFabricWatchRemove_holds (t : Nat) (h : CmdHdr) (addr : Nat) :
    OutHolds s.held (execFabricWatchRemove t h addr s) := isain_holds fun _ => by simp

theorem execFabricStatus_holds (t : Nat) (h : CmdHdr) (start max : Nat) :
    OutHolds s.held (execFabricStatus t h start max s) := isain_holds fun _ => by simp

end HeldFabricRows

/-! ### Machine/Clusters -/

section HeldClusters

variable {s : State}

@[simp] theorem State.held_abortCore (p : Nat) : (s.abortCore p).held = s.held :=
  (State.held_foldl (fun _ _ => by split <;> simp) _ _).trans (State.held_foldl (fun _ _ => by simp) _ _)
@[simp] theorem State.held_endWaiting (p : Nat) : (s.endWaiting p).held = s.held := by simp [State.endWaiting]
@[simp] theorem State.held_dropClusterFetches (c : Nat) : (s.dropClusterFetches c).held = s.held := by
  simp [State.dropClusterFetches]
@[simp] theorem State.held_dropUpdates (c : Nat) : (s.dropUpdates c).held = s.held := by simp [State.dropUpdates]
@[simp] theorem State.held_closeGroups (c : Nat) : (s.closeGroups c).held = s.held := by simp [State.closeGroups]
@[simp] theorem State.held_abortCluster (c : Nat) : (s.abortCluster c).held = s.held := by simp [State.abortCluster]

theorem execReassignGraceExpiry_holds (t cluster : Nat) : OutHolds s.held (execReassignGraceExpiry t cluster s) :=
  happen_holds fun _ => by simp

@[simp] theorem State.held_zeroCore (p : Nat) : (s.zeroCore p).held = s.held := by simp [State.zeroCore]
@[simp] theorem State.held_zeroCluster (c : Nat) : (s.zeroCluster c).held = s.held := by simp [State.zeroCluster]
@[simp] theorem State.held_clusterStopped (c : Nat) : (s.clusterStopped c).held = s.held := by rfl

@[simp] theorem State.held_takeOwner (c : Nat) (l : Leaving) : (s.takeOwner c l).held = s.held := by
  unfold State.takeOwner
  (repeat' split) <;> simp

@[simp] theorem State.held_endReinit (p : Nat) : (s.endReinit p).held = s.held := by
  unfold State.endReinit
  split <;> simp

theorem execClusterResetDone_holds (t cluster : Nat) : OutHolds s.held (execClusterResetDone t cluster s) :=
  happen_holds fun _ => by split <;> simp

@[simp] theorem State.held_leave (h : CmdHdr) (target grace c : Nat) : (s.leave h target grace c).held = s.held := by
  simp [State.leave]

theorem execClusterAssign_holds (t : Nat) (h : CmdHdr) (target graceUs : Nat) (clusters : List Nat) :
    OutHolds s.held (execClusterAssign t h target graceUs clusters s) := isain_holds fun _ => by simp

theorem execClusterConfig_holds (t : Nat) (h : CmdHdr) (recs : List SetRec) :
    OutHolds s.held (execClusterConfig t h recs s) := isain_holds fun _ => by simp

theorem execCoreMapRead_holds (t : Nat) (h : CmdHdr) (start max : Nat) :
    OutHolds s.held (execCoreMapRead t h start max s) := isain_holds fun _ => by simp

end HeldClusters

/-! ### Machine/Recover -/

section HeldRecover

variable {s : State}

theorem execPartitionReinit_holds (t : Nat) (h : CmdHdr) (part : Nat) :
    OutHolds s.held (execPartitionReinit t h part s) := isain_holds fun _ => by simp

@[simp] theorem State.held_revokeRings (p token : Nat) : (s.revokeRings p token).held = s.held := by
  simp [State.revokeRings]

@[simp] theorem State.held_orphan (clusters : List Nat) (k : Nat) : (s.orphan clusters k).held = s.held := by
  simp only [State.orphan]
  split <;> simp

@[simp] theorem State.held_endBarriers (p : Nat) : (s.endBarriers p).held = s.held := by simp [State.endBarriers]
@[simp] theorem State.held_endHeld (p : Nat) : (s.endHeld p).held = s.held := by simp [State.endHeld]

@[simp] theorem State.held_revokeCluster (p c : Nat) : (s.revokeCluster p c).held = s.held := by
  unfold State.revokeCluster
  split <;> simp

@[simp] theorem State.held_revoke (p : Nat) : (s.revoke p).held = s.held := by simp [State.revoke]

theorem execReinitRevoke_holds (t part : Nat) : OutHolds s.held (execReinitRevoke t part s) :=
  happen_holds fun _ => by simp

theorem execOrphanSlotFree_holds (t slot : Nat) : OutHolds s.held (execOrphanSlotFree t slot s) :=
  happen_holds fun _ => by simp

@[simp] theorem State.held_foundHung (k : Nat) : (s.foundHung k).held = s.held := by simp [State.foundHung]

theorem execHungSlotScan_holds (t : Nat) : OutHolds s.held (execHungSlotScan t s) := happen_holds fun _ => by simp

theorem execSpareTest_holds (t core : Nat) (passed : Bool) : OutHolds s.held (execSpareTest t core passed s) :=
  happen_holds fun _ => by split <;> simp

@[simp] theorem State.held_chooseSpare (fails : List Nat) : ∀ (l : List (Nat × MapEntry)) (s : State),
    (State.chooseSpare fails l s).1.held = s.held
  | [], _ => rfl
  | _ :: rest, _ => by
    rw [State.chooseSpare]
    split
    · simp [State.held_chooseSpare fails rest]
    · rfl

@[simp] theorem State.held_leaveSpare (e : MapEntry) : (s.leaveSpare e).held = s.held := by simp [State.leaveSpare]

@[simp] theorem State.held_tellRetired (unit l : Nat) (old new sub : Nat) :
    (s.tellRetired unit l old new sub).held = s.held := by
  simp [State.tellRetired]

@[simp] theorem State.held_tellDamaged (l : Nat) : (s.tellDamaged l).held = s.held := by simp [State.tellDamaged]
@[simp] theorem State.held_loseLogical (l old : Nat) (e : MapEntry) : (s.loseLogical l old e).held = s.held := by
  simp [State.loseLogical]

@[simp] theorem State.held_moveLogical (l old : Nat) (e : MapEntry) (i : Nat) (sp : MapEntry) :
    (s.moveLogical l old e i sp).held = s.held := by
  simp [State.moveLogical]

@[simp] theorem State.held_retireCore (old : Nat) (fails : List Nat) : (s.retireCore old fails).held = s.held := by
  simp only [State.retireCore]
  (repeat' split) <;> simp

theorem execCoreRetire_holds (t core : Nat) (spareFails : List Nat) :
    OutHolds s.held (execCoreRetire t core spareFails s) := happen_holds fun _ => by simp

theorem execDieSilentTimeout_holds (t die : Nat) : OutHolds s.held (execDieSilentTimeout t die s) :=
  happen_holds fun _ => by simp

theorem execIsainHeartbeatMiss_holds (t core : Nat) : OutHolds s.held (execIsainHeartbeatMiss t core s) :=
  happen_holds fun _ => by simp

@[simp] theorem State.held_undo (via : Via) (seq : Nat) : (s.undo via seq).held = s.held := by
  simp only [State.undo]
  (repeat' split) <;> simp

theorem execIsainRestartDone_holds (t : Nat) (undo : List (Via × Nat)) :
    OutHolds s.held (execIsainRestartDone t undo s) := happen_holds fun _ => by simp

end HeldRecover

/-! ### Machine/Admin -/

section HeldAdmin

variable {s : State}

@[simp] theorem State.held_keepPart (p : Nat) : (s.keepPart p).held = s.held := by simp [State.keepPart]

theorem execPartitionEnable_holds (t : Nat) (h : CmdHdr) (part : Nat) :
    OutHolds s.held (execPartitionEnable t h part s) := isain_holds fun _ => by simp

theorem execPartitionDisable_holds (t : Nat) (h : CmdHdr) (part : Nat) :
    OutHolds s.held (execPartitionDisable t h part s) := isain_holds fun _ => by simp

@[simp] theorem partApply_held (r : SetRec) : (partApply s r).held = s.held := by rfl

theorem execPartitionConfig_holds (t : Nat) (h : CmdHdr) (recs : List SetRec) :
    OutHolds s.held (execPartitionConfig t h recs s) := isain_holds fun _ => by simp

theorem execPartitionQuery_holds (t : Nat) (h : CmdHdr) (part : Nat) :
    OutHolds s.held (execPartitionQuery t h part s) := isain_holds fun _ => by simp

theorem execSettingsReadForm_holds (t : Nat) (h : CmdHdr) (cmd : SetCmd) (recs : List SetRec) :
    OutHolds s.held (execSettingsReadForm t h cmd recs s) := isain_holds fun _ => by split <;> simp

@[simp] theorem State.held_startQuiesce (h : CmdHdr) (shut : Bool) : (s.startQuiesce h shut).held = s.held := by
  simp [State.startQuiesce]

theorem execQuiesce_holds (t : Nat) (h : CmdHdr) : OutHolds s.held (execQuiesce t h s) := isain_holds fun _ => by simp

theorem execQuiesceRelease_holds (t : Nat) (h : CmdHdr) : OutHolds s.held (execQuiesceRelease t h s) :=
  isain_holds fun _ => by simp

@[simp] theorem State.held_bfdDown (ifc : Nat) : (s.bfdDown ifc).held = s.held :=
  (State.held_foldl (fun _ _ => by
    split
    · next h => simpa using State.held_secure h
    · simp) _ _).trans (State.held_modIfc _ _)

@[simp] theorem State.held_finishShutdown : s.finishShutdown.held = s.held := by simp [State.finishShutdown]

theorem execDeviceShutdown_holds (t : Nat) (h : CmdHdr) : OutHolds s.held (execDeviceShutdown t h s) :=
  isain_holds fun _ => by simp

theorem execQuiesceDone_holds (t : Nat) : OutHolds s.held (execQuiesceDone t s) := happen_holds fun _ => by simp

theorem State.held_expireBarrier {via : Via} {seq : Nat} {u : State} (h : s.expireBarrier via seq = some u) :
    u.held = s.held := by
  obtain ⟨_, -, rfl⟩ := Option.map_eq_some_iff.mp h
  simp

theorem State.held_expireCommit {via : Via} {seq : Nat} {u : State} (h : s.expireCommit via seq = some u) :
    u.held = s.held := by
  obtain ⟨_, -, rfl⟩ := Option.map_eq_some_iff.mp h
  dsimp only
  split <;> simp

theorem State.held_expireQuiesce {via : Via} {seq : Nat} {u : State} (h : s.expireQuiesce via seq = some u) :
    u.held = s.held := by
  obtain ⟨_, -, rfl⟩ := Option.map_eq_some_iff.mp h
  simp

theorem execCommandTimeout_holds (t : Nat) (via : Via) (seq : Nat) : OutHolds s.held (execCommandTimeout t via seq s) :=
  happen_holds fun s => by
    split
    · next h => exact State.held_expireBarrier h
    · split
      · next h => exact State.held_expireCommit h
      · cases h : s.expireQuiesce via seq with
        | none => rfl
        | some u => exact State.held_expireQuiesce h

theorem execGlobalStop_holds (t : Nat) (h : CmdHdr) : OutHolds s.held (execGlobalStop t h s) :=
  isain_holds fun _ => by simp

theorem execGlobalResume_holds (t : Nat) (h : CmdHdr) : OutHolds s.held (execGlobalResume t h s) :=
  isain_holds fun _ => by simp

end HeldAdmin

/-! ### Machine/Observe -/

section HeldObserve

variable {s : State}

theorem execCounterRead_holds (t : Nat) (h : CmdHdr) (ids : List CounterId) :
    OutHolds s.held (execCounterRead t h ids s) := isain_holds fun _ => by simp

@[simp] theorem takeCounter_held (p : State × List Nat) (c : CounterId) : (takeCounter p c).1.held = p.1.held := by
  rfl

theorem execCounterReadClear_holds (t : Nat) (h : CmdHdr) (ids : List CounterId) :
    OutHolds s.held (execCounterReadClear t h ids s) := isain_holds fun _ => by simp

theorem execRosemaryRead_holds (t : Nat) (h : CmdHdr) (start max : Nat) :
    OutHolds s.held (execRosemaryRead t h start max s) := isain_holds fun _ => by simp

theorem execRosemaryFreeze_holds (t : Nat) (h : CmdHdr) : OutHolds s.held (execRosemaryFreeze t h s) :=
  isain_holds fun _ => by simp

theorem execRosemaryUnfreeze_holds (t : Nat) (h : CmdHdr) : OutHolds s.held (execRosemaryUnfreeze t h s) :=
  isain_holds fun _ => by simp

theorem execRosemaryClear_holds (t : Nat) (h : CmdHdr) (upto : Nat) :
    OutHolds s.held (execRosemaryClear t h upto s) := isain_holds fun _ => by simp

theorem execRosemaryRecord_holds (t kind unit : Nat) (data : List W64) :
    OutHolds s.held (execRosemaryRecord t kind unit data s) := by
  unfold execRosemaryRecord
  refine happen_holds fun _ => ?_
  split <;> simp

theorem execRosemaryLogCopy_holds (t : Nat) : OutHolds s.held (execRosemaryLogCopy t s) :=
  happen_holds fun _ => by simp

theorem execLogRead_holds (t : Nat) (h : CmdHdr) (start max : Nat) : OutHolds s.held (execLogRead t h start max s) :=
  isain_holds fun _ => by simp

theorem execTraceConfig_holds (t : Nat) (h : CmdHdr) (cluster ring mode post : Nat) (trig : W64) :
    OutHolds s.held (execTraceConfig t h cluster ring mode post trig s) := isain_holds fun _ => by simp

@[simp] theorem State.held_markCluster (c kind mark : Nat) : (s.markCluster c kind mark).held = s.held := by rfl

theorem execTraceMarkBegin_holds (t : Nat) (h : CmdHdr) (cluster mark : Nat) :
    OutHolds s.held (execTraceMarkBegin t h cluster mark s) := isain_holds fun _ => by simp

theorem execTraceMarkEnd_holds (t : Nat) (h : CmdHdr) (cluster mark : Nat) :
    OutHolds s.held (execTraceMarkEnd t h cluster mark s) := isain_holds fun _ => by simp

@[simp] theorem State.held_dillLoss (c : Nat) : (s.dillLoss c).held = s.held := by
  unfold State.dillLoss
  split <;> simp

@[simp] theorem State.held_roomFor (n : Nat) (item : RingItem) : (s.roomFor n item).held = s.held := by
  simp [State.roomFor]

theorem execDillDrain_holds (t cluster : Nat) : OutHolds s.held (execDillDrain t cluster s) :=
  happen_holds fun _ => by dsimp only; split <;> simp

@[simp] theorem State.held_buildGraph : s.buildGraph.held = s.held := by rfl

theorem execWaitforRead_holds (t : Nat) (h : CmdHdr) (start max : Nat) :
    OutHolds s.held (execWaitforRead t h start max s) := isain_holds fun _ => by simp

end HeldObserve

/-! ### Machine/Update -/

section HeldUpdate

variable {s : State}

@[simp] theorem State.held_renewLock (h : CmdHdr) : (s.renewLock h).held = s.held := by simp [State.renewLock]
@[simp] theorem State.held_discardLog : s.discardLog.held = s.held := by rfl

theorem execUpdateOpen_holds (t : Nat) (h : CmdHdr) (len : Nat) : OutHolds s.held (execUpdateOpen t h len s) :=
  isain_holds fun _ => by simp

theorem execUpdateData_holds (t : Nat) (h : CmdHdr) (offset : Nat) (data : List Byte) :
    OutHolds s.held (execUpdateData t h offset data s) := isain_holds fun _ => by simp

@[simp] theorem State.held_tellConflict (version : Nat) (digest : List Byte) (k : Nat) :
    (s.tellConflict version digest k).held = s.held := by
  simp [State.tellConflict]

@[simp] theorem State.held_conflict (version : Nat) (digest : List Byte) (k : Nat) :
    (s.conflict version digest k).held = s.held := by
  simp only [State.conflict]
  split <;> simp

theorem execUpdateFinish_holds (t : Nat) (h : CmdHdr) (sigOk : Bool) :
    OutHolds s.held (execUpdateFinish t h sigOk s) := isain_holds fun _ => by dsimp only; split <;> simp

theorem execUpdateActivate_holds (t : Nat) (h : CmdHdr) : OutHolds s.held (execUpdateActivate t h s) :=
  isain_holds fun _ => by simp

theorem execUpdateRollback_holds (t : Nat) (h : CmdHdr) : OutHolds s.held (execUpdateRollback t h s) :=
  isain_holds fun _ => by simp

theorem execUpdateAbort_holds (t : Nat) (h : CmdHdr) : OutHolds s.held (execUpdateAbort t h s) :=
  isain_holds fun _ => by simp

theorem execUpdateStatus_holds (t : Nat) (h : CmdHdr) : OutHolds s.held (execUpdateStatus t h s) :=
  isain_holds fun _ => by simp

theorem execUpdateLockExpiry_holds (t : Nat) : OutHolds s.held (execUpdateLockExpiry t s) :=
  happen_holds fun _ => by simp

theorem execBootStatus_holds (t : Nat) (h : CmdHdr) : OutHolds s.held (execBootStatus t h s) :=
  isain_holds fun _ => by simp

theorem execSettingsSync_holds (t : Nat) (h : CmdHdr) : OutHolds s.held (execSettingsSync t h s) :=
  isain_holds fun _ => by simp

theorem execSettingsAppend_holds (t len : Nat) : OutHolds s.held (execSettingsAppend t len s) :=
  happen_holds fun _ => by split <;> simp

theorem execCertRead_holds (t : Nat) (h : CmdHdr) (start max : Nat) :
    OutHolds s.held (execCertRead t h start max s) := isain_holds fun _ => by simp

theorem execAttest_holds (t : Nat) (h : CmdHdr) (nonce : List Byte) (repAddr : Nat) (sig : List Byte) :
    OutHolds s.held (execAttest t h nonce repAddr sig s) := isain_holds fun _ => by simp

theorem execSessionKeySet_holds (t : Nat) (h : CmdHdr) (part : Nat) (kemCt : List Byte) (wrapped : BitVec 256) :
    OutHolds s.held (execSessionKeySet t h part kemCt wrapped s) := isain_holds fun _ => by simp

theorem execRightsSet_holds (t : Nat) (h : CmdHdr) (part : Nat) (rights : W16) :
    OutHolds s.held (execRightsSet t h part rights s) := isain_holds fun _ => by simp

theorem execDebugUnlock_holds (t : Nat) (h : CmdHdr) (tokAddr tokLen : Nat) (sigOk : Bool) :
    OutHolds s.held (execDebugUnlock t h tokAddr tokLen sigOk s) :=
  isain_holds fun _ => checks_holds (Reply.after_holds (by simp) (checks_holds (by simp) _)) _

end HeldUpdate

end Sys2Proof.Machine

namespace Sys2Proof.Machine

/-! ### The one command that writes a fuse (R414, R416) -/

section RaisedFuses

variable {s u v : State} {f : Fuses}

/-- The queue is kept, and the fuses but for an anti-rollback counter that has not fallen. -/
def Raises (s u : State) : Prop :=
  u.pending = s.pending ∧ u.fuses = { s.fuses with svn := u.fuses.svn } ∧ s.fuses.svn ≤ u.fuses.svn

theorem raises_of_held (h : u.held = s.held) : Raises s u := by
  obtain ⟨hq, hf⟩ := Prod.mk.inj h
  rw [Raises, hf]
  exact ⟨hq, rfl, le_rfl⟩

theorem Raises.trans (h : Raises s u) (k : Raises u v) : Raises s v := by
  obtain ⟨hq, hf, hle⟩ := h
  obtain ⟨kq, kf, kle⟩ := k
  exact ⟨kq.trans hq, kf.trans (by rw [hf]), hle.trans kle⟩

theorem FusedAs.raised (h : FusedAs f s) (hr : Raises s u) : FusedAs f u := by
  obtain ⟨hs, hle⟩ := h
  obtain ⟨-, hu, hr⟩ := hr
  exact ⟨hu.trans (by rw [hs]), hle.trans hr⟩

theorem State.held_updFuses (g : Fuses → Fuses) : (s.updFuses g).held = (s.pending, g s.fuses) := rfl

/-- The counter raised where the running image's is higher. -/
theorem State.raises_raiseSvn : Raises s s.raiseSvn := by
  unfold State.raiseSvn
  dsimp only
  split
  · exact raises_of_held rfl
  · next h =>
    have hup : Raises s (s.updFuses fun f => { f with svn := imageSvn (s.bay.slotMem s.bay.runSlot) }) :=
      ⟨rfl, rfl, le_of_not_ge h⟩
    split
    · exact hup
    · exact hup.trans (raises_of_held (by simp))

theorem raises_of_raiseSvn (hu : u.held = s.held) (hv : v.held = u.raiseSvn.held) : Raises s v :=
  (raises_of_held hu).trans (State.raises_raiseSvn.trans (raises_of_held hv))

/-- A reply behind checks leaves the device as it does alone. -/
theorem checks_leaves {r : Reply} : ∀ {l : List (Bool × Status)}, (checks l r).Leaves u → r.Leaves u
  | [], h => h
  | (true, _) :: _, h => h.elim
  | (false, _) :: l, h => checks_leaves (l := l) h

/-- An outcome is a next state that keeps the queue and raises at most the counter. -/
def RaisesOut (s : State) (o : Host.Outcome State Fault Refusal) : Prop := ∃ u, o = .next u ∧ Raises s u

theorem OutHolds.raises {o : Host.Outcome State Fault Refusal} (h : OutHolds s.held o) : RaisesOut s o :=
  let ⟨u, ho, hu⟩ := h
  ⟨u, ho, raises_of_held hu⟩

theorem execUpdateConfirm_raises (t : Nat) (h : CmdHdr) : RaisesOut s (execUpdateConfirm t h s) := by
  unfold execUpdateConfirm State.isain
  dsimp only
  split
  · refine ⟨_, rfl, ?_⟩
    obtain he | ⟨u, hu, he⟩ := State.held_runCmd_cases ..
    · exact raises_of_held he
    · obtain rfl := checks_leaves hu
      exact raises_of_raiseSvn (by simp) (he.trans (State.held_renewLock h))
  · exact ⟨_, rfl, raises_of_held rfl⟩

/-- Every command keeps the queue and the fuses; only `UPDATE_CONFIRM` touches a fuse, the anti-rollback counter,
which it raises (R384, R414, R416). -/
theorem exec_raises (s : State) : ∀ i : Instr, RaisesOut s (exec i s)
  | .updateConfirm .. => execUpdateConfirm_raises ..
  | .deviceReset .. => (execDeviceReset_holds ..).raises
  | .deviceResetTest .. => (execDeviceResetTest_holds ..).raises
  | .deviceShutdown .. => (execDeviceShutdown_holds ..).raises
  | .powerConfig .. => (execPowerConfig_holds ..).raises
  | .settingsReadForm .. => (execSettingsReadForm_holds ..).raises
  | .bypassForce .. => (execBypassForce_holds ..).raises
  | .bypassReleaseForce .. => (execBypassReleaseForce_holds ..).raises
  | .bypassRearm .. => (execBypassRearm_holds ..).raises
  | .partitionReinit .. => (execPartitionReinit_holds ..).raises
  | .partitionEnable .. => (execPartitionEnable_holds ..).raises
  | .partitionDisable .. => (execPartitionDisable_holds ..).raises
  | .partitionConfig .. => (execPartitionConfig_holds ..).raises
  | .partitionQuery .. => (execPartitionQuery_holds ..).raises
  | .clusterAssign .. => (execClusterAssign_holds ..).raises
  | .clusterConfig .. => (execClusterConfig_holds ..).raises
  | .coreMapRead .. => (execCoreMapRead_holds ..).raises
  | .ringCreate .. => (execRingCreate_holds ..).raises
  | .ringConfig .. => (execRingConfig_holds ..).raises
  | .ringAttach .. => (execRingAttach_holds ..).raises
  | .ringDetach .. => (execRingDetach_holds ..).raises
  | .ringDestroy .. => (execRingDestroy_holds ..).raises
  | .ringQuery .. => (execRingQuery_holds ..).raises
  | .ringRepush .. => (execRingRepush_holds ..).raises
  | .barrier .. => (execBarrier_holds ..).raises
  | .slotQuery .. => (execSlotQuery_holds ..).raises
  | .portConfig .. => (execPortConfig_holds ..).raises
  | .portDrain .. => (execPortDrain_holds ..).raises
  | .portResume .. => (execPortResume_holds ..).raises
  | .portStatus .. => (execPortStatus_holds ..).raises
  | .portTxFrame .. => (execPortTxFrame_holds ..).raises
  | .macsecSaInstall .. => (execMacsecSaInstall_holds ..).raises
  | .macsecSaRemove .. => (execMacsecSaRemove_holds ..).raises
  | .windowOpen .. => (execWindowOpen_holds ..).raises
  | .windowClose .. => (execWindowClose_holds ..).raises
  | .bfdSessionSet .. => (execBfdSessionSet_holds ..).raises
  | .bfdSessionRemove .. => (execBfdSessionRemove_holds ..).raises
  | .timeRead .. => (execTimeRead_holds ..).raises
  | .ptpConfig .. => (execPtpConfig_holds ..).raises
  | .parseLoad .. => (execParseLoad_holds ..).raises
  | .parseCommit .. => (execParseCommit_holds ..).raises
  | .parseConfig .. => (execParseConfig_holds ..).raises
  | .spreadConfig .. => (execSpreadConfig_holds ..).raises
  | .patternLoad .. => (execPatternLoad_holds ..).raises
  | .classConfig .. => (execClassConfig_holds ..).raises
  | .ruleWrite .. => (execRuleWrite_holds ..).raises
  | .ruleRead .. => (execRuleRead_holds ..).raises
  | .prefixAdd .. => (execPrefixAdd_holds ..).raises
  | .prefixDel .. => (execPrefixDel_holds ..).raises
  | .prefixRead .. => (execPrefixRead_holds ..).raises
  | .macStaticAdd .. => (execMacStaticAdd_holds ..).raises
  | .macStaticRemove .. => (execMacStaticRemove_holds ..).raises
  | .macRead .. => (execMacRead_holds ..).raises
  | .macFlush .. => (execMacFlush_holds ..).raises
  | .flowDelete .. => (execFlowDelete_holds ..).raises
  | .flowRead .. => (execFlowRead_holds ..).raises
  | .flowTableConfig .. => (execFlowTableConfig_holds ..).raises
  | .egressConfig .. => (execEgressConfig_holds ..).raises
  | .policerConfig .. => (execPolicerConfig_holds ..).raises
  | .gateListSet .. => (execGateListSet_holds ..).raises
  | .gateListRemove .. => (execGateListRemove_holds ..).raises
  | .queueStats .. => (execQueueStats_holds ..).raises
  | .queueStatsClear .. => (execQueueStatsClear_holds ..).raises
  | .baselineCreate .. => (execBaselineCreate_holds ..).raises
  | .baselineChange .. => (execBaselineChange_holds ..).raises
  | .baselineDelete .. => (execBaselineDelete_holds ..).raises
  | .baselineRead .. => (execBaselineRead_holds ..).raises
  | .ftableCreate .. => (execFtableCreate_holds ..).raises
  | .ftableDestroy .. => (execFtableDestroy_holds ..).raises
  | .ftableQuery .. => (execFtableQuery_holds ..).raises
  | .generationStage .. => (execGenerationStage_holds ..).raises
  | .generationSeal .. => (execGenerationSeal_holds ..).raises
  | .generationCommit .. => (execGenerationCommit_holds ..).raises
  | .generationCommitBind .. => (execGenerationCommitBind_holds ..).raises
  | .generationDrop .. => (execGenerationDrop_holds ..).raises
  | .modelStage .. => (execModelStage_holds ..).raises
  | .modelRemove .. => (execModelRemove_holds ..).raises
  | .modelAbort .. => (execModelAbort_holds ..).raises
  | .modelCommit .. => (execModelCommit_holds ..).raises
  | .modelCommitWait .. => (execModelCommitWait_holds ..).raises
  | .modelQuery .. => (execModelQuery_holds ..).raises
  | .kernelLoad .. => (execKernelLoad_holds ..).raises
  | .kernelUnload .. => (execKernelUnload_holds ..).raises
  | .kernelLaunch .. => (execKernelLaunch_holds ..).raises
  | .memConfig .. => (execMemConfig_holds ..).raises
  | .memRetire .. => (execMemRetire_holds ..).raises
  | .fabricConfig .. => (execFabricConfig_holds ..).raises
  | .fabricLeave .. => (execFabricLeave_holds ..).raises
  | .fabricRelease .. => (execFabricRelease_holds ..).raises
  | .fabricWatchAdd .. => (execFabricWatchAdd_holds ..).raises
  | .fabricWatchRemove .. => (execFabricWatchRemove_holds ..).raises
  | .fabricStatus .. => (execFabricStatus_holds ..).raises
  | .counterRead .. => (execCounterRead_holds ..).raises
  | .counterReadClear .. => (execCounterReadClear_holds ..).raises
  | .rosemaryRead .. => (execRosemaryRead_holds ..).raises
  | .rosemaryFreeze .. => (execRosemaryFreeze_holds ..).raises
  | .rosemaryUnfreeze .. => (execRosemaryUnfreeze_holds ..).raises
  | .rosemaryClear .. => (execRosemaryClear_holds ..).raises
  | .traceConfig .. => (execTraceConfig_holds ..).raises
  | .traceMarkBegin .. => (execTraceMarkBegin_holds ..).raises
  | .traceMarkEnd .. => (execTraceMarkEnd_holds ..).raises
  | .waitforRead .. => (execWaitforRead_holds ..).raises
  | .quiesce .. => (execQuiesce_holds ..).raises
  | .quiesceRelease .. => (execQuiesceRelease_holds ..).raises
  | .globalStop .. => (execGlobalStop_holds ..).raises
  | .globalResume .. => (execGlobalResume_holds ..).raises
  | .updateOpen .. => (execUpdateOpen_holds ..).raises
  | .updateData .. => (execUpdateData_holds ..).raises
  | .updateFinish .. => (execUpdateFinish_holds ..).raises
  | .updateActivate .. => (execUpdateActivate_holds ..).raises
  | .updateRollback .. => (execUpdateRollback_holds ..).raises
  | .updateAbort .. => (execUpdateAbort_holds ..).raises
  | .updateStatus .. => (execUpdateStatus_holds ..).raises
  | .attest .. => (execAttest_holds ..).raises
  | .certRead .. => (execCertRead_holds ..).raises
  | .sessionKeySet .. => (execSessionKeySet_holds ..).raises
  | .rightsSet .. => (execRightsSet_holds ..).raises
  | .debugUnlock .. => (execDebugUnlock_holds ..).raises
  | .bootStatus .. => (execBootStatus_holds ..).raises
  | .settingsSync .. => (execSettingsSync_holds ..).raises
  | .logRead .. => (execLogRead_holds ..).raises
  | .commandTimeout .. => (execCommandTimeout_holds ..).raises
  | .hello .. => (execHello_holds ..).raises
  | .helloPartExpiry .. => (execHelloPartExpiry_holds ..).raises
  | .keyFetch .. => (execKeyFetch_holds ..).raises
  | .ringWrite .. => (execRingWrite_holds ..).raises
  | .doorbellProduce .. => (execDoorbellProduce_holds ..).raises
  | .doorbellRelease .. => (execDoorbellRelease_holds ..).raises
  | .mboxReq .. => (execMboxReq_holds ..).raises
  | .winWrite .. => (execWinWrite_holds ..).raises
  | .winRead .. => (execWinRead_holds ..).raises
  | .flowTableLockSet .. => (execFlowTableLockSet_holds ..).raises
  | .flowTableLockClear .. => (execFlowTableLockClear_holds ..).raises
  | .hostClose t f status => (execHostClose_holds t f status).raises
  | .sessionIdleTimeout .. => (execSessionIdleTimeout_holds ..).raises
  | .ackSend .. => (execAckSend_holds ..).raises
  | .creditAck .. => (execCreditAck_holds ..).raises
  | .ringPush .. => (execRingPush_holds ..).raises
  | .contextFetch .. => (execContextFetch_holds ..).raises
  | .requestAdmit .. => (execRequestAdmit_holds ..).raises
  | .slotWaitExpiry .. => (execSlotWaitExpiry_holds ..).raises
  | .fenceEntry .. => (execFenceEntry_holds ..).raises
  | .fenceComplete .. => (execFenceComplete_holds ..).raises
  | .nopEntry .. => (execNopEntry_holds ..).raises
  | .commandEntry .. => (execCommandEntry_holds ..).raises
  | .ringFullStallExpiry .. => (execRingFullStallExpiry_holds ..).raises
  | .frameReceive .. => (execFrameReceive_holds ..).raises
  | .pfcReceive .. => (execPfcReceive_holds ..).raises
  | .arpNdEcho .. => (execArpNdEcho_holds ..).raises
  | .chiveParse .. => (execChiveParse_holds ..).raises
  | .chiveGroupRewrite .. => (execChiveGroupRewrite_holds ..).raises
  | .classify .. => (execClassify_holds ..).raises
  | .flowMissComplete .. => (execFlowMissComplete_holds ..).raises
  | .reverseLookupDone .. => (execReverseLookupDone_holds ..).raises
  | .packetModelWalk .. => (execPacketModelWalk_holds ..).raises
  | .pmWaitExpiry .. => (execPmWaitExpiry_holds ..).raises
  | .patternScanStart .. => (execPatternScanStart_holds ..).raises
  | .patternScanEnd .. => (execPatternScanEnd_holds ..).raises
  | .egressDecision .. => (execEgressDecision_holds ..).raises
  | .egHoldExpiry .. => (execEgHoldExpiry_holds ..).raises
  | .transmitSelect .. => (execTransmitSelect_holds ..).raises
  | .gateEntryAdvance .. => (execGateEntryAdvance_holds ..).raises
  | .gateListStart .. => (execGateListStart_holds ..).raises
  | .laneFail .. => (execLaneFail_holds ..).raises
  | .fallbackTimeout .. => (execFallbackTimeout_holds ..).raises
  | .linkUp .. => (execLinkUp_holds ..).raises
  | .linkDown .. => (execLinkDown_holds ..).raises
  | .bypassLinkTimeout .. => (execBypassLinkTimeout_holds ..).raises
  | .bypassRetryExpiry .. => (execBypassRetryExpiry_holds ..).raises
  | .bypassHoldExpiry .. => (execBypassHoldExpiry_holds ..).raises
  | .drainComplete .. => (execDrainComplete_holds ..).raises
  | .drainTimeout .. => (execDrainTimeout_holds ..).raises
  | .ptpMessageReceive .. => (execPtpMessageReceive_holds ..).raises
  | .ppsInEdge .. => (execPpsInEdge_holds ..).raises
  | .ppsOutPulse .. => (execPpsOutPulse_holds ..).raises
  | .bfdReceive .. => (execBfdReceive_holds ..).raises
  | .bfdTxTimer .. => (execBfdTxTimer_holds ..).raises
  | .bfdDetectTimeout .. => (execBfdDetectTimeout_holds ..).raises
  | .slotRunning .. => (execSlotRunning_holds ..).raises
  | .lookupJoinHold .. => (execLookupJoinHold_holds ..).raises
  | .localLookupDone .. => (execLocalLookupDone_holds ..).raises
  | .feLockRetry .. => (execFeLockRetry_holds ..).raises
  | .fetchEndTick .. => (execFetchEndTick_holds ..).raises
  | .walkComplete .. => (execWalkComplete_holds ..).raises
  | .shardRecopyDone .. => (execShardRecopyDone_holds ..).raises
  | .deadlineCutoff .. => (execDeadlineCutoff_holds ..).raises
  | .reduceGroupOpen .. => (execReduceGroupOpen_holds ..).raises
  | .reduceContribution .. => (execReduceContribution_holds ..).raises
  | .reduceCloseTick .. => (execReduceCloseTick_holds ..).raises
  | .kernelStart .. => (execKernelStart_holds ..).raises
  | .kernelImageLoadDone .. => (execKernelImageLoadDone_holds ..).raises
  | .kernelEnd .. => (execKernelEnd_holds ..).raises
  | .kernelMaxRunExpiry .. => (execKernelMaxRunExpiry_holds ..).raises
  | .vectorInstruction .. => (execVectorInstruction_holds ..).raises
  | .clusterStoreAtomic .. => (execClusterStoreAtomic_holds ..).raises
  | .clusterFence .. => (execClusterFence_holds ..).raises
  | .kernelMarkInsn .. => (execKernelMarkInsn_holds ..).raises
  | .dmaPost .. => (execDmaPost_holds ..).raises
  | .dmaComplete .. => (execDmaComplete_holds ..).raises
  | .matrixJobIssue .. => (execMatrixJobIssue_holds ..).raises
  | .matrixJobEnd .. => (execMatrixJobEnd_holds ..).raises
  | .reassignGraceExpiry .. => (execReassignGraceExpiry_holds ..).raises
  | .clusterResetDone .. => (execClusterResetDone_holds ..).raises
  | .rsUpdateDone .. => (execRsUpdateDone_holds ..).raises
  | .rsUpdateTimeout .. => (execRsUpdateTimeout_holds ..).raises
  | .baselineWindowClose .. => (execBaselineWindowClose_holds ..).raises
  | .generationRetire .. => (execGenerationRetire_holds ..).raises
  | .generationDropDone .. => (execGenerationDropDone_holds ..).raises
  | .epochRetire .. => (execEpochRetire_holds ..).raises
  | .modelCommitFlip .. => (execModelCommitFlip_holds ..).raises
  | .barrierComplete .. => (execBarrierComplete_holds ..).raises
  | .quiesceDone .. => (execQuiesceDone_holds ..).raises
  | .heartbeat .. => (execHeartbeat_holds ..).raises
  | .join .. => (execJoin_holds ..).raises
  | .joinReply .. => (execJoinReply_holds ..).raises
  | .view .. => (execView_holds ..).raises
  | .elect .. => (execElect_holds ..).raises
  | .lookup .. => (execLookup_holds ..).raises
  | .lookupReply .. => (execLookupReply_holds ..).raises
  | .put .. => (execPut_holds ..).raises
  | .putAck .. => (execPutAck_holds ..).raises
  | .fabricPost .. => (execFabricPost_holds ..).raises
  | .heartbeatSend .. => (execHeartbeatSend_holds ..).raises
  | .electSend .. => (execElectSend_holds ..).raises
  | .joinRetry .. => (execJoinRetry_holds ..).raises
  | .peerLossTimeout .. => (execPeerLossTimeout_holds ..).raises
  | .lostPeerProbe .. => (execLostPeerProbe_holds ..).raises
  | .lookupRto .. => (execLookupRto_holds ..).raises
  | .putRto .. => (execPutRto_holds ..).raises
  | .channelSuspectExpiry .. => (execChannelSuspectExpiry_holds ..).raises
  | .pwrgdRise .. => (execPwrgdRise_holds ..).raises
  | .pwrgdFall .. => (execPwrgdFall_holds ..).raises
  | .coldRstNFall .. => (execColdRstNFall_holds ..).raises
  | .coldRstNRise .. => (execColdRstNRise_holds ..).raises
  | .warmRstNFall .. => (execWarmRstNFall_holds ..).raises
  | .warmRstNRise .. => (execWarmRstNRise_holds ..).raises
  | .startWatchdogExpiry .. => (execStartWatchdogExpiry_holds ..).raises
  | .sdRefclkLoss .. => (execSdRefclkLoss_holds ..).raises
  | .sdRefclkReturn .. => (execSdRefclkReturn_holds ..).raises
  | .sysRefclkLoss .. => (execSysRefclkLoss_holds ..).raises
  | .freezeNFall .. => (execFreezeNFall_holds ..).raises
  | .freezeNRise .. => (execFreezeNRise_holds ..).raises
  | .jtagInstruction .. => (execJtagInstruction_holds ..).raises
  | .smbPwrCapWrite .. => (execSmbPwrCapWrite_holds ..).raises
  | .smbAlertStatusClear .. => (execSmbAlertStatusClear_holds ..).raises
  | .smbWriteRefused t offset value => (execSmbWriteRefused_holds t offset value).raises
  | .clusterThermalStep .. => (execClusterThermalStep_holds ..).raises
  | .xDieHot .. => (execXDieHot_holds ..).raises
  | .thermtrip .. => (execThermtrip_holds ..).raises
  | .voltageDroop .. => (execVoltageDroop_holds ..).raises
  | .powerSample .. => (execPowerSample_holds ..).raises
  | .ceilingUpdate .. => (execCeilingUpdate_holds ..).raises
  | .timeBeacon .. => (execTimeBeacon_holds ..).raises
  | .flowAgingPass .. => (execFlowAgingPass_holds ..).raises
  | .macAgingPass .. => (execMacAgingPass_holds ..).raises
  | .macPinRelease .. => (execMacPinRelease_holds ..).raises
  | .ruleScrubPass .. => (execRuleScrubPass_holds ..).raises
  | .tableEntryRewrite .. => (execTableEntryRewrite_holds ..).raises
  | .patrolScrub .. => (execPatrolScrub_holds ..).raises
  | .sramScrub .. => (execSramScrub_holds ..).raises
  | .mr4Poll .. => (execMr4Poll_holds ..).raises
  | .oscillatorTrack .. => (execOscillatorTrack_holds ..).raises
  | .pageRetire .. => (execPageRetire_holds ..).raises
  | .linkFlitReceive .. => (execLinkFlitReceive_holds ..).raises
  | .dieSilentTimeout .. => (execDieSilentTimeout_holds ..).raises
  | .devResetRunClear .. => (execDevResetRunClear_holds ..).raises
  | .isainHeartbeatMiss .. => (execIsainHeartbeatMiss_holds ..).raises
  | .isainRestartDone .. => (execIsainRestartDone_holds ..).raises
  | .hungSlotScan .. => (execHungSlotScan_holds ..).raises
  | .reinitRevoke .. => (execReinitRevoke_holds ..).raises
  | .orphanSlotFree .. => (execOrphanSlotFree_holds ..).raises
  | .spareTest .. => (execSpareTest_holds ..).raises
  | .coreRetire .. => (execCoreRetire_holds ..).raises
  | .settingsAppend .. => (execSettingsAppend_holds ..).raises
  | .updateLockExpiry .. => (execUpdateLockExpiry_holds ..).raises
  | .rosemaryRecord .. => (execRosemaryRecord_holds ..).raises
  | .rosemaryLogCopy .. => (execRosemaryLogCopy_holds ..).raises
  | .dillDrain .. => (execDillDrain_holds ..).raises
  | .pfcPauseExpiry .. => (execPfcPauseExpiry_holds ..).raises
  | .flowLearnComplete .. => (execFlowLearnComplete_holds ..).raises
  | .deviceResetApply .. => (execDeviceResetApply_holds ..).raises
  | .wallTimeHoldover .. => (execWallTimeHoldover_holds ..).raises

end RaisedFuses

/-- Settles O6: every row's meaning is one of the shared ways to run a command, which answer a next state, and no
operation on the state touches the queue. -/
theorem commandsAlwaysAnswer : Obligations.CommandsAlwaysAnswer := by
  unfold Obligations.CommandsAlwaysAnswer
  intro c s
  obtain ⟨u, hu, hq, -⟩ := exec_raises s c
  exact ⟨u, hu, hq⟩

/-- Settles O5: a step is a command or nothing, and only `UPDATE_CONFIRM` writes a fuse, the counter, which it
raises. -/
theorem fusesKept : Obligations.FusesKept := by
  unfold Obligations.FusesKept
  intro f s s' hf hstep
  cases hq : s.pending with
  | nil =>
    rw [step_idle hq] at hstep
    cases hstep
    exact hf
  | cons c rest =>
    rw [step_front hq] at hstep
    obtain ⟨u, hu, hr⟩ := exec_raises { s with pending := rest } c
    rw [hu] at hstep
    cases hstep
    exact FusedAs.raised (s := { s with pending := rest }) hf hr

end Sys2Proof.Machine
